-- ==== Sys2Proof/Word.lean ====
section
/-! DEFINITION. The words the manual counts in: bytes, 64-bit registers, and plain bit fields of numbers. -/
namespace Sys2Proof

/-- One byte of a memory (R95). -/
abbrev Byte := BitVec 8

/-- One 64-bit register (R92, R131 and the other register chapters). -/
abbrev Word := BitVec 64

/-- The field of `len` bits of the number `n` that starts at bit `lo` (R11). -/
def bitsAt (n lo len : Nat) : Nat := n / 2 ^ lo % 2 ^ len

/-- Bit `i` of the number `n` (R11). -/
def bitAt (n i : Nat) : Bool := n / 2 ^ i % 2 == 1

/-- The two's complement value of the `w`-bit number `n`. -/
def signedOf (w n : Nat) : Int :=
  if n % 2 ^ w < 2 ^ (w - 1) then (n % 2 ^ w : Nat) else (n % 2 ^ w : Nat) - (2 : Int) ^ w

/-- The `w`-bit two's complement code of the integer `z`. -/
def codeOf (w : Nat) (z : Int) : Nat := (z % (2 : Int) ^ w).toNat

/-- The quotient of `a` by `b`, rounded up. -/
def ceilDiv (a b : Nat) : Nat := (a + b - 1) / b

end Sys2Proof
end

