-- ==== Sys2Proof/Syntax.lean ====
section
/-! DEFINITION. The commands of the module: one constructor for each row of the table (opcode_table.json), and the plain
records that they carry. Physical facts that a rule speaks of (a failed check, a voltage, a signature that verifies) are
operands of the command that notices them. -/
namespace Sys2Proof

/-- A torus coordinate (R14). -/
structure Coord where
  x : Nat := 0
  y : Nat := 0
  z : Nat := 0
deriving DecidableEq, Repr, Inhabited

/-- The ARGS fields of a PRODUCT (R361), with the names of the companion it adds into (R157, R159), which R361 gives no
field for (log entry 5). -/
structure ProductArgs where
  sfmt : Nat := 1
  pfmt : Nat := 1
  colSkew : Bool := false
  outBf16 : Bool := false
  cont : Bool := false
  cstart : Bool := false
  dest : Bool := false
  ssrc : Bool := false
  psrc : Bool := false
  sbase : Nat := 0
  pbase : Nat := 0
  matrix : Nat := 0
  panel : Nat := 0
  key : Nat := 0
  upset : Nat := 0
deriving DecidableEq, Repr, Inhabited

/-- The ARGS fields of a HALO (R362). -/
structure HaloArgs where
  companion : Bool := false
  ccw : Bool := false
  back : Bool := false
  hop : Nat := 1
deriving DecidableEq, Repr, Inhabited

/-- A fabric message: the header of R442 and content bytes; `len` is LENGTH where the bytes are those of one flit only. -/
structure FabricMsg where
  kind : Nat := 1
  legacy : Bool := false
  dest : Coord := {}
  src : Coord := {}
  route : Nat := 0
  coll : Nat := 0xFFFF
  offset : Nat := 0
  deadline : Nat := 0
  nx : Nat := 0
  ny : Nat := 0
  nz : Nat := 0
  sx : Nat := 0
  sy : Nat := 0
  sz : Nat := 0
  stage : Nat := 0
  remain : Nat := 0
  msgid : Nat := 0
  start : Nat := 0
  len : Nat := 0
  content : List Nat := []
deriving DecidableEq, Repr, Inhabited

/-- An IDENT record as a port receives it (R576, R579), with whether its certificate chain verifies. -/
structure IdentRec where
  idHash : List Nat := []
  claimed : Coord := {}
  mapHash : List Nat := []
  aligned : Bool := false
  chainOk : Bool := true
deriving DecidableEq, Repr, Inhabited

/-- A key-handshake message as a port receives it (R539), with whether its chain and signature verify. -/
structure KeyxRec where
  n : Nat := 0
  data : List Nat := []
  idHash : List Nat := []
  chainOk : Bool := true
  sigOk : Bool := true
deriving DecidableEq, Repr, Inhabited

/-- The control records of VC0 (R435) with the fields their rules give. R435 gives their codes and no byte layout
(log entry 6); `whom` is the coordinate that a record travels to over several hops. -/
inductive CtlRec where
  | barArrive (unit sense total : Nat)
  | barDepart (unit sense beat : Nat)
  | barOpen (unit sense : Nat) (up : Bool)
  | holdStart (rv step : Nat) (src : Coord)
  | holdEnd (rv step : Nat) (src : Coord) (shift : Nat)
  | align (beat phase : Nat) (src : Coord) (hops : Nat)
  | ident (r : IdentRec)
  | keyxInit (r : KeyxRec)
  | keyxResp (r : KeyxRec)
  | keyxDone (n : Nat)
  | delivered (src : Coord) (msgid : Nat)
  | residueRetry (whom : Coord) (msgid index : Nat)
  | gatherRefused (whom : Coord) (msgid : Nat) (owner : Coord)
  | mcastDone (src : Coord) (msgid : Nat)
  | mcastComplete (src : Coord) (msgid : Nat)
  | mcastLaggard (whom : Coord) (msgid : Nat) (member : Coord) (missing : Nat)
  | catchup (whom : Coord) (msgid : Nat) (branch : Coord) (line gap : Nat)
  | ready (broadcast : Bool)
deriving DecidableEq, Repr

/-- A flit (R429, R430): its header fields, its payload (control records on VC0, message bytes on the others), and whether
its CRC, its codewords and its group's tag check. -/
structure Flit where
  vc : Nat := 0
  typ : Nat := 0
  groupEnd : Bool := false
  keyPhase : Bool := false
  seq : Nat := 0
  ackD : Nat := 0
  ackC : Nat := 0
  creditVc : Nat := 0
  credit : Nat := 0
  msg : Nat := 0
  records : List CtlRec := []
  payload : List Nat := []
  header : Option FabricMsg := none
  stamp : Option (Nat × Nat) := none
  crcOk : Bool := true
  fecOk : Bool := true
  /-- Has the codeword that failed been counted with an earlier flit (R428)? -/
  fecCounted : Bool := false
  fecCorrected : Nat := 0
  tagOk : Bool := true
deriving DecidableEq, Repr, Inhabited

/-- What a training step brings (R425, R466, R469): the lanes that locked, the peer's highest version and the least round
trip. -/
structure TrainResult where
  lanes : Nat := 0xFFFF
  major : Nat := 2
  minor : Nat := 1
  rtt : Nat := 0
deriving DecidableEq, Repr, Inhabited

/-- What the self-test finds (R35, R517, R553, R570): the test that fails (0 for none) and its detail, the bypassed positions
of the fuse map, the firmware slot that verifies, the locked clock domains and the milliseconds taken. -/
structure SelfTestResult where
  failed : Nat := 0
  detail : Nat := 0
  bypass : Nat := 0
  slotB : Bool := false
  fwVersion : Nat := 0
  fuseSvn : Nat := 0
  locked : Nat := 0
  elapsed : Nat := 0
  mv : Nat := 48000
deriving DecidableEq, Repr, Inhabited

/-- What a beat boundary brings from outside: the junction sensors in tenths of a degree (R553), and the consumer words of the four
completion rings and the two event rings as they are read from host memory (R602, R622). An empty list brings no reading. -/
structure BeatSeen where
  sensors : List Nat := []
  cq : List Nat := []
  evq : List Nat := []
deriving DecidableEq, Repr, Inhabited

/-- A command-ring entry (R595). -/
structure RingEntry where
  notify : Bool := false
  notifyLast : Bool := false
  seqno : Nat := 0
  first : Nat := 0
  count : Nat := 0
  token : Nat := 0
deriving DecidableEq, Repr, Inhabited

/-- One partition's part of PARTITION_CONFIG (R514, R608). -/
structure PartCfg where
  owner : Nat := 0
  links : Nat := 0
  confidential : Bool := false
  flrReset : Bool := false
deriving DecidableEq, Repr, Inhabited

/-- The commands. `k` is a core or the lowest core of a partition, `c` a context, `e` a stream engine, `a` an array of the
core, `A` an array of the die, `p` a link port, `st` a stack, `h` a host port, and `i` a mailbox interface: 0 and 1 the host
ports, 2 SMBus. -/
inductive Instr where
  /-- Sequencer instruction that arrives at and departs the step barrier, then sets the anchor beat and the step number. (R327). -/
  | stepStart (k c unit : Nat)
  /-- Sequencer instruction after which the context issues nothing more in this step; the step ends when every context has issued it. (R366). -/
  | endStep (k c : Nat)
  /-- Stream descriptor kind that raw-copies tiles between HBM and core store without any check. (R172). -/
  | fetch (k c e idx : Nat)
  /-- Stream descriptor kind that moves tiles through the convert stage into core store or a local store. (R172). -/
  | feed (k c e idx : Nat)
  /-- Stream descriptor kind that injects a panel from core store into a ring input, backward when BACK is set. (R172). -/
  | inject (k c e idx : Nat) (back : Bool)
  /-- Stream descriptor kind that writes store-stage output to memory, a feeder queue or a Stratus destination. (R172). -/
  | store (k c e idx : Nat)
  /-- Stream descriptor kind that reads a HANDOFF companion half into the reduction unit. (R164). -/
  | handoff (k c e idx : Nat)
  /-- Stream descriptor kind that gathers rows by index into the feeder queue, tagged variable-latency. (R172). -/
  | gather (k c e idx : Nat)
  /-- Stream descriptor kind that counts bytes written from outside the core into a half and releases it at the count. (R663). -/
  | receive (k c e idx : Nat)
  /-- Sequencer release of a buffer-link half by producer or consumer; lulls when a variable-latency write is pending. (R183). -/
  | release (k c link : Nat) (consumer : Bool)
  /-- Sequencer instruction that issues one panel product on an array in row-skew or column-skew mode. (R50). -/
  | product (k c a : Nat) (p : ProductArgs)
  /-- Sequencer instruction that forwards an array's panel or companion on a Halo link, subject to slot checks. (R67). -/
  | halo (k c a : Nat) (h : HaloArgs)
  /-- Sequencer VECTOR issue of an elementwise vector descriptor, looping in hardware over its operands. (R218). -/
  | vectorDescriptor (k c idx : Nat) (upset : Bool)
  /-- VECTOR issue of an optimizer update descriptor, with the step-skew, freeze and schedule-engine work at issue. (R235). -/
  | updateDescriptor (k c idx : Nat)
  /-- VECTOR issue of a thinning descriptor into the reduction unit's four-entry queue. (R274). -/
  | thinningDescriptor (k c idx : Nat)
  /-- VECTOR issue of a BADD descriptor that adds the replica slots into the accumulator in REPLICA order. (R303). -/
  | badd (k c idx : Nat)
  /-- Re-arm point that copies the bases of armed persistent slots that are due and idle. (R197). -/
  | rearm (k c : Nat)
  /-- Sequencer instruction that starts zeroing a collective's accumulator for the current step. (R301). -/
  | arm (k c coll : Nat)
  /-- BARRIER operation with the arrive bit, counting the core's arrival under its sense or holding it. (R414). -/
  | barrierArrive (k c unit sense : Nat)
  /-- BARRIER operation with the depart bit, completing when DONE is set or waiting or faulting under R417. (R415). -/
  | barrierDepart (k c unit sense : Nat)
  /-- Sequencer instruction that repeats the next BODY instructions COUNT times at PERIOD. (R364). -/
  | loop (k c : Nat) (step : Int) (count period body : Nat)
  /-- An engine's issue of one header block or tile every INTERVAL cycles of a running descriptor. (R174). -/
  | streamIssue (k e : Nat) (upset : Bool)
  /-- A variable-latency read lands at its destination, completing any release waiting on it and ending the Lull. (R192). -/
  | readLands (id : Nat) (upset : Bool)
  /-- A scheduled-plane transfer writes its last byte at its destination cores. (R386). -/
  | stratusTransferDelivery (id : Nat)
  /-- A tile row of a product enters the tile queue; the last one signals product completion. (R52). -/
  | tileQueueEntry (A id t : Nat)
  /-- The array releases its ring-buffer half 1,024 × c cycles after the product issued. (R151). -/
  | ringHalfRelease (A half : Nat)
  /-- A panel or companion transfer is written into its half at the ring input, after the turn stage for backward transfers. (R659). -/
  | haloTransferArrival (id : Nat) (bad : List Nat)
  /-- The receiver acknowledges a transfer 12 cycles after its last byte, releasing the sender's copy and half. (R71). -/
  | haloAck (id : Nat)
  /-- A resent tile arrives at the ring input and is checked; a second failure starts a panel re-injection. (R72). -/
  | tileResent (id tile : Nat) (bad : Bool)
  /-- The whole panel re-injected from SRAM is in place and the LULL_REFETCH Lull ends. (R73). -/
  | panelReinjected (id : Nat)
  /-- The companion adder adds one dW tile column into the companion, completing the dW product on the last. (R160). -/
  | dwTileColumnAdded (A id t : Nat) (upset : Bool)
  /-- A resent companion block or header arrives and is checked; a second failure raises COMPANION_FATAL. (R161). -/
  | companionResent (id unit : Nat) (bad : Bool)
  /-- The hand-off stream has read the companion's last block and the half becomes FREE. (R164). -/
  | handoffComplete (k e : Nat) (upset : Bool)
  /-- The selection unit emits a thinning block's kept entries and sums 40 cycles after its last byte. (R227). -/
  | selectionBlockDone (k block : Nat) (upset : Bool)
  /-- The message header is written and LINK_MSG and LINK_R_OUT are released 2,152 cycles after hand-off start. (R283). -/
  | thinnedMessageRelease (k : Nat)
  /-- A vector, update or BADD descriptor completes, freeing the engine and its tile-queue slots. (R218). -/
  | vectorDescriptorComplete (k : Nat)
  /-- The clock generator removes an ACLK cycle at the current swallow ratio. (R347). -/
  | swallowedCycle
  /-- The hold condition of a pending rendezvous becomes true and HOLD_START is sent over its barrier tree. (R338). -/
  | holdStart (k rv : Nat)
  /-- After its Lull ends, the holder adds the excess to the shift and sends HOLD_END. (R338). -/
  | holdEnd (k rv : Nat)
  /-- A member receives HOLD_START and lulls with LULL_HOLD, or discards or ignores it. (R340). -/
  | holdStartReceived (k rv step : Nat) (src : Coord)
  /-- A member receives HOLD_END, raises its shift and ends the hold once every sender has ended. (R340). -/
  | holdEndReceived (k rv step : Nat) (src : Coord) (shift : Nat)
  /-- A hold or wait outstanding for SEQ_HOLD_LIMIT beats faults and aborts the step. (R342). -/
  | holdTimeout (k rv : Nat)
  /-- Meridian advances the beat counter and sends BEAT; beat-boundary sampling and freeze-bit changes take effect. (R317). -/
  | beatBoundary (seen : BeatSeen)
  /-- The origin acts on a rise of EPOCH, loads its counter and sends ALIGN on all trained ports. (R320). -/
  | epoch
  /-- A module accepts an ALIGN message, loads its counter with the one-way delay and forwards it. (R321). -/
  | align (p beat phase hops : Nat)
  /-- The reference stays outside lock range for 10 µs, and step starts are refused. (R324). -/
  | refLoss
  /-- A unit receives an arrival from a child port carrying its subtree total. (R414). -/
  | barArrive (unit sense p total : Nat)
  /-- A unit receives BAR_DEPART, sets DONE and forwards it to its children and cores. (R414). -/
  | barDepart (unit sense p beat : Nat)
  /-- A unit receives BAR_OPEN up or down, re-opening a sense and releasing held arrivals. (R416). -/
  | barOpen (unit sense p : Nat) (up : Bool)
  /-- Zenith takes one queued EVENT every 25 ns and writes its entry to the event rings. (R403). -/
  | eventTake
  /-- A Cirrus message of unknown type is discarded and counted. (R401). -/
  | cirBad (msg : Nat)
  /-- A link receiver takes a flit in sequence, with its credits and acknowledgements, or discards it and sends NAK. (R437). -/
  | flitReceived (p : Nat) (f : Flit)
  /-- On a NAK the sender replays its retry buffer for that space from the named sequence number. (R438). -/
  | nak (p : Nat) (control : Bool) (seq : Nat)
  /-- A flit unacknowledged for 1,000 ns with no NAK is replayed from the oldest unacknowledged flit. (R438). -/
  | retryTimeout (p : Nat) (control : Bool)
  /-- A fabric write message is translated, bounds-checked and placed at the receiver, which then sends DELIVERED. (R392). -/
  | fabricMessageArrival (p : Nat) (m : FabricMsg)
  /-- The sender receives the delivery acknowledgement of an admitted message. (R345). -/
  | delivered (id : Nat)
  /-- The deadline beat ends without acknowledgement and the sender reports the miss. (R345). -/
  | deadlineMiss (id : Nat)
  /-- The source receives RESIDUE_RETRY and resends the content from the failing block. (R447). -/
  | residueRetry (id index : Nat)
  /-- A row owner receives a gather request, reads the items and admits a reply or sends GATHER_REFUSED. (R673). -/
  | gatherRequest (p : Nat) (m : FabricMsg) (upset : Bool)
  /-- A requester receives a gather reply and delivers it to the requesting endpoint. (R673). -/
  | gatherReply (p : Nat) (m : FabricMsg)
  /-- A requester receives GATHER_REFUSED, raises NOT_ADMITTED and clears the pending-entry tags. (R449). -/
  | gatherRefused (id : Nat) (owner : Coord)
  /-- A reduction contribution arrives at the owner and is added into the accumulator or written into its slot. (R302). -/
  | contributionArrival (p : Nat) (m : FabricMsg) (check : Nat)
  /-- Accumulator zeroing finishes and the collective instance opens. (R301). -/
  | armComplete (k coll : Nat)
  /-- An instance's deadline beat passes incomplete and the owner reports the missing replicas. (R305). -/
  | reduceLate (k coll : Nat)
  /-- An arriving embedding row is probed into the row table and added, or dropped. (R310). -/
  | embeddingRowArrival (k coll row : Nat) (blocks : List Nat) (upset : Bool)
  /-- A combining router adds an upstream message and sends the combined message after the last one. (R393). -/
  | upstreamMessageAdd (p from_ : Nat) (m : FabricMsg) (upset : Bool)
  /-- A multicast flit at a branch point is copied to every branch with credit, and a gap is recorded otherwise. (R398). -/
  | multicastFlit (p : Nat) (m : FabricMsg) (i : Nat)
  /-- The source receives CATCHUP and admits a catch-up message from the gap. (R458). -/
  | catchup (id : Nat) (branch : Coord) (line gap : Nat)
  /-- A module receives MCAST_DONE from a line and passes it on, or the source sends MCAST_COMPLETE. (R459). -/
  | mcastDone (p : Nat) (src : Coord) (id : Nat)
  /-- A member receives MCAST_COMPLETE and signals the multicast's completion locally. (R459). -/
  | mcastComplete (p : Nat) (src : Coord) (id : Nat)
  /-- The source receives a laggard report after a multicast deadline. (R460). -/
  | mcastLaggard (id : Nat) (member : Coord) (missing : Nat)
  /-- A multicast's deadline ends without completion; branches drop it and laggards report. (R460). -/
  | multicastDeadline (src : Coord) (id : Nat)
  /-- A port receives an IDENT record with identity, coordinate, map hash and ALIGNED bit. (R576). -/
  | ident (p : Nat) (r : IdentRec)
  /-- A responder receives KEYX_INIT, checks it and sends KEYX_RESP. (R539). -/
  | keyxInit (p : Nat) (r : KeyxRec)
  /-- An initiator receives KEYX_RESP, checks it, installs its receive key and sends KEYX_DONE. (R539). -/
  | keyxResp (p : Nat) (r : KeyxRec)
  /-- A side receives the peer's KEYX_DONE and installs its transmit key. (R539). -/
  | keyxDone (p n : Nat)
  /-- The group count under a transmit set reaches 2³¹ and a new handshake starts. (R541). -/
  | keySetRollover (p : Nat)
  /-- A port completes one training step and starts the next. (R469). -/
  | trainingStep (p : Nat) (r : TrainResult)
  /-- A training step fails or overruns its bound and the port stays dark. (R470). -/
  | linkTrainFail (p lanes : Nat)
  /-- A per-port reset on LINK_DOWN, a request or a peer reset darkens the port and retrains it. (R471). -/
  | linkReset (p : Nat)
  /-- A module receives READY from a child or the origin's broadcast, and FABRIC_READY is set. (R580). -/
  | ready (p : Nat) (broadcast : Bool)
  /-- No READY broadcast arrives within 4 s of PWRGD. (R580). -/
  | startTimeout
  /-- The module begins the next start phase once the previous one has completed. (R576). -/
  | startPhase
  /-- A retry read after a failed check lands; a second failure starts a recovery-table lookup. (R483). -/
  | retryLands (id : Nat) (ok : Bool)
  /-- A COPY source read lands, is delivered to the reader and written back. (R486). -/
  | copyReadLands (id : Nat) (ok : Bool)
  /-- The repair engine's rerun of the FEED finishes and the good data is written back. (R487). -/
  | recomputeDone (id : Nat) (ok : Bool)
  /-- The verify read after a write-back lands, and a failure requests a remap. (R491). -/
  | verifyReadLands (st line : Nat) (ok : Bool)
  /-- A remap-table update copies a line into a spare and sets the entry valid. (R496). -/
  | remapUpdate (st line : Nat)
  /-- Patrol scrub reads the next line at its share and recovers any failure it finds. (R504). -/
  | patrolLineRead (st : Nat) (bad : Bool)
  /-- The sweep interval expires and patrol starts a new sweep. (R504). -/
  | patrolSweepStart (st : Nat)
  /-- The drift monitor exceeds its limit and the due flag is raised. (R505). -/
  | memRecalDue (st : Nat)
  /-- The maintenance arbiter grants or refuses a request for an activity under the matrix. (R507). -/
  | maintenanceRequest (h act scope line : Nat)
  /-- A stack interface recalibration ends and the stack takes accesses again. (R505). -/
  | recalibrationDone (st : Nat)
  /-- The memory fill after a cold self-test ends and FILLED is set. (R500). -/
  | memoryFillDone
  /-- The sweep's spacing timer lets it lock the next granule of a stack. (R535). -/
  | rekeyGranuleLock (st : Nat)
  /-- A granule is migrated, its generation bit flips and its held accesses are served. (R533). -/
  | granuleMigrated (st : Nat)
  /-- One step of the Clearing sequence completes and the next starts. (R543). -/
  | clearingStep (k : Nat) (bad : List Nat)
  /-- Clearing ends and the partition becomes unloaded. (R543). -/
  | clearDone (k : Nat)
  /-- During Clearing, PSTAT pins alternate every 500 µs. (R544). -/
  | pstatToggle (k : Nat)
  /-- The loader ends its checks and writes, and reports LOADED or a rejection code. (R371). -/
  | loadComplete (k : Nat) (sigOk : Bool)
  /-- The export engine finishes writing the range and the export record. (R538). -/
  | exportDone (h : Nat)
  /-- Zenith finishes capturing a stopped partition's state. (R628). -/
  | dumpCaptureDone (k : Nat)
  /-- A dump record is written and committed to its slot. (R629). -/
  | dumpWritten (k : Nat) (ok : Bool)
  /-- The input falls below 42.0 V and Squall sets ratio 4/8 and the traffic cap. (R549). -/
  | squall (mv : Nat)
  /-- The input rises above 43.5 V and the supply ratio release begins. (R550). -/
  | squallEnd (mv : Nat)
  /-- Every 16 beats the supply or thermal swallow ratio steps. (R348). -/
  | swallowRatioStep (thermal : Bool)
  /-- The input lies between 42.0 V and 44.0 V. (R548). -/
  | supplyLow (mv : Nat)
  /-- The input lies between 58.0 V and 60.0 V. (R548). -/
  | supplyHigh (mv : Nat)
  /-- The input falls to 38.0 V, the always-on record is committed and the module cold-resets. (R548). -/
  | brownout (mv : Nat)
  /-- The input exceeds 60.0 V, the input stage opens and the module cold-resets. (R548). -/
  | overvoltage (mv : Nat)
  /-- The junction reaches 110.0 °C; THERMTRIP_N is asserted and the rails switch off. (R555). -/
  | thermtrip (tj : Nat)
  /-- PWRGD rises and starts a cold reset. (R556). -/
  | pwrgd (high : Bool)
  /-- RESET_N held low for at least 1 µs starts a warm reset; while PWRGD is low or the module is held in reset, an edge of the pin. (R556, R648). -/
  | resetN
  /-- A host port's PERST_N rises and the port acts as for a function-level reset, then trains. (R649). -/
  | perstN (h : Nat)
  /-- A PCIe function-level reset ends the port's session, role and ring state, and resets its FLR_RESET partitions. (R556). -/
  | functionLevelReset (h : Nat)
  /-- Two seconds pass without a firmware check-in and a Zenith secure reset starts. (R556). -/
  | zenithWatchdog
  /-- A self-test or health test fails, and Zenith enters its error state and stops confidential partitions. (R519). -/
  | zenithError
  /-- The self-test runs after a reset and enters Overcast on the first failure. (R570). -/
  | selfTest (r : SelfTestResult)
  /-- A port's IDE stream leaves the Secure state and its confidential partitions stop. (R527). -/
  | ideInsecure (h : Nat)
  /-- A role ends after 600 s without a command. (R520). -/
  | roleTimeout (i : Nat)
  /-- At a beat boundary the ring engine reads the producer word and then any new entries. (R596). -/
  | ringProducerRead (k prod : Nat) (entries : List (List Nat))
  /-- At the next beat boundary, the checked entries join the step queue and CONS advances. (R596). -/
  | ringSample (k : Nat)
  /-- Command-ring entry that does nothing. (R595). -/
  | nop (k : Nat) (e : RingEntry)
  /-- Command-ring entry that runs COUNT steps from FIRST_STEP. (R599). -/
  | stepRun (k : Nat) (e : RingEntry)
  /-- Command-ring entry that cancels the unstarted steps before it. (R600). -/
  | stepStop (k : Nat) (e : RingEntry)
  /-- Command-ring entry that produces a record when every earlier entry has completed. (R600). -/
  | mark (k : Nat) (e : RingEntry)
  /-- With the partition loaded and between steps, every context issues STEP_START for the head entry at a beat boundary. (R599). -/
  | queuedStepStart (k : Nat)
  /-- Mailbox command that returns state, versions, self-test and nonce. (R608). -/
  | status (i : Nat)
  /-- Mailbox command that agrees the host ABI version. (R611). -/
  | abiOpen (i version : Nat)
  /-- Mailbox command that takes a role by a signature over the nonce. (R520). -/
  | login (i role : Nat) (key : List Nat) (sigOk : Bool)
  /-- Mailbox command that ends the interface's role. (R520). -/
  | logout (i : Nat)
  /-- Mailbox command that installs the first OFFICER key. (R520). -/
  | takeOwnership (i : Nat) (key : List Nat)
  /-- Mailbox command that installs or removes a role key. (R520). -/
  | roleKeySet (i role slot : Nat) (key : List Nat)
  /-- Mailbox command that starts loading an image into a partition. (R371). -/
  | load (i part addr len : Nat) (bases : List Nat) (ptable : Nat)
  /-- Mailbox command that returns a partition between steps to the unloaded state. (R372). -/
  | unload (i part : Nat)
  /-- Mailbox command that writes a core's recovery table. (R484). -/
  | recoveryTable (i core addr entries : Nat)
  /-- Mailbox command that installs up to four image-signer hashes for a partition. (R528). -/
  | signerSet (i part : Nat) (keys : List (List Nat))
  /-- Mailbox command that starts an export of a device range with a result tag. (R538). -/
  | export_ (i part addr len data rec : Nat)
  /-- Mailbox command that starts Clearing of a partition. (R542). -/
  | clear (i part : Nat)
  /-- Mailbox command that requests a re-key sweep of a confidential partition. (R532). -/
  | rekey (i part : Nat)
  /-- Mailbox command that stops and resets one partition to unloaded. (R556). -/
  | partitionReset (i part : Nat)
  /-- Mailbox command that sets the partition shape, owners, ports and flags. (R514). -/
  | partitionConfig (i shape : Nat) (parts : List PartCfg)
  /-- Mailbox command that moves the die to Active, Idle, Dusk or Night. (R561). -/
  | powerState (i target : Nat)
  /-- Mailbox command that installs the fabric map. (R574). -/
  | fabricMap (i : Nat) (map : List Nat)
  /-- Mailbox command that writes a firmware slot. (R608). -/
  | fwUpdate (i slot : Nat) (image : List Nat) (officer : Bool)
  /-- Mailbox command that raises the fuse security version. (R517). -/
  | svnCommit (i svn : Nat)
  /-- Mailbox command that stops partitions and zeroises every secret. (R521). -/
  | zeroize (i : Nat) (officer : Bool)
  /-- Mailbox command that unlocks the debug TAP instructions. (R637). -/
  | debugUnlock (i : Nat) (key : List Nat) (sigOk : Bool)
  /-- Mailbox command that starts a Zenith secure reset. (R556). -/
  | zenithReset (i : Nat)
  /-- Mailbox command that reads the always-on record. (R567). -/
  | aoRecord (i : Nat)
  /-- Mailbox command that runs the self-test again from test 0x01. (R573). -/
  | retest (i : Nat)
  /-- A read of ZEN_MB_DONE removes the oldest long-running completion. (R607). -/
  | mailboxDoneRead (i : Nat)
  /-- A write of STR_PS_ARM arms a persistent slot with its activation beat. (R196). -/
  | persistentSlotArm (h k slot : Nat) (v : Word)
  /-- A write of STR_PS_SRC or STR_PS_DST stores a new base, or is dropped while armed. (R196). -/
  | persistentBaseWrite (h k slot : Nat) (dst : Bool) (v : Word)
  /-- A write of UPD_FREEZE_DATA reaches the freeze bitmap and takes effect at the next beat boundary. (R257). -/
  | freezeWrite (h k : Nat) (v : Word)
  /-- A host write to a schedule set is staged until the set's next computation. (R268). -/
  | scheduleParameterWrite (h k set off : Nat) (v : Word)
  /-- Writing LNK_CTRL.RESET requests a link retrain through the maintenance arbiter. (R471). -/
  | linkResetRequest (h p : Nat)
  /-- Writing LNK_CTRL.ENABLE holds the port dark or lets it train. (R472). -/
  | linkEnable (h p : Nat) (v : Word)
  /-- A write of HIF_BAR2_BASE sets the window base, or sets 0 when it is misaligned. (R590). -/
  | bar2BaseWrite (h : Nat) (v : Word)
  /-- Writing DBG_DUMP_SEL.RELEASE invalidates the selected dump slot for its owner. (R632). -/
  | dumpRelease (h : Nat) (v : Word)
  /-- Writing DBG_TRACE_CTRL.ENABLE starts capture, which is refused while a partition is confidential. (R635). -/
  | traceEnable (h : Nat) (v : Word)
  /-- A BAR0 write to a register without its own row, including W1C clears and refused values. (R17). -/
  | registerWrite (h off size : Nat) (v : Word)
  /-- A host read of device memory through BAR2, served or refused by ownership. (R591). -/
  | bar2Read (h off len : Nat) (upset : Bool)
  /-- A host write of device memory through BAR2, written or discarded by ownership. (R591). -/
  | bar2Write (h off : Nat) (bytes : List Nat)
  /-- A write through a checker-test window stores a whole line, with a raw CRC under RAW. (R501). -/
  | testWindowWrite (h st off : Nat) (bytes : List Nat)
  /-- A read through a checker-test window is checked and a failure recorded without recovery. (R502). -/
  | testWindowRead (h st off : Nat) (upset : Bool)
  /-- SPDM request for the supported versions. (R523). -/
  | getVersion (h : Nat)
  /-- SPDM request for the responder's capabilities. (R523). -/
  | getCapabilities (h : Nat)
  /-- SPDM request that negotiates the post-quantum algorithm set. (R523). -/
  | negotiateAlgorithms (h : Nat) (offered : List Nat)
  /-- SPDM request for certificate chain digests. (R523). -/
  | getDigests (h : Nat)
  /-- SPDM request for the certificate chain to the alias key. (R523). -/
  | getCertificate (h slot off len : Nat)
  /-- SPDM challenge signed with the alias key. (R523). -/
  | challenge (h : Nat) (nonce : List Nat)
  /-- SPDM request for the signed measurements. (R524). -/
  | getMeasurements (h index : Nat)
  /-- SPDM ML-KEM key exchange that opens a session and ends any previous one. (R525). -/
  | keyExchange (h : Nat) (ek : List Nat)
  /-- SPDM message that completes session establishment. (R523). -/
  | finish (h : Nat)
  /-- SPDM message that updates session keys. (R523). -/
  | keyUpdate (h : Nat)
  /-- SPDM message that ends the session. (R523). -/
  | endSession (h : Nat)
  /-- IDE key-management message in the session that establishes the selective IDE stream. (R526). -/
  | ideKm (h op : Nat)
  /-- TAP instruction that returns the IDCODE. (R636). -/
  | idcode
  /-- TAP bypass instruction. (R636). -/
  | bypass
  /-- TAP boundary-scan instruction accepted after DEBUG_UNLOCK. (R636). -/
  | samplePreload (data : List Nat)
  /-- TAP external-test instruction accepted after DEBUG_UNLOCK. (R636). -/
  | extest (data : List Nat)
  /-- TAP instruction that reads and writes BAR0 with host port 0's rules after DEBUG_UNLOCK. (R636). -/
  | dbgAccess (write : Bool) (off size : Nat) (v : Word)
  /-- MCTP control command that assigns the endpoint ID. (R613). -/
  | setEndpointId (eid : Nat)
  /-- MCTP control command that returns the endpoint ID. (R613). -/
  | getEndpointId
  /-- MCTP control command that returns the supported versions. (R613). -/
  | getMctpVersionSupport
  /-- MCTP control command that returns the supported message types. (R613). -/
  | getMessageTypeSupport
  /-- MCTP control command that returns the vendor-defined message support. (R613). -/
  | getVendorDefinedMessageSupport
  /-- PLDM Type 0 base request. (R614). -/
  | pldmBase (code : Nat)
  /-- PLDM Type 2 request for a numeric or state sensor. (R614). -/
  | pldmSensorRead (id : Nat)
  /-- PLDM Type 5 request that writes the inactive firmware slot. (R614). -/
  | pldmFirmwareUpdate (image : List Nat)
  /-- Vendor-defined MCTP message that carries a mailbox command over SMBus. (R614). -/
  | vendorDefinedMailbox (code : Nat) (arg : List Nat)
  /-- At each flit boundary a link port sends the first ready of NAK, VC0, replayed data, earliest-deadline data or IDLE flit. (R434). -/
  | flitBoundary (p : Nat)
  /-- The memory controller finishes writing a multicast flit at the local branch, returning its credit and possibly sending CATCHUP or MCAST_DONE. (R398). -/
  | localBranchWrite (src : Coord) (id i : Nat)
  /-- An Idle, Dusk or Night entry, or an exit to Active, completes within its bound and the die takes the new state. (R562). -/
  | powerStateEntered
  /-- After a Zenith secure reset, the boot and known-answer tests complete and the mailbox stops answering BUSY. (R556). -/
  | zenithBootDone (ok : Bool)
  /-- The 10 ms bound of the IDENT exchange in start phase 4 runs out and START_IDENT_FAIL is raised. (R576). -/
  | startIdentFail (p : Nat)
  /-- A host port's PCI Express link finishes training, and HOST_LINK_DEGRADED is raised when it ran below x8 or 64 GT/s. (R584). -/
  | hostLinkTrained (h width rate : Nat)
  /-- A host writes its function's power state to D3hot or back to D0; on return to D0 the pending records and MSI-X messages are sent in order. (R586). -/
  | powerManagementState (h : Nat) (d3 : Bool)deriving DecidableEq, Repr

end Sys2Proof
end

