-- ==== Sys2Proof/Decode.lean ====
section
/-! DEFINITION. The decoder of the table's rows. No row of the table gives its command any bits: the module has no instruction
words of its own, so no word spells a command. -/
namespace Sys2Proof

/-- The command that a word spells by the table's bits. No row gives any, so there is none. -/
def decodeTableWord (_nbits _w : Nat) : Option Instr := none

end Sys2Proof
end

