-- ==== Sys2Proof/Config.lean ====
section
/-! DEFINITION. What an implementation fixes and the manual leaves open: named cryptographic standards and the free
values. None has a body that Lean can see. -/
namespace Sys2Proof.Config

/-- A free value for the cause of a late read: whether a refresh delayed it (R191; log entry 1). -/
opaque refreshDelayed : Nat → Bool
/-- SHA3-512 of a byte string, as 64 bytes (R516; log entry 7). -/
opaque sha3 : List Nat → List Nat
/-- KMAC256 of a key and a message, as bytes (R518, R525, R538; log entry 7). -/
opaque kmac : List Nat → List Nat → List Nat
/-- The DRBG's output of its n-th draw, as bytes (R516; log entry 7). -/
opaque drbg : Nat → List Nat
/-- The ML-DSA-87 signature, over a message, of the key derived from a seed (R518, R524; log entry 7). -/
opaque sign : List Nat → List Nat → List Nat
/-- The ML-KEM-1024 encapsulation against a key with the randomness of a draw: ciphertext and shared secret (R525, R539). -/
opaque encaps : List Nat → Nat → List Nat × List Nat
/-- The ML-KEM-1024 shared secret of a ciphertext under the key made by a draw (R539). -/
opaque decaps : List Nat → Nat → List Nat
/-- The ML-KEM-1024 encapsulation key made by a draw (R539). -/
opaque kemKey : Nat → List Nat
/-- The SHA3-512 of this module's device identity public key: 64 bytes (R518, R574; log entry 7). -/
opaque idBytes : Vector (BitVec 8) 64
/-- That hash as a list of bytes. -/
def idHash : List Nat := idBytes.toList.map BitVec.toNat
/-- The certificate chain from Krekin's root to the device identity key (R518, R523). -/
opaque certChain : List Nat
/-- The alias certificate that the device identity key issues for the alias key of a seed (R518). -/
opaque aliasCert : List Nat → List Nat
/-- The lifecycle state that measurement 2 covers (R524). -/
opaque lifecycle : Nat
/-- The 256-bit device secret in fuses, as bytes (R518). -/
opaque deviceSecret : List Nat
/-- The debug-key hash in fuses (R637). -/
opaque debugKeyHash : List Nat
/-- The ML-DSA-87 verification of a signature under a public key over a message (R516, R520, R637; log entry 7). -/
opaque sigVerifies : List Nat → List Nat → List Nat → Bool
/-- The export master secret of the SPDM key schedule over a shared secret (R525; log entry 7). -/
opaque exportMaster : List Nat → List Nat
/-- Body of an SPDM response that the SPDM specification lays out, by message code and request (R523). -/
opaque spdmBody : Nat → List Nat → List Nat
/-- Body of an MCTP or PLDM response that its DMTF specification lays out, by message code (R613, R614). -/
opaque mctpBody : Nat → List Nat
/-- The free number that places a result within the units in the last place that R220 and R263 allow, by function and operand codes; the same
on every module (log entry 1). -/
opaque unitsOff : Nat → Nat → Nat → Nat
/-- The names of the companion that a PRODUCT adds into, which R361 gives no field for: MATRIX, PANEL and key of the backward
descriptor, by core, context and instruction index (R157, R159; log entry 5). -/
opaque backwardName : Nat → Nat → Nat → Nat × Nat × Nat
/-- A free word, for a value that a rule leaves undefined after an undetected mistake (R20, R378; log entry 1). -/
opaque freeWord : Nat → Nat
/-- Bytes of one gathered row, by descriptor bytes: R171 gives a GATHER no row length (log entry 9). -/
opaque gatherRowBytes : List Nat → Nat
/-- The collective entry that a BADD descriptor's bytes name: R303 gives its contents and no byte layout (log entry 8). -/
opaque baddColl : List Nat → Nat
/-- What a BADD for a row collective names: CONTRIB, the slot base, the bytes of a slot and the accumulator base (R303, R308; log entry 8). -/
opaque baddRows : List Nat → Nat × Nat × Nat × Nat
/-- The members and strides (NX, NY, NZ, SX, SY, SZ) of an all-gather's multicast, by its collective descriptor's bytes: no record of
the image gives them (R312, R454; log entry 17). -/
opaque mcastShape : List Nat → List Nat
/-- The key in the checksum of an accumulator panel's header, by the collective's descriptor bytes: no field of it holds one (R300; log
entry 8). -/
opaque accKey : List Nat → Nat
/-- The input current and power that PWR_SUPPLY shows, by draw (R582; log entry 1). -/
opaque supplyReading : Nat → Nat × Nat

end Sys2Proof.Config
end

