-- ==== Sys2Proof/Machine/Float.lean ====
section
/-! DEFINITION. Exact floating-point values and their rounding (R94, R96, R120, R121, R220): every operation is computed
exactly on a sign, an integer significand and a power of two, and rounded once at the end. -/
namespace Sys2Proof.Machine

/-- A floating-point value held exactly: a NaN, an infinity, or (−1)^neg × man × 2^exp (R94). -/
inductive FVal where
  | nan (neg : Bool)
  | inf (neg : Bool)
  | fin (neg : Bool) (man : Nat) (exp : Int)
deriving DecidableEq, Repr, Inhabited

/-- The shape of a binary floating-point format: width, stored significand bits, bias, the code of the largest finite
magnitude, and whether the codes above it hold an infinity (R94, R96). -/
structure FpFmt where
  width : Nat
  mw : Nat
  bias : Nat
  maxCode : Nat
  hasInf : Bool
deriving DecidableEq, Repr, Inhabited

/-- E2M1 (R94, R96). -/
def fmtE2M1 : FpFmt := ⟨4, 1, 1, 0x7, false⟩
/-- E4M3 (R94, R96). -/
def fmtE4M3 : FpFmt := ⟨8, 3, 7, 0x7E, false⟩
/-- E5M2 (R94, R96). -/
def fmtE5M2 : FpFmt := ⟨8, 2, 15, 0x7B, true⟩
/-- BF16 (R94, R96). -/
def fmtBF16 : FpFmt := ⟨16, 7, 127, 0x7F7F, true⟩
/-- FP32 (R94, R96). -/
def fmtFP32 : FpFmt := ⟨32, 23, 127, 0x7F7FFFFF, true⟩
/-- IEEE 754 binary64, in which the schedule engine computes (R267). -/
def fmtFP64 : FpFmt := ⟨64, 52, 1023, 0x7FEFFFFFFFFFFFFF, true⟩

/-- The exponent of the last place of a subnormal: 1 − bias − mw (R94). -/
def FpFmt.q0 (f : FpFmt) : Int := 1 - (f.bias : Int) - (f.mw : Int)

/-- The value of the finite magnitude code `m` (R94): subnormal when the exponent field is 0. -/
def FpFmt.magVal (f : FpFmt) (m : Nat) : Nat × Int :=
  let e := m / 2 ^ f.mw
  let frac := m % 2 ^ f.mw
  if e = 0 then (frac, f.q0) else (2 ^ f.mw + frac, f.q0 + ((e : Int) - 1))

/-- The value of a code (R94, R96). E4M3 and E2M1 have no infinity; an E4M3 magnitude 0x7F is a NaN
(NaN-propagating mode, R97; saturating tiles have it replaced first, R98). -/
def FpFmt.decode (f : FpFmt) (c : Nat) : FVal :=
  let neg := bitAt c (f.width - 1)
  let m := c % 2 ^ (f.width - 1)
  if m ≤ f.maxCode then .fin neg (f.magVal m).1 (f.magVal m).2
  else if f.hasInf && m == f.maxCode + 1 then .inf neg
  else .nan neg

/-- The magnitude `man × 2^exp` rounded to nearest-even in the spacing of `f`, as a magnitude code that may lie beyond
the largest finite one (R120). -/
def FpFmt.roundMag (f : FpFmt) (man : Nat) (exp : Int) : Nat :=
  if man = 0 then 0 else
  let q := max ((Nat.log2 man : Int) + exp - (f.mw : Int)) f.q0
  let m :=
    if q ≤ exp then man * 2 ^ (exp - q).toNat
    else
      let sh := (q - exp).toNat
      let t := man / 2 ^ sh
      let r := man % 2 ^ sh
      if r * 2 < 2 ^ sh then t
      else if r * 2 = 2 ^ sh then t + t % 2
      else t + 1
  (q - f.q0).toNat * 2 ^ f.mw + m

/-- The same magnitude truncated, with the first 16 bits below the last place, left-aligned (D of R123). -/
def FpFmt.truncMag (f : FpFmt) (man : Nat) (exp : Int) : Nat × Nat :=
  if man = 0 then (0, 0) else
  let q := max ((Nat.log2 man : Int) + exp - (f.mw : Int)) f.q0
  if q ≤ exp then ((q - f.q0).toNat * 2 ^ f.mw + man * 2 ^ (exp - q).toNat, 0)
  else
    let sh := (q - exp).toNat
    ((q - f.q0).toNat * 2 ^ f.mw + man / 2 ^ sh, man % 2 ^ sh * 2 ^ 16 / 2 ^ sh)

/-- The sign bit of a code. -/
def FpFmt.signBit (f : FpFmt) (neg : Bool) : Nat := if neg then 2 ^ (f.width - 1) else 0

/-- The canonical quiet NaN of a format (R48, R96): 0x7FC0_0000 for FP32, 0x7FC0 for BF16, 0x7E for E5M2. -/
def FpFmt.qnan (f : FpFmt) : Nat := f.maxCode + 1 + 2 ^ (f.mw - 1)

/-- IEEE 754 rounding to nearest-even: overflow gives an infinity and every NaN is the canonical one (R220). -/
def FpFmt.encode (f : FpFmt) : FVal → Nat
  | .nan _ => f.qnan
  | .inf neg => f.signBit neg + (f.maxCode + 1)
  | .fin neg man exp => f.signBit neg + min (f.roundMag man exp) (f.maxCode + 1)

/-- Rounding to nearest-even in which a finite result beyond the largest finite magnitude takes that magnitude with its
sign kept (R48): the code, and whether it saturated. -/
def FpFmt.encodeSat (f : FpFmt) : FVal → Nat × Bool
  | .nan _ => (f.qnan, false)
  | .inf neg => (f.signBit neg + (f.maxCode + 1), false)
  | .fin neg man exp =>
    (f.signBit neg + min (f.roundMag man exp) f.maxCode, decide (f.maxCode < f.roundMag man exp))

/-- Is the value zero? -/
def FVal.isZero : FVal → Bool
  | .fin _ man _ => man == 0
  | _ => false

/-- Is the value a NaN? -/
def FVal.isNan : FVal → Bool
  | .nan _ => true
  | _ => false

/-- Is the value finite? -/
def FVal.isFin : FVal → Bool
  | .fin _ _ _ => true
  | _ => false

/-- The sign of a value. -/
def FVal.sign : FVal → Bool
  | .nan n => n
  | .inf n => n
  | .fin n _ _ => n

/-- The value with its sign turned. -/
def FVal.neg : FVal → FVal
  | .nan n => .nan !n
  | .inf n => .inf !n
  | .fin n m e => .fin (!n) m e

/-- The value with its sign cleared. -/
def FVal.abs : FVal → FVal
  | .nan _ => .nan false
  | .inf _ => .inf false
  | .fin _ m e => .fin false m e

/-- The value times 2^k, exactly. -/
def FVal.scale (k : Int) : FVal → FVal
  | .fin n m e => .fin n m (e + k)
  | v => v

/-- The signed integer significand at the exponent `e0 ≤ exp`. -/
def FVal.at (e0 : Int) (neg : Bool) (man : Nat) (exp : Int) : Int :=
  let m : Int := (man : Int) * 2 ^ (exp - e0).toNat
  if neg then -m else m

/-- Exact sum, with the zero signs of IEEE 754 under rounding to nearest (R658) and NaN for opposite infinities (R47). -/
def FVal.add : FVal → FVal → FVal
  | .nan n, _ => .nan n
  | _, .nan n => .nan n
  | .inf a, .inf b => if a = b then .inf a else .nan false
  | .inf a, _ => .inf a
  | _, .inf b => .inf b
  | .fin na ma ea, .fin nb mb eb =>
    if ma = 0 ∧ mb = 0 then .fin (na && nb) 0 0
    else if ma = 0 then .fin nb mb eb
    else if mb = 0 then .fin na ma ea
    else
      let e0 := min ea eb
      let z := FVal.at e0 na ma ea + FVal.at e0 nb mb eb
      .fin (decide (z < 0)) z.natAbs e0

/-- Exact product (R43): the sign is the exclusive OR, an infinity times a zero is a NaN (R47). -/
def FVal.mul : FVal → FVal → FVal
  | .nan n, _ => .nan n
  | _, .nan n => .nan n
  | .inf a, .inf b => .inf (xor a b)
  | .inf a, .fin b m _ => if m = 0 then .nan false else .inf (xor a b)
  | .fin a m _, .inf b => if m = 0 then .nan false else .inf (xor a b)
  | .fin na ma ea, .fin nb mb eb => .fin (xor na nb) (ma * mb) (ea + eb)

/-- The quotient to more bits than any format here rounds to, with a sticky last bit, so that one rounding of it is the
rounding of the exact quotient. Division by zero gives an infinity, 0 ÷ 0 and ∞ ÷ ∞ a NaN (IEEE 754). -/
def FVal.div : FVal → FVal → FVal
  | .nan n, _ => .nan n
  | _, .nan n => .nan n
  | .inf _, .inf _ => .nan false
  | .inf a, .fin b _ _ => .inf (xor a b)
  | .fin a _ _, .inf b => .fin (xor a b) 0 0
  | .fin na ma ea, .fin nb mb eb =>
    if mb = 0 then (if ma = 0 then .nan false else .inf (xor na nb))
    else if ma = 0 then .fin (xor na nb) 0 0
    else
      let k := 64 + Nat.log2 mb
      let n := ma * 2 ^ k
      let sticky := if n % mb = 0 then 0 else 1
      .fin (xor na nb) (2 * (n / mb) + sticky) (ea - eb - k - 1)

/-- One bit of an integer square root, from the bits above it. -/
def sqrtStep (n r i : Nat) : Nat := if (r + 2 ^ i) * (r + 2 ^ i) ≤ n then r + 2 ^ i else r

/-- The integer square root of `n`, found bit by bit from bit `k` down. -/
def isqrtFrom (n : Nat) : Nat → Nat → Nat
  | 0, r => sqrtStep n r 0
  | k + 1, r => isqrtFrom n k (sqrtStep n r (k + 1))

/-- The integer square root of `n`. -/
def isqrt (n : Nat) : Nat := isqrtFrom n (Nat.log2 n / 2 + 1) 0

/-- The square root with a sticky last bit (IEEE 754: √−0 = −0, a negative operand gives a NaN). -/
def FVal.sqrt : FVal → FVal
  | .nan n => .nan n
  | .inf neg => if neg then .nan false else .inf false
  | .fin neg man exp =>
    if man = 0 then .fin neg 0 0
    else if neg then .nan false
    else
      let odd := exp % 2
      let n := man * 2 ^ (130 + odd.toNat)
      let r := isqrt n
      let sticky := if r * r = n then 0 else 1
      .fin false (2 * r + sticky) ((exp - odd - 130) / 2 - 1)

/-- Is `a` less than `b`? False when either is a NaN. -/
def FVal.lt (a b : FVal) : Bool :=
  match a, b with
  | .nan _, _ => false
  | _, .nan _ => false
  | .inf na, .inf nb => na && !nb
  | .inf na, _ => na
  | _, .inf nb => !nb
  | .fin na ma ea, .fin nb mb eb =>
    let e0 := min ea eb
    decide (FVal.at e0 na ma ea < FVal.at e0 nb mb eb)

/-- FP32 codes to values. -/
def f32 (c : Nat) : FVal := fmtFP32.decode c
/-- Values to FP32 codes, rounded once (R220). -/
def toF32 (v : FVal) : Nat := fmtFP32.encode v

/-- FP32 addition (R220). -/
def addF32 (a b : Nat) : Nat := toF32 (.add (f32 a) (f32 b))
/-- FP32 subtraction (R220). -/
def subF32 (a b : Nat) : Nat := toF32 (.add (f32 a) (f32 b).neg)
/-- FP32 multiplication (R220). -/
def mulF32 (a b : Nat) : Nat := toF32 (.mul (f32 a) (f32 b))
/-- FP32 division, rounded once. -/
def divF32 (a b : Nat) : Nat := toF32 (.div (f32 a) (f32 b))
/-- FP32 square root, rounded once. -/
def sqrtF32 (a : Nat) : Nat := toF32 (f32 a).sqrt
/-- FP32 fused multiply-add, rounded once (R220). -/
def fmaF32 (a b c : Nat) : Nat := toF32 (.add (.mul (f32 a) (f32 b)) (f32 c))

/-- The value of an integer. -/
def FVal.ofInt (z : Int) : FVal := .fin (decide (z < 0)) z.natAbs 0

/-- A finite value as an integer significand and exponent; 0 for the others. -/
def FVal.toInt (e0 : Int) : FVal → Int
  | .fin n m e => FVal.at e0 n m e
  | _ => 0

/-- Sum of a list of FP32 codes in a fixed pairwise tree, adjacent entries first (R222, R226); the fuel is the number of
levels. An empty list sums to +0. -/
def pairUp (op : Nat → Nat → Nat) : List Nat → List Nat
  | a :: b :: rest => op a b :: pairUp op rest
  | l => l

/-- The value of the pairwise tree after `fuel` levels. -/
def treeOf (op : Nat → Nat → Nat) : Nat → List Nat → Nat
  | _, [] => 0
  | _, [a] => a
  | 0, a :: _ => a
  | fuel + 1, l => treeOf op fuel (pairUp op l)

end Sys2Proof.Machine
end

