-- ==== Sys2Proof/Machine/Formats.lean ====
section
/-! DEFINITION. Element formats, tile headers, the tile checksum, the conversions of the convert and store stages, BFP16
blocks and the stochastic-rounding generator (R94–R129, R661, R662). -/
namespace Sys2Proof.Machine

/-- The format codes of R105. -/
def fcE2M1 : Nat := 0x01
/-- E4M3's format code (R105). -/
def fcE4M3 : Nat := 0x02
/-- E5M2's format code (R105). -/
def fcE5M2 : Nat := 0x03
/-- BF16's format code (R105). -/
def fcBF16 : Nat := 0x04
/-- FP32's format code (R105). -/
def fcFP32 : Nat := 0x05
/-- INT8's format code (R105). -/
def fcINT8 : Nat := 0x08
/-- INT32's format code (R105). -/
def fcINT32 : Nat := 0x09
/-- INT4's format code (R105). -/
def fcINT4 : Nat := 0x0A
/-- INT2's format code (R105). -/
def fcINT2 : Nat := 0x0B
/-- BFP16's format code (R105). -/
def fcBFP16 : Nat := 0x10

/-- The floating-point shape a format code names, if any (R105). -/
def fpOf (code : Nat) : Option FpFmt :=
  if code = fcE2M1 then some fmtE2M1 else if code = fcE4M3 then some fmtE4M3 else if code = fcE5M2 then some fmtE5M2
  else if code = fcBF16 then some fmtBF16 else if code = fcFP32 then some fmtFP32 else none

/-- Bits per element of a tile format, 0 for an unassigned code or BFP16 (R94, R105). -/
def elemBits (code : Nat) : Nat :=
  if code = fcE2M1 ∨ code = fcINT4 then 4 else if code = fcE4M3 ∨ code = fcE5M2 ∨ code = fcINT8 then 8
  else if code = fcBF16 then 16 else if code = fcFP32 ∨ code = fcINT32 then 32 else if code = fcINT2 then 2 else 0

/-- Is the code one that a tile header may carry (R104, R105)? -/
def assignedTile (code : Nat) : Bool := elemBits code != 0

/-- Payload bytes of one tile, or of the 512-block BFP16 unit (R105, R661). -/
def tileBytes (code : Nat) : Nat := if code = fcBFP16 then 33792 else 2048 * elemBits code

/-- Groups of `n` entries of a list; the fuel is the list's length. -/
def chunksOf {α : Type} (n : Nat) : Nat → List α → List (List α)
  | 0, _ => []
  | _, [] => []
  | fuel + 1, l => l.take n :: chunksOf n fuel (l.drop n)

/-- The number a little-endian byte list spells (R95). -/
def leNat : List Nat → Nat
  | [] => 0
  | b :: bs => b + 256 * leNat bs

/-- The `n` little-endian bytes of a number (R95). -/
def leBytes : Nat → Nat → List Nat
  | 0, _ => []
  | n + 1, x => x % 256 :: leBytes n (x / 256)

/-- A slice of a list. -/
def slice {α : Type} (l : List α) (off len : Nat) : List α := (l.drop off).take len

/-- The little-endian field of `len` bytes at byte `off`. -/
def fieldAt (l : List Nat) (off len : Nat) : Nat := leNat (slice l off len)

/-- The element codes that a payload holds (R95). -/
def unpackElems (bits : Nat) (bytes : List Nat) : List Nat :=
  if bits = 2 then bytes.flatMap fun b => [b % 4, b / 4 % 4, b / 16 % 4, b / 64 % 4]
  else if bits = 4 then bytes.flatMap fun b => [b % 16, b / 16 % 16]
  else if bits = 8 then bytes
  else (chunksOf (bits / 8) bytes.length bytes).map leNat

/-- The payload that element codes make (R95). -/
def packElems (bits : Nat) (es : List Nat) : List Nat :=
  if bits = 2 then (chunksOf 4 es.length es).map fun l => l.zipIdx.foldl (fun s p => s + p.1 % 4 * 4 ^ p.2) 0
  else if bits = 4 then (chunksOf 2 es.length es).map fun l => l.zipIdx.foldl (fun s p => s + p.1 % 16 * 16 ^ p.2) 0
  else if bits = 8 then es.map (· % 256)
  else es.flatMap (leBytes (bits / 8))

/-- The fields of a tile header but for its checksum (R103); ROWS and COLS are 127 in a header made anew (log entry 103). -/
structure TileHdr where
  format : Nat := 0
  expand : Bool := false
  nanmode : Bool := false
  scale : Int := 0
  rows : Nat := 127
  cols : Nat := 127
  expIndex : Nat := 0
deriving DecidableEq, Repr, Inhabited

/-- Header bytes 0 to 23 (R103). -/
def TileHdr.bytes (h : TileHdr) : List Nat :=
  [h.format % 256, (if h.expand then 2 else 0) + (if h.nanmode then 1 else 0), codeOf 8 h.scale, 0]
    ++ leBytes 2 h.rows ++ leBytes 2 h.cols ++ leBytes 2 h.expIndex ++ List.replicate 14 0

/-- The header that 32 bytes spell (R103). -/
def TileHdr.ofBytes (b : List Nat) : TileHdr :=
  { format := fieldAt b 0 1, expand := bitAt (fieldAt b 1 1) 1, nanmode := bitAt (fieldAt b 1 1) 0,
    scale := signedOf 8 (fieldAt b 2 1), rows := fieldAt b 4 2, cols := fieldAt b 6 2, expIndex := fieldAt b 8 2 }

/-- Does a header break one of the conditions of R104? -/
def hdrBad (b : List Nat) : Bool :=
  let h := TileHdr.ofBytes b
  decide (fieldAt b 1 1 ≥ 4) || fieldAt b 3 1 != 0 || (slice b 10 14).any (· != 0) || fieldAt b 2 1 == 0x80
    || !assignedTile h.format
    || (h.nanmode && h.format != fcE4M3 && h.format != fcE5M2)
    || (h.expand && h.format != fcINT4 && h.format != fcINT2)
    || (!h.expand && (h.format == fcINT4 || h.format == fcINT2))
    || decide (127 < h.rows) || decide (127 < h.cols) || (h.expIndex != 0 && !h.expand)

/-- The Fletcher sum of R106 over a list of 32-bit words, as CHECKSUM = b × 2^32 + a. -/
def fletcher (ws : List Nat) : Nat :=
  let ab := ws.foldl (fun (ab : Nat × Nat) w =>
    let a := (ab.1 + w) % 0xFFFFFFFF
    (a, (ab.2 + a) % 0xFFFFFFFF)) (0, 0)
  ab.2 * 2 ^ 32 + ab.1

/-- The little-endian 32-bit words of a byte string (R106). -/
def wordsOf (bytes : List Nat) : List Nat := (chunksOf 4 bytes.length bytes).map leNat

/-- The checksum of a key, a header's bytes 0 to 23 and a payload (R106). -/
def tileChecksum (key : Nat) (hdr24 payload : List Nat) : Nat :=
  fletcher (key :: (wordsOf (hdr24.take 24) ++ wordsOf payload))

/-- A header's 32 bytes with its checksum (R103, R106, R108). -/
def sealHdr (key : Nat) (h : TileHdr) (payload : List Nat) : List Nat :=
  h.bytes ++ leBytes 8 (tileChecksum key h.bytes payload)

/-- Does a stored header's checksum match under the key (R107)? -/
def checksumOk (key : Nat) (hdr payload : List Nat) : Bool :=
  fieldAt hdr 24 8 == tileChecksum key hdr payload

/-- The faults a conversion can raise (R104, R107). -/
inductive ConvFault where
  | format
  | checksum
deriving DecidableEq, Repr

/-- What a stage makes of one tile: its header, its element codes, and what it counted (R98, R121, R127). -/
structure Converted where
  hdr : TileHdr := {}
  elems : List Nat := []
  sat : Nat := 0
  nan : Nat := 0
  pattern : Nat := 0
  clamp : Nat := 0
deriving DecidableEq, Repr, Inhabited

/-- One element brought to a floating-point target (R121): its code and whether it saturated or was a NaN made zero. -/
def convSpecial (tgt : Nat) (f : FpFmt) (nanmode : Bool) (v : FVal) (mag : Nat) : Nat × Nat × Nat :=
  let sg := fun (n : Bool) => f.signBit n
  match v with
  | .nan n =>
    if tgt = fcE2M1 then (0, 0, 1)
    else if tgt = fcE4M3 then (if nanmode then (sg n + 0x7F, 0, 0) else (0, 0, 1))
    else if tgt = fcE5M2 then (sg n + 0x7E, 0, 0)
    else (f.qnan, 0, 0)
  | .inf n =>
    if tgt = fcE2M1 then (sg n + f.maxCode, 0, 0)
    else if tgt = fcE4M3 then (if nanmode then sg n + 0x7F else sg n + f.maxCode, 0, 0)
    else (sg n + (f.maxCode + 1), 0, 0)
  | .fin n _ _ =>
    if mag ≤ f.maxCode then (sg n + mag, 0, 0)
    else if nanmode && (tgt == fcE4M3 || tgt == fcE5M2) then (sg n + (f.maxCode + 1), 0, 0)
    else (sg n + f.maxCode, 1, 0)

/-- One value rounded to nearest-even into a floating-point target (R120, R121). -/
def convElem (tgt : Nat) (f : FpFmt) (nanmode : Bool) (v : FVal) : Nat × Nat × Nat :=
  match v with
  | .fin _ m e => convSpecial tgt f nanmode v (f.roundMag m e)
  | _ => convSpecial tgt f nanmode v 0

/-- One value rounded stochastically with the 16-bit random value `r` (R123). -/
def convElemSr (tgt : Nat) (f : FpFmt) (nanmode : Bool) (v : FVal) (r : Nat) : Nat × Nat × Nat :=
  match v with
  | .fin _ m e =>
    let td := f.truncMag m e
    convSpecial tgt f nanmode v (if 2 ^ 16 ≤ td.2 + r then td.1 + 1 else td.1)
  | _ => convSpecial tgt f nanmode v 0

/-- A value rounded to the nearest-even integer. -/
def roundInt (neg : Bool) (m : Nat) (e : Int) : Int :=
  let a : Nat :=
    if 0 ≤ e then m * 2 ^ e.toNat
    else
      let sh := (-e).toNat
      let t := m / 2 ^ sh
      let r := m % 2 ^ sh
      if r * 2 < 2 ^ sh then t else if r * 2 = 2 ^ sh then t + t % 2 else t + 1
  if neg then -(a : Int) else a

/-- Saturation of an integer to `w` bits two's complement (R121, R221): the code and whether it saturated. -/
def satInt (w : Nat) (z : Int) : Nat × Nat :=
  let hi : Int := 2 ^ (w - 1) - 1
  let lo : Int := -(2 ^ (w - 1))
  if hi < z then (codeOf w hi, 1) else if z < lo then (codeOf w lo, 1) else (codeOf w z, 0)

/-- The exact value an element code of a format stands for before SCALE (R94, R100); integers by their two's complement
value. -/
def elemVal (code e : Nat) : FVal :=
  if code = fcINT8 then .ofInt (signedOf 8 e) else if code = fcINT32 then .ofInt (signedOf 32 e)
  else match fpOf code with
  | some f => f.decode e
  | none => .fin false 0 0

/-- One value brought to any tile target (R121, R128). -/
def toTarget (tgt : Nat) (nanmode : Bool) (v : FVal) : Nat × Nat × Nat :=
  match fpOf tgt with
  | some f => convElem tgt f nanmode v
  | none =>
    let w := if tgt = fcINT8 then 8 else 32
    match v with
    | .fin n m e => let p := satInt w (roundInt n m e); (p.1, p.2, 0)
    | _ => (0, 0, 0)

/-- May the convert stage turn the source format into the target (R128)? -/
def convertAllowed (src tgt : Nat) : Bool :=
  if src = tgt then src != fcINT4 && src != fcINT2
  else if src = fcE2M1 ∨ src = fcE4M3 ∨ src = fcE5M2 then tgt == fcBF16 || tgt == fcFP32
  else if src = fcBF16 then tgt == fcFP32
  else if src = fcINT8 then tgt == fcINT32 || tgt == fcFP32
  else src == fcBFP16 && tgt == fcFP32

/-- May the store stage turn the source format into the target (R128)? -/
def storeAllowed (src tgt : Nat) : Bool :=
  if src = tgt then src == fcFP32 || src == fcBF16 || src == fcINT32 || src == fcINT8 || src == fcE4M3 || src == fcE5M2
    || src == fcE2M1 || src == fcBFP16
  else if src = fcFP32 then tgt == fcBF16 || tgt == fcE4M3 || tgt == fcE5M2 || tgt == fcE2M1
  else if src = fcBF16 then tgt == fcE2M1 || tgt == fcE4M3 || tgt == fcE5M2
  else src == fcINT32 && (tgt == fcINT8 || tgt == fcFP32)

/-- Does the store move each tile unchanged (R662)? -/
def storeMoves (src tgt : Nat) : Bool :=
  src == tgt && (src == fcINT8 || src == fcE4M3 || src == fcE5M2 || src == fcE2M1 || src == fcBFP16)

/-- The expansion of one code by its descriptor (R116–R118): the element code and whether it saturated or became zero
from a NaN; a zero product takes the exclusive OR of the signs (log entry 103). -/
def expandElem (mode tgt : Nat) (f : FpFmt) (nanmode : Bool) (zero scaleS : Nat) (table : List Nat) (q : Nat) :
    Nat × Nat × Nat :=
  if mode = 0 then (if tgt = fcE2M1 then table.getD q 0 % 16 else table.getD q 0, 0, 0)
  else convElem tgt f nanmode (.mul (.ofInt ((q : Int) - (zero : Int))) (fmtBF16.decode scaleS))

/-- Does an expansion descriptor break R119? -/
def expBad (d : List Nat) : Bool :=
  decide (fieldAt d 2 1 ≥ 2) || (slice d 6 10).any (· != 0) || decide (1 < fieldAt d 0 1)
    || (fieldAt d 1 1 != fcE2M1 && fieldAt d 1 1 != fcE4M3) || (bitAt (fieldAt d 2 1) 0 && fieldAt d 1 1 == fcE2M1)

/-- The work of the convert stage on one tile (R98, R101–R104, R107, R116–R119, R128): `keepScale` says that the tile
goes to an array or the Halo; `exp` gives the bytes of the descriptor that EXP_INDEX names, if the table holds it. -/
def convertTile (key srcFmt tgtFmt : Nat) (keepScale : Bool) (exp : Nat → Option (List Nat)) (hdr payload : List Nat) :
    Except ConvFault Converted :=
  if !checksumOk key hdr payload then .error .checksum
  else if hdrBad hdr then .error .format
  else
    let h := TileHdr.ofBytes hdr
    if h.format ≠ srcFmt then .error .format
    else if (h.format = fcINT8 ∨ h.format = fcINT32) ∧ h.scale ≠ 0 then .error .format
    else
      let raw := unpackElems (elemBits h.format) payload
      let expanded : Except ConvFault (TileHdr × List Nat × Nat × Nat) :=
        if !h.expand then .ok (h, raw, 0, 0)
        else match exp h.expIndex with
          | none => .error .format
          | some d =>
            if expBad d then .error .format
            else
              let tgt := fieldAt d 1 1
              let f := if tgt = fcE2M1 then fmtE2M1 else fmtE4M3
              let nm := bitAt (fieldAt d 2 1) 0
              let es := raw.map (expandElem (fieldAt d 0 1) tgt f nm (fieldAt d 3 1) (fieldAt d 4 2) (slice d 16 16))
              .ok ({ h with format := tgt, expand := false, nanmode := nm, expIndex := 0 }, es.map (·.1),
                es.foldl (fun n e => n + e.2.1) 0, es.foldl (fun n e => n + e.2.2) 0)
      match expanded with
      | .error e => .error e
      | .ok (h, es, sat0, nan0) =>
        let tgt := if tgtFmt = 0 then h.format else tgtFmt
        if h.expIndex ≠ 0 ∨ !convertAllowed h.format tgt ∨ ((TileHdr.ofBytes hdr).expand ∧ tgt ≠ h.format) then .error .format
        else
          let patt := fun e => h.format == fcE4M3 && !h.nanmode && e % 128 == 127
          let np := es.countP patt
          let es1 := es.map fun e => if patt e then e - 1 else e
          let sc : Int := if keepScale then 0 else h.scale
          let isFloat := (fpOf h.format).isSome
          if tgt = h.format ∧ (sc = 0 ∨ !isFloat) then
            .ok { hdr := h, elems := es1, sat := sat0, nan := nan0, pattern := np }
          else
            let cs := es1.map fun e => toTarget tgt h.nanmode ((elemVal h.format e).scale (if isFloat then sc else 0))
            .ok { hdr := { h with format := tgt, scale := if keepScale then h.scale else 0,
                                  nanmode := h.nanmode && (tgt == fcE4M3 || tgt == fcE5M2) },
                  elems := cs.map (·.1), sat := sat0 + cs.foldl (fun n e => n + e.2.1) 0,
                  nan := nan0 + cs.foldl (fun n e => n + e.2.2) 0, pattern := np }

/-- One round of Philox4x32 (R124). PRESUMED: the constants are those of the published generator. -/
def philoxRound (k0 k1 : Nat) (c : Nat × Nat × Nat × Nat) : Nat × Nat × Nat × Nat :=
  let p0 := 0xD2511F53 * c.1
  let p1 := 0xCD9E8D57 * c.2.2.1
  (Nat.xor (Nat.xor (p1 / 2 ^ 32) c.2.1) k0, p1 % 2 ^ 32, Nat.xor (Nat.xor (p0 / 2 ^ 32) c.2.2.2) k1, p0 % 2 ^ 32)

/-- Ten rounds of Philox4x32, the key bumped between rounds (R124). -/
def philox (fuel : Nat) (k0 k1 : Nat) (c : Nat × Nat × Nat × Nat) : Nat × Nat × Nat × Nat :=
  match fuel with
  | 0 => c
  | n + 1 => philox n ((k0 + 0x9E3779B9) % 2 ^ 32) ((k1 + 0xBB67AE85) % 2 ^ 32) (philoxRound k0 k1 c)

/-- The 16-bit random value of element `e` of a tile (R124). -/
def srRandom (seed step key core e : Nat) : Nat :=
  let o := philox 10 (seed % 2 ^ 32) (seed / 2 ^ 32 % 2 ^ 32) (step % 2 ^ 32, key, e / 8, core)
  let w := match e % 8 / 2 with | 0 => o.1 | 1 => o.2.1 | 2 => o.2.2.1 | _ => o.2.2.2
  if e % 2 = 0 then w % 2 ^ 16 else w / 2 ^ 16 % 2 ^ 16

/-- The largest finite magnitude of a target, as significand and exponent (R127). -/
def largestOf (tgt : Nat) : Nat × Int :=
  match fpOf tgt with
  | some f => f.magVal f.maxCode
  | none => (if tgt = fcINT8 then 127 else 2 ^ 31 - 1, 0)

/-- ⌈log₂(amax ÷ F)⌉ for a non-zero amax (R127). -/
def ceilLog2Quot (m : Nat) (e : Int) (mf : Nat) (ef : Int) : Int :=
  let g : Int := ((Nat.log2 m : Int) + e) - ((Nat.log2 mf : Int) + ef)
  if m * 2 ^ Nat.log2 mf ≤ mf * 2 ^ Nat.log2 m then g else g + 1

/-- The larger of two magnitudes. -/
def maxMag (a b : Nat × Int) : Nat × Int :=
  if a.1 = 0 then b else if b.1 = 0 then a
  else
    let e0 := min a.2 b.2
    if a.1 * 2 ^ (a.2 - e0).toNat < b.1 * 2 ^ (b.2 - e0).toNat then b else a

/-- The largest finite magnitude of a tile (R127). -/
def amaxOf (vs : List FVal) : Nat × Int :=
  vs.foldl (fun a v => match v with | .fin _ m e => maxMag a (m, e) | _ => a) (0, 0)

/-- The work of the store stage on one tile (R120–R124, R127, R128, R662): the source tile's header and element codes, the
descriptor's target, NANMODE, AUTOSCALE, STOCH and SCALE, and the random value of each element. -/
def storeTile (src : TileHdr) (es : List Nat) (tgtFmt : Nat) (nanmode autoscale stoch : Bool) (scale : Int)
    (rnd : Nat → Nat) : Except ConvFault Converted :=
  let tgt := if tgtFmt = 0 then src.format else tgtFmt
  if !storeAllowed src.format tgt then .error .format
  else if storeMoves src.format tgt then
    if autoscale || stoch then .error .format else .ok { hdr := src, elems := es }
  else if stoch && !(src.format == fcBF16 && (tgt == fcE4M3 || tgt == fcE5M2)) then .error .format
  else
    let vs := es.map fun e => (elemVal src.format e).scale src.scale
    let am := amaxOf vs
    let raw : Int := if autoscale then (if am.1 = 0 then 0 else ceilLog2Quot am.1 am.2 (largestOf tgt).1 (largestOf tgt).2)
      else scale
    let sg : Int := if autoscale then max (-127) (min 127 raw) else raw
    let cs := vs.zipIdx.map fun p =>
      match stoch, fpOf tgt with
      | true, some f => convElemSr tgt f nanmode (p.1.scale (-sg)) (rnd p.2)
      | _, _ => toTarget tgt nanmode (p.1.scale (-sg))
    .ok { hdr := { format := tgt, nanmode := nanmode && (tgt == fcE4M3 || tgt == fcE5M2), scale := sg,
                   rows := src.rows, cols := src.cols },
          elems := cs.map (·.1), sat := cs.foldl (fun n e => n + e.2.1) 0, nan := cs.foldl (fun n e => n + e.2.2) 0,
          clamp := if sg = raw then 0 else 1 }

/-- A BFP16 block: 32 signed mantissas, a block exponent and a residue (R109). -/
structure BfpBlock where
  mants : List Int := []
  exp : Nat := 0
  res : Nat := 0
deriving DecidableEq, Repr, Inhabited

/-- The residue modulo 255 of a sum of mantissas (R111, R115). -/
def residue255 (ms : List Int) : Nat := ((ms.foldl (· + ·) 0) % 255).toNat

/-- Does a block pass its residue check (R112)? -/
def BfpBlock.ok (b : BfpBlock) : Bool := b.exp != 255 && b.res != 255 && b.res == residue255 b.mants

/-- The block that 66 bytes spell (R109). -/
def BfpBlock.ofBytes (b : List Nat) : BfpBlock :=
  { mants := (chunksOf 2 32 (b.take 64)).map fun p => signedOf 16 (leNat p), exp := fieldAt b 64 1, res := fieldAt b 65 1 }

/-- The 66 bytes of a block (R109). -/
def BfpBlock.bytes (b : BfpBlock) : List Nat := (b.mants.flatMap fun m => leBytes 2 (codeOf 16 m)) ++ [b.exp % 256, b.res % 256]

/-- The value of element `i` of a block: Mi × 2^(EXP − 142) (R110). -/
def BfpBlock.val (b : BfpBlock) (i : Nat) : FVal :=
  let m := b.mants.getD i 0
  .fin (decide (m < 0)) m.natAbs ((b.exp : Int) - 142)

/-- Transpose of a 128 × 128 element list (R74). -/
def transpose128 (es : List Nat) : List Nat :=
  let rows := chunksOf 128 128 es
  (List.range 128).flatMap fun c => rows.map fun r => r.getD c 0

end Sys2Proof.Machine
end

