-- ==== Sys2Proof/Machine/State.lean ====
section
/-! DEFINITION. The state of the module as plain data: every register, memory, queue, buffer and mode that the manual gives
it, the waiting commands, and the timed effects that will fall due. -/
namespace Sys2Proof.Machine

/-- A collection by number in one canonical form: numbers rising, and no entry equal to the default. -/
abbrev SMap (α : Type) := List (Nat × α)

/-- The states of a ring-buffer or companion half (R151). -/
inductive HalfState where
  | free | filling | held | adding | sending | handoff
deriving DecidableEq, Repr, Inhabited

/-- Where a panel was injected from (R72, R73): the injecting core, the INJECT descriptor, the base of its source and the number of the
unit that is the panel's header block. -/
structure PanelSrc where
  owner : Nat := 0
  desc : List Nat := []
  base : Nat := 0
  first : Nat := 0
deriving DecidableEq, Repr, Inhabited

/-- One ring-buffer or companion half of an array (R64, R151): its state; the element format of the panel it holds, whether that
panel lies turned (R74), its tile keys and the resident copy it came from (R73); whether the array has released it or the last
addition has completed; how many links still read it; and, of a companion, the array that sent it, the header as it was sent (R161), and
whether an entry of it was not finite or saturated (R290, R293). Its bytes lie in the array's local store. -/
structure Half where
  st : HalfState := .free
  fmt : Nat := 0
  back : Bool := false
  keys : List Nat := []
  origin : PanelSrc := {}
  done : Bool := false
  linkReads : Nat := 0
  sender : Option Nat := none
  sent : List Nat := []
  nanSeen : Bool := false
  satSeen : Bool := false
deriving DecidableEq, Repr, Inhabited

/-- One operand panel of a product as the array reads it: the format, the 64 tile headers' scales, and the element codes by
row (R43, R49, R180); an operand that the feeder queue supplies grows entry by entry in `rows`, by row × 32 + entry, each with the scale
of its tile (R43, R61). `read` says where the array reads it digit slot by digit slot: the array and the bank offset (R180). -/
structure Panel where
  fmt : Nat := 0
  scales : List Int := []
  elems : List Nat := []
  fed : Bool := false
  rows : SMap (List Nat × Int) := []
  read : Option (Nat × Nat) := none
deriving DecidableEq, Repr, Inhabited

/-- The operands of one product of a continued run (R55): the product's number, its parallel and serial panels and its feed mode. -/
structure Pair where
  prod : Nat := 0
  par : Panel := {}
  ser : Panel := {}
  colSkew : Bool := false
deriving DecidableEq, Repr, Inhabited

/-- A product in flight on an array (R50–R56, R158–R160): the operand pairs of its continued run, oldest first; whether a later product
continues it (`abandoned`, R55); and whether a companion header that did not fit has been asked for again (`hdrTried`, R159, R161). -/
structure Product where
  id : Nat := 0
  core : Nat := 0
  ctx : Nat := 0
  instr : Nat := 0
  issuedAt : Nat := 0
  c : Nat := 1
  colSkew : Bool := false
  outBf16 : Bool := false
  cont : Bool := false
  cstart : Bool := false
  half : Nat := 0
  matrix : Nat := 0
  panel : Nat := 0
  key : Nat := 0
  feeder : Bool := false
  pairs : List Pair := []
  abandoned : Bool := false
  hdrTried : Bool := false
deriving DecidableEq, Repr, Inhabited

/-- One array (R64, R151, R153): its halves, the alternation pointers, and its products in flight. -/
structure ArrayDyn where
  ring : SMap Half := []
  comp : SMap Half := []
  inHalf : Nat := 0
  readHalf : Nat := 0
  fwdHalf : Nat := 0
  compNext : Nat := 0
  prods : List Product := []
  last : Option Product := none
deriving DecidableEq, Repr, Inhabited

/-- A Halo transfer, resend or injection in flight (R65–R73, R659): where it comes from and goes to over which links, its bytes, the units
that are being resent and the cycle up to which their resends take the link, whether its acknowledgement is due or given, and whether all of
it has arrived. An injection has no sending array. -/
structure Transfer where
  id : Nat := 0
  core : Nat := 0
  src : Option Nat := none
  srcHalf : Nat := 0
  dst : Nat := 0
  dstHalf : Nat := 0
  companion : Bool := false
  back : Bool := false
  fmt : Nat := 0
  hdrs : List (List Nat) := []
  elems : List (List Nat) := []
  keys : List Nat := []
  links : List (Nat × Bool) := []
  started : Bool := false
  resend : List Nat := []
  resendUntil : Nat := 0
  reinject : Bool := false
  ackDue : Bool := false
  acked : Bool := false
  arrived : Bool := false
  origin : PanelSrc := {}
  nanSeen : Bool := false
  satSeen : Bool := false
  ctx : Nat := 0
  instr : Nat := 0
deriving DecidableEq, Repr, Inhabited

/-- A Halo slot that is taken: a link direction or a ring input from cycle `lo` up to cycle `hi` (R67, R659). `ring` says
which; `node` is the A-number; `ccw` the link's direction. -/
structure Slot where
  ring : Bool := false
  node : Nat := 0
  ccw : Bool := false
  lo : Nat := 0
  hi : Nat := 0
deriving DecidableEq, Repr, Inhabited

/-- A tile in a core's tile queue (R208, R211): its header, also as the 32 bytes sealed under key 0, element codes, the cycle it entered and the
product it came from. -/
structure TqTile where
  hdr : TileHdr := {}
  sealed : List Nat := []
  elems : List Nat := []
  enteredAt : Nat := 0
  array : Nat := 0
  prod : Nat := 0
  sat : Nat := 0
deriving DecidableEq, Repr, Inhabited

/-- A stream engine (R167, R175): the descriptor it runs, the context and instruction that started it, the next issue, the headers of a fabric
panel that wait for its last tile, and whether the panel's header block has been sent before its tiles (R671), or the companion's header been
asked for again (R161, R276). -/
structure Engine where
  running : Bool := false
  desc : List Nat := []
  index : Nat := 0
  ctx : Nat := 0
  instr : Nat := 0
  back : Bool := false
  step : Nat := 0
  issue : Nat := 0
  busyUntil : Nat := 0
  srcHalf : Nat := 0
  dstHalf : Nat := 0
  srcBase : Nat := 0
  dstBase : Nat := 0
  transfer : Option Nat := none
  gathered : List (List Nat) := []
  hdrSent : Bool := false
deriving DecidableEq, Repr, Inhabited

/-- A variable-latency read in flight (R189–R193): who issued it, the half its write goes to, what it moves, and the causes
that hold if it misses its window. -/
structure Read where
  id : Nat := 0
  core : Nat := 0
  engine : Nat := 0
  ctx : Nat := 0
  instr : Nat := 0
  link : Nat := 255
  half : Nat := 0
  index : Nat := 0
  kind : Nat := 0
  unit : Nat := 0
  key : Nat := 0
  src : Nat := 0
  bytes : Nat := 0
  issuedAt : Nat := 0
  desc : List Nat := []
  dstBase : Nat := 0
  refetch : Bool := false
  rekey : Bool := false
  supply : Bool := false
  landed : Bool := false
deriving DecidableEq, Repr, Inhabited

/-- A RECEIVE that counts bytes into a half (R663). -/
structure Receive where
  core : Nat := 0
  ctx : Nat := 0
  engine : Nat := 0
  link : Nat := 0
  half : Nat := 0
  count : Nat := 0
  target : Nat := 0
  acquired : Bool := false
deriving DecidableEq, Repr, Inhabited

/-- The two sides of a buffer link (R182–R186): the half pointers, whether each side holds its half, and the releases that are not visible
yet, those of a RECEIVE or a collective apart. -/
structure LinkDyn where
  prodHalf : Nat := 0
  consHalf : Nat := 0
  prodHolds : Bool := false
  consHolds : Bool := false
  pendingRelease : Bool := false
  fullSoon : Nat := 0
  emptySoon : Nat := 0
  outSoon : Nat := 0
deriving DecidableEq, Repr, Inhabited

/-- One level of LOOP in a context (R364). -/
structure LoopFrame where
  start : Nat := 0
  len : Nat := 0
  count : Nat := 0
  period : Nat := 0
  step : Int := 0
  t0 : Nat := 0
  iter : Nat := 0
deriving DecidableEq, Repr, Inhabited

/-- A sequencer context (R356, R363–R366, R377); `looped` says that the last instruction ended an iteration of a loop around it. -/
structure Ctx where
  first : Nat := 0
  count : Nat := 0
  next : Nat := 0
  base : Nat := 0
  last : Nat := 0
  loops : List LoopFrame := []
  ended : Bool := false
  stopped : Bool := false
  waiting : Bool := false
  cmdIndex : Nat := 0
  looped : Bool := false
deriving DecidableEq, Repr, Inhabited

/-- The vector, update or BADD descriptor that runs on a vector engine (R218), with what it frees when it completes, its passes and the VCLK
cycles after the last of them. -/
structure VecRun where
  ctx : Nat := 0
  instr : Nat := 0
  index : Nat := 0
  issuedAt : Nat := 0
  vclk : Nat := 0
  tiles : Nat := 0
  writesL : Bool := false
  passes : Nat := 0
  tail : Nat := 0
deriving DecidableEq, Repr, Inhabited

/-- The companion that the reduction unit is thinning (R225–R227, R276–R283): the descriptor, its k, the companion's blocks, and the
body bytes and segments written so far. -/
structure ThinRun where
  desc : List Nat := []
  k : Nat := 0
  ctx : Nat := 0
  instr : Nat := 0
  array : Nat := 0
  half : Nat := 0
  blocks : List BfpBlock := []
  bytes : Nat := 0
  segs : Nat := 0
  satSeen : Bool := false
  issuedAt : Nat := 0
deriving DecidableEq, Repr, Inhabited

/-- A tensor segment's measurement (R284, R285): G and U as binary64 codes, the blocks counted, the step they belong to and
the bytes last committed. -/
structure SegDyn where
  g : Nat := 0
  u : Nat := 0
  blocks : Nat := 0
  step : Option Nat := none
  bytesPrev : Nat := 0
deriving DecidableEq, Repr, Inhabited

/-- A buffer link as the LINKS record declares it (R667). -/
structure LinkCfg where
  halves : Nat := 0
  producer : Nat := 0
  consumer : Nat := 0
  space : Nat := 0
  array : Nat := 0
  stride : Nat := 0
  base : Nat := 0
deriving DecidableEq, Repr, Inhabited

/-- A place of a lead array's feeder queue (R59–R62): the depth entry that it holds, its bytes once written with their format (0 for raw
bytes) and scale; the wait that is pending for each depth entry that it will take; and the writes that wait for it to be freed, by depth entry,
format, scale and bytes. -/
structure FeederEntry where
  entry : Nat := 0
  data : Option (List Nat) := none
  fmt : Nat := 0
  scale : Int := 0
  pending : SMap (Option Nat) := []
  waiting : List (Nat × Nat × Int × List Nat) := []
deriving DecidableEq, Repr, Inhabited

/-- What the structure section lays out in one core's stores (R666). -/
structure StoreMap where
  arrays : List (List Nat) := []
  stream : Nat × Nat := (0, 0)
  vector : Nat × Nat := (0, 0)
  exp : Nat × Nat := (0, 0)
  const : Nat × Nat := (0, 0)
  resident : Nat × Nat := (0, 0)
  expCount : Nat := 0
  streamCount : Nat := 0
deriving DecidableEq, Repr, Inhabited

/-- One core (R21, R167, R168, R208, R274): its contexts and program, engines, tile queue, store-stage output (each element with its format
and whether it is a working copy),
reduction unit, buffer links and feeder queue; `freezePend` the freeze words that still act with an old value, with whether their beat boundary
has passed, and `updWait` whether an update descriptor waits that keeps them (R257); `armSeen` keeps, for a slot, the wall cycle of the last write to its STR_PS_ARM and what the
register held before that cycle's writes (R199). -/
structure Core where
  ctxs : SMap Ctx := []
  program : List Nat := []
  engines : SMap Engine := []
  tq : List TqTile := []
  storeBuf : List (Nat × Nat × Bool) := []
  vec : Option VecRun := none
  update : List Nat := []
  thinQ : List (List Nat × Nat × Nat × Nat) := []
  thin : Option ThinRun := none
  thinNext : Option ThinRun := none
  segs : SMap SegDyn := []
  links : SMap LinkCfg := []
  linkDyn : SMap LinkDyn := []
  feeder : SMap FeederEntry := []
  map : StoreMap := {}
  active : SMap (Nat × Nat) := []
  schStaged : SMap (Option Word) := []
  freezePend : List (Nat × Word × Bool) := []
  updWait : Bool := false
  schKept : SMap Bool := []
  receives : List Receive := []
  armSeen : SMap (Nat × Word) := []
  egressUntil : Nat := 0
  ingressUntil : Nat := 0
deriving DecidableEq, Repr, Inhabited

/-- A Lull request that is outstanding (R333, R336): kind 0 a stage, 1 the sequencer, 2 a received hold. `tag` names what
ends it. -/
structure LullReq where
  kind : Nat := 0
  stage : Nat := 0
  cause : Nat := 0
  core : Nat := 0
  since : Nat := 0
  tag : Nat := 0
deriving DecidableEq, Repr, Inhabited

/-- A rendezvous entry (R329). -/
structure RvEntry where
  barrier : Nat := 0
  coll : Nat := 0xFFFF
  ofs : Nat := 0
  slack : Nat := 0
  lead : Nat := 0
  point : Nat := 0
  done : Nat := 0
deriving DecidableEq, Repr, Inhabited

/-- The run-time state of a rendezvous (R337–R342): whether this module holds on it, whether that hold began in a swallowed
cycle with nothing outstanding, the senders that hold it here, and the beats the holds began in. -/
structure RvDyn where
  shift : Nat := 0
  holding : Bool := false
  bare : Bool := false
  senders : List Coord := []
  since : Nat := 0
  received : Bool := false
deriving DecidableEq, Repr, Inhabited

/-- A collective instance at its owner (R298, R301, R305): its step, whether it is open, the replica ranges counted per panel, the
panels and replicas whose message has been asked for again and whether it had saturated an addition by then (R293), and whether it is
complete. -/
structure CollDyn where
  step : Nat := 0
  opened : Bool := false
  counted : List (Nat × Nat × Nat) := []
  retried : List (Nat × Nat × Bool) := []
  complete : Bool := false
deriving DecidableEq, Repr, Inhabited

/-- A step-queue entry (R596–R600): its kind, the entry, and the steps of it that have started. -/
structure QEntry where
  kind : Nat := 0
  entry : RingEntry := {}
  started : Nat := 0
deriving DecidableEq, Repr, Inhabited

/-- What Zenith keeps of a partition's loaded image (R371, R524). -/
structure Loaded where
  addr : Nat := 0
  len : Nat := 0
  bases : List Nat := []
  ptable : Nat := 0
  image : List Nat := []
  structure_ : List Nat := []
  signer : List Nat := []
  params : List Nat := []
  bypass : Nat := 0
deriving DecidableEq, Repr, Inhabited

/-- One partition, named by its lowest core (R512): its step, Lull, rendezvous, collectives, routes, rings, image, keys,
sweep, Clearing and dump. -/
structure Part where
  startLead : Nat := 0
  stepNo : Nat := 0
  starting : Bool := false
  running : Bool := false
  seqCycle : Nat := 0
  /-- The cycles that resends and re-injections count: those outside swallowed cycles and outside the Lulls that no resend has asked for
  (R68, R69, R72). -/
  resendCycle : Nat := 0
  stepCycle : Nat := 0
  inStep : Bool := false
  lull : List LullReq := []
  rvs : SMap (Option RvEntry) := []
  rvDyn : SMap RvDyn := []
  colls : SMap (List Nat) := []
  collDyn : SMap CollDyn := []
  routes : SMap (List Nat) := []
  combine : Nat := 0
  queue : List QEntry := []
  prodRead : Bool := false
  fetched : List QEntry := []
  refusedAt : Option Nat := none
  records : List (List Nat × Bool) := []
  cqCons : Nat := 0
  image : Option Loaded := none
  loading : Option (Loaded × Nat × Nat) := none
  signers : List (List Nat) := []
  exportSeq : Nat := 0
  resultKey : Option (List Nat) := none
  keys : SMap (Option Nat) := []
  granules : SMap Bool := []
  sweepAt : SMap Nat := []
  locked : SMap (Option Nat) := []
  lockAt : SMap Nat := []
  clearStep : Nat := 0
  clearCode : Nat := 0
  pstatFlip : Bool := false
  fault : Option Nat := none
  /-- A fault of this cycle that stops the partition at its end: the code and the dump's trigger (R377). -/
  stopping : Option (Nat × List Nat) := none
  /-- The first fault since the load: its code and its event entry (R603, R625, R630). -/
  first : Option (Nat × List Nat) := none
  trigger : List Nat := []
  /-- The step queue at a stop, for the dump (R628, R631). -/
  stopQueue : List QEntry := []
  dumpState : Nat := 0
  dumpHdr : List Nat := []
  dumpBody : List Nat := []
  tickets : List (Nat × Nat × Nat) := []
  resetWait : Bool := false
  waitAns : List (Nat × Nat) := []
  clearAfter : Bool := false
deriving DecidableEq, Repr, Inhabited

/-- The dynamic side of a barrier unit beside BAR_CFG and BAR_STATE (R413–R419): the child totals the record expects; for each sense
the cores that have arrived and not departed, the cores whose departure the unit has not seen, and the children that have
answered with BAR_OPEN; the cores that a departure has reached; and the arrivals and departures that wait. -/
structure BarDyn where
  totals : List Nat := []
  sense : SMap (List Nat × List Nat × List Nat) := []
  departReady : SMap (List Nat) := []
  held : List (Nat × Nat × Bool) := []
  waiting : List (Nat × Nat × Nat × Bool) := []
  stamp : Nat := 0
  stepIssued : SMap Nat := []
deriving DecidableEq, Repr, Inhabited

/-- A scheduled-plane transfer in flight (R386, R389): the cores it goes to, the place that its address names there, the layout, format and
scale of what it carries, the place of its tile group, and one tile or, with none, the header block. -/
structure StraTransfer where
  id : Nat := 0
  core : Nat := 0
  ctx : Nat := 0
  instr : Nat := 0
  cores : List Nat := []
  space : Nat := 0
  array : Nat := 0
  off : Nat := 0
  skew : Bool := false
  fmt : Nat := 0
  scale : Int := 0
  group : Nat := 0
  tile : Option Nat := none
  hdrs : List (List Nat) := []
  data : List Nat := []
deriving DecidableEq, Repr, Inhabited

/-- An admitted message of this module that is not yet acknowledged (R345, R447, R459). -/
structure OutMsg where
  hdr : FabricMsg := {}
  port : Nat := 0
  core : Nat := 0
  ctx : Nat := 0
  laggards : List Coord := []
  missed : Bool := false
  released : Option (Nat × Nat × Nat) := none
deriving DecidableEq, Repr, Inhabited

/-- A gather request of this module that waits for its reply (R449, R673): the core and the feeder entries that it fills, or the
recovery it serves. -/
structure GatherWait where
  msgid : Nat := 0
  core : Nat := 0
  ctx : Nat := 0
  row : Nat := 0
  owner : Coord := {}
  recovery : Option Nat := none
  rowBytes : Nat := 0
  items : Nat := 0
deriving DecidableEq, Repr, Inhabited

/-- One branch of a multicast at this module (R397, R457): an outgoing port, or 6 for the local branch; its free slots, the flits
it still buffers, its gap and whether it is done. -/
structure Branch where
  line : Nat := 6
  free : Nat := 256
  buffered : List (Nat × List Nat) := []
  gap : Option Nat := none
  asked : Bool := false
  done : Bool := false
  stage : Nat := 0
  remain : Nat := 0
  tag : Nat := 0
deriving DecidableEq, Repr, Inhabited

/-- A multicast passing through this module (R397, R457, R459). -/
structure Mcast where
  hdr : FabricMsg := {}
  inPort : Nat := 6
  flits : Nat := 0
  branches : List Branch := []
  written : Nat := 0
  member : Bool := false
  doneSent : Bool := false
  complete : Bool := false
  dropped : Bool := false
deriving DecidableEq, Repr, Inhabited

/-- A message that waits at a port to be sent flit by flit, from flit `next` up to `last` (R434, R442, R444); a `piece` is one
flit of a multicast, its bytes alone (R456). -/
structure TxMsg where
  hdr : FabricMsg := {}
  vc : Nat := 2
  tag : Nat := 0
  next : Nat := 0
  last : Nat := 0
  piece : Bool := false
deriving DecidableEq, Repr, Inhabited

/-- A flit in a retry buffer (R431, R438, R440). -/
structure Kept where
  flit : Flit := {}
  sends : Nat := 0
  sentAt : Nat := 0
deriving DecidableEq, Repr, Inhabited

/-- One link port (R430–R440, R450, R461–R469, R539): sequence numbers, retry buffers, credits, receive assembly, queues, the
admission ledger, keys, training and the peer's identity. -/
structure PortDyn where
  txSeqD : Nat := 0
  txSeqC : Nat := 0
  rxSeqD : Nat := 0
  rxSeqC : Nat := 0
  keptD : List Kept := []
  keptC : List Kept := []
  replayD : List Kept := []
  replayC : List Kept := []
  nakD : Bool := false
  nakC : Bool := false
  nakSent : SMap Bool := []
  credits : SMap Nat := []
  owed : SMap Nat := []
  ctl : List CtlRec := []
  tx : List TxMsg := []
  rx : SMap (Option (FabricMsg × List Nat)) := []
  /-- Data flits of a cross-rack port in sequence order, from the first whose frame group's tag is not verified on (R463). -/
  heldRx : List (Flit × Bool) := []
  nextTag : Nat := 0
  ledger : SMap Nat := []
  trainStep : Nat := 0
  txKey : Option Nat := none
  rxKey : Option Nat := none
  rxOld : Option Nat := none
  pendTx : Option Nat := none
  setNo : Nat := 0
  groups : Nat := 0
  groupOpen : SMap Nat := []
  authFailed : Bool := false
  keyxSecret : Option Nat := none
  identSeen : Option IdentRec := none
  identOk : Bool := false
  identOnly : Bool := false
  readyFrom : Bool := false
  crossRack : Bool := false
  heldAlign : Option (Nat × Nat × Nat × Nat) := none
  combineOwn : Option (FabricMsg × Nat) := none
  combineNext : List Nat := []
  /-- VC1 credits withheld from an upstream port until its turn at a combining router (R393). -/
  withheld : Nat := 0
  stampBeat : Nat := 0
  phase : Bool := false
deriving DecidableEq, Repr, Inhabited

/-- A recovery under way (R483–R489). `space` is 0 HBM, 1 core store, 2 local store, 3 the tile queue (by slot from its head); `stage` is 0 retry, 1 replica, 2 copy,
3 recompute. `waiters` are the reads that wait for it, `hdr` and `key` the header and the key of a
tile, `newer` what has been written to the place since, and `read` or `write` a host's access. -/
structure Recovery where
  id : Nat := 0
  core : Nat := 0
  space : Nat := 0
  array : Nat := 0
  addr : Nat := 0
  len : Nat := 0
  check : Nat := 0
  stage : Nat := 0
  entry : List Nat := []
  waiters : List Nat := []
  patrol : Bool := false
  host : Option Nat := none
  write : Option (Nat × List Nat) := none
  msgid : Option Nat := none
  hdr : Option Nat := none
  newer : List (Nat × Nat) := []
  key : Nat := 0
  read : Option (Nat × Nat) := none
  remap : Bool := false
deriving DecidableEq, Repr, Inhabited

/-- A place of an SRAM that a recovery has written back (R499): the core, the space (1 the core store, 2 a local store), the array of a local
store, the first offset and the length. -/
structure SramPlace where
  core : Nat := 0
  space : Nat := 0
  array : Nat := 0
  addr : Nat := 0
  len : Nat := 0
deriving DecidableEq, Repr, Inhabited

/-- A maintenance activity that runs (R506): its code, its scope (a stack, a port or a partition's lowest core), and the ticket
it serves. -/
structure Maint where
  act : Nat := 0
  scope : Nat := 0
  paused : Bool := false
deriving DecidableEq, Repr, Inhabited

/-- The clock generator and Meridian (R316–R324, R347, R548–R554): wall cycles, whether the beat counter counts, the swallow
group, the two ratios, Squall and its lowest voltage, and the alignment wave. -/
structure Clk where
  wall : Nat := 0
  /-- ACLK cycles that were not swallowed (R402). -/
  live : Nat := 0
  counting : Bool := false
  group : Nat := 0
  ratio : Nat := 0
  supply : Nat := 0
  thermal : Nat := 0
  cap : Bool := false
  squallMin : Nat := 0
  squallBeats : Nat := 0
  releasing : Bool := false
  nextSupply : Nat := 0
  nextThermal : Nat := 0
  refLost : Bool := false
  epochHigh : Bool := false
  swallowNow : Bool := false
  lastLow : Option Nat := none
  lastHigh : Option Nat := none
  critical : Bool := false
deriving DecidableEq, Repr, Inhabited

/-- An entry of the always-on record (R567). -/
structure AoEntry where
  code : Nat := 0
  beat : Nat := 0
  mv : Nat := 0
  tj : Nat := 0
deriving DecidableEq, Repr, Inhabited

/-- The power and reset side (R548, R555, R556, R561–R564, R567, R576): rails, the hold in reset, the always-on record and what
is committed of it, a power-state change under way, the readings and the start phase; the level of RESET_N, and whether the module waits for it
to rise (R648). -/
structure Pwr where
  held : Bool := false
  ao : List AoEntry := []
  mv : Nat := 48000
  tj : Nat := 0
  sensor : Nat := 0
  target : Nat := 0
  changing : Option (Nat × Nat) := none
  pausedPatrol : Bool := false
  cold : Bool := true
  phase3 : Bool := false
  phase5 : Bool := false
  pwrgdAt : Nat := 0
  pwrgdLow : Bool := false
  resetLow : Bool := false
  awaitRise : Bool := false
  thermtripN : Bool := true
  bench : Bool := false
deriving DecidableEq, Repr, Inhabited

/-- An EXPORT that the engine of a host port has taken (R538): the interface and ticket that it answers, the partition, the device range,
the host addresses, the partition's step number at the start, and whether a recovery has been tried. -/
structure ExportJob where
  iface : Nat := 0
  ticket : Nat := 0
  part : Nat := 0
  addr : Nat := 0
  len : Nat := 0
  data : Nat := 0
  rec_ : Nat := 0
  step : Nat := 0
  tried : Bool := false
deriving DecidableEq, Repr, Inhabited

/-- A host port's session state (R523–R527, R538, R586): the SPDM connection, the session's shared secret, the export engine's work and
the configuration-space side. -/
structure HostPort where
  spdm : Nat := 0
  session : Option (List Nat) := none
  keyGen : Nat := 0
  ideKeys : Option Nat := none
  d3 : Bool := false
  heldMsix : List Nat := []
  pba : Nat := 0
  window : Nat := 36
  evqCons : Nat := 0
  evPending : List (List Nat) := []
  dieVector : Bool := false
  lost : Nat := 0
  exports : List ExportJob := []
  overwrote : Nat := 0
  ideLeft : Bool := false
deriving DecidableEq, Repr, Inhabited

/-- Zenith (R516–R522, R606–R608): boot and error state, the nonce, the role keys' hashes, the tickets and completions of each
interface, the last command times, firmware, and the module's map and place. -/
structure Zen where
  booting : Bool := false
  booted : Bool := false
  error : Bool := false
  nonce : Nat := 0
  drbg : Nat := 0
  officer : Option (List Nat) := none
  users : SMap (Option (List Nat)) := []
  tickets : List (Nat × Nat × Nat) := []
  nextTicket : Nat := 1
  done : SMap (List (Nat × Nat × Nat × Nat)) := []
  lastCmd : SMap Nat := []
  alias_ : Option (List Nat) := none
  fwSlot : Nat := 0
  unlocked : Bool := false
  slotA : List Nat := []
  slotB : List Nat := []
  fuseSvn : Nat := 0
  fwVersion : Nat := 0
  mapStore : List Nat := []
  map : List Nat := []
  remaps : SMap (List Nat) := []
  aoCommitted : List AoEntry := []
  coord : Option Coord := none
  eventSeq : Nat := 0
  dumpSeq : Nat := 0
  bypass : Nat := 0
  lostDumps : List Nat := []
deriving DecidableEq, Repr, Inhabited

/-- An event on its way to Zenith (R401, R620). `open_` says that EXT holds only what R621 lets through for a confidential
partition. -/
structure EventRec where
  code : Nat := 0
  sev : Nat := 0
  source : Nat := 20
  part : Nat := 0xFF
  ctx : Nat := 0xFF
  detail : Nat := 0
  ext : Nat := 0
  open_ : Bool := false
deriving DecidableEq, Repr, Inhabited

/-- What the module sends out of its pins, lanes and host ports. -/
inductive Output where
  | flit (p : Nat) (f : Flit)
  | hostWrite (h addr : Nat) (bytes : List Nat)
  | msix (h vector : Nat)
  | readData (h : Nat) (bytes : List Nat)
  | poisoned (h : Nat)
  | doe (h code : Nat) (bytes : List Nat)
  | smbus (bytes : List Nat)
  | tdo (bytes : List Nat)
  | pin (name : String) (value : Nat)
  | local_ (m : FabricMsg)
deriving DecidableEq, Repr

/-- A timed effect (R369): a command whose moment comes by itself, or one of the internal moments that no row of the table
names. -/
inductive Act where
  | cmd (i : Instr)
  | firstByte (id : Nat)
  | coreArrive (k core unit sense : Nat) (step : Bool)
  | departReach (unit sense : Nat)
  | coreDepart (unit core sense : Nat)
  | releaseVisible (core ctx link : Nat) (consumer : Bool)
  | stepAnchor (k : Nat)
  | feederSlot (A id slot : Nat)
  | beginAdd (A id : Nat)
  | sendHalf (k c link : Nat)
  | operandSlot (A id slot : Nat)
  | tileArrive (id tile : Nat)
  | tileWrite (id tile : Nat)
  | deliverRead (id : Nat)
  | vectorTile (k c idx tile : Nat)
  | storeOut (k e : Nat) (en : Engine) (es : List (Nat × Nat × Bool))
deriving DecidableEq, Repr

/-- How a timed effect of a partition counts: in sequencer cycles, in sequencer cycles but not before the partition's Lull has ended (a stage
that waits, R333), or in the cycles of resends (R68); or, of no partition, in ACLK cycles that are not swallowed (R402). -/
inductive DueMode where
  | plain | held | resend | live
deriving DecidableEq, Repr, Inhabited

/-- When a timed effect falls due: in the cycles of a partition, or in wall cycles (R319). -/
structure Due where
  dom : Option Nat := none
  at_ : Nat := 0
  act : Act
  mode : DueMode := .plain
deriving DecidableEq, Repr

/-- The TAP (R636): the instruction it holds. -/
structure Tap where
  ir : Nat := 0
  boundary : List Nat := []
deriving DecidableEq, Repr, Inhabited

/-- A dump slot (R629–R632). -/
structure DumpSlot where
  valid : Bool := false
  seq : Nat := 0
  owner : Nat := 0
  code : Nat := 0
  conf : Bool := false
  bytes : List Nat := []
deriving DecidableEq, Repr, Inhabited

/-- The trace unit's buffer of 16-byte records, oldest first (R634). -/
structure Trace where
  records : List (List Nat) := []
deriving DecidableEq, Repr, Inhabited

/-- The reasons a step can stop with a fault. No command of this model raises one: every condition that the manual calls a
fault is an effect on the state (R377), and the module goes on. -/
inductive Fault where
  /-- Raised by no command (safe). -/
  | none_
deriving DecidableEq, Repr

/-- The reasons a step can be refused. -/
inductive Refusal where
  /-- A command that has no meaning in this model, named by its mnemonic (safe: the model stops where the module goes on). -/
  | notModelled (mnemonic : String)
deriving DecidableEq, Repr

/-- The state of the module. -/
structure State where
  /-- The commands that wait, first in, first out. -/
  pending : List Instr := []
  /-- Registers that differ from their reset value, by BAR0 offset; a port-local copy of host port 1 lies 2^26 higher and the
  SMBus copy of the mailbox 2^27 higher (R588). -/
  regs : List (Nat × Word) := []
  /-- HBM by physical address (R474); an unlisted byte reads zero (R500). -/
  hbm : List Host.Cell := []
  /-- Core stores: core × 2^25 + offset (R168). -/
  store : List Host.Cell := []
  /-- Local stores: array × 20,971,520 + bank × 20,480 + offset (R169). -/
  lstore : List Host.Cell := []
  /-- Mailbox argument and response buffers: interface × 2^16 + offset, the response from 2^15 (R606). -/
  mbuf : List Host.Cell := []
  /-- Lines whose stored check differs from the computed one, by line number over all stacks (R479, R501). -/
  badLine : SMap Nat := []
  cores : SMap Core := []
  arrays : SMap ArrayDyn := []
  parts : SMap Part := []
  bars : SMap BarDyn := []
  ports : SMap PortDyn := []
  hosts : SMap HostPort := []
  slots : List Slot := []
  transfers : List Transfer := []
  reads : List Read := []
  stra : List StraTransfer := []
  sent : List OutMsg := []
  gathers : List GatherWait := []
  mcasts : List Mcast := []
  recoveries : List Recovery := []
  /-- Tiles that a recovery has supplied in this step, by core, 4 more for one in HBM, and address (R493). -/
  supplied : List (Nat × Nat) := []
  /-- The SRAM places that the recovery of a parity failure has written back in this step (R499). -/
  writtenBack : List SramPlace := []
  /-- Partial writes that a failing line holds up, in their order: the address and the bytes (R480). -/
  heldWrites : List (Nat × List Nat) := []
  maint : List Maint := []
  agenda : List Due := []
  evq : List EventRec := []
  evLost : Nat := 0
  logs : SMap (List (List Nat)) := []
  clk : Clk := {}
  pwr : Pwr := {}
  zen : Zen := {}
  tap : Tap := {}
  dumps : SMap DumpSlot := []
  trace : Trace := {}
  pstat : SMap Nat := []
  eid : Nat := 0
  outbox : List Output := []
  nextId : Nat := 0
  /-- The model's own counter of free values drawn (log entry 1); not the module's. -/
  free : Nat := 0
deriving DecidableEq, Repr, Inhabited

/-- The module right after reset: every register at the reset value of its table, every memory byte as an unlisted byte reads,
no command waiting (R17, R500, R566). -/
def State.reset : State := {}

end Sys2Proof.Machine
end

