-- ==== Sys2Proof/Machine/Regs.lean ====
section
/-! DEFINITION. The registers: their BAR0 offsets, and the table of their fields' access codes and survival classes, as the
register tables of the chapters give them (R16, R17, R565). -/
namespace Sys2Proof.Machine

/-- HALO_FUSE (R92). -/
def rHaloFuse : Nat := 0x600000
/-- HALO_LAYOUT (R92). -/
def rHaloLayout : Nat := 0x600008
/-- HALO_SEGMENT (R92). -/
def rHaloSegment : Nat := 0x600010
/-- HALO_FUSION (R92). -/
def rHaloFusion : Nat := 0x600018
/-- HALO_FAULT (R92). -/
def rHaloFault : Nat := 0x600040
/-- HALO_FAULT_CYCLE (R92). -/
def rHaloFaultCycle : Nat := 0x600048
/-- HALO_ARRAY_SAT (R92). -/
def rHaloArraySat (i : Nat) : Nat := 0x600100 + 8 * i
/-- HALO_RESEND (R92). -/
def rHaloResend (i : Nat) : Nat := 0x600200 + 8 * i
/-- HALO_REINJECT (R92). -/
def rHaloReinject : Nat := 0x600300
/-- STR_SR_SEED (R131). -/
def rStrSrSeed (k : Nat) : Nat := 0x20F000 + 0x100000 * k
/-- STR_CONV_SAT (R131). -/
def rStrConvSat (k : Nat) : Nat := 0x20F008 + 0x100000 * k
/-- STR_CONV_NAN (R131). -/
def rStrConvNan (k : Nat) : Nat := 0x20F010 + 0x100000 * k
/-- STR_CONV_PATTERN (R131). -/
def rStrConvPattern (k : Nat) : Nat := 0x20F018 + 0x100000 * k
/-- STR_SCALE_CLAMP (R131). -/
def rStrScaleClamp (k : Nat) : Nat := 0x20F020 + 0x100000 * k
/-- STR_PS_SRC (R203). -/
def rStrPsSrc (k i : Nat) : Nat := 0x20C000 + 0x100000 * k + 8 * i
/-- STR_PS_DST (R203). -/
def rStrPsDst (k i : Nat) : Nat := 0x20C200 + 0x100000 * k + 8 * i
/-- STR_PS_ARM (R203). -/
def rStrPsArm (k i : Nat) : Nat := 0x20C400 + 0x100000 * k + 8 * i
/-- STR_STALL (R203). -/
def rStrStall (k stage cause : Nat) : Nat := 0x20E000 + 0x100000 * k + 8 * (8 * stage + cause)
/-- STR_STALL_REQ (R203). -/
def rStrStallReq (k stage cause : Nat) : Nat := 0x20E200 + 0x100000 * k + 8 * (8 * stage + cause)
/-- VEC_MODE (R233). -/
def rVecMode (k : Nat) : Nat := 0x20A000 + 0x100000 * k
/-- VEC_STATUS (R233). -/
def rVecStatus (k : Nat) : Nat := 0x20A008 + 0x100000 * k
/-- VEC_TQ_HIGH (R233). -/
def rVecTqHigh (k : Nat) : Nat := 0x20A010 + 0x100000 * k
/-- VEC_BUSY_CYCLES (R233). -/
def rVecBusyCycles (k : Nat) : Nat := 0x20A018 + 0x100000 * k
/-- VEC_PASSES (R233). -/
def rVecPasses (k : Nat) : Nat := 0x20A020 + 0x100000 * k
/-- VEC_INT_SAT (R233). -/
def rVecIntSat (k : Nat) : Nat := 0x20A028 + 0x100000 * k
/-- VEC_SEL_BLOCKS (R233). -/
def rVecSelBlocks (k : Nat) : Nat := 0x20A030 + 0x100000 * k
/-- UPD_POLICY (R271). -/
def rUpdPolicy (k : Nat) : Nat := 0x208000 + 0x100000 * k
/-- UPD_SKEW_INFO (R271). -/
def rUpdSkewInfo (k : Nat) : Nat := 0x208008 + 0x100000 * k
/-- UPD_SKEW_LOCAL (R271). -/
def rUpdSkewLocal (k : Nat) : Nat := 0x208010 + 0x100000 * k
/-- UPD_SKEW_DESC (R271). -/
def rUpdSkewDesc (k : Nat) : Nat := 0x208018 + 0x100000 * k
/-- UPD_FROZEN_DROP (R271). -/
def rUpdFrozenDrop (k : Nat) : Nat := 0x208020 + 0x100000 * k
/-- UPD_NONFINITE (R271). -/
def rUpdNonfinite (k : Nat) : Nat := 0x208028 + 0x100000 * k
/-- UPD_ROW_SAT (R271). -/
def rUpdRowSat (k : Nat) : Nat := 0x208030 + 0x100000 * k
/-- UPD_FREEZE_ADDR (R271). -/
def rUpdFreezeAddr (k : Nat) : Nat := 0x208040 + 0x100000 * k
/-- UPD_FREEZE_DATA (R271). -/
def rUpdFreezeData (k : Nat) : Nat := 0x208048 + 0x100000 * k
/-- UPD_SHARD_STEP (R271). -/
def rUpdShardStep (k i : Nat) : Nat := 0x208800 + 0x100000 * k + 8 * i
/-- SCH_CTRL (R271). -/
def rSchCtrl (k set : Nat) : Nat := 0x209000 + 0x100000 * k + 0x100 * set
/-- SCH_LR (R271). -/
def rSchLr (k set : Nat) : Nat := 0x209008 + 0x100000 * k + 0x100 * set
/-- SCH_LR_START (R271). -/
def rSchLrStart (k set : Nat) : Nat := 0x209010 + 0x100000 * k + 0x100 * set
/-- SCH_PERIOD (R271). -/
def rSchPeriod (k set : Nat) : Nat := 0x209018 + 0x100000 * k + 0x100 * set
/-- SCH_BETA (R271). -/
def rSchBeta (k set : Nat) : Nat := 0x209020 + 0x100000 * k + 0x100 * set
/-- SCH_EPS (R271). -/
def rSchEps (k set : Nat) : Nat := 0x209028 + 0x100000 * k + 0x100 * set
/-- SCH_T0 (R271). -/
def rSchT0 (k set : Nat) : Nat := 0x209030 + 0x100000 * k + 0x100 * set
/-- SCH_MILESTONE (R271). -/
def rSchMilestone (k set i : Nat) : Nat := 0x209040 + 0x100000 * k + 0x100 * set + 8 * i
/-- SCH_OUT_STEP (R271). -/
def rSchOutStep (k set : Nat) : Nat := 0x209080 + 0x100000 * k + 0x100 * set
/-- SCH_OUT_LR (R271). -/
def rSchOutLr (k set : Nat) : Nat := 0x209088 + 0x100000 * k + 0x100 * set
/-- SCH_OUT_BC (R271). -/
def rSchOutBc (k set : Nat) : Nat := 0x209090 + 0x100000 * k + 0x100 * set
/-- SCH_OUT_C (R271). -/
def rSchOutC (k set : Nat) : Nat := 0x209098 + 0x100000 * k + 0x100 * set
/-- SCH_OUT_LNB2 (R271). -/
def rSchOutLnb2 (k set : Nat) : Nat := 0x2090A0 + 0x100000 * k + 0x100 * set
/-- VEC_THIN_BAND (R313). -/
def rVecThinBand (k : Nat) : Nat := 0x20B000 + 0x100000 * k
/-- VEC_THIN_BUDGET (R313). -/
def rVecThinBudget (k : Nat) : Nat := 0x20B008 + 0x100000 * k
/-- VEC_THIN_COMMIT (R313). -/
def rVecThinCommit (k : Nat) : Nat := 0x20B010 + 0x100000 * k
/-- VEC_THIN_UP (R313). -/
def rVecThinUp (k : Nat) : Nat := 0x20B018 + 0x100000 * k
/-- VEC_THIN_DOWN (R313). -/
def rVecThinDown (k : Nat) : Nat := 0x20B020 + 0x100000 * k
/-- VEC_THIN_HOLD (R313). -/
def rVecThinHold (k : Nat) : Nat := 0x20B028 + 0x100000 * k
/-- VEC_BFP_SAT (R313). -/
def rVecBfpSat (k : Nat) : Nat := 0x20B030 + 0x100000 * k
/-- VEC_GRAD_NONFINITE (R313). -/
def rVecGradNonfinite (k : Nat) : Nat := 0x20B038 + 0x100000 * k
/-- VEC_THIN_SEG (R313). -/
def rVecThinSeg (k i : Nat) : Nat := 0x20B100 + 0x100000 * k + 8 * i
/-- MEM_ADD_BLOCKS (R313). -/
def rMemAddBlocks (st : Nat) : Nat := 0x87E000 + 0x80000 * st
/-- MEM_ADD_SAT (R313). -/
def rMemAddSat (st : Nat) : Nat := 0x87E008 + 0x80000 * st
/-- MEM_EMB_DROP (R313). -/
def rMemEmbDrop (st : Nat) : Nat := 0x87E010 + 0x80000 * st
/-- SEQ_ANCHOR (R349). -/
def rSeqAnchor (k : Nat) : Nat := 0x207000 + 0x100000 * k
/-- SEQ_LAG (R349). -/
def rSeqLag (k : Nat) : Nat := 0x207008 + 0x100000 * k
/-- SEQ_HOLD (R349). -/
def rSeqHold (k : Nat) : Nat := 0x207010 + 0x100000 * k
/-- SEQ_HOLD_LIMIT (R349). -/
def rSeqHoldLimit (k : Nat) : Nat := 0x207018 + 0x100000 * k
/-- SEQ_RV_SEL (R349). -/
def rSeqRvSel (k : Nat) : Nat := 0x207020 + 0x100000 * k
/-- SEQ_RV_SHIFT (R349). -/
def rSeqRvShift (k : Nat) : Nat := 0x207028 + 0x100000 * k
/-- SEQ_LULL (R349). -/
def rSeqLull (k i : Nat) : Nat := 0x207100 + 0x100000 * k + 8 * i
/-- CLK_BEAT (R349). -/
def rClkBeat : Nat := 0xF80000
/-- CLK_PHASE (R349). -/
def rClkPhase : Nat := 0xF80008
/-- SEQ_LT_VERSION (R380). -/
def rSeqLtVersion (k : Nat) : Nat := 0x206000 + 0x100000 * k
/-- SEQ_CTX_STATUS (R380). -/
def rSeqCtxStatus (k : Nat) : Nat := 0x206008 + 0x100000 * k
/-- SEQ_FAULT_CYCLE (R380). -/
def rSeqFaultCycle (k : Nat) : Nat := 0x206010 + 0x100000 * k
/-- SEM_VALUE (R420). -/
def rSemValue (k i : Nat) : Nat := 0x204000 + 0x100000 * k + 8 * i
/-- SEM_FAULT (R420). -/
def rSemFault (k : Nat) : Nat := 0x205000 + 0x100000 * k
/-- SEM_MAP (R420). -/
def rSemMap (k c i : Nat) : Nat := 0x210000 + 0x100000 * k + 8 * (256 * c + i)
/-- BAR_CFG (R420). -/
def rBarCfg (i : Nat) : Nat := 0x780000 + 64 * i
/-- BAR_STATE (R420). -/
def rBarState (i : Nat) : Nat := 0x780008 + 64 * i
/-- BAR_HOLDS (R420). -/
def rBarHolds (i : Nat) : Nat := 0x780010 + 64 * i
/-- STRA_SCHED_BYTES (R420). -/
def rStraSchedBytes : Nat := 0x700000
/-- STRA_SHARED_BYTES (R420). -/
def rStraSharedBytes : Nat := 0x700008
/-- STRA_COMBINED (R420). -/
def rStraCombined : Nat := 0x700010
/-- STRA_COMBINE_SKIP (R420). -/
def rStraCombineSkip : Nat := 0x700018
/-- STRA_MCAST_WAIT (R420). -/
def rStraMcastWait : Nat := 0x700020
/-- CIR_EVENT_OVF (R420). -/
def rCirEventOvf : Nat := 0x740000
/-- CIR_BAD (R420). -/
def rCirBad : Nat := 0x740008
/-- LNK_CTRL (R472). -/
def rLnkCtrl (p : Nat) : Nat := 0xC00000 + 0x80000 * p
/-- LNK_STATUS (R472). -/
def rLnkStatus (p : Nat) : Nat := 0xC00008 + 0x80000 * p
/-- LNK_RTT (R472). -/
def rLnkRtt (p : Nat) : Nat := 0xC00010 + 0x80000 * p
/-- LNK_ADMIT_CAP (R472). -/
def rLnkAdmitCap (p : Nat) : Nat := 0xC00018 + 0x80000 * p
/-- LNK_LEGACY_DEADLINE (R472). -/
def rLnkLegacyDeadline (p : Nat) : Nat := 0xC00020 + 0x80000 * p
/-- LNK_KEYSET (R472). -/
def rLnkKeyset (p : Nat) : Nat := 0xC00028 + 0x80000 * p
/-- LNK_TX_FLITS (R472). -/
def rLnkTxFlits (p i : Nat) : Nat := 0xC00100 + 0x80000 * p + 8 * i
/-- LNK_RX_FLITS (R472). -/
def rLnkRxFlits (p i : Nat) : Nat := 0xC00120 + 0x80000 * p + 8 * i
/-- LNK_FEC_CORR (R472). -/
def rLnkFecCorr (p : Nat) : Nat := 0xC00200 + 0x80000 * p
/-- LNK_FEC_UNCORR (R472). -/
def rLnkFecUncorr (p : Nat) : Nat := 0xC00208 + 0x80000 * p
/-- LNK_RETRY (R472). -/
def rLnkRetry (p : Nat) : Nat := 0xC00210 + 0x80000 * p
/-- LNK_NOT_ADMITTED (R472). -/
def rLnkNotAdmitted (p : Nat) : Nat := 0xC00218 + 0x80000 * p
/-- LNK_DEADLINE_MISS (R472). -/
def rLnkDeadlineMiss (p : Nat) : Nat := 0xC00220 + 0x80000 * p
/-- LNK_CATCHUP (R472). -/
def rLnkCatchup (p : Nat) : Nat := 0xC00228 + 0x80000 * p
/-- LNK_MCAST_LAGGARD (R472). -/
def rLnkMcastLaggard (p : Nat) : Nat := 0xC00230 + 0x80000 * p
/-- LNK_GCM_FAIL (R472). -/
def rLnkGcmFail (p : Nat) : Nat := 0xC00238 + 0x80000 * p
/-- LNK_TRANSIT_DROP (R472). -/
def rLnkTransitDrop (p : Nat) : Nat := 0xC00240 + 0x80000 * p
/-- MEM_STATUS (R510). -/
def rMemStatus (st : Nat) : Nat := 0x800000 + 0x80000 * st
/-- MEM_ERR_INFO (R510). -/
def rMemErrInfo (st : Nat) : Nat := 0x800008 + 0x80000 * st
/-- MEM_ERR_ADDR (R510). -/
def rMemErrAddr (st : Nat) : Nat := 0x800010 + 0x80000 * st
/-- MEM_REMAP (R510). -/
def rMemRemap (st i : Nat) : Nat := 0x800100 + 0x80000 * st + 8 * i
/-- MEM_PATROL (R510). -/
def rMemPatrol (st : Nat) : Nat := 0x800200 + 0x80000 * st
/-- MEM_TEST_CTRL (R510). -/
def rMemTestCtrl (st : Nat) : Nat := 0x800300 + 0x80000 * st
/-- MEM_TEST_CRC (R510). -/
def rMemTestCrc (st : Nat) : Nat := 0x800308 + 0x80000 * st
/-- MEM_TEST_RESULT (R510). -/
def rMemTestResult (st : Nat) : Nat := 0x800310 + 0x80000 * st
/-- MEM_MAINT (R510). -/
def rMemMaint (st : Nat) : Nat := 0x800400 + 0x80000 * st
/-- MEM_CRC_FAIL (R510). -/
def rMemCrcFail (st : Nat) : Nat := 0x87E018 + 0x80000 * st
/-- MEM_RETRY_OK (R510). -/
def rMemRetryOk (st : Nat) : Nat := 0x87E020 + 0x80000 * st
/-- MEM_RECOVERED (R510). -/
def rMemRecovered (st : Nat) : Nat := 0x87E028 + 0x80000 * st
/-- MEM_UNCORR (R510). -/
def rMemUncorr (st : Nat) : Nat := 0x87E030 + 0x80000 * st
/-- MEM_WB_DROP (R510). -/
def rMemWbDrop (st : Nat) : Nat := 0x87E038 + 0x80000 * st
/-- MEM_PATROL_SWEEPS (R510). -/
def rMemPatrolSweeps (st : Nat) : Nat := 0x87E040 + 0x80000 * st
/-- MEM_SRAM_PARITY (R510). -/
def rMemSramParity (k : Nat) : Nat := 0x20D000 + 0x100000 * k
/-- ZEN_BOOT (R547). -/
def rZenBoot : Nat := 0x108000
/-- ZEN_APPROVED (R547). -/
def rZenApproved : Nat := 0x108008
/-- ZEN_ROLE (R547). -/
def rZenRole : Nat := 0x108010
/-- ZEN_LAYOUT (R547). -/
def rZenLayout : Nat := 0x108018
/-- ZEN_PART (R547). -/
def rZenPart (i : Nat) : Nat := 0x108100 + 8 * i
/-- ZEN_XTS (R547). -/
def rZenXts (i : Nat) : Nat := 0x108200 + 8 * i
/-- ZEN_FOREIGN (R547). -/
def rZenForeign (i : Nat) : Nat := 0x108300 + 8 * i
/-- ZEN_CLEAR_REFUSED (R547). -/
def rZenClearRefused (i : Nat) : Nat := 0x108310 + 8 * i
/-- PWR_STATUS (R582). -/
def rPwrStatus : Nat := 0xF00000
/-- PWR_SUPPLY (R582). -/
def rPwrSupply : Nat := 0xF00008
/-- PWR_THERMAL (R582). -/
def rPwrThermal : Nat := 0xF00010
/-- PWR_RESET_CAUSE (R582). -/
def rPwrResetCause : Nat := 0xF00018
/-- PWR_SELFTEST (R582). -/
def rPwrSelftest : Nat := 0xF00020
/-- PWR_MAP_HASH (R582). -/
def rPwrMapHash (i : Nat) : Nat := 0xF00100 + 8 * i
/-- PWR_SQUALL_COUNT (R582). -/
def rPwrSquallCount : Nat := 0xF00200
/-- PWR_SQUALL_BEATS (R582). -/
def rPwrSquallBeats : Nat := 0xF00208
/-- PWR_THROTTLE_BEATS (R582). -/
def rPwrThrottleBeats : Nat := 0xF00210
/-- PWR_SUPPLY_MIN (R582). -/
def rPwrSupplyMin : Nat := 0xF00218
/-- GLB_ID (R616). -/
def rGlbId : Nat := 0x0
/-- GLB_ABI (R616). -/
def rGlbAbi : Nat := 0x8
/-- GLB_PORT (R616). -/
def rGlbPort : Nat := 0x10
/-- HIF_BAR2_BASE (R616). -/
def rHifBar2Base : Nat := 0x1000
/-- HIF_LINK (R616). -/
def rHifLink : Nat := 0x1008
/-- HIF_BAD_ACCESS (R616). -/
def rHifBadAccess : Nat := 0x1010
/-- HIF_BAR2_REFUSED (R616). -/
def rHifBar2Refused : Nat := 0x1018
/-- HIF_CR_CTRL (R616). -/
def rHifCrCtrl (k : Nat) : Nat := 0x203000 + 0x100000 * k
/-- HIF_CR_BASE (R616). -/
def rHifCrBase (k : Nat) : Nat := 0x203008 + 0x100000 * k
/-- HIF_CR_PROD_ADDR (R616). -/
def rHifCrProdAddr (k : Nat) : Nat := 0x203010 + 0x100000 * k
/-- HIF_CR_STATUS (R616). -/
def rHifCrStatus (k : Nat) : Nat := 0x203018 + 0x100000 * k
/-- HIF_CQ_CTRL (R616). -/
def rHifCqCtrl (k : Nat) : Nat := 0x203020 + 0x100000 * k
/-- HIF_CQ_BASE (R616). -/
def rHifCqBase (k : Nat) : Nat := 0x203028 + 0x100000 * k
/-- HIF_CQ_CONS_ADDR (R616). -/
def rHifCqConsAddr (k : Nat) : Nat := 0x203030 + 0x100000 * k
/-- HIF_CQ_STATUS (R616). -/
def rHifCqStatus (k : Nat) : Nat := 0x203038 + 0x100000 * k
/-- ZEN_MB_CMD (R616). -/
def rZenMbCmd : Nat := 0x100000
/-- ZEN_MB_STATUS (R616). -/
def rZenMbStatus : Nat := 0x100008
/-- ZEN_MB_DETAIL (R616). -/
def rZenMbDetail : Nat := 0x100010
/-- ZEN_MB_DONE (R616). -/
def rZenMbDone : Nat := 0x100018
/-- DBG_STATUS (R638). -/
def rDbgStatus : Nat := 0x1800000
/-- DBG_EVQ_BASE (R638). -/
def rDbgEvqBase : Nat := 0x1800008
/-- DBG_EVQ_CONS_ADDR (R638). -/
def rDbgEvqConsAddr : Nat := 0x1800010
/-- DBG_EVQ_CTRL (R638). -/
def rDbgEvqCtrl : Nat := 0x1800018
/-- DBG_EVQ_STATUS (R638). -/
def rDbgEvqStatus : Nat := 0x1800020
/-- DBG_EVT_LOST (R638). -/
def rDbgEvtLost : Nat := 0x1800028
/-- DBG_DUMP_SEL (R638). -/
def rDbgDumpSel : Nat := 0x1800030
/-- DBG_DUMP_STATUS (R638). -/
def rDbgDumpStatus : Nat := 0x1800038
/-- DBG_TRACE_CTRL (R638). -/
def rDbgTraceCtrl : Nat := 0x1800040
/-- CLK_LOCK (R582). -/
def rClkLock : Nat := 0xF80010

/-- One row of the register table: its name, first offset, the stride and number of the block it lies in, the strides and
counts of its own copies, whether it is port-local (R588), and the masks of its RW, W1C and WO fields (R17) and of the
fields of its Structure, Status and Counter classes (R565). -/
structure RegRow where
  name : String
  base : Nat
  bStride : Nat
  bCount : Nat
  stride1 : Nat
  count1 : Nat
  stride2 : Nat
  count2 : Nat
  isLocal : Bool
  rw : Nat
  w1c : Nat
  wo : Nat
  structure_ : Nat
  status : Nat
  counter : Nat
deriving DecidableEq, Repr

/-- The registers of the CORE block (0). -/
def regsCore0 : List RegRow := [
  ⟨"STR_SR_SEED", 0x20F000, 0x100000, 4, 0, 1, 0, 1, false, 0x0, 0x0, 0x0, 0xFFFFFFFFFFFFFFFF, 0x0, 0x0⟩,
  ⟨"STR_CONV_SAT", 0x20F008, 0x100000, 4, 0, 1, 0, 1, false, 0x0, 0xFFFFFFFFFFFF, 0x0, 0x0, 0x0, 0xFFFFFFFFFFFFFFFF⟩,
  ⟨"STR_CONV_NAN", 0x20F010, 0x100000, 4, 0, 1, 0, 1, false, 0x0, 0xFFFFFFFFFFFF, 0x0, 0x0, 0x0, 0xFFFFFFFFFFFFFFFF⟩,
  ⟨"STR_CONV_PATTERN", 0x20F018, 0x100000, 4, 0, 1, 0, 1, false, 0x0, 0xFFFFFFFFFFFF, 0x0, 0x0, 0x0, 0xFFFFFFFFFFFFFFFF⟩,
  ⟨"STR_SCALE_CLAMP", 0x20F020, 0x100000, 4, 0, 1, 0, 1, false, 0x0, 0xFFFFFFFFFFFF, 0x0, 0x0, 0x0, 0xFFFFFFFFFFFFFFFF⟩,
  ⟨"STR_PS_SRC", 0x20C000, 0x100000, 4, 8, 64, 0, 1, false, 0xFFFFFFFFFF, 0x0, 0x0, 0xFFFFFFFFFFFFFFFF, 0x0, 0x0⟩,
  ⟨"STR_PS_DST", 0x20C200, 0x100000, 4, 8, 64, 0, 1, false, 0xFFFFFFFFFF, 0x0, 0x0, 0xFFFFFFFFFFFFFFFF, 0x0, 0x0⟩,
  ⟨"STR_PS_ARM", 0x20C400, 0x100000, 4, 8, 64, 0, 1, false, 0x80FFFFFFFFFFFFFF, 0x6000000000000000, 0x0, 0x9FFFFFFFFFFFFFFF, 0x6000000000000000, 0x0⟩,
  ⟨"STR_STALL", 0x20E000, 0x100000, 4, 8, 56, 0, 1, false, 0x0, 0xFFFFFFFFFFFF, 0x0, 0x0, 0x0, 0xFFFFFFFFFFFFFFFF⟩,
  ⟨"STR_STALL_REQ", 0x20E200, 0x100000, 4, 8, 56, 0, 1, false, 0x0, 0xFFFFFFFFFFFF, 0x0, 0x0, 0x0, 0xFFFFFFFFFFFFFFFF⟩,
  ⟨"VEC_MODE", 0x20A000, 0x100000, 4, 0, 1, 0, 1, false, 0x0, 0x0, 0x0, 0xFFFFFFFFFFFFFFFF, 0x0, 0x0⟩,
  ⟨"VEC_STATUS", 0x20A008, 0x100000, 4, 0, 1, 0, 1, false, 0x0, 0x0, 0x0, 0x0, 0xFFFFFFFFFFFFFFFF, 0x0⟩,
  ⟨"VEC_TQ_HIGH", 0x20A010, 0x100000, 4, 0, 1, 0, 1, false, 0x0, 0x7F, 0x0, 0x0, 0x0, 0xFFFFFFFFFFFFFFFF⟩,
  ⟨"VEC_BUSY_CYCLES", 0x20A018, 0x100000, 4, 0, 1, 0, 1, false, 0x0, 0xFFFFFFFFFFFF, 0x0, 0x0, 0x0, 0xFFFFFFFFFFFFFFFF⟩,
  ⟨"VEC_PASSES", 0x20A020, 0x100000, 4, 0, 1, 0, 1, false, 0x0, 0xFFFFFFFFFFFF, 0x0, 0x0, 0x0, 0xFFFFFFFFFFFFFFFF⟩,
  ⟨"VEC_INT_SAT", 0x20A028, 0x100000, 4, 0, 1, 0, 1, false, 0x0, 0xFFFFFFFFFFFF, 0x0, 0x0, 0x0, 0xFFFFFFFFFFFFFFFF⟩,
  ⟨"VEC_SEL_BLOCKS", 0x20A030, 0x100000, 4, 0, 1, 0, 1, false, 0x0, 0xFFFFFFFFFFFF, 0x0, 0x0, 0x0, 0xFFFFFFFFFFFFFFFF⟩,
  ⟨"UPD_POLICY", 0x208000, 0x100000, 4, 0, 1, 0, 1, false, 0xFF, 0x0, 0x0, 0xFFFFFFFFFFFFFFFF, 0x0, 0x0⟩,
  ⟨"UPD_SKEW_INFO", 0x208008, 0x100000, 4, 0, 1, 0, 1, false, 0x0, 0x8000000000000000, 0x0, 0x0, 0xFFFFFFFFFFFFFFFF, 0x0⟩,
  ⟨"UPD_SKEW_LOCAL", 0x208010, 0x100000, 4, 0, 1, 0, 1, false, 0x0, 0x0, 0x0, 0x0, 0xFFFFFFFFFFFFFFFF, 0x0⟩,
  ⟨"UPD_SKEW_DESC", 0x208018, 0x100000, 4, 0, 1, 0, 1, false, 0x0, 0x0, 0x0, 0x0, 0xFFFFFFFFFFFFFFFF, 0x0⟩,
  ⟨"UPD_FROZEN_DROP", 0x208020, 0x100000, 4, 0, 1, 0, 1, false, 0x0, 0xFFFFFFFFFFFF, 0x0, 0x0, 0x0, 0xFFFFFFFFFFFFFFFF⟩,
  ⟨"UPD_NONFINITE", 0x208028, 0x100000, 4, 0, 1, 0, 1, false, 0x0, 0xFFFFFFFFFFFF, 0x0, 0x0, 0x0, 0xFFFFFFFFFFFFFFFF⟩,
  ⟨"UPD_ROW_SAT", 0x208030, 0x100000, 4, 0, 1, 0, 1, false, 0x0, 0xFFFFFFFFFFFF, 0x0, 0x0, 0x0, 0xFFFFFFFFFFFFFFFF⟩,
  ⟨"UPD_FREEZE_ADDR", 0x208040, 0x100000, 4, 0, 1, 0, 1, false, 0x7FFF, 0x0, 0x0, 0x0, 0xFFFFFFFFFFFFFFFF, 0x0⟩,
  ⟨"UPD_FREEZE_DATA", 0x208048, 0x100000, 4, 0, 1, 0, 1, false, 0xFFFFFFFFFFFFFFFF, 0x0, 0x0, 0x0, 0x0, 0x0⟩,
  ⟨"UPD_SHARD_STEP", 0x208800, 0x100000, 4, 8, 256, 0, 1, false, 0xFFFFFFFFFFFFFFFF, 0x0, 0x0, 0xFFFFFFFFFFFFFFFF, 0x0, 0x0⟩,
  ⟨"SCH_CTRL", 0x209000, 0x100000, 4, 256, 4, 0, 1, false, 0xFFFFFFFF0000FFF3, 0x0, 0x0, 0xFFFFFFFFFFFFFFFF, 0x0, 0x0⟩,
  ⟨"SCH_LR", 0x209008, 0x100000, 4, 256, 4, 0, 1, false, 0xFFFFFFFFFFFFFFFF, 0x0, 0x0, 0xFFFFFFFFFFFFFFFF, 0x0, 0x0⟩,
  ⟨"SCH_LR_START", 0x209010, 0x100000, 4, 256, 4, 0, 1, false, 0xFFFFFFFFFFFFFFFF, 0x0, 0x0, 0xFFFFFFFFFFFFFFFF, 0x0, 0x0⟩,
  ⟨"SCH_PERIOD", 0x209018, 0x100000, 4, 256, 4, 0, 1, false, 0xFFFFFFFFFFFFFFFF, 0x0, 0x0, 0xFFFFFFFFFFFFFFFF, 0x0, 0x0⟩,
  ⟨"SCH_BETA", 0x209020, 0x100000, 4, 256, 4, 0, 1, false, 0xFFFFFFFFFFFFFFFF, 0x0, 0x0, 0xFFFFFFFFFFFFFFFF, 0x0, 0x0⟩,
  ⟨"SCH_EPS", 0x209028, 0x100000, 4, 256, 4, 0, 1, false, 0xFFFFFFFFFFFFFFFF, 0x0, 0x0, 0xFFFFFFFFFFFFFFFF, 0x0, 0x0⟩,
  ⟨"SCH_T0", 0x209030, 0x100000, 4, 256, 4, 0, 1, false, 0xFFFFFFFFFFFFFFFF, 0x0, 0x0, 0xFFFFFFFFFFFFFFFF, 0x0, 0x0⟩,
  ⟨"SCH_MILESTONE", 0x209040, 0x100000, 4, 8, 8, 256, 4, false, 0xFFFFFFFF, 0x0, 0x0, 0xFFFFFFFFFFFFFFFF, 0x0, 0x0⟩,
  ⟨"SCH_OUT_STEP", 0x209080, 0x100000, 4, 256, 4, 0, 1, false, 0x0, 0x0, 0x0, 0x0, 0xFFFFFFFFFFFFFFFF, 0x0⟩]

/-- The registers of the CORE block (1). -/
def regsCore1 : List RegRow := [
  ⟨"SCH_OUT_LR", 0x209088, 0x100000, 4, 256, 4, 0, 1, false, 0x0, 0x0, 0x0, 0x0, 0xFFFFFFFFFFFFFFFF, 0x0⟩,
  ⟨"SCH_OUT_BC", 0x209090, 0x100000, 4, 256, 4, 0, 1, false, 0x0, 0x0, 0x0, 0x0, 0xFFFFFFFFFFFFFFFF, 0x0⟩,
  ⟨"SCH_OUT_C", 0x209098, 0x100000, 4, 256, 4, 0, 1, false, 0x0, 0x0, 0x0, 0x0, 0xFFFFFFFFFFFFFFFF, 0x0⟩,
  ⟨"SCH_OUT_LNB2", 0x2090A0, 0x100000, 4, 256, 4, 0, 1, false, 0x0, 0x0, 0x0, 0x0, 0xFFFFFFFFFFFFFFFF, 0x0⟩,
  ⟨"VEC_THIN_BAND", 0x20B000, 0x100000, 4, 0, 1, 0, 1, false, 0xFFFFFFFFFFFFFFFF, 0x0, 0x0, 0xFFFFFFFFFFFFFFFF, 0x0, 0x0⟩,
  ⟨"VEC_THIN_BUDGET", 0x20B008, 0x100000, 4, 0, 1, 0, 1, false, 0xFFFFFFFFFF, 0x0, 0x0, 0xFFFFFFFFFFFFFFFF, 0x0, 0x0⟩,
  ⟨"VEC_THIN_COMMIT", 0x20B010, 0x100000, 4, 0, 1, 0, 1, false, 0x0, 0x0, 0x0, 0xFFFFFFFFFFFFFFFF, 0x0, 0x0⟩,
  ⟨"VEC_THIN_UP", 0x20B018, 0x100000, 4, 0, 1, 0, 1, false, 0x0, 0xFFFFFFFFFFFF, 0x0, 0x0, 0x0, 0xFFFFFFFFFFFFFFFF⟩,
  ⟨"VEC_THIN_DOWN", 0x20B020, 0x100000, 4, 0, 1, 0, 1, false, 0x0, 0xFFFFFFFFFFFF, 0x0, 0x0, 0x0, 0xFFFFFFFFFFFFFFFF⟩,
  ⟨"VEC_THIN_HOLD", 0x20B028, 0x100000, 4, 0, 1, 0, 1, false, 0x0, 0xFFFFFFFFFFFF, 0x0, 0x0, 0x0, 0xFFFFFFFFFFFFFFFF⟩,
  ⟨"VEC_BFP_SAT", 0x20B030, 0x100000, 4, 0, 1, 0, 1, false, 0x0, 0xFFFFFFFFFFFF, 0x0, 0x0, 0x0, 0xFFFFFFFFFFFFFFFF⟩,
  ⟨"VEC_GRAD_NONFINITE", 0x20B038, 0x100000, 4, 0, 1, 0, 1, false, 0x0, 0xFFFFFFFFFFFF, 0x0, 0x0, 0x0, 0xFFFFFFFFFFFFFFFF⟩,
  ⟨"VEC_THIN_SEG", 0x20B100, 0x100000, 4, 8, 256, 0, 1, false, 0xFF0F, 0x0, 0x0, 0xFFFF, 0xFFFFFFFFFFFF0000, 0x0⟩,
  ⟨"SEQ_ANCHOR", 0x207000, 0x100000, 4, 0, 1, 0, 1, false, 0x0, 0x0, 0x0, 0x0, 0xFFFFFFFFFFFFFFFF, 0x0⟩,
  ⟨"SEQ_LAG", 0x207008, 0x100000, 4, 0, 1, 0, 1, false, 0x0, 0x0, 0x0, 0x0, 0xFFFFFFFFFFFFFFFF, 0x0⟩,
  ⟨"SEQ_HOLD", 0x207010, 0x100000, 4, 0, 1, 0, 1, false, 0x0, 0xFFFFFFFFFFFF, 0x0, 0x0, 0xFFFF000000000000, 0xFFFFFFFFFFFF⟩,
  ⟨"SEQ_HOLD_LIMIT", 0x207018, 0x100000, 4, 0, 1, 0, 1, false, 0xFFFFFFFF, 0x0, 0x0, 0xFFFFFFFFFFFFFFFF, 0x0, 0x0⟩,
  ⟨"SEQ_RV_SEL", 0x207020, 0x100000, 4, 0, 1, 0, 1, false, 0xFF, 0x0, 0x0, 0x0, 0xFFFFFFFFFFFFFFFF, 0x0⟩,
  ⟨"SEQ_RV_SHIFT", 0x207028, 0x100000, 4, 0, 1, 0, 1, false, 0x0, 0x0, 0x0, 0x0, 0xFFFFFFFFFFFFFFFF, 0x0⟩,
  ⟨"SEQ_LULL", 0x207100, 0x100000, 4, 8, 8, 0, 1, false, 0x0, 0xFFFFFFFFFFFF, 0x0, 0x0, 0x0, 0xFFFFFFFFFFFFFFFF⟩,
  ⟨"SEQ_LT_VERSION", 0x206000, 0x100000, 4, 0, 1, 0, 1, false, 0x0, 0x0, 0x0, 0x0, 0x0, 0x0⟩,
  ⟨"SEQ_CTX_STATUS", 0x206008, 0x100000, 4, 0, 1, 0, 1, false, 0x0, 0x8000000000000000, 0x0, 0xFF03, 0xFFFFFFFFFFFF00FC, 0x0⟩,
  ⟨"SEQ_FAULT_CYCLE", 0x206010, 0x100000, 4, 0, 1, 0, 1, false, 0x0, 0x0, 0x0, 0x0, 0xFFFFFFFFFFFFFFFF, 0x0⟩,
  ⟨"SEM_VALUE", 0x204000, 0x100000, 4, 8, 512, 0, 1, false, 0x0, 0x0, 0x0, 0xFFFFFFFFFFFFFF00, 0xFF, 0x0⟩,
  ⟨"SEM_FAULT", 0x205000, 0x100000, 4, 0, 1, 0, 1, false, 0x0, 0x8000000000000000, 0x0, 0x0, 0xFFFFFFFFFFFFFFFF, 0x0⟩,
  ⟨"SEM_MAP", 0x210000, 0x100000, 4, 8, 2048, 0, 1, false, 0x0, 0x0, 0x0, 0xFFFFFFFFFFFFFFFF, 0x0, 0x0⟩,
  ⟨"MEM_SRAM_PARITY", 0x20D000, 0x100000, 4, 0, 1, 0, 1, false, 0x0, 0xFFFFFFFFFFFF, 0x0, 0x0, 0x0, 0xFFFFFFFFFFFFFFFF⟩,
  ⟨"HIF_CR_CTRL", 0x203000, 0x100000, 4, 0, 1, 0, 1, false, 0xC00000000000000F, 0x0, 0x0, 0x0, 0xFFFFFFFFFFFFFFFF, 0x0⟩,
  ⟨"HIF_CR_BASE", 0x203008, 0x100000, 4, 0, 1, 0, 1, false, 0xFFFFFFFFFFFFFFF8, 0x0, 0x0, 0x0, 0xFFFFFFFFFFFFFFFF, 0x0⟩,
  ⟨"HIF_CR_PROD_ADDR", 0x203010, 0x100000, 4, 0, 1, 0, 1, false, 0xFFFFFFFFFFFFFFF8, 0x0, 0x0, 0x0, 0xFFFFFFFFFFFFFFFF, 0x0⟩,
  ⟨"HIF_CR_STATUS", 0x203018, 0x100000, 4, 0, 1, 0, 1, false, 0x0, 0x0, 0x0, 0x0, 0xFFFFFFFFFFFFFFFF, 0x0⟩,
  ⟨"HIF_CQ_CTRL", 0x203020, 0x100000, 4, 0, 1, 0, 1, false, 0x800000000000000F, 0x0, 0x0, 0x0, 0xFFFFFFFFFFFFFFFF, 0x0⟩,
  ⟨"HIF_CQ_BASE", 0x203028, 0x100000, 4, 0, 1, 0, 1, false, 0xFFFFFFFFFFFFFFF8, 0x0, 0x0, 0x0, 0xFFFFFFFFFFFFFFFF, 0x0⟩,
  ⟨"HIF_CQ_CONS_ADDR", 0x203030, 0x100000, 4, 0, 1, 0, 1, false, 0xFFFFFFFFFFFFFFF8, 0x0, 0x0, 0x0, 0xFFFFFFFFFFFFFFFF, 0x0⟩,
  ⟨"HIF_CQ_STATUS", 0x203038, 0x100000, 4, 0, 1, 0, 1, false, 0x0, 0x800000, 0x0, 0x0, 0xFFFFFFFFFFFFFFFF, 0x0⟩]

/-- The registers of the MEM block. -/
def regsMem : List RegRow := [
  ⟨"MEM_ADD_BLOCKS", 0x87E000, 0x80000, 8, 0, 1, 0, 1, false, 0x0, 0xFFFFFFFFFFFF, 0x0, 0x0, 0x0, 0xFFFFFFFFFFFFFFFF⟩,
  ⟨"MEM_ADD_SAT", 0x87E008, 0x80000, 8, 0, 1, 0, 1, false, 0x0, 0xFFFFFFFFFFFF, 0x0, 0x0, 0x0, 0xFFFFFFFFFFFFFFFF⟩,
  ⟨"MEM_EMB_DROP", 0x87E010, 0x80000, 8, 0, 1, 0, 1, false, 0x0, 0xFFFFFFFFFFFF, 0x0, 0x0, 0x0, 0xFFFFFFFFFFFFFFFF⟩,
  ⟨"MEM_STATUS", 0x800000, 0x80000, 8, 0, 1, 0, 1, false, 0x0, 0x4000000000000000, 0x0, 0x0, 0xFFFFFFFFFFFFFFE0, 0x0⟩,
  ⟨"MEM_ERR_INFO", 0x800008, 0x80000, 8, 0, 1, 0, 1, false, 0x0, 0x8000000000000000, 0x0, 0x0, 0xFFFFFFFFFFFFFFFF, 0x0⟩,
  ⟨"MEM_ERR_ADDR", 0x800010, 0x80000, 8, 0, 1, 0, 1, false, 0x0, 0x0, 0x0, 0x0, 0xFFFFFFFFFFFFFFFF, 0x0⟩,
  ⟨"MEM_REMAP", 0x800100, 0x80000, 8, 8, 16, 0, 1, false, 0x0, 0x0, 0x0, 0x0, 0x0, 0x0⟩,
  ⟨"MEM_PATROL", 0x800200, 0x80000, 8, 0, 1, 0, 1, false, 0xFFFF00000000, 0x0, 0x0, 0x0, 0xFFFFFFFFFFFFFFFF, 0x0⟩,
  ⟨"MEM_TEST_CTRL", 0x800300, 0x80000, 8, 0, 1, 0, 1, false, 0x1FF, 0x0, 0x0, 0x0, 0xFFFFFFFFFFFFFFFF, 0x0⟩,
  ⟨"MEM_TEST_CRC", 0x800308, 0x80000, 8, 0, 1, 0, 1, false, 0xFFFFFFFF, 0x0, 0x0, 0x0, 0xFFFFFFFFFFFFFFFF, 0x0⟩,
  ⟨"MEM_TEST_RESULT", 0x800310, 0x80000, 8, 0, 1, 0, 1, false, 0x0, 0x8000000000000000, 0x0, 0x0, 0xFFFFFFFFFFFFFFFF, 0x0⟩,
  ⟨"MEM_MAINT", 0x800400, 0x80000, 8, 0, 1, 0, 1, false, 0x0, 0x0, 0x0, 0x0, 0xFFFFFFFFFFFFFFFF, 0x0⟩,
  ⟨"MEM_CRC_FAIL", 0x87E018, 0x80000, 8, 0, 1, 0, 1, false, 0x0, 0xFFFFFFFFFFFF, 0x0, 0x0, 0x0, 0xFFFFFFFFFFFFFFFF⟩,
  ⟨"MEM_RETRY_OK", 0x87E020, 0x80000, 8, 0, 1, 0, 1, false, 0x0, 0xFFFFFFFFFFFF, 0x0, 0x0, 0x0, 0xFFFFFFFFFFFFFFFF⟩,
  ⟨"MEM_RECOVERED", 0x87E028, 0x80000, 8, 0, 1, 0, 1, false, 0x0, 0xFFFFFFFFFFFF, 0x0, 0x0, 0x0, 0xFFFFFFFFFFFFFFFF⟩,
  ⟨"MEM_UNCORR", 0x87E030, 0x80000, 8, 0, 1, 0, 1, false, 0x0, 0xFFFFFFFFFFFF, 0x0, 0x0, 0x0, 0xFFFFFFFFFFFFFFFF⟩,
  ⟨"MEM_WB_DROP", 0x87E038, 0x80000, 8, 0, 1, 0, 1, false, 0x0, 0xFFFFFFFFFFFF, 0x0, 0x0, 0x0, 0xFFFFFFFFFFFFFFFF⟩,
  ⟨"MEM_PATROL_SWEEPS", 0x87E040, 0x80000, 8, 0, 1, 0, 1, false, 0x0, 0xFFFFFFFFFFFF, 0x0, 0x0, 0x0, 0xFFFFFFFFFFFFFFFF⟩]

/-- The registers of the LNK block. -/
def regsLnk : List RegRow := [
  ⟨"LNK_CTRL", 0xC00000, 0x80000, 6, 0, 1, 0, 1, false, 0x1, 0x0, 0x2, 0x0, 0x0, 0x0⟩,
  ⟨"LNK_STATUS", 0xC00008, 0x80000, 6, 0, 1, 0, 1, false, 0x0, 0x0, 0x0, 0x0, 0x0, 0x0⟩,
  ⟨"LNK_RTT", 0xC00010, 0x80000, 6, 0, 1, 0, 1, false, 0x0, 0x0, 0x0, 0x0, 0x0, 0x0⟩,
  ⟨"LNK_ADMIT_CAP", 0xC00018, 0x80000, 6, 0, 1, 0, 1, false, 0x7FF, 0x0, 0x0, 0x0, 0x0, 0x0⟩,
  ⟨"LNK_LEGACY_DEADLINE", 0xC00020, 0x80000, 6, 0, 1, 0, 1, false, 0xFFFF, 0x0, 0x0, 0x0, 0x0, 0x0⟩,
  ⟨"LNK_KEYSET", 0xC00028, 0x80000, 6, 0, 1, 0, 1, false, 0x0, 0x0, 0x0, 0x0, 0x0, 0x0⟩,
  ⟨"LNK_TX_FLITS", 0xC00100, 0x80000, 6, 8, 4, 0, 1, false, 0x0, 0xFFFFFFFFFFFF, 0x0, 0x0, 0x0, 0xFFFFFFFFFFFFFFFF⟩,
  ⟨"LNK_RX_FLITS", 0xC00120, 0x80000, 6, 8, 4, 0, 1, false, 0x0, 0xFFFFFFFFFFFF, 0x0, 0x0, 0x0, 0xFFFFFFFFFFFFFFFF⟩,
  ⟨"LNK_FEC_CORR", 0xC00200, 0x80000, 6, 0, 1, 0, 1, false, 0x0, 0xFFFFFFFFFFFF, 0x0, 0x0, 0x0, 0xFFFFFFFFFFFFFFFF⟩,
  ⟨"LNK_FEC_UNCORR", 0xC00208, 0x80000, 6, 0, 1, 0, 1, false, 0x0, 0xFFFFFFFFFFFF, 0x0, 0x0, 0x0, 0xFFFFFFFFFFFFFFFF⟩,
  ⟨"LNK_RETRY", 0xC00210, 0x80000, 6, 0, 1, 0, 1, false, 0x0, 0xFFFFFFFFFFFF, 0x0, 0x0, 0x0, 0xFFFFFFFFFFFFFFFF⟩,
  ⟨"LNK_NOT_ADMITTED", 0xC00218, 0x80000, 6, 0, 1, 0, 1, false, 0x0, 0xFFFFFFFFFFFF, 0x0, 0x0, 0x0, 0xFFFFFFFFFFFFFFFF⟩,
  ⟨"LNK_DEADLINE_MISS", 0xC00220, 0x80000, 6, 0, 1, 0, 1, false, 0x0, 0xFFFFFFFFFFFF, 0x0, 0x0, 0x0, 0xFFFFFFFFFFFFFFFF⟩,
  ⟨"LNK_CATCHUP", 0xC00228, 0x80000, 6, 0, 1, 0, 1, false, 0x0, 0xFFFFFFFFFFFF, 0x0, 0x0, 0x0, 0xFFFFFFFFFFFFFFFF⟩,
  ⟨"LNK_MCAST_LAGGARD", 0xC00230, 0x80000, 6, 0, 1, 0, 1, false, 0x0, 0xFFFFFFFFFFFF, 0x0, 0x0, 0x0, 0xFFFFFFFFFFFFFFFF⟩,
  ⟨"LNK_GCM_FAIL", 0xC00238, 0x80000, 6, 0, 1, 0, 1, false, 0x0, 0xFFFFFFFFFFFF, 0x0, 0x0, 0x0, 0xFFFFFFFFFFFFFFFF⟩,
  ⟨"LNK_TRANSIT_DROP", 0xC00240, 0x80000, 6, 0, 1, 0, 1, false, 0x0, 0xFFFFFFFFFFFF, 0x0, 0x0, 0x0, 0xFFFFFFFFFFFFFFFF⟩]

/-- The registers of the HALO block. -/
def regsHalo : List RegRow := [
  ⟨"HALO_FUSE", 0x600000, 0x0, 1, 0, 1, 0, 1, false, 0x0, 0x0, 0x0, 0x0, 0x0, 0x0⟩,
  ⟨"HALO_LAYOUT", 0x600008, 0x0, 1, 0, 1, 0, 1, false, 0x0, 0x0, 0x0, 0x0, 0x0, 0x0⟩,
  ⟨"HALO_SEGMENT", 0x600010, 0x0, 1, 0, 1, 0, 1, false, 0x0, 0x0, 0x0, 0xFFFFFFFFFFFFFFFF, 0x0, 0x0⟩,
  ⟨"HALO_FUSION", 0x600018, 0x0, 1, 0, 1, 0, 1, false, 0x0, 0x0, 0x0, 0xFFFFFFFFFFFFFFFF, 0x0, 0x0⟩,
  ⟨"HALO_FAULT", 0x600040, 0x0, 1, 0, 1, 0, 1, false, 0x0, 0x8000000000000000, 0x0, 0x0, 0xFFFFFFFFFFFFFFFF, 0x0⟩,
  ⟨"HALO_FAULT_CYCLE", 0x600048, 0x0, 1, 0, 1, 0, 1, false, 0x0, 0x0, 0x0, 0x0, 0xFFFFFFFFFFFFFFFF, 0x0⟩,
  ⟨"HALO_ARRAY_SAT", 0x600100, 0x0, 1, 8, 16, 0, 1, false, 0x0, 0xFFFFFFFFFFFF, 0x0, 0x0, 0x0, 0xFFFFFFFFFFFFFFFF⟩,
  ⟨"HALO_RESEND", 0x600200, 0x0, 1, 8, 16, 0, 1, false, 0x0, 0xFFFFFFFFFFFF, 0x0, 0x0, 0x0, 0xFFFFFFFFFFFFFFFF⟩,
  ⟨"HALO_REINJECT", 0x600300, 0x0, 1, 0, 1, 0, 1, false, 0x0, 0xFFFFFFFFFFFF, 0x0, 0x0, 0x0, 0xFFFFFFFFFFFFFFFF⟩]

/-- The registers of the STRA block. -/
def regsStra : List RegRow := [
  ⟨"STRA_SCHED_BYTES", 0x700000, 0x0, 1, 0, 1, 0, 1, false, 0x0, 0xFFFFFFFFFFFF, 0x0, 0x0, 0x0, 0xFFFFFFFFFFFFFFFF⟩,
  ⟨"STRA_SHARED_BYTES", 0x700008, 0x0, 1, 0, 1, 0, 1, false, 0x0, 0xFFFFFFFFFFFF, 0x0, 0x0, 0x0, 0xFFFFFFFFFFFFFFFF⟩,
  ⟨"STRA_COMBINED", 0x700010, 0x0, 1, 0, 1, 0, 1, false, 0x0, 0xFFFFFFFFFFFF, 0x0, 0x0, 0x0, 0xFFFFFFFFFFFFFFFF⟩,
  ⟨"STRA_COMBINE_SKIP", 0x700018, 0x0, 1, 0, 1, 0, 1, false, 0x0, 0xFFFFFFFFFFFF, 0x0, 0x0, 0x0, 0xFFFFFFFFFFFFFFFF⟩,
  ⟨"STRA_MCAST_WAIT", 0x700020, 0x0, 1, 0, 1, 0, 1, false, 0x0, 0xFFFFFFFFFFFF, 0x0, 0x0, 0x0, 0xFFFFFFFFFFFFFFFF⟩]

/-- The registers of the CIR block. -/
def regsCir : List RegRow := [
  ⟨"CIR_EVENT_OVF", 0x740000, 0x0, 1, 0, 1, 0, 1, false, 0x0, 0xFFFFFFFFFFFF, 0x0, 0x0, 0x0, 0xFFFFFFFFFFFFFFFF⟩,
  ⟨"CIR_BAD", 0x740008, 0x0, 1, 0, 1, 0, 1, false, 0x0, 0xFFFFFFFFFFFF, 0x0, 0x0, 0x0, 0xFFFFFFFFFFFFFFFF⟩]

/-- The registers of the BAR block. -/
def regsBar : List RegRow := [
  ⟨"BAR_CFG", 0x780000, 0x0, 1, 64, 64, 0, 1, false, 0x0, 0x0, 0x0, 0xFFFFFFFFFFFFFFFF, 0x0, 0x0⟩,
  ⟨"BAR_STATE", 0x780008, 0x0, 1, 64, 64, 0, 1, false, 0x0, 0x0, 0x0, 0x0, 0xFFFFFFFFFFFFFFFF, 0x0⟩,
  ⟨"BAR_HOLDS", 0x780010, 0x0, 1, 64, 64, 0, 1, false, 0x0, 0xFFFFFFFFFFFF, 0x0, 0x0, 0x0, 0xFFFFFFFFFFFFFFFF⟩]

/-- The registers of the PWR block. -/
def regsPwr : List RegRow := [
  ⟨"PWR_STATUS", 0xF00000, 0x0, 1, 0, 1, 0, 1, false, 0x0, 0x0, 0x0, 0x0, 0xFFFFFFFFFFFFFFFF, 0x0⟩,
  ⟨"PWR_SUPPLY", 0xF00008, 0x0, 1, 0, 1, 0, 1, false, 0x0, 0x0, 0x0, 0x0, 0xFFFFFFFFFFFFFFFF, 0x0⟩,
  ⟨"PWR_THERMAL", 0xF00010, 0x0, 1, 0, 1, 0, 1, false, 0x0, 0x0, 0x0, 0x0, 0xFFFFFFFFFFFFFFFF, 0x0⟩,
  ⟨"PWR_RESET_CAUSE", 0xF00018, 0x0, 1, 0, 1, 0, 1, false, 0x0, 0x0, 0x0, 0x0, 0x0, 0x0⟩,
  ⟨"PWR_SELFTEST", 0xF00020, 0x0, 1, 0, 1, 0, 1, false, 0x0, 0x0, 0x0, 0x0, 0xFFFFFFFFFFFFFFFF, 0x0⟩,
  ⟨"PWR_MAP_HASH", 0xF00100, 0x0, 1, 8, 8, 0, 1, false, 0x0, 0x0, 0x0, 0x0, 0xFFFFFFFFFFFFFFFF, 0x0⟩,
  ⟨"PWR_SQUALL_COUNT", 0xF00200, 0x0, 1, 0, 1, 0, 1, false, 0x0, 0xFFFFFFFFFFFF, 0x0, 0x0, 0x0, 0xFFFFFFFFFFFFFFFF⟩,
  ⟨"PWR_SQUALL_BEATS", 0xF00208, 0x0, 1, 0, 1, 0, 1, false, 0x0, 0xFFFFFFFFFFFF, 0x0, 0x0, 0x0, 0xFFFFFFFFFFFFFFFF⟩,
  ⟨"PWR_THROTTLE_BEATS", 0xF00210, 0x0, 1, 0, 1, 0, 1, false, 0x0, 0xFFFFFFFFFFFF, 0x0, 0x0, 0x0, 0xFFFFFFFFFFFFFFFF⟩,
  ⟨"PWR_SUPPLY_MIN", 0xF00218, 0x0, 1, 0, 1, 0, 1, false, 0xFFFF, 0x0, 0x0, 0x0, 0x0, 0xFFFFFFFFFFFFFFFF⟩]

/-- The registers of the CLK block. -/
def regsClk : List RegRow := [
  ⟨"CLK_BEAT", 0xF80000, 0x0, 1, 0, 1, 0, 1, false, 0x0, 0x0, 0x0, 0x0, 0x0, 0x0⟩,
  ⟨"CLK_PHASE", 0xF80008, 0x0, 1, 0, 1, 0, 1, false, 0x0, 0x4000000003FFFC00, 0x0, 0x0, 0x0, 0x0⟩,
  ⟨"CLK_LOCK", 0xF80010, 0x0, 1, 0, 1, 0, 1, false, 0x0, 0x0, 0x0, 0x0, 0xFFFFFFFFFFFFFFFF, 0x0⟩]

/-- The registers of the ZEN block. -/
def regsZen : List RegRow := [
  ⟨"ZEN_BOOT", 0x108000, 0x0, 1, 0, 1, 0, 1, false, 0x0, 0x0, 0x0, 0x0, 0x0, 0x0⟩,
  ⟨"ZEN_APPROVED", 0x108008, 0x0, 1, 0, 1, 0, 1, false, 0x0, 0x0, 0x0, 0x0, 0x0, 0x0⟩,
  ⟨"ZEN_ROLE", 0x108010, 0x0, 1, 0, 1, 0, 1, false, 0x0, 0x0, 0x0, 0x0, 0xFFFFFFFFFFFFFFFF, 0x0⟩,
  ⟨"ZEN_LAYOUT", 0x108018, 0x0, 1, 0, 1, 0, 1, false, 0x0, 0x0, 0x0, 0x0, 0x0, 0x0⟩,
  ⟨"ZEN_PART", 0x108100, 0x0, 1, 8, 4, 0, 1, false, 0x0, 0x0, 0x0, 0x0, 0xE00000000000000, 0x0⟩,
  ⟨"ZEN_XTS", 0x108200, 0x0, 1, 8, 4, 0, 1, false, 0x0, 0x0, 0x0, 0x0, 0xFFFFFFFFFFFFFFFF, 0x0⟩,
  ⟨"ZEN_FOREIGN", 0x108300, 0x0, 1, 8, 2, 0, 1, false, 0x0, 0xFFFFFFFFFFFF, 0x0, 0x0, 0x0, 0xFFFFFFFFFFFFFFFF⟩,
  ⟨"ZEN_CLEAR_REFUSED", 0x108310, 0x0, 1, 8, 2, 0, 1, false, 0x0, 0xFFFFFFFFFFFF, 0x0, 0x0, 0x0, 0xFFFFFFFFFFFFFFFF⟩,
  ⟨"ZEN_MB_CMD", 0x100000, 0x0, 1, 0, 1, 0, 1, true, 0x80000000FFFF00FF, 0x0, 0x0, 0x0, 0xFFFFFFFFFFFFFFFF, 0x0⟩,
  ⟨"ZEN_MB_STATUS", 0x100008, 0x0, 1, 0, 1, 0, 1, true, 0x0, 0x6000000000000000, 0x0, 0x0, 0xFFFFFFFFFFFFFFFF, 0x0⟩,
  ⟨"ZEN_MB_DETAIL", 0x100010, 0x0, 1, 0, 1, 0, 1, true, 0x0, 0x0, 0x0, 0x0, 0xFFFFFFFFFFFFFFFF, 0x0⟩,
  ⟨"ZEN_MB_DONE", 0x100018, 0x0, 1, 0, 1, 0, 1, true, 0x0, 0x0, 0x0, 0x0, 0xFFFFFFFFFFFFFFFF, 0x0⟩]

/-- The registers of the GLB block. -/
def regsGlb : List RegRow := [
  ⟨"GLB_ID", 0x0, 0x0, 1, 0, 1, 0, 1, false, 0x0, 0x0, 0x0, 0x0, 0x0, 0x0⟩,
  ⟨"GLB_ABI", 0x8, 0x0, 1, 0, 1, 0, 1, true, 0xFF0000, 0x0, 0x0, 0x0, 0xFFFF0000FFFFFFFF, 0x0⟩,
  ⟨"GLB_PORT", 0x10, 0x0, 1, 0, 1, 0, 1, true, 0x0, 0x0, 0x0, 0x0, 0x0, 0x0⟩]

/-- The registers of the HIF block. -/
def regsHif : List RegRow := [
  ⟨"HIF_BAR2_BASE", 0x1000, 0x0, 1, 0, 1, 0, 1, true, 0xFFFFFFFFFFFFFFF8, 0x0, 0x0, 0x0, 0xFFFFFFFFFFFFFFFF, 0x0⟩,
  ⟨"HIF_LINK", 0x1008, 0x0, 1, 0, 1, 0, 1, true, 0x0, 0x0, 0x0, 0x0, 0xFFFFFFFFFFFFFFFF, 0x0⟩,
  ⟨"HIF_BAD_ACCESS", 0x1010, 0x0, 1, 0, 1, 0, 1, true, 0x0, 0xFFFFFFFFFFFF, 0x0, 0x0, 0x0, 0xFFFFFFFFFFFFFFFF⟩,
  ⟨"HIF_BAR2_REFUSED", 0x1018, 0x0, 1, 0, 1, 0, 1, true, 0x0, 0xFFFFFFFFFFFF, 0x0, 0x0, 0x0, 0xFFFFFFFFFFFFFFFF⟩]

/-- The registers of the DBG block. -/
def regsDbg : List RegRow := [
  ⟨"DBG_STATUS", 0x1800000, 0x0, 1, 0, 1, 0, 1, false, 0x0, 0x0, 0x0, 0x0, 0x3FFFFFFFFFFFFFFF, 0x0⟩,
  ⟨"DBG_EVQ_BASE", 0x1800008, 0x0, 1, 0, 1, 0, 1, true, 0xFFFFFFFFFFFFFFE0, 0x0, 0x0, 0x0, 0xFFFFFFFFFFFFFFFF, 0x0⟩,
  ⟨"DBG_EVQ_CONS_ADDR", 0x1800010, 0x0, 1, 0, 1, 0, 1, true, 0xFFFFFFFFFFFFFFE0, 0x0, 0x0, 0x0, 0xFFFFFFFFFFFFFFFF, 0x0⟩,
  ⟨"DBG_EVQ_CTRL", 0x1800018, 0x0, 1, 0, 1, 0, 1, true, 0x800000000000001F, 0x0, 0x0, 0x0, 0xFFFFFFFFFFFFFFFF, 0x0⟩,
  ⟨"DBG_EVQ_STATUS", 0x1800020, 0x0, 1, 0, 1, 0, 1, true, 0x0, 0x0, 0x0, 0x0, 0xFFFFFFFFFFFFFFFF, 0x0⟩,
  ⟨"DBG_EVT_LOST", 0x1800028, 0x0, 1, 0, 1, 0, 1, true, 0x0, 0xFFFFFFFFFFFF, 0x0, 0x0, 0x0, 0xFFFFFFFFFFFFFFFF⟩,
  ⟨"DBG_DUMP_SEL", 0x1800030, 0x0, 1, 0, 1, 0, 1, true, 0xF, 0x0, 0x8000000000000000, 0x0, 0xFFFFFFFFFFFFFFFF, 0x0⟩,
  ⟨"DBG_DUMP_STATUS", 0x1800038, 0x0, 1, 0, 1, 0, 1, true, 0x0, 0x2000000000000000, 0x0, 0x0, 0xFFFFFFFFFFFFFFFF, 0x0⟩,
  ⟨"DBG_TRACE_CTRL", 0x1800040, 0x0, 1, 0, 1, 0, 1, false, 0xC0000000000000C7, 0x0, 0x0, 0x0, 0xFFFFFFFFFFFFFFFF, 0x0⟩]

/-- Every register of the manual. -/
def regTable : List RegRow :=
  regsCore0 ++ regsCore1 ++ regsMem ++ regsLnk ++ regsHalo ++ regsStra ++ regsCir ++ regsBar ++ regsPwr ++ regsClk ++ regsZen ++ regsGlb ++ regsHif ++ regsDbg

end Sys2Proof.Machine
end

