-- ==== Sys2Proof/Machine/Ops.lean ====
section
/-! DEFINITION. The named operations over the state: collections and memories, registers and their fields, partitions and
time, timed effects, events, faults, Lull requests, completion records and messages to the hosts. -/
namespace Sys2Proof.Machine

/-- What every command answers. -/
abbrev Out := Host.Outcome State Fault Refusal

/-- The entry of number `k`, or the default. -/
def SMap.get {α : Type} [Inhabited α] : SMap α → Nat → α
  | [], _ => default
  | (j, v) :: r, k => if j = k then v else SMap.get r k

/-- A collection with no entry of number `k`. -/
def SMap.erase {α : Type} (m : SMap α) (k : Nat) : SMap α := m.filter fun p => p.1 != k

/-- A collection with an entry put at its place. -/
def SMap.put {α : Type} : SMap α → Nat → α → SMap α
  | [], k, v => [(k, v)]
  | (j, w) :: r, k, v => if k < j then (k, v) :: (j, w) :: r else (j, w) :: SMap.put r k v

/-- The collection with entry `k` set; the default is not listed. -/
def SMap.set {α : Type} [Inhabited α] [DecidableEq α] (m : SMap α) (k : Nat) (v : α) : SMap α :=
  if v = default then SMap.erase m k else SMap.put (SMap.erase m k) k v

/-- The collection with entry `k` changed by `f`. -/
def SMap.mod {α : Type} [Inhabited α] [DecidableEq α] (m : SMap α) (k : Nat) (f : α → α) : SMap α :=
  SMap.set m k (f (SMap.get m k))

/-- A collection with every entry changed by `f`; the default is not listed. -/
def SMap.mapVals {α : Type} [Inhabited α] [DecidableEq α] (f : α → α) (m : SMap α) : SMap α :=
  (m.map fun e => (e.1, f e.2)).filter fun e => decide (e.2 ≠ default)

/-- The canonical form: numbers strictly rising and no entry equal to the default. -/
def SMap.wf {α : Type} [Inhabited α] [DecidableEq α] : SMap α → Bool
  | [] => true
  | [(_, v)] => decide (v ≠ default)
  | (j, v) :: (k, w) :: r => decide (v ≠ default) && decide (j < k) && SMap.wf ((k, w) :: r)

/-- The canonical form of a memory: addresses rising and no byte listed that reads zero (R500). -/
def Memory.wf (m : List Host.Cell) : Bool := SMap.wf (α := Byte) m

/-- One byte of a memory. -/
def memGet (m : List Host.Cell) (a : Nat) : Nat := (SMap.get (α := Byte) m a).toNat

/-- A memory with one byte written. -/
def memSet (m : List Host.Cell) (a b : Nat) : List Host.Cell := SMap.set (α := Byte) m a (BitVec.ofNat 8 b)

/-- `n` bytes of a memory from address `a`. -/
def memRead (m : List Host.Cell) (a : Nat) : Nat → List Nat
  | 0 => []
  | n + 1 => memGet m a :: memRead m (a + 1) n

/-- A memory with bytes written from address `a`. -/
def memWrite (m : List Host.Cell) (a : Nat) : List Nat → List Host.Cell
  | [] => m
  | b :: bs => memWrite (memSet m a b) (a + 1) bs

/-- A field [hi:lo] of a register (R11). -/
def getF (w : Word) (hi lo : Nat) : Nat := w.toNat / 2 ^ lo % 2 ^ (hi + 1 - lo)

/-- The mask of the field [hi:lo]. -/
def maskF (hi lo : Nat) : Word := BitVec.ofNat 64 (2 ^ (hi + 1) - 2 ^ lo)

/-- A register with its field [hi:lo] set. -/
def setF (w : Word) (hi lo v : Nat) : Word :=
  (w &&& ~~~maskF hi lo) ||| (BitVec.ofNat 64 (v % 2 ^ (hi + 1 - lo)) <<< lo)

/-- The distance between the copies of a port-local register (R588). -/
def localStride : Nat := 2 ^ 26

/-- The reset value of the register at a BAR0 offset (the Reset column of the register tables; 0 where it says 0). -/
def resetWord (key : Nat) : Word :=
  let a := key % localStride
  let iface := key / localStride
  if a = 0 then 0x1F6E9616C0020000
  else if a = 8 then 0x40400000000
  else if a = 0x10 then (if iface = 1 then 0x100 else 0)
  else if 0x200000 ≤ a ∧ a < 0x600000 then
    let o := a % 0x100000
    if o = 0x7018 then 0x186A0 else if o = 0x6000 then 0xC03 else if o = 0x3000 ∨ o = 0x3020 then 4 else 0
  else if 0x780000 ≤ a ∧ a < 0x781000 ∧ a % 0x40 = 8 then 0x3000000000
  else if 0xC00000 ≤ a ∧ a < 0xF00000 then
    let o := a % 0x80000
    if o = 0 then 1 else if o = 0x18 then 0x578 else if o = 0x20 then 0x64 else 0
  else if a = 0xF00000 then 0x8000000000000000
  else if a = 0xF00018 then 0x100000000000000
  else if a = 0xF00218 then 0xFFFF
  else if a = 0x1800018 then 8
  else 0

/-- A register of the list, if it is listed. -/
def regFind : List (Nat × Word) → Nat → Option Word
  | [], _ => none
  | (j, v) :: r, k => if j = k then some v else regFind r k

/-- The value a register holds. -/
def State.reg (s : State) (key : Nat) : Word := (regFind s.regs key).getD (resetWord key)

/-- The state with a register written; one at its reset value is not listed. -/
def State.setReg (s : State) (key : Nat) (v : Word) : State :=
  { s with regs := if v = resetWord key then SMap.erase s.regs key else SMap.put (SMap.erase s.regs key) key v }

/-- A field of a register. -/
def State.fld (s : State) (key hi lo : Nat) : Nat := getF (s.reg key) hi lo

/-- The state with a field of a register written. -/
def State.setFld (s : State) (key hi lo v : Nat) : State := s.setReg key (setF (s.reg key) hi lo v)

/-- A field raised by `n`, saturating at all ones (R92, R633). -/
def State.bumpF (s : State) (key hi lo n : Nat) : State :=
  s.setFld key hi lo (min (s.fld key hi lo + n) (2 ^ (hi + 1 - lo) - 1))

/-- A 48-bit counter raised by `n`, saturating at all ones. -/
def State.bump (s : State) (key n : Nat) : State := s.bumpF key 47 0 n

/-- A core's record. -/
def State.core (s : State) (k : Nat) : Core := SMap.get s.cores k
/-- The state with a core's record changed. -/
def State.modCore (s : State) (k : Nat) (f : Core → Core) : State := { s with cores := SMap.mod s.cores k f }
/-- An array's record. -/
def State.arr (s : State) (A : Nat) : ArrayDyn := SMap.get s.arrays A
/-- The state with an array's record changed. -/
def State.modArr (s : State) (A : Nat) (f : ArrayDyn → ArrayDyn) : State := { s with arrays := SMap.mod s.arrays A f }
/-- A partition's record. -/
def State.part (s : State) (k : Nat) : Part := SMap.get s.parts k
/-- The state with a partition's record changed. -/
def State.modPart (s : State) (k : Nat) (f : Part → Part) : State := { s with parts := SMap.mod s.parts k f }
/-- A link port's record. -/
def State.port (s : State) (p : Nat) : PortDyn := SMap.get s.ports p
/-- The state with a link port's record changed. -/
def State.modPort (s : State) (p : Nat) (f : PortDyn → PortDyn) : State := { s with ports := SMap.mod s.ports p f }
/-- A host port's record. -/
def State.host (s : State) (h : Nat) : HostPort := SMap.get s.hosts h
/-- The state with a host port's record changed. -/
def State.modHost (s : State) (h : Nat) (f : HostPort → HostPort) : State := { s with hosts := SMap.mod s.hosts h f }
/-- A context of a core. -/
def State.ctx (s : State) (k c : Nat) : Ctx := SMap.get (s.core k).ctxs c
/-- The state with a context of a core changed. -/
def State.modCtx (s : State) (k c : Nat) (f : Ctx → Ctx) : State :=
  s.modCore k fun co => { co with ctxs := SMap.mod co.ctxs c f }

/-- The state with something sent out. -/
def State.out (s : State) (o : Output) : State := { s with outbox := s.outbox ++ [o] }

/-- The numbers 0 to n − 1 whose bit of a mask is set. -/
def maskList (n m : Nat) : List Nat := (List.range n).filter fun i => bitAt m i

/-- Does core k stand as the lowest core of a partition (R512, R547)? -/
def State.partValid (s : State) (k : Nat) : Bool := s.fld (rZenPart k) 63 63 == 1

/-- The cores of the partition whose lowest core is k (R547). -/
def State.partCores (s : State) (k : Nat) : List Nat := maskList 4 (s.fld (rZenPart k) 47 44)

/-- The lowest core of the partition that core j lies in, if any (R512). -/
def State.partOf (s : State) (j : Nat) : Option Nat :=
  (List.range 4).find? fun k => s.partValid k && bitAt (s.fld (rZenPart k) 47 44) j

/-- The lowest core of core j's partition, or j itself when it lies in none. -/
def State.lowest (s : State) (j : Nat) : Nat := (s.partOf j).getD j

/-- Is the partition of lowest core k confidential (R529)? -/
def State.conf (s : State) (k : Nat) : Bool := s.partValid k && s.fld (rZenPart k) 62 62 == 1

/-- Is any partition of the die confidential (R421, R529)? -/
def State.anyConf (s : State) : Bool := (List.range 4).any fun k => s.conf k

/-- The owning host port of the partition of lowest core k (R513). -/
def State.owner (s : State) (k : Nat) : Nat := s.fld (rZenPart k) 61 61

/-- The partition that owns link port p, if any (R513). -/
def State.portPart (s : State) (p : Nat) : Option Nat :=
  (List.range 4).find? fun k => s.partValid k && bitAt (s.fld (rZenPart k) 53 48) p

/-- The partition that owns stack st, if any (R512). -/
def State.stackPart (s : State) (st : Nat) : Option Nat := s.partOf (st / 2)

/-- ZEN_PART.STATE of the partition (R547). -/
def State.pstate (s : State) (k : Nat) : Nat := s.fld (rZenPart k) 59 57

/-- The state with ZEN_PART.STATE of the partition set. -/
def State.setPstate (s : State) (k v : Nat) : State := s.setFld (rZenPart k) 59 57 v

/-- The logical core j of a partition as a physical core (R354). -/
def State.physCore (s : State) (k j : Nat) : Option Nat := (s.partCores k)[j]?

/-- The current beat (R317). -/
def State.beat (s : State) : Nat := (s.reg rClkBeat).toNat

/-- The phase within the beat (R317). -/
def State.phase (s : State) : Nat := s.fld rClkPhase 9 0

/-- The state with a timed effect due after `d` cycles of the domain (R319, R369). -/
def State.after (s : State) (dom : Option Nat) (d : Nat) (a : Act) : State :=
  let now := match dom with | some k => (s.part k).seqCycle | none => s.clk.wall
  { s with agenda := s.agenda ++ [{ dom := dom, at_ := now + d, act := a }] }

/-- The state with a command due after `d` sequencer cycles of core j's partition. -/
def State.later (s : State) (j d : Nat) (i : Instr) : State := s.after (some (s.lowest j)) d (.cmd i)

/-- The state with a command due after `d` wall cycles. -/
def State.laterW (s : State) (d : Nat) (i : Instr) : State := s.after none d (.cmd i)

/-- The state with a timed effect due in the partition's current cycle, once its Lull has ended (R333). -/
def State.afterHeld (s : State) (k : Nat) (a : Act) : State :=
  { s with agenda := s.agenda ++ [{ dom := some k, at_ := (s.part k).seqCycle, act := a, mode := .held }] }

/-- The state with a timed effect due after `d` ACLK cycles that are not swallowed (R402). -/
def State.afterLive (s : State) (d : Nat) (a : Act) : State :=
  { s with agenda := s.agenda ++ [{ dom := none, at_ := s.clk.live + d, act := a, mode := .live }] }

/-- The state with a timed effect due after `d` cycles that resends count in (R68, R72). -/
def State.afterResend (s : State) (k d : Nat) (a : Act) : State :=
  { s with agenda := s.agenda ++ [{ dom := some k, at_ := (s.part k).resendCycle + d, act := a, mode := .resend }] }

/-- The state with a command due before everything else that is due in this wall cycle. -/
def State.firstW (s : State) (i : Instr) : State :=
  { s with agenda := { dom := none, at_ := s.clk.wall, act := .cmd i } :: s.agenda }

/-- The command runs again in this cycle, once the Lull that its stage has asked for has ended (R333, R346). -/
def State.again (s : State) (j : Nat) (i : Instr) : State := s.afterHeld (s.lowest j) (.cmd i)

/-- The cycles of core j's partition outside Lulls and swallowed cycles, which its latencies count in (R319, R369). -/
def State.cyc (s : State) (j : Nat) : Nat := (s.part (s.lowest j)).seqCycle

/-- A number never used before, for transfers, reads and messages. -/
def State.fresh (s : State) : Nat × State := (s.nextId, { s with nextId := s.nextId + 1 })

/-- A free value drawn, for a field that no rule gives (log entry 1). -/
def State.draw (s : State) (w : Nat) : Nat × State := (Config.freeWord s.free % 2 ^ w, { s with free := s.free + 1 })

/-- The severity of an event code (R619); `skewFault` says that STEP_SKEW is raised under R260. -/
def severityOf (code : Nat) (skewFault : Bool) : Nat :=
  if code = 0x0E then (if skewFault then 3 else 2)
  else if 1 ≤ code ∧ code ≤ 0x14 then 3
  else if code = 0x0101 ∨ code = 0x0109 ∨ code = 0x010B ∨ code = 0x010C ∨ code = 0x010D then 1
  else if code = 0x0105 ∨ code = 0x0301 ∨ code = 0x0405 ∨ code = 0x0406 ∨ code = 0x040A ∨ code = 0x0504 ∨ code = 0x050A then 2
  else if 0x0201 ≤ code ∧ code ≤ 0x0205 then 2
  else if 0x0302 ≤ code ∧ code ≤ 0x030B then 2
  else 0

/-- A trace record of a type: 0 a Cirrus message, 1 a sequencer issue, 2 a Lull start, 3 a Lull end (R634). The 1 MiB buffer holds 65,536; in
WRAP mode the oldest goes, and otherwise capture stops when it is full. -/
def State.traceRec (s : State) (typ source payload : Nat) : State :=
  if s.fld rDbgTraceCtrl 63 63 = 0 ∨ !bitAt (s.fld rDbgTraceCtrl 2 0) (min typ 2) ∨ (typ = 1 ∧ s.fld rDbgTraceCtrl 7 6 ≠ source) then s
  else
    let r := leBytes 4 (s.reg rClkBeat).toNat ++ leBytes 2 (s.fld rClkPhase 9 0) ++ [typ, source] ++ leBytes 8 payload
    let full := decide (65536 ≤ s.trace.records.length)
    if full && s.fld rDbgTraceCtrl 62 62 == 0 then s.setFld rDbgStatus 61 61 1
    else
      let l := (if full then s.trace.records.tail else s.trace.records) ++ [r]
      ({ s with trace := { records := l } } : State).setFld rDbgStatus 15 0 (min 65535 (l.length / 16))

/-- The 64 bits of a Cirrus message (R401). -/
def cirrusWord (typ src dst payload : Nat) : Nat := typ * 2 ^ 58 + src % 64 * 2 ^ 52 + dst * 2 ^ 46 + payload % 2 ^ 46

/-- The 64 bits of a Cirrus EVENT to Zenith's node (R400, R401). -/
def eventWord (e : EventRec) : Nat := cirrusWord 0x10 e.source 20 (e.code % 2 ^ 16 * 2 ^ 24 + e.detail % 2 ^ 24)

/-- What EXT of a confidential partition's event shows: a coordinate or a rendezvous index, where the code's rule names one, and zero elsewhere
(R305, R342, R344, R447, R621). The deadline that follows a coordinate in NOT_ADMITTED is not shown. -/
def extShown (code ext : Nat) : Nat :=
  if [0x0B, 0x0C, 0x0F, 0x0109, 0x0205].contains code then ext else if code = 0x0D then ext % 2 ^ 24 else 0

/-- The 32 bytes of the event entry of number n (R620, R621). No DETAIL of the model holds an address, a cycle or an instruction index, so it is
shown whole. -/
def State.entryAs (s : State) (e : EventRec) (n : Nat) : List Nat :=
  let shut := e.part ≠ 0xFF ∧ s.conf e.part ∧ !e.open_
  leBytes 2 e.code ++ [e.sev, e.source % 64] ++ leBytes 4 n ++ leBytes 8 s.beat ++ leBytes 2 s.phase ++ [e.part, e.ctx]
    ++ leBytes 4 (e.detail % 2 ^ 24) ++ leBytes 8 (if shut then extShown e.code e.ext else e.ext)

/-- An EVENT sent to Zenith's queue of 1,024, or lost and counted (R403). -/
def State.raise (s : State) (e : EventRec) : State :=
  let s := s.traceRec 0 e.source (eventWord e)
  if s.evq.length < 1024 then { s with evq := s.evq ++ [e] }
  else { s.bump rCirEventOvf 1 with evLost := s.evLost + 1 }

/-- An event of a core's partition (R401, R617, R620). -/
def State.eventCore (s : State) (j code detail ext : Nat) : State :=
  s.raise { code := code, sev := severityOf code true, source := j, part := s.lowest j, detail := detail, ext := ext }

/-- An event of a memory controller (R400, R620). -/
def State.eventStack (s : State) (st code detail ext : Nat) : State :=
  s.raise { code := code, sev := severityOf code true, source := 4 + st, part := (s.stackPart st).getD 0xFF,
            detail := detail, ext := ext }

/-- An event of a link port; of an unowned port it is a die event (R400, R622). -/
def State.eventPort (s : State) (p code detail ext : Nat) : State :=
  s.raise { code := code, sev := severityOf code true, source := 12 + p, part := (s.portPart p).getD 0xFF,
            detail := detail, ext := ext, open_ := true }

/-- A die event (R622). -/
def State.eventDie (s : State) (src code detail ext : Nat) : State :=
  s.raise { code := code, sev := severityOf code true, source := src, detail := detail, ext := ext, open_ := true }

/-- The number of a coordinate in an EXT field: x, y and z in rising bytes. -/
def coordNum (c : Coord) : Nat := c.x + 256 * c.y + 65536 * c.z

/-- Sends MSI-X vector v of host port h, unless the ABI is not agreed (R612), the function sleeps (R586), or the table entry is
masked, which sets its pending bit (R604). -/
def State.msix (s : State) (h v : Nat) : State :=
  if v ≠ 0 ∧ s.fld (rGlbAbi + localStride * h) 7 0 = 0 then s
  else if (s.host h).d3 then s.modHost h fun x => { x with heldMsix := x.heldMsix ++ [v] }
  else if s.fld (0xF0000 + 16 * v + 8 + localStride * h) 32 32 = 0 then
    s.modHost h fun x => { x with pba := if bitAt x.pba v then x.pba else x.pba + 2 ^ v }
  else s.out (.msix h v)

/-- The 32 bytes of a completion record (R603). -/
def recordBytes (kind status seqno step token count beat : Nat) : List Nat :=
  [kind, 0] ++ leBytes 2 status ++ leBytes 4 seqno ++ leBytes 8 step ++ leBytes 8 token ++ leBytes 4 count ++ leBytes 4 beat

/-- Writes one record into the partition's completion ring (R602–R604): the record with the beat at which it is written, PROD, then its vector. -/
def State.writeRecord (s : State) (k : Nat) (r : List Nat) (vector : Bool) : State :=
  let prod := s.fld (rHifCqStatus k) 63 32
  let size := 2 ^ s.fld (rHifCqCtrl k) 3 0
  let s := s.out (.hostWrite (s.owner k) ((s.reg (rHifCqBase k)).toNat + 32 * (prod % size)) (r.take 28 ++ leBytes 4 s.beat))
  let s := s.setFld (rHifCqStatus k) 63 32 (prod + 1)
  if vector then s.msix (s.owner k) (2 + k) else s

/-- Can a record be written into the ring now (R586, R602)? -/
def State.cqRoom (s : State) (k : Nat) : Bool :=
  s.fld (rHifCqCtrl k) 63 63 == 1 && !(s.host (s.owner k)).d3 &&
    (s.fld (rHifCqStatus k) 63 32 + 2 ^ 32 - (s.part k).cqCons) % 2 ^ 32 != 2 ^ s.fld (rHifCqCtrl k) 3 0

/-- A completion record produced (R602): written, queued among at most 64, or lost with OVERFLOW and one CQ_OVERFLOW; the
vector of a lost FAULT record is still sent. -/
def State.putRecord (s : State) (k kind status seqno step token count : Nat) (vector : Bool) : State :=
  let r := recordBytes kind status seqno step token count s.beat
  let pend := (s.part k).records
  if pend.isEmpty && s.cqRoom k then s.writeRecord k r vector
  else if pend.length < 64 then
    (s.modPart k fun p => { p with records := p.records ++ [(r, vector)] }).setFld (rHifCqStatus k) 31 24 (pend.length + 1)
  else
    let s := if kind = 6 then s.msix (s.owner k) (2 + k) else s
    if s.fld (rHifCqStatus k) 23 23 = 1 then s
    else (s.setFld (rHifCqStatus k) 23 23 1).eventCore k 0x0507 0 0

/-- Writes the records that wait, oldest first, while the ring has room; the fuel is their number. -/
def State.drainRecords (k : Nat) : Nat → State → State
  | 0, s => s
  | n + 1, s =>
    match (s.part k).records with
    | [] => s
    | (r, v) :: rest =>
      if s.cqRoom k then
        State.drainRecords k n (((s.modPart k fun p => { p with records := rest }).writeRecord k r v).setFld
          (rHifCqStatus k) 31 24 rest.length)
      else s

/-- The steps of the queue that have not started (R600, R601). -/
def unstarted (q : List QEntry) : Nat :=
  q.foldl (fun n e => if e.kind = 1 then n + (e.entry.count - e.started) else n) 0

/-- The contexts of a core that have a program (R380). -/
def State.activeCtxs (s : State) (j : Nat) : List Nat := maskList 8 (s.fld (rSeqCtxStatus j) 15 8)

/-- A partition stops at the end of the cycle (R377), under the code of its first fault, which may have stopped a context alone before (R625). -/
def State.stopPartition (s : State) (k code : Nat) (trigger : List Nat) : State :=
  if (s.part k).fault.isSome || (s.part k).stopping.isSome then s
  else s.modPart k fun p => { p with stopping := some (p.first.getD (code, trigger)) }

/-- Stops every context of the partition and aborts its step (R377, R380, R625): the contexts' STOPPED bits, ZEN_PART.STATE 0b101, the
queue cancelled, one FAULT record, and the dump capture begun (R628). -/
def State.stopNow (s : State) (k code : Nat) (trigger : List Nat) : State :=
  let s := (s.partCores k).foldl (fun s j =>
    let s := if s.fld (rSeqCtxStatus j) 1 0 = 3 then s.setFld (rSeqCtxStatus j) 1 0 2 else s
    (s.activeCtxs j).foldl (fun s c => s.modCtx j c fun x => { x with stopped := true, waiting := false })
      (s.setFld (rSeqCtxStatus j) 23 16 (s.fld (rSeqCtxStatus j) 15 8))) s
  let p := s.part k
  let head := (p.queue.head?.getD {}).entry
  let s := s.setPstate k 5
  let s := s.modPart k fun p => { p with fault := some code, stopping := none, running := false, inStep := false, starting := false,
                                         lull := [], stopQueue := p.queue, queue := [], dumpState := 1, trigger := trigger }
  let s := s.setFld (rHifCrStatus k) 31 24 0
  s.putRecord k 6 code head.seqno p.stepNo head.token (unstarted p.queue) true

/-- Captures a fault in SEQ_CTX_STATUS of the core, or, for a fault of no context, of the partition's lowest core (R377, R380). -/
def State.captureFault (s : State) (j code : Nat) (c : Option Nat) (instr : Nat) : State :=
  let j' := if c.isSome then j else s.lowest j
  if s.fld (rSeqCtxStatus j') 63 63 = 1 then s
  else
    let s := s.setFld (rSeqCtxStatus j') 63 63 1
    let s := s.setFld (rSeqCtxStatus j') 62 62 (if c.isSome then 0 else 1)
    let s := s.setFld (rSeqCtxStatus j') 55 48 code
    let s := s.setFld (rSeqCtxStatus j') 47 45 (c.getD 0)
    let s := s.setFld (rSeqCtxStatus j') 39 24 (if c.isSome then instr else 0)
    s.setReg (rSeqFaultCycle j') (BitVec.ofNat 64 (s.part (s.lowest j)).stepCycle)

/-- Has every active context of the partition ended its step or stopped (R366, R625)? -/
def State.allQuiet (s : State) (k : Nat) : Bool :=
  (s.partCores k).all fun j => (s.activeCtxs j).all fun c => (s.ctx j c).ended || (s.ctx j c).stopped

/-- Is any active context of the partition stopped? -/
def State.anyStopped (s : State) (k : Nat) : Bool :=
  (s.partCores k).any fun j => (s.activeCtxs j).any fun c => (s.ctx j c).stopped

/-- Stops a single context (R260, R344, R377), and the partition once every other context has ended or stopped (R625). -/
def State.stopContext (s : State) (j c code : Nat) (trigger : List Nat) : State :=
  let s := s.modCtx j c fun x => { x with stopped := true, waiting := false }
  let s := s.setFld (rSeqCtxStatus j) 23 16 (Nat.lor (s.fld (rSeqCtxStatus j) 23 16) (2 ^ c))
  if s.allQuiet (s.lowest j) then s.stopPartition (s.lowest j) code trigger else s

/-- A run-time fault of core j, raised by a context or by none, at the core's node of Cirrus unless another raises it (R376, R377, R400; log
entry 105): in a partition already stopped only the event (R626), and in one that is unloaded, in Clearing or quarantined too, which has no
context to stop (R560; log entry 28); NOT_ADMITTED and STEP_SKEW stop the context alone. -/
def State.fault (s : State) (j code : Nat) (c : Option Nat) (instr ext : Nat) (detail : Nat := 0)
    (source : Nat := j) : State :=
  let k := s.lowest j
  let e : EventRec := { code := code, sev := severityOf code true, source := source, part := k, ctx := c.getD 0xFF, detail := detail, ext := ext }
  let trig := s.entryAs e ((s.zen.eventSeq + s.evq.length) % 2 ^ 32)
  let s := s.raise e
  if (s.part k).fault.isSome ∨ ¬(s.pstate k = 1 ∨ s.pstate k = 2) then s
  else
    let s := (s.modPart k fun p => { p with first := p.first.or (some (code, trig)) }).captureFault j code c instr
    match c with
    | some c' => if code = 0x0D ∨ code = 0x0E then s.stopContext j c' code trig else s.stopPartition k code trig
    | none => s.stopPartition k code trig

/-- A fault of the context's current instruction (R377). -/
def State.faultCtx (s : State) (j c code ext : Nat) : State := s.fault j code (some c) (s.ctx j c).cmdIndex ext

/-- What a stage does later for an instruction of a context: a fault of it names that instruction (R377). -/
def State.under (s : State) (j c instr : Nat) (f : State → State) : State :=
  let now := (s.ctx j c).cmdIndex
  (f (s.modCtx j c fun x => { x with cmdIndex := instr })).modCtx j c fun x => { x with cmdIndex := now }

/-- SEM_FAULT's capture (R420): kind 0 underflow, 1 overflow, 2 ownership. -/
def State.semFault (s : State) (j kind c logical : Nat) : State :=
  if s.fld (rSemFault j) 63 63 = 1 then s
  else
    let phys := s.fld (rSemMap j c logical) 8 0
    let s := s.setFld (rSemFault j) 63 63 1
    let s := s.setFld (rSemFault j) 25 24 kind
    let s := s.setFld (rSemFault j) 19 17 c
    let s := s.setFld (rSemFault j) 16 9 logical
    s.setFld (rSemFault j) 8 0 phys

/-- The Lull requests of a partition with one added, unless it is there (R333). -/
def State.askLull (s : State) (k : Nat) (r : LullReq) : State :=
  let s := if (s.part k).lull.isEmpty then s.traceRec 2 k r.cause else s
  s.modPart k fun p =>
    if p.lull.any (fun q => q.kind == r.kind && q.tag == r.tag && q.core == r.core && q.stage == r.stage) then p
    else { p with lull := p.lull ++ [{ r with since := s.clk.wall }] }

/-- A stage's Lull request (R192, R204, R336): counted in STR_STALL_REQ. -/
def State.askStage (s : State) (j stage cause tag : Nat) : State :=
  let k := s.lowest j
  let r : LullReq := { kind := 0, stage := stage, cause := cause, core := j, tag := tag }
  if (s.part k).lull.any (fun q => q.kind == 0 && q.tag == tag && q.core == j && q.stage == stage) then s
  else (s.askLull k r).bump (rStrStallReq j stage cause) 1

/-- The tag of a Lull that waits for a resend of a transfer (R72, R73). -/
def resendTag (id : Nat) : Nat := 0x40000 + id % 0x10000

/-- Has a resend or a re-injection asked for the request (R72, R73)? -/
def LullReq.ofResend (r : LullReq) : Bool := r.kind == 0 && decide (0x40000 ≤ r.tag) && decide (r.tag < 0x50000)

/-- The tag of a Lull that waits for a recovery (R483). -/
def recTag (id : Nat) : Nat := 0x50000 + id

/-- Ends the Lull requests of a kind and tag (R333). -/
def State.endLull (s : State) (k kind tag : Nat) : State :=
  let l := (s.part k).lull
  let s := s.modPart k fun p => { p with lull := l.filter fun r => !(r.kind == kind && r.tag == tag) }
  if !l.isEmpty && (s.part k).lull.isEmpty then s.traceRec 3 k ((l.head?.map (·.cause)).getD 0) else s

/-- The bounds of a partition: an address in the usable space of a stack that one of its cores owns (R474, R475, R477). -/
def State.inBounds (s : State) (k addr len : Nat) : Bool :=
  let st := addr / 2 ^ 36
  decide (st < 8) && (s.partCores k).any (fun j => j == st / 2) &&
    decide (addr % 2 ^ 36 + len ≤ 0xFB8000000)

/-- Bytes of HBM, with a remapped line read in its spare (R495). A remapped line's contents move with the remap, so the model
keeps them under the line's own address. -/
def State.hbmRead (s : State) (a n : Nat) : List Nat := memRead s.hbm a n

/-- A line number over all stacks: stack × 2^28 + line index (R479). -/
def lineOf (a : Nat) : Nat := a / 256

/-- A write to a place under recovery is remembered, since it stands against the write-back (R488). -/
def noteWrite (space core a n : Nat) (r : Recovery) : Recovery :=
  if 0 < n ∧ r.space = space ∧ (space = 0 ∨ r.core = core) ∧ a < r.addr + r.len ∧ r.addr < a + n then { r with newer := r.newer ++ [(a, n)] } else r

/-- Does the line fail its check though a write of the lines from `lo` up to `hi` does not cover it (R480)? -/
def State.keepsBad (s : State) (lo hi line : Nat) : Bool :=
  (s.badLine.any fun p => p.1 == line) && !(decide (lo ≤ line) && decide (line < hi))

/-- How many bytes at the start and at the end of a write of n bytes at `a` lie in a failing line that it covers in part: they are held until the
line has been recovered (R480). -/
def State.heldEnds (s : State) (a n : Nat) : Nat × Nat :=
  let lo := ceilDiv a 256
  let hi := (a + n) / 256
  let h := if s.keepsBad lo hi (a / 256) then min n (256 - a % 256) else 0
  (h, if h < n ∧ hi * 256 < a + n ∧ s.keepsBad lo hi hi then (a + n) % 256 else 0)

/-- Writes HBM bytes. A whole line gets a fresh CRC, so its stored check matches again, and what was held for it is overwritten; the part of a
failing line is held (R480). -/
def State.hbmWrite (s : State) (a : Nat) (bs : List Nat) : State :=
  let lo := ceilDiv a 256
  let hi := (a + bs.length) / 256
  let e := s.heldEnds a bs.length
  let mid := (bs.take (bs.length - e.2)).drop e.1
  let held := [(a, bs.take e.1), (a + bs.length - e.2, bs.drop (bs.length - e.2))].filter fun w => !w.2.isEmpty
  { s with hbm := memWrite s.hbm (a + e.1) mid,
           recoveries := s.recoveries.map (noteWrite 0 0 (a + e.1) mid.length),
           badLine := s.badLine.filter fun p => !(decide (lo ≤ p.1) && decide (p.1 < hi)),
           heldWrites := (s.heldWrites.filter fun w => !(decide (lo ≤ w.1 / 256) && decide (w.1 / 256 < hi))) ++ held }

/-- The key of a core store byte. -/
def storeKey (k off : Nat) : Nat := k * 2 ^ 25 + off
/-- The key of a local-store byte (R169). -/
def lsKey (A bank off : Nat) : Nat := A * 20971520 + bank * 20480 + off

/-- Bytes of a core store. -/
def State.storeRead (s : State) (k off n : Nat) : List Nat := memRead s.store (storeKey k off) n
/-- Writes core-store bytes. -/
def State.storeWrite (s : State) (k off : Nat) (bs : List Nat) : State :=
  { s with store := memWrite s.store (storeKey k off) bs, recoveries := s.recoveries.map (noteWrite 1 k off bs.length) }
/-- Bytes of one bank of a local store. -/
def State.bankRead (s : State) (A bank off n : Nat) : List Nat := memRead s.lstore (lsKey A bank off) n
/-- A write to a bank of array A that meets a range of its local store under recovery is remembered (R488). -/
def noteBank (A bank off n : Nat) (r : Recovery) : Recovery :=
  if r.space = 2 ∧ 4 * r.core + r.array = A ∧ off < r.addr + r.len ∧ r.addr < off + n then { r with newer := r.newer ++ [(lsKey A bank off, n)] } else r

/-- Writes bytes of one bank of a local store. -/
def State.bankWrite (s : State) (A bank off : Nat) (bs : List Nat) : State :=
  { s with lstore := memWrite s.lstore (lsKey A bank off) bs, recoveries := s.recoveries.map (noteBank A bank off bs.length) }
/-- Writes a plain byte string into a local store at bank offset `off`: byte m goes to bank m mod 1,024 (R169). -/
def State.plainWrite (s : State) (A off : Nat) (bs : List Nat) : State :=
  bs.zipIdx.foldl (fun s p => s.bankWrite A (p.2 % 1024) (off + p.2 / 1024) [p.1]) s

/-- Writes part of a plain byte string: byte m of the string from `m0` (R169). -/
def State.plainAt (s : State) (A B m0 : Nat) (bs : List Nat) : State :=
  bs.zipIdx.foldl (fun s p => s.bankWrite A ((m0 + p.2) % 1024) (B + (m0 + p.2) / 1024) [p.1]) s

/-- The index in A-order of a core's lead array (R38). -/
def leadIndex (k : Nat) : Nat := if k = 1 then 2 else if k = 2 then 1 else 0

/-- The current step number of core j's partition (R178). -/
def State.stepOf (s : State) (j : Nat) : Nat := (s.part (s.lowest j)).stepNo

end Sys2Proof.Machine
end

