-- ==== Sys2Proof/Machine/Operands.lean ====
section
/-! DEFINITION. The operand forms: stream, vector, update, thinning and collective descriptors, route and rendezvous entries,
Stratus addresses, sequencer instructions, and the operands they name in the stores (R171, R213, R236, R275, R299, R329,
R359–R362, R389, R391). -/
namespace Sys2Proof.Machine

/-- A stream descriptor (R171). -/
structure SDesc where
  kind : Nat
  persist : Bool
  skew : Bool
  keyStep : Bool
  autoscale : Bool
  stoch : Bool
  nanmode : Bool
  srcBuf : Bool
  dstBuf : Bool
  src : Nat
  dst : Nat
  format : Nat
  srcBase : Nat
  dstBase : Nat
  stride : Nat
  srcArray : Nat
  dstArray : Nat
  scale : Int
  orgRow : Nat
  orgCol : Nat
  rows : Nat
  cols : Nat
  tensorCols : Nat
  interval : Nat
  linkIn : Nat
  linkOut : Nat
  expBase : Nat
  keyBase : Nat
  stepOfs : Int
  srcFormat : Nat
  auxBase : Nat
  auxCount : Nat
  slot : Nat
deriving DecidableEq, Repr, Inhabited

/-- The stream descriptor that 64 bytes spell (R171). -/
def sdesc (d : List Nat) : SDesc :=
  let b1 := fieldAt d 1 1
  { kind := fieldAt d 0 1, persist := bitAt b1 7, skew := bitAt b1 6, keyStep := bitAt b1 5, autoscale := bitAt b1 4,
    stoch := bitAt b1 3, nanmode := bitAt b1 2, srcBuf := bitAt b1 0, dstBuf := bitAt b1 1,
    src := fieldAt d 2 1 / 16, dst := fieldAt d 2 1 % 16, format := fieldAt d 3 1, srcBase := fieldAt d 4 5,
    dstBase := fieldAt d 9 5, stride := fieldAt d 14 4, srcArray := fieldAt d 18 1 / 16, dstArray := fieldAt d 18 1 % 16,
    scale := signedOf 8 (fieldAt d 19 1), orgRow := fieldAt d 20 2, orgCol := fieldAt d 22 2, rows := fieldAt d 24 2,
    cols := fieldAt d 26 2, tensorCols := fieldAt d 28 2, interval := fieldAt d 30 2, linkIn := fieldAt d 32 1,
    linkOut := fieldAt d 33 1, expBase := fieldAt d 34 2, keyBase := fieldAt d 36 4, stepOfs := signedOf 16 (fieldAt d 40 2),
    srcFormat := fieldAt d 42 1, auxBase := fieldAt d 44 5, auxCount := fieldAt d 49 3, slot := fieldAt d 52 1 }

/-- The target format of a descriptor: FORMAT, or SRC_FORMAT when it is 0 (R174). -/
def SDesc.target (d : SDesc) : Nat := if d.format = 0 then d.srcFormat else d.format

/-- Bandwidth of a space's port in bytes per cycle (R170, R174). -/
def portWidth (space : Nat) : Nat := if space = 2 ∨ space = 3 then 1024 else 2048

/-- Stream descriptor number `idx` of a core's table, read from the core store (R171). -/
def State.streamDesc (s : State) (k idx : Nat) : List Nat := s.storeRead k ((s.core k).map.stream.1 + 64 * idx) 64

/-- Entry `idx` of a core's vector descriptor table (R212). -/
def State.vectorDesc (s : State) (k idx : Nat) : List Nat := s.storeRead k ((s.core k).map.vector.1 + 64 * idx) 64

/-- Expansion descriptor `idx` of a core's table, none at or beyond its length (R119). -/
def State.expDesc (s : State) (k idx : Nat) : Option (List Nat) :=
  if idx < (s.core k).map.expCount then some (s.storeRead k ((s.core k).map.exp.1 + 32 * idx) 32) else none

/-- The number of issues of a descriptor: one header block and 64 tiles for each panel (R174, R176). -/
def SDesc.panels (d : SDesc) : Nat := (d.rows + 1) * (d.cols + 1)

/-- The panel that issue `n` belongs to, in the tensor's panel rows and columns, and the unit within it: 0 the header block, t + 1
tile t (R176). -/
def SDesc.place (d : SDesc) (n : Nat) : Nat × Nat × Nat :=
  let g := n / 65
  (d.orgRow + g / (d.cols + 1), d.orgCol + g % (d.cols + 1), n % 65)

/-- Bytes of a tile group of a format (R177), or of a BFP16 panel buffer (R661). -/
def groupBytes (fmt : Nat) : Nat := if fmt = fcBFP16 then 2162720 else 2048 + 64 * tileBytes fmt

/-- The offset of a tile group within its tensor (R177, R661). -/
def SDesc.groupOff (d : SDesc) (fmt pr pc : Nat) : Nat := (pr * d.tensorCols + pc) * groupBytes fmt

/-- The 32-bit key of tile t of panel (pr, pc) at a step (R177). -/
def SDesc.key (d : SDesc) (step pr pc t : Nat) : Nat :=
  let tr := 8 * pr + t / 8
  let tc := 8 * pc + t % 8
  let key := (d.keyBase + tr * 8 * d.tensorCols + tc) % 2 ^ 32
  if d.keyStep then Nat.xor key ((((step : Int) + d.stepOfs) % 2 ^ 16).toNat * 2 ^ 16) else key

/-- The byte ranges (offset within a BFP16 panel buffer, length) of unit t: 512 blocks of panel rows 128a to 128a + 127 and
block columns 4b to 4b + 3 (R661). -/
def bfpUnit (t : Nat) : List (Nat × Nat) :=
  (List.range 128).map fun r => (32 + 66 * (32 * (128 * (t / 8) + r) + 4 * (t % 8)), 264)

/-- A vector descriptor (R213). -/
structure VDesc where
  op : Nat
  cfmt : Nat
  redOp : Nat
  redScope : Bool
  asrc : Nat
  bsrc : Nat
  csrc : Nat
  ddst : Nat
  afmt : Nat
  bfmt : Nat
  cfm : Nat
  abase : Nat
  bbase : Nat
  cbase : Nat
  dbase : Nat
  n0 : Nat
  n1 : Nat
  n2 : Nat
  strides : List Int
  scalar : Nat
  linkIn : Nat
  linkOut : Nat
  redBase : Nat
deriving DecidableEq, Repr, Inhabited

/-- The vector descriptor that 64 bytes spell (R213). -/
def vdesc (d : List Nat) : VDesc :=
  let b1 := fieldAt d 1 1
  let b4 := fieldAt d 4 1
  { op := fieldAt d 0 1, cfmt := b1 / 64, redOp := bitsAt b1 3 3, redScope := bitAt b1 2, asrc := fieldAt d 2 1 / 16,
    bsrc := fieldAt d 2 1 % 16, csrc := fieldAt d 3 1 / 16, ddst := fieldAt d 3 1 % 16, afmt := b4 / 64, bfmt := bitsAt b4 4 2,
    cfm := bitsAt b4 2 2, abase := fieldAt d 5 3, bbase := fieldAt d 8 3, cbase := fieldAt d 11 3, dbase := fieldAt d 14 3,
    n0 := fieldAt d 17 3, n1 := fieldAt d 20 2, n2 := fieldAt d 22 2,
    strides := (List.range 8).map fun i => signedOf 24 (fieldAt d (24 + 3 * i) 3), scalar := fieldAt d 48 4,
    linkIn := fieldAt d 52 1, linkOut := fieldAt d 53 1, redBase := fieldAt d 54 3 }

/-- Bytes of an element in a compute format: FP32, BF16, INT32, INT8 (R213). -/
def cfmtBytes (c : Nat) : Nat := if c = 1 then 2 else if c = 3 then 1 else 4

/-- The tile format code of a compute format (R105, R213). -/
def cfmtCode (c : Nat) : Nat := if c = 0 then fcFP32 else if c = 1 then fcBF16 else if c = 2 then fcINT32 else fcINT8

/-- An update descriptor (R236). -/
structure UDesc where
  op : Nat
  nesterov : Bool
  wc : Bool
  set : Nat
  ind : Bool
  shard : Nat
  step : Nat
  gscale : Nat
  gaddr : Nat
  count : Nat
  rowLen : Nat
  linkG : Nat
  linkW : Nat
  linkS1 : Nat
  linkS2 : Nat
  linkWO : Nat
  linkS1O : Nat
  linkS2O : Nat
  master : Nat
deriving DecidableEq, Repr, Inhabited

/-- The update descriptor that 64 bytes spell (R236). -/
def udesc (d : List Nat) : UDesc :=
  let b := fieldAt d 1 1
  { op := fieldAt d 0 1, nesterov := bitAt b 7, wc := bitAt b 6, set := bitsAt b 4 2, ind := bitAt b 3,
    shard := fieldAt d 2 1, step := fieldAt d 4 8, gscale := fieldAt d 12 4, gaddr := fieldAt d 16 3, count := fieldAt d 19 3,
    rowLen := fieldAt d 22 2, linkG := fieldAt d 24 1, linkW := fieldAt d 25 1, linkS1 := fieldAt d 26 1,
    linkS2 := fieldAt d 27 1, linkWO := fieldAt d 28 1, linkS1O := fieldAt d 29 1, linkS2O := fieldAt d 30 1,
    master := fieldAt d 32 5 }

/-- A thinning descriptor (R275). -/
structure TDesc where
  op : Nat
  klog : Nat
  last : Bool
  rzero : Bool
  seg : Nat
  step : Nat
  linkRIn : Nat
  linkROut : Nat
  linkMsg : Nat
  matrix : Nat
  panel : Nat
  key : Nat
  coll : Nat
  replica : Nat
deriving DecidableEq, Repr, Inhabited

/-- The thinning descriptor that 64 bytes spell (R275). -/
def tdesc (d : List Nat) : TDesc :=
  let b := fieldAt d 1 1
  { op := fieldAt d 0 1, klog := b / 16, last := bitAt b 3, rzero := bitAt b 2, seg := fieldAt d 2 1, step := fieldAt d 4 8,
    linkRIn := fieldAt d 12 1, linkROut := fieldAt d 13 1, linkMsg := fieldAt d 14 1, matrix := fieldAt d 16 2,
    panel := fieldAt d 18 2, key := fieldAt d 20 4, coll := fieldAt d 24 2, replica := fieldAt d 26 2 }

/-- A collective descriptor (R299). -/
structure CDesc where
  kind : Nat
  vecAdd : Bool
  combine : Bool
  owner : Bool
  coll : Nat
  contrib : Nat
  upstream : Nat
  linkDone : Nat
  acc : Nat
  slot : Nat
  slotBytes : Nat
  panels : Nat
  dest : Nat
  deadline : Nat
deriving DecidableEq, Repr, Inhabited

/-- The collective descriptor that 64 bytes spell (R299). -/
def cdesc (d : List Nat) : CDesc :=
  let b := fieldAt d 1 1
  { kind := fieldAt d 0 1, vecAdd := bitAt b 2, combine := bitAt b 1, owner := bitAt b 0, coll := fieldAt d 2 2,
    contrib := fieldAt d 4 2, upstream := fieldAt d 6 1 % 64, linkDone := fieldAt d 7 1, acc := fieldAt d 8 5,
    slot := fieldAt d 13 5, slotBytes := fieldAt d 18 4, panels := fieldAt d 22 2, dest := fieldAt d 24 5,
    deadline := fieldAt d 29 3 }

/-- A rendezvous entry from its 32 bytes (R329). -/
def rvEntry (d : List Nat) : RvEntry :=
  { barrier := fieldAt d 0 1, coll := fieldAt d 2 2, ofs := fieldAt d 4 4, slack := fieldAt d 8 2, lead := fieldAt d 10 2,
    point := fieldAt d 12 5, done := fieldAt d 17 5 }

/-- A route entry (R391). -/
structure RouteEntry where
  dest : Coord
  core : Nat
  space : Nat
  array : Nat
  base : Nat
deriving DecidableEq, Repr, Inhabited

/-- A route entry from its 16 bytes (R391). -/
def routeEntry (d : List Nat) : RouteEntry :=
  { dest := ⟨fieldAt d 0 1, fieldAt d 1 1, fieldAt d 2 1⟩, core := fieldAt d 3 1, space := fieldAt d 4 1, array := fieldAt d 5 1,
    base := fieldAt d 8 5 }

/-- A sequencer instruction's fields (R359). -/
structure SeqInstr where
  op : Nat
  flags : Nat
  delta : Nat
  target : Nat
  index : Nat
  args : Nat
deriving DecidableEq, Repr, Inhabited

/-- The sequencer instruction that 16 bytes spell (R359). -/
def seqInstr (b : List Nat) : SeqInstr :=
  { op := fieldAt b 0 1, flags := fieldAt b 1 1, delta := fieldAt b 2 4, target := fieldAt b 6 1, index := fieldAt b 8 2,
    args := fieldAt b 10 6 }

/-- Instruction `i` of a core's program section, after its eight context entries (R356). -/
def instrAt (program : List Nat) (i : Nat) : SeqInstr := seqInstr (slice program (64 + 16 * i) 16)

/-- The PRODUCT fields of ARGS (R361). -/
def productArgs (args : Nat) (name : Nat × Nat × Nat) : ProductArgs :=
  { sfmt := bitsAt args 46 2, pfmt := bitsAt args 44 2, colSkew := bitAt args 43, outBf16 := bitAt args 42,
    cont := bitAt args 41, cstart := bitAt args 40, dest := bitAt args 39, ssrc := bitAt args 38, psrc := bitAt args 37,
    sbase := bitsAt args 15 15, pbase := bitsAt args 0 15, matrix := name.1, panel := name.2.1, key := name.2.2 }

/-- The HALO fields of ARGS (R362). -/
def haloArgs (args : Nat) : HaloArgs :=
  { companion := bitAt args 47, ccw := bitAt args 46, back := bitAt args 45, hop := bitsAt args 42 3 }

/-- The stream command of a descriptor kind (R172). -/
def streamCmd (kind k c e idx : Nat) (back : Bool) : Instr :=
  if kind = 1 then .fetch k c e idx else if kind = 2 then .feed k c e idx else if kind = 3 then .inject k c e idx back
  else if kind = 4 then .store k c e idx else if kind = 5 then .handoff k c e idx else if kind = 6 then .gather k c e idx
  else .receive k c e idx

/-- The vector-table command of an OP (R213, R236, R275, R303). -/
def vectorCmd (op k c idx : Nat) : Instr :=
  if 0x40 ≤ op ∧ op ≤ 0x43 then .updateDescriptor k c idx
  else if 0x50 ≤ op ∧ op ≤ 0x52 then .thinningDescriptor k c idx
  else if op = 0x30 then .badd k c idx
  else .vectorDescriptor k c idx false

/-- The command that a sequencer instruction stands for, its INDEX advanced by the loops around it (R360, R364). -/
def State.instrCmd (s : State) (k c i : Nat) (q : SeqInstr) (ofs : Int) : Instr :=
  let idx := ((q.index : Int) + ofs).toNat
  if q.op = 1 then .stepStart k c q.target
  else if q.op = 2 then .endStep k c
  else if q.op = 3 then streamCmd (fieldAt (s.streamDesc k idx) 0 1) k c q.target idx (bitAt q.flags 0)
  else if q.op = 4 then .release k c q.index (bitAt q.args 0)
  else if q.op = 5 then .product k c q.target (productArgs q.args (Config.backwardName k c i))
  else if q.op = 6 then .halo k c q.target (haloArgs q.args)
  else if q.op = 7 then vectorCmd (fieldAt (s.vectorDesc k idx) 0 1) k c idx
  else if q.op = 8 then .rearm k c
  else if q.op = 9 then .arm k c q.index
  else if q.op = 0xA then (if bitAt q.args 1 then .barrierDepart k c q.target (q.args % 2)
                           else .barrierArrive k c q.target (q.args % 2))
  else .loop k c (signedOf 8 q.target) (q.index + 1) (bitsAt q.args 24 24) (bitsAt q.args 0 8)

/-- Is an update descriptor dense (R236)? -/
def UDesc.dense (d : UDesc) : Bool := d.op == 0x40 || d.op == 0x41

/-- The offset of tile i's payload within a run of tile groups of FP32 tiles that starts with a header block (R176, R177; log entry
20). -/
def tileOffset (i : Nat) : Nat := 2048 * (i / 64 + 1) + 65536 * i

/-- The HBM address of the i-th master tile's payload (R238). -/
def UDesc.masterTile (d : UDesc) (i : Nat) : Nat := d.master + (tileOffset i - 2048)

/-- The fused group of array a of a core with a fusion code (R83). -/
def fusedGroup (f a : Nat) : List Nat :=
  if f = 1 then [a / 2 * 2, a / 2 * 2 + 1] else if f = 2 then [0, 1, 2, 3] else [a]

end Sys2Proof.Machine
end

