-- ==== Sys2Proof/Machine/Links.lean ====
section
/-! DEFINITION. Semaphores and buffer links: acquiring and releasing halves, late writes, and the waits of R346 (R182–R193,
R343–R346, R404–R409, R663). -/
namespace Sys2Proof.Machine

/-- Bytes carried on the shared plane (R384, R420; log entry 100). -/
def State.shared (s : State) (n : Nat) : State := s.bump rStraSharedBytes n

/-- The number of link m of context c in a core's link collections. -/
def linkKey (c m : Nat) : Nat := c * 128 + m

/-- A link's declaration (R667). -/
def State.link (s : State) (k c m : Nat) : LinkCfg := SMap.get (s.core k).links (linkKey c m)
/-- A link's pointers and holders (R183). -/
def State.linkD (s : State) (k c m : Nat) : LinkDyn := SMap.get (s.core k).linkDyn (linkKey c m)
/-- The state with a link's pointers and holders changed. -/
def State.modLink (s : State) (k c m : Nat) (f : LinkDyn → LinkDyn) : State :=
  s.modCore k fun co => { co with linkDyn := SMap.mod co.linkDyn (linkKey c m) f }

/-- The register of the physical semaphore behind logical semaphore i of context c (R407, R420). -/
def State.semReg (s : State) (k c i : Nat) : Nat := rSemValue k (s.fld (rSemMap k c i) 8 0)
/-- The value of a logical semaphore (R404). -/
def State.semVal (s : State) (k c i : Nat) : Nat := s.fld (s.semReg k c i) 5 0
/-- The state with a logical semaphore's value set. -/
def State.setSem (s : State) (k c i v : Nat) : State := s.setFld (s.semReg k c i) 5 0 v

/-- A fault of the semaphore kind on a link's semaphore (R185, R420). -/
def State.linkFault (s : State) (k c logical code kind : Nat) : State :=
  (s.semFault k kind c logical).faultCtx k c code (logical + 256 * s.fld (rSemMap k c logical) 8 0)

/-- HALF_OWNERSHIP on a link (R184). -/
def State.linkOwner (s : State) (k c m : Nat) : State := s.linkFault k c (2 * m) 0x03 2

/-- The base of half h of a link (R183). -/
def LinkCfg.half (l : LinkCfg) (h : Nat) : Nat := l.base + h * l.stride

/-- The base of the half of a link that a side holds (R183). -/
def State.heldBase (s : State) (k c m : Nat) (consumer : Bool) : Nat :=
  (s.link k c m).half (if consumer then (s.linkD k c m).consHalf else (s.linkD k c m).prodHalf)

/-- The producer's acquire of its current half by engine code `eng` (R183, R184): the state, and whether the write may go on. -/
def State.acquireProd (s : State) (k c m eng : Nat) : State × Bool :=
  if (s.link k c m).producer ≠ eng then (s.linkOwner k c m, false)
  else if (s.linkD k c m).prodHolds then (s, true)
  else if s.semVal k c (2 * m + 1) = 0 then (s.linkOwner k c m, false)
  else ((s.setSem k c (2 * m + 1) (s.semVal k c (2 * m + 1) - 1)).modLink k c m fun d => { d with prodHolds := true }, true)

/-- The pending rendezvous entry with the smallest Q_POINT at or after the sequencer cycle (R343, R346). -/
def State.governing (s : State) (k : Nat) : Option (Nat × RvEntry) :=
  let p := s.part k
  p.rvs.foldl (fun best e => match e.2 with
    | none => best
    | some r =>
      if p.inStep && decide (p.stepCycle ≤ r.done) && decide (p.stepCycle ≤ r.point) then
        match best with
        | none => some (e.1, r)
        | some b => if r.point < b.2.point then some (e.1, r) else best
      else best) none

/-- The entry whose COLL names a collective (R343, R346). -/
def State.rvOfColl (s : State) (k coll : Nat) : Option (Nat × RvEntry) :=
  (s.part k).rvs.foldl (fun best e => match best, e.2 with
    | none, some r => if r.coll = coll ∧ coll ≠ 0xFFFF then some (e.1, r) else none
    | b, _ => b) none

/-- The cause of a wait on a governing rendezvous: LULL_HOLD when a hold on it has been received in this step, else
LULL_LINK_RETRY (R346). -/
def State.waitCause (s : State) (k : Nat) (g : Option (Nat × RvEntry)) : Nat :=
  match g with
  | some (i, _) => if (SMap.get (s.part k).rvDyn i).received then 7 else 2
  | none => 2

/-- The tag of the Lull of a wait on a link. -/
def waitTag (c m : Nat) : Nat := 0x10000 + linkKey c m
/-- The tag of the Lull of a late producer release (R192). -/
def lateTag (c m : Nat) : Nat := 0x20000 + linkKey c m

/-- The collective entry whose LINK_DONE is link m, if one is (R305). -/
def State.collOfLink (s : State) (k m : Nat) : Option Nat :=
  ((s.part k).colls.find? fun e => (cdesc e.2).linkDone == m && (cdesc e.2).owner).map (fun e => (cdesc e.2).coll)

/-- Is the link's producer a RECEIVE, though its release be not visible yet, or a collective's LINK_DONE (R346, R663)? -/
def State.waitable (s : State) (k c m : Nat) : Bool :=
  (s.link k c m).producer == 0x0A || decide (0 < (s.linkD k c m).outSoon) || (s.core k).receives.any fun r => r.ctx == c && r.link == m

/-- The rendezvous that governs a wait on a link of core k (R346). -/
def State.waitRv (s : State) (k c m : Nat) : Option (Nat × RvEntry) :=
  let p := s.lowest k
  if (s.link k c m).producer = 0x0A then
    match s.collOfLink p m with
    | some cl => (match s.rvOfColl p cl with | some e => some e | none => s.governing p)
    | none => s.governing p
  else s.governing p

/-- What an acquire answers: it may go on, it waits (R346), or it has faulted. -/
inductive Acq where
  | ok | wait | stop
deriving DecidableEq, Repr

/-- The consumer's acquire of its current half by engine code `eng` of stage `stage` (R183–R185, R346). -/
def State.acquireCons (s : State) (k c m eng stage : Nat) : State × Acq :=
  if (s.link k c m).consumer ≠ eng then (s.linkOwner k c m, .stop)
  else if (s.linkD k c m).consHolds then (s, .ok)
  else if s.semVal k c (2 * m) = 0 then
    if s.waitable k c m then
      (s.askStage k stage (s.waitCause (s.lowest k) (s.waitRv k c m)) (waitTag c m), .wait)
    else (s.linkFault k c (2 * m) 0x01 0, .stop)
  else
    ((s.setSem k c (2 * m) (s.semVal k c (2 * m) - 1)).modLink k c m fun d => { d with consHolds := true }, .ok)

/-- A release applied (R183, R185, R186, R667; the send path looks at its half as it shows): the pointer flips now, and the semaphore rises two
cycles later. A release from outside the core, of a RECEIVE or a collective, counts wall cycles, since a Lull waits for it; one that a consumer
waits for is seen in the next cycle (R334, R346; log entry 109). -/
def State.applyRelease (s : State) (k c m : Nat) (consumer : Bool) (outside : Bool := false) : State :=
  let d := s.linkD k c m
  let soon := if consumer then d.emptySoon else d.fullSoon
  let logical := if consumer then 2 * m + 1 else 2 * m
  if (s.link k c m).halves < s.semVal k c logical + soon + 1 then s.linkFault k c logical 0x02 1
  else
    let two := (s.link k c m).halves == 2
    let p := s.lowest k
    let waited := (s.part p).lull.any fun r => r.kind == 0 && r.tag == waitTag c m && r.core == k
    let s := s.modLink k c m fun d =>
      if consumer then { d with consHolds := false, consHalf := if two then 1 - d.consHalf else 0, emptySoon := d.emptySoon + 1 }
      else { d with prodHolds := false, prodHalf := if two then 1 - d.prodHalf else 0, fullSoon := d.fullSoon + 1,
                    outSoon := if outside then d.outSoon + 1 else d.outSoon, pendingRelease := false }
    let dom := if outside || waited then none else some p
    let n := if waited then 1 else 2
    let s := s.after dom n (.releaseVisible k c m consumer)
    if (s.link k c m).consumer = 0x0B then s.after dom n (.sendHalf k c m) else s

/-- A release becomes visible (R186); the wait of R346 on the link ends. -/
def State.releaseSeen (s : State) (k c m : Nat) (consumer : Bool) : State :=
  let logical := if consumer then 2 * m + 1 else 2 * m
  let s := s.setSem k c logical (s.semVal k c logical + 1)
  let s := s.modLink k c m fun d =>
    if consumer then { d with emptySoon := d.emptySoon - 1 } else { d with fullSoon := d.fullSoon - 1, outSoon := d.outSoon - 1 }
  if consumer then s else s.endLull (s.lowest k) 0 (waitTag c m)

/-- The cause of a late read, the first that applies (R191): 6 refetch, 5 re-key, 1 refresh, 4 the Squall cap, 0 the rest. Whether
a refresh delayed it is a free value. -/
def State.readCause (s : State) (r : Read) : Nat :=
  if r.refetch then 6 else if r.rekey then 5 else if Config.refreshDelayed (s.free + r.id) then 1
  else if r.supply || s.clk.cap then 4 else 0

/-- The variable-latency reads that write into the half a producer holds (R189, R192). -/
def State.lateReads (s : State) (k c m : Nat) : List Read :=
  let d := s.linkD k c m
  s.reads.filter fun r => r.core == k && r.ctx == c && r.link == m && r.half == d.prodHalf && (r.kind == 6 || (sdesc r.desc).src == 0)

/-- Does a write that a failing line holds up go into the half a producer holds (R192, R480)? -/
def State.heldInHalf (s : State) (k c m : Nat) : Bool :=
  let l := s.link k c m
  let h := l.half (s.linkD k c m).prodHalf
  l.space == 0 && s.heldWrites.any fun w => decide (w.1 < h + l.stride) && decide (h < w.1 + w.2.length)

/-- A producer's release (R192, R480): it waits, with a Lull, for the variable-latency writes into its half. -/
def State.releaseProd (s : State) (k c m : Nat) : State :=
  match s.lateReads k c m, s.heldInHalf k c m with
  | [], false => s.applyRelease k c m false
  | [], true => (s.modLink k c m fun d => { d with pendingRelease := true }).askStage k 6 6 (lateTag c m)
  | r :: _, _ =>
    let stage := if r.kind = 4 then 6 else 0
    (s.modLink k c m fun d => { d with pendingRelease := true }).askStage k stage (s.readCause r) (lateTag c m)

/-- Completes the release that waited on the link once no write is pending (R192). -/
def State.finishRelease (s : State) (k c m : Nat) : State :=
  if (s.linkD k c m).pendingRelease && (s.lateReads k c m).isEmpty && !s.heldInHalf k c m then
    (s.endLull (s.lowest k) 0 (lateTag c m)).applyRelease k c m false
  else s

/-- Bytes of one panel of an accumulator (R300, R661). -/
def panelBytes : Nat := 2162720

/-- Does a collective have an accumulator of panels (R299, R300)? -/
def CDesc.summed (c : CDesc) : Bool := c.kind == 1 || c.kind == 2

/-- Does a range of HBM meet an accumulator of core k's partition whose instance has been armed and is not complete (R302; log
entry 98)? -/
def State.accShut (s : State) (k addr len : Nat) : Bool :=
  let p := s.part (s.lowest k)
  p.colls.any fun e =>
    let c := cdesc e.2
    let x := SMap.get p.collDyn e.1
    c.summed && c.owner && (x.opened || x.step != 0) && !x.complete && decide (addr < c.acc + c.panels * panelBytes) &&
      decide (c.acc < addr + len)

/-- The links of a core whose halves meet `len` units at `addr` of a space (R183, R184), by number. -/
def State.linkHits (s : State) (k space arr addr len : Nat) : List Nat :=
  ((s.core k).links.filter fun e =>
    let l := e.2
    l.space == space && (space != 2 || l.array == arr) && l.halves != 0 &&
      decide (addr < l.base + l.halves * l.stride) && decide (l.base < addr + len)).map (·.1)

/-- Does a local-store range meet a ring-buffer or companion half (R64, R188)? -/
def State.halfHit (s : State) (k arr off len : Nat) : Bool :=
  let m := ((s.core k).map.arrays[arr]?).getD []
  m.zipIdx.any fun p =>
    let n := if p.2 < 2 then 2050 else 2114
    p.1 != 0xFFFF && decide (off < p.1 + n) && decide (p.1 < off + len)

/-- Does a core-store range meet the stream or vector descriptor table (R173, R212)? -/
def State.tableHit (s : State) (k off len : Nat) : Bool :=
  let m := (s.core k).map
  [m.stream, m.vector].any fun r => r.2 != 0 && decide (off < r.1 + r.2) && decide (r.1 < off + len)

/-- The other cores of the partition one of whose link halves in HBM meet `len` bytes at `addr` (R184), with the link's number. -/
def State.farHits (s : State) (k addr len : Nat) : List (Nat × Nat) :=
  (((s.partCores (s.lowest k)).filter (· != k)).flatMap fun j => (s.linkHits j 0 0 addr len).map fun h => (j, h))

/-- Do `len` units at `addr` lie within half h of a link (R183)? -/
def LinkCfg.within (l : LinkCfg) (h addr len : Nat) : Bool := decide (l.half h ≤ addr) && decide (addr + len ≤ l.half h + l.stride)

/-- HALF_OWNERSHIP of a link's half, captured under the context and the full semaphore of the link (R184, R420). -/
def State.halfRefused (s : State) (k j h : Nat) (ctx : Option Nat) (addr : Nat) : State :=
  let s := s.semFault j 2 (h / 128) (2 * (h % 128))
  match ctx with
  | some c => s.faultCtx k c 0x03 addr
  | none => s.fault k 0x03 none 0 addr

/-- The half of an array that a local-store range meets: 2 and 3 are companion halves (R64, R188). -/
def State.halfAt (s : State) (k arr off len : Nat) : Nat :=
  (((List.range 4).find? fun h =>
    let p := (((s.core k).map.arrays[arr]?).getD []).getD h 0xFFFF
    p != 0xFFFF && decide (off < p + (if h < 2 then 2050 else 2114)) && decide (p < off + len))).getD 0

/-- The number of a half's state in an event record (R154). -/
def HalfState.num : HalfState → Nat
  | .free => 0 | .filling => 1 | .held => 2 | .adding => 3 | .sending => 4 | .handoff => 5

/-- HALF_OWNERSHIP of a half: EXT names the array, the half (2 and 3 for a companion), its state and the writer: 0 ring input,
1 injection, 2 companion adder, 3 a stream or another stage, 4 a write from outside the core (R154). -/
def halfExt (A h st writer : Nat) : Nat := A + 256 * h + 65536 * st + 2 ^ 24 * writer

/-- EXT of a refused write into a ring-buffer or companion half (R154). -/
def State.halfRecord (s : State) (k arr off len writer : Nat) : Nat :=
  let A := 4 * k + arr
  let h := s.halfAt k arr off len
  let a := s.arr A
  halfExt A h (if h < 2 then SMap.get a.ring h else SMap.get a.comp (h - 2)).st.num writer

/-- May a stage write `len` units at `addr` of a space, naming link m (128 or more for none) as engine `eng`? Bounds, the protected
tables, the ring and companion halves, and the ownership of link halves, in that order: a write that meets a half must lie in the half that
the named link's producer holds or acquires now (R154, R173, R183, R184, R188, R477). -/
def State.mayWrite (s : State) (k c m eng space arr addr len : Nat) : State × Bool :=
  if space = 0 ∧ !s.inBounds (s.lowest k) addr len then (s.faultCtx k c 0x06 addr, false)
  else if space = 1 ∧ (0x2000000 < addr + len ∨ s.tableHit k addr len) then (s.faultCtx k c 0x06 addr, false)
  else if space = 2 ∧ 20480 < addr + len then (s.faultCtx k c 0x06 addr, false)
  else if space = 2 ∧ s.halfHit k arr addr len then (s.faultCtx k c 0x03 (s.halfRecord k arr addr len 3), false)
  else
    let hits := s.linkHits k space arr addr len
    let mine := fun (h : Nat) => decide (m < 128) && h == linkKey c m
    match hits.find? (fun h => !mine h), (if space = 0 then (s.farHits k addr len).head? else none) with
    | some h, _ => (s.halfRefused k k h (some c) addr, false)
    | none, some q => (s.halfRefused k q.1 q.2 (some c) addr, false)
    | none, none =>
      if hits.isEmpty then (s, true)
      else if !(s.link k c m).within (s.linkD k c m).prodHalf addr len then (s.linkOwner k c m, false)
      else s.acquireProd k c m eng

/-- May a stage write two pieces, a tile's header and its payload, each given by its address and its length in units? -/
def State.mayWrite2 (s : State) (k c m eng space arr : Nat) (x y : Nat × Nat) : State × Bool :=
  let q := s.mayWrite k c m eng space arr x.1 x.2
  if q.2 then q.1.mayWrite k c m eng space arr y.1 y.2 else q

/-- The bank offsets that bytes m to m + n − 1 of a plain byte string at bank offset B take: the first and how many (R169). -/
def plainRange (B m n : Nat) : Nat × Nat := (B + m / 1024, (m + n - 1) / 1024 + 1 - m / 1024)

/-- Bytes that a write from outside core k brings into a half of link h: the oldest RECEIVE on the link counts them, acquires the half at the
first as its engine, and releases it at the count (R663). The answer is how many of them are written: none when no RECEIVE fills the half, and
those beyond the count fall into a half that the producer no longer owns (R184). -/
def State.receiveOne (s : State) (k h addr len bytes : Nat) : State × Nat :=
  let c := h / 128
  let m := h % 128
  let l := s.link k c m
  match (s.core k).receives.find? (fun r => r.ctx == c && r.link == m) with
  | none => (s.halfRefused k k h none addr, 0)
  | some r =>
    let half := if r.acquired then r.half else (s.linkD k c m).prodHalf
    if !l.within half addr len then (s.halfRefused k k h none addr, 0)
    else
      let a := if r.acquired then (s, true) else s.acquireProd k c m r.engine
      if !a.2 then (a.1, 0)
      else
        let n := min bytes (r.target - r.count)
        let r' := { r with acquired := true, half := half, count := r.count + n }
        let s := a.1.modCore k fun co => { co with receives :=
          if r.target ≤ r'.count then co.receives.erase r else co.receives.map fun q => if q = r then r' else q }
        let s := if r.target ≤ r'.count then s.applyRelease k c m false true else s
        (if n < bytes then s.halfRefused k k h none (addr + n) else s, n)

/-- Bytes written from outside core k at `addr` of a space, counted by the RECEIVEs whose halves they meet (R184, R663): how many of them are
written. -/
def State.receiveCount (s : State) (k space arr addr len bytes : Nat) : State × Nat :=
  let hits := (if space = 0 then [0, 1, 2, 3] else [k]).flatMap fun j => (s.linkHits j space arr addr len).map fun h => (j, h)
  hits.foldl (fun (p : State × Nat) q =>
    let r := p.1.receiveOne q.1 q.2 addr len bytes
    (r.1, min p.2 r.2)) (s, bytes)

/-- May a write from outside core k reach `len` units at `addr` of a space: not into the descriptor tables, nor into a ring-buffer or companion
half (R154, R166, R173, R188)? -/
def State.outsideMay (s : State) (k space arr addr len : Nat) (ctx : Option (Nat × Nat × Nat)) : State × Bool :=
  let f := fun (s : State) (code ext : Nat) => match ctx with
    | some (j, c, i) => s.fault j code (some c) i ext
    | none => s.fault k code none 0 ext
  if space = 1 ∧ (0x2000000 < addr + len ∨ s.tableHit k addr len) then (f s 0x06 addr, false)
  else if space = 2 ∧ 20480 < addr + len then (f s 0x06 addr, false)
  else if space = 2 ∧ s.halfHit k arr addr len then (f s 0x03 (s.halfRecord k arr addr len 4), false)
  else (s, true)

/-- Writes bytes m0 on of a plain string from outside core k into one of its spaces at `addr`, as far as the halves there take them (R154,
R169, R392, R663). The answer says whether all of them were written. -/
def State.placeOutside (s : State) (k space arr addr m0 : Nat) (bs : List Nat) (ctx : Option (Nat × Nat × Nat)) : State × Bool :=
  let g := if space = 2 then plainRange addr m0 bs.length else (addr + m0, bs.length)
  let o := s.outsideMay k space arr g.1 g.2 ctx
  if !o.2 then (o.1, false)
  else
    let q := o.1.receiveCount k space arr g.1 g.2 bs.length
    let bs' := bs.take q.2
    (if space = 0 then q.1.hbmWrite (addr + m0) bs' else if space = 1 then q.1.storeWrite k (addr + m0) bs'
      else q.1.plainAt (4 * k + arr) addr m0 bs', q.2 == bs.length)

/-- RELEASE (R183, R192). -/
def execRelease (k c link : Nat) (consumer : Bool) (s : State) : Out :=
  .next (if consumer then s.applyRelease k c link true else s.releaseProd k c link)

end Sys2Proof.Machine
end

