-- ==== Sys2Proof/Machine/Memory.lean ====
section
/-! DEFINITION. The checks on memory and the start and end of a recovery: counters, the captured error, correctable and
uncorrectable outcomes (R479–R494, R510). -/
namespace Sys2Proof.Machine

/-- The stack whose MEM registers hold an error: the address's own, or S2k for SRAM of core k (R510). -/
def errStack (core space addr : Nat) : Nat := if space = 0 then addr / 2 ^ 36 else 2 * core

/-- Captures an error in MEM_ERR_INFO and MEM_ERR_ADDR (R510). -/
def State.captureErr (s : State) (core space arr addr check method : Nat) : State :=
  let st := errStack core space addr
  let s := s.bumpF (rMemErrInfo st) 47 32 1
  if s.fld (rMemErrInfo st) 63 63 = 1 then s
  else
    let s := s.setFld (rMemErrInfo st) 63 63 1
    let s := s.setFld (rMemErrInfo st) 62 60 check
    let s := s.setFld (rMemErrInfo st) 59 57 method
    let s := s.setFld (rMemErrInfo st) 56 55 space
    let s := s.setFld (rMemErrInfo st) 54 52 (if space = 2 then arr else 0)
    s.setReg (rMemErrAddr st) (BitVec.ofNat 64 (addr % 2 ^ 40))

/-- An error put right (R490): counted, captured, and MEM_CORRECTED raised with the check and the method in DETAIL and the
address in EXT. -/
def State.corrected (s : State) (core space arr addr check method : Nat) : State :=
  let st := errStack core space addr
  let s := s.bump (if method = 0 then rMemRetryOk st else rMemRecovered st) 1
  let s := s.captureErr core space arr addr check method
  if space = 0 then s.eventStack st 0x0101 (check + 8 * method) addr else s.eventCore core 0x0101 (check + 8 * method) addr

/-- The number under which `State.supplied` keeps a tile: core k's tiles in its core store under k, those in HBM under 4 + k (R493). -/
def suppliedKey (core space : Nat) : Nat := if space = 0 then 4 + core else core

/-- DETAIL of MEM_UNCORRECTABLE: the check, the recovery entry's kind and the reason: 0 no entry covers the address, 1 the entry's kind is NONE,
2 the source fails, 3 no source may put the place right (R492, R493; log entry 96). -/
def uncorrDetail (r : Recovery) (reason : Nat) : Nat := r.check + 8 * fieldAt r.entry 0 1 + 64 * reason

/-- An uncorrectable error (R107, R377, R492, R493, R504, R593): counted and captured; patrol raises MEM_PATROL_UNCORR, a host read
HOST_READ_POISONED, and any other stops the partition with MEM_UNCORRECTABLE, and with TILE_CHECKSUM when a tile's checksum has failed. -/
def State.uncorrectable (s : State) (r : Recovery) (reason : Nat := 3) : State :=
  let st := errStack r.core r.space r.addr
  let s := s.bump (rMemUncorr st) 1
  let s := s.captureErr r.core r.space r.array r.addr (if r.patrol then 4 else r.check) 4
  let d := uncorrDetail r reason
  if r.patrol then s.eventStack st 0x0105 d r.addr
  else match r.host with
    | some h =>
      if r.write.isSome then
        s.raise { code := 0x10, sev := 3, source := 18 + h, part := (s.stackPart st).getD 0xFF, detail := d, ext := r.addr }
      else (s.raise { code := 0x010A, source := 18 + h, part := (s.stackPart st).getD 0xFF, detail := d, ext := r.addr }).out (.poisoned h)
    | none =>
      let s := s.fault r.core 0x10 none 0 r.addr d
      if r.check = 2 then s.fault r.core 0x05 none 0 r.addr else s

/-- Is a recovery of the same place under way (R489)? -/
def State.samePlace (s : State) (core space arr addr len : Nat) : Option Recovery :=
  s.recoveries.find? fun r => r.space == space && (space == 0 || r.core == core) && r.array == arr && decide (addr < r.addr + r.len) && decide (r.addr < addr + len)

/-- SRAM_HARD, where an SRAM byte fails parity again within the step in which a recovery wrote it back (R499). A place is the range of the
failing read, as in `State.samePlace`. -/
def State.sramHard (s : State) (core space arr addr len check : Nat) : State :=
  if check = 1 ∧ (s.writtenBack.any fun p => p.core == core && p.space == space && p.array == arr && decide (addr < p.addr + p.len) &&
      decide (p.addr < addr + len)) then s.eventCore core 0x0108 0 addr
  else s

/-- A failing line CRC or byte parity, counted (R489, R510). -/
def State.countCheck (s : State) (core space addr check : Nat) : State :=
  if check = 1 then s.bump (rMemSramParity core) 1
  else if check = 0 then s.bump (rMemCrcFail (errStack core space addr)) 1 else s

/-- A failed check begins a recovery, or joins the one under way at the place, where a host's access is tried again until it has ended (R483,
R489); the failure is counted once.
One that comes back after a write-back raises SRAM_HARD and the recovery goes on (R499). The waiting reader's wait is charged to
LULL_REFETCH (R191). The retry is taken to land at its bound and to pass, unless it is said before that it fails. -/
def State.beginRecovery (s : State) (core space arr addr len check : Nat) (waiter : Option Nat) (patrol : Bool)
    (host : Option Nat) (write : Option (Nat × List Nat)) (hdr : Option Nat := none) (read : Option (Nat × Nat) := none)
    (key : Nat := 0) : State :=
  let s := match waiter with
    | some w => { s with reads := s.reads.map fun (r : Read) => if r.id = w then { r with refetch := true } else r }
    | none => s
  match s.samePlace core space arr addr len with
  | some q =>
    let s : State := { s with recoveries := s.recoveries.map fun (r : Recovery) =>
      if r.id = q.id then { r with waiters := r.waiters ++ waiter.toList, patrol := r.patrol && patrol } else r }
    match host, read, write with
    | some h, some (off, n), _ => s.laterW 1 (.bar2Read h off n false)
    | some h, _, some (off, bs) => s.laterW 1 (.bar2Write h off bs)
    | _, _, _ => s
  | none =>
    let s := s.countCheck core space addr check
    let s := s.sramHard core space arr addr len check
    let f := s.fresh
    let s := f.2.laterW (if space = 0 then 140 else 4) (.retryLands f.1 true)
    { s with recoveries := s.recoveries ++ [{ id := f.1, core := core, space := space, array := arr, addr := addr, len := len,
                                                  check := check, waiters := waiter.toList, patrol := patrol, host := host,
                                                  write := write, hdr := hdr, key := key,
                                                  read := read }] }

/-- Does any line of an HBM range hold a failing check (R480)? -/
def State.hbmBad (s : State) (a n : Nat) : Bool :=
  s.badLine.any fun p => decide (a / 256 ≤ p.1) && decide (p.1 ≤ (a + n - 1) / 256)

/-- The first failing line's address in a range, or the range's first line. -/
def State.badAddr (s : State) (a n : Nat) : Nat :=
  match s.badLine.find? (fun p => decide (a / 256 ≤ p.1) && decide (p.1 ≤ (a + n - 1) / 256)) with
  | some p => p.1 * 256
  | none => a / 256 * 256

/-- Recovery of the lines that hold up a write, where none is under way yet (R480). -/
def State.serveHeld (s : State) : State :=
  s.heldWrites.foldl (fun s w =>
    let a := w.1 / 256 * 256
    if (s.samePlace 0 0 0 a 256).isSome then s else s.beginRecovery (a / 2 ^ 36 / 2) 0 0 a 256 0 none false none none) s

/-- The releases that waited for held writes complete (R192, R480). -/
def State.finishReleases (s : State) : State :=
  (List.range 4).foldl (fun s k =>
    ((s.core k).linkDyn.filter fun e => e.2.pendingRelease).foldl (fun s e => s.finishRelease k (e.1 / 128) (e.1 % 128)) s) s

/-- The held writes whose line has its good data again are merged into it, and the releases that waited for them complete (R480). -/
def State.applyHeld (s : State) : State :=
  let ready := s.heldWrites.filter fun w => !s.hbmBad w.1 w.2.length
  let s : State := { s with heldWrites := s.heldWrites.filter fun w => s.hbmBad w.1 w.2.length }
  if ready.isEmpty then s else (ready.foldl (fun s w => s.hbmWrite w.1 w.2) s).finishReleases

/-- The held writes into a range that cannot be recovered are not performed (R480, R492). -/
def State.dropHeld (s : State) (a n : Nat) : State :=
  if s.heldWrites.isEmpty then s
  else ({ s with heldWrites := s.heldWrites.filter fun w => !(decide (w.1 < a + n) && decide (a < w.1 + w.2.length)) } : State).finishReleases

/-- The place of a core's recovery table (R476). -/
def recoveryBase (core : Nat) : Nat := 2 * core * 2 ^ 36 + 0xFBF040000

/-- The recovery entry of a core that covers an address: the first in index order (R484). -/
def State.recoveryEntry (s : State) (core space arr addr : Nat) : Option (List Nat) :=
  ((List.range 512).map fun i => s.hbmRead (recoveryBase core + 32 * i) 32).find? fun e =>
    fieldAt e 1 1 == space && (space != 2 || fieldAt e 2 1 == arr) && decide (fieldAt e 4 5 ≤ addr) &&
      decide (addr < fieldAt e 4 5 + fieldAt e 9 4)

end Sys2Proof.Machine
end

