-- ==== Sys2Proof/Machine/Maintenance.lean ====
section
/-! DEFINITION. The maintenance arbiter: scopes, the matrix of R508, grants and refusals; patrol scrub, recalibration and the line remap
(R495–R498, R504–R509). -/
namespace Sys2Proof.Machine

/-- The stacks in the scope of an activity: its own, or those of its partition (R506). -/
def State.maintStacks (s : State) (act scope : Nat) : List Nat :=
  if act = 5 then [] else if act < 5 then [scope] else (s.partCores scope).flatMap fun j => [2 * j, 2 * j + 1]

/-- The link ports in the scope of an activity (R506). -/
def State.maintPorts (s : State) (act scope : Nat) : List Nat :=
  if act = 5 then [scope] else if act < 5 then [] else maskList 6 (s.fld (rZenPart scope) 53 48)

/-- Do the scopes of two activities overlap (R507)? -/
def State.maintMeets (s : State) (a sa b sb : Nat) : Bool :=
  (s.maintStacks a sa).any (fun x => (s.maintStacks b sb).contains x) || (s.maintPorts a sa).any (fun x => (s.maintPorts b sb).contains x)

/-- The matrix of R508, by request and running activity, with a running step in column 7: 0 refuses, 1 runs both, 2 pauses patrol. -/
def maintMatrix : List (List Nat) :=
  [[0, 1, 1, 0, 1, 1, 0, 1],
   [1, 0, 1, 0, 1, 1, 0, 1],
   [1, 1, 0, 0, 1, 1, 0, 1],
   [2, 0, 0, 0, 1, 0, 0, 0],
   [1, 1, 1, 1, 0, 1, 0, 0],
   [1, 1, 1, 0, 1, 0, 0, 1],
   [2, 0, 0, 0, 0, 0, 0, 0]]

/-- The answer of the matrix to a request beside running work. -/
def maintRule (req run : Nat) : Nat := (maintMatrix.getD (req - 1) []).getD (run - 1) 0

/-- The partition that an activity's scope lies in, if one does. -/
def State.maintPart (s : State) (act scope : Nat) : Option Nat :=
  if act = 5 then s.portPart scope else if act < 5 then s.stackPart scope else some scope

/-- Is a step running in a partition (R507)? -/
def State.stepping (s : State) (k : Nat) : Bool := (s.part k).running || (s.part k).starting

/-- What refuses a request: an activity's code, or 0 for a running step, which has none (R507, R508). -/
def State.maintConflict (s : State) (act scope : Nat) : Option Nat :=
  match s.maint.find? (fun m => s.maintMeets act scope m.act m.scope && maintRule act m.act == 0) with
  | some m => some m.act
  | none =>
    match s.maintPart act scope with
    | some k => if s.stepping k && maintRule act 8 == 0 then some 0 else none
    | none => none

/-- MEM_MAINT.RUNNING and MEM_PATROL follow the running activities of every stack (R510). -/
def State.showMaint (s : State) : State :=
  (List.range 8).foldl (fun s st =>
    let ms := s.maint.filter fun m => (s.maintStacks m.act m.scope).contains st
    let bits := (List.range 7).foldl (fun n a => if ms.any (fun m => m.act == a + 1) then n + 2 ^ a else n) 0
    let s := s.setFld (rMemMaint st) 6 0 bits
    let s := s.setFld (rMemPatrol st) 63 63 (if ms.any (fun m => m.act == 1) then 1 else 0)
    s.setFld (rMemPatrol st) 62 62 (if ms.any (fun m => m.act == 1 && m.paused) then 1 else 0)) s

/-- A request granted: the activity runs, and patrol pauses where the matrix says so (R507, R508). -/
def State.maintGrant (s : State) (act scope : Nat) : State :=
  let ms := s.maint.map fun (m : Maint) => if s.maintMeets act scope m.act m.scope && maintRule act m.act == 2 then { m with paused := true } else m
  ({ s with maint := ms ++ [{ act := act, scope := scope }] } : State).showMaint

/-- An activity has ended; a patrol that nothing pauses any more goes on at its pointer (R508, R561). -/
def State.maintEnd (s : State) (act scope : Nat) : State :=
  let ms := s.maint.filter fun (m : Maint) => !(m.act == act && m.scope == scope)
  let held := fun (p : Maint) => s.pwr.pausedPatrol || ms.any fun m => s.maintMeets m.act m.scope p.act p.scope && maintRule m.act p.act == 2
  ({ s with maint := ms.map fun (m : Maint) => if m.act = 1 then { m with paused := held m } else m } : State).showMaint

/-- A request refused: MEM_MAINT names it and what it met, on each stack of its scope (R507, R510). -/
def State.maintRefuse (s : State) (act scope conflict : Nat) : State :=
  (s.maintStacks act scope).foldl (fun s st => (s.setFld (rMemMaint st) 19 16 act).setFld (rMemMaint st) 23 20 conflict) s

/-- The remap entry of a line, if it has one (R495). -/
def State.remapOf (s : State) (st line : Nat) : Option Nat :=
  (List.range 16).find? fun e => s.fld (rMemRemap st e) 63 63 == 1 && s.fld (rMemRemap st e) 27 0 == line

/-- A line remapped into the next spare: the entry is valid, counted in REMAP_USED and recorded in the firmware store (R495, R496,
R498). None when all 16 entries are in use. -/
def State.remapLine (s : State) (st line : Nat) : Option State :=
  match s.remapOf st line with
  | some _ => some s
  | none =>
    let n := s.fld (rMemStatus st) 4 0
    if 16 ≤ n then none
    else
      let s := (s.setReg (rMemRemap st n) (BitVec.ofNat 64 (2 ^ 63 + line % 2 ^ 28))).setFld (rMemStatus st) 4 0 (n + 1)
      some { s with zen := { s.zen with remaps := SMap.mod s.zen.remaps st fun (l : List Nat) => l ++ [line] },
                    badLine := SMap.erase s.badLine (st * 2 ^ 28 + line) }

/-- REMAP_UPDATE (R496–R498): the line's good contents move into a spare and the entry becomes valid; with all 16 entries in use,
MEM_REMAP_FULL. A line whose check fails is recovered first. -/
def execRemapUpdate (st line : Nat) (s : State) : Out :=
  let a := st * 2 ^ 36 + line * 256
  if s.hbmBad a 256 then
    let s := s.beginRecovery (st / 2) 0 0 a 256 0 none false none none
    .next { s with recoveries := s.recoveries.map fun (r : Recovery) =>
      if r.space = 0 ∧ r.addr < a + 256 ∧ a < r.addr + r.len then { r with remap := true } else r }
  else
    let s := s.maintEnd 2 st
    match s.remapLine st line with
    | none => .next (s.eventStack st 0x0103 0 a)
    | some s => .next (s.eventStack st 0x0102 0 a)

/-- A remap asked for by a failed verify read: granted and begun with the good data that the controller holds, or deferred with
MEM_REMAP_DEFERRED (R491, R496, R497, R507). -/
def State.askRemap (s : State) (st line : Nat) : State :=
  match s.maintConflict 2 st with
  | some c => (s.maintRefuse 2 st c).eventStack st 0x0104 0 (st * 2 ^ 36 + line * 256)
  | none =>
    let s := s.maintGrant 2 st
    ({ s with badLine := SMap.erase s.badLine (st * 2 ^ 28 + line) } : State).laterW 0 (.remapUpdate st line)

/-- May host port h ask for an activity on a scope: is it an activity the host starts, and is the scope its own (R506, R515)? -/
def State.maintAllowed (s : State) (h act scope : Nat) : Bool :=
  (1 ≤ act && act ≤ 4 && scope < 8 && (match s.stackPart scope with | some k => s.owner k == h | none => false)) ||
    (act == 5 && scope < 6 && (match s.portPart scope with | some k => s.owner k == h | none => true))

/-- MAINTENANCE_REQUEST (R496, R505–R508): the host's request for an activity on a stack or a port. -/
def execMaintenanceRequest (h act scope line : Nat) (s : State) : Out :=
  if !s.maintAllowed h act scope then .next s
  else if act == 3 && (match s.stackPart scope with | some k => s.conf k | none => false) then .next (s.maintRefuse 3 scope 0)
  else match s.maintConflict act scope with
    | some c => .next (s.maintRefuse act scope c)
    | none =>
      let s := s.maintGrant act scope
      .next (if act = 2 then s.laterW 0 (.remapUpdate scope line) else if act = 5 then s.laterW 0 (.linkReset scope) else s)

/-- RECALIBRATION_DONE (R505, R508). -/
def execRecalibrationDone (st : Nat) (s : State) : Out := .next (s.maintEnd 4 st)

/-- MEM_RECAL_DUE (R505). -/
def execMemRecalDue (st : Nat) (s : State) : Out :=
  .next ((s.setFld (rMemStatus st) 62 62 1).eventStack st 0x0106 0 0)

/-- The lines that patrol reads: the usable space and the reserved area of a stack (R504, R475). -/
def patrolLines : Nat := 67645734912 / 256

/-- Is patrol scrub granted, not paused and not between two sweeps on a stack (R504, R508)? -/
def State.patrolling (s : State) (st : Nat) : Bool :=
  (s.maint.any fun m => m.act == 1 && m.scope == st && !m.paused) && !(s.agenda.any fun d => d.act == .cmd (.patrolSweepStart st))

/-- PATROL_LINE_READ (R504): the next line in address order; a failing one is recovered under R483. The end of the sweep is counted, and the
next begins INTERVAL seconds later. -/
def execPatrolLineRead (st : Nat) (bad : Bool) (s : State) : Out :=
  if !s.patrolling st then .next s
  else
    let n := s.fld (rMemPatrol st) 27 0
    let a := st * 2 ^ 36 + 256 * n
    let s := if bad || s.hbmBad a 256 then s.beginRecovery (st / 2) 0 0 a 256 0 none true none none else s
    if n + 1 < patrolLines then .next (s.setFld (rMemPatrol st) 27 0 (n + 1))
    else
      let s := (s.setFld (rMemPatrol st) 27 0 0).bump (rMemPatrolSweeps st) 1
      .next (s.laterW (s.fld (rMemPatrol st) 47 32 * 700000000) (.patrolSweepStart st))

/-- PATROL_SWEEP_START (R504): a new sweep from the first line. -/
def execPatrolSweepStart (st : Nat) (s : State) : Out :=
  .next (if s.maint.any (fun m => m.act == 1 && m.scope == st) then s.setFld (rMemPatrol st) 27 0 0 else s)

end Sys2Proof.Machine
end

