-- ==== Sys2Proof/Machine/Streams.lean ====
section
/-! DEFINITION. The stream engines: starting a descriptor, its issues, the convert stage and the skew writer, variable-latency
reads and their landing, persistent slots and re-arming (R164–R199, R387, R661, R663). -/
namespace Sys2Proof.Machine

/-- The counts of a conversion added to the core's registers (R98, R121, R127, R131). -/
def State.countConv (s : State) (k : Nat) (c : Converted) : State :=
  (((s.bump (rStrConvSat k) c.sat).bump (rStrConvNan k) c.nan).bump (rStrConvPattern k) c.pattern).bump (rStrScaleClamp k) c.clamp

/-- Writes one element code of `w` bits at position `pos` of a bank's row that starts at offset `off`. -/
def State.putElem (s : State) (A bank off w pos code : Nat) : State :=
  if w = 4 then
    let a := off + pos / 2
    let old := (s.bankRead A bank a 1).headD 0
    s.bankWrite A bank a [if pos % 2 = 0 then old / 16 * 16 + code % 16 else old % 16 + code % 16 * 16]
  else s.bankWrite A bank (off + w / 8 * pos) (leBytes (w / 8) code)

/-- Reads one element code of `w` bits at position `pos` of a bank's row. -/
def State.getElem (s : State) (A bank off w pos : Nat) : Nat :=
  if w = 4 then
    let b := (s.bankRead A bank (off + pos / 2) 1).headD 0
    if pos % 2 = 0 then b % 16 else b / 16
  else leNat (s.bankRead A bank (off + w / 8 * pos) (w / 8))

/-- The skew writer's placing of tile t's header: two bytes a bank after the row of a panel block at bank offset B (R179). -/
def State.skewHdr (s : State) (A B w t : Nat) (hdr : List Nat) : State :=
  hdr.zipIdx.foldl (fun s p => s.bankWrite A (16 * t + p.2 / 2) (B + 128 * w + p.2 % 2) [p.1]) s

/-- The skew writer's placing of tile t of a panel block at bank offset B: element (i, k) at position (k + i) mod 1,024 of bank i,
and the header two bytes a bank after the row (R179, R181). -/
def State.skewWrite (s : State) (A B w t : Nat) (hdr elems : List Nat) : State :=
  let s := elems.zipIdx.foldl (fun s p =>
    let i := 128 * (t / 8) + p.2 / 128
    let k := 128 * (t % 8) + p.2 % 128
    s.putElem A i B w ((k + i) % 1024) p.1) s
  s.skewHdr A B w t hdr

/-- The base of a descriptor's source side: its active base, moved to the half its consumer side reads (R171, R183, R195). -/
def State.srcBaseOf (s : State) (k c : Nat) (d : SDesc) : Nat :=
  let b := if d.persist then (SMap.get (s.core k).active d.slot).1 else d.srcBase
  if d.srcBuf then b + (s.linkD k c d.linkIn).consHalf * d.stride else b

/-- The base of a descriptor's destination side (R171, R183, R195). -/
def State.dstBaseOf (s : State) (k c : Nat) (d : SDesc) (half : Nat) : Nat :=
  let b := if d.persist then (SMap.get (s.core k).active d.slot).2 else d.dstBase
  if d.dstBuf then b + half * d.stride else b

/-- The local-store range that the destination of a FEED, a STORE or a RECEIVE takes at its start, in every bank (R166, R169, R179, R188). -/
def State.localRange (s : State) (k c : Nat) (d : SDesc) : Nat × Nat :=
  let base := s.dstBaseOf k c d (s.linkD k c d.linkOut).prodHalf
  if d.kind = 7 then (base, max 1 (s.link k c d.linkOut).stride)
  else if d.skew then (base, d.panels * (128 * elemBits d.target + 2))
  else
    let p := d.place 0
    plainRange base (d.groupOff d.target p.1 p.2.1) (groupBytes d.target)

/-- HALF_OWNERSHIP at the start of a descriptor whose local-store destination lies in a ring-buffer or companion half (R166, R188): EXT, if it
does. -/
def State.namesHalf (s : State) (k c : Nat) (d : SDesc) : Option Nat :=
  if d.dst = 2 then
    let g := s.localRange k c d
    if s.halfHit k d.dstArray g.1 g.2 then some (s.halfRecord k d.dstArray g.1 g.2 3) else none
  else none

/-- Starts an engine on a descriptor (R166, R167, R175, R188): a busy engine raises the busy-stage fault and does not start, and a descriptor
that names a ring-buffer or companion half raises HALF_OWNERSHIP. -/
def State.startEngine (s : State) (k c e idx : Nat) (back : Bool) : State :=
  let en := SMap.get (s.core k).engines e
  let d := s.streamDesc k idx
  if en.running || decide (s.cyc k < en.busyUntil) then s.faultCtx k c 0x0A e
  else match s.namesHalf k c (sdesc d) with
  | some x => s.faultCtx k c 0x03 x
  | none =>
    let en' : Engine := { running := true, desc := d, index := idx, ctx := c, instr := (s.ctx k c).cmdIndex, back := back,
                          step := s.stepOf k, srcBase := s.srcBaseOf k c (sdesc d) }
    (s.modCore k fun co => { co with engines := SMap.set co.engines e en' }).later k 0 (.streamIssue k e false)

/-- Ends an engine's descriptor after its last issue: it stays busy for INTERVAL cycles more (R175). -/
def State.stopEngine (s : State) (k e interval : Nat) : State :=
  let now := s.cyc k
  s.modCore k fun co => { co with engines := SMap.mod co.engines e fun en =>
    { en with running := false, busyUntil := now + interval, transfer := none } }

/-- Moves an engine on to its next issue, or ends its descriptor (R174, R175). -/
def State.nextIssue (s : State) (k e total interval : Nat) : State :=
  let en := SMap.get (s.core k).engines e
  if en.issue + 1 < total then
    (s.modCore k fun co => { co with engines := SMap.mod co.engines e fun en => { en with issue := en.issue + 1 } }).later k interval
      (.streamIssue k e false)
  else s.stopEngine k e interval

/-- Source ranges (address, length) of a unit: header block or tile payload, or the parts of a BFP16 panel buffer (R176, R177,
R661). -/
def SDesc.srcRanges (d : SDesc) (base n : Nat) : List (Nat × Nat) :=
  let p := d.place n
  let g := base + d.groupOff d.srcFormat p.1 p.2.1
  if d.srcFormat = fcBFP16 then
    if p.2.2 = 0 then [(g, 32)] else (bfpUnit (p.2.2 - 1)).map fun q => (g + q.1, q.2)
  else if p.2.2 = 0 then [(g, 2048)]
  else [(g + 2048 + (p.2.2 - 1) * tileBytes d.srcFormat, tileBytes d.srcFormat)]

/-- Bytes of a range of a stream's source space. -/
def State.spaceRead (s : State) (k space a n : Nat) : List Nat := if space = 0 then s.hbmRead a n else s.storeRead k a n

/-- All bytes of a unit from its source. -/
def State.unitBytes (s : State) (k : Nat) (d : SDesc) (base n : Nat) : List Nat :=
  (d.srcRanges base n).flatMap fun r => s.spaceRead k d.src r.1 r.2

/-- The header that belongs to tile t of a unit's panel, from its source. -/
def State.unitHeader (s : State) (k : Nat) (d : SDesc) (base n : Nat) : List Nat :=
  let p := d.place n
  let g := base + d.groupOff d.srcFormat p.1 p.2.1
  if d.srcFormat = fcBFP16 then s.spaceRead k d.src g 32 else s.spaceRead k d.src (g + 32 * (p.2.2 - 1)) 32

/-- The number of the link that a descriptor's destination side names, 255 for none (R171). -/
def SDesc.outLink (d : SDesc) : Nat := if d.dstBuf then d.linkOut else 255

/-- Writes a unit of a FETCH at its destination from `base`, in the layout of SRC_FORMAT (R172, R176). -/
def State.fetchWrite (s : State) (k c e base : Nat) (d : SDesc) (n : Nat) (bs : List Nat) : State :=
  let dd := { d with src := d.dst }
  ((dd.srcRanges base n).foldl (fun (p : State × Bool × List Nat) r =>
    let w := if p.2.1 then p.1.mayWrite k c d.outLink e d.dst 0 r.1 r.2 else (p.1, false)
    let piece := p.2.2.take r.2
    let s := if !w.2 then w.1 else if d.dst = 0 then (w.1.hbmWrite r.1 piece).shared r.2 else w.1.storeWrite k r.1 piece
    (s, w.2, p.2.2.drop r.2)) (s, true, bs)).1

/-- A converted tile put at its destination, its header sealed with its key (R106, R177, R179, R181). -/
def State.feedPlace (s : State) (k base : Nat) (d : SDesc) (n key : Nat) (cv : Converted) : State :=
  let p := d.place n
  let t := p.2.2 - 1
  let w := elemBits cv.hdr.format
  let payload := packElems w cv.elems
  let hdr := sealHdr key cv.hdr payload
  let A := 4 * k + d.dstArray
  let m := d.groupOff d.target p.1 p.2.1
  if d.dst = 2 ∧ d.skew then s.skewWrite A (base + n / 65 * (128 * w + 2)) w t hdr cv.elems
  else if d.dst = 2 then (s.plainAt A base (m + 32 * t) hdr).plainAt A base (m + 2048 + t * tileBytes d.target) payload
  else (s.storeWrite k (base + m + 32 * t) hdr).storeWrite k (base + m + 2048 + t * tileBytes d.target) payload

/-- Writes a converted tile of a FEED or a STORE, header and payload, at its destination from `base` (R172, R173, R184, R188). -/
def State.feedWrite (s : State) (k c e base : Nat) (d : SDesc) (n key : Nat) (cv : Converted) : State :=
  let p := d.place n
  let t := p.2.2 - 1
  let w := elemBits cv.hdr.format
  let m := d.groupOff d.target p.1 p.2.1
  let b := m + 2048 + t * tileBytes d.target
  let q :=
    if d.dst = 2 ∧ d.skew then s.mayWrite k c d.outLink e 2 d.dstArray (base + n / 65 * (128 * w + 2)) (128 * w + 2)
    else if d.dst = 2 then
      s.mayWrite2 k c d.outLink e 2 d.dstArray (plainRange base (m + 32 * t) 32) (plainRange base b (tileBytes d.target))
    else s.mayWrite2 k c d.outLink e 1 0 (base + m + 32 * t, 32) (base + b, tileBytes d.target)
  if q.2 then q.1.feedPlace k base d n key cv else q.1

/-- The BFP16 panel header's bytes 0 to 23 as an accumulator carries them (R300). -/
def accHeader24 : List Nat := { format := fcBFP16, rows := 1023, cols := 1023 : TileHdr }.bytes

/-- The blocks of a BFP16 unit. -/
def blocksOf (bs : List Nat) : List BfpBlock := (chunksOf 66 bs.length bs).map BfpBlock.ofBytes

/-- What a FEED makes of a BFP16 unit: the panel header's FORMAT and SCALE and the blocks' residues checked, blocks moved or widened to FP32
(R102, R128, R300, R661). -/
def State.bfpFeed (s : State) (k c e base : Nat) (d : SDesc) (n key : Nat) (bs : List Nat) : State :=
  let p := d.place n
  if p.2.2 = 0 then
    if fieldAt bs 0 1 != fcBFP16 || (TileHdr.ofBytes bs).scale != 0 then s.faultCtx k c 0x04 0
    else if d.target = fcBFP16 then s.fetchWrite k c e base { d with srcFormat := fcBFP16 } n bs else s
  else
    let blocks := blocksOf bs
    if !(blocks.all BfpBlock.ok) then s.faultCtx k c 0x11 0
    else if d.target = fcBFP16 then s.fetchWrite k c e base { d with srcFormat := fcBFP16 } n bs
    else if d.target = fcFP32 then
      let es := blocks.flatMap fun b => (List.range 32).map fun i => toF32 (b.val i)
      s.feedWrite k c e base d n key { hdr := { format := fcFP32 }, elems := es }
    else s.faultCtx k c 0x04 0

/-- A read's data taken where it lands (R190, R192): raw for a FETCH, through the convert stage for a FEED. A checksum failure
begins the recovery of the tile, or is uncorrectable when a source has supplied it already (R107, R483, R493). -/
def State.deliverUnit (s : State) (r : Read) : State :=
  let d := sdesc r.desc
  let k := r.core
  let p := d.place r.unit
  if r.kind = 1 then s.fetchWrite k r.ctx r.engine r.dstBase d r.unit (s.unitBytes k d r.src r.unit)
  else if d.srcFormat = fcBFP16 then s.bfpFeed k r.ctx r.engine r.dstBase d r.unit r.key (s.unitBytes k d r.src r.unit)
  else if p.2.2 = 0 then s
  else
    match convertTile r.key d.srcFormat d.format (d.dst == 2) (fun i => s.expDesc k (d.expBase + i))
        (s.unitHeader k d r.src r.unit) (s.unitBytes k d r.src r.unit) with
    | .ok cv => (s.countConv k cv).feedWrite k r.ctx r.engine r.dstBase d r.unit r.key cv
    | .error .format => s.fault k 0x04 (some r.ctx) r.instr p.2.2
    | .error .checksum => s

/-- Does a read's data fail the tile checksum (R107)? -/
def State.readChecksumBad (s : State) (r : Read) : Bool :=
  let d := sdesc r.desc
  let p := d.place r.unit
  r.kind == 2 && d.srcFormat != fcBFP16 && p.2.2 != 0 &&
    !checksumOk r.key (s.unitHeader r.core d r.src r.unit) (s.unitBytes r.core d r.src r.unit)

/-- The last write of a read's half done: the release that waited for it completes (R192). -/
def State.readDone (s : State) (r : Read) : State :=
  let s : State := { s with reads := s.reads.filter fun q => q.id != r.id }
  if r.link < 128 then s.finishRelease r.core r.ctx r.link else s

/-- A feeder-queue place with the bytes of depth entry e: they enter when the place is free, and wait for it otherwise (R59, R61; log entry
72). -/
def FeederEntry.put (x : FeederEntry) (e fmt : Nat) (scale : Int) (bs : List Nat) : FeederEntry :=
  let x := { x with pending := SMap.set x.pending e none }
  if x.data.isNone then { x with entry := e, fmt := fmt, scale := scale, data := some bs }
  else { x with waiting := x.waiting ++ [(e, fmt, scale, bs)] }

/-- Writes a feeder-queue row from byte position `pos` of row `row` (R59): entries of 64 bytes, in the circle of 16 (R61), with the format (0
for raw bytes) and the scale of the tile they come from. -/
def State.feederWrite (s : State) (k row pos : Nat) (bs : List Nat) (fmt : Nat := 0) (scale : Int := 0) : State :=
  s.modCore k fun co =>
    { co with feeder := (chunksOf 64 bs.length bs).zipIdx.foldl (fun f p =>
        let e := pos / 64 + p.2
        SMap.mod f (16 * row + e % 16) fun x => x.put e fmt scale p.1) co.feeder }

/-- The entries of a row of the feeder queue marked as waiting for a write (R62). -/
def State.feederPending (s : State) (k row n id : Nat) : State :=
  s.modCore k fun co =>
    { co with feeder := (List.range (ceilDiv n 64)).foldl (fun q j =>
        SMap.mod q (16 * row + j % 16) fun (x : FeederEntry) => { x with pending := SMap.set x.pending j (some id) }) co.feeder }

/-- A gathered row's bytes delivered into the lead array's feeder queue; the Lull that waited for it ends (R59, R62). -/
def State.gatherDeliver (s : State) (k row : Nat) (bs : List Nat) : State :=
  (s.feederWrite k row 0 bs).endLull (s.lowest k) 0 (0x30000 + k)

/-- Where the header of a read's tile stands in its source. -/
def tileHdrAddr (r : Read) : Nat :=
  let d := sdesc r.desc
  let p := d.place r.unit
  r.src + d.groupOff d.srcFormat p.1 p.2.1 + 32 * (p.2.2 - 1)

/-- A read that has passed its checks: delivered, and its wait ended (R192). A tile whose checksum fails is recovered first; one that fails
again once a source has supplied it is uncorrectable (R107, R483, R493). -/
def State.landRead (s : State) (r : Read) : State := s.under r.core r.ctx r.instr fun s =>
  let d := sdesc r.desc
  if r.kind = 6 then (s.gatherDeliver r.core r.unit (s.hbmRead r.src r.bytes)).readDone r
  else if s.readChecksumBad r then
    let g := (d.srcRanges r.src r.unit).headD (r.src, 1)
    let key := (suppliedKey r.core d.src, g.1)
    if s.supplied.contains key then
      (({ s with supplied := s.supplied.erase key } : State).uncorrectable { core := r.core, space := d.src, addr := g.1, check := 2 }).readDone r
    else s.beginRecovery r.core d.src 0 g.1 g.2 2 (some r.id) false none none (some (tileHdrAddr r)) none r.key
  else (s.deliverUnit r).readDone r

/-- The address range a read covers, for the line checks (R480). -/
def Read.range (r : Read) : Nat × Nat :=
  if r.kind = 6 then (r.src, r.bytes) else ((sdesc r.desc).srcRanges r.src r.unit).headD (r.src, 1)

/-- The bytes that a read brings. -/
def Read.size (r : Read) : Nat :=
  if r.kind = 6 then r.bytes else ((sdesc r.desc).srcRanges r.src r.unit).foldl (fun n g => n + g.2) 0

/-- The cycles of the convert stage, and of the skew writer behind it, that a FEED's unit takes after its data has come (R130, R181, R190). -/
def feedCycles (d : SDesc) : Nat := if d.dst = 2 ∧ d.skew then 12 else 8

/-- The tile-read window: 560 cycles, and 14 more for the XTS adder in a confidential partition (R190, R369). -/
def State.window (s : State) (k : Nat) : Nat := if s.conf (s.lowest k) then 574 else 560

/-- A read's data has come: a FETCH's or a gathered row's is written now; a FEED's leaves the convert stage and the skew writer after the
window, or, when it is late, that many wall cycles from now (R190, R334). -/
def State.dataCome (s : State) (r : Read) : State :=
  let d := sdesc r.desc
  if r.kind ≠ 2 then s.landRead r
  else
    let s := { s with reads := s.reads.map fun (q : Read) => if q.id = r.id then { q with landed := true } else q }
    let due := r.issuedAt + s.window r.core
    if s.cyc r.core ≤ due then s.after (some (s.lowest r.core)) (due - s.cyc r.core + feedCycles d) (.deliverRead r.id)
    else s.after none (feedCycles d) (.deliverRead r.id)

/-- A unit leaves the convert stage and is written (R190). -/
def State.deliverRead (s : State) (id : Nat) : State :=
  match s.reads.find? (fun r => r.id == id) with
  | none => s
  | some r => s.landRead r

/-- READ_LANDS (R190–R192, R480): a failed line CRC begins a recovery, and any other read's data has come. -/
def execReadLands (id : Nat) (upset : Bool) (s : State) : Out :=
  match s.reads.find? (fun r => r.id == id) with
  | none => .next s
  | some r =>
    let g := r.range
    if (upset || s.hbmBad g.1 g.2) && (r.kind == 6 || (sdesc r.desc).src == 0) then
      .next (s.beginRecovery r.core 0 0 (s.badAddr g.1 g.2) 256 0 (some id) false none none)
    else if r.landed then .next (s.landRead r)
    else .next ((s.shared r.size).dataCome r)

/-- Does a range of HBM meet the granule that a re-key lock of its stack holds (R191)? -/
def State.meetsLock (s : State) (p addr len : Nat) : Bool :=
  match SMap.get (s.part p).locked (addr / 2 ^ 36) with
  | some g => decide (addr % 2 ^ 36 / 2 ^ 21 ≤ g) && decide (g ≤ (addr % 2 ^ 36 + (len - 1)) / 2 ^ 21)
  | none => false

/-- One issue of a FETCH or FEED (R174, R189, R369): an HBM source makes a variable-latency read; from a core store a FETCH's unit is there at
once and a FEED's after the convert stage and the skew writer. An accumulator whose instance is not complete is not readable (R302; log entry
98). -/
def State.issueMove (s : State) (k e : Nat) (en : Engine) (d : SDesc) : State :=
  let p := d.place en.issue
  let key := d.key (s.stepOf k) p.1 p.2.1 (p.2.2 - 1)
  let ranges := d.srcRanges en.srcBase en.issue
  let bad := ranges.any fun r => if d.src = 0 then !s.inBounds (s.lowest k) r.1 r.2 else decide (0x2000000 < r.1 + r.2)
  if bad then (s.stopEngine k e 0).fault k 0x06 (some en.ctx) en.instr ((ranges.headD (0, 0)).1)
  else if d.src = 0 ∧ ranges.any (fun r => s.accShut k r.1 r.2) then
    (s.stopEngine k e 0).fault k 0x03 (some en.ctx) en.instr ((ranges.headD (0, 0)).1)
  else
    let a := if d.srcBuf then s.acquireCons k en.ctx d.linkIn e (if d.kind = 1 then 0 else 1) else (s, .ok)
    match a.2 with
    | .stop => a.1.stopEngine k e 0
    | .wait => a.1.again k (.streamIssue k e false)
    | .ok =>
      let base := if d.srcBuf then a.1.srcBaseOf k en.ctx d else en.srcBase
      let f := a.1.fresh
      let half := (f.2.linkD k en.ctx d.linkOut).prodHalf
      let r : Read := { id := f.1, core := k, engine := e, ctx := en.ctx, instr := en.instr,
                        link := d.outLink, half := half, index := en.index, kind := d.kind,
                        unit := en.issue, key := key, src := base, issuedAt := f.2.cyc k, desc := en.desc,
                        dstBase := f.2.dstBaseOf k en.ctx d half, landed := d.src != 0, supply := f.2.clk.cap,
                        rekey := d.src == 0 && (d.srcRanges base en.issue).any fun g => f.2.meetsLock (f.2.lowest k) g.1 g.2 }
      let s := { f.2 with reads := f.2.reads ++ [r] }
      let s := if d.src = 0 then s else if d.kind = 1 then s.landRead r
        else s.after (some (s.lowest k)) (feedCycles d) (.deliverRead r.id)
      s.nextIssue k e (65 * d.panels) d.interval

/-- One issue of a GATHER from HBM: the row its index names, read with a variable latency (R172, R189). -/
def State.issueGather (s : State) (k e : Nat) (en : Engine) (d : SDesc) : State :=
  let index := leNat (s.hbmRead (d.auxBase + 4 * en.issue) 4)
  let n := Config.gatherRowBytes en.desc
  let src := en.srcBase + index * n
  if !s.inBounds (s.lowest k) src n then (s.stopEngine k e 0).fault k 0x06 (some en.ctx) en.instr src
  else
    let f := s.fresh
    let s := f.2.feederPending k en.issue n f.1
    let r : Read := { id := f.1, core := k, engine := e, ctx := en.ctx, instr := en.instr, kind := 6, unit := en.issue, src := src,
                      bytes := n, issuedAt := s.cyc k, desc := en.desc, supply := s.clk.cap,
                      rekey := s.meetsLock (s.lowest k) src n }
    ({ s with reads := s.reads ++ [r] } : State).nextIssue k e d.auxCount d.interval

/-- RECEIVE (R166, R663): it counts the bytes that arrive in the half and keeps its engine busy for the cycle in which it starts only. A
RECEIVE on a link that has one waits its turn. -/
def State.startReceive (s : State) (k c e idx : Nat) : State :=
  let en := SMap.get (s.core k).engines e
  let d := sdesc (s.streamDesc k idx)
  if en.running || decide (s.cyc k < en.busyUntil) then s.faultCtx k c 0x0A e
  else match s.namesHalf k c d with
  | some x => s.faultCtx k c 0x03 x
  | none =>
    let half := (s.linkD k c d.linkOut).prodHalf
    let now := s.cyc k
    s.modCore k fun co =>
      { co with engines := SMap.mod co.engines e (fun (x : Engine) => { x with busyUntil := now + 1 }),
                receives := co.receives ++ [{ core := k, ctx := c, engine := e, link := d.linkOut, half := half,
                                              target := 256 * d.auxCount }] }

/-- FETCH (R167, R172, R175). -/
def execFetch (k c e idx : Nat) (s : State) : Out := .next (s.startEngine k c e idx false)
/-- FEED (R167, R172, R175). -/
def execFeed (k c e idx : Nat) (s : State) : Out := .next (s.startEngine k c e idx false)
/-- INJECT (R167, R172, R175); `back` is the BACK flag (R360). -/
def execInject (k c e idx : Nat) (back : Bool) (s : State) : Out := .next (s.startEngine k c e idx back)
/-- STORE (R167, R172, R175). -/
def execStore (k c e idx : Nat) (s : State) : Out := .next (s.startEngine k c e idx false)
/-- HANDOFF (R164, R167, R175). -/
def execHandoff (k c e idx : Nat) (s : State) : Out := .next (s.startEngine k c e idx false)
/-- GATHER (R167, R172, R175). -/
def execGather (k c e idx : Nat) (s : State) : Out := .next (s.startEngine k c e idx false)
/-- RECEIVE (R663). -/
def execReceive (k c e idx : Nat) (s : State) : Out := .next (s.startReceive k c e idx)

/-- Is the stream of a slot executing: an engine runs it or is still busy with it, or a read of it is outstanding (R175, R197, R199)? -/
def State.slotBusy (s : State) (k slot : Nat) : Bool :=
  let uses := fun (d : List Nat) => (sdesc d).persist && (sdesc d).slot == slot
  ((s.core k).engines.any fun e => (e.2.running || decide (s.cyc k < e.2.busyUntil)) && uses e.2.desc) ||
    s.reads.any fun r => r.core == k && uses r.desc

/-- The descriptors of the core's table that use a slot (R195). -/
def State.slotDescs (s : State) (k slot : Nat) : List (List Nat) :=
  ((List.range (s.core k).map.streamCount).map fun i => s.streamDesc k i).filter fun d => (sdesc d).persist && (sdesc d).slot == slot

/-- Does a range of a space lie within its bounds (R477)? A local store counts bank offsets. -/
def State.spaceBounds (s : State) (k space addr len : Nat) : Bool :=
  if space = 0 then s.inBounds (s.lowest k) addr len
  else if space = 1 then decide (addr + len ≤ 2 ^ 25)
  else if space = 2 then decide (addr + len ≤ 20480) else true

/-- The ranges that a side of a stream takes from base `b` on: each panel's tile group, in each half of a buffer side, the panel blocks of a
pre-skewed local store, or the rows that a GATHER's indices name now (R176, R177, R179, R183). -/
def State.extent (s : State) (desc : List Nat) (dst : Bool) (b : Nat) : List (Nat × Nat) :=
  let d := sdesc desc
  let fmt := if dst then d.target else d.srcFormat
  let buf := if dst then d.dstBuf else d.srcBuf
  if d.kind = 6 then
    if dst then []
    else
      let n := Config.gatherRowBytes desc
      (List.range d.auxCount).map fun i => (b + leNat (s.hbmRead (d.auxBase + 4 * i) 4) * n, n)
  else (if buf then [b, b + d.stride] else [b]).flatMap fun b =>
    (List.range d.panels).map fun q =>
      let p := d.place (65 * q)
      let g := d.groupOff fmt p.1 p.2.1
      if dst ∧ d.dst = 2 ∧ d.skew then (b + q * (128 * elemBits fmt + 2), 128 * elemBits fmt + 2)
      else if dst ∧ d.dst = 2 then plainRange b g (groupBytes fmt) else (b + g, groupBytes fmt)

/-- Do a persistent stream's new bases keep its extent within bounds, for every descriptor of the slot (R198)? -/
def State.slotInBounds (s : State) (k slot src dst : Nat) : Bool :=
  (s.slotDescs k slot).all fun b =>
    (s.extent b false src).all (fun g => s.spaceBounds k (sdesc b).src g.1 g.2) &&
      (s.extent b true dst).all fun g => s.spaceBounds k (sdesc b).dst g.1 g.2

/-- STR_PS_ARM of a slot as a re-arm point sees it: as it stood before this cycle's writes (R199). -/
def State.armSeen (s : State) (k p : Nat) : Option Word :=
  let x := SMap.get (s.core k).armSeen p
  if x.1 = s.clk.wall + 1 then some x.2 else none

/-- One slot at a re-arm point (R197–R199). A write to STR_PS_ARM in this cycle comes after, so it stands. -/
def State.rearmSlot (s : State) (k c p : Nat) : State :=
  let old := s.armSeen k p
  let a := old.getD (s.reg (rStrPsArm k p))
  if getF a 63 63 = 1 ∧ getF a 55 0 ≤ s.beat ∧ !s.slotBusy k p then
    let src := s.fld (rStrPsSrc k p) 39 0
    let dst := s.fld (rStrPsDst k p) 39 0
    let s := if old.isSome then s else s.setFld (rStrPsArm k p) 63 63 0
    if s.slotInBounds k p src dst then
      (if old.isSome then s else s.setFld (rStrPsArm k p) 62 62 1).modCore k fun co =>
        { co with active := SMap.set co.active p (src, dst) }
    else s.faultCtx k c 0x06 p
  else s

/-- REARM (R197). -/
def execRearm (k c : Nat) (s : State) : Out := .next ((List.range 64).foldl (fun s p => s.rearmSlot k c p) s)

end Sys2Proof.Machine
end

