-- ==== Sys2Proof/Machine/Fabric.lean ====
section
/-! DEFINITION. The fabric as this module sees it: the torus and its routes, admission, sending a message, control records, the
placing of a message's bytes, and multicast branches (R343–R345, R391, R392, R398, R399, R422–R424, R442–R460, R465, R468,
R671–R673). -/
namespace Sys2Proof.Machine

/-- The torus dimensions of the fabric map; 1 × 1 × 1 before one is installed (R5, R574; log entry 102). -/
def State.dims (s : State) : Coord :=
  if s.zen.map.isEmpty then ⟨1, 1, 1⟩ else ⟨fieldAt s.zen.map 0 1, fieldAt s.zen.map 1 1, fieldAt s.zen.map 2 1⟩

/-- This module's coordinate (R575). -/
def State.me (s : State) : Coord := s.zen.coord.getD {}

/-- Component d of a coordinate: 0 x, 1 y, 2 z. -/
def coordDim (c : Coord) (d : Nat) : Nat := if d = 0 then c.x else if d = 1 then c.y else c.z

/-- A coordinate with component d set. -/
def coordSet (c : Coord) (d v : Nat) : Coord :=
  if d = 0 then { c with x := v } else if d = 1 then { c with y := v } else { c with z := v }

/-- The neighbour beyond port p (R422). -/
def State.neighbour (s : State) (c : Coord) (p : Nat) : Coord :=
  let d := p / 2
  let n := max 1 (coordDim s.dims d)
  coordSet c d ((coordDim c d + (if p % 2 = 0 then 1 else n - 1)) % n)

/-- The shorter way round a ring of n from a to b: its hops and whether it goes in the plus direction (R443). -/
def ringWay (n a b : Nat) : Nat × Bool :=
  let n := max 1 n
  let f := (b + n - a % n) % n
  let g := (a + n - b % n) % n
  if f ≤ g then (f, true) else (g, false)

/-- The hops of the dimension-order route between two coordinates (R443). -/
def State.hops (s : State) (a b : Coord) : Nat :=
  (List.range 3).foldl (fun n d => n + (ringWay (coordDim s.dims d) (coordDim a d) (coordDim b d)).1) 0

/-- The port by which the dimension-order route leaves this module; none when it ends here (R443). -/
def State.firstPort (s : State) (dest : Coord) : Option Nat :=
  (List.range 3).foldl (fun p d => match p with
    | some q => some q
    | none =>
      let w := ringWay (coordDim s.dims d) (coordDim s.me d) (coordDim dest d)
      if w.1 = 0 then none else some (2 * d + (if w.2 then 0 else 1))) none

/-- LNK_STATUS.STATE of a port (R472). -/
def State.linkState (s : State) (p : Nat) : Nat := s.fld (rLnkStatus p) 63 61
/-- The agreed version of a port, major × 16 + minor (R466). -/
def State.linkVersion (s : State) (p : Nat) : Nat := s.fld (rLnkStatus p) 55 48
/-- Is a port legacy (R468)? -/
def State.legacy (s : State) (p : Nat) : Bool := s.fld (rLnkStatus p) 59 59 == 1
/-- Is a port cross-rack (R423)? -/
def State.crossRack (s : State) (p : Nat) : Bool := s.fld (rLnkStatus p) 60 60 == 1

/-- The virtual channel of a message kind (R433). -/
def vcOf (kind : Nat) : Nat := if kind = 2 then 1 else if kind = 3 ∨ kind = 6 then 3 else 2

/-- The version that brings in a message kind (R466). -/
def kindVersion (kind : Nat) : Nat := if kind = 2 then 0x11 else if kind = 3 then 0x12 else if kind = 6 then 0x21 else 0x10

/-- The flits of a message with `n` content bytes (R442). -/
def flitsOf (n : Nat) : Nat := ceilDiv (48 + n) 240

/-- The content bytes of flit i of a message (R442). -/
def flitBytes (content : List Nat) (i : Nat) : List Nat :=
  if i = 0 then content.take 192 else slice content (240 * i - 48) 240

/-- The place of flit i's first content byte within the content (R442). -/
def flitOfs (i : Nat) : Nat := 240 * i - 48

/-- May a send of core k's partition leave by port p at all, over h hops (R424, R441, R465, R468)? -/
def State.portTakes (s : State) (k p kind h : Nat) : Bool :=
  s.linkState p == 4 && s.portPart p == some (s.lowest k) && decide (kindVersion kind ≤ s.linkVersion p) &&
    (!s.legacy p || h == 1)

/-- Flits booked in the ledger of a port for a beat (R450). -/
def State.booked (s : State) (p b : Nat) : Nat := SMap.get (s.port p).ledger b

/-- Books `f` flits into the beats from `b` on, earliest first, at most CAP in each (R450). -/
def State.book (p cap : Nat) : Nat → Nat → Nat → State → State
  | 0, _, _, s => s
  | n + 1, b, f, s =>
    let x := min f (cap - s.booked p b)
    State.book p cap n (b + 1) (f - x) (s.modPort p fun q => { q with ledger := SMap.set q.ledger b (SMap.get q.ledger b + x) })

/-- Admission of a message of `n` content bytes over h hops on port p by a deadline (R450): the booked state, or none. -/
def State.admitFlits (s : State) (p n h deadline : Nat) : Option State :=
  let b := s.beat
  let f := flitsOf n + ceilDiv (flitsOf n) 16
  let l := ceilDiv (360 * h + 1840) 1000
  let last := min (deadline - l) (b + 256)
  let s := s.modPort p fun q => { q with ledger := q.ledger.filter fun e => decide (b < e.1) }
  let cap := s.fld (rLnkAdmitCap p) 10 0
  let free := (List.range (last - b)).foldl (fun a j => a + (cap - s.booked p (b + 1 + j))) 0
  if last < b + 1 ∨ free < f then none else some (State.book p cap (last - b) (b + 1) f s)

/-- The shift of a rendezvous (R337). -/
def State.shiftOf (s : State) (k rv : Nat) : Nat := (SMap.get (s.part k).rvDyn rv).shift

/-- The anchor beat of the partition (R327). -/
def State.anchor (s : State) (k : Nat) : Nat := (s.reg (rSeqAnchor k)).toNat

/-- The entry number and the collective descriptor of a collective of the partition. -/
def State.collEntry (s : State) (k coll : Nat) : Option (Nat × CDesc) :=
  ((s.part k).colls.find? fun e => (cdesc e.2).coll == coll).map fun e => (e.1, cdesc e.2)

/-- The deadline of a collective's messages in the current step (R343). -/
def State.collDeadline (s : State) (k coll : Nat) : Nat :=
  let d := match s.collEntry k coll with | some e => e.2.deadline | none => 0
  let sh := match s.rvOfColl k coll with | some r => s.shiftOf k r.1 | none => 0
  s.anchor k + d + ceilDiv sh 700

/-- The deadline of any other send, if an entry governs it (R343). -/
def State.sendDeadline (s : State) (k : Nat) : Option Nat :=
  (s.governing k).map fun g => s.anchor k + g.2.ofs + g.2.slack + ceilDiv (s.shiftOf k g.1) 700

/-- Wall cycles until the end of a beat (R317). -/
def State.untilEnd (s : State) (b : Nat) : Nat := (b + 1 - s.beat) * 700 - s.phase

/-- NOT_ADMITTED (R344): a fault of the sending context that names the target and the deadline; counted on the port. -/
def State.notAdmitted (s : State) (k c : Nat) (p : Option Nat) (dest : Coord) (deadline : Nat) : State :=
  let s := match p with | some q => s.bump (rLnkNotAdmitted q) 1 | none => s
  s.faultCtx k c 0x0D (coordNum dest + 2 ^ 24 * (deadline % 2 ^ 40))

/-- A message put at a port, to be sent flit by flit (R434, R444). -/
def State.queueTx (s : State) (p : Nat) (m : FabricMsg) : State :=
  s.modPort p fun q => { q with
    tx := q.tx ++ [{ hdr := m, vc := vcOf m.kind, tag := q.nextTag % 1024, last := flitsOf m.content.length }],
    nextTag := (q.nextTag + 1) % 1024 }

/-- Is a control record one of identity or keys, which a cross-rack port without keys carries too (R465, R539)? -/
def earlyRec : CtlRec → Bool
  | .ident _ => true
  | .keyxInit _ => true
  | .keyxResp _ => true
  | .keyxDone _ => true
  | _ => false

/-- A control record put at a port whose flit layer is up (R435, R465). -/
def State.sendCtl (s : State) (p : Nat) (r : CtlRec) : State :=
  if 2 ≤ s.linkState p ∧ s.linkState p ≤ 4 ∧ (s.linkState p = 4 ∨ !s.crossRack p ∨ earlyRec r) then s.modPort p fun q => { q with ctl := q.ctl ++ [r] } else s

/-- What this module does with a control record of several hops that has reached its coordinate. -/
def recCmd : CtlRec → Option Instr
  | .delivered _ id => some (.delivered id)
  | .residueRetry _ id i => some (.residueRetry id i)
  | .gatherRefused _ id o => some (.gatherRefused id o)
  | .mcastLaggard _ id m n => some (.mcastLaggard id m n)
  | .catchup _ id b l g => some (.catchup id b l g)
  | _ => none

/-- A control record on its way to a coordinate: acted on here, or sent on by the dimension-order route (R435, R443). -/
def State.ctlTo (s : State) (dest : Coord) (r : CtlRec) : State :=
  match s.firstPort dest with
  | some p => s.sendCtl p r
  | none => match recCmd r with | some i => s.laterW 0 i | none => s

/-- The command that an arrived message is (R392, R446, R449, R458, R673); port 6 stands for the module itself. -/
def arrivalCmd (p : Nat) (m : FabricMsg) : Instr :=
  if m.kind = 2 then .contributionArrival p m 0
  else if m.kind = 4 then .gatherRequest p m false
  else if m.kind = 5 then .gatherReply p m
  else if m.kind = 3 ∨ m.kind = 6 then .multicastFlit p m 0
  else .fabricMessageArrival p m

/-- Keeps an accepted message until its acknowledgement, and sets its deadline (R345). -/
def State.keepSent (s : State) (o : OutMsg) : State :=
  ({ s with sent := s.sent ++ [o] } : State).laterW (s.untilEnd o.hdr.deadline) (.deadlineMiss o.hdr.msgid)

/-- A unicast sent by a context of core k (R343, R344, R424, R441, R450, R465, R468, R672): admitted and queued, delivered within
the module, or refused. The answer says whether it was accepted. -/
def State.sendMsg (s : State) (k c : Nat) (m : FabricMsg) (deadline : Option Nat) (rel : Option (Nat × Nat × Nat)) : State × Bool :=
  match deadline with
  | none => (s.notAdmitted k c (s.firstPort m.dest) m.dest 0, false)
  | some d =>
    let m := { m with src := s.me, deadline := d, len := m.content.length }
    let f := s.fresh
    let m := { m with msgid := f.1 % 2 ^ 32 }
    match s.firstPort m.dest with
    | none =>
      let s := f.2.keepSent { hdr := m, port := 6, core := k, ctx := c, released := rel }
      ((s.shared m.content.length).laterW 0 (arrivalCmd 6 m), true)
    | some p =>
      let h := s.hops s.me m.dest
      if !s.portTakes k p m.kind h then (s.notAdmitted k c (some p) m.dest d, false)
      else match f.2.admitFlits p m.content.length h d with
        | none => (s.notAdmitted k c (some p) m.dest d, false)
        | some s' =>
          let s := (s'.keepSent { hdr := m, port := p, core := k, ctx := c, released := rel }).queueTx p m
          (s.shared m.content.length, true)

/-- The physical address of a logical HBM address in a partition (R373, R392). -/
def State.logicalHbm (s : State) (k a : Nat) : Option Nat :=
  let l := a / 2 ^ 36
  let base := match (s.part k).image with | some i => i.bases.getD l 0 | none => 0
  (s.physCore k (l / 2)).map fun c => (2 * c + l % 2) * 2 ^ 36 + base + a % 2 ^ 36

/-- The place that a message names in the receiving partition: its core, space, array and address (R391, R392). -/
def State.routePlace (s : State) (k : Nat) (m : FabricMsg) : Option (Nat × Nat × Nat × Nat) :=
  let e := routeEntry (SMap.get (s.part k).routes m.route)
  match s.physCore k e.core with
  | none => none
  | some c =>
    if e.space = 0 then (s.logicalHbm k (e.base + m.offset)).map fun a => (c, 0, 0, a)
    else some (c, e.space, e.array, e.base + (if e.space = 2 then 0 else m.offset))

/-- Places bytes of a fabric write at a place of the receiving partition, or raises ADDR_BOUNDS there (R59, R154, R169, R173, R392, R663). The
answer says whether they were written. A local store takes them as bytes OFFSET on of a plain string (log entry 15). -/
def State.placeFabric (s : State) (k : Nat) (m : FabricMsg) (ofs : Nat) (bs : List Nat) : State × Bool :=
  let n := bs.length
  match s.routePlace k m with
  | none => (s.fault k 0x06 none 0 m.offset, false)
  | some (c, sp, arr, a) =>
    let m0 := m.offset + ofs
    let bad := if sp = 0 then !s.inBounds k (a + ofs) n else if sp = 1 then decide (2 ^ 25 < a + ofs + n)
      else if sp = 2 then decide (20480 < a + ceilDiv (m0 + n) 1024) else decide (1024 * 2048 < a + ofs + n)
    if bad then (s.fault c 0x06 none 0 (a + ofs), false)
    else if sp = 5 then ((s.feederWrite c ((a + ofs) / 2048) ((a + ofs) % 2048) bs).endLull k 0 (0x30000 + c), true)
    else s.placeOutside c sp arr a (if sp = 2 then m0 else ofs) bs none

/-- The partition that a message from port p is delivered in: the port's owner, or, from the module itself, the one that sent it
(R392, R424, R672). -/
def State.recvPart (s : State) (p : Nat) (m : FabricMsg) : Option Nat :=
  if p = 6 then (s.sent.find? fun o => o.hdr.msgid == m.msgid).map fun o => s.lowest o.core else s.portPart p

/-- The lines that a source or a member starts in the dimensions from `d0` on: port, stage code and members (R455). -/
def linesFrom (m : FabricMsg) (d0 : Nat) : List (Nat × Nat × Nat) :=
  ([(0, m.nx), (1, m.ny), (2, m.nz)].filter fun e => decide (d0 ≤ e.1)).flatMap fun e =>
    let up := ceilDiv (e.2 - 1) 2
    let dn := e.2 - 1 - up
    (if up = 0 then [] else [(2 * e.1, e.1, up)]) ++ (if dn = 0 then [] else [(2 * e.1 + 1, e.1 + 4, dn)])

/-- The stride of a dimension (R454). -/
def strideOf (m : FabricMsg) (d : Nat) : Nat := if d = 0 then m.sx else if d = 1 then m.sy else m.sz

/-- Is this module a member where the copy stands on its line (R454, R455)? -/
def State.atMember (s : State) (m : FabricMsg) : Bool :=
  let d := m.stage % 4
  let n := max 1 (coordDim s.dims d)
  let x := if bitAt m.stage 2 then (coordDim m.src d + n - coordDim s.me d % n) % n else (coordDim s.me d + n - coordDim m.src d % n) % n
  decide (0 < strideOf m d) && x % strideOf m d == 0

/-- The branches of a multicast at this module (R455, R456): the local one is line 6. -/
def State.branchesOf (s : State) (p : Nat) (m : FabricMsg) : List Branch :=
  let mk := fun (l : Nat × Nat × Nat) => ({ line := l.1, stage := l.2.1, remain := l.2.2 } : Branch)
  if p = 6 then { line := 6 } :: (linesFrom m 0).map mk
  else
    let d := m.stage % 4
    let out := 2 * d + (if bitAt m.stage 2 then 1 else 0)
    if s.atMember m then
      { line := 6 } :: ((if m.remain ≤ 1 then [] else [(out, m.stage, m.remain - 1)]) ++ linesFrom m (d + 1)).map mk
    else [mk (out, m.stage, m.remain)]

/-- The hops to the deepest member reached through a first line of a multicast's tree (R451). -/
def lineDepth (m : FabricMsg) (l : Nat × Nat × Nat) : Nat :=
  let d := l.2.1 % 4
  l.2.2 * strideOf m d +
    ([(0, m.nx), (1, m.ny), (2, m.nz)].filter fun e => decide (d < e.1)).foldl (fun n e => n + ceilDiv (e.2 - 1) 2 * strideOf m e.1) 0

/-- The first member of the line that a source starts (R454, R455): a target of the multicast. -/
def State.firstMember (s : State) (m : FabricMsg) (l : Nat × Nat × Nat) : Coord :=
  let d := l.2.1 % 4
  let n := max 1 (coordDim s.dims d)
  let g := strideOf m d % n
  coordSet s.me d ((coordDim s.me d + (if bitAt l.2.1 2 then n - g else g)) % n)

/-- A multicast sent by a context (R343, R344, R451, R454, R455): admitted on every first-hop port, or on none. -/
def State.sendMcast (s : State) (k c : Nat) (m : FabricMsg) (deadline : Nat) : State × Bool :=
  let f := s.fresh
  let m := { m with kind := 3, src := s.me, dest := s.me, deadline := deadline, msgid := f.1 % 2 ^ 32, len := m.content.length }
  let ls := linesFrom m 0
  let go := ls.foldl (fun (a : Option State) l => match a with
    | none => none
    | some s => if s.portTakes k l.1 3 (lineDepth m l) then s.admitFlits l.1 m.len (lineDepth m l) deadline else none) (some f.2)
  match go with
  | none =>
    let bad := ls.find? fun l => !(s.portTakes k l.1 3 (lineDepth m l) && (s.admitFlits l.1 m.len (lineDepth m l) deadline).isSome)
    (s.notAdmitted k c (bad.map (·.1)) ((bad.map (s.firstMember m)).getD m.dest) deadline, false)
  | some s' =>
    let o : OutMsg := { hdr := m, port := (ls.head?.map (·.1)).getD 6, core := k, ctx := c }
    let s : State := { s' with sent := s'.sent ++ [o] }
    let s := (s.shared m.len).laterW (s.untilEnd deadline) (.multicastDeadline m.src m.msgid)
    ((List.range (flitsOf m.len)).foldl (fun s i => s.laterW 0 (.multicastFlit 6 { m with content := flitBytes m.content i } i)) s, true)

/-- A message of a stream or the send path to a route entry's target (R391, R671). -/
def State.toRoute (s : State) (k route offset kind coll : Nat) (content : List Nat) : FabricMsg :=
  { kind := kind, dest := (routeEntry (SMap.get (s.part (s.lowest k)).routes route)).dest, route := route, offset := offset % 2 ^ 29,
    coll := coll, content := content }

/-- Is a queued message at a port a piece of this multicast? -/
def TxMsg.pieceOf (t : TxMsg) (src : Coord) (id : Nat) : Bool := t.piece && t.hdr.src == src && t.hdr.msgid == id

/-- The flits that a branch still buffers (R397). -/
def State.held (s : State) (x : Mcast) (b : Branch) : Nat :=
  if b.line = 6 then b.buffered.length else ((s.port b.line).tx.filter fun t => t.pieceOf x.hdr.src x.hdr.msgid).length

end Sys2Proof.Machine
end

