-- ==== Sys2Proof/Machine/Barrier.lean ====
section
/-! DEFINITION. Barrier units: arrivals, rounds, departures and re-opening, and the step barrier (R327, R402, R410–R421). -/
namespace Sys2Proof.Machine

/-- A barrier unit's dynamic record. -/
def State.bar (s : State) (u : Nat) : BarDyn := SMap.get s.bars u
/-- The state with a barrier unit's record changed. -/
def State.modBar (s : State) (u : Nat) (f : BarDyn → BarDyn) : State := { s with bars := SMap.mod s.bars u f }

/-- The partition of a unit (BAR_CFG.PARTITION). -/
def State.barPart (s : State) (u : Nat) : Nat := s.fld (rBarCfg u) 63 61
/-- Is the unit the root of its tree? -/
def State.barRoot (s : State) (u : Nat) : Bool := s.fld (rBarCfg u) 59 59 == 1
/-- The parent port of a unit. -/
def State.barParent (s : State) (u : Nat) : Nat := s.fld (rBarCfg u) 58 56
/-- The child ports of a unit. -/
def State.barChildren (s : State) (u : Nat) : List Nat := maskList 6 (s.fld (rBarCfg u) 55 50)
/-- The cores that take part in a unit. -/
def State.barCores (s : State) (u : Nat) : List Nat := maskList 4 (s.fld (rBarCfg u) 49 46)
/-- Does core k take part in the unit? -/
def State.barHas (s : State) (u k : Nat) : Bool := s.fld (rBarCfg u) 60 60 == 1 && (s.barCores u).contains k

/-- OPEN, DONE, ARR and the expected senses of BAR_STATE (R413, R420). -/
def State.barOpenAt (s : State) (u sense : Nat) : Bool := s.fld (rBarState u) (36 + sense) (36 + sense) == 1
/-- DONE of a sense. -/
def State.barDoneAt (s : State) (u sense : Nat) : Bool := s.fld (rBarState u) (38 + sense) (38 + sense) == 1
/-- ARR of a sense. -/
def State.barArr (s : State) (u sense : Nat) : Nat := s.fld (rBarState u) (4 * sense + 3) (4 * sense)
/-- The arrival sense expected of core k. -/
def State.arrSense (s : State) (u k : Nat) : Nat := s.fld (rBarState u) (44 + k) (44 + k)
/-- The departure sense expected of core k. -/
def State.depSense (s : State) (u k : Nat) : Nat := s.fld (rBarState u) (40 + k) (40 + k)

/-- The cores that have arrived in the round of a sense and not departed it. -/
def State.owing (s : State) (u sense : Nat) : List Nat := (SMap.get (s.bar u).sense sense).1

/-- The tag of a sequencer's Lull at a barrier unit (R417). -/
def barTag (u sense core : Nat) : Nat := 0x60000 + 16 * u + 8 * sense + core

/-- A barrier fault of the unit, of a core's context or, by a port's message, of the barrier block (R377, R400, R417). -/
def State.barFault (s : State) (u code : Nat) (who : Option (Nat × Nat)) : State :=
  match who with
  | some (k, c) => s.faultCtx k c code u
  | none => s.fault (s.barPart u) code none 0 u 0 22

/-- A control record to every child port of a unit. -/
def State.toChildren (s : State) (u : Nat) (r : CtlRec) : State := (s.barChildren u).foldl (fun s p => s.sendCtl p r) s

/-- A round that is complete at this unit: DONE is set, the children and, 24 cycles later, the cores hear of it (R402, R414, R418). -/
def State.roundDone (s : State) (u sense beat : Nat) : State :=
  let s := (s.setFld (rBarState u) (38 + sense) (38 + sense) 1).setFld (rBarState u) 63 48 (s.fld (rBarState u) 63 48 + 1)
  let cores := s.barCores u
  let s := s.modBar u fun b => { b with stamp := beat, sense := SMap.set b.sense sense ((SMap.get b.sense sense).1, cores, []) }
  (s.toChildren u (.barDepart u sense beat)).afterLive 24 (.departReach u sense)

/-- One arrival counted at the unit (R414). -/
def State.countArrival (s : State) (u sense : Nat) : State :=
  let n := s.barArr u sense + 1
  if n < s.fld (rBarCfg u) 45 42 then s.setFld (rBarState u) (4 * sense + 3) (4 * sense) n
  else
    let s := (s.setFld (rBarState u) (4 * sense + 3) (4 * sense) 0).setFld (rBarState u) (36 + sense) (36 + sense) 0
    if s.barRoot u then s.roundDone u sense s.beat
    else s.sendCtl (s.barParent u) (.barArrive u sense (s.fld (rBarCfg u) 17 0))

/-- An arrival of a core that may be counted: its expected sense flips, and the unit counts it `d` cycles later (R402, R414). -/
def State.acceptArrival (s : State) (u k sense d : Nat) (step : Bool) : State :=
  let s := s.setFld (rBarState u) (44 + k) (44 + k) (1 - sense)
  let s := s.modBar u fun b => { b with
    sense := SMap.mod b.sense sense fun (x : List Nat × List Nat × List Nat) => (x.1 ++ [k], x.2.1, x.2.2),
    departReady := SMap.mod b.departReady sense fun (l : List Nat) => l.filter (· != k) }
  s.afterLive d (.coreArrive (s.barPart u) k u sense step)

/-- An arrival that finds its sense closed: held, with a Lull unless it is a STEP_START's (R417, R418). -/
def State.holdArrival (s : State) (u k sense : Nat) (step : Bool) : State :=
  let s := (s.modBar u fun b => { b with held := b.held ++ [(k, sense, step)] }).setFld (rBarState u) 35 35 1
  let s := s.bump (rBarHolds u) 1
  if step then s else s.askLull (s.lowest k) { kind := 1, cause := 7, core := k, tag := barTag u sense k }

/-- An arrival of core k by context c (R414, R417–R419). -/
def State.coreArrival (s : State) (k c u sense : Nat) (step : Bool) : State :=
  if !s.barHas u k then s.barFault u 0x08 (some (k, c))
  else if sense ≠ s.arrSense u k ∨ (s.owing u sense).contains k then s.barFault u 0x09 (some (k, c))
  else if s.barOpenAt u sense then s.acceptArrival u k sense 24 step
  else if !step ∧ !(s.owing u sense).isEmpty then s.barFault u 0x0A (some (k, c))
  else s.holdArrival u k sense step

/-- The arrivals that a sense's opening lets go, each counted in the next cycle (R416, R417). -/
def State.releaseHeld (s : State) (u sense : Nat) : State :=
  let hs := (s.bar u).held
  let s := s.modBar u fun b => { b with held := b.held.filter fun h => h.2.1 != sense }
  let s := if (s.bar u).held.isEmpty then s.setFld (rBarState u) 35 35 0 else s
  hs.foldl (fun s h => if h.2.1 = sense then
      (s.acceptArrival u h.1 sense 1 h.2.2).endLull (s.lowest h.1) 1 (barTag u sense h.1) else s) s

/-- OPEN set at this unit and below (R416). -/
def State.openSense (s : State) (u sense : Nat) : State :=
  ((s.setFld (rBarState u) (36 + sense) (36 + sense) 1).toChildren u (.barOpen u sense false)).releaseHeld u sense

/-- The unit looks whether its whole subtree has departed the round (R416). -/
def State.checkReopen (s : State) (u sense : Nat) : State :=
  let x := SMap.get (s.bar u).sense sense
  if s.barDoneAt u sense && x.2.1.isEmpty && (s.barChildren u).all (fun p => x.2.2.contains p) then
    let s := s.setFld (rBarState u) (38 + sense) (38 + sense) 0
    let s := s.modBar u fun b => { b with sense := SMap.mod b.sense sense fun (x : List Nat × List Nat × List Nat) => (x.1, x.2.1, []) }
    if s.barRoot u then s.openSense u sense else s.sendCtl (s.barParent u) (.barOpen u sense true)
  else s

/-- A departure that completes: the expected sense flips, and the unit sees it 24 cycles later (R402, R415, R416). -/
def State.completeDepart (s : State) (u k sense : Nat) : State :=
  let s := s.setFld (rBarState u) (40 + k) (40 + k) (1 - sense)
  let s := s.modBar u fun b => { b with
    sense := SMap.mod b.sense sense fun (x : List Nat × List Nat × List Nat) => (x.1.filter (· != k), x.2.1, x.2.2) }
  s.afterLive 24 (.coreDepart u k sense)

/-- The unit sees a core's departure (R416). -/
def State.sawDepart (s : State) (u k sense : Nat) : State :=
  (s.modBar u fun b => { b with
    sense := SMap.mod b.sense sense fun (x : List Nat × List Nat × List Nat) => (x.1, x.2.1.filter (· != k), x.2.2) }).checkReopen u sense

/-- Has the departure of a sense reached core k (R415)? -/
def State.mayDepart (s : State) (u k sense : Nat) : Bool :=
  s.barDoneAt u sense && (SMap.get (s.bar u).departReady sense).contains k

/-- A departure of core k by context c (R415, R417). -/
def State.coreDeparture (s : State) (k c u sense : Nat) : State :=
  if !s.barHas u k then s.barFault u 0x08 (some (k, c))
  else if sense ≠ s.depSense u k ∨ !(s.owing u sense).contains k then s.barFault u 0x09 (some (k, c))
  else if s.mayDepart u k sense then s.completeDepart u k sense
  else if !(s.barCores u).all (fun j => (s.owing u sense).contains j) then s.barFault u 0x0A (some (k, c))
  else if s.barRoot u && (s.barChildren u).isEmpty then s.barFault u 0x0A (some (k, c))
  else
    let cause := s.waitCause (s.lowest k) (s.governing (s.lowest k))
    (s.modBar u fun b => { b with waiting := b.waiting ++ [(k, c, sense, false)] }).askLull (s.lowest k)
      { kind := 1, cause := cause, core := k, tag := barTag u sense k }

/-- The step number that the head of the partition's queue gives next (R599). -/
def State.nextStep (s : State) (k : Nat) : Nat :=
  match (s.part k).queue.head? with
  | some q => q.entry.first + q.started
  | none => (s.part k).stepNo

/-- Every context of the partition leaves the step barrier: the anchor and the step number are set, and cycle 0 comes at phase 0 of the
anchor beat (R153, R327, R337, R419, R599). -/
def State.leaveStepBarrier (s : State) (k u : Nat) : State :=
  let a := (s.bar u).stamp + (s.part k).startLead
  let n := s.nextStep k
  let s := (s.setReg (rSeqAnchor k) (BitVec.ofNat 64 a)).setReg (rSeqLag k) 0
  let s := s.modPart k fun p => { p with
    starting := false, running := true, stepNo := n, rvDyn := [],
    queue := match p.queue with | q :: r => { q with started := q.started + 1 } :: r | [] => [] }
  let s := (s.partCores k).foldl (fun s j => (s.setFld (rSeqCtxStatus j) 1 0 3).modCore j fun co =>
    { co with ctxs := co.ctxs.map fun e => (e.1, { e.2 with waiting := false, last := 0 }) }) (s.setPstate k 2)
  let s : State := { s with
    arrays := s.arrays.map fun e => (e.1, if (s.partCores k).contains (e.1 / 4) then { e.2 with compNext := 0 } else e.2),
    supplied := s.supplied.filter fun x => !(s.partCores k).contains (x.1 % 4),
    writtenBack := s.writtenBack.filter fun x => !(s.partCores k).contains x.core }
  s.after none ((a - s.beat) * 700 - s.phase) (.stepAnchor k)

/-- Phase 0 of the anchor beat: the sequencer's counter is 0 and runs (R23, R327). -/
def State.stepAnchor (s : State) (k : Nat) : State :=
  if (s.part k).running then s.modPart k fun p => { p with inStep := true, stepCycle := 0 } else s

/-- The departure reaches the unit's cores: the waiting departures complete (R415, R417, R419). -/
def State.departReach (s : State) (u sense : Nat) : State :=
  let cores := s.barCores u
  let ws := (s.bar u).waiting.filter fun w => w.2.2.1 == sense
  let s := s.modBar u fun b => { b with departReady := SMap.set b.departReady sense cores,
                                        waiting := b.waiting.filter fun w => w.2.2.1 != sense }
  let s := ws.foldl (fun s w => (s.completeDepart u w.1 sense).endLull (s.lowest w.1) 1 (barTag u sense w.1)) s
  if ws.any (fun w => w.2.2.2) then s.leaveStepBarrier (s.barPart u) u else s

/-- STEP_START (R324, R327, R418, R419): the core arrives at and departs the step barrier with the last of its active contexts, and the
context waits. After REF_LOSS it is refused. -/
def execStepStart (k c unit : Nat) (s : State) : Out :=
  if s.clk.refLost ∨ (s.part (s.lowest k)).fault.isSome then .next s
  else
    let s := s.modCtx k c fun x => { x with waiting := true, cmdIndex := 0 }
    let got := Nat.lor (SMap.get (s.bar unit).stepIssued k) (2 ^ c)
    let active := s.fld (rSeqCtxStatus k) 15 8
    if Nat.land got active ≠ active then
      .next (s.modBar unit fun b => { b with stepIssued := SMap.set b.stepIssued k got })
    else
      let s := s.modBar unit fun b => { b with stepIssued := SMap.erase b.stepIssued k }
      let a := s.coreArrival k c unit (s.arrSense unit k) true
      if (a.part (a.lowest k)).fault.isSome || (a.part (a.lowest k)).stopping.isSome then .next a
      else .next (a.modBar unit fun b => { b with waiting := b.waiting ++ [(k, c, s.depSense unit k, true)] })

/-- BARRIER_ARRIVE (R412, R414, R417). -/
def execBarrierArrive (k c unit sense : Nat) (s : State) : Out := .next (s.coreArrival k c unit sense false)
/-- BARRIER_DEPART (R412, R415, R417). -/
def execBarrierDepart (k c unit sense : Nat) (s : State) : Out := .next (s.coreDeparture k c unit sense)

/-- BAR_ARRIVE from a child port (R414, R417). -/
def execBarArrive (unit sense p total : Nat) (s : State) : Out :=
  if (s.barChildren unit).contains p ∧ total = (s.bar unit).totals.getD p 0 then .next (s.countArrival unit sense)
  else .next (s.barFault unit 0x08 none)

/-- BAR_DEPART from the parent port (R414, R417, R418). -/
def execBarDepart (unit sense p beat : Nat) (s : State) : Out :=
  if s.barRoot unit ∨ p ≠ s.barParent unit then .next (s.barFault unit 0x08 none) else .next (s.roundDone unit sense beat)

/-- BAR_OPEN, up from a child or down from the parent (R416, R417). -/
def execBarOpen (unit sense p : Nat) (up : Bool) (s : State) : Out :=
  if up then
    if !(s.barChildren unit).contains p then .next (s.barFault unit 0x08 none)
    else .next ((s.modBar unit fun b => { b with
      sense := SMap.mod b.sense sense fun (x : List Nat × List Nat × List Nat) => (x.1, x.2.1, x.2.2 ++ [p]) }).checkReopen unit sense)
  else if s.barRoot unit ∨ p ≠ s.barParent unit then .next (s.barFault unit 0x08 none)
  else .next (s.openSense unit sense)

end Sys2Proof.Machine
end

