-- ==== Sys2Proof/Machine/Steps.lean ====
section
/-! DEFINITION. Programs and steps: the contexts' order of issue, loops and the end of a step; the command ring, the step queue and the
records they bring (R356, R359–R366, R594–R603, R625). -/
namespace Sys2Proof.Machine

/-- The index advance that the loops around an instruction give it (R364). -/
def Ctx.offset (x : Ctx) : Int := x.loops.foldl (fun n f => n + (f.iter : Int) * f.step) 0

/-- The loops after an instruction, innermost first: a body that ends runs again or is left (R364). -/
def Ctx.wrap : Nat → Ctx → Ctx
  | 0, x => x
  | n + 1, x =>
    match x.loops with
    | [] => x
    | f :: r =>
      if x.next ≠ f.start + f.len then x
      else if f.iter + 1 < f.count then
        { x with loops := { f with iter := f.iter + 1 } :: r, next := f.start, last := f.t0 + (f.iter + 1) * f.period }
      else Ctx.wrap n { x with loops := r, last := f.t0 + f.count * f.period }

/-- A context after it has issued its next instruction at `cycle` (R363, R364). -/
def Ctx.advance (x : Ctx) (cycle : Nat) : Ctx :=
  let y := Ctx.wrap 3 { x with cmdIndex := x.next, next := x.next + 1, last := cycle }
  { y with looped := y.next != x.next + 1 || y.loops.length != x.loops.length }

/-- A context that has issued a LOOP (R364). A body of no instruction only passes its time, unless a loop around it went on or ended there. -/
def Ctx.enterLoop (x : Ctx) (step : Int) (count period body : Nat) : Ctx :=
  if body = 0 then (if x.looped then x else { x with last := x.last + count * period })
  else { x with loops := { start := x.next, len := body, count := count, period := period, step := step, t0 := x.last } :: x.loops }

/-- Whether the next PRODUCT of a context's program at array `a` continues the one before it, when its program goes on to one within the fuel
(R55). -/
def Ctx.continued (program : List Nat) (a : Nat) : Nat → Ctx → Bool
  | 0, _ => false
  | n + 1, x =>
    let q := instrAt program (x.first + x.next)
    if x.count ≤ x.next ∨ q.op = 2 then false
    else if q.op = 5 ∧ q.target = a then bitAt q.args 41
    else
      let y := x.advance 0
      Ctx.continued program a n
        (if q.op = 0xB then y.enterLoop (signedOf 8 q.target) (q.index + 1) (bitsAt q.args 24 24) (bitsAt q.args 0 8) else y)

/-- The instruction a context issues next, if its program goes on (R356, R363, R366). -/
def State.nextInstr (s : State) (k c : Nat) : Option SeqInstr :=
  let x := s.ctx k c
  if x.ended || x.stopped || x.waiting || decide (x.count ≤ x.next) then none
  else some (instrAt (s.core k).program (x.first + x.next))

/-- Is a context's next instruction due in the partition's current sequencer cycle (R333, R363)? -/
def State.dueNow (s : State) (k c : Nat) : Bool :=
  let p := s.part (s.lowest k)
  match s.nextInstr k c with
  | none => false
  | some q => p.inStep && decide ((s.ctx k c).last + q.delta ≤ p.stepCycle)

/-- LOOP (R364): the body that follows runs `count` times, `period` cycles apart. -/
def execLoop (k c : Nat) (step : Int) (count period body : Nat) (s : State) : Out :=
  .next (s.modCtx k c fun x => x.enterLoop step count period body)

/-- HIF_CR_STATUS.LEVEL follows the step queue (R616). -/
def State.setQueue (s : State) (k : Nat) (q : List QEntry) : State :=
  (s.modPart k fun p => { p with queue := q }).setFld (rHifCrStatus k) 31 24 q.length

/-- A record whose COUNT no rule gives (R603; log entry 1). -/
def State.recordOf (s : State) (k kind status : Nat) (e : RingEntry) (step : Option Nat) (vector : Bool) : State :=
  let a := s.draw 32
  let b := match step with | some n => (n, a.2) | none => a.2.draw 64
  b.2.putRecord k kind status e.seqno b.1 e.token a.1 vector

/-- The head of the step queue served while it needs no step: NOPs and MARKs, runs that are over, and runs that the partition is in no
state to take (R599–R601). -/
def State.serveQueue (k : Nat) : Nat → State → State
  | 0, s => s
  | n + 1, s =>
    match (s.part k).queue with
    | [] => s
    | q :: r =>
      if q.kind = 1 ∧ q.started < q.entry.count then
        if s.pstate k = 0 then State.serveQueue k n ((s.setQueue k r).recordOf k 5 0x30 q.entry (some (q.entry.first + q.started)) true)
        else if s.pstate k = 5 then
          State.serveQueue k n ((s.setQueue k r).recordOf k 5 0x31 q.entry (some (q.entry.first + q.started)) true)
        else s
      else if q.kind = 1 ∧ (s.part k).running then s
      else
        let s := s.setQueue k r
        State.serveQueue k n (if q.kind = 3 then s.recordOf k 3 0 q.entry none q.entry.notify else s)

/-- Every context has issued END: the step ends, its records are written, and the partition is between steps (R366, R603). -/
def State.endOfStep (s : State) (k : Nat) : State :=
  let n := (s.part k).stepNo
  let s := s.modPart k fun p => { p with running := false, inStep := false, lull := [] }
  let s := (s.partCores k).foldl (fun s j => s.setFld (rSeqCtxStatus j) 1 0 2) (s.setPstate k 1)
  match (s.part k).queue with
  | [] => s
  | q :: r =>
    let s := if q.kind = 1 ∧ q.entry.notify then s.recordOf k 1 0 q.entry (some n) true else s
    if q.kind = 1 ∧ q.entry.count ≤ q.started then
      let s := s.setQueue k r
      let s := if q.entry.notify ∨ q.entry.notifyLast then s.recordOf k 2 0 q.entry (some n) true else s
      State.serveQueue k 17 s
    else State.serveQueue k 17 s

/-- END (R366, R603, R625): the context issues nothing more in this step; the last one ends the step, or stops a partition in which a
context has stopped. -/
def execEndStep (k c : Nat) (s : State) : Out :=
  let s := s.modCtx k c fun x => { x with ended := true }
  let p := s.lowest k
  if !s.allQuiet p then .next s
  else if s.anyStopped p then
    let j := ((s.partCores p).find? fun j => s.fld (rSeqCtxStatus j) 63 63 == 1).getD p
    let code := s.fld (rSeqCtxStatus j) 55 48
    .next (s.stopPartition p code [])
  else if (s.part p).running && (s.part p).stopping.isNone then .next (s.endOfStep p)
  else .next s

/-- QUEUED_STEP_START (R324, R366, R599): every context of the partition begins its program with STEP_START. -/
def execQueuedStepStart (k : Nat) (s : State) : Out :=
  let p := s.part k
  let ready := match p.queue.head? with | some q => q.kind == 1 && decide (q.started < q.entry.count) | none => false
  if s.clk.refLost || s.pstate k != 1 || p.running || p.starting || !ready then .next s
  else
    let s := s.modPart k fun p => { p with starting := true }
    .next ((s.partCores k).foldl (fun s j => (s.activeCtxs j).foldl (fun s c =>
      let u := (instrAt (s.core j).program (s.ctx j c).first).target
      (s.modCtx j c fun x => { x with next := 1, last := 0, loops := [], ended := false, waiting := true }).laterW 0 (.stepStart j c u)) s) s)

/-- A ring entry from its 64 bytes (R595). -/
def ringEntry (b : List Nat) : RingEntry :=
  { notify := bitAt (fieldAt b 1 1) 0, notifyLast := bitAt (fieldAt b 1 1) 1, seqno := fieldAt b 4 4, first := fieldAt b 8 8,
    count := fieldAt b 16 4, token := fieldAt b 24 8 }

/-- Is a ring entry refused at index `i` (R597)? -/
def entryBad (b : List Nat) (i : Nat) : Bool :=
  decide (3 < fieldAt b 0 1) || decide (4 ≤ fieldAt b 1 1) || fieldAt b 2 2 != 0 || fieldAt b 20 4 != 0 ||
    (slice b 32 32).any (· != 0) || fieldAt b 4 4 != i % 2 ^ 32 || (fieldAt b 0 1 == 1 && fieldAt b 16 4 == 0) ||
    (fieldAt b 0 1 != 1 && fieldAt b 16 4 != 0)

/-- May the partition's command ring be read and sampled (R598)? -/
def State.ringRuns (s : State) (k : Nat) : Bool :=
  s.partValid k && s.fld (rHifCrCtrl k) 63 63 == 1 && s.fld (rGlbAbi + localStride * s.owner k) 7 0 != 0 &&
    s.pstate k != 3 && s.pstate k != 4 && !(decide (1 ≤ s.fld rPwrStatus 63 61) && decide (s.fld rPwrStatus 63 61 ≤ 3))

/-- Bytes of a ring in the partition's own usable device memory; all ones elsewhere (R515, R594; log entry 108). -/
def State.ringBytes (s : State) (k a n : Nat) : List Nat := if s.inBounds k a n then s.hbmRead a n else List.replicate n 255

/-- The address of entry `i` of a command ring (R594). -/
def State.ringPlace (s : State) (k i : Nat) : Nat := (s.reg (rHifCrBase k)).toNat + 64 * (i % 2 ^ s.fld (rHifCrCtrl k) 3 0)

/-- The entries of a device-memory ring from index `i` on (R594). -/
def State.deviceEntries (s : State) (k i n : Nat) : List (List Nat) :=
  (List.range n).map fun j => s.ringBytes k (s.ringPlace k (i + j)) 64

/-- The first place of a device-memory ring, its producer word or one of `n` entries from index `i` on, whose line fails its check (R480). -/
def State.ringBad (s : State) (k i n : Nat) : Option Nat :=
  (((s.reg (rHifCrProdAddr k)).toNat, 4) :: (List.range n).map fun j => (s.ringPlace k (i + j), 64)).findSome? fun g =>
    if s.inBounds k g.1 g.2 && s.hbmBad g.1 g.2 then some (s.badAddr g.1 g.2) else none

/-- RING_PRODUCER_READ (R594, R596, R597): the producer word and the new entries, from device memory or as the host's memory gives them;
as many as the step queue has room for are checked and kept for the sample. A line of device memory that fails its check is recovered, and the
word is read again at a later beat boundary (R480, R483). -/
def execRingProducerRead (k prod : Nat) (entries : List (List Nat)) (s : State) : Out :=
  if !s.ringRuns k then .next (s.modPart k fun p => { p with prodRead := false })
  else
    let cons := s.fld (rHifCrStatus k) 63 32
    let dev := s.fld (rHifCrCtrl k) 62 62 == 1
    let prod := if dev then leNat (s.ringBytes k (s.reg (rHifCrProdAddr k)).toNat 4) else prod
    let new := (prod + 2 ^ 32 - cons % 2 ^ 32) % 2 ^ 32
    let room := 16 - (s.part k).queue.length
    let es := if dev then s.deviceEntries k cons (min new room) else entries.take (min new room)
    let tooFar := decide (2 ^ s.fld (rHifCrCtrl k) 3 0 < new)
    let good := if tooFar then [] else (es.zipIdx.takeWhile fun e => !entryBad e.1 (cons + e.2)).map (·.1)
    let bad := if tooFar then some (ringEntry (es.headD []))
      else if good.length < es.length then some (ringEntry (es.getD good.length [])) else none
    match (if dev then s.ringBad k cons (min new room) else none) with
    | some a => .next ((s.modPart k fun p => { p with prodRead := false }).beginRecovery (a / 2 ^ 36 / 2) 0 0 a 256 0 none false none none)
    | none => .next (s.modPart k fun p => { p with
      prodRead := false, fetched := good.map fun b => { kind := fieldAt b 0 1, entry := ringEntry b },
      refusedAt := bad.map fun e => e.seqno + 2 ^ 32 * e.token })

/-- The command that a ring entry is (R595). -/
def entryCmd (k : Nat) (q : QEntry) : Instr :=
  if q.kind = 0 then .nop k q.entry else if q.kind = 1 then .stepRun k q.entry
  else if q.kind = 2 then .stepStop k q.entry else .mark k q.entry

/-- RING_SAMPLE (R596–R598): the checked entries join the step queue and CONS moves past them; an entry that was refused brings its
record and disables the ring. -/
def execRingSample (k : Nat) (s : State) : Out :=
  if !s.ringRuns k then .next s
  else
    let p := s.part k
    let n := p.fetched.length
    let s := p.fetched.foldl (fun s q => s.laterW 0 (entryCmd k q)) s
    let s := s.setFld (rHifCrStatus k) 63 32 (s.fld (rHifCrStatus k) 63 32 + n)
    let s := s.modPart k fun p => { p with fetched := [], refusedAt := none }
    match p.refusedAt with
    | none => .next s
    | some x => .next ((s.setFld (rHifCrCtrl k) 63 63 0).recordOf k 5 0x32 { seqno := x % 2 ^ 32, token := x / 2 ^ 32 } none true)

/-- An entry put at the end of the step queue, whose head is then served (R599). -/
def State.joinQueue (s : State) (k kind : Nat) (e : RingEntry) : State :=
  State.serveQueue k 17 (s.setQueue k ((s.part k).queue ++ [{ kind := kind, entry := e }]))

/-- NOP (R595). -/
def execNop (k : Nat) (e : RingEntry) (s : State) : Out := .next (s.joinQueue k 0 e)
/-- STEP_RUN (R599, R601). -/
def execStepRun (k : Nat) (e : RingEntry) (s : State) : Out := .next (s.joinQueue k 1 e)
/-- MARK (R600). -/
def execMark (k : Nat) (e : RingEntry) (s : State) : Out := .next (s.joinQueue k 3 e)

/-- The steps of the queue that have not started, cancelled (R600). -/
def cancelled (q : List QEntry) : List QEntry :=
  q.map fun x => if x.kind = 1 then { x with entry := { x.entry with count := x.started } } else x

/-- The first step of the queue that has not started (R600). -/
def firstUnstarted (q : List QEntry) : Nat :=
  match q.find? (fun x => x.kind == 1 && decide (x.started < x.entry.count)) with
  | some x => x.entry.first + x.started
  | none => 0

/-- STEP_STOP (R600): every step not yet started before it is cancelled, and one STOPPED record says which. -/
def execStepStop (k : Nat) (e : RingEntry) (s : State) : Out :=
  let q := (s.part k).queue
  let s := s.setQueue k (cancelled q)
  .next (State.serveQueue k 17 (s.putRecord k 4 0 e.seqno (firstUnstarted q) e.token (unstarted q) true))

end Sys2Proof.Machine
end

