-- ==== Sys2Proof/Machine/Clearing.lean ====
section
/-! DEFINITION. Zenith's answers to the mailbox, the classes of registers, the end of a partition's run, Clearing, quarantine and the
re-key sweep (R372, R520, R531–R537, R542–R546, R556, R565, R566, R606, R607). -/
namespace Sys2Proof.Machine

/-- Result codes (R609). -/
def resOk : Nat := 0
/-- ACCEPTED. -/
def resAccepted : Nat := 1

/-- The first register of interface i's mailbox copy (R588). -/
def mbOfs (i : Nat) : Nat := localStride * i

/-- A mailbox result: the response, RESULT and DETAIL written, BUSY cleared, DONE set and vector 0 sent (R522, R547, R606, R614). -/
def State.mbResult (s : State) (i code result detail ticket : Nat) (resp : List Nat) : State :=
  let s : State := { s with mbuf := memWrite s.mbuf (i * 2 ^ 16 + 2 ^ 15) resp }
  let s := s.setReg (rZenMbDetail + mbOfs i) (BitVec.ofNat 64 detail)
  let s := s.setFld (rZenMbStatus + mbOfs i) 63 62 1
  let s := s.setFld (rZenMbStatus + mbOfs i) 47 40 ticket
  let s := s.setFld (rZenMbStatus + mbOfs i) 31 16 resp.length
  let s := s.setFld (rZenMbStatus + mbOfs i) 15 0 result
  let s := s.setFld (rZenMbCmd + mbOfs i) 63 63 0
  let s := if ticket = 0 ∧ result ≤ 2 then (s.setFld rZenApproved 55 48 code).setFld rZenApproved 62 62 (if code = 0x33 then 0 else 1) else s
  if i < 2 then s.msix i 0 else s.out (.smbus (leBytes 2 result ++ leBytes 8 detail ++ resp))

/-- A result with a response. -/
def State.mbReply (s : State) (i code result : Nat) (resp : List Nat) : State := s.mbResult i code result 0 0 resp
/-- A result without one. -/
def State.mbAnswer (s : State) (i code result : Nat) : State := s.mbResult i code result 0 0 []

/-- The next ticket after t, from 1 to 255 (R607). -/
def ticketAfter (t : Nat) : Nat := t % 255 + 1

/-- A long-running command accepted with a ticket, unless 8 are outstanding (R607): the state and the ticket. -/
def State.mbAccept (s : State) (i code : Nat) : State × Option Nat :=
  if 8 ≤ (s.zen.tickets.filter fun t => t.1 == i).length then (s.mbAnswer i code 3, none)
  else
    let t := s.zen.nextTicket
    let s : State := { s with zen := { s.zen with tickets := s.zen.tickets ++ [(i, t, code)], nextTicket := ticketAfter t } }
    (s.mbResult i code resAccepted 0 t [], some t)

/-- A long-running command has ended: its result joins the interface's ZEN_MB_DONE queue of 8 (R522, R607). -/
def State.mbFinish (s : State) (i ticket result detail : Nat) : State :=
  match s.zen.tickets.find? (fun t => t.1 == i && t.2.1 == ticket) with
  | none => s
  | some t =>
    let s : State := { s with zen := { s.zen with
      tickets := s.zen.tickets.filter (fun x => !(x.1 == i && x.2.1 == ticket)),
      done := SMap.mod s.zen.done i fun (l : List (Nat × Nat × Nat × Nat)) => l ++ [(detail, ticket, t.2.2, result)] } }
    let s := if result ≤ 2 then (s.setFld rZenApproved 55 48 t.2.2).setFld rZenApproved 62 62 1 else s
    if i < 2 then s.msix i 0 else s.out (.smbus (leBytes 2 result ++ leBytes 8 detail))

/-- Ends long-running commands that waited for a partition (R542, R607); one that several partitions hold ends well with the last. -/
def State.finishTickets (s : State) (ts : List (Nat × Nat × Nat)) (result detail : Nat) : State :=
  ts.foldl (fun s t =>
    if result = resOk ∧ (s.parts.any fun e => e.2.tickets.contains t) then s else s.mbFinish t.1 t.2.1 result detail) s

/-- Does a row of the register table cover a BAR0 offset (R11)? -/
def RegRow.has (r : RegRow) (a : Nat) : Bool :=
  (List.range r.bCount).any fun b => (List.range r.count2).any fun j =>
    let o := r.base + b * r.bStride + j * r.stride2
    decide (o ≤ a) && (if r.count1 = 1 then a == o else (a - o) % r.stride1 == 0 && decide ((a - o) / r.stride1 < r.count1))

/-- The row of the register table that covers an offset. -/
def rowOf (a : Nat) : Option RegRow := regTable.find? fun r => r.has a

/-- The bits of a register in the Structure and Status classes, and in the Counter class too when `ctr` (R565). -/
def classMask (ctr : Bool) (a : Nat) : Nat :=
  match rowOf (a % localStride) with
  | some r => Nat.lor r.structure_ (Nat.lor r.status (if ctr then r.counter else 0))
  | none => 0

/-- Registers returned to their reset values in the bits of a mask (R565, R566). -/
def State.resetBits (s : State) (mask : Nat → Nat) : State :=
  { s with regs := s.regs.filterMap fun e =>
      let m := BitVec.ofNat 64 (mask e.1)
      let v := (e.2 &&& ~~~m) ||| (resetWord e.1 &&& m)
      if v = resetWord e.1 then none else some (e.1, v) }

/-- Does a register lie in the partition's core, MEM or LNK blocks, or is it one of its barrier units' (R413, R543, R556)? -/
def State.partReg (s : State) (k a : Nat) : Bool :=
  if 0x200000 ≤ a ∧ a < 0x600000 then (s.partCores k).contains ((a - 0x200000) / 0x100000)
  else if 0x800000 ≤ a ∧ a < 0xC00000 then (s.partCores k).contains ((a - 0x800000) / 0x80000 / 2)
  else if 0xC00000 ≤ a ∧ a < 0xF00000 then bitAt (s.fld (rZenPart k) 53 48) ((a - 0xC00000) / 0x80000)
  else if 0x780000 ≤ a ∧ a < 0x781000 then s.barPart ((a - 0x780000) / 64) == k
  else false

/-- Does a timed effect belong to a partition's run? -/
def State.ownAct (s : State) (k : Nat) (d : Due) : Bool :=
  let mine := fun j => (s.partCores k).contains j
  d.dom == some k || (match d.act with
    | .coreArrive _ c _ _ _ => mine c
    | .departReach u _ => s.barPart u == k
    | .coreDepart u _ _ => s.barPart u == k
    | .stepAnchor j => j == k
    | _ => false)

/-- What is left of a partition's run when it becomes unloaded: nothing of its contexts, engines, arrays, barrier units, rendezvous and
queues. Its keys, signers, export number, waiting commands and a captured dump stay (R372, R556, R560, R566, R629). -/
def State.dropRun (s : State) (k : Nat) : State :=
  let cores := s.partCores k
  let s : State := { s with
    cores := s.cores.filter fun e => !cores.contains e.1
    arrays := s.arrays.filter fun e => !cores.contains (e.1 / 4)
    bars := s.bars.filter fun e => s.barPart e.1 != k
    slots := s.slots.filter fun x => !cores.contains (x.node / 4)
    transfers := s.transfers.filter fun t => !cores.contains t.core
    reads := s.reads.filter fun r => !cores.contains r.core
    stra := s.stra.filter fun t => !cores.contains t.core
    gathers := s.gathers.filter fun g => !cores.contains g.core
    recoveries := s.recoveries.filter fun r => r.patrol || r.host.isSome || !cores.contains r.core
    supplied := s.supplied.filter fun x => !cores.contains (x.1 % 4)
    writtenBack := s.writtenBack.filter fun x => !cores.contains x.core
    agenda := s.agenda.filter fun d => !s.ownAct k d }
  s.modPart k fun p => {
    keys := p.keys, granules := p.granules, sweepAt := p.sweepAt, locked := p.locked, lockAt := p.lockAt,
    signers := p.signers, exportSeq := p.exportSeq, resultKey := p.resultKey, tickets := p.tickets, clearStep := p.clearStep,
    clearCode := p.clearCode, pstatFlip := p.pstatFlip, clearAfter := p.clearAfter, dumpState := p.dumpState, dumpHdr := p.dumpHdr,
    dumpBody := p.dumpBody, trigger := p.trigger }

/-- A partition is loaded with nothing any more: a load under way is cancelled, its run is dropped and its state is unloaded (R372). -/
def State.toUnloaded (s : State) (k : Nat) : State :=
  let s := match (s.part k).loading with | some (_, i, t) => s.mbFinish i t 0x33 0 | none => s
  let s := s.dropRun k
  let s := (s.partCores k).foldl (fun s j => (s.setFld (rSeqCtxStatus j) 1 0 0).setFld (rSeqCtxStatus j) 15 8 0) s
  s.setPstate k 0

/-- The value of PSTAT_Ck[1:0] of each core (R544, R651). -/
def State.pstatOf (s : State) (j : Nat) : Nat :=
  match s.partOf j with
  | none => 0
  | some k =>
    if s.fld rPwrStatus 63 61 = 3 ∨ s.fld rPwrStatus 63 61 = 4 ∨ s.fld rPwrStatus 63 61 = 5 then 0
    else if s.pstate k = 3 then (if (s.part k).pstatFlip then 2 else 1)
    else if s.pstate k = 4 then 3
    else if s.conf k then 2 else 1

/-- The PSTAT pins driven (R544). -/
def State.showPstat (s : State) : State :=
  { s with pstat := (List.range 4).foldl (fun (m : SMap Nat) j => SMap.set m j (s.pstatOf j)) s.pstat }

/-- Clearing begins: its first step changes every observable point (R543, R544). The commands in `ts` wait for its end. -/
def State.beginClearing (s : State) (k : Nat) (ts : List (Nat × Nat × Nat)) : State :=
  let s := s.maintGrant 7 k
  let s := (s.toUnloaded k).setPstate k 3
  let s := s.modPart k fun p => { p with clearStep := 1, clearCode := 0, pstatFlip := false, clearAfter := false, tickets := p.tickets ++ ts }
  s.showPstat.laterW 350000 (.pstatToggle k)

/-- PSTAT_TOGGLE (R544): the pins alternate every 500 µs while Clearing runs. -/
def execPstatToggle (k : Nat) (s : State) : Out :=
  if s.pstate k ≠ 3 then .next s
  else .next (((s.modPart k fun p => { p with pstatFlip := !p.pstatFlip }).showPstat).laterW 350000 (.pstatToggle k))

/-- Zenith draws key material: the number of the draw stands for it (R516; log entry 7). -/
def State.drawKey (s : State) : Nat × State := (s.zen.drbg, { s with zen := { s.zen with drbg := s.zen.drbg + 1 } })

/-- A cross-rack port back to awaiting keys (R465, R521, R543). -/
def State.awaitKeys (s : State) (p : Nat) : State :=
  if !s.crossRack p then s
  else
    let s := s.modPort p fun q => { q with txKey := none, rxKey := none, rxOld := none, pendTx := none, keyxSecret := none, groups := 0, groupOpen := [] }
    if s.linkState p = 4 then s.setFld (rLnkStatus p) 63 61 3 else s

/-- Step 2 of Clearing: keys, signers and the recovery table zeroised; a confidential partition gets a new key 0 (R543). -/
def State.clearKeys (s : State) (k : Nat) : State :=
  let d := s.drawKey
  let s := if s.conf k then d.2 else s
  let s := s.modPart k fun p => { p with
    keys := if s.conf k then [(0, some d.1)] else [], granules := [], sweepAt := [], locked := [], lockAt := [], signers := [],
    resultKey := none, exportSeq := 0 }
  let s := s.setReg (rZenXts k) 0
  let s := (maskList 6 (s.fld (rZenPart k) 53 48)).foldl (fun s p => s.awaitKeys p) s
  { s with hbm := s.hbm.filter fun c =>
      !((s.partCores k).any fun j => decide (2 * j * 2 ^ 36 + 0xFBF040000 ≤ c.1) && decide (c.1 < 2 * j * 2 ^ 36 + 0xFBF044000)) }

/-- Step 3 of Clearing: usable space, freeze bitmaps and the cores' SRAM hold zeros (R543). -/
def State.clearMemory (s : State) (k : Nat) : State :=
  let cores := s.partCores k
  let inUse := fun (a : Nat) => cores.contains (a / 2 ^ 36 / 2) &&
    (decide (a % 2 ^ 36 < 0xFB8000000) || (decide (0xFBF000000 ≤ a % 2 ^ 36) && decide (a % 2 ^ 36 < 0xFBF020000)))
  { s with
    hbm := s.hbm.filter fun c => !inUse c.1
    badLine := s.badLine.filter fun e => !inUse (e.1 * 256)
    heldWrites := s.heldWrites.filter fun w => !inUse w.1
    store := s.store.filter fun c => !cores.contains (c.1 / 2 ^ 25)
    lstore := s.lstore.filter fun c => !cores.contains (c.1 / 20971520 / 4) }

/-- Step 4 of Clearing: the partition's registers of the Structure, Status and Counter classes return to reset (R543); the stacks' fill
and ownership bits keep what they say of the hardware. -/
def State.clearRegs (s : State) (k : Nat) : State :=
  let keep := fun a => if 0x800000 ≤ a ∧ a < 0xC00000 ∧ (a - 0x800000) % 0x80000 = 0 then 2 ^ 61 + 2 ^ 63 else 0
  s.resetBits fun a => if s.partReg k a then Nat.land (classMask true a) (2 ^ 64 - 1 - keep a) else 0

/-- Step 5 of Clearing: the lines that still fail after their rewrite are remapped; the first that cannot be is answered (R543, R545). -/
def State.verifyPass (s : State) (bad : List Nat) : State × Option Nat :=
  bad.foldl (fun (p : State × Option Nat) l => match p.2 with
    | some x => (p.1, some x)
    | none =>
      let s := p.1.bump (rMemCrcFail (l / 2 ^ 28)) 1
      match s.remapLine (l / 2 ^ 28) (l % 2 ^ 28) with
      | some s => (s, none)
      | none => (s, some l)) (s, none)

/-- CLEARING_STEP (R543–R545): the current step's work is done and the next begins. `bad` lists the lines that fail step 5 after their
rewrite. -/
def execClearingStep (k : Nat) (bad : List Nat) (s : State) : Out :=
  let n := (s.part k).clearStep
  let next := fun (s : State) => s.modPart k fun p => { p with clearStep := n + 1 }
  if s.pstate k ≠ 3 ∨ n = 0 ∨ 6 ≤ n then .next s
  else if n = 1 then .next (next s)
  else if n = 2 then .next (next (s.clearKeys k))
  else if n = 3 then .next (next (s.clearMemory k))
  else if n = 4 then .next (next ((s.clearRegs k).setPstate k 3))
  else
    let r := s.verifyPass bad
    match r.2 with
    | none => .next (next r.1)
    | some l =>
      let s := r.1.eventStack (l / 2 ^ 28) 0x0504 (l / 2 ^ 28) (l % 2 ^ 28)
      let ts := (s.part k).tickets
      let s := (s.modPart k fun p => { p with clearStep := 0, tickets := [] }).setPstate k 4
      .next (((s.maintEnd 7 k).finishTickets ts 0x2A l).showPstat)

/-- CLEAR_DONE (R542–R544): the observable points return, and the partition is unloaded. -/
def execClearDone (k : Nat) (s : State) : Out :=
  if s.pstate k ≠ 3 ∨ (s.part k).clearStep ≠ 6 then .next s
  else
    let ts := (s.part k).tickets
    let s := (s.modPart k fun p => { p with clearStep := 0, tickets := [], pstatFlip := false }).setPstate k 0
    let s := ((s.maintEnd 7 k).eventCore k 0x0503 0 0).showPstat
    let s := (maskList 6 (s.fld (rZenPart k) 53 48)).foldl (fun s p =>
      if s.crossRack p && s.linkState p == 3 then s.laterW 0 (.keySetRollover p) else s) s
    .next ((s.msix (s.owner k) 0).finishTickets ts resOk 0)

/-- Clearing begins, or, where the arbiter refuses it now, once nothing stands in its way (R507, R542, R560). -/
def State.clearOrWait (s : State) (k : Nat) (ts : List (Nat × Nat × Nat)) : State :=
  match s.maintConflict 7 k with
  | some c => (s.maintRefuse 7 k c).modPart k fun p => { p with clearAfter := true, tickets := p.tickets ++ ts }
  | none => s.beginClearing k ts

/-- A partition reset (R556, R557, R560): what is in flight lands, the partition's Structure and Status registers return to reset, and it is
unloaded; a confidential one runs Clearing. One that is in Clearing, quarantined or unloaded needs nothing. -/
def State.resetPart (s : State) (k : Nat) : State :=
  if s.pstate k = 3 ∨ s.pstate k = 4 then s
  else if (s.part k).dumpState = 1 then s.modPart k fun p => { p with resetWait := true }
  else
    let s := (s.reads.filter fun r => (s.partCores k).contains r.core).foldl (fun s r => s.landRead r) s
    let keep := fun a => if 0x800000 ≤ a ∧ a < 0xC00000 ∧ (a - 0x800000) % 0x80000 = 0 then 2 ^ 61 + 2 ^ 63 else 0
    let s := s.resetBits fun a => if s.partReg k a then Nat.land (classMask false a) (2 ^ 64 - 1 - keep a) else 0
    let was := s.pstate k
    let s := s.toUnloaded k
    if s.conf k ∧ was ≠ 0 then s.clearOrWait k [] else s.showPstat

/-- Granules of a stack's usable space (R535). -/
def granulesPerStack : Nat := 32192

/-- The stacks of a partition. -/
def State.partStacks (s : State) (k : Nat) : List Nat := (s.partCores k).flatMap fun j => [2 * j, 2 * j + 1]

/-- The granule that the sweep of a stack comes to next. -/
def State.sweepNext (s : State) (k st : Nat) : Nat := SMap.get (s.part k).sweepAt st

/-- REKEY_GRANULE_LOCK (R533–R535): the next granule of the stack is locked, no sooner than 23,894 wall cycles after the last lock. -/
def execRekeyGranuleLock (st : Nat) (s : State) : Out :=
  match s.stackPart st with
  | none => .next s
  | some k =>
    let p := s.part k
    let last := SMap.get p.lockAt st
    if s.fld (rZenXts k) 63 63 = 0 ∨ granulesPerStack ≤ s.sweepNext k st ∨ (SMap.get p.locked st).isSome then .next s
    else if last ≠ 0 ∧ s.clk.wall + 1 < last + 23894 then .next (s.laterW (last + 23894 - (s.clk.wall + 1)) (.rekeyGranuleLock st))
    else
      let g := s.sweepNext k st
      let w := s.clk.wall + 1
      .next (s.modPart k fun p => { p with locked := SMap.set p.locked st (some g), lockAt := SMap.set p.lockAt st w })

/-- The sweep of a partition has migrated its last granule (R537): the old slot is zeroised, and REKEY_DONE raised. -/
def State.endSweep (s : State) (k : Nat) : State :=
  let cur := s.fld (rZenXts k) 62 62
  let ts := (s.part k).tickets.filter fun t => t.2.2 == 0x16
  let s := s.modPart k fun p => { p with keys := p.keys.filter fun e => e.1 == cur, sweepAt := [], lockAt := [], locked := [],
                                         tickets := p.tickets.filter fun t => t.2.2 != 0x16 }
  let s := (s.setFld (rZenXts k) 63 63 0).setFld (rZenXts k) 17 0 0
  ((s.maintEnd 6 k).eventCore k 0x0502 0 0).finishTickets ts resOk 0

/-- GRANULE_MIGRATED (R533–R535, R537): the granule's bit flips, the lock is released and the reads that it held go on; the next lock comes
with the stack's spacing. A read of the stack that the migration delays past its window carries LULL_REKEY (R191, R534). -/
def execGranuleMigrated (st : Nat) (s : State) : Out :=
  match s.stackPart st with
  | none => .next s
  | some k =>
    match SMap.get (s.part k).locked st with
    | none => .next s
    | some g =>
      let cur := s.fld (rZenXts k) 62 62
      let s := s.modPart k fun p => { p with
        locked := SMap.erase p.locked st, sweepAt := SMap.set p.sweepAt st (g + 1),
        granules := SMap.set p.granules (st * 32768 + g) (cur == 1) }
      let s : State := { s with reads := s.reads.map fun (r : Read) =>
        if (r.kind = 6 ∨ (sdesc r.desc).src = 0) ∧ r.range.1 / 2 ^ 36 = st then { r with rekey := true } else r }
      let left := s.fld (rZenXts k) 17 0 - 1
      let s := s.setFld (rZenXts k) 17 0 left
      .next (if left = 0 then s.endSweep k else s.laterW 0 (.rekeyGranuleLock st))

/-- A sweep begins: a new key in the slot that no granule carries, and every stack's first lock (R532, R535). -/
def State.beginSweep (s : State) (k : Nat) (ts : List (Nat × Nat × Nat)) : State :=
  let d := s.drawKey
  let s := d.2.maintGrant 6 k
  let new := 1 - s.fld (rZenXts k) 62 62
  let n := (s.partStacks k).length * granulesPerStack
  let s := ((s.setFld (rZenXts k) 63 63 1).setFld (rZenXts k) 62 62 new).setFld (rZenXts k) 17 0 n
  let s := s.modPart k fun p => { p with keys := SMap.set p.keys new (some d.1), sweepAt := [], lockAt := [], locked := [],
                                         tickets := p.tickets ++ ts }
  (s.partStacks k).foldl (fun s st => s.laterW 0 (.rekeyGranuleLock st)) s

end Sys2Proof.Machine
end

