-- ==== Sys2Proof/Machine/Dump.lean ====
section
/-! DEFINITION. The fatal dump: what is captured at a stop, the record and its slots, and the sums that guard it (R479, R628–R632, R635). -/
namespace Sys2Proof.Machine

/-- One byte into a CRC-32C in its reflected form (R479). -/
def crcByte : Nat → Nat → Nat
  | 0, c => c
  | n + 1, c => crcByte n (if c % 2 = 1 then Nat.xor (c / 2) 0x82F63B78 else c / 2)

/-- The CRC-32C of a byte string (R479, R631). -/
def crc32c (bs : List Nat) : Nat := Nat.xor (bs.foldl (fun c b => crcByte 8 (Nat.xor c b)) 0xFFFFFFFF) 0xFFFFFFFF

/-- The CRC of a line: its bytes, then its index within the stack (R479). -/
def lineCrc (bs : List Nat) (l : Nat) : Nat := crc32c (bs ++ leBytes 4 l)

/-- The BAR0 offsets that a row of the register table covers (R11). -/
def RegRow.offsets (r : RegRow) : List Nat :=
  (List.range r.bCount).flatMap fun b => (List.range r.count2).flatMap fun j => (List.range r.count1).map fun i =>
    r.base + b * r.bStride + j * r.stride2 + i * r.stride1

/-- A register as a dump's pair of offset and value (R631). -/
def State.regPair (s : State) (a : Nat) : List Nat := leBytes 8 a ++ leBytes 8 (s.reg a).toNat

/-- Section 0x0001: the registers of the partition's core, MEM and LNK blocks, and of HALO (R631). -/
def State.dumpRegs (s : State) (k : Nat) : List Nat :=
  (((regsCore0 ++ regsCore1 ++ regsMem ++ regsLnk).flatMap RegRow.offsets).filter fun a => s.partReg k a).flatMap s.regPair ++
    (regsHalo.flatMap RegRow.offsets).flatMap s.regPair

/-- Section 0x0002: 64 bytes per context (R631; log entry 21). -/
def State.dumpSeq (s : State) (k : Nat) : List Nat :=
  (s.partCores k).flatMap fun j => (List.range 8).flatMap fun c =>
    let x := s.ctx j c
    let lp := fun i => leBytes 8 ((x.loops[i]?).getD default).iter ++ leBytes 8 ((x.loops[i]?).getD default).count
    leBytes 4 x.cmdIndex ++ leBytes 4 (if x.stopped then 1 else 0) ++ leBytes 8 (s.part k).stepCycle ++ lp 0 ++ lp 1 ++ List.replicate 16 0

/-- Section 0x0003: SEM_VALUE and SEM_MAP of every core (R631). -/
def State.dumpSems (s : State) (k : Nat) : List Nat :=
  (s.partCores k).flatMap fun j => ((List.range 512).flatMap fun i => leBytes 8 (s.reg (rSemValue j i)).toNat) ++
    (List.range 8).flatMap fun c => (List.range 256).flatMap fun i => leBytes 8 (s.reg (rSemMap j c i)).toNat

/-- A half's state as a number (R151). -/
def halfCode (h : Half) : Nat :=
  match h.st with | .free => 0 | .filling => 1 | .held => 2 | .adding => 3 | .sending => 4 | .handoff => 5

/-- Section 0x0004: queue levels, half states, the step queue, CONS and PROD (R631; log entry 21). -/
def State.dumpQueues (s : State) (k : Nat) : List Nat :=
  ((s.partCores k).flatMap fun j =>
    let c := s.core j
    leBytes 4 c.tq.length ++ leBytes 4 (c.feeder.countP fun e => e.2.data.isSome) ++ leBytes 4 c.thinQ.length ++ leBytes 4 0 ++
      (List.range 4).flatMap fun a =>
        let d := s.arr (4 * j + a)
        [halfCode (SMap.get d.ring 0), halfCode (SMap.get d.ring 1), halfCode (SMap.get d.comp 0), halfCode (SMap.get d.comp 1)]) ++
  leBytes 4 (s.part k).stopQueue.length ++ leBytes 4 (s.fld (rHifCrStatus k) 63 32) ++ leBytes 4 (s.fld (rHifCqStatus k) 63 32) ++ leBytes 4 0 ++
  (s.part k).stopQueue.flatMap fun q => [q.kind, 0, 0, 0] ++ leBytes 4 q.entry.seqno ++ leBytes 8 q.entry.first ++ leBytes 4 q.entry.count ++ leBytes 4 q.started

/-- Two event lists joined in the order of SEQ; the fuel is their length (R631). -/
def mergeSeq : Nat → List (List Nat) → List (List Nat) → List (List Nat)
  | 0, a, b => a ++ b
  | _ + 1, [], b => b
  | _ + 1, a, [] => a
  | n + 1, x :: a, y :: b => if fieldAt x 4 4 ≤ fieldAt y 4 4 then x :: mergeSeq n a (y :: b) else y :: mergeSeq n (x :: a) b

/-- Section 0x0005: the last entries of the partition and of the die, oldest first (R624, R631). -/
def State.dumpEvents (s : State) (k : Nat) : List Nat :=
  let a := SMap.get s.logs k
  let b := SMap.get s.logs 4
  (mergeSeq (a.length + b.length) a b).flatMap id

/-- Section 0x0006: the state of each owned port (R631; log entry 21). -/
def State.dumpLinks (s : State) (k : Nat) : List Nat :=
  (maskList 6 (s.fld (rZenPart k) 53 48)).flatMap fun p =>
    let q := s.port p
    leBytes 8 p ++ leBytes 8 (s.reg (rLnkStatus p)).toNat ++ leBytes 8 (s.reg (rLnkRtt p)).toNat ++ leBytes 8 (s.reg (rLnkKeyset p)).toNat ++
      leBytes 4 q.txSeqD ++ leBytes 4 q.rxSeqD ++ leBytes 4 q.keptD.length ++ leBytes 4 q.txSeqC ++ leBytes 4 q.rxSeqC ++ leBytes 4 q.keptC.length ++
      (List.range 4).flatMap fun v => leBytes 4 (SMap.get q.credits v)

/-- Section 0x0007: PWR, CLK, ZEN_APPROVED, ZEN_PART and ZEN_XTS (R631). -/
def State.dumpDie (s : State) : List Nat :=
  ((regsPwr ++ regsClk).flatMap RegRow.offsets ++ [rZenApproved] ++ ((List.range 4).map rZenPart) ++ ((List.range 4).map rZenXts)).flatMap s.regPair

/-- The sections of a dump with their types: of a confidential partition, metadata only (R529, R631). -/
def State.dumpSections (s : State) (k : Nat) : List (Nat × List Nat) :=
  if s.conf k then [(5, s.dumpEvents k), (7, s.dumpDie)]
  else [(1, s.dumpRegs k), (2, s.dumpSeq k), (3, s.dumpSems k), (4, s.dumpQueues k), (5, s.dumpEvents k), (6, s.dumpLinks k), (7, s.dumpDie)]

/-- The section table and the sections, from the table's end at `at_` on (R630, R631). -/
def layDump : Nat → List (Nat × List Nat) → List Nat × List Nat
  | _, [] => ([], [])
  | at_, (t, b) :: r =>
    let x := layDump (at_ + b.length) r
    (leBytes 2 t ++ [0, 0] ++ leBytes 4 (crc32c b) ++ leBytes 4 at_ ++ leBytes 4 b.length ++ x.1, b ++ x.2)

/-- The header of a dump but for its SEQ and COMMIT, and the rest of the record (R630). -/
def State.dumpRecord (s : State) (k : Nat) : List Nat × List Nat :=
  let ss := s.dumpSections k
  let l := layDump (256 + 16 * ss.length) ss
  let body := (l.1 ++ l.2).take (2 ^ 24 - 256)
  let cut := decide (2 ^ 24 - 256 < (l.1 ++ l.2).length)
  let trig := (s.part k).trigger
  ([0x58, 0x4B, 0x44, 0x55, 0x4D, 0x50, 0, 0, 1, 0, (if s.conf k then 1 else 0) + (if cut then 2 else 0), k, s.owner k, 0, 0, 0] ++ List.replicate 8 0 ++
    leBytes 8 (s.part k).stepNo ++ leBytes 8 (fieldAt trig 8 8) ++ leBytes 8 (s.reg (rSeqAnchor k)).toNat ++ leBytes 8 (s.reg (rSeqLag k)).toNat ++
    leBytes 8 (256 + body.length) ++ trig ++ leBytes 4 ss.length ++ List.replicate 156 0, body)

/-- DUMP_CAPTURE_DONE (R628): the state of the stopped partition is held; a reset or UNLOAD that waited for it runs and is answered. -/
def execDumpCaptureDone (k : Nat) (s : State) : Out :=
  if (s.part k).dumpState ≠ 1 then .next s
  else
    let d := s.dumpRecord k
    let wait := (s.part k).resetWait
    let as_ := (s.part k).waitAns
    let s := s.modPart k fun p => { p with dumpState := 2, dumpHdr := d.1, dumpBody := d.2, resetWait := false, waitAns := [] }
    let s := if wait then s.resetPart k else s
    .next (as_.foldl (fun s a => s.mbAnswer a.1 a.2 resOk) s)

/-- The slot of a partition that its next dump takes: the lowest that is not valid, or else the one with the lowest SEQ (R629). -/
def State.dumpSlot (s : State) (k : Nat) : Nat × Bool :=
  let l := (List.range 4).map (· + 4 * k)
  match l.find? (fun n => !(SMap.get s.dumps n).valid) with
  | some n => (n, false)
  | none => (l.foldl (fun b n => if (SMap.get s.dumps n).seq < (SMap.get s.dumps b).seq then n else b) (4 * k), true)

/-- DUMP_WRITTEN (R542, R627, R629, R630): the record is committed to its slot, or the slot is left invalid; a confidential partition then runs
Clearing. -/
def execDumpWritten (k : Nat) (ok : Bool) (s : State) : Out :=
  let p := s.part k
  if p.dumpState ≠ 2 then .next s
  else
    let t := s.dumpSlot k
    let seq := s.zen.dumpSeq + 1
    let rec_ := p.dumpHdr.take 16 ++ leBytes 8 seq ++ slice p.dumpHdr 24 224 ++ leBytes 8 seq ++ p.dumpBody
    let slot : DumpSlot := { valid := true, seq := seq, owner := fieldAt rec_ 12 1, code := fieldAt rec_ 64 2, conf := bitAt (fieldAt rec_ 10 1) 0, bytes := rec_ }
    let s : State := { s with zen := { s.zen with dumpSeq := seq }, dumps := SMap.set s.dumps t.1 (if ok then slot else {}) }
    let s := if t.2 then (List.range 2).foldl (fun s h => s.modHost h fun x => { x with overwrote := Nat.lor x.overwrote (2 ^ k) }) s else s
    let s := s.modPart k fun p => { p with dumpState := 0, dumpHdr := [], dumpBody := [], trigger := [] }
    let s := s.raise { code := if ok then 0x0509 else 0x050A, sev := if ok then 0 else 2, source := 20, part := k, detail := if ok then t.1 % 4 else 2, open_ := true }
    if !s.conf k || s.pstate k != 5 then .next s
    else .next (s.clearOrWait k [])

/-- The slot that a DBG_DUMP_SEL names: 4 × PART + SLOT (R638). -/
def State.dumpSel (s : State) (h : Nat) : Nat := s.fld (rDbgDumpSel + localStride * h) 3 0

/-- A write of DBG_DUMP_SEL (R632, R638): it selects a slot, and RELEASE invalidates it for its owner. -/
def State.writeDumpSel (s : State) (h : Nat) (v : Word) : State :=
  let s := s.setFld (rDbgDumpSel + localStride * h) 3 0 (getF v 3 0)
  let n := s.dumpSel h
  let d := SMap.get s.dumps n
  if getF v 63 63 = 1 ∧ d.valid ∧ d.owner = h then { s with dumps := SMap.set s.dumps n {} } else s

/-- A write of DBG_TRACE_CTRL (R529, R635, R638); one that sets ENABLE is refused while any partition is confidential. -/
def State.writeTraceCtrl (s : State) (v : Word) : State :=
  if getF v 63 63 = 1 ∧ s.anyConf then s else s.setReg rDbgTraceCtrl (v &&& 0xC0000000000000C7)

end Sys2Proof.Machine
end

