-- ==== Sys2Proof/Machine/Image.lean ====
section
/-! DEFINITION. The Sorore image and the loader's checks: the header and sections, the structure section, the descriptor tables, the
rendezvous entries, the programs and the relocation (R351–R368, R373, R374, R376, R664–R670). A check answers the rejection code and the
offset of the first failing field (R372), or nothing. -/
namespace Sys2Proof.Machine

/-- A rejection: its code and the byte offset of the field (R372). -/
abbrev Fail := Option (Nat × Nat)

/-- A check of a field. -/
def need (ok : Bool) (code off : Nat) : Fail := if ok then none else some (code, off)

/-- The first failing check of a list. -/
def firstFail (l : List Fail) : Fail := l.foldl (fun a b => a.or b) none

/-- The first failing check over a list of items. -/
def allOk {α : Type} (f : α → Fail) (l : List α) : Fail := l.foldl (fun a x => a.or (f x)) none

/-- Are the bytes from `off` zero? -/
def zeros (b : List Nat) (off n : Nat) : Bool := (slice b off n).all (· == 0)

/-- Rejection codes (R609): IMAGE_FORMAT. -/
def cFormat : Nat := 0x10
/-- IMAGE_STRUCTURE. -/
def cStructure : Nat := 0x13
/-- IMAGE_DESCRIPTOR. -/
def cDescriptor : Nat := 0x14
/-- IMAGE_RENDEZVOUS. -/
def cRendezvous : Nat := 0x15
/-- IMAGE_PROGRAM. -/
def cProgram : Nat := 0x16
/-- IMAGE_RELOC. -/
def cReloc : Nat := 0x17

/-- A section of an image (R353). -/
structure Sect where
  typ : Nat
  unit : Nat
  off : Nat
  body : List Nat
  at_ : Nat
deriving DecidableEq, Repr, Inhabited

/-- The section table of an image, with each section's bytes (R351, R353). -/
def sections (img : List Nat) : List Sect :=
  (List.range (fieldAt img 16 4)).map fun i =>
    let e := slice img (256 + 32 * i) 32
    { typ := fieldAt e 0 1, unit := fieldAt e 1 1, off := fieldAt e 8 8, body := slice img (fieldAt e 8 8) (fieldAt e 16 8), at_ := 256 + 32 * i }

/-- The section of a type and unit, if the image has it. -/
def sect (img : List Nat) (typ unit : Nat) : Option Sect := (sections img).find? fun x => x.typ == typ && x.unit == unit

/-- The bytes of the section of a type and unit; none when it is absent. -/
def sectBody (img : List Nat) (typ unit : Nat) : List Nat := ((sect img typ unit).map (·.body)).getD []

/-- The header's fields (R352); the latency-table version is IMAGE_LATENCY's (R368). -/
def checkHeader (img : List Nat) (len : Nat) : Fail :=
  firstFail [
    need (slice img 0 8 == [0x53, 0x4F, 0x52, 0x4F, 0x52, 0x45, 0, 0]) cFormat 0,
    need (fieldAt img 8 1 == 3) cFormat 8, need (decide (fieldAt img 9 1 ≤ 2)) cFormat 9, need (fieldAt img 10 2 == 0x0C03) 0x11 10,
    need (fieldAt img 12 2 == 0x9616) cFormat 12, need (fieldAt img 14 1 == 0xC0) cFormat 14,
    need ([1, 2, 4].contains (fieldAt img 15 1)) cFormat 15, need (decide (1 ≤ fieldAt img 16 4) && decide (fieldAt img 16 4 ≤ 64)) cFormat 16,
    need (zeros img 20 4) cFormat 20, need (fieldAt img 24 8 == len) cFormat 24, need (zeros img 32 224) cFormat 32]

/-- The greatest length of a section of a type, and the length of its entries (R353). -/
def sectLimit (typ : Nat) : Nat × Nat :=
  if typ = 1 then (2 ^ 20, 1) else if typ = 2 then (64 + 16 * 65536, 16) else if typ = 3 then (4096 * 64, 64) else if typ = 4 then (2048 * 64, 64)
  else if typ = 5 then (8192 * 32, 32) else if typ = 6 then (2 ^ 25, 1) else if typ = 7 then (0xFB8000000, 1)
  else if typ = 8 then (16 * 1048576, 16) else (8192, 1)

/-- The units that a section of a type may name, in an image of n cores (R353). -/
def sectUnits (n typ : Nat) : List Nat :=
  if typ = 1 ∨ typ = 8 ∨ typ = 9 then [0xFF] else if typ = 7 then List.range (2 * n) else List.range n

/-- The section table (R351, R353). -/
def checkSections (img : List Nat) : Fail :=
  let n := fieldAt img 15 1
  let raw := (List.range (fieldAt img 16 4)).map fun i => (256 + 32 * i, slice img (256 + 32 * i) 32)
  let sp := fun (e : List Nat) => (fieldAt e 8 8, fieldAt e 16 8)
  (allOk (fun (x : Nat × List Nat) =>
    let t := fieldAt x.2 0 1
    let o := sp x.2
    firstFail [
      need (decide (1 ≤ t) && decide (t ≤ 9)) cFormat x.1, need ((sectUnits n t).contains (fieldAt x.2 1 1)) cFormat (x.1 + 1),
      need (zeros x.2 2 6) cFormat (x.1 + 2),
      need (o.1 % 4096 == 0 && decide (256 + 32 * raw.length ≤ o.1) && decide (o.1 + o.2 ≤ fieldAt img 24 8)) cFormat (x.1 + 8),
      need (decide (o.2 ≤ (sectLimit t).1) && o.2 % (sectLimit t).2 == 0) cFormat (x.1 + 16), need (zeros x.2 24 8) cFormat (x.1 + 24),
      need (!(raw.any fun y => decide (y.1 < x.1) && fieldAt y.2 0 1 == t && fieldAt y.2 1 1 == fieldAt x.2 1 1)) cFormat x.1,
      need (!(raw.any fun y => decide (y.1 < x.1) && decide (0 < o.2) && decide ((sp y.2).1 < o.1 + o.2) && decide (o.1 < (sp y.2).1 + (sp y.2).2))) cFormat (x.1 + 8)])
    raw).or
  (allOk (fun (t : Nat) => allOk (fun u => need (raw.any fun x => fieldAt x.2 0 1 == t && fieldAt x.2 1 1 == u) cFormat 256) (sectUnits n t)) [1, 2, 3, 4])

/-- A record of the structure section: its type, instance, payload and place in the image (R356). -/
structure Rec where
  typ : Nat
  inst : Nat
  body : List Nat
  at_ : Nat
deriving DecidableEq, Repr, Inhabited

/-- The records of a structure section; the fuel is its length. None when a record runs past the end. -/
def readRecs : Nat → Nat → List Nat → Option (List Rec)
  | 0, _, _ => some []
  | n + 1, at_, b =>
    if b = [] then some []
    else
      let len := fieldAt b 4 4
      if b.length < 8 + len ∨ len % 8 ≠ 0 then none
      else (readRecs n (at_ + 8 + len) (b.drop (8 + len))).map fun r =>
        { typ := fieldAt b 0 2, inst := fieldAt b 2 2, body := slice b 8 len, at_ := at_ } :: r

/-- The records of an image. -/
def records (img : List Nat) : List Rec :=
  match sect img 1 0xFF with
  | some s => (readRecs s.body.length s.off s.body).getD []
  | none => []

/-- The payload of a record; empty when it is absent. -/
def recBody (rs : List Rec) (typ inst : Nat) : List Nat := ((rs.find? fun r => r.typ == typ && r.inst == inst).map (·.body)).getD []

/-- The context entries (FIRST, COUNT) of a program (R356). -/
def ctxEntries (prog : List Nat) : List (Nat × Nat) := (List.range 8).map fun c => (fieldAt prog (8 * c) 4, fieldAt prog (8 * c + 4) 4)

/-- The instructions of a context (R356). -/
def ctxInstrs (prog : List Nat) (c : Nat) : List SeqInstr :=
  let e := (ctxEntries prog).getD c (0, 0)
  (List.range e.2).map fun i => instrAt prog (e.1 + i)

/-- The contexts that a core's program uses (R357). -/
def usedCtxs (img : List Nat) (j : Nat) : List Nat := (List.range 8).filter fun c => ((ctxEntries (sectBody img 2 j)).getD c (0, 0)).2 != 0

/-- Barrier units that an image names (R357). -/
def usedUnits (img : List Nat) (rs : List Rec) : List Nat :=
  let own := (List.range (fieldAt img 15 1)).flatMap fun j => (usedCtxs img j).flatMap fun c =>
    ((ctxInstrs (sectBody img 2 j) c).filter fun q => q.op == 1 || q.op == 0xA).map (·.target)
  let rv := (rs.filter fun r => r.typ == 10).map fun r => fieldAt r.body 0 1
  (List.range 256).filter fun u => own.contains u || rv.contains u

/-- The entries of a core's vector table. -/
def vecEntries (img : List Nat) (j : Nat) : List (List Nat) := let b := sectBody img 4 j; chunksOf 64 b.length b

/-- The entries of a core's stream table. -/
def strEntries (img : List Nat) (j : Nat) : List (List Nat) := let b := sectBody img 3 j; chunksOf 64 b.length b

/-- Tensor segments that a core's thinning descriptors of OP 0x50 or 0x51 name (R357). -/
def usedSegs (img : List Nat) (j : Nat) : List Nat :=
  let l := ((vecEntries img j).filter fun d => fieldAt d 0 1 == 0x50 || fieldAt d 0 1 == 0x51).map fun d => fieldAt d 2 1
  (List.range 256).filter fun x => l.contains x

/-- The payload length of a record (R664). -/
def recLen (r : Rec) : Nat :=
  match r.typ with
  | 1 => 16 | 2 => 8 | 3 => 8 | 4 => 80 | 5 => 2048 | 6 => 512 | 7 => 40 | 8 => 8 + 16 * fieldAt r.body 6 2 | 9 => 64 | 10 => 32 | 11 => 120
  | 12 => 24 | 13 => 16 | _ => 8

/-- The instances that an image must hold of a record type; none where R357 gives only a bound. -/
def recNeeds (img : List Nat) (rs : List Rec) (n typ : Nat) : Option (List Nat) :=
  if typ = 1 ∨ typ = 8 ∨ typ = 14 then some [0]
  else if typ = 2 ∨ typ = 3 ∨ typ = 4 ∨ typ = 13 then some (List.range n)
  else if typ = 5 ∨ typ = 6 then some ((List.range n).flatMap fun j => (usedCtxs img j).map (8 * j + ·))
  else if typ = 7 then some (usedUnits img rs)
  else if typ = 12 then some ((List.range n).flatMap fun j => (usedSegs img j).map (256 * j + ·))
  else none

/-- The bound on the instances of the other record types (R357, R664). -/
def recBound (n typ : Nat) : Nat := if typ = 9 then 1024 else if typ = 10 then 256 else 4 * n

/-- Counts, order, instances and lengths of the records (R357, R664). -/
def checkRecs (img : List Nat) (rs : List Rec) : Fail :=
  let n := fieldAt img 15 1
  let bad := fun (ok : Bool) (r : Rec) => need ok cStructure r.at_
  ((rs.zip rs.tail).foldl (fun a p => a.or (bad (decide (p.1.typ * 65536 + p.1.inst < p.2.typ * 65536 + p.2.inst)) p.2)) none).or <|
  (allOk (fun r => firstFail [bad (decide (1 ≤ r.typ) && decide (r.typ ≤ 14)) r, bad (r.body.length == recLen r) r,
    bad (match recNeeds img rs n r.typ with | some l => l.contains r.inst | none => decide (r.inst < recBound n r.typ)) r]) rs).or
  (allOk (fun (t : Nat) => match recNeeds img rs n t with
    | some l => need (l.all fun x => rs.any fun r => r.typ == t && r.inst == x) cStructure ((sect img 1 0xFF).map (·.off) |>.getD 0)
    | none => none) ((List.range 14).map (· + 1)))

/-- What the loader knows of the partition and the installation (R358, R374): cores in order, shape, link ports, whether it is confidential,
whether the installation is the bench shape, and the die's bypass set (R40). -/
structure LoadEnv where
  cores : List Nat
  shape : Nat
  ports : Nat
  conf : Bool
  bench : Bool
  me : Coord
  dims : Coord
  bases : List Nat
  params : List Nat
  fuse : Nat
deriving DecidableEq, Repr, Inhabited

/-- The five core-store regions of a STORE_MAP payload (R666); one of length 0 is absent. -/
def mapRegions (b : List Nat) : List (Nat × Nat) := (List.range 5).map fun i => (fieldAt b (32 + 8 * i) 4, fieldAt b (36 + 8 * i) 4)

/-- Do two regions overlap? -/
def overlaps (x y : Nat × Nat) : Bool := decide (0 < x.2) && decide (0 < y.2) && decide (x.1 < y.1 + y.2) && decide (y.1 < x.1 + x.2)

/-- The payload of a record (R358, R407, R664–R670). -/
def checkPayload (e : LoadEnv) (img : List Nat) (rs : List Rec) (r : Rec) : Fail :=
  let b := r.body
  let n := e.cores.length
  let at_ := fun (ok : Bool) (o : Nat) => need ok cStructure (r.at_ + 8 + o)
  match r.typ with
  | 1 => firstFail [at_ (fieldAt b 0 1 == e.shape) 0, at_ (fieldAt b 1 1 == 1) 1, at_ (decide (fieldAt b 2 1 < 2)) 2, at_ (fieldAt b 2 1 == 0 || e.conf) 2,
      at_ (zeros b 3 1) 3, at_ (decide (fieldAt b 4 4 < 2 ^ 18)) 4, at_ (zeros b 12 4) 12]
  | 2 => firstFail [at_ (decide (fieldAt b 0 1 < 3)) 0, at_ (zeros b 1 7) 1]
  | 3 => firstFail [at_ (decide (fieldAt b 0 1 < 2)) 0, at_ (zeros b 1 7) 1]
  | 4 =>
    let rg := mapRegions b
    let lens := [(sectBody img 3 r.inst).length, (sectBody img 4 r.inst).length, (sectBody img 5 r.inst).length, (sectBody img 6 r.inst).length]
    firstFail [
      allOk (fun i => firstFail [at_ (decide (fieldAt b (8 * i) 2 + 2050 ≤ 20480)) (8 * i), at_ (decide (fieldAt b (8 * i + 2) 2 + 2050 ≤ 20480)) (8 * i + 2),
        at_ (fieldAt b (8 * i + 4) 2 == 0xFFFF || decide (fieldAt b (8 * i + 4) 2 + 2114 ≤ 20480)) (8 * i + 4),
        at_ (fieldAt b (8 * i + 6) 2 == 0xFFFF || decide (fieldAt b (8 * i + 6) 2 + 2114 ≤ 20480)) (8 * i + 6)]) (List.range 4),
      allOk (fun i => firstFail [at_ ((rg.getD i (0, 0)).2 == 0 || decide ((rg.getD i (0, 0)).1 + (rg.getD i (0, 0)).2 ≤ 0x2000000)) (32 + 8 * i),
        at_ (!((List.range i).any fun j => overlaps (rg.getD i (0, 0)) (rg.getD j (0, 0)))) (32 + 8 * i)]) (List.range 5),
      allOk (fun i => at_ (decide (lens.getD i 0 ≤ (rg.getD i (0, 0)).2)) (32 + 8 * i)) (List.range 4),
      at_ (fieldAt b 72 1 == (if n = 1 then 1 else 2)) 72, at_ (zeros b 73 7) 73]
  | 5 =>
    let sems := recBody rs 6 r.inst
    allOk (fun m =>
      let x := slice b (16 * m) 16
      let o := 16 * m
      let off := fieldAt x 0 1 == 0
      firstFail [at_ (decide (fieldAt x 0 1 ≤ 2)) o, at_ (off || (bitAt (fieldAt sems (4 * m) 2) 15 && bitAt (fieldAt sems (4 * m + 2) 2) 15)) o,
        at_ (off || decide (fieldAt x 1 1 ≤ 15)) (o + 1), at_ (off || decide (fieldAt x 2 1 ≤ 15)) (o + 2),
        at_ ((off || decide (fieldAt x 3 1 % 16 ≤ 2)) && decide (fieldAt x 3 1 < 64)) (o + 3), at_ (zeros x 13 3) (o + 13)]) (List.range 128)
  | 6 =>
    let used := fun (r' : Rec) (i : Nat) => if bitAt (fieldAt r'.body (2 * i) 2) 15 then some (fieldAt r'.body (2 * i) 2 % 2 ^ 15) else none
    allOk (fun i => firstFail [at_ (bitsAt (fieldAt b (2 * i) 2) 9 6 == 0) (2 * i),
      match used r i with
      | none => none
      | some x => at_ (!(rs.any fun r' => r'.typ == 6 && r'.inst / 8 == r.inst / 8 && decide (r'.inst ≤ r.inst) &&
          (List.range (if r'.inst = r.inst then i else 256)).any fun i' => used r' i' == some x)) (2 * i)]) (List.range 256)
  | 7 =>
    let ch := maskList 6 (fieldAt b 2 1)
    let cs := maskList 4 (fieldAt b 3 1)
    firstFail [at_ (decide (fieldAt b 0 1 < 2)) 0, at_ (if fieldAt b 0 1 = 1 then fieldAt b 1 1 == 7 else decide (fieldAt b 1 1 ≤ 5)) 1,
      at_ (decide (fieldAt b 2 1 < 64)) 2, at_ (decide (fieldAt b 3 1 < 2 ^ n)) 3, at_ (fieldAt b 4 1 == cs.length + ch.length && decide (1 ≤ fieldAt b 4 1)) 4,
      at_ (zeros b 6 2) 6, at_ (fieldAt b 8 4 == cs.length + ((ch.map fun p => fieldAt b (16 + 4 * p) 4).foldl (· + ·) 0)) 8, at_ (zeros b 12 4) 12,
      allOk (fun p => at_ (ch.contains p || fieldAt b (16 + 4 * p) 4 == 0) (16 + 4 * p)) (List.range 6),
      at_ (!e.bench || (fieldAt b 0 1 == 1 && fieldAt b 2 1 == 0)) 0]
  | 8 => firstFail [allOk (fun p => at_ (decide (fieldAt b p 1 < 2)) p) (List.range 6), at_ (decide (fieldAt b 6 2 ≤ 256)) 6,
      allOk (fun i => let x := slice b (8 + 16 * i) 16
        firstFail [at_ ([0, 1, 2, 5].contains (fieldAt x 4 1)) (12 + 16 * i), at_ (decide (fieldAt x 5 1 ≤ 3)) (13 + 16 * i), at_ (zeros x 6 2) (14 + 16 * i),
          at_ (zeros x 13 3) (21 + 16 * i)]) (List.range (fieldAt b 6 2))]
  | 9 => firstFail [at_ (decide (1 ≤ fieldAt b 0 1) && decide (fieldAt b 0 1 ≤ 4)) 0, at_ (decide (fieldAt b 1 1 < 8) && (!bitAt (fieldAt b 1 1) 1 || fieldAt b 0 1 == 1)) 1,
      at_ (decide (fieldAt b 6 1 < 64)) 6, at_ (zeros b 32 32) 32]
  | 11 => firstFail [at_ (bitsAt (fieldAt b 0 8) 16 16 == 0 && bitsAt (fieldAt b 0 8) 2 2 == 0 && decide (bitsAt (fieldAt b 0 8) 0 2 < 3) &&
      decide (bitsAt (fieldAt b 0 8) 4 4 ≤ 5) && decide (bitsAt (fieldAt b 0 8) 8 4 ≤ 8) && decide (bitsAt (fieldAt b 0 8) 12 4 ≤ 8)) 0,
      allOk (fun i => at_ (fieldAt b (60 + 8 * i) 4 == 0) (56 + 8 * i)) (List.range 8)]
  | 12 =>
    let same := (rs.find? fun r' => r'.typ == 12 && r'.inst / 256 == r.inst / 256).map fun r' => slice r'.body 8 13
    firstFail [at_ (decide (4 ≤ fieldAt b 0 1) && decide (fieldAt b 0 1 ≤ 10)) 0,
      at_ (decide (4 ≤ fieldAt b 1 1) && decide (fieldAt b 1 1 ≤ fieldAt b 2 1) && decide (fieldAt b 2 1 ≤ 10)) 1, at_ (zeros b 3 5) 3,
      at_ (same == some (slice b 8 13)) 8, at_ (zeros b 21 3) 21]
  | 13 => firstFail [at_ (zeros b 1 3) 1, at_ (fieldAt b 4 4 != 0 && (rs.find? fun r' => r'.typ == 13).map (fun r' => fieldAt r'.body 4 4) == some (fieldAt b 4 4)) 4]
  | 14 => firstFail [at_ (fieldAt b 0 1 == e.ports) 0, at_ (zeros b 1 7) 1]
  | _ => none

/-- A rendezvous entry (R6, R330). -/
def checkRv (e : LoadEnv) (r : Rec) : Fail :=
  if r.typ ≠ 10 then none
  else
    let b := r.body
    let x := rvEntry b
    let at_ := fun (ok : Bool) (o : Nat) => need ok cRendezvous (r.at_ + 8 + o)
    firstFail [at_ (!e.bench) 0, at_ (decide (x.barrier < 64)) 0, at_ (zeros b 1 1) 1, at_ (decide (2 ≤ x.slack)) 8,
      at_ (decide (1 ≤ x.lead) && decide (x.lead < x.slack)) 10, at_ (decide (x.point ≤ 700 * x.ofs)) 12, at_ (decide (x.point < x.done)) 17, at_ (zeros b 22 10) 22]

/-- The structure section against the partition (R357, R358). -/
def checkStructure (e : LoadEnv) (img : List Nat) : Fail :=
  match sect img 1 0xFF with
  | none => some (cStructure, 0)
  | some s =>
    match readRecs s.body.length s.off s.body with
    | none => some (cStructure, s.off)
    | some rs => firstFail [need (fieldAt img 15 1 == e.cores.length) cStructure 15, checkRecs img rs, allOk (checkPayload e img rs) rs]

/-- The spaces that a kind may read and write (R172). -/
def kindSpaces (k : Nat) : List Nat × List Nat :=
  if k = 1 then ([0, 1], [0, 1]) else if k = 2 then ([0, 1], [1, 2]) else if k = 3 then ([1], [4]) else if k = 4 then ([8], [0, 1, 2, 5, 7])
  else if k = 5 then ([3], [6]) else if k = 6 then ([0, 7], [5]) else ([7], [0, 1, 2])

/-- Is a Stratus address one that R389 lays out? -/
def stratusOk (a : Nat) : Bool :=
  let kind := a / 2 ^ 37
  kind == 2 || (decide (kind < 2) && !bitAt a 36 && [1, 2, 5].contains (bitsAt a 29 3))

/-- A stream descriptor (R171–R174, R389). -/
def checkStream (off : Nat) (d : List Nat) : Fail :=
  let q := sdesc d
  let at_ := fun (ok : Bool) (o : Nat) => need ok cDescriptor (off + o)
  let moves := decide (q.kind ≤ 5)
  let cyc := fun fmt space => ceilDiv (tileBytes fmt) (portWidth space)
  firstFail [at_ (decide (1 ≤ q.kind) && decide (q.kind ≤ 7)) 0, at_ ((kindSpaces q.kind).1.contains q.src && (kindSpaces q.kind).2.contains q.dst) 2,
    at_ (q.format == 0 || assignedTile q.format || q.format == fcBFP16) 3, at_ (q.kind != 1 || q.format == 0 || q.format == q.srcFormat) 3,
    at_ (decide (q.srcArray ≤ 3) && decide (q.dstArray ≤ 3)) 18,
    at_ (if moves then assignedTile q.srcFormat || q.srcFormat == fcBFP16 else q.srcFormat == 0) 42, at_ (zeros d 43 1) 43, at_ (decide (q.slot < 64)) 52, at_ (zeros d 53 11) 53,
    at_ (q.dst != 7 || stratusOk q.auxBase) 44, at_ (q.kind != 6 || q.src != 7 || stratusOk q.srcBase) 4,
    at_ (!moves || decide (max (cyc q.srcFormat q.src) (cyc q.target q.dst) ≤ q.interval)) 30]

/-- The buffer sides of a stream descriptor whose HALF_STRIDE differs from the link's, in the LINKS record of a context (R183, R667). -/
def strideOk (links : List Nat) (q : SDesc) : Bool :=
  let side := fun (on : Bool) (m : Nat) => !on || decide (128 ≤ m) || fieldAt links (16 * m) 1 == 0 || fieldAt links (16 * m + 4) 4 == q.stride
  side q.srcBuf q.linkIn && side q.dstBuf q.linkOut

/-- The words at the vector store's disposal: the register file, or the operand cache (R229, R230). -/
def regionWords (n : Nat) : Nat := if n = 1 then 65536 else 6291456

/-- Does an operand's extent lie within the region (R214, R231)? -/
def extentOk (words base w : Nat) (d : VDesc) (i : Nat) : Bool :=
  let s1 := d.strides.getD (2 * i) 0
  let s2 := d.strides.getD (2 * i + 1) 0
  let ends : List Int := [0, d.n1 * s1, d.n2 * s2, d.n1 * s1 + d.n2 * s2]
  ends.all fun z => decide (0 ≤ (base : Int) + z) && decide (4 * ((base : Int) + z) + (d.n0 + 1) * w ≤ 4 * words)

/-- The operands that an operation needs (R219). -/
def needsB (op : Nat) : Bool := (1 ≤ op && op ≤ 6) || op == 0xA || op == 0xB
/-- Does the operation take operand c (R219)? -/
def needsC (op : Nat) : Bool := op == 4 || op == 0xA

/-- A vector descriptor of R213 (R212–R217, R219, R223, R231): the source, format and extent rules hold of every operand that has a source, and
an operand that the operation takes must have one. -/
def checkVec (n off : Nat) (d : List Nat) : Fail :=
  let v := vdesc d
  let at_ := fun (ok : Bool) (o : Nat) => need ok cDescriptor (off + o)
  let ops := [(true, v.asrc, v.afmt, v.abase, 0), (needsB v.op, v.bsrc, v.bfmt, v.bbase, 1), (needsC v.op, v.csrc, v.cfm, v.cbase, 2)]
  let named := ops.filter fun x => x.2.1 != 0
  let words := regionWords n
  let count := (v.n0 + 1) * (v.n1 + 1) * (v.n2 + 1)
  firstFail [at_ (decide (1 ≤ v.op ∧ v.op ≤ 0xB) || decide (0x10 ≤ v.op ∧ v.op ≤ 0x17)) 0,
    at_ (decide (fieldAt d 1 1 % 4 = 0) && decide (v.redOp ≤ 5)) 1, at_ (decide (v.asrc ≤ 3) && decide (v.bsrc ≤ 3)) 2, at_ (decide (v.csrc ≤ 3) && decide (v.ddst ≤ 2)) 3,
    at_ (decide (fieldAt d 4 1 % 4 = 0)) 4, at_ (decide (v.cfmt ≤ 1) || (v.op != 4 && decide (v.op < 0x10))) 1,
    at_ (ops.all fun x => !x.1 || x.2.1 != 0) 2, at_ (v.ddst != 0 || v.redOp != 0) 3,
    at_ (decide (v.linkIn < 128) || v.linkIn == 0xFF) 52, at_ (decide (v.linkOut < 128) || v.linkOut == 0xFF) 53,
    at_ (named.all fun x => x.2.1 == 3 || x.2.2.1 == v.cfmt || (x.2.2.1 == 1 && v.cfmt == 0) || (x.2.2.1 == 3 && v.cfmt == 2)) 4,
    at_ (decide ((named.filter fun x => x.2.1 == 2).length ≤ 1)) 2, at_ (!(named.any fun x => x.2.1 == 2) || count % 16384 == 0) 17,
    allOk (fun (x : Bool × Nat × Nat × Nat × Nat) => at_ (x.2.1 != 1 || extentOk words x.2.2.2.1 (cfmtBytes x.2.2.1) v x.2.2.2.2) (5 + 3 * x.2.2.2.2)) named,
    at_ (v.ddst != 1 || extentOk words v.dbase (cfmtBytes v.cfmt) v 3) 14,
    at_ (v.redOp == 0 || decide (v.redBase + (if v.redScope then 1 else (v.n1 + 1) * (v.n2 + 1)) ≤ words)) 54, at_ (zeros d 57 7) 57]

/-- An update descriptor (R212, R236, R247): a link that the operation does not use is 0xFF. -/
def checkUpd (off : Nat) (d : List Nat) : Fail :=
  let u := udesc d
  let at_ := fun (ok : Bool) (o : Nat) => need ok cDescriptor (off + o)
  firstFail [at_ (decide (fieldAt d 1 1 % 8 = 0) && (!u.nesterov || u.op == 0x40)) 1, at_ (zeros d 3 1) 3,
    at_ (if u.op ≤ 0x41 then u.rowLen == 0 else ((List.range 9).map fun i => 2 ^ (i + 4)).contains (u.rowLen + 1)) 22, at_ (zeros d 31 1) 31, at_ (zeros d 37 27) 37,
    at_ (u.op != 0x40 || fieldAt d 27 1 == 0xFF) 27, at_ (u.op ≤ 0x41 || fieldAt d 28 1 == 0xFF) 28,
    at_ (u.op == 0x41 || fieldAt d 30 1 == 0xFF) 30]

/-- A thinning descriptor (R212, R275). -/
def checkThin (off : Nat) (d : List Nat) : Fail :=
  let t := tdesc d
  let at_ := fun (ok : Bool) (o : Nat) => need ok cDescriptor (off + o)
  firstFail [at_ (decide (fieldAt d 1 1 % 4 = 0) && (if t.op = 0x50 then decide (4 ≤ t.klog ∧ t.klog ≤ 10) else t.klog == 0)) 1, at_ (zeros d 3 1) 3,
    at_ (t.op != 0x52 || (t.linkRIn == 0xFF && t.linkROut == 0xFF)) 12, at_ (zeros d 15 1) 15, at_ (zeros d 28 36) 28]

/-- An entry of the vector descriptor table (R212, R303). -/
def checkVecEntry (n off : Nat) (d : List Nat) : Fail :=
  let op := fieldAt d 0 1
  if 0x40 ≤ op ∧ op ≤ 0x43 then checkUpd off d else if 0x50 ≤ op ∧ op ≤ 0x52 then checkThin off d else if op = 0x30 then none else checkVec n off d

/-- Does the image use a feature of a later minor version (R355)? -/
def checkMinor (img : List Nat) : Fail :=
  let m := fieldAt img 9 1
  let n := fieldAt img 15 1
  let early := fun (c : Bool) (off : Nat) => need (!c) cFormat off
  firstFail [
    if 1 ≤ m then none else (allOk (fun (r : Rec) => early (r.typ == 12) r.at_) (records img)).or
      (allOk (fun j => match sect img 4 j with
        | some s => allOk (fun (p : List Nat × Nat) => early (fieldAt p.1 0 1 == 0x51) (s.off + 64 * p.2)) (vecEntries img j).zipIdx
        | none => none) (List.range n)),
    if 2 ≤ m then none else match sect img 8 0xFF with
      | some s => allOk (fun i => early (decide (3 ≤ fieldAt s.body (16 * i) 1 ∧ fieldAt s.body (16 * i) 1 ≤ 5)) (s.off + 16 * i)) (List.range (s.body.length / 16))
      | none => none]

/-- The instructions of a program with their index and the index advances that the loops give them (R364); the fuel is their number. -/
def withOfs : Nat → Nat → List SeqInstr → List Int → List (Nat × SeqInstr × List Int)
  | 0, _, _, _ => []
  | _ + 1, _, [], _ => []
  | n + 1, i, q :: r, os =>
    if q.op = 0xB then
      let b := bitsAt q.args 0 8
      let st := signedOf 8 q.target
      let inner := if st = 0 then os else os.flatMap fun o => (List.range (q.index + 1)).map fun x => o + x * st
      (i, q, os) :: withOfs n (i + 1) (r.take b) inner ++ withOfs n (i + 1 + b) (r.drop b) os
    else (i, q, os) :: withOfs n (i + 1) r os

/-- The cycles at which a program issues, in order, from `last` on (R363, R364). -/
def unroll : Nat → List SeqInstr → Nat → List Nat
  | 0, _, _ => []
  | _ + 1, [], _ => []
  | n + 1, q :: r, last =>
    let t := last + q.delta
    if q.op = 0xB then
      let b := bitsAt q.args 0 8
      let p := bitsAt q.args 24 24
      t :: ((List.range (q.index + 1)).flatMap fun i => unroll n (r.take b) (t + i * p)) ++ unroll n (r.drop b) (t + (q.index + 1) * p)
    else t :: unroll n r t

/-- The cycles from a body's start to its last instruction, nested loops at their full length (R367). -/
def spanOf : Nat → List SeqInstr → Nat
  | 0, _ => 0
  | _ + 1, [] => 0
  | n + 1, q :: r =>
    if q.op = 0xB then q.delta + (q.index + 1) * bitsAt q.args 24 24 + spanOf n (r.drop (bitsAt q.args 0 8)) else q.delta + spanOf n r

/-- The first instruction whose loop breaks R367: its body runs past the list's end, spans more than its PERIOD, or nests too deep. -/
def badLoop : Nat → Nat → Nat → List SeqInstr → Option Nat
  | 0, _, _, _ => none
  | _ + 1, _, _, [] => none
  | n + 1, depth, i, q :: r =>
    if q.op = 0xB then
      let b := bitsAt q.args 0 8
      if depth = 0 ∨ r.length < b ∨ bitsAt q.args 24 24 < spanOf b (r.take b) then some i
      else (badLoop n (depth - 1) (i + 1) (r.take b)).or (badLoop n depth (i + 1 + b) (r.drop b))
    else badLoop n depth (i + 1) r

/-- The fields of an instruction by its OP, and the rules of R367 on it (R359–R362, R367). -/
def checkInstr (e : LoadEnv) (img : List Nat) (rs : List Rec) (j c off : Nat) (raw : List Nat) (q : SeqInstr) (os : List Int) : Fail :=
  let at_ := fun (ok : Bool) (o : Nat) => need ok cProgram (off + o)
  let idxs := os.map fun o => (q.index : Int) + o
  let inTable := fun (n : Nat) => idxs.all fun x => decide (0 ≤ x) && decide (x < n)
  let declared := fun (m : Nat) => m == 0xFF || fieldAt (recBody rs 5 (8 * j + c)) (16 * m) 1 != 0
  let strs := strEntries img j
  let vecs := vecEntries img j
  let here := fun (l : List (List Nat)) => idxs.filterMap fun x => l[x.toNat]?
  let flags0 := at_ (q.flags == 0) 1
  let target0 := at_ (q.target == 0) 6
  let index0 := at_ (q.index == 0) 8
  let args0 := at_ (q.args == 0) 10
  let p := productArgs q.args (0, 0, 0)
  let h := haloArgs q.args
  (at_ (zeros raw 7 1) 7).or <|
  match q.op with
  | 1 => firstFail [flags0, at_ (decide (q.target < 64)) 6, index0, args0]
  | 2 => firstFail [flags0, target0, index0, args0]
  | 3 => firstFail [at_ (decide (q.flags < 2)) 1, at_ (decide (q.target < 8)) 6, at_ (inTable strs.length) 8, args0,
      at_ (q.flags == 0 || (here strs).all fun d => fieldAt d 0 1 == 3) 1,
      at_ ((here strs).all fun d => declared (fieldAt d 32 1) && declared (fieldAt d 33 1)) 8]
  | 4 => firstFail [flags0, target0, at_ (decide (q.index < 128)) 8, at_ (decide (q.args < 2)) 10, at_ (declared q.index && q.index != 0xFF) 8]
  | 5 => firstFail [flags0, at_ (decide (q.target < 4)) 6, index0, at_ (p.pfmt != 0 && bitsAt q.args 30 7 == 0) 10,
      at_ (!p.dest || p.colSkew) 10, at_ (!p.cstart || p.dest) 10,
      at_ (!p.psrc || (fieldAt (recBody rs 3 j) 0 1 == 1 &&
        (fusedGroup (fieldAt (recBody rs 2 j) 0 1) (leadIndex (e.cores.getD j 0))).contains q.target)) 10]
  | 6 => firstFail [flags0, at_ (decide (q.target < 4)) 6, index0, at_ (q.args % 2 ^ 42 == 0 && (e.cores.length != 4 || h.hop == 1)) 10,
      at_ (fieldAt (recBody rs 2 j) 0 1 == 0) 6]
  | 7 => firstFail [flags0, target0, at_ (inTable vecs.length) 8, args0, at_ ((here vecs).all fun d =>
      let op := fieldAt d 0 1
      let ls := if 0x40 ≤ op ∧ op ≤ 0x43 then (List.range 7).map (fun i => fieldAt d (24 + i) 1) else if 0x50 ≤ op ∧ op ≤ 0x52 then (List.range 3).map (fun i => fieldAt d (12 + i) 1)
        else if op = 0x30 then [] else [fieldAt d 52 1, fieldAt d 53 1]
      ls.all declared) 8]
  | 8 => firstFail [flags0, target0, index0, args0]
  | 9 => firstFail [flags0, target0, at_ (decide (q.index < 1024)) 8, args0]
  | 0xA => firstFail [flags0, at_ (decide (q.target < 64)) 6, index0, at_ (decide (q.args < 4)) 10]
  | 0xB => firstFail [flags0, at_ (bitsAt q.args 8 16 == 0) 10]
  | _ => at_ false 0

/-- One context's program (R356, R359–R367): FIRST and COUNT, STEP_START first and END last, the loops, the issue of at most 4 instructions
in a cycle, and every instruction. -/
def checkCtx (e : LoadEnv) (img : List Nat) (rs : List Rec) (j c : Nat) (unit : Nat) : Fail :=
  match sect img 2 j with
  | none => none
  | some s =>
    let x := (ctxEntries s.body).getD c (0, 0)
    let is := ctxInstrs s.body c
    let off := fun i => s.off + 64 + 16 * (x.1 + i)
    let at_ := fun (ok : Bool) (o : Nat) => need ok cProgram o
    let ts := unroll is.length is 0
    if s.body.length < 64 + 16 * (x.1 + x.2) then some (cProgram, s.off + 8 * c)
    else firstFail [
      at_ ((is.head?.map fun q => q.op == 1 && q.delta == 0 && q.target == unit).getD false) (off 0),
      at_ ((is.getLast?.map fun q => q.op == 2).getD false) (off (is.length - 1)),
      allOk (fun (p : SeqInstr × Nat) => at_ ((p.1.op != 1 || p.2 == 0) && (p.1.op != 2 || p.2 + 1 == is.length)) (off p.2)) is.zipIdx,
      (match badLoop is.length 2 0 is.dropLast with | some i => some (cProgram, off i) | none => none),
      at_ (!((ts.zip (ts.drop 4)).any fun p => p.1 == p.2)) (off 0),
      allOk (fun (y : Nat × SeqInstr × List Int) => checkInstr e img rs j c (off y.1) (slice s.body (64 + 16 * (x.1 + y.1)) 16) y.2.1 y.2.2)
        (withOfs is.length 0 is [0])]

/-- The programs of every core; all contexts name one step barrier (R366, R367). -/
def checkPrograms (e : LoadEnv) (img : List Nat) (rs : List Rec) : Fail :=
  let all := (List.range e.cores.length).flatMap fun j => (usedCtxs img j).map fun c => (j, c)
  let unit := ((all.head?.bind fun p => (ctxInstrs (sectBody img 2 p.1) p.2).head?).map (·.target)).getD 0
  allOk (fun (p : Nat × Nat) => checkCtx e img rs p.1 p.2 unit) all

/-- The first stream instruction's descriptor of a core whose HALF_STRIDE on a buffer side is not its link's in the context that starts it
(R183). -/
def checkStrides (img : List Nat) (rs : List Rec) (j off : Nat) : Fail :=
  let strs := strEntries img j
  allOk (fun c =>
    let is := ctxInstrs (sectBody img 2 j) c
    let links := recBody rs 5 (8 * j + c)
    allOk (fun (y : Nat × SeqInstr × List Int) =>
      if y.2.1.op ≠ 3 then none
      else allOk (fun (o : Int) => match strs[((y.2.1.index : Int) + o).toNat]? with
        | some d => need (strideOk links (sdesc d)) cDescriptor (off + 64 * ((y.2.1.index : Int) + o).toNat + 14)
        | none => none) y.2.2) (withOfs is.length 0 is [0])) (usedCtxs img j)

/-- Step 5 of a load: the structure section, the descriptor tables, the rendezvous entries and the programs (R371). -/
def checkStep5 (e : LoadEnv) (img : List Nat) : Fail :=
  let rs := records img
  let n := e.cores.length
  firstFail [checkStructure e img,
    allOk (fun j => match sect img 3 j with
      | some s => (allOk (fun (p : List Nat × Nat) => checkStream (s.off + 64 * p.2) p.1) (strEntries img j).zipIdx).or (checkStrides img rs j s.off)
      | none => none) (List.range n),
    allOk (fun j => match sect img 4 j with
      | some s => allOk (fun (p : List Nat × Nat) => checkVecEntry n (s.off + 64 * p.2) p.1) (vecEntries img j).zipIdx | none => none) (List.range n),
    allOk (checkRv e) rs, checkPrograms e img rs]

/-- Bytes of a list replaced from an offset. -/
def splice (l : List Nat) (off : Nat) (bs : List Nat) : List Nat := l.take off ++ bs ++ l.drop (off + bs.length)

/-- Bytes that a relocation kind rewrites (R373). -/
def relocLen (kind : Nat) : Nat := if kind = 1 then 5 else if kind = 2 then 1 else if kind = 3 then 3 else if kind = 4 then 4 else 8

/-- The record of a structure section's body that holds byte o. -/
def recAt (b : List Nat) (o : Nat) : Option Rec :=
  ((readRecs b.length 0 b).getD []).find? fun r => decide (r.at_ ≤ o) && decide (o < r.at_ + 8 + r.body.length)

/-- The bytes of the table or pool that an HBM40 field at byte o of a section addresses, as far as the image gives its length (R374; log entry
101): an index list of a GATHER, the master extent or one row of an update, the accumulators or replica slots of a collective, two halves of a
link; and where it lies in the image's own constant pool of that stack, `rest`, what is left of the pool. -/
def hbmExtent (typ : Nat) (b : List Nat) (o rest : Nat) : Nat :=
  let d := slice b (o / 64 * 64) 64
  let n := if typ = 3 then (if o % 64 = 44 ∧ fieldAt d 0 1 = 6 then 4 * fieldAt d 49 3 else 1)
    else if typ = 4 then (let u := udesc d; if u.dense then u.masterTile u.count + 65536 - u.master else 2 * (u.rowLen + 1))
    else match recAt b o with
      | some r =>
        let i := o - (r.at_ + 8)
        if r.typ = 9 then (if i = 8 then (if fieldAt r.body 0 1 = 3 then 1 else fieldAt r.body 22 2 * 2162720) else fieldAt r.body 4 2 * fieldAt r.body 18 4)
        else if r.typ = 5 then fieldAt r.body (i / 16 * 16) 1 * fieldAt r.body (i / 16 * 16 + 4) 4 else 1
      | none => 1
  max 1 (max n rest)

/-- A coordinate moved by a signed offset, modulo the torus (R373). -/
def moveDim (n a b : Nat) : Nat := (((a : Int) + signedOf 8 b) % (n : Int)).toNat

/-- One relocation entry applied to the image, or the rejection of R374. -/
def relocate1 (e : LoadEnv) (img : List Nat) (off : Nat) (r : List Nat) : List Nat × Fail :=
  let kind := fieldAt r 0 1
  let bad : List Nat × Fail := (img, some (cReloc, off))
  match (sections img)[fieldAt r 1 1]? with
  | none => bad
  | some s =>
    let o := fieldAt r 8 8
    if kind = 0 ∨ 5 < kind ∨ !zeros r 2 6 ∨ s.body.length < o + relocLen kind then bad
    else
      let p := s.off + o
      let old := fieldAt img p (relocLen kind)
      if kind = 1 then
        let ls := bitsAt old 36 3
        match e.cores[ls / 2]? with
        | none => bad
        | some core =>
          let a := e.bases.getD ls 0 + old % 2 ^ 36
          let rest := (sectBody img 7 ls).length - old % 2 ^ 36
          if old / 2 ^ 39 ≠ 0 ∨ 0xFB8000000 < a + hbmExtent s.typ s.body o rest then bad else (splice img p (leBytes 5 ((2 * core + ls % 2) * 2 ^ 36 + a)), none)
      else if kind = 2 then
        match e.cores[old % 16]? with
        | none => bad
        | some core => (splice img p [old / 16 * 16 + core], none)
      else if kind = 3 then
        if e.bench then bad
        else (splice img p [moveDim e.dims.x e.me.x (fieldAt img p 1), moveDim e.dims.y e.me.y (fieldAt img (p + 1) 1), moveDim e.dims.z e.me.z (fieldAt img (p + 2) 1)], none)
      else if e.params.length < 8 * (old + 1) then bad
      else (splice img p (leBytes (relocLen kind) (fieldAt e.params (8 * old) 8)), none)

/-- The image with the die's bypass set in the Halo field of its structure section, whatever the image carries there (R40, R665). -/
def setBypass (e : LoadEnv) (img : List Nat) : List Nat :=
  match (records img).find? fun r => r.typ == 1 with
  | some r => splice img (r.at_ + 12) (leBytes 4 (e.fuse % 2 ^ 18))
  | none => img

/-- Relocation of the whole image (R40, R373, R374): the load bases are 64 KiB aligned, and every constant pool fits its stack. -/
def relocate (e : LoadEnv) (img : List Nat) : List Nat × Fail :=
  let n := e.cores.length
  let pools := (sections img).filter fun s => s.typ == 7
  let pre := firstFail [need ((e.bases.take (2 * n)).all fun b => b % 65536 == 0) cReloc 0,
    allOk (fun (s : Sect) => need (decide (e.bases.getD s.unit 0 + s.body.length ≤ 0xFB8000000)) cReloc s.at_) pools]
  let img := setBypass e img
  match sect img 8 0xFF with
  | none => (img, pre)
  | some s => (List.range (s.body.length / 16)).foldl (fun (a : List Nat × Fail) i =>
      match a.2 with | some _ => a | none => relocate1 e a.1 (s.off + 16 * i) (slice s.body (16 * i) 16)) (img, pre)

/-- The offset of the rewritten field that makes the checks of step 5 fail (R371 step 6): the first entry from which on, the entries applied in
their order, every further image fails; the offset given where no entry does (log entry 101). -/
def blame (e : LoadEnv) (img : List Nat) (off : Nat) : Nat :=
  match sect img 8 0xFF with
  | none => off
  | some s =>
    let step := fun (a : List Nat × Option Nat) i =>
      let r := slice s.body (16 * i) 16
      let img := (relocate1 e a.1 (s.off + 16 * i) r).1
      let field := (((sections img)[fieldAt r 1 1]?).map (·.off)).getD 0 + fieldAt r 8 8
      (img, match checkStep5 e img with | none => none | some _ => a.2.or (some field))
    ((List.range (s.body.length / 16)).foldl step (setBypass e img, none)).2.getD off

/-- Every check of a load but the signature's, in the order of R371: the relocated image, or the first rejection. -/
def checkImage (e : LoadEnv) (len : Nat) (img : List Nat) (signature : Fail) : List Nat × Fail :=
  match firstFail [checkHeader img len, checkSections img, checkMinor img, signature, checkStep5 e img] with
  | some f => (img, some f)
  | none =>
    let r := relocate e img
    match r.2 with
    | some f => (img, some f)
    | none => (r.1, (checkStep5 e r.1).map fun f => (f.1, blame e img f.2))

end Sys2Proof.Machine
end

