-- ==== Sys2Proof/Machine/Events.lean ====
section
/-! DEFINITION. Events as Zenith takes them: entries, the log in its SRAM, and the event rings of the hosts (R401, R403, R544, R620–R624). -/
namespace Sys2Proof.Machine

/-- The event entry that Zenith makes now (R620, R621). -/
def State.eventEntry (s : State) (e : EventRec) : List Nat := s.entryAs e s.zen.eventSeq

/-- The place of a log: the partition's lowest core, or 4 for the die (R624). -/
def logOf (part : Nat) : Nat := if part < 4 then part else 4

/-- The last 4,096 entries of a partition or of the die (R624). -/
def State.logEntry (s : State) (part : Nat) (b : List Nat) : State :=
  { s with logs := SMap.mod s.logs (logOf part) fun (l : List (List Nat)) => (l ++ [b]).drop (l.length + 1 - 4096) }

/-- Is the event ring of a host port full (R623)? -/
def State.evqFull (s : State) (h : Nat) : Bool :=
  (s.fld (rDbgEvqStatus + localStride * h) 63 32 + 2 ^ 32 - (s.host h).evqCons % 2 ^ 32) % 2 ^ 32 ==
    2 ^ s.fld (rDbgEvqCtrl + localStride * h) 4 0

/-- One entry written into a host port's ring; a die event, with PARTITION 0xFF, brings vector 1, once a beat (R604, R622). -/
def State.evqWrite (s : State) (h : Nat) (b : List Nat) : State :=
  let o := localStride * h
  let prod := s.fld (rDbgEvqStatus + o) 63 32
  let size := 2 ^ s.fld (rDbgEvqCtrl + o) 4 0
  let s := (s.out (.hostWrite h ((s.reg (rDbgEvqBase + o)).toNat + 32 * (prod % size)) b)).setFld (rDbgEvqStatus + o) 63 32 (prod + 1)
  if fieldAt b 18 1 ≠ 0xFF ∨ (s.host h).dieVector then s else (s.modHost h fun x => { x with dieVector := true }).msix h 1

/-- LEVEL of the pending entries (R638). -/
def State.evqLevel (s : State) (h : Nat) : State :=
  s.setFld (rDbgEvqStatus + localStride * h) 31 23 (s.host h).evPending.length

/-- An entry for a host port: written, kept among at most 256, or lost and counted (R622, R623). -/
def State.evqPut (s : State) (h : Nat) (b : List Nat) : State :=
  let o := localStride * h
  if s.fld (rDbgEvqCtrl + o) 63 63 = 0 then s
  else if (s.host h).evPending.isEmpty && !s.evqFull h then s.evqWrite h b
  else if (s.host h).evPending.length < 256 then (s.modHost h fun x => { x with evPending := x.evPending ++ [b] }).evqLevel h
  else (s.bump (rDbgEvtLost + o) 1).modHost h fun x => { x with lost := x.lost + 1 }

/-- The entries that wait, written while the ring has room; then EVENT_OVERFLOW for those that were lost (R623). The fuel is their
number and one. -/
def State.evqDrain (h : Nat) : Nat → State → State
  | 0, s => s
  | n + 1, s =>
    if s.fld (rDbgEvqCtrl + localStride * h) 63 63 = 0 ∨ s.evqFull h then s
    else match (s.host h).evPending with
      | b :: r => State.evqDrain h n (((s.modHost h fun x => { x with evPending := r }).evqLevel h).evqWrite h b)
      | [] =>
        let lost := (s.host h).lost
        if lost = 0 then s
        else
          let e : EventRec := { code := 0x0508, detail := min lost 0xFFFFFF, open_ := true }
          let b := s.eventEntry e
          let s : State := { s with zen := { s.zen with eventSeq := (s.zen.eventSeq + 1) % 2 ^ 32 } }
          ((s.modHost h fun x => { x with lost := 0 }).logEntry 0xFF b).evqWrite h b

/-- Is an event of a partition held back by its Clearing (R544)? -/
def State.eventShut (s : State) (e : EventRec) : Bool :=
  decide (e.part < 4) && (s.pstate e.part == 3 || s.pstate e.part == 4) && e.code != 0x0503 && e.code != 0x0504

/-- EVENT_TAKE (R400, R401, R403, R544, R559, R620–R624): the oldest EVENT becomes an entry of the log and of the rings it belongs to. -/
def execEventTake (s : State) : Out :=
  match s.evq with
  | [] => .next s
  | e :: rest =>
    if s.zen.booting then .next s
    else
      let s : State := { s with evq := rest }
      let s : State := if s.evLost = 0 then s
        else { s with evLost := 0, evq := s.evq ++ [{ code := 0x0508, detail := min s.evLost 0xFFFFFF, open_ := true }] }
      if s.eventShut e then .next s
      else
        let b := s.eventEntry e
        let s : State := { s with zen := { s.zen with eventSeq := (s.zen.eventSeq + 1) % 2 ^ 32 } }
        let s := s.logEntry e.part b
        if e.part < 4 then .next (s.evqPut (s.owner e.part) b)
        else .next ((List.range 2).foldl (fun s h => s.evqPut h b) s)

/-- CIR_BAD (R401). -/
def execCirBad (msg : Nat) (s : State) : Out :=
  .next (if [0x01, 0x02, 0x03, 0x08, 0x09, 0x0A, 0x10].contains (bitsAt msg 58 6) then s else s.bump rCirBad 1)

end Sys2Proof.Machine
end

