-- ==== Sys2Proof/Machine/Clock.lean ====
section
/-! DEFINITION. Meridian and the clock generator: wall cycles, swallowing, Lull accounting, holds, the beat boundary, alignment and the
reference (R23, R196, R204, R257, R316–R350, R553, R596, R602, R622). -/
namespace Sys2Proof.Machine

/-- Is position p of a group removed at ratio s/8 (R347)? -/
def removedAt (s p : Nat) : Bool := decide (p * s / 8 < (p + 1) * s / 8)

/-- Is the next ACLK cycle removed (R347)? -/
def State.swallowNext (s : State) : Bool := removedAt s.clk.ratio (s.clk.group % 8)

/-- Is Squall active: SQUALL of PWR_STATUS (R582)? -/
def State.inSquall (s : State) : Bool := s.fld rPwrStatus 55 55 == 1

/-- The ratio in use is the larger of the two; a change ends the current group (R347, R554). -/
def State.setRatios (s : State) (supply thermal : Nat) : State :=
  let r := max supply thermal
  let g := if r = s.clk.ratio then s.clk.group else 0
  let s : State := { s with clk := { s.clk with supply := supply, thermal := thermal, ratio := r, group := g } }
  (s.setFld rPwrStatus 54 52 r).setFld rPwrStatus 51 49 thermal

/-- Does one Lull request come before another (R336)? -/
def LullReq.before (a b : LullReq) : Bool :=
  let key := fun (r : LullReq) => r.since * 2 ^ 16 + r.kind * 256 + r.stage * 16 + r.cause
  decide (key a < key b)

/-- The cause that a Lull cycle is charged to (R336). -/
def lullCause (rs : List LullReq) : Option Nat :=
  (rs.foldl (fun (b : Option LullReq) r => match b with
    | none => some r
    | some x => if r.before x then some r else b) none).map (·.cause)

/-- The stages and causes with a request outstanding, each once (R204). -/
def stallKeys (rs : List LullReq) : List (Nat × Nat × Nat) :=
  (rs.filter (·.kind == 0)).foldl (fun l r => if l.contains (r.core, r.stage, r.cause) then l else l ++ [(r.core, r.stage, r.cause)]) []

/-- The excess of a rendezvous over its threshold: positive when the hold condition is true (R337). -/
def State.excess (s : State) (k rv : Nat) (r : RvEntry) : Int :=
  ((r.point + (s.reg (rSeqLag k)).toNat : Nat) : Int) - (s.shiftOf k rv : Int) - 700 * ((r.ofs + r.slack : Nat) : Int) + 700 * (r.lead : Int)

/-- Is a rendezvous of the partition pending (R330)? -/
def State.rvPending (s : State) (k rv : Nat) : Option RvEntry :=
  match SMap.get (s.part k).rvs rv with
  | none => none
  | some r => if (s.part k).inStep && decide ((s.part k).stepCycle ≤ r.done) then some r else none

/-- The run-time state of a rendezvous. -/
def State.rvD (s : State) (k rv : Nat) : RvDyn := SMap.get (s.part k).rvDyn rv
/-- The state with the run-time state of a rendezvous changed. -/
def State.modRv (s : State) (k rv : Nat) (f : RvDyn → RvDyn) : State := s.modPart k fun p => { p with rvDyn := SMap.mod p.rvDyn rv f }

/-- Does the module become a holder on a rendezvous now (R337, R338)? -/
def State.holdDue (s : State) (k rv : Nat) : Bool :=
  match s.rvPending k rv with
  | none => false
  | some r => decide ((s.part k).stepCycle ≤ r.point) && !(s.rvD k rv).holding && (s.rvD k rv).senders.isEmpty && decide (0 < s.excess k rv r)

/-- The Lull cycle of one partition counted: Λ, SEQ_LULL and STR_STALL (R204, R328, R335, R336); then the holds that it starts (R337). -/
def State.lullCycle (s : State) (k : Nat) (swallowed : Bool) : State :=
  let rs := (s.part k).lull
  let cause := if swallowed then (if s.inSquall then some 4 else some 3) else lullCause rs
  let s := s.setReg (rSeqLag k) (s.reg (rSeqLag k) + 1)
  let s := match cause with | some c => s.bump (rSeqLull k c) 1 | none => s
  let s := if swallowed then s else (stallKeys rs).foldl (fun s x => s.bump (rStrStall x.1 x.2.1 x.2.2) 1) s
  (s.part k).rvs.foldl (fun s e => if s.holdDue k e.1 then s.laterW 0 (.holdStart k e.1) else s) s

/-- Passes of a running descriptor that have begun before VCLK cycle x of it (R217, R218). -/
def VecRun.begun (r : VecRun) (x : Nat) : Nat := min r.passes (ceilDiv (x * r.passes) (max 1 (r.vclk - r.tail)))

/-- The two VCLK cycles of a sequencer cycle counted for a core whose vector engine is busy, with the passes that begin in them (R206, R207,
R233). -/
def State.vecCycle (s : State) (j : Nat) : State :=
  match (s.core j).vec with
  | none => s
  | some r =>
    let n := 2 * (s.cyc j - r.issuedAt)
    (s.bump (rVecBusyCycles j) (min 2 (r.vclk - n))).bump (rVecPasses j) (r.begun (n + 2) - r.begun n)

/-- One wall cycle of one partition (R23, R68, R69, R319, R326, R333, R335): a Lull or a swallowed cycle stops its counters, but a Lull that a
resend has asked for does not stop the resends. A hold whose Lull is over ends in this cycle (R338), and a fault of the cycle stops the
partition at its end (R377); while Zenith captures its state nothing of it counts (R628). -/
def State.partCycle (s : State) (swallowed : Bool) (k : Nat) : State :=
  let s := match (s.part k).stopping with | some x => s.stopNow k x.1 x.2 | none => s
  let p := s.part k
  if p.dumpState = 1 then s else
  let s := if p.lull.isEmpty then
      p.rvDyn.foldl (fun s e => if e.2.holding && !e.2.bare then s.laterW 0 (.holdEnd k e.1) else s) s
    else s
  let s := if swallowed || !(p.lull.isEmpty || p.lull.any LullReq.ofResend) then s
    else s.modPart k fun p => { p with resendCycle := p.resendCycle + 1 }
  if swallowed || !p.lull.isEmpty then (if p.inStep then s.lullCycle k swallowed else s)
  else ((s.partCores k).foldl State.vecCycle s).modPart k fun p => { p with seqCycle := p.seqCycle + 1, stepCycle := if p.inStep then p.stepCycle + 1 else p.stepCycle }

/-- Flit boundaries that fall within wall cycle w: 1,562.5 in a beat of 700 cycles (R317, R429). -/
def flitSlots (w : Nat) : Nat := (w + 1) * 125 / 56 - w * 125 / 56

/-- Does a port have something to send at its next flit boundary (R434)? -/
def State.portReady (s : State) (p : Nat) : Bool :=
  let q := s.port p
  2 ≤ s.linkState p && s.linkState p ≤ 4 && (q.nakD || q.nakC || !q.ctl.isEmpty || !q.tx.isEmpty || !q.replayD.isEmpty ||
    !q.replayC.isEmpty || !q.owed.isEmpty || q.stampBeat != 0)

/-- One wall cycle passes: partitions, the group of the swallow ratio, the phase, the beat boundary (before all else that falls due in its
cycle), the flit boundaries, Zenith's taking of events and the branches without credit (R317, R347, R399, R403, R434). -/
def State.passCycle (s : State) (swallowed : Bool) : State :=
  let w := s.clk.wall
  let last := s.phase == 699
  let s : State := { s with clk := { s.clk with wall := w + 1, live := s.clk.live + (if swallowed then 0 else 1), group := s.clk.group + 1, swallowNow := swallowed } }
  let s := ((List.range 4).filter fun k => s.partValid k).foldl (fun s k => s.partCycle swallowed k) s
  let s := (List.range 6).foldl (fun s p =>
    if s.portReady p then (List.range (flitSlots w)).foldl (fun s _ => s.laterW 0 (.flitBoundary p)) s else s) s
  let s := if !s.evq.isEmpty && decide (w * 2 / 35 < (w + 1) * 2 / 35) then s.laterW 0 .eventTake else s
  let s := if s.mcasts.any (fun x => x.branches.any fun b => !b.done && decide (256 ≤ s.held x b)) then s.bump rStraMcastWait 1 else s
  if !s.clk.counting then s
  else if last then s.firstW (.beatBoundary {})
  else s.setFld rClkPhase 9 0 (s.phase + 1)

/-- SWALLOWED_CYCLE (R335, R347): a wall cycle in which every engine stands still. -/
def execSwallowedCycle (s : State) : Out := .next (s.passCycle true)

/-- The link ports of a barrier unit's tree at this module (R339, R410). -/
def State.treePorts (s : State) (u : Nat) : List Nat := (if s.barRoot u then [] else [s.barParent u]) ++ s.barChildren u

/-- A hold record sent over a rendezvous's tree, but for one port (R339). -/
def State.toTree (s : State) (u : Nat) (but : Nat) (r : CtlRec) : State :=
  ((s.treePorts u).filter (· != but)).foldl (fun s p => s.sendCtl p r) s

/-- HOLD_START (R337–R339): the hold condition is true and no hold on the rendezvous has been received. -/
def execHoldStart (k rv : Nat) (s : State) : Out :=
  match s.rvPending k rv with
  | none => .next s
  | some r =>
    if !s.holdDue k rv then .next s
    else
      let bare := s.clk.swallowNow && (s.part k).lull.isEmpty
      let s := s.modRv k rv fun x => { x with holding := true, bare := bare }
      let s := ((s.setFld (rSeqHold k) 62 62 1).setFld (rSeqHold k) 55 48 rv).bumpF (rSeqHold k) 47 24 1
      .next (s.toTree r.barrier 7 (.holdStart rv ((s.part k).stepNo % 65536) s.me))

/-- HOLD_END (R338): the excess is added to the shift, and the partners hear of it. -/
def execHoldEnd (k rv : Nat) (s : State) : Out :=
  match SMap.get (s.part k).rvs rv with
  | none => .next s
  | some r =>
    if !(s.rvD k rv).holding then .next s
    else
      let sh := ((s.shiftOf k rv : Int) + s.excess k rv r).toNat
      let s := s.modRv k rv fun x => { x with holding := false, bare := false, shift := sh }
      let any := (s.part k).rvDyn.any fun e => e.2.holding
      let s := (s.setFld (rSeqHold k) 62 62 (if any then 1 else 0)).setFld (rSeqHold k) 55 48 rv
      .next (s.toTree r.barrier 7 (.holdEnd rv ((s.part k).stepNo % 65536) s.me sh))

/-- The tag of a received hold's Lull (R340). -/
def holdTag (rv : Nat) : Nat := 0x70000 + rv

/-- HOLD_START_RECEIVED (R339, R340): counted as stale for another step, ignored when the rendezvous is not pending, and otherwise a Lull with
cause LULL_HOLD. -/
def execHoldStartReceived (k rv step : Nat) (src : Coord) (s : State) : Out :=
  if step ≠ (s.part k).stepNo % 65536 then .next (s.bumpF (rSeqHold k) 7 0 1)
  else if (s.rvPending k rv).isNone then .next s
  else
    let b := s.beat
    let s := s.modRv k rv fun x => { x with senders := if x.senders.contains src then x.senders else x.senders ++ [src],
                                            since := if x.senders.isEmpty then b else x.since, received := true }
    let s := ((s.setFld (rSeqHold k) 63 63 1).setFld (rSeqHold k) 55 48 rv).bumpF (rSeqHold k) 23 8 1
    .next (s.askLull k { kind := 2, cause := 7, core := k, tag := holdTag rv })

/-- HOLD_END_RECEIVED (R339, R340): the shift rises to the carried one, and the hold ends with the last sender's. -/
def execHoldEndReceived (k rv step : Nat) (src : Coord) (shift : Nat) (s : State) : Out :=
  if step ≠ (s.part k).stepNo % 65536 then .next (s.bumpF (rSeqHold k) 7 0 1)
  else if (s.rvPending k rv).isNone then .next s
  else
    let s := s.modRv k rv fun x => { x with senders := x.senders.filter (· != src), shift := max x.shift shift }
    if !(s.rvD k rv).senders.isEmpty then .next s
    else
      let any := (s.part k).rvDyn.any fun e => !e.2.senders.isEmpty
      .next ((s.setFld (rSeqHold k) 63 63 (if any then 1 else 0)).endLull k 2 (holdTag rv))

/-- Is a Lull request a hold, a wait of R346 or a barrier wait (R342, R417)? -/
def LullReq.bounded (r : LullReq) : Bool :=
  r.kind == 1 || r.kind == 2 || (r.kind == 0 && decide (0x10000 ≤ r.tag) && decide (r.tag < 0x20000))

/-- HOLD_TIMEOUT (R342, R417, R625): a hold or a wait has been outstanding for SEQ_HOLD_LIMIT beats. The fault names the rendezvous and each
sender whose HOLD_END is missing. -/
def execHoldTimeout (k rv : Nat) (s : State) : Out :=
  let limit := s.fld (rSeqHoldLimit k) 31 0 * 700
  if !((s.part k).lull.any fun r => r.bounded && decide (r.since + limit ≤ s.clk.wall)) then .next s
  else
    let who := (s.rvD k rv).senders
    let s := s.fault k 0x0F none 0 (coordNum (who.headD {}) + 2 ^ 24 * rv)
    .next (who.tail.foldl (fun s c => s.fault k 0x0F none 0 (coordNum c + 2 ^ 24 * rv)) s)

/-- Ports whose flit layer is up (R469, R472). -/
def State.trainedPorts (s : State) : List Nat := (List.range 6).filter fun p => decide (2 ≤ s.linkState p) && decide (s.linkState p ≤ 4)

/-- Is this module the origin (R320)? -/
def State.isOrigin (s : State) : Bool := s.zen.coord == some ⟨0, 0, 0⟩

/-- The counter loaded: the beat and the phase; ALIGNED is set, in the bench shape too (R320, R321, R349; log entry 102). -/
def State.loadBeat (s : State) (beat phase : Nat) : State :=
  let s : State := { s with clk := { s.clk with counting := true } }
  ((s.setReg rClkBeat (BitVec.ofNat 64 beat)).setFld rClkPhase 9 0 phase).setFld rClkPhase 63 63 1

/-- The origin's alignment: beat 0, phase 0, and ALIGN on every trained port (R320, R321). -/
def State.alignOrigin (s : State) : State :=
  let s := ((s.loadBeat 0 0).setFld rClkPhase 39 32 0).setFld rClkPhase 28 26 7
  (s.trainedPorts.foldl (fun s p => s.sendCtl p (.align 0 0 s.me 0)) s).laterW 0 .startPhase

/-- EPOCH (R320, R577): the origin acts on the rise, or remembers it until its phase 5 has completed. -/
def execEpoch (s : State) : Out :=
  let s : State := { s with clk := { s.clk with epochHigh := true } }
  .next (if s.isOrigin && s.pwr.phase5 && s.fld rClkPhase 63 63 == 0 then s.alignOrigin else s)

/-- The one-way delay of a port in ACLK cycles: half of LNK_RTT, a half rounding up (R321). -/
def State.oneWay (s : State) (p : Nat) : Nat := (s.fld (rLnkRtt p) 31 0 + 16) / 32

/-- A neighbour's count compared with this module's own (R323). -/
def State.compareBeat (s : State) (p beat phase : Nat) : State :=
  let theirs := beat * 700 + phase + s.oneWay p
  let ours := s.beat * 700 + s.phase
  let d := (theirs - ours) + (ours - theirs)
  let s := if s.fld rClkPhase 25 10 < d then s.setFld rClkPhase 25 10 (min d 65535) else s
  if (if s.crossRack p then 14 else 2) < d then s.eventPort p 0x0306 p d else s

/-- ALIGN accepted: the counter is loaded, and ALIGN goes on (R321). -/
def State.acceptAlign (s : State) (p beat phase hops : Nat) : State :=
  let t := beat * 700 + phase + s.oneWay p
  let s := ((s.loadBeat (t / 700) (t % 700)).setFld rClkPhase 39 32 (hops + 1)).setFld rClkPhase 28 26 p
  ((s.trainedPorts.filter (· != p)).foldl (fun s q => s.sendCtl q (.align (t / 700) (t % 700) s.me (hops + 1))) s).laterW 0 .startPhase

/-- ALIGN (R321, R323, R578): the first one accepted loads the counter, one that comes before phase 5 is held, and a later one is compared. -/
def execAlign (p beat phase hops : Nat) (s : State) : Out :=
  if s.fld rClkPhase 63 63 = 1 then .next (s.compareBeat p beat phase)
  else if s.isOrigin then .next s
  else if !s.pwr.phase5 then .next (s.modPort p fun q => { q with heldAlign := some (beat, phase, hops, s.clk.wall) })
  else .next (s.acceptAlign p beat phase hops)

/-- REF_LOSS (R324). -/
def execRefLoss (s : State) : Out :=
  .next ((({ s with clk := { s.clk with refLost := true } } : State).setFld rClkPhase 62 62 1).eventDie 21 0x0307 0 0)

/-- The hottest of the sensor readings, and which it is (R553). -/
def hottest (l : List Nat) : Nat × Nat :=
  l.zipIdx.foldl (fun b x => if b.1 < x.1 then x else b) (l.headD 0, 0)

/-- The junction acted on at a beat boundary (R553): steps of the thermal ratio every 16 beats, the critical report, the trip. -/
def State.thermalBeat (s : State) (sensors : List Nat) : State :=
  let t := if sensors.isEmpty then s.pwr.tj else (hottest sensors).1
  let s : State := { s with pwr := { s.pwr with tj := t, sensor := if sensors.isEmpty then s.pwr.sensor else (hottest sensors).2 } }
  let s := if 1050 ≤ t ∧ !s.clk.critical then s.eventDie 20 0x0409 0 t else s
  let s : State := { s with clk := { s.clk with critical := decide (1050 ≤ t) } }
  let s := if s.clk.nextThermal ≤ s.beat ∧ ((950 ≤ t ∧ s.clk.thermal < 6) ∨ (t < 930 ∧ 0 < s.clk.thermal)) then
      s.laterW 0 (.swallowRatioStep true) else s
  if 1100 ≤ t ∧ s.pwr.thermtripN then s.laterW 0 (.thermtrip t) else s

/-- The meters of PWR_SUPPLY and PWR_THERMAL, refreshed once per millisecond (R582). -/
def State.refreshMeters (s : State) : State :=
  if s.beat % 1000 ≠ 0 then s
  else
    let r := Config.supplyReading s.free
    let s : State := { s with free := s.free + 1 }
    let s := (s.setFld rPwrSupply 47 32 (s.pwr.mv % 65536)).setFld rPwrSupply 31 16 (r.1 % 65536)
    let s := s.setFld rPwrSupply 15 0 (r.2 % 65536)
    (s.setFld rPwrThermal 15 0 (s.pwr.tj * 16 / 10 % 65536)).setFld rPwrThermal 23 16 s.pwr.sensor

/-- Beats with a supply or thermal ratio counted, and Squall's own length (R554, R582). -/
def State.supplyBeat (s : State) : State :=
  let s := if 0 < s.clk.supply then s.bump rPwrSquallBeats 1 else s
  let s := if 0 < s.clk.thermal then s.bump rPwrThrottleBeats 1 else s
  if s.inSquall then { s with clk := { s.clk with squallBeats := s.clk.squallBeats + 1 } } else s

/-- The release's next step falls due on a beat boundary (R348, R550). -/
def State.supplyBeatStep (s : State) : State :=
  if s.clk.releasing && decide (s.clk.nextSupply ≤ s.beat) then s.laterW 0 (.swallowRatioStep false) else s

/-- The waits of a partition looked at on a beat boundary: a limit run over, on the rendezvous that governs the wait (R342, R346), and a hold
that swallowing alone began (R338). -/
def State.holdBeat (s : State) (k : Nat) : State :=
  let p := s.part k
  let limit := s.fld (rSeqHoldLimit k) 31 0 * 700
  let s := if p.lull.isEmpty then p.rvDyn.foldl (fun s e => if e.2.holding && e.2.bare then s.laterW 1 (.holdEnd k e.1) else s) s else s
  match p.lull.find? (fun r => r.bounded && decide (r.since + limit ≤ s.clk.wall)) with
  | none => s
  | some r =>
    let rv := if r.kind = 2 then r.tag - 0x70000
      else ((if r.kind = 0 then s.waitRv r.core ((r.tag - 0x10000) / 128) ((r.tag - 0x10000) % 128) else s.governing k).map (·.1)).getD 0
    s.laterW 0 (.holdTimeout k rv)

/-- The rings of a partition on a beat boundary (R590, R596, R598, R602): the consumer word read, waiting records written, the entries of the
last read sampled, the producer word read (one in device memory lands at phase 150, as in the worked example of R616), and the next step
started. -/
def State.ringBeat (s : State) (k : Nat) (cq : Option Nat) : State :=
  let s := match cq with | some w => s.modPart k fun p => { p with cqCons := w } | none => s
  let s := State.drainRecords k (s.part k).records.length s
  let s := if s.ringRuns k then
      let s := (s.laterW 0 (.ringSample k)).modPart k fun p => { p with prodRead := true }
      if s.fld (rHifCrCtrl k) 62 62 = 1 then s.laterW 150 (.ringProducerRead k 0 []) else s
    else s
  if s.pstate k = 1 ∧ !(s.part k).queue.isEmpty then s.laterW 0 (.queuedStepStart k) else s

/-- BEAT_BOUNDARY (R317): the counter advances, and what is sampled once a beat is sampled. -/
def execBeatBoundary (seen : BeatSeen) (s : State) : Out :=
  let s := s.supplyBeat
  let s := (s.setReg rClkBeat (s.reg rClkBeat + 1)).setFld rClkPhase 9 0 0
  let waits := s.cores.any fun e => e.2.updWait
  let s : State := { s with cores := SMap.mapVals (fun (c : Core) =>
    { c with freezePend := if waits then c.freezePend.map fun p => (p.1, p.2.1, true) else [] }) s.cores }
  let s := s.supplyBeatStep.thermalBeat seen.sensors
  let s := s.refreshMeters
  let ks := (List.range 4).filter fun k => s.partValid k
  let s := ks.foldl (fun s k => (s.holdBeat k).ringBeat k seen.cq[k]?) s
  let s := (List.range 2).foldl (fun s h => s.modHost h fun x =>
    { x with dieVector := false, evqCons := (seen.evq[h]?).getD x.evqCons }) s
  let s := (List.range 2).foldl (fun s h => State.evqDrain h ((s.host h).evPending.length + 1) s) s
  let s := s.traceRec 0 21 (cirrusWord 9 21 63 (s.beat % 2 ^ 40))
  .next (if s.beat % 1024 = 0 then s.trainedPorts.foldl (fun s p => s.modPort p fun q => { q with stampBeat := 1 }) s else s)

end Sys2Proof.Machine
end

