-- ==== Sys2Proof/Machine/Link.lean ====
section
/-! DEFINITION. Link ports: training and reset, flits in both directions, link-level retry, credits and cross-rack groups (R429–R445,
R461–R471, R541, R544). -/
namespace Sys2Proof.Machine

/-- The entry of the fabric map for a coordinate: 72 bytes (R574). -/
def State.mapEntry (s : State) (c : Coord) : List Nat :=
  slice s.zen.map (64 + 72 * (c.x + s.dims.x * (c.y + s.dims.y * c.z))) 72

/-- The number of entries of the fabric map. -/
def State.mapSize (s : State) : Nat := (s.zen.map.length - 64) / 72

/-- The place in the map of the entry that holds this module's identity hash (R575). -/
def State.ownPlace (s : State) : Option Nat :=
  if s.zen.map.isEmpty then none
  else (List.range s.mapSize).find? fun i => slice s.zen.map (64 + 72 * i) 64 == Config.idHash

/-- The coordinate of entry i of the map (R574). -/
def State.placeCoord (s : State) (i : Nat) : Coord :=
  ⟨i % max 1 s.dims.x, i / max 1 s.dims.x % max 1 s.dims.y, i / (max 1 s.dims.x * max 1 s.dims.y)⟩

/-- Does the map mark a port of this module in the mask at a byte of its entry (R423, R574)? -/
def State.mapMask (s : State) (byte p : Nat) : Bool :=
  match s.ownPlace with
  | none => false
  | some i => bitAt (fieldAt s.zen.map (64 + 72 * i + byte) 1) p

/-- Is port p connected: in an installation, unless the map says otherwise (R422, R574)? -/
def State.connected (s : State) (p : Nat) : Bool := s.dims != ⟨1, 1, 1⟩ && !s.mapMask 65 p

/-- LNK_STATUS shows which partition owns a port (R472). -/
def State.showOwner (s : State) (p : Nat) : State :=
  match s.portPart p with
  | some k => (s.setFld (rLnkStatus p) 27 27 1).setFld (rLnkStatus p) 25 24 k
  | none => (s.setFld (rLnkStatus p) 27 27 0).setFld (rLnkStatus p) 25 24 0

/-- A port's buffers, ledger and keys are gone (R441, R541); its set number and identity check are kept apart. -/
def State.clearPort (s : State) (p : Nat) : State :=
  s.modPort p fun q => { setNo := q.setNo }

/-- A port begins training at a step (R469, R471). -/
def State.trainFrom (s : State) (p step : Nat) : State :=
  let s := s.clearPort p
  let s := (s.setFld (rLnkStatus p) 63 61 1).setFld (rLnkStatus p) 60 60 (if s.mapMask 64 p then 1 else 0)
  s.modPort p fun q => { q with trainStep := step, crossRack := s.mapMask 64 p }

/-- A port goes dark and stays so (R470, R472). -/
def State.goDark (s : State) (p : Nat) : State :=
  ((s.clearPort p).setFld (rLnkStatus p) 63 61 0).maintEnd 5 p

/-- LINK_TRAIN_FAIL: the step and the lanes that did not lock, and the port stays dark (R470, R569). -/
def State.trainFail (s : State) (p lanes : Nat) : State :=
  let n := (s.port p).trainStep
  let s := s.setFld (rLnkStatus p) 47 32 lanes
  let s := (s.goDark p).setFld (rLnkStatus p) 31 28 n
  (s.eventPort p 0x0302 (n + 256 * (65535 - lanes % 65536)) p).laterW 0 .startPhase

/-- LINK_TRAIN_FAIL. -/
def execLinkTrainFail (p lanes : Nat) (s : State) : Out :=
  .next (if s.linkState p = 1 then s.trainFail p lanes else s)

/-- A link reset (R6, R471, R569): the port goes dark, its buffers are lost, and it trains again from step 2, unless LNK_CTRL holds it dark or it
is a port that never trains: not connected, or of a module in the shape 1 × 1 × 1. -/
def State.resetPort (s : State) (p : Nat) : State :=
  if s.fld (rLnkCtrl p) 0 0 = 0 || !s.connected p then s.goDark p
  else
    let s := s.trainFrom p 2
    if s.maint.any (fun m => m.act == 5 && m.scope == p) then s else s.maintGrant 5 p

/-- LINK_RESET (R471, R541, R560). -/
def execLinkReset (p : Nat) (s : State) : Out := .next (s.resetPort p)

/-- LINK_DOWN raised, and the port reset at once (R440, R471, R509). -/
def State.linkDown (s : State) (p : Nat) : State := (s.eventPort p 0x0301 0 p).resetPort p

/-- The IDENT record that this module sends (R576, R579). -/
def State.ownIdent (s : State) : IdentRec :=
  { idHash := Config.idHash, claimed := s.me, mapHash := Config.sha3 s.zen.map, aligned := s.fld rClkPhase 63 63 == 1 }

/-- The flit layer of a port comes up: sequence spaces at 0, credits granted (R432, R469). A port that trains again after the start
exchanges identities at once. -/
def State.layerUp (s : State) (p : Nat) : State :=
  let s := s.modPort p fun q => { q with
    trainStep := 0, credits := [(0, 16), (1, 1024), (2, 1024), (3, 1024)], txSeqD := 0, txSeqC := 0, rxSeqD := 0, rxSeqC := 0 }
  let s := ((s.setFld (rLnkStatus p) 63 61 2).setFld (rLnkStatus p) 31 28 0).maintEnd 5 p
  (if s.fld rPwrStatus 60 57 < 3 then s else s.sendCtl p (.ident s.ownIdent)).laterW 0 .startPhase

/-- The version of the peer, major × 16 + minor. -/
def peerVersion (r : TrainResult) : Nat := r.major * 16 + r.minor

/-- LINK_VERSION, or the agreed version (R466–R468). -/
def State.agreeVersion (s : State) (p : Nat) (r : TrainResult) : State :=
  let v := min 0x21 peerVersion r
  if peerVersion r < 0x10 ∨ (s.crossRack p ∧ v < 0x21) then ((s.goDark p).eventPort p 0x0303 (peerVersion r) p).laterW 0 .startPhase
  else (s.setFld (rLnkStatus p) 55 48 v).setFld (rLnkStatus p) 59 59 (if v < 0x20 then 1 else 0)

/-- TRAINING_STEP (R425, R466–R470): the step under way completes, and the next begins. -/
def execTrainingStep (p : Nat) (r : TrainResult) (s : State) : Out :=
  let n := (s.port p).trainStep
  let go := fun (s : State) => s.modPort p fun q => { q with trainStep := n + 1 }
  if s.linkState p ≠ 1 ∨ n = 0 then .next s
  else if n ≤ 3 then
    if r.lanes ≠ 0xFFFF then .next (s.trainFail p r.lanes)
    else .next ((go s).setFld (rLnkStatus p) 47 32 0xFFFF)
  else if n = 4 then
    let s := s.agreeVersion p r
    .next (if s.linkState p = 1 then go s else s)
  else if n = 5 then .next ((go s).setFld (rLnkRtt p) 31 0 r.rtt)
  else .next (s.layerUp p)

/-- Is a port quiet because its partition is in Clearing or quarantined (R544, R545)? -/
def State.quiet (s : State) (p : Nat) : Bool :=
  match s.portPart p with
  | some k => s.pstate k == 3 || s.pstate k == 4
  | none => false

/-- Flits of a retry buffer that an acknowledgement leaves (R438). -/
def dropAcked (l : List Kept) (a : Nat) : List Kept :=
  if l.any (fun x => x.flit.seq == a) then (l.dropWhile fun x => x.flit.seq != a).drop 1 else l

/-- The acknowledgements, credits and stamp that every flit carries (R323, R430, R432, R438). -/
def State.takeHeader (s : State) (p : Nat) (f : Flit) : State :=
  let s := s.modPort p fun q => { q with
    keptD := dropAcked q.keptD f.ackD, keptC := dropAcked q.keptC f.ackC,
    replayD := dropAcked q.replayD f.ackD, replayC := dropAcked q.replayC f.ackC,
    credits := if f.credit = 0 then q.credits else SMap.mod q.credits f.creditVc (· + f.credit) }
  match f.stamp with
  | some (b, ph) => if s.fld rClkPhase 63 63 = 1 then s.compareBeat p b ph else s
  | none => s

/-- One NAK for a space, until the expected flit has come (R437). -/
def State.askNak (s : State) (p : Nat) (control : Bool) : State :=
  let key := if control then 0 else 1
  if SMap.get (s.port p).nakSent key then s
  else s.modPort p fun q => { q with nakD := q.nakD || !control, nakC := q.nakC || control, nakSent := SMap.set q.nakSent key true }

/-- A hold record goes on over the tree of its rendezvous's barrier unit, and to this module (R339, R340). -/
def State.holdRec (s : State) (p rv : Nat) (r : CtlRec) (c : Nat → Instr) : State :=
  match s.portPart p with
  | none => s
  | some k =>
    match SMap.get (s.part k).rvs rv with
    | none => s.laterW 0 (c k)
    | some e => (s.toTree e.barrier p r).laterW 0 (c k)

/-- A control record that has arrived at a port (R435). -/
def State.recArrive (s : State) (p : Nat) : CtlRec → State
  | .barArrive u e t => s.laterW 0 (.barArrive u e p t)
  | .barDepart u e b => s.laterW 0 (.barDepart u e p b)
  | .barOpen u e up => s.laterW 0 (.barOpen u e p up)
  | .holdStart rv n src => s.holdRec p rv (.holdStart rv n src) fun k => .holdStartReceived k rv n src
  | .holdEnd rv n src sh => s.holdRec p rv (.holdEnd rv n src sh) fun k => .holdEndReceived k rv n src sh
  | .align b ph _ h => s.laterW 0 (.align p b ph h)
  | .ident r => s.laterW 0 (.ident p r)
  | .keyxInit r => s.laterW 0 (.keyxInit p r)
  | .keyxResp r => s.laterW 0 (.keyxResp p r)
  | .keyxDone n => s.laterW 0 (.keyxDone p n)
  | .delivered src id => s.ctlTo src (.delivered src id)
  | .residueRetry w id i => s.ctlTo w (.residueRetry w id i)
  | .gatherRefused w id o => s.ctlTo w (.gatherRefused w id o)
  | .mcastDone src id => s.laterW 0 (.mcastDone p src id)
  | .mcastComplete src id => s.laterW 0 (.mcastComplete p src id)
  | .mcastLaggard w id m n => s.ctlTo w (.mcastLaggard w id m n)
  | .catchup w id b l g => s.ctlTo w (.catchup w id b l g)
  | .ready b => s.laterW 0 (.ready p b)

/-- What the router of port q does with a KIND 0x02 message from port p (R304, R393, R394): whether its collective combines here at all, whether
the router does, and whether it adds this message. -/
def State.combining (s : State) (p q : Nat) (m : FabricMsg) (content : List Nat) : Bool × Bool × Bool :=
  match s.portPart q with
  | none => (false, false, false)
  | some k => match s.collEntry k m.coll with
    | none => (false, false, false)
    | some (_, c) =>
      let on := bitAt (s.part k).combine q
      (c.combine, on, c.combine && on && fieldAt content 0 1 == 1 && bitAt c.upstream p)

/-- A message sent on at a port, or dropped and counted there when it is dark (R441, R443). -/
def State.forward (s : State) (q : Nat) (m : FabricMsg) : State :=
  if s.linkState q = 4 then s.queueTx q m else s.bump (rLnkTransitDrop q) (flitsOf m.content.length)

/-- A whole message that has arrived at a port: delivered here, combined, sent on, or dropped at a dark port (R393, R394, R441, R443). -/
def State.msgArrive (s : State) (p : Nat) (m : FabricMsg) : State :=
  let s := s.shared m.content.length
  match s.firstPort m.dest with
  | none => s.laterW 0 (arrivalCmd p m)
  | some q =>
    let c := if m.kind = 2 then s.combining p q m m.content else (false, false, false)
    if c.2.2 then s.laterW 0 (.upstreamMessageAdd q p m false)
    else (if c.1 && !c.2.1 then s.bump rStraCombineSkip 1 else s).forward q m

/-- A flit of a message that a combining router is to add, when it is not yet its port's turn: its credit is withheld (R393). -/
def State.withhold (s : State) (p : Nat) (m : FabricMsg) (got : List Nat) : State :=
  match s.firstPort m.dest with
  | none => s
  | some q =>
    let mine := match (s.port q).combineOwn with
      | some (own, _) => own.coll == m.coll && (s.port q).combineNext.head? == some p
      | none => false
    if m.kind = 2 ∧ (s.combining p q m got).2.2 ∧ !mine then
      s.modPort p fun x => { x with owed := SMap.mod x.owed 1 (· - 1), withheld := x.withheld + 1 }
    else s

/-- One data flit put to its message; a multicast goes on flit by flit (R393, R442, R444, R456, R468). -/
def State.dataFlit (s : State) (p : Nat) (f : Flit) : State :=
  let old := SMap.get (s.port p).rx f.msg
  let m := match f.header with
    | some h => if s.legacy p then { h with legacy := true, deadline := s.beat + s.fld (rLnkLegacyDeadline p) 15 0 } else h
    | none => (old.map (·.1)).getD {}
  let got := match f.header with | some _ => [] | none => (old.map (·.2)).getD []
  let i := if got.isEmpty then 0 else (48 + got.length) / 240
  let all := got ++ f.payload
  let last := f.typ == 3 || f.typ == 4
  let s := s.modPort p fun q => { q with rx := SMap.set q.rx f.msg (if last then none else some (m, all)) }
  let s := s.withhold p m all
  if m.kind = 3 then (s.shared f.payload.length).laterW 0 (.multicastFlit p { m with content := f.payload } i)
  else if last then s.msgArrive p { m with content := all.take m.len }
  else s

/-- A flit that is accepted: counted, its credit owed, and what it carries acted on (R432, R439, R544). -/
def State.takeFlit (s : State) (p : Nat) (f : Flit) : State :=
  let s := s.bump (rLnkRxFlits p f.vc) 1
  let s := s.modPort p fun q => { q with
    rxSeqC := if f.vc = 0 then (f.seq + 1) % 4096 else q.rxSeqC, rxSeqD := if f.vc = 0 then q.rxSeqD else (f.seq + 1) % 4096,
    nakSent := SMap.set q.nakSent (if f.vc = 0 then 0 else 1) false, owed := SMap.mod q.owed f.vc (· + 1),
    rxOld := if f.keyPhase != q.phase then none else q.rxOld }
  if s.quiet p then s.bump (rLnkTransitDrop p) 1
  else if f.vc = 0 then f.records.foldl (fun s r => s.recArrive p r) s else s.dataFlit p f

/-- The flits of a cross-rack port that may be accepted in sequence order, since their groups' tags are verified (R437, R463); the fuel is their
number. -/
def State.takeHeld (p : Nat) : Nat → State → State
  | 0, s => s
  | n + 1, s => match (s.port p).heldRx with
    | (f, true) :: r => State.takeHeld p n ((s.modPort p fun q => { q with heldRx := r }).takeFlit p f)
    | _ => s

/-- A data flit in sequence at a cross-rack port: it waits for the tag of its group, whose last flit verifies them all (R462, R463). -/
def State.joinGroup (s : State) (p : Nat) (f : Flit) : State :=
  let l := (s.port p).heldRx ++ [(f, false)]
  let l := if f.groupEnd then l.map fun x => if x.1.vc = f.vc then (x.1, true) else x else l
  State.takeHeld p l.length (s.modPort p fun q => { q with heldRx := l, nakSent := SMap.set q.nakSent 1 false })

/-- A group whose tag fails is discarded, with every later flit of the space (R437, R463). -/
def State.dropGroup (s : State) (p vc : Nat) : State :=
  s.modPort p fun q => { q with heldRx := q.heldRx.takeWhile fun x => x.2 || x.1.vc != vc }

/-- The sequence number that a port expects next in a space (R437). -/
def PortDyn.expects (q : PortDyn) (control : Bool) : Nat := if control then q.rxSeqC else (q.rxSeqD + q.heldRx.length) % 4096

/-- FLIT_RECEIVED (R323, R428, R430–R432, R437–R439, R442–R444, R461–R464, R544): a flit that passes its checks in sequence is accepted, at a
cross-rack port once its group's tag is verified; any other is discarded, with one NAK. -/
def execFlitReceived (p : Nat) (f : Flit) (s : State) : Out :=
  if s.linkState p < 2 ∨ 4 < s.linkState p then .next s
  else
    let control := f.vc == 0
    let s := s.bump (rLnkFecCorr p) f.fecCorrected
    let s := s.bump (rLnkFecUncorr p) (if f.fecOk || f.fecCounted then 0 else 1)
    let s := if f.tagOk then s else ((s.bump (rLnkGcmFail p) 1).eventPort p 0x0304 0 p).dropGroup p f.vc
    if !f.crcOk || !f.fecOk || !f.tagOk then .next (s.askNak p control)
    else
      let s := s.takeHeader p f
      if f.typ = 0 then .next s
      else if f.typ = 5 then .next (s.laterW 0 (.nak p control f.seq))
      else
        let want := (s.port p).expects control
        if f.seq ≠ want then .next (if (want + 4096 - f.seq % 4096) % 4096 < 2048 then s else s.askNak p control)
        else .next (if control || !s.crossRack p then s.takeFlit p f else s.joinGroup p f)

/-- The replay of a space's retry buffer from a sequence number, or LINK_DOWN for a flit sent five times (R438, R440). -/
def State.replay (s : State) (p : Nat) (control : Bool) (seq : Option Nat) : State :=
  let q := s.port p
  let kept := if control then q.keptC else q.keptD
  let l := match seq with | some n => kept.dropWhile (fun (x : Kept) => x.flit.seq != n) | none => kept
  match l with
  | [] => s
  | x :: _ =>
    if 5 ≤ x.sends then s.linkDown p
    else (s.bump (rLnkRetry p) 1).modPort p fun q => if control then { q with replayC := l } else { q with replayD := l }

/-- NAK (R438). -/
def execNak (p : Nat) (control : Bool) (seq : Nat) (s : State) : Out := .next (s.replay p control (some seq))

/-- RETRY_TIMEOUT (R438, R440): the oldest flit has gone unacknowledged for 1,000 ns and no replay is under way. -/
def execRetryTimeout (p : Nat) (control : Bool) (s : State) : Out :=
  let q := s.port p
  match (if control then q.keptC else q.keptD) with
  | [] => .next s
  | x :: _ =>
    if (if control then q.replayC else q.replayD).isEmpty && decide (x.sentAt + 700 ≤ s.clk.wall) then .next (s.replay p control none)
    else .next s

/-- The acknowledgements and credits put into a flit on its way out (R430, R432). -/
def State.dressFlit (s : State) (p : Nat) (f : Flit) : Flit × State :=
  let q := s.port p
  let o := q.owed.head?
  let f := { f with
    ackD := (q.rxSeqD + 4095) % 4096, ackC := (q.rxSeqC + 4095) % 4096,
    creditVc := (o.map (·.1)).getD 0, credit := min 1023 ((o.map (·.2)).getD 0), keyPhase := q.phase }
  (f, s.modPort p fun q => { q with owed := match o with | some (v, n) => SMap.set q.owed v (n - min 1023 n) | none => q.owed })

/-- A flit put on the wire (R429). -/
def State.emitFlit (s : State) (p : Nat) (f : Flit) : State :=
  let d := s.dressFlit p f
  d.2.out (.flit p d.1)

/-- A sequenced flit sent for the first time: numbered, kept for retry and watched for 1,000 ns (R431, R438); on a cross-rack port it joins
its group, and a new key set takes effect with the group that begins (R462–R464, R541). -/
def State.sendNew (s : State) (p : Nat) (f : Flit) (more : Bool) : State :=
  let control := f.vc == 0
  let q := s.port p
  let open_ := SMap.get q.groupOpen f.vc
  let s : State := match q.pendTx, open_ with
    | some n, 0 => s.modPort p fun q => { q with txKey := some n, pendTx := none, groups := 0, phase := !q.phase }
    | _, _ => s
  let endG := s.crossRack p && (control || open_ == 15 || f.typ == 3 || f.typ == 4 || !more)
  let f := { f with seq := if control then q.txSeqC else q.txSeqD, groupEnd := endG }
  let kept : Kept := { flit := f, sends := 1, sentAt := s.clk.wall }
  let s := s.modPort p fun q => { q with
    txSeqC := if control then (q.txSeqC + 1) % 4096 else q.txSeqC, txSeqD := if control then q.txSeqD else (q.txSeqD + 1) % 4096,
    keptC := if control then q.keptC ++ [kept] else q.keptC, keptD := if control then q.keptD else q.keptD ++ [kept],
    credits := SMap.mod q.credits f.vc (· - 1),
    groupOpen := if q.crossRack then SMap.set q.groupOpen f.vc (if endG then 0 else open_ + 1) else q.groupOpen,
    groups := if endG then q.groups + 1 else q.groups }
  let s := (s.bump (rLnkTxFlits p f.vc) 1).laterW 700 (.retryTimeout p control)
  let s := s.emitFlit p f
  let g := (s.port p).groups
  if endG ∧ g = 2 ^ 31 then s.laterW 0 (.keySetRollover p) else if endG ∧ g = 2 ^ 32 - 1 then s.laterW 0 (.linkReset p) else s

/-- A flit sent again from the retry buffer (R438). -/
def State.sendAgain (s : State) (p : Nat) (control : Bool) (x : Kept) : State :=
  let w := s.clk.wall
  let up := fun (l : List Kept) => l.map fun (y : Kept) => if y.flit.seq = x.flit.seq then { y with sends := y.sends + 1, sentAt := w } else y
  let s := s.modPort p fun q =>
    if control then { q with keptC := up q.keptC, replayC := q.replayC.tail } else { q with keptD := up q.keptD, replayD := q.replayD.tail }
  (s.emitFlit p x.flit).laterW 700 (.retryTimeout p control)

/-- The rank of a data channel at equal deadlines (R434). -/
def vcRank (v : Nat) : Nat := if v = 1 then 0 else if v = 3 then 1 else 2

/-- The waiting message whose next flit goes first: the earliest deadline with credit, ties to VC1, VC3, VC2 (R434). -/
def PortDyn.nextTx (q : PortDyn) : Option TxMsg :=
  (q.tx.filter fun t => decide (0 < SMap.get q.credits t.vc)).foldl (fun (b : Option TxMsg) t => match b with
    | none => some t
    | some x => if t.hdr.deadline < x.hdr.deadline ∨ (t.hdr.deadline = x.hdr.deadline ∧ vcRank t.vc < vcRank x.vc) then some t else b) none

/-- The TYPE of flit i of a message of n flits (R430, R442). -/
def flitType (i n : Nat) : Nat := if n ≤ 1 then 4 else if i = 0 then 1 else if i + 1 = n then 3 else 2

/-- The next flit of a waiting message (R442, R444, R456). -/
def TxMsg.flit (t : TxMsg) : Flit :=
  let i := if t.piece then t.hdr.start else t.next
  let n := if t.piece then flitsOf t.hdr.len else t.last
  { vc := t.vc, typ := flitType i n, msg := t.tag, header := if i = 0 then some { t.hdr with content := [], start := if t.piece then 0 else t.hdr.start } else none,
    payload := if t.piece then t.hdr.content else flitBytes t.hdr.content i }

/-- The queue after a flit of its message t has gone. -/
def takeTx (l : List TxMsg) (t : TxMsg) : List TxMsg :=
  let i := l.findIdx (· == t)
  if t.piece || decide (t.last ≤ t.next + 1) then l.eraseIdx i else l.modify i fun x => { x with next := x.next + 1 }

/-- An alignment record takes the count of the moment at which it leaves (R321). -/
def State.stampRec (s : State) : CtlRec → CtlRec
  | .align _ _ src h => .align s.beat s.phase src h
  | r => r

/-- FLIT_BOUNDARY (R323, R429–R435, R544): the port sends the first ready of a NAK, a control flit, a replayed data flit, the data flit of the
earliest deadline, and an IDLE that has something to say. -/
def execFlitBoundary (p : Nat) (s : State) : Out :=
  let q := s.port p
  let idle_ := !q.owed.isEmpty || q.stampBeat != 0
  let st := if q.stampBeat = 0 then none else some (s.beat, s.phase)
  let sendIdle := fun (s : State) => (s.modPort p fun q => { q with stampBeat := 0 }).emitFlit p { stamp := st }
  if s.linkState p < 2 ∨ 4 < s.linkState p then .next s
  else if q.nakC then .next ((s.modPort p fun q => { q with nakC := false }).emitFlit p { typ := 5, seq := q.rxSeqC })
  else if q.nakD then .next ((s.modPort p fun q => { q with nakD := false }).emitFlit p { vc := 1, typ := 5, seq := q.expects false })
  else if s.quiet p then .next (if idle_ then sendIdle s else s)
  else match q.replayC with
    | x :: _ => .next (s.sendAgain p true x)
    | [] =>
      let n := if s.crossRack p then 14 else 15
      if !q.ctl.isEmpty ∧ 0 < SMap.get q.credits 0 ∧ q.keptC.length < 64 then
        .next ((s.modPort p fun q => { q with ctl := q.ctl.drop n }).sendNew p { typ := 4, records := (q.ctl.take n).map s.stampRec } false)
      else match q.replayD with
        | x :: _ => .next (s.sendAgain p false x)
        | [] =>
          match (if q.keptD.length < 1024 then q.nextTx else none) with
          | some t =>
            let more := (takeTx q.tx t).any fun x => x.vc == t.vc
            .next ((s.modPort p fun q => { q with tx := takeTx q.tx t }).sendNew p t.flit more)
          | none => .next (if idle_ then sendIdle s else s)

end Sys2Proof.Machine
end

