-- ==== Sys2Proof/Machine/Start.lean ====
section
/-! DEFINITION. Start phases 3 to 7: identities, the map check, cross-rack keys, the wave and READY (R321, R422, R423, R465, R539–R541,
R574–R581). -/
namespace Sys2Proof.Machine

/-- The peer's coordinate that the map gives for a port of this module (R422). -/
def State.peerOf (s : State) (p : Nat) : Coord := s.neighbour s.me p

/-- The map entry's identity hash for a coordinate (R574). -/
def State.mapHashOf (s : State) (c : Coord) : List Nat := (s.mapEntry c).take 64

/-- Does a peer's identity agree with the map's neighbour (R576)? -/
def State.identFits (s : State) (p : Nat) (r : IdentRec) : Bool :=
  r.chainOk && r.claimed == s.peerOf p && r.idHash == s.mapHashOf (s.peerOf p) && r.mapHash == Config.sha3 s.zen.map

/-- The bytes of a coordinate. -/
def coordBytes (c : Coord) : List Nat := [c.x, c.y, c.z]

/-- The initiator of a key handshake sends KEYX_INIT with set number n (R539). -/
def State.startKeyx (s : State) (p n : Nat) : State :=
  let d := s.drawKey
  let s := d.2.modPort p fun q => { q with keyxSecret := some d.1, setNo := n }
  s.sendCtl p (.keyxInit { n := n, data := Config.kemKey d.1 ++ Config.sign (s.zen.alias_.getD []) (Config.kemKey d.1 ++ leBytes 2 n ++ coordBytes s.me ++ coordBytes (s.peerOf p)), idHash := Config.idHash })

/-- The first handshake of a port after it has come up (R539, R541). -/
def State.beginKeys (s : State) (p : Nat) : State := if p % 2 = 0 then s.startKeyx p ((s.port p).setNo + 1) else s

/-- The check of one port's peer (R576, R579): the port comes up, awaits its keys, or carries only IDENT. -/
def State.checkPeer (s : State) (p : Nat) (r : IdentRec) : State :=
  if !s.identFits p r then
    ((s.modPort p fun q => { q with identOk := false, identOnly := true }).setFld (rLnkStatus p) 63 61 2).eventPort p 0x0309 0 p
  else
    let s := s.modPort p fun q => { q with identOk := true, identOnly := false }
    let s := if !r.aligned ∧ s.fld rClkPhase 63 63 = 1 then s.sendCtl p (.align s.beat s.phase s.me (s.fld rClkPhase 39 32)) else s
    if s.crossRack p then (s.setFld (rLnkStatus p) 63 61 3).beginKeys p else s.setFld (rLnkStatus p) 63 61 4

/-- Ports that the map marks connected and whose flit layer is up. -/
def State.meetPorts (s : State) : List Nat := s.trainedPorts

/-- Has every trained port's identity come (R576)? -/
def State.allIdents (s : State) : Bool := s.meetPorts.all fun p => (s.port p).identSeen.isSome

/-- Has phase 5 passed on every trained port: its peer checked, its keys agreed (R576)? -/
def State.allChecked (s : State) : Bool :=
  s.meetPorts.all fun p => (s.port p).identOnly || ((s.port p).identOk && s.linkState p == 4) || (s.port p).authFailed

/-- PHASE of PWR_STATUS. -/
def State.startPh (s : State) : Nat := s.fld rPwrStatus 60 57
/-- PHASE of PWR_STATUS set. -/
def State.setPh (s : State) (n : Nat) : State := s.setFld rPwrStatus 60 57 n

/-- Is every port that training may bring up out of training (R576)? -/
def State.trainingOver (s : State) : Bool := (List.range 6).all fun p => s.linkState p != 1

/-- Is the module in the bench shape (R5, R6)? -/
def State.inBench (s : State) : Bool := s.dims == ⟨1, 1, 1⟩

/-- The children of this module in the dimension-order spanning tree of the origin: the ports whose neighbour's route to (0, 0, 0) comes
through this module (R576, R580). -/
def State.treeChildren (s : State) : List Nat :=
  (List.range 6).filter fun p =>
    let c := s.peerOf p
    s.connected p && c != s.me && c != ⟨0, 0, 0⟩ &&
      ((List.range 3).foldl (fun (q : Option Nat) d => match q with
        | some x => some x
        | none =>
          let w := ringWay (coordDim s.dims d) (coordDim c d) 0
          if w.1 = 0 then none else some (2 * d + (if w.2 then 0 else 1))) none) == some (Nat.xor p 1)

/-- The port towards the origin (R580). -/
def State.treeParent (s : State) : Option Nat := s.firstPort ⟨0, 0, 0⟩

/-- May READY go up: every connected port is up, phase 5 has passed on it, and every child has sent READY (R580)? -/
def State.readyUp (s : State) : Bool :=
  s.pwr.phase5 && ((List.range 6).all fun p => !s.connected p || s.linkState p == 4) && s.treeChildren.all fun p => (s.port p).readyFrom

/-- FABRIC_READY and the end of the start (R576, R580). -/
def State.fabricReady (s : State) : State :=
  (((s.setPh 7).setFld rPwrStatus 56 56 1).setFld rPwrStatus 63 61 0)

/-- READY sent to the parent, or broadcast by the origin (R580). -/
def State.tryReady (s : State) : State :=
  if s.fld rPwrStatus 56 56 = 1 ∨ !s.readyUp ∨ s.fld rClkPhase 63 63 = 0 then s
  else if s.isOrigin then s.treeChildren.foldl (fun s p => s.sendCtl p (.ready true)) s.fabricReady
  else match s.treeParent with
    | some p => s.sendCtl p (.ready false)
    | none => s

/-- The alignment messages held until phase 5 are accepted with the cycles counted since they came (R578). -/
def State.takeHeldAlign (s : State) : State :=
  (List.range 6).foldl (fun s p => match (s.port p).heldAlign with
    | none => s
    | some (b, ph, h, w) =>
      let t := b * 700 + ph + (s.clk.wall - w)
      let s := s.modPort p fun q => { q with heldAlign := none }
      if s.fld rClkPhase 63 63 = 1 then s else s.acceptAlign p (t / 700) (t % 700) h) s

/-- Bytes of the SHA3-512 of the stored map shown in PWR_MAP_HASH (R582). -/
def State.showMapHash (s : State) : State :=
  (List.range 8).foldl (fun s i => s.setReg (rPwrMapHash i) (BitVec.ofNat 64 (fieldAt (Config.sha3 s.zen.map) (8 * i) 8))) s

/-- The place of this module taken from the map (R575). -/
def State.takePlace (s : State) : State :=
  match s.ownPlace with
  | some i =>
    let c := s.placeCoord i
    { s with zen := { s.zen with coord := some c } }
  | none => s

/-- START_PHASE (R6, R320, R564, R569, R575–R580): the next phase begins once the one before has completed. Phase 3 trains the ports, 4
exchanges identities, 5 checks them and agrees keys, 6 is the wave and 7 READY. After a warm reset and Night the wave is not repeated. -/
def execStartPhase (s : State) : Out :=
  let ph := s.startPh
  if s.fld rPwrStatus 63 61 ≠ 6 ∨ (s.pwr.cold ∧ ph < 2) then .next s
  else if s.inBench then
    let s := if s.clk.counting then s else s.loadBeat 0 0
    .next s.fabricReady
  else if ph < 3 then
    if s.pwr.phase3 then
      if !s.trainingOver then .next s
      else if s.ownPlace.isNone then .next ((s.setPh 3).eventDie 20 0x030A 0 0)
      else
        let s := (s.setPh 3).takePlace
        let s := s.meetPorts.foldl (fun s p => (s.sendCtl p (.ident s.ownIdent)).laterW 7000000 (.startIdentFail p)) s
        .next (if s.allIdents then s.laterW 0 .startPhase else s)
    else
      let s : State := { s with pwr := { s.pwr with phase3 := true } }
      .next ((List.range 6).foldl (fun s p =>
        if s.connected p ∧ s.fld (rLnkCtrl p) 0 0 = 1 then s.trainFrom p (if s.clk.counting then 2 else 1) else s) s)
  else if ph = 3 then
    if !s.allIdents ∨ s.zen.coord.isNone then .next s
    else
      let s := (s.setPh 4).showMapHash
      let s := s.meetPorts.foldl (fun s p => match (s.port p).identSeen with | some r => s.checkPeer p r | none => s) s
      .next (s.laterW 0 .startPhase)
  else if ph = 4 then
    if !s.allChecked then .next s
    else
      let s : State := { (s.setPh 5) with pwr := { s.pwr with phase5 := true } }
      let s := s.takeHeldAlign
      let s := if s.isOrigin && s.clk.epochHigh && s.fld rClkPhase 63 63 == 0 then s.laterW 0 .epoch else s
      .next (s.laterW 0 .startPhase)
  else if ph = 5 then
    if s.fld rClkPhase 63 63 = 0 then .next s else .next ((s.setPh 6).tryReady)
  else .next s.tryReady

/-- IDENT (R576, R579): kept until phase 5, or checked at once on a port that has trained again. -/
def execIdent (p : Nat) (r : IdentRec) (s : State) : Out :=
  let s := s.modPort p fun q => { q with identSeen := some r }
  .next (if 5 ≤ s.startPh ∧ s.linkState p = 2 then (s.checkPeer p r).laterW 0 .startPhase
    else if s.startPh = 3 then s.laterW 0 .startPhase else s)

/-- START_IDENT_FAIL (R576): no identity within 10 ms; the port takes no part in the phases that follow. -/
def execStartIdentFail (p : Nat) (s : State) : Out :=
  if (s.port p).identSeen.isSome ∨ s.startPh ≠ 3 then .next s
  else .next (((s.goDark p).eventPort p 0x0308 0 p).laterW 0 .startPhase)

/-- LINK_AUTH_FAIL: the port stays awaiting keys (R540). -/
def State.authFail (s : State) (p : Nat) : State :=
  ((s.modPort p fun q => { q with authFailed := true, keyxSecret := none }).eventPort p 0x0304 0 p).laterW 0 .startPhase

/-- Do the checks of R539 on a handshake message hold? -/
def State.keyxFits (s : State) (p : Nat) (r : KeyxRec) : Bool :=
  r.chainOk && r.sigOk && r.idHash == s.mapHashOf (s.peerOf p) && s.crossRack p && !(s.port p).authFailed

/-- A shared secret's keys installed for receiving: the older set is kept until the new phase is seen (R464, R539). -/
def State.installRx (s : State) (p n secret : Nat) : State :=
  let s := s.modPort p fun q => { q with rxOld := q.rxKey, rxKey := some secret, keyxSecret := some secret, setNo := n }
  (s.setFld (rLnkKeyset p) 15 0 n).sendCtl p (.keyxDone n)

/-- KEYX_INIT (R539, R540): the responder checks, encapsulates, answers and installs its receive key. -/
def execKeyxInit (p : Nat) (r : KeyxRec) (s : State) : Out :=
  if p % 2 = 0 then .next s
  else if !s.keyxFits p r then .next (s.authFail p)
  else
    let d := s.drawKey
    let ct := (Config.encaps r.data d.1).1
    let s := d.2.sendCtl p (.keyxResp { n := r.n, data := ct ++ Config.sign (s.zen.alias_.getD []) (ct ++ leBytes 2 r.n ++ coordBytes s.me ++ coordBytes (s.peerOf p)), idHash := Config.idHash })
    .next (s.installRx p r.n d.1)

/-- KEYX_RESP (R539, R540): the initiator checks in return and installs its receive key. -/
def execKeyxResp (p : Nat) (r : KeyxRec) (s : State) : Out :=
  match (s.port p).keyxSecret with
  | none => .next s
  | some k =>
    if p % 2 = 1 ∨ r.n ≠ (s.port p).setNo then .next s
    else if !s.keyxFits p r then .next (s.authFail p)
    else .next (s.installRx p r.n k)

/-- KEYX_DONE (R464, R465, R539): the transmit key is installed; a port that awaited keys comes up. -/
def execKeyxDone (p n : Nat) (s : State) : Out :=
  match (s.port p).keyxSecret with
  | none => .next s
  | some k =>
    if n ≠ (s.port p).setNo then .next s
    else
      let first := (s.port p).txKey.isNone
      let s := s.modPort p fun q => if first then { q with txKey := some k, groups := 0, keyxSecret := none }
        else { q with pendTx := some k, keyxSecret := none }
      let s := s.setFld (rLnkKeyset p) 31 16 n
      .next (if s.linkState p = 3 then (s.setFld (rLnkStatus p) 63 61 4).laterW 0 .startPhase else s)

/-- KEY_SET_ROLLOVER (R541, R543): the initiator begins a handshake with the next set number. -/
def execKeySetRollover (p : Nat) (s : State) : Out :=
  .next (if s.crossRack p && !(s.port p).authFailed && decide (3 ≤ s.linkState p) && decide (s.linkState p ≤ 4) then s.beginKeys p else s)

/-- READY (R580): from a child, or the origin's broadcast, which goes on down the tree. -/
def execReady (p : Nat) (broadcast : Bool) (s : State) : Out :=
  if broadcast then
    if s.treeParent ≠ some p then .next s
    else .next (s.treeChildren.foldl (fun s q => s.sendCtl q (.ready true)) (if s.fld rPwrStatus 63 61 = 6 then s.fabricReady else s))
  else .next ((s.modPort p fun q => { q with readyFrom := true }).tryReady)

/-- START_TIMEOUT (R580). -/
def execStartTimeout (s : State) : Out :=
  .next (if s.fld rPwrStatus 56 56 = 1 ∨ s.fld rPwrStatus 63 61 ≠ 6 then s else s.eventDie 20 0x030B 0 0)

end Sys2Proof.Machine
end

