-- ==== Sys2Proof/Machine/Power.lean ====
section
/-! DEFINITION. The supply, the resets, the power states, the self-test and the memory fill (R17, R35, R36, R498, R500, R517–R522, R527,
R548–R573, R584–R586, R612, R616, R628, R648–R650). -/
namespace Sys2Proof.Machine

/-- STATE of PWR_STATUS (R582). -/
def State.pwrState (s : State) : Nat := s.fld rPwrStatus 63 61
/-- STATE of PWR_STATUS set; the PSTAT pins follow. -/
def State.setPwr (s : State) (n : Nat) : State := (s.setFld rPwrStatus 63 61 n).showPstat

/-- A measured input voltage: the reading and the lowest since PWR_SUPPLY_MIN was last written (R548, R582). -/
def State.supplySeen (s : State) (mv : Nat) : State :=
  let s : State := { s with pwr := { s.pwr with mv := mv }, clk := { s.clk with squallMin := if s.inSquall then min s.clk.squallMin mv else s.clk.squallMin } }
  if mv < s.fld rPwrSupplyMin 15 0 then s.setFld rPwrSupplyMin 15 0 mv else s

/-- Does Squall swallow cycles in the present state (R552)? -/
def State.swallows (s : State) : Bool := s.pwrState == 0 || s.pwrState == 6

/-- SQUALL (R548, R549, R551, R552): ratio 4/8 and the traffic cap. A fall during the release takes both back and is the same Squall. -/
def execSquall (mv : Nat) (s : State) : Out :=
  if 42000 ≤ mv ∨ s.pwr.held then .next (s.supplySeen mv)
  else
    let first := !s.inSquall
    let s := s.supplySeen mv
    let s := if s.swallows then s.setRatios 4 s.clk.thermal else s
    let cap := s.swallows || s.pwrState == 1
    let s : State := { s with clk := { s.clk with cap := cap, releasing := false } }
    if !first then .next s
    else
      let s : State := { s with clk := { s.clk with squallMin := mv, squallBeats := 0 } }
      .next (((s.setFld rPwrStatus 55 55 1).bump rPwrSquallCount 1).eventDie 20 0x0403 0 mv)

/-- Squall ends: the cap lifts, and SQUALL_END names the lowest voltage and the beats in Squall (R550). -/
def State.endSquall (s : State) : State :=
  let n := min s.clk.squallBeats 0xFFFFFF
  let v := s.clk.squallMin
  let s : State := { s with clk := { s.clk with cap := false, releasing := false } }
  (s.setFld rPwrStatus 55 55 0).eventDie 20 0x0404 n v

/-- SQUALL_END (R348, R550, R552): the input has risen above 43.5 V, and the release begins at the next beat boundary. -/
def execSquallEnd (mv : Nat) (s : State) : Out :=
  let s := s.supplySeen mv
  if !s.inSquall || s.clk.releasing || decide (mv ≤ 43500) then .next s
  else if s.clk.supply = 0 then .next s.endSquall
  else
    let b := s.beat
    .next { s with clk := { s.clk with releasing := true, nextSupply := b + 17 } }

/-- SWALLOW_RATIO_STEP (R348, R550, R553): a step of the supply release, or of the thermal ratio, 16 beats after the last. -/
def execSwallowRatioStep (thermal : Bool) (s : State) : Out :=
  let b := s.beat
  if thermal then
    let t := s.pwr.tj
    let n := s.clk.thermal
    let go := fun (r : Nat) =>
      let s := s.setRatios s.clk.supply r
      ({ s with clk := { s.clk with nextThermal := b + 16 } } : State)
    if b < s.clk.nextThermal then .next s
    else if 950 ≤ t ∧ n < 6 then .next (if n = 0 then (go 1).eventDie 20 0x0407 0 t else go (n + 1))
    else if t < 930 ∧ 0 < n then .next (if n = 1 then (go 0).eventDie 20 0x0408 0 t else go (n - 1))
    else .next s
  else if !s.clk.releasing || decide (b < s.clk.nextSupply) || s.clk.supply == 0 then .next s
  else
    let s := s.setRatios (s.clk.supply - 1) s.clk.thermal
    let s : State := { s with clk := { s.clk with nextSupply := b + 16 } }
    .next (if s.clk.supply = 0 then s.endSquall else s)

/-- Is a report due that is made at most once per second (R548)? -/
def State.onceASecond (s : State) (last : Option Nat) : Bool := match last with | none => true | some w => decide (w + 700000000 ≤ s.clk.wall)

/-- SUPPLY_LOW (R548). -/
def execSupplyLow (mv : Nat) (s : State) : Out :=
  let s := s.supplySeen mv
  if s.onceASecond s.clk.lastLow && decide (42000 ≤ mv) && decide (mv < 44000) then
    .next (({ s with clk := { s.clk with lastLow := some s.clk.wall } } : State).eventDie 20 0x0401 0 mv)
  else .next s

/-- SUPPLY_HIGH (R548). -/
def execSupplyHigh (mv : Nat) (s : State) : Out :=
  let s := s.supplySeen mv
  if s.onceASecond s.clk.lastHigh && decide (58000 < mv) && decide (mv ≤ 60000) then
    .next (({ s with clk := { s.clk with lastHigh := some s.clk.wall } } : State).eventDie 20 0x0402 0 mv)
  else .next s

/-- An entry of the always-on record, of which the last 64 are kept (R567). -/
def State.aoAppend (s : State) (code : Nat) : State :=
  let e : AoEntry := { code := code, beat := s.beat, mv := s.pwr.mv, tj := s.pwr.tj }
  let l := s.pwr.ao ++ [e]
  { s with pwr := { s.pwr with ao := l.drop (l.length - 64) } }

/-- The always-on record committed to the firmware store (R567). -/
def State.commitAo (s : State) : State := { s with zen := { s.zen with aoCommitted := s.pwr.ao } }

/-- The partitions whose dump was being captured or written when the module was reset (R628). -/
def State.lostCaptures (s : State) : List Nat :=
  s.zen.lostDumps ++ (List.range 4).filter fun k => (s.part k).dumpState == 1 || (s.part k).dumpState == 2

/-- What Zenith keeps in fuses and in the firmware store over every reset: role-key hashes, slots, versions, the map, remaps and the committed
record (R498, R517, R520, R567, R574). The number of the next draw of the DRBG is kept so that no two draws share one (log entry 7). -/
def State.storeKept (s : State) : Zen :=
  let z := s.zen
  { drbg := z.drbg, officer := z.officer, users := z.users, slotA := z.slotA, slotB := z.slotB, fuseSvn := z.fuseSvn, mapStore := z.mapStore, map := z.mapStore,
    remaps := z.remaps, aoCommitted := z.aoCommitted, bypass := z.bypass, lostDumps := s.lostCaptures }

/-- The state after a cold reset of a kind (R556, R560, R566): everything abandoned but the always-on domain, fuses and the firmware store. -/
def State.coldState (s : State) (kind : Nat) (held : Bool) : State :=
  let z := s.storeKept
  let clk : Clk := { wall := s.clk.wall }
  let pwr : Pwr := { ao := s.pwr.ao, mv := s.pwr.mv, tj := s.pwr.tj, held := held, thermtripN := s.pwr.thermtripN || !held, cold := true,
                     pwrgdAt := s.pwr.pwrgdAt, pwrgdLow := s.pwr.pwrgdLow, resetLow := s.pwr.resetLow }
  let r : State := { pending := s.pending, outbox := s.outbox, nextId := s.nextId, free := s.free, zen := z, clk := clk, pwr := pwr }
  r.setReg rPwrResetCause (BitVec.ofNat 64 (kind * 2 ^ 56))

/-- Brownout, overvoltage or a thermal trip: the record is committed and the module held in reset (R548, R555, R556, R567). -/
def State.coldHold (s : State) (code kind : Nat) : State := ((s.aoAppend code).commitAo).coldState kind true

/-- BROWNOUT (R548, R552, R556, R567). -/
def execBrownout (mv : Nat) (s : State) : Out := .next ((s.supplySeen mv).coldHold 0x0405 2)
/-- OVERVOLTAGE (R548, R552, R556, R567). -/
def execOvervoltage (mv : Nat) (s : State) : Out := .next ((s.supplySeen mv).coldHold 0x0406 3)

/-- THERMTRIP (R553, R555, R650): the pin is asserted, the rails are off, and only PWRGD starts the module again. -/
def execThermtrip (tj : Nat) (s : State) : Out :=
  let s : State := { s with pwr := { s.pwr with tj := tj, thermtripN := false } }
  .next ((s.out (.pin "THERMTRIP_N" 0)).coldHold 0x040A 4)

/-- The cold reset that a rise of PWRGD starts; while RESET_N is low the module stays in reset and waits for its rise (R556, R648). -/
def State.powerOn (s : State) (kind : Nat) : State :=
  let s := s.coldState kind false
  { s with pwr := { s.pwr with pwrgdLow := false, held := s.pwr.resetLow, awaitRise := s.pwr.resetLow } }

/-- PWRGD (R555, R556, R560, R648): a rise starts a cold reset; a module held in reset by the supply or a thermal trip needs 10 ms low first. -/
def execPwrgd (high : Bool) (s : State) : Out :=
  if !high then
    let w := s.clk.wall
    .next { s with pwr := { s.pwr with pwrgdAt := w, pwrgdLow := true } }
  else if s.pwr.held && !s.pwr.awaitRise then
    if s.pwr.pwrgdLow ∧ s.pwr.pwrgdAt + 7000000 ≤ s.clk.wall then
      let k := s.fld rPwrResetCause 63 56
      .next ((if s.pwr.thermtripN then s else s.out (.pin "THERMTRIP_N" 1)).powerOn k)
    else .next s
  else .next (s.powerOn (if s.pwr.awaitRise then s.fld rPwrResetCause 63 56 else 1))

/-- The mask of a register's bits that a warm reset returns to reset: the Structure, Status and Counter classes, the Link class and the Zenith
class (R566), and the MSI-X table. -/
def warmMask (a : Nat) : Nat :=
  let o := a % localStride
  if 0xC00000 ≤ o ∧ o < 0xF00000 then 2 ^ 64 - 1
  else if o = rZenBoot then 2 ^ 64 - 1 - 0xFFFF * 2 ^ 32
  else if o = rZenApproved then 2 ^ 64 - 1
  else if o = rDbgStatus then Nat.lor (classMask true a) (2 ^ 63)
  else if 0xF0000 ≤ o ∧ o < 0xF0100 then 2 ^ 64 - 1
  else classMask true a

/-- The state after a warm reset (R556, R558, R560, R566): everything but the always-on domain, Meridian, the partition configuration and
memory contents. -/
def State.warmState (s : State) : State :=
  let z := { s.storeKept with dumpSeq := s.zen.dumpSeq }
  let clk : Clk := { wall := s.clk.wall, counting := s.clk.counting, refLost := s.clk.refLost, epochHigh := s.clk.epochHigh }
  let pwr : Pwr := { ao := s.pwr.ao, mv := s.pwr.mv, tj := s.pwr.tj, cold := false, pwrgdAt := s.pwr.pwrgdAt, pwrgdLow := s.pwr.pwrgdLow,
                     resetLow := s.pwr.resetLow }
  let parts : SMap Part := (List.range 4).foldl (fun m k =>
    SMap.set m k (if s.conf k then { clearAfter := true } else {})) []
  let t := s.resetBits warmMask
  let r : State := { pending := s.pending, outbox := s.outbox, nextId := s.nextId, free := s.free, zen := z, clk := clk, pwr := pwr,
                     regs := t.regs, hbm := s.hbm, store := s.store, lstore := s.lstore, badLine := s.badLine, dumps := s.dumps, parts := parts }
  (r.setReg rPwrResetCause (BitVec.ofNat 64 (5 * 2 ^ 56))).showPstat

/-- RESET_N (R556, R560, R648; log entry 84). A pulse of at least 1 µs low is a warm reset. While PWRGD is low or the module is held in reset
the command is one edge of the pin: it changes the level that PWRGD's rise finds, and at the rise that a module awaits it leaves reset, so
that the self-test can run. -/
def execResetN (s : State) : Out :=
  if s.pwr.awaitRise then .next { s with pwr := { s.pwr with held := false, awaitRise := false, resetLow := false } }
  else if s.pwr.held || s.pwr.pwrgdLow then .next { s with pwr := { s.pwr with resetLow := !s.pwr.resetLow } }
  else .next s.warmState

/-- The IDE stream of a port leaves the Secure state (R527): its confidential partitions stop. -/
def State.ideLost (s : State) (h : Nat) : State :=
  if s.fld rZenRole (8 + h) (8 + h) = 0 then s
  else
    let s := (s.setFld rZenRole (8 + h) (8 + h) 0).modHost h fun x => { x with ideKeys := none, ideLeft := true }
    ((List.range 4).filter fun k => s.conf k && s.owner k == h).foldl (fun s k => s.fault k 0x12 none 0 h) s

/-- IDE_INSECURE (R527). -/
def execIdeInsecure (h : Nat) (s : State) : Out := .next (s.ideLost h)

/-- The registers of a function-level reset of port h: its port-local ones, and the rings of its partitions (R588, R616). -/
def State.flrReg (s : State) (h key : Nat) : Bool :=
  let o := key % localStride
  let mine := key / localStride == h
  let zenLocal := decide (0x100000 ≤ o) && decide (o < 0x108000)
  let dbgLocal := decide (rDbgEvqBase ≤ o) && decide (o ≤ rDbgDumpStatus)
  (mine && (o == rGlbAbi || (decide (0x1000 ≤ o) && decide (o < 0x2000)) || (decide (0xF0000 ≤ o) && decide (o < 0xF0100)) || zenLocal || dbgLocal)) ||
    (List.range 4).any fun k => s.partValid k && s.owner k == h && decide (rHifCrCtrl k ≤ key) && decide (key ≤ rHifCqStatus k)

/-- A function-level reset (R520, R527, R556, R560, R604, R612, R616): the session, the stream and the role end, ring and MSI-X state return to
reset, and the port's FLR_RESET partitions are reset. -/
def State.flr (s : State) (h : Nat) : State :=
  let s := s.ideLost h
  let s := s.setFld rZenRole (2 * h + 1) (2 * h) 0
  let s := s.resetBits fun a => if s.flrReg h a then (if a % localStride = rGlbAbi then 0xFF00FF else 2 ^ 64 - 1) else 0
  let z := s.zen
  let z := { z with done := SMap.erase z.done h, lastCmd := SMap.erase z.lastCmd h, tickets := z.tickets.filter fun t => t.1 != h }
  let left := (s.host h).ideLeft
  let s : State := { s with mbuf := s.mbuf.filter (fun c => c.1 / 2 ^ 16 != h), hosts := SMap.set s.hosts h { ideLeft := left }, zen := z }
  let ks := (List.range 4).filter fun k => s.partValid k && s.owner k == h
  let s := ks.foldl (fun s k => s.modPart k fun p => { p with queue := [], fetched := [], prodRead := false, refusedAt := none, records := [], cqCons := 0 }) s
  (ks.filter fun k => s.fld (rZenPart k) 60 60 == 1).foldl (fun s k => s.resetPart k) s

/-- FUNCTION_LEVEL_RESET (R556). -/
def execFunctionLevelReset (h : Nat) (s : State) : Out := .next (s.flr h)
/-- PERST_N (R649): as a function-level reset; the port then trains. -/
def execPerstN (h : Nat) (s : State) : Out := .next (s.flr h)

/-- HOST_LINK_TRAINED (R584): the trained width and rate, and HOST_LINK_DEGRADED below x8 or 64 GT/s. -/
def execHostLinkTrained (h width rate : Nat) (s : State) : Out :=
  let s := (s.setFld (rHifLink + localStride * h) 7 4 width).setFld (rHifLink + localStride * h) 3 0 rate
  .next (if width < 8 ∨ rate < 6 then s.eventDie (18 + h) 0x0506 (width + 16 * rate) h else s)

/-- POWER_MANAGEMENT_STATE (R586): on the return to D0 the records and messages that waited are sent in order. -/
def execPowerManagementState (h : Nat) (d3 : Bool) (s : State) : Out :=
  let vs := (s.host h).heldMsix
  let s := s.modHost h fun x => { x with d3 := d3, heldMsix := if d3 then x.heldMsix else [] }
  if d3 then .next s
  else
    let s := ((List.range 4).filter fun k => s.partValid k && s.owner k == h).foldl
      (fun s k => State.drainRecords k (s.part k).records.length s) s
    .next (vs.foldl (fun s v => s.msix h v) s)

/-- Zenith's secrets and roles zeroised: both IDE streams leave the Secure state, and every cross-rack port is back to awaiting keys (R521,
R527, R556). -/
def State.zeroiseSecrets (s : State) : State :=
  let s := (s.ideLost 0).ideLost 1
  let s := (List.range 4).foldl (fun s k => s.modPart k fun p => { p with keys := [], resultKey := none }) s
  let s := (List.range 2).foldl (fun s h => s.modHost h fun x => { x with spdm := 0, session := none, ideKeys := none }) s
  let s := (((s.setFld rZenRole 9 8 0).setFld rZenRole 5 4 0).setFld rZenRole 3 2 0).setFld rZenRole 1 0 0
  let s : State := { s with zen := { s.zen with alias_ := none, nonce := 0, lastCmd := [] } }
  (List.range 6).foldl (fun s p => s.awaitKeys p) s

/-- A Zenith secure reset (R556, R559, R560, R612, R628): secrets zeroised, confidential partitions stopped, Clearing and sweeps abandoned,
and the firmware booting. `why` is 1 watchdog, 2 error state, 3 ZENITH_RESET. -/
def State.zenReset (s : State) (why : Nat) : State :=
  let again := (List.range 4).filter fun k => s.partValid k && (s.conf k || s.pstate k == 3)
  let s := ((List.range 4).filter fun k => s.conf k).foldl (fun s k => s.fault k 0x13 none 0 0) s
  let lost := s.lostCaptures
  let s := (List.range 4).foldl (fun s k => if (s.part k).dumpState = 1 ∨ (s.part k).dumpState = 2 then s.modPart k fun p => { p with dumpState := 0 } else s) s
  let s := (List.range 4).foldl (fun s k => ((s.setFld (rZenXts k) 63 63 0).setFld (rZenXts k) 17 0 0).modPart k fun p =>
    { p with clearStep := 0, sweepAt := [], lockAt := [], locked := [], tickets := [], clearAfter := p.clearAfter || again.contains k }) s
  let s : State := ({ s with maint := s.maint.filter fun m => m.act < 6 } : State).showMaint
  let s := s.zeroiseSecrets
  let s := (List.range 2).foldl (fun s h => s.setFld (rGlbAbi + localStride * h) 7 0 0) s
  let s := s.resetBits fun a => if a % localStride = rZenBoot ∨ a % localStride = rZenApproved ∨ a % localStride = rDbgStatus then Nat.land (warmMask a) (if a % localStride = rDbgStatus then 2 ^ 63 else 2 ^ 64 - 1) else 0
  let s : State := { s with zen := { s.zen with
    booting := true, booted := false, error := false, unlocked := false, lostDumps := lost, done := [],
    tickets := s.zen.tickets.filter fun t => t.2.2 == 0x34 && why == 3 } }
  (s.setReg rPwrResetCause (BitVec.ofNat 64 (6 * 2 ^ 56 + why * 2 ^ 48))).showPstat

/-- ZENITH_WATCHDOG (R556). -/
def execZenithWatchdog (s : State) : Out := .next (s.zenReset 1)

/-- The module enters Overcast with the number of a failed test (R570–R572): its ports go dark, and its arrays, HBM and partitions are gone. -/
def State.toOvercast (s : State) (test detail : Nat) : State :=
  let s := (List.range 4).foldl (fun s k => if s.partValid k then s.toUnloaded k else s) s
  let s := (List.range 6).foldl (fun s p => s.goDark p) s
  let s : State := { s with hbm := [], badLine := [], heldWrites := [], zen := { s.zen with booted := true } }
  let s := (((s.setFld rPwrSelftest 63 63 1).setFld rPwrSelftest 62 62 1).setFld rPwrSelftest 55 48 test).setFld rPwrSelftest 47 32 detail
  (s.setFld rZenApproved 7 0 test).setPwr 5

/-- ZENITH_ERROR (R519): the error state, and the secure reset that it triggers; during the power-on self-test, Overcast. -/
def execZenithError (s : State) : Out :=
  if s.pwrState = 4 then .next (s.toOvercast 1 0)
  else
    let s := s.zenReset 2
    let s := (s.setFld rZenApproved 61 61 1).setFld rZenApproved 63 63 0
    .next { s with zen := { s.zen with error := true } }

/-- DUMP_FAIL for the captures that a reset abandoned (R628). -/
def State.reportLost (s : State) : State :=
  let s' : State := { s with zen := { s.zen with lostDumps := [] } }
  s.zen.lostDumps.foldl (fun s k => s.raise { code := 0x050A, sev := 2, source := 20, part := if s.partValid k then k else 0xFF, detail := 1, open_ := true }) s'

/-- Clearing that a reset left due begins, step 1 first (R558, R560). -/
def State.dueClearing (s : State) : State :=
  (List.range 4).foldl (fun s k => if s.partValid k && (s.part k).clearAfter then s.beginClearing k [] else s) s

/-- The running firmware's image (R517). -/
def State.firmware (s : State) : List Nat := if s.zen.fwSlot = 0 then s.zen.slotA else s.zen.slotB

/-- The bytes of "XK9616 ALIAS" (R518). -/
def aliasLabel : List Nat := [0x58, 0x4B, 0x39, 0x36, 0x31, 0x36, 0x20, 0x41, 0x4C, 0x49, 0x41, 0x53]

/-- The alias key's seed, derived from the device secret, the firmware's measurement and the security version (R518). -/
def State.aliasSeed (s : State) : List Nat :=
  Config.kmac Config.deviceSecret (Config.sha3 s.firmware ++ leBytes 2 s.zen.fuseSvn ++ aliasLabel)

/-- A boot of the firmware: ZEN_BOOT and ZEN_APPROVED, the alias key and a nonce (R517, R518, R520, R522). -/
def State.zenBooted (s : State) (slot : Nat) (fw : Nat) : State :=
  let n := s.drawKey
  let s := n.2
  let s : State := { s with zen := { s.zen with fwSlot := slot } }
  let s := ((s.setFld rZenBoot 63 63 1).setFld rZenBoot 62 62 slot).setFld rZenBoot 61 61 slot
  let s := (s.setFld rZenBoot 31 0 fw).setFld rZenBoot 47 32 s.zen.fuseSvn
  let s := (s.setFld rZenApproved 63 63 1).setFld rZenApproved 61 61 0
  { s with zen := { s.zen with booting := false, booted := true, error := false, alias_ := some s.aliasSeed, nonce := n.1, fwVersion := fw } }

/-- ZENITH_BOOT_DONE (R517, R519, R556, R560): the mailbox answers again, Clearing runs where it is due, and keys are agreed again; a known-answer
test that fails puts Zenith back into its error state. -/
def execZenithBootDone (ok : Bool) (s : State) : Out :=
  if !s.zen.booting then .next s
  else if !ok then .next (s.laterW 0 .zenithError)
  else
    let s := (s.zenBooted s.zen.fwSlot s.zen.fwVersion).reportLost.dueClearing
    let s := (List.range 6).foldl (fun s p => if s.crossRack p && s.linkState p == 3 && !s.quiet p then s.laterW 0 (.keySetRollover p) else s) s
    .next (s.zen.tickets.foldl (fun s t => s.mbFinish t.1 t.2.1 resOk 0) s)

/-- The enabled positions among H13 to H17, in clockwise order (R35). -/
def enabledPos (bypass : Nat) : List Nat := ([13, 14, 15, 16, 17]).filter fun h => !bitAt bypass h

/-- Does a fuse map bypass exactly two positions, both among H13 to H17 (R35, R36)? -/
def fuseMapOk (bypass : Nat) : Bool := decide (bypass % 2 ^ 13 = 0) && decide (bypass < 2 ^ 18) && decide ((enabledPos bypass).length = 3)

/-- HALO_FUSE and HALO_LAYOUT as the self-test sets them (R35, R92). -/
def State.setLayout (s : State) (bypass : Nat) : State :=
  let e := enabledPos bypass
  let s := s.setReg rHaloFuse (BitVec.ofNat 64 bypass)
  s.setReg rHaloLayout (BitVec.ofNat 64 (e.getD 2 0 * 2 ^ 19 + e.getD 1 0 * 2 ^ 14 + e.getD 0 0 * 2 ^ 9 + 256 + 1))

/-- The recorded remaps reinstated (R498). -/
def State.reinstate (s : State) : State :=
  s.zen.remaps.foldl (fun s e => (e.2.zipIdx.foldl (fun s l => s.setReg (rMemRemap e.1 l.2) (BitVec.ofNat 64 (2 ^ 63 + l.1))) s).setFld
    (rMemStatus e.1) 4 0 e.2.length) s

/-- What the self-test makes of what it finds: the first test that fails, in order (R36, R570). -/
def SelfTestResult_fails (r : SelfTestResult) : Nat :=
  let low := if r.mv < 42000 then 3 else 0
  let fuse := if fuseMapOk r.bypass then 0 else 5
  (([r.failed, low, fuse].filter (0 < ·)).foldl (fun (b : Option Nat) t => match b with | none => some t | some x => some (min x t)) none).getD 0

/-- SELF_TEST (R35, R36, R498, R517, R518, R548, R556, R569–R573): the tests in order; a failure is Overcast, and else the module starts. -/
def execSelfTest (r : SelfTestResult) (s : State) : Out :=
  if s.pwrState ≠ 4 ∨ s.pwr.held then .next s
  else
    let fail := SelfTestResult_fails r
    let s := ((s.setFld rPwrSelftest 63 63 1).setFld rPwrSelftest 62 62 0).setFld rPwrSelftest 55 48 0
    let s := s.setFld rPwrSelftest 15 0 r.elapsed
    let s : State := { s with pwr := { s.pwr with mv := r.mv }, zen := { s.zen with bypass := r.bypass, fuseSvn := r.fuseSvn } }
    let ts := s.zen.tickets.filter fun t => t.2.2 == 0x41
    let s := if fail = 0 ∨ 2 < fail then s.zenBooted (if r.slotB then 1 else 0) r.fwVersion else s
    let s := if r.slotB ∧ fail ≠ 2 then s.eventDie 20 0x0501 0 0 else s
    let s := if fail = 0 ∨ 4 < fail then s.setReg rClkLock (BitVec.ofNat 64 (Nat.lor (r.locked % 2 ^ 25) 0xF03FFF)) else s.setReg rClkLock (BitVec.ofNat 64 (r.locked % 2 ^ 25))
    let s := if fail = 0 ∨ 5 < fail then s.setLayout r.bypass else s
    if fail ≠ 0 then .next ((s.toOvercast fail (if fail = r.failed then r.detail else 0)).finishTickets ts 0x2A fail)
    else
      let s := ((if s.pwr.cold then s.commitAo else s).reinstate.setPh 1).setPwr 6
      let s := (s.reportLost.dueClearing).finishTickets ts resOk 0
      .next (if s.pwr.cold then s.laterW (4 * 700000000 - 700000 * r.elapsed) .startTimeout else s.laterW 0 .startPhase)

/-- MEMORY_FILL_DONE (R500, R576): zeros everywhere with valid checks, FILLED set, and the reserved areas' map reloaded; phase 3 follows. -/
def execMemoryFillDone (s : State) : Out :=
  if s.pwrState ≠ 6 ∨ s.startPh ≠ 1 ∨ !s.pwr.cold then .next s
  else
    let s : State := { s with hbm := [], store := [], lstore := [], badLine := [], heldWrites := [] }
    let s := (List.range 8).foldl (fun s st => s.setFld (rMemStatus st) 63 63 1) s
    .next ((s.setPh 2).laterW 0 .startPhase)

/-- Patrol scrub pauses for a low-power state, and goes on at its pointer in Active (R561). -/
def State.pausePatrol (s : State) (on : Bool) : State :=
  let s : State := { s with pwr := { s.pwr with pausedPatrol := on } }
  ({ s with maint := s.maint.map fun (m : Maint) => if m.act = 1 then { m with paused := on } else m } : State).showMaint

/-- The bits of a register that Night returns to reset: the Counter class everywhere, and the Structure and Status classes but for what the
supply, the clocks, Zenith and the host ports, which stay on, show of themselves (R562, R566; log entry 107). -/
def nightMask (a : Nat) : Nat :=
  let o := a % localStride
  let ctr := classMask true a - classMask false a
  if o < 0x200000 ∨ (rowOf o).any (·.isLocal) ∨ o = rPwrStatus ∨ o = rClkLock then ctr
  else if 0x800000 ≤ o ∧ o < 0xC00000 ∧ (o - 0x800000) % 0x80000 = 0 then Nat.land (classMask true a) (2 ^ 64 - 1 - 2 ^ 61 - 2 ^ 63)
  else classMask true a

/-- Entering Night (R562, R564, R566, R568): Structure, Status and Counter registers return to reset, ports go dark, and the clocks of what is off
stop. -/
def State.enterNight (s : State) : State :=
  let s := (List.range 6).foldl (fun s p => (s.goDark p).setFld (rLnkStatus p) 55 32 0) s
  let s := (((s.resetBits nightMask).setFld rPwrStatus 60 57 0).setFld rPwrStatus 56 56 0).setFld rClkLock 19 0 0
  { s with cores := [], arrays := [], bars := [], slots := [] }

/-- The supply ratio in a low-power state: Squall swallows no cycles there and caps the traffic only in Idle, and a release that was under way is
at its end (R550, R552). -/
def State.restSquall (s : State) (target : Nat) : State :=
  if !s.inSquall then s
  else
    let s := s.setRatios 0 s.clk.thermal
    if s.clk.releasing then s.endSquall
    else { s with clk := { s.clk with cap := target == 1 } }

/-- POWER_STATE_ENTERED (R552, R561–R564): the die takes the new state; leaving Night, SRAM is zeroed, the ports retrain, and phases 4, 5 and 7
run again. -/
def execPowerStateEntered (s : State) : Out :=
  match s.pwr.changing with
  | none => .next s
  | some (target, w) =>
    let was := s.pwrState
    let s : State := { s with pwr := { s.pwr with changing := none } }
    let s := s.mbFinish (w / 256) (w % 256) resOk 0
    if target = 3 then .next ((s.restSquall 3).enterNight.setPwr 3)
    else if target ≠ 0 then .next ((s.restSquall target).setPwr target)
    else
      let s := s.pausePatrol false
      let s := if s.inSquall && !s.clk.releasing then
          (({ s with clk := { s.clk with cap := true } } : State).setRatios 4 s.clk.thermal) else s
      if was ≠ 3 then .next (s.setPwr 0)
      else
        let s := s.setFld rClkLock 13 0 0x3FFF
        let s : State := { s with store := [], lstore := [], pwr := { s.pwr with phase3 := true, phase5 := false, cold := false } }
        let s := (List.range 6).foldl (fun s p => if s.connected p ∧ s.fld (rLnkCtrl p) 0 0 = 1 then s.trainFrom p 2 else s) s
        .next ((((s.setPh 2).setFld rPwrStatus 56 56 0).setPwr 6).laterW 0 .startPhase)

end Sys2Proof.Machine
end

