-- ==== Sys2Proof/Machine/Loader.lean ====
section
/-! DEFINITION. The loader at work: what an accepted image writes into registers, sequencer memories, core stores and HBM, and the end of a load
(R40, R182, R195, R371–R374, R528, R664–R670). -/
namespace Sys2Proof.Machine

/-- Registers written in order. -/
def State.setRegs (s : State) (l : List (Nat × Nat)) : State := l.foldl (fun s p => s.setReg p.1 (BitVec.ofNat 64 p.2)) s

/-- What the loader knows of a partition and of the installation (R358, R371, R374). -/
def State.loadEnv (s : State) (k : Nat) (bases : List Nat) (ptable : Nat) : LoadEnv :=
  { cores := s.partCores k, shape := s.fld rZenLayout 2 0, ports := s.fld (rZenPart k) 53 48, conf := s.conf k, bench := s.inBench,
    me := s.me, dims := s.dims, bases := bases, fuse := s.fld rHaloFuse 17 0,
    params := if ptable = 0 then [] else s.hbmRead ptable (min 2048 (0xFB8000000 - ptable % 2 ^ 36) / 8 * 8) }

/-- The buffer links that a LINKS payload declares (R667). -/
def linkCfgs (b : List Nat) : List (Nat × LinkCfg) :=
  (List.range 128).filterMap fun m =>
    let x := slice b (16 * m) 16
    if fieldAt x 0 1 = 0 then none
    else some (m, { halves := fieldAt x 0 1, producer := fieldAt x 1 1, consumer := fieldAt x 2 1, space := fieldAt x 3 1 % 16,
                    array := fieldAt x 3 1 / 16 % 4, stride := fieldAt x 4 4, base := fieldAt x 8 5 })

/-- The semaphores of a context (R182, R420, R668): the map, and the full and empty semaphores of its declared links. -/
def semWrites (core c : Nat) (map links : List Nat) : List (Nat × Nat) :=
  let e := fun (i : Nat) => fieldAt map (2 * i) 2
  let maps := (List.range 256).map fun i => (rSemMap core c i, Nat.land (e i) 0x81FF)
  let value := fun (i max v : Nat) => if bitAt (e i) 15 then [(rSemValue core (e i % 512), max * 256 + v)] else []
  maps ++ (linkCfgs links).flatMap fun p => value (2 * p.1) p.2.halves 0 ++ value (2 * p.1 + 1) p.2.halves p.2.halves

/-- The registers that a core's records fix: vector-store mode, policy, schedule sets and thinning, with COMMIT zero (R228, R287, R665,
R666, R670). -/
def coreWrites (rs : List Rec) (j core : Nat) : List (Nat × Nat) :=
  let pol := recBody rs 13 j
  let sets := (List.range 4).flatMap fun n => match recBody rs 11 (4 * j + n) with
    | [] => []
    | b => (List.range 7).map (fun i => (rSchCtrl core n + 8 * i, fieldAt b (8 * i) 8)) ++
        (List.range 8).map fun i => (rSchMilestone core n i, fieldAt b (56 + 8 * i) 8 % 2 ^ 32)
  let thins := rs.filter fun r => r.typ == 12 && r.inst / 256 == j
  let segs := thins.map fun r =>
    (rVecThinSeg core (r.inst % 256), fieldAt r.body 2 1 % 16 * 4096 + fieldAt r.body 1 1 % 16 * 256 + fieldAt r.body 0 1 % 16)
  let band := match thins.head? with
    | some r => [(rVecThinBand core, fieldAt r.body 8 4 * 2 ^ 32 + fieldAt r.body 12 4), (rVecThinBudget core, fieldAt r.body 16 5)]
    | none => []
  [(rVecMode core, fieldAt (recBody rs 4 j) 72 1 % 4), (rUpdPolicy core, fieldAt pol 0 1), (rSeqHoldLimit core, fieldAt pol 4 4),
   (rStrSrSeed core, fieldAt pol 8 8), (rVecThinCommit core, 0)] ++ sets ++ band ++ segs

/-- The barrier unit of a record, its cores in physical form (R420, R669). -/
def barWord (k : Nat) (cores : List Nat) (b : List Nat) : Nat :=
  let phys := (maskList 4 (fieldAt b 3 1)).foldl (fun m j => match cores[j]? with | some c => Nat.lor m (2 ^ c) | none => m) 0
  k * 2 ^ 61 + 2 ^ 60 + fieldAt b 0 1 % 2 * 2 ^ 59 + fieldAt b 1 1 % 8 * 2 ^ 56 + fieldAt b 2 1 % 64 * 2 ^ 50 + phys * 2 ^ 46 +
    fieldAt b 4 1 % 16 * 2 ^ 42 + fieldAt b 5 1 % 64 * 2 ^ 36 + fieldAt b 8 4 % 2 ^ 18

/-- What STORE_MAP and the sections lay out in a core's stores (R353, R666). -/
def storeMapOf (img b : List Nat) (j : Nat) : StoreMap :=
  let r := mapRegions b
  { arrays := (List.range 4).map fun i => (List.range 4).map fun h => fieldAt b (8 * i + 2 * h) 2,
    stream := r.getD 0 (0, 0), vector := r.getD 1 (0, 0), exp := r.getD 2 (0, 0), const := r.getD 3 (0, 0), resident := r.getD 4 (0, 0),
    expCount := (sectBody img 5 j).length / 32, streamCount := (strEntries img j).length }

/-- One core loaded (R182, R195, R356, R371): its sequencer memory, links, tables, constants, active bases and registers. -/
def State.loadCore (s : State) (img : List Nat) (rs : List Rec) (j core : Nat) : State :=
  let cs := usedCtxs img j
  let prog := sectBody img 2 j
  let map := storeMapOf img (recBody rs 4 j) j
  let links := cs.flatMap fun c => (linkCfgs (recBody rs 5 (8 * j + c))).map fun p => (linkKey c p.1, p.2)
  let persist := (strEntries img j).filter fun d => (sdesc d).persist
  let s := s.modCore core fun co => {
    freezePend := co.freezePend,
    ctxs := cs.foldl (fun (m : SMap Ctx) c =>
      let e := (ctxEntries prog).getD c (0, 0)
      SMap.set m c { first := e.1, count := e.2 }) [],
    program := prog, map := map,
    links := links.foldl (fun (m : SMap LinkCfg) p => SMap.set m p.1 p.2) [],
    active := persist.foldl (fun (m : SMap (Nat × Nat)) d => SMap.set m (sdesc d).slot ((sdesc d).srcBase, (sdesc d).dstBase)) [] }
  let s := s.resetBits fun a =>
    if rSemValue core 0 ≤ a ∧ a < rSemFault core then 2 ^ 64 - 1 else if rSemMap core 0 0 ≤ a ∧ a < rSemMap core 8 0 then 2 ^ 64 - 1 else 0
  let s := cs.foldl (fun s c => s.setRegs (semWrites core c (recBody rs 6 (8 * j + c)) (recBody rs 5 (8 * j + c)))) s
  let s := (List.range 64).foldl (fun s i => s.setFld (rStrPsArm core i) 63 63 0) (s.setRegs (coreWrites rs j core))
  let s := (s.storeWrite core map.stream.1 (sectBody img 3 j)).storeWrite core map.vector.1 (sectBody img 4 j)
  let s := (s.storeWrite core map.exp.1 (sectBody img 5 j)).storeWrite core map.const.1 (sectBody img 6 j)
  let s := s.setFld rHaloFusion (2 * core + 1) (2 * core) (fieldAt (recBody rs 2 j) 0 1)
  ((s.setFld (rSeqCtxStatus core) 15 8 (cs.foldl (fun m c => m + 2 ^ c) 0)).setFld (rSeqCtxStatus core) 23 16 0).setFld (rSeqCtxStatus core) 1 0 2

/-- The barrier units of an image (R413, R669): both senses open, and every core's next senses 0. The units that the partition held before
are its no more. -/
def State.loadBars (s : State) (k : Nat) (rs : List Rec) : State :=
  let s := (List.range 64).foldl (fun s u =>
    if s.fld (rBarCfg u) 60 60 = 1 ∧ s.barPart u = k then (s.setReg (rBarCfg u) 0).setReg (rBarState u) (resetWord (rBarState u)) else s) s
  (rs.filter fun r => r.typ == 7).foldl (fun s r =>
    let s := (s.setReg (rBarCfg r.inst) (BitVec.ofNat 64 (barWord k (s.partCores k) r.body))).setReg (rBarState r.inst) (resetWord (rBarState r.inst))
    { s with bars := SMap.set s.bars r.inst { totals := (List.range 6).map fun p => fieldAt r.body (16 + 4 * p) 4 } }) s

/-- Step 7 of a load (R371): the image written into the partition. -/
def State.applyImage (s : State) (k : Nat) (bases img : List Nat) : State :=
  let rs := records img
  let cores := s.partCores k
  let s := (cores.zipIdx).foldl (fun s p => s.loadCore img rs p.2 p.1) s
  let s := s.loadBars k rs
  let shape := recBody rs 1 0
  let s := s.setFld rHaloSegment 2 0 (fieldAt shape 0 1)
  let s := cores.foldl (fun s c => s.setFld rHaloSegment (4 + c) (4 + c) (if fieldAt shape 0 1 = 0 then 0 else 1)) s
  let routes := recBody rs 8 0
  let s := s.modPart k fun p => { p with
    startLead := fieldAt shape 8 4,
    routes := (List.range (fieldAt routes 6 2)).foldl (fun (m : SMap (List Nat)) r => SMap.set m r (slice routes (8 + 16 * r) 16)) [],
    combine := (List.range 6).foldl (fun m q => m + fieldAt routes q 1 % 2 * 2 ^ q) 0,
    colls := (rs.filter fun r => r.typ == 9).foldl (fun (m : SMap (List Nat)) r => SMap.set m r.inst r.body) [],
    rvs := (rs.filter fun r => r.typ == 10).foldl (fun (m : SMap (Option RvEntry)) r => SMap.set m r.inst (some (rvEntry r.body))) [] }
  ((sections img).filter fun x => x.typ == 7).foldl (fun s x => match cores[x.unit / 2]? with
    | some c => s.hbmWrite ((2 * c + x.unit % 2) * 2 ^ 36 + bases.getD x.unit 0) x.body
    | none => s) s

/-- The check of the signature section in a confidential partition (R528): the signature verifies, its key is one of the signers, and the
rest is zero. -/
def State.signatureFail (s : State) (k : Nat) (img : List Nat) (sigOk : Bool) : Fail :=
  if !s.conf k then none
  else match sect img 9 0xFF with
    | none => some (0x12, 0)
    | some x => need (sigOk && decide (7219 ≤ x.body.length) && (s.part k).signers.contains (Config.sha3 (x.body.take 2592)) &&
        (x.body.drop 7219).all (· == 0)) 0x12 x.off

/-- A barrier unit that another partition holds cannot be an image's (R413, R515; log entry 22). -/
def State.unitsFree (s : State) (k : Nat) (rs : List Rec) : Fail :=
  allOk (fun (r : Rec) => need (r.typ != 7 || s.fld (rBarCfg r.inst) 60 60 == 0 || s.barPart r.inst == k || !s.partValid (s.barPart r.inst))
    cStructure r.at_) rs

/-- What Zenith measures of an accepted image (R524): the image with the signature's content as zeros, the structure section and the signer;
with the bypass set that the loader wrote into the Halo field of the structure section (R40; log entry 101). -/
def measured (l : Loaded) (img relocated : List Nat) (params : List Nat) : Loaded :=
  let whole := match sect img 9 0xFF with
    | some x => splice img x.off (List.replicate x.body.length 0)
    | none => img
  { l with image := whole, structure_ := sectBody img 1 0xFF, signer := (sectBody img 9 0xFF).take 2592, params := params,
           bypass := fieldAt (recBody (records relocated) 1 0) 4 4 }

/-- LOAD_COMPLETE (R371–R374, R528): the checks in their order; an accepted image is written and the partition is loaded, and a rejected one
leaves it unloaded. -/
def execLoadComplete (k : Nat) (sigOk : Bool) (s : State) : Out :=
  match (s.part k).loading with
  | none => .next s
  | some (l, i, t) =>
    let img := s.hbmRead l.addr l.len
    let e := s.loadEnv k l.bases l.ptable
    let r := checkImage e l.len img (s.signatureFail k img sigOk)
    let s := s.modPart k fun p => { p with loading := none }
    match r.2.or (s.unitsFree k (records img)) with
    | some (code, off) =>
      let s := (s.partCores k).foldl (fun s j => s.setFld (rSeqCtxStatus j) 1 0 0) s
      .next (s.mbFinish i t code off)
    | none =>
      let s := (s.applyImage k l.bases r.1).setPstate k 1
      let s := s.modPart k fun p => { p with image := some (measured l img r.1 e.params) }
      .next (s.mbFinish i t 2 0)

end Sys2Proof.Machine
end

