-- ==== Sys2Proof/Machine/Mailbox.lean ====
section
/-! DEFINITION. The mailbox: the gates of a command, and the commands of the roles, the images, the partitions, the power states, the firmware and
the secrets (R371, R372, R484, R512–R529, R532, R538, R542–R546, R556, R561, R567, R573, R574, R606–R612, R637). -/
namespace Sys2Proof.Machine

/-- The role an interface holds: 0 none, 1 USER, 2 OFFICER (R520, R547). -/
def State.roleOf (s : State) (i : Nat) : Nat := s.fld rZenRole (2 * i + 1) (2 * i)

/-- An interface's role set. -/
def State.setRole (s : State) (i r : Nat) : State := s.setFld rZenRole (2 * i + 1) (2 * i) r

/-- The gates that every command passes (R520, R556, R573, R607, R612): a module held in reset answers nothing. -/
def State.mailbox (s : State) (i code role : Nat) (f : State → State) : Out :=
  if s.pwr.held ∨ 2 < i then .next s
  else if !s.zen.booted ∨ s.zen.booting then .next (s.mbAnswer i code 3)
  else
    let s : State := { s with zen := { s.zen with lastCmd := SMap.set s.zen.lastCmd i s.clk.wall } }
    if s.pwrState = 5 then .next (if [1, 0x40, 0x41, 0x30, 0x32].contains code then f s else s.mbAnswer i code 4)
    else if i < 2 ∧ s.fld (rGlbAbi + localStride * i) 7 0 = 0 ∧ !([1, 2, 0x40].contains code) then .next (s.mbAnswer i code 8)
    else if s.roleOf i < role then .next (s.mbAnswer i code 7)
    else .next (f s)

/-- A command on a partition, named by its lowest core, that the other port does not own (R608). -/
def State.onPart (s : State) (i code k : Nat) (f : State → State) : State :=
  if 4 ≤ k ∨ !s.partValid k then s.mbAnswer i code 6
  else if i < 2 ∧ s.owner k ≠ i then s.mbAnswer i code 10
  else f s

/-- Zenith's current 32-byte nonce (R520). -/
def State.nonceBytes (s : State) : List Nat := ((Config.drbg s.zen.nonce).map (· % 256)).take 32

/-- A new nonce (R520; log entry 23). -/
def State.newNonce (s : State) : State :=
  let d := s.drawKey
  { d.2 with zen := { d.2.zen with nonce := d.1 } }

/-- STATUS (R572, R608): state, versions, self-test and nonce. -/
def execStatus (i : Nat) (s : State) : Out :=
  s.mailbox i 1 0 fun s => s.mbReply i 1 resOk
    (leBytes 8 (s.reg rPwrStatus).toNat ++ leBytes 8 (s.reg rZenBoot).toNat ++ leBytes 8 (s.reg rPwrSelftest).toNat ++ s.nonceBytes)

/-- ABI_OPEN (R611). -/
def execAbiOpen (i version : Nat) (s : State) : Out :=
  s.mailbox i 2 0 fun s =>
    let a := rGlbAbi + localStride * i
    if 2 ≤ i then s.mbAnswer i 2 6
    else if s.fld a 23 16 = version ∧ s.fld a 47 40 ≤ version ∧ version ≤ s.fld a 39 32 then (s.setFld a 7 0 version).mbAnswer i 2 resOk
    else s.mbAnswer i 2 9

/-- LOGIN (R520): the role is held when the signature verifies under a key whose hash is stored for it. -/
def execLogin (i role : Nat) (key : List Nat) (sigOk : Bool) (s : State) : Out :=
  s.mailbox i 3 0 fun s =>
    let h := Config.sha3 key
    let known := if role = 2 then s.zen.officer == some h else role == 1 && (s.zen.users.any fun e => e.2 == some h)
    let ok := sigOk && known
    let s := s.newNonce
    if ok then ((s.setRole i role).laterW (600 * 700000000) (.roleTimeout i)).mbAnswer i 3 resOk else s.mbAnswer i 3 6

/-- LOGOUT (R520). -/
def execLogout (i : Nat) (s : State) : Out := s.mailbox i 4 0 fun s => (s.setRole i 0).mbAnswer i 4 resOk

/-- ROLE_TIMEOUT (R520): the role ends 600 s after the interface's last command. -/
def execRoleTimeout (i : Nat) (s : State) : Out :=
  if 2 < i ∨ s.roleOf i = 0 then .next s
  else
    let due := SMap.get s.zen.lastCmd i + 600 * 700000000
    .next (if due ≤ s.clk.wall + 1 then s.setRole i 0 else s.laterW (due - s.clk.wall) (.roleTimeout i))

/-- TAKE_OWNERSHIP (R520, R608). -/
def execTakeOwnership (i : Nat) (key : List Nat) (s : State) : Out :=
  s.mailbox i 5 0 fun s =>
    if s.zen.officer.isSome then s.mbAnswer i 5 11
    else if key.all (· == 0) then s.mbAnswer i 5 6
    else ({ s with zen := { s.zen with officer := some (Config.sha3 key) } } : State).mbAnswer i 5 resOk

/-- ROLE_KEY_SET (R520, R608): a key of zeros removes the slot's. -/
def execRoleKeySet (i role slot : Nat) (key : List Nat) (s : State) : Out :=
  s.mailbox i 6 2 fun s =>
    let v := if key.all (· == 0) then none else some (Config.sha3 key)
    if role = 1 ∧ slot < 8 then ({ s with zen := { s.zen with users := SMap.set s.zen.users slot v } } : State).mbAnswer i 6 resOk
    else if role = 2 ∧ slot = 0 then ({ s with zen := { s.zen with officer := v } } : State).mbAnswer i 6 resOk
    else s.mbAnswer i 6 6

/-- Is a port's IDE stream in the Secure state (R526, R547)? -/
def State.ideSecure (s : State) (h : Nat) : Bool := s.fld rZenRole (8 + h) (8 + h) == 1

/-- LOAD (R371, R529): the load is accepted, and its checks follow. -/
def execLoad (i part addr len : Nat) (bases : List Nat) (ptable : Nat) (s : State) : Out :=
  s.mailbox i 0x10 1 fun s => s.onPart i 0x10 part fun s =>
    let p := s.part part
    if s.pstate part ≠ 0 ∨ p.loading.isSome ∨ p.clearAfter ∨ s.fld rPwrStatus 56 56 = 0 then s.mbAnswer i 0x10 0x20
    else if s.conf part && (!s.ideSecure (s.owner part) || p.signers.isEmpty) then s.mbAnswer i 0x10 0x23
    else if addr % 4096 ≠ 0 ∨ !s.inBounds part addr len ∨ (ptable ≠ 0 ∧ !s.inBounds part ptable 8) then s.mbAnswer i 0x10 6
    else match s.mbAccept i 0x10 with
      | (s, none) => s
      | (s, some t) =>
        let s := s.modPart part fun p => { p with loading := some ({ addr := addr, len := len, bases := bases, ptable := ptable }, i, t) }
        (s.partCores part).foldl (fun s j => s.setFld (rSeqCtxStatus j) 1 0 1) s

/-- The queued steps of a partition cancelled by UNLOAD, with one STOPPED record (R601); marks that waited for them produce theirs (R600). -/
def State.cancelQueue (s : State) (k : Nat) : State :=
  let q := (s.part k).queue
  let e := (q.head?.getD {}).entry
  let s := s.setQueue k (cancelled q)
  State.serveQueue k 17 (s.putRecord k 4 0x33 e.seqno (firstUnstarted q) e.token (unstarted q) true)

/-- A partition that is not confidential returned to the unloaded state, its rings and their records as they were (R372). -/
def State.unloadPlain (s : State) (k : Nat) : State :=
  let s := s.cancelQueue k
  let q := s.part k
  (s.toUnloaded k).modPart k fun p =>
    { p with records := q.records, cqCons := q.cqCons, fetched := q.fetched, prodRead := q.prodRead, refusedAt := q.refusedAt }

/-- UNLOAD (R372, R529, R542, R601, R628): a confidential partition runs Clearing. -/
def execUnload (i part : Nat) (s : State) : Out :=
  s.mailbox i 0x11 1 fun s => s.onPart i 0x11 part fun s =>
    if s.stepping part ∨ s.pstate part = 3 ∨ s.pstate part = 4 then s.mbAnswer i 0x11 0x20
    else if (s.part part).dumpState = 1 then
      s.modPart part fun p => { p with resetWait := true, waitAns := p.waitAns ++ [(i, 0x11)] }
    else if s.pstate part = 0 ∧ (s.part part).loading.isNone then s.mbAnswer i 0x11 resOk
    else if !s.conf part then (s.unloadPlain part).mbAnswer i 0x11 resOk
    else match s.maintConflict 7 part with
      | some c => (s.maintRefuse 7 part c).mbResult i 0x11 0x27 c 0 []
      | none => ((s.cancelQueue part).beginClearing part []).mbAnswer i 0x11 resOk

/-- Is an entry of a recovery table one that RECOVERY_TABLE takes for a core (R484)? -/
def State.recoveryOk (s : State) (core : Nat) (e : List Nat) : Bool :=
  let kind := fieldAt e 0 1
  let space := fieldAt e 1 1
  let d := fieldAt e 19 2
  let q := sdesc (s.streamDesc core d)
  decide (kind ≤ 3) && decide (space ≤ 2) && (space != 2 || decide (fieldAt e 2 1 ≤ 3)) && zeros e 21 11 && (kind != 2 || decide (fieldAt e 18 1 ≤ 1)) &&
    (kind != 3 || (decide (d < (s.core core).map.streamCount) && q.kind == 2 && q.dst == space && (space != 2 || q.dstArray == fieldAt e 2 1)))

/-- RECOVERY_TABLE (R484): the table written at the core's place. -/
def execRecoveryTable (i core addr entries : Nat) (s : State) : Out :=
  s.mailbox i 0x12 1 fun s => s.onPart i 0x12 (if core < 4 then (s.partOf core).getD 4 else 4) fun s =>
    let k := s.lowest core
    let b := s.hbmRead addr (32 * entries)
    if s.pstate k = 3 ∨ s.pstate k = 4 then s.mbAnswer i 0x12 0x21
    else if 512 < entries ∨ !s.inBounds k addr (32 * entries) then s.mbAnswer i 0x12 6
    else if !((chunksOf 32 b.length b).all fun e => s.recoveryOk core e) then s.mbAnswer i 0x12 0x26
    else (s.hbmWrite (recoveryBase core) (b ++ List.replicate (16384 - b.length) 0)).mbAnswer i 0x12 resOk

/-- SIGNER_SET (R528, R608). -/
def execSignerSet (i part : Nat) (keys : List (List Nat)) (s : State) : Out :=
  s.mailbox i 0x13 1 fun s => s.onPart i 0x13 part fun s =>
    if 4 < keys.length ∨ !(keys.all fun h => h.length == 64) then s.mbAnswer i 0x13 6
    else (s.modPart part fun p => { p with signers := keys.filter fun h => !(h.all (· == 0)) }).mbAnswer i 0x13 resOk

/-- The label of the result tags (R525, R538). -/
def resultLabel : List Nat := [0x58, 0x4B, 0x39, 0x36, 0x31, 0x36, 0x20, 0x52, 0x45, 0x53, 0x55, 0x4C, 0x54]

/-- The result-tag key of a partition under a session's shared secret (R525). -/
def tagKey (secret : List Nat) (k : Nat) : List Nat := Config.kmac (Config.exportMaster secret) (leBytes 1 k ++ resultLabel)

/-- The result-tag key of a confidential partition: the one it holds, or the session's (R525; log entry 24). -/
def State.resultKeyOf (s : State) (k : Nat) : Option (List Nat) :=
  match (s.part k).resultKey with
  | some x => some x
  | none => (s.host (s.owner k)).session.map fun z => tagKey z k

/-- EXPORT (R538): the engine of the owning port takes the range. -/
def execExport_ (i part addr len data rec_ : Nat) (s : State) : Out :=
  s.mailbox i 0x14 1 fun s => s.onPart i 0x14 part fun s =>
    if s.pstate part = 3 ∨ s.pstate part = 4 then s.mbAnswer i 0x14 0x21
    else if addr % 256 ≠ 0 ∨ len % 256 ≠ 0 ∨ len = 0 ∨ 2 ^ 32 < len then s.mbAnswer i 0x14 6
    else if !s.inBounds part addr len then s.mbAnswer i 0x14 0x25
    else if s.conf part && (!s.ideSecure (s.owner part) || (s.resultKeyOf part).isNone) then s.mbAnswer i 0x14 0x23
    else match s.mbAccept i 0x14 with
      | (s, none) => s
      | (s, some t) =>
        let j : ExportJob := { iface := i, ticket := t, part := part, addr := addr, len := len, data := data, rec_ := rec_, step := (s.part part).stepNo }
        s.modHost (s.owner part) fun x => { x with exports := x.exports ++ [j] }

/-- The export record of a range (R538). -/
def State.exportRecord (s : State) (j : ExportJob) (bytes : List Nat) : List Nat :=
  let h := leBytes 8 ((s.part j.part).exportSeq + 1) ++ leBytes 8 j.step ++ leBytes 5 j.addr ++ [j.part, 0, 0] ++ leBytes 8 j.len
  let tag := if s.conf j.part then ((Config.kmac ((s.resultKeyOf j.part).getD []) (h ++ bytes ++ resultLabel)).map (· % 256)).take 32 else []
  h ++ tag ++ List.replicate (32 - tag.length) 0

/-- EXPORT_DONE (R483, R538): the oldest export of the port has read its range, and the data and then the record go to the host. A line that fails
its check is recovered first; one that cannot be ends the export. -/
def execExportDone (h : Nat) (s : State) : Out :=
  match (s.host h).exports with
  | [] => .next s
  | j :: rest =>
    let drop := fun (s : State) => s.modHost h fun x => { x with exports := rest }
    let a := s.badAddr j.addr j.len
    if (s.samePlace 0 0 0 j.addr j.len).isSome then .next s
    else if s.hbmBad j.addr j.len ∧ j.tried then .next ((drop s).mbFinish j.iface j.ticket 0x2A (a % 2 ^ 32))
    else if s.hbmBad j.addr j.len then
      .next ((s.modHost h fun x => { x with exports := { j with tried := true } :: rest }).beginRecovery (a / 2 ^ 36 / 2) 0 0 a 256 0 none false none none)
    else
      let bytes := s.hbmRead j.addr j.len
      let r := s.exportRecord j bytes
      let s := ((drop s).out (.hostWrite h j.data bytes)).out (.hostWrite h j.rec_ r)
      let s := s.modPart j.part fun p => { p with exportSeq := p.exportSeq + 1 }
      .next (s.mbFinish j.iface j.ticket resOk 0)

/-- CLEAR (R542, R546, R607). -/
def execClear (i part : Nat) (s : State) : Out :=
  s.mailbox i 0x15 1 fun s => s.onPart i 0x15 part fun s =>
    match s.maintConflict 7 part with
    | some c => (s.maintRefuse 7 part c).mbResult i 0x15 0x27 c 0 []
    | none => match s.mbAccept i 0x15 with
      | (s, none) => s
      | (s, some t) => s.beginClearing part [(i, t, 0x15)]

/-- REKEY (R532, R546). -/
def execRekey (i part : Nat) (s : State) : Out :=
  s.mailbox i 0x16 1 fun s => s.onPart i 0x16 part fun s =>
    if s.pstate part = 3 ∨ s.pstate part = 4 ∨ (s.part part).clearAfter ∨ s.fld (rZenXts part) 63 63 = 1 then s.mbAnswer i 0x16 0x24
    else if !s.conf part then s.mbAnswer i 0x16 6
    else match s.maintConflict 6 part with
      | some c => (s.maintRefuse 6 part c).mbResult i 0x16 0x27 c 0 []
      | none => match s.mbAccept i 0x16 with
        | (s, none) => s
        | (s, some t) => s.beginSweep part [(i, t, 0x16)]

/-- PARTITION_RESET (R556, R557, R560, R628). -/
def execPartitionReset (i part : Nat) (s : State) : Out :=
  s.mailbox i 0x17 1 fun s => s.onPart i 0x17 part fun s =>
    let s' := s.resetPart part
    if (s'.part part).resetWait then s'.modPart part fun p => { p with waitAns := p.waitAns ++ [(i, 0x17)] }
    else s'.mbAnswer i 0x17 resOk

/-- The partitions of a shape: lowest core and cores (R512). -/
def shapeParts (shape : Nat) : List (Nat × Nat) :=
  if shape = 0 then [(0, 0xF)] else if shape = 1 then [(0, 3), (2, 0xC)] else if shape = 2 then [(0, 1), (1, 2), (2, 4), (3, 8)]
  else [(0, 3), (2, 4), (3, 8)]

/-- ZEN_PART of a new configuration (R512, R514, R547). -/
def partWord (p : Nat × Nat) (c : PartCfg) : Nat :=
  2 ^ 63 + (if c.confidential then 2 ^ 62 else 0) + c.owner % 2 * 2 ^ 61 + (if c.flrReset then 2 ^ 60 else 0) + c.links % 64 * 2 ^ 48 + p.2 * 2 ^ 44

/-- Cores, owner and confidential flag of ZEN_PART: what a change of counts as changing the partition (R514). -/
def partKey (w : Nat) : Nat × Nat × Nat := if w / 2 ^ 63 = 0 then (0, 0, 0) else (w / 2 ^ 44 % 16, w / 2 ^ 61 % 2, w / 2 ^ 62 % 2)

/-- GLB_PORT.OWNED, MEM_STATUS.CONFIDENTIAL, LNK_STATUS.OWNED and DBG_STATUS.CONF_LOCK follow the partitions (R472, R510, R616, R638). -/
def State.showOwners (s : State) : State :=
  let s := (List.range 2).foldl (fun s h => s.setFld (rGlbPort + localStride * h) 3 0
    (((List.range 4).filter fun k => s.partValid k && s.owner k == h).foldl (fun m k => m + 2 ^ k) 0)) s
  let s := (List.range 8).foldl (fun s st => s.setFld (rMemStatus st) 61 61
    (match s.stackPart st with | some k => if s.conf k then 1 else 0 | none => 0)) s
  let s := (List.range 6).foldl (fun s p => s.showOwner p) s
  s.setFld rDbgStatus 62 62 (if s.anyConf then 1 else 0)

/-- Trace capture stopped and its buffer zeroed (R635). -/
def State.stopTrace (s : State) : State :=
  let s := (s.setFld rDbgTraceCtrl 63 63 0).setFld rDbgStatus 15 0 0
  { s with trace := {} }

/-- A partition of the old configuration that a new one changes is gone with all it held (R514). -/
def State.dropPart (s : State) (k : Nat) : State :=
  let s := s.toUnloaded k
  { s with parts := SMap.erase s.parts k }

/-- The new configuration in place of the old (R514): `changed` lists the lowest cores whose partition changes. -/
def State.configure (s : State) (shape : Nat) (ws : List Nat) (changed : List Nat) : State :=
  let s := changed.foldl (fun s k => if s.partValid k then s.dropPart k else s) s
  let s := s.setFld rZenLayout 2 0 shape
  let s := (List.range 4).foldl (fun s k =>
    let keep := if changed.contains k then 0 else s.pstate k
    (s.setReg (rZenPart k) (BitVec.ofNat 64 (ws.getD k 0))).setFld (rZenPart k) 59 57 keep) s
  let s := s.showOwners
  (if s.anyConf then s.stopTrace else s).showPstat

/-- PARTITION_CONFIG (R512–R514, R529, R542, R546, R635, R637): every changed partition runs Clearing. -/
def execPartitionConfig (i shape : Nat) (parts : List PartCfg) (s : State) : Out :=
  s.mailbox i 0x20 2 fun s =>
    let ps := shapeParts shape
    let cfg := fun (k : Nat) => parts.getD k {}
    let ws := (List.range 4).map fun k => match ps.find? (fun p => p.1 == k) with | some p => partWord p (cfg k) | none => 0
    let changed := (List.range 4).filter fun k => partKey (s.reg (rZenPart k)).toNat != partKey (ws.getD k 0)
    let clash := ps.any fun p => ps.any fun q => decide (p.1 < q.1) && Nat.land (cfg p.1).links (cfg q.1).links != 0
    if 3 < shape ∨ clash ∨ (ps.any fun p => decide (1 < (cfg p.1).owner) || decide (64 ≤ (cfg p.1).links)) ∨
        (s.zen.unlocked ∧ ps.any fun p => (cfg p.1).confidential) then s.mbAnswer i 0x20 0x22
    else if changed.any fun k => s.partValid k && (s.pstate k != 0 || (s.part k).loading.isSome || (s.part k).clearAfter) then s.mbAnswer i 0x20 0x21
    else
      let new := changed.filter fun k => ps.any fun p => p.1 == k
      let s' := s.configure shape ws changed
      match new.findSome? (fun k => s'.maintConflict 7 k) with
      | some c => s.mbResult i 0x20 0x27 c 0 []
      | none => match s.mbAccept i 0x20 with
        | (s, none) => s
        | (s, some t) =>
          let s := s.configure shape ws changed
          let s := new.foldl (fun s k => s.beginClearing k [(i, t, 0x20)]) s
          if new.isEmpty then s.mbFinish i t resOk 0 else s

/-- POWER_STATE (R546, R561): the die is asked into Active, Idle, Dusk or Night. -/
def execPowerState (i target : Nat) (s : State) : Out :=
  s.mailbox i 0x21 1 fun s =>
    let loaded := (List.range 4).filter fun k => s.partValid k && (s.pstate k == 1 || s.pstate k == 2 || s.pstate k == 5)
    let busy := (List.range 4).any fun k => s.partValid k && (s.stepping k || s.pstate k == 3 || s.pstate k == 4)
    if s.roleOf i = 1 ∧ !(decide (i < 2) && loaded.all fun k => s.owner k == i) then s.mbAnswer i 0x21 7
    else if 3 < target then s.mbAnswer i 0x21 6
    else if 4 ≤ s.pwrState ∨ s.pwr.changing.isSome then s.mbAnswer i 0x21 3
    else if busy ∨ (target = 3 ∧ (!loaded.isEmpty ∨ (List.range 4).any fun k => (s.part k).loading.isSome)) then s.mbAnswer i 0x21 0x21
    else match s.maint.find? (fun m => m.act == 3 || m.act == 4 || m.act == 6) with
      | some m => s.mbResult i 0x21 0x27 m.act 0 []
      | none => match s.mbAccept i 0x21 with
        | (s, none) => s
        | (s, some t) =>
          let s := s.pausePatrol true
          { s with pwr := { s.pwr with changing := some (target, i * 256 + t) } }

/-- Does a fabric map describe an installation (R4, R5, R422, R574)? -/
def mapOk (m : List Nat) : Bool :=
  let x := fieldAt m 0 1
  let y := fieldAt m 1 1
  let z := fieldAt m 2 1
  let bench := x == 1 && y == 1 && z == 1
  let torus := x % 4 == 0 && y % 4 == 0 && z % 4 == 0 && decide (4 ≤ x ∧ x ≤ 32) && decide (4 ≤ y ∧ y ≤ 32) && decide (4 ≤ z ∧ z ≤ 48)
  (bench || torus) && m.length == 64 + 72 * (x * y * z) && zeros m 3 1 && zeros m 8 56 &&
    (List.range (x * y * z)).all fun n =>
      let e := slice m (64 + 72 * n) 72
      decide (fieldAt e 64 1 < 64) && fieldAt e 65 1 == (if bench then 63 else 0) && zeros e 66 6

/-- FABRIC_MAP (R540, R574): the map is stored for the next start, and a port that failed its keys may try again. -/
def execFabricMap (i : Nat) (map : List Nat) (s : State) : Out :=
  s.mailbox i 0x22 2 fun s =>
    if !mapOk map then s.mbAnswer i 0x22 0x29
    else match s.mbAccept i 0x22 with
      | (s, none) => s
      | (s, some t) =>
        let s : State := { s with zen := { s.zen with mapStore := map } }
        let s := (List.range 6).foldl (fun s p =>
          if !(s.port p).authFailed then s
          else
            let s := s.modPort p fun q => { q with authFailed := false }
            if s.linkState p = 3 then s.laterW 0 (.keySetRollover p) else s) s
        s.mbFinish i t resOk 0

/-- FW_UPDATE (R573, R608, R610): a firmware slot written; in Overcast the OFFICER's record comes with the command. -/
def execFwUpdate (i slot : Nat) (image : List Nat) (officer : Bool) (s : State) : Out :=
  s.mailbox i 0x30 2 fun s =>
    if s.pwrState = 5 ∧ s.fld rPwrSelftest 55 48 = 1 then s.mbAnswer i 0x30 4
    else if s.pwrState = 5 ∧ !officer then s.mbAnswer i 0x30 7
    else if 1 < slot then s.mbAnswer i 0x30 6
    else match s.mbAccept i 0x30 with
      | (s, none) => s
      | (s, some t) =>
        (if slot = 0 then ({ s with zen := { s.zen with slotA := image } } : State) else { s with zen := { s.zen with slotB := image } }).mbFinish i t resOk 0

/-- SVN_COMMIT (R517, R608): the fuse security version rises. -/
def execSvnCommit (i svn : Nat) (s : State) : Out :=
  s.mailbox i 0x31 2 fun s =>
    if svn < s.zen.fuseSvn ∨ 2 ^ 16 ≤ svn then s.mbAnswer i 0x31 6
    else ({ s with zen := { s.zen with fuseSvn := svn } } : State).mbAnswer i 0x31 resOk

/-- A partition that ZEROIZE stops: any sweep is aborted, and Clearing runs, from step 1 again if it ran already (R521, R542, R626). -/
def State.zeroPart (s : State) (k : Nat) (t : Nat × Nat × Nat) : State :=
  let ts := (s.part k).tickets.filter fun x => x.2.2 == 0x16
  let s := if s.fld (rZenXts k) 63 63 = 1 then
      (((s.setFld (rZenXts k) 63 63 0).setFld (rZenXts k) 17 0 0).maintEnd 6 k).modPart k fun p =>
        { p with sweepAt := [], lockAt := [], locked := [], tickets := p.tickets.filter fun x => x.2.2 != 0x16 }
    else s
  let s := s.finishTickets ts 0x33 0
  if s.pstate k = 3 then s.modPart k fun p => { p with tickets := p.tickets ++ [t], clearStep := 1 }
  else (s.toUnloaded k).clearOrWait k [t]

/-- ZEROIZE (R521, R542, R573, R610, R626): every partition stopped, every secret zeroised, and Clearing on every partition. -/
def execZeroize (i : Nat) (officer : Bool) (s : State) : Out :=
  s.mailbox i 0x32 2 fun s =>
    if s.pwrState = 5 ∧ s.fld rPwrSelftest 55 48 = 1 then s.mbAnswer i 0x32 4
    else if s.pwrState = 5 ∧ !officer then s.mbAnswer i 0x32 7
    else match s.mbAccept i 0x32 with
      | (s, none) => s
      | (s, some t) =>
        let ks := (List.range 4).filter fun k => s.partValid k
        let s := (s.eventDie 20 0x0505 0 0).zeroiseSecrets.newNonce
        if s.pwrState = 5 then s.mbFinish i t resOk 0
        else
          let s := ks.foldl (fun s k => s.zeroPart k (i, t, 0x32)) s
          let s := (List.range 6).foldl (fun s p => if s.crossRack p && s.linkState p == 3 && !s.quiet p then s.laterW 0 (.keySetRollover p) else s) s
          let s : State := { s with zen := { s.zen with alias_ := some s.aliasSeed } }
          if ks.isEmpty then s.mbFinish i t resOk 0 else s

/-- DEBUG_UNLOCK (R522, R637). -/
def execDebugUnlock (i : Nat) (key : List Nat) (sigOk : Bool) (s : State) : Out :=
  s.mailbox i 0x33 2 fun s =>
    if !(sigOk && Config.sha3 key == Config.debugKeyHash) then s.mbAnswer i 0x33 6
    else if s.anyConf then s.mbAnswer i 0x33 0x21
    else
      let s : State := { s with zen := { s.zen with unlocked := true } }
      ((s.setFld rDbgStatus 63 63 1).eventDie 20 0x050B 0 0).mbAnswer i 0x33 resOk

/-- ZENITH_RESET (R556): a Zenith secure reset, whose end answers the ticket. -/
def execZenithReset (i : Nat) (s : State) : Out :=
  s.mailbox i 0x34 2 fun s => match s.mbAccept i 0x34 with
    | (s, none) => s
    | (s, some _) => s.zenReset 3

/-- AO_RECORD (R567). -/
def execAoRecord (i : Nat) (s : State) : Out :=
  s.mailbox i 0x40 0 fun s => s.mbReply i 0x40 resOk
    (s.pwr.ao.flatMap fun e => leBytes 8 e.code ++ leBytes 8 e.beat ++ leBytes 8 e.mv ++ leBytes 8 e.tj)

/-- RETEST (R573): in Overcast the self-test runs again from test 0x01. -/
def execRetest (i : Nat) (s : State) : Out :=
  s.mailbox i 0x41 0 fun s =>
    if s.pwrState ≠ 5 then s.mbAnswer i 0x41 0x2A
    else match s.mbAccept i 0x41 with
      | (s, none) => s
      | (s, some _) =>
        let s : State := { s with pwr := { s.pwr with cold := true } }
        s.setPwr 4

/-- The oldest entry of an interface's ZEN_MB_DONE queue as the register shows it; 0 when the queue is empty (R607, R616). -/
def State.doneWord (s : State) (i : Nat) : Nat :=
  match SMap.get s.zen.done i with
  | [] => 0
  | (d, t, c, r) :: _ => d % 2 ^ 32 * 2 ^ 32 + t * 2 ^ 24 + c * 2 ^ 16 + r

/-- MAILBOX_DONE_READ (R607): a read of ZEN_MB_DONE answers the oldest entry and removes it. -/
def execMailboxDoneRead (i : Nat) (s : State) : Out :=
  let w := leBytes 8 (s.doneWord i)
  let s : State := { s with zen := { s.zen with done := SMap.mod s.zen.done i fun (l : List (Nat × Nat × Nat × Nat)) => l.tail } }
  .next (if i < 2 then s.out (.readData i w) else s.out (.smbus w))

end Sys2Proof.Machine
end

