-- ==== Sys2Proof/Machine/Approx.lean ====
section
/-! DEFINITION. The functions that R220 and R263 bound without fixing: each is computed to far more bits than the format holds, rounded
once, and then moved by a free number of units in the last place within the bound (log entry 1). -/
namespace Sys2Proof.Machine

/-- Binary places of the fixed-point numbers here. -/
def fixBits : Nat := 192
/-- The fixed-point 1. -/
def fixOne : Int := 2 ^ fixBits
/-- ln 2 in fixed point. -/
def fixLn2 : Int := 4350955369971217654477563090224794165364344896676135745069
/-- 2π in fixed point. -/
def fixTwoPi : Int := 39440193395453077124792266728456537782926901730380179465120

/-- The product of two fixed-point numbers. -/
def fixMul (a b : Int) : Int := a * b / fixOne
/-- The quotient of two fixed-point numbers. -/
def fixDiv (a b : Int) : Int := a * fixOne / b

/-- A finite value in fixed point, held within ±`lim`; 0 for the others. -/
def FVal.fix (lim : Nat) : FVal → Int
  | .fin n m e =>
    let sh := (fixBits : Int) + e
    let top := lim * 2 ^ fixBits
    let v := if m = 0 then 0
      else if (lim : Int) + 2 < (Nat.log2 m : Int) + e then top
      else if 0 ≤ sh then min (m * 2 ^ sh.toNat) top else min (m / 2 ^ (-sh).toNat) top
    if n then -(v : Int) else (v : Int)
  | _ => 0

/-- A fixed-point number times 2^k as a value. -/
def fixVal (v k : Int) : FVal := .fin (decide (v < 0)) v.natAbs (k - fixBits)

/-- The sum of the exponential series from its term number `i` on; the fuel is the number of terms left. -/
def expSeries (x : Int) : Nat → Int → Int → Int
  | 0, _, _ => 0
  | n + 1, i, t => t + expSeries x n (i + 1) (fixMul t x / (i + 1))

/-- e^x of a fixed-point number: reduced by multiples of ln 2, which become the exponent. -/
def expVal (x : Int) : FVal :=
  let k := (x + fixLn2 / 2) / fixLn2
  fixVal (expSeries (x - k * fixLn2) 60 0 fixOne) k

/-- The sum z + z³/3 + z⁵/5 + …, from the power `t` with divisor `i` on. -/
def atanhSeries (z2 : Int) : Nat → Int → Int → Int
  | 0, _, _ => 0
  | n + 1, i, t => t / i + atanhSeries z2 n (i + 2) (fixMul t z2)

/-- ln of a positive finite value, in fixed point: the significand is brought near 1, and the rest is a multiple of ln 2. -/
def lnFix (m : Nat) (e : Int) : Int :=
  let l := Nat.log2 m
  let y : Int := (m : Int) * 2 ^ fixBits / 2 ^ l
  let up := decide (3 * fixOne < 2 * y)
  let y := if up then y / 2 else y
  let k := (l : Int) + e + (if up then 1 else 0)
  let z := fixDiv (y - fixOne) (y + fixOne)
  2 * atanhSeries (fixMul z z) 80 1 z + k * fixLn2

/-- The sum of the cosine series from the term `t` on. -/
def cosSeries (x2 : Int) : Nat → Int → Int → Int
  | 0, _, _ => 0
  | n + 1, i, t => t + cosSeries x2 n (i + 2) (-(fixMul t x2) / ((i + 1) * (i + 2)))

/-- cos of a fixed-point number. -/
def cosFix (x : Int) : Int :=
  let y := x % fixTwoPi
  let y := if fixTwoPi < 2 * y then y - fixTwoPi else y
  cosSeries (fixMul y y) 50 0 fixOne

/-- The value 1. -/
def oneVal : FVal := .fin false 1 0

/-- tanh of a finite value: (e^x − e^−x) ÷ (e^x + e^−x). -/
def tanhVal (v : FVal) : FVal :=
  let x := v.fix 64
  let a := expVal x
  let b := expVal (-x)
  (a.add b.neg).div (a.add b)

/-- 1 ÷ (1 + e^−x). -/
def sigmoidVal (v : FVal) : FVal := oneVal.div (oneVal.add (expVal (-(v.fix 200))))

/-- A decimal fraction n ÷ 10⁶ as a value. -/
def millionths (n : Nat) : FVal := (FVal.fin false n 0).div (.fin false 1000000 0)

/-- 0.5a × (1 + tanh(0.797885 × (a + 0.044715a³))) (R219). Far from 0 the hyperbolic tangent is ±1 to every bit that counts. -/
def geluVal (v : FVal) : FVal :=
  let a := FVal.fix 64 v
  let cube := fixMul (fixMul a a) a
  let u := (a + cube * 44715 / 1000000) * 797885 / 1000000
  let u := max (min u (200 * fixOne)) (-(200 * fixOne))
  -- 1 + tanh u is 2 ÷ (1 + e^(−2u))
  v.mul (oneVal.div (oneVal.add (expVal (-(2 * u)))))

/-- A value rounded to a format and moved within `b` units in the last place by a free number; an overflow stays an infinity. -/
def FpFmt.near (f : FpFmt) (b free : Nat) : FVal → Nat
  | .fin n m e =>
    let c := f.roundMag m e
    if f.maxCode < c then f.encode (.inf n) else f.signBit n + min (c + free % (2 * b + 1) - b) (f.maxCode + 1)
  | v => f.encode v

/-- A result of the vector engine's operation `op` on the FP32 code `a`: within 2 units of the exact one (R220). -/
def nearF32 (op a : Nat) (v : FVal) : Nat := fmtFP32.near 2 (Config.unitsOff op a 0) v

/-- A result of the schedule engine: within 1 unit of the exact one (R263). The functions are numbered 0x18 cos, 0x19 pow, 0x1A ln and
0x1B square root. -/
def near64 (op a b : Nat) (v : FVal) : Nat := fmtFP64.near 1 (Config.unitsOff op a b) v

/-- cos of a binary64 code (R263); IEEE 754 gives a NaN for an infinity. -/
def cos64 (c : Nat) : Nat :=
  match fmtFP64.decode c with
  | .fin n m e => near64 0x18 c 0 (fixVal (cosFix (FVal.fix (2 ^ 20) (.fin n m e))) 0)
  | _ => fmtFP64.qnan

/-- ln of a binary64 code (R263). -/
def ln64 (c : Nat) : Nat :=
  match fmtFP64.decode c with
  | .nan _ => fmtFP64.qnan
  | .inf n => if n then fmtFP64.qnan else fmtFP64.encode (.inf false)
  | .fin n m e =>
    if m = 0 then fmtFP64.encode (.inf true) else if n then fmtFP64.qnan
    else if lnFix m e = 0 then 0 else near64 0x1A c 0 (fixVal (lnFix m e) 0)

/-- The square root of a binary64 code (R263). -/
def sqrt64 (c : Nat) : Nat :=
  match fmtFP64.decode c with
  | .fin n m e => if m = 0 ∨ n then fmtFP64.encode (FVal.sqrt (.fin n m e)) else near64 0x1B c 0 (FVal.sqrt (.fin n m e))
  | v => fmtFP64.encode v.sqrt

/-- The whole part of a value's magnitude, with its sign; 0 for the others. -/
def FVal.whole : FVal → Int
  | .fin n m e =>
    let v := if 0 ≤ e then m * 2 ^ e.toNat else m / 2 ^ (-e).toNat
    if n then -(v : Int) else (v : Int)
  | _ => 0

/-- A binary64 code raised to a whole number held as a binary64 code (R263), with the exact results that IEEE 754 gives for zeros, infinities,
NaN and the power 0. -/
def pow64 (c p : Nat) : Nat :=
  let y := (fmtFP64.decode p).whole
  let odd := decide (y % 2 = 1)
  if y = 0 then fmtFP64.encode oneVal
  else match fmtFP64.decode c with
  | .nan _ => fmtFP64.qnan
  | .inf n => fmtFP64.encode (.inf (n && odd))
  | .fin n m e =>
    if m = 0 then fmtFP64.signBit (n && odd)
    else
      let x := max (min (y * lnFix m e) (2000 * fixOne)) (-(2000 * fixOne))
      match expVal x with
      | .fin _ r k => near64 0x19 c p (.fin (n && odd) r k)
      | v => fmtFP64.encode v

end Sys2Proof.Machine
end

