-- ==== Sys2Proof/Machine/Blocks.lean ====
section
/-! DEFINITION. The block encoding and the block adder (R288–R294), thinned pairs and message residues (R114, R115). -/
namespace Sys2Proof.Machine

/-- A block with its residue formed (R111). -/
def mkBlock (ms : List Int) (e : Nat) : BfpBlock := { mants := ms, exp := e, res := residue255 ms }

/-- ⌊log₂⌋ of the largest magnitude of a list of finite values; none when all are zero (R289). -/
def topLog (vs : List FVal) : Option Int :=
  vs.foldl (fun a v => match v with
    | .fin _ m x => if m = 0 then a else
        let l : Int := (Nat.log2 m : Int) + x
        match a with | none => some l | some b => some (max b l)
    | _ => a) none

/-- The mantissas of values at block exponent `e` (R289 step 2). -/
def mantsAt (vs : List FVal) (e : Int) : List Int :=
  vs.map fun v => match v with
    | .fin n m x => roundInt n m (x + 142 - e)
    | _ => 0

/-- A mantissa clamped to 16 bits. -/
def clampMant (z : Int) : Int := max (-32768) (min 32767 z)

/-- The block encoding of finite values, and whether it saturated (R289, R293). -/
def encodeBlock (vs : List FVal) : BfpBlock × Bool :=
  match topLog vs with
  | none => (mkBlock (vs.map fun _ => 0) 0, false)
  | some l =>
    let e1 := l + 128
    let e := if (mantsAt vs e1).any (· == 32768) then e1 + 1 else e1
    if e < 0 then (mkBlock (mantsAt vs 0) 0, false)
    else if 254 < e then (mkBlock ((mantsAt vs 254).map clampMant) 254, true)
    else (mkBlock (mantsAt vs e) e.toNat, false)

/-- An FP32 result as the companion adder encodes it: a NaN becomes zero and an infinity the saturated value of its sign; whether
it was one of these (R290). -/
def gradVal (c : Nat) : FVal × Bool :=
  match f32 c with
  | .nan _ => (.fin false 0 0, true)
  | .inf n => (if n then .fin true 32768 112 else .fin false 32767 112, true)
  | v => (v, false)

/-- Bit length of the largest magnitude of a list of integers (R288, R292). -/
def bitLen (zs : List Int) : Nat :=
  let m := zs.foldl (fun a z => max a z.natAbs) 0
  if m = 0 then 0 else Nat.log2 m + 1

/-- `z ÷ 2^s` rounded to nearest-even, where a sticky bit of sign `st` (0 for none) lies below the last place (R292). -/
def roundShift (z : Int) (s : Int) (st : Int) : Int :=
  if s ≤ 0 then z * 2 ^ (-s).toNat
  else
    let k := s.toNat
    let q := z / 2 ^ k
    let r := z % 2 ^ k
    if r * 2 < 2 ^ k then q
    else if r * 2 = 2 ^ k then (if st < 0 then q else if 0 < st then q + 1 else q + q % 2)
    else q + 1

/-- The sums of two blocks before renormalisation: the base exponent, each element's sum, and each element's sticky sign (R291). -/
def blockSums (p q : BfpBlock) : Int × List (Int × Int) :=
  let np := bitLen p.mants
  let nq := bitLen q.mants
  let t : Int := max ((p.exp : Int) + np) ((q.exp : Int) + nq)
  let b : Int := max (min (p.exp : Int) q.exp) (t - 38)
  let part := fun (x : BfpBlock) (i : Nat) =>
    let m := x.mants.getD i 0
    if (x.exp : Int) < b then ((0 : Int), m.sign) else (m * 2 ^ ((x.exp : Int) - b).toNat, 0)
  (b, (List.range 32).map fun i =>
    let u := part p i
    let v := part q i
    (u.1 + v.1, u.2 + v.2))

/-- Two blocks added and renormalised, and whether the sum saturated; none when a residue check fails (R291, R292, R294). -/
def addBlocks (p q : BfpBlock) : Option (BfpBlock × Bool) :=
  if !p.ok || !q.ok then none
  else
    let bs := blockSums p q
    let n := bitLen (bs.2.map (·.1))
    if n = 0 then some (mkBlock (List.replicate 32 0) 0, false)
    else
      let outAt := fun (e : Int) => bs.2.map fun u => roundShift u.1 (e - bs.1) u.2
      let e1 := bs.1 + (n : Int) - 15
      let e := if (outAt (max 0 e1)).any (· == 32768) then max 0 e1 + 1 else max 0 e1
      if 254 < e then some (mkBlock ((outAt 254).map clampMant) 254, true)
      else some (mkBlock (outAt e) e.toNat, false)

/-- A thinned pair's word (R114). -/
def pairWord (idx : Nat) (mant : Int) : Nat := idx % 4096 * 2 ^ 20 + codeOf 16 mant

/-- A message segment: its 8-byte header and its pairs (R115, R296). -/
def segmentBytes (block segExp : Nat) (pairs : List (Nat × Int)) : List Nat :=
  leBytes 2 block ++ leBytes 2 pairs.length ++ [segExp % 256, residue255 (pairs.map (·.2)), 0, 0]
    ++ pairs.flatMap fun p => leBytes 4 (pairWord p.1 p.2)

/-- A message segment as received: its block, its exponent and its pairs, or none when its residue fails (R115, R298). -/
def readSegment (b : List Nat) : Option (Nat × Nat × List (Nat × Int)) :=
  let n := fieldAt b 2 2
  let ps := (List.range n).map fun i =>
    let w := fieldAt b (8 + 4 * i) 4
    (w / 2 ^ 20, signedOf 16 w)
  if fieldAt b 4 1 = 255 ∨ fieldAt b 5 1 = 255 ∨ fieldAt b 5 1 ≠ residue255 (ps.map (·.2)) then none
  else some (fieldAt b 0 2, fieldAt b 4 1, ps)

/-- The 128 blocks that a segment's pairs enter an adder as: one for each BFP16 block of the thinning block (R291). -/
def segmentBlock (segExp : Nat) (pairs : List (Nat × Int)) (j : Nat) : BfpBlock :=
  mkBlock ((List.range 32).map fun i =>
    match pairs.find? (fun p => p.1 == 32 * j + i) with | some p => p.2 | none => 0) segExp

end Sys2Proof.Machine
end

