-- ==== Sys2Proof/Machine/Cell.lean ====
section
/-! DEFINITION. The cell: exact products, the accumulator and its rounding, the order of the additions, and the results that leave
the array (R43–R48, R50, R55, R658). -/
namespace Sys2Proof.Machine

/-- An accumulator: its value and whether it is marked saturated (R44, R46). -/
structure Acc where
  v : FVal := .fin false 0 0
  sat : Bool := false
deriving DecidableEq, Repr, Inhabited

/-- A magnitude rounded to nearest-even to a 32-bit significand (R44). -/
def sig32 (m : Nat) (e : Int) : Nat × Int :=
  let l := Nat.log2 m
  if l < 32 then (m, e)
  else
    let sh := l - 31
    let t := m / 2 ^ sh
    let r := m % 2 ^ sh
    (if r * 2 < 2 ^ sh then t else if r * 2 = 2 ^ sh then t + t % 2 else t + 1, e + sh)

/-- A sum held in the accumulator: rounded to its significand, at most its largest finite magnitude, and zero below the smallest
FP32 normal magnitude (R44, R46). -/
def accRound (v : FVal) (sat : Bool) : Acc :=
  match v with
  | .fin n m e =>
    if m = 0 then ⟨v, sat⟩
    else
      let p := sig32 m e
      let top : Int := (Nat.log2 p.1 : Int) + p.2
      if 127 < top then ⟨.fin n (2 ^ 32 - 1) 96, true⟩
      else if top < -126 then ⟨.fin n 0 0, sat⟩
      else ⟨.fin n p.1 p.2, sat⟩
  | _ => ⟨v, sat⟩

/-- One addition into an accumulator (R44, R46, R47, R658). -/
def accAdd (a : Acc) (p : FVal) : Acc := accRound (.add a.v p) a.sat

/-- The cycles per product that the serial format sets (R42), by SFMT (R361). -/
def cyclesOf (sfmt : Nat) : Nat := if sfmt = 0 then 1 else if sfmt = 3 then 4 else 2

/-- Elements of one feeder-queue entry of a format (R59). -/
def perEntry (fmt : Nat) : Nat := if fmt = fcBF16 then 32 else 64

/-- The element code at row r and column c of an operand panel. -/
def Panel.code (p : Panel) (r c : Nat) : Nat :=
  if p.fed then
    (match p.rows.find? (fun e => e.1 == r * 32 + c / perEntry p.fmt) with
     | some e => e.2.1.getD (c % perEntry p.fmt) 0
     | none => 0)
  else p.elems.getD (r * 1024 + c) 0

/-- The scale of the tile that an element of an operand panel belongs to: of a fed one, that of its entry (R43, R59). -/
def Panel.scaleAt (p : Panel) (r c : Nat) : Int :=
  if p.fed then ((p.rows.find? (fun e => e.1 == r * 32 + c / perEntry p.fmt)).map (·.2.2)).getD 0
  else p.scales.getD (8 * (r / 128) + c / 128) 0

/-- The exact value at row r and column c of an operand panel, its tile's scale applied (R43, R100). -/
def Panel.val (p : Panel) (r c : Nat) : FVal := (elemVal p.fmt (p.code r c)).scale (p.scaleAt r c)

/-- The product that cell (i, j) forms at depth d, from the parallel and the serial panel, in row-skew or column-skew mode (R43,
R50, R51, R147). In column-skew mode the parallel panel lies transposed, also one that the feeder queue supplies (log entry 92). -/
def cellTerm (par ser : Panel) (colSkew : Bool) (i j d : Nat) : FVal :=
  if colSkew then .mul (par.val d i) (ser.val d j) else .mul (par.val i d) (ser.val d j)

/-- Cell (i, j)'s accumulator after a continued run's products, added in increasing depth order (R45, R55). -/
def cellAcc (pairs : List Pair) (i j : Nat) : Acc :=
  pairs.foldl (fun a p => (List.range 1024).foldl (fun a d => accAdd a (cellTerm p.par p.ser p.colSkew i j d)) a) {}

/-- The result element that leaves cell (i, j), and whether it leaves saturated (R48). -/
def cellOut (pairs : List Pair) (outBf16 : Bool) (i j : Nat) : Nat × Bool :=
  let a := cellAcc pairs i j
  let o := (if outBf16 then fmtBF16 else fmtFP32).encodeSat a.v
  (o.1, a.sat || o.2)

/-- Result row r, column c of a product: rows of the array in row-skew mode, its columns in column-skew mode (R50, R52). -/
def Product.out (p : Product) (r c : Nat) : Nat × Bool :=
  if p.colSkew then cellOut p.pairs p.outBf16 c r else cellOut p.pairs p.outBf16 r c

end Sys2Proof.Machine
end

