-- ==== Sys2Proof/Machine/Arrays.lean ====
section
/-! DEFINITION. The arrays' local stores as products and transfers see them: panel blocks, ring-buffer and companion halves, fusion
and the orbit's order (R64, R83–R91, R147, R153, R157, R179, R180, R660). -/
namespace Sys2Proof.Machine

/-- The bank offset of half h of an array (0 and 1 ring-buffer halves, 2 and 3 companion halves), from STORE_MAP (R64, R666). -/
def State.halfOff (s : State) (A h : Nat) : Nat := (((s.core (A / 4)).map.arrays[A % 4]?).getD [])[h]?.getD 0

/-- A tile header from the header row at bank offset `off`: two bytes in each of 16 banks (R64, R179). -/
def State.hdrAt (s : State) (A off t : Nat) : List Nat :=
  (List.range 32).flatMap fun b => s.bankRead A (16 * t + b / 2) (off + b % 2) 1

/-- Writes a tile header into a header row. -/
def State.setHdrAt (s : State) (A off t : Nat) (hdr : List Nat) : State :=
  hdr.zipIdx.foldl (fun s p => s.bankWrite A (16 * t + p.2 / 2) (off + p.2 % 2) [p.1]) s

/-- The 64 headers of a panel block whose elements have w bits, or of a ring-buffer half. -/
def State.panelHdrs (s : State) (A off : Nat) : List (List Nat) := (List.range 64).map fun t => s.hdrAt A off t

/-- A panel block in the pre-skewed layout at bank offset B (R147, R179, R180). -/
def State.readBlock (s : State) (A B fmt : Nat) : Panel × List (List Nat) :=
  let w := elemBits fmt
  let hs := s.panelHdrs A (B + 128 * w)
  ({ fmt := fmt, scales := hs.map fun h => (TileHdr.ofBytes h).scale,
     elems := (List.range 1024).flatMap fun r => (List.range 1024).map fun c => s.getElem A r B w ((c + r) % 1024) }, hs)

/-- The panel in a ring-buffer half: one panel row in each bank, then the header row (R64). -/
def State.readRing (s : State) (A h fmt : Nat) : Panel × List (List Nat) :=
  let off := s.halfOff A h
  let hs := s.panelHdrs A (off + 2048)
  ({ fmt := fmt, scales := hs.map fun x => (TileHdr.ofBytes x).scale,
     elems := (List.range 1024).flatMap fun r => (List.range 1024).map fun c => s.getElem A r off (elemBits fmt) c }, hs)

/-- Tile t of a ring-buffer half: its 128 × 128 element codes (R176). -/
def State.ringTile (s : State) (A h fmt t : Nat) : List Nat :=
  let off := s.halfOff A h
  (List.range 128).flatMap fun r => (List.range 128).map fun c =>
    s.getElem A (128 * (t / 8) + r) off (elemBits fmt) (128 * (t % 8) + c)

/-- Writes tile t and its header into a ring-buffer half. -/
def State.setRingTile (s : State) (A h fmt t : Nat) (hdr elems : List Nat) : State :=
  let off := s.halfOff A h
  (elems.zipIdx.foldl (fun s p =>
    s.putElem A (128 * (t / 8) + p.2 / 128) off (elemBits fmt) (128 * (t % 8) + p.2 % 128) p.1) s).setHdrAt A (off + 2048) t hdr

/-- A tile turned: elements transposed, dimensions swapped, and a checksum over the result (R74, R75, R660). -/
def turnTile (fmt key : Nat) (hdr elems : List Nat) : List Nat × List Nat :=
  let h := TileHdr.ofBytes hdr
  let es := transpose128 elems
  (sealHdr key { h with rows := h.cols, cols := h.rows } (packElems (elemBits fmt) es), es)

/-- The position of a tile after the turn (R74). -/
def turnPos (t : Nat) : Nat := 8 * (t % 8) + t / 8

/-- A 32-byte companion header (R157). -/
def compHeader (adds owner orbit matrix panel step key : Nat) : List Nat :=
  let h := [fcBFP16, adds % 256, owner % 256, orbit % 256] ++ leBytes 2 matrix ++ leBytes 2 panel ++ leBytes 8 step
    ++ List.replicate 8 0
  h ++ leBytes 8 (fletcher (key :: wordsOf h))

/-- The companion header of a companion half: the last two bytes of banks 0 to 15 (R64). -/
def State.compHdr (s : State) (A h : Nat) : List Nat :=
  (List.range 32).flatMap fun b => s.bankRead A (b / 2) (s.halfOff A (2 + h) + 2112 + b % 2) 1

/-- Writes a companion header. -/
def State.setCompHdr (s : State) (A h : Nat) (bs : List Nat) : State :=
  bs.zipIdx.foldl (fun s p => s.bankWrite A (p.2 / 2) (s.halfOff A (2 + h) + 2112 + p.2 % 2) [p.1]) s

/-- Block b of companion row r: the panel's block 32r + b (R64, R113). -/
def State.compBlock (s : State) (A h r b : Nat) : BfpBlock :=
  BfpBlock.ofBytes (s.bankRead A r (s.halfOff A (2 + h) + 66 * b) 66)

/-- Writes block b of companion row r. -/
def State.setCompBlock (s : State) (A h r b : Nat) (x : BfpBlock) : State :=
  s.bankWrite A r (s.halfOff A (2 + h) + 66 * b) x.bytes

/-- The fusion shape of core k (R83). -/
def State.fusionOf (s : State) (k : Nat) : Nat := s.fld rHaloFusion (2 * k + 1) (2 * k)

/-- Is array A a member of a fused group (R83)? -/
def State.fused (s : State) (A : Nat) : Bool := s.fusionOf (A / 4) != 0

/-- The arrays of core k, within the core, whose local stores array a pools with its own, in A-order (R83, R84). -/
def State.groupOf (s : State) (k a : Nat) : List Nat :=
  fusedGroup (s.fusionOf k) a

/-- Do all 64 headers of an operand carry its format (R41, R129, R361)? -/
def hdrsMatch (fmt : Nat) (hs : List (List Nat)) : Bool := hs.all fun h => fieldAt h 0 1 == fmt

/-- The array within core k whose local store holds the panel block of a format at a bank offset that a product of array a reads: in a fused
group the first member that holds such a block there, since the group holds one copy; otherwise the array itself (R84; log entry 12). -/
def State.poolArray (s : State) (k a B fmt : Nat) : Nat :=
  ((s.groupOf k a).find? fun m => hdrsMatch fmt (s.panelHdrs (4 * k + m) (B + 128 * elemBits fmt))).getD ((s.groupOf k a).headD a)

/-- Does the output of core k's feeder queue reach array a: the lead array, and every member of its fused group (R63)? -/
def State.feederReaches (s : State) (k a : Nat) : Bool := (s.groupOf k (leadIndex k)).contains a

/-- The unfused arrays of the partition of core k, in A-order (R85, R87). -/
def State.segArrays (s : State) (k : Nat) : List Nat :=
  ((s.partCores (s.lowest k)).flatMap fun j => [4 * j, 4 * j + 1, 4 * j + 2, 4 * j + 3]).filter fun A => !s.fused A

/-- Does the partition of core k hold the whole ring (R82, R87)? -/
def State.fullRing (s : State) (k : Nat) : Bool := (s.partCores (s.lowest k)).length == 4

/-- The logical forward order of a folded segment (R87). -/
def foldOrder (l : List Nat) : List Nat :=
  (l.zipIdx.filter fun p => p.2 % 2 == 0).map (·.1) ++ ((l.zipIdx.filter fun p => p.2 % 2 == 1).map (·.1)).reverse

/-- The orbit of the partition of core k in logical forward order (R78, R87). -/
def State.orbit (s : State) (k : Nat) : List Nat :=
  if s.fullRing k then s.segArrays k else foldOrder (s.segArrays k)

/-- The place of an array in a list. -/
def posIn (l : List Nat) (A : Nat) : Nat := l.findIdx (· == A)

/-- The arrays that a companion owned by array o has visited when it reaches array A, against the logical order (R159). -/
def State.visited (s : State) (k o A : Nat) : Nat :=
  let l := s.orbit k
  (posIn l o + l.length - posIn l A) % l.length

/-- The arrays a transfer passes between its sender and its receiver, as the links it takes: each link by the A-number it leaves
and its direction. The receiver comes first (R37, R85, R88; log entry 13). -/
def State.path (s : State) (k A : Nat) (ccw backward : Bool) (hop : Nat) : Nat × List (Nat × Bool) :=
  let l := s.orbit k
  let n := l.length
  if n = 0 then (A, [])
  else
    let i := posIn l A
    let m := max 1 hop
    if s.fullRing k then
      let dst := l[(if ccw then i + n * m - m else i + m) % n]?.getD A
      let d := if ccw then (A + 16 - dst) % 16 else (dst + 16 - A) % 16
      (dst, (List.range d).map fun j => ((if ccw then A + 16 - j else A + j) % 16, ccw))
    else
      let dst := l[(if backward then i + n * m - m else i + m) % n]?.getD A
      if dst < A then (dst, (List.range (A - dst)).map fun j => (A - j, true))
      else (dst, (List.range (dst - A)).map fun j => (A + j, false))

/-- A half of an array: 0 and 1 ring-buffer halves. -/
def State.ring (s : State) (A h : Nat) : Half := SMap.get (s.arr A).ring h
/-- A companion half of an array. -/
def State.comp (s : State) (A h : Nat) : Half := SMap.get (s.arr A).comp h
/-- The state with a ring-buffer half changed. -/
def State.modRing (s : State) (A h : Nat) (f : Half → Half) : State :=
  s.modArr A fun a => { a with ring := SMap.mod a.ring h f }
/-- The state with a companion half changed. -/
def State.modComp (s : State) (A h : Nat) (f : Half → Half) : State :=
  s.modArr A fun a => { a with comp := SMap.mod a.comp h f }

/-- The tag of a Lull that waits for a feeder-queue entry of core k (R62). -/
def feederTag (k : Nat) : Nat := 0x30000 + k

/-- The transfer with number `id`, if it is in flight. -/
def State.transfer (s : State) (id : Nat) : Option Transfer := s.transfers.find? fun t => t.id == id
/-- The state with a transfer changed. -/
def State.modTransfer (s : State) (id : Nat) (f : Transfer → Transfer) : State :=
  { s with transfers := s.transfers.map fun (t : Transfer) => if t.id = id then f t else t }
/-- The state with a transfer gone. -/
def State.dropTransfer (s : State) (id : Nat) : State :=
  { s with transfers := s.transfers.filter fun (t : Transfer) => t.id != id }

/-- The product with number `id` of an array. -/
def State.prod (s : State) (A id : Nat) : Option Product := (s.arr A).prods.find? fun p => p.id == id
/-- The state with a product changed, wherever the array keeps it. -/
def State.modProd (s : State) (A id : Nat) (f : Product → Product) : State :=
  s.modArr A fun a =>
    { a with prods := a.prods.map fun (p : Product) => if p.id = id then f p else p,
             last := a.last.map fun (p : Product) => if p.id = id then f p else p }
/-- The state with a product no longer in flight. -/
def State.dropProd (s : State) (A id : Nat) : State :=
  s.modArr A fun a => { a with prods := a.prods.filter fun (p : Product) => p.id != id }

end Sys2Proof.Machine
end

