-- ==== Sys2Proof/Machine/Products.lean ====
section
/-! DEFINITION. Panel products: issue, the feeder queue's slots, tiles into the tile queue, the release of a ring-buffer half, and
the companion adder (R41–R63, R129, R151–R160, R208–R210, R289–R294, R361). -/
namespace Sys2Proof.Machine

/-- A product's acquire of the link halves that its operand block lies in, as array code 0x0C + a (R183–R185, R667). -/
def State.acquireBlock (s : State) (k a arr base len : Nat) : State × Acq :=
  (s.linkHits k 2 arr base len).foldl (fun (q : State × Acq) h =>
    if q.2 = .ok then q.1.acquireCons k (h / 128) (h % 128) (0x0C + a) 2 else q) (s, .ok)

/-- Is a resend under way into the half that a product would read (R72)? -/
def State.resendInto (s : State) (A h : Nat) : Option Nat :=
  (s.transfers.find? fun t => t.dst == A && t.dstHalf == h && !t.companion && (!t.resend.isEmpty || t.reinject)).map (·.id)

/-- A panel block that the array reads from a pooled local store, and whether its tiles carry the format (R84, R147, R180). -/
def State.storeOperand (s : State) (k a B fmt : Nat) : Panel × Bool :=
  let m := 4 * k + s.poolArray k a B fmt
  let b := s.readBlock m B fmt
  ({ b.1 with read := some (m, B) }, hdrsMatch fmt b.2)

/-- The parallel operand of a product and whether its tiles carry the format (R49, R60, R84, R147). -/
def State.parallelOperand (s : State) (k a : Nat) (p : ProductArgs) : Panel × Bool :=
  let fmt := p.pfmt + 1
  if p.psrc then ({ fmt := fmt, fed := true }, p.pfmt != 0)
  else
    let b := s.storeOperand k a p.pbase fmt
    (b.1, p.pfmt != 0 && b.2)

/-- Does the product take its serial panel from a local store? A fused member takes it only as it was injected (R85). -/
def State.serialStored (s : State) (k a : Nat) (p : ProductArgs) : Bool := p.ssrc && !s.fused (4 * k + a)

/-- Does the product go to the companion adder? A fused member's goes only to the tile queue (R85). -/
def State.toCompanion (s : State) (k a : Nat) (p : ProductArgs) : Bool := p.dest && !s.fused (4 * k + a)

/-- The serial operand of a product and whether its tiles carry the format (R84, R85, R135, R147, R153). -/
def State.serialOperand (s : State) (k a : Nat) (p : ProductArgs) : Panel × Bool :=
  let fmt := p.sfmt + 1
  if s.serialStored k a p then s.storeOperand k a p.sbase fmt
  else
    let b := s.readRing (4 * k + a) (s.arr (4 * k + a)).readHalf fmt
    (b.1, hdrsMatch fmt b.2)

/-- The operand that a product's read of byte parity fails on: the parallel block (1), the serial block or half (2), or the feeder queue (3), by its
space, its array, its place and its length (R481). -/
def State.upsetPlace (s : State) (k a : Nat) (p : ProductArgs) : Nat × Nat × Nat × Nat :=
  let blk := fun (B fmt : Nat) => (2, s.poolArray k a B fmt, B, 128 * elemBits fmt + 2)
  if p.upset = 3 ∧ p.psrc then (3, 0, 0x1000, 1)
  else if p.upset = 1 ∧ !p.psrc then blk p.pbase (p.pfmt + 1)
  else if s.serialStored k a p then blk p.sbase (p.sfmt + 1)
  else (2, a, s.halfOff (4 * k + a) (s.arr (4 * k + a)).readHalf, 2050)

/-- A product whose operand fails byte parity: its recovery begins, and the product issues once the Lull has ended (R481–R483). -/
def State.recoverOperand (s : State) (k c a : Nat) (p : ProductArgs) : State :=
  let x := s.upsetPlace k a p
  let s := s.beginRecovery k x.1 x.2.1 x.2.2.1 x.2.2.2 1 none false none none
  match s.samePlace k x.1 x.2.1 x.2.2.1 x.2.2.2 with
  | some r => (s.askStage k 2 6 (recTag r.id)).again k (.product k c a { p with upset := 0 })
  | none => s

/-- Schedules what a product brings: its tiles or tile columns, the release of the half it reads, its digit slots at a local store and its
feeder slots (R52, R55, R61, R85, R151, R160, R180). -/
def State.scheduleProduct (s : State) (k a id c : Nat) (p : ProductArgs) : State :=
  let A := 4 * k + a
  let s := if s.toCompanion k a p then
      (List.range 8).foldl (fun s t => s.later k ((1152 + 128 * t) * c + 30) (.dwTileColumnAdded A id t false))
        (s.after (some (s.lowest k)) (1152 * c + 14) (.beginAdd A id))
    else (List.range 8).foldl (fun s t => s.later k ((1152 + 128 * t) * c + 14) (.tileQueueEntry A id t)) s
  let st := s.serialStored k a p
  let s := if st then s else s.later k (1024 * c) (.ringHalfRelease A (s.arr A).readHalf)
  let s := if p.psrc && !st then s else s.after (some (s.lowest k)) 0 (.operandSlot A id 0)
  if p.psrc then s.after (some (s.lowest k)) 0 (.feederSlot A id 0) else s

/-- Does a later product of the issuing context's program continue the product that the context issues at array a of core k (R55)? -/
def State.isContinued (s : State) (k c a : Nat) : Bool := Ctx.continued (s.core k).program a 65536 (s.ctx k c)

/-- A product that may run: put in flight, its predecessor's tiles suppressed when it continues it (R55). -/
def State.putProduct (s : State) (k c a cy : Nat) (p : ProductArgs) (par ser : Panel) : State :=
  let A := 4 * k + a
  let f := s.fresh
  let s := f.2
  let prev := (s.arr A).last
  let s := match p.cont, prev with
    | true, some q => s.modProd A q.id fun x => { x with abandoned := true }
    | _, _ => s
  let old := if p.cont then (match prev with | some q => q.pairs | none => []) else []
  let pr : Product := { id := f.1, core := k, ctx := c, instr := (s.ctx k c).cmdIndex, issuedAt := s.cyc k, c := cy,
                        colSkew := p.colSkew, outBf16 := p.outBf16, cont := p.cont, cstart := p.cstart,
                        matrix := p.matrix, panel := p.panel, key := p.key, feeder := p.psrc,
                        pairs := old ++ [{ prod := f.1, par := par, ser := ser, colSkew := p.colSkew }],
                        abandoned := s.isContinued k c a }
  let st := s.serialStored k a p
  let s := s.modArr A fun x => { x with prods := x.prods ++ [pr], last := some pr,
                                        fwdHalf := if st then x.fwdHalf else x.readHalf }
  s.scheduleProduct k a f.1 cy p

/-- PRODUCT (R41, R42, R49, R50, R54, R55, R60, R63, R72, R84, R85, R135, R180, R185, R361, R481). `upset` says which of its operands fails byte
parity at its first read. -/
def execProduct (k c a : Nat) (p : ProductArgs) (s : State) : Out :=
  let A := 4 * k + a
  let cy := cyclesOf p.sfmt
  let busy := match (s.arr A).last with
    | some q => decide (s.cyc k < q.issuedAt + 1024 * max q.c cy)
    | none => false
  let st := s.serialStored k a p
  if busy then .next (s.faultCtx k c 0x0A A)
  else
    match (if st then none else s.resendInto A (s.arr A).readHalf) with
    | some id => .next ((s.askStage k 2 6 (resendTag id)).again k (.product k c a p))
    | none =>
      let q := if p.psrc then (s, Acq.ok)
        else s.acquireBlock k a (s.poolArray k a p.pbase (p.pfmt + 1)) p.pbase (128 * elemBits (p.pfmt + 1) + 2)
      let r := if q.2 = .ok ∧ st then
          q.1.acquireBlock k a (s.poolArray k a p.sbase (p.sfmt + 1)) p.sbase (128 * elemBits (p.sfmt + 1) + 2)
        else q
      match r.2 with
      | .stop => .next r.1
      | .wait => .next (r.1.again k (.product k c a p))
      | .ok =>
        if p.upset ≠ 0 then .next (r.1.recoverOperand k c a p) else
        let par := r.1.parallelOperand k a p
        let ser := r.1.serialOperand k a p
        if par.2 && ser.2 then .next (r.1.putProduct k c a cy p par.1 ser.1)
        else .next (r.1.faultCtx k c 0x04 A)

/-- The state with the operands of product `id` changed, in it and in every product that continues it (R55). -/
def State.modPair (s : State) (A id : Nat) (f : Pair → Pair) : State :=
  let g := fun (p : Product) => { p with pairs := p.pairs.map fun q => if q.prod = id then f q else q }
  s.modArr A fun a => { a with prods := a.prods.map g, last := a.last.map g }

/-- The places of an operand that a digit slot reads: in the pre-skewed read the anti-diagonal of the slot, in the transposed read the row of
its depth (R147, R180). -/
def slotPlaces (transposed : Bool) (slot : Nat) : List (Nat × Nat) :=
  if transposed then (if slot < 1024 then (List.range 1024).map fun j => (slot, j) else [])
  else ((List.range 1024).filter fun i => decide (i ≤ slot) && decide (slot - i < 1024)).map fun i => (i, slot - i)

/-- An operand panel with what a digit slot reads of it taken from its local store now (R180, R181). -/
def State.readSlot (s : State) (x : Panel) (transposed : Bool) (slot : Nat) : Panel :=
  match x.read with
  | none => x
  | some (m, B) =>
    { x with elems := (slotPlaces transposed slot).foldl (fun l q =>
        l.set (1024 * q.1 + q.2) (s.getElem m q.1 B (elemBits x.fmt) ((q.2 + q.1) % 1024))) x.elems }

/-- One digit slot of a product at its local store: every bank is read in the slot of its element (R147, R180, R181). -/
def State.operandSlot (s : State) (A id slot : Nat) : State :=
  match s.prod A id with
  | none => s
  | some p =>
    let s := s.modPair A id fun q => { q with par := s.readSlot q.par q.colSkew slot, ser := s.readSlot q.ser (!q.colSkew) slot }
    if slot < 2046 then s.after (some (s.lowest p.core)) p.c (.operandSlot A id (slot + 1)) else s

/-- The place of the feeder queue of core k that row i's depth entry e takes in the row's circle of 16 (R61). -/
def State.feederEntry (s : State) (k i e : Nat) : FeederEntry := SMap.get (s.core k).feeder (16 * i + e % 16)

/-- Does the place hold depth entry e? -/
def FeederEntry.holds (x : FeederEntry) (e : Nat) : Bool := x.data.isSome && x.entry == e

/-- The cause that a late feeder write carries (R62, R191, R346). -/
def State.feederCause (s : State) (k id : Nat) : Nat :=
  match s.reads.find? (fun r => r.id == id) with
  | some r => s.readCause r
  | none => s.waitCause (s.lowest k) (s.governing (s.lowest k))

/-- The rows whose entry a digit slot needs first: row i with depth slot − i at the start of an entry (R50, R61). -/
def rowsAtSlot (fmt slot : Nat) : List (Nat × Nat) :=
  ((List.range 1024).filter fun i => decide (i ≤ slot) && decide (slot - i < 1024) && (slot - i) % perEntry fmt == 0).map fun i =>
    (i, (slot - i) / perEntry fmt)

/-- The entries whose last element the slot before consumed: freed in this one (R61). -/
def freedAtSlot (fmt slot : Nat) : List (Nat × Nat) :=
  ((List.range 1024).filter fun i => decide (i < slot) && decide (slot - i ≤ 1024) && (slot - i) % perEntry fmt == 0).map fun i =>
    (i, (slot - i) / perEntry fmt - 1)

/-- A place whose entry e has been consumed: the next write that waits for it enters (R61; log entry 72). -/
def FeederEntry.freed (x : FeederEntry) (e : Nat) : FeederEntry :=
  if !x.holds e then x
  else match x.waiting with
    | [] => { x with entry := 0, data := none, fmt := 0, scale := 0 }
    | w :: r => { x with entry := w.1, fmt := w.2.1, scale := w.2.2.1, data := some w.2.2.2, waiting := r }

/-- One digit slot of a product that reads the feeder queue (R41, R61–R63, R129): the entries it takes, then the entries freed. A missing entry
waits when a variable-latency write is pending for it and is a semaphore underflow otherwise, which SEM_FAULT does not capture (log entry
93). -/
def State.feederSlot (s : State) (A id slot : Nat) : State :=
  match s.prod A id with
  | none => s
  | some p =>
    let k := p.core
    let fmt := match p.pairs.find? (fun q => q.prod == id) with | some q => q.par.fmt | none => fcBF16
    let need := rowsAtSlot fmt slot
    match need.find? (fun q => !s.feederReaches k (A % 4) || !(s.feederEntry k q.1 q.2).holds q.2) with
    | some q =>
      match (if s.feederReaches k (A % 4) then SMap.get (s.feederEntry k q.1 q.2).pending q.2 else none) with
      | some w => (s.askStage k 2 (s.feederCause k w) (feederTag k)).afterHeld (s.lowest k) (.feederSlot A id slot)
      | none => (s.dropProd A id).fault k 0x01 (some p.ctx) p.instr A
    | none =>
      if need.any (fun q => let f := (s.feederEntry k q.1 q.2).fmt; f != 0 && f != fmt) then
        (s.dropProd A id).fault k 0x04 (some p.ctx) p.instr A
      else
        let got := need.map fun q => let x := s.feederEntry k q.1 q.2
          (q.1 * 32 + q.2, unpackElems (elemBits fmt) (x.data.getD []), x.scale)
        let s := s.modPair A id fun x => { x with par := { x.par with rows := got.foldl (fun m e => SMap.set m e.1 e.2) x.par.rows } }
        let s := s.modCore k fun co =>
          { co with feeder := (freedAtSlot fmt slot).foldl (fun m q => SMap.mod m (16 * q.1 + q.2 % 16) fun x => x.freed q.2) co.feeder }
        if slot < 2047 then s.after (some (s.lowest k)) p.c (.feederSlot A id (slot + 1)) else s

/-- VEC_STATUS.TQ_LEVEL and VEC_TQ_HIGH after a change of the tile queue (R233). -/
def State.tqLevel (s : State) (k : Nat) : State :=
  let n := (s.core k).tq.length
  let s := s.setFld (rVecStatus k) 22 16 n
  if s.fld (rVecTqHigh k) 6 0 < n then s.setFld (rVecTqHigh k) 6 0 n else s

/-- Does one tile come before another in the tile queue (R208)? -/
def TqTile.before (x y : TqTile) : Bool :=
  decide (x.enteredAt < y.enteredAt) || (x.enteredAt == y.enteredAt && decide (x.array ≤ y.array))

/-- A tile put at its place in the tile queue (R208). -/
def insertTile (q : List TqTile) (x : TqTile) : List TqTile := q.takeWhile (fun y => y.before x) ++ x :: q.dropWhile fun y => y.before x

/-- One result tile of a product: tile (t, u), and its saturated elements (R48, R52). -/
def Product.tile (p : Product) (t u : Nat) : List (Nat × Bool) :=
  (List.range 128).flatMap fun r => (List.range 128).map fun c => p.out (128 * t + r) (128 * u + c)

/-- A result tile that finds all 64 slots taken (R208, R210): it, or the last tile of a later array that entered in this cycle, would be the
65th; that one's product is abandoned with the semaphore overflow fault. The answer says whether the tile has a slot now. -/
def State.tqFull (s : State) (A : Nat) (p : Product) : State × Bool :=
  let k := p.core
  match ((s.core k).tq.filter fun y => y.enteredAt == s.cyc k && decide (A < y.array)).getLast? with
  | none => ((s.dropProd A p.id).fault k 0x02 (some p.ctx) p.instr A, false)
  | some y =>
    let s := s.modCore k fun co => { co with tq := co.tq.erase y }
    match s.prod y.array y.prod with
    | some q => ((s.dropProd y.array q.id).fault k 0x02 (some q.ctx) q.instr y.array, true)
    | none => (s.fault k 0x02 none 0 y.array, true)

/-- The eight tiles of a tile row put into the tile queue, sealed under the tile key 0 (R208, R210, R211). -/
def State.enterTiles (s : State) (A : Nat) (p : Product) (t : Nat) : Nat → State
  | 0 => s
  | n + 1 =>
    let u := 8 - (n + 1)
    let k := p.core
    let q := if 64 ≤ (s.core k).tq.length then s.tqFull A p else (s, true)
    if !q.2 then q.1
    else
      let s := q.1
      let es := p.tile t u
      let sat := es.countP (·.2)
      let h : TileHdr := { format := if p.outBf16 then fcBF16 else fcFP32 }
      let x : TqTile := { hdr := h, sealed := sealHdr 0 h (packElems (elemBits h.format) (es.map (·.1))), elems := es.map (·.1),
                          enteredAt := s.cyc k, array := A, prod := p.id, sat := sat }
      let s := (s.modCore k fun co => { co with tq := insertTile co.tq x }).bump (rHaloArraySat A) sat
      State.enterTiles (s.tqLevel k) A p t n

/-- TILE_QUEUE_ENTRY (R48, R52, R53, R55, R56, R208, R210): only the last product of a continued run sends tiles; the last tile
completes the product (log entry 71). -/
def execTileQueueEntry (A id t : Nat) (s : State) : Out :=
  match s.prod A id with
  | none => .next s
  | some p =>
    let s := if p.abandoned then s else s.enterTiles A p t 8
    .next (if t = 7 then s.dropProd A id else s)

/-- Frees a ring-buffer half once the array and every link have released it (R151, R152). -/
def State.freeRing (s : State) (A h : Nat) : State :=
  let x := s.ring A h
  if x.done ∧ x.linkReads = 0 then s.modRing A h fun _ => {} else s

/-- RING_HALF_RELEASE (R151, R152): the array's release, after which the next product reads the other half. -/
def execRingHalfRelease (A half : Nat) (s : State) : Out :=
  let s := s.modArr A fun a => { a with readHalf := if a.readHalf = half then 1 - half else a.readHalf }
  if (s.ring A half).st = .free then .next s
  else .next ((s.modRing A half fun x => { x with done := true }).freeRing A half)

/-- HALF_OWNERSHIP of a companion half at the companion adder: the product's companion is abandoned (R154). -/
def State.adderRefused (s : State) (A h : Nat) (p : Product) : State :=
  (s.dropProd A p.id).fault p.core 0x03 (some p.ctx) p.instr (halfExt A (2 + h) (s.comp A h).st.num 2)

/-- EXT of COMPANION_RESENT and COMPANION_FATAL: MATRIX, PANEL and the unit, 0 the header and b + 1 block b (R161; log entry 94). -/
def compExt (hd : List Nat) (unit : Nat) : Nat := fieldAt hd 4 2 + 65536 * fieldAt hd 6 2 + 2 ^ 32 * unit

/-- The companion transfer into array A that a resend holds up, if there is one (R161). -/
def State.companionResend (s : State) (A : Nat) : Option Nat :=
  (s.transfers.find? fun t => t.dst == A && t.companion && t.started && !t.resend.isEmpty).map (·.id)

/-- The header of the companion in half h of array A asked for again from the array that sent it (R159, R161, R276): its number. -/
def State.askHeader (s : State) (k c instr A h sender : Nat) : Nat × State :=
  let f := s.fresh
  let t : Transfer := { id := f.1, core := k, src := some sender, dst := A, dstHalf := h, companion := true, fmt := fcBFP16,
                        hdrs := [(s.comp A h).sent], started := true, resend := [0], acked := true, arrived := true, ctx := c,
                        instr := instr }
  let s : State := { f.2 with transfers := f.2.transfers ++ [t] }
  (f.1, s.afterResend (s.lowest k) 13 (.cmd (.companionResent f.1 0 false)))

/-- Does the header of a companion fit what a product or a thinning descriptor names (R159, R276)? -/
def headerFits (hd : List Nat) (matrix panel step : Nat) : Bool :=
  fieldAt hd 4 2 == matrix && fieldAt hd 6 2 == panel && fieldAt hd 8 8 == step

/-- The first tile column of a dW product reaches the companion adder: a start addition takes the next free half and writes its
header; a later one checks the arrived header and counts itself in ADDS. A header that does not fit is asked for again once; a resend into the
half is waited for (R151, R153, R157–R159, R161). -/
def State.beginAdd (s : State) (A id : Nat) : State :=
  match s.prod A id with
  | none => s
  | some p =>
    if p.abandoned then s else
    let ar := s.arr A
    let step := s.stepOf p.core
    if p.cstart then
      let h := ar.compNext
      if (s.comp A h).st ≠ .free then s.adderRefused A h p
      else
        let s := (s.modComp A h fun _ => { st := .adding }).modArr A fun a => { a with compNext := 1 - h }
        let s := s.setCompHdr A h (compHeader 1 A (s.orbit p.core).length p.matrix p.panel step p.key)
        s.modProd A id fun x => { x with half := h }
    else
      let fits := fun h => (s.comp A h).st == HalfState.adding && !(s.comp A h).done
      let h := if fits ar.compNext then ar.compNext else 1 - ar.compNext
      if !fits h then
        match s.companionResend A with
        | some t => (s.askStage p.core 2 6 (resendTag t)).afterHeld (s.lowest p.core) (.beginAdd A id)
        | none => s.adderRefused A h p
      else
        let hd := s.compHdr A h
        if !headerFits hd p.matrix p.panel step || fieldAt hd 1 1 != s.visited p.core (fieldAt hd 2 1) A then
          match p.hdrTried, (s.comp A h).sender with
          | false, some x =>
            let q := (s.modProd A id fun x => { x with hdrTried := true }).askHeader p.core p.ctx p.instr A h x
            (q.2.askStage p.core 2 6 (resendTag q.1)).afterHeld (s.lowest p.core) (.beginAdd A id)
          | _, _ => (s.dropProd A id).fault p.core 0x14 (some p.ctx) p.instr (compExt hd 0)
        else
          let s := s.setCompHdr A h (compHeader (fieldAt hd 1 1 + 1) (fieldAt hd 2 1) (fieldAt hd 3 1) p.matrix p.panel step p.key)
          s.modProd A id fun x => { x with half := h }

/-- The event of a companion's non-finite entry or saturation, raised once for it (R290, R293). -/
def State.companionEvent (s : State) (A h k : Nat) (nan sat : Bool) : State :=
  let x := s.comp A h
  let s := if nan && !x.nanSeen then (s.modComp A h fun y => { y with nanSeen := true }).eventCore k 0x0202 A 0 else s
  if sat && !x.satSeen then (s.modComp A h fun y => { y with satSeen := true }).eventCore k 0x0203 A 0 else s

/-- One block of a dW tile column: panel row j, block b. The state, or none when a residue check fails (R290, R291, R293, R294). -/
def State.addColumnBlock (s : State) (A : Nat) (p : Product) (j b : Nat) : Option State :=
  let outs := (List.range 32).map fun l => p.out j (32 * b + l)
  let gv := outs.map fun o => gradVal (if p.outBf16 then o.1 * 65536 else o.1)
  let enc := encodeBlock (gv.map (·.1))
  let k := p.core
  let s := s.bump (rHaloArraySat A) (outs.countP (·.2))
  let bad := gv.countP (·.2)
  let s := s.bump (rVecGradNonfinite k) bad
  let res := if p.cstart then some enc
    else (addBlocks (s.compBlock A p.half j b) enc.1).map fun r => (r.1, enc.2 || r.2)
  match res with
  | none => none
  | some r =>
    let s := (s.bump (rVecBfpSat k) (if r.2 then 1 else 0)).companionEvent A p.half k (bad != 0) r.2
    some (s.setCompBlock A p.half j b r.1)

/-- RESIDUE_FATAL at the companion adder: the block is not written and the step is aborted (R161, R294). -/
def State.adderFatal (s : State) (A : Nat) (p : Product) : State :=
  (s.dropProd A p.id).fault p.core 0x11 (some p.ctx) p.instr A

/-- DW_TILE_COLUMN_ADDED (R48, R158–R160, R289–R294): a tile column's blocks encoded and added; the last one completes the dW
product. `upset` says that a check inside the adder fails. -/
def execDwTileColumnAdded (A id t : Nat) (upset : Bool) (s : State) : Out :=
  match s.prod A id with
  | none => .next s
  | some p =>
    if p.abandoned then .next (if t = 7 then s.dropProd A id else s)
    else if upset then .next (s.adderFatal A p)
    else
      let places := (List.range 128).flatMap fun j => (List.range 32).map fun b => (128 * t + j, b)
      let q := places.foldl (fun (q : State × Bool) jb =>
        if q.2 then (match q.1.addColumnBlock A p jb.1 jb.2 with | some s => (s, true) | none => (q.1, false)) else q) (s, true)
      if !q.2 then .next (q.1.adderFatal A p)
      else .next (if t = 7 then (q.1.modComp A p.half fun x => { x with done := true }).dropProd A id else q.1)

end Sys2Proof.Machine
end

