-- ==== Sys2Proof/Machine/Halo.lean ====
section
/-! DEFINITION. Halo transfers: slots and collisions, forwarding, arrival through the turn stage, acknowledgements, resends and
re-injections (R37, R64–R78, R85–R91, R151–R165, R362, R659, R660). -/
namespace Sys2Proof.Machine

/-- Do two taken intervals of one Halo slot meet (R67)? -/
def Slot.meets (a b : Slot) : Bool :=
  a.ring == b.ring && a.node == b.node && (a.ring || a.ccw == b.ccw) && decide (a.lo < b.hi) && decide (b.lo < a.hi)

/-- The number of a slot's time domain: slots are kept in the cycles of the partition that owns the array (R68). -/
def State.collides (s : State) (want : List Slot) : Option Slot := want.find? fun w => s.slots.any fun x => x.meets w

/-- The Halo slots whose interval has not passed in the partition of core k. -/
def State.pruneSlots (s : State) (k : Nat) : State :=
  { s with slots := s.slots.filter fun x => decide (s.cyc k < x.hi) || s.lowest (x.node / 4) != s.lowest k }

/-- A slot collision of a transfer that array A sends: captured in HALO_FAULT unless one is already, counted, and the transfer not started.
For a link direction ARRAY names the sending array, for a ring input the receiving one (R67, R92). -/
def State.haloCollision (s : State) (k c A : Nat) (x : Slot) : State :=
  let node := if x.ring then x.node else A
  let n := min (s.fld rHaloFault 47 32 + 1) 0xFFFF
  let s := if s.fld rHaloFault 63 63 = 1 then s
    else
      let s := s.setFld rHaloFault 63 62 (2 + (if x.ring then 1 else 0))
      let s := s.setFld rHaloFault 61 61 (if x.ring ∨ !x.ccw then 0 else 1)
      let s := s.setFld rHaloFault 7 0 (16 * k + node)
      s.setReg rHaloFaultCycle (BitVec.ofNat 64 (s.part (s.lowest k)).stepCycle)
  (s.setFld rHaloFault 47 32 n).faultCtx k c 0x07 ((if x.ring then 256 else 0) + node)

/-- Cycles a transfer's payload takes on a link or at a ring input (R65, R66). -/
def payloadCycles (companion : Bool) (fmt : Nat) : Nat := if companion then 1056 else 64 * tileBytes fmt / 2048

/-- The slots that a hop from A takes: each link in turn, then the ring input until the transfer is written (R65, R66, R88, R659). -/
def hopSlots (now len : Nat) (back : Bool) (dst : Nat) (links : List (Nat × Bool)) : List Slot :=
  (links.zipIdx.map fun l => ({ node := l.1.1, ccw := l.1.2, lo := now + 6 * l.2, hi := now + 6 * l.2 + len } : Slot)) ++
    [{ ring := true, node := dst, lo := now + 6 * links.length,
       hi := now + 6 * links.length + len + (if back then 132 else 0) }]

/-- A resend that holds one of the link directions or the ring input that a transfer would take (R72). -/
def State.resendOn (s : State) (dst : Nat) (links : List (Nat × Bool)) : Option Nat :=
  (s.transfers.find? fun t => (!t.resend.isEmpty || t.reinject) && (t.dst == dst || links.any fun l => t.links.contains l)).map (·.id)

/-- The tiles of a ring-buffer half as a link carries them: in W's orientation, a turned panel turned back (R660). -/
def State.panelOut (s : State) (A h : Nat) : List (List Nat) × List (List Nat) :=
  let x := s.ring A h
  let tiles := (List.range 64).map fun t =>
    let u := if x.back then turnPos t else t
    let hd := s.hdrAt A (s.halfOff A h + 2048) u
    let es := s.ringTile A h x.fmt u
    if x.back then turnTile x.fmt (x.keys.getD t 0) hd es else (hd, es)
  (tiles.map (·.1), tiles.map (·.2))

/-- The companion of a half as a link carries it: its header and its blocks' bytes, one list for each panel row (R65, R113). -/
def State.companionOut (s : State) (A h : Nat) : List (List Nat) × List (List Nat) :=
  ([s.compHdr A h], (List.range 1024).map fun r => s.bankRead A r (s.halfOff A (2 + h)) 2112)

/-- The cycle, counted from the first, in which tile i of a panel has crossed a link or left the convert stage (R65, R70). -/
def tileDone (fmt i : Nat) : Nat := (i + 1) * (tileBytes fmt / 2048)

/-- A transfer that may start: its slots taken, its copy made, its first byte, tiles, arrival and acknowledgement to come. The acknowledgement
comes 12 cycles after the last byte has left on the last link (R66, R70, R71, R151; log entry 14). -/
def State.startHop (s : State) (k c A h dst : Nat) (links : List (Nat × Bool)) (x : HaloArgs) (len : Nat) : State :=
  let back := x.back && !x.companion
  let f := s.fresh
  let s := f.2
  let hf := if x.companion then s.comp A h else s.ring A h
  let data := if x.companion then s.companionOut A h else s.panelOut A h
  let lat := 6 * links.length
  let p := s.lowest k
  let t : Transfer := { id := f.1, core := k, src := some A, srcHalf := h, dst := dst, companion := x.companion, back := back,
                        fmt := hf.fmt, hdrs := data.1, elems := data.2, keys := hf.keys, links := links,
                        origin := hf.origin, nanSeen := hf.nanSeen, satSeen := hf.satSeen, ctx := c, instr := (s.ctx k c).cmdIndex }
  let s := { s with slots := s.slots ++ hopSlots (s.cyc k) len back dst links, transfers := s.transfers ++ [t] }
  let s := if x.companion then s.modComp A h fun y => { y with st := .sending }
    else s.modRing A h fun y => { y with linkReads := y.linkReads + 1 }
  let s := s.after (some p) lat (.firstByte f.1)
  let s := if x.companion then s
    else (List.range 64).foldl (fun s i => s.after (some p) (lat + tileDone hf.fmt i) (.tileArrive f.1 i)) s
  (s.later k (lat + len + (if back then 132 else 0)) (.haloTransferArrival f.1 [])).later k (lat - 6 + len + 12) (.haloAck f.1)

/-- The companion half that a HALO forwards: the oldest whose last addition has completed (R151, R162). -/
def State.sendableComp (s : State) (A : Nat) : Option Nat :=
  let ready := fun h => (s.comp A h).st == HalfState.adding && (s.comp A h).done
  let n := (s.arr A).compNext
  if ready n then some n else if ready (1 - n) then some (1 - n) else none

/-- HALO (R37, R65–R67, R72, R78, R85, R88, R151, R154, R155, R162, R362, R659). -/
def execHalo (k c a : Nat) (h : HaloArgs) (s : State) : Out :=
  let A := 4 * k + a
  let s := s.pruneSlots k
  let p := s.path k A h.ccw (h.back || h.companion) h.hop
  match s.resendOn p.1 p.2 with
  | some id => .next ((s.askStage k 2 6 (resendTag id)).again k (.halo k c a h))
  | none =>
    let half := if h.companion then s.sendableComp A else some (s.arr A).fwdHalf
    match half with
    | none => .next (s.faultCtx k c 0x0A A)
    | some f =>
      let len := payloadCycles h.companion (s.ring A f).fmt
      match s.collides (hopSlots (s.cyc k) len (h.back && !h.companion) p.1 p.2) with
      | some x => .next (s.haloCollision k c A x)
      | none => .next (s.startHop k c A f p.1 p.2 h len)

/-- The first byte of a transfer at its ring input: the half due takes it, or refuses it with HALF_OWNERSHIP (R151, R153, R154,
R165). -/
def State.firstByte (s : State) (id : Nat) : State :=
  match s.transfer id with
  | none => s
  | some t =>
    let ar := s.arr t.dst
    let h := if t.companion then ar.compNext else ar.inHalf
    let st := if t.companion then (s.comp t.dst h).st else (s.ring t.dst h).st
    if st ≠ .free then
      (s.dropTransfer id).fault t.core 0x03 (some t.ctx) t.instr
        (halfExt t.dst (if t.companion then 2 + h else h) st.num (if t.src.isSome then 0 else 1))
    else
      let s := s.modTransfer id fun t => { t with dstHalf := h, started := true }
      if t.companion then
        (s.modComp t.dst h fun _ => { st := .filling, sender := t.src, sent := t.hdrs.getD 0 [], nanSeen := t.nanSeen,
                                      satSeen := t.satSeen }).modArr t.dst fun a => { a with compNext := 1 - h }
      else
        (s.modRing t.dst h fun _ => { st := .filling, fmt := t.fmt, back := t.back, keys := t.keys,
                                      origin := t.origin }).modArr t.dst fun a => { a with inHalf := 1 - h }

/-- One tile of a panel written into its half, turned when the transfer is backward (R74, R75). -/
def State.writeTile (s : State) (t : Transfer) (i : Nat) : State :=
  let hd := t.hdrs.getD i []
  let es := t.elems.getD i []
  if t.back then
    let x := turnTile t.fmt (t.keys.getD i 0) hd es
    s.setRingTile t.dst t.dstHalf t.fmt (turnPos i) x.1 x.2
  else s.setRingTile t.dst t.dstHalf t.fmt i hd es

/-- One unit of a companion written into its half: 0 the header, b + 1 block b (R161). -/
def State.writeCompUnit (s : State) (t : Transfer) (u : Nat) : State :=
  if u = 0 then s.setCompHdr t.dst t.dstHalf (t.hdrs.getD 0 [])
  else
    let r := (u - 1) / 32
    let b := (u - 1) % 32
    s.bankWrite t.dst r (s.halfOff t.dst (2 + t.dstHalf) + 66 * b) (slice (t.elems.getD r []) (66 * b) 66)

/-- A companion's units that pass their checks, written (R77, R151, R161). -/
def State.writeCompanion (s : State) (t : Transfer) (bad : List Nat) : State :=
  let s := if bad.contains 0 then s else s.writeCompUnit t 0
  t.elems.zipIdx.foldl (fun s p =>
    (List.range 32).foldl (fun s b => if bad.contains (32 * p.2 + b + 1) then s else s.writeCompUnit t (32 * p.2 + b + 1)) s) s

/-- The units of a companion whose own check fails: 0 the header by its checksum over its key, b + 1 block b by its residue (R111, R157,
R161). The key of the header is that of the descriptor that began the companion, which it does not carry, so the header is taken to hold. -/
def Transfer.badBlocks (t : Transfer) : List Nat :=
  t.elems.zipIdx.flatMap fun p => ((List.range 32).filter fun b => !(BfpBlock.ofBytes (slice p.1 (66 * b) 66)).ok).map fun b =>
    32 * p.2 + b + 1

/-- The cycles of a resend: the unit on the link and 12 more, or, for an injected tile, through the convert stage's 8 (R66, R72). -/
def resendCycles (t : Transfer) : Nat :=
  if t.companion then 1 + 12 else tileBytes t.fmt / 2048 + (if t.src.isSome then 12 else 8)

/-- A unit asked for again: its resend takes the link, or the ring input, at once, or after the resend before it (R72, R161; log entry 95). -/
def State.askResend (s : State) (id u : Nat) : State :=
  match s.transfer id with
  | none => s
  | some t =>
    if t.resend.contains u then s
    else
      let now := (s.part (s.lowest t.core)).resendCycle
      let until_ := max now t.resendUntil + resendCycles t
      let s := s.modTransfer id fun x => { x with resend := x.resend ++ [u], resendUntil := until_ }
      s.afterResend (s.lowest t.core) (until_ - now) (.cmd (if t.companion then .companionResent id u false else .tileResent id u false))

/-- Does a tile of a transfer pass its checksum (R70, R106)? -/
def Transfer.tileOk (t : Transfer) (i : Nat) : Bool :=
  checksumOk (t.keys.getD i 0) (t.hdrs.getD i []) (packElems (elemBits t.fmt) (t.elems.getD i []))

/-- A tile has crossed into the ring input, and its checksum is verified: one that passes goes to the half, 132 cycles later when it is
turned, and one that fails is asked for again (R70, R72, R74, R76). -/
def State.tileArrive (s : State) (id i : Nat) : State :=
  match s.transfer id with
  | none => s
  | some t =>
    if !t.started ∨ t.resend.contains i ∨ t.reinject then s
    else if !t.tileOk i then s.askResend id i
    else if t.back then s.after (some (s.lowest t.core)) 132 (.tileWrite id i)
    else s.writeTile t i

/-- A turned tile is written at its place (R74, R76). -/
def State.tileWrite (s : State) (id i : Nat) : State :=
  match s.transfer id with
  | none => s
  | some t => if t.resend.contains i ∨ t.reinject then s else s.writeTile t i

/-- Is the companion in half h of array A home, with the additions of its whole orbit (R151, R163)? -/
def State.isHome (s : State) (A h : Nat) : Bool :=
  let hd := s.compHdr A h
  fieldAt hd 2 1 == A && fieldAt hd 1 1 == fieldAt hd 3 1

/-- A companion that has arrived whole enters HANDOFF when it is home (R151, R163). -/
def State.companionIn (s : State) (t : Transfer) : State :=
  if s.isHome t.dst t.dstHalf then s.modComp t.dst t.dstHalf fun x => { x with st := .handoff } else s

/-- The end of a transfer that has arrived and is acknowledged: it is forgotten (R71). -/
def State.closeTransfer (s : State) (id : Nat) : State :=
  match s.transfer id with
  | some t => if t.acked && t.arrived && t.resend.isEmpty && !t.reinject then s.dropTransfer id else s
  | none => s

/-- The acknowledgement of a transfer with nothing left to resend: the sender's copy and half are released, and the receiver's half passes
on (R71, R151, R152). -/
def State.ackTransfer (s : State) (t : Transfer) : State :=
  let s := s.modTransfer t.id fun x => { x with ackDue := true, acked := true }
  let s := match t.src with
    | none => s
    | some A =>
      if t.companion then s.modComp A t.srcHalf fun _ => {}
      else (s.modRing A t.srcHalf fun x => { x with linkReads := x.linkReads - 1 }).freeRing A t.srcHalf
  let s :=
    if t.companion then
      if (s.comp t.dst t.dstHalf).st = .filling then s.modComp t.dst t.dstHalf fun x => { x with st := .adding } else s
    else if (s.ring t.dst t.dstHalf).st = .filling then
      (s.modRing t.dst t.dstHalf fun x => { x with st := .held }).freeRing t.dst t.dstHalf
    else s
  s.closeTransfer t.id

/-- HALO_TRANSFER_ARRIVAL (R70–R77, R90, R112, R151, R153, R161, R163): `bad` lists the tiles, or the companion's units, whose check fails now;
each is asked for again at once. With none the transfer is at its end: a companion's units that pass are in the half, and a panel's tiles went
there as they completed (log entry 95). -/
def execHaloTransferArrival (id : Nat) (bad : List Nat) (s : State) : Out :=
  match s.transfer id with
  | none => .next s
  | some t =>
    if !t.started ∨ t.arrived then .next s
    else if !bad.isEmpty ∧ !t.companion then .next (bad.foldl (fun s u => s.askResend id u) s)
    else
      let bad := if t.companion then bad ++ t.badBlocks else []
      let s := if t.companion then s.writeCompanion t bad else s
      let s := (s.modTransfer id fun x => { x with arrived := true })
      let s := bad.foldl (fun s u => s.askResend id u) s
      .next ((if t.companion && bad.isEmpty then s.companionIn t else s).closeTransfer id)

/-- HALO_ACK (R71, R151, R152, R163): given 12 cycles after the last byte, or, while a unit is being resent, when the last of them is in
place. -/
def execHaloAck (id : Nat) (s : State) : Out :=
  match s.transfer id with
  | none => .next s
  | some t =>
    if t.acked then .next s
    else if !t.resend.isEmpty ∨ t.reinject then .next (s.modTransfer id fun x => { x with ackDue := true })
    else .next (s.ackTransfer t)

/-- DETAIL of HALO_TILE_RESENT (R72). -/
def resentDetail (t : Transfer) (tile : Nat) : Nat :=
  t.dst + 16 * (t.src.getD t.dst) + 256 * tile + (if t.src.isNone then 2 ^ 14 else 0)

/-- What follows a resend that has put a unit right: the next one, or the end of the Lull and the acknowledgement that is due (R71, R72,
R161). -/
def State.resendDone (s : State) (t : Transfer) (u : Nat) : State :=
  let rest := t.resend.filter (· != u)
  let s := s.modTransfer t.id fun x => { x with resend := rest, reinject := false }
  if !rest.isEmpty then s
  else
    let s := s.endLull (s.lowest t.core) 0 (resendTag t.id)
    let s := if t.companion && t.arrived && !t.acked then s.companionIn t else s
    if t.ackDue && !t.acked then s.ackTransfer { t with resend := [], reinject := false } else s.closeTransfer t.id

/-- The address of a tile's payload and of its header in the core-store copy that a panel was injected from (R73, R177). -/
def PanelSrc.tileAddr (o : PanelSrc) (i : Nat) : Nat × Nat :=
  let d := sdesc o.desc
  let p := d.place o.first
  let g := o.base + d.groupOff d.srcFormat p.1 p.2.1
  (g + 2048 + i * tileBytes d.srcFormat, g + 32 * i)

/-- Tile i of a panel read again from the core-store copy and passed through the convert stage under its key (R72, R73). -/
def State.readAgain (s : State) (o : PanelSrc) (key i : Nat) : Except ConvFault Converted :=
  let d := sdesc o.desc
  convertTile key d.srcFormat d.format true (fun j => s.expDesc o.owner (d.expBase + j))
    (s.unitHeader o.owner d o.base (o.first + i + 1)) (s.unitBytes o.owner d o.base (o.first + i + 1))

/-- A transfer with tile i as the convert stage gives it (R72, R73). -/
def Transfer.withTile (t : Transfer) (i : Nat) (cv : Converted) : Transfer :=
  let f := cv.hdr.format
  { t with hdrs := t.hdrs.set i (sealHdr (t.keys.getD i 0) cv.hdr (packElems (elemBits f) cv.elems)), elems := t.elems.set i cv.elems }

/-- A resent tile as its sender gives it: of an injected one, read again and converted; none when that read fails its checks (R72). -/
def State.resentTile (s : State) (t : Transfer) (i : Nat) : Option Transfer :=
  match t.src with
  | some _ => if t.tileOk i then some t else none
  | none => match s.readAgain t.origin (t.keys.getD i 0) i with
    | .ok cv => some (t.withTile i cv)
    | .error _ => none

/-- Begins the re-injection of a whole panel from its resident copy (R73): the die lulls, and the panel takes the time of an
injection. -/
def State.reinject (s : State) (t : Transfer) : State :=
  let s := s.modTransfer t.id fun x => { x with resend := [], reinject := true }
  let s := s.askStage t.core 2 6 (resendTag t.id)
  s.afterResend (s.lowest t.core) (8 + payloadCycles false t.fmt + (if t.back then 132 else 0)) (.cmd (.panelReinjected t.id))

/-- TILE_RESENT (R72, R73): a resent tile that passes is in place; one that fails again starts the re-injection of its panel. -/
def execTileResent (id tile : Nat) (bad : Bool) (s : State) : Out :=
  match s.transfer id with
  | none => .next s
  | some t =>
    if t.companion || !t.resend.contains tile then .next s
    else
      let s := s.bump (rHaloResend t.dst) 1
      match (if bad then none else s.resentTile t tile) with
      | none => .next (s.reinject t)
      | some t' =>
        let s := s.eventCore t.core 0x010B (resentDetail t tile) 0
        let s := s.modTransfer id fun x => { x with hdrs := t'.hdrs, elems := t'.elems }
        .next ((s.writeTile t' tile).resendDone t' tile)

/-- The first tile of a panel's resident copy whose checksum fails (R73, R107). -/
def State.residentBad (s : State) (t : Transfer) : Option Nat :=
  let d := sdesc t.origin.desc
  (List.range 64).find? fun i => !checksumOk (t.keys.getD i 0) (s.unitHeader t.origin.owner d t.origin.base (t.origin.first + i + 1))
    (s.unitBytes t.origin.owner d t.origin.base (t.origin.first + i + 1))

/-- The whole panel as it is injected again: every tile from the resident copy, through the convert stage (R73). -/
def State.injectedAgain (s : State) (t : Transfer) : Transfer :=
  (List.range 64).foldl (fun t i => match s.readAgain t.origin (t.keys.getD i 0) i with
    | .ok cv => t.withTile i cv
    | .error _ => t) t

/-- PANEL_REINJECTED (R73; log entry 94): the panel is in place and the Lull ends. A tile of the resident copy that fails is recovered first,
under R483; one that fails again once a source has supplied it is uncorrectable (R492, R493). -/
def execPanelReinjected (id : Nat) (s : State) : Out :=
  match s.transfer id with
  | none => .next s
  | some t =>
    if !t.reinject then .next s
    else match s.residentBad t with
      | some i =>
        let o := t.origin
        let a := o.tileAddr i
        if s.supplied.contains (o.owner, a.1) then
          .next (({ s with supplied := s.supplied.erase (o.owner, a.1) } : State).uncorrectable
            { core := o.owner, space := 1, addr := a.1, check := 2 })
        else
          .next (s.beginRecovery o.owner 1 0 a.1 (tileBytes (sdesc o.desc).srcFormat) 2 (some id) false none none (some a.2) none
            (t.keys.getD i 0))
      | none =>
        let t' := s.injectedAgain t
        let s := (s.bump rHaloReinject 1).eventCore t.core 0x010C t.dst (t.origin.tileAddr 0).2
        let s := s.modTransfer id fun x => { x with hdrs := t'.hdrs, elems := t'.elems }
        let s := (List.range 64).foldl (fun s i => s.writeTile t' i) s
        .next (s.resendDone { t' with resend := [] } 0)

/-- COMPANION_RESENT (R161; log entry 94): a resent header or block that passes is in place; one that fails again raises COMPANION_FATAL and
aborts the step. -/
def execCompanionResent (id unit : Nat) (bad : Bool) (s : State) : Out :=
  match s.transfer id with
  | none => .next s
  | some t =>
    if !t.companion || !t.resend.contains unit then .next s
    else
      let ext := compExt (t.hdrs.getD 0 []) unit
      if bad || t.badBlocks.contains unit then
        .next (((s.dropTransfer id).endLull (s.lowest t.core) 0 (resendTag id)).fault t.core 0x14 none 0 ext)
      else .next (((s.eventCore t.core 0x010D t.dst ext).writeCompUnit t unit).resendDone t unit)

end Sys2Proof.Machine
end

