-- ==== Sys2Proof/Machine/StreamIssue.lean ====
section
/-! DEFINITION. The issues of the stream engines that the stages after the fetch stage take: injections, stores with their
Stratus and fabric destinations, hand-offs and gathers from the fabric; and the delivery of scheduled-plane transfers (R74, R98–R108,
R122–R128, R164–R177, R188, R276, R384–R396, R659, R662, R671–R673). -/
namespace Sys2Proof.Machine

/-- A core-store read that fails a check: its recovery begins, and the command runs again when the Lull has ended (R107, R482,
R483); a tile checksum that fails once more after a recovery has supplied the tile is uncorrectable (R493). -/
def State.recoverStore (s : State) (k stage a n check : Nat) (i : Instr) (hdr : Option Nat := none) (key : Nat := 0) : State :=
  if check = 2 ∧ s.supplied.contains (k, a) then
    ({ s with supplied := s.supplied.erase (k, a) } : State).uncorrectable { core := k, space := 1, addr := a, check := 2 }
  else
  let s := s.beginRecovery k 1 0 a n check none false none none hdr none key
  match s.samePlace k 1 0 a n with
  | some r => (s.askStage k stage 6 (recTag r.id)).again k i
  | none => s

/-- The header block issue of an INJECT: the ring input's slot is taken and the panel's transfer begins (R66, R67, R72, R74, R659). -/
def State.beginInject (s : State) (k e : Nat) (en : Engine) (d : SDesc) : State :=
  let A := 4 * k + d.dstArray
  let s := s.pruneSlots k
  match s.resendOn A [] with
  | some id => (s.askStage k 2 6 (resendTag id)).again k (.streamIssue k e false)
  | none =>
    let lo := s.cyc k + 8
    let w : Slot := { ring := true, node := A, lo := lo, hi := lo + 64 * d.interval + (if en.back then 132 else 0) }
    match s.collides [w] with
    | some x => (s.stopEngine k e 0).haloCollision k en.ctx A x
    | none =>
      let f := s.fresh
      let t : Transfer := { id := f.1, core := k, dst := A, back := en.back, fmt := d.target,
                            origin := { owner := k, desc := en.desc, base := en.srcBase, first := en.issue }, ctx := en.ctx,
                            instr := en.instr }
      let s : State := { f.2 with slots := f.2.slots ++ [w], transfers := f.2.transfers ++ [t] }
      let s := s.after (some (s.lowest k)) 8 (.firstByte f.1)
      (s.modCore k fun co => { co with engines := SMap.mod co.engines e fun (x : Engine) => { x with transfer := some f.1 } }).nextIssue
        k e (65 * d.panels) d.interval

/-- A tile issue of an INJECT: converted, and in the ring input 8 cycles later; the last one brings the panel's arrival and its
acknowledgement (R66, R70, R71, R98–R108, R128, R129, R659). -/
def State.injectTile (s : State) (k e : Nat) (en : Engine) (d : SDesc) (id : Nat) : State :=
  let p := d.place en.issue
  let key := d.key (s.stepOf k) p.1 p.2.1 (p.2.2 - 1)
  let hd := s.unitHeader k d en.srcBase en.issue
  let py := s.unitBytes k d en.srcBase en.issue
  if d.srcFormat = fcBFP16 then (s.stopEngine k e 0).fault k 0x04 (some en.ctx) en.instr (p.2.2 - 1)
  else match convertTile key d.srcFormat d.format true (fun i => s.expDesc k (d.expBase + i)) hd py with
  | .error .format => (s.stopEngine k e 0).fault k 0x04 (some en.ctx) en.instr (p.2.2 - 1)
  | .error .checksum =>
    let g := (d.srcRanges en.srcBase en.issue).headD (0, 1)
    s.recoverStore k 1 g.1 g.2 2 (.streamIssue k e false)
      (some (en.srcBase + d.groupOff d.srcFormat p.1 p.2.1 + 32 * (p.2.2 - 1))) key
  | .ok cv =>
    let f := cv.hdr.format
    if f ≠ fcE2M1 ∧ f ≠ fcE4M3 ∧ f ≠ fcE5M2 ∧ f ≠ fcBF16 then (s.stopEngine k e 0).fault k 0x04 (some en.ctx) en.instr (p.2.2 - 1)
    else
      let s := (s.countConv k cv).modTransfer id fun t =>
        { t with hdrs := t.hdrs ++ [sealHdr key cv.hdr (packElems (elemBits f) cv.elems)], elems := t.elems ++ [cv.elems],
                 keys := t.keys ++ [key] }
      let s := s.after (some (s.lowest k)) 8 (.tileArrive id (p.2.2 - 1))
      let s := if p.2.2 = 64 then
          (s.later k (8 + (if en.back then 132 else 0)) (.haloTransferArrival id [])).later k 20 (.haloAck id)
        else s
      s.nextIssue k e (65 * d.panels) d.interval

/-- One issue of an INJECT (R172, R174, R183). -/
def State.issueInject (s : State) (k e : Nat) (en : Engine) (d : SDesc) : State :=
  let a := if d.srcBuf then s.acquireCons k en.ctx d.linkIn e 1 else (s, .ok)
  match a.2 with
  | .stop => a.1.stopEngine k e 0
  | .wait => a.1.again k (.streamIssue k e false)
  | .ok =>
    let en := { en with srcBase := if d.srcBuf then a.1.srcBaseOf k en.ctx d else en.srcBase }
    if en.issue % 65 = 0 then a.1.beginInject k e en d
    else match en.transfer with
      | some id => a.1.injectTile k e en d id
      | none => a.1.stopEngine k e 0

/-- `n` elements of the store stage from position `from_` on, with those that no result has filled taken as free words in the descriptor's
format (log entry 1). -/
def State.peekStore (s : State) (k from_ n fmt : Nat) : List (Nat × Nat × Bool) :=
  let got := ((s.core k).storeBuf.drop from_).take n
  let f := match got.head? with | some x => x.2.1 | none => fmt
  got ++ (List.range (n - got.length)).map fun i => (Config.freeWord (s.free + i) % 2 ^ elemBits f, f, false)

/-- The next 16,384 elements taken from the store stage. -/
def State.takeStore (s : State) (k fmt : Nat) : List (Nat × Nat × Bool) × State :=
  (s.peekStore k 0 16384 fmt, { s.modCore k fun co => { co with storeBuf := co.storeBuf.drop 16384 } with
    free := s.free + (16384 - (s.core k).storeBuf.length) })

/-- The rows of a tile as the feeder queue takes them, from row `row` and byte `pos` of the row on: 128 elements of each of 128 panel rows
(R59, R61, R389). -/
def State.feederTile (s : State) (k row pos t fmt : Nat) (scale : Int) (bytes : List Nat) : State :=
  let n := 128 * elemBits fmt / 8
  (List.range 128).foldl (fun s r =>
    s.feederWrite k (row + 128 * (t / 8) + r) (pos + t % 8 * n) (slice bytes (n * r) n) fmt scale) s

/-- Does a scheduled-plane transfer from core k to the cores find its paths free (R386)? -/
def State.pathsFree (s : State) (k : Nat) (cores : List Nat) : Bool :=
  decide ((s.core k).egressUntil ≤ s.cyc k) && cores.all fun j => decide ((s.core j).ingressUntil ≤ s.cyc k)

/-- The physical cores that a scheduled-plane address names, if all lie in the partition (R389, R390). -/
def State.straCores (s : State) (k addr : Nat) : Option (List Nat) :=
  let f := bitsAt addr 32 4
  let ls := if bitsAt addr 37 3 = 1 then maskList 4 f else [f]
  if ls.all (fun j => (s.physCore (s.lowest k) j).isSome) then some (ls.filterMap fun j => s.physCore (s.lowest k) j) else none

/-- A scheduled-plane transfer of one issue to cores of the partition (R384–R387, R396): taken, or refused with STAGE_BUSY. -/
def State.straGo (s : State) (k e : Nat) (en : Engine) (cores : List Nat) (ext bytes : Nat) (t : StraTransfer) : State :=
  if !s.pathsFree k cores then (s.stopEngine k e 0).fault k 0x0A (some en.ctx) en.instr ext
  else
    let n := ceilDiv bytes 2048
    let until_ := s.cyc k + n
    let f := s.fresh
    let s : State := { f.2 with stra := f.2.stra ++ [{ t with id := f.1, core := k, ctx := en.ctx, instr := en.instr, cores := cores }] }
    let s := s.modCore k fun co => { co with egressUntil := until_ }
    let s := cores.foldl (fun s j => s.modCore j fun co => { co with ingressUntil := until_ }) s
    (s.bump rStraSchedBytes bytes).later k (40 + n) (.stratusTransferDelivery f.1)

/-- A scheduled-plane transfer to the cores that a Stratus address names (R389, R390), or ADDR_BOUNDS. -/
def State.straSend (s : State) (k e : Nat) (en : Engine) (addr bytes : Nat) (t : StraTransfer) : State :=
  match s.straCores k addr with
  | none => (s.stopEngine k e 0).fault k 0x06 (some en.ctx) en.instr addr
  | some cores => s.straGo k e en cores addr bytes t

/-- The all-gather collective that this module owns, if the partition has one: its descriptor's bytes (R312; log entry 17). -/
def State.gatherColl (s : State) (k : Nat) : Option (List Nat) :=
  ((s.part (s.lowest k)).colls.find? fun e => (cdesc e.2).kind == 4 && (cdesc e.2).owner).map (·.2)

/-- A message of a STORE to a fabric address (R312, R343, R671): a multicast for a working copy, a write otherwise. -/
def State.storeFabric (s : State) (k : Nat) (en : Engine) (addr place : Nat) (wc : Bool) (bytes : List Nat) : State × Bool :=
  let m := s.toRoute k (bitsAt addr 29 8) (addr % 2 ^ 29 + place) 1 0xFFFF bytes
  match (if wc then s.gatherColl k else none) with
  | some b =>
    let sh := Config.mcastShape b
    let c := cdesc b
    s.sendMcast k en.ctx { m with coll := c.coll, nx := sh.getD 0 1, ny := sh.getD 1 1, nz := sh.getD 2 1, sx := sh.getD 3 0,
                                  sy := sh.getD 4 0, sz := sh.getD 5 0 } (s.collDeadline (s.lowest k) c.coll)
  | none => s.sendMsg k en.ctx m (s.sendDeadline (s.lowest k)) none

/-- What the store stage makes of 16,384 elements for unit `n` of a STORE, under the unit's key (R122–R128, R662). -/
def State.storeUnit (s : State) (k step : Nat) (d : SDesc) (n : Nat) (es : List (Nat × Nat × Bool)) : Except ConvFault Converted :=
  let p := d.place n
  let key := d.key step p.1 p.2.1 (p.2.2 - 1)
  if es.any (fun y => y.2.1 != d.srcFormat) then .error .format
  else storeTile { format := d.srcFormat } (es.map (·.1)) d.format d.nanmode d.autoscale d.stoch d.scale
    (fun i => srRandom (s.reg (rStrSrSeed k)).toNat step key k i)

/-- The header and the payload of a unit of a STORE (R106, R108). -/
def sealUnit (key : Nat) (cv : Converted) : List Nat × List Nat :=
  let payload := packElems (elemBits cv.hdr.format) cv.elems
  (sealHdr key cv.hdr payload, payload)

/-- The 64 headers of the panel whose header-block issue unit `n` is, when the results of the whole panel stand in the store stage and pass it
(R174, R386, R671; log entry 16). -/
def State.panelHeaders (s : State) (k : Nat) (d : SDesc) (n : Nat) : Option (List (List Nat)) :=
  if (s.core k).storeBuf.length < 64 * 16384 then none
  else (List.range 64).foldr (fun t o => match o, s.storeUnit k (s.stepOf k) d (n + t + 1) (s.peekStore k (16384 * t) 16384 d.srcFormat) with
    | some l, .ok cv =>
      let p := d.place n
      some ((sealUnit (d.key (s.stepOf k) p.1 p.2.1 t) cv).1 :: l)
    | _, _ => none) (some [])

/-- The transfer of one issue of a STORE over the scheduled plane: where its address places it, and what it carries (R169, R179, R389). -/
def SDesc.straOf (d : SDesc) (n : Nat) (tile : Option Nat) (hdrs : List (List Nat)) (data : List Nat) (scale : Int) : StraTransfer :=
  let a := if d.dst = 5 then d.dstBase + 5 * 2 ^ 29 else d.auxBase
  let sp := bitsAt a 29 3
  let p := d.place n
  { space := sp, array := bitsAt a 27 2, off := (if d.dst = 5 then d.dstBase else a % 2 ^ 27) +
      (if sp = 2 ∧ d.skew then n / 65 * (128 * elemBits d.target + 2) else 0),
    skew := d.skew && sp == 2, fmt := d.target, scale := scale, group := d.groupOff d.target p.1 p.2.1, tile := tile, hdrs := hdrs,
    data := data }

/-- A converted tile written at a STORE's destination (R59, R172, R176–R181, R384, R389, R671). Where its panel's header block has not gone
before it, the tile's header goes with it, and the header block of a fabric panel with the last tile (log entry 16). -/
def State.storeWriteTile (s : State) (k e : Nat) (en : Engine) (d : SDesc) (key : Nat) (wc : Bool) (cv : Converted) : State × Bool :=
  let p := d.place en.issue
  let t := p.2.2 - 1
  let u := sealUnit key cv
  let sent := en.hdrSent
  let g := d.groupOff d.target p.1 p.2.1
  let tr := d.straOf en.issue (some t) (if sent then [] else [u.1]) u.2 cv.hdr.scale
  if d.dst = 5 then (s.straGo k e en [k] d.dstBase u.2.length tr, true)
  else if d.dst = 7 then
    if bitsAt d.auxBase 37 3 = 2 then
      let hdrs := (SMap.get (s.core k).engines e).gathered ++ [u.1]
      let s := s.modCore k fun co => { co with engines := SMap.mod co.engines e fun (x : Engine) =>
        { x with gathered := if t = 63 ∨ sent then [] else hdrs } }
      let a := s.storeFabric k en d.auxBase (g + 2048 + t * tileBytes d.target) wc u.2
      if a.2 ∧ t = 63 ∧ !sent then a.1.storeFabric k en d.auxBase g wc (hdrs.flatMap id) else a
    else (s.straSend k e en d.auxBase u.2.length tr, true)
  else
    let base := s.dstBaseOf k en.ctx d (s.linkD k en.ctx d.linkOut).prodHalf
    if d.dst = 0 then
      let a := base + g + 32 * t
      let b := base + g + 2048 + t * tileBytes d.target
      let q := s.mayWrite2 k en.ctx d.outLink e 0 0 (a, 32) (b, u.2.length)
      (if q.2 then ((q.1.hbmWrite a u.1).hbmWrite b u.2).shared (32 + u.2.length) else q.1, true)
    else (s.feedWrite k en.ctx e base d en.issue key cv, true)

/-- The header-block issue of a STORE (R174, R386, R671): it goes over Stratus or the fabric with the panel's headers, when they are known. -/
def State.storeHeaders (s : State) (k e : Nat) (en : Engine) (d : SDesc) : State × Bool :=
  let hs := if d.dst = 7 then s.panelHeaders k d en.issue else none
  let s := s.modCore k fun co => { co with engines := SMap.mod co.engines e fun (x : Engine) => { x with hdrSent := hs.isSome } }
  if d.dst ≠ 7 then (s, true)
  else if bitsAt d.auxBase 37 3 = 2 then
    match hs with
    | none => (s, true)
    | some l =>
      let p := d.place en.issue
      s.storeFabric k en d.auxBase (d.groupOff d.target p.1 p.2.1)
        ((s.core k).storeBuf.head?.map (·.2.2) |>.getD false) (l.flatMap id)
  else (s.straSend k e en d.auxBase 2048 (d.straOf en.issue none (hs.getD []) [] 0), true)

/-- The cycles that a tile stays in the store stage: 10, or 12 with stochastic rounding, and 8 more for automatic scaling (R130, R369). -/
def storeCycles (d : SDesc) : Nat := (if d.stoch then 12 else 10) + (if d.autoscale then 8 else 0)

/-- What a STORE's tile becomes when it leaves the store stage (R122–R128, R130): written, sent, or refused. -/
def State.storeOut (s : State) (k e : Nat) (en : Engine) (es : List (Nat × Nat × Bool)) : State := s.under k en.ctx en.instr fun s =>
  let d := sdesc en.desc
  let p := d.place en.issue
  let key := d.key en.step p.1 p.2.1 (p.2.2 - 1)
  match s.storeUnit k en.step d en.issue es with
  | .error _ => (s.stopEngine k e 0).fault k 0x04 (some en.ctx) en.instr (p.2.2 - 1)
  | .ok cv =>
    let f := cv.hdr.format
    if d.dst = 5 ∧ f ≠ fcE4M3 ∧ f ≠ fcE5M2 ∧ f ≠ fcBF16 then (s.stopEngine k e 0).fault k 0x04 (some en.ctx) en.instr (p.2.2 - 1)
    else
      let r := (s.countConv k cv).storeWriteTile k e en d key (es.any (·.2.2)) cv
      if r.2 then r.1 else r.1.stopEngine k e 0

/-- One issue of a STORE (R122–R128, R174, R662): a tile's elements enter the store stage, which writes it R369's cycles later. -/
def State.issueStore (s : State) (k e : Nat) (en : Engine) (d : SDesc) : State :=
  let p := d.place en.issue
  let r := if p.2.2 = 0 then s.storeHeaders k e en d
    else
      let x := s.takeStore k d.srcFormat
      (x.2.after (some (x.2.lowest k)) (storeCycles d) (.storeOut k e { en with step := s.stepOf k } x.1), true)
  if !r.2 then r.1.stopEngine k e 0
  else if (SMap.get (r.1.core k).engines e).running then r.1.nextIssue k e (65 * d.panels) d.interval else r.1

/-- Is the reduction unit still reading the companion before (R164, R224)? -/
def State.thinReading (s : State) (k : Nat) : Bool :=
  (s.core k).thinNext.isSome || (match (s.core k).thin with | some t => decide (s.cyc k < t.issuedAt + 2112) | none => false)

/-- A companion that the reduction unit takes: it is read for 2,112 cycles, its selection blocks end 40 cycles after their last bytes, and its
message and residual are released at 2,152, when the next companion may be under way (R164, R224, R227, R283). -/
def State.takeCompanion (s : State) (k e : Nat) (en : Engine) (A h : Nat) (q : List Nat × Nat × Nat × Nat) (rest : List (List Nat × Nat × Nat × Nat)) :
    State :=
  let blocks := (List.range 1024).flatMap fun r => (List.range 32).map fun b => s.compBlock A h r b
  let th : ThinRun := { desc := q.1, k := q.2.1, ctx := q.2.2.1, instr := q.2.2.2, array := A, half := h, blocks := blocks,
                        issuedAt := s.cyc k, satSeen := (s.comp A h).satSeen }
  let s := s.modCore k fun co => if co.thin.isNone then { co with thinQ := rest, thin := some th } else { co with thinQ := rest, thinNext := some th }
  let s := (List.range 256).foldl (fun s j => s.later k (ceilDiv (33 * (j + 1)) 4 + 40) (.selectionBlockDone k j false)) s
  (s.later k 2112 (.handoffComplete k e false)).later k 2152 (.thinnedMessageRelease k)

/-- The first issue of a HANDOFF: the companion meets the oldest thinning descriptor (R164, R166, R227, R276, R283). A resend into the half is
waited for, and a header that does not fit is asked for again once (R161). -/
def State.beginHandoff (s : State) (k e : Nat) (en : Engine) (d : SDesc) : State :=
  let A := 4 * k + d.srcArray
  let h := en.srcBase % 2
  let next := fun (s : State) => s.nextIssue k e (65 * d.panels) d.interval
  if (s.comp A h).st ≠ .handoff then
    match (if (s.comp A h).st = .filling then s.companionResend A else none) with
    | some t => (s.askStage k 0 6 (resendTag t)).again k (.streamIssue k e false)
    | none => (s.stopEngine k e 0).fault k 0x03 (some en.ctx) en.instr (halfExt A (2 + h) (s.comp A h).st.num 3)
  else if s.thinReading k then (s.stopEngine k e 0).fault k 0x0A (some en.ctx) en.instr A
  else match (s.core k).thinQ with
    | [] => (next (s.later k 2112 (.handoffComplete k e false))).fault k 0x01 (some en.ctx) en.instr A
    | q :: rest =>
      let td := tdesc q.1
      let hd := s.compHdr A h
      if headerFits hd td.matrix td.panel td.step then next (s.takeCompanion k e en A h q rest)
      else match en.hdrSent, (s.comp A h).sender with
        | false, some x =>
          let r := s.askHeader k en.ctx en.instr A h x
          let s := r.2.modCore k fun co => { co with engines := SMap.mod co.engines e fun (y : Engine) => { y with hdrSent := true } }
          (s.askStage k 0 6 (resendTag r.1)).again k (.streamIssue k e false)
        | _, _ => (s.stopEngine k e 0).fault k 0x14 (some en.ctx) en.instr (compExt hd 0)

/-- One issue of a GATHER from the fabric (R172, R189, R343, R673): a request for one row to its owner. -/
def State.issueGatherFabric (s : State) (k e : Nat) (en : Engine) (d : SDesc) : State :=
  let index := leNat (s.hbmRead (d.auxBase + 4 * en.issue) 4)
  let n := Config.gatherRowBytes en.desc
  let id := s.nextId
  let content := leBytes 4 1 ++ List.replicate 12 0 ++ leBytes 4 (index * n) ++ leBytes 4 n
  let m := s.toRoute k (bitsAt en.srcBase 29 8) (en.srcBase % 2 ^ 29) 4 0xFFFF content
  let a := s.sendMsg k en.ctx m (s.sendDeadline (s.lowest k)) none
  if !a.2 then a.1.stopEngine k e 0
  else
    let s := a.1.feederPending k en.issue n id
    let w : GatherWait := { msgid := id % 2 ^ 32, core := k, ctx := en.ctx, row := en.issue, owner := m.dest, rowBytes := n, items := 1 }
    ({ s with gathers := s.gathers ++ [w] } : State).nextIssue k e d.auxCount d.interval

/-- One issue of a running engine, by the kind of its descriptor (R172, R174). -/
def State.issueUnit (s : State) (k e : Nat) (en : Engine) (d : SDesc) : State :=
  if d.kind = 1 ∨ d.kind = 2 then s.issueMove k e en d
  else if d.kind = 3 then s.issueInject k e en d
  else if d.kind = 4 then s.issueStore k e en d
  else if d.kind = 5 then (if en.issue = 0 then s.beginHandoff k e en d else s.nextIssue k e (65 * d.panels) d.interval)
  else if d.kind = 6 then (if d.src = 7 then s.issueGatherFabric k e en d else s.issueGather k e en d)
  else s.stopEngine k e 0

/-- STREAM_ISSUE (R174, R175, R194): one issue of a running engine. `upset` says that the read of an SRAM fails its check. -/
def execStreamIssue (k e : Nat) (upset : Bool) (s : State) : Out :=
  let en := SMap.get (s.core k).engines e
  let d := sdesc en.desc
  if !en.running then .next s
  else if upset ∧ d.kind = 5 then .next ((s.stopEngine k e 0).fault k 0x11 (some en.ctx) en.instr (4 * k + d.srcArray))
  else if upset ∧ d.src = 1 then
    let g := (d.srcRanges en.srcBase en.issue).headD (0, 1)
    .next (s.recoverStore k (if d.kind = 1 then 0 else 1) g.1 g.2 1 (.streamIssue k e false))
  else .next (s.under k en.ctx en.instr fun s => s.issueUnit k e en d)

/-- A scheduled-plane transfer into core j's feeder queue: a tile's rows from the row and the byte that the address names on (R59, R389). -/
def State.straFeeder (s : State) (t : StraTransfer) (j : Nat) : State :=
  match t.tile with
  | none => s
  | some u =>
    let row := t.off / 2048
    let pos := t.off % 2048
    let n := 128 * elemBits t.fmt / 8
    if 1024 < row + 128 * (u / 8) + 128 ∨ 2048 < pos + u % 8 * n + n then s.fault t.core 0x06 (some t.ctx) t.instr t.off
    else (s.feederTile j row pos u t.fmt t.scale t.data).endLull (s.lowest j) 0 (feederTag j)

/-- The tile headers that a scheduled-plane transfer carries, with the tile each belongs to: all 64 in a header block (R386). -/
def StraTransfer.heads (t : StraTransfer) : List (Nat × List Nat) :=
  match t.tile with
  | none => t.hdrs.zipIdx.map fun p => (p.2, p.1)
  | some u => t.hdrs.map fun h => (u, h)

/-- One core's part of a scheduled-plane delivery (R154, R169, R173, R179, R184, R386, R392, R663): a header block's 64 headers, or a tile's payload
and the headers that come with it. -/
def State.straPlace (s : State) (t : StraTransfer) (j : Nat) : State :=
  let ctx := some (t.core, t.ctx, t.instr)
  let w := elemBits t.fmt
  if t.space = 5 then s.straFeeder t j
  else if t.space = 2 ∧ t.skew then
    let o := s.outsideMay j 2 t.array t.off (128 * w + 2) ctx
    if !o.2 then o.1
    else
      let q := o.1.receiveCount j 2 t.array t.off (128 * w + 2) (t.data.length + 32 * t.heads.length)
      if q.2 < t.data.length + 32 * t.heads.length then q.1
      else
        let s := t.heads.foldl (fun s h => s.skewHdr (4 * j + t.array) t.off w h.1 h.2) q.1
        match t.tile with
        | some u => s.skewWrite (4 * j + t.array) t.off w u [] (unpackElems w t.data)
        | none => s
  else
    let s := t.heads.foldl (fun s h => (s.placeOutside j t.space t.array t.off (t.group + 32 * h.1) h.2 ctx).1) s
    match t.tile with
    | some u => (s.placeOutside j t.space t.array t.off (t.group + 2048 + u * tileBytes t.fmt) t.data ctx).1
    | none => s

/-- STRATUS_TRANSFER_DELIVERY (R386, R396): the bytes are in every destination core in the same cycle. -/
def execStratusTransferDelivery (id : Nat) (s : State) : Out :=
  match s.stra.find? (fun t => t.id == id) with
  | none => .next s
  | some t => .next (t.cores.foldl (fun s j => s.straPlace t j) { s with stra := s.stra.filter fun x => x.id != id })

end Sys2Proof.Machine
end

