-- ==== Sys2Proof/Machine/Recovery.lean ====
section
/-! DEFINITION. The steps of a recovery: the retry, the source that the recovery table names, the write-back, the verify read and the
hard fault (R483–R493). -/
namespace Sys2Proof.Machine

/-- A recovery by its number. -/
def State.recovery (s : State) (id : Nat) : Option Recovery := s.recoveries.find? fun r => r.id == id
/-- The state with a recovery changed. -/
def State.modRecovery (s : State) (id : Nat) (f : Recovery → Recovery) : State :=
  { s with recoveries := s.recoveries.map fun r => if r.id = id then f r else r }
/-- The state without a recovery. -/
def State.dropRecovery (s : State) (id : Nat) : State := { s with recoveries := s.recoveries.filter fun r => r.id != id }

/-- Whoever waited for a recovery goes on (R483): reads land, a panel's re-injection is tried again, a stage's Lull ends, and a host's
access is served. -/
def State.wake (s : State) (r : Recovery) : State :=
  let s := s.endLull (s.lowest r.core) 0 (recTag r.id)
  let s := r.waiters.foldl (fun s w =>
    if s.reads.any (fun q => q.id == w) then s.laterW 0 (.readLands w false)
    else if (s.transfer w).isSome then s.laterW 0 (.panelReinjected w) else s) s
  let s := if r.remap then s.laterW 0 (.remapUpdate (r.addr / 2 ^ 36) (r.addr % 2 ^ 36 / 256)) else s
  match r.host, r.read, r.write with
  | some h, some (off, n), _ => s.laterW 0 (.bar2Read h off n false)
  | some h, _, some (off, bs) => s.laterW 0 (.bar2Write h off bs)
  | _, _, _ => s

/-- The bytes of a write-back at key `a` of a memory: those that a newer write has covered stay as they stand now (R488). -/
def keepBytes (r : Recovery) (a : Nat) (now good : List Nat) : List Nat :=
  (now.zip good).zipIdx.map fun p =>
    if r.newer.any fun q => decide (q.1 ≤ a + p.2) && decide (a + p.2 < q.1 + q.2) then p.1.1 else p.1.2

/-- Good bytes written back to the failing place at once, but for what a newer write has covered (R483, R488); what a failing line holds up
still waits. -/
def State.writeBack (s : State) (r : Recovery) (a : Nat) (bs : List Nat) : State :=
  let A := 4 * r.core + r.array
  let s := if r.newer.isEmpty then s else s.bump (rMemWbDrop (errStack r.core r.space r.addr)) 1
  if r.space = 2 then
    (chunksOf r.len bs.length bs).zipIdx.foldl (fun s p =>
      s.bankWrite A p.2 a (keepBytes r (lsKey A p.2 a) (s.bankRead A p.2 a p.1.length) p.1)) s
  else if r.space = 0 then { s.hbmWrite a (keepBytes r a (s.hbmRead a bs.length) bs) with heldWrites := s.heldWrites }
  else s.storeWrite r.core a (keepBytes r a (s.storeRead r.core a bs.length) bs)

/-- A recovery that has put the error right (R488, R490, R491, R493); a place of an SRAM that it has written back is kept for the rest of
the step (R499). -/
def State.recovered (s : State) (r : Recovery) (method : Nat) : State :=
  let s := (s.dropRecovery r.id).corrected r.core r.space r.array r.addr (if r.patrol then 4 else r.check) method
  let s : State := if r.check = 2 ∧ method ≠ 0 then { s with supplied := s.supplied ++ [(suppliedKey r.core r.space, r.addr)] } else s
  let s : State := if r.check = 1 ∧ method ≠ 0 then
      { s with writtenBack := s.writtenBack ++ [{ core := r.core, space := r.space, array := r.array, addr := r.addr, len := r.len }] }
    else s
  let s := if method ≠ 0 ∧ r.space = 0 then
      (List.range (ceilDiv r.len 256)).foldl (fun s i =>
        s.laterW 112 (.verifyReadLands (r.addr / 2 ^ 36) (r.addr % 2 ^ 36 / 256 + i) true)) s
    else s
  (if r.space = 0 then s.applyHeld else s).wake r

/-- A recovery whose source fails, or that has none, for a reason of `uncorrDetail` (R483, R492, R493). -/
def State.lost (s : State) (r : Recovery) (reason : Nat) : State :=
  let s := s.dropRecovery r.id
  let s : State := { s with reads := s.reads.filter fun q => !r.waiters.contains q.id }
  let s := if r.space = 0 then s.dropHeld r.addr r.len else s
  (if r.remap then s.maintEnd 2 (r.addr / 2 ^ 36) else s).uncorrectable r reason

/-- The good bytes of a source written back, a tile's header first (R107, R483, R673). -/
def State.supply (s : State) (r : Recovery) (method : Nat) (hdr bs : List Nat) : State :=
  let s := match r.hdr with | some a => (if hdr.isEmpty then s else s.writeBack r a hdr) | none => s
  (s.writeBack r r.addr bs).recovered r method

/-- The gather request of a REPLICA source (R343, R344, R485, R672, R673): one item for a line, two for a tile. It is a send of the owning core,
which a module that is its own peer serves itself; one that no entry governs or that a port does not take leaves the error uncorrectable. -/
def State.askReplica (s : State) (r : Recovery) (e : List Nat) : State :=
  let base := fieldAt e 4 5
  let src := fieldAt e 13 5
  let item := fun (a n : Nat) => leBytes 4 (src + a - base) ++ leBytes 4 n
  let items := match r.hdr with | none => item r.addr r.len | some h => item h 32 ++ item r.addr r.len
  let n := if r.hdr.isNone then 1 else 2
  let m := s.toRoute r.core (fieldAt e 3 1) 0 4 0xFFFF (leBytes 4 n ++ List.replicate 12 0 ++ items)
  let r := { r with entry := e }
  let refused := fun (p : Option Nat) => (match p with | some q => s.bump (rLnkNotAdmitted q) 1 | none => s).lost r 2
  match s.sendDeadline (s.lowest r.core) with
  | none => refused (s.firstPort m.dest)
  | some dl =>
    let f := s.fresh
    let id := f.1 % 2 ^ 32
    let m := { m with src := s.me, deadline := dl, len := m.content.length, msgid := id }
    let w : GatherWait := { msgid := id, core := r.core, owner := m.dest, recovery := some r.id, items := n }
    let wait := fun (s : State) =>
      ({ s with gathers := s.gathers ++ [w] } : State).modRecovery r.id fun x => { x with stage := 1, msgid := some id, entry := e }
    match s.firstPort m.dest with
    | none => wait ((f.2.keepSent { hdr := m, port := 6, core := r.core }).laterW 0 (arrivalCmd 6 m))
    | some p =>
      let h := s.hops s.me m.dest
      match (if s.portTakes r.core p 4 h then f.2.admitFlits p m.content.length h dl else none) with
      | none => refused (some p)
      | some s' => wait ((s'.keepSent { hdr := m, port := p, core := r.core }).queueTx p m)

/-- Wall cycles until a copy has been read (R486). -/
def copyCycles (r : Recovery) (e : List Nat) : Nat :=
  if fieldAt e 18 1 = 1 then 8 + ceilDiv r.len 2048 else if r.len ≤ 256 then 112 else 112 + ceilDiv r.len 3511

/-- Does a range of HBM meet an accumulator or a row table that core k's partition owns (R300, R309, R493)? -/
def State.inAccumulator (s : State) (k a n : Nat) : Bool :=
  let meets := fun (b len : Nat) => decide (a < b + len) && decide (b < a + n)
  (s.part (s.lowest k)).colls.any fun e =>
    let c := cdesc e.2
    c.owner && (if c.kind = 3 then meets c.acc (c.panels * c.slotBytes) || meets c.slot (4 + 4 * c.panels)
      else c.summed && meets c.acc (c.panels * panelBytes))

/-- Does link h of core k feed the reduction unit's residuals (R277)? -/
def State.residualLink (s : State) (k h : Nat) : Bool := (s.link k (h / 128) (h % 128)).consumer == 9

/-- Is the place one that no source may put right (R493): a tile that a source has supplied already, one in the tile queue, a companion half, an
accumulator or a row table, or a thinning residual? -/
def State.noSource (s : State) (r : Recovery) : Bool :=
  (r.check == 2 && (r.hdr.isNone || s.supplied.contains (suppliedKey r.core r.space, r.addr))) ||
    (r.space == 2 && s.halfHit r.core r.array r.addr r.len && decide (2 ≤ s.halfAt r.core r.array r.addr r.len)) ||
    (r.space == 0 && s.inAccumulator r.core r.addr r.len) ||
    (s.linkHits r.core r.space r.array r.addr r.len).any (s.residualLink r.core) ||
    (s.reads.any fun q => r.waiters.contains q.id && decide (q.link < 128) && s.residualLink q.core (linkKey q.ctx q.link))

/-- The lookup in the core's recovery table after a failed retry (R483–R487, R493). -/
def State.lookup (s : State) (r : Recovery) : State :=
  if s.noSource r then s.lost r 3
  else match s.recoveryEntry r.core r.space r.array r.addr with
    | none => s.lost r 0
    | some e =>
      let kind := fieldAt e 0 1
      if kind = 1 then s.askReplica r e
      else if kind = 2 then
        (s.modRecovery r.id fun x => { x with stage := 2, entry := e }).laterW (copyCycles r e) (.copyReadLands r.id true)
      else if kind = 3 then
        (s.modRecovery r.id fun x => { x with stage := 3, entry := e }).laterW 1612 (.recomputeDone r.id true)
      else s.lost { r with entry := e } 1

/-- A tile-queue tile's checksum, verified under the tile key 0 (R211). -/
def TqTile.ok (t : TqTile) : Bool := checksumOk 0 t.sealed (packElems (elemBits t.hdr.format) t.elems)

/-- Does a tile, or a residual block with its check word behind it, that failed its checksum pass it on the retry, which reads all of it again
(R107, R211, R277, R278, R483)? -/
def State.retryOk (s : State) (r : Recovery) : Bool :=
  let get := fun (a n : Nat) => if r.space = 0 then s.hbmRead a n else s.storeRead r.core a n
  if r.check ≠ 2 then true
  else if r.space = 3 then (((s.core r.core).tq[r.addr]?).map TqTile.ok).getD false
  else match r.hdr with
    | some h => checksumOk r.key (get h 32) (get r.addr r.len)
    | none => leNat (get (r.addr + r.len - 8) 8) == fletcher (r.key :: wordsOf (get r.addr (r.len - 8)))

/-- RETRY_LANDS (R483): the same bytes read once more. A line whose stored check does not match, or a tile whose checksum does not, fails
again, and is counted again. -/
def execRetryLands (id : Nat) (ok : Bool) (s : State) : Out :=
  match s.recovery id with
  | none => .next s
  | some r =>
    if r.stage ≠ 0 then .next s
    else if ok && !(r.space == 0 && s.hbmBad r.addr r.len) && s.retryOk r then .next (s.recovered r 0)
    else .next ((s.countCheck r.core r.space r.addr r.check).lookup r)

/-- COPY_READ_LANDS (R486): the copy's bytes serve the reader and go back. `ok` says that the copy passes its own checks. -/
def execCopyReadLands (id : Nat) (ok : Bool) (s : State) : Out :=
  match s.recovery id with
  | none => .next s
  | some r =>
    let e := r.entry
    let src := fieldAt e 13 5
    let base := fieldAt e 4 5
    let hbm := fieldAt e 18 1 == 0
    let get := fun (a n : Nat) => if hbm then s.hbmRead (src + a - base) n else s.storeRead r.core (src + a - base) n
    if r.stage ≠ 2 then .next s
    else if !ok || (hbm && s.hbmBad (src + r.addr - base) r.len) then .next (s.lost r 2)
    else if r.space = 2 then
      let ln := fieldAt e 9 4
      let one := fun (i : Nat) => let a := src + i * ln + (r.addr - base)
        if hbm then s.hbmRead a r.len else s.storeRead r.core a r.len
      .next (s.supply r 2 [] ((List.range 1024).flatMap one))
    else .next (s.supply r 2 ((r.hdr.map fun h => get h 32).getD []) (get r.addr r.len))

/-- Where panel q of a FEED's destination lies: its first place and its length, in the destination's own units (R177, R179). -/
def SDesc.blockRange (d : SDesc) (base q : Nat) : Nat × Nat :=
  let w := elemBits d.target
  if d.dst = 2 ∧ d.skew then (base + q * (128 * w + 2), 128 * w + 2)
  else
    let p := d.place (65 * q)
    let m := d.groupOff d.target p.1 p.2.1
    if d.dst = 2 then (base + m / 1024, ceilDiv (groupBytes d.target) 1024) else (base + m, groupBytes d.target)

/-- A BFP16 unit moved unchanged to a FEED's destination in the core store (R128, R661). -/
def State.bfpPlace (s : State) (k base : Nat) (d : SDesc) (n : Nat) (bs : List Nat) : State :=
  (({ d with srcFormat := fcBFP16 } : SDesc).srcRanges base n).foldl (fun (p : State × List Nat) r =>
    (p.1.storeWrite k r.1 (p.2.take r.2), p.2.drop r.2)) (s, bs) |>.1

/-- One unit of a FEED run again by the repair engine, counted in the convert stage as ever (R98, R121, R487). -/
def State.repairUnit (s : State) (k base src : Nat) (d : SDesc) (n : Nat) : Option State :=
  let p := d.place n
  if p.2.2 = 0 then some (if d.target = fcBFP16 then s.bfpPlace k base d n (s.unitBytes k d src n) else s)
  else
    let key := d.key (s.stepOf k) p.1 p.2.1 (p.2.2 - 1)
    let bs := s.unitBytes k d src n
    if d.srcFormat = fcBFP16 then
      let qs := blocksOf bs
      if !(qs.all BfpBlock.ok) then none
      else if d.target = fcBFP16 then some (s.bfpPlace k base d n bs)
      else some (s.feedPlace k base d n key
        { hdr := { format := fcFP32 }, elems := qs.flatMap fun b => (List.range 32).map fun i => toF32 (b.val i) })
    else match convertTile key d.srcFormat d.format (d.dst == 2) (fun i => s.expDesc k (d.expBase + i)) (s.unitHeader k d src n) bs with
      | .ok cv => some ((s.countConv k cv).feedPlace k base d n key cv)
      | .error _ => none

/-- What a RECOMPUTE source runs again (R487): the FEED's descriptor, the bases of its source and destination, and the panel of it that holds the
failing place. -/
def State.recomputeOf (s : State) (r : Recovery) : Option (SDesc × Nat × Nat × Nat) :=
  let k := r.core
  let d := sdesc (s.streamDesc k (fieldAt r.entry 19 2))
  let c := ((List.range 8).find? fun c => (s.link k c d.linkOut).halves != 0).getD 0
  let has := fun (h q : Nat) => let g := d.blockRange (s.dstBaseOf k c d h) q; decide (g.1 ≤ r.addr) && decide (r.addr < g.1 + g.2)
  let h := if (List.range d.panels).any (has 0) then 0 else 1
  ((List.range d.panels).find? (has h)).map fun q => (d, s.srcBaseOf k c d, s.dstBaseOf k c d h, q)

/-- Does a line of the source of panel q fail its check (R480, R487)? -/
def State.sourceBad (s : State) (d : SDesc) (src q : Nat) : Bool :=
  d.src == 0 && (List.range 65).any fun u => (d.srcRanges src (65 * q + u)).any fun g => s.hbmBad g.1 g.2

/-- Panel q of a FEED run again by the repair engine (R487). -/
def State.repairPanel (s : State) (k base src : Nat) (d : SDesc) (q : Nat) : Option State :=
  (List.range 65).foldl (fun (o : Option State) u => match o with
    | none => none
    | some s => s.repairUnit k base src d (65 * q + u)) (some s)

/-- RECOMPUTE_DONE (R487): the FEED that wrote the range has run again for the panel that holds the failing place. `ok` says that its source
passes its checks. -/
def execRecomputeDone (id : Nat) (ok : Bool) (s : State) : Out :=
  match s.recovery id with
  | none => .next s
  | some r =>
    if r.stage ≠ 3 then .next s
    else match s.recomputeOf r with
      | none => .next (s.lost r 2)
      | some (d, src, base, q) =>
        if !ok || s.sourceBad d src q then .next (s.lost r 2)
        else match s.repairPanel r.core base src d q with
          | none => .next (s.lost r 2)
          | some s' => .next (s'.recovered r 3)

/-- VERIFY_READ_LANDS (R491, R496, R497, R510): a line that still fails after its write-back is a hard fault, counted and captured with the check
code of a verify, whose METHOD is free (log entry 106). -/
def execVerifyReadLands (st line : Nat) (ok : Bool) (s : State) : Out :=
  let a := st * 2 ^ 36 + line * 256
  if ok && !s.hbmBad a 256 then .next s
  else
    let d := s.draw 3
    .next (((d.2.countCheck (st / 2) 0 a 0).captureErr (st / 2) 0 0 a 3 d.1).askRemap st line)

end Sys2Proof.Machine
end

