-- ==== Sys2Proof/Machine/Vector.lean ====
section
/-! DEFINITION. The vector engine: operand formats, the operations, the lane tree and the issue of a vector descriptor (R206–R223,
R228–R233). -/
namespace Sys2Proof.Machine

/-- The canonical FP32 NaN (R48). -/
def nanF32 : Nat := fmtFP32.qnan
/-- The FP32 infinity of a sign. -/
def infF32 (neg : Bool) : Nat := fmtFP32.encode (.inf neg)
/-- The FP32 code of 1. -/
def oneF32 : Nat := 0x3F800000

/-- EXP (R219, R220). -/
def vExp (a : Nat) : Nat :=
  match f32 a with
  | .nan _ => nanF32
  | .inf n => if n then 0 else infF32 false
  | .fin n m e => if m = 0 then oneF32 else nearF32 0x10 a (expVal (FVal.fix 200 (.fin n m e)))

/-- LOG (R219, R220). -/
def vLog (a : Nat) : Nat :=
  match f32 a with
  | .nan _ => nanF32
  | .inf n => if n then nanF32 else infF32 false
  | .fin n m e => if m = 0 then infF32 true else if n then nanF32 else nearF32 0x11 a (fixVal (lnFix m e) 0)

/-- RECIP (R219, R220). -/
def vRecip (a : Nat) : Nat :=
  match f32 a with
  | .nan _ => nanF32
  | .inf n => fmtFP32.signBit n
  | .fin n m e => if m = 0 then infF32 n else nearF32 0x12 a (oneVal.div (.fin n m e))

/-- SQRT (R219, R220). -/
def vSqrt (a : Nat) : Nat :=
  match f32 a with
  | .nan _ => nanF32
  | .inf n => if n then nanF32 else infF32 false
  | .fin n m e => if m = 0 then fmtFP32.signBit n else if n then nanF32 else nearF32 0x13 a (FVal.sqrt (.fin n m e))

/-- RSQRT (R219, R220). -/
def vRsqrt (a : Nat) : Nat :=
  match f32 a with
  | .nan _ => nanF32
  | .inf n => if n then nanF32 else 0
  | .fin n m e => if m = 0 then infF32 n else if n then nanF32 else nearF32 0x14 a (oneVal.div (FVal.sqrt (.fin n m e)))

/-- TANH (R219, R220). -/
def vTanh (a : Nat) : Nat :=
  match f32 a with
  | .nan _ => nanF32
  | .inf n => fmtFP32.signBit n + oneF32
  | .fin n m e => if m = 0 then fmtFP32.signBit n else nearF32 0x15 a (tanhVal (.fin n m e))

/-- SIGMOID (R219, R220). -/
def vSigmoid (a : Nat) : Nat :=
  match f32 a with
  | .nan _ => nanF32
  | .inf n => if n then 0 else oneF32
  | .fin n m e => if m = 0 then 0x3F000000 else nearF32 0x16 a (sigmoidVal (.fin n m e))

/-- GELU (R219, R220); at −∞ the formula of R219 multiplies −∞ by 0 (log entry 19). -/
def vGelu (a : Nat) : Nat :=
  match f32 a with
  | .nan _ => nanF32
  | .inf n => if n then nanF32 else infF32 false
  | .fin n m e => if m = 0 then fmtFP32.signBit n else nearF32 0x17 a (geluVal (.fin n m e))

/-- Is the first FP32 value below the second, with −0 below +0? -/
def f32Below (a b : Nat) : Bool :=
  let x := f32 a
  let y := f32 b
  if x.isZero && y.isZero then x.sign && !y.sign else x.lt y

/-- MAX of two FP32 codes (R220). -/
def maxF32 (a b : Nat) : Nat :=
  if (f32 a).isNan || (f32 b).isNan then nanF32 else if f32Below a b then b else a

/-- MIN of two FP32 codes (R220). -/
def minF32 (a b : Nat) : Nat :=
  if (f32 a).isNan || (f32 b).isNan then nanF32 else if f32Below a b then a else b

/-- One operation on FP32 codes (R219, R220); SELECT gives a or b, as the table of R219 says (log entry 97). -/
def floatOp (op a b c : Nat) : Nat :=
  if op = 0x01 then addF32 a b else if op = 0x02 then subF32 a b else if op = 0x03 then mulF32 a b
  else if op = 0x04 then fmaF32 a b c else if op = 0x05 then maxF32 a b else if op = 0x06 then minF32 a b
  else if op = 0x07 then toF32 (f32 a).abs else if op = 0x08 then toF32 (f32 a).neg else if op = 0x09 then toF32 (f32 a)
  else if op = 0x0A then (if (f32 c).isZero then toF32 (f32 b) else toF32 (f32 a))
  else if op = 0x0B then (if (f32 b).lt (f32 a) then oneF32 else 0)
  else if op = 0x10 then vExp a else if op = 0x11 then vLog a else if op = 0x12 then vRecip a else if op = 0x13 then vSqrt a
  else if op = 0x14 then vRsqrt a else if op = 0x15 then vTanh a else if op = 0x16 then vSigmoid a else vGelu a

/-- One operation on integers, exact (R219, R221; log entry 97). -/
def intOp (op : Nat) (a b c : Int) : Int :=
  if op = 0x01 then a + b else if op = 0x02 then a - b else if op = 0x03 then a * b
  else if op = 0x05 then max a b else if op = 0x06 then min a b else if op = 0x07 then (a.natAbs : Int)
  else if op = 0x08 then -a else if op = 0x09 then a else if op = 0x0A then (if c ≠ 0 then a else b)
  else (if b < a then 1 else 0)

/-- Is a compute format a floating-point one (R213)? -/
def cfmtFloat (f : Nat) : Bool := decide (f < 2)

/-- The FP32 code of an operand element of a format (R216). -/
def widen (fmt code : Nat) : Nat := if fmt = 1 then code % 65536 * 65536 else code

/-- One result element in CFMT, and whether it saturated (R216, R220, R221). -/
def elementOp (op cfmt : Nat) (x y z : Nat × Nat) : Nat × Bool :=
  if cfmtFloat cfmt then
    let r := floatOp op (widen x.1 x.2) (widen y.1 y.2) (widen z.1 z.2)
    (if cfmt = 1 then fmtBF16.encode (f32 r) else r, false)
  else
    let v := fun (p : Nat × Nat) => signedOf (if p.1 = 3 then 8 else 32) p.2
    let s := satInt (if cfmt = 3 then 8 else 32) (intOp op (v x) (v y) (v z))
    (s.1, s.2 != 0)

/-- VCLK cycles per pass (R219). -/
def opCycles (op : Nat) : Nat := if op < 0x10 then 1 else if op < 0x15 then 2 else 3

/-- Elements per pass (R217). -/
def passLen (cfmt : Nat) : Nat := if cfmt = 1 ∨ cfmt = 3 then 4096 else 2048

/-- The passes of a descriptor (R217). -/
def VDesc.passes (d : VDesc) : Nat := (d.n1 + 1) * (d.n2 + 1) * ceilDiv (d.n0 + 1) (passLen d.cfmt)

/-- The VCLK cycles of a descriptor (R218). -/
def VDesc.vclk (d : VDesc) : Nat := (if d.redOp = 0 then 12 else 20) + d.passes * opCycles d.op

/-- The first byte of the vector store within the core store (R168). -/
def vstore : Nat := 0x800000

/-- The core-store address of an inner row of an operand or result: rows are numbered in loop order (R214). -/
def VDesc.rowAddr (d : VDesc) (base : Nat) (s1 s2 : Nat) (row : Nat) : Nat :=
  let i1 : Int := row % (d.n1 + 1)
  let i2 : Int := row / (d.n1 + 1)
  (((vstore : Nat) : Int) + 4 * ((base : Int) + i1 * d.strides.getD s1 0 + i2 * d.strides.getD s2 0)).toNat

/-- The elements of one inner row of an operand: its format and codes (R213–R216). -/
def State.operandRow (s : State) (k : Nat) (d : VDesc) (src fmt base s1 s2 row : Nat) (tiles : List Nat) : List (Nat × Nat) :=
  let n := d.n0 + 1
  if src = 1 then
    let w := cfmtBytes fmt
    (chunksOf w n (s.storeRead k (d.rowAddr base s1 s2 row) (w * n))).map fun b => (fmt, leNat b)
  else if src = 2 then (slice tiles (row * n) n).map fun e => (fmt, e)
  else if src = 3 then List.replicate n (if cfmtFloat d.cfmt then 0 else 2, d.scalar)
  else List.replicate n (d.cfmt, 0)

/-- The result elements of one inner row (R214–R221). -/
def State.resultRow (s : State) (k : Nat) (d : VDesc) (row : Nat) (tiles : List Nat) : List (Nat × Bool) :=
  let a := s.operandRow k d d.asrc d.afmt d.abase 0 1 row tiles
  let b := s.operandRow k d d.bsrc d.bfmt d.bbase 2 3 row tiles
  let c := s.operandRow k d d.csrc d.cfm d.cbase 4 5 row tiles
  (List.range (d.n0 + 1)).map fun i => elementOp d.op d.cfmt (a.getD i (0, 0)) (b.getD i (0, 0)) (c.getD i (0, 0))

/-- INT32 addition and multiplication that saturate (R222). -/
def satI32 (z : Int) : Nat := (satInt 32 z).1

/-- One combining step of the lane tree (R222): 1 SUM, 2 SUMSQ, 3 MAX, 4 MIN, 5 AMAX. -/
def redCombine (redOp : Nat) (fl : Bool) (a b : Nat) : Nat :=
  if fl then (if redOp = 1 ∨ redOp = 2 then addF32 a b else if redOp = 4 then minF32 a b else maxF32 a b)
  else
    let x := signedOf 32 a
    let y := signedOf 32 b
    if redOp = 1 ∨ redOp = 2 then satI32 (x + y) else if redOp = 4 then codeOf 32 (min x y) else codeOf 32 (max x y)

/-- What the lane tree takes from one result element (R222). -/
def redLane (redOp cfmt code : Nat) : Nat :=
  if cfmtFloat cfmt then
    let f := widen cfmt code
    if redOp = 2 then mulF32 f f else if redOp = 5 then toF32 (f32 f).abs else f
  else
    let x := signedOf (if cfmt = 3 then 8 else 32) code
    if redOp = 2 then satI32 (x * x) else if redOp = 5 then satI32 (x.natAbs : Int) else codeOf 32 x

/-- The running value of the lane tree over a row's passes, in pass order (R222). -/
def redRow (d : VDesc) (run : Option Nat) (row : List Nat) : Option Nat :=
  (chunksOf (passLen d.cfmt) row.length row).foldl (fun r p =>
    let v := treeOf (redCombine d.redOp (cfmtFloat d.cfmt)) p.length (p.map (redLane d.redOp d.cfmt))
    match r with | none => some v | some x => some (redCombine d.redOp (cfmtFloat d.cfmt) x v)) run

/-- The reduction words of a descriptor's result rows (R222, R223). -/
def redWords (d : VDesc) (rows : List (List Nat)) : List Nat :=
  if d.redOp = 0 then []
  else if d.redScope then ((rows.foldl (fun r row => redRow d r row) none).map fun v => [v]).getD []
  else rows.map fun row => (redRow d none row).getD 0

/-- The tile-queue tiles that a descriptor reads (R209, R215). -/
def VDesc.tileCount (d : VDesc) : Nat :=
  if d.asrc = 2 ∨ d.bsrc = 2 ∨ d.csrc = 2 then ceilDiv ((d.n0 + 1) * (d.n1 + 1) * (d.n2 + 1)) 16384 else 0

/-- The format declared for the tile-queue operand. -/
def VDesc.tileFmt (d : VDesc) : Nat := cfmtCode (if d.asrc = 2 then d.afmt else if d.bsrc = 2 then d.bfmt else d.cfm)

/-- The ACLK cycles from a descriptor's issue to the pass that first needs tile t (R206, R210, R217; log entry 18). -/
def VDesc.needAt (d : VDesc) (t : Nat) : Nat :=
  let e := t * 16384
  let n := d.n0 + 1
  (e / n * ceilDiv n (passLen d.cfmt) + e % n / passLen d.cfmt) * opCycles d.op / 2

/-- The vector engine made busy with a descriptor of some passes and `tail` VCLK cycles after the last (R218, R233). Its cycles and passes are
counted as they go by. -/
def State.beginVector (s : State) (k c idx vclk tail passes tiles : Nat) (desc : List Nat) (writesL : Bool) : State :=
  let run : VecRun := { ctx := c, instr := (s.ctx k c).cmdIndex, index := idx, issuedAt := s.cyc k, vclk := vclk, tiles := tiles,
                        writesL := writesL, passes := passes, tail := tail }
  let s := s.modCore k fun co => { co with vec := some run, update := desc }
  let s := (s.setFld (rVecStatus k) 63 63 1).setFld (rVecStatus k) 10 0 idx
  s.later k (ceilDiv vclk 2) (.vectorDescriptorComplete k)

/-- Consumer acquire of a link the engine reads, if it names one (R183, R232). -/
def State.acquireIn (s : State) (k c link stage : Nat) : State × Acq :=
  if link = 255 then (s, .ok) else s.acquireCons k c link 8 stage

/-- The result rows written where D_DST says, each behind its ownership check (R184, R213, R214, R232). -/
def State.writeRows (s : State) (k c : Nat) (d : VDesc) (rows : List (List Nat)) : State :=
  let w := cfmtBytes d.cfmt
  if d.ddst = 2 then s.modCore k fun co =>
    { co with storeBuf := co.storeBuf ++ rows.flatMap fun r => r.map fun e => (e, cfmtCode d.cfmt, false) }
  else if d.ddst = 1 then
    (rows.zipIdx.foldl (fun (q : State × Bool) r =>
      if !q.2 then q
      else
        let a := d.rowAddr d.dbase 6 7 r.2
        let m := q.1.mayWrite k c d.linkOut 8 1 0 a (w * (d.n0 + 1))
        (if m.2 then m.1.storeWrite k a (r.1.flatMap fun e => leBytes w e) else m.1, m.2)) (s, true)).1
  else s

/-- The reduction words written from RED_BASE on (R223). -/
def State.writeRed (s : State) (k c : Nat) (d : VDesc) (ws : List Nat) : State :=
  if ws.isEmpty then s
  else
    let a := vstore + 4 * d.redBase
    let m := s.mayWrite k c d.linkOut 8 1 0 a (4 * ws.length)
    if m.2 then m.1.storeWrite k a (ws.flatMap fun v => leBytes 4 v) else m.1

/-- The VCLK cycles after a vector descriptor's last pass (R218). -/
def VDesc.tail (d : VDesc) : Nat := if d.redOp = 0 then 12 else 20

/-- The results of a vector descriptor, its saturations and its reduction words, from the tiles at the head of the queue (R214–R223). -/
def State.vectorResults (s : State) (k c : Nat) (d : VDesc) : State :=
  let tiles := ((s.core k).tq.take d.tileCount).flatMap fun t => t.elems
  let rows := (List.range ((d.n1 + 1) * (d.n2 + 1))).map fun r => s.resultRow k d r tiles
  let sat := rows.foldl (fun n r => n + r.countP (·.2)) 0
  let codes := rows.map fun r => r.map (·.1)
  ((s.bump (rVecIntSat k) sat).writeRows k c d codes).writeRed k c d (redWords d codes)

/-- A vector descriptor that runs (R210, R214–R223): its results are formed when all its tiles are in the queue, and each tile that is not there
yet is looked for at the pass that needs it. -/
def State.runVector (s : State) (k c idx : Nat) (d : VDesc) (desc : List Nat) : State :=
  let nt := d.tileCount
  let have_ := ((s.core k).tq.take nt).length
  let s := s.beginVector k c idx d.vclk d.tail d.passes nt desc false
  if nt ≤ have_ then s.vectorResults k c d
  else (List.range (nt - have_)).foldl (fun s i =>
    s.after (some (s.lowest k)) (d.needAt (have_ + i)) (.vectorTile k c idx (have_ + i))) s

/-- A vector descriptor that its tiles fail: the engine is free again and a fault is raised (R210, R211). -/
def State.vectorStops (s : State) (k c code idx : Nat) : State :=
  ((s.modCore k fun co => { co with vec := none }).setFld (rVecStatus k) 63 63 0).faultCtx k c code idx

/-- The pass that needs a tile which had not entered at issue (R209–R211): it is readable by now, or the descriptor does not run; with the last
tile the results are formed. -/
def State.vectorTile (s : State) (k c idx tile : Nat) : State :=
  match (s.core k).vec with
  | none => s
  | some r => s.under k c r.instr fun s =>
    let d := vdesc (s.core k).update
    match (s.core k).tq[tile]? with
    | none => s.vectorStops k c 0x01 idx
    | some t =>
      if s.cyc k < t.enteredAt + 24 then s.vectorStops k c 0x01 idx
      else if !t.ok then s.beginRecovery k 3 0 tile 1 2 none false none none
      else if t.hdr.format ≠ d.tileFmt then s.vectorStops k c 0x04 idx
      else if tile + 1 < d.tileCount then s
      else s.vectorResults k c d

/-- A tile that fails its checksum as the vector engine reads it (R211, R377, R483, R493): the retry reads it again, and the command runs once
more when its Lull has ended. -/
def State.retryTile (s : State) (k slot : Nat) (i : Instr) : State :=
  let s := s.beginRecovery k 3 0 slot 1 2 none false none none
  match s.samePlace k 3 0 slot 1 with
  | some r => (s.askStage k 4 6 (recTag r.id)).again k i
  | none => s

/-- VECTOR_DESCRIPTOR (R206–R223): the checks in turn (a busy engine, the tile queue, its checksums and formats, the link), then the
descriptor runs. `upset` says that the first read of a tile fails its checksum. -/
def execVectorDescriptor (k c idx : Nat) (upset : Bool) (s : State) : Out :=
  let desc := s.vectorDesc k idx
  let d := vdesc desc
  let nt := d.tileCount
  let tiles := (s.core k).tq.take nt
  if (s.core k).vec.isSome then .next (s.faultCtx k c 0x0A idx)
  else if (decide (0 < nt) && tiles.isEmpty) ||
      tiles.zipIdx.any (fun t => decide (s.cyc k + d.needAt t.2 < t.1.enteredAt + 24)) then
    .next (s.faultCtx k c 0x01 idx)
  else if upset && !tiles.isEmpty then .next (s.retryTile k 0 (.vectorDescriptor k c idx false))
  else if tiles.any (fun t => !t.ok) then
    .next (s.retryTile k (tiles.takeWhile TqTile.ok).length (.vectorDescriptor k c idx false))
  else if tiles.any (fun t => t.hdr.format != d.tileFmt) then .next (s.faultCtx k c 0x04 idx)
  else
    let a := s.acquireIn k c d.linkIn 4
    match a.2 with
    | .stop => .next a.1
    | .wait => .next (a.1.again k (.vectorDescriptor k c idx upset))
    | .ok => .next (a.1.runVector k c idx d desc)

end Sys2Proof.Machine
end

