-- ==== Sys2Proof/Machine/Schedule.lean ====
section
/-! DEFINITION. The schedule engine: binary64 arithmetic, the learning rate and the factors of a set and step, staged parameters and
kept results (R263–R269, R271). -/
namespace Sys2Proof.Machine

/-- A binary64 code's value. -/
def d64 (c : Nat) : FVal := fmtFP64.decode c
/-- A value rounded to binary64, to nearest-even (R263). -/
def to64 (v : FVal) : Nat := fmtFP64.encode v
/-- Binary64 addition (R263). -/
def add64 (a b : Nat) : Nat := to64 (.add (d64 a) (d64 b))
/-- Binary64 subtraction (R263). -/
def sub64 (a b : Nat) : Nat := to64 (.add (d64 a) (d64 b).neg)
/-- Binary64 multiplication (R263). -/
def mul64 (a b : Nat) : Nat := to64 (.mul (d64 a) (d64 b))
/-- Binary64 division (R263). -/
def div64 (a b : Nat) : Nat := to64 (.div (d64 a) (d64 b))
/-- Is one binary64 value at least another? False when either is a NaN. -/
def ge64 (a b : Nat) : Bool := !(d64 a).isNan && !(d64 b).isNan && !(d64 a).lt (d64 b)
/-- The larger of two binary64 codes. -/
def max64 (a b : Nat) : Nat := if (d64 a).lt (d64 b) then b else a
/-- The smaller of two naturals as a binary64 code. -/
def nat64 (n : Nat) : Nat := to64 (.ofInt (n : Int))
/-- An FP32 code widened to binary64, exactly. -/
def wide64 (c : Nat) : Nat := to64 (f32 c)
/-- A binary64 code rounded once to FP32 (R263). -/
def narrow64 (c : Nat) : Nat := toF32 (d64 c)
/-- The binary64 code of 1. -/
def one64 : Nat := nat64 1
/-- The binary64 code nearest to π. -/
def pi64 : Nat := 0x400921FB54442D18
/-- The binary64 code of cos(π × x) (R263). -/
def cosPi (x : Nat) : Nat := cos64 (mul64 pi64 x)

/-- A schedule set's parameters (R271). -/
structure SchSet where
  warmup : Nat
  milestones : Nat
  mult : Nat
  decay : Nat
  warm : Nat
  peak : Nat
  floor : Nat
  start : Nat
  gamma : Nat
  p0 : Nat
  isqrtK : Nat
  beta1 : Nat
  beta2 : Nat
  eps : Nat
  lambda : Nat
  t0 : Nat
  miles : List Nat
deriving DecidableEq, Repr

/-- The parameters that the registers of set j hold (R271). -/
def State.schSet (s : State) (k j : Nat) : SchSet :=
  let c := rSchCtrl k j
  { warmup := s.fld c 63 32, milestones := s.fld c 15 12, mult := s.fld c 11 8, decay := s.fld c 7 4, warm := s.fld c 1 0,
    peak := s.fld (rSchLr k j) 63 32, floor := s.fld (rSchLr k j) 31 0, start := s.fld (rSchLrStart k j) 63 32,
    gamma := s.fld (rSchLrStart k j) 31 0, p0 := s.fld (rSchPeriod k j) 63 32, isqrtK := s.fld (rSchPeriod k j) 31 0,
    beta1 := s.fld (rSchBeta k j) 63 32, beta2 := s.fld (rSchBeta k j) 31 0, eps := s.fld (rSchEps k j) 63 32,
    lambda := s.fld (rSchEps k j) 31 0, t0 := (s.reg (rSchT0 k j)).toNat,
    miles := (List.range 8).map fun i => s.fld (rSchMilestone k j i) 31 0 }

/-- The place within a restart cycle and the cycle's length (R264); the fuel bounds the cycles of a growing length. -/
def restart (mult : Nat) : Nat → Nat → Nat → Nat × Nat
  | 0, d, p => (d, p)
  | n + 1, d, p => if p ≤ d ∧ 0 < p then restart mult n (d - p) (p * mult) else (d, p)

/-- The place p and the length P of the decay at d steps after the warm-up (R264). -/
def SchSet.cycle (q : SchSet) (d : Nat) : Nat × Nat :=
  if q.mult = 0 ∨ q.p0 = 0 then (d, q.p0) else if q.mult = 1 then (d % q.p0, q.p0) else restart q.mult 65 d q.p0

/-- The decay kinds (R265), in binary64. -/
def SchSet.decayed (q : SchSet) (p len : Nat) : Nat :=
  let e := wide64 q.peak
  let f := wide64 q.floor
  if q.decay = 0 then e
  else if q.decay = 1 then
    if len = 0 then e
    else add64 f (mul64 (sub64 e f) (max64 0 (sub64 one64 (div64 (nat64 p) (nat64 len)))))
  else if q.decay = 2 then
    if len = 0 then e
    else add64 f (div64 (mul64 (sub64 e f) (add64 one64 (cos64 (div64 (mul64 pi64 (nat64 (min p len))) (nat64 len))))) (nat64 2))
  else if q.decay = 3 then
    let k := max 1 q.isqrtK
    mul64 e (sqrt64 (div64 (nat64 k) (nat64 (k + p))))
  else
    let n := if q.decay = 4 then p else (q.miles.take q.milestones).countP fun m => decide (m ≤ p)
    max64 f (mul64 e (pow64 (wide64 q.gamma) (nat64 n)))

/-- The step number with its offset, at least 1 (R264). -/
def SchSet.tb (q : SchSet) (t : Nat) : Nat := max (t - q.t0) 1

/-- The learning rate of step t, in binary64 (R264). -/
def SchSet.eta (q : SchSet) (t : Nat) : Nat :=
  let u := q.tb t - 1
  let w := if q.warm = 0 then 0 else q.warmup
  if u < w then
    let x := div64 (nat64 (u + 1)) (nat64 w)
    let h := if q.warm = 1 then x else div64 (sub64 one64 (cosPi x)) (nat64 2)
    add64 (wide64 q.start) (mul64 (sub64 (wide64 q.peak) (wide64 q.start)) h)
  else
    let c := q.cycle (u - w)
    q.decayed c.1 c.2

/-- A set's bias-correction factor for a decay rate β: 1 ÷ (1 − β^t_b) (R266). -/
def biasOf (beta tb : Nat) : Nat :=
  narrow64 (div64 one64 (sub64 one64 (pow64 (wide64 beta) (nat64 tb))))

/-- What an update descriptor takes from the schedule engine (R242, R266), as FP32 codes. -/
structure SchOut where
  eta : Nat
  kd : Nat
  c1 : Nat
  c2 : Nat
  r1 : Nat
  r2 : Nat
  lnb2 : Nat
  beta1 : Nat
  beta2 : Nat
  eps : Nat
deriving DecidableEq, Repr

/-- The staged writes of a set entered into its registers (R268). -/
def State.enterStaged (s : State) (k j : Nat) : State :=
  let mine := fun (p : Nat × Option Word) => decide (rSchCtrl k j ≤ p.1) && decide (p.1 < rSchCtrl k j + 0x100)
  let st := (s.core k).schStaged
  (st.filter mine).foldl (fun s p => s.setReg p.1 (p.2.getD 0)) (s.modCore k fun co => { co with schStaged := st.filter fun p => !mine p })

/-- A new computation for a set and a step (R266–R268): the staged writes enter, and the results are kept in SCH_OUT. -/
def State.schCompute (s : State) (k j t : Nat) : State :=
  let s := s.enterStaged k j
  let q := s.schSet k j
  let e := q.eta t
  let two := fun (hi lo : Nat) => BitVec.ofNat 64 (hi % 2 ^ 32 * 2 ^ 32 + lo % 2 ^ 32)
  let s := s.setReg (rSchOutStep k j) (BitVec.ofNat 64 t)
  let s := s.setReg (rSchOutLr k j) (two (narrow64 e) (narrow64 (sub64 one64 (mul64 e (wide64 q.lambda)))))
  let s := s.setReg (rSchOutBc k j) (two (biasOf q.beta1 (q.tb t)) (biasOf q.beta2 (q.tb t)))
  let s := s.setReg (rSchOutC k j) (two (narrow64 (sub64 one64 (wide64 q.beta1))) (narrow64 (sub64 one64 (wide64 q.beta2))))
  let s := s.setReg (rSchOutLnb2 k j) (two 0 (narrow64 (ln64 (wide64 q.beta2))))
  s.modCore k fun co => { co with schKept := SMap.set co.schKept j true }

/-- Are the results of (set, step) the ones kept (R267)? -/
def State.schKept (s : State) (k j t : Nat) : Bool :=
  SMap.get (s.core k).schKept j && (s.reg (rSchOutStep k j)).toNat == t

/-- The results of a set and step, computed first when they are not kept; whether they had to be computed (R267). -/
def State.schedule (s : State) (k j t : Nat) : State × Bool :=
  if s.schKept k j t then (s, false) else (s.schCompute k j t, true)

/-- The kept results of a set with its BETA1, BETA2 and EPS (R242, R266). -/
def State.schOut (s : State) (k j : Nat) : SchOut :=
  { eta := s.fld (rSchOutLr k j) 63 32, kd := s.fld (rSchOutLr k j) 31 0, r1 := s.fld (rSchOutBc k j) 63 32,
    r2 := s.fld (rSchOutBc k j) 31 0, c1 := s.fld (rSchOutC k j) 63 32, c2 := s.fld (rSchOutC k j) 31 0,
    lnb2 := s.fld (rSchOutLnb2 k j) 31 0, beta1 := s.fld (rSchBeta k j) 63 32, beta2 := s.fld (rSchBeta k j) 31 0,
    eps := s.fld (rSchEps k j) 63 32 }

end Sys2Proof.Machine
end

