-- ==== Sys2Proof/Machine/Update.lean ====
section
/-! DEFINITION. The update stage: the dense and row-wise optimizers, freezing, step skew, and the issue of an update descriptor
(R235–R262, R270). -/
namespace Sys2Proof.Machine

/-- The elements of a row (R247). -/
def UDesc.rowElems (d : UDesc) : Nat := d.rowLen + 1

/-- The new master, first state and second moment of one element under SGD with momentum (R241). -/
def sgdElem (nesterov : Bool) (o : SchOut) (w b g : Nat) : Nat × Nat × Nat :=
  let b' := fmaF32 o.beta1 b g
  let dd := if nesterov then fmaF32 o.beta1 b' g else b'
  (fmaF32 (toF32 (f32 o.eta).neg) dd (mulF32 w o.kd), b', 0)

/-- The new master, first moment and second moment of one element under AdamW (R242). -/
def adamElem (o : SchOut) (w m v g : Nat) : Nat × Nat × Nat :=
  let m' := fmaF32 o.beta1 m (mulF32 o.c1 g)
  let v' := fmaF32 o.beta2 v (mulF32 o.c2 (mulF32 g g))
  let q := vRecip (addF32 (vSqrt (mulF32 v' o.r2)) o.eps)
  let u := mulF32 (mulF32 m' o.r1) q
  (fmaF32 (toF32 (f32 o.eta).neg) u (mulF32 w o.kd), m', v')

/-- The sum of squares of a row in the lane tree's fixed order (R222, R248). -/
def sumSq (es : List Nat) : Nat :=
  match (chunksOf 2048 es.length es).map (fun p => treeOf addF32 p.length (p.map fun e => mulF32 e e)) with
  | [] => 0
  | v :: vs => vs.foldl addF32 v

/-- A row's new count, accumulator and elements (R248–R250). -/
def rowUpdate (op : Nat) (o : SchOut) (n acc : Nat) (w g : List Nat) : Nat × Nat × List Nat :=
  let n' := min (n + 1) (2 ^ 32 - 1)
  let a := toF32 ((f32 (sumSq g)).scale (-(Nat.log2 g.length : Int)))
  let s' := if op = 0x42 then addF32 acc a else fmaF32 o.beta2 acc (mulF32 o.c2 a)
  let q :=
    if op = 0x42 then vRecip (addF32 (vSqrt s') o.eps)
    else
      let p := vExp (mulF32 (toF32 (.ofInt (n' : Int))) o.lnb2)
      vRecip (addF32 (vSqrt (mulF32 s' (vRecip (subF32 oneF32 p)))) o.eps)
  let f := toF32 (f32 (mulF32 o.eta q)).neg
  (n', s', (w.zip g).map fun e => fmaF32 f e.2 (mulF32 e.1 o.kd))

/-- The gradient scale of a descriptor (R240). -/
def State.gradScale (s : State) (k : Nat) (d : UDesc) : Nat :=
  if d.ind then mulF32 d.gscale (leNat (s.storeRead k (vstore + 4 * d.gaddr) 4)) else d.gscale

/-- The HBM address of a word of a stack's freeze bitmap (R476). -/
def freezeAddr (st w : Nat) : Nat := st * 2 ^ 36 + 0xFBF000000 + 8 * w

/-- The word, within the freeze bitmap of the core whose stacks hold it, that covers an address (R255, R271). -/
def freezeWord (a : Nat) : Nat := a % 2 ^ 37 / 2 ^ 22

/-- Is the granule of an address frozen (R255, R257)? A word written since the last beat boundary, or since a descriptor that still waits was
issued, acts with its old value. -/
def State.frozen (s : State) (a : Nat) : Bool :=
  let j := a / 2 ^ 37
  let w := freezeWord a
  let v := match (s.core j).freezePend.find? (fun p => p.1 == w) with
    | some p => p.2.1.toNat
    | none => leNat (s.hbmRead (freezeAddr (2 * j + w / 16384) (w % 16384)) 8)
  bitAt v (a / 65536 % 64)

/-- An update descriptor waits for a half, and the freeze bits of its issue are kept for it (R257, R346). -/
def State.keepFreeze (s : State) (k : Nat) : State := s.modCore k fun co => { co with updWait := true }

/-- The update descriptor waits no more: the freeze words whose beat boundary has passed act with their new values, unless another core's still
waits (R257). -/
def State.settleFreeze (s : State) (k : Nat) : State :=
  let s := s.modCore k fun co => { co with updWait := false }
  if s.cores.any (fun e => e.2.updWait) then s
  else { s with cores := SMap.mapVals (fun (c : Core) => { c with freezePend := c.freezePend.filter fun p => !p.2.2 }) s.cores }

/-- The input links of a descriptor that are used (R236). -/
def UDesc.inputs (d : UDesc) : List Nat :=
  (if d.op = 0x40 then [d.linkG, d.linkW, d.linkS1] else [d.linkG, d.linkW, d.linkS1, d.linkS2]).filter (· != 255)
/-- The output links of a descriptor that are used (R236): no second moment but for AdamW, and no new master for rows. -/
def UDesc.outputs (d : UDesc) : List Nat :=
  (if d.op = 0x41 then [d.linkWO, d.linkS1O, d.linkS2O] else if d.op = 0x40 then [d.linkWO, d.linkS1O] else [d.linkS1O]).filter (· != 255)

/-- Consumer acquires of several links in turn (R183, R346). -/
def State.acquireAll (s : State) (k c stage : Nat) (ms : List Nat) : State × Acq :=
  ms.foldl (fun (p : State × Acq) m => match p.2 with | .ok => p.1.acquireCons k c m 8 stage | a => (p.1, a)) (s, .ok)

/-- Producer acquires of several links in turn (R184). -/
def State.acquireOuts (s : State) (k c : Nat) (ms : List Nat) : State × Bool :=
  ms.foldl (fun (p : State × Bool) m => if p.2 then p.1.acquireProd k c m 8 else p) (s, true)

/-- The FP32 words at a core-store address. -/
def State.words32 (s : State) (k a n : Nat) : List Nat := wordsOf (s.storeRead k a (4 * n))

/-- FP32 words written at an offset of the half of an output link, if it is used, behind the ownership check (R184, R232). -/
def State.putOut (s : State) (k c m off : Nat) (ws : List Nat) : State :=
  if m = 255 ∨ ws.isEmpty then s
  else
    let a := s.heldBase k c m false + off
    let q := s.mayWrite k c m 8 1 0 a (4 * ws.length)
    if q.2 then q.1.storeWrite k a (ws.flatMap (leBytes 4)) else q.1

/-- FP32 elements sent to the store stage (R239). -/
def State.toStore (s : State) (k : Nat) (wc : Bool) (es : List Nat) : State :=
  s.modCore k fun co => { co with storeBuf := co.storeBuf ++ es.map fun e => (e, fcFP32, wc) }

/-- One tile of a dense update (R240–R244, R255, R256). -/
def State.denseTile (s : State) (k c : Nat) (d : UDesc) (o : SchOut) (sg i : Nat) : State :=
  let off := tileOffset i
  let rd := fun (m : Nat) => if m = 255 then [] else s.words32 k (s.heldBase k c m true + off) 16384
  let w := rd d.linkW
  let s1 := rd d.linkS1
  let s2 := if d.op = 0x41 then rd d.linkS2 else []
  let keep := fun (t : State) =>
    let t := ((t.putOut k c d.linkWO off w).putOut k c d.linkS1O off s1).putOut k c d.linkS2O off s2
    if d.wc then t.toStore k true w else t
  if s.frozen (d.masterTile i) then keep (s.bump (rUpdFrozenDrop k) 1)
  else
    let g := (rd d.linkG).map fun x => mulF32 x sg
    if g.any (fun x => !(f32 x).isFin) then keep ((s.bump (rUpdNonfinite k) 1).eventCore k 0x0201 0 (d.masterTile i))
    else
      let r := (List.range 16384).map fun e =>
        if d.op = 0x40 then sgdElem d.nesterov o (w.getD e 0) (s1.getD e 0) (g.getD e 0)
        else adamElem o (w.getD e 0) (s1.getD e 0) (s2.getD e 0) (g.getD e 0)
      let w' := r.map (·.1)
      let t := ((s.putOut k c d.linkWO off w').putOut k c d.linkS1O off (r.map (·.2.1))).putOut k c d.linkS2O off (if d.op = 0x41 then r.map (·.2.2) else [])
      if d.wc then t.toStore k true w' else t

/-- One row of a row-wise update, from the halves as they stood at issue (R245–R256). -/
def State.rowTile (s : State) (k c : Nat) (d : UDesc) (o : SchOut) (sg i : Nat) : State :=
  let n := d.rowElems
  let base := fun (m : Nat) => s.heldBase k c m true
  let idx := leNat (s.storeRead k (base d.linkS2 + 4 * i) 4)
  let cnt := leNat (s.storeRead k (base d.linkS1 + 8 * i) 4)
  let acc := leNat (s.storeRead k (base d.linkS1 + 8 * i + 4) 4)
  let w := (chunksOf 2 n (s.storeRead k (base d.linkW + 2 * n * i) (2 * n))).map fun b => leNat b * 65536
  let out := fun (t : State) (cn ac : Nat) (es : List Nat) => (t.putOut k c d.linkS1O (8 * i) [cn, ac]).toStore k false es
  if s.frozen (d.master + idx * n * 2) then out (s.bump (rUpdFrozenDrop k) 1) cnt acc w
  else
    let g := (s.words32 k (base d.linkG + 4 * n * i) n).map fun x => mulF32 x sg
    if g.any (fun x => !(f32 x).isFin) then out (s.bump (rUpdNonfinite k) 1) cnt acc w
    else
      let r := rowUpdate d.op o cnt acc w g
      out (if cnt = 2 ^ 32 - 1 then s.bump (rUpdRowSat k) 1 else s) r.1 r.2.1 r.2.2

/-- The pass groups of a row-wise descriptor (R247). -/
def UDesc.groups (d : UDesc) : Nat :=
  if d.rowElems ≤ 2048 then ceilDiv (d.count + 1) (2048 / d.rowElems) else d.count + 1

/-- VCLK cycles of an update descriptor (R270). -/
def UDesc.vclk (d : UDesc) : Nat :=
  let n := d.count + 1
  let wide := ceilDiv d.rowElems 2048
  if d.op = 0x40 then 12 + 8 * n * (if d.nesterov then 3 else 2)
  else if d.op = 0x41 then 12 + 8 * n * 8
  else if d.op = 0x42 then 20 + d.groups * (3 * wide + 6)
  else 20 + d.groups * (3 * wide + 10)

/-- Passes of an update descriptor (R247, R270). -/
def UDesc.passes (d : UDesc) : Nat := if d.dense then 8 * (d.count + 1) else d.groups * ceilDiv d.rowElems 2048

/-- Does the master extent leave the core's own stacks, or reach a reserved area or a sidecar (R238, R477)? -/
def UDesc.outside (d : UDesc) (k : Nat) : Bool :=
  let n := d.masterTile d.count + 65536 - d.master
  !(d.master / 2 ^ 37 == k && decide (d.master % 2 ^ 36 + n ≤ 0xFB8000000))

/-- Is a dense descriptor out of step (R258)? -/
def State.skewed (s : State) (k : Nat) (d : UDesc) : Bool :=
  let l := (s.reg (rUpdShardStep k d.shard)).toNat
  d.dense && d.step != l && d.step != l + 1

/-- A skew recorded: captured when VALID is 0, counted when it is 1 (R259). -/
def State.recordSkew (s : State) (k c : Nat) (d : UDesc) : State :=
  if s.fld (rUpdSkewInfo k) 63 63 = 1 then s.bumpF (rUpdSkewInfo k) 47 32 1
  else
    let s := ((s.setFld (rUpdSkewInfo k) 63 63 1).setFld (rUpdSkewInfo k) 10 8 c).setFld (rUpdSkewInfo k) 7 0 d.shard
    (s.setReg (rUpdSkewLocal k) (s.reg (rUpdShardStep k d.shard))).setReg (rUpdSkewDesc k) (BitVec.ofNat 64 d.step)

/-- An update descriptor that runs (R239–R257, R267, R270). -/
def State.runUpdate (s : State) (k c idx : Nat) (d : UDesc) (desc : List Nat) : State :=
  let q := s.schedule k d.set d.step
  let s := q.1
  let o := s.schOut k d.set
  let sg := s.gradScale k d
  let s := (List.range (d.count + 1)).foldl (fun s i => if d.dense then s.denseTile k c d o sg i else s.rowTile k c d o sg i) s
  s.beginVector k c idx (d.vclk + (if q.2 then 192 else 0)) (if d.dense then 12 else 20) d.passes 0 desc d.dense

/-- UPDATE_DESCRIPTOR (R235–R262, R267, R270): the checks in turn (a busy engine, the master extent, a skew under a halt policy), the
acquires, the skew event, and the run. -/
def execUpdateDescriptor (k c idx : Nat) (s : State) : Out :=
  let desc := s.vectorDesc k idx
  let d := udesc desc
  if (s.core k).vec.isSome then .next (s.faultCtx k c 0x0A idx)
  else if d.dense && d.outside k then .next (s.faultCtx k c 0x06 d.master)
  else if s.skewed k d && bitAt (s.fld (rUpdPolicy k) 7 0) c then .next ((s.recordSkew k c d).faultCtx k c 0x0E d.shard)
  else
    let a := s.acquireAll k c 5 d.inputs
    match a.2 with
    | .stop => .next (a.1.settleFreeze k)
    | .wait => .next ((a.1.keepFreeze k).again k (.updateDescriptor k c idx))
    | .ok =>
      let b := a.1.acquireOuts k c d.outputs
      if !b.2 then .next (b.1.settleFreeze k)
      else
        let s := if b.1.skewed k d then
            (b.1.recordSkew k c d).raise { code := 0x0E, sev := severityOf 0x0E false, source := k, part := b.1.lowest k, ctx := c, ext := d.shard }
          else b.1
        .next ((s.runUpdate k c idx d desc).settleFreeze k)

end Sys2Proof.Machine
end

