-- ==== Sys2Proof/Machine/Access.lean ====
section
/-! DEFINITION. BAR0: who reaches a register, what a register shows and what a write does (R17, R40, R93, R132, R205, R234, R257, R268, R271,
R273, R314, R315, R349, R350, R381, R421, R472, R473, R501, R510, R511, R515, R527, R544, R572, R586–R590, R594, R606, R610, R616, R632–R638). -/
namespace Sys2Proof.Machine

/-- How an access is answered: served, by all ones and dropped, or not at all. -/
inductive Gate where
  | served
  | ones (s : State)
  | silent
deriving DecidableEq, Repr

/-- An access to what the port does not own, counted in ZEN_FOREIGN (R515). -/
def State.foreign (s : State) (h : Nat) : Gate := .ones (s.bump (rZenForeign h) 1)

/-- An access to a partition's block or stack (R515, R527, R544, R545). -/
def State.partGate (s : State) (h : Nat) (write : Bool) (k : Option Nat) : Gate :=
  match k with
  | none => s.foreign h
  | some k =>
    if s.owner k ≠ h ∨ (s.conf k ∧ (s.host h).ideLeft) then s.foreign h
    else if s.pstate k = 3 ∨ s.pstate k = 4 then .ones (if write then s.bump (rZenClearRefused h) 1 else s)
    else .served

/-- Does Overcast leave a BAR0 offset answering (R572)? -/
def overcastOpen (a : Nat) : Bool :=
  decide (a < 0x1000) || (decide (0x100000 ≤ a) && decide (a < 0x108000)) || (decide (0x110000 ≤ a) && decide (a < 0x124000)) ||
    (decide (0xF00000 ≤ a) && decide (a < 0x1000000))

/-- Does an access have a size and alignment that its place takes (R589)? -/
def sizeFits (a size : Nat) : Bool :=
  (size == 8 && a % 8 == 0) || (size == 4 && a % 4 == 0 && decide (0xF0000 ≤ a) && decide (a < 0xF0100)) ||
    (decide (0x2000000 ≤ a) && decide (a < 0x3100000) && decide (1 ≤ size))

/-- Whether a BAR0 access is served (R515, R544, R572, R586, R589). -/
def State.gate (s : State) (h a size : Nat) (write : Bool) : Gate :=
  if s.pwr.held ∨ (s.host h).d3 then .silent
  else if s.pwrState = 5 ∧ !overcastOpen a then .ones s
  else if !sizeFits a size then .ones (s.bump (rHifBadAccess + localStride * h) 1)
  else if 0x200000 ≤ a ∧ a < 0x600000 then s.partGate h write (s.partOf ((a - 0x200000) / 0x100000))
  else if 0x800000 ≤ a ∧ a < 0xC00000 then s.partGate h write (s.partOf ((a - 0x800000) / 0x80000 / 2))
  else if 0x1000000 ≤ a ∧ a < 0x1080000 then s.partGate h write (s.stackPart ((a - 0x1000000) / 0x10000))
  else if 0xC00000 ≤ a ∧ a < 0xF00000 then
    match s.portPart ((a - 0xC00000) / 0x80000) with
    | none => .served
    | some k => s.partGate h write (some k)
  else .served

/-- A write that reaches its register, or what becomes of it. -/
def State.gated (s : State) (h a size : Nat) (f : State → State) : State :=
  match s.gate h a size true with
  | .served => f s
  | .ones s => s
  | .silent => s

/-- Is the register of an offset port-local (R588)? -/
def isLocal (a : Nat) : Bool :=
  (decide (0xF0000 ≤ a) && decide (a < 0xF0100)) || (match rowOf a with | some r => r.isLocal | none => false)

/-- Where a register is kept: a port's own copy, and the lowest core's for the timing registers of a partition (R349, R588). -/
def State.regKey (s : State) (h a : Nat) : Nat :=
  if isLocal a then a + localStride * h
  else if 0x200000 ≤ a ∧ a < 0x600000 ∧ 0x7000 ≤ a % 0x100000 ∧ a % 0x100000 < 0x7200 then
    a % 0x100000 + 0x200000 + 0x100000 * s.lowest ((a - 0x200000) / 0x100000)
  else a

/-- Is an offset a ring register of a core that is not its partition's lowest (the copies that read zero, before R594)? -/
def State.ringCopy (s : State) (a : Nat) : Bool :=
  let j := (a - 0x200000) / 0x100000
  decide (0x200000 ≤ a) && decide (a < 0x600000) && decide (0x3000 ≤ a % 0x100000) && decide (a % 0x100000 < 0x3040) && s.lowest j != j

/-- The bits of a register that a confidential partition hides (R93, R132, R205, R234, R273, R315, R350, R381, R421, R473, R511). -/
def State.hidden (s : State) (a : Nat) : Nat :=
  let all := 2 ^ 64 - 1
  let o := a % 0x100000
  if 0x200000 ≤ a ∧ a < 0x600000 then
    if !s.conf (s.lowest ((a - 0x200000) / 0x100000)) then 0
    else if (0xF000 ≤ o ∧ o < 0xF028) ∨ (0xE000 ≤ o ∧ o < 0xE400) ∨ (0xA010 ≤ o ∧ o < 0xA038) ∨ (0x8020 ≤ o ∧ o < 0x8038) ∨ (0xB018 ≤ o ∧ o < 0xB040) then all
    else if 0x9000 ≤ o ∧ o < 0x9400 ∧ 0x80 ≤ o % 0x100 ∧ o % 0x100 < 0xA8 then all
    else if o = 0xA008 then 0x7FF
    else if 0xB100 ≤ o ∧ o < 0xB900 then 0xFFFFFFFF00000000
    else if o = 0x7008 ∨ o = 0x7010 ∨ o = 0x7028 ∨ (0x7100 ≤ o ∧ o < 0x7140) then all
    else if o = 0x6010 ∨ o = 0xD000 ∨ (0x4000 ≤ o ∧ o < 0x5000) then all
    else if o = 0x6008 then 0xFFFF000000
    else if o = 0x5000 then all - 2 ^ 63 - 0x3000000
    else 0
  else if 0x800000 ≤ a ∧ a < 0xC00000 then
    let m := a % 0x80000
    if !(s.stackPart ((a - 0x800000) / 0x80000)).any s.conf then 0
    else if 0x7E000 ≤ m ∨ m = 0x10 ∨ (0x300 ≤ m ∧ m < 0x318) then all else 0
  else if 0xC00000 ≤ a ∧ a < 0xF00000 then
    let m := a % 0x80000
    if (s.portPart ((a - 0xC00000) / 0x80000)).any s.conf ∧
        ((0x100 ≤ m ∧ m < 0x140) ∨ m = 0x228 ∨ m = 0x230) then all else 0
  else if 0x700000 ≤ a ∧ a < 0x780000 then (if s.anyConf then all else 0)
  else if 0x780000 ≤ a ∧ a < 0x781000 then (if a % 64 ≠ 0 ∧ s.conf (s.barPart ((a - 0x780000) / 64)) then all else 0)
  else if a = rHaloFaultCycle then (if s.conf (s.lowest (s.fld rHaloFault 3 0 / 4)) then all else 0)
  else if 0x600100 ≤ a ∧ a < 0x600280 then (if s.conf (s.lowest (a % 0x80 / 32)) then all else 0)
  else if a = rHaloReinject then (if s.anyConf then all else 0)
  else 0

/-- Does a confidential partition make a register ignore every write (R132, R234, R511)? -/
def State.deaf (s : State) (a : Nat) : Bool :=
  let o := a % 0x100000
  if 0x200000 ≤ a ∧ a < 0x600000 then
    s.conf (s.lowest ((a - 0x200000) / 0x100000)) && ((decide (0xF000 ≤ o) && decide (o < 0xF028)) || (decide (0xA010 ≤ o) && decide (o < 0xA038)))
  else if 0x800000 ≤ a ∧ a < 0xC00000 then
    (s.stackPart ((a - 0x800000) / 0x80000)).any s.conf &&
      decide (0x300 ≤ a % 0x80000) && decide (a % 0x80000 < 0x318)
  else false

/-- The place of a core's selected word of the freeze bitmap (R271, R476). -/
def State.freezePlace (s : State) (k : Nat) : Nat × Nat :=
  let w := s.fld (rUpdFreezeAddr k) 14 0
  (w, freezeAddr (2 * k + w / 16384) (w % 16384))

/-- DBG_DUMP_STATUS of the slot that a port selects (R629–R632, R638). -/
def State.dumpStatus (s : State) (h : Nat) : Nat :=
  let n := s.dumpSel h
  let d := SMap.get s.dumps n
  let p := s.part (n / 4)
  let busy := (p.dumpState == 1 || p.dumpState == 2) && (s.dumpSlot (n / 4)).1 == n
  (if d.valid then 2 ^ 63 else 0) + (if busy then 2 ^ 62 else 0) + (if bitAt (s.host h).overwrote (n / 4) then 2 ^ 61 else 0) +
    (if d.conf then 2 ^ 60 else 0) + d.code % 2 ^ 16 * 2 ^ 32 + d.seq % 2 ^ 32

/-- A byte of the dump window (R632) or of the trace buffer (R634). -/
def State.windowByte (s : State) (h a : Nat) : Nat :=
  if a < 0x3000000 then
    let n := s.dumpSel h
    let d := SMap.get s.dumps n
    let busy := bitAt (s.dumpStatus h / 2 ^ 62) 0
    if d.valid ∧ d.owner = h ∧ !busy then d.bytes.getD (a - 0x2000000) 0 else 255
  else ((s.trace.records.getD ((a - 0x3000000) / 16) []).getD ((a - 0x3000000) % 16) 0)

/-- What a BAR0 offset shows a port (R17, R349, R588–R590, R606, R607, R634, R638). -/
def State.regView (s : State) (h a : Nat) : Nat :=
  let j := (a - 0x200000) / 0x100000
  if a = rZenMbDone then s.doneWord h
  else if 0x110000 ≤ a ∧ a < 0x114000 then leNat (memRead s.mbuf (h * 2 ^ 16 + (a - 0x110000)) 8)
  else if 0x120000 ≤ a ∧ a < 0x124000 then leNat (memRead s.mbuf (h * 2 ^ 16 + 2 ^ 15 + (a - 0x120000)) 8)
  else if 0xF0000 ≤ a ∧ a < 0xF0100 then
    let w := (s.reg (s.regKey h (a / 8 * 8))).toNat
    if a % 16 / 8 = 1 then Nat.xor w (2 ^ 32) else w
  else if a = 0xF8000 then (s.host h).pba
  else if a = rDbgDumpStatus then s.dumpStatus h
  else if s.ringCopy a then 0
  else if (rowOf a).isNone then 0
  else
    let w := if 0x200000 ≤ a ∧ a < 0x600000 ∧ a % 0x100000 = 0x7028 then s.shiftOf (s.lowest j) (s.fld (s.regKey h (rSeqRvSel j)) 7 0)
      else if 0x200000 ≤ a ∧ a < 0x600000 ∧ a % 0x100000 = 0x8048 then leNat (s.hbmRead (s.freezePlace j).2 8)
      else (s.reg (s.regKey h a)).toNat
    Nat.land w (2 ^ 64 - 1 - s.hidden a)

/-- Bytes of argument that a command needs (R606, R608); none for a code that names no command. -/
def argNeed (code : Nat) : Option Nat :=
  if [1, 4, 0x34, 0x40, 0x41, 0x32].contains code then some 0
  else if [2, 0x11, 0x15, 0x16, 0x17, 0x21, 0x31].contains code then some 8
  else if code = 3 then some (8 + 2592 + 4632) else if code = 5 then some 2592 else if code = 6 then some (16 + 2592)
  else if code = 0x10 then some 96 else if code = 0x12 then some 24 else if code = 0x13 then some 8 else if code = 0x14 then some 40
  else if code = 0x20 then some 136 else if code = 0x22 then some 16 else if code = 0x30 then some 24 else if code = 0x33 then some (2592 + 4632)
  else none

/-- Does a LOGIN record verify: role, public key and signature over the nonce and the interface's number (R520, R610)? -/
def State.recordVerifies (s : State) (i : Nat) (b : List Nat) : Bool :=
  Config.sigVerifies (slice b 8 2592) (slice b 2600 4627) (s.nonceBytes ++ [i])

/-- The command that an argument spells (R606, R608). FABRIC_MAP and FW_UPDATE name host memory, and come with its contents as commands of
their own. -/
def State.mailboxCmd (s : State) (i code : Nat) (b : List Nat) : Option Instr :=
  let f := fun (n : Nat) => fieldAt b (8 * n) 8
  let officer := s.recordVerifies i b && f 0 == 2 && s.zen.officer == some (Config.sha3 (slice b 8 2592))
  match code with
  | 0x01 => some (.status i) | 0x02 => some (.abiOpen i (f 0)) | 0x03 => some (.login i (f 0) (slice b 8 2592) (s.recordVerifies i b))
  | 0x04 => some (.logout i) | 0x05 => some (.takeOwnership i (slice b 0 2592)) | 0x06 => some (.roleKeySet i (f 0) (f 1) (slice b 16 2592))
  | 0x10 => some (.load i (f 0) (f 1) (f 2) ((List.range 8).map fun n => f (3 + n)) (f 11)) | 0x11 => some (.unload i (f 0))
  | 0x12 => some (.recoveryTable i (f 0) (f 1) (f 2)) | 0x13 => some (.signerSet i (f 0) (chunksOf 64 4 (b.drop 8)))
  | 0x14 => some (.export_ i (f 0) (f 1) (f 2) (f 3) (f 4)) | 0x15 => some (.clear i (f 0)) | 0x16 => some (.rekey i (f 0))
  | 0x17 => some (.partitionReset i (f 0))
  | 0x20 => some (.partitionConfig i (f 0) ((List.range 4).map fun k =>
      { owner := f (1 + 4 * k), links := f (2 + 4 * k), confidential := f (3 + 4 * k) != 0, flrReset := f (4 + 4 * k) != 0 }))
  | 0x21 => some (.powerState i (f 0)) | 0x31 => some (.svnCommit i (f 0)) | 0x32 => some (.zeroize i officer)
  | 0x33 => some (.debugUnlock i (slice b 0 2592) (Config.sigVerifies (slice b 0 2592) (slice b 2592 4627) (Config.idHash ++ s.nonceBytes)))
  | 0x34 => some (.zenithReset i) | 0x40 => some (.aoRecord i) | 0x41 => some (.retest i)
  | _ => none

/-- A command issued on an interface with its argument (R606): held until Zenith takes it, ignored while one is held. -/
def State.issue (s : State) (i code len : Nat) : State :=
  let st := rZenMbStatus + mbOfs i
  if s.fld st 63 63 = 1 then s.setFld st 61 61 1
  else
    let s := (s.setReg (rZenMbCmd + mbOfs i) (BitVec.ofNat 64 (2 ^ 63 + len % 2 ^ 16 * 2 ^ 16 + code % 256))).setFld st 63 63 1
    let answer := fun (r : Nat) => match s.mailbox i code 0 (fun s => s.mbAnswer i code r) with | .next s => s | _ => s
    match argNeed code with
    | none => answer 5
    | some n =>
      if len % 8 ≠ 0 ∨ 16384 < len ∨ len < n then answer 6
      else match s.mailboxCmd i code (memRead s.mbuf (i * 2 ^ 16) len) with
        | some c => s.laterW 0 c
        | none => s

/-- A write of HIF_BAR2_BASE: 0 when it is not a multiple of the window (R590). -/
def State.writeBar2Base (s : State) (h : Nat) (v : Word) : State :=
  let b := v.toNat / 8 * 8
  s.setReg (rHifBar2Base + localStride * h) (BitVec.ofNat 64 (if b % 2 ^ (s.host h).window = 0 then b else 0))

/-- A ring's control register: its size only within its range and while the ring is not enabled (R616, R638). -/
def State.writeRingCtrl (s : State) (key : Nat) (v : Word) (rw lo hi wide : Nat) : State :=
  let size := getF v wide 0
  let old := s.reg key
  let keep := decide (size < lo) || decide (hi < size) || getF old 63 63 == 1
  let w := v &&& BitVec.ofNat 64 rw
  s.setReg key (if keep then setF w wide 0 (getF old wide 0) else w)

/-- A write of an MSI-X table entry; one that is unmasked sends what it held back (R588, R604). -/
def State.writeMsix (s : State) (h a size : Nat) (v : Word) : State :=
  let key := s.regKey h (a / 8 * 8)
  let ctl := a % 16 / 8 = 1
  let old := if ctl then Nat.xor (s.reg key).toNat (2 ^ 32) else (s.reg key).toNat
  let new := if size = 8 then v.toNat else if a % 8 = 0 then old / 2 ^ 32 * 2 ^ 32 + v.toNat % 2 ^ 32 else v.toNat % 2 ^ 32 * 2 ^ 32 + old % 2 ^ 32
  if !ctl then s.setReg key (BitVec.ofNat 64 (new / 4 * 4))
  else
    let n := (a - 0xF0000) / 16
    let s := s.setReg key (BitVec.ofNat 64 (Nat.xor (new % 2 ^ 33) (2 ^ 32)))
    if bitAt new 32 ∨ !bitAt (s.host h).pba n then s
    else (s.modHost h fun x => { x with pba := x.pba - 2 ^ n }).msix h n

/-- LNK_CTRL.ENABLE written (R472): 0 holds the port dark, and 1 lets a dark one train. -/
def State.writeLinkEnable (s : State) (p : Nat) (v : Word) : State :=
  let was := s.fld (rLnkCtrl p) 0 0
  let s := s.setFld (rLnkCtrl p) 0 0 (getF v 0 0)
  if getF v 0 0 = 0 then s.goDark p
  else if was = 0 ∧ s.linkState p = 0 ∧ s.connected p ∧ s.startPh ≠ 0 ∧ (s.pwrState = 0 ∨ s.pwrState = 1 ∨ s.pwrState = 2 ∨ s.pwrState = 6) then s.trainFrom p 1
  else s

/-- LNK_CTRL.RESET written: a link retrain asked of the arbiter (R471, R506). -/
def State.askLinkReset (s : State) (p : Nat) : State :=
  match s.maintConflict 5 p with
  | some c => s.maintRefuse 5 p c
  | none => (s.maintGrant 5 p).laterW 0 (.linkReset p)

/-- UPD_FREEZE_DATA written: the selected word of the bitmap; descriptors go on with the old one until the next beat boundary (R257). -/
def State.writeFreeze (s : State) (k : Nat) (v : Word) : State :=
  let p := s.freezePlace k
  let old := BitVec.ofNat 64 (leNat (s.hbmRead p.2 8))
  let s := s.modCore k fun co => if co.freezePend.any (fun e => e.1 == p.1 && !e.2.2) then co
    else { co with freezePend := co.freezePend ++ [(p.1, old, false)] }
  s.hbmWrite p.2 (leBytes 8 v.toNat)

/-- What STR_PS_ARM of a slot held before this cycle's writes is kept, for a re-arm point of the same cycle (R199). -/
def State.noteArm (s : State) (k slot : Nat) : State :=
  let now := s.clk.wall + 1
  let old := s.reg (rStrPsArm k slot)
  s.modCore k fun co => if (SMap.get co.armSeen slot).1 = now then co else { co with armSeen := SMap.set co.armSeen slot (now, old) }

/-- Does Zenith capture the state of a partition whose register this is (R628)? -/
def State.captured (s : State) (a : Nat) : Bool := (List.range 4).any fun k => (s.part k).dumpState == 1 && s.partReg k a

/-- A register by its table's access codes (R17): RW bits take the value, W1C bits written 1 are cleared, unless Zenith captures them
(R628). -/
def State.writePlain (s : State) (key : Nat) (r : RegRow) (v : Word) : State :=
  let old := s.reg key
  let rw := BitVec.ofNat 64 r.rw
  let clr := v &&& BitVec.ofNat 64 (if s.captured key then 0 else r.w1c)
  let w := ((old &&& ~~~rw) ||| (v &&& rw)) &&& ~~~clr
  s.setReg key w

/-- A persistent slot's base written, or dropped while the slot is armed (R196). -/
def State.writeSlotBase (s : State) (k slot : Nat) (dst : Bool) (v : Word) : State :=
  if s.fld (rStrPsArm k slot) 63 63 = 1 then s.setFld (rStrPsArm k slot) 61 61 1
  else s.setReg (if dst then rStrPsDst k slot else rStrPsSrc k slot) (v &&& 0xFFFFFFFFFF)

/-- SCH_CTRL as a write leaves it: a field given a reserved DECAY, WARM or MULT code, or MILESTONES above 8, keeps its value (R272). -/
def schCtrlKept (old w : Word) : Word :=
  let w := if 8 < getF w 15 12 then setF w 15 12 (getF old 15 12) else w
  let w := if 8 < getF w 11 8 then setF w 11 8 (getF old 11 8) else w
  let w := if 6 ≤ getF w 7 4 then setF w 7 4 (getF old 7 4) else w
  if getF w 1 0 = 3 then setF w 1 0 (getF old 1 0) else w

/-- A parameter of a schedule set staged (R268, R272). -/
def State.stageSch (s : State) (k key : Nat) (r : RegRow) (v : Word) : State :=
  let w := v &&& BitVec.ofNat 64 r.rw
  s.modCore k fun co =>
    let old := (SMap.get co.schStaged key).getD (s.reg key)
    { co with schStaged := SMap.set co.schStaged key (some (if key % 0x100 = 0 then schCtrlKept old w else w)) }

/-- May a thinning segment take these bounds (R314)? -/
def thinOk (v : Word) : Bool :=
  let k := getF v 3 0
  let lo := getF v 11 8
  let hi := getF v 15 12
  decide (4 ≤ k) && decide (k ≤ 10) && decide (4 ≤ lo) && decide (lo ≤ hi) && decide (hi ≤ 10)

/-- A captured fault's count is cleared with its VALID bit (R92, R271, R510). -/
def State.writeCapture (s : State) (key : Nat) (r : RegRow) (v : Word) : State :=
  let s := s.writePlain key r v
  if getF v 63 63 = 1 ∧ !s.captured key then s.setFld key 47 32 0 else s

/-- VEC_TQ_HIGH written: cleared, it starts again from the occupancy that stands (R233). -/
def State.writeTqHigh (s : State) (k key : Nat) (r : RegRow) (v : Word) : State :=
  let s := s.writePlain key r v
  s.setFld key 6 0 (max (s.fld key 6 0) (s.fld (rVecStatus k) 22 16))

/-- A write in a core's block (R196, R199, R257, R268, R314, R349, R594, R616). -/
def State.writeCore (s : State) (h a : Nat) (r : RegRow) (v : Word) : State :=
  let k := (a - 0x200000) / 0x100000
  let o := a % 0x100000
  let key := s.regKey h a
  if s.ringCopy a ∨ s.deaf a then s
  else if o = 0x3000 then s.writeRingCtrl key v r.rw 4 12 3
  else if o = 0x3020 then s.writeRingCtrl key v r.rw 4 12 3
  else if o = 0x3008 ∨ o = 0x3010 then (if s.fld (rHifCrCtrl k) 63 63 = 1 then s else s.writePlain key r v)
  else if o = 0x3028 ∨ o = 0x3030 then (if s.fld (rHifCqCtrl k) 63 63 = 1 then s else s.writePlain key r v)
  else if 0xC000 ≤ o ∧ o < 0xC400 then s.writeSlotBase k (o % 0x200 / 8) (decide (0xC200 ≤ o)) v
  else if 0xC400 ≤ o ∧ o < 0xC600 then (s.noteArm k (o % 0x200 / 8)).writePlain key r v
  else if o = 0x8048 then s.writeFreeze k v
  else if o = 0xA010 then s.writeTqHigh k key r v
  else if 0x9000 ≤ o ∧ o < 0x9400 ∧ o % 0x100 < 0x80 then s.stageSch k key r v
  else if o = 0x8008 then s.writeCapture key r v
  else if o = 0x7018 then (if getF v 31 0 = 0 then s else s.writePlain key r v)
  else if 0xB100 ≤ o ∧ o < 0xB900 then (if thinOk v then s.writePlain key r v else s)
  else s.writePlain key r v

/-- A write in the debug block (R632, R635, R638). -/
def State.writeDbg (s : State) (h a : Nat) (r : RegRow) (v : Word) : State :=
  let key := s.regKey h a
  if a = rDbgEvqBase ∨ a = rDbgEvqConsAddr then (if s.fld (rDbgEvqCtrl + localStride * h) 63 63 = 1 then s else s.writePlain key r v)
  else if a = rDbgEvqCtrl then s.writeRingCtrl key v r.rw 8 16 4
  else if a = rDbgDumpSel then s.writeDumpSel h v
  else if a = rDbgDumpStatus then
    (if getF v 61 61 = 1 then s.modHost h fun x =>
      { x with overwrote := Nat.land x.overwrote (15 - Nat.land x.overwrote (2 ^ (s.dumpSel h / 4))) } else s)
  else if a = rDbgTraceCtrl then s.writeTraceCtrl v
  else s.writePlain key r v

/-- What a served write of a BAR0 offset does (R17, R588–R590, R606). An offset that no register has ignores it. -/
def State.writeServed (s : State) (h a size : Nat) (v : Word) : State :=
  if 0xF0000 ≤ a ∧ a < 0xF0100 then s.writeMsix h a size v
  else if 0x110000 ≤ a ∧ a < 0x114000 then { s with mbuf := memWrite s.mbuf (h * 2 ^ 16 + (a - 0x110000)) (leBytes 8 v.toNat) }
  else match rowOf a with
    | none => s
    | some r =>
      if 0x200000 ≤ a ∧ a < 0x600000 then s.writeCore h a r v
      else if a = rHifBar2Base then s.writeBar2Base h v
      else if a = rZenMbCmd then
        (if getF v 63 63 = 1 then s.issue h (getF v 7 0) (getF v 31 16)
         else s.setReg (a + localStride * h) ((s.reg (a + localStride * h) &&& 0x8000000000000000) ||| (v &&& 0xFFFF00FF)))
      else if 0x1800000 ≤ a ∧ a < 0x1800048 then s.writeDbg h a r v
      else if 0xC00000 ≤ a ∧ a < 0xF00000 ∧ a % 0x80000 = 0 then
        let p := (a - 0xC00000) / 0x80000
        let s := s.writeLinkEnable p v
        if getF v 1 1 = 1 then s.askLinkReset p else s
      else if 0xC00000 ≤ a ∧ a < 0xF00000 ∧ a % 0x80000 = 0x18 then (if 1500 < getF v 10 0 then s else s.writePlain a r v)
      else if a = rHaloFault ∨ (0x800000 ≤ a ∧ a < 0xC00000 ∧ a % 0x80000 = 8) then s.writeCapture a r v
      else if s.deaf a then s
      else s.writePlain (s.regKey h a) r v

/-- A BAR0 write (R17, R515, R589). -/
def State.writeReg (s : State) (h a size : Nat) (v : Word) : State := s.gated h a size fun s => s.writeServed h a size v

/-- The line of a test area by its number over all stacks (R476, R479). -/
def testLine (st n : Nat) : Nat := st * 2 ^ 28 + 0xFBF030000 / 256 + n

/-- Is a checker test granted on a stack (R501, R507)? -/
def State.testGranted (s : State) (st : Nat) : Bool := s.maint.any fun m => m.act == 3 && m.scope == st

/-- A checked read of a test line (R502): the result, and MEM_TEST_DETECT when the check failed; `upset` is a failure that the retry does not
meet again. -/
def State.testRead (s : State) (st n : Nat) (upset : Bool) : List Nat × State :=
  let l := testLine st n
  let bs := s.hbmRead (l * 256) 256
  let bad := SMap.get s.badLine l != 0
  let w := 2 ^ 63 + (if bad then 2 ^ 62 else 0) + n * 2 ^ 32 + lineCrc bs (l % 2 ^ 28) % 2 ^ 32
  let s := s.setReg (rMemTestResult st) (BitVec.ofNat 64 w)
  (bs, if bad ∨ upset then s.eventStack st 0x0107 (if bad then 1 else 0) (l * 256) else s)

/-- A whole line written through a test window (R501): under RAW it goes to the line that MEM_TEST_CTRL names, with MEM_TEST_CRC as its stored
CRC. -/
def State.testWrite (s : State) (st n : Nat) (bs : List Nat) : State :=
  let raw := s.fld (rMemTestCtrl st) 8 8 == 1
  let l := testLine st (if raw then s.fld (rMemTestCtrl st) 7 0 else n)
  let s := s.hbmWrite (l * 256) bs
  if raw then
    { s with badLine := SMap.set s.badLine l (Nat.xor (s.fld (rMemTestCrc st) 31 0) (lineCrc bs (l % 2 ^ 28) % 2 ^ 32)) }
  else s

/-- A BAR0 read of `size` bytes (R17, R515, R589, R607): the value, and what the read leaves. None when nothing answers. -/
def State.readReg (s : State) (h a size : Nat) : Option (List Nat) × State :=
  match s.gate h a size false with
  | .silent => (none, s)
  | .ones s => (some (List.replicate size 255), s)
  | .served =>
    if 0x1000000 ≤ a ∧ a < 0x1080000 then
      let st := (a - 0x1000000) / 0x10000
      if !s.testGranted st then (some (List.replicate size 255), s)
      else
        let r := s.testRead st (a % 0x10000 / 256) false
        (some (slice r.1 (a % 256) size), r.2)
    else if 0x2000000 ≤ a ∧ a < 0x3100000 then (some ((List.range size).map fun i => s.windowByte h (a + i)), s)
    else
      let b := leBytes 8 (s.regView h a)
      let bs := if size = 4 then slice b (a % 8) 4 else b
      if a = rZenMbDone then
        (some bs, { s with zen := { s.zen with done := SMap.mod s.zen.done h fun (l : List (Nat × Nat × Nat × Nat)) => l.tail } })
      else (some bs, s)

/-- REGISTER_WRITE (R17, R515, R589). -/
def execRegisterWrite (h off size : Nat) (v : Word) (s : State) : Out := .next (s.writeReg h off size v)

/-- PERSISTENT_SLOT_ARM (R196). -/
def execPersistentSlotArm (h k slot : Nat) (v : Word) (s : State) : Out := .next (s.writeReg h (rStrPsArm k slot) 8 v)
/-- PERSISTENT_BASE_WRITE (R196). -/
def execPersistentBaseWrite (h k slot : Nat) (dst : Bool) (v : Word) (s : State) : Out :=
  .next (s.writeReg h (if dst then rStrPsDst k slot else rStrPsSrc k slot) 8 v)
/-- FREEZE_WRITE (R257). -/
def execFreezeWrite (h k : Nat) (v : Word) (s : State) : Out := .next (s.writeReg h (rUpdFreezeData k) 8 v)
/-- SCHEDULE_PARAMETER_WRITE (R268): a write at an offset of schedule set `set`. -/
def execScheduleParameterWrite (h k set off : Nat) (v : Word) (s : State) : Out := .next (s.writeReg h (rSchCtrl k set + off % 0x80) 8 v)
/-- LINK_RESET_REQUEST (R471). -/
def execLinkResetRequest (h p : Nat) (s : State) : Out := .next (s.gated h (rLnkCtrl p) 8 fun s => s.askLinkReset p)
/-- LINK_ENABLE (R472). -/
def execLinkEnable (h p : Nat) (v : Word) (s : State) : Out := .next (s.gated h (rLnkCtrl p) 8 fun s => s.writeLinkEnable p v)
/-- BAR2_BASE_WRITE (R590). -/
def execBar2BaseWrite (h : Nat) (v : Word) (s : State) : Out := .next (s.writeReg h rHifBar2Base 8 v)
/-- DUMP_RELEASE (R632). -/
def execDumpRelease (h : Nat) (v : Word) (s : State) : Out := .next (s.writeReg h rDbgDumpSel 8 v)
/-- TRACE_ENABLE (R635). -/
def execTraceEnable (h : Nat) (v : Word) (s : State) : Out := .next (s.writeReg h rDbgTraceCtrl 8 v)

end Sys2Proof.Machine
end

