-- ==== Sys2Proof/Machine/Attest.lean ====
section
/-! DEFINITION. Attestation: the SPDM messages that a host port answers over DOE, its session, the measurements and the IDE stream (R523–R527, R538,
R604). -/
namespace Sys2Proof.Machine

/-- An SPDM response: its code and the content that R523 to R526 give, laid out as SPDM does, and vector 6 (R604). -/
def State.doe (s : State) (h code : Nat) (content : List Nat) : State := (s.out (.doe h code (Config.spdmBody code content))).msix h 6

/-- An SPDM ERROR response (R523). -/
def State.doeError (s : State) (h : Nat) : State := s.doe h 0x7F []

/-- A request that Zenith can serve in the connection's present state, or an ERROR (R519, R523): `need` is the least state of the connection, 3
negotiated, 4 keys exchanged, 5 in session. -/
def State.spdm (s : State) (h need : Nat) (f : State → State) : Out :=
  if s.pwr.held ∨ 1 < h then .next s
  else if !s.zen.booted ∨ s.zen.booting ∨ s.zen.alias_.isNone ∨ (s.host h).spdm < need then .next (s.doeError h)
  else .next (f s)

/-- The connection's state advanced to at least n. -/
def State.spdmAt (s : State) (h n : Nat) : State := s.modHost h fun x => { x with spdm := max x.spdm n }

/-- The alias key's signature over a message (R518). -/
def State.aliasSign (s : State) (m : List Nat) : List Nat := Config.sign (s.zen.alias_.getD []) m

/-- The chain of certificate slot 0 (R523). -/
def State.chain (s : State) : List Nat := Config.certChain ++ Config.aliasCert (s.zen.alias_.getD [])

/-- GET_VERSION: 1.2 and 1.3 (R523). -/
def execGetVersion (h : Nat) (s : State) : Out := s.spdm h 0 fun s => (s.spdmAt h 1).doe h 0x04 [0x12, 0x13]

/-- GET_CAPABILITIES (R523). -/
def execGetCapabilities (h : Nat) (s : State) : Out := s.spdm h 0 fun s => (s.spdmAt h 2).doe h 0x61 []

/-- NEGOTIATE_ALGORITHMS (R523): of the algorithms offered, 1 ML-DSA-87, 2 SHA3-512, 3 ML-KEM-1024 and 4 AES-256-GCM; none of them is an ERROR. -/
def execNegotiateAlgorithms (h : Nat) (offered : List Nat) (s : State) : Out :=
  s.spdm h 0 fun s =>
    let l := offered.filter fun n => decide (1 ≤ n) && decide (n ≤ 4)
    if l.isEmpty then s.doeError h else (s.spdmAt h 3).doe h 0x63 l

/-- GET_DIGESTS (R523). -/
def execGetDigests (h : Nat) (s : State) : Out := s.spdm h 0 fun s => s.doe h 0x01 (Config.sha3 s.chain)

/-- GET_CERTIFICATE (R523): a part of slot 0's chain; the module has no other slot. -/
def execGetCertificate (h slot off len : Nat) (s : State) : Out :=
  s.spdm h 0 fun s => if slot ≠ 0 then s.doeError h else s.doe h 0x02 (slice s.chain off len)

/-- CHALLENGE (R523): signed with the alias key. -/
def execChallenge (h : Nat) (nonce : List Nat) (s : State) : Out :=
  s.spdm h 0 fun s =>
    let d := s.drawKey
    let body := Config.sha3 s.chain ++ (Config.drbg d.1).take 32
    d.2.doe h 0x03 (body ++ s.aliasSign (nonce ++ body))

/-- The record of a partition that measurement 3 covers (R524). -/
def State.partRecord (s : State) (k : Nat) : List Nat :=
  leBytes 1 (s.fld rZenLayout 2 0) ++ leBytes 8 (Nat.land (s.reg (rZenPart k)).toNat (2 ^ 64 - 1 - 7 * 2 ^ 57))

/-- 64 zero bytes, for what an unloaded partition does not have (R524). -/
def noMeasure : List Nat := List.replicate 64 0

/-- The measurement of an index (R524). -/
def State.measurement (s : State) (index : Nat) : Option (List Nat) :=
  if index = 1 then some (Config.sha3 s.firmware)
  else if index = 2 then some (Config.sha3 (leBytes 2 s.zen.fuseSvn ++ leBytes 1 Config.lifecycle ++ [if s.zen.unlocked then 1 else 0]))
  else
    let k := (index - 3) / 8
    let n := (index - 3) % 8 + 3
    if index < 3 ∨ 4 ≤ k ∨ 7 < n ∨ !s.partValid k then none
    else if n = 3 then some (Config.sha3 (s.partRecord k))
    else match (s.part k).image with
      | none => some noMeasure
      | some l =>
        if n = 4 then some (Config.sha3 l.structure_)
        else if n = 5 then some (Config.sha3 l.image)
        else if n = 6 then some (Config.sha3 (l.params ++ (s.partCores k).flatMap fun j => s.hbmRead (recoveryBase j) 16384))
        else if l.signer.isEmpty then some noMeasure
        else some (Config.sha3 l.signer)

/-- The indices that the module reports (R524). -/
def State.measureIndices (s : State) : List Nat := (List.range 35).filter fun i => (s.measurement i).isSome

/-- GET_MEASUREMENTS (R524): index 0 their number, 255 all of them, and else one, signed with the alias key. -/
def execGetMeasurements (h index : Nat) (s : State) : Out :=
  s.spdm h 0 fun s =>
    let all := s.measureIndices
    let body := if index = 0 then some (leBytes 1 all.length)
      else if index = 255 then some (all.flatMap fun i => leBytes 1 i ++ (s.measurement i).getD [])
      else (s.measurement index).map fun m => leBytes 1 index ++ m
    match body with
    | none => s.doeError h
    | some b => s.doe h 0x60 (b ++ s.aliasSign b)

/-- The partitions that a host port owns (R513). -/
def State.ownedParts (s : State) (h : Nat) : List Nat := (List.range 4).filter fun k => s.partValid k && s.owner k == h

/-- KEY_EXCHANGE (R525): a new session ends the one before and its IDE keys, gives the confidential partitions of the port their result-tag keys
and starts their export numbers again (R538). -/
def execKeyExchange (h : Nat) (ek : List Nat) (s : State) : Out :=
  s.spdm h 3 fun s =>
    let s := s.ideLost h
    let d := s.drawKey
    let e := Config.encaps ek d.1
    let s := d.2.modHost h fun x => { x with spdm := 4, session := some e.2, keyGen := 0, ideKeys := none }
    let s := (s.ownedParts h).foldl (fun s k =>
      let c := s.conf k
      s.modPart k fun p => { p with resultKey := if c then some (tagKey e.2 k) else none, exportSeq := 0 }) s
    s.doe h 0x64 (e.1 ++ s.aliasSign (ek ++ e.1))

/-- FINISH (R523): the session is established. -/
def execFinish (h : Nat) (s : State) : Out := s.spdm h 4 fun s => (s.spdmAt h 5).doe h 0x65 []

/-- KEY_UPDATE (R523): the session goes on under its next keys. -/
def execKeyUpdate (h : Nat) (s : State) : Out :=
  s.spdm h 5 fun s => (s.modHost h fun x => { x with keyGen := x.keyGen + 1 }).doe h 0x69 []

/-- END_SESSION (R523): the session and its secret are gone. -/
def execEndSession (h : Nat) (s : State) : Out :=
  s.spdm h 5 fun s => (s.modHost h fun x => { x with spdm := 3, session := none }).doe h 0x6C []

/-- IDE_KM (R526): 0 QUERY, 2 KEY_PROG, 4 K_SET_GO, 5 K_SET_STOP, as PCIe numbers them. The stream is Secure once a programmed key set goes, and
leaves that state when it is stopped. -/
def execIdeKm (h op : Nat) (s : State) : Out :=
  s.spdm h 5 fun s =>
    if op = 0 then s.doe h 1 []
    else if op = 2 then
      let d := s.drawKey
      (d.2.modHost h fun x => { x with ideKeys := some d.1 }).doe h 3 []
    else if op = 4 ∧ (s.host h).ideKeys.isSome then
      ((s.setFld rZenRole (8 + h) (8 + h) 1).modHost h fun x => { x with ideLeft := false }).doe h 6 []
    else if op = 5 then (s.ideLost h).doe h 6 []
    else s.doeError h

end Sys2Proof.Machine
end

