-- ==== Sys2Proof/Machine/Host.lean ====
section
/-! DEFINITION. The windows of a host port: device memory through BAR2 and the checker test windows (R480, R501–R503, R515, R527, R530, R534, R544,
R545, R590–R593). -/
namespace Sys2Proof.Machine

/-- The Device Serial Number that the function of either host port shows in its configuration space: bytes 0 to 7 of the identity hash (R518,
R585). -/
def deviceSerial : List Nat := slice Config.idHash 0 8

/-- What a BAR2 address is to a port (R527, R530, R544, R591). -/
inductive Bar2 where
  | plain
  | conf
  | foreign
  | clearing
  | reserved
deriving DecidableEq, Repr

/-- The class of a physical address for host port h (R515, R527, R530, R544, R545, R591). -/
def State.bar2Class (s : State) (h a : Nat) : Bar2 :=
  match (if a / 2 ^ 36 < 8 then s.stackPart (a / 2 ^ 36) else none) with
  | none => .foreign
  | some k =>
    if s.owner k ≠ h ∨ (s.conf k ∧ (s.host h).ideLeft) then .foreign
    else if s.pstate k = 3 ∨ s.pstate k = 4 then .clearing
    else if 0xFB8000000 ≤ a % 2 ^ 36 then .reserved
    else if s.conf k then .conf
    else .plain

/-- The physical address of a BAR2 offset (R590). -/
def State.bar2Addr (s : State) (h off : Nat) : Nat := (s.reg (rHifBar2Base + localStride * h)).toNat + off

/-- Does a stack take no access now, or is the granule locked by a re-key sweep (R505, R534)? -/
def State.stackHeld (s : State) (a : Nat) : Bool :=
  (s.maint.any fun m => m.act == 4 && m.scope == a / 2 ^ 36) ||
    (match s.stackPart (a / 2 ^ 36) with
      | some k => SMap.get (s.part k).locked (a / 2 ^ 36) == some (a % 2 ^ 36 / 2 ^ 21)
      | none => false)

/-- BAR2_READ (R591, R593): data of a partition of this port that is not confidential, and all ones of anything else; a line that fails its check
is recovered first. -/
def execBar2Read (h off len : Nat) (upset : Bool) (s : State) : Out :=
  let a := s.bar2Addr h off
  let ones := fun (s : State) => s.out (.readData h (List.replicate len 255))
  if s.pwr.held ∨ (s.host h).d3 ∨ len = 0 then .next s
  else if s.pwrState = 5 then .next (ones s)
  else match s.bar2Class h a with
    | .foreign => .next (ones (s.bump (rZenForeign h) 1))
    | .plain =>
      let n := min len (0xFB8000000 - a % 2 ^ 36)
      if s.stackHeld a then .next (s.laterW 1 (.bar2Read h off len upset))
      else if upset || s.hbmBad a n then
        .next (s.beginRecovery (a / 2 ^ 36 / 2) 0 0 (s.badAddr a n) 256 0 none false (some h) none none (some (off, len)))
      else .next (s.out (.readData h (s.hbmRead a n ++ List.replicate (len - n) 255)))
    | _ => .next (ones s)

/-- The failing lines that a write covers only in part (R480). -/
def State.partBad (s : State) (a n : Nat) : Option Nat :=
  (s.badLine.find? fun p => decide (p.1 * 256 < a + n) && decide (a < p.1 * 256 + 256) && !(decide (a ≤ p.1 * 256) && decide (p.1 * 256 + 256 ≤ a + n))).map (·.1 * 256)

/-- BAR2_WRITE (R480, R530, R591, R592): bytes written into the usable space of a partition of this port. -/
def execBar2Write (h off : Nat) (bytes : List Nat) (s : State) : Out :=
  let a := s.bar2Addr h off
  if s.pwr.held ∨ (s.host h).d3 ∨ s.pwrState = 5 ∨ bytes = [] then .next s
  else match s.bar2Class h a with
    | .foreign => .next (s.bump (rZenForeign h) 1)
    | .clearing => .next (s.bump (rZenClearRefused h) 1)
    | .reserved => .next (s.bump (rHifBar2Refused + localStride * h) 1)
    | c =>
      let n := min bytes.length (0xFB8000000 - a % 2 ^ 36)
      if c = .conf ∧ !s.ideSecure h then .next (s.bump (rZenForeign h) 1)
      else if s.stackHeld a then .next (s.laterW 1 (.bar2Write h off bytes))
      else match s.partBad a n with
        | some b => .next (s.beginRecovery (a / 2 ^ 36 / 2) 0 0 b 256 0 none false (some h) (some (off, bytes)))
        | none =>
          let s := s.hbmWrite a (bytes.take n)
          .next (if n < bytes.length then s.bump (rHifBar2Refused + localStride * h) 1 else s)

/-- TEST_WINDOW_WRITE (R501, R503): a whole line stored while a checker test is granted; anything else is dropped. -/
def execTestWindowWrite (h st off : Nat) (bytes : List Nat) (s : State) : Out :=
  if s.pwr.held ∨ (s.host h).d3 ∨ s.pwrState = 5 then .next s
  else match s.partGate h true (s.stackPart st) with
    | .served => .next (if s.testGranted st ∧ off % 256 = 0 ∧ bytes.length = 256 then s.testWrite st (off / 256 % 256) bytes else s)
    | .ones s => .next s
    | .silent => .next s

/-- TEST_WINDOW_READ (R502, R503): the line that holds the offset, checked and its result recorded. -/
def execTestWindowRead (h st off : Nat) (upset : Bool) (s : State) : Out :=
  let ones := fun (s : State) => s.out (.readData h (List.replicate 256 255))
  if s.pwr.held ∨ (s.host h).d3 then .next s
  else if s.pwrState = 5 then .next (ones s)
  else match s.partGate h false (s.stackPart st) with
    | .served =>
      if !s.testGranted st then .next (ones s)
      else
        let r := s.testRead st (off / 256 % 256) upset
        .next (r.2.out (.readData h r.1))
    | .ones s => .next (ones s)
    | .silent => .next s

end Sys2Proof.Machine
end

