-- ==== Sys2Proof/Machine/Thinning.lean ====
section
/-! DEFINITION. Thinning: the reduction unit's queue, the selection of a block's entries, segments and residuals, adaptive k, the
message header, and the sending of a message half (R224–R227, R274–R287, R295–R298, R304, R393–R395). -/
namespace Sys2Proof.Machine

/-- THINNING_DESCRIPTOR (R274, R275, R286): issued to the reduction unit with its segment's k; a fifth raises the semaphore overflow
fault. -/
def execThinningDescriptor (k c idx : Nat) (s : State) : Out :=
  let desc := s.vectorDesc k idx
  let d := tdesc desc
  if 4 ≤ (s.core k).thinQ.length then .next (s.faultCtx k c 0x02 idx)
  else
    let klog := if d.op = 0x51 then s.fld (rVecThinSeg k d.seg) 3 0 else d.klog
    .next (s.modCore k fun co => { co with thinQ := co.thinQ ++ [(desc, klog, c, (s.ctx k c).cmdIndex)] })

/-- The k-th largest of a list of keys below 2^31, found bit by bit from the top (R226). -/
def kthKey (k : Nat) (keys : List Nat) : Nat :=
  (List.range 31).foldl (fun t i => let u := t + 2 ^ (30 - i); if k ≤ keys.countP (fun x => decide (u ≤ x)) then u else t) 0

/-- The kept entries of a block: the k entries of the largest magnitude, ties going to the lower index (R226). -/
def keptFlags (k : Nat) (vs : List Nat) : List Bool :=
  let keys := vs.map fun v => v % 2 ^ 31
  let t := kthKey k keys
  let above := keys.countP fun x => decide (t < x)
  ((keys.foldl (fun (p : List Bool × Nat) x =>
    if t < x then (true :: p.1, p.2) else if x = t ∧ 0 < p.2 then (true :: p.1, p.2 - 1) else (false :: p.1, p.2)) ([], k - above)).1).reverse

/-- The sums of squares of a block's entries and of those not kept, each over the block's fixed tree in which a kept entry counts as
zero (R226). -/
def blockSquares (vs : List Nat) (kept : List Bool) : Nat × Nat :=
  let sq := vs.map fun v => mulF32 v v
  (treeOf addF32 12 sq, treeOf addF32 12 ((sq.zip kept).map fun p => if p.2 then 0 else p.1))

/-- A kept value as the block encoding takes it. A value that is not finite has no encoding in the manual, so its magnitude is a free
value (R280; log entry 1). -/
def keptVal (free i v : Nat) : FVal :=
  if (f32 v).isFin then f32 v else .fin (bitAt v 31) (Config.freeWord (free + i) % 32768) 112

/-- What thinning makes of one block: the segment's exponent and pairs, whether the encoding saturated, and the BF16 residual (R279,
R280, R281). -/
def thinBlock (free : Nat) (vs : List Nat) (kept : List Bool) : Nat × List (Nat × Int) × Bool × List Nat :=
  let es := (vs.zip kept).zipIdx
  let ks := es.filter (·.1.2)
  let enc := encodeBlock (ks.map fun e => keptVal free e.2 e.1.1)
  let pairs := (ks.zip enc.1.mants).map fun p => (p.1.2, p.2)
  let taken := fun (m : Int) => toF32 (.fin (decide (m < 0)) m.natAbs ((enc.1.exp : Int) - 142))
  let res := (es.foldl (fun (p : List Nat × List Int) e =>
    if e.1.2 then (fmtBF16.encode (f32 (subF32 e.1.1 (taken (p.2.headD 0)))) :: p.1, p.2.tail)
    else (fmtBF16.encode (f32 e.1.1) :: p.1, p.2)) ([], enc.1.mants)).1.reverse
  (enc.1.exp, pairs.filter fun p => p.2 != 0, enc.2, res)

/-- The key under which a residual block's check word is formed (R277). -/
def residualKey (key j step : Nat) : Nat := Nat.xor ((key + j) % 2 ^ 32) (step % 2 ^ 16 * 2 ^ 16)

/-- The check word of a residual block (R277). -/
def residualCheck (key j step : Nat) (payload : List Nat) : Nat :=
  fletcher (residualKey key j step :: wordsOf payload)

/-- The acquires of the reduction unit before its first block: the residual halves and the message half (R183, R278). -/
def State.acquireThin (s : State) (k c : Nat) (d : TDesc) : State × Acq :=
  let a := if d.op = 0x52 ∨ d.rzero then (s, .ok) else s.acquireCons k c d.linkRIn 9 4
  match a.2 with
  | .ok =>
    let b := if d.op = 0x52 then (a.1, true) else a.1.acquireProd k c d.linkROut 9
    let m := if b.2 then b.1.acquireProd k c d.linkMsg 9 else b
    (m.1, if m.2 then .ok else .stop)
  | x => (a.1, x)

/-- The reduction unit is done with its companion and goes on with the one that it has begun to read (R164, R224, R283). -/
def State.endThin (s : State) (k : Nat) : State := s.modCore k fun co => { co with thin := co.thinNext, thinNext := none }

/-- The companion given up with RESIDUE_FATAL (R161, R294). -/
def State.thinFatal (s : State) (k : Nat) (t : ThinRun) : State :=
  (s.endThin k).fault k 0x11 (some t.ctx) t.instr (t.array + 256 * t.half)

/-- Bytes that the reduction unit writes into the half of a link at an offset, behind the ownership check (R184, R278). -/
def State.thinWrite (s : State) (k c m off : Nat) (bs : List Nat) : State :=
  if bs.isEmpty then s
  else
    let a := s.heldBase k c m false + off
    let q := s.mayWrite k c m 9 1 0 a bs.length
    if q.2 then q.1.storeWrite k a bs else q.1

/-- The segment's measurement with one block's sums added (R284). -/
def State.measure (s : State) (k : Nat) (d : TDesc) (j : Nat) (sums : Nat × Nat) : State :=
  if d.op ≠ 0x51 then s
  else s.modCore k fun co => { co with segs := SMap.mod co.segs d.seg fun x =>
    let x := if j = 0 ∧ x.step ≠ some d.step then { x with g := 0, u := 0, blocks := 0, step := some d.step } else x
    { x with g := add64 x.g (wide64 sums.1), u := add64 x.u (wide64 sums.2), blocks := x.blocks + 1 } }

/-- A block thinned: its segment and its residual written into their halves (R225–R227, R279–R283, R293). -/
def State.emitBlock (s : State) (k : Nat) (t : ThinRun) (d : TDesc) (j : Nat) (resid : List Nat) : State :=
  let cs := ((slice t.blocks (128 * j) 128).flatMap fun b => (List.range 32).map fun i => toF32 (b.val i))
  let vs := if d.rzero then cs else (cs.zip resid).map fun p => addF32 p.1 (p.2 * 65536)
  let kept := keptFlags (2 ^ t.k) vs
  let r := thinBlock s.free vs kept
  let seg := if r.2.1.isEmpty then [] else segmentBytes j r.1 r.2.1
  let payload := r.2.2.2.flatMap (leBytes 2)
  let s := (s.bump (rVecSelBlocks k) 1).measure k d j (blockSquares vs kept)
  let s : State := if vs.any (fun v => !(f32 v).isFin) then { s with free := s.free + 4096 } else s
  let s := s.thinWrite k t.ctx d.linkMsg (64 + t.bytes) seg
  let s := s.thinWrite k t.ctx d.linkROut (8200 * j) (payload ++ leBytes 8 (residualCheck d.key j d.step payload))
  let s := s.bump (rVecBfpSat k) (if r.2.2.1 then 1 else 0)
  let s := if r.2.2.1 && !t.satSeen then s.eventCore k 0x0203 t.array 0 else s
  s.modCore k fun co => { co with thin := some { t with bytes := t.bytes + seg.length, segs := t.segs + (if seg.isEmpty then 0 else 1),
                                                         satSeen := t.satSeen || r.2.2.1 } }

/-- A block of the companion that leaves the selection unit (R225–R227, R276–R284). -/
def State.selectBlock (s : State) (k block : Nat) (upset : Bool) (t : ThinRun) : State :=
  let d := tdesc t.desc
  let a := if block = 0 then s.acquireThin k t.ctx d else (s, .ok)
  match a.2 with
  | .stop => (a.1.endThin k)
  | .wait => (a.1.again k (.selectionBlockDone k block upset))
  | .ok =>
    let s := a.1
    let mine := slice t.blocks (128 * block) 128
    if !(mine.all BfpBlock.ok) then (s.thinFatal k t)
    else if d.op = 0x52 then
      let out := mine.flatMap BfpBlock.bytes
      ((s.thinWrite k t.ctx d.linkMsg (64 + 8448 * block) out).modCore k fun co =>
        { co with thin := some { t with bytes := t.bytes + out.length } })
    else if d.rzero then (s.emitBlock k t d block [])
    else
      let addr := s.heldBase k t.ctx d.linkRIn true + 8200 * block
      let payload := s.storeRead k addr 8192
      if upset then (s.recoverStore k 4 addr 8200 1 (.selectionBlockDone k block false))
      else if leNat (s.storeRead k (addr + 8192) 8) ≠ residualCheck d.key block (d.step - 1) payload then
        (s.recoverStore k 4 addr 8200 2 (.selectionBlockDone k block false) none (residualKey d.key block (d.step - 1)))
      else (s.emitBlock k t d block ((chunksOf 2 4096 payload).map leNat))

/-- SELECTION_BLOCK_DONE (R225–R227, R276–R284): block j of the companion leaves the selection unit; under OP 0x52 its blocks pass
unchanged. `upset` says that the read of the residual fails its parity, which a retry may put right, as it may a failed check word; one that
fails again is uncorrectable (R278, R493). -/
def execSelectionBlockDone (k block : Nat) (upset : Bool) (s : State) : Out :=
  match (s.core k).thin with
  | none => .next s
  | some t => .next (s.under k t.ctx t.instr fun s => s.selectBlock k block upset t)

/-- HANDOFF_COMPLETE (R151, R164): the last block has been read and the half is FREE. `upset` says that a block fails its residue in the
hand-off read (R161). -/
def execHandoffComplete (k e : Nat) (upset : Bool) (s : State) : Out :=
  let en := SMap.get (s.core k).engines e
  let d := sdesc en.desc
  let s := s.modComp (4 * k + d.srcArray) (en.srcBase % 2) fun _ => {}
  match (s.core k).thin with
  | none => .next s
  | some t => .next (if upset then s.thinFatal k t else s)

/-- The decision on a segment's next k when its LAST descriptor completes (R285). -/
def State.decideK (s : State) (k : Nat) (d : TDesc) : State :=
  if !(d.op == 0x51 && d.last) then s
  else
    let seg := SMap.get (s.core k).segs d.seg
    let r := rVecThinSeg k d.seg
    let klog := s.fld r 3 0
    let sq := fun (x : Nat) => mul64 (wide64 x) (wide64 x)
    let hi := mul64 (sq (s.fld (rVecThinBand k) 31 0)) seg.g
    let lo := mul64 (sq (s.fld (rVecThinBand k) 63 32)) seg.g
    let bytes := fun (l : Nat) => 4 * seg.blocks * 2 ^ l
    let commit := s.fld (rVecThinCommit k) 39 0
    let wants := (d64 0).lt (d64 seg.g) && ge64 seg.u hi && decide (klog < s.fld r 15 12)
    let room := decide (commit + bytes (klog + 1) ≤ s.fld (rVecThinBudget k) 39 0 + bytes klog)
    let falls := (d64 seg.u).lt (d64 lo) && decide (s.fld r 11 8 < klog)
    let next := if wants then (if room then klog + 1 else klog) else if falls then klog - 1 else klog
    let s := if wants then s.bump (if room then rVecThinUp k else rVecThinHold k) 1
      else if falls then s.bump (rVecThinDown k) 1 else s
    let ratio := if (d64 seg.g).isZero then 0 else narrow64 (div64 seg.u seg.g)
    let s := ((s.setFld r 3 0 next).setFld r 31 16 seg.blocks).setFld r 63 32 ratio
    let s := s.setFld (rVecThinCommit k) 39 0 (commit + bytes next - seg.bytesPrev)
    s.modCore k fun co => { co with segs := SMap.mod co.segs d.seg fun x => { x with bytesPrev := bytes next } }

/-- The 64-byte header of a reduction message (R295). -/
def messageHeader (kind : Nat) (d : TDesc) (src : Coord) (core segs len : Nat) : List Nat :=
  let b := [kind, 0] ++ leBytes 2 d.coll ++ leBytes 2 d.matrix ++ leBytes 2 d.panel ++ leBytes 8 d.step ++ [src.x, src.y, src.z, core]
    ++ leBytes 2 d.replica ++ leBytes 2 1 ++ leBytes 4 segs ++ leBytes 4 len ++ List.replicate 24 0
  b ++ leBytes 8 (fletcher (d.key :: wordsOf b))

/-- THINNED_MESSAGE_RELEASE (R283, R285, R295): the header is written last, the message and residual halves are released, and the segment's
k is decided. The send path takes the half once the release shows (R186). -/
def execThinnedMessageRelease (k : Nat) (s : State) : Out :=
  match (s.core k).thin with
  | none => .next s
  | some t =>
    let d := tdesc t.desc
    let kind := if d.op = 0x52 then 1 else 2
    let s := s.under k t.ctx t.instr fun s =>
      let s := s.thinWrite k t.ctx d.linkMsg 0 (messageHeader kind d s.me k t.segs t.bytes)
      let s := s.applyRelease k t.ctx d.linkMsg false
      if d.op = 0x52 then s else s.applyRelease k t.ctx d.linkROut false
    .next ((s.decideK k d).endThin k)

/-- The owner of a panel in a collective's destination table: its coordinate and core (R299). -/
def State.panelOwner (s : State) (k : Nat) (c : CDesc) (panel : Nat) : Coord × Nat :=
  let b := s.storeRead k (c.dest + 8 * panel) 4
  (⟨b.getD 0 0, b.getD 1 0, b.getD 2 0⟩, b.getD 3 0)

/-- Bytes of the half that the send path reads, in the space of its link (R299, R667). -/
def State.halfBytes (s : State) (k c link n : Nat) : List Nat :=
  let a := s.heldBase k c link true
  if (s.link k c link).space = 0 then s.hbmRead a n else s.storeRead k a n

/-- The next upstream port of a combining router, if one is left, is granted the VC1 credit that it has been kept (R393). -/
def State.grantNext (s : State) (ports : List Nat) : State :=
  match ports with
  | [] => s
  | p :: _ => s.modPort p fun q => { q with owed := if q.withheld = 0 then q.owed else SMap.mod q.owed 1 (· + q.withheld), withheld := 0 }

/-- A message half taken by the send path and sent: into the combine buffer of a port's router, or straight to its owner (R298, R304, R308,
R393, R395). -/
def State.sendTaken (s : State) (k c link : Nat) (buffer : Option (Nat × List Nat)) (m : FabricMsg) (deadline : Nat) : State :=
  let a := s.acquireCons k c link 0x0B 6
  match a.2, buffer with
  | .ok, some (q, up) => (a.1.modPort q fun x =>
      { x with combineOwn := some ({ m with src := a.1.me, deadline := deadline }, k * 65536 + c * 256 + link), combineNext := up }).grantNext up
  | .ok, none => (a.1.sendMsg k c m (some deadline) (some (k, c, link))).1
  | _, _ => a.1

/-- The send path looks at a message half that has been released to it (R298, R304, R308, R343, R393–R395): nothing to do while it holds a half
or has none. At a combining point the message goes into the combine buffer of the outgoing port's router, and waits in its half while that is
taken; otherwise it goes straight to the owner of the panel. -/
def State.sendHalf (s : State) (k c link : Nat) : State :=
  let p := s.lowest k
  let hd := s.halfBytes k c link 64
  if (s.linkD k c link).consHolds || s.semVal k c (2 * link) == 0 then s
  else match s.collEntry p (fieldAt hd 2 2) with
    | none => s
    | some e =>
      let content := s.halfBytes k c link (64 + fieldAt hd 28 4)
      let dest := s.panelOwner k e.2 (fieldAt hd 6 2)
      let m : FabricMsg := { kind := 2, dest := dest.1, coll := e.2.coll, content := content, len := content.length }
      let deadline := s.collDeadline p e.2.coll
      let up := maskList 6 e.2.upstream
      match s.firstPort dest.1 with
      | none => s.sendTaken k c link none m deadline
      | some q =>
        if !e.2.combine then s.sendTaken k c link none m deadline
        else if !bitAt (s.part p).combine q then (s.bump rStraCombineSkip 1).sendTaken k c link none m deadline
        else if fieldAt hd 0 1 ≠ 1 ∨ up.isEmpty then s.sendTaken k c link none m deadline
        else if (s.port q).combineOwn.isSome then s.after (some p) 1 (.sendHalf k c link)
        else s.sendTaken k c link (some (q, up)) m deadline

end Sys2Proof.Machine
end

