-- ==== Sys2Proof/Machine/Reduction.lean ====
section
/-! DEFINITION. Reduction at the owner and at combining points: arming, the memory-controller adders, replica slots and BADD, the row
table, completion and lateness, combined messages, and resends (R288–R312, R393–R395, R445–R448). -/
namespace Sys2Proof.Machine

/-- A collective entry of the partition, by its number (R299). -/
def State.collAt (s : State) (k e : Nat) : CDesc := cdesc (SMap.get (s.part k).colls e)
/-- The state of a collective instance (R301). -/
def State.collD (s : State) (k e : Nat) : CollDyn := SMap.get (s.part k).collDyn e
/-- The state with a collective instance changed. -/
def State.modColl (s : State) (k e : Nat) (f : CollDyn → CollDyn) : State :=
  s.modPart k fun p => { p with collDyn := SMap.mod p.collDyn e f }

/-- The cycles of zeroing a collective's accumulator (R301). -/
def CDesc.armCycles (c : CDesc) : Nat := if c.summed then ceilDiv (c.panels * panelBytes) 3511 else 0

/-- ARM (R301): the memory controller starts zeroing the accumulator of collective entry `coll` for the current step. -/
def execArm (k _c coll : Nat) (s : State) : Out :=
  let p := s.lowest k
  let d := s.collAt p coll
  let s := s.modColl p coll fun _ => { step := s.stepOf k }
  .next ((s.later k d.armCycles (.armComplete p coll)).laterW (s.untilEnd (s.collDeadline p d.coll)) (.reduceLate p coll))

/-- A panel of an accumulator written to zero, with its header (R300, R301; log entry 8). -/
def State.zeroPanel (s : State) (key a : Nat) : State :=
  s.hbmWrite a (accHeader24 ++ leBytes 8 (fletcher (key % 2 ^ 32 :: wordsOf accHeader24)) ++ List.replicate (panelBytes - 32) 0)

/-- ARM_COMPLETE (R301, R311): the accumulator is zero, or the count word of a row table is, and the instance opens (log entry 99). -/
def execArmComplete (k coll : Nat) (s : State) : Out :=
  let d := s.collAt k coll
  let s := if d.summed then (List.range d.panels).foldl (fun s i =>
    s.zeroPanel (Config.accKey (SMap.get (s.part k).colls coll)) (d.acc + i * panelBytes)) s
    else if d.kind = 3 then s.hbmWrite d.slot (leBytes 4 0) else s
  .next (s.modColl k coll fun x => { x with opened := true })

/-- What an adder has done so far (R291–R294, R302): the state, the saturated additions, the blocks and segments accumulated, and whether every
check has passed. -/
structure Added where
  s : State
  sat : Nat := 0
  n : Nat := 0
  ok : Bool := true
deriving DecidableEq, Repr

/-- One block added into memory by the adder of its stack; a line that fails its CRC, which the retry reads again in vain, and a failed check
stop it with the block not written (R291, R292, R294, R302, R307). -/
def Added.block (x : Added) (a : Nat) (q : BfpBlock) : Added :=
  if !x.ok then x
  else if x.s.hbmBad a 66 then { x with s := x.s.bump (rMemCrcFail (a / 2 ^ 36)) 1, ok := false }
  else match addBlocks (BfpBlock.ofBytes (x.s.hbmRead a 66)) q with
    | none => { x with ok := false }
    | some r => { x with s := x.s.hbmWrite a r.1.bytes, sat := x.sat + (if r.2 then 1 else 0) }

/-- Blocks added at consecutive places. -/
def Added.blocks (x : Added) (a : Nat) (qs : List BfpBlock) : Added := qs.zipIdx.foldl (fun x q => x.block (a + 66 * q.2) q.1) x

/-- `n` more blocks or segments accumulated, if the checks passed (R313). -/
def Added.counted (x : Added) (n : Nat) : Added := if x.ok then { x with n := x.n + n } else x

/-- The segments of a thinned body, at most `fuel` of them (R296). -/
def splitSegs : Nat → List Nat → List (List Nat)
  | 0, _ => []
  | n + 1, b => if b.length < 8 then [] else
      let l := 8 + 4 * fieldAt b 2 2
      b.take l :: splitSegs n (b.drop l)

/-- The parts of a reduction message's body, which are added and checked one by one: blocks, segments or rows (R295–R297, R308). -/
def bodyParts (content : List Nat) : List (List Nat) :=
  let kind := fieldAt content 0 1
  let body := content.drop 64
  if kind = 1 then chunksOf 66 body.length body
  else if kind = 2 then splitSegs 257 body
  else chunksOf (fieldAt content 28 4 / max 1 (fieldAt content 24 4)) body.length body

/-- Does a part pass its residue checks (R112, R115, R298, R308)? -/
def partOk (kind : Nat) (b : List Nat) : Bool :=
  if kind = 1 then (BfpBlock.ofBytes b).ok
  else if kind = 2 then (readSegment b).isSome
  else (blocksOf (b.drop 8)).all BfpBlock.ok

/-- The bytes of a message's body that a resend leaves out, since its header is the whole message's (R447). -/
def skipped (content : List Nat) : Nat := fieldAt content 28 4 - (content.length - 64)

/-- The number of the first part that a message carries: a resend starts at a later one (R447). -/
def firstPart (content : List Nat) : Nat :=
  let kind := fieldAt content 0 1
  if kind = 1 then skipped content / 66
  else if kind = 3 then skipped content / max 1 (fieldAt content 28 4 / max 1 (fieldAt content 24 4)) else 0

/-- The place of a panel among those that this module owns, counted through the destination table (R299, R300). -/
def State.panelPlace (s : State) (c : CDesc) (panel : Nat) : Nat :=
  let k := c.acc / 2 ^ 36 / 2
  (List.range panel).countP fun q => (s.panelOwner k c q).1 == s.me

/-- The address of the row-table slot that a row takes: the matching one, or the first empty one of its 16 probes, and whether it is
claimed (R309, R310). -/
def State.rowSlot (s : State) (c : CDesc) (row step : Nat) : Option (Nat × Bool) :=
  let n := max 1 c.panels
  let h := row * 0x9E3779B1 % 2 ^ 32 * n / 2 ^ 32
  let probes := (List.range 16).map fun i => (h + i) % n
  let tag := fun (j : Nat) => leNat (s.hbmRead (c.acc + j * c.slotBytes + 4) 4)
  match probes.find? (fun j => tag j == step % 2 ^ 32 && leNat (s.hbmRead (c.acc + j * c.slotBytes) 4) == row) with
  | some j => some (j, false)
  | none => (probes.find? fun j => tag j != step % 2 ^ 32).map fun j => (j, true)

/-- A slot claimed for a row: its header and zero blocks, the list and the count (R310). -/
def State.claimRow (s : State) (c : CDesc) (row step j nblocks : Nat) : State :=
  let n := leNat (s.hbmRead c.slot 4)
  let s := s.hbmWrite (c.acc + j * c.slotBytes) (leBytes 4 row ++ leBytes 4 step ++ List.replicate (66 * nblocks) 0)
  (s.hbmWrite (c.slot + 4 + 4 * n) (leBytes 4 j)).hbmWrite c.slot (leBytes 4 (n + 1))

/-- A row added into the row table, or dropped when its 16 probes are taken (R308–R311). -/
def Added.row (x : Added) (c : CDesc) (step row : Nat) (blocks : List Nat) : Added :=
  let st := c.acc / 2 ^ 36
  let bs := blocksOf blocks
  if !x.ok then x
  else match x.s.rowSlot c row step with
    | none => { x with s := (x.s.bump (rMemEmbDrop st) 1).eventStack st 0x0204 0 row }
    | some (j, new) =>
      let x := if new then { x with s := x.s.claimRow c row step j bs.length } else x
      (x.blocks (c.acc + j * c.slotBytes + 8) bs).counted bs.length

/-- One part of a message added where it belongs (R302, R308). -/
def Added.part (x : Added) (c : CDesc) (content : List Nat) (place i : Nat) (b : List Nat) : Added :=
  let kind := fieldAt content 0 1
  let base := c.acc + place * panelBytes + 32
  if kind = 1 then (x.block (base + 66 * (firstPart content + i)) (BfpBlock.ofBytes b)).counted 1
  else if kind = 2 then
    match readSegment b with
    | none => { x with ok := false }
    | some (j, e, ps) =>
      (((List.range 128).filter fun y => ps.any fun p => p.1 / 32 == y).foldl (fun (x : Added) y =>
        x.block (base + 66 * (128 * j + y)) (segmentBlock e ps y)) x).counted 1
  else x.row c (fieldAt content 8 8) (fieldAt b 0 4) (b.drop 8)

/-- Parts of a message added in turn. -/
def Added.parts (x : Added) (c : CDesc) (content : List Nat) (place : Nat) (bs : List (List Nat)) : Added :=
  bs.zipIdx.foldl (fun x b => x.part c content place b.2 b.1) x

/-- The core whose memory controllers hold a collective's accumulator (R299, R667). -/
def CDesc.core (c : CDesc) : Nat := c.acc / 2 ^ 36 / 2

/-- The context whose link LINK_DONE is, if one declares it for the memory controllers (R305, R667). -/
def State.doneCtx (s : State) (c : CDesc) : Option Nat :=
  (List.range 8).find? fun x => (s.link c.core x c.linkDone).producer == 0x0A && (s.link c.core x c.linkDone).halves != 0

/-- Is every owned panel complete (R305)? -/
def State.allCounted (s : State) (k e : Nat) : Bool :=
  let c := s.collAt k e
  let x := s.collD k e
  (List.range (if c.summed then c.panels else 1)).all fun p =>
    decide (c.contrib ≤ (x.counted.filter (·.1 == p)).foldl (fun n q => n + q.2.2) 0)

/-- A collective instance completes: LINK_DONE is released as producer (R305). -/
def State.completeColl (s : State) (k e : Nat) : State :=
  let c := s.collAt k e
  if (s.collD k e).complete then s
  else
    let s := s.modColl k e fun x => { x with complete := true }
    match s.doneCtx c with
    | none => s
    | some x =>
      let a := s.acquireProd c.core x c.linkDone 0x0A
      if a.2 then a.1.applyRelease c.core x c.linkDone false true else a.1

/-- The delivery acknowledgement of a message (R445). -/
def State.ackMsg (s : State) (m : FabricMsg) : State := s.ctlTo m.src (.delivered m.src m.msgid)

/-- A message that failed a check: asked for again once from the failing part on, or RESIDUE_FATAL (R298, R447). `sat` says that an addition of
it has saturated. -/
def State.askAgain (s : State) (k e panel replica index : Nat) (m : FabricMsg) (sat : Bool := false) : State :=
  let c := s.collAt k e
  if (s.collD k e).retried.any (fun x => x.1 == panel && x.2.1 == replica) then s.fault c.core 0x11 none 0 (coordNum m.src)
  else
    ((s.modColl k e fun x => { x with retried := (panel, replica, sat) :: x.retried }).eventStack (c.acc / 2 ^ 36) 0x0109 index
      (coordNum m.src)).ctlTo m.src (.residueRetry m.src m.msgid index)

/-- A message's parts added in turn up to the first that fails its check on arrival; then the message is counted, or asked for again. A check that
fails in the adder is fatal, and what has been added stands (R293, R294, R298, R302, R305, R307, R313, R446). -/
def State.accumulate (s : State) (k e place : Nat) (m : FabricMsg) : State :=
  let c := s.collAt k e
  let kind := fieldAt m.content 0 1
  let panel := fieldAt m.content 6 2
  let replica := fieldAt m.content 20 2
  let st := c.acc / 2 ^ 36
  let parts := bodyParts m.content
  let good := parts.takeWhile (partOk kind)
  let told := (s.collD k e).retried.contains (panel, replica, true)
  let r := ({ s := s } : Added).parts c m.content place good
  let s := (r.s.bump (rMemAddBlocks st) r.n).bump (rMemAddSat st) r.sat
  let s := if r.sat = 0 ∨ told then s else s.eventStack st 0x0203 0 0
  if !r.ok then s.fault c.core 0x11 none 0 c.acc
  else if good.length < parts.length then s.askAgain k e panel replica (firstPart m.content + good.length) m (told || r.sat != 0)
  else
    let s := (s.modColl k e fun x => { x with counted := x.counted ++ [(place, replica, fieldAt m.content 22 2)] }).ackMsg m
    if s.allCounted k e then s.completeColl k e else s

/-- A contribution kept unsummed in its replica slot for a BADD (R298, R303). A slot of several panels holds them in order; a resend goes behind
what the slot has kept of the message. -/
def State.keepSlot (s : State) (k e place : Nat) (m : FabricMsg) : State :=
  let c := s.collAt k e
  let replica := fieldAt m.content 20 2
  let parts := bodyParts m.content
  let good := parts.takeWhile (partOk (fieldAt m.content 0 1))
  let at_ := c.slot + replica * c.slotBytes + place * (c.slotBytes / max 1 c.panels)
  let skip := skipped m.content
  let s := s.hbmWrite (at_ + (if skip = 0 then 0 else 64 + skip)) (if skip = 0 then m.content else m.content.drop 64)
  if good.length < parts.length then s.askAgain k e (fieldAt m.content 6 2) replica (firstPart m.content + good.length) m
  else
    let s := s.modColl k e fun x => { x with counted := x.counted ++ [(place, replica, fieldAt m.content 22 2)] }
    s.ackMsg m

/-- CONTRIBUTION_ARRIVAL (R294, R298, R301–R305, R307, R446): a reduction message at its owner. `check` says what fails: 0 nothing, 1 the header's
checksum, 2 a check inside the adder, 3 the first read of an accumulator line, which the retry puts right. -/
def execContributionArrival (p : Nat) (m : FabricMsg) (check : Nat) (s : State) : Out :=
  match s.recvPart p m with
  | none => .next s
  | some k =>
    match s.collEntry k m.coll with
    | none => .next (s.fault k 0x0B none 0 (coordNum m.src))
    | some (e, c) =>
      let hd := m.content
      let x := s.collD k e
      let place := if c.summed then s.panelPlace c (fieldAt hd 6 2) else 0
      let lo := fieldAt hd 20 2
      let n := fieldAt hd 22 2
      if check = 1 then .next (s.askAgain k e (fieldAt hd 6 2) lo 0 m)
      else if !x.opened || x.step != fieldAt hd 8 8 || !c.owner then .next (s.fault c.core 0x0B none 0 (coordNum m.src))
      else if x.counted.any (fun q => q.1 == place && decide (lo < q.2.1 + q.2.2) && decide (q.2.1 < lo + n)) then
        .next (s.fault c.core 0x0C none 0 (coordNum m.src))
      else if c.vecAdd && c.summed then .next (s.keepSlot k e place m)
      else if check = 2 then .next (s.fault c.core 0x11 none 0 c.acc)
      else if check = 3 then
        .next (((s.bump (rMemCrcFail (c.acc / 2 ^ 36)) 1).corrected c.core 0 0 c.acc 0 0).accumulate k e place m)
      else .next (s.accumulate k e place m)

/-- EMBEDDING_ROW_ARRIVAL (R308–R311): one row into the row table of a collective entry. `upset` says that a check in the adder fails. -/
def execEmbeddingRowArrival (k coll row : Nat) (blocks : List Nat) (upset : Bool) (s : State) : Out :=
  let c := s.collAt k coll
  let st := c.acc / 2 ^ 36
  let x := s.collD k coll
  if !x.opened then .next (s.fault c.core 0x0B none 0 row)
  else if upset || !((blocksOf blocks).all BfpBlock.ok) then .next (s.fault c.core 0x11 none 0 c.acc)
  else
    let r := ({ s := s } : Added).row c x.step row blocks
    let s := (r.s.bump (rMemAddBlocks st) r.n).bump (rMemAddSat st) r.sat
    let s := if r.sat = 0 then s else s.eventStack st 0x0203 0 0
    .next (if r.ok then s else s.fault c.core 0x11 none 0 c.acc)

/-- REDUCE_LATE (R305): at the end of the deadline beat the owner reports every replica that is not yet counted. The coordinate of a
replica index is a free value: no table of the image gives it (log entry 1). -/
def execReduceLate (k coll : Nat) (s : State) : Out :=
  let c := s.collAt k coll
  let x := s.collD k coll
  let dl := s.collDeadline k c.coll
  if x.complete || s.allCounted k coll then .next s
  else if s.beat ≤ dl then .next (s.laterW (s.untilEnd dl) (.reduceLate k coll))
  else
    let missing := (List.range c.contrib).filter fun r =>
      (List.range (if c.summed then c.panels else 1)).any fun p =>
        !(x.counted.any fun q => q.1 == p && decide (q.2.1 ≤ r) && decide (r < q.2.1 + q.2.2))
    .next (missing.foldl (fun s r =>
      let d := s.draw 24
      d.2.eventStack (c.acc / 2 ^ 36) 0x0205 r d.1) s)

/-- One slot of a panel added into the accumulator by the vector engine of core k (R293, R303): its saturations are counted, and told once. -/
def State.baddSlot (s : State) (k : Nat) (c : CDesc) (place replica : Nat) : State × Bool :=
  let a := c.slot + replica * c.slotBytes + place * (c.slotBytes / max 1 c.panels)
  let content := s.hbmRead a (64 + fieldAt (s.hbmRead a 64) 28 4)
  let r := ({ s := s } : Added).parts c content place (bodyParts content)
  let s := r.s.bump (rVecBfpSat k) r.sat
  (if r.sat = 0 then s else s.eventCore k 0x0203 0 0, r.ok)

/-- The passes of a slot: one per 64 blocks, one per 512 thinned pairs, for each contribution that the message contains (R303). -/
def State.slotPasses (s : State) (c : CDesc) (place replica : Nat) : Nat :=
  let hd := s.hbmRead (c.slot + replica * c.slotBytes + place * (c.slotBytes / max 1 c.panels)) 64
  fieldAt hd 22 2 *
    (if fieldAt hd 0 1 = 1 then ceilDiv (fieldAt hd 28 4 / 66) 64 else ceilDiv ((fieldAt hd 28 4 - 8 * fieldAt hd 24 4) / 4) 512)

/-- The replica slots of a collective's owned panels that hold a message, in increasing REPLICA order for each panel (R303). -/
def State.baddSlots (s : State) (p e : Nat) : List (Nat × Nat) :=
  let x := s.collD p e
  (List.range (s.collAt p e).panels).flatMap fun pl =>
    ((List.range 65536).filter fun r => x.counted.any fun q => q.1 == pl && q.2.1 == r).map fun r => (pl, r)

/-- A BADD over a collective's replica slots (R293, R294, R303). -/
def State.baddColl (s : State) (k c idx : Nat) (desc : List Nat) : State :=
  let p := s.lowest k
  let e := Config.baddColl desc
  let d := s.collAt p e
  let slots := s.baddSlots p e
  let passes := slots.foldl (fun n q => n + s.slotPasses d q.1 q.2) 0
  let r := slots.foldl (fun (x : State × Bool) q => if x.2 then x.1.baddSlot k d q.1 q.2 else x) (s, true)
  if r.2 then r.1.beginVector k c idx (12 + passes) 12 passes 0 desc false else r.1.faultCtx k c 0x11 idx

/-- A BADD over this module's own occurrences of an embedding row (R303, R308): `n` rows in slots from `slot` on are added, block by block, into
the row at `acc`, which takes the first one's row header (log entry 8). -/
def State.baddRows (s : State) (k c idx n slot bytes acc : Nat) (desc : List Nat) : State :=
  let row := fun (i : Nat) => s.hbmRead (slot + i * bytes) bytes
  let blocks := fun (i : Nat) => blocksOf (((row i).drop 8).take ((bytes - 8) / 66 * 66))
  let r := (List.range n).foldl (fun (x : Added) i => x.blocks (acc + 8) (blocks i))
    { s := if n = 0 then s else s.hbmWrite acc ((row 0).take 8) }
  let s := r.s.bump (rVecBfpSat k) r.sat
  let s := if r.sat = 0 then s else s.eventCore k 0x0203 0 0
  let passes := n * ceilDiv ((bytes - 8) / 66) 64
  if r.ok then s.beginVector k c idx (12 + passes) 12 passes 0 desc false else s.faultCtx k c 0x11 idx

/-- Does a BADD add this module's own rows? Its collective is one of rows (R303, R308; log entry 8). -/
def State.baddOfRows (s : State) (k : Nat) (desc : List Nat) : Bool := (s.collAt (s.lowest k) (Config.baddColl desc)).kind == 3

/-- BADD (R218, R293, R294, R303, R308): the replica slots added into the accumulator in increasing REPLICA order, or, for a collective of rows,
the module's own rows. -/
def execBadd (k c idx : Nat) (s : State) : Out :=
  let desc := s.vectorDesc k idx
  if (s.core k).vec.isSome then .next (s.faultCtx k c 0x0A idx)
  else if s.baddOfRows k desc then
    let q := Config.baddRows desc
    .next (s.baddRows k c idx q.1 q.2.1 q.2.2.1 q.2.2.2 desc)
  else .next (s.baddColl k c idx desc)

/-- VECTOR_DESCRIPTOR_COMPLETE (R210, R218, R261, R303, R305): the engine is free and its tiles leave the queue; a dense update sets its
shard's step, and a BADD completes its collective. -/
def execVectorDescriptorComplete (k : Nat) (s : State) : Out :=
  match (s.core k).vec with
  | none => .next s
  | some r =>
    let desc := (s.core k).update
    let s := (s.modCore k fun co => { co with vec := none, tq := co.tq.drop r.tiles }).setFld (rVecStatus k) 63 63 0
    let s := if r.tiles = 0 then s else s.tqLevel k
    let s := if r.writesL then s.setReg (rUpdShardStep k (udesc desc).shard) (BitVec.ofNat 64 (udesc desc).step) else s
    let p := s.lowest k
    let e := Config.baddColl desc
    .next (if fieldAt desc 0 1 = 0x30 ∧ !s.baddOfRows k desc ∧ s.allCounted p e then s.completeColl p e else s)

/-- A header's checksum after a change of its bytes 0 to 55: the sum of R106 is linear in the words, so the key is not needed (R295). -/
def reseal (old new : List Nat) : List Nat :=
  let m := 0xFFFFFFFF
  let f := fun (b : List Nat) => fletcher (0 :: wordsOf (b.take 56))
  let a0 := fieldAt old 56 4
  let b0 := fieldAt old 60 4
  let o := f old
  let n := f new
  new.take 56 ++ leBytes 4 ((a0 + n % 2 ^ 32 + (m - o % 2 ^ 32)) % m) ++ leBytes 4 ((b0 + n / 2 ^ 32 + (m - o / 2 ^ 32)) % m)

/-- Two dense messages summed: blocks under R291, the summed NCONTRIB and the lower REPLICA (R304, R393). -/
def combineMsg (own up : List Nat) : Option (List Nat × Nat) :=
  let hd := own.take 20 ++ leBytes 2 (min (fieldAt own 20 2) (fieldAt up 20 2)) ++ leBytes 2 (fieldAt own 22 2 + fieldAt up 22 2)
    ++ slice own 24 40
  let bs := ((bodyParts own).zip (bodyParts up)).foldl (fun (o : Option (List (List Nat) × Nat)) p => match o with
    | none => none
    | some (l, n) => (addBlocks (BfpBlock.ofBytes p.1) (BfpBlock.ofBytes p.2)).map fun r =>
        (r.1.bytes :: l, n + (if r.2 then 1 else 0))) (some ([], 0))
  bs.map fun r => (reseal own hd ++ r.1.reverse.flatMap id, r.2)

/-- UPSTREAM_MESSAGE_ADD (R298, R304, R393–R395, R447): an upstream message added at the router of port p, in the fixed order; the last
one sends the combined message. A message that comes before its turn waits for its credit. `upset` says that its header fails. -/
def execUpstreamMessageAdd (p from_ : Nat) (m : FabricMsg) (upset : Bool) (s : State) : Out :=
  let q := s.port p
  let again := s.laterW 1 (.upstreamMessageAdd p from_ m upset)
  match s.portPart p, q.combineOwn with
  | none, _ => .next s
  | some k, none => .next (if bitAt (s.part k).combine p then again else ((s.bump rStraCombineSkip 1).queueTx p m))
  | some k, some (own, w) =>
    if !bitAt (s.part k).combine p then .next ((s.bump rStraCombineSkip 1).queueTx p m)
    else if own.coll ≠ m.coll ∨ fieldAt own.content 8 8 ≠ fieldAt m.content 8 8 ∨ q.combineNext.head? ≠ some from_ then .next again
    else
      let parts := bodyParts m.content
      let good := (parts.takeWhile (partOk 1)).length
      match s.collEntry k m.coll with
      | none => .next s
      | some (e, _) =>
        if upset ∨ good < parts.length then
          .next (s.askAgain k e (fieldAt m.content 6 2) (fieldAt m.content 20 2) (if upset then 0 else good) m)
        else match combineMsg own.content m.content with
          | none => .next (s.fault k 0x11 none 0 p)
          | some (content, sat) =>
            let s := (s.bump rStraCombined 1).ackMsg m
            let s := if sat = 0 then s else s.eventCore k 0x0203 0 0
            let rest := q.combineNext.tail
            if rest.isEmpty then
              let s := s.modPort p fun x => { x with combineOwn := none, combineNext := [] }
              .next (s.sendMsg (w / 65536) (w / 256 % 256) { own with content := content, len := content.length } (some own.deadline)
                (some (w / 65536, w / 256 % 256, w % 256))).1
            else .next ((s.modPort p fun x => { x with combineOwn := some ({ own with content := content }, w), combineNext := rest }).grantNext rest)

/-- The parts of a message from an index on, behind its content header (R447). -/
def resendContent (content : List Nat) (index : Nat) : List Nat :=
  content.take 64 ++ ((bodyParts content).drop (index - firstPart content)).flatMap id

/-- DEADLINE_MISS raised for a message of this module: the target, the port on which retries occurred, and the count (R345, R460). -/
def State.missed (s : State) (o : OutMsg) : State :=
  let s := if o.port < 6 then s.bump (rLnkDeadlineMiss o.port) 1 else s
  s.raise { code := 0x0305, sev := severityOf 0x0305 true, source := 12 + o.port % 6, part := s.lowest o.core, ctx := o.ctx,
            detail := o.port, ext := coordNum o.hdr.dest, open_ := true }

/-- RESIDUE_RETRY (R447, R448): the source sends the content header and the parts from the failing one on as a new message, or raises
DEADLINE_MISS for the original when the resend is not admitted. -/
def execResidueRetry (id index : Nat) (s : State) : Out :=
  match s.sent.find? (fun o => o.hdr.msgid == id) with
  | none => .next s
  | some o =>
    let f := s.fresh
    let content := resendContent o.hdr.content index
    let m := { o.hdr with content := content, len := content.length, msgid := f.1 % 2 ^ 32 }
    let s : State := { f.2 with sent := f.2.sent.filter fun x => x.hdr.msgid != id }
    if o.port = 6 then .next (((s.keepSent { o with hdr := m }).laterW 0 (arrivalCmd 6 m)).shared m.len)
    else match (if s.portTakes o.core o.port m.kind (s.hops s.me m.dest)
                then s.admitFlits o.port m.len (s.hops s.me m.dest) m.deadline else none) with
      | none => .next (s.missed o)
      | some s' => .next (((s'.keepSent { o with hdr := m }).queueTx o.port m).shared m.len)

end Sys2Proof.Machine
end

