-- ==== Sys2Proof/Machine/Messages.lean ====
section
/-! DEFINITION. Fabric messages as they arrive: writes, acknowledgements and misses, gathers, and multicast with its branches, catch-up and
completion (R312, R345, R391, R392, R397–R399, R445, R449, R454–R460, R671–R673). -/
namespace Sys2Proof.Machine

/-- FABRIC_MESSAGE_ARRIVAL (R392, R424, R445, R544): a write is placed under the receiving partition's own bases and bounds, and DELIVERED goes
to its source. -/
def execFabricMessageArrival (p : Nat) (m : FabricMsg) (s : State) : Out :=
  match s.recvPart p m with
  | none => .next s
  | some k =>
    let r := s.placeFabric k m 0 m.content
    .next (if r.2 then r.1.ackMsg m else r.1)

/-- The message of this module with a number. -/
def State.sentMsg (s : State) (id : Nat) : Option OutMsg := s.sent.find? fun o => o.hdr.msgid == id
/-- The state without a message that has ended. -/
def State.dropSent (s : State) (id : Nat) : State := { s with sent := s.sent.filter fun o => o.hdr.msgid != id }

/-- DELIVERED (R345, R445): the message is acknowledged, and the half that it was sent from is released. -/
def execDelivered (id : Nat) (s : State) : Out :=
  match s.sentMsg id with
  | none => .next s
  | some o =>
    let s := s.dropSent id
    .next (match o.released with | some (k, c, l) => s.applyRelease k c l true | none => s)

/-- A gather that will not be answered (R449, R485): its context is refused and the entries it would have filled wait no more, or its
recovery has lost its source. -/
def State.gatherLost (s : State) (w : GatherWait) (deadline : Nat) : State :=
  let s : State := { s with gathers := s.gathers.filter fun g => g.msgid != w.msgid }
  match w.recovery with
  | some id => (match s.recovery id with | some r => s.lost r 2 | none => s)
  | none =>
    let s := s.modCore w.core fun co => { co with feeder := (List.range (ceilDiv w.rowBytes 64)).foldl (fun q j =>
      SMap.mod q (16 * w.row + j % 16) fun (x : FeederEntry) => { x with pending := SMap.set x.pending j none }) co.feeder }
    (s.notAdmitted w.core w.ctx (s.firstPort w.owner) w.owner deadline).endLull (s.lowest w.core) 0 (0x30000 + w.core)

/-- DEADLINE_MISS (R345, R448, R468, R485): the deadline beat has ended without acknowledgement. -/
def execDeadlineMiss (id : Nat) (s : State) : Out :=
  match s.sentMsg id with
  | none => .next s
  | some o =>
    if s.beat ≤ o.hdr.deadline ∨ o.missed then .next s
    else
      let s := if o.hdr.legacy then s else s.missed o
      let s : State := { s with sent := s.sent.map fun (x : OutMsg) => if x.hdr.msgid = id then { x with missed := true } else x }
      .next (match s.gathers.find? (fun g => g.msgid == id && g.recovery.isSome) with
        | some w => s.gatherLost w o.hdr.deadline
        | none => s)

/-- The items of a gather request: offset and length (R673). -/
def gatherItems (content : List Nat) : List (Nat × Nat) :=
  (List.range (min (fieldAt content 0 4) (content.length / 8))).map fun i => (fieldAt content (16 + 8 * i) 4, fieldAt content (20 + 8 * i) 4)

/-- The places that a gather request names at this module: core, space, address and length (R391, R673). -/
def State.gatherPlaces (s : State) (k : Nat) (m : FabricMsg) : List (Option (Nat × Nat × Nat × Nat)) :=
  (gatherItems m.content).map fun it =>
    (s.routePlace k { m with offset := m.offset + it.1 }).map fun q => (q.1, q.2.1, q.2.2.2, it.2)

/-- GATHER_REQUEST (R449, R485, R673): the owner reads the items with its own checks and admits a reply, or refuses. -/
def execGatherRequest (p : Nat) (m : FabricMsg) (upset : Bool) (s : State) : Out :=
  match s.recvPart p m with
  | none => .next s
  | some k =>
    let ps := s.gatherPlaces k m
    let badBound := ps.any fun q => match q with
      | none => true
      | some (_, sp, a, n) => if sp = 0 then !s.inBounds k a n else decide (2 ^ 25 < a + n)
    let bad := (ps.filterMap id).find? fun q => q.2.1 == 0 && s.hbmBad q.2.2.1 q.2.2.2
    if badBound then .next (s.fault k 0x06 none 0 m.offset)
    else if upset || bad.isSome then
      let q := (bad.orElse fun _ => (ps.filterMap id).head?).getD (k, 0, 0, 1)
      let s := s.beginRecovery q.1 q.2.1 0 (if q.2.1 = 0 then s.badAddr q.2.2.1 q.2.2.2 else q.2.2.1) (if q.2.1 = 0 then 256 else q.2.2.2)
        (if q.2.1 = 0 then 0 else 1) none false none none
      .next (s.laterW 252 (.gatherRequest p m false))
    else
      let data := (ps.filterMap id).flatMap fun q => if q.2.1 = 0 then s.hbmRead q.2.2.1 q.2.2.2 else s.storeRead q.1 q.2.2.1 q.2.2.2
      let content := leBytes 4 m.msgid ++ leBytes 4 ps.length ++ List.replicate 8 0 ++ data
      let f := s.fresh
      let r : FabricMsg := { kind := 5, dest := m.src, src := s.me, route := m.route, coll := m.coll, offset := m.offset, deadline := m.deadline,
                             len := content.length, msgid := f.1 % 2 ^ 32, content := content }
      match s.firstPort m.src with
      | none => .next ((s.laterW 0 (.gatherReply 6 r)).shared r.len)
      | some q =>
        let h := s.hops s.me m.src
        match (if s.portTakes k q 5 h then f.2.admitFlits q content.length h m.deadline else none) with
        | none => .next (s.ctlTo m.src (.gatherRefused m.src m.msgid s.me))
        | some s' => .next (((s'.keepSent { hdr := r, port := q, core := k }).queueTx q r).shared r.len)

/-- GATHER_REPLY (R449, R673): matched to its request by source and number, and delivered to the endpoint that asked. -/
def execGatherReply (p : Nat) (m : FabricMsg) (s : State) : Out :=
  let id := fieldAt m.content 0 4
  match s.gathers.find? (fun g => g.msgid == id && (g.owner == m.src || p == 6)) with
  | none => .next s
  | some w =>
    let s : State := { (s.dropSent id) with gathers := s.gathers.filter fun g => g.msgid != id }
    let s := if p = 6 then s else s.ackMsg m
    let data := m.content.drop 16
    match w.recovery with
    | none => .next (s.gatherDeliver w.core w.row (data.take w.rowBytes))
    | some rid =>
      match s.recovery rid with
      | none => .next s
      | some r => .next (if w.items = 2 then s.supply r 1 (data.take 32) (data.drop 32) else s.supply r 1 [] data)

/-- GATHER_REFUSED (R449, R485). -/
def execGatherRefused (id : Nat) (owner : Coord) (s : State) : Out :=
  match s.gathers.find? (fun g => g.msgid == id && g.owner == owner) with
  | none => .next s
  | some w => .next ((s.dropSent id).gatherLost w ((s.sentMsg id).map (·.hdr.deadline) |>.getD 0))

/-- A multicast passing through this module. -/
def State.mcast (s : State) (src : Coord) (id : Nat) : Option Mcast := s.mcasts.find? fun x => x.hdr.src == src && x.hdr.msgid == id
/-- The state with a multicast changed. -/
def State.modMcast (s : State) (src : Coord) (id : Nat) (f : Mcast → Mcast) : State :=
  { s with mcasts := s.mcasts.map fun x => if x.hdr.src = src ∧ x.hdr.msgid = id then f x else x }
/-- The state with one branch of a multicast changed. -/
def State.modBranch (s : State) (src : Coord) (id line : Nat) (f : Branch → Branch) : State :=
  s.modMcast src id fun x => { x with branches := x.branches.map fun b => if b.line = line then f b else b }

/-- A flit put into an outgoing branch (R398, R456), dropped and counted at a dark port (R441). -/
def State.pushPiece (s : State) (x : Mcast) (b : Branch) (i : Nat) (bs : List Nat) : State :=
  if s.linkState b.line ≠ 4 then s.bump (rLnkTransitDrop b.line) 1
  else
    let t := if i = 0 ∨ b.tag = 0 then (s.port b.line).nextTag + 1 else b.tag
    let s := if i = 0 ∨ b.tag = 0 then
        (s.modPort b.line fun q => { q with nextTag := (q.nextTag + 1) % 1024 }).modBranch x.hdr.src x.hdr.msgid b.line fun y => { y with tag := t }
      else s
    let h := { x.hdr with kind := 3, stage := b.stage, remain := b.remain, start := i, content := bs }
    s.modPort b.line fun q => { q with tx := q.tx ++ [{ hdr := h, vc := 3, tag := (t - 1) % 1024, last := x.flits, piece := true }] }

/-- A flit put into the local branch: the memory controller is to write it (R398). -/
def State.pushLocal (s : State) (x : Mcast) (i : Nat) (bs : List Nat) : State :=
  (s.modBranch x.hdr.src x.hdr.msgid 6 fun y => { y with buffered := y.buffered ++ [(i, bs)] }).laterW 0
    (.localBranchWrite x.hdr.src x.hdr.msgid i)

/-- One flit into one branch: with credit it is kept, else its index is the branch's gap, and it and every later flit are dropped
(R397, R398, R457). -/
def State.branchFlit (s : State) (x : Mcast) (b : Branch) (i : Nat) (bs : List Nat) : State :=
  if b.gap.isSome || x.dropped then s
  else if 256 ≤ s.held x b then s.modBranch x.hdr.src x.hdr.msgid b.line fun y => { y with gap := some i }
  else if b.line = 6 then s.pushLocal x i bs else s.pushPiece x b i bs

/-- A multicast first met at this module: its branches, and the moment its deadline ends (R397, R455, R460). -/
def State.openMcast (s : State) (p : Nat) (m : FabricMsg) : State :=
  let bs := s.branchesOf p m
  let x : Mcast := { hdr := { m with content := [] }, inPort := p, flits := flitsOf m.len, branches := bs,
                     member := bs.any fun b => b.line == 6 }
  let s : State := { s with mcasts := s.mcasts ++ [x] }
  if p = 6 then s else s.laterW (s.untilEnd m.deadline) (.multicastDeadline m.src m.msgid)

/-- The content of a catch-up message as the original flits it carries, with their indexes (R442, R458). -/
def catchupFlits (start : Nat) (content : List Nat) : List (Nat × List Nat) :=
  let first := if start = 0 then content.take 192 else content.take 240
  let rest := content.drop first.length
  (start, first) :: (chunksOf 240 rest.length rest).zipIdx.map fun p => (start + 1 + p.2, p.1)

/-- A catch-up message at its branch module: its flits enter the named branch alone (R458). -/
def State.catchupArrive (s : State) (m : FabricMsg) : State :=
  match s.mcast m.src m.msgid with
  | none => s
  | some x =>
    match x.branches.find? (fun b => if m.remain = 0 then b.line == 6 else b.line != 6 && b.stage == m.stage) with
    | none => s
    | some b =>
      let s := s.modBranch m.src m.msgid b.line fun y => { y with gap := none, asked := false }
      (catchupFlits m.start m.content).foldl (fun s f => match s.mcast m.src m.msgid with
        | some x => (match x.branches.find? (fun y => y.line == b.line) with
          | some y => if b.line = 6 then s.pushLocal x f.1 f.2 else s.pushPiece x y f.1 f.2
          | none => s)
        | none => s) s

/-- MULTICAST_FLIT (R397, R398, R455–R458): the flit is copied to every branch with credit; a catch-up message enters its own branch. -/
def execMulticastFlit (p : Nat) (m : FabricMsg) (i : Nat) (s : State) : Out :=
  if m.kind = 6 then .next (s.catchupArrive m)
  else
    let s := if (s.mcast m.src m.msgid).isSome then s else s.openMcast p m
    match s.mcast m.src m.msgid with
    | none => .next s
    | some x => .next (x.branches.foldl (fun s b => match s.mcast m.src m.msgid with
        | some y => s.branchFlit y b i m.content
        | none => s) s)

/-- The multicast has reached every member below: MCAST_COMPLETE goes down the tree and completes it here (R459). -/
def State.finishMcast (s : State) (x : Mcast) : State :=
  let s := (x.branches.filter fun b => b.line != 6).foldl (fun s b => s.sendCtl b.line (.mcastComplete x.hdr.src x.hdr.msgid)) s
  let s : State := { s with mcasts := s.mcasts.filter fun y => !(y.hdr.src == x.hdr.src && y.hdr.msgid == x.hdr.msgid) }
  let part := if x.inPort < 6 then s.portPart x.inPort else (s.sentMsg x.hdr.msgid).map fun o => s.lowest o.core
  let s := if !x.member then s else match part with
    | none => s
    | some k => match s.collEntry k x.hdr.coll with
      | some (e, _) => s.modColl k e fun c => { c with complete := true }
      | none => s
  if x.inPort = 6 then s.dropSent x.hdr.msgid else s

/-- MCAST_DONE goes towards the source once everything below this module and its own delivery are done; at the source the multicast is
complete (R399, R459). -/
def State.tryDone (s : State) (src : Coord) (id : Nat) : State :=
  match s.mcast src id with
  | none => s
  | some x =>
    if x.doneSent || x.dropped || (x.member && decide (x.written < x.flits)) || x.branches.any (fun b => b.line != 6 && !b.done) then s
    else if x.inPort = 6 then s.finishMcast x
    else (s.modMcast src id fun y => { y with doneSent := true }).sendCtl x.inPort (.mcastDone src id)

/-- Branches with a gap that have written or forwarded everything they kept ask the source for the rest (R457, R458). -/
def State.askCatchups (s : State) : State :=
  s.mcasts.foldl (fun s x => x.branches.foldl (fun s b => match b.gap with
    | none => s
    | some g =>
      if b.asked || x.dropped || s.held x b != 0 then s
      else
        let s := s.modBranch x.hdr.src x.hdr.msgid b.line fun y => { y with asked := true }
        let s := if x.inPort < 6 then s.bump (rLnkCatchup x.inPort) 1 else s
        s.ctlTo x.hdr.src (.catchup x.hdr.src x.hdr.msgid s.me b.line g)) s) s

/-- LOCAL_BRANCH_WRITE (R312, R392, R398, R399, R457, R459): the memory controller writes one buffered flit and returns its credit; while its
stack takes no access the flit waits. -/
def execLocalBranchWrite (src : Coord) (id i : Nat) (s : State) : Out :=
  match s.mcast src id with
  | none => .next s
  | some x =>
    let part := if x.inPort < 6 then s.portPart x.inPort else (s.sentMsg id).map fun o => s.lowest o.core
    match x.branches.find? (fun b => b.line == 6), part with
    | some b, some k =>
      match b.buffered.find? (fun f => f.1 == i) with
      | none => .next s
      | some f =>
        let st := match s.routePlace k x.hdr with | some (_, 0, _, a) => (a + flitOfs i) / 2 ^ 36 | _ => 8
        if s.maint.any (fun m => m.act == 4 && m.scope == st) then .next (s.laterW 1 (.localBranchWrite src id i))
        else
          let r := s.placeFabric k x.hdr (flitOfs i) f.2
          let s := r.1.modBranch src id 6 fun y => { y with buffered := y.buffered.filter fun g => g.1 != i }
          let s := if r.2 then s.modMcast src id fun y => { y with written := y.written + 1 } else s
          .next (s.askCatchups.tryDone src id)
    | _, _ => .next s

/-- The members left on a line beyond a branch module, and the line's stage (R455, R458). -/
def State.lineState (s : State) (m : FabricMsg) (at_ : Coord) (line : Nat) : Nat × Nat :=
  if 6 ≤ line then (0, 0)
  else
    let d := line / 2
    let n := max 1 (coordDim s.dims d)
    let cnt := if d = 0 then m.nx else if d = 1 then m.ny else m.nz
    let up := ceilDiv (cnt - 1) 2
    let all := if line % 2 = 0 then up else cnt - 1 - up
    let dist := if line % 2 = 0 then (coordDim at_ d + n - coordDim m.src d % n) % n else (coordDim m.src d + n - coordDim at_ d % n) % n
    (d + 4 * (line % 2), all - dist / max 1 (strideOf m d))

/-- CATCHUP (R458): the source admits a catch-up message for the branch, from the gap on; one that is not admitted is not sent. -/
def execCatchup (id : Nat) (branch : Coord) (line gap : Nat) (s : State) : Out :=
  match s.sentMsg id with
  | none => .next s
  | some o =>
    let st := s.lineState o.hdr branch line
    let content := o.hdr.content.drop (flitOfs gap)
    let m := { o.hdr with kind := 6, dest := branch, start := gap, stage := st.1, remain := st.2, content := content, len := content.length }
    let h := s.hops s.me branch
    match s.firstPort branch with
    | none => .next (s.laterW 0 (.multicastFlit 6 m 0))
    | some q =>
      match (if s.portTakes o.core q 6 h then s.admitFlits q content.length h m.deadline else none) with
      | none => .next s
      | some s' => .next ((s'.queueTx q m).shared m.len)

/-- MCAST_DONE (R459). -/
def execMcastDone (p : Nat) (src : Coord) (id : Nat) (s : State) : Out :=
  .next ((s.modBranch src id p fun b => { b with done := true }).tryDone src id)

/-- MCAST_COMPLETE (R459). -/
def execMcastComplete (p : Nat) (src : Coord) (id : Nat) (s : State) : Out :=
  match s.mcast src id with
  | none => .next s
  | some x => .next (if x.inPort = p then s.finishMcast x else s)

/-- MCAST_LAGGARD (R460): the source reports up to 16 laggards and counts the rest. -/
def execMcastLaggard (id : Nat) (member : Coord) (missing : Nat) (s : State) : Out :=
  match s.sentMsg id with
  | none => .next s
  | some o =>
    let n := o.laggards.length
    let s : State := { s with sent := s.sent.map fun (x : OutMsg) =>
      if x.hdr.msgid = id then { x with laggards := x.laggards ++ [member] } else x }
    .next (if 16 ≤ n then (if o.port < 6 then s.bump (rLnkMcastLaggard o.port) 1 else s)
      else s.raise { code := 0x0305, sev := severityOf 0x0305 true, source := 12 + o.port % 6, part := s.lowest o.core, ctx := o.ctx,
                     detail := missing % 2 ^ 24, ext := coordNum member, open_ := true })

/-- MULTICAST_DEADLINE (R460): held branches drop the message, an incomplete member reports itself, and the source raises DEADLINE_MISS. -/
def execMulticastDeadline (src : Coord) (id : Nat) (s : State) : Out :=
  match s.mcast src id with
  | none => .next s
  | some x =>
    if s.beat ≤ x.hdr.deadline ∨ x.dropped ∨ (x.inPort ≠ 6 ∧ x.doneSent) then .next s
    else
      let stuck := x.branches.filter fun b => b.gap.isSome || b.asked
      let s := stuck.foldl (fun s b => if b.line = 6 then s
        else s.modPort b.line fun q => { q with tx := q.tx.filter fun t => !(t.pieceOf src id) }) s
      let s := s.modMcast src id fun y => { y with
        dropped := true, branches := y.branches.map fun b => if b.gap.isSome || b.asked then { b with buffered := [] } else b }
      let late := x.member && decide (x.written < x.flits)
      let s := if late && !x.hdr.legacy then s.ctlTo src (.mcastLaggard src id s.me (x.flits - x.written)) else s
      .next (if x.inPort ≠ 6 then s else match s.sentMsg id with
        | some o => if x.hdr.legacy then s else s.missed o
        | none => s)

end Sys2Proof.Machine
end

