-- ==== Sys2Proof/Machine/Side.lean ====
section
/-! DEFINITION. The side bands: the TAP and the SMBus interface (R529, R545, R572, R605, R613–R615, R633, R636). -/
namespace Sys2Proof.Machine

/-- The IDCODE (R636). -/
def tapIdcode : Nat := 0xC961603F

/-- Does the TAP accept more than IDCODE and BYPASS (R529, R636)? -/
def State.tapOpen (s : State) : Bool := s.zen.unlocked && !s.anyConf

/-- The TAP's instruction register set: 0 IDCODE, 1 BYPASS, 2 SAMPLE/PRELOAD, 3 EXTEST, 4 DBG_ACCESS. -/
def State.tapIr (s : State) (n : Nat) : State := { s with tap := { s.tap with ir := n } }

/-- IDCODE (R636). -/
def execIdcode (s : State) : Out := .next ((s.tapIr 0).out (.tdo (leBytes 4 tapIdcode)))

/-- BYPASS (R636): the one-bit register captures 0. -/
def execBypass (s : State) : Out := .next ((s.tapIr 1).out (.tdo [0]))

/-- `n` free bytes, for pins that no rule gives a value (log entry 1). -/
def State.drawBytes : Nat → State → List Nat × State
  | 0, s => ([], s)
  | n + 1, s =>
    let d := s.draw 8
    let r := State.drawBytes n d.2
    (d.1 :: r.1, r.2)

/-- SAMPLE/PRELOAD (R636): the boundary register takes the data, and the sampled pins come out. -/
def execSamplePreload (data : List Nat) (s : State) : Out :=
  if !s.tapOpen then .next ((s.tapIr 1).out (.tdo [0]))
  else
    let r := State.drawBytes data.length (s.tapIr 2)
    .next (({ r.2 with tap := { r.2.tap with boundary := data } } : State).out (.tdo r.1))

/-- EXTEST (R636): the boundary register drives the pins, and the sampled pins come out. -/
def execExtest (data : List Nat) (s : State) : Out :=
  if !s.tapOpen then .next ((s.tapIr 1).out (.tdo [0]))
  else
    let r := State.drawBytes data.length (s.tapIr 3)
    let s : State := { r.2 with tap := { r.2.tap with boundary := data } }
    .next ((s.out (.pin "BOUNDARY" (leNat data))).out (.tdo r.1))

/-- DBG_ACCESS (R636): BAR0 with the rules of host port 0. -/
def execDbgAccess (write : Bool) (off size : Nat) (v : Word) (s : State) : Out :=
  if !s.tapOpen then .next ((s.tapIr 1).out (.tdo [0]))
  else
    let s := s.tapIr 4
    if write then .next (s.writeReg 0 off size v)
    else match s.readReg 0 off size with
      | (some b, s) => .next (s.out (.tdo b))
      | (none, s) => .next s

/-- An SMBus response, unless the module is held in reset (R613, R615). -/
def State.smbus (s : State) (b : List Nat) : State := if s.pwr.held then s else s.out (.smbus b)

/-- Set Endpoint ID (R613): 0 and 255 are no endpoint's. -/
def execSetEndpointId (eid : Nat) (s : State) : Out :=
  if s.pwr.held then .next s
  else if eid = 0 ∨ 255 ≤ eid then .next (s.smbus (0x01 :: 0x02 :: Config.mctpBody 1))
  else .next (({ s with eid := eid } : State).smbus (0x01 :: 0x00 :: eid :: Config.mctpBody 1))

/-- Get Endpoint ID (R613). -/
def execGetEndpointId (s : State) : Out := .next (s.smbus (0x02 :: 0x00 :: s.eid :: Config.mctpBody 2))

/-- Get MCTP Version Support (R613). -/
def execGetMctpVersionSupport (s : State) : Out := .next (s.smbus (0x04 :: 0x00 :: Config.mctpBody 4))

/-- Get Message Type Support (R613, R614): PLDM and PCI-vendor messages, as MCTP numbers them. -/
def execGetMessageTypeSupport (s : State) : Out := .next (s.smbus ([0x05, 0x00, 0x02, 0x01, 0x7E] ++ Config.mctpBody 5))

/-- Get Vendor Defined Message Support (R614): Krekin's vendor ID. -/
def execGetVendorDefinedMessageSupport (s : State) : Out := .next (s.smbus ([0x06, 0x00, 0xFF, 0x00, 0x1F, 0x6E] ++ Config.mctpBody 6))

/-- A PLDM Type 0 request (R614). -/
def execPldmBase (code : Nat) (s : State) : Out := .next (s.smbus (0x00 :: code :: Config.mctpBody (0x100 + code)))

/-- What a sensor reports (R614, R633; log entry 27): 0 PWR_SUPPLY, 1 PWR_THERMAL, 2 PWR_STATUS.STATE, 3 PWR_STATUS.PHASE, 4 ZEN_APPROVED,
5 PWR_SELFTEST, and from 0x1000 on the counters, by BAR0 offset divided by 8. -/
def State.sensor (s : State) (id : Nat) : Option Nat :=
  if id = 0 then some (s.reg rPwrSupply).toNat else if id = 1 then some (s.reg rPwrThermal).toNat
  else if id = 2 then some s.pwrState else if id = 3 then some s.startPh
  else if id = 4 then some (s.reg rZenApproved).toNat else if id = 5 then some (s.reg rPwrSelftest).toNat
  else
    let a := 8 * (id - 0x1000)
    match rowOf a with
    | some r => if 0x1000 ≤ id ∧ r.counter ≠ 0 ∧ !r.isLocal then some (Nat.land (Nat.land (s.reg a).toNat r.counter) (2 ^ 64 - 1 - s.hidden a)) else none
    | none => none

/-- A PLDM Type 2 sensor read (R614, R633). -/
def execPldmSensorRead (id : Nat) (s : State) : Out :=
  .next (match s.sensor id with
    | some v => s.smbus ([0x02, 0x00] ++ leBytes 8 v ++ Config.mctpBody 0x211)
    | none => s.smbus [0x02, 0x80])

/-- A PLDM Type 5 update (R614, R615): the inactive firmware slot is written, under the interface's OFFICER role. -/
def execPldmFirmwareUpdate (image : List Nat) (s : State) : Out :=
  if s.pwr.held then .next s
  else if s.roleOf 2 < 2 ∨ !s.zen.booted ∨ s.zen.booting then .next (s.smbus [0x05, 0x01])
  else
    let z := if s.zen.fwSlot = 0 then { s.zen with slotB := image } else { s.zen with slotA := image }
    .next (({ s with zen := z } : State).smbus [0x05, 0x00])

/-- A vendor-defined message that carries a mailbox command (R606, R614). -/
def execVendorDefinedMailbox (code : Nat) (arg : List Nat) (s : State) : Out :=
  if s.pwr.held then .next s
  else
    let a := arg.take 16384
    let s : State := if s.fld (rZenMbStatus + mbOfs 2) 63 63 = 1 then s else { s with mbuf := memWrite s.mbuf (2 * 2 ^ 16) a }
    .next (s.issue 2 code arg.length)

end Sys2Proof.Machine
end

