-- ==== Sys2Proof/Machine/Dispatch.lean ====
section
/-! DEFINITION. Which meaning each command has: one arm for each row of the table. -/
namespace Sys2Proof.Machine

/-- The effect of a command on everything but the queue of waiting commands. -/
def exec (i : Instr) (s : State) : Host.Outcome State Fault Refusal :=
  match i with
  | .stepStart k c unit => Sys2Proof.Machine.execStepStart k c unit s
  | .endStep k c => Sys2Proof.Machine.execEndStep k c s
  | .fetch k c e idx => Sys2Proof.Machine.execFetch k c e idx s
  | .feed k c e idx => Sys2Proof.Machine.execFeed k c e idx s
  | .inject k c e idx back => Sys2Proof.Machine.execInject k c e idx back s
  | .store k c e idx => Sys2Proof.Machine.execStore k c e idx s
  | .handoff k c e idx => Sys2Proof.Machine.execHandoff k c e idx s
  | .gather k c e idx => Sys2Proof.Machine.execGather k c e idx s
  | .receive k c e idx => Sys2Proof.Machine.execReceive k c e idx s
  | .release k c link consumer => Sys2Proof.Machine.execRelease k c link consumer s
  | .product k c a p => Sys2Proof.Machine.execProduct k c a p s
  | .halo k c a h => Sys2Proof.Machine.execHalo k c a h s
  | .vectorDescriptor k c idx upset => Sys2Proof.Machine.execVectorDescriptor k c idx upset s
  | .updateDescriptor k c idx => Sys2Proof.Machine.execUpdateDescriptor k c idx s
  | .thinningDescriptor k c idx => Sys2Proof.Machine.execThinningDescriptor k c idx s
  | .badd k c idx => Sys2Proof.Machine.execBadd k c idx s
  | .rearm k c => Sys2Proof.Machine.execRearm k c s
  | .arm k c coll => Sys2Proof.Machine.execArm k c coll s
  | .barrierArrive k c unit sense => Sys2Proof.Machine.execBarrierArrive k c unit sense s
  | .barrierDepart k c unit sense => Sys2Proof.Machine.execBarrierDepart k c unit sense s
  | .loop k c step count period body => Sys2Proof.Machine.execLoop k c step count period body s
  | .streamIssue k e upset => Sys2Proof.Machine.execStreamIssue k e upset s
  | .readLands id upset => Sys2Proof.Machine.execReadLands id upset s
  | .stratusTransferDelivery id => Sys2Proof.Machine.execStratusTransferDelivery id s
  | .tileQueueEntry A id t => Sys2Proof.Machine.execTileQueueEntry A id t s
  | .ringHalfRelease A half => Sys2Proof.Machine.execRingHalfRelease A half s
  | .haloTransferArrival id bad => Sys2Proof.Machine.execHaloTransferArrival id bad s
  | .haloAck id => Sys2Proof.Machine.execHaloAck id s
  | .tileResent id tile bad => Sys2Proof.Machine.execTileResent id tile bad s
  | .panelReinjected id => Sys2Proof.Machine.execPanelReinjected id s
  | .dwTileColumnAdded A id t upset => Sys2Proof.Machine.execDwTileColumnAdded A id t upset s
  | .companionResent id unit bad => Sys2Proof.Machine.execCompanionResent id unit bad s
  | .handoffComplete k e upset => Sys2Proof.Machine.execHandoffComplete k e upset s
  | .selectionBlockDone k block upset => Sys2Proof.Machine.execSelectionBlockDone k block upset s
  | .thinnedMessageRelease k => Sys2Proof.Machine.execThinnedMessageRelease k s
  | .vectorDescriptorComplete k => Sys2Proof.Machine.execVectorDescriptorComplete k s
  | .swallowedCycle => Sys2Proof.Machine.execSwallowedCycle s
  | .holdStart k rv => Sys2Proof.Machine.execHoldStart k rv s
  | .holdEnd k rv => Sys2Proof.Machine.execHoldEnd k rv s
  | .holdStartReceived k rv step src => Sys2Proof.Machine.execHoldStartReceived k rv step src s
  | .holdEndReceived k rv step src shift => Sys2Proof.Machine.execHoldEndReceived k rv step src shift s
  | .holdTimeout k rv => Sys2Proof.Machine.execHoldTimeout k rv s
  | .beatBoundary seen => Sys2Proof.Machine.execBeatBoundary seen s
  | .epoch => Sys2Proof.Machine.execEpoch s
  | .align p beat phase hops => Sys2Proof.Machine.execAlign p beat phase hops s
  | .refLoss => Sys2Proof.Machine.execRefLoss s
  | .barArrive unit sense p total => Sys2Proof.Machine.execBarArrive unit sense p total s
  | .barDepart unit sense p beat => Sys2Proof.Machine.execBarDepart unit sense p beat s
  | .barOpen unit sense p up => Sys2Proof.Machine.execBarOpen unit sense p up s
  | .eventTake => Sys2Proof.Machine.execEventTake s
  | .cirBad msg => Sys2Proof.Machine.execCirBad msg s
  | .flitReceived p f => Sys2Proof.Machine.execFlitReceived p f s
  | .nak p control seq => Sys2Proof.Machine.execNak p control seq s
  | .retryTimeout p control => Sys2Proof.Machine.execRetryTimeout p control s
  | .fabricMessageArrival p m => Sys2Proof.Machine.execFabricMessageArrival p m s
  | .delivered id => Sys2Proof.Machine.execDelivered id s
  | .deadlineMiss id => Sys2Proof.Machine.execDeadlineMiss id s
  | .residueRetry id index => Sys2Proof.Machine.execResidueRetry id index s
  | .gatherRequest p m upset => Sys2Proof.Machine.execGatherRequest p m upset s
  | .gatherReply p m => Sys2Proof.Machine.execGatherReply p m s
  | .gatherRefused id owner => Sys2Proof.Machine.execGatherRefused id owner s
  | .contributionArrival p m check => Sys2Proof.Machine.execContributionArrival p m check s
  | .armComplete k coll => Sys2Proof.Machine.execArmComplete k coll s
  | .reduceLate k coll => Sys2Proof.Machine.execReduceLate k coll s
  | .embeddingRowArrival k coll row blocks upset => Sys2Proof.Machine.execEmbeddingRowArrival k coll row blocks upset s
  | .upstreamMessageAdd p from_ m upset => Sys2Proof.Machine.execUpstreamMessageAdd p from_ m upset s
  | .multicastFlit p m j => Sys2Proof.Machine.execMulticastFlit p m j s
  | .catchup id branch line gap => Sys2Proof.Machine.execCatchup id branch line gap s
  | .mcastDone p src id => Sys2Proof.Machine.execMcastDone p src id s
  | .mcastComplete p src id => Sys2Proof.Machine.execMcastComplete p src id s
  | .mcastLaggard id member missing => Sys2Proof.Machine.execMcastLaggard id member missing s
  | .multicastDeadline src id => Sys2Proof.Machine.execMulticastDeadline src id s
  | .ident p r => Sys2Proof.Machine.execIdent p r s
  | .keyxInit p r => Sys2Proof.Machine.execKeyxInit p r s
  | .keyxResp p r => Sys2Proof.Machine.execKeyxResp p r s
  | .keyxDone p n => Sys2Proof.Machine.execKeyxDone p n s
  | .keySetRollover p => Sys2Proof.Machine.execKeySetRollover p s
  | .trainingStep p r => Sys2Proof.Machine.execTrainingStep p r s
  | .linkTrainFail p lanes => Sys2Proof.Machine.execLinkTrainFail p lanes s
  | .linkReset p => Sys2Proof.Machine.execLinkReset p s
  | .ready p broadcast => Sys2Proof.Machine.execReady p broadcast s
  | .startTimeout => Sys2Proof.Machine.execStartTimeout s
  | .startPhase => Sys2Proof.Machine.execStartPhase s
  | .retryLands id ok => Sys2Proof.Machine.execRetryLands id ok s
  | .copyReadLands id ok => Sys2Proof.Machine.execCopyReadLands id ok s
  | .recomputeDone id ok => Sys2Proof.Machine.execRecomputeDone id ok s
  | .verifyReadLands st line ok => Sys2Proof.Machine.execVerifyReadLands st line ok s
  | .remapUpdate st line => Sys2Proof.Machine.execRemapUpdate st line s
  | .patrolLineRead st bad => Sys2Proof.Machine.execPatrolLineRead st bad s
  | .patrolSweepStart st => Sys2Proof.Machine.execPatrolSweepStart st s
  | .memRecalDue st => Sys2Proof.Machine.execMemRecalDue st s
  | .maintenanceRequest h act scope line => Sys2Proof.Machine.execMaintenanceRequest h act scope line s
  | .recalibrationDone st => Sys2Proof.Machine.execRecalibrationDone st s
  | .memoryFillDone => Sys2Proof.Machine.execMemoryFillDone s
  | .rekeyGranuleLock st => Sys2Proof.Machine.execRekeyGranuleLock st s
  | .granuleMigrated st => Sys2Proof.Machine.execGranuleMigrated st s
  | .clearingStep k bad => Sys2Proof.Machine.execClearingStep k bad s
  | .clearDone k => Sys2Proof.Machine.execClearDone k s
  | .pstatToggle k => Sys2Proof.Machine.execPstatToggle k s
  | .loadComplete k sigOk => Sys2Proof.Machine.execLoadComplete k sigOk s
  | .exportDone h => Sys2Proof.Machine.execExportDone h s
  | .dumpCaptureDone k => Sys2Proof.Machine.execDumpCaptureDone k s
  | .dumpWritten k ok => Sys2Proof.Machine.execDumpWritten k ok s
  | .squall mv => Sys2Proof.Machine.execSquall mv s
  | .squallEnd mv => Sys2Proof.Machine.execSquallEnd mv s
  | .swallowRatioStep thermal => Sys2Proof.Machine.execSwallowRatioStep thermal s
  | .supplyLow mv => Sys2Proof.Machine.execSupplyLow mv s
  | .supplyHigh mv => Sys2Proof.Machine.execSupplyHigh mv s
  | .brownout mv => Sys2Proof.Machine.execBrownout mv s
  | .overvoltage mv => Sys2Proof.Machine.execOvervoltage mv s
  | .thermtrip tj => Sys2Proof.Machine.execThermtrip tj s
  | .pwrgd high => Sys2Proof.Machine.execPwrgd high s
  | .resetN => Sys2Proof.Machine.execResetN s
  | .perstN h => Sys2Proof.Machine.execPerstN h s
  | .functionLevelReset h => Sys2Proof.Machine.execFunctionLevelReset h s
  | .zenithWatchdog => Sys2Proof.Machine.execZenithWatchdog s
  | .zenithError => Sys2Proof.Machine.execZenithError s
  | .selfTest r => Sys2Proof.Machine.execSelfTest r s
  | .ideInsecure h => Sys2Proof.Machine.execIdeInsecure h s
  | .roleTimeout j => Sys2Proof.Machine.execRoleTimeout j s
  | .ringProducerRead k prod entries => Sys2Proof.Machine.execRingProducerRead k prod entries s
  | .ringSample k => Sys2Proof.Machine.execRingSample k s
  | .nop k e => Sys2Proof.Machine.execNop k e s
  | .stepRun k e => Sys2Proof.Machine.execStepRun k e s
  | .stepStop k e => Sys2Proof.Machine.execStepStop k e s
  | .mark k e => Sys2Proof.Machine.execMark k e s
  | .queuedStepStart k => Sys2Proof.Machine.execQueuedStepStart k s
  | .status j => Sys2Proof.Machine.execStatus j s
  | .abiOpen j version => Sys2Proof.Machine.execAbiOpen j version s
  | .login j role key sigOk => Sys2Proof.Machine.execLogin j role key sigOk s
  | .logout j => Sys2Proof.Machine.execLogout j s
  | .takeOwnership j key => Sys2Proof.Machine.execTakeOwnership j key s
  | .roleKeySet j role slot key => Sys2Proof.Machine.execRoleKeySet j role slot key s
  | .load j part addr len bases ptable => Sys2Proof.Machine.execLoad j part addr len bases ptable s
  | .unload j part => Sys2Proof.Machine.execUnload j part s
  | .recoveryTable j core addr entries => Sys2Proof.Machine.execRecoveryTable j core addr entries s
  | .signerSet j part keys => Sys2Proof.Machine.execSignerSet j part keys s
  | .export_ j part addr len data rec => Sys2Proof.Machine.execExport_ j part addr len data rec s
  | .clear j part => Sys2Proof.Machine.execClear j part s
  | .rekey j part => Sys2Proof.Machine.execRekey j part s
  | .partitionReset j part => Sys2Proof.Machine.execPartitionReset j part s
  | .partitionConfig j shape parts => Sys2Proof.Machine.execPartitionConfig j shape parts s
  | .powerState j target => Sys2Proof.Machine.execPowerState j target s
  | .fabricMap j map => Sys2Proof.Machine.execFabricMap j map s
  | .fwUpdate j slot image officer => Sys2Proof.Machine.execFwUpdate j slot image officer s
  | .svnCommit j svn => Sys2Proof.Machine.execSvnCommit j svn s
  | .zeroize j officer => Sys2Proof.Machine.execZeroize j officer s
  | .debugUnlock j key sigOk => Sys2Proof.Machine.execDebugUnlock j key sigOk s
  | .zenithReset j => Sys2Proof.Machine.execZenithReset j s
  | .aoRecord j => Sys2Proof.Machine.execAoRecord j s
  | .retest j => Sys2Proof.Machine.execRetest j s
  | .mailboxDoneRead j => Sys2Proof.Machine.execMailboxDoneRead j s
  | .persistentSlotArm h k slot v => Sys2Proof.Machine.execPersistentSlotArm h k slot v s
  | .persistentBaseWrite h k slot dst v => Sys2Proof.Machine.execPersistentBaseWrite h k slot dst v s
  | .freezeWrite h k v => Sys2Proof.Machine.execFreezeWrite h k v s
  | .scheduleParameterWrite h k set off v => Sys2Proof.Machine.execScheduleParameterWrite h k set off v s
  | .linkResetRequest h p => Sys2Proof.Machine.execLinkResetRequest h p s
  | .linkEnable h p v => Sys2Proof.Machine.execLinkEnable h p v s
  | .bar2BaseWrite h v => Sys2Proof.Machine.execBar2BaseWrite h v s
  | .dumpRelease h v => Sys2Proof.Machine.execDumpRelease h v s
  | .traceEnable h v => Sys2Proof.Machine.execTraceEnable h v s
  | .registerWrite h off size v => Sys2Proof.Machine.execRegisterWrite h off size v s
  | .bar2Read h off len upset => Sys2Proof.Machine.execBar2Read h off len upset s
  | .bar2Write h off bytes => Sys2Proof.Machine.execBar2Write h off bytes s
  | .testWindowWrite h st off bytes => Sys2Proof.Machine.execTestWindowWrite h st off bytes s
  | .testWindowRead h st off upset => Sys2Proof.Machine.execTestWindowRead h st off upset s
  | .getVersion h => Sys2Proof.Machine.execGetVersion h s
  | .getCapabilities h => Sys2Proof.Machine.execGetCapabilities h s
  | .negotiateAlgorithms h offered => Sys2Proof.Machine.execNegotiateAlgorithms h offered s
  | .getDigests h => Sys2Proof.Machine.execGetDigests h s
  | .getCertificate h slot off len => Sys2Proof.Machine.execGetCertificate h slot off len s
  | .challenge h nonce => Sys2Proof.Machine.execChallenge h nonce s
  | .getMeasurements h index => Sys2Proof.Machine.execGetMeasurements h index s
  | .keyExchange h ek => Sys2Proof.Machine.execKeyExchange h ek s
  | .finish h => Sys2Proof.Machine.execFinish h s
  | .keyUpdate h => Sys2Proof.Machine.execKeyUpdate h s
  | .endSession h => Sys2Proof.Machine.execEndSession h s
  | .ideKm h op => Sys2Proof.Machine.execIdeKm h op s
  | .idcode => Sys2Proof.Machine.execIdcode s
  | .bypass => Sys2Proof.Machine.execBypass s
  | .samplePreload data => Sys2Proof.Machine.execSamplePreload data s
  | .extest data => Sys2Proof.Machine.execExtest data s
  | .dbgAccess write off size v => Sys2Proof.Machine.execDbgAccess write off size v s
  | .setEndpointId eid => Sys2Proof.Machine.execSetEndpointId eid s
  | .getEndpointId => Sys2Proof.Machine.execGetEndpointId s
  | .getMctpVersionSupport => Sys2Proof.Machine.execGetMctpVersionSupport s
  | .getMessageTypeSupport => Sys2Proof.Machine.execGetMessageTypeSupport s
  | .getVendorDefinedMessageSupport => Sys2Proof.Machine.execGetVendorDefinedMessageSupport s
  | .pldmBase code => Sys2Proof.Machine.execPldmBase code s
  | .pldmSensorRead id => Sys2Proof.Machine.execPldmSensorRead id s
  | .pldmFirmwareUpdate image => Sys2Proof.Machine.execPldmFirmwareUpdate image s
  | .vendorDefinedMailbox code arg => Sys2Proof.Machine.execVendorDefinedMailbox code arg s
  | .flitBoundary p => Sys2Proof.Machine.execFlitBoundary p s
  | .localBranchWrite src id j => Sys2Proof.Machine.execLocalBranchWrite src id j s
  | .powerStateEntered => Sys2Proof.Machine.execPowerStateEntered s
  | .zenithBootDone ok => Sys2Proof.Machine.execZenithBootDone ok s
  | .startIdentFail p => Sys2Proof.Machine.execStartIdentFail p s
  | .hostLinkTrained h width rate => Sys2Proof.Machine.execHostLinkTrained h width rate s
  | .powerManagementState h d3 => Sys2Proof.Machine.execPowerManagementState h d3 s

end Sys2Proof.Machine
end

