-- ==== Sys2Proof/Machine/Idle.lean ====
section
/-! DEFINITION. What the clock brings while no command waits: the effect that is due, a partition's Clearing that may begin, the
instructions that issue in this cycle, and the next wall cycle (R23, R319, R335, R347, R363, R507; log entry 10). -/
namespace Sys2Proof.Machine

/-- Is a timed effect due now? A partition's own cycles stand still in its Lulls, in a swallowed cycle and while Zenith captures its state; what
belongs to the cycle in which a Lull was asked for happens in that cycle, but for a stage that waits (R68, R319, R333, R347, R402, R628). -/
def State.isDue (s : State) (d : Due) : Bool :=
  match d.dom with
  | none => if d.mode = .live then !s.swallowNext && decide (d.at_ ≤ s.clk.live) else decide (d.at_ ≤ s.clk.wall)
  | some k => !s.swallowNext && (s.part k).dumpState != 1 && (match d.mode with
    | .held => decide (d.at_ ≤ (s.part k).seqCycle) && (s.part k).lull.isEmpty
    | .resend => decide (d.at_ ≤ (s.part k).resendCycle)
    | _ => decide (d.at_ ≤ (s.part k).seqCycle))

/-- The priority of a timed effect that is a Cirrus message: barriers, holds, ring samples (R401). -/
def Act.cirrus : Act → Option Nat
  | .coreArrive .. => some 0
  | .departReach .. => some 0
  | .coreDepart .. => some 0
  | .cmd (.holdStartReceived ..) => some 1
  | .cmd (.holdEndReceived ..) => some 1
  | .cmd (.ringSample _) => some 2
  | _ => none

/-- The place of a timed effect among those of one cycle: the beat boundary, then releases, then the rest (R317, R409). -/
def Act.rank : Act → Nat
  | .cmd (.beatBoundary _) => 0
  | .releaseVisible .. => 1
  | _ => 2

/-- The timed effect that happens next: the first of the lowest rank that is due, but of Cirrus messages of one cycle the one of the lowest
priority number (R402, R409). -/
def State.nextDue (s : State) : Option Due :=
  match [0, 1, 2].findSome? fun n => s.agenda.find? fun d => s.isDue d && d.act.rank == n with
  | none => none
  | some d => if d.act.cirrus.isNone then some d
    else [0, 1, 2].findSome? fun n => s.agenda.find? fun x => s.isDue x && x.act.cirrus == some n

/-- A timed effect as the Cirrus message that arrives with it: its source and its 64 bits (R400, R401; log entry 104). -/
def State.cirrusOf (s : State) : Act → Option (Nat × Nat)
  | .coreArrive _ k u e _ => some (k, cirrusWord 1 k 22 (u + 64 * e + 128 * k))
  | .coreDepart u k e => some (k, cirrusWord 2 k 22 (u + 64 * e + 128 * k))
  | .departReach u e => some (22, cirrusWord 2 22 63 (u + 64 * e + 512 * (s.bar u).stamp))
  | .cmd (.barArrive u e p _) => some (12 + p, cirrusWord 1 (12 + p) 22 (u + 64 * e))
  | .cmd (.barDepart u e p b) => some (12 + p, cirrusWord 2 (12 + p) 22 (u + 64 * e + 512 * b))
  | .cmd (.barOpen u e p _) => some (12 + p, cirrusWord 3 (12 + p) 22 (u + 64 * e))
  | .cmd (.holdStartReceived _ rv n c) => some (22, cirrusWord 8 22 63 (rv + 256 * n + 2 ^ 24 * (coordNum c % 2 ^ 22)))
  | .cmd (.holdEndReceived _ rv n c _) => some (22, cirrusWord 8 22 63 (rv + 256 * n + 2 ^ 24 * (coordNum c % 2 ^ 22)))
  | .cmd (.ringSample k) => some (18 + s.owner k, cirrusWord 0x0A (18 + s.owner k) 20 (s.owner k + 2 * k + 16 * s.fld (rHifCrStatus k) 63 32))
  | _ => none

/-- The trace's record of a Cirrus message that arrives (R634). -/
def State.traceCirrus (s : State) (a : Act) : State := match s.cirrusOf a with | some x => s.traceRec 0 x.1 x.2 | none => s

/-- A timed effect happens: a command joins the queue, and an internal moment has its effect. -/
def State.runAct (s : State) (a : Act) : State :=
  match a with
  | .cmd i => { s with pending := s.pending ++ [i] }
  | .firstByte id => s.firstByte id
  | .coreArrive _ _ u sense _ => s.countArrival u sense
  | .departReach u sense => s.departReach u sense
  | .coreDepart u k sense => s.sawDepart u k sense
  | .releaseVisible k c m consumer => s.releaseSeen k c m consumer
  | .stepAnchor k => s.stepAnchor k
  | .feederSlot A id slot => s.feederSlot A id slot
  | .beginAdd A id => s.beginAdd A id
  | .sendHalf k c link => s.sendHalf k c link
  | .operandSlot A id slot => s.operandSlot A id slot
  | .tileArrive id tile => s.tileArrive id tile
  | .tileWrite id tile => s.tileWrite id tile
  | .deliverRead id => s.deliverRead id
  | .vectorTile k c idx tile => s.vectorTile k c idx tile
  | .storeOut k e en es => s.storeOut k e en es

/-- The partitions whose Clearing waits and may begin now (R507, R542, R560). -/
def State.mayClear (s : State) : List Nat :=
  (List.range 4).filter fun k => s.partValid k && (s.part k).clearAfter && s.zen.booted && !s.zen.booting &&
    s.fld rPwrStatus 63 61 != 4 && s.pstate k != 3 && (s.maintConflict 7 k).isNone

/-- The contexts whose next instruction is due, by core and context (R363). -/
def State.dueCtxs (s : State) : List (Nat × Nat) :=
  if s.swallowNext then []
  else (List.range 4).flatMap fun k => ((s.activeCtxs k).filter fun c => s.dueNow k c).map fun c => (k, c)

/-- A context issues its next instruction: the command that it stands for joins the queue (R360, R363, R634). -/
def State.issueNext (s : State) (k c : Nat) : State :=
  match s.nextInstr k c with
  | none => s
  | some q =>
    let x := s.ctx k c
    let i := s.instrCmd k c x.next q x.offset
    let w := leNat (slice (s.core k).program (64 + 16 * (x.first + x.next)) 8)
    let s := (s.modCtx k c fun y => y.advance (s.part (s.lowest k)).stepCycle).traceRec 1 k w
    { s with pending := s.pending ++ [i] }

/-- What happens while no command waits: one due effect, one Clearing, one instruction, one swallowed cycle or one cycle of the clock, the
first of them that there is. -/
def idle (s : State) : State :=
  match s.nextDue with
  | some d => (({ s with agenda := s.agenda.erase d } : State).traceCirrus d.act).runAct d.act
  | none =>
    match s.mayClear, s.dueCtxs with
    | k :: _, _ => s.beginClearing k []
    | [], x :: _ => s.issueNext x.1 x.2
    | [], [] => if s.swallowNext then { s with pending := [.swallowedCycle] } else s.serveHeld.askCatchups.passCycle false

end Sys2Proof.Machine
end

