-- ==== Sys2Proof/Safety.lean ====
section
/-! DEFINITION. What counts as a sound state and as an unchanged one: the canonical forms that every step keeps, and the parts of the
state that frames speak of. -/
namespace Sys2Proof.Machine

/-- The four byte memories are in canonical form: addresses rising, no listed byte zero (R500). -/
abbrev State.MemOk (s : State) : Prop :=
  Memory.wf s.hbm = true ∧ Memory.wf s.store = true ∧ Memory.wf s.lstore = true ∧ Memory.wf s.mbuf = true

/-- The listed registers rise, and none of them is listed at its reset value. -/
abbrev State.RegsOk (s : State) : Prop :=
  s.regs.Pairwise (fun a b => a.1 < b.1) ∧ ∀ e ∈ s.regs, e.2 ≠ resetWord e.1

/-- The state is held in its one canonical form, so that equal memories and equal registers are equal data. -/
abbrev State.Canonical (s : State) : Prop := s.MemOk ∧ s.RegsOk

/-- No byte of HBM, of a core store, of a local store or of a mailbox buffer differs. -/
def SameMem (s t : State) : Prop :=
  (∀ a, memGet t.hbm a = memGet s.hbm a) ∧ (∀ a, memGet t.store a = memGet s.store a) ∧
    (∀ a, memGet t.lstore a = memGet s.lstore a) ∧ ∀ a, memGet t.mbuf a = memGet s.mbuf a

/-- The registers that reporting an event may itself change: the trace buffer's level and the count of events lost (R403, R634). -/
def eventRegs : List Nat := [rDbgStatus, rCirEventOvf]

/-- The registers of every stack that show what maintenance runs there (R510). -/
def maintRegs : List Nat := (List.range 8).flatMap fun st => [rMemMaint st, rMemPatrol st]

/-- No register differs but those listed. -/
def SameRegsBut (l : List Nat) (s t : State) : Prop := ∀ r, r ∉ l → t.reg r = s.reg r

/-- Core k's engine `eng` holds, as producer of link m of context c, the half in which `n` bytes of the core store at `a` lie, and no table lies
there (R173, R183, R184). -/
abbrev State.ownsHalf (s : State) (k c m eng a n : Nat) : Prop :=
  m < 128 ∧ a + n ≤ 0x2000000 ∧ s.tableHit k a n = false ∧ s.linkHits k 1 0 a n = [linkKey c m] ∧
    (s.link k c m).within (s.linkD k c m).prodHalf a n = true ∧ (s.link k c m).producer = eng ∧ (s.linkD k c m).prodHolds = true

/-- Interface i's mailbox answers: the module is not held in reset and Zenith has booted (R556, R607). -/
abbrev State.mailboxAwake (s : State) (i : Nat) : Prop := s.pwr.held = false ∧ i ≤ 2 ∧ s.zen.booted = true ∧ s.zen.booting = false

/-- Interface i's mailbox answers every command: the module is not held in reset, Zenith has booted and the die is not in Overcast (R556, R573, R607). -/
abbrev State.mailboxLives (s : State) (i : Nat) : Prop :=
  s.pwr.held = false ∧ i ≤ 2 ∧ s.zen.booted = true ∧ s.zen.booting = false ∧ s.pwrState ≠ 5

/-- It serves a command of the role: a host port has agreed an ABI, and the interface holds at least that role (R520, R612). -/
abbrev State.mailboxOpen (s : State) (i role : Nat) : Prop :=
  s.mailboxLives i ∧ (i < 2 → s.fld (rGlbAbi + localStride * i) 7 0 ≠ 0) ∧ role ≤ s.roleOf i

/-- It serves a USER's command on the partition of lowest core k, which its port owns (R608). -/
abbrev State.mailboxPart (s : State) (i k : Nat) : Prop :=
  s.mailboxOpen i 1 ∧ k < 4 ∧ s.partValid k = true ∧ (i < 2 → s.owner k = i)

/-- A long-running command can be given a ticket, whose number no outstanding one of the interface bears (R607). -/
abbrev State.ticketRoom (s : State) (i : Nat) : Prop :=
  (s.zen.tickets.filter fun t => t.1 == i).length < 8 ∧ ∀ x ∈ s.zen.tickets, x.1 = i → x.2.1 ≠ s.zen.nextTicket

/-- The registers of interface i's mailbox, and ZEN_APPROVED. -/
def mailboxRegs (i : Nat) : List Nat := [rZenMbDetail + mbOfs i, rZenMbStatus + mbOfs i, rZenMbCmd + mbOfs i, rZenApproved]

/-- SEQ_CTX_STATUS of the four cores. -/
def ctxRegs : List Nat := (List.range 4).map rSeqCtxStatus

/-- Interface i shows a result: RESULT, DONE set, BUSY clear, and BUSY of the command register clear (R606). -/
abbrev State.answered (t : State) (i result : Nat) : Prop :=
  t.fld (rZenMbStatus + mbOfs i) 15 0 = result ∧ t.fld (rZenMbStatus + mbOfs i) 63 62 = 1 ∧ t.fld (rZenMbCmd + mbOfs i) 63 63 = 0

/-- A long-running command was accepted: RESULT is ACCEPTED and its ticket is outstanding (R607). -/
abbrev ticketOpened (s t : State) (i code : Nat) : Prop :=
  t.answered i 1 ∧ t.zen.tickets = s.zen.tickets ++ [(i, s.zen.nextTicket, code)]

/-- A long-running command was accepted and has ended well at once: its entry joins ZEN_MB_DONE (R607). -/
abbrev ticketDone (s t : State) (i code : Nat) : Prop :=
  t.answered i 1 ∧ t.zen.tickets = s.zen.tickets ∧ SMap.get t.zen.done i = SMap.get s.zen.done i ++ [(0, s.zen.nextTicket, code, 0)]

/-- Zenith answers an SPDM request of port h that needs the connection in state `need` (R519, R523). -/
abbrev State.attests (s : State) (h need : Nat) : Prop :=
  s.pwr.held = false ∧ h < 2 ∧ s.zen.booted = true ∧ s.zen.booting = false ∧ s.zen.alias_ ≠ none ∧ need ≤ (s.host h).spdm

/-- A response of that code and content goes out on port h, and no memory and no register differs but those listed. -/
def doeSent (l : List Nat) (s t : State) (h code : Nat) (content : List Nat) : Prop :=
  (∃ m, t.outbox = s.outbox ++ .doe h code (Config.spdmBody code content) :: m) ∧ SameMem s t ∧ SameRegsBut l s t

/-- A response goes out on the SMBus, and no memory and no register differs. -/
def smbusSent (s t : State) (b : List Nat) : Prop := t.outbox = s.outbox ++ [.smbus b] ∧ SameMem s t ∧ SameRegsBut [] s t

end Sys2Proof.Machine
end

