-- ==== Sys2Proof/Certificates/Slice0/Obligations.lean ====
section
/-! DEFINITION. The obligations: what each command does, what it leaves unchanged, and where it completes. -/
open Sys2Proof Sys2Proof.Machine

/-- What a product brings, in sequencer cycles of its core from its issue (R52, R55, R61, R85, R151, R160, R180): for one that goes to the companion
adder the first addition and its eight tile columns, else its eight tile rows; the release of the half it reads; its digit slots at the local stores and
at the feeder queue. -/
def productDues (s : State) (k a : Nat) (p : ProductArgs) : List Due :=
  let A := 4 * k + a
  let at_ := fun (d : Nat) (a : Act) => (({ dom := some (s.lowest k), at_ := s.cyc k + d, act := a } : Due) : Due)
  let c := cyclesOf p.sfmt
  (if s.toCompanion k a p then
      at_ (1152 * c + 14) (.beginAdd A s.nextId) ::
        (List.range 8).map fun t => at_ ((1152 + 128 * t) * c + 30) (.cmd (.dwTileColumnAdded A s.nextId t false))
    else (List.range 8).map fun t => at_ ((1152 + 128 * t) * c + 14) (.cmd (.tileQueueEntry A s.nextId t))) ++
  (if s.serialStored k a p then [] else [at_ (1024 * c) (.cmd (.ringHalfRelease A (s.arr A).readHalf))]) ++
  (if p.psrc && !s.serialStored k a p then [] else [at_ 0 (.operandSlot A s.nextId 0)]) ++
  (if p.psrc then [at_ 0 (.feederSlot A s.nextId 0)] else [])

/-- The products of an array as a product with CONT leaves them: the one it continues sends no tiles (R55). -/
def prodsBefore (s : State) (A : Nat) (p : ProductArgs) : List Product :=
  match p.cont, (s.arr A).last with
  | true, some q => (s.arr A).prods.map fun x => if x.id = q.id then { x with abandoned := true } else x
  | _, _ => (s.arr A).prods

/-- The operand pairs that a product with CONT takes over from the one before it (R55). -/
def pairsBefore (s : State) (A : Nat) (p : ProductArgs) : List Pair :=
  match p.cont, (s.arr A).last with
  | true, some q => q.pairs
  | _, _ => []

/-- A step with a command at the front of the queue is exec of that command on the state with the rest of the queue. On an empty queue a step always goes
on, to what the clock brings (log entry 10: the model's choice of what an empty queue does). -/
def Obligations.StepRunsFront : Prop :=
  (∀ (s : State) (c : Instr) (rest : List Instr), step { s with pending := c :: rest } = exec c { s with pending := rest }) ∧
  (∀ s : State, s.pending = [] → ∃ t : State, step s = .next t ∧ t = idle s)

/-- R364: LOOP opens a loop whose body is the next `body` instructions and whose iteration 0 begins at the LOOP's own cycle; a LOOP whose body is of no
instruction opens none, and its iterations pass unless a loop around it has just ended or gone on. Nothing else of the context, no other core, no
register and no memory changes. R366: END ends the context's step; while another active context of the core goes on, the partition's step goes on too.
R366, R625: when the last active context issues END, with none stopped, the partition is between steps again; with one stopped, the partition stops at
the end of the cycle. R324: after REF_LOSS a STEP_START is refused and nothing changes. R327, R418, R419, R402: STEP_START of a context that is not
the last of its core makes it wait and is counted, and no arrival is made yet; with the last active context's the core arrives, the context waits to
depart, and the unit, whose sense is open, counts the arrival 24 cycles later, no swallowed cycle among them. -/
def Obligations.ContextSteps : Prop :=
  (∀ (s : State) (k c : Nat) (inc : Int) (count period body : Nat),
    ∃ t : State, exec (.loop k c inc count period body) s = .next t ∧
      (t.ctx k c).loops = (if body = 0 then (s.ctx k c).loops else
        { start := (s.ctx k c).next, len := body, count := count, period := period, step := inc, t0 := (s.ctx k c).last } ::
          (s.ctx k c).loops) ∧
      (t.ctx k c).next = (s.ctx k c).next ∧
      (t.ctx k c).last = (if body = 0 ∧ (s.ctx k c).looped = false then (s.ctx k c).last + count * period else (s.ctx k c).last) ∧
      (∀ j, j ≠ k → t.core j = s.core j) ∧ SameMem s t ∧ SameRegsBut [] s t) ∧
  (∀ (s : State) (k c d : Nat), k ∈ s.partCores (s.lowest k) → d ∈ s.activeCtxs k → d ≠ c → (s.ctx k d).ended = false →
    (s.ctx k d).stopped = false →
    ∃ t : State, exec (.endStep k c) s = .next t ∧ (t.ctx k c).ended = true ∧ (t.ctx k c).stopped = (s.ctx k c).stopped ∧
      t.ctx k d = s.ctx k d ∧ t.parts = s.parts ∧ SameMem s t ∧ SameRegsBut [] s t) ∧
  (∀ (s : State) (k c : Nat), s.lowest k < 4 → k < 4 → (s.part (s.lowest k)).stopping = none →
    (s.modCtx k c fun x => { x with ended := true }).allQuiet (s.lowest k) = true →
    ((s.part (s.lowest k)).running = true → (s.part (s.lowest k)).queue = [] →
      (s.modCtx k c fun x => { x with ended := true }).anyStopped (s.lowest k) = false →
      ∃ t : State, exec (.endStep k c) s = .next t ∧ (t.part (s.lowest k)).running = false ∧ (t.part (s.lowest k)).inStep = false ∧
        (t.part (s.lowest k)).lull = [] ∧ SameMem s t) ∧
    ((s.part (s.lowest k)).fault = none → (s.modCtx k c fun x => { x with ended := true }).anyStopped (s.lowest k) = true →
      ∃ t : State, exec (.endStep k c) s = .next t ∧ (t.part (s.lowest k)).stopping.isSome = true ∧ SameMem s t ∧ SameRegsBut [] s t)) ∧
  (∀ (s : State) (k c u : Nat), (s.clk.refLost = true → exec (.stepStart k c u) s = .next s) ∧
    (s.clk.refLost = false → (s.part (s.lowest k)).fault = none →
      (Nat.land (Nat.lor (SMap.get (s.bar u).stepIssued k) (2 ^ c)) (s.fld (rSeqCtxStatus k) 15 8) ≠ s.fld (rSeqCtxStatus k) 15 8 →
        ∃ t : State, exec (.stepStart k c u) s = .next t ∧ (t.ctx k c).waiting = true ∧
          SMap.get (t.bar u).stepIssued k = Nat.lor (SMap.get (s.bar u).stepIssued k) (2 ^ c) ∧ t.agenda = s.agenda ∧ SameMem s t ∧
          SameRegsBut [] s t) ∧
      (Nat.land (Nat.lor (SMap.get (s.bar u).stepIssued k) (2 ^ c)) (s.fld (rSeqCtxStatus k) 15 8) = s.fld (rSeqCtxStatus k) 15 8 →
        u < 64 → k < 4 → (s.part (s.lowest k)).stopping = none → s.barHas u k = true → (s.owing u (s.arrSense u k)).contains k = false →
        s.barOpenAt u (s.arrSense u k) = true →
        ∃ t : State, exec (.stepStart k c u) s = .next t ∧ (t.ctx k c).waiting = true ∧ SMap.get (t.bar u).stepIssued k = 0 ∧
          (t.bar u).waiting = (s.bar u).waiting ++ [(k, c, s.depSense u k, true)] ∧ t.arrSense u k = 1 - s.arrSense u k ∧
          t.agenda = s.agenda ++ [({ dom := none, at_ := s.clk.live + 24, act := .coreArrive (s.barPart u) k u (s.arrSense u k) true, mode := .live } : Due)] ∧
          SameMem s t ∧ SameRegsBut [rBarState u] s t)))

/-- R599, R600: the entries of the step queue. A NOP that meets an empty queue leaves it empty; a STEP_RUN joins the queue of a loaded partition and waits
for its steps; a STEP_STOP cancels the steps of the running entry that have not started. No memory changes. R600: a MARK that no entry stands before,
in a completion ring with room, produces its record at once: 32 bytes of kind 3 (MARK_DONE) written at the ring's producer index, and PROD goes up by
one. -/
def Obligations.QueueCommands : Prop :=
  ((∀ (s : State) (k : Nat) (e : RingEntry), (s.part k).queue = [] →
    ∃ t : State, exec (.nop k e) s = .next t ∧ (t.part k).queue = [] ∧ t.outbox = s.outbox ∧ SameMem s t ∧
      SameRegsBut [rHifCrStatus k] s t) ∧
  (∀ (s : State) (k : Nat) (e : RingEntry), k < 4 → (s.part k).queue = [] → 0 < e.count → s.pstate k = 1 →
    ∃ t : State, exec (.stepRun k e) s = .next t ∧ (t.part k).queue = [{ kind := 1, entry := e, started := 0 }] ∧
      t.fld (rHifCrStatus k) 31 24 = 1 ∧ t.outbox = s.outbox ∧ SameMem s t ∧ SameRegsBut [rHifCrStatus k] s t) ∧
  (∀ (s : State) (k : Nat) (e : RingEntry) (q : QEntry), k < 4 → (s.part k).queue = [q] → q.kind = 1 → q.started < q.entry.count →
    (s.part k).running = true → (s.part k).records = [] → s.cqRoom k = false →
    ∃ t : State, exec (.stepStop k e) s = .next t ∧ (t.part k).queue = [{ q with entry := { q.entry with count := q.started } }] ∧
      (t.part k).records =
        [(recordBytes 4 0 e.seqno (q.entry.first + q.started) e.token (q.entry.count - q.started) s.beat, true)] ∧ SameMem s t)) ∧
  (∀ (s : State) (k : Nat) (e : RingEntry), k < 4 → (s.part k).queue = [] → (s.part k).records = [] → s.cqRoom k = true → e.notify = false →
    ∃ (t : State) (b : List Nat), exec (.mark k e) s = .next t ∧ (t.part k).queue = [] ∧ b.length = 32 ∧ b.head? = some 3 ∧
      t.outbox = s.outbox ++ [Output.hostWrite (s.owner k)
        ((s.reg (rHifCqBase k)).toNat + 32 * (s.fld (rHifCqStatus k) 63 32 % 2 ^ s.fld (rHifCqCtrl k) 3 0)) b] ∧
      t.fld (rHifCqStatus k) 63 32 = (s.fld (rHifCqStatus k) 63 32 + 1) % 2 ^ 32 ∧ SameMem s t)

/-- R594, R596–R598: a read of the producer word that stands one past CONS keeps the one new entry, when it passes the checks, for the next sample, the
word and the entry being as the host's memory or the device's holds them; the sample then moves CONS past it and brings the command that the entry is.
A ring that may not run is neither read nor sampled. R599: at the boundary at which the head entry's next step may start, every context of the
partition is made to begin its program, whose first instruction (STEP_START) was its number 0. -/
def Obligations.RingAndQueue : Prop :=
  ((∀ (s : State) (k : Nat) (b : List Nat), k < 4 → s.ringRuns k = true → s.fld (rHifCrCtrl k) 62 62 = 0 →
    (s.part k).queue.length < 16 → entryBad b (s.fld (rHifCrStatus k) 63 32) = false →
    ∃ t : State, exec (.ringProducerRead k ((s.fld (rHifCrStatus k) 63 32 + 1) % 2 ^ 32) [b]) s = .next t ∧
      (t.part k).fetched = [{ kind := fieldAt b 0 1, entry := ringEntry b }] ∧ (t.part k).refusedAt = none ∧
      (t.part k).prodRead = false ∧ SameMem s t ∧ SameRegsBut [] s t) ∧
  (∀ (s : State) (k n : Nat) (es : List (List Nat)) (b : List Nat), k < 4 → s.ringRuns k = true → s.fld (rHifCrCtrl k) 62 62 = 1 →
    s.ringBad k (s.fld (rHifCrStatus k) 63 32) 1 = none →
    leNat (s.ringBytes k (s.reg (rHifCrProdAddr k)).toNat 4) = (s.fld (rHifCrStatus k) 63 32 + 1) % 2 ^ 32 →
    s.deviceEntries k (s.fld (rHifCrStatus k) 63 32) 1 = [b] → (s.part k).queue.length < 16 →
    entryBad b (s.fld (rHifCrStatus k) 63 32) = false →
    ∃ t : State, exec (.ringProducerRead k n es) s = .next t ∧ (t.part k).fetched = [{ kind := fieldAt b 0 1, entry := ringEntry b }] ∧
      (t.part k).refusedAt = none ∧ (t.part k).prodRead = false ∧ SameMem s t ∧ SameRegsBut [] s t) ∧
  (∀ (s : State) (k : Nat) (q : QEntry), k < 4 → s.ringRuns k = true → (s.part k).fetched = [q] → (s.part k).refusedAt = none →
    ∃ t : State, exec (.ringSample k) s = .next t ∧ t.fld (rHifCrStatus k) 63 32 = (s.fld (rHifCrStatus k) 63 32 + 1) % 2 ^ 32 ∧
      (t.part k).fetched = [] ∧ t.agenda = s.agenda ++ [({ dom := none, at_ := s.clk.wall, act := .cmd (entryCmd k q) } : Due)] ∧
      SameMem s t ∧ SameRegsBut [rHifCrStatus k] s t) ∧
  (∀ (s : State) (k prod : Nat) (es : List (List Nat)), s.ringRuns k = false →
    ∃ t : State, exec (.ringProducerRead k prod es) s = .next t ∧ exec (.ringSample k) s = .next s ∧ (t.part k).prodRead = false ∧
      (t.part k).fetched = (s.part k).fetched)) ∧
  (∀ (s : State) (k : Nat) (q : QEntry) (r : List QEntry), s.clk.refLost = false → s.pstate k = 1 → (s.part k).running = false →
    (s.part k).starting = false → (s.part k).queue = q :: r → q.kind = 1 → q.started < q.entry.count →
    ∃ t : State, exec (.queuedStepStart k) s = .next t ∧ (t.part k).starting = true ∧
      (∀ j ∈ s.partCores k, ∀ c ∈ s.activeCtxs j, (t.ctx j c).waiting = true ∧ (t.ctx j c).next = 1 ∧ (t.ctx j c).ended = false) ∧
      SameMem s t ∧ SameRegsBut [] s t)

/-- R414, R402: an arrival of a core that takes part, with the sense expected of it, open and not already arrived, is accepted: the core's expected sense
flips and the unit counts it 24 unswallowed cycles later. No memory changes. R415, R402: a departure that has reached the core completes: the core's
expected departure sense flips, it owes that round nothing more, and the unit sees it 24 unswallowed cycles later. -/
def Obligations.BarrierRounds : Prop :=
  (∀ (s : State) (k c u e : Nat), u < 64 → k < 4 → e < 2 → s.barHas u k = true → s.arrSense u k = e → (s.owing u e).contains k = false →
    s.barOpenAt u e = true →
    ∃ t : State, exec (.barrierArrive k c u e) s = .next t ∧ t.arrSense u k = 1 - e ∧ t.owing u e = s.owing u e ++ [k] ∧
      t.agenda = s.agenda ++ [({ dom := none, at_ := s.clk.live + 24, act := .coreArrive (s.barPart u) k u e false, mode := .live } : Due)] ∧
      SameMem s t ∧ SameRegsBut [rBarState u] s t) ∧
  (∀ (s : State) (k c u e : Nat), u < 64 → k < 4 → e < 2 → s.barHas u k = true → s.depSense u k = e → (s.owing u e).contains k = true →
    s.mayDepart u k e = true →
    ∃ t : State, exec (.barrierDepart k c u e) s = .next t ∧ t.depSense u k = 1 - e ∧ (t.owing u e).contains k = false ∧
      t.agenda = s.agenda ++ [({ dom := none, at_ := s.clk.live + 24, act := .coreDepart u k e, mode := .live } : Due)] ∧ SameMem s t ∧
      SameRegsBut [rBarState u] s t)

/-- R414, R402, R418: a child's BAR_ARRIVE with the expected subtree total counts one arrival while more are awaited. The last one clears ARR and OPEN of
the sense: a unit that is no root sends BAR_ARRIVE with its own total to its parent, and the root completes the round with this beat as the stamp.
BAR_DEPART from the parent completes it with the stamp it carries. A completed round sets DONE, sends BAR_DEPART to the children and reaches the cores
24 unswallowed cycles later. Links that are up carry what is sent. R416, R417: BAR_OPEN from the parent opens the sense at a unit that holds no
arrival back and goes on to the children. From a child it counts that child, and while a core or another child has still to depart, no register
changes; the last one, at a unit that holds no arrival back, clears DONE, and the root opens the sense again while another unit tells its parent.
Links that are up carry what is sent. -/
def Obligations.BarrierMessages : Prop :=
  ((∀ (s : State) (u e p total : Nat), u < 64 → e < 2 → (s.barChildren u).contains p = true → total = (s.bar u).totals.getD p 0 →
    s.barArr u e + 1 < s.fld (rBarCfg u) 45 42 →
    ∃ t : State, exec (.barArrive u e p total) s = .next t ∧ t.barArr u e = s.barArr u e + 1 ∧ t.agenda = s.agenda ∧ t.ports = s.ports ∧
      SameMem s t ∧ SameRegsBut [rBarState u] s t) ∧
  (∀ (s : State) (u e p total : Nat), u < 64 → e < 2 → (s.barChildren u).contains p = true → total = (s.bar u).totals.getD p 0 →
    s.fld (rBarCfg u) 45 42 ≤ s.barArr u e + 1 → s.barRoot u = false → s.linkState (s.barParent u) = 4 →
    ∃ t : State, exec (.barArrive u e p total) s = .next t ∧ t.barArr u e = 0 ∧ t.barOpenAt u e = false ∧
      (t.port (s.barParent u)).ctl = (s.port (s.barParent u)).ctl ++ [CtlRec.barArrive u e (s.fld (rBarCfg u) 17 0)] ∧
      t.agenda = s.agenda ∧ SameMem s t ∧ SameRegsBut [rBarState u] s t) ∧
  (∀ (s : State) (u e p total : Nat), u < 64 → e < 2 → (s.barChildren u).contains p = true → total = (s.bar u).totals.getD p 0 →
    s.fld (rBarCfg u) 45 42 ≤ s.barArr u e + 1 → s.barRoot u = true →
    ∃ t : State, exec (.barArrive u e p total) s = .next t ∧ t.barArr u e = 0 ∧ t.barOpenAt u e = false ∧ t.barDoneAt u e = true ∧
      (t.bar u).stamp = s.beat ∧ t.agenda = s.agenda ++ [({ dom := none, at_ := s.clk.live + 24, act := .departReach u e, mode := .live } : Due)] ∧
      (∀ q ∈ s.barChildren u, s.linkState q = 4 → (t.port q).ctl = (s.port q).ctl ++ [CtlRec.barDepart u e s.beat]) ∧
      SameMem s t ∧ SameRegsBut [rBarState u] s t) ∧
  (∀ (s : State) (u e p beat : Nat), u < 64 → e < 2 → s.barRoot u = false → p = s.barParent u →
    ∃ t : State, exec (.barDepart u e p beat) s = .next t ∧ t.barDoneAt u e = true ∧ (t.bar u).stamp = beat ∧
      t.agenda = s.agenda ++ [({ dom := none, at_ := s.clk.live + 24, act := .departReach u e, mode := .live } : Due)] ∧
      (∀ q ∈ s.barChildren u, s.linkState q = 4 → (t.port q).ctl = (s.port q).ctl ++ [CtlRec.barDepart u e beat]) ∧
      SameMem s t ∧ SameRegsBut [rBarState u] s t)) ∧
  ((∀ (s : State) (u e p : Nat), u < 64 → e < 2 → s.barRoot u = false → p = s.barParent u → (s.bar u).held = [] →
    ∃ t : State, exec (.barOpen u e p false) s = .next t ∧ t.barOpenAt u e = true ∧
      (∀ q ∈ s.barChildren u, s.linkState q = 4 → (t.port q).ctl = (s.port q).ctl ++ [CtlRec.barOpen u e false]) ∧
      t.agenda = s.agenda ∧ SameMem s t ∧ SameRegsBut [rBarState u] s t) ∧
  (∀ (s : State) (u e p : Nat), (s.barChildren u).contains p = true →
    ((SMap.get (s.bar u).sense e).2.1 ≠ [] ∨ ∃ q ∈ s.barChildren u, q ≠ p ∧ q ∉ (SMap.get (s.bar u).sense e).2.2) →
    ∃ t : State, exec (.barOpen u e p true) s = .next t ∧
      (SMap.get (t.bar u).sense e).2.2 = (SMap.get (s.bar u).sense e).2.2 ++ [p] ∧ t.agenda = s.agenda ∧ t.ports = s.ports ∧
      SameMem s t ∧ SameRegsBut [] s t) ∧
  (∀ (s : State) (u e p : Nat), u < 64 → e < 2 → (s.barChildren u).contains p = true → s.barDoneAt u e = true →
    (SMap.get (s.bar u).sense e).2.1 = [] → (∀ q ∈ s.barChildren u, q ≠ p → q ∈ (SMap.get (s.bar u).sense e).2.2) → (s.bar u).held = [] →
    ∃ t : State, exec (.barOpen u e p true) s = .next t ∧ t.barDoneAt u e = false ∧
      (s.barRoot u = true → t.barOpenAt u e = true ∧
        ∀ q ∈ s.barChildren u, s.linkState q = 4 → (t.port q).ctl = (s.port q).ctl ++ [CtlRec.barOpen u e false]) ∧
      (s.barRoot u = false → s.linkState (s.barParent u) = 4 →
        (t.port (s.barParent u)).ctl = (s.port (s.barParent u)).ctl ++ [CtlRec.barOpen u e true]) ∧
      t.agenda = s.agenda ∧ SameMem s t ∧ SameRegsBut [rBarState u] s t))

/-- R417: an arrival or a departure of a core that takes no part in the unit raises the fault BARRIER_COUNT (0x08) of its context, in a partition that has
not yet faulted. R417, R400: a BAR_ARRIVE from a port that is no child or whose subtree total differs from the record's, a BAR_DEPART or BAR_OPEN down
that reaches the root or comes from a port that is not the parent, and a BAR_OPEN up from a port that is no child fault the unit's partition with
BARRIER_COUNT; the event's source is the barrier block, node 22. -/
def Obligations.BarrierFaults : Prop :=
  (∀ (s : State) (k c u e : Nat), s.barHas u k = false →
    exec (.barrierArrive k c u e) s = .next (s.fault k 0x08 (some c) (s.ctx k c).cmdIndex u) ∧
      exec (.barrierDepart k c u e) s = .next (s.fault k 0x08 (some c) (s.ctx k c).cmdIndex u)) ∧
  ((∀ (s : State) (u e p total : Nat), ((s.barChildren u).contains p = false ∨ total ≠ (s.bar u).totals.getD p 0) →
    exec (.barArrive u e p total) s = .next (s.fault (s.barPart u) 0x08 none 0 u 0 22)) ∧
  (∀ (s : State) (u e p beat : Nat), (s.barRoot u = true ∨ p ≠ s.barParent u) →
    exec (.barDepart u e p beat) s = .next (s.fault (s.barPart u) 0x08 none 0 u 0 22)) ∧
  (∀ (s : State) (u e p : Nat), (s.barRoot u = true ∨ p ≠ s.barParent u) →
    exec (.barOpen u e p false) s = .next (s.fault (s.barPart u) 0x08 none 0 u 0 22)) ∧
  (∀ (s : State) (u e p : Nat), (s.barChildren u).contains p = false →
    exec (.barOpen u e p true) s = .next (s.fault (s.barPart u) 0x08 none 0 u 0 22)))

/-- R166, R167, R175, R188: a stream descriptor starts on an engine that is idle and past its busy time, when its destination takes in no ring-buffer or
companion half: the engine runs that descriptor from issue 0, for the context that issued it, and its first issue comes in the same cycle. Holds alike
for FETCH, FEED, INJECT, STORE, HANDOFF and GATHER. R166, R663: a RECEIVE on an idle engine, whose link has its halves in no ring-buffer or companion
half, waits for 256 × AUX_COUNT bytes in the producer half of its link, after any RECEIVE before it on the link, and keeps its engine busy for that
cycle only. -/
def Obligations.StreamsStart : Prop :=
  (∀ (s : State) (k c e idx : Nat), (SMap.get (s.core k).engines e).running = false →
    (SMap.get (s.core k).engines e).busyUntil ≤ s.cyc k → s.namesHalf k c (sdesc (s.streamDesc k idx)) = none →
    ∀ i ∈ [(.fetch k c e idx : Instr), .feed k c e idx, .inject k c e idx false, .inject k c e idx true, .store k c e idx,
      .handoff k c e idx, .gather k c e idx],
    ∃ t : State, exec i s = .next t ∧ (SMap.get (t.core k).engines e).running = true ∧
      (SMap.get (t.core k).engines e).desc = s.streamDesc k idx ∧ (SMap.get (t.core k).engines e).issue = 0 ∧
      (SMap.get (t.core k).engines e).index = idx ∧ (SMap.get (t.core k).engines e).ctx = c ∧
      t.agenda = s.agenda ++ [({ dom := some (s.lowest k), at_ := s.cyc k, act := .cmd (.streamIssue k e false) } : Due)] ∧
      SameMem s t ∧ SameRegsBut [] s t) ∧
  (∀ (s : State) (k c e idx : Nat), (SMap.get (s.core k).engines e).running = false →
    (SMap.get (s.core k).engines e).busyUntil ≤ s.cyc k → s.namesHalf k c (sdesc (s.streamDesc k idx)) = none →
    ∃ t : State, exec (.receive k c e idx) s = .next t ∧
      (t.core k).receives = (s.core k).receives ++
        [{ core := k, ctx := c, engine := e, link := (sdesc (s.streamDesc k idx)).linkOut,
           half := (s.linkD k c (sdesc (s.streamDesc k idx)).linkOut).prodHalf, count := 0,
           target := 256 * (sdesc (s.streamDesc k idx)).auxCount, acquired := false }] ∧
      (SMap.get (t.core k).engines e).running = false ∧ (SMap.get (t.core k).engines e).busyUntil = s.cyc k + 1 ∧ SameMem s t ∧
      SameRegsBut [] s t)

/-- R175: a descriptor issued to an engine that runs, or is still busy, does not start: the busy-stage fault STAGE_BUSY (0x0A) of the context is raised
instead. R154, R166, R188: one whose destination takes in a ring-buffer or companion half raises HALF_OWNERSHIP (0x03), with the array, the half, its
state and the kind of writer as log entry 94 lays them out. R206: a descriptor for a vector engine that runs another raises STAGE_BUSY (0x0A) and does
nothing else; R275: a fifth thinning descriptor raises SEM_OVERFLOW (0x02). R50, R42: a product issued while its array still streams the last one
raises STAGE_BUSY (0x0A). R41, R129, R361: one whose serial panel, in a ring-buffer half that no resend holds, or whose parallel block, behind no
link, does not carry its format in every header raises TILE_FORMAT (0x04). Nothing runs in either case. -/
def Obligations.BusyFaults : Prop :=
  (∀ (s : State) (k c e idx : Nat),
    ∀ i ∈ [(.fetch k c e idx : Instr), .feed k c e idx, .inject k c e idx false, .inject k c e idx true, .store k c e idx,
      .handoff k c e idx, .gather k c e idx, .receive k c e idx],
    (((SMap.get (s.core k).engines e).running = true ∨ s.cyc k < (SMap.get (s.core k).engines e).busyUntil) →
      exec i s = .next (s.fault k 0x0A (some c) (s.ctx k c).cmdIndex e)) ∧
    (∀ x, (SMap.get (s.core k).engines e).running = false → (SMap.get (s.core k).engines e).busyUntil ≤ s.cyc k →
      s.namesHalf k c (sdesc (s.streamDesc k idx)) = some x → exec i s = .next (s.fault k 0x03 (some c) (s.ctx k c).cmdIndex x))) ∧
  ((∀ (s : State) (k c idx : Nat) (u : Bool), (s.core k).vec.isSome = true →
    ∀ i ∈ [(.vectorDescriptor k c idx u : Instr), .updateDescriptor k c idx, .badd k c idx],
      exec i s = .next (s.faultCtx k c 0x0A idx)) ∧
  (∀ (s : State) (k c idx : Nat), 4 ≤ (s.core k).thinQ.length →
    exec (.thinningDescriptor k c idx) s = .next (s.faultCtx k c 0x02 idx))) ∧
  ((∀ (s : State) (k c a : Nat) (p : ProductArgs) (q : Product), (s.arr (4 * k + a)).last = some q →
    s.cyc k < q.issuedAt + 1024 * max q.c (cyclesOf p.sfmt) →
    exec (.product k c a p) s = .next (s.faultCtx k c 0x0A (4 * k + a))) ∧
  (∀ (s : State) (k c a : Nat) (p : ProductArgs),
    (∀ q, (s.arr (4 * k + a)).last = some q → q.issuedAt + 1024 * max q.c (cyclesOf p.sfmt) ≤ s.cyc k) → p.psrc = true → p.upset = 0 →
    s.serialStored k a p = false → s.resendInto (4 * k + a) (s.arr (4 * k + a)).readHalf = none → (s.serialOperand k a p).2 = false →
    exec (.product k c a p) s = .next (s.faultCtx k c 0x04 (4 * k + a))) ∧
  (∀ (s : State) (k c a : Nat) (p : ProductArgs),
    (∀ q, (s.arr (4 * k + a)).last = some q → q.issuedAt + 1024 * max q.c (cyclesOf p.sfmt) ≤ s.cyc k) → p.psrc = false → p.upset = 0 →
    s.linkHits k 2 (s.poolArray k a p.pbase (p.pfmt + 1)) p.pbase (128 * elemBits (p.pfmt + 1) + 2) = [] →
    s.serialStored k a p = false → s.resendInto (4 * k + a) (s.arr (4 * k + a)).readHalf = none → (s.parallelOperand k a p).2 = false →
    exec (.product k c a p) s = .next (s.faultCtx k c 0x04 (4 * k + a))))

/-- R174, R189, R302: an issue of a FETCH or FEED from HBM, within bounds, from no link and from no accumulator that is still being added to, makes one
variable-latency read of its unit; the engine goes on to its next issue INTERVAL cycles later. Nothing is written yet. R190, R192, R197: the read of a
FETCH's header block into a core store, where no link half or descriptor table lies, copies the block's 2,048 bytes to where its issue placed it when
it lands, and is then no longer in flight. HBM is unchanged, and so is every byte of the core stores outside the block; of the registers only the
count of bytes on the shared plane may change. R386, R396: a scheduled-plane transfer into the core store of one core is gone with its delivery. A
tile's payload is written at its place of the tile group, after the 2,048 bytes of the header block, and a header block's headers at the front of the
group; stated where no descriptor table and no link half lies, for a tile whose header has gone before it and for a block whose headers are known. -/
def Obligations.ReadsRun : Prop :=
  (∀ (s : State) (k e : Nat) (en : Engine) (d : SDesc), SMap.get (s.core k).engines e = en → sdesc en.desc = d → en.running = true →
    (d.kind = 1 ∨ d.kind = 2) → d.src = 0 → d.srcBuf = false → d.dstBuf = false → en.issue + 1 < 65 * d.panels →
    (∀ r ∈ d.srcRanges en.srcBase en.issue, s.inBounds (s.lowest k) r.1 r.2 = true ∧ s.accShut k r.1 r.2 = false) →
    ∃ (t : State) (r : Read), exec (.streamIssue k e false) s = .next t ∧ t.reads = s.reads ++ [r] ∧ r.core = k ∧ r.engine = e ∧ r.unit = en.issue ∧
      r.src = en.srcBase ∧ r.kind = d.kind ∧ r.link = 255 ∧ r.issuedAt = s.cyc k ∧ r.landed = false ∧
      (SMap.get (t.core k).engines e).issue = en.issue + 1 ∧
      t.agenda = s.agenda ++ [({ dom := some (s.lowest k), at_ := s.cyc k + d.interval, act := .cmd (.streamIssue k e false) } : Due)] ∧
      SameMem s t ∧ SameRegsBut [] s t) ∧
  (∀ (s : State) (r : Read) (d : SDesc), s.reads = [r] → sdesc r.desc = d → r.kind = 1 → d.src = 0 → d.dst = 1 → d.dstBuf = false →
    d.srcFormat ≠ fcBFP16 → r.unit = 0 → r.link = 255 → r.dstBase + 2048 ≤ 0x2000000 →
    s.tableHit r.core r.dstBase 2048 = false → s.linkHits r.core 1 0 r.dstBase 2048 = [] →
    s.hbmBad r.src 2048 = false → d.place 0 = (0, 0, 0) →
    ∃ t : State, exec (.readLands r.id false) s = .next t ∧ t.reads = [] ∧
      t.store = memWrite s.store (storeKey r.core r.dstBase) (s.hbmRead r.src 2048) ∧ t.hbm = s.hbm ∧ t.lstore = s.lstore ∧
      (∀ a, a < storeKey r.core r.dstBase ∨ storeKey r.core r.dstBase + 2048 ≤ a → memGet t.store a = memGet s.store a) ∧
      SameRegsBut [rStraSharedBytes] s t) ∧
  ((∀ (s : State) (x : StraTransfer) (j u : Nat), s.stra = [x] → x.cores = [j] → x.space = 1 → x.tile = some u → x.hdrs = [] →
    x.off + (x.group + 2048 + u * tileBytes x.fmt) + x.data.length ≤ 0x2000000 →
    s.tableHit j (x.off + (x.group + 2048 + u * tileBytes x.fmt)) x.data.length = false →
    s.linkHits j 1 0 (x.off + (x.group + 2048 + u * tileBytes x.fmt)) x.data.length = [] →
    ∃ t : State, exec (.stratusTransferDelivery x.id) s = .next t ∧ t.stra = [] ∧
      t.store = memWrite s.store (storeKey j (x.off + (x.group + 2048 + u * tileBytes x.fmt))) x.data ∧
      t.hbm = s.hbm ∧ t.lstore = s.lstore ∧ SameRegsBut [] s t) ∧
  (∀ (s : State) (x : StraTransfer) (j : Nat) (a b : List Nat), s.stra = [x] → x.cores = [j] → x.space = 1 → x.tile = none → x.hdrs = [a, b] →
    a.length = 32 → b.length = 32 → x.off + x.group + 64 ≤ 0x2000000 →
    (∀ i ∈ [0, 32], s.tableHit j (x.off + (x.group + i)) 32 = false ∧ s.linkHits j 1 0 (x.off + (x.group + i)) 32 = []) →
    ∃ t : State, exec (.stratusTransferDelivery x.id) s = .next t ∧ t.stra = [] ∧
      t.store = memWrite (memWrite s.store (storeKey j (x.off + x.group)) a) (storeKey j (x.off + (x.group + 32))) b ∧
      t.hbm = s.hbm ∧ t.lstore = s.lstore ∧ SameRegsBut [] s t))

/-- R197, R199: at a re-arm point an armed slot that is due and idle takes its stored bases: ARMED is cleared and TAKEN set, when the bases keep the
stream's extent within bounds. Stated for a core of which slot 0 alone is armed and whose STR_PS_ARM registers no write has reached in this cycle; a
write that has come in this cycle stands, and the slot goes by the word before it. R183, R185, R186, R192: a release, a consumer's or that of a
producer with no read into its half in flight, gives up the half, moves to the other half of a link of two, and its semaphore rises two sequencer
cycles later; where the consumer is the send path, that looks at the half then. Stated for a partition in no Lull, with no write into the half held
back. R185: a release that would raise a semaphore above the number of the link's halves raises SEM_OVERFLOW (0x02), a consumer's and a producer's
alike; R192, R480: a producer's release waits with a Lull of the partition while a read into its half is in flight or a write into it is held back. -/
def Obligations.BasesAndHalves : Prop :=
  (∀ (s : State) (k c : Nat) (w : Word), k < 4 → s.slotBusy k 0 = false →
    s.slotInBounds k 0 (s.fld (rStrPsSrc k 0) 39 0) (s.fld (rStrPsDst k 0) 39 0) = true → getF w 63 63 = 1 → getF w 55 0 ≤ s.beat →
    (∀ p, p < 64 → p ≠ 0 → s.fld (rStrPsArm k p) 63 63 = 0 ∧ s.armSeen k p = none) →
    (s.reg (rStrPsArm k 0) = w → s.armSeen k 0 = none →
      ∃ t : State, exec (.rearm k c) s = .next t ∧ t.fld (rStrPsArm k 0) 63 63 = 0 ∧ t.fld (rStrPsArm k 0) 62 62 = 1 ∧
        SMap.get (t.core k).active 0 = (s.fld (rStrPsSrc k 0) 39 0, s.fld (rStrPsDst k 0) 39 0) ∧ SameMem s t ∧
        SameRegsBut [rStrPsArm k 0] s t) ∧
    (s.armSeen k 0 = some w →
      ∃ t : State, exec (.rearm k c) s = .next t ∧
        SMap.get (t.core k).active 0 = (s.fld (rStrPsSrc k 0) 39 0, s.fld (rStrPsDst k 0) 39 0) ∧ SameMem s t ∧ SameRegsBut [] s t)) ∧
  (∀ (s : State) (k c m : Nat), (s.part (s.lowest k)).lull = [] → (s.link k c m).halves = 2 →
    (s.semVal k c (2 * m + 1) + (s.linkD k c m).emptySoon + 1 ≤ 2 →
      ∃ t : State, exec (.release k c m true) s = .next t ∧ (t.linkD k c m).consHolds = false ∧
        (t.linkD k c m).consHalf = 1 - (s.linkD k c m).consHalf ∧ (t.linkD k c m).prodHolds = (s.linkD k c m).prodHolds ∧
        t.agenda = s.agenda ++ ({ dom := some (s.lowest k), at_ := (s.part (s.lowest k)).seqCycle + 2, act := .releaseVisible k c m true } : Due) ::
          (if (s.link k c m).consumer = 0x0B then
            [({ dom := some (s.lowest k), at_ := (s.part (s.lowest k)).seqCycle + 2, act := .sendHalf k c m } : Due)] else []) ∧
        SameMem s t ∧ SameRegsBut [] s t) ∧
    (s.semVal k c (2 * m) + (s.linkD k c m).fullSoon + 1 ≤ 2 → s.lateReads k c m = [] → s.heldInHalf k c m = false →
      ∃ t : State, exec (.release k c m false) s = .next t ∧ (t.linkD k c m).prodHolds = false ∧
        (t.linkD k c m).prodHalf = 1 - (s.linkD k c m).prodHalf ∧ (t.linkD k c m).consHolds = (s.linkD k c m).consHolds ∧
        t.agenda = s.agenda ++ ({ dom := some (s.lowest k), at_ := (s.part (s.lowest k)).seqCycle + 2, act := .releaseVisible k c m false } : Due) ::
          (if (s.link k c m).consumer = 0x0B then
            [({ dom := some (s.lowest k), at_ := (s.part (s.lowest k)).seqCycle + 2, act := .sendHalf k c m } : Due)] else []) ∧
        SameMem s t ∧ SameRegsBut [] s t)) ∧
  ((∀ (s : State) (k c m : Nat), (s.link k c m).halves < s.semVal k c (2 * m + 1) + (s.linkD k c m).emptySoon + 1 →
    exec (.release k c m true) s = .next (s.linkFault k c (2 * m + 1) 0x02 1)) ∧
  (∀ (s : State) (k c m : Nat), s.lateReads k c m = [] → s.heldInHalf k c m = false →
    (s.link k c m).halves < s.semVal k c (2 * m) + (s.linkD k c m).fullSoon + 1 →
    exec (.release k c m false) s = .next (s.linkFault k c (2 * m) 0x02 1)) ∧
  (∀ (s : State) (k c m : Nat), (s.lateReads k c m ≠ [] ∨ s.heldInHalf k c m = true) →
    ∃ t : State, exec (.release k c m false) s = .next t ∧ (t.linkD k c m).pendingRelease = true ∧ (t.part (s.lowest k)).lull ≠ [] ∧ SameMem s t))

/-- R49–R55, R84, R85, R151, R160: a product whose array is past its last product's streaming, and whose operands carry their formats in halves that no
link guards and no resend holds, runs: it is in flight with its two operands, behind those of the product that it continues, whose tiles are then held
back; and its tiles, its half's release, and its digit slots follow at their cycles. It is itself held back when the program goes on to a product that
continues it. No byte and no register changes at its issue. R481–R483: one whose operand fails byte parity instead has that operand recovered. -/
def Obligations.ProductIssues : Prop :=
  ∀ (s : State) (k c a : Nat) (p : ProductArgs),
    (∀ q, (s.arr (4 * k + a)).last = some q → q.issuedAt + 1024 * max q.c (cyclesOf p.sfmt) ≤ s.cyc k) →
    (s.serialStored k a p = false → s.resendInto (4 * k + a) (s.arr (4 * k + a)).readHalf = none) →
    (p.psrc = false → s.linkHits k 2 (s.poolArray k a p.pbase (p.pfmt + 1)) p.pbase (128 * elemBits (p.pfmt + 1) + 2) = []) →
    (s.serialStored k a p = true →
      s.linkHits k 2 (s.poolArray k a p.sbase (p.sfmt + 1)) p.sbase (128 * elemBits (p.sfmt + 1) + 2) = []) →
    (p.upset ≠ 0 → exec (.product k c a p) s = .next (s.recoverOperand k c a p)) ∧
    (p.upset = 0 → (s.parallelOperand k a p).2 = true → (s.serialOperand k a p).2 = true →
    ∃ (t : State) (q : Product), exec (.product k c a p) s = .next t ∧ (t.arr (4 * k + a)).prods = prodsBefore s (4 * k + a) p ++ [q] ∧ q.id = s.nextId ∧
      q.core = k ∧ q.ctx = c ∧ q.issuedAt = s.cyc k ∧ q.abandoned = s.isContinued k c a ∧
      q.pairs = pairsBefore s (4 * k + a) p ++
        [{ prod := s.nextId, par := (s.parallelOperand k a p).1, ser := (s.serialOperand k a p).1, colSkew := p.colSkew }] ∧
      (t.arr (4 * k + a)).last = some q ∧
      (t.arr (4 * k + a)).fwdHalf = (if s.serialStored k a p then (s.arr (4 * k + a)).fwdHalf else (s.arr (4 * k + a)).readHalf) ∧
      t.agenda = s.agenda ++ productDues s k a p ∧ SameMem s t ∧ SameRegsBut [] s t)

/-- R52, R55, R151, R158–R161, R208: a tile row of a product enters the tile queue as eight tiles, and one that is continued sends none; the release of a
ring-buffer half that no link reads frees it, and the next product reads the other half; the last tile column of a dW product that starts its
companion completes it; a check that fails inside the adder abandons the product with RESIDUE_FATAL (0x11). -/
def Obligations.ProductMoments : Prop :=
  (∀ (s : State) (A id t : Nat) (p : Product), s.prod A id = some p → p.abandoned = false → p.core < 4 → A < 16 →
    (s.core p.core).tq.length ≤ 56 →
    ∃ u, exec (.tileQueueEntry A id t) s = .next u ∧ (u.core p.core).tq.length = (s.core p.core).tq.length + 8 ∧
      u.fld (rVecStatus p.core) 22 16 = (s.core p.core).tq.length + 8 ∧ (t = 7 → u.prod A id = none) ∧ (t ≠ 7 → u.prod A id = some p) ∧
      SameMem s u ∧ SameRegsBut [rHaloArraySat A, rVecStatus p.core, rVecTqHigh p.core] s u) ∧
  (∀ (s : State) (A id t : Nat) (p : Product), s.prod A id = some p → p.abandoned = true →
    ∃ u, exec (.tileQueueEntry A id t) s = .next u ∧ u.cores = s.cores ∧ (t = 7 → u.prod A id = none) ∧ (t ≠ 7 → u = s) ∧ SameMem s u ∧
      SameRegsBut [] s u) ∧
  (∀ (s : State) (A half : Nat), (s.ring A half).st ≠ .free →
    ∃ u, exec (.ringHalfRelease A half) s = .next u ∧
      u.ring A half = (if (s.ring A half).linkReads = 0 then {} else { s.ring A half with done := true }) ∧
      (u.arr A).readHalf = (if (s.arr A).readHalf = half then 1 - half else (s.arr A).readHalf) ∧ SameMem s u ∧ SameRegsBut [] s u) ∧
  (∀ (s : State) (A id : Nat) (p : Product), s.prod A id = some p → p.abandoned = false → p.cstart = true → p.core < 4 → A < 16 →
    ∃ u, exec (.dwTileColumnAdded A id 7 false) s = .next u ∧ (u.comp A p.half).done = true ∧
      (u.comp A p.half).st = (s.comp A p.half).st ∧ u.prod A id = none ∧ u.hbm = s.hbm ∧ u.store = s.store ∧
      SameRegsBut ([rHaloArraySat A, rVecGradNonfinite p.core, rVecBfpSat p.core] ++ eventRegs) s u) ∧
  (∀ (s : State) (A id t : Nat) (p : Product), s.prod A id = some p → p.abandoned = false →
    exec (.dwTileColumnAdded A id t true) s = .next ((s.dropProd A id).fault p.core 0x11 (some p.ctx) p.instr A))

/-- R65–R67, R70, R71, R74, R151, R162: a HALO whose half may be forwarded and whose slots are free starts its transfer: the half's copy is on its way,
the link reads the half (or the companion is SENDING), and the first byte, the tiles of a panel, the arrival and the acknowledgement come at their
cycles. A taken slot is a collision instead, and a companion that has no half to forward raises STAGE_BUSY (0x0A). Stated where no resend holds the
link or the ring input. R70–R73, R151, R152, R161, R163: at the end of a transfer a panel's tiles are in place and it waits for its acknowledgement
only; a tile that fails is asked for again, one resend after another (log entry 95); a companion whose blocks pass is HANDOFF at the array that owns
it with the additions of its whole orbit. HALO_ACK waits for resends; else it ends the transfer: an injected panel's half is HELD, a forwarded one's
sender stops reading its half, a companion's half is ADDING, or stays HANDOFF, and the half that sent it is free. No register changes. R71–R73, R161:
a resent tile or companion unit that passes is in place and reported, and the last one asked for ends the Lull and lets the acknowledgement that is
due end the transfer; a tile that fails again starts the re-injection of its panel from the resident copy, which is counted and reported when it is
done; a companion unit that fails again raises COMPANION_FATAL (0x14), with EXT as log entry 94 lays it out. -/
def Obligations.HaloTransfers : Prop :=
  ((∀ (s : State) (k c a f : Nat) (h : HaloArgs) (p : Nat × List (Nat × Bool)),
    s.path k (4 * k + a) h.ccw (h.back || h.companion) h.hop = p → s.resendOn p.1 p.2 = none →
    (if h.companion then s.sendableComp (4 * k + a) else some (s.arr (4 * k + a)).fwdHalf) = some f →
    (∀ x, (s.pruneSlots k).collides (hopSlots (s.cyc k) (payloadCycles h.companion (s.ring (4 * k + a) f).fmt) (h.back && !h.companion) p.1 p.2) = some x →
      exec (.halo k c a h) s = .next ((s.pruneSlots k).haloCollision k c (4 * k + a) x)) ∧
    ((s.pruneSlots k).collides (hopSlots (s.cyc k) (payloadCycles h.companion (s.ring (4 * k + a) f).fmt) (h.back && !h.companion) p.1 p.2) = none →
      ∃ (t : State) (x : Transfer), exec (.halo k c a h) s = .next t ∧ t.transfers = s.transfers ++ [x] ∧ x.id = s.nextId ∧ x.src = some (4 * k + a) ∧
        x.srcHalf = f ∧ x.dst = p.1 ∧ x.companion = h.companion ∧ x.started = false ∧
        (h.companion = true → (t.comp (4 * k + a) f).st = .sending) ∧
        (h.companion = false → (t.ring (4 * k + a) f).linkReads = (s.ring (4 * k + a) f).linkReads + 1) ∧
        t.agenda = s.agenda ++
          ({ dom := some (s.lowest k), at_ := s.cyc k + 6 * p.2.length, act := .firstByte s.nextId } : Due) ::
          (if h.companion then [] else (List.range 64).map fun i =>
            ({ dom := some (s.lowest k), at_ := s.cyc k + (6 * p.2.length + tileDone (s.ring (4 * k + a) f).fmt i), act := .tileArrive s.nextId i } : Due)) ++
          [({ dom := some (s.lowest k),
              at_ := s.cyc k + (6 * p.2.length + payloadCycles h.companion (s.ring (4 * k + a) f).fmt +
                (if h.back && !h.companion then 132 else 0)), act := .cmd (.haloTransferArrival s.nextId []) } : Due),
           ({ dom := some (s.lowest k),
              at_ := s.cyc k + (6 * p.2.length - 6 + payloadCycles h.companion (s.ring (4 * k + a) f).fmt + 12), act := .cmd (.haloAck s.nextId) } : Due)] ∧
        SameMem s t ∧ SameRegsBut [] s t)) ∧
  (∀ (s : State) (k c a : Nat) (h : HaloArgs),
    s.resendOn (s.path k (4 * k + a) h.ccw true h.hop).1 (s.path k (4 * k + a) h.ccw true h.hop).2 = none → h.companion = true →
    s.sendableComp (4 * k + a) = none → exec (.halo k c a h) s = .next ((s.pruneSlots k).faultCtx k c 0x0A (4 * k + a)))) ∧
  ((∀ (s : State) (id : Nat) (x : Transfer), s.transfer id = some x → x.started = true → x.arrived = false → x.companion = false →
    x.acked = false →
    ∃ t : State, exec (.haloTransferArrival id []) s = .next t ∧ t.transfer id = some { x with arrived := true } ∧ t.agenda = s.agenda ∧
      SameMem s t ∧ SameRegsBut [] s t) ∧
  (∀ (s : State) (id u : Nat) (x : Transfer), s.transfer id = some x → x.started = true → x.arrived = false → x.companion = false →
    x.resend.contains u = false →
    ∃ t : State, exec (.haloTransferArrival id [u]) s = .next t ∧
      t.transfer id = some { x with
        resend := x.resend ++ [u], resendUntil := max (s.part (s.lowest x.core)).resendCycle x.resendUntil + resendCycles x } ∧
      t.agenda = s.agenda ++ [({ dom := some (s.lowest x.core), mode := .resend, act := .cmd (.tileResent id u false),
                                 at_ := max (s.part (s.lowest x.core)).resendCycle x.resendUntil + resendCycles x } : Due)] ∧
      SameMem s t ∧ SameRegsBut [] s t) ∧
  (∀ (s : State) (id : Nat) (x : Transfer), s.transfer id = some x → x.started = true → x.arrived = false → x.companion = true →
    x.badBlocks = [] → x.acked = false →
    ∃ t : State, exec (.haloTransferArrival id []) s = .next t ∧ t.transfer id = some { x with arrived := true } ∧
      (t.comp x.dst x.dstHalf).st = (if t.isHome x.dst x.dstHalf then .handoff else (s.comp x.dst x.dstHalf).st) ∧ t.agenda = s.agenda ∧
      t.hbm = s.hbm ∧ t.store = s.store ∧ SameRegsBut [] s t) ∧
  (∀ (s : State) (id : Nat) (x : Transfer), s.transfer id = some x → x.acked = false → (x.resend ≠ [] ∨ x.reinject = true) →
    ∃ t : State, exec (.haloAck id) s = .next t ∧ t.transfer id = some { x with ackDue := true } ∧ t.arrays = s.arrays ∧ SameMem s t ∧
      SameRegsBut [] s t) ∧
  (∀ (s : State) (id : Nat) (x : Transfer), s.transfer id = some x → x.acked = false → x.resend = [] → x.reinject = false → x.src = none →
    x.companion = false → (s.ring x.dst x.dstHalf).st = .filling → (s.ring x.dst x.dstHalf).done = false →
    ∃ t : State, exec (.haloAck id) s = .next t ∧ t.transfer id = (if x.arrived then none else some { x with ackDue := true, acked := true }) ∧
      (t.ring x.dst x.dstHalf).st = .held ∧ SameMem s t ∧ SameRegsBut [] s t) ∧
  (∀ (s : State) (id A : Nat) (x : Transfer), s.transfer id = some x → x.acked = false → x.resend = [] → x.reinject = false →
    x.src = some A → A ≠ x.dst →
    ∃ t : State, exec (.haloAck id) s = .next t ∧ t.transfer id = (if x.arrived then none else some { x with ackDue := true, acked := true }) ∧
      (x.companion = true → t.comp A x.srcHalf = {} ∧
        (t.comp x.dst x.dstHalf).st =
          (if (s.comp x.dst x.dstHalf).st = .filling then .adding else (s.comp x.dst x.dstHalf).st)) ∧
      (x.companion = false → t.ring A x.srcHalf =
        (if (s.ring A x.srcHalf).done = true ∧ (s.ring A x.srcHalf).linkReads - 1 = 0 then {}
         else { s.ring A x.srcHalf with linkReads := (s.ring A x.srcHalf).linkReads - 1 })) ∧
      SameMem s t ∧ SameRegsBut [] s t)) ∧
  ((∀ (s : State) (id u : Nat) (x : Transfer), s.transfer id = some x → x.companion = false → x.resend.contains u = true →
    exec (.tileResent id u true) s = .next ((s.bump (rHaloResend x.dst) 1).reinject x)) ∧
  (∀ (s : State) (id u : Nat) (x y : Transfer), s.transfer id = some x → x.companion = false → x.resend = [u] → x.dst < 16 →
    s.evq.length < 1024 → s.resentTile x u = some y → x.acked = false →
    ∃ (t : State) (e : EventRec), exec (.tileResent id u false) s = .next t ∧
      t.transfer id = (if x.ackDue = false then some { x with hdrs := y.hdrs, elems := y.elems, resend := [], reinject := false }
        else if x.arrived then none
        else some { x with hdrs := y.hdrs, elems := y.elems, resend := [], reinject := false, ackDue := true, acked := true }) ∧
      t.evq = s.evq ++ [e] ∧ e.code = 0x010B ∧ e.detail = resentDetail x u ∧
      t.fld (rHaloResend x.dst) 47 0 = min (s.fld (rHaloResend x.dst) 47 0 + 1) (2 ^ 48 - 1) ∧
      t.agenda = s.agenda ∧ t.hbm = s.hbm ∧ t.store = s.store ∧ SameRegsBut (rHaloResend x.dst :: eventRegs) s t) ∧
  (∀ (s : State) (id : Nat) (x : Transfer), s.transfer id = some x → x.reinject = true → s.residentBad x = none → s.evq.length < 1024 →
    x.ackDue = false → x.acked = false →
    ∃ (t : State) (e : EventRec), exec (.panelReinjected id) s = .next t ∧
      t.transfer id = some { x with hdrs := (s.injectedAgain x).hdrs, elems := (s.injectedAgain x).elems, resend := [], reinject := false } ∧
      t.evq = s.evq ++ [e] ∧ e.code = 0x010C ∧ t.fld rHaloReinject 47 0 = min (s.fld rHaloReinject 47 0 + 1) (2 ^ 48 - 1) ∧
      t.agenda = s.agenda ∧ t.hbm = s.hbm ∧ t.store = s.store ∧ SameRegsBut (rHaloReinject :: eventRegs) s t) ∧
  (∀ (s : State) (id u : Nat) (x : Transfer), s.transfer id = some x → x.companion = true → x.resend.contains u = true →
    exec (.companionResent id u true) s =
      .next (((s.dropTransfer id).endLull (s.lowest x.core) 0 (resendTag id)).fault x.core 0x14 none 0 (compExt (x.hdrs.getD 0 []) u))) ∧
  (∀ (s : State) (id u : Nat) (x : Transfer), s.transfer id = some x → x.companion = true → x.resend = [u] → s.evq.length < 1024 →
    x.badBlocks.contains u = false → x.ackDue = false → x.acked = false →
    ∃ (t : State) (e : EventRec), exec (.companionResent id u false) s = .next t ∧ t.transfer id = some { x with resend := [], reinject := false } ∧
      t.evq = s.evq ++ [e] ∧ e.code = 0x010D ∧ t.agenda = s.agenda ∧ t.hbm = s.hbm ∧ t.store = s.store ∧ SameRegsBut eventRegs s t))

/-- R206, R209–R211, R214–R223: a vector descriptor on a free engine, whose tiles have all been readable for 24 cycles with good checksums and the format
it declares, that waits on no link and writes to the store stage or nowhere, runs: the engine is busy with it for half its VCLK cycles, and its result
elements join the store stage's output. R213, R214, R216: a vector descriptor of one result row for the core store, where no table and no link half
lies, writes that row at its address and no other byte. -/
def Obligations.VectorRuns : Prop :=
  (∀ (s : State) (k c idx : Nat) (u : Bool) (d : VDesc) (ts : List TqTile), k < 4 → vdesc (s.vectorDesc k idx) = d → (s.core k).vec = none →
    (s.core k).tq.take d.tileCount = ts → ts.length = d.tileCount →
    (∀ x ∈ ts, x.ok = true ∧ x.hdr.format = d.tileFmt ∧ x.enteredAt + 24 ≤ s.cyc k) → (u = false ∨ ts = []) →
    d.linkIn = 255 → d.ddst ≠ 1 → d.redOp = 0 → idx < 2048 →
    ∃ (t : State) (r : VecRun), exec (.vectorDescriptor k c idx u) s = .next t ∧ (t.core k).vec = some r ∧ r.ctx = c ∧ r.index = idx ∧ r.issuedAt = s.cyc k ∧
      r.tiles = d.tileCount ∧ t.fld (rVecStatus k) 63 63 = 1 ∧ t.fld (rVecStatus k) 10 0 = idx ∧
      (t.core k).storeBuf = (s.core k).storeBuf ++ (if d.ddst = 2 then
        (List.range ((d.n1 + 1) * (d.n2 + 1))).flatMap fun i =>
          (s.resultRow k d i (ts.flatMap fun x => x.elems)).map fun e => (e.1, cfmtCode d.cfmt, false) else []) ∧
      t.agenda = s.agenda ++ [({ dom := some (s.lowest k), at_ := s.cyc k + ceilDiv d.vclk 2, act := .cmd (.vectorDescriptorComplete k) } : Due)] ∧
      SameMem s t ∧ SameRegsBut [rVecIntSat k, rVecStatus k] s t) ∧
  (∀ (s : State) (k c idx : Nat) (u : Bool) (d : VDesc), k < 4 → vdesc (s.vectorDesc k idx) = d → (s.core k).vec = none → d.tileCount = 0 →
    d.linkIn = 255 → d.ddst = 1 → d.redOp = 0 → d.n1 = 0 → d.n2 = 0 →
    d.rowAddr d.dbase 6 7 0 + cfmtBytes d.cfmt * (d.n0 + 1) ≤ 0x2000000 →
    s.tableHit k (d.rowAddr d.dbase 6 7 0) (cfmtBytes d.cfmt * (d.n0 + 1)) = false →
    s.linkHits k 1 0 (d.rowAddr d.dbase 6 7 0) (cfmtBytes d.cfmt * (d.n0 + 1)) = [] →
    ∃ (t : State) (b : List Nat), exec (.vectorDescriptor k c idx u) s = .next t ∧ b = (s.resultRow k d 0 []).flatMap (fun e => leBytes (cfmtBytes d.cfmt) e.1) ∧
      b.length = cfmtBytes d.cfmt * (d.n0 + 1) ∧ t.store = memWrite s.store (storeKey k (d.rowAddr d.dbase 6 7 0)) b ∧
      (∀ a, a < storeKey k (d.rowAddr d.dbase 6 7 0) ∨ storeKey k (d.rowAddr d.dbase 6 7 0) + b.length ≤ a →
        memGet t.store a = memGet s.store a) ∧ t.hbm = s.hbm ∧ t.lstore = s.lstore ∧
      SameRegsBut [rVecIntSat k, rVecStatus k] s t)

/-- R238–R244, R257–R260: an update descriptor on a free engine, whose used links its engine holds and whose step fits its shard, runs; one whose step
does not fit runs too, with the skew recorded and STEP_SKEW (0x0E) told, unless its context's policy is to halt, when it raises the fault instead. A
dense one whose master extent leaves the core's stacks raises ADDR_BOUNDS (0x06). -/
def Obligations.UpdateRuns : Prop :=
  ∀ (s : State) (k c idx : Nat) (d : UDesc), udesc (s.vectorDesc k idx) = d → (s.core k).vec = none →
    ((d.dense && d.outside k) = true → exec (.updateDescriptor k c idx) s = .next (s.faultCtx k c 0x06 d.master)) ∧
    ((d.dense && d.outside k) = false → s.skewed k d = true → bitAt (s.fld (rUpdPolicy k) 7 0) c = true →
      exec (.updateDescriptor k c idx) s = .next ((s.recordSkew k c d).faultCtx k c 0x0E d.shard)) ∧
    ((d.dense && d.outside k) = false → s.skewed k d = true → bitAt (s.fld (rUpdPolicy k) 7 0) c = false →
      (∀ m ∈ d.inputs, (s.link k c m).consumer = 8 ∧ (s.linkD k c m).consHolds = true) →
      (∀ m ∈ d.outputs, (s.link k c m).producer = 8 ∧ (s.linkD k c m).prodHolds = true) →
      exec (.updateDescriptor k c idx) s = .next ((((s.recordSkew k c d).raise
        { code := 0x0E, sev := severityOf 0x0E false, source := k, part := s.lowest k, ctx := c, ext := d.shard }).runUpdate k c idx d
          (s.vectorDesc k idx)).settleFreeze k)) ∧
    ((d.dense && d.outside k) = false → s.skewed k d = false →
      (∀ m ∈ d.inputs, (s.link k c m).consumer = 8 ∧ (s.linkD k c m).consHolds = true) →
      (∀ m ∈ d.outputs, (s.link k c m).producer = 8 ∧ (s.linkD k c m).prodHolds = true) →
      ∃ (t : State) (r : VecRun), exec (.updateDescriptor k c idx) s = .next t ∧ t = (s.runUpdate k c idx d (s.vectorDesc k idx)).settleFreeze k ∧
        (t.core k).vec = some r ∧ r.ctx = c ∧ r.index = idx ∧ r.tiles = 0 ∧ r.writesL = d.dense ∧ r.passes = d.passes ∧
        t.hbm = s.hbm ∧ t.lstore = s.lstore ∧ t.mbuf = s.mbuf)

/-- R210, R218, R261, R303: the completion of a descriptor frees the engine and takes its tiles from the queue; a dense update's then sets its shard's
step; a BADD over a collective of panels that nothing has contributed to runs its 12 VCLK cycles. Which collective a BADD names is a free value (log
entry 8). -/
def Obligations.VectorCompletes : Prop :=
  (∀ (s : State) (k : Nat) (r : VecRun), k < 4 → (s.core k).vec = some r → r.writesL = false → fieldAt (s.core k).update 0 1 ≠ 0x30 →
    ∃ t : State, exec (.vectorDescriptorComplete k) s = .next t ∧ (t.core k).vec = none ∧ (t.core k).tq = (s.core k).tq.drop r.tiles ∧
      t.fld (rVecStatus k) 63 63 = 0 ∧ t.agenda = s.agenda ∧ SameMem s t ∧ SameRegsBut [rVecStatus k, rVecTqHigh k] s t) ∧
  (∀ (s : State) (k : Nat) (r : VecRun) (d : UDesc), k < 4 → (s.core k).vec = some r → r.writesL = true → r.tiles = 0 →
    udesc (s.core k).update = d → d.shard < 256 → fieldAt (s.core k).update 0 1 ≠ 0x30 →
    ∃ t : State, exec (.vectorDescriptorComplete k) s = .next t ∧ (t.core k).vec = none ∧
      t.reg (rUpdShardStep k d.shard) = BitVec.ofNat 64 d.step ∧ SameMem s t ∧
      SameRegsBut [rVecStatus k, rUpdShardStep k d.shard] s t) ∧
  (∀ (s : State) (k c idx : Nat), k < 4 → (s.core k).vec = none →
    (s.collAt (s.lowest k) (Config.baddColl (s.vectorDesc k idx))).kind ≠ 3 →
    (s.collD (s.lowest k) (Config.baddColl (s.vectorDesc k idx))).counted = [] →
    ∃ (t : State) (r : VecRun), exec (.badd k c idx) s = .next t ∧ (t.core k).vec = some r ∧ r.vclk = 12 ∧
      t.agenda = s.agenda ++ [({ dom := some (s.lowest k), at_ := s.cyc k + 6, act := .cmd (.vectorDescriptorComplete k) } : Due)] ∧ SameMem s t ∧
      SameRegsBut [rVecStatus k] s t)

/-- R274–R276, R164, R183, R227, R277, R278, R283: a thinning descriptor waits in the reduction unit's queue with its k; a block of a gather companion
passes unchanged into the message half that the unit holds, and a thinned one through selection, with its residual when the check word fits; the
hand-off frees the companion half; the release writes the message's header into the half, gives up the halves of the message and of the residual,
decides the segment's k, and the unit goes on with the next companion. -/
def Obligations.ThinningRuns : Prop :=
  (∀ (s : State) (k c idx : Nat) (d : TDesc), tdesc (s.vectorDesc k idx) = d → (s.core k).thinQ.length < 4 →
    ∃ t : State, exec (.thinningDescriptor k c idx) s = .next t ∧
      (t.core k).thinQ = (s.core k).thinQ ++
        [(s.vectorDesc k idx, if d.op = 0x51 then s.fld (rVecThinSeg k d.seg) 3 0 else d.klog, c, (s.ctx k c).cmdIndex)] ∧
      SameMem s t ∧ SameRegsBut [] s t) ∧
  (∀ (s : State) (k b : Nat) (u : Bool) (h : ThinRun) (d : TDesc) (o : List Nat), (s.core k).thin = some h → tdesc h.desc = d →
    ((slice h.blocks (128 * b) 128).all BfpBlock.ok) = true →
    (d.op = 0x52 → o = (slice h.blocks (128 * b) 128).flatMap BfpBlock.bytes →
      s.ownsHalf k h.ctx d.linkMsg 9 (s.heldBase k h.ctx d.linkMsg false + (64 + 8448 * b)) o.length →
      ∃ t : State, exec (.selectionBlockDone k b u) s = .next t ∧ (t.core k).thin = some { h with bytes := h.bytes + o.length } ∧
        t.store = memWrite s.store (storeKey k (s.heldBase k h.ctx d.linkMsg false + (64 + 8448 * b))) o ∧
        t.hbm = s.hbm ∧ t.lstore = s.lstore ∧ SameRegsBut [] s t) ∧
    (d.op ≠ 0x52 → d.rzero = true → b ≠ 0 →
      ∃ t : State, exec (.selectionBlockDone k b u) s = .next t ∧ t = s.under k h.ctx h.instr (fun v => v.emitBlock k h d b []) ∧
        (t.core k).thin ≠ none ∧ t.hbm = s.hbm ∧ t.lstore = s.lstore) ∧
    (d.op ≠ 0x52 → d.rzero = false → b ≠ 0 → u = false →
      o = s.storeRead k (s.heldBase k h.ctx d.linkRIn true + 8200 * b) 8192 →
      leNat (s.storeRead k (s.heldBase k h.ctx d.linkRIn true + 8200 * b + 8192) 8) = residualCheck d.key b (d.step - 1) o →
      ∃ t : State, exec (.selectionBlockDone k b u) s = .next t ∧
        t = s.under k h.ctx h.instr (fun v => v.emitBlock k h d b ((chunksOf 2 4096 o).map leNat)) ∧
        (t.core k).thin ≠ none ∧ t.hbm = s.hbm ∧ t.lstore = s.lstore)) ∧
  (∀ (s : State) (k e : Nat),
    ∃ t : State, exec (.handoffComplete k e false) s = .next t ∧
      t.comp (4 * k + (sdesc (SMap.get (s.core k).engines e).desc).srcArray) ((SMap.get (s.core k).engines e).srcBase % 2) = {} ∧
      (t.core k).thin = (s.core k).thin ∧ SameMem s t ∧ SameRegsBut [] s t) ∧
  (∀ (s : State) (k : Nat) (h : ThinRun) (d : TDesc), (s.core k).thin = some h → tdesc h.desc = d → (s.part (s.lowest k)).lull = [] →
    s.ownsHalf k h.ctx d.linkMsg 9 (s.heldBase k h.ctx d.linkMsg false) 64 → (s.link k h.ctx d.linkMsg).consumer = 0x0B →
    s.semVal k h.ctx (2 * d.linkMsg) + (s.linkD k h.ctx d.linkMsg).fullSoon + 1 ≤ (s.link k h.ctx d.linkMsg).halves →
    (d.op = 0x52 →
      ∃ t : State, exec (.thinnedMessageRelease k) s = .next t ∧ (t.core k).thin = (s.core k).thinNext ∧
        (t.linkD k h.ctx d.linkMsg).prodHolds = false ∧
        t.store = memWrite s.store (storeKey k (s.heldBase k h.ctx d.linkMsg false)) (messageHeader 1 d s.me k h.segs h.bytes) ∧
        t.agenda = s.agenda ++
          [({ dom := some (s.lowest k), at_ := (s.part (s.lowest k)).seqCycle + 2, act := .releaseVisible k h.ctx d.linkMsg false } : Due),
           ({ dom := some (s.lowest k), at_ := (s.part (s.lowest k)).seqCycle + 2, act := .sendHalf k h.ctx d.linkMsg } : Due)] ∧
        t.hbm = s.hbm ∧ SameRegsBut [] s t) ∧
    (d.op ≠ 0x52 → d.linkROut ≠ d.linkMsg → d.linkROut < 128 →
      s.semVal k h.ctx (2 * d.linkROut) + (s.linkD k h.ctx d.linkROut).fullSoon + 1 ≤ (s.link k h.ctx d.linkROut).halves →
      ∃ t : State, exec (.thinnedMessageRelease k) s = .next t ∧ (t.core k).thin = (s.core k).thinNext ∧
        (t.linkD k h.ctx d.linkMsg).prodHolds = false ∧ (t.linkD k h.ctx d.linkROut).prodHolds = false ∧
        t.store = memWrite s.store (storeKey k (s.heldBase k h.ctx d.linkMsg false)) (messageHeader 2 d s.me k h.segs h.bytes) ∧
        t.hbm = s.hbm ∧ SameRegsBut [rVecThinSeg k d.seg, rVecThinUp k, rVecThinHold k, rVecThinDown k, rVecThinCommit k] s t))

/-- R301, R302, R305, R311: ARM sets the instance to the current step and not open, its zeroing to end at its cycle, and a look at its deadline;
ARM_COMPLETE opens it, with the count word of a row table at zero. A contribution for a collective that is not there, or an instance that is not open,
is of another step or is not owned here, raises REDUCE_NOT_ARMED (0x0B), and one counted already REDUCE_DUPLICATE (0x0C). -/
def Obligations.ReductionArms : Prop :=
  (∀ (s : State) (k c e : Nat), ∃ t : State, exec (.arm k c e) s = .next t ∧ t.collD (s.lowest k) e = { step := s.stepOf k } ∧
    t.agenda = s.agenda ++
      [({ dom := some (s.lowest k), at_ := s.cyc k + (s.collAt (s.lowest k) e).armCycles, act := .cmd (.armComplete (s.lowest k) e) } : Due),
       ({ dom := none, at_ := s.clk.wall + s.untilEnd (s.collDeadline (s.lowest k) (s.collAt (s.lowest k) e).coll),
          act := .cmd (.reduceLate (s.lowest k) e) } : Due)] ∧ SameMem s t ∧ SameRegsBut [] s t) ∧
  (∀ (s : State) (k e : Nat), ∃ t : State, exec (.armComplete k e) s = .next t ∧ (t.collD k e).opened = true ∧
    (t.collD k e).step = (s.collD k e).step ∧ ((s.collAt k e).summed = false → (s.collAt k e).kind ≠ 3 → t.hbm = s.hbm) ∧
    ((s.collAt k e).kind = 3 → s.heldEnds (s.collAt k e).slot 4 = (0, 0) → leNat (t.hbmRead (s.collAt k e).slot 4) = 0) ∧ t.store = s.store ∧
    t.lstore = s.lstore ∧ SameRegsBut [] s t) ∧
  (∀ (s : State) (p k : Nat) (m : FabricMsg), s.recvPart p m = some k → s.collEntry k m.coll = none →
    exec (.contributionArrival p m 0) s = .next (s.fault k 0x0B none 0 (coordNum m.src))) ∧
  (∀ (s : State) (p k e : Nat) (m : FabricMsg) (c : CDesc), s.recvPart p m = some k → s.collEntry k m.coll = some (e, c) →
    (((s.collD k e).opened = false ∨ (s.collD k e).step ≠ fieldAt m.content 8 8 ∨ c.owner = false) →
      exec (.contributionArrival p m 0) s = .next (s.fault c.core 0x0B none 0 (coordNum m.src))) ∧
    ((s.collD k e).opened = true → (s.collD k e).step = fieldAt m.content 8 8 → c.owner = true →
      ((if c.summed then s.panelPlace c (fieldAt m.content 6 2) else 0), fieldAt m.content 20 2, 1) ∈ (s.collD k e).counted →
      fieldAt m.content 22 2 ≠ 0 →
      exec (.contributionArrival p m 0) s = .next (s.fault c.core 0x0C none 0 (coordNum m.src))))

/-- R298, R302–R305, R308, R447: a contribution whose parts all pass is counted: one kept for a BADD stands in its slot, and any other is added where it
belongs; so is a row that the row table takes. An upstream message whose turn it is joins the combined one, and the last one clears the buffer. A
source sends the failing parts again as a new message, to itself or by a port that takes it. A collective that is late reports each missing replica. -/
def Obligations.ReductionTakes : Prop :=
  (∀ (s : State) (p k e : Nat) (m : FabricMsg) (c : CDesc), s.recvPart p m = some k → s.collEntry k m.coll = some (e, c) →
    s.collAt k e = c → (s.collD k e).opened = true → (s.collD k e).step = fieldAt m.content 8 8 → c.owner = true →
    (s.collD k e).counted = [] → (bodyParts m.content).all (partOk (fieldAt m.content 0 1)) = true →
    ((c.vecAdd && c.summed) = true →
      ∃ t : State, exec (.contributionArrival p m 0) s = .next t ∧
        (t.collD k e).counted = [(s.panelPlace c (fieldAt m.content 6 2), fieldAt m.content 20 2, fieldAt m.content 22 2)] ∧
        (skipped m.content = 0 → t.hbm = (s.hbmWrite (c.slot + fieldAt m.content 20 2 * c.slotBytes +
          s.panelPlace c (fieldAt m.content 6 2) * (c.slotBytes / max 1 c.panels)) m.content).hbm) ∧
        t.store = s.store ∧ t.lstore = s.lstore ∧ SameRegsBut [] s t) ∧
    ((c.vecAdd && c.summed) = false →
      (({ s := s } : Added).parts c m.content (if c.summed then s.panelPlace c (fieldAt m.content 6 2) else 0) (bodyParts m.content)).ok = true →
      ∃ t : State, exec (.contributionArrival p m 0) s = .next t ∧
        (t.collD k e).counted =
          [(if c.summed then s.panelPlace c (fieldAt m.content 6 2) else 0, fieldAt m.content 20 2, fieldAt m.content 22 2)] ∧
        t.hbm = (({ s := s } : Added).parts c m.content (if c.summed then s.panelPlace c (fieldAt m.content 6 2) else 0)
          (bodyParts m.content)).s.hbm ∧ t.store = s.store ∧ t.lstore = s.lstore)) ∧
  (∀ (s : State) (k e row n : Nat) (b : List Nat) (r : Added), (s.collD k e).opened = true → (blocksOf b).all BfpBlock.ok = true →
    ({ s := s } : Added).row (s.collAt k e) (s.collD k e).step row b = r → r.ok = true → n = (s.collAt k e).acc / 2 ^ 36 → n < 8 →
    ∃ t : State, exec (.embeddingRowArrival k e row b false) s = .next t ∧ t.hbm = r.s.hbm ∧ t.store = r.s.store ∧
      t.fld (rMemAddBlocks n) 47 0 = min (r.s.fld (rMemAddBlocks n) 47 0 + r.n) (2 ^ 48 - 1) ∧
      SameRegsBut ([rMemAddBlocks n, rMemAddSat n] ++ eventRegs) r.s t) ∧
  (∀ (s : State) (p f k w : Nat) (fs b : List Nat) (m own : FabricMsg) (x : Nat × CDesc), s.portPart p = some k →
    (s.port p).combineOwn = some (own, w) → bitAt (s.part k).combine p = true → own.coll = m.coll →
    fieldAt own.content 8 8 = fieldAt m.content 8 8 → (s.port p).combineNext = f :: fs → s.collEntry k m.coll = some x →
    (bodyParts m.content).all (partOk 1) = true → combineMsg own.content m.content = some (b, 0) →
    (fs ≠ [] → ∃ t : State, exec (.upstreamMessageAdd p f m false) s = .next t ∧
      (t.port p).combineOwn = some ({ own with content := b }, w) ∧ (t.port p).combineNext = fs ∧ SameMem s t ∧
      SameRegsBut [rStraCombined] s t) ∧
    (fs = [] → ∃ t : State, exec (.upstreamMessageAdd p f m false) s = .next t ∧ (t.port p).combineOwn = none ∧ (t.port p).combineNext = [])) ∧
  (∀ (s : State) (id i : Nat) (o : OutMsg), s.sent = [o] → o.hdr.msgid = id →
    (o.port = 6 ∨ (s.portTakes o.core o.port o.hdr.kind (s.hops s.me o.hdr.dest) = true ∧
      (s.admitFlits o.port (resendContent o.hdr.content i).length (s.hops s.me o.hdr.dest) o.hdr.deadline).isSome = true)) →
    ∃ (t : State) (m : FabricMsg), exec (.residueRetry id i) s = .next t ∧ t.sent = [{ o with hdr := m }] ∧ m.msgid = s.nextId % 2 ^ 32 ∧
      m.content = resendContent o.hdr.content i ∧ m.dest = o.hdr.dest ∧ m.deadline = o.hdr.deadline ∧
      (o.port ≠ 6 → ((t.port o.port).tx.map fun x => x.hdr) = ((s.port o.port).tx.map fun x => x.hdr) ++ [m]) ∧ SameMem s t ∧
      SameRegsBut [rStraSharedBytes] s t) ∧
  (∀ (s : State) (k e : Nat) (c : CDesc), s.collAt k e = c → (c.summed = true → 0 < c.panels) → (s.collD k e).complete = false →
    (s.collD k e).counted = [] → 0 < c.contrib → s.collDeadline k c.coll < s.beat → s.evq.length + c.contrib ≤ 1024 →
    ∃ t : State, exec (.reduceLate k e) s = .next t ∧ t.evq.length = s.evq.length + c.contrib ∧ t.free = s.free + c.contrib ∧
      t.agenda = s.agenda ∧ SameMem s t ∧ SameRegsBut eventRegs s t)

/-- R337–R342: a hold that is due begins and is counted; its end adds the excess to the shift; the partners of the barrier's tree, over links that are up,
hear of both. A hold received for this step lulls the partition until its last sender ends it, the shift rising to the one carried; one for another
step is only counted, and one on a rendezvous that is not pending does nothing. A wait that has lasted SEQ_HOLD_LIMIT beats raises HOLD_TIMEOUT (0x0F)
for each sender that is missing. No memory changes. -/
def Obligations.HoldsPropagate : Prop :=
  (∀ (s : State) (k rv : Nat) (r : RvEntry), k < 4 → rv < 256 → s.rvPending k rv = some r → s.holdDue k rv = true →
    (s.treePorts r.barrier).Nodup →
    ∃ t : State, exec (.holdStart k rv) s = .next t ∧ (t.rvD k rv).holding = true ∧ (t.rvD k rv).shift = (s.rvD k rv).shift ∧
      t.fld (rSeqHold k) 62 62 = 1 ∧ t.fld (rSeqHold k) 55 48 = rv ∧
      t.fld (rSeqHold k) 47 24 = min (s.fld (rSeqHold k) 47 24 + 1) (2 ^ 24 - 1) ∧
      (∀ p ∈ s.treePorts r.barrier, p ≠ 7 → s.linkState p = 4 →
        (t.port p).ctl = (s.port p).ctl ++ [CtlRec.holdStart rv ((s.part k).stepNo % 65536) s.me]) ∧ SameMem s t ∧ SameRegsBut [rSeqHold k] s t) ∧
  (∀ (s : State) (k rv : Nat) (r : RvEntry), k < 4 → SMap.get (s.part k).rvs rv = some r → (s.rvD k rv).holding = true →
    (s.treePorts r.barrier).Nodup →
    ∃ t : State, exec (.holdEnd k rv) s = .next t ∧ (t.rvD k rv).holding = false ∧
      (t.rvD k rv).shift = (((s.rvD k rv).shift : Int) + s.excess k rv r).toNat ∧
      (∀ p ∈ s.treePorts r.barrier, p ≠ 7 → s.linkState p = 4 →
        (t.port p).ctl = (s.port p).ctl ++ [CtlRec.holdEnd rv ((s.part k).stepNo % 65536) s.me (t.rvD k rv).shift]) ∧
      SameMem s t ∧ SameRegsBut [rSeqHold k] s t) ∧
  (∀ (s : State) (k rv n x : Nat) (c : Coord), k < 4 →
    (n ≠ (s.part k).stepNo % 65536 → exec (.holdStartReceived k rv n c) s = .next (s.bumpF (rSeqHold k) 7 0 1) ∧
      exec (.holdEndReceived k rv n c x) s = .next (s.bumpF (rSeqHold k) 7 0 1)) ∧
    (n = (s.part k).stepNo % 65536 → s.rvPending k rv = none → exec (.holdStartReceived k rv n c) s = .next s ∧
      exec (.holdEndReceived k rv n c x) s = .next s)) ∧
  (∀ (s : State) (k rv n : Nat) (c : Coord), k < 4 → n = (s.part k).stepNo % 65536 → (s.rvPending k rv).isSome = true →
    ∃ t : State, exec (.holdStartReceived k rv n c) s = .next t ∧ c ∈ (t.rvD k rv).senders ∧ t.fld (rSeqHold k) 63 63 = 1 ∧
      (∃ r ∈ (t.part k).lull, r.kind = 2 ∧ r.tag = holdTag rv) ∧ SameMem s t ∧ SameRegsBut (rSeqHold k :: eventRegs) s t) ∧
  (∀ (s : State) (k rv n x : Nat) (c : Coord), k < 4 → n = (s.part k).stepNo % 65536 → (s.rvPending k rv).isSome = true →
    ∃ t : State, exec (.holdEndReceived k rv n c x) s = .next t ∧ (t.rvD k rv).senders = (s.rvD k rv).senders.filter (· != c) ∧
      (t.rvD k rv).shift = max (s.rvD k rv).shift x ∧
      ((t.rvD k rv).senders = [] → ∀ r ∈ (t.part k).lull, ¬(r.kind = 2 ∧ r.tag = holdTag rv)) ∧
      ((t.rvD k rv).senders ≠ [] → (t.part k).lull = (s.part k).lull) ∧ SameMem s t ∧ SameRegsBut (rSeqHold k :: eventRegs) s t) ∧
  (∀ (s : State) (k rv : Nat),
    ((∃ r ∈ (s.part k).lull, r.bounded = true ∧ r.since + s.fld (rSeqHoldLimit k) 31 0 * 700 ≤ s.clk.wall) →
      exec (.holdTimeout k rv) s = .next ((s.rvD k rv).senders.tail.foldl (fun v c => v.fault k 0x0F none 0 (coordNum c + 2 ^ 24 * rv))
        (s.fault k 0x0F none 0 (coordNum ((s.rvD k rv).senders.headD {}) + 2 ^ 24 * rv)))) ∧
    ((∀ r ∈ (s.part k).lull, r.bounded = true → s.clk.wall < r.since + s.fld (rSeqHoldLimit k) 31 0 * 700) →
      exec (.holdTimeout k rv) s = .next s))

/-- R317, R335, R347: in a swallowed cycle one wall cycle passes and every partition's own cycles stand still, and the lag of each that is in a step, and
that no fault of the cycle stops, rises by one. R257, R317: at a beat boundary the beat counts up, the phase is 0 again, and freeze writes take
effect, unless an update descriptor waits, for which the bits of its issue are kept. No memory changes. R320, R321, R323, R324, R349, R577, R578: on
EPOCH the origin that has completed phase 5 and is not aligned loads beat 0 and phase 0 and sends ALIGN; anywhere else the rise is remembered. The
first ALIGN that another module accepts loads the beat and phase carried plus the delay of the port, and goes on by the other ports; one that comes
before phase 5 is kept; the origin takes none; a later one is compared, and a skew that is too large reported. REF_LOSS is latched and reported. Links
that are up carry what is sent. -/
def Obligations.ClockRuns : Prop :=
  ((∀ s : State, ∃ t : State, exec .swallowedCycle s = .next t ∧ t.clk.wall = s.clk.wall + 1 ∧
    (∀ k, (t.part k).seqCycle = (s.part k).seqCycle ∧ (t.part k).stepCycle = (s.part k).stepCycle) ∧
    (∀ k, k < 4 → s.partValid k = true → (s.part k).inStep = true → (s.part k).stopping = none →
      t.reg (rSeqLag k) = s.reg (rSeqLag k) + 1) ∧ SameMem s t) ∧
  (∀ (s : State) (b : BeatSeen), ∃ t : State, exec (.beatBoundary b) s = .next t ∧ t.reg rClkBeat = s.reg rClkBeat + 1 ∧
    t.fld rClkPhase 9 0 = 0 ∧
    (s.cores.any (fun e => e.2.updWait) = false → ∀ k, (t.core k).freezePend = []) ∧
    (s.cores.any (fun e => e.2.updWait) = true →
      ∀ k, (t.core k).freezePend = (s.core k).freezePend.map fun p => (p.1, p.2.1, true)) ∧ SameMem s t)) ∧
  ((∀ s : State, (s.isOrigin = true → s.pwr.phase5 = true → s.fld rClkPhase 63 63 = 0 →
      ∃ t : State, exec .epoch s = .next t ∧ t.clk.counting = true ∧ t.clk.epochHigh = true ∧ t.reg rClkBeat = 0#64 ∧ t.fld rClkPhase 9 0 = 0 ∧
        t.fld rClkPhase 63 63 = 1 ∧ t.fld rClkPhase 39 32 = 0 ∧ t.fld rClkPhase 28 26 = 7 ∧
        t.agenda = s.agenda ++ [({ dom := none, at_ := s.clk.wall, act := .cmd .startPhase } : Due)] ∧
        (∀ p, p < 6 → s.linkState p = 4 → (t.port p).ctl = (s.port p).ctl ++ [CtlRec.align 0 0 s.me 0]) ∧ SameMem s t ∧
        SameRegsBut [rClkBeat, rClkPhase] s t) ∧
    ((s.isOrigin = false ∨ s.pwr.phase5 = false ∨ s.fld rClkPhase 63 63 ≠ 0) →
      exec .epoch s = .next { s with clk := { s.clk with epochHigh := true } })) ∧
  (∀ (s : State) (p b ph h : Nat), p < 6 →
    (s.fld rClkPhase 63 63 ≠ 0 → s.evq.length < 1024 → ∀ d, d = (b * 700 + ph + s.oneWay p - (s.beat * 700 + s.phase)) +
        (s.beat * 700 + s.phase - (b * 700 + ph + s.oneWay p)) →
      ∃ t : State, exec (.align p b ph h) s = .next t ∧ t.fld rClkPhase 25 10 = max (s.fld rClkPhase 25 10) (min d 65535) ∧
        ((if s.crossRack p then 14 else 2) < d → (t.evq.drop s.evq.length).map (fun e => (e.code, e.ext)) = [(0x0306, d)]) ∧
        (d ≤ (if s.crossRack p then 14 else 2) → t.evq = s.evq) ∧ SameMem s t ∧ SameRegsBut (rClkPhase :: eventRegs) s t) ∧
    (s.fld rClkPhase 63 63 = 0 → s.isOrigin = true → exec (.align p b ph h) s = .next s) ∧
    (s.fld rClkPhase 63 63 = 0 → s.isOrigin = false → s.pwr.phase5 = true →
      ∃ t : State, exec (.align p b ph h) s = .next t ∧ t.clk.counting = true ∧
        t.reg rClkBeat = BitVec.ofNat 64 ((b * 700 + ph + s.oneWay p) / 700) ∧
        t.fld rClkPhase 9 0 = (b * 700 + ph + s.oneWay p) % 700 ∧ t.fld rClkPhase 63 63 = 1 ∧ t.fld rClkPhase 39 32 = (h + 1) % 256 ∧
        t.fld rClkPhase 28 26 = p ∧
        t.agenda = s.agenda ++ [({ dom := none, at_ := s.clk.wall, act := .cmd .startPhase } : Due)] ∧
        (∀ q, q < 6 → q ≠ p → s.linkState q = 4 → (t.port q).ctl =
          (s.port q).ctl ++ [CtlRec.align ((b * 700 + ph + s.oneWay p) / 700) ((b * 700 + ph + s.oneWay p) % 700) s.me (h + 1)]) ∧ SameMem s t ∧
        SameRegsBut [rClkBeat, rClkPhase] s t) ∧
    (s.fld rClkPhase 63 63 = 0 → s.isOrigin = false → s.pwr.phase5 = false →
      ∃ t : State, exec (.align p b ph h) s = .next t ∧ (t.port p).heldAlign = some (b, ph, h, s.clk.wall) ∧ SameMem s t ∧
        SameRegsBut [] s t)) ∧
  (∀ s : State, s.evq.length < 1024 →
    ∃ (t : State) (e : EventRec), exec .refLoss s = .next t ∧ t.clk.refLost = true ∧ t.fld rClkPhase 62 62 = 1 ∧ t.evq = s.evq ++ [e] ∧ e.code = 0x0307 ∧
      SameMem s t ∧ SameRegsBut (rClkPhase :: eventRegs) s t))

/-- R430–R439: of an arriving flit that passes its checks, an IDLE brings only its acknowledgements and credits, a NAK flit asks for its replay, a control
flit of the expected number is counted, owes one credit and moves the expected number on, and so does a data flit that is neither the last of its
message nor of a multicast, which is put to its message; a flit that fails its CRC is discarded and asked for again by one NAK, as is one that comes
early. R462, R463: at a cross-rack port the first data flit of a group waits for the group's tag. No memory changes. -/
def Obligations.FlitsTaken : Prop :=
  (∀ (s : State) (p : Nat) (f : Flit), p < 6 → s.linkState p = 4 → f.crcOk = true → f.fecOk = true → f.tagOk = true → f.stamp = none →
    (f.typ = 0 → ∃ t : State, exec (.flitReceived p f) s = .next t ∧ (t.port p).keptD = dropAcked (s.port p).keptD f.ackD ∧
      (t.port p).keptC = dropAcked (s.port p).keptC f.ackC ∧ (t.port p).replayD = dropAcked (s.port p).replayD f.ackD ∧
      (t.port p).replayC = dropAcked (s.port p).replayC f.ackC ∧
      (t.port p).credits = (if f.credit = 0 then (s.port p).credits else SMap.mod (s.port p).credits f.creditVc (· + f.credit)) ∧
      (t.port p).rxSeqD = (s.port p).rxSeqD ∧ (t.port p).rxSeqC = (s.port p).rxSeqC ∧ t.agenda = s.agenda ∧ SameMem s t ∧
      SameRegsBut [rLnkFecCorr p] s t) ∧
    (f.typ = 5 → ∃ t : State, exec (.flitReceived p f) s = .next t ∧
      t.agenda = s.agenda ++ [({ dom := none, at_ := s.clk.wall, act := .cmd (.nak p (f.vc == 0) f.seq) } : Due)] ∧ SameMem s t ∧
      SameRegsBut [rLnkFecCorr p] s t) ∧
    (f.typ = 4 → f.vc = 0 → f.records = [] → f.seq = (s.port p).rxSeqC → s.quiet p = false →
      ∃ t : State, exec (.flitReceived p f) s = .next t ∧ (t.port p).rxSeqC = (f.seq + 1) % 4096 ∧ (t.port p).rxSeqD = (s.port p).rxSeqD ∧
        SMap.get (t.port p).owed 0 = SMap.get (s.port p).owed 0 + 1 ∧
        t.fld (rLnkRxFlits p 0) 47 0 = min (s.fld (rLnkRxFlits p 0) 47 0 + 1) (2 ^ 48 - 1) ∧ t.agenda = s.agenda ∧ SameMem s t ∧
        SameRegsBut [rLnkFecCorr p, rLnkRxFlits p 0] s t) ∧
    (f.typ = 1 → f.vc ≠ 0 → f.seq = (s.port p).expects false → s.crossRack p = true → (s.port p).heldRx = [] → f.groupEnd = false →
      ∃ t : State, exec (.flitReceived p f) s = .next t ∧ (t.port p).heldRx = [(f, false)] ∧ (t.port p).rxSeqD = (s.port p).rxSeqD ∧
        (t.port p).owed = (s.port p).owed ∧ (t.port p).rx = (s.port p).rx ∧ t.agenda = s.agenda ∧ SameMem s t ∧
        SameRegsBut [rLnkFecCorr p] s t) ∧
    (∀ h : FabricMsg, f.typ = 1 → f.vc ≠ 0 → f.seq = (s.port p).expects false → s.crossRack p = false → s.quiet p = false →
      s.legacy p = false → f.header = some h → h.kind ≠ 2 → h.kind ≠ 3 →
      ∃ t : State, exec (.flitReceived p f) s = .next t ∧ (t.port p).rxSeqD = (f.seq + 1) % 4096 ∧ (t.port p).rxSeqC = (s.port p).rxSeqC ∧
        SMap.get (t.port p).owed f.vc = SMap.get (s.port p).owed f.vc + 1 ∧ SMap.get (t.port p).rx f.msg = some (h, f.payload) ∧
        t.fld (rLnkRxFlits p f.vc) 47 0 = min (s.fld (rLnkRxFlits p f.vc) 47 0 + 1) (2 ^ 48 - 1) ∧ t.agenda = s.agenda ∧ SameMem s t ∧
        SameRegsBut [rLnkFecCorr p, rLnkRxFlits p f.vc] s t) ∧
    (f.typ = 4 → f.vc = 0 → f.seq = ((s.port p).rxSeqC + 1) % 4096 → (s.port p).rxSeqC < 4095 →
      SMap.get (s.port p).nakSent 0 = false →
      ∃ t : State, exec (.flitReceived p f) s = .next t ∧ (t.port p).nakC = true ∧ (t.port p).rxSeqC = (s.port p).rxSeqC ∧ t.agenda = s.agenda ∧
        SameMem s t ∧ SameRegsBut [rLnkFecCorr p] s t)) ∧
  (∀ (s : State) (p : Nat) (f : Flit), p < 6 → s.linkState p = 4 → f.crcOk = false → f.fecOk = true → f.tagOk = true →
    SMap.get (s.port p).nakSent (if f.vc == 0 then 0 else 1) = false →
    ∃ t : State, exec (.flitReceived p f) s = .next t ∧ ((t.port p).nakC = true ∨ f.vc ≠ 0) ∧ ((t.port p).nakD = true ∨ f.vc = 0) ∧
      (t.port p).rxSeqC = (s.port p).rxSeqC ∧ (t.port p).rxSeqD = (s.port p).rxSeqD ∧ t.agenda = s.agenda ∧ SameMem s t ∧
      SameRegsBut [rLnkFecCorr p] s t)

/-- R438, R440: a NAK, or 1,000 ns without acknowledgement, replays the retry buffer from the flit named, or from its oldest, and counts the retry; a flit
already sent five times takes the link down instead. R429–R435: at a flit boundary a port whose flit layer is up sends a NAK that is due first; then,
with credit and room in the retry buffer, up to 15 waiting control records (14 on a cross-rack port) in one flit; and with nothing before it, the flit
of the waiting message that has credit. Each new flit is numbered, kept for retry and charged to its channel's credit. With nothing to send nothing is
sent. -/
def Obligations.FlitsSent : Prop :=
  ((∀ (s : State) (p n : Nat) (x : Kept) (l : List Kept), p < 6 → (s.port p).keptD.dropWhile (fun y => y.flit.seq != n) = x :: l →
    (5 ≤ x.sends → exec (.nak p false n) s = .next (s.linkDown p)) ∧
    (x.sends < 5 → ∃ t : State, exec (.nak p false n) s = .next t ∧ (t.port p).replayD = x :: l ∧ (t.port p).keptD = (s.port p).keptD ∧
      t.fld (rLnkRetry p) 47 0 = min (s.fld (rLnkRetry p) 47 0 + 1) (2 ^ 48 - 1) ∧ SameMem s t ∧ SameRegsBut [rLnkRetry p] s t)) ∧
  (∀ (s : State) (p : Nat) (x : Kept) (l : List Kept), p < 6 → (s.port p).keptC = x :: l → (s.port p).replayC = [] →
    x.sentAt + 700 ≤ s.clk.wall →
    (5 ≤ x.sends → exec (.retryTimeout p true) s = .next (s.linkDown p)) ∧
    (x.sends < 5 → ∃ t : State, exec (.retryTimeout p true) s = .next t ∧ (t.port p).replayC = x :: l ∧ (t.port p).keptC = x :: l ∧
      t.fld (rLnkRetry p) 47 0 = min (s.fld (rLnkRetry p) 47 0 + 1) (2 ^ 48 - 1) ∧ SameMem s t ∧ SameRegsBut [rLnkRetry p] s t))) ∧
  ((∀ (s : State) (p : Nat), p < 6 → s.linkState p = 4 → (s.port p).nakC = true →
    ∃ (t : State) (f : Flit), exec (.flitBoundary p) s = .next t ∧ t.outbox = s.outbox ++ [Output.flit p f] ∧ f.typ = 5 ∧ f.vc = 0 ∧ f.seq = (s.port p).rxSeqC ∧
      (t.port p).nakC = false ∧ t.agenda = s.agenda ∧ SameMem s t ∧ SameRegsBut [] s t) ∧
  (∀ (s : State) (p : Nat) (r : CtlRec) (l : List CtlRec), p < 6 → s.linkState p = 4 → (s.port p).nakC = false → (s.port p).nakD = false →
    s.quiet p = false → s.crossRack p = false → (s.port p).crossRack = false → (s.port p).pendTx = none → (s.port p).replayC = [] →
    (s.port p).ctl = r :: l → 0 < SMap.get (s.port p).credits 0 → (s.port p).keptC.length < 64 →
    ∃ (t : State) (f : Flit), exec (.flitBoundary p) s = .next t ∧ t.outbox = s.outbox ++ [Output.flit p f] ∧ f.vc = 0 ∧ f.typ = 4 ∧
      f.records = ((r :: l).take 15).map s.stampRec ∧ f.seq = (s.port p).txSeqC ∧ (t.port p).ctl = (r :: l).drop 15 ∧
      (t.port p).txSeqC = ((s.port p).txSeqC + 1) % 4096 ∧ SMap.get (t.port p).credits 0 = SMap.get (s.port p).credits 0 - 1 ∧
      (t.port p).keptC.length = (s.port p).keptC.length + 1 ∧
      t.agenda = s.agenda ++ [({ dom := none, at_ := s.clk.wall + 700, act := .cmd (.retryTimeout p true) } : Due)] ∧ SameMem s t ∧
      SameRegsBut [rLnkTxFlits p 0] s t) ∧
  (∀ (s : State) (p : Nat), s.linkState p = 4 → (s.port p).nakC = false → (s.port p).nakD = false → (s.port p).replayC = [] →
    (s.port p).replayD = [] → (s.port p).ctl = [] → (s.port p).tx = [] → (s.port p).owed = [] → (s.port p).stampBeat = 0 →
    exec (.flitBoundary p) s = .next s) ∧
  (∀ (s : State) (p : Nat) (m : TxMsg), p < 6 → s.linkState p = 4 → (s.port p).nakC = false → (s.port p).nakD = false → s.quiet p = false →
    s.crossRack p = false → (s.port p).crossRack = false → (s.port p).pendTx = none →
    (s.port p).replayC = [] → (s.port p).replayD = [] → (s.port p).ctl = [] → (s.port p).tx = [m] → m.vc = 1 ∨ m.vc = 2 ∨ m.vc = 3 →
    0 < SMap.get (s.port p).credits m.vc → (s.port p).keptD.length < 1024 →
    ∃ (t : State) (f : Flit), exec (.flitBoundary p) s = .next t ∧ t.outbox = s.outbox ++ [Output.flit p f] ∧ f.vc = m.vc ∧ f.seq = (s.port p).txSeqD ∧
      f.payload = m.flit.payload ∧ (t.port p).txSeqD = ((s.port p).txSeqD + 1) % 4096 ∧
      SMap.get (t.port p).credits m.vc = SMap.get (s.port p).credits m.vc - 1 ∧ (t.port p).tx = takeTx [m] m ∧
      (t.port p).keptD.length = (s.port p).keptD.length + 1 ∧
      t.agenda = s.agenda ++ [({ dom := none, at_ := s.clk.wall + 700, act := .cmd (.retryTimeout p false) } : Due)] ∧ SameMem s t ∧
      SameRegsBut [rLnkTxFlits p m.vc] s t))

/-- R298, R345, R391, R392, R445: a write of another module whose route names a place of HBM, of a core store, of a local store or of the feeder queue,
within the receiving partition's bounds and outside what no write may change, is written there, and there alone, and DELIVERED goes to its source: to
this module itself, or by the port towards it. One out of bounds faults. DELIVERED ends the message at its source and gives up the half that it was
sent from; a deadline that has passed without it is reported once, naming the target, and no message counts as delivered by it; one that asks for a
recovery's copy loses that source. R449, R485, R673: a gather request whose items lie within bounds and pass their checks is answered with the items'
bytes, item after item: at once to this module itself, and to another in a message admitted on the port towards it, or else refused there; an item out
of bounds faults; a check that fails is recovered first, and the request is read again (log entry 109: after 252 cycles). The reply, matched by source
and number, ends the wait and fills the entries of the feeder queue, or supplies the recovery that asked; a refusal of a request of a context ends its
wait too, and its context's send is NOT_ADMITTED, naming the owner. -/
def Obligations.MessagesArrive : Prop :=
  ((∀ (s : State) (p k j a : Nat) (m : FabricMsg), s.recvPart p m = some k → s.routePlace k m = some (j, 0, 0, a) →
    s.inBounds k a m.content.length = true → (∀ i ∈ [0, 1, 2, 3], s.linkHits i 0 0 a m.content.length = []) →
    exec (.fabricMessageArrival p m) s = .next ((s.hbmWrite a m.content).ackMsg m)) ∧
  (∀ (s : State) (p k j a : Nat) (m : FabricMsg), s.recvPart p m = some k → s.routePlace k m = some (j, 1, 0, a) →
    a + m.content.length ≤ 2 ^ 25 → s.tableHit j a m.content.length = false → s.linkHits j 1 0 a m.content.length = [] →
    (s.firstPort m.src = none →
      ∃ t : State, exec (.fabricMessageArrival p m) s = .next t ∧ t.store = memWrite s.store (storeKey j a) m.content ∧ t.hbm = s.hbm ∧
        t.lstore = s.lstore ∧
        t.agenda = s.agenda ++ [({ dom := none, at_ := s.clk.wall, act := .cmd (.delivered m.msgid) } : Due)] ∧ SameRegsBut [] s t) ∧
    (∀ q, s.firstPort m.src = some q → s.linkState q = 4 →
      ∃ t : State, exec (.fabricMessageArrival p m) s = .next t ∧ t.store = memWrite s.store (storeKey j a) m.content ∧ t.hbm = s.hbm ∧
        t.lstore = s.lstore ∧ (t.port q).ctl = (s.port q).ctl ++ [CtlRec.delivered m.src m.msgid] ∧ t.agenda = s.agenda ∧
        SameRegsBut [] s t)) ∧
  (∀ (s : State) (p k j arr a : Nat) (m : FabricMsg), s.recvPart p m = some k → s.routePlace k m = some (j, 2, arr, a) →
    m.content ≠ [] → a + ceilDiv (m.offset + m.content.length) 1024 ≤ 20480 →
    s.halfHit j arr (plainRange a m.offset m.content.length).1 (plainRange a m.offset m.content.length).2 = false →
    s.linkHits j 2 arr (plainRange a m.offset m.content.length).1 (plainRange a m.offset m.content.length).2 = [] →
    exec (.fabricMessageArrival p m) s = .next ((s.plainAt (4 * j + arr) a m.offset m.content).ackMsg m)) ∧
  (∀ (s : State) (p k j arr a : Nat) (m : FabricMsg), s.recvPart p m = some k → s.routePlace k m = some (j, 5, arr, a) →
    a + m.content.length ≤ 2 ^ 21 →
    exec (.fabricMessageArrival p m) s =
      .next (((s.feederWrite j (a / 2048) (a % 2048) m.content).endLull k 0 (0x30000 + j)).ackMsg m)) ∧
  (∀ (s : State) (p k j a : Nat) (m : FabricMsg), s.recvPart p m = some k → s.routePlace k m = some (j, 1, 0, a) →
    2 ^ 25 < a + m.content.length → exec (.fabricMessageArrival p m) s = .next (s.fault j 0x06 none 0 a)) ∧
  (∀ (s : State) (id : Nat) (o : OutMsg), s.sentMsg id = some o →
    (o.released = none → ∃ t : State, exec (.delivered id) s = .next t ∧ t.sentMsg id = none ∧ t.agenda = s.agenda ∧ SameMem s t ∧
      SameRegsBut [] s t) ∧
    (∀ k c l, o.released = some (k, c, l) → exec (.delivered id) s = .next ((s.dropSent id).applyRelease k c l true))) ∧
  (∀ (s : State) (id : Nat), s.sentMsg id = none → exec (.delivered id) s = .next s ∧ exec (.deadlineMiss id) s = .next s) ∧
  (∀ (s : State) (id : Nat) (o : OutMsg), s.sentMsg id = some o →
    ((s.beat ≤ o.hdr.deadline ∨ o.missed = true) → exec (.deadlineMiss id) s = .next s) ∧
    (o.hdr.deadline < s.beat → o.missed = false → s.gathers.find? (fun g => g.msgid == id && g.recovery.isSome) = none →
      (o.hdr.legacy = false → s.evq.length < 1024 →
        ∃ (t : State) (e : EventRec), exec (.deadlineMiss id) s = .next t ∧ t.sentMsg id = some { o with missed := true } ∧ t.evq = s.evq ++ [e] ∧
          e.code = 0x0305 ∧ e.ext = coordNum o.hdr.dest ∧ e.detail = o.port ∧
          (o.port < 6 → t.fld (rLnkDeadlineMiss o.port) 47 0 = min (s.fld (rLnkDeadlineMiss o.port) 47 0 + 1) (2 ^ 48 - 1)) ∧
          t.agenda = s.agenda ∧ SameMem s t ∧ SameRegsBut (rLnkDeadlineMiss o.port :: eventRegs) s t) ∧
      (o.hdr.legacy = true →
        ∃ t : State, exec (.deadlineMiss id) s = .next t ∧ t.sentMsg id = some { o with missed := true } ∧ t.evq = s.evq ∧
          t.agenda = s.agenda ∧ SameMem s t ∧ SameRegsBut [] s t)) ∧
    (∀ (w : GatherWait) (i : Nat) (r : Recovery), o.hdr.deadline < s.beat → o.missed = false → o.hdr.legacy = true → s.gathers = [w] → w.msgid = id → w.recovery = some i →
      s.recovery i = some r →
      exec (.deadlineMiss id) s = .next (({ s with gathers := [], sent := s.sent.map fun (x : OutMsg) =>
        if x.hdr.msgid = id then { x with missed := true } else x } : State).lost r 2)))) ∧
  ((∀ (s : State) (p k : Nat) (m : FabricMsg) (ps : List (Nat × Nat × Nat × Nat)), s.recvPart p m = some k →
    s.gatherPlaces k m = ps.map some →
    (∀ q ∈ ps, if q.2.1 = 0 then s.inBounds k q.2.2.1 q.2.2.2 = true ∧ s.hbmBad q.2.2.1 q.2.2.2 = false else q.2.2.1 + q.2.2.2 ≤ 2 ^ 25) →
    (s.firstPort m.src = none →
      ∃ (t : State) (r : FabricMsg), exec (.gatherRequest p m false) s = .next t ∧
        t.agenda = s.agenda ++ [({ dom := none, at_ := s.clk.wall, act := .cmd (.gatherReply 6 r) } : Due)] ∧ r.kind = 5 ∧ r.dest = m.src ∧
        r.content = leBytes 4 m.msgid ++ leBytes 4 ps.length ++ List.replicate 8 0 ++
          (ps.flatMap fun q => if q.2.1 = 0 then s.hbmRead q.2.2.1 q.2.2.2 else s.storeRead q.1 q.2.2.1 q.2.2.2) ∧
        t.fld rStraSharedBytes 63 0 = min (s.fld rStraSharedBytes 63 0 + r.content.length) (2 ^ 64 - 1) ∧ SameMem s t ∧
        SameRegsBut [rStraSharedBytes] s t) ∧
    (∀ q, s.firstPort m.src = some q → s.portTakes k q 5 (s.hops s.me m.src) = true →
      (s.fresh.2.admitFlits q (16 + (ps.flatMap fun q =>
        if q.2.1 = 0 then s.hbmRead q.2.2.1 q.2.2.2 else s.storeRead q.1 q.2.2.1 q.2.2.2).length) (s.hops s.me m.src) m.deadline).isSome =
          true →
      ∃ (t : State) (x : TxMsg), exec (.gatherRequest p m false) s = .next t ∧ (t.port q).tx = (s.port q).tx ++ [x] ∧ x.hdr.kind = 5 ∧ x.hdr.dest = m.src ∧
        x.vc = 2 ∧ x.next = 0 ∧ x.last = flitsOf x.hdr.content.length ∧
        x.hdr.content = leBytes 4 m.msgid ++ leBytes 4 ps.length ++ List.replicate 8 0 ++
          (ps.flatMap fun q => if q.2.1 = 0 then s.hbmRead q.2.2.1 q.2.2.2 else s.storeRead q.1 q.2.2.1 q.2.2.2) ∧
        t.sent = s.sent ++ [{ hdr := x.hdr, port := q, core := k }] ∧ SameMem s t ∧ SameRegsBut [rStraSharedBytes] s t) ∧
    (∀ q, s.firstPort m.src = some q → s.portTakes k q 5 (s.hops s.me m.src) = false →
      exec (.gatherRequest p m false) s = .next (s.ctlTo m.src (.gatherRefused m.src m.msgid s.me)))) ∧
  (∀ (s : State) (p k : Nat) (m : FabricMsg) (upset : Bool), s.recvPart p m = some k → none ∈ s.gatherPlaces k m →
    exec (.gatherRequest p m upset) s = .next (s.fault k 0x06 none 0 m.offset)) ∧
  (∀ (s : State) (p k j a n : Nat) (m : FabricMsg), s.recvPart p m = some k → s.gatherPlaces k m = [some (j, 0, a, n)] →
    s.inBounds k a n = true → s.hbmBad a n = true → s.recoveries = [] →
    ∃ (t : State) (r : Recovery), exec (.gatherRequest p m false) s = .next t ∧ t.recoveries = [r] ∧ r.core = j ∧ r.space = 0 ∧ r.addr = s.badAddr a n ∧
      t.agenda.getLast? = some ({ dom := none, at_ := s.clk.wall + 252, act := .cmd (.gatherRequest p m false) } : Due) ∧ SameMem s t) ∧
  (∀ (s : State) (p : Nat) (m : FabricMsg) (w : GatherWait), s.gathers = [w] → w.msgid = fieldAt m.content 0 4 →
    (w.owner = m.src ∨ p = 6) →
    (w.recovery = none → (p = 6 ∨ s.firstPort m.src = none) →
      ∃ t : State, exec (.gatherReply p m) s = .next t ∧ t.gathers = [] ∧ t.sentMsg w.msgid = none ∧
        (t.core w.core).feeder = ((s.feederWrite w.core w.row 0 ((m.content.drop 16).take w.rowBytes)).core w.core).feeder ∧
        (p ≠ 6 → t.agenda = s.agenda ++ [({ dom := none, at_ := s.clk.wall, act := .cmd (.delivered m.msgid) } : Due)]) ∧ SameMem s t ∧
        SameRegsBut eventRegs s t) ∧
    (∀ (i : Nat) (r : Recovery), w.recovery = some i → p = 6 → s.recovery i = some r → w.items ≠ 2 →
      exec (.gatherReply p m) s = .next (({ (s.dropSent w.msgid) with gathers := [] } : State).supply r 1 [] (m.content.drop 16)))) ∧
  (∀ (s : State) (p : Nat) (m : FabricMsg), s.gathers.find? (fun g => g.msgid == fieldAt m.content 0 4 && (g.owner == m.src || p == 6)) = none →
    exec (.gatherReply p m) s = .next s) ∧
  (∀ (s : State) (id : Nat) (w : GatherWait), s.gathers = [w] → w.msgid = id → w.recovery = none → s.evq.length < 1024 →
    ∃ (t : State) (e : EventRec), exec (.gatherRefused id w.owner) s = .next t ∧ t.gathers = [] ∧ t.sentMsg id = none ∧ t.evq[s.evq.length]? = some e ∧
      e.code = 0x0D ∧ e.ctx = w.ctx ∧
      e.ext = coordNum w.owner + 2 ^ 24 * ((((s.sentMsg id).map (·.hdr.deadline)).getD 0) % 2 ^ 40) ∧ t.hbm = s.hbm ∧
      t.store = s.store ∧ t.lstore = s.lstore))

/-- R397–R399, R455–R459: a multicast's flit enters a branch that has credit: its local branch, where the memory controller is to write it, or an outgoing
one, as the next piece at that port; a branch without credit keeps the flit's number as its gap, and takes nothing more, as a dropped multicast takes
nothing. A flit of a multicast not met before, on its last line and at no member, opens one with the branch that goes on. A flit that the memory
controller writes counts towards its member's own delivery, and goes to that place of the core store alone; while the stack takes no access it waits;
the branch with a gap that has then written everything asks for the rest. MCAST_DONE of a branch is kept; when nothing is left it goes on towards the
source, and at the source the multicast is complete. MCAST_COMPLETE from the tree ends it, and goes down every outgoing branch. R458, R460: the source
of a multicast answers a gap with a catch-up message from the gap on, at its own module at once, and else on the port towards the branch, when it is
admitted there; it reports each of the first 16 laggards and counts the rest; a deadline that ends before the multicast is complete drops what its
held branches keep: an incomplete member reports itself to the source, and the source raises DEADLINE_MISS. -/
def Obligations.MulticastsRun : Prop :=
  ((∀ (s : State) (p i : Nat) (m : FabricMsg) (x : Mcast) (b : Branch), m.kind = 3 → s.mcast m.src m.msgid = some x → x.branches = [b] →
    b.gap = none → x.dropped = false →
    (b.line = 6 → b.buffered.length < 256 →
      ∃ t : State, exec (.multicastFlit p m i) s = .next t ∧
        t.mcast m.src m.msgid = some { x with branches := [{ b with buffered := b.buffered ++ [(i, m.content)] }] } ∧
        t.agenda = s.agenda ++ [({ dom := none, at_ := s.clk.wall, act := .cmd (.localBranchWrite x.hdr.src x.hdr.msgid i) } : Due)] ∧
        SameMem s t ∧ SameRegsBut [] s t) ∧
    (b.line < 6 → s.held x b < 256 → s.linkState b.line = 4 → i ≠ 0 → b.tag ≠ 0 →
      ∃ (t : State) (q : TxMsg), exec (.multicastFlit p m i) s = .next t ∧ (t.port b.line).tx = (s.port b.line).tx ++ [q] ∧ q.vc = 3 ∧ q.piece = true ∧
        q.hdr.content = m.content ∧ q.hdr.start = i ∧ q.hdr.stage = b.stage ∧ q.hdr.remain = b.remain ∧ q.tag = (b.tag - 1) % 1024 ∧
        t.mcasts = s.mcasts ∧ t.agenda = s.agenda ∧ SameMem s t ∧ SameRegsBut [] s t) ∧
    (256 ≤ s.held x b →
      ∃ t : State, exec (.multicastFlit p m i) s = .next t ∧ t.mcast m.src m.msgid = some { x with branches := [{ b with gap := some i }] } ∧
        t.agenda = s.agenda ∧ SameMem s t ∧ SameRegsBut [] s t)) ∧
  (∀ (s : State) (p i : Nat) (m : FabricMsg) (x : Mcast) (b : Branch), m.kind = 3 → s.mcast m.src m.msgid = some x → x.branches = [b] →
    (b.gap ≠ none ∨ x.dropped = true) → exec (.multicastFlit p m i) s = .next s) ∧
  (∀ (s : State) (p i : Nat) (m : FabricMsg), m.kind = 3 → s.mcast m.src m.msgid = none → p < 6 → s.linkState (2 * (m.stage % 4)) = 4 →
    m.stage = 2 → s.atMember m = false →
    ∃ (t : State) (x : Mcast), exec (.multicastFlit p m i) s = .next t ∧ t.mcast m.src m.msgid = some x ∧ x.inPort = p ∧ x.flits = flitsOf m.len ∧
      x.member = false ∧ x.branches.map (·.line) = [4] ∧
      t.agenda = s.agenda ++ [({ dom := none, at_ := s.clk.wall + s.untilEnd m.deadline, act := .cmd (.multicastDeadline m.src m.msgid) } : Due)] ∧
      (t.port 4).tx.length = (s.port 4).tx.length + 1 ∧ SameMem s t ∧ SameRegsBut [] s t) ∧
  (∀ (s : State) (i k j a id : Nat) (c : Coord) (bs : List Nat) (x : Mcast) (b : Branch), s.mcasts = [x] → x.hdr.src = c →
    x.hdr.msgid = id → x.inPort < 6 → s.portPart x.inPort = some k → x.branches = [b] → b.line = 6 →
    b.buffered = [(i, bs)] → x.member = true → s.routePlace k x.hdr = some (j, 1, 0, a) →
    a + flitOfs i + bs.length ≤ 2 ^ 25 → s.tableHit j (a + flitOfs i) bs.length = false → s.linkHits j 1 0 (a + flitOfs i) bs.length = [] →
    s.maint.any (fun m => m.act == 4 && m.scope == 8) = false → x.dropped = false → x.doneSent = false →
    (x.written + 1 < x.flits → b.gap = none →
      ∃ t : State, exec (.localBranchWrite c id i) s = .next t ∧ t.store = memWrite s.store (storeKey j (a + flitOfs i)) bs ∧
        t.mcasts = [{ x with written := x.written + 1, branches := [{ b with buffered := [] }] }] ∧ t.hbm = s.hbm ∧
        t.lstore = s.lstore ∧ t.agenda = s.agenda ∧ SameRegsBut [] s t) ∧
    (x.written + 1 = x.flits → b.gap = none → s.linkState x.inPort = 4 →
      ∃ t : State, exec (.localBranchWrite c id i) s = .next t ∧ t.store = memWrite s.store (storeKey j (a + flitOfs i)) bs ∧
        t.mcasts = [{ x with written := x.written + 1, doneSent := true, branches := [{ b with buffered := [] }] }] ∧
        (t.port x.inPort).ctl = (s.port x.inPort).ctl ++ [CtlRec.mcastDone c id] ∧ t.hbm = s.hbm ∧ t.lstore = s.lstore ∧ SameRegsBut [] s t) ∧
    (∀ g q, x.written + 1 < x.flits → b.gap = some g → b.asked = false → s.firstPort c = some q → s.linkState q = 4 →
      ∃ t : State, exec (.localBranchWrite c id i) s = .next t ∧ t.store = memWrite s.store (storeKey j (a + flitOfs i)) bs ∧
        t.mcasts = [{ x with written := x.written + 1, branches := [{ b with buffered := [], asked := true }] }] ∧
        (t.port q).ctl = (s.port q).ctl ++ [CtlRec.catchup c id s.me 6 g] ∧
        t.fld (rLnkCatchup x.inPort) 47 0 = min (s.fld (rLnkCatchup x.inPort) 47 0 + 1) (2 ^ 48 - 1) ∧ t.hbm = s.hbm ∧
        t.lstore = s.lstore ∧ SameRegsBut [rLnkCatchup x.inPort] s t)) ∧
  (∀ (s : State) (i k j arr a id st : Nat) (c : Coord) (bs : List Nat) (x : Mcast) (b : Branch), s.mcast c id = some x → x.inPort < 6 →
    s.portPart x.inPort = some k → x.branches = [b] → b.line = 6 → b.buffered = [(i, bs)] → s.routePlace k x.hdr = some (j, 0, arr, a) →
    st = (a + flitOfs i) / 2 ^ 36 → s.maint.any (fun m => m.act == 4 && m.scope == st) = true →
    ∃ t : State, exec (.localBranchWrite c id i) s = .next t ∧
      t.agenda = s.agenda ++ [({ dom := none, at_ := s.clk.wall + 1, act := .cmd (.localBranchWrite c id i) } : Due)] ∧ t.mcasts = s.mcasts ∧
      SameMem s t ∧ SameRegsBut [] s t) ∧
  (∀ (s : State) (p id : Nat) (c : Coord) (x : Mcast) (b d : Branch), s.mcast c id = some x → x.branches = [b, d] → b.line = p →
    p ≠ 6 → d.line ≠ 6 → d.line ≠ p →
    (d.done = false → ∃ t : State, exec (.mcastDone p c id) s = .next t ∧
      t.mcast c id = some { x with branches := [{ b with done := true }, d] } ∧ t.agenda = s.agenda ∧ SameMem s t ∧ SameRegsBut [] s t) ∧
    (d.done = true → x.member = false → x.dropped = false → x.doneSent = false → x.inPort < 6 → s.linkState x.inPort = 4 →
      ∃ t : State, exec (.mcastDone p c id) s = .next t ∧
        t.mcast c id = some { x with doneSent := true, branches := [{ b with done := true }, d] } ∧
        (t.port x.inPort).ctl = (s.port x.inPort).ctl ++ [CtlRec.mcastDone c id] ∧ SameMem s t ∧ SameRegsBut [] s t) ∧
    (d.done = true → x.member = false → x.dropped = false → x.doneSent = false → x.inPort = 6 →
      ∃ t : State, exec (.mcastDone p c id) s = .next t ∧ t.mcast c id = none ∧ t.sentMsg x.hdr.msgid = none ∧ SameMem s t ∧ SameRegsBut [] s t)) ∧
  (∀ (s : State) (p id : Nat) (c : Coord) (x : Mcast), s.mcast c id = some x → x.inPort = p → p < 6 →
    ∃ t : State, exec (.mcastComplete p c id) s = .next t ∧ t.mcast c id = none ∧ t.agenda = s.agenda ∧ SameMem s t ∧ SameRegsBut [] s t) ∧
  (∀ (s : State) (p id : Nat) (c : Coord) (x : Mcast) (b : Branch), s.mcast c id = some x → x.inPort = p → p < 6 → x.branches = [b] →
    b.line < 6 → s.linkState b.line = 4 →
    ∃ t : State, exec (.mcastComplete p c id) s = .next t ∧ t.mcast c id = none ∧ t.mcasts.length ≤ s.mcasts.length ∧
      (t.port b.line).ctl = (s.port b.line).ctl ++ [CtlRec.mcastComplete x.hdr.src x.hdr.msgid] ∧ SameMem s t ∧ SameRegsBut [] s t)) ∧
  ((∀ (s : State) (id l g : Nat) (c : Coord) (o : OutMsg), s.sentMsg id = some o →
    (s.firstPort c = none →
      ∃ (t : State) (m : FabricMsg), exec (.catchup id c l g) s = .next t ∧
        t.agenda = s.agenda ++ [({ dom := none, at_ := s.clk.wall, act := .cmd (.multicastFlit 6 m 0) } : Due)] ∧ m.kind = 6 ∧ m.start = g ∧
        m.content = o.hdr.content.drop (flitOfs g) ∧ SameMem s t ∧ SameRegsBut [] s t) ∧
    (∀ q, s.firstPort c = some q → s.portTakes o.core q 6 (s.hops s.me c) = true →
      (s.admitFlits q (o.hdr.content.length - flitOfs g) (s.hops s.me c) o.hdr.deadline).isSome = true →
      ∃ (t : State) (x : TxMsg), exec (.catchup id c l g) s = .next t ∧ (t.port q).tx = (s.port q).tx ++ [x] ∧ x.hdr.kind = 6 ∧ x.hdr.start = g ∧
        x.hdr.content = o.hdr.content.drop (flitOfs g) ∧ x.vc = 3 ∧ t.agenda = s.agenda ∧ SameMem s t ∧
        SameRegsBut [rStraSharedBytes] s t) ∧
    (∀ q, s.firstPort c = some q → s.portTakes o.core q 6 (s.hops s.me c) = false → exec (.catchup id c l g) s = .next s)) ∧
  (∀ (s : State) (id n : Nat) (c : Coord) (o : OutMsg), s.sentMsg id = some o →
    (o.laggards.length < 16 → s.evq.length < 1024 →
      ∃ (t : State) (e : EventRec), exec (.mcastLaggard id c n) s = .next t ∧ t.sentMsg id = some { o with laggards := o.laggards ++ [c] } ∧
        t.evq = s.evq ++ [e] ∧ e.code = 0x0305 ∧ e.ext = coordNum c ∧ e.detail = n % 2 ^ 24 ∧ t.agenda = s.agenda ∧ SameMem s t ∧
        SameRegsBut eventRegs s t) ∧
    (16 ≤ o.laggards.length → o.port < 6 →
      ∃ t : State, exec (.mcastLaggard id c n) s = .next t ∧
        t.fld (rLnkMcastLaggard o.port) 47 0 = min (s.fld (rLnkMcastLaggard o.port) 47 0 + 1) (2 ^ 48 - 1) ∧ t.evq = s.evq ∧
        t.agenda = s.agenda ∧ SameMem s t ∧ SameRegsBut [rLnkMcastLaggard o.port] s t)) ∧
  (∀ (s : State) (id : Nat) (c : Coord) (x : Mcast), s.mcast c id = some x →
    ((s.beat ≤ x.hdr.deadline ∨ x.dropped = true) → exec (.multicastDeadline c id) s = .next s) ∧
    (∀ (b : Branch) (q : Nat), x.hdr.deadline < s.beat → x.dropped = false → x.inPort < 6 → x.doneSent = false → x.branches = [b] → b.line = 6 →
      b.gap ≠ none → x.member = true → x.written < x.flits → x.hdr.legacy = false → s.firstPort c = some q → s.linkState q = 4 →
      ∃ t : State, exec (.multicastDeadline c id) s = .next t ∧
        t.mcast c id = some { x with dropped := true, branches := [{ b with buffered := [] }] } ∧
        (t.port q).ctl = (s.port q).ctl ++ [CtlRec.mcastLaggard c id s.me (x.flits - x.written)] ∧ t.agenda = s.agenda ∧ SameMem s t ∧
        SameRegsBut [] s t) ∧
    (∀ o : OutMsg, x.hdr.deadline < s.beat → x.dropped = false → x.inPort = 6 → x.branches = [] → x.member = false → x.hdr.legacy = false →
      s.sentMsg id = some o → s.evq.length < 1024 →
      ∃ (t : State) (e : EventRec), exec (.multicastDeadline c id) s = .next t ∧ t.mcast c id = some { x with dropped := true } ∧ t.evq = s.evq ++ [e] ∧
        e.code = 0x0305 ∧ e.ext = coordNum o.hdr.dest ∧ SameMem s t ∧ SameRegsBut (rLnkDeadlineMiss o.port :: eventRegs) s t)))

/-- R6, R425, R466–R471, R569: a training port whose step completes goes on to the next: all lanes locked, the version agreed as the lower of the two, the
round trip kept; the last step brings the flit layer up with sequence numbers 0 and full credits, and a port that trains after phase 3 has begun
exchanges identities at once. Lanes that do not lock, or a version that the two cannot agree on, leave the port dark and are reported. A reset port
loses its buffers and its keys and trains again from step 2, or stays dark where LNK_CTRL holds it so, or where it is one that never trains. A port
that is not training takes no step. -/
def Obligations.PortsTrain : Prop :=
  (∀ (s : State) (p : Nat) (r : TrainResult), p < 6 → s.linkState p = 1 →
    ((s.port p).trainStep = 1 ∨ (s.port p).trainStep = 2 ∨ (s.port p).trainStep = 3 → r.lanes = 0xFFFF →
      ∃ t : State, exec (.trainingStep p r) s = .next t ∧ (t.port p).trainStep = (s.port p).trainStep + 1 ∧ t.fld (rLnkStatus p) 47 32 = 0xFFFF ∧
        t.linkState p = 1 ∧ t.agenda = s.agenda ∧ SameMem s t ∧ SameRegsBut [rLnkStatus p] s t) ∧
    ((s.port p).trainStep = 1 ∨ (s.port p).trainStep = 2 ∨ (s.port p).trainStep = 3 → r.lanes ≠ 0xFFFF → s.evq.length < 1024 →
      ∃ (t : State) (e : EventRec), exec (.trainingStep p r) s = .next t ∧ t.linkState p = 0 ∧ t.fld (rLnkStatus p) 47 32 = r.lanes % 65536 ∧
        t.fld (rLnkStatus p) 31 28 = (s.port p).trainStep ∧ t.evq = s.evq ++ [e] ∧ e.code = 0x0302 ∧ SameMem s t ∧
        SameRegsBut (rLnkStatus p :: (maintRegs ++ eventRegs)) s t) ∧
    ((s.port p).trainStep = 4 → 0x10 ≤ peerVersion r → (s.crossRack p = false ∨ 0x21 ≤ peerVersion r) →
      ∃ t : State, exec (.trainingStep p r) s = .next t ∧ (t.port p).trainStep = 5 ∧ t.linkVersion p = min 0x21 (peerVersion r) ∧
        (t.legacy p = true ↔ peerVersion r < 0x20) ∧ t.linkState p = 1 ∧ t.agenda = s.agenda ∧ SameMem s t ∧
        SameRegsBut [rLnkStatus p] s t) ∧
    ((s.port p).trainStep = 4 → peerVersion r < 0x10 ∨ (s.crossRack p = true ∧ peerVersion r < 0x21) → s.evq.length < 1024 →
      ∃ (t : State) (e : EventRec), exec (.trainingStep p r) s = .next t ∧ t.linkState p = 0 ∧ t.evq = s.evq ++ [e] ∧ e.code = 0x0303 ∧
        e.detail = peerVersion r ∧ SameMem s t ∧ SameRegsBut (rLnkStatus p :: (maintRegs ++ eventRegs)) s t) ∧
    ((s.port p).trainStep = 5 →
      ∃ t : State, exec (.trainingStep p r) s = .next t ∧ (t.port p).trainStep = 6 ∧ t.fld (rLnkRtt p) 31 0 = r.rtt % 2 ^ 32 ∧
        t.agenda = s.agenda ∧ SameMem s t ∧ SameRegsBut [rLnkRtt p] s t) ∧
    ((s.port p).trainStep = 6 →
      ∃ t : State, exec (.trainingStep p r) s = .next t ∧ t.linkState p = 2 ∧ (t.port p).txSeqD = 0 ∧ (t.port p).rxSeqD = 0 ∧
        (t.port p).txSeqC = 0 ∧ (t.port p).rxSeqC = 0 ∧ (t.port p).credits = [(0, 16), (1, 1024), (2, 1024), (3, 1024)] ∧
        (t.port p).ctl = (s.port p).ctl ++ (if s.startPh < 3 then [] else [.ident s.ownIdent]) ∧
        t.agenda = s.agenda ++ [({ dom := none, at_ := s.clk.wall, act := .cmd .startPhase } : Due)] ∧ SameMem s t ∧
        SameRegsBut (rLnkStatus p :: maintRegs) s t)) ∧
  (∀ (s : State) (p : Nat) (r : TrainResult) (l : Nat), s.linkState p ≠ 1 →
    exec (.trainingStep p r) s = .next s ∧ exec (.linkTrainFail p l) s = .next s) ∧
  (∀ (s : State) (p l : Nat), p < 6 → s.linkState p = 1 → s.evq.length < 1024 →
    ∃ (t : State) (e : EventRec), exec (.linkTrainFail p l) s = .next t ∧ t.linkState p = 0 ∧ t.fld (rLnkStatus p) 47 32 = l % 65536 ∧
      t.fld (rLnkStatus p) 31 28 = (s.port p).trainStep % 16 ∧ t.evq = s.evq ++ [e] ∧ e.code = 0x0302 ∧
      e.detail = (s.port p).trainStep + 256 * (65535 - l % 65536) ∧ SameMem s t ∧
      SameRegsBut (rLnkStatus p :: (maintRegs ++ eventRegs)) s t) ∧
  (∀ (s : State) (p : Nat), p < 6 →
    ∃ t : State, exec (.linkReset p) s = .next t ∧ t.linkState p = (if s.fld (rLnkCtrl p) 0 0 = 0 ∨ s.connected p = false then 0 else 1) ∧
      (s.fld (rLnkCtrl p) 0 0 = 1 → s.connected p = true → (t.port p).trainStep = 2) ∧ (t.port p).tx = [] ∧ (t.port p).ctl = [] ∧
      (t.port p).keptD = [] ∧ (t.port p).keptC = [] ∧ (t.port p).ledger = [] ∧ (t.port p).txKey = none ∧ (t.port p).rxKey = none ∧
      (t.port p).setNo = (s.port p).setNo ∧ t.agenda = s.agenda ∧ SameMem s t ∧ SameRegsBut (rLnkStatus p :: maintRegs) s t)

/-- R470: when a training step fails or overruns its bound, the port raises LINK_TRAIN_FAIL, naming the step and the lanes that did not lock, and stays
dark. -/
def Obligations.TrainFailNamed : Prop :=
  ∀ (s : State) (p l : Nat), p < 6 → s.linkState p = 1 → l < 65536 → s.evq.length < 1024 →
    ∃ (t : State) (e : EventRec), exec (.linkTrainFail p l) s = .next t ∧ t.linkState p = 0 ∧ t.evq = s.evq ++ [e] ∧ e.code = 0x0302 ∧ e.source = 12 + p ∧
      e.detail = (s.port p).trainStep + 256 * (65535 - l) ∧ SameMem s t ∧ SameRegsBut (rLnkStatus p :: (maintRegs ++ eventRegs)) s t

/-- R6, R574–R580: a module in the bench shape is ready at once, its counter counting. Else the start first trains the connected ports; with training
over, it takes its place in the map and sends its identity on each port that came up, or reports a map that does not name it; with every identity
there it checks them; when every port has passed it ends phase 4, and once the counter is aligned it goes on to READY. In phase 3 an identity is kept
and the start looks at it; a port without one after 10 ms goes dark. READY of a child is kept, and goes on to the parent once every child's has come;
the origin's broadcast from the parent makes a starting module ready and goes on to the children. A start that is not ready in time is reported. -/
def Obligations.StartAdvances : Prop :=
  (∀ (s : State) (p : Nat) (r : IdentRec), s.startPh = 3 →
    ∃ t : State, exec (.ident p r) s = .next t ∧ (t.port p).identSeen = some r ∧
      t.agenda = s.agenda ++ [({ dom := none, at_ := s.clk.wall, act := .cmd .startPhase } : Due)] ∧ SameMem s t ∧ SameRegsBut [] s t) ∧
  (∀ (s : State) (p : Nat) (r : IdentRec), 5 ≤ s.startPh → s.linkState p = 2 →
    exec (.ident p r) s = .next (((s.modPort p fun q => { q with identSeen := some r }).checkPeer p r).laterW 0 .startPhase)) ∧
  (∀ (s : State) (p : Nat), p < 6 → s.startPh = 3 → (s.port p).identSeen = none → s.evq.length < 1024 →
    ∃ (t : State) (e : EventRec), exec (.startIdentFail p) s = .next t ∧ t.linkState p = 0 ∧ t.evq = s.evq ++ [e] ∧ e.code = 0x0308 ∧ SameMem s t ∧
      SameRegsBut (rLnkStatus p :: (maintRegs ++ eventRegs)) s t) ∧
  (∀ (s : State) (p : Nat), s.startPh ≠ 3 ∨ (s.port p).identSeen ≠ none → exec (.startIdentFail p) s = .next s) ∧
  (∀ (s : State) (p : Nat), s.fld rPwrStatus 56 56 = 1 ∨ s.pwr.phase5 = false →
    ∃ t : State, exec (.ready p false) s = .next t ∧ (t.port p).readyFrom = true ∧ t.agenda = s.agenda ∧ SameMem s t ∧ SameRegsBut [] s t) ∧
  (∀ (s : State) (p q : Nat), s.fld rPwrStatus 56 56 = 0 → s.fld rClkPhase 63 63 = 1 → s.isOrigin = false → s.treeParent = some q →
    s.linkState q = 4 → (s.modPort p fun x => { x with readyFrom := true }).readyUp = true →
    ∃ t : State, exec (.ready p false) s = .next t ∧ (t.port p).readyFrom = true ∧ (t.port q).ctl = (s.port q).ctl ++ [CtlRec.ready false] ∧
      t.agenda = s.agenda ∧ SameMem s t ∧ SameRegsBut [] s t) ∧
  (∀ (s : State) (p : Nat), s.treeParent = some p → s.fld rPwrStatus 63 61 = 6 →
    ∃ t : State, exec (.ready p true) s = .next t ∧ t.fld rPwrStatus 56 56 = 1 ∧ t.fld rPwrStatus 63 61 = 0 ∧ t.fld rPwrStatus 60 57 = 7 ∧
      (∀ q ∈ s.treeChildren, s.linkState q = 4 → (t.port q).ctl = (s.port q).ctl ++ [CtlRec.ready true]) ∧ SameMem s t ∧
      SameRegsBut [rPwrStatus] s t) ∧
  (∀ (s : State) (p : Nat), s.treeParent ≠ some p → exec (.ready p true) s = .next s) ∧
  (∀ s : State, s.fld rPwrStatus 56 56 = 0 → s.fld rPwrStatus 63 61 = 6 → s.evq.length < 1024 →
    ∃ (t : State) (e : EventRec), exec .startTimeout s = .next t ∧ t.evq = s.evq ++ [e] ∧ e.code = 0x030B ∧ t.agenda = s.agenda ∧ SameMem s t ∧
      SameRegsBut eventRegs s t) ∧
  (∀ s : State, s.fld rPwrStatus 56 56 = 1 ∨ s.fld rPwrStatus 63 61 ≠ 6 → exec .startTimeout s = .next s) ∧
  (∀ s : State, s.fld rPwrStatus 63 61 = 6 → ¬(s.pwr.cold = true ∧ s.startPh < 2) →
    (s.inBench = true →
      ∃ t : State, exec .startPhase s = .next t ∧ t.fld rPwrStatus 56 56 = 1 ∧ t.fld rPwrStatus 63 61 = 0 ∧ t.fld rPwrStatus 60 57 = 7 ∧
        t.clk.counting = true ∧ SameMem s t ∧ SameRegsBut [rPwrStatus, rClkBeat, rClkPhase] s t) ∧
    (s.inBench = false → s.startPh < 3 → s.pwr.phase3 = false →
      ∃ t : State, exec .startPhase s = .next t ∧ t.pwr.phase3 = true ∧
        (∀ p ∈ List.range 6, s.connected p = true → s.fld (rLnkCtrl p) 0 0 = 1 →
          t.linkState p = 1 ∧ (t.port p).trainStep = (if s.clk.counting = true then 2 else 1)) ∧ t.agenda = s.agenda ∧ SameMem s t ∧
        SameRegsBut ((List.range 6).map rLnkStatus) s t) ∧
    (s.inBench = false → s.startPh < 3 → s.pwr.phase3 = true → s.trainingOver = false → exec .startPhase s = .next s) ∧
    (s.inBench = false → s.startPh < 3 → s.pwr.phase3 = true → s.trainingOver = true → s.ownPlace = none → s.evq.length < 1024 →
      ∃ (t : State) (e : EventRec), exec .startPhase s = .next t ∧ t.startPh = 3 ∧ t.evq = s.evq ++ [e] ∧ e.code = 0x030A ∧ t.agenda = s.agenda ∧ SameMem s t ∧
        SameRegsBut (rPwrStatus :: eventRegs) s t) ∧
    (∀ i, s.inBench = false → s.startPh < 3 → s.pwr.phase3 = true → s.trainingOver = true → s.ownPlace = some i →
      ∃ t : State, exec .startPhase s = .next t ∧ t.startPh = 3 ∧ t.zen.coord = some (s.placeCoord i) ∧
        (∀ p ∈ s.meetPorts, (t.port p).ctl = (s.port p).ctl ++ [CtlRec.ident t.ownIdent] ∧
          ({ dom := none, at_ := s.clk.wall + 7000000, act := .cmd (.startIdentFail p) } : Due) ∈ t.agenda) ∧ SameMem s t ∧
        SameRegsBut [rPwrStatus] s t) ∧
    (∀ (p : Nat) (r : IdentRec), s.inBench = false → s.startPh = 3 → s.zen.coord ≠ none → s.meetPorts = [p] → (s.port p).identSeen = some r →
      s.identFits p r = true → r.aligned = true → s.crossRack p = false →
      ∃ t : State, exec .startPhase s = .next t ∧ t.startPh = 4 ∧ (t.port p).identOk = true ∧ t.linkState p = 4 ∧
        t.agenda = s.agenda ++ [({ dom := none, at_ := s.clk.wall, act := .cmd .startPhase } : Due)] ∧ SameMem s t ∧
        SameRegsBut (rPwrStatus :: rLnkStatus p :: (List.range 8).map rPwrMapHash) s t) ∧
    (s.inBench = false → s.startPh = 4 → s.allChecked = true → s.fld rClkPhase 63 63 = 1 →
      ∃ t : State, exec .startPhase s = .next t ∧ t.startPh = 5 ∧ t.pwr.phase5 = true ∧
        t.agenda = s.agenda ++ [({ dom := none, at_ := s.clk.wall, act := .cmd .startPhase } : Due)] ∧ SameMem s t ∧
        SameRegsBut [rPwrStatus] s t) ∧
    (s.inBench = false → s.startPh = 5 → s.fld rClkPhase 63 63 = 1 → exec .startPhase s = .next (s.setPh 6).tryReady)) ∧
  (∀ s : State, s.fld rPwrStatus 63 61 ≠ 6 → exec .startPhase s = .next s)

/-- R539–R541, R464: the responder that accepts a KEYX_INIT draws a secret, installs it for receiving and shows the set; the initiator that accepts the
KEYX_RESP of its own set installs its secret likewise; KEYX_DONE installs the transmit key, and a port that awaited keys is up; an even cross-rack
port begins the next handshake with the next set. The records that this takes go out at the port where its flit layer is up. A handshake that fails
its checks leaves the port without keys. An even port takes no KEYX_INIT and an odd one no KEYX_RESP. -/
def Obligations.KeysAgreed : Prop :=
  (∀ (s : State) (p : Nat) (r : KeyxRec), p < 6 → p % 2 = 1 →
    (s.keyxFits p r = false → exec (.keyxInit p r) s = .next (s.authFail p)) ∧
    (s.keyxFits p r = true →
      ∃ t : State, exec (.keyxInit p r) s = .next t ∧ (t.port p).rxKey = some s.zen.drbg ∧ (t.port p).rxOld = (s.port p).rxKey ∧
        (t.port p).setNo = r.n ∧ t.zen.drbg = s.zen.drbg + 1 ∧ t.fld (rLnkKeyset p) 15 0 = r.n % 65536 ∧
        (2 ≤ s.linkState p → s.linkState p ≤ 4 → ((t.port p).ctl.drop (s.port p).ctl.length).length = 2 ∧
          (t.port p).ctl.getLast? = some (.keyxDone r.n)) ∧ t.agenda = s.agenda ∧ SameMem s t ∧ SameRegsBut [rLnkKeyset p] s t)) ∧
  (∀ (s : State) (p : Nat) (r : KeyxRec), (p % 2 = 0 → exec (.keyxInit p r) s = .next s) ∧ (p % 2 = 1 → exec (.keyxResp p r) s = .next s)) ∧
  (∀ (s : State) (p n : Nat) (r : KeyxRec), p < 6 → p % 2 = 0 → (s.port p).keyxSecret = some n → r.n = (s.port p).setNo →
    (s.keyxFits p r = false → exec (.keyxResp p r) s = .next (s.authFail p)) ∧
    (s.keyxFits p r = true →
      ∃ t : State, exec (.keyxResp p r) s = .next t ∧ (t.port p).rxKey = some n ∧ (t.port p).rxOld = (s.port p).rxKey ∧
        (t.port p).setNo = r.n ∧ t.fld (rLnkKeyset p) 15 0 = r.n % 65536 ∧
        (2 ≤ s.linkState p → s.linkState p ≤ 4 → (t.port p).ctl = (s.port p).ctl ++ [CtlRec.keyxDone r.n]) ∧ t.agenda = s.agenda ∧ SameMem s t ∧
        SameRegsBut [rLnkKeyset p] s t)) ∧
  (∀ (s : State) (p n x : Nat), p < 6 → (s.port p).keyxSecret = some x → n = (s.port p).setNo →
    ∃ t : State, exec (.keyxDone p n) s = .next t ∧ (t.port p).keyxSecret = none ∧
      ((s.port p).txKey = none → (t.port p).txKey = some x) ∧ ((s.port p).txKey ≠ none → (t.port p).pendTx = some x) ∧
      t.fld (rLnkKeyset p) 31 16 = n % 65536 ∧ (s.linkState p = 3 → t.linkState p = 4) ∧ SameMem s t ∧
      SameRegsBut [rLnkKeyset p, rLnkStatus p] s t) ∧
  (∀ (s : State) (p : Nat), p % 2 = 0 → s.crossRack p = true → (s.port p).authFailed = false → s.linkState p = 3 ∨ s.linkState p = 4 →
    ∃ t : State, exec (.keySetRollover p) s = .next t ∧ (t.port p).keyxSecret = some s.zen.drbg ∧ (t.port p).setNo = (s.port p).setNo + 1 ∧
      (t.port p).ctl.length = (s.port p).ctl.length + 1 ∧ t.zen.drbg = s.zen.drbg + 1 ∧ SameMem s t ∧ SameRegsBut [] s t)

/-- R483, R486, R487, R490, R491: a retry that reads good bytes puts the error right, which is counted and reported; one that does not is counted again
and goes to the recovery table. A copy's bytes, from HBM or from the core store, or a FEED run again, replace the failing ones; a source that fails
loses the recovery. A verify read that is good ends it, and one that is not is counted and captured and asks for a remap (log entry 106: the METHOD it
is captured with is free). A moment of a recovery that is over, or at another step, does nothing. -/
def Obligations.RecoveryProceeds : Prop :=
  (∀ (s : State) (id : Nat) (b : Bool) (r : Recovery), s.recoveries = [r] → r.id = id → r.stage = 0 →
    ((b && !(r.space == 0 && s.hbmBad r.addr r.len) && s.retryOk r) = false →
      exec (.retryLands id b) s = .next ((s.countCheck r.core r.space r.addr r.check).lookup r)) ∧
    (b = true → (r.space == 0 && s.hbmBad r.addr r.len) = false → s.retryOk r = true → errStack r.core r.space r.addr < 8 →
      s.evq.length < 1024 →
      ∃ (t : State) (e : EventRec), exec (.retryLands id b) s = .next t ∧ t.recoveries = [] ∧ t.evq[s.evq.length]? = some e ∧ e.code = 0x0101 ∧ e.ext = r.addr ∧
        t.fld (rMemRetryOk (errStack r.core r.space r.addr)) 47 0 =
          min (s.fld (rMemRetryOk (errStack r.core r.space r.addr)) 47 0 + 1) (2 ^ 48 - 1) ∧ SameMem s t ∧
        SameRegsBut ([rMemRetryOk (errStack r.core r.space r.addr), rMemErrInfo (errStack r.core r.space r.addr),
          rMemErrAddr (errStack r.core r.space r.addr)] ++ eventRegs) s t)) ∧
  (∀ (s : State) (id : Nat) (b : Bool) (r : Recovery), s.recovery id = some r → r.stage = 2 →
    (b = false → exec (.copyReadLands id b) s = .next (s.lost r 2)) ∧
    (b = true → r.space = 0 → r.hdr = none → r.newer = [] → fieldAt r.entry 18 1 = 1 → s.heldWrites = [] →
      s.heldEnds r.addr (s.storeRead r.core (fieldAt r.entry 13 5 + r.addr - fieldAt r.entry 4 5) r.len).length = (0, 0) → ∃ t : State, exec (.copyReadLands id b) s = .next t ∧
      t.hbm = memWrite s.hbm r.addr (s.storeRead r.core (fieldAt r.entry 13 5 + r.addr - fieldAt r.entry 4 5) r.len) ∧ t.store = s.store ∧
      t.lstore = s.lstore ∧ t.recovery id = none) ∧
    (b = true → r.space = 1 → r.hdr = none → r.newer = [] → fieldAt r.entry 18 1 = 0 →
      s.hbmBad (fieldAt r.entry 13 5 + r.addr - fieldAt r.entry 4 5) r.len = false → ∃ t : State, exec (.copyReadLands id b) s = .next t ∧
      t.store = memWrite s.store (storeKey r.core r.addr) (s.hbmRead (fieldAt r.entry 13 5 + r.addr - fieldAt r.entry 4 5) r.len) ∧
      t.hbm = s.hbm ∧ t.lstore = s.lstore ∧ t.recovery id = none)) ∧
  (∀ (s : State) (id : Nat) (b : Bool) (r : Recovery), s.recovery id = some r → r.stage = 3 →
    (∀ (d : SDesc) (x y q : Nat), s.recomputeOf r = some (d, x, y, q) → s.sourceBad d x q = false → b = true →
      exec (.recomputeDone id b) s = .next (match s.repairPanel r.core y x d q with
        | some v => v.recovered r 3
        | none => s.lost r 2)) ∧
    (b = false → exec (.recomputeDone id b) s = .next (s.lost r 2))) ∧
  (∀ (s : State) (id : Nat) (b : Bool), s.recovery id = none →
    exec (.retryLands id b) s = .next s ∧ exec (.copyReadLands id b) s = .next s ∧ exec (.recomputeDone id b) s = .next s) ∧
  (∀ (s : State) (n l : Nat), (s.hbmBad (n * 2 ^ 36 + l * 256) 256 = false → exec (.verifyReadLands n l true) s = .next s) ∧
    exec (.verifyReadLands n l false) s = .next ((((s.draw 3).2.countCheck (n / 2) 0 (n * 2 ^ 36 + l * 256) 0).captureErr (n / 2) 0 0
      (n * 2 ^ 36 + l * 256) 3 (s.draw 3).1).askRemap n l))

/-- R495–R498, R504–R508: a remapped line takes the next spare, which is counted, and the seventeenth is reported, a line that fails its check being
recovered first; patrol reads line after line, has a failing one recovered, and counts its sweeps; due recalibration is shown and reported; an
activity that a host may ask for runs when nothing refuses it, with its remap or link reset at once, and one that is refused is named with what it
met; a host that may not ask changes nothing; the end of recalibration frees the stack. -/
def Obligations.MaintenanceRuns : Prop :=
  (∀ (s : State) (n l : Nat), s.hbmBad (n * 2 ^ 36 + l * 256) 256 = true → s.recoveries = [] →
    ∃ (t : State) (r : Recovery), exec (.remapUpdate n l) s = .next t ∧ t.recoveries = [r] ∧ r.remap = true ∧ r.space = 0 ∧ r.addr = n * 2 ^ 36 + l * 256 ∧
      r.len = 256 ∧ t.remapOf n l = s.remapOf n l ∧ SameMem s t) ∧
  (∀ (s : State) (n l : Nat), n < 8 → s.remapOf n l = none → s.hbmBad (n * 2 ^ 36 + l * 256) 256 = false → s.evq.length < 1024 →
    (s.fld (rMemStatus n) 4 0 < 16 →
      ∃ (t : State) (e : EventRec), exec (.remapUpdate n l) s = .next t ∧ t.reg (rMemRemap n (s.fld (rMemStatus n) 4 0)) = BitVec.ofNat 64 (2 ^ 63 + l % 2 ^ 28) ∧
        t.fld (rMemStatus n) 4 0 = s.fld (rMemStatus n) 4 0 + 1 ∧ t.evq = s.evq ++ [e] ∧ e.code = 0x0102 ∧ SameMem s t ∧
        SameRegsBut ([rMemRemap n (s.fld (rMemStatus n) 4 0), rMemStatus n] ++ (maintRegs ++ eventRegs)) s t) ∧
    (16 ≤ s.fld (rMemStatus n) 4 0 →
      ∃ (t : State) (e : EventRec), exec (.remapUpdate n l) s = .next t ∧ t.evq = s.evq ++ [e] ∧ e.code = 0x0103 ∧ SameMem s t ∧
        SameRegsBut (maintRegs ++ eventRegs) s t)) ∧
  (∀ (s : State) (n : Nat), n < 8 → s.patrolling n = true → s.hbmBad (n * 2 ^ 36 + 256 * s.fld (rMemPatrol n) 27 0) 256 = false →
    (s.fld (rMemPatrol n) 27 0 + 1 < patrolLines →
      ∃ t : State, exec (.patrolLineRead n false) s = .next t ∧ t.fld (rMemPatrol n) 27 0 = (s.fld (rMemPatrol n) 27 0 + 1) % 2 ^ 28 ∧
        t.agenda = s.agenda ∧ SameMem s t ∧ SameRegsBut [rMemPatrol n] s t) ∧
    (patrolLines ≤ s.fld (rMemPatrol n) 27 0 + 1 →
      ∃ t : State, exec (.patrolLineRead n false) s = .next t ∧ t.fld (rMemPatrol n) 27 0 = 0 ∧
        t.fld (rMemPatrolSweeps n) 47 0 = min (s.fld (rMemPatrolSweeps n) 47 0 + 1) (2 ^ 48 - 1) ∧
        t.agenda = s.agenda ++ [({ dom := none, at_ := s.clk.wall + s.fld (rMemPatrol n) 47 32 * 700000000,
                                   act := .cmd (.patrolSweepStart n) } : Due)] ∧ SameMem s t ∧
        SameRegsBut [rMemPatrol n, rMemPatrolSweeps n] s t)) ∧
  (∀ (s : State) (n : Nat), n < 8 → s.patrolling n = true → s.fld (rMemPatrol n) 27 0 + 1 < patrolLines → s.recoveries = [] →
    ∃ (t : State) (r : Recovery), exec (.patrolLineRead n true) s = .next t ∧ t.fld (rMemPatrol n) 27 0 = (s.fld (rMemPatrol n) 27 0 + 1) % 2 ^ 28 ∧
      t.recoveries = [r] ∧ r.patrol = true ∧ r.addr = n * 2 ^ 36 + 256 * s.fld (rMemPatrol n) 27 0 ∧ r.len = 256 ∧ SameMem s t) ∧
  (∀ (s : State) (n : Nat) (b : Bool), s.patrolling n = false → exec (.patrolLineRead n b) s = .next s) ∧
  (∀ (s : State) (n : Nat), s.maint.any (fun m => m.act == 1 && m.scope == n) = true →
    ∃ t : State, exec (.patrolSweepStart n) s = .next t ∧ t.fld (rMemPatrol n) 27 0 = 0 ∧ SameMem s t ∧ SameRegsBut [rMemPatrol n] s t) ∧
  (∀ (s : State) (n : Nat), n < 8 → s.evq.length < 1024 →
    ∃ (t : State) (e : EventRec), exec (.memRecalDue n) s = .next t ∧ t.fld (rMemStatus n) 62 62 = 1 ∧ t.evq = s.evq ++ [e] ∧ e.code = 0x0106 ∧ SameMem s t ∧
      SameRegsBut (rMemStatus n :: eventRegs) s t) ∧
  (∀ (s : State) (h act n l : Nat),
    (s.maintAllowed h act n = false → exec (.maintenanceRequest h act n l) s = .next s) ∧
    (∀ k, s.maintAllowed h 3 n = true → s.stackPart n = some k → s.conf k = true →
      exec (.maintenanceRequest h 3 n l) s = .next (s.maintRefuse 3 n 0)) ∧
    (∀ c, s.maintAllowed h act n = true → act ≠ 3 → s.maintConflict act n = some c →
      exec (.maintenanceRequest h act n l) s = .next (s.maintRefuse act n c)) ∧
    (∀ k, s.maintAllowed h act n = true → s.maintPart act n = some k → (act ≠ 3 ∨ s.conf k = false) → s.maintConflict act n = none →
      ∃ t : State, exec (.maintenanceRequest h act n l) s = .next t ∧ { act := act, scope := n } ∈ t.maint ∧
        t.agenda = s.agenda ++ (if act = 2 then [({ dom := none, at_ := s.clk.wall, act := .cmd (.remapUpdate n l) } : Due)]
          else if act = 5 then [({ dom := none, at_ := s.clk.wall, act := .cmd (.linkReset n) } : Due)] else []) ∧ SameMem s t ∧
        SameRegsBut maintRegs s t)) ∧
  (∀ (s : State) (n : Nat), ∃ t : State, exec (.recalibrationDone n) s = .next t ∧ (∀ m ∈ t.maint, ¬(m.act = 4 ∧ m.scope = n)) ∧ SameMem s t ∧
    SameRegsBut maintRegs s t)

/-- R533–R537: the next granule of a stack is locked no sooner than 23,894 cycles after the last; a migrated granule's bit flips to the current key, its
lock is released, the count of those left falls, the reads of the stack, which waited for it, are marked, and the next lock comes. Memory reads as
before, since both keys are transparent. A stack without a sweep, or without a locked granule, sees nothing. R542–R545: the steps of Clearing follow
each other; step 3 leaves zeros in the partition's core stores and in the usable space of its stacks; step 5 remaps the lines that still fail, and
quarantines the partition where a line cannot be; the end makes the partition unloaded and reports CLEAR_DONE; the PSTAT pins alternate every 350,000
cycles while it runs. -/
def Obligations.SweepsAndClearing : Prop :=
  ((∀ (s : State) (n k : Nat), s.stackPart n = some k → s.fld (rZenXts k) 63 63 = 1 → s.sweepNext k n < granulesPerStack →
    SMap.get (s.part k).locked n = none →
    (SMap.get (s.part k).lockAt n = 0 ∨ SMap.get (s.part k).lockAt n + 23894 ≤ s.clk.wall + 1 →
      ∃ t : State, exec (.rekeyGranuleLock n) s = .next t ∧ SMap.get (t.part k).locked n = some (s.sweepNext k n) ∧
        SMap.get (t.part k).lockAt n = s.clk.wall + 1 ∧ t.agenda = s.agenda ∧ SameMem s t ∧ SameRegsBut [] s t) ∧
    (SMap.get (s.part k).lockAt n ≠ 0 → s.clk.wall + 1 < SMap.get (s.part k).lockAt n + 23894 →
      ∃ t : State, exec (.rekeyGranuleLock n) s = .next t ∧ t.part k = s.part k ∧
        t.agenda = s.agenda ++ [({ dom := none, at_ := s.clk.wall + (SMap.get (s.part k).lockAt n + 23894 - (s.clk.wall + 1)),
                                   act := .cmd (.rekeyGranuleLock n) } : Due)] ∧ SameMem s t ∧ SameRegsBut [] s t)) ∧
  (∀ (s : State) (n k g : Nat), k < 4 → s.stackPart n = some k → SMap.get (s.part k).locked n = some g → 1 < s.fld (rZenXts k) 17 0 →
    ∃ t : State, exec (.granuleMigrated n) s = .next t ∧ SMap.get (t.part k).locked n = none ∧
      SMap.get (t.part k).granules (n * 32768 + g) = (s.fld (rZenXts k) 62 62 == 1) ∧ t.sweepNext k n = g + 1 ∧
      t.reads = s.reads.map (fun r => if (r.kind = 6 ∨ (sdesc r.desc).src = 0) ∧ r.range.1 / 2 ^ 36 = n then { r with rekey := true } else r) ∧
       t.fld (rZenXts k) 17 0 = s.fld (rZenXts k) 17 0 - 1 ∧
      t.agenda = s.agenda ++ [({ dom := none, at_ := s.clk.wall, act := .cmd (.rekeyGranuleLock n) } : Due)] ∧ SameMem s t ∧
      SameRegsBut [rZenXts k] s t) ∧
  (∀ (s : State) (n k : Nat), s.stackPart n = some k →
    (s.fld (rZenXts k) 63 63 = 0 ∨ granulesPerStack ≤ s.sweepNext k n ∨ (SMap.get (s.part k).locked n).isSome = true →
      exec (.rekeyGranuleLock n) s = .next s) ∧
    (SMap.get (s.part k).locked n = none → exec (.granuleMigrated n) s = .next s)) ∧
  (∀ (s : State) (n : Nat), s.stackPart n = none → exec (.rekeyGranuleLock n) s = .next s ∧ exec (.granuleMigrated n) s = .next s)) ∧
  ((∀ (s : State) (k : Nat) (b : List Nat), k < 4 → s.pstate k = 3 →
    ((s.part k).clearStep = 1 → ∃ t : State, exec (.clearingStep k b) s = .next t ∧ (t.part k).clearStep = 2 ∧ SameMem s t ∧ SameRegsBut [] s t) ∧
    ((s.part k).clearStep = 2 → ∃ t : State, exec (.clearingStep k b) s = .next t ∧ (t.part k).clearStep = 3 ∧ (t.part k).signers = [] ∧
      (t.part k).resultKey = none ∧ t.reg (rZenXts k) = 0#64 ∧ t.store = s.store ∧ t.lstore = s.lstore) ∧
    ((s.part k).clearStep = 3 → ∃ t : State, exec (.clearingStep k b) s = .next t ∧ (t.part k).clearStep = 4 ∧
      (∀ j ∈ s.partCores k, ∀ a, a < 2 ^ 25 → memGet t.store (storeKey j a) = 0) ∧
      (∀ j ∈ s.partCores k, ∀ a, a < 0xFB8000000 → memGet t.hbm (2 * j * 2 ^ 36 + a) = 0 ∧ memGet t.hbm ((2 * j + 1) * 2 ^ 36 + a) = 0) ∧
      (∀ a, a / 2 ^ 37 ∉ s.partCores k → memGet t.hbm a = memGet s.hbm a) ∧ SameRegsBut [] s t) ∧
    ((s.part k).clearStep = 4 → ∃ t : State, exec (.clearingStep k b) s = .next t ∧ (t.part k).clearStep = 5 ∧ t.pstate k = 3 ∧ SameMem s t) ∧
    ((s.part k).clearStep = 5 → b = [] →
      ∃ t : State, exec (.clearingStep k b) s = .next t ∧ (t.part k).clearStep = 6 ∧ SameMem s t ∧ SameRegsBut [] s t) ∧
    (∀ l, (s.part k).clearStep = 5 → b = [l] → l / 2 ^ 28 < 8 → s.remapOf (l / 2 ^ 28) (l % 2 ^ 28) = none →
      (s.fld (rMemStatus (l / 2 ^ 28)) 4 0 < 16 →
        ∃ t : State, exec (.clearingStep k b) s = .next t ∧ (t.part k).clearStep = 6 ∧ (t.remapOf (l / 2 ^ 28) (l % 2 ^ 28)).isSome = true ∧
          t.fld (rMemCrcFail (l / 2 ^ 28)) 47 0 = min (s.fld (rMemCrcFail (l / 2 ^ 28)) 47 0 + 1) (2 ^ 48 - 1) ∧ SameMem s t ∧
          SameRegsBut [rMemCrcFail (l / 2 ^ 28), rMemRemap (l / 2 ^ 28) (s.fld (rMemStatus (l / 2 ^ 28)) 4 0),
            rMemStatus (l / 2 ^ 28)] s t) ∧
      (16 ≤ s.fld (rMemStatus (l / 2 ^ 28)) 4 0 → s.evq.length < 1024 → (s.part k).tickets = [] →
        ∃ (t : State) (e : EventRec), exec (.clearingStep k b) s = .next t ∧ t.pstate k = 4 ∧ (t.part k).clearStep = 0 ∧ t.evq = s.evq ++ [e] ∧
          e.code = 0x0504 ∧ SameMem s t ∧
          SameRegsBut (rMemCrcFail (l / 2 ^ 28) :: rZenPart k :: (maintRegs ++ eventRegs)) s t))) ∧
  (∀ (s : State) (k : Nat) (b : List Nat), (s.pstate k ≠ 3 ∨ (s.part k).clearStep = 0 ∨ 6 ≤ (s.part k).clearStep →
      exec (.clearingStep k b) s = .next s) ∧
    (s.pstate k ≠ 3 ∨ (s.part k).clearStep ≠ 6 → exec (.clearDone k) s = .next s) ∧
    (s.pstate k ≠ 3 → exec (.pstatToggle k) s = .next s)) ∧
  (∀ (s : State) (k : Nat), k < 4 → s.pstate k = 3 → (s.part k).clearStep = 6 → (s.part k).tickets = [] → s.evq.length < 1024 →
    ∃ (t : State) (e : EventRec), exec (.clearDone k) s = .next t ∧ t.pstate k = 0 ∧ (t.part k).clearStep = 0 ∧ t.evq = s.evq ++ [e] ∧ e.code = 0x0503 ∧
      SameMem s t ∧ SameRegsBut (rZenPart k :: (maintRegs ++ eventRegs)) s t) ∧
  (∀ (s : State) (k : Nat), s.pstate k = 3 →
    ∃ t : State, exec (.pstatToggle k) s = .next t ∧ (t.part k).pstatFlip = !(s.part k).pstatFlip ∧
      t.agenda = s.agenda ++ [({ dom := none, at_ := s.clk.wall + 350000, act := .cmd (.pstatToggle k) } : Due)] ∧ SameMem s t ∧
      SameRegsBut [] s t))

/-- R537: when the last granule of a sweep has been migrated, the key of the old slot is zeroised, ZEN_XTS.ROTATING is clear and REKEY_DONE is raised. -/
def Obligations.RekeyEnds : Prop :=
  ∀ (s : State) (n k g : Nat), k < 4 → s.stackPart n = some k → SMap.get (s.part k).locked n = some g → s.fld (rZenXts k) 17 0 = 1 →
    s.evq.length < 1024 →
    ∃ (t : State) (e : EventRec), exec (.granuleMigrated n) s = .next t ∧ SMap.get (t.part k).keys (1 - s.fld (rZenXts k) 62 62) = none ∧
      SMap.get (t.part k).keys (s.fld (rZenXts k) 62 62) = SMap.get (s.part k).keys (s.fld (rZenXts k) 62 62) ∧
      t.fld (rZenXts k) 63 63 = 0 ∧ t.fld (rZenXts k) 17 0 = 0 ∧ t.evq = s.evq ++ [e] ∧ e.code = 0x0502 ∧ SameMem s t ∧
      SameRegsBut (rZenXts k :: rZenApproved :: (maintRegs ++ eventRegs)) s t

/-- R401, R403, R620–R624: Zenith takes the oldest EVENT of a partition: its 32-byte entry is logged, numbered, and written into the event ring of the
partition's host port while that has room; else it is kept, as one of at most 256. An event of the die is logged as the die's where no ring is
enabled. With no EVENT, or while Zenith boots, nothing is taken. A Cirrus message of an unknown type is counted, and one of a known type does nothing
here; nothing else happens. R628–R630: a stopped partition's dump is captured and then committed to its slot with the next number, or left invalid
with DUMP_FAIL; a partition reset that waited for the capture then runs. Memory and registers stay as the stop left them. -/
def Obligations.EventsAndDumps : Prop :=
  ((∀ (s : State) (e : EventRec) (r : List EventRec) (h : Nat), s.evq = e :: r → s.zen.booting = false → s.evLost = 0 →
    s.eventShut e = false → e.part < 4 → s.owner e.part = h → s.fld (rDbgEvqCtrl + localStride * h) 63 63 = 1 →
    ((s.host h).evPending = [] → s.evqFull h = false →
      ∃ t : State, exec .eventTake s = .next t ∧ t.evq = r ∧ t.zen.eventSeq = (s.zen.eventSeq + 1) % 2 ^ 32 ∧
        t.outbox = s.outbox ++ [Output.hostWrite h ((s.reg (rDbgEvqBase + localStride * h)).toNat +
          32 * (s.fld (rDbgEvqStatus + localStride * h) 63 32 % 2 ^ s.fld (rDbgEvqCtrl + localStride * h) 4 0)) (s.eventEntry e)] ∧
        (s.eventEntry e).length = 32 ∧ (SMap.get t.logs e.part).getLast? = some (s.eventEntry e) ∧
        t.fld (rDbgEvqStatus + localStride * h) 63 32 = (s.fld (rDbgEvqStatus + localStride * h) 63 32 + 1) % 2 ^ 32 ∧ SameMem s t ∧
        SameRegsBut [rDbgEvqStatus + localStride * h] s t) ∧
    (((s.host h).evPending ≠ [] ∨ s.evqFull h = true) → (s.host h).evPending.length < 256 →
      ∃ t : State, exec .eventTake s = .next t ∧ t.evq = r ∧ t.zen.eventSeq = (s.zen.eventSeq + 1) % 2 ^ 32 ∧ t.outbox = s.outbox ∧
        (t.host h).evPending = (s.host h).evPending ++ [s.eventEntry e] ∧ (SMap.get t.logs e.part).getLast? = some (s.eventEntry e) ∧
        t.fld (rDbgEvqStatus + localStride * h) 31 23 = (s.host h).evPending.length + 1 ∧ SameMem s t ∧
        SameRegsBut [rDbgEvqStatus + localStride * h] s t)) ∧
  (∀ (s : State) (e : EventRec) (r : List EventRec), s.evq = e :: r → s.zen.booting = false → s.evLost = 0 → 4 ≤ e.part →
    s.fld rDbgEvqCtrl 63 63 = 0 → s.fld (rDbgEvqCtrl + localStride) 63 63 = 0 →
    ∃ t : State, exec .eventTake s = .next t ∧ t.evq = r ∧ t.zen.eventSeq = (s.zen.eventSeq + 1) % 2 ^ 32 ∧ t.outbox = s.outbox ∧
      (SMap.get t.logs 4).getLast? = some (s.eventEntry e) ∧ SameMem s t ∧ SameRegsBut [] s t) ∧
  (∀ s : State, (s.evq = [] ∨ s.zen.booting = true) → exec .eventTake s = .next s) ∧
  (∀ (s : State) (m : Nat),
    (bitsAt m 58 6 ∈ [0x01, 0x02, 0x03, 0x08, 0x09, 0x0A, 0x10] → exec (.cirBad m) s = .next s) ∧
    (bitsAt m 58 6 ∉ [0x01, 0x02, 0x03, 0x08, 0x09, 0x0A, 0x10] →
      ∃ t : State, exec (.cirBad m) s = .next t ∧ t.fld rCirBad 47 0 = min (s.fld rCirBad 47 0 + 1) (2 ^ 48 - 1) ∧ t.agenda = s.agenda ∧
        SameMem s t ∧ SameRegsBut [rCirBad] s t))) ∧
  ((∀ (s : State) (k : Nat), (s.part k).dumpState = 1 → (s.part k).resetWait = false → (s.part k).waitAns = [] →
    ∃ t : State, exec (.dumpCaptureDone k) s = .next t ∧ (t.part k).dumpState = 2 ∧ (t.part k).dumpHdr = (s.dumpRecord k).1 ∧
      (t.part k).dumpBody = (s.dumpRecord k).2 ∧ t.agenda = s.agenda ∧ SameMem s t ∧ SameRegsBut [] s t) ∧
  (∀ (s : State) (k : Nat), (s.part k).dumpState = 1 → (s.part k).resetWait = true → (s.part k).waitAns = [] →
    exec (.dumpCaptureDone k) s = .next ((s.modPart k fun p => { p with
      dumpState := 2, dumpHdr := (s.dumpRecord k).1, dumpBody := (s.dumpRecord k).2, resetWait := false }).resetPart k)) ∧
  (∀ (s : State) (k : Nat) (b : Bool), ((s.part k).dumpState ≠ 1 → exec (.dumpCaptureDone k) s = .next s) ∧
    ((s.part k).dumpState ≠ 2 → exec (.dumpWritten k b) s = .next s)) ∧
  (∀ (s : State) (k n : Nat) (b : Bool), k < 4 → (s.part k).dumpState = 2 → (s.conf k = false ∨ s.pstate k ≠ 5) → (s.dumpSlot k).1 = n →
    s.evq.length < 1024 →
    ∃ (t : State) (e : EventRec), exec (.dumpWritten k b) s = .next t ∧ (t.part k).dumpState = 0 ∧ (SMap.get t.dumps n).valid = b ∧
      (b = true → (SMap.get t.dumps n).seq = s.zen.dumpSeq + 1) ∧ t.zen.dumpSeq = s.zen.dumpSeq + 1 ∧ t.evq = s.evq ++ [e] ∧
      e.code = (if b then 0x0509 else 0x050A) ∧ SameMem s t ∧ SameRegsBut eventRegs s t))

/-- R40, R371–R374, R522, R524, R607: the end of a load whose image passes every check writes the image, marks the partition loaded, keeps what Zenith
measures of the image and ends the ticket with 2 (COMPLETED_OK); one that fails a check, or asks for a barrier unit that another partition holds,
leaves the partition's memory and state as they were, none of its cores loading, and answers the code and the offset of what failed. With no load
under way nothing happens. -/
def Obligations.LoadsComplete : Prop :=
  (∀ (s : State) (k i n : Nat) (b : Bool) (l : Loaded) (img : List Nat) (f : Fail), k < 4 → (s.part k).loading = some (l, i, n) →
    checkImage (s.loadEnv k l.bases l.ptable) l.len (s.hbmRead l.addr l.len) (s.signatureFail k (s.hbmRead l.addr l.len) b) = (img, f) →
    (∀ c o, f.or (s.unitsFree k (records (s.hbmRead l.addr l.len))) = some (c, o) →
      ∃ t : State, exec (.loadComplete k b) s = .next t ∧ (t.part k).loading = none ∧ (t.part k).image = (s.part k).image ∧
      t.pstate k = s.pstate k ∧ (∀ j ∈ s.partCores k, t.fld (rSeqCtxStatus j) 1 0 = 0) ∧
      (∀ x ∈ s.zen.tickets, x.1 = i ∧ x.2.1 = n → (SMap.get t.zen.done i).length = (SMap.get s.zen.done i).length + 1 ∧
        (SMap.get t.zen.done i).getLast?.map (fun y => (y.1, y.2.1, y.2.2.2)) = some (o, n, c)) ∧ SameMem s t) ∧
    (f = none → s.unitsFree k (records (s.hbmRead l.addr l.len)) = none →
      ∃ t : State, exec (.loadComplete k b) s = .next t ∧ (t.part k).loading = none ∧
        (t.part k).image = some (measured l (s.hbmRead l.addr l.len) img (s.loadEnv k l.bases l.ptable).params) ∧ t.pstate k = 1 ∧
        t.hbm = (s.applyImage k l.bases img).hbm ∧ t.store = (s.applyImage k l.bases img).store ∧
        (∀ x ∈ s.zen.tickets, x.1 = i ∧ x.2.1 = n → (SMap.get t.zen.done i).length = (SMap.get s.zen.done i).length + 1 ∧
          (SMap.get t.zen.done i).getLast?.map (fun y => (y.1, y.2.1, y.2.2.2)) = some (0, n, 2)) ∧
        t.mbuf = s.mbuf ∧ t.lstore = s.lstore)) ∧
  (∀ (s : State) (k : Nat) (b : Bool), (s.part k).loading = none → exec (.loadComplete k b) s = .next s)

/-- R548–R554: a first fall below 42 V of a module that is not held in reset starts Squall, with the count and the report, a ratio of at least 4/8 where
the state swallows cycles and the cap where it carries traffic; a further fall takes a release back. A rise above 43.5 V starts the release, each of
whose steps takes one eighth off 16 beats after the last, the last of them ending Squall; with nothing to release it ends at once. A thermal step adds
one eighth at 95 °C, up to 6/8, and takes one off below 93 °C; the first and the last are reported. Low and high supplies are reported at most once a
second. No memory changes. -/
def Obligations.SupplyActs : Prop :=
  (∀ (s : State) (v : Nat), v < 42000 → s.pwr.held = false → s.inSquall = false → s.evq.length < 1024 →
    ∃ (t : State) (e : EventRec), exec (.squall v) s = .next t ∧ (s.swallows = true → t.clk.supply = 4 ∧ t.clk.ratio = max 4 s.clk.thermal) ∧
      t.clk.cap = (s.swallows || s.pwrState == 1) ∧ t.clk.releasing = false ∧ t.clk.squallMin = v ∧ t.pwr.mv = v ∧
      t.inSquall = true ∧ t.fld rPwrSquallCount 47 0 = min (s.fld rPwrSquallCount 47 0 + 1) (2 ^ 48 - 1) ∧ t.evq = s.evq ++ [e] ∧
      e.code = 0x0403 ∧ e.ext = v ∧ t.agenda = s.agenda ∧ SameMem s t ∧
      SameRegsBut ([rPwrStatus, rPwrSupplyMin, rPwrSquallCount] ++ eventRegs) s t) ∧
  (∀ (s : State) (v : Nat), v < 42000 → s.pwr.held = false → s.inSquall = true →
    ∃ t : State, exec (.squall v) s = .next t ∧ (s.swallows = true → t.clk.supply = 4) ∧ t.clk.releasing = false ∧
      t.clk.squallMin = min s.clk.squallMin v ∧ t.evq = s.evq ∧ t.agenda = s.agenda ∧ SameMem s t ∧
      SameRegsBut [rPwrStatus, rPwrSupplyMin] s t) ∧
  (∀ (s : State) (v : Nat), 42000 ≤ v ∨ s.pwr.held = true → exec (.squall v) s = .next (s.supplySeen v)) ∧
  (∀ (s : State) (v : Nat), 43500 < v → s.inSquall = true → s.clk.releasing = false →
    (s.clk.supply ≠ 0 →
      ∃ t : State, exec (.squallEnd v) s = .next t ∧ t.clk.releasing = true ∧ t.clk.nextSupply = s.beat + 17 ∧ t.clk.supply = s.clk.supply ∧
        t.agenda = s.agenda ∧ SameMem s t ∧ SameRegsBut [rPwrSupplyMin] s t) ∧
    (s.clk.supply = 0 → s.evq.length < 1024 →
      ∃ (t : State) (e : EventRec), exec (.squallEnd v) s = .next t ∧ t.inSquall = false ∧ t.clk.cap = false ∧ t.evq = s.evq ++ [e] ∧ e.code = 0x0404 ∧
        e.ext = min s.clk.squallMin v ∧ SameMem s t ∧ SameRegsBut ([rPwrStatus, rPwrSupplyMin] ++ eventRegs) s t)) ∧
  (∀ (s : State) (v : Nat), v ≤ 43500 ∨ s.clk.releasing = true → exec (.squallEnd v) s = .next (s.supplySeen v)) ∧
  (∀ (s : State) (n : Nat), s.clk.releasing = true → s.clk.nextSupply ≤ s.beat →
    (s.clk.supply = n + 2 → ∃ t : State, exec (.swallowRatioStep false) s = .next t ∧ t.clk.supply = n + 1 ∧
      t.clk.ratio = max (n + 1) s.clk.thermal ∧ t.clk.nextSupply = s.beat + 16 ∧ t.agenda = s.agenda ∧ SameMem s t ∧
      SameRegsBut [rPwrStatus] s t) ∧
    (s.clk.supply = 1 → s.evq.length < 1024 → ∃ (t : State) (e : EventRec), exec (.swallowRatioStep false) s = .next t ∧ t.clk.supply = 0 ∧
      t.clk.ratio = s.clk.thermal ∧ t.clk.releasing = false ∧ t.clk.cap = false ∧ t.inSquall = false ∧ t.evq = s.evq ++ [e] ∧
      e.code = 0x0404 ∧ e.ext = s.clk.squallMin ∧ SameMem s t ∧ SameRegsBut (rPwrStatus :: eventRegs) s t)) ∧
  (∀ s : State, s.clk.releasing = false ∨ s.beat < s.clk.nextSupply → exec (.swallowRatioStep false) s = .next s) ∧
  (∀ (s : State) (n : Nat), s.clk.nextThermal ≤ s.beat → s.clk.thermal = n →
    (950 ≤ s.pwr.tj → 0 < n → n < 6 → ∃ t : State, exec (.swallowRatioStep true) s = .next t ∧ t.clk.thermal = n + 1 ∧
      t.clk.ratio = max s.clk.supply (n + 1) ∧ t.clk.nextThermal = s.beat + 16 ∧ t.evq = s.evq ∧ SameMem s t ∧
      SameRegsBut [rPwrStatus] s t) ∧
    (950 ≤ s.pwr.tj → n = 0 → s.evq.length < 1024 → ∃ (t : State) (e : EventRec), exec (.swallowRatioStep true) s = .next t ∧ t.clk.thermal = 1 ∧
      t.clk.ratio = max s.clk.supply 1 ∧ t.clk.nextThermal = s.beat + 16 ∧ t.evq = s.evq ++ [e] ∧ e.code = 0x0407 ∧ e.ext = s.pwr.tj ∧
      SameMem s t ∧ SameRegsBut (rPwrStatus :: eventRegs) s t) ∧
    (s.pwr.tj < 930 → 1 < n → ∃ t : State, exec (.swallowRatioStep true) s = .next t ∧ t.clk.thermal = n - 1 ∧
      t.clk.ratio = max s.clk.supply (n - 1) ∧ t.evq = s.evq ∧ SameMem s t ∧ SameRegsBut [rPwrStatus] s t) ∧
    (s.pwr.tj < 930 → n = 1 → s.evq.length < 1024 → ∃ (t : State) (e : EventRec), exec (.swallowRatioStep true) s = .next t ∧ t.clk.thermal = 0 ∧
      t.clk.ratio = s.clk.supply ∧ t.evq = s.evq ++ [e] ∧ e.code = 0x0408 ∧ SameMem s t ∧ SameRegsBut (rPwrStatus :: eventRegs) s t)) ∧
  (∀ (s : State) (v : Nat), 42000 ≤ v → v < 44000 → s.onceASecond s.clk.lastLow = true → s.evq.length < 1024 →
    ∃ (t : State) (e : EventRec), exec (.supplyLow v) s = .next t ∧ t.clk.lastLow = some s.clk.wall ∧ t.evq = s.evq ++ [e] ∧ e.code = 0x0401 ∧ e.ext = v ∧
      t.agenda = s.agenda ∧ SameMem s t ∧ SameRegsBut (rPwrSupplyMin :: eventRegs) s t) ∧
  (∀ (s : State) (v : Nat), 58000 < v → v ≤ 60000 → s.onceASecond s.clk.lastHigh = true → s.evq.length < 1024 →
    ∃ (t : State) (e : EventRec), exec (.supplyHigh v) s = .next t ∧ t.clk.lastHigh = some s.clk.wall ∧ t.evq = s.evq ++ [e] ∧ e.code = 0x0402 ∧ e.ext = v ∧
      t.agenda = s.agenda ∧ SameMem s t ∧ SameRegsBut (rPwrSupplyMin :: eventRegs) s t) ∧
  (∀ (s : State) (v : Nat),
    (s.onceASecond s.clk.lastLow = false ∨ v < 42000 ∨ 44000 ≤ v → exec (.supplyLow v) s = .next (s.supplySeen v)) ∧
    (s.onceASecond s.clk.lastHigh = false ∨ v ≤ 58000 ∨ 60000 < v → exec (.supplyHigh v) s = .next (s.supplySeen v)))

/-- R555, R556, R560, R566, R567, R648: brownout, overvoltage and a thermal trip hold the module in reset, with every register but the cause at its reset
value and all memory empty; a rise of PWRGD starts it again, after 10 ms low where the supply or a trip held it, and leaves it in reset while RESET_N
is low, until that rises; RESET_N of a running module is a warm reset, which keeps memory and the beat, and before PWRGD rises it changes the pin's
level (log entry 84). The commands that wait stay in the queue. -/
def Obligations.ModuleResets : Prop :=
  (∀ (s : State) (v : Nat), ∀ x ∈ [((.brownout v : Instr), 2), (.overvoltage v, 3), (.thermtrip v, 4)],
    ∃ t : State, exec x.1 s = .next t ∧ t.pwr.held = true ∧ t.fld rPwrResetCause 63 56 = x.2 ∧ (∀ r, r ≠ rPwrResetCause → t.reg r = resetWord r) ∧
      t.hbm = [] ∧ t.store = [] ∧ t.lstore = [] ∧ t.mbuf = [] ∧ t.agenda = [] ∧ t.pending = s.pending) ∧
  (∀ s : State, ∃ t : State, exec (.pwrgd false) s = .next t ∧ t.pwr.pwrgdLow = true ∧ t.pwr.pwrgdAt = s.clk.wall ∧ t.agenda = s.agenda ∧
    SameMem s t ∧ SameRegsBut [] s t) ∧
  (∀ s : State, s.pwr.held = false →
    ∃ t : State, exec (.pwrgd true) s = .next t ∧ t.pwr.held = s.pwr.resetLow ∧ t.pwr.awaitRise = s.pwr.resetLow ∧
      t.fld rPwrResetCause 63 56 = (if s.pwr.awaitRise then s.fld rPwrResetCause 63 56 else 1) ∧ t.hbm = [] ∧ t.store = [] ∧
      t.lstore = [] ∧ (∀ r, r ≠ rPwrResetCause → t.reg r = resetWord r) ∧ t.pending = s.pending) ∧
  (∀ s : State, s.pwr.held = true → s.pwr.awaitRise = false → s.pwr.pwrgdLow = true → s.pwr.pwrgdAt + 7000000 ≤ s.clk.wall →
    ∃ t : State, exec (.pwrgd true) s = .next t ∧ t.pwr.held = s.pwr.resetLow ∧ t.pwr.awaitRise = s.pwr.resetLow ∧
      t.fld rPwrResetCause 63 56 = s.fld rPwrResetCause 63 56 ∧ t.hbm = [] ∧ t.store = [] ∧ t.lstore = [] ∧
      (∀ r, r ≠ rPwrResetCause → t.reg r = resetWord r) ∧ t.pending = s.pending) ∧
  (∀ s : State, s.pwr.held = true → s.pwr.awaitRise = false → (s.pwr.pwrgdLow = false ∨ s.clk.wall < s.pwr.pwrgdAt + 7000000) →
    exec (.pwrgd true) s = .next s) ∧
  (∀ s : State, s.RegsOk → s.pwr.held = false → s.pwr.awaitRise = false → s.pwr.pwrgdLow = false →
    ∃ t : State, exec .resetN s = .next t ∧ t.fld rPwrResetCause 63 56 = 5 ∧ t.hbm = s.hbm ∧ t.store = s.store ∧
      t.lstore = s.lstore ∧ t.reg rClkBeat = s.reg rClkBeat ∧ (∀ k, k < 4 → t.pstate k = 0 ∧ t.partCores k = s.partCores k) ∧
      t.pending = s.pending) ∧
  (∀ s : State, (s.pwr.held = true ∨ s.pwr.pwrgdLow = true) → s.pwr.awaitRise = false →
    ∃ t : State, exec .resetN s = .next t ∧ t.pwr.resetLow = (!s.pwr.resetLow) ∧ t.pwr.held = s.pwr.held ∧ t.agenda = s.agenda ∧ SameMem s t ∧
      SameRegsBut [] s t) ∧
  (∀ s : State, s.pwr.awaitRise = true → ∃ t : State, exec .resetN s = .next t ∧ t.pwr.held = false ∧ t.pwr.awaitRise = false ∧
    t.pwr.resetLow = false ∧ t.agenda = s.agenda ∧ SameMem s t ∧ SameRegsBut [] s t)

/-- R527, R556, R584, R586, R612: a function-level reset or PERST_N of a host port ends its role, its session and its stream and takes its agreed ABI
back, memory as before where no partition of the port asks to be reset with it; an IDE stream that leaves the Secure state is shown, and stops the
port's confidential partition; a trained link's width and rate are shown, and a degraded one reported; D3 holds what the port would send, and the
return to D0 sends it. -/
def Obligations.HostPortEvents : Prop :=
  (∀ (s : State) (h : Nat), s.RegsOk → h < 2 → (∀ k, k < 4 → s.partValid k = true → s.fld (rZenPart k) 60 60 = 0) →
    ∀ i ∈ [(.perstN h : Instr), .functionLevelReset h],
    ∃ t : State, exec i s = .next t ∧ t.fld rZenRole (2 * h + 1) (2 * h) = 0 ∧ t.fld rZenRole (8 + h) (8 + h) = 0 ∧ (t.host h).session = none ∧
      (t.host h).ideKeys = none ∧ t.fld (rGlbAbi + localStride * h) 7 0 = 0 ∧ (∀ x ∈ t.zen.tickets, x.1 ≠ h) ∧ t.hbm = s.hbm ∧
      t.store = s.store ∧ t.lstore = s.lstore) ∧
  (∀ (s : State) (h : Nat), h < 2 → s.fld rZenRole (8 + h) (8 + h) = 1 → (∀ k, k < 4 → s.conf k = true → s.owner k ≠ h) →
    ∃ t : State, exec (.ideInsecure h) s = .next t ∧ t.fld rZenRole (8 + h) (8 + h) = 0 ∧ (t.host h).ideKeys = none ∧ (t.host h).ideLeft = true ∧
      SameMem s t ∧ SameRegsBut [rZenRole] s t) ∧
  (∀ (s : State) (h k : Nat), h < 2 → s.fld rZenRole (8 + h) (8 + h) = 1 → k < 4 →
    (∀ j, j < 4 → ((s.conf j && s.owner j == h) = true ↔ j = k)) →
    exec (.ideInsecure h) s = .next (((s.setFld rZenRole (8 + h) (8 + h) 0).modHost h fun x =>
      { x with ideKeys := none, ideLeft := true }).fault k 0x12 none 0 h)) ∧
  (∀ (s : State) (h : Nat), s.fld rZenRole (8 + h) (8 + h) = 0 → exec (.ideInsecure h) s = .next s) ∧
  (∀ (s : State) (h w r : Nat), h < 2 → w < 16 → r < 16 → s.evq.length < 1024 →
    ∃ t : State, exec (.hostLinkTrained h w r) s = .next t ∧ t.fld (rHifLink + localStride * h) 7 4 = w ∧
      t.fld (rHifLink + localStride * h) 3 0 = r ∧ t.evq = s.evq ++ t.evq.drop s.evq.length ∧
      (t.evq.drop s.evq.length).map (·.code) = (if w < 8 ∨ r < 6 then [0x0506] else []) ∧ SameMem s t ∧
      SameRegsBut ((rHifLink + localStride * h) :: eventRegs) s t) ∧
  (∀ (s : State) (h : Nat), ∃ t : State, exec (.powerManagementState h true) s = .next t ∧ (t.host h).d3 = true ∧
    (t.host h).heldMsix = (s.host h).heldMsix ∧ t.outbox = s.outbox ∧ t.agenda = s.agenda ∧ SameMem s t ∧ SameRegsBut [] s t) ∧
  (∀ (s : State) (h : Nat), (∀ k, k < 4 → s.owner k = h → (s.part k).records = []) →
    exec (.powerManagementState h false) s =
      .next ((s.host h).heldMsix.foldl (fun s v => s.msix h v) (s.modHost h fun x => { x with d3 := false, heldMsix := [] })))

/-- R517, R519, R556, R560, R612: a secure reset by the watchdog or the error state leaves Zenith booting without its alias key and with no ABI agreed,
memory as before; a boot that passes makes the mailbox answer again; an error during the power-on self-test is Overcast. -/
def Obligations.ZenithResets : Prop :=
  (∀ s : State, ∃ t : State, exec .zenithWatchdog s = .next t ∧ t.zen.booting = true ∧ t.zen.booted = false ∧ t.zen.alias_ = none ∧
    t.fld rPwrResetCause 63 56 = 6 ∧ t.fld rPwrResetCause 55 48 = 1 ∧ t.fld rGlbAbi 7 0 = 0 ∧ t.fld (rGlbAbi + localStride) 7 0 = 0 ∧
    SameMem s t) ∧
  (∀ s : State, s.pwrState ≠ 4 → ∃ t : State, exec .zenithError s = .next t ∧ t.zen.error = true ∧ t.zen.booting = true ∧
    t.fld rPwrResetCause 55 48 = 2 ∧ t.fld rZenApproved 61 61 = 1 ∧ t.fld rZenApproved 63 63 = 0 ∧ SameMem s t) ∧
  (∀ s : State, s.pwrState = 4 → ∃ t : State, exec .zenithError s = .next t ∧ t.pwrState = 5 ∧ t.fld rPwrSelftest 55 48 = 1 ∧ t.hbm = [] ∧
    ∀ p, p < 6 → t.linkState p = 0) ∧
  (∀ s : State, s.zen.booting = true →
    (∃ t : State, exec (.zenithBootDone true) s = .next t ∧ t.zen.booting = false ∧ t.zen.booted = true ∧ t.zen.error = false ∧
      t.zen.alias_ ≠ none ∧ t.fld rZenBoot 63 63 = 1 ∧ SameMem s t) ∧
    ∃ t : State, exec (.zenithBootDone false) s = .next t ∧ t.zen.booting = true ∧
      t.agenda = s.agenda ++ [({ dom := none, at_ := s.clk.wall, act := .cmd .zenithError } : Due)] ∧ SameMem s t ∧ SameRegsBut [] s t) ∧
  (∀ (s : State) (b : Bool), s.zen.booting = false → exec (.zenithBootDone b) s = .next s)

/-- R35, R500, R561–R564, R569–R573: a self-test that finds nothing wrong starts the module with its layout of positions; one that finds something is
Overcast, which names the first test that failed; the memory fill leaves zeros everywhere; a change of power state that is due ends in its target;
Night loses what the arrays and cores hold, and the return from it zeroises the SRAM and starts over from phase 2. What comes at another time does
nothing. -/
def Obligations.StartTests : Prop :=
  (∀ (s : State) (r : SelfTestResult), s.pwrState = 4 → s.pwr.held = false →
    (SelfTestResult_fails r = 0 → (∀ e ∈ s.zen.remaps, e.1 < 8 ∧ e.2.length ≤ 16) →
      ∃ t : State, exec (.selfTest r) s = .next t ∧ t.pwrState = 6 ∧ t.startPh = 1 ∧ t.reg rHaloFuse = BitVec.ofNat 64 r.bypass ∧
        t.zen.booted = true ∧ t.fld rPwrSelftest 63 63 = 1 ∧ t.fld rPwrSelftest 62 62 = 0 ∧ SameMem s t) ∧
    (SelfTestResult_fails r ≠ 0 → SelfTestResult_fails r < 256 →
      ∃ t : State, exec (.selfTest r) s = .next t ∧ t.pwrState = 5 ∧ t.fld rPwrSelftest 62 62 = 1 ∧
        t.fld rPwrSelftest 55 48 = SelfTestResult_fails r ∧ t.hbm = [])) ∧
  (∀ s : State, s.pwrState = 6 → s.startPh = 1 → s.pwr.cold = true →
    ∃ t : State, exec .memoryFillDone s = .next t ∧ (∀ a, memGet t.hbm a = 0 ∧ memGet t.store a = 0 ∧ memGet t.lstore a = 0) ∧ t.startPh = 2 ∧
      (∀ n, n < 8 → t.fld (rMemStatus n) 63 63 = 1) ∧ t.badLine = [] ∧
      t.agenda = s.agenda ++ [({ dom := none, at_ := s.clk.wall, act := .cmd .startPhase } : Due)] ∧
      SameRegsBut (rPwrStatus :: (List.range 8).map rMemStatus) s t) ∧
  (∀ (s : State) (x w : Nat), s.pwr.changing = some (x, w) →
    (x = 1 ∨ x = 2 → ∃ t : State, exec .powerStateEntered s = .next t ∧ t.pwrState = x ∧ t.pwr.changing = none ∧ SameMem s t) ∧
    (x = 3 → ∃ t : State, exec .powerStateEntered s = .next t ∧ t.pwrState = 3 ∧ t.cores = [] ∧ t.arrays = [] ∧ (∀ p, p < 6 → t.linkState p = 0) ∧
      SameMem s t) ∧
    (x = 0 → s.pwrState ≠ 3 → s.inSquall = false →
      ∃ t : State, exec .powerStateEntered s = .next t ∧ t.pwrState = 0 ∧ t.pwr.pausedPatrol = false ∧ t.pwr.changing = none ∧ SameMem s t) ∧
    (x = 0 → s.pwrState = 3 → s.inSquall = false →
      ∃ t : State, exec .powerStateEntered s = .next t ∧ t.pwrState = 6 ∧ t.startPh = 2 ∧ t.fld rPwrStatus 56 56 = 0 ∧ t.pwr.phase5 = false ∧
        t.store = [] ∧ t.lstore = [] ∧ t.hbm = s.hbm ∧ t.pwr.changing = none ∧
        (∀ p, p < 6 → s.connected p = true → s.fld (rLnkCtrl p) 0 0 = 1 → t.linkState p = 1) ∧
        t.agenda.getLast? = some ({ dom := none, at_ := s.clk.wall, act := .cmd .startPhase } : Due))) ∧
  (∀ s : State, (s.pwr.changing = none → exec .powerStateEntered s = .next s) ∧
    (s.pwrState ≠ 6 ∨ s.startPh ≠ 1 ∨ s.pwr.cold = false → exec .memoryFillDone s = .next s) ∧
    (∀ r : SelfTestResult, s.pwrState ≠ 4 ∨ s.pwr.held = true → exec (.selfTest r) s = .next s))

/-- R36: a self-test that reads a fuse map that bypasses a number of positions other than two, or any of H0 to H12, fails, and the module enters Overcast. -/
def Obligations.FuseMapChecked : Prop :=
  ∀ (s : State) (r : SelfTestResult), s.pwrState = 4 → s.pwr.held = false →
    ((List.range 13).any (fun n => bitAt r.bypass n) = true ∨ ((List.range 18).filter fun n => bitAt r.bypass n).length ≠ 2) →
    ∃ t : State, exec (.selfTest r) s = .next t ∧ t.pwrState = 5 ∧ t.fld rPwrSelftest 62 62 = 1

/-- R572, R606, R607, R608, R611: STATUS writes the module's states, versions, self-test and nonce as its response, and AO_RECORD the always-on records,
to any interface, in Overcast too; ABI_OPEN of a host port agrees the version that GLB_ABI names and serves, and refuses another with ABI_MISMATCH,
and the SMBus interface agrees none; a read of ZEN_MB_DONE answers the oldest completion and takes it away, and answers 0 when there is none. -/
def Obligations.MailboxAnswers : Prop :=
  (∀ (s : State) (i : Nat), s.mailboxAwake i →
    (∃ t : State, exec (.status i) s = .next t ∧ t.answered i 0 ∧
      t.mbuf = memWrite s.mbuf (i * 2 ^ 16 + 2 ^ 15) (leBytes 8 (s.reg rPwrStatus).toNat ++ leBytes 8 (s.reg rZenBoot).toNat ++
        leBytes 8 (s.reg rPwrSelftest).toNat ++ s.nonceBytes) ∧
      t.hbm = s.hbm ∧ t.store = s.store ∧ t.lstore = s.lstore ∧ SameRegsBut (mailboxRegs i) s t) ∧
    ∃ t : State, exec (.aoRecord i) s = .next t ∧ t.answered i 0 ∧
      t.mbuf = memWrite s.mbuf (i * 2 ^ 16 + 2 ^ 15)
        (s.pwr.ao.flatMap fun e => leBytes 8 e.code ++ leBytes 8 e.beat ++ leBytes 8 e.mv ++ leBytes 8 e.tj) ∧
      t.hbm = s.hbm ∧ t.store = s.store ∧ t.lstore = s.lstore ∧ SameRegsBut (mailboxRegs i) s t) ∧
  (∀ (s : State) (i v : Nat), s.mailboxLives i →
    (i < 2 → v = s.fld (rGlbAbi + localStride * i) 23 16 → s.fld (rGlbAbi + localStride * i) 47 40 ≤ v →
      v ≤ s.fld (rGlbAbi + localStride * i) 39 32 →
      ∃ t : State, exec (.abiOpen i v) s = .next t ∧ t.answered i 0 ∧ t.fld (rGlbAbi + localStride * i) 7 0 = v ∧ SameMem s t ∧
        SameRegsBut ((rGlbAbi + localStride * i) :: mailboxRegs i) s t) ∧
    (i < 2 → v ≠ s.fld (rGlbAbi + localStride * i) 23 16 ∨ v < s.fld (rGlbAbi + localStride * i) 47 40 ∨
        s.fld (rGlbAbi + localStride * i) 39 32 < v →
      ∃ t : State, exec (.abiOpen i v) s = .next t ∧ t.answered i 9 ∧ SameMem s t ∧ SameRegsBut (mailboxRegs i) s t) ∧
    (i = 2 → ∃ t : State, exec (.abiOpen i v) s = .next t ∧ t.answered i 6 ∧ SameMem s t ∧ SameRegsBut (mailboxRegs i) s t)) ∧
  (∀ (s : State) (i d n c r : Nat) (l : List (Nat × Nat × Nat × Nat)), SMap.get s.zen.done i = (d, n, c, r) :: l →
    ∃ t : State, exec (.mailboxDoneRead i) s = .next t ∧ SMap.get t.zen.done i = l ∧
      t.outbox = s.outbox ++ [if i < 2 then .readData i (leBytes 8 (d % 2 ^ 32 * 2 ^ 32 + n * 2 ^ 24 + c * 2 ^ 16 + r))
        else .smbus (leBytes 8 (d % 2 ^ 32 * 2 ^ 32 + n * 2 ^ 24 + c * 2 ^ 16 + r))] ∧ SameMem s t ∧ SameRegsBut [] s t) ∧
  (∀ (s : State) (i : Nat), i < 2 → SMap.get s.zen.done i = [] →
    ∃ t : State, exec (.mailboxDoneRead i) s = .next t ∧ SMap.get t.zen.done i = [] ∧ t.outbox = s.outbox ++ [Output.readData i (leBytes 8 0)] ∧
      SameMem s t ∧ SameRegsBut [] s t)

/-- R520, R607, R608: the gates. Zenith that has not booted answers BUSY, an interface without the role ROLE_REQUIRED, a host port that has agreed no ABI
ABI_REQUIRED, and a module held in reset nothing; here for SVN_COMMIT, ROLE_KEY_SET, FABRIC_MAP, ZENITH_RESET and ZEROIZE, of which Overcast refuses
all but the last with OVERCAST. R520, R608: LOGIN gives the role whose key hash is stored for the key that the signature verifies under, for 600 s
after the last command; another key or signature gives none. LOGOUT ends it. TAKE_OWNERSHIP stores the first OFFICER's hash, and no second one, nor a
key of zeros; ROLE_KEY_SET stores a USER's or the OFFICER's, or removes it for a key of zeros. -/
def Obligations.MailboxRoles : Prop :=
  (∀ (s : State) (i n : Nat) (key : List Nat),
    ∀ c ∈ [(.svnCommit i n : Instr), .roleKeySet i 1 n key, .fabricMap i key, .zenithReset i, .zeroize i false],
    (s.pwr.held = true → exec c s = .next s) ∧
    (s.pwr.held = false → i ≤ 2 → (s.zen.booted = false ∨ s.zen.booting = true) →
      ∃ t : State, exec c s = .next t ∧ t.answered i 3 ∧ t.zen = s.zen ∧ SameMem s t ∧ SameRegsBut (mailboxRegs i) s t) ∧
    (s.mailboxAwake i → s.pwrState = 5 → c ≠ .zeroize i false →
      ∃ t : State, exec c s = .next t ∧ t.answered i 4 ∧ t.zen.officer = s.zen.officer ∧ t.zen.fuseSvn = s.zen.fuseSvn ∧ SameMem s t ∧
        SameRegsBut (mailboxRegs i) s t) ∧
    (s.mailboxLives i → i < 2 → s.fld (rGlbAbi + localStride * i) 7 0 = 0 →
      ∃ t : State, exec c s = .next t ∧ t.answered i 8 ∧ SameMem s t ∧ SameRegsBut (mailboxRegs i) s t) ∧
    (s.mailboxOpen i 0 → s.roleOf i < 2 →
      ∃ t : State, exec c s = .next t ∧ t.answered i 7 ∧ t.zen.officer = s.zen.officer ∧ t.zen.users = s.zen.users ∧ SameMem s t ∧
        SameRegsBut (mailboxRegs i) s t)) ∧
  ((∀ (s : State) (i r : Nat) (key : List Nat), s.mailboxOpen i 0 →
    ((r = 2 ∧ s.zen.officer = some (Config.sha3 key)) ∨ (r = 1 ∧ ∃ n, (n, some (Config.sha3 key)) ∈ s.zen.users) →
      ∃ t : State, exec (.login i r key true) s = .next t ∧ t.answered i 0 ∧ t.roleOf i = r ∧
        t.agenda = s.agenda ++ [({ dom := none, at_ := s.clk.wall + 600 * 700000000, act := .cmd (.roleTimeout i) } : Due)] ∧ SameMem s t ∧
        SameRegsBut (rZenRole :: mailboxRegs i) s t) ∧
    (¬((r = 2 ∧ s.zen.officer = some (Config.sha3 key)) ∨ (r = 1 ∧ (s.zen.users.any fun e => e.2 == some (Config.sha3 key)) = true)) →
      ∃ t : State, exec (.login i r key true) s = .next t ∧ t.answered i 6 ∧ t.agenda = s.agenda ∧ SameMem s t ∧
        SameRegsBut (mailboxRegs i) s t) ∧
    (∃ t : State, exec (.login i r key false) s = .next t ∧ t.answered i 6 ∧ t.agenda = s.agenda ∧ SameMem s t ∧ SameRegsBut (mailboxRegs i) s t) ∧
    (∃ t : State, exec (.logout i) s = .next t ∧ t.answered i 0 ∧ t.roleOf i = 0 ∧ SameMem s t ∧ SameRegsBut (rZenRole :: mailboxRegs i) s t) ∧
    (s.zen.officer = none → key.all (· == 0) = false →
      ∃ t : State, exec (.takeOwnership i key) s = .next t ∧ t.answered i 0 ∧ t.zen.officer = some (Config.sha3 key) ∧ t.zen.users = s.zen.users ∧
        SameMem s t ∧ SameRegsBut (mailboxRegs i) s t) ∧
    (s.zen.officer = none → key.all (· == 0) = true →
      ∃ t : State, exec (.takeOwnership i key) s = .next t ∧ t.answered i 6 ∧ t.zen.officer = none ∧ SameMem s t ∧
        SameRegsBut (mailboxRegs i) s t) ∧
    (s.zen.officer ≠ none →
      ∃ t : State, exec (.takeOwnership i key) s = .next t ∧ t.answered i 11 ∧ t.zen.officer = s.zen.officer ∧ SameMem s t ∧
        SameRegsBut (mailboxRegs i) s t)) ∧
  (∀ (s : State) (i slot : Nat) (key : List Nat), s.mailboxOpen i 2 → slot < 8 →
    ∃ t : State, exec (.roleKeySet i 1 slot key) s = .next t ∧ t.answered i 0 ∧
      SMap.get t.zen.users slot = (if key.all (· == 0) then none else some (Config.sha3 key)) ∧
      (∀ n, n ≠ slot → SMap.get t.zen.users n = SMap.get s.zen.users n) ∧ t.zen.officer = s.zen.officer ∧ SameMem s t ∧
      SameRegsBut (mailboxRegs i) s t) ∧
  (∀ (s : State) (i slot : Nat) (key : List Nat), s.mailboxOpen i 2 →
    (∃ t : State, exec (.roleKeySet i 2 0 key) s = .next t ∧ t.answered i 0 ∧
      t.zen.officer = (if key.all (· == 0) then none else some (Config.sha3 key)) ∧ t.zen.users = s.zen.users ∧ SameMem s t ∧
      SameRegsBut (mailboxRegs i) s t) ∧
    (8 ≤ slot → ∀ r ∈ [1, 2], ∃ t : State, exec (.roleKeySet i r slot key) s = .next t ∧ t.answered i 6 ∧ t.zen.officer = s.zen.officer ∧
      t.zen.users = s.zen.users ∧ SameMem s t ∧ SameRegsBut (mailboxRegs i) s t)) ∧
  (∀ (s : State) (i : Nat), s.roleOf i = 0 → exec (.roleTimeout i) s = .next s) ∧
  (∀ (s : State) (i : Nat), i ≤ 2 → s.roleOf i ≠ 0 →
    (SMap.get s.zen.lastCmd i + 420000000000 ≤ s.clk.wall + 1 →
      ∃ t : State, exec (.roleTimeout i) s = .next t ∧ t.roleOf i = 0 ∧ t.agenda = s.agenda ∧ SameMem s t ∧ SameRegsBut [rZenRole] s t) ∧
    (s.clk.wall + 1 < SMap.get s.zen.lastCmd i + 420000000000 →
      ∃ t : State, exec (.roleTimeout i) s = .next t ∧ t.roleOf i = s.roleOf i ∧
        t.agenda = s.agenda ++ [({ dom := none, at_ := SMap.get s.zen.lastCmd i + 420000000000, act := .cmd (.roleTimeout i) } : Due)] ∧ SameMem s t ∧
        SameRegsBut [] s t)))

/-- R371, R372, R484, R528, R529, R601: LOAD of a partition that is unloaded, on a module whose fabric is ready, is accepted and its partition is loading,
a confidential one only with its port's stream Secure and a signer set; else it is refused. UNLOAD of a partition between steps makes it unloaded, a
confidential one through Clearing, and of one that runs a step or is in Clearing is refused with LOAD_BUSY. RECOVERY_TABLE writes its entries and
zeros after them at the core's place, or refuses an entry that it does not take. SIGNER_SET stores the hashes that are not zero. -/
def Obligations.ImagesManaged : Prop :=
  (∀ (s : State) (i k addr len p : Nat) (b : List Nat), s.mailboxPart i k →
    (s.pstate k = 0 → (s.part k).loading = none → (s.part k).clearAfter = false → s.fld rPwrStatus 56 56 = 1 →
      (s.conf k = false ∨ (s.ideSecure (s.owner k) = true ∧ (s.part k).signers ≠ [])) → addr % 4096 = 0 → s.inBounds k addr len = true →
      (p = 0 ∨ s.inBounds k p 8 = true) → s.ticketRoom i →
      ∃ t : State, exec (.load i k addr len b p) s = .next t ∧ ticketOpened s t i 0x10 ∧
        (t.part k).loading = some ({ addr := addr, len := len, bases := b, ptable := p }, i, s.zen.nextTicket) ∧ t.pstate k = 0 ∧
        (∀ j ∈ s.partCores k, t.fld (rSeqCtxStatus j) 1 0 = 1) ∧ SameMem s t ∧ SameRegsBut (ctxRegs ++ mailboxRegs i) s t) ∧
    (s.pstate k ≠ 0 ∨ (s.part k).loading ≠ none ∨ (s.part k).clearAfter = true ∨ s.fld rPwrStatus 56 56 = 0 →
      ∃ t : State, exec (.load i k addr len b p) s = .next t ∧ t.answered i 0x20 ∧ t.parts = s.parts ∧ SameMem s t ∧
        SameRegsBut (mailboxRegs i) s t)) ∧
  (∀ (s : State) (i k : Nat), s.mailboxPart i k →
    (s.stepping k = true ∨ s.pstate k = 3 ∨ s.pstate k = 4 → ∃ t : State, exec (.unload i k) s = .next t ∧ t.answered i 0x20 ∧
      t.parts = s.parts ∧ SameMem s t ∧ SameRegsBut (mailboxRegs i) s t) ∧
    (s.stepping k = false → s.pstate k = 0 → (s.part k).dumpState ≠ 1 → (s.part k).loading = none →
      ∃ t : State, exec (.unload i k) s = .next t ∧ t.answered i 0 ∧ t.parts = s.parts ∧ SameMem s t ∧ SameRegsBut (mailboxRegs i) s t) ∧
    (s.stepping k = false → s.pstate k = 1 → (s.part k).dumpState ≠ 1 → (s.part k).loading = none → (s.part k).queue = [] → s.conf k = false →
      ∃ t : State, exec (.unload i k) s = .next t ∧ t.answered i 0 ∧ t.pstate k = 0 ∧ (t.part k).image = none ∧
        (∀ j ∈ s.partCores k, t.core j = {} ∧ t.fld (rSeqCtxStatus j) 1 0 = 0) ∧ SameMem s t ∧
        SameRegsBut ([rHifCrStatus k, rHifCqStatus k, rZenPart k] ++ (ctxRegs ++ (mailboxRegs i ++ eventRegs))) s t) ∧
    (s.stepping k = false → s.pstate k = 1 → (s.part k).dumpState ≠ 1 → s.conf k = true → s.maintConflict 7 k = none →
      ∃ t : State, exec (.unload i k) s = .next t ∧ t.answered i 0 ∧ t.pstate k = 3 ∧ (t.part k).clearStep = 1 ∧ (t.part k).image = none ∧
        SameMem s t)) ∧
  (∀ (s : State) (i k core addr n : Nat), s.mailboxPart i k → core < 4 → s.partOf core = some k → s.pstate k ≠ 3 → s.pstate k ≠ 4 → n ≤ 512 →
    s.inBounds k addr (32 * n) = true →
    ((chunksOf 32 (s.hbmRead addr (32 * n)).length (s.hbmRead addr (32 * n))).all (fun e => s.recoveryOk core e) = true →
      ∃ t : State, exec (.recoveryTable i core addr n) s = .next t ∧ t.answered i 0 ∧
        t.hbm = memWrite s.hbm (recoveryBase core) (s.hbmRead addr (32 * n) ++ List.replicate (16384 - (s.hbmRead addr (32 * n)).length) 0) ∧
        t.store = s.store ∧ t.lstore = s.lstore ∧ t.mbuf = s.mbuf ∧ SameRegsBut (mailboxRegs i) s t) ∧
    ((chunksOf 32 (s.hbmRead addr (32 * n)).length (s.hbmRead addr (32 * n))).all (fun e => s.recoveryOk core e) = false →
      ∃ t : State, exec (.recoveryTable i core addr n) s = .next t ∧ t.answered i 0x26 ∧ SameMem s t ∧ SameRegsBut (mailboxRegs i) s t)) ∧
  (∀ (s : State) (i k : Nat) (keys : List (List Nat)), s.mailboxPart i k →
    (keys.length ≤ 4 → keys.all (fun h => h.length == 64) = true →
      ∃ t : State, exec (.signerSet i k keys) s = .next t ∧ t.answered i 0 ∧ (t.part k).signers = keys.filter (fun h => !(h.all (· == 0))) ∧
        SameMem s t ∧ SameRegsBut (mailboxRegs i) s t) ∧
    (4 < keys.length ∨ keys.all (fun h => h.length == 64) = false →
      ∃ t : State, exec (.signerSet i k keys) s = .next t ∧ t.answered i 6 ∧ t.parts = s.parts ∧ SameMem s t ∧ SameRegsBut (mailboxRegs i) s t))

/-- R483, R538: EXPORT of whole lines within the partition is accepted and joins the port's engine, for a confidential partition only with its port's
stream Secure and a result-tag key; when the range is read, the data and then the 64-byte record, with its number and, of a confidential partition,
its tag, go to the host, the export number rises and the next export's turn comes. A line that fails its check is recovered first, and one that cannot
be ends the export. -/
def Obligations.ExportsRun : Prop :=
  (∀ (s : State) (i k addr len data r : Nat), s.mailboxPart i k → s.pstate k ≠ 3 → s.pstate k ≠ 4 →
    (addr % 256 = 0 → len % 256 = 0 → len ≠ 0 → len ≤ 2 ^ 32 → s.inBounds k addr len = true →
      (s.conf k = false ∨ (s.ideSecure (s.owner k) = true ∧ s.resultKeyOf k ≠ none)) → s.ticketRoom i →
      ∃ t : State, exec (.export_ i k addr len data r) s = .next t ∧ ticketOpened s t i 0x14 ∧
        (t.host (s.owner k)).exports = (s.host (s.owner k)).exports ++
          [{ iface := i, ticket := s.zen.nextTicket, part := k, addr := addr, len := len, data := data, rec_ := r, step := (s.part k).stepNo }] ∧
        SameMem s t ∧ SameRegsBut (mailboxRegs i) s t) ∧
    (addr % 256 ≠ 0 ∨ len % 256 ≠ 0 ∨ len = 0 ∨ 2 ^ 32 < len →
      ∃ t : State, exec (.export_ i k addr len data r) s = .next t ∧ t.answered i 6 ∧ (∀ h, h < 2 → (t.host h).exports = (s.host h).exports) ∧ SameMem s t ∧
        SameRegsBut (mailboxRegs i) s t)) ∧
  (∀ (s : State) (h : Nat) (j : ExportJob) (l : List ExportJob), (s.host h).exports = j :: l → s.samePlace 0 0 0 j.addr j.len = none →
    (s.hbmBad j.addr j.len = false →
      ∃ (t : State) (m : List Output), exec (.exportDone h) s = .next t ∧ (t.host h).exports = l ∧ (t.part j.part).exportSeq = (s.part j.part).exportSeq + 1 ∧
        t.outbox = s.outbox ++ [Output.hostWrite h j.data (s.hbmRead j.addr j.len),
          .hostWrite h j.rec_ (s.exportRecord j (s.hbmRead j.addr j.len))] ++ m ∧
        (s.exportRecord j (s.hbmRead j.addr j.len)).take 8 = leBytes 8 ((s.part j.part).exportSeq + 1) ∧
        (s.conf j.part = false → (s.exportRecord j (s.hbmRead j.addr j.len)).length = 64) ∧ SameMem s t ∧
        SameRegsBut [rZenApproved] s t) ∧
    (s.hbmBad j.addr j.len = true → j.tried = false → s.recoveries = [] →
      ∃ (t : State) (r : Recovery), exec (.exportDone h) s = .next t ∧ t.recoveries = [r] ∧ r.space = 0 ∧ r.addr = s.badAddr j.addr j.len ∧
        (t.host h).exports = { j with tried := true } :: l ∧ t.outbox = s.outbox ∧ SameMem s t) ∧
    (s.hbmBad j.addr j.len = true → j.tried = true →
      ∃ (t : State) (m : List Output), exec (.exportDone h) s = .next t ∧ (t.host h).exports = l ∧ t.outbox = s.outbox ++ m ∧ m.length ≤ 1 ∧
        (∀ x ∈ t.zen.tickets, ¬(x.1 = j.iface ∧ x.2.1 = j.ticket)) ∧ SameMem s t ∧ SameRegsBut [rZenApproved] s t)) ∧
  (∀ (s : State) (h : Nat), (s.host h).exports = [] → exec (.exportDone h) s = .next s)

/-- R507, R512–R514, R532, R542–R544, R546, R556: CLEAR begins Clearing, unless what runs refuses it, which is answered; REKEY begins a sweep with a new
key in the other slot and every granule left to do; PARTITION_RESET of a partition that is not confidential makes it unloaded; PARTITION_CONFIG of
partitions that are unloaded gives every partition of the shape its cores, owner, links and confidentiality, and runs Clearing on those that changed. -/
def Obligations.PartitionsManaged : Prop :=
  (∀ (s : State) (i k : Nat), s.mailboxPart i k → s.maintConflict 7 k = none → s.ticketRoom i → (s.part k).loading = none →
    ∃ (t : State) (l : List Due), exec (.clear i k) s = .next t ∧ ticketOpened s t i 0x15 ∧ t.pstate k = 3 ∧ (t.part k).clearStep = 1 ∧
      (t.part k).tickets = (s.part k).tickets ++ [(i, s.zen.nextTicket, 0x15)] ∧ { act := 7, scope := k } ∈ t.maint ∧
      t.agenda = l ++ [({ dom := none, at_ := s.clk.wall + 350000, act := .cmd (.pstatToggle k) } : Due)] ∧ SameMem s t ∧
      SameRegsBut (rZenPart k :: (ctxRegs ++ (maintRegs ++ mailboxRegs i))) s t) ∧
  (∀ (s : State) (i k c : Nat), s.mailboxPart i k → s.maintConflict 7 k = some c →
    ∃ t : State, exec (.clear i k) s = .next t ∧ t.answered i 0x27 ∧ t.parts = s.parts ∧ t.reg (rZenMbDetail + mbOfs i) = BitVec.ofNat 64 c ∧
      SameMem s t ∧ SameRegsBut (maintRegs ++ mailboxRegs i) s t) ∧
  (∀ (s : State) (i k : Nat), s.mailboxPart i k → s.pstate k = 3 ∨ s.pstate k = 4 ∨ (s.part k).clearAfter = true ∨ s.fld (rZenXts k) 63 63 = 1 →
    ∃ t : State, exec (.rekey i k) s = .next t ∧ t.answered i 0x24 ∧ t.parts = s.parts ∧ SameMem s t ∧ SameRegsBut (mailboxRegs i) s t) ∧
  (∀ (s : State) (i k : Nat), s.mailboxPart i k → s.pstate k ≠ 3 → s.pstate k ≠ 4 → (s.part k).clearAfter = false →
    s.fld (rZenXts k) 63 63 = 0 → s.conf k = true → s.maintConflict 6 k = none → s.ticketRoom i →
    ∃ t : State, exec (.rekey i k) s = .next t ∧ ticketOpened s t i 0x16 ∧ t.fld (rZenXts k) 63 63 = 1 ∧
      t.fld (rZenXts k) 62 62 = 1 - s.fld (rZenXts k) 62 62 ∧ t.fld (rZenXts k) 17 0 = 2 * (s.partCores k).length * 32192 ∧
      SMap.get (t.part k).keys (1 - s.fld (rZenXts k) 62 62) = some s.zen.drbg ∧
      t.agenda = s.agenda ++ (s.partStacks k).map (fun n => ({ dom := none, at_ := s.clk.wall, act := .cmd (.rekeyGranuleLock n) } : Due)) ∧
      SameMem s t ∧ SameRegsBut (rZenXts k :: (maintRegs ++ mailboxRegs i)) s t) ∧
  (∀ (s : State) (i k : Nat), s.RegsOk → s.mailboxPart i k → s.pstate k ≠ 3 → s.pstate k ≠ 4 → (s.part k).dumpState ≠ 1 →
    (s.part k).resetWait = false → (s.part k).loading = none → s.reads = [] → s.conf k = false →
    ∃ t : State, exec (.partitionReset i k) s = .next t ∧ t.answered i 0 ∧ t.pstate k = 0 ∧ (t.part k).image = none ∧ SameMem s t ∧
      ∀ r, s.partReg k r = false → r ∉ rZenPart k :: mailboxRegs i → t.reg r = s.reg r) ∧
  (∀ (s : State) (i shape : Nat) (ps : List PartCfg), s.mailboxOpen i 2 → shape ≤ 3 →
    (∀ p ∈ shapeParts shape, (ps.getD p.1 {}).owner ≤ 1 ∧ (ps.getD p.1 {}).links < 64) →
    (∀ p ∈ shapeParts shape, ∀ q ∈ shapeParts shape, p.1 < q.1 → Nat.land (ps.getD p.1 {}).links (ps.getD q.1 {}).links = 0) →
    s.zen.unlocked = false → s.maint = [] → s.ticketRoom i →
    (∀ k, k < 4 → s.pstate k = 0 ∧ (s.part k).loading = none ∧ (s.part k).clearAfter = false ∧ s.stepping k = false) →
    ∃ t : State, exec (.partitionConfig i shape ps) s = .next t ∧ t.answered i 1 ∧ t.fld rZenLayout 2 0 = shape ∧
      (∀ p ∈ shapeParts shape, t.partValid p.1 = true ∧ t.partCores p.1 = maskList 4 p.2 ∧ t.owner p.1 = (ps.getD p.1 {}).owner ∧
        t.conf p.1 = (ps.getD p.1 {}).confidential ∧ t.fld (rZenPart p.1) 53 48 = (ps.getD p.1 {}).links ∧
        (partKey (s.reg (rZenPart p.1)).toNat ≠ partKey (t.reg (rZenPart p.1)).toNat → t.pstate p.1 = 3)) ∧
      (∀ k, k < 4 → k ∉ (shapeParts shape).map (·.1) → t.reg (rZenPart k) = 0#64) ∧ SameMem s t ∧
      SameRegsBut ([rZenLayout, rDbgTraceCtrl, rDbgStatus] ++ ((List.range 4).map rZenPart ++ ((List.range 2).map (fun h => rGlbPort + localStride * h) ++
        ((List.range 8).map rMemStatus ++ ((List.range 6).map rLnkStatus ++ (ctxRegs ++ (maintRegs ++ mailboxRegs i))))))) s t)

/-- R422, R517, R546, R561, R574, R608, R610: POWER_STATE of a module at rest asks for the state and pauses patrol; FABRIC_MAP stores a map that describes
an installation for the next start, and refuses another with MAP_INVALID; FW_UPDATE writes its slot and no other; SVN_COMMIT raises the fuse version
and never lowers it. -/
def Obligations.ModuleManaged : Prop :=
  (∀ (s : State) (i n : Nat), s.mailboxOpen i 2 → n ≤ 3 → s.pwrState < 4 → s.pwr.changing = none → s.maint = [] → s.ticketRoom i →
    (∀ k, k < 4 → s.stepping k = false ∧ s.pstate k ≠ 3 ∧ s.pstate k ≠ 4) →
    (n = 3 → ∀ k, k < 4 → s.pstate k = 0 ∧ (s.part k).loading = none) →
    ∃ t : State, exec (.powerState i n) s = .next t ∧ ticketOpened s t i 0x21 ∧ t.pwr.changing = some (n, i * 256 + s.zen.nextTicket) ∧
      t.pwr.pausedPatrol = true ∧ t.pwrState = s.pwrState ∧ SameMem s t ∧ SameRegsBut (maintRegs ++ mailboxRegs i) s t) ∧
  (∀ (s : State) (i : Nat) (m : List Nat), s.mailboxOpen i 2 →
    (mapOk m = false → ∃ t : State, exec (.fabricMap i m) s = .next t ∧ t.answered i 0x29 ∧ t.zen.mapStore = s.zen.mapStore ∧ SameMem s t ∧
      SameRegsBut (mailboxRegs i) s t) ∧
    (mapOk m = true → s.ticketRoom i →
      ∃ t : State, exec (.fabricMap i m) s = .next t ∧ ticketDone s t i 0x22 ∧ t.zen.mapStore = m ∧ t.zen.map = s.zen.map ∧ SameMem s t ∧
        SameRegsBut (mailboxRegs i) s t)) ∧
  (∀ (s : State) (i : Nat) (b : Bool) (m : List Nat), s.mailboxOpen i 2 → s.ticketRoom i →
    (∃ t : State, exec (.fwUpdate i 0 m b) s = .next t ∧ ticketDone s t i 0x30 ∧ t.zen.slotA = m ∧ t.zen.slotB = s.zen.slotB ∧ SameMem s t ∧
      SameRegsBut (mailboxRegs i) s t) ∧
    (∃ t : State, exec (.fwUpdate i 1 m b) s = .next t ∧ ticketDone s t i 0x30 ∧ t.zen.slotB = m ∧ t.zen.slotA = s.zen.slotA ∧ SameMem s t ∧
      SameRegsBut (mailboxRegs i) s t) ∧
    ∃ t : State, exec (.fwUpdate i 2 m b) s = .next t ∧ t.answered i 6 ∧ t.zen.slotA = s.zen.slotA ∧ t.zen.slotB = s.zen.slotB ∧ SameMem s t ∧
      SameRegsBut (mailboxRegs i) s t) ∧
  (∀ (s : State) (i n : Nat), s.mailboxOpen i 2 →
    (s.zen.fuseSvn ≤ n → n < 2 ^ 16 → ∃ t : State, exec (.svnCommit i n) s = .next t ∧ t.answered i 0 ∧ t.zen.fuseSvn = n ∧ SameMem s t ∧
      SameRegsBut (mailboxRegs i) s t) ∧
    (n < s.zen.fuseSvn ∨ 2 ^ 16 ≤ n → ∃ t : State, exec (.svnCommit i n) s = .next t ∧ t.answered i 6 ∧ t.zen.fuseSvn = s.zen.fuseSvn ∧ SameMem s t ∧
      SameRegsBut (mailboxRegs i) s t))

/-- R521, R522, R542, R556, R573, R637: ZEROIZE leaves no key, no role and no result key, reports ZEROIZED, and runs Clearing on every partition or lets
it wait; DEBUG_UNLOCK unlocks under the vendor's key and under no other; ZENITH_RESET leaves Zenith booting; RETEST in Overcast runs the self-test
again. -/
def Obligations.SecretsManaged : Prop :=
  (∀ (s : State) (i : Nat) (b : Bool), s.mailboxOpen i 2 → s.ticketRoom i → s.evq.length < 1024 →
    ∃ (t : State) (e : EventRec) (l : List EventRec), exec (.zeroize i b) s = .next t ∧ t.answered i 1 ∧ t.evq = s.evq ++ e :: l ∧ e.code = 0x0505 ∧
      (∀ k, k < 4 → (t.part k).keys = [] ∧ (t.part k).resultKey = none) ∧ (∀ j, j ≤ 2 → t.roleOf j = 0) ∧
      (∀ h, h < 2 → (t.host h).session = none ∧ (t.host h).ideKeys = none) ∧
      (∀ k, k < 4 → s.partValid k = true → t.pstate k = 3 ∨ (t.part k).clearAfter = true) ∧ SameMem s t) ∧
  (∀ (s : State) (i : Nat) (key : List Nat) (b : Bool), s.mailboxOpen i 2 → s.anyConf = false → s.evq.length < 1024 →
    ∃ t : State, exec (.debugUnlock i key b) s = .next t ∧
      (b = true ∧ Config.sha3 key = Config.debugKeyHash → t.answered i 0 ∧ t.zen.unlocked = true ∧ t.fld rDbgStatus 63 63 = 1 ∧
        ∃ e, t.evq = s.evq ++ [e] ∧ e.code = 0x050B) ∧
      (¬(b = true ∧ Config.sha3 key = Config.debugKeyHash) → t.answered i 6 ∧ t.zen.unlocked = s.zen.unlocked ∧
        t.reg rDbgStatus = s.reg rDbgStatus ∧ t.evq = s.evq) ∧ SameMem s t ∧ SameRegsBut (mailboxRegs i ++ eventRegs) s t) ∧
  (∀ (s : State) (i : Nat), s.mailboxOpen i 2 → s.ticketRoom i →
    ∃ t : State, exec (.zenithReset i) s = .next t ∧ t.zen.booting = true ∧ t.zen.booted = false ∧ t.zen.alias_ = none ∧
      t.fld rPwrResetCause 63 56 = 6 ∧ t.fld rPwrResetCause 55 48 = 3 ∧ SameMem s t) ∧
  (∀ (s : State) (i : Nat), s.pwr.held = false → i ≤ 2 → s.zen.booted = true → s.zen.booting = false → s.pwrState = 5 → s.ticketRoom i →
    ∃ t : State, exec (.retest i) s = .next t ∧ ticketOpened s t i 0x41 ∧ t.pwrState = 4 ∧ t.pwr.cold = true ∧ SameMem s t ∧
      SameRegsBut (rPwrStatus :: mailboxRegs i) s t)

/-- R518, R523, R524: each SPDM request that Zenith can serve is answered with its response, the alias key signing what CHALLENGE and GET_MEASUREMENTS
return; index 0 of GET_MEASUREMENTS gives their number and 255 all of them; one that it cannot serve, or of an algorithm, a slot or a measurement that
it does not have, is answered with ERROR. The response codes are the family's (log entry 26). R523, R525, R526, R538: KEY_EXCHANGE makes the session's
secret and the result-tag keys of the port's confidential partitions, and starts their export numbers again; FINISH, KEY_UPDATE and END_SESSION
establish, renew and end it; in it IDE_KM programs a key set, and its go makes the stream Secure until its stop. -/
def Obligations.Attestation : Prop :=
  ((∀ (s : State) (h : Nat), s.attests h 0 →
    (∃ t : State, exec (.getVersion h) s = .next t ∧ (t.host h).spdm = max (s.host h).spdm 1 ∧ doeSent [] s t h 0x04 [0x12, 0x13]) ∧
    (∃ t : State, exec (.getCapabilities h) s = .next t ∧ (t.host h).spdm = max (s.host h).spdm 2 ∧ doeSent [] s t h 0x61 []) ∧
    (∀ l : List Nat, l.filter (fun n => decide (1 ≤ n) && decide (n ≤ 4)) ≠ [] →
      ∃ t : State, exec (.negotiateAlgorithms h l) s = .next t ∧ (t.host h).spdm = max (s.host h).spdm 3 ∧
        doeSent [] s t h 0x63 (l.filter fun n => decide (1 ≤ n) && decide (n ≤ 4))) ∧
    (∀ l : List Nat, l.filter (fun n => decide (1 ≤ n) && decide (n ≤ 4)) = [] →
      ∃ t : State, exec (.negotiateAlgorithms h l) s = .next t ∧ (t.host h).spdm = (s.host h).spdm ∧ doeSent [] s t h 0x7F []) ∧
    (∀ x a n : Nat, x ≠ 0 → ∃ t : State, exec (.getCertificate h x a n) s = .next t ∧ doeSent [] s t h 0x7F []) ∧
    (∃ t : State, exec (.getMeasurements h 0) s = .next t ∧ doeSent [] s t h 0x60 (leBytes 1 s.measureIndices.length ++
      s.aliasSign (leBytes 1 s.measureIndices.length))) ∧
    (∃ t : State, exec (.getMeasurements h 255) s = .next t ∧
      doeSent [] s t h 0x60 ((s.measureIndices.flatMap fun i => leBytes 1 i ++ (s.measurement i).getD []) ++
        s.aliasSign (s.measureIndices.flatMap fun i => leBytes 1 i ++ (s.measurement i).getD []))) ∧
    (∃ t : State, exec (.getDigests h) s = .next t ∧ doeSent [] s t h 0x01 (Config.sha3 s.chain)) ∧
    (∀ a n : Nat, ∃ t : State, exec (.getCertificate h 0 a n) s = .next t ∧ doeSent [] s t h 0x02 (slice s.chain a n)) ∧
    (∀ nonce : List Nat, ∃ t : State, exec (.challenge h nonce) s = .next t ∧ t.zen.drbg = s.zen.drbg + 1 ∧
      doeSent [] s t h 0x03 (Config.sha3 s.chain ++ (Config.drbg s.zen.drbg).take 32 ++
        s.aliasSign (nonce ++ (Config.sha3 s.chain ++ (Config.drbg s.zen.drbg).take 32)))) ∧
    (∀ (x : Nat) (m : List Nat), x ≠ 0 → x ≠ 255 → s.measurement x = some m →
      ∃ t : State, exec (.getMeasurements h x) s = .next t ∧ doeSent [] s t h 0x60 (leBytes 1 x ++ m ++ s.aliasSign (leBytes 1 x ++ m))) ∧
    (∀ x : Nat, x ≠ 0 → x ≠ 255 → s.measurement x = none →
      ∃ t : State, exec (.getMeasurements h x) s = .next t ∧ doeSent [] s t h 0x7F [])) ∧
  (∀ (s : State) (h : Nat), s.attests h 0 → (s.host h).spdm = 0 →
    ∀ c ∈ [(.keyExchange h [] : Instr), .finish h, .keyUpdate h, .endSession h, .ideKm h 0],
    ∃ t : State, exec c s = .next t ∧ (t.host h).spdm = 0 ∧ (t.host h).session = (s.host h).session ∧ doeSent [] s t h 0x7F [])) ∧
  ((∀ (s : State) (h : Nat) (ek : List Nat), s.attests h 3 → s.fld rZenRole (8 + h) (8 + h) = 0 →
    ∃ t : State, exec (.keyExchange h ek) s = .next t ∧ (t.host h).spdm = 4 ∧ (t.host h).session = some (Config.encaps ek s.zen.drbg).2 ∧
      (t.host h).keyGen = 0 ∧ (t.host h).ideKeys = none ∧ t.zen.drbg = s.zen.drbg + 1 ∧
      (∀ k, k < 4 → s.partValid k = true → s.owner k = h → (t.part k).exportSeq = 0 ∧
        (t.part k).resultKey = (if s.conf k then some (tagKey (Config.encaps ek s.zen.drbg).2 k) else none)) ∧
      doeSent [] s t h 0x64 ((Config.encaps ek s.zen.drbg).1 ++ s.aliasSign (ek ++ (Config.encaps ek s.zen.drbg).1))) ∧
  (∀ (s : State) (h : Nat), s.attests h 4 →
    ∃ t : State, exec (.finish h) s = .next t ∧ (t.host h).spdm = max (s.host h).spdm 5 ∧ (t.host h).session = (s.host h).session ∧
      doeSent [] s t h 0x65 []) ∧
  (∀ (s : State) (h : Nat), s.attests h 5 →
    (∃ t : State, exec (.keyUpdate h) s = .next t ∧ (t.host h).keyGen = (s.host h).keyGen + 1 ∧ doeSent [] s t h 0x69 []) ∧
    (∃ t : State, exec (.endSession h) s = .next t ∧ (t.host h).session = none ∧ (t.host h).spdm = 3 ∧ doeSent [] s t h 0x6C []) ∧
    (∃ t : State, exec (.ideKm h 0) s = .next t ∧ doeSent [] s t h 1 []) ∧
    (∃ t : State, exec (.ideKm h 2) s = .next t ∧ (t.host h).ideKeys = some s.zen.drbg ∧ doeSent [] s t h 3 []) ∧
    ((s.host h).ideKeys ≠ none → ∃ t : State, exec (.ideKm h 4) s = .next t ∧ t.ideSecure h = true ∧ (t.host h).ideLeft = false ∧
      doeSent [rZenRole] s t h 6 []) ∧
    ((s.host h).ideKeys = none → ∃ t : State, exec (.ideKm h 4) s = .next t ∧ doeSent [] s t h 0x7F []) ∧
    ((∀ k, k < 4 → s.conf k = true → s.owner k ≠ h) → s.ideSecure h = true →
      ∃ t : State, exec (.ideKm h 5) s = .next t ∧ t.ideSecure h = false ∧ (t.host h).ideKeys = none ∧ doeSent [rZenRole] s t h 6 [])))

/-- R529, R636: IDCODE shifts out the module's code and BYPASS one zero; while the debug unlock stands and no partition is confidential the boundary
register takes and drives the data and DBG_ACCESS reads and writes what host port 0 may; locked, the three select BYPASS. The sampled pins are free
values (log entry 1). R572, R606, R613–R615, R633: what the SMBus interface answers: an endpoint takes an ID from 1 to 254 and refuses another, and
reports ID, versions, message types and vendor; a known sensor reads its value and another an error; a firmware update under the OFFICER's role fills
the slot that does not run, and without it, or before Zenith has booted, is refused; a message that carries a mailbox command leaves its argument in
the buffer and issues it. A module held in reset answers nothing. The layouts of the responses are the family's (log entry 26), with free bytes where
no rule gives any. -/
def Obligations.SideBands : Prop :=
  ((∀ s : State, (∃ t : State, exec .idcode s = .next t ∧ t.tap.ir = 0 ∧ t.outbox = s.outbox ++ [Output.tdo [0x3F, 0x60, 0x61, 0xC9]] ∧ SameMem s t ∧
      SameRegsBut [] s t) ∧
    ∃ t : State, exec .bypass s = .next t ∧ t.tap.ir = 1 ∧ t.outbox = s.outbox ++ [Output.tdo [0]] ∧ SameMem s t ∧ SameRegsBut [] s t) ∧
  (∀ (s : State) (b : List Nat), s.tapOpen = true →
    (∃ (t : State) (o : List Nat), exec (.samplePreload b) s = .next t ∧ t.tap.ir = 2 ∧ t.tap.boundary = b ∧ o.length = b.length ∧
      t.outbox = s.outbox ++ [Output.tdo o] ∧ t.free = s.free + b.length ∧ SameMem s t ∧ SameRegsBut [] s t) ∧
    ∃ (t : State) (o : List Nat), exec (.extest b) s = .next t ∧ t.tap.ir = 3 ∧ t.tap.boundary = b ∧ o.length = b.length ∧
      t.outbox = s.outbox ++ [Output.pin "BOUNDARY" (leNat b), .tdo o] ∧ SameMem s t ∧ SameRegsBut [] s t) ∧
  (∀ (s : State) (n w : Nat) (v : Word), s.tapOpen = true → (s.tapIr 4).readReg 0 n w = (none, s.tapIr 4) →
    exec (.dbgAccess false n w v) s = .next (s.tapIr 4)) ∧
  (∀ (s : State) (n w : Nat) (v : Word), s.tapOpen = true → exec (.dbgAccess true n w v) s = .next ((s.tapIr 4).writeReg 0 n w v)) ∧
  (∀ (s : State) (n w : Nat) (v : Word) (b : List Nat) (u : State), s.tapOpen = true → (s.tapIr 4).readReg 0 n w = (some b, u) →
    exec (.dbgAccess false n w v) s = .next (u.out (.tdo b))) ∧
  (∀ (s : State) (b : List Nat) (w : Bool) (n z : Nat) (v : Word), s.tapOpen = false →
    ∀ c ∈ [(.samplePreload b : Instr), .extest b, .dbgAccess w n z v],
    ∃ t : State, exec c s = .next t ∧ t.tap.ir = 1 ∧ t.tap.boundary = s.tap.boundary ∧ t.outbox = s.outbox ++ [Output.tdo [0]] ∧ SameMem s t ∧
      SameRegsBut [] s t)) ∧
  ((∀ s : State, s.pwr.held = false →
    (∀ n : Nat, 0 < n → n < 255 → ∃ t : State, exec (.setEndpointId n) s = .next t ∧ t.eid = n ∧
      smbusSent s t (0x01 :: 0x00 :: n :: Config.mctpBody 1)) ∧
    (∀ n : Nat, n = 0 ∨ 255 ≤ n → ∃ t : State, exec (.setEndpointId n) s = .next t ∧ t.eid = s.eid ∧ smbusSent s t (0x01 :: 0x02 :: Config.mctpBody 1)) ∧
    (∃ t : State, exec .getEndpointId s = .next t ∧ smbusSent s t (0x02 :: 0x00 :: s.eid :: Config.mctpBody 2)) ∧
    (∃ t : State, exec .getMctpVersionSupport s = .next t ∧ smbusSent s t (0x04 :: 0x00 :: Config.mctpBody 4)) ∧
    (∃ t : State, exec .getMessageTypeSupport s = .next t ∧ smbusSent s t ([0x05, 0x00, 0x02, 0x01, 0x7E] ++ Config.mctpBody 5)) ∧
    (∃ t : State, exec .getVendorDefinedMessageSupport s = .next t ∧ smbusSent s t ([0x06, 0x00, 0xFF, 0x00, 0x1F, 0x6E] ++ Config.mctpBody 6)) ∧
    (∀ c : Nat, ∃ t : State, exec (.pldmBase c) s = .next t ∧ smbusSent s t (0x00 :: c :: Config.mctpBody (0x100 + c))) ∧
    (∀ n v : Nat, s.sensor n = some v → ∃ t : State, exec (.pldmSensorRead n) s = .next t ∧
      smbusSent s t ([0x02, 0x00] ++ leBytes 8 v ++ Config.mctpBody 0x211)) ∧
    (∀ n : Nat, s.sensor n = none → ∃ t : State, exec (.pldmSensorRead n) s = .next t ∧ smbusSent s t [0x02, 0x80]) ∧
    (∀ m : List Nat, s.roleOf 2 < 2 ∨ s.zen.booted = false ∨ s.zen.booting = true → ∃ t : State, exec (.pldmFirmwareUpdate m) s = .next t ∧ t.zen = s.zen ∧ smbusSent s t [0x05, 0x01]) ∧
    (∀ m : List Nat, 2 ≤ s.roleOf 2 → s.zen.booted = true → s.zen.booting = false →
      ∃ t : State, exec (.pldmFirmwareUpdate m) s = .next t ∧ (if s.zen.fwSlot = 0 then t.zen.slotB else t.zen.slotA) = m ∧
        (if s.zen.fwSlot = 0 then t.zen.slotA = s.zen.slotA else t.zen.slotB = s.zen.slotB) ∧ smbusSent s t [0x05, 0x00])) ∧
  (∀ (s : State) (c : Nat) (b : List Nat), s.pwr.held = false → b.length ≤ 16384 → s.fld (rZenMbStatus + mbOfs 2) 63 63 = 0 →
    exec (.vendorDefinedMailbox c b) s = .next (({ s with mbuf := memWrite s.mbuf (2 * 2 ^ 16) b } : State).issue 2 c b.length)) ∧
  (∀ (s : State) (n : Nat) (b : List Nat), s.pwr.held = true →
    ∀ c ∈ [(.setEndpointId n : Instr), .getEndpointId, .getMctpVersionSupport, .getMessageTypeSupport, .getVendorDefinedMessageSupport,
      .pldmBase n, .pldmSensorRead n, .pldmFirmwareUpdate b, .vendorDefinedMailbox n b], exec c s = .next s) ∧
  (∀ (s : State) (b : List Nat), s.pwr.held = false → s.fld (rZenMbStatus + mbOfs 2) 63 63 = 0 →
    ∃ t : State, exec (.vendorDefinedMailbox 0x01 b) s = .next t ∧ (b.length = 8 ∨ b = [] →
      t.agenda = s.agenda ++ [({ dom := none, at_ := s.clk.wall, act := .cmd (.status 2) } : Due)] ∧
      t.fld (rZenMbStatus + mbOfs 2) 63 63 = 1 ∧ t.fld (rZenMbCmd + mbOfs 2) 7 0 = 1 ∧ t.hbm = s.hbm ∧ t.store = s.store ∧
      t.mbuf = memWrite s.mbuf (2 * 2 ^ 16) b ∧
      t.lstore = s.lstore ∧ SameRegsBut [rZenMbStatus + mbOfs 2, rZenMbCmd + mbOfs 2] s t)))

/-- R515, R527, R544, R556, R572, R586, R589: outside Overcast, a write to a block of a partition that the port does not own is dropped and counted in
ZEN_FOREIGN, one to a partition in Clearing or quarantined in ZEN_CLEAR_REFUSED, one of a wrong size in HIF_BAD_ACCESS; a module held in reset, or a
sleeping function, takes none, and Overcast drops a write of what it does not leave answering. -/
def Obligations.WritesRefused : Prop :=
  ∀ (s : State) (h a size : Nat) (v : Word), h < 2 →
    (s.pwr.held = true ∨ (s.host h).d3 = true → exec (.registerWrite h a size v) s = .next s) ∧
    (s.pwrState = 5 → overcastOpen a = false → exec (.registerWrite h a size v) s = .next s) ∧
    (s.pwr.held = false → (s.host h).d3 = false → s.pwrState ≠ 5 →
      (size ≠ 8 → a < 0xF0000 → ∃ t : State, exec (.registerWrite h a size v) s = .next t ∧
        t.fld (rHifBadAccess + localStride * h) 47 0 = min (s.fld (rHifBadAccess + localStride * h) 47 0 + 1) (2 ^ 48 - 1) ∧ SameMem s t ∧
        SameRegsBut [rHifBadAccess + localStride * h] s t) ∧
      (size = 8 → a % 8 = 0 → 0x200000 ≤ a → a < 0x600000 →
        ((s.partOf ((a - 0x200000) / 0x100000)).all (fun k => s.owner k != h || (s.conf k && (s.host h).ideLeft)) = true →
          ∃ t : State, exec (.registerWrite h a size v) s = .next t ∧
            t.fld (rZenForeign h) 47 0 = min (s.fld (rZenForeign h) 47 0 + 1) (2 ^ 48 - 1) ∧ SameMem s t ∧ SameRegsBut [rZenForeign h] s t) ∧
        (∀ k, s.partOf ((a - 0x200000) / 0x100000) = some k → s.owner k = h → s.conf k = false → s.pstate k = 3 ∨ s.pstate k = 4 →
          ∃ t : State, exec (.registerWrite h a size v) s = .next t ∧
            t.fld (rZenClearRefused h) 47 0 = min (s.fld (rZenClearRefused h) 47 0 + 1) (2 ^ 48 - 1) ∧ SameMem s t ∧
            SameRegsBut [rZenClearRefused h] s t)))

/-- R17, R196, R233, R257, R268, R271, R590, R594: a served write of a register of a core that has no rule of its own: its RW bits take the value and its
W1C bits written 1 are cleared; the base of a ring that is enabled keeps its value; a cleared high-water mark of the tile queue starts from the level
that stands; a captured update fault's count goes with its VALID; an armed slot's base is dropped, with WRITE_DROPPED set; a freeze word is stored in
HBM while the beat goes on with the old; a schedule parameter waits; HIF_BAR2_BASE takes a multiple of the window or 0. R628: no bit is cleared while
the partition's dump is captured; the clauses that clear bits are stated outside a capture. R471, R472, R506, R529, R632, R635: a link reset that
nothing refuses is granted and follows at once; LNK_CTRL.ENABLE 0 holds a port dark, and 1 lets a dark connected port train; RELEASE invalidates the
selected dump slot for its owner and for no other; trace capture starts unless a partition is confidential, and stops when told. -/
def Obligations.RegistersWritten : Prop :=
  ((∀ (s : State) (h a : Nat) (v : Word) (r : RegRow), s.gate h a 8 true = .served → rowOf a = some r → 0x200000 ≤ a → a < 0x600000 →
    (s.deaf a = true ∨ s.ringCopy a = true → exec (.registerWrite h a 8 v) s = .next s) ∧
    (s.deaf a = false → s.ringCopy a = false →
      (a % 0x100000 = 0x3008 ∨ a % 0x100000 = 0x3010) → s.fld (rHifCrCtrl ((a - 0x200000) / 0x100000)) 63 63 = 1 →
      exec (.registerWrite h a 8 v) s = .next s) ∧
    (s.deaf a = false → s.captured (s.regKey h a) = false → a % 0x100000 = 0xA010 → ∃ t : State, exec (.registerWrite h a 8 v) s = .next t ∧
      s.fld (rVecStatus ((a - 0x200000) / 0x100000)) 22 16 ≤ t.fld (s.regKey h a) 6 0 ∧ SameMem s t ∧ SameRegsBut [s.regKey h a] s t) ∧
    (s.deaf a = false → s.captured (s.regKey h a) = false → a % 0x100000 = 0x8008 → getF v 63 63 = 1 → ∃ t : State, exec (.registerWrite h a 8 v) s = .next t ∧
      t.fld (s.regKey h a) 63 63 = 0 ∧ t.fld (s.regKey h a) 47 32 = 0 ∧ SameMem s t ∧ SameRegsBut [s.regKey h a] s t) ∧
    (s.deaf a = false → s.captured (s.regKey h a) = false → ¬(0x3000 ≤ a % 0x100000 ∧ a % 0x100000 < 0x3040) → ¬(0xC000 ≤ a % 0x100000 ∧ a % 0x100000 < 0xC600) →
      ¬(0x9000 ≤ a % 0x100000 ∧ a % 0x100000 < 0x9400) → ¬(0xB100 ≤ a % 0x100000 ∧ a % 0x100000 < 0xB900) →
      a % 0x100000 ∉ [0x8048, 0xA010, 0x8008, 0x7018] → ∃ t : State, exec (.registerWrite h a 8 v) s = .next t ∧
      t.reg (s.regKey h a) = (((s.reg (s.regKey h a) &&& ~~~(BitVec.ofNat 64 r.rw)) ||| (v &&& BitVec.ofNat 64 r.rw)) &&&
        ~~~(v &&& BitVec.ofNat 64 r.w1c)) ∧ SameMem s t ∧ SameRegsBut [s.regKey h a] s t)) ∧
  (∀ (s : State) (h k n : Nat) (v : Word), k < 4 → n < 64 →
    (s.gate h (rStrPsArm k n) 8 true = .served → s.captured (rStrPsArm k n) = false →
      ∃ t : State, exec (.persistentSlotArm h k n v) s = .next t ∧
        t.reg (rStrPsArm k n) = (((s.reg (rStrPsArm k n) &&& 0x7F00000000000000#64) ||| (v &&& 0x80FFFFFFFFFFFFFF#64)) &&&
          ~~~(v &&& 0x6000000000000000#64)) ∧ SameMem s t ∧ SameRegsBut [rStrPsArm k n] s t) ∧
    (∀ d : Bool, s.gate h (if d then rStrPsDst k n else rStrPsSrc k n) 8 true = .served →
      (s.fld (rStrPsArm k n) 63 63 = 1 → ∃ t : State, exec (.persistentBaseWrite h k n d v) s = .next t ∧ t.fld (rStrPsArm k n) 61 61 = 1 ∧
        SameMem s t ∧ SameRegsBut [rStrPsArm k n] s t) ∧
      (s.fld (rStrPsArm k n) 63 63 = 0 → ∃ t : State, exec (.persistentBaseWrite h k n d v) s = .next t ∧
        t.reg (if d then rStrPsDst k n else rStrPsSrc k n) = v &&& 0xFFFFFFFFFF#64 ∧ SameMem s t ∧
        SameRegsBut [if d then rStrPsDst k n else rStrPsSrc k n] s t))) ∧
  (∀ (s : State) (h k : Nat) (v : Word), k < 4 → s.gate h (rUpdFreezeData k) 8 true = .served →
    (∀ e ∈ (s.core k).freezePend, e.1 = (s.freezePlace k).1 → e.2.2 = true) → s.heldEnds (s.freezePlace k).2 8 = (0, 0) →
    ∃ t : State, exec (.freezeWrite h k v) s = .next t ∧ t.hbm = memWrite s.hbm (s.freezePlace k).2 (leBytes 8 v.toNat) ∧
      (t.core k).freezePend = (s.core k).freezePend ++ [((s.freezePlace k).1, BitVec.ofNat 64 (leNat (s.hbmRead (s.freezePlace k).2 8)), false)] ∧
      t.store = s.store ∧ t.lstore = s.lstore ∧ t.mbuf = s.mbuf ∧ SameRegsBut [] s t) ∧
  (∀ (s : State) (h k n o : Nat) (v : Word) (r : RegRow), k < 4 → n < 4 → o < 0x80 → s.gate h (rSchCtrl k n + o) 8 true = .served →
    rowOf (rSchCtrl k n + o) = some r →
    ∃ t : State, exec (.scheduleParameterWrite h k n o v) s = .next t ∧
      (0 < o → SMap.get (t.core k).schStaged (rSchCtrl k n + o) = some (v &&& BitVec.ofNat 64 r.rw)) ∧ SameMem s t ∧ SameRegsBut [] s t) ∧
  (∀ (s : State) (h : Nat) (v : Word), s.gate h rHifBar2Base 8 true = .served →
    ∃ t : State, exec (.bar2BaseWrite h v) s = .next t ∧
      t.reg (rHifBar2Base + localStride * h) = (if v.toNat / 8 * 8 % 2 ^ (s.host h).window = 0 then BitVec.ofNat 64 (v.toNat / 8 * 8) else 0#64) ∧
      SameMem s t ∧ SameRegsBut [rHifBar2Base + localStride * h] s t)) ∧
  ((∀ (s : State) (h p : Nat), p < 6 → s.gate h (rLnkCtrl p) 8 true = .served →
    (∀ c, s.maintConflict 5 p = some c → exec (.linkResetRequest h p) s = .next (s.maintRefuse 5 p c)) ∧
    (s.maintConflict 5 p = none →
      ∃ t : State, exec (.linkResetRequest h p) s = .next t ∧ { act := 5, scope := p } ∈ t.maint ∧
        t.agenda = s.agenda ++ [({ dom := none, at_ := s.clk.wall, act := .cmd (.linkReset p) } : Due)] ∧ SameMem s t ∧ SameRegsBut maintRegs s t)) ∧
  (∀ (s : State) (h p : Nat) (v : Word), p < 6 → s.gate h (rLnkCtrl p) 8 true = .served →
    (getF v 0 0 = 0 → ∃ t : State, exec (.linkEnable h p v) s = .next t ∧ t.fld (rLnkCtrl p) 0 0 = 0 ∧ t.linkState p = 0 ∧ (t.port p).tx = [] ∧
      SameMem s t ∧ SameRegsBut (rLnkCtrl p :: rLnkStatus p :: maintRegs) s t) ∧
    (getF v 0 0 = 1 → s.fld (rLnkCtrl p) 0 0 = 0 → s.linkState p = 0 → s.connected p = true → s.startPh ≠ 0 →
      (s.pwrState < 3 ∨ s.pwrState = 6) →
      ∃ t : State, exec (.linkEnable h p v) s = .next t ∧ t.fld (rLnkCtrl p) 0 0 = 1 ∧ t.linkState p = 1 ∧ (t.port p).trainStep = 1 ∧ SameMem s t ∧
        SameRegsBut [rLnkCtrl p, rLnkStatus p] s t) ∧
    (getF v 0 0 = 1 → s.fld (rLnkCtrl p) 0 0 = 1 → ∃ t : State, exec (.linkEnable h p v) s = .next t ∧ t.ports = s.ports ∧ SameMem s t ∧
      SameRegsBut [] s t)) ∧
  (∀ (s : State) (h : Nat) (v : Word), s.gate h rDbgDumpSel 8 true = .served → getF v 63 63 = 1 →
    (SMap.get s.dumps (getF v 3 0)).valid = true → (SMap.get s.dumps (getF v 3 0)).owner = h →
    ∃ t : State, exec (.dumpRelease h v) s = .next t ∧ (SMap.get t.dumps (getF v 3 0)).valid = false ∧
      (∀ n, n ≠ getF v 3 0 → SMap.get t.dumps n = SMap.get s.dumps n) ∧ t.fld (rDbgDumpSel + localStride * h) 3 0 = getF v 3 0 ∧
      SameMem s t ∧ SameRegsBut [rDbgDumpSel + localStride * h] s t) ∧
  (∀ (s : State) (h : Nat) (v : Word), s.gate h rDbgDumpSel 8 true = .served → getF v 63 63 = 0 ∨ (SMap.get s.dumps (getF v 3 0)).owner ≠ h →
    ∃ t : State, exec (.dumpRelease h v) s = .next t ∧ t.dumps = s.dumps ∧ t.fld (rDbgDumpSel + localStride * h) 3 0 = getF v 3 0 ∧
      SameMem s t ∧ SameRegsBut [rDbgDumpSel + localStride * h] s t) ∧
  (∀ (s : State) (h : Nat) (v : Word), s.gate h rDbgTraceCtrl 8 true = .served → getF v 63 63 = 0 →
    ∃ t : State, exec (.traceEnable h v) s = .next t ∧ t.fld rDbgTraceCtrl 63 63 = 0 ∧ t.reg rDbgTraceCtrl = v &&& 0xC0000000000000C7#64 ∧
      SameMem s t ∧ SameRegsBut [rDbgTraceCtrl] s t) ∧
  (∀ (s : State) (h : Nat) (v : Word), s.gate h rDbgTraceCtrl 8 true = .served → getF v 63 63 = 1 →
    (s.anyConf = true → exec (.traceEnable h v) s = .next s) ∧
    (s.anyConf = false → ∃ t : State, exec (.traceEnable h v) s = .next t ∧ t.fld rDbgTraceCtrl 63 63 = 1 ∧ t.reg rDbgTraceCtrl = v &&& 0xC0000000000000C7#64 ∧
      SameMem s t ∧ SameRegsBut [rDbgTraceCtrl] s t)))

/-- R272: a write to SCH_CTRL with a reserved DECAY, WARM or MULT code, or MILESTONES above 8, leaves that field as it was; its other fields take the
write. -/
def Obligations.ReservedScheduleRefused : Prop :=
  ∀ (s : State) (h k n : Nat) (v : Word), k < 4 → n < 4 → s.gate h (rSchCtrl k n) 8 true = .served →
    SMap.get (s.core k).schStaged (rSchCtrl k n) = none →
    ∃ (t : State) (w : Word), exec (.scheduleParameterWrite h k n 0 v) s = .next t ∧ SMap.get (t.core k).schStaged (rSchCtrl k n) = some w ∧
      getF w 63 32 = getF v 63 32 ∧
      getF w 15 12 = (if 8 < getF v 15 12 then s.fld (rSchCtrl k n) 15 12 else getF v 15 12) ∧
      getF w 11 8 = (if 8 < getF v 11 8 then s.fld (rSchCtrl k n) 11 8 else getF v 11 8) ∧
      getF w 7 4 = (if 6 ≤ getF v 7 4 then s.fld (rSchCtrl k n) 7 4 else getF v 7 4) ∧
      getF w 1 0 = (if getF v 1 0 = 3 then s.fld (rSchCtrl k n) 1 0 else getF v 1 0) ∧ SameMem s t ∧ SameRegsBut [] s t

/-- R314: a write of K_LOG2, KMIN_LOG2 or KMAX_LOG2 outside 4 to 10, or with KMIN_LOG2 > KMAX_LOG2, is refused, and the register keeps its value; any
other takes effect. -/
def Obligations.ThinningBoundsRefused : Prop :=
  ∀ (s : State) (h k n : Nat) (v : Word), k < 4 → n < 256 → s.gate h (rVecThinSeg k n) 8 true = .served →
    (getF v 3 0 < 4 ∨ 10 < getF v 3 0 ∨ getF v 11 8 < 4 ∨ 10 < getF v 11 8 ∨ getF v 15 12 < 4 ∨ 10 < getF v 15 12 ∨ getF v 15 12 < getF v 11 8 →
      exec (.registerWrite h (rVecThinSeg k n) 8 v) s = .next s) ∧
    (4 ≤ getF v 3 0 → getF v 3 0 ≤ 10 → 4 ≤ getF v 11 8 → getF v 11 8 ≤ getF v 15 12 → getF v 15 12 ≤ 10 →
      ∃ t : State, exec (.registerWrite h (rVecThinSeg k n) 8 v) s = .next t ∧ t.fld (rVecThinSeg k n) 3 0 = getF v 3 0 ∧
        t.fld (rVecThinSeg k n) 11 8 = getF v 11 8 ∧ t.fld (rVecThinSeg k n) 15 12 = getF v 15 12 ∧ SameMem s t ∧
        SameRegsBut [rVecThinSeg k n] s t)

/-- R480, R483, R505, R515, R530, R534, R544, R545, R572, R586, R591–R593: through BAR2 a port reads and writes the bytes of its own partitions that are
not confidential, and writes those of a confidential one whose stream is Secure; a line that fails its check is recovered first, and a stack that
takes no access now is asked again. A read of anything else answers all ones, and a write of it is dropped; what the port does not own is counted in
ZEN_FOREIGN, a write in Clearing in ZEN_CLEAR_REFUSED, and one of reserved space in the port's own counter. A module held in reset, or a sleeping
function, serves nothing, and in Overcast all of BAR2 reads as ones. -/
def Obligations.DeviceMemoryAccessed : Prop :=
  (∀ (s : State) (h off : Nat) (b : List Nat), h < 2 → s.pwr.held = false → (s.host h).d3 = false → s.pwrState ≠ 5 → b ≠ [] →
    (s.bar2Class h (s.bar2Addr h off) = .plain → s.stackHeld (s.bar2Addr h off) = false →
      s.bar2Addr h off % 2 ^ 36 + b.length ≤ 0xFB8000000 →
      (s.hbmBad (s.bar2Addr h off) b.length = false →
        ∃ t : State, exec (.bar2Read h off b.length false) s = .next t ∧
          t.outbox = s.outbox ++ [Output.readData h (s.hbmRead (s.bar2Addr h off) b.length)] ∧ t.agenda = s.agenda ∧ SameMem s t ∧
          SameRegsBut [] s t) ∧
      (s.hbmBad (s.bar2Addr h off) b.length = true → s.recoveries = [] →
        ∃ (t : State) (r : Recovery), exec (.bar2Read h off b.length false) s = .next t ∧ t.recoveries = [r] ∧ r.space = 0 ∧ r.host = some h ∧
          r.addr = s.badAddr (s.bar2Addr h off) b.length ∧ t.outbox = s.outbox ∧ SameMem s t)) ∧
    (s.bar2Class h (s.bar2Addr h off) = .plain ∨ (s.bar2Class h (s.bar2Addr h off) = .conf ∧ s.ideSecure h = true) →
      s.stackHeld (s.bar2Addr h off) = false → s.bar2Addr h off % 2 ^ 36 + b.length ≤ 0xFB8000000 →
      s.partBad (s.bar2Addr h off) b.length = none →
      ∃ t : State, exec (.bar2Write h off b) s = .next t ∧ t.hbm = memWrite s.hbm (s.bar2Addr h off) b ∧
        (∀ a, a < s.bar2Addr h off ∨ s.bar2Addr h off + b.length ≤ a → memGet t.hbm a = memGet s.hbm a) ∧ t.store = s.store ∧
        t.lstore = s.lstore ∧ t.mbuf = s.mbuf ∧ t.outbox = s.outbox ∧ t.agenda = s.agenda ∧ SameRegsBut [] s t) ∧
    (s.bar2Class h (s.bar2Addr h off) = .plain → s.stackHeld (s.bar2Addr h off) = true →
      (∃ t : State, exec (.bar2Read h off b.length false) s = .next t ∧
        t.agenda = s.agenda ++ [({ dom := none, at_ := s.clk.wall + 1, act := .cmd (.bar2Read h off b.length false) } : Due)] ∧
        t.outbox = s.outbox ∧ SameMem s t ∧ SameRegsBut [] s t) ∧
      ∃ t : State, exec (.bar2Write h off b) s = .next t ∧
        t.agenda = s.agenda ++ [({ dom := none, at_ := s.clk.wall + 1, act := .cmd (.bar2Write h off b) } : Due)] ∧ SameMem s t ∧
        SameRegsBut [] s t) ∧
    (s.bar2Class h (s.bar2Addr h off) = .conf →
      (∃ t : State, exec (.bar2Read h off b.length false) s = .next t ∧ t.outbox = s.outbox ++ [Output.readData h (List.replicate b.length 255)] ∧
        SameMem s t ∧ SameRegsBut [] s t) ∧
      (s.ideSecure h = false → ∃ t : State, exec (.bar2Write h off b) s = .next t ∧
        t.fld (rZenForeign h) 47 0 = min (s.fld (rZenForeign h) 47 0 + 1) (2 ^ 48 - 1) ∧ SameMem s t ∧ SameRegsBut [rZenForeign h] s t)) ∧
    (s.bar2Class h (s.bar2Addr h off) = .foreign →
      (∃ t : State, exec (.bar2Read h off b.length false) s = .next t ∧
        t.fld (rZenForeign h) 47 0 = min (s.fld (rZenForeign h) 47 0 + 1) (2 ^ 48 - 1) ∧
        t.outbox = s.outbox ++ [Output.readData h (List.replicate b.length 255)] ∧ SameMem s t ∧ SameRegsBut [rZenForeign h] s t) ∧
      ∃ t : State, exec (.bar2Write h off b) s = .next t ∧
        t.fld (rZenForeign h) 47 0 = min (s.fld (rZenForeign h) 47 0 + 1) (2 ^ 48 - 1) ∧ t.outbox = s.outbox ∧ SameMem s t ∧
        SameRegsBut [rZenForeign h] s t) ∧
    (s.bar2Class h (s.bar2Addr h off) = .clearing ∨ s.bar2Class h (s.bar2Addr h off) = .reserved →
      ∃ t : State, exec (.bar2Read h off b.length false) s = .next t ∧ t.outbox = s.outbox ++ [Output.readData h (List.replicate b.length 255)] ∧
        SameMem s t ∧ SameRegsBut [] s t) ∧
    (s.bar2Class h (s.bar2Addr h off) = .clearing →
      ∃ t : State, exec (.bar2Write h off b) s = .next t ∧
        t.fld (rZenClearRefused h) 47 0 = min (s.fld (rZenClearRefused h) 47 0 + 1) (2 ^ 48 - 1) ∧ SameMem s t ∧
        SameRegsBut [rZenClearRefused h] s t) ∧
    (s.bar2Class h (s.bar2Addr h off) = .reserved →
      ∃ t : State, exec (.bar2Write h off b) s = .next t ∧
        t.fld (rHifBar2Refused + localStride * h) 47 0 = min (s.fld (rHifBar2Refused + localStride * h) 47 0 + 1) (2 ^ 48 - 1) ∧
        SameMem s t ∧ SameRegsBut [rHifBar2Refused + localStride * h] s t)) ∧
  (∀ (s : State) (h off n : Nat) (b : List Nat),
    (s.pwr.held = true ∨ (s.host h).d3 = true → exec (.bar2Read h off n false) s = .next s ∧ exec (.bar2Write h off b) s = .next s) ∧
    (s.pwr.held = false → (s.host h).d3 = false → s.pwrState = 5 → n ≠ 0 →
      exec (.bar2Read h off n false) s = .next (s.out (.readData h (List.replicate n 255))) ∧ exec (.bar2Write h off b) s = .next s))

/-- R501–R503: while a checker test is granted on a stack, a whole line written through its test window is stored there, and a read answers the line and
records its CRC; a raw write goes to the line that MEM_TEST_CTRL names, with the check that MEM_TEST_CRC makes of it; a line that fails its check is
shown and reported; what is not a whole line is dropped; while none is granted a write is dropped and a read answers all ones. -/
def Obligations.TestWindowsRun : Prop :=
  ∀ (s : State) (h st off : Nat) (b : List Nat), st < 8 → s.pwr.held = false → (s.host h).d3 = false → s.pwrState ≠ 5 →
    (∀ w, s.partGate h w (s.stackPart st) = .served) →
    (s.testGranted st = false → exec (.testWindowWrite h st off b) s = .next s ∧
      ∃ t : State, exec (.testWindowRead h st off false) s = .next t ∧ t.outbox = s.outbox ++ [Output.readData h (List.replicate 256 255)] ∧ SameMem s t ∧
        SameRegsBut [] s t) ∧
    (s.testGranted st = true →
      (off % 256 = 0 → b.length = 256 → s.fld (rMemTestCtrl st) 8 8 = 0 →
        ∃ t : State, exec (.testWindowWrite h st off b) s = .next t ∧ t.hbm = memWrite s.hbm (testLine st (off / 256 % 256) * 256) b ∧
          t.store = s.store ∧ t.lstore = s.lstore ∧ t.mbuf = s.mbuf ∧ SameRegsBut [] s t) ∧
      (off % 256 ≠ 0 ∨ b.length ≠ 256 → exec (.testWindowWrite h st off b) s = .next s) ∧
      (off % 256 = 0 → b.length = 256 → s.fld (rMemTestCtrl st) 8 8 = 1 →
        ∃ t : State, exec (.testWindowWrite h st off b) s = .next t ∧
          t.hbm = memWrite s.hbm (testLine st (s.fld (rMemTestCtrl st) 7 0) * 256) b ∧
          SMap.get t.badLine (testLine st (s.fld (rMemTestCtrl st) 7 0)) = Nat.xor (s.fld (rMemTestCrc st) 31 0)
            (lineCrc b (testLine st (s.fld (rMemTestCtrl st) 7 0) % 2 ^ 28) % 2 ^ 32) ∧ t.store = s.store ∧
          t.lstore = s.lstore ∧ t.mbuf = s.mbuf ∧ SameRegsBut [] s t) ∧
      (SMap.get s.badLine (testLine st (off / 256 % 256)) ≠ 0 → s.evq.length < 1024 →
        ∃ (t : State) (e : EventRec), exec (.testWindowRead h st off false) s = .next t ∧
          t.outbox = s.outbox ++ [Output.readData h (s.hbmRead (testLine st (off / 256 % 256) * 256) 256)] ∧
          t.fld (rMemTestResult st) 62 62 = 1 ∧ t.evq = s.evq ++ [e] ∧ e.code = 0x0107 ∧ SameMem s t ∧
          SameRegsBut (rMemTestResult st :: eventRegs) s t) ∧
      (SMap.get s.badLine (testLine st (off / 256 % 256)) = 0 →
        ∃ t : State, exec (.testWindowRead h st off false) s = .next t ∧
          t.outbox = s.outbox ++ [Output.readData h (s.hbmRead (testLine st (off / 256 % 256) * 256) 256)] ∧
          t.reg (rMemTestResult st) = BitVec.ofNat 64 (2 ^ 63 + off / 256 % 256 * 2 ^ 32 +
            lineCrc (s.hbmRead (testLine st (off / 256 % 256) * 256) 256) (testLine st (off / 256 % 256) % 2 ^ 28) % 2 ^ 32) ∧ SameMem s t ∧
          SameRegsBut [rMemTestResult st] s t))

/-- Every step keeps the state's one canonical form: the four byte memories list rising addresses and no zero byte (R500's zeros are what an unlisted byte
reads as, log entry 2), and the registers are listed rising, none at its reset value. The form is the model's own. -/
def Obligations.CanonicalKept : Prop := ∀ s t : State, s.Canonical → step s = .next t → t.Canonical

/-- The state after reset is in canonical form, holds an empty queue, and no command waits. -/
def Obligations.ResetCanonical : Prop := State.reset.Canonical ∧ State.reset.pending = []

/-- The values that the register tables give for reset, where they are not zero (R7, R238, R349, R380, R412, R472, R616, R638), and the two of GLB_PORT
that name the port. -/
def Obligations.ResetValues : Prop :=
  State.reset.reg 0 = 0x1F6E9616C0020000#64 ∧ State.reset.reg 8 = 0x40400000000#64 ∧ State.reset.reg rGlbPort = 0#64 ∧
    State.reset.reg (rGlbPort + localStride) = 0x100#64 ∧
    (∀ k, k < 4 → State.reset.reg (rSeqHoldLimit k) = 100000#64 ∧ State.reset.reg (0x206000 + 0x100000 * k) = 0xC03#64 ∧
      State.reset.fld (rHifCrCtrl k) 3 0 = 4 ∧ State.reset.fld (rHifCqCtrl k) 3 0 = 4 ∧ State.reset.pstate k = 0) ∧
    (∀ u, u < 64 → State.reset.reg (rBarState u) = 0x3000000000#64) ∧ State.reset.reg rClkBeat = 0#64 ∧ State.reset.reg rPwrResetCause = 0#64 ∧
    State.reset.reg rZenRole = 0#64
end

