-- ==== Sys2Proof/Laws/Collections.lean ====
section
/-! SUPPORT. Collections by number and memories: what reading after writing gives, and that every operation keeps the canonical form. -/
namespace Sys2Proof.Machine

section
variable {α : Type} [Inhabited α] [DecidableEq α]

@[simp] theorem SMap.get_nil (k : Nat) : SMap.get ([] : SMap α) k = default := rfl

theorem SMap.get_erase (m : SMap α) (k j : Nat) : SMap.get (SMap.erase m k) j = if j = k then default else SMap.get m j := by
  induction m with
  | nil => simp [SMap.erase, SMap.get]
  | cons e r ih =>
    simp only [SMap.erase] at ih ⊢
    by_cases hk : e.1 = k <;> by_cases hj : e.1 = j <;> simp_all [SMap.get] <;> omega

theorem SMap.get_put (m : SMap α) (k : Nat) (v : α) (j : Nat) (hk : ∀ e ∈ m, e.1 ≠ k) :
    SMap.get (SMap.put m k v) j = if j = k then v else SMap.get m j := by
  induction m with
  | nil => simp [SMap.put, SMap.get, eq_comm]
  | cons e r ih =>
    have hf : e.1 ≠ k := hk e (List.mem_cons_self ..)
    have ih := ih fun a ha => hk a (List.mem_cons_of_mem _ ha)
    simp only [SMap.put]
    split <;> simp only [SMap.get, ih] <;> split_ifs <;> first | rfl | omega

theorem SMap.mem_erase (m : SMap α) (k : Nat) : ∀ e ∈ SMap.erase m k, e.1 ≠ k := by
  intro e he
  simpa [SMap.erase] using (List.mem_filter.mp he).2

/-- Reading an entry after setting one. -/
theorem SMap.get_set (m : SMap α) (k : Nat) (v : α) (j : Nat) : SMap.get (SMap.set m k v) j = if j = k then v else SMap.get m j := by
  unfold SMap.set
  split
  · rename_i h
    rw [SMap.get_erase]; split <;> simp [h]
  · rw [SMap.get_put _ _ _ _ (SMap.mem_erase m k), SMap.get_erase]
    by_cases hj : j = k <;> simp [hj]

@[simp] theorem SMap.get_set_same (m : SMap α) (k : Nat) (v : α) : SMap.get (SMap.set m k v) k = v := by simp [SMap.get_set]

@[simp] theorem SMap.get_set_ne (m : SMap α) {k j : Nat} (v : α) (h : j ≠ k) : SMap.get (SMap.set m k v) j = SMap.get m j := by
  simp [SMap.get_set, h]

@[simp] theorem SMap.get_mod_same (m : SMap α) (k : Nat) (f : α → α) : SMap.get (SMap.mod m k f) k = f (SMap.get m k) := by
  simp [SMap.mod]

@[simp] theorem SMap.get_mod_ne (m : SMap α) {k j : Nat} (f : α → α) (h : j ≠ k) : SMap.get (SMap.mod m k f) j = SMap.get m j := by
  simp [SMap.mod, h]

/-- The canonical form as a statement: numbers strictly rising, no entry the default. -/
def SMap.Canon (m : SMap α) : Prop := m.Pairwise (fun a b => a.1 < b.1) ∧ ∀ e ∈ m, e.2 ≠ default

theorem SMap.wf_cons (j : Nat) (v : α) (r : SMap α) :
    SMap.wf ((j, v) :: r) = true ↔ v ≠ default ∧ (∀ e ∈ r.head?, j < e.1) ∧ SMap.wf r = true := by
  cases r with
  | nil => simp [SMap.wf]
  | cons e r => obtain ⟨k, w⟩ := e; simp [SMap.wf, and_assoc]

/-- An entry below the first lies below all. -/
theorem SMap.head_all {m : List (Nat × α)} (hp : m.Pairwise (fun a b => a.1 < b.1)) (n : Nat) (h : ∀ e ∈ m.head?, n < e.1) : ∀ e ∈ m, n < e.1 := by
  cases m with
  | nil => simp
  | cons f r => exact List.forall_mem_cons.mpr ⟨h f rfl, fun a ha => (h f rfl).trans (List.rel_of_pairwise_cons hp ha)⟩

theorem SMap.wf_iff (m : SMap α) : SMap.wf m = true ↔ SMap.Canon m := by
  induction m with
  | nil => simp [SMap.wf, SMap.Canon]
  | cons e r ih =>
    rw [SMap.wf_cons, ih]
    simp only [SMap.Canon, List.pairwise_cons, List.forall_mem_cons]
    exact ⟨fun ⟨hv, hh, hp, hd⟩ => ⟨⟨SMap.head_all hp _ hh, hp⟩, hv, hd⟩,
      fun ⟨⟨hh, hp⟩, hv, hd⟩ => ⟨hv, fun a ha => hh a (List.mem_of_mem_head? ha), hp, hd⟩⟩

theorem SMap.canon_erase {m : SMap α} (h : SMap.Canon m) (k : Nat) : SMap.Canon (SMap.erase m k) :=
  ⟨h.1.filter _, fun e he => h.2 e (List.mem_filter.mp he).1⟩

theorem SMap.canon_filter {m : SMap α} (h : SMap.Canon m) (p : Nat × α → Bool) : SMap.Canon (m.filter p) :=
  ⟨h.1.filter _, fun e he => h.2 e (List.mem_filter.mp he).1⟩

theorem SMap.mem_put (m : SMap α) (k : Nat) (v : α) (e : Nat × α) (h : e ∈ SMap.put m k v) : e = (k, v) ∨ e ∈ m := by
  induction m with
  | nil => simpa [SMap.put] using h
  | cons f r ih =>
    simp only [SMap.put] at h
    split at h
    · simpa using h
    · rw [List.mem_cons] at h ⊢
      exact h.elim (fun h => .inr (.inl h)) fun h => (ih h).imp id .inr

/-- The canonical form of a collection with a first entry. -/
theorem SMap.canon_cons {e : Nat × α} {m : SMap α} : SMap.Canon (e :: m) ↔ (∀ a ∈ m, e.1 < a.1) ∧ e.2 ≠ default ∧ SMap.Canon m := by
  simp only [SMap.Canon, List.pairwise_cons, List.forall_mem_cons]; tauto

theorem SMap.canon_put {m : SMap α} (h : SMap.Canon m) {k : Nat} {v : α} (hv : v ≠ default) (hk : ∀ e ∈ m, e.1 ≠ k) :
    SMap.Canon (SMap.put m k v) := by
  induction m with
  | nil => simpa [SMap.put, SMap.Canon] using hv
  | cons f r ih =>
    obtain ⟨hlo, hd, hr⟩ := SMap.canon_cons.mp h
    obtain ⟨hf, hk⟩ := List.forall_mem_cons.mp hk
    simp only [SMap.put]
    split
    · exact SMap.canon_cons.mpr ⟨List.forall_mem_cons.mpr ⟨‹_›, fun a ha => lt_trans ‹_› (hlo a ha)⟩, hv, h⟩
    · exact SMap.canon_cons.mpr ⟨fun a ha => (SMap.mem_put r k v a ha).elim (fun e => by subst e; show f.1 < k; omega) (hlo a), hd, ih hr hk⟩

/-- Setting an entry keeps the canonical form. -/
theorem SMap.canon_set {m : SMap α} (h : SMap.Canon m) (k : Nat) (v : α) : SMap.Canon (SMap.set m k v) := by
  unfold SMap.set
  split
  · exact SMap.canon_erase h k
  · rename_i hv
    exact SMap.canon_put (SMap.canon_erase h k) hv (SMap.mem_erase m k)

/-- Setting an entry keeps the canonical form, as the check says it. -/
theorem SMap.wf_set {m : SMap α} (h : SMap.wf m = true) (k : Nat) (v : α) : SMap.wf (SMap.set m k v) = true :=
  (SMap.wf_iff _).mpr (SMap.canon_set ((SMap.wf_iff _).mp h) k v)

/-- Taking entries away keeps the canonical form. -/
theorem SMap.wf_filter {m : SMap α} (h : SMap.wf m = true) (p : Nat × α → Bool) : SMap.wf (m.filter p) = true :=
  (SMap.wf_iff _).mpr (SMap.canon_filter ((SMap.wf_iff _).mp h) p)

theorem SMap.wf_mod {m : SMap α} (h : SMap.wf m = true) (k : Nat) (f : α → α) : SMap.wf (SMap.mod m k f) = true := SMap.wf_set h k _

end

/-- A byte read after a byte was written. -/
theorem memGet_memSet (m : List Host.Cell) (a b j : Nat) : memGet (memSet m a b) j = if j = a then b % 256 else memGet m j := by
  unfold memGet memSet
  rw [SMap.get_set]
  split <;> simp

/-- A byte outside what was written is as before, and one inside is the byte written. -/
theorem memGet_memWrite (bs : List Nat) : ∀ (m : List Host.Cell) (a j : Nat),
    memGet (memWrite m a bs) j = if a ≤ j ∧ j < a + bs.length then bs.getD (j - a) 0 % 256 else memGet m j := by
  induction bs with
  | nil =>
    intro m a j
    have h : ¬ (a ≤ j ∧ j < a + ([] : List Nat).length) := by simp
    rw [if_neg h]; rfl
  | cons b bs ih =>
    intro m a j
    simp only [memWrite, ih, memGet_memSet, List.length_cons]
    by_cases h1 : a + 1 ≤ j ∧ j < a + 1 + bs.length
    · have h2 : a ≤ j ∧ j < a + (bs.length + 1) := by omega
      have h3 : j - a = (j - (a + 1)) + 1 := by omega
      simp [h1, h2, h3]
    · by_cases h4 : j = a
      · subst h4; simp
      · have h2 : ¬ (a ≤ j ∧ j < a + (bs.length + 1)) := by omega
        rw [if_neg h1, if_neg h2, if_neg h4]

/-- Writing one byte keeps a memory's canonical form. -/
theorem Memory.wf_memSet {m : List Host.Cell} (h : Memory.wf m = true) (a b : Nat) : Memory.wf (memSet m a b) = true :=
  SMap.wf_set (α := Byte) h a _

/-- Writing bytes keeps a memory's canonical form. -/
theorem Memory.wf_memWrite (bs : List Nat) : ∀ {m : List Host.Cell} (a : Nat), Memory.wf m = true → Memory.wf (memWrite m a bs) = true := by
  induction bs with
  | nil => intro m a h; exact h
  | cons b bs ih => intro m a h; exact ih (a + 1) (Memory.wf_memSet h a b)

/-- Taking bytes out of a memory keeps its canonical form. -/
theorem Memory.wf_filter {m : List Host.Cell} (h : Memory.wf m = true) (p : Host.Cell → Bool) : Memory.wf (m.filter p) = true :=
  SMap.wf_filter (α := Byte) h p

end Sys2Proof.Machine
end

