-- ==== Sys2Proof/Laws/Registers.lean ====
section
/-! SUPPORT. Registers and their fields: what reading after writing gives, and that writing a register changes that register alone. -/
namespace Sys2Proof.Machine

/-- Bits of a field. -/
theorem testBit_getF (w : Word) (hi lo i : Nat) : (getF w hi lo).testBit i = (decide (i < hi + 1 - lo) && w.getLsbD (lo + i)) := by
  simp [getF, Nat.testBit_mod_two_pow, Nat.testBit_div_two_pow, BitVec.getLsbD, Nat.add_comm]

theorem getLsbD_maskF (hi lo i : Nat) (hi64 : hi < 64) (hlo : lo ≤ hi) :
    (maskF hi lo).getLsbD i = (decide (lo ≤ i) && decide (i ≤ hi)) := by
  have hle : 2 ^ lo ≤ 2 ^ (hi + 1) := Nat.pow_le_pow_right (by omega) (by omega)
  have h : 2 ^ (hi + 1) - 2 ^ lo = (2 ^ (hi + 1 - lo) - 1) * 2 ^ lo := by
    rw [Nat.sub_mul, ← pow_add]; simp only [one_mul]; congr 2; omega
  unfold maskF
  rw [BitVec.getLsbD_ofNat, h, Nat.testBit_mul_two_pow]
  by_cases h1 : lo ≤ i
  · by_cases h2 : i ≤ hi
    · simp [h1, h2, Nat.testBit_two_pow_sub_one]; omega
    · simp [h1, h2, Nat.testBit_two_pow_sub_one]; omega
  · simp [h1]

theorem getLsbD_setF (w : Word) (hi lo v i : Nat) (hi64 : hi < 64) (hlo : lo ≤ hi) (h : i < 64) :
    (setF w hi lo v).getLsbD i = if lo ≤ i ∧ i ≤ hi then v.testBit (i - lo) else w.getLsbD i := by
  unfold setF
  rw [BitVec.getLsbD_or, BitVec.getLsbD_and, BitVec.getLsbD_not, getLsbD_maskF hi lo i hi64 hlo, BitVec.getLsbD_shiftLeft,
    BitVec.getLsbD_ofNat, Nat.testBit_mod_two_pow]
  by_cases h1 : lo ≤ i
  · by_cases h2 : i ≤ hi
    · have h3 : i - lo < 64 := by omega
      have h4 : i - lo < hi + 1 - lo := by omega
      simp [h1, h2, h3, h4, h]
    · have h4 : ¬ (i - lo < hi + 1 - lo) := by omega
      simp [h1, h2, h4, h]
  · have h5 : i < lo := by omega
    simp [h1, h5, h]

/-- A field just set reads as the value it was given. -/
theorem getF_setF_same (w : Word) (hi lo v : Nat) (hi64 : hi < 64) (hlo : lo ≤ hi) :
    getF (setF w hi lo v) hi lo = v % 2 ^ (hi + 1 - lo) := by
  apply Nat.eq_of_testBit_eq
  intro i
  rw [testBit_getF, Nat.testBit_mod_two_pow]
  by_cases h : i < hi + 1 - lo
  · rw [getLsbD_setF w hi lo v (lo + i) hi64 hlo (by omega)]
    have h1 : lo ≤ lo + i ∧ lo + i ≤ hi := by omega
    simp [h, h1]
  · simp [h]

/-- A field is unchanged when another field of the register, which shares no bit with it, is set. -/
theorem getF_setF_disjoint (w : Word) (hi lo v hi' lo' : Nat) (hi64 : hi < 64) (hlo : lo ≤ hi) (hi64' : hi' < 64)
    (h : hi < lo' ∨ hi' < lo) : getF (setF w hi lo v) hi' lo' = getF w hi' lo' := by
  apply Nat.eq_of_testBit_eq
  intro i
  rw [testBit_getF, testBit_getF]
  by_cases hi : i < hi' + 1 - lo'
  · rw [getLsbD_setF w _ lo v (lo' + i) hi64 hlo (by omega), if_neg (by omega)]
  · simp [hi]

/-- A field is below the power of two of its width. -/
theorem getF_lt (w : Word) (hi lo : Nat) : getF w hi lo < 2 ^ (hi + 1 - lo) := Nat.mod_lt _ (Nat.two_pow_pos _)

theorem regFind_erase (l : List (Nat × Word)) (k j : Nat) : regFind (SMap.erase l k) j = if j = k then none else regFind l j := by
  induction l with
  | nil => simp [SMap.erase, regFind]
  | cons e r ih =>
    obtain ⟨i, v⟩ := e
    simp only [SMap.erase] at ih ⊢
    by_cases h : i = k
    · subst h
      simp only [List.filter_cons, bne_self_eq_false, Bool.false_eq_true, if_false, ih, regFind]
      by_cases hj : j = i
      · simp [hj]
      · simp [hj, Ne.symm hj]
    · have hb : (i != k) = true := by simpa using h
      simp only [List.filter_cons, hb, if_true, regFind, ih]
      by_cases hij : i = j
      · subst hij; simp [h]
      · simp [hij]

theorem regFind_put (l : List (Nat × Word)) (k : Nat) (v : Word) (j : Nat) (hk : ∀ e ∈ l, e.1 ≠ k) :
    regFind (SMap.put l k v) j = if j = k then some v else regFind l j := by
  induction l with
  | nil =>
    simp only [SMap.put, regFind]
    by_cases hj : j = k
    · simp [hj]
    · simp [hj, Ne.symm hj]
  | cons e r ih =>
    obtain ⟨i, w⟩ := e
    have hik : i ≠ k := hk (i, w) (by simp)
    simp only [SMap.put]
    split
    · simp only [regFind]
      by_cases hj : j = k
      · simp [hj]
      · simp [hj, Ne.symm hj]
    · simp only [regFind]
      by_cases hij : i = j
      · subst hij; simp [hik]
      · simp only [hij, if_false]
        exact ih fun e he => hk e (by simp [he])

theorem mem_erase_ne (l : List (Nat × Word)) (k : Nat) : ∀ e ∈ SMap.erase l k, e.1 ≠ k := by
  intro e he
  simpa [SMap.erase] using (List.mem_filter.mp he).2

/-- A register read after a register was written. -/
theorem State.reg_setReg (s : State) (k : Nat) (v : Word) (j : Nat) : (s.setReg k v).reg j = if j = k then v else s.reg j := by
  unfold State.reg State.setReg
  by_cases h : v = resetWord k
  · simp only [h, if_true]
    rw [regFind_erase]
    by_cases hj : j = k <;> simp [hj]
  · simp only [h, if_false]
    rw [regFind_put _ _ _ _ (mem_erase_ne s.regs k), regFind_erase]
    by_cases hj : j = k <;> simp [hj]

@[simp] theorem State.reg_setReg_same (s : State) (k : Nat) (v : Word) : (s.setReg k v).reg k = v := by simp [State.reg_setReg]

theorem State.reg_setReg_ne (s : State) {k j : Nat} (v : Word) (h : j ≠ k) : (s.setReg k v).reg j = s.reg j := by
  simp [State.reg_setReg, h]

theorem State.reg_setFld_ne (s : State) {k j : Nat} (hi lo v : Nat) (h : j ≠ k) : (s.setFld k hi lo v).reg j = s.reg j :=
  State.reg_setReg_ne s _ h

/-- A field of a register just set. -/
theorem State.fld_setFld_same (s : State) (k hi lo v : Nat) (hi64 : hi < 64) (hlo : lo ≤ hi) :
    (s.setFld k hi lo v).fld k hi lo = v % 2 ^ (hi + 1 - lo) := by
  simp [State.fld, State.setFld, getF_setF_same _ _ _ _ hi64 hlo]

/-- A field of another register is unchanged. -/
theorem State.fld_setFld_ne (s : State) {k j : Nat} (hi lo v hi' lo' : Nat) (h : j ≠ k) :
    (s.setFld k hi lo v).fld j hi' lo' = s.fld j hi' lo' := by
  simp [State.fld, State.reg_setFld_ne s hi lo v h]

/-- Another field of the same register is unchanged. -/
theorem State.fld_setFld_disjoint (s : State) (k hi lo v hi' lo' : Nat) (hi64 : hi < 64) (hlo : lo ≤ hi) (hi64' : hi' < 64)
    (h : hi < lo' ∨ hi' < lo) : (s.setFld k hi lo v).fld k hi' lo' = s.fld k hi' lo' := by
  simp [State.fld, State.setFld, getF_setF_disjoint _ _ _ _ _ _ hi64 hlo hi64' h]

theorem State.fld_setReg_ne (s : State) {k j : Nat} (v : Word) (hi lo : Nat) (h : j ≠ k) :
    (s.setReg k v).fld j hi lo = s.fld j hi lo := by simp [State.fld, State.reg_setReg_ne s v h]

/-- A counter raised below its limit goes up by exactly that much (R92, R633). -/
theorem State.fld_bumpF_same (s : State) (k hi lo n : Nat) (hi64 : hi < 64) (hlo : lo ≤ hi) :
    (s.bumpF k hi lo n).fld k hi lo = min (s.fld k hi lo + n) (2 ^ (hi + 1 - lo) - 1) := by
  rw [State.bumpF, State.fld_setFld_same _ _ _ _ _ hi64 hlo]
  apply Nat.mod_eq_of_lt
  have := Nat.two_pow_pos (hi + 1 - lo)
  omega

theorem State.fld_bumpF_ne (s : State) {k j : Nat} (hi lo n hi' lo' : Nat) (h : j ≠ k) :
    (s.bumpF k hi lo n).fld j hi' lo' = s.fld j hi' lo' := State.fld_setFld_ne s hi lo _ hi' lo' h

theorem State.reg_bumpF_ne (s : State) {k j : Nat} (hi lo n : Nat) (h : j ≠ k) : (s.bumpF k hi lo n).reg j = s.reg j :=
  State.reg_setFld_ne s hi lo _ h

theorem State.fld_bump_same (s : State) (k n : Nat) : (s.bump k n).fld k 47 0 = min (s.fld k 47 0 + n) (2 ^ 48 - 1) :=
  State.fld_bumpF_same s k 47 0 n (by omega) (by omega)

/-- A register that is not listed holds its reset value (R17). -/
theorem State.reg_reset (k : Nat) : State.reset.reg k = resetWord k := rfl

end Sys2Proof.Machine
end

