-- ==== Sys2Proof/Laws/Ops.lean ====
section
/-! SUPPORT. One lemma per shared operation: what it may change. An operation that only reports (events, records, faults, Lull requests)
leaves every memory, the queue and the agenda alone, keeps the registers canonical and writes the registers named here at most; each write
of a memory keeps the state canonical and changes the bytes written alone. -/
namespace Sys2Proof.Machine

/-- From s to t no memory, no waiting command and no scheduled effect differs, the registers stay canonical, and none differs but those
of P. -/
structure Reports (P : Nat → Prop) (s t : State) : Prop where
  hbm : t.hbm = s.hbm
  store : t.store = s.store
  lstore : t.lstore = s.lstore
  mbuf : t.mbuf = s.mbuf
  pending : t.pending = s.pending
  agenda : t.agenda = s.agenda
  regsOk : s.RegsOk → t.RegsOk
  reg : ∀ r, ¬ P r → t.reg r = s.reg r

namespace Reports
variable {P Q : Nat → Prop} {s t u : State}

/-- Nothing done reports. -/
theorem refl (s : State) : Reports P s s := ⟨rfl, rfl, rfl, rfl, rfl, rfl, id, fun _ _ => rfl⟩

/-- Two reports in a row. -/
theorem trans (h : Reports P s t) (g : Reports P t u) : Reports P s u :=
  ⟨g.hbm.trans h.hbm, g.store.trans h.store, g.lstore.trans h.lstore, g.mbuf.trans h.mbuf, g.pending.trans h.pending,
    g.agenda.trans h.agenda, fun o => g.regsOk (h.regsOk o), fun r hr => (g.reg r hr).trans (h.reg r hr)⟩

/-- More registers may differ. -/
theorem mono (h : Reports P s t) (g : ∀ r, P r → Q r) : Reports Q s t :=
  ⟨h.hbm, h.store, h.lstore, h.mbuf, h.pending, h.agenda, h.regsOk, fun r hr => h.reg r fun p => hr (g r p)⟩

/-- A change of nothing that a report speaks of. -/
theorem of_eq (h1 : t.hbm = s.hbm) (h2 : t.store = s.store) (h3 : t.lstore = s.lstore) (h4 : t.mbuf = s.mbuf) (h5 : t.pending = s.pending)
    (h6 : t.agenda = s.agenda) (h7 : t.regs = s.regs) : Reports P s t :=
  ⟨h1, h2, h3, h4, h5, h6, fun o => by unfold State.RegsOk; rw [h7]; exact o, fun r _ => by unfold State.reg; rw [h7]⟩

/-- The canonical form is kept. -/
theorem canonical (h : Reports P s t) (c : s.Canonical) : t.Canonical :=
  ⟨by unfold State.MemOk; rw [h.hbm, h.store, h.lstore, h.mbuf]; exact c.1, h.regsOk c.2⟩

/-- No byte of memory differs. -/
theorem sameMem (h : Reports P s t) : SameMem s t := by
  refine ⟨fun a => ?_, fun a => ?_, fun a => ?_, fun a => ?_⟩
  · rw [h.hbm]
  · rw [h.store]
  · rw [h.lstore]
  · rw [h.mbuf]

/-- Reports over a list. -/
theorem foldl {α : Type} {f : State → α → State} (h : ∀ s a, Reports P s (f s a)) (l : List α) : ∀ s, Reports P s (l.foldl f s) := by
  induction l with
  | nil => exact fun s => refl s
  | cons a l ih => exact fun s => (h s a).trans (ih _)

end Reports

/-- Writing a register keeps the list of registers canonical. -/
theorem State.regsOk_setReg {s : State} (h : s.RegsOk) (k : Nat) (v : Word) : (s.setReg k v).RegsOk := by
  have he : (SMap.erase s.regs k).Pairwise (fun a b => a.1 < b.1) ∧ ∀ e ∈ SMap.erase s.regs k, e.2 ≠ resetWord e.1 :=
    ⟨h.1.filter _, fun e m => h.2 e (List.mem_filter.mp m).1⟩
  unfold State.setReg State.RegsOk
  split
  · exact he
  · rename_i hv
    have put : ∀ m : List (Nat × Word), (∀ e ∈ m, e.1 ≠ k) → m.Pairwise (fun a b => a.1 < b.1) → (SMap.put m k v).Pairwise fun a b => a.1 < b.1 := by
      intro m hk hp
      induction m with
      | nil => simp [SMap.put]
      | cons f r ih =>
        have hc := List.pairwise_cons.mp hp
        have hf := hk f (by simp)
        obtain ⟨j, w⟩ := f
        simp only [SMap.put]
        split
        · rename_i hlt
          refine List.pairwise_cons.mpr ⟨fun e m => ?_, hp⟩
          rcases List.mem_cons.mp m with rfl | m
          · exact hlt
          · exact lt_trans hlt (hc.1 e m)
        · rename_i hlt
          refine List.pairwise_cons.mpr ⟨fun e m => ?_, ih (fun e m => hk e (by simp [m])) hc.2⟩
          rcases SMap.mem_put r k v e m with rfl | m
          · show j < k
            have : j ≠ k := hf
            omega
          · exact hc.1 e m
    refine ⟨put _ (mem_erase_ne s.regs k) he.1, fun e m => ?_⟩
    rcases SMap.mem_put _ k v e m with rfl | m
    · exact hv
    · exact he.2 e m

namespace Reports
variable {P : Nat → Prop}

/-- A register written. -/
theorem setReg (s : State) {k : Nat} (v : Word) (h : P k) : Reports P s (s.setReg k v) :=
  ⟨rfl, rfl, rfl, rfl, rfl, rfl, fun o => State.regsOk_setReg o k v,
    fun r hr => State.reg_setReg_ne s v fun e => hr (by rw [e]; exact h)⟩

/-- A field written. -/
theorem setFld (s : State) {k : Nat} (hi lo v : Nat) (h : P k) : Reports P s (s.setFld k hi lo v) := setReg s _ h

/-- A counter raised. -/
theorem bump (s : State) {k : Nat} (n : Nat) (h : P k) : Reports P s (s.bump k n) := setReg s _ h

/-- Records of the parts changed. -/
theorem modCore (s : State) (k : Nat) (f : Core → Core) : Reports P s (s.modCore k f) := of_eq rfl rfl rfl rfl rfl rfl rfl
theorem modArr (s : State) (k : Nat) (f : ArrayDyn → ArrayDyn) : Reports P s (s.modArr k f) := of_eq rfl rfl rfl rfl rfl rfl rfl
theorem modPart (s : State) (k : Nat) (f : Part → Part) : Reports P s (s.modPart k f) := of_eq rfl rfl rfl rfl rfl rfl rfl
theorem modPort (s : State) (k : Nat) (f : PortDyn → PortDyn) : Reports P s (s.modPort k f) := of_eq rfl rfl rfl rfl rfl rfl rfl
theorem modHost (s : State) (k : Nat) (f : HostPort → HostPort) : Reports P s (s.modHost k f) := of_eq rfl rfl rfl rfl rfl rfl rfl
theorem modCtx (s : State) (k c : Nat) (f : Ctx → Ctx) : Reports P s (s.modCtx k c f) := of_eq rfl rfl rfl rfl rfl rfl rfl
theorem out (s : State) (o : Output) : Reports P s (s.out o) := of_eq rfl rfl rfl rfl rfl rfl rfl

/-- A trace record (R634). -/
theorem traceRec (s : State) (typ source payload : Nat) : Reports (· = rDbgStatus) s (s.traceRec typ source payload) := by
  unfold State.traceRec
  dsimp only
  split
  · exact refl s
  · split
    · exact setFld s _ _ _ rfl
    · have h : ∀ l v, Reports (· = rDbgStatus) s (({ s with trace := { records := l } } : State).setFld rDbgStatus 15 0 v) := fun l v =>
        Reports.trans (t := { s with trace := { records := l } }) (of_eq rfl rfl rfl rfl rfl rfl rfl) (setFld _ _ _ _ rfl)
      exact h _ _

/-- An event (R403). -/
theorem raise (s : State) (e : EventRec) : Reports (· ∈ eventRegs) s (s.raise e) := by
  unfold State.raise
  dsimp only
  have h := (traceRec s 0 e.source (eventWord e)).mono (Q := (· ∈ eventRegs)) fun r hr => by simp [eventRegs, hr]
  split
  · exact h.trans (of_eq rfl rfl rfl rfl rfl rfl rfl)
  · exact (h.trans (bump _ 1 (by simp [eventRegs]))).trans (of_eq rfl rfl rfl rfl rfl rfl rfl)

theorem eventCore (s : State) (j code detail ext : Nat) : Reports (· ∈ eventRegs) s (s.eventCore j code detail ext) := raise s _
theorem eventStack (s : State) (j code detail ext : Nat) : Reports (· ∈ eventRegs) s (s.eventStack j code detail ext) := raise s _
theorem eventPort (s : State) (j code detail ext : Nat) : Reports (· ∈ eventRegs) s (s.eventPort j code detail ext) := raise s _
theorem eventDie (s : State) (j code detail ext : Nat) : Reports (· ∈ eventRegs) s (s.eventDie j code detail ext) := raise s _

/-- An MSI-X vector (R604): no register differs. -/
theorem msix (s : State) (h v : Nat) : Reports P s (s.msix h v) := by
  unfold State.msix
  split
  · exact refl s
  · split
    · exact modHost _ _ _
    · split
      · exact modHost _ _ _
      · exact out _ _

/-- A completion record written (R602): PROD alone differs. -/
theorem writeRecord (s : State) (k : Nat) (r : List Nat) (vector : Bool) : Reports (· = rHifCqStatus k) s (s.writeRecord k r vector) := by
  unfold State.writeRecord
  dsimp only
  have h : ∀ o v, Reports (· = rHifCqStatus k) s ((s.out o).setFld (rHifCqStatus k) 63 32 v) := fun o v => (out s o).trans (setFld _ _ _ _ rfl)
  split
  · exact (h _ _).trans (msix _ _ _)
  · exact h _ _

/-- A completion record produced (R602): HIF_CQ_STATUS and what an event changes alone differ. -/
theorem putRecord (s : State) (k kind status seqno step token count : Nat) (vector : Bool) :
    Reports (fun r => r = rHifCqStatus k ∨ r ∈ eventRegs) s (s.putRecord k kind status seqno step token count vector) := by
  unfold State.putRecord
  dsimp only
  split
  · exact (writeRecord s k _ vector).mono fun _ h => .inl h
  · split
    · exact (modPart _ _ _).trans (setFld _ _ _ _ (.inl rfl))
    · split
      · rename_i hk
        split
        · exact msix _ _ _
        · exact ((msix _ _ _).trans (setFld _ _ _ _ (.inl rfl))).trans ((eventCore _ _ _ _ _).mono fun _ h => .inr h)
      · split
        · exact refl s
        · exact (setFld _ _ _ _ (.inl rfl)).trans ((eventCore _ _ _ _ _).mono fun _ h => .inr h)

/-- The waiting records written (R602). -/
theorem drainRecords (k n : Nat) : ∀ s, Reports (· = rHifCqStatus k) s (State.drainRecords k n s) := by
  induction n with
  | zero => exact fun s => refl s
  | succ n ih =>
    intro s
    unfold State.drainRecords
    split
    · exact refl s
    · split
      · exact (((modPart _ _ _).trans (writeRecord _ _ _ _)).trans (setFld _ _ _ _ rfl)).trans (ih _)
      · exact refl s

/-- The registers that stopping a partition and capturing a fault may change (R377, R380, R600, R602, R625). -/
def faultReg (r : Nat) : Prop :=
  (∃ j, r = rSeqCtxStatus j) ∨ (∃ j, r = rSeqFaultCycle j) ∨ (∃ k, r = rZenPart k) ∨ (∃ k, r = rHifCrStatus k) ∨ (∃ k, r = rHifCqStatus k) ∨
    r ∈ eventRegs

/-- A partition that is to stop at the end of the cycle (R377): no register changes yet. -/
theorem stopPartition (s : State) (k code : Nat) (trigger : List Nat) {P : Nat → Prop} : Reports P s (s.stopPartition k code trigger) := by
  unfold State.stopPartition
  split
  · exact refl s
  · exact modPart s k _

/-- A partition stopped (R377, R625). -/
theorem stopNow (s : State) (k code : Nat) (trigger : List Nat) : Reports faultReg s (s.stopNow k code trigger) := by
  unfold State.stopNow
  dsimp only
  refine trans ?_ ((putRecord _ k _ _ _ _ _ _ _).mono ?_)
  · refine trans (trans (trans (foldl (fun s j => ?_) _ s) (setFld _ _ _ _ (.inr (.inr (.inl ⟨k, rfl⟩))))) (modPart _ _ _))
      (setFld _ _ _ _ (.inr (.inr (.inr (.inl ⟨k, rfl⟩)))))
    refine trans ?_ ((setFld _ _ _ _ (.inl ⟨j, rfl⟩)).trans (foldl (fun s c => modCtx s j c _) _ _))
    split
    · exact setFld s _ _ _ (.inl ⟨j, rfl⟩)
    · exact refl s
  · rintro r (h | h)
    · exact .inr (.inr (.inr (.inr (.inl ⟨k, h⟩))))
    · exact .inr (.inr (.inr (.inr (.inr h))))

/-- A fault captured (R377, R380). -/
theorem captureFault (s : State) (j code : Nat) (c : Option Nat) (instr : Nat) : Reports faultReg s (s.captureFault j code c instr) := by
  unfold State.captureFault
  dsimp only
  generalize (if c.isSome = true then j else s.lowest j) = j'
  split
  · exact refl s
  · exact trans (trans (trans (trans (trans (setFld _ _ _ _ (.inl ⟨_, rfl⟩)) (setFld _ _ _ _ (.inl ⟨_, rfl⟩))) (setFld _ _ _ _ (.inl ⟨_, rfl⟩)))
      (setFld _ _ _ _ (.inl ⟨_, rfl⟩))) (setFld _ _ _ _ (.inl ⟨_, rfl⟩))) (setReg _ _ (.inr (.inl ⟨_, rfl⟩)))

/-- A context stopped (R260, R344, R625). -/
theorem stopContext (s : State) (j c code : Nat) (trigger : List Nat) : Reports faultReg s (s.stopContext j c code trigger) := by
  unfold State.stopContext
  dsimp only
  split
  · exact ((modCtx _ _ _ _).trans (setFld _ _ _ _ (.inl ⟨_, rfl⟩))).trans (stopPartition _ _ _ _)
  · exact (modCtx _ _ _ _).trans (setFld _ _ _ _ (.inl ⟨_, rfl⟩))

/-- A run-time fault (R376, R377, R626). -/
theorem fault (s : State) (j code : Nat) (c : Option Nat) (instr ext detail source : Nat) :
    Reports faultReg s (s.fault j code c instr ext detail source) := by
  unfold State.fault
  dsimp only
  generalize ({ code := code, sev := severityOf code true, source := source, part := s.lowest j, ctx := c.getD 0xFF, detail := detail, ext := ext } :
    EventRec) = e
  have h := (raise s e).mono (Q := faultReg) fun r h => .inr (.inr (.inr (.inr (.inr h))))
  generalize s.raise e = t at h
  generalize s.entryAs e _ = trig
  refine trans h ?_
  split
  · exact refl _
  · have h' := (modPart (P := faultReg) t (s.lowest j) fun p => { p with first := p.first.or (some (code, trig)) }).trans (captureFault _ j code c instr)
    refine trans h' ?_
    cases c with
    | none => exact stopPartition _ _ _ _
    | some c =>
      dsimp only
      split
      · exact stopContext _ _ _ _ _
      · exact stopPartition _ _ _ _

theorem faultCtx (s : State) (j c code ext : Nat) : Reports faultReg s (s.faultCtx j c code ext) := fault s j code _ _ _ _ _

/-- SEM_FAULT captured (R420). -/
theorem semFault (s : State) (j kind c logical : Nat) : Reports (· = rSemFault j) s (s.semFault j kind c logical) := by
  unfold State.semFault
  dsimp only
  split
  · exact refl s
  · have h : ∀ (t : State) hi lo v, Reports (· = rSemFault j) t (t.setFld (rSemFault j) hi lo v) := fun t hi lo v => setFld t hi lo v rfl
    exact ((((h _ _ _ _).trans (h _ _ _ _)).trans (h _ _ _ _)).trans (h _ _ _ _)).trans (h _ _ _ _)

/-- A Lull requested (R333). -/
theorem askLull (s : State) (k : Nat) (r : LullReq) : Reports (· = rDbgStatus) s (s.askLull k r) := by
  unfold State.askLull
  dsimp only
  split
  · exact (traceRec s _ _ _).trans (modPart _ _ _)
  · exact modPart _ _ _

/-- A stage's Lull requested and counted (R204). -/
theorem askStage (s : State) (j stage cause tag : Nat) :
    Reports (fun r => r = rDbgStatus ∨ r = rStrStallReq j stage cause) s (s.askStage j stage cause tag) := by
  unfold State.askStage
  dsimp only
  split
  · exact refl s
  · exact ((askLull s _ _).mono fun _ h => .inl h).trans (bump _ _ (.inr rfl))

/-- A Lull's requests ended (R333). -/
theorem endLull (s : State) (k kind tag : Nat) : Reports (· = rDbgStatus) s (s.endLull k kind tag) := by
  unfold State.endLull
  dsimp only
  split
  · exact (modPart _ _ _).trans (traceRec _ _ _ _)
  · exact modPart _ _ _

end Reports

/-- No end of a write is held when no line fails its check. -/
theorem State.heldEnds_of_clean {s : State} (h : s.badLine = []) (a n : Nat) : s.heldEnds a n = (0, 0) := by
  simp [State.heldEnds, State.keepsBad, h]

/-- A write none of whose ends is held changes HBM by its bytes alone. -/
theorem State.hbm_hbmWrite {s : State} {a : Nat} {bs : List Nat} (h : s.heldEnds a bs.length = (0, 0)) :
    (s.hbmWrite a bs).hbm = memWrite s.hbm a bs := by
  simp [State.hbmWrite, h]

/-- A write none of whose ends is held holds nothing back. -/
theorem State.heldWrites_hbmWrite {s : State} {a : Nat} {bs : List Nat} (h : s.heldEnds a bs.length = (0, 0)) (g : s.heldWrites = []) :
    (s.hbmWrite a bs).heldWrites = [] := by
  simp [State.hbmWrite, h, g]

/-- HBM written: the form stays canonical (R480). -/
theorem State.canonical_hbmWrite {s : State} (h : s.Canonical) (a : Nat) (bs : List Nat) : (s.hbmWrite a bs).Canonical :=
  ⟨⟨Memory.wf_memWrite _ _ h.1.1, h.1.2⟩, h.2⟩

/-- A core store written. -/
theorem State.canonical_storeWrite {s : State} (h : s.Canonical) (k off : Nat) (bs : List Nat) : (s.storeWrite k off bs).Canonical :=
  ⟨⟨h.1.1, Memory.wf_memWrite bs _ h.1.2.1, h.1.2.2⟩, h.2⟩

/-- A bank of a local store written. -/
theorem State.canonical_bankWrite {s : State} (h : s.Canonical) (A bank off : Nat) (bs : List Nat) : (s.bankWrite A bank off bs).Canonical :=
  ⟨⟨h.1.1, h.1.2.1, Memory.wf_memWrite bs _ h.1.2.2.1, h.1.2.2.2⟩, h.2⟩

/-- A local store written (R169). -/
theorem State.canonical_plainWrite {s : State} (h : s.Canonical) (A off : Nat) (bs : List Nat) : (s.plainWrite A off bs).Canonical := by
  unfold State.plainWrite
  generalize bs.zipIdx = l
  induction l generalizing s with
  | nil => exact h
  | cons p l ih => exact ih (State.canonical_bankWrite h _ _ _ _)

/-- A mailbox buffer written (R606). -/
theorem State.canonical_mbufWrite {s : State} (h : s.Canonical) (a : Nat) (bs : List Nat) : { s with mbuf := memWrite s.mbuf a bs }.Canonical :=
  ⟨⟨h.1.1, h.1.2.1, h.1.2.2.1, Memory.wf_memWrite bs a h.1.2.2.2⟩, h.2⟩

end Sys2Proof.Machine
end

