-- ==== Sys2Proof/Laws/State.lean ====
section
/-! SUPPORT. What each elementary update of the state leaves unchanged, one lemma for each field, and what the accessors read after it. -/
namespace Sys2Proof.Machine

@[simp] theorem State.setReg_pending (s : State) (k : Nat) (v : Word) : (s.setReg k v).pending = s.pending := rfl
@[simp] theorem State.setReg_hbm (s : State) (k : Nat) (v : Word) : (s.setReg k v).hbm = s.hbm := rfl
@[simp] theorem State.setReg_store (s : State) (k : Nat) (v : Word) : (s.setReg k v).store = s.store := rfl
@[simp] theorem State.setReg_lstore (s : State) (k : Nat) (v : Word) : (s.setReg k v).lstore = s.lstore := rfl
@[simp] theorem State.setReg_mbuf (s : State) (k : Nat) (v : Word) : (s.setReg k v).mbuf = s.mbuf := rfl
@[simp] theorem State.setReg_badLine (s : State) (k : Nat) (v : Word) : (s.setReg k v).badLine = s.badLine := rfl
@[simp] theorem State.setReg_cores (s : State) (k : Nat) (v : Word) : (s.setReg k v).cores = s.cores := rfl
@[simp] theorem State.setReg_arrays (s : State) (k : Nat) (v : Word) : (s.setReg k v).arrays = s.arrays := rfl
@[simp] theorem State.setReg_parts (s : State) (k : Nat) (v : Word) : (s.setReg k v).parts = s.parts := rfl
@[simp] theorem State.setReg_bars (s : State) (k : Nat) (v : Word) : (s.setReg k v).bars = s.bars := rfl
@[simp] theorem State.setReg_ports (s : State) (k : Nat) (v : Word) : (s.setReg k v).ports = s.ports := rfl
@[simp] theorem State.setReg_hosts (s : State) (k : Nat) (v : Word) : (s.setReg k v).hosts = s.hosts := rfl
@[simp] theorem State.setReg_slots (s : State) (k : Nat) (v : Word) : (s.setReg k v).slots = s.slots := rfl
@[simp] theorem State.setReg_transfers (s : State) (k : Nat) (v : Word) : (s.setReg k v).transfers = s.transfers := rfl
@[simp] theorem State.setReg_reads (s : State) (k : Nat) (v : Word) : (s.setReg k v).reads = s.reads := rfl
@[simp] theorem State.setReg_stra (s : State) (k : Nat) (v : Word) : (s.setReg k v).stra = s.stra := rfl
@[simp] theorem State.setReg_sent (s : State) (k : Nat) (v : Word) : (s.setReg k v).sent = s.sent := rfl
@[simp] theorem State.setReg_gathers (s : State) (k : Nat) (v : Word) : (s.setReg k v).gathers = s.gathers := rfl
@[simp] theorem State.setReg_mcasts (s : State) (k : Nat) (v : Word) : (s.setReg k v).mcasts = s.mcasts := rfl
@[simp] theorem State.setReg_recoveries (s : State) (k : Nat) (v : Word) : (s.setReg k v).recoveries = s.recoveries := rfl
@[simp] theorem State.setReg_supplied (s : State) (k : Nat) (v : Word) : (s.setReg k v).supplied = s.supplied := rfl
@[simp] theorem State.setReg_writtenBack (s : State) (k : Nat) (v : Word) : (s.setReg k v).writtenBack = s.writtenBack := rfl
@[simp] theorem State.setReg_heldWrites (s : State) (k : Nat) (v : Word) : (s.setReg k v).heldWrites = s.heldWrites := rfl
@[simp] theorem State.setReg_maint (s : State) (k : Nat) (v : Word) : (s.setReg k v).maint = s.maint := rfl
@[simp] theorem State.setReg_agenda (s : State) (k : Nat) (v : Word) : (s.setReg k v).agenda = s.agenda := rfl
@[simp] theorem State.setReg_evq (s : State) (k : Nat) (v : Word) : (s.setReg k v).evq = s.evq := rfl
@[simp] theorem State.setReg_evLost (s : State) (k : Nat) (v : Word) : (s.setReg k v).evLost = s.evLost := rfl
@[simp] theorem State.setReg_logs (s : State) (k : Nat) (v : Word) : (s.setReg k v).logs = s.logs := rfl
@[simp] theorem State.setReg_clk (s : State) (k : Nat) (v : Word) : (s.setReg k v).clk = s.clk := rfl
@[simp] theorem State.setReg_pwr (s : State) (k : Nat) (v : Word) : (s.setReg k v).pwr = s.pwr := rfl
@[simp] theorem State.setReg_zen (s : State) (k : Nat) (v : Word) : (s.setReg k v).zen = s.zen := rfl
@[simp] theorem State.setReg_tap (s : State) (k : Nat) (v : Word) : (s.setReg k v).tap = s.tap := rfl
@[simp] theorem State.setReg_dumps (s : State) (k : Nat) (v : Word) : (s.setReg k v).dumps = s.dumps := rfl
@[simp] theorem State.setReg_trace (s : State) (k : Nat) (v : Word) : (s.setReg k v).trace = s.trace := rfl
@[simp] theorem State.setReg_pstat (s : State) (k : Nat) (v : Word) : (s.setReg k v).pstat = s.pstat := rfl
@[simp] theorem State.setReg_eid (s : State) (k : Nat) (v : Word) : (s.setReg k v).eid = s.eid := rfl
@[simp] theorem State.setReg_outbox (s : State) (k : Nat) (v : Word) : (s.setReg k v).outbox = s.outbox := rfl
@[simp] theorem State.setReg_nextId (s : State) (k : Nat) (v : Word) : (s.setReg k v).nextId = s.nextId := rfl
@[simp] theorem State.setReg_free (s : State) (k : Nat) (v : Word) : (s.setReg k v).free = s.free := rfl
@[simp] theorem State.part_setReg (s : State) (k : Nat) (v : Word) (x : Nat) : (s.setReg k v).part x = s.part x := rfl
@[simp] theorem State.port_setReg (s : State) (k : Nat) (v : Word) (x : Nat) : (s.setReg k v).port x = s.port x := rfl
@[simp] theorem State.host_setReg (s : State) (k : Nat) (v : Word) (x : Nat) : (s.setReg k v).host x = s.host x := rfl
@[simp] theorem State.core_setReg (s : State) (k : Nat) (v : Word) (x : Nat) : (s.setReg k v).core x = s.core x := rfl
@[simp] theorem State.arr_setReg (s : State) (k : Nat) (v : Word) (x : Nat) : (s.setReg k v).arr x = s.arr x := rfl
@[simp] theorem State.ctx_setReg (s : State) (k : Nat) (v : Word) (x y : Nat) : (s.setReg k v).ctx x y = s.ctx x y := rfl
@[simp] theorem State.hbmRead_setReg (s : State) (k : Nat) (v : Word) (x y : Nat) : (s.setReg k v).hbmRead x y = s.hbmRead x y := rfl
@[simp] theorem State.storeRead_setReg (s : State) (k : Nat) (v : Word) (x y z : Nat) : (s.setReg k v).storeRead x y z = s.storeRead x y z := rfl
@[simp] theorem State.bankRead_setReg (s : State) (k : Nat) (v : Word) (w x y z : Nat) : (s.setReg k v).bankRead w x y z = s.bankRead w x y z := rfl

@[simp] theorem State.setFld_pending (s : State) (k hi lo v : Nat) : (s.setFld k hi lo v).pending = s.pending := rfl
@[simp] theorem State.setFld_hbm (s : State) (k hi lo v : Nat) : (s.setFld k hi lo v).hbm = s.hbm := rfl
@[simp] theorem State.setFld_store (s : State) (k hi lo v : Nat) : (s.setFld k hi lo v).store = s.store := rfl
@[simp] theorem State.setFld_lstore (s : State) (k hi lo v : Nat) : (s.setFld k hi lo v).lstore = s.lstore := rfl
@[simp] theorem State.setFld_mbuf (s : State) (k hi lo v : Nat) : (s.setFld k hi lo v).mbuf = s.mbuf := rfl
@[simp] theorem State.setFld_badLine (s : State) (k hi lo v : Nat) : (s.setFld k hi lo v).badLine = s.badLine := rfl
@[simp] theorem State.setFld_cores (s : State) (k hi lo v : Nat) : (s.setFld k hi lo v).cores = s.cores := rfl
@[simp] theorem State.setFld_arrays (s : State) (k hi lo v : Nat) : (s.setFld k hi lo v).arrays = s.arrays := rfl
@[simp] theorem State.setFld_parts (s : State) (k hi lo v : Nat) : (s.setFld k hi lo v).parts = s.parts := rfl
@[simp] theorem State.setFld_bars (s : State) (k hi lo v : Nat) : (s.setFld k hi lo v).bars = s.bars := rfl
@[simp] theorem State.setFld_ports (s : State) (k hi lo v : Nat) : (s.setFld k hi lo v).ports = s.ports := rfl
@[simp] theorem State.setFld_hosts (s : State) (k hi lo v : Nat) : (s.setFld k hi lo v).hosts = s.hosts := rfl
@[simp] theorem State.setFld_slots (s : State) (k hi lo v : Nat) : (s.setFld k hi lo v).slots = s.slots := rfl
@[simp] theorem State.setFld_transfers (s : State) (k hi lo v : Nat) : (s.setFld k hi lo v).transfers = s.transfers := rfl
@[simp] theorem State.setFld_reads (s : State) (k hi lo v : Nat) : (s.setFld k hi lo v).reads = s.reads := rfl
@[simp] theorem State.setFld_stra (s : State) (k hi lo v : Nat) : (s.setFld k hi lo v).stra = s.stra := rfl
@[simp] theorem State.setFld_sent (s : State) (k hi lo v : Nat) : (s.setFld k hi lo v).sent = s.sent := rfl
@[simp] theorem State.setFld_gathers (s : State) (k hi lo v : Nat) : (s.setFld k hi lo v).gathers = s.gathers := rfl
@[simp] theorem State.setFld_mcasts (s : State) (k hi lo v : Nat) : (s.setFld k hi lo v).mcasts = s.mcasts := rfl
@[simp] theorem State.setFld_recoveries (s : State) (k hi lo v : Nat) : (s.setFld k hi lo v).recoveries = s.recoveries := rfl
@[simp] theorem State.setFld_supplied (s : State) (k hi lo v : Nat) : (s.setFld k hi lo v).supplied = s.supplied := rfl
@[simp] theorem State.setFld_writtenBack (s : State) (k hi lo v : Nat) : (s.setFld k hi lo v).writtenBack = s.writtenBack := rfl
@[simp] theorem State.setFld_heldWrites (s : State) (k hi lo v : Nat) : (s.setFld k hi lo v).heldWrites = s.heldWrites := rfl
@[simp] theorem State.setFld_maint (s : State) (k hi lo v : Nat) : (s.setFld k hi lo v).maint = s.maint := rfl
@[simp] theorem State.setFld_agenda (s : State) (k hi lo v : Nat) : (s.setFld k hi lo v).agenda = s.agenda := rfl
@[simp] theorem State.setFld_evq (s : State) (k hi lo v : Nat) : (s.setFld k hi lo v).evq = s.evq := rfl
@[simp] theorem State.setFld_evLost (s : State) (k hi lo v : Nat) : (s.setFld k hi lo v).evLost = s.evLost := rfl
@[simp] theorem State.setFld_logs (s : State) (k hi lo v : Nat) : (s.setFld k hi lo v).logs = s.logs := rfl
@[simp] theorem State.setFld_clk (s : State) (k hi lo v : Nat) : (s.setFld k hi lo v).clk = s.clk := rfl
@[simp] theorem State.setFld_pwr (s : State) (k hi lo v : Nat) : (s.setFld k hi lo v).pwr = s.pwr := rfl
@[simp] theorem State.setFld_zen (s : State) (k hi lo v : Nat) : (s.setFld k hi lo v).zen = s.zen := rfl
@[simp] theorem State.setFld_tap (s : State) (k hi lo v : Nat) : (s.setFld k hi lo v).tap = s.tap := rfl
@[simp] theorem State.setFld_dumps (s : State) (k hi lo v : Nat) : (s.setFld k hi lo v).dumps = s.dumps := rfl
@[simp] theorem State.setFld_trace (s : State) (k hi lo v : Nat) : (s.setFld k hi lo v).trace = s.trace := rfl
@[simp] theorem State.setFld_pstat (s : State) (k hi lo v : Nat) : (s.setFld k hi lo v).pstat = s.pstat := rfl
@[simp] theorem State.setFld_eid (s : State) (k hi lo v : Nat) : (s.setFld k hi lo v).eid = s.eid := rfl
@[simp] theorem State.setFld_outbox (s : State) (k hi lo v : Nat) : (s.setFld k hi lo v).outbox = s.outbox := rfl
@[simp] theorem State.setFld_nextId (s : State) (k hi lo v : Nat) : (s.setFld k hi lo v).nextId = s.nextId := rfl
@[simp] theorem State.setFld_free (s : State) (k hi lo v : Nat) : (s.setFld k hi lo v).free = s.free := rfl
@[simp] theorem State.part_setFld (s : State) (k hi lo v : Nat) (x : Nat) : (s.setFld k hi lo v).part x = s.part x := rfl
@[simp] theorem State.port_setFld (s : State) (k hi lo v : Nat) (x : Nat) : (s.setFld k hi lo v).port x = s.port x := rfl
@[simp] theorem State.host_setFld (s : State) (k hi lo v : Nat) (x : Nat) : (s.setFld k hi lo v).host x = s.host x := rfl
@[simp] theorem State.core_setFld (s : State) (k hi lo v : Nat) (x : Nat) : (s.setFld k hi lo v).core x = s.core x := rfl
@[simp] theorem State.arr_setFld (s : State) (k hi lo v : Nat) (x : Nat) : (s.setFld k hi lo v).arr x = s.arr x := rfl
@[simp] theorem State.ctx_setFld (s : State) (k hi lo v : Nat) (x y : Nat) : (s.setFld k hi lo v).ctx x y = s.ctx x y := rfl
@[simp] theorem State.hbmRead_setFld (s : State) (k hi lo v : Nat) (x y : Nat) : (s.setFld k hi lo v).hbmRead x y = s.hbmRead x y := rfl
@[simp] theorem State.storeRead_setFld (s : State) (k hi lo v : Nat) (x y z : Nat) : (s.setFld k hi lo v).storeRead x y z = s.storeRead x y z := rfl
@[simp] theorem State.bankRead_setFld (s : State) (k hi lo v : Nat) (w x y z : Nat) : (s.setFld k hi lo v).bankRead w x y z = s.bankRead w x y z := rfl

@[simp] theorem State.bumpF_pending (s : State) (k hi lo n : Nat) : (s.bumpF k hi lo n).pending = s.pending := rfl
@[simp] theorem State.bumpF_hbm (s : State) (k hi lo n : Nat) : (s.bumpF k hi lo n).hbm = s.hbm := rfl
@[simp] theorem State.bumpF_store (s : State) (k hi lo n : Nat) : (s.bumpF k hi lo n).store = s.store := rfl
@[simp] theorem State.bumpF_lstore (s : State) (k hi lo n : Nat) : (s.bumpF k hi lo n).lstore = s.lstore := rfl
@[simp] theorem State.bumpF_mbuf (s : State) (k hi lo n : Nat) : (s.bumpF k hi lo n).mbuf = s.mbuf := rfl
@[simp] theorem State.bumpF_badLine (s : State) (k hi lo n : Nat) : (s.bumpF k hi lo n).badLine = s.badLine := rfl
@[simp] theorem State.bumpF_cores (s : State) (k hi lo n : Nat) : (s.bumpF k hi lo n).cores = s.cores := rfl
@[simp] theorem State.bumpF_arrays (s : State) (k hi lo n : Nat) : (s.bumpF k hi lo n).arrays = s.arrays := rfl
@[simp] theorem State.bumpF_parts (s : State) (k hi lo n : Nat) : (s.bumpF k hi lo n).parts = s.parts := rfl
@[simp] theorem State.bumpF_bars (s : State) (k hi lo n : Nat) : (s.bumpF k hi lo n).bars = s.bars := rfl
@[simp] theorem State.bumpF_ports (s : State) (k hi lo n : Nat) : (s.bumpF k hi lo n).ports = s.ports := rfl
@[simp] theorem State.bumpF_hosts (s : State) (k hi lo n : Nat) : (s.bumpF k hi lo n).hosts = s.hosts := rfl
@[simp] theorem State.bumpF_slots (s : State) (k hi lo n : Nat) : (s.bumpF k hi lo n).slots = s.slots := rfl
@[simp] theorem State.bumpF_transfers (s : State) (k hi lo n : Nat) : (s.bumpF k hi lo n).transfers = s.transfers := rfl
@[simp] theorem State.bumpF_reads (s : State) (k hi lo n : Nat) : (s.bumpF k hi lo n).reads = s.reads := rfl
@[simp] theorem State.bumpF_stra (s : State) (k hi lo n : Nat) : (s.bumpF k hi lo n).stra = s.stra := rfl
@[simp] theorem State.bumpF_sent (s : State) (k hi lo n : Nat) : (s.bumpF k hi lo n).sent = s.sent := rfl
@[simp] theorem State.bumpF_gathers (s : State) (k hi lo n : Nat) : (s.bumpF k hi lo n).gathers = s.gathers := rfl
@[simp] theorem State.bumpF_mcasts (s : State) (k hi lo n : Nat) : (s.bumpF k hi lo n).mcasts = s.mcasts := rfl
@[simp] theorem State.bumpF_recoveries (s : State) (k hi lo n : Nat) : (s.bumpF k hi lo n).recoveries = s.recoveries := rfl
@[simp] theorem State.bumpF_supplied (s : State) (k hi lo n : Nat) : (s.bumpF k hi lo n).supplied = s.supplied := rfl
@[simp] theorem State.bumpF_writtenBack (s : State) (k hi lo n : Nat) : (s.bumpF k hi lo n).writtenBack = s.writtenBack := rfl
@[simp] theorem State.bumpF_heldWrites (s : State) (k hi lo n : Nat) : (s.bumpF k hi lo n).heldWrites = s.heldWrites := rfl
@[simp] theorem State.bumpF_maint (s : State) (k hi lo n : Nat) : (s.bumpF k hi lo n).maint = s.maint := rfl
@[simp] theorem State.bumpF_agenda (s : State) (k hi lo n : Nat) : (s.bumpF k hi lo n).agenda = s.agenda := rfl
@[simp] theorem State.bumpF_evq (s : State) (k hi lo n : Nat) : (s.bumpF k hi lo n).evq = s.evq := rfl
@[simp] theorem State.bumpF_evLost (s : State) (k hi lo n : Nat) : (s.bumpF k hi lo n).evLost = s.evLost := rfl
@[simp] theorem State.bumpF_logs (s : State) (k hi lo n : Nat) : (s.bumpF k hi lo n).logs = s.logs := rfl
@[simp] theorem State.bumpF_clk (s : State) (k hi lo n : Nat) : (s.bumpF k hi lo n).clk = s.clk := rfl
@[simp] theorem State.bumpF_pwr (s : State) (k hi lo n : Nat) : (s.bumpF k hi lo n).pwr = s.pwr := rfl
@[simp] theorem State.bumpF_zen (s : State) (k hi lo n : Nat) : (s.bumpF k hi lo n).zen = s.zen := rfl
@[simp] theorem State.bumpF_tap (s : State) (k hi lo n : Nat) : (s.bumpF k hi lo n).tap = s.tap := rfl
@[simp] theorem State.bumpF_dumps (s : State) (k hi lo n : Nat) : (s.bumpF k hi lo n).dumps = s.dumps := rfl
@[simp] theorem State.bumpF_trace (s : State) (k hi lo n : Nat) : (s.bumpF k hi lo n).trace = s.trace := rfl
@[simp] theorem State.bumpF_pstat (s : State) (k hi lo n : Nat) : (s.bumpF k hi lo n).pstat = s.pstat := rfl
@[simp] theorem State.bumpF_eid (s : State) (k hi lo n : Nat) : (s.bumpF k hi lo n).eid = s.eid := rfl
@[simp] theorem State.bumpF_outbox (s : State) (k hi lo n : Nat) : (s.bumpF k hi lo n).outbox = s.outbox := rfl
@[simp] theorem State.bumpF_nextId (s : State) (k hi lo n : Nat) : (s.bumpF k hi lo n).nextId = s.nextId := rfl
@[simp] theorem State.bumpF_free (s : State) (k hi lo n : Nat) : (s.bumpF k hi lo n).free = s.free := rfl
@[simp] theorem State.part_bumpF (s : State) (k hi lo n : Nat) (x : Nat) : (s.bumpF k hi lo n).part x = s.part x := rfl
@[simp] theorem State.port_bumpF (s : State) (k hi lo n : Nat) (x : Nat) : (s.bumpF k hi lo n).port x = s.port x := rfl
@[simp] theorem State.host_bumpF (s : State) (k hi lo n : Nat) (x : Nat) : (s.bumpF k hi lo n).host x = s.host x := rfl
@[simp] theorem State.core_bumpF (s : State) (k hi lo n : Nat) (x : Nat) : (s.bumpF k hi lo n).core x = s.core x := rfl
@[simp] theorem State.arr_bumpF (s : State) (k hi lo n : Nat) (x : Nat) : (s.bumpF k hi lo n).arr x = s.arr x := rfl
@[simp] theorem State.ctx_bumpF (s : State) (k hi lo n : Nat) (x y : Nat) : (s.bumpF k hi lo n).ctx x y = s.ctx x y := rfl
@[simp] theorem State.hbmRead_bumpF (s : State) (k hi lo n : Nat) (x y : Nat) : (s.bumpF k hi lo n).hbmRead x y = s.hbmRead x y := rfl
@[simp] theorem State.storeRead_bumpF (s : State) (k hi lo n : Nat) (x y z : Nat) : (s.bumpF k hi lo n).storeRead x y z = s.storeRead x y z := rfl
@[simp] theorem State.bankRead_bumpF (s : State) (k hi lo n : Nat) (w x y z : Nat) : (s.bumpF k hi lo n).bankRead w x y z = s.bankRead w x y z := rfl

@[simp] theorem State.bump_pending (s : State) (k n : Nat) : (s.bump k n).pending = s.pending := rfl
@[simp] theorem State.bump_hbm (s : State) (k n : Nat) : (s.bump k n).hbm = s.hbm := rfl
@[simp] theorem State.bump_store (s : State) (k n : Nat) : (s.bump k n).store = s.store := rfl
@[simp] theorem State.bump_lstore (s : State) (k n : Nat) : (s.bump k n).lstore = s.lstore := rfl
@[simp] theorem State.bump_mbuf (s : State) (k n : Nat) : (s.bump k n).mbuf = s.mbuf := rfl
@[simp] theorem State.bump_badLine (s : State) (k n : Nat) : (s.bump k n).badLine = s.badLine := rfl
@[simp] theorem State.bump_cores (s : State) (k n : Nat) : (s.bump k n).cores = s.cores := rfl
@[simp] theorem State.bump_arrays (s : State) (k n : Nat) : (s.bump k n).arrays = s.arrays := rfl
@[simp] theorem State.bump_parts (s : State) (k n : Nat) : (s.bump k n).parts = s.parts := rfl
@[simp] theorem State.bump_bars (s : State) (k n : Nat) : (s.bump k n).bars = s.bars := rfl
@[simp] theorem State.bump_ports (s : State) (k n : Nat) : (s.bump k n).ports = s.ports := rfl
@[simp] theorem State.bump_hosts (s : State) (k n : Nat) : (s.bump k n).hosts = s.hosts := rfl
@[simp] theorem State.bump_slots (s : State) (k n : Nat) : (s.bump k n).slots = s.slots := rfl
@[simp] theorem State.bump_transfers (s : State) (k n : Nat) : (s.bump k n).transfers = s.transfers := rfl
@[simp] theorem State.bump_reads (s : State) (k n : Nat) : (s.bump k n).reads = s.reads := rfl
@[simp] theorem State.bump_stra (s : State) (k n : Nat) : (s.bump k n).stra = s.stra := rfl
@[simp] theorem State.bump_sent (s : State) (k n : Nat) : (s.bump k n).sent = s.sent := rfl
@[simp] theorem State.bump_gathers (s : State) (k n : Nat) : (s.bump k n).gathers = s.gathers := rfl
@[simp] theorem State.bump_mcasts (s : State) (k n : Nat) : (s.bump k n).mcasts = s.mcasts := rfl
@[simp] theorem State.bump_recoveries (s : State) (k n : Nat) : (s.bump k n).recoveries = s.recoveries := rfl
@[simp] theorem State.bump_supplied (s : State) (k n : Nat) : (s.bump k n).supplied = s.supplied := rfl
@[simp] theorem State.bump_writtenBack (s : State) (k n : Nat) : (s.bump k n).writtenBack = s.writtenBack := rfl
@[simp] theorem State.bump_heldWrites (s : State) (k n : Nat) : (s.bump k n).heldWrites = s.heldWrites := rfl
@[simp] theorem State.bump_maint (s : State) (k n : Nat) : (s.bump k n).maint = s.maint := rfl
@[simp] theorem State.bump_agenda (s : State) (k n : Nat) : (s.bump k n).agenda = s.agenda := rfl
@[simp] theorem State.bump_evq (s : State) (k n : Nat) : (s.bump k n).evq = s.evq := rfl
@[simp] theorem State.bump_evLost (s : State) (k n : Nat) : (s.bump k n).evLost = s.evLost := rfl
@[simp] theorem State.bump_logs (s : State) (k n : Nat) : (s.bump k n).logs = s.logs := rfl
@[simp] theorem State.bump_clk (s : State) (k n : Nat) : (s.bump k n).clk = s.clk := rfl
@[simp] theorem State.bump_pwr (s : State) (k n : Nat) : (s.bump k n).pwr = s.pwr := rfl
@[simp] theorem State.bump_zen (s : State) (k n : Nat) : (s.bump k n).zen = s.zen := rfl
@[simp] theorem State.bump_tap (s : State) (k n : Nat) : (s.bump k n).tap = s.tap := rfl
@[simp] theorem State.bump_dumps (s : State) (k n : Nat) : (s.bump k n).dumps = s.dumps := rfl
@[simp] theorem State.bump_trace (s : State) (k n : Nat) : (s.bump k n).trace = s.trace := rfl
@[simp] theorem State.bump_pstat (s : State) (k n : Nat) : (s.bump k n).pstat = s.pstat := rfl
@[simp] theorem State.bump_eid (s : State) (k n : Nat) : (s.bump k n).eid = s.eid := rfl
@[simp] theorem State.bump_outbox (s : State) (k n : Nat) : (s.bump k n).outbox = s.outbox := rfl
@[simp] theorem State.bump_nextId (s : State) (k n : Nat) : (s.bump k n).nextId = s.nextId := rfl
@[simp] theorem State.bump_free (s : State) (k n : Nat) : (s.bump k n).free = s.free := rfl
@[simp] theorem State.part_bump (s : State) (k n : Nat) (x : Nat) : (s.bump k n).part x = s.part x := rfl
@[simp] theorem State.port_bump (s : State) (k n : Nat) (x : Nat) : (s.bump k n).port x = s.port x := rfl
@[simp] theorem State.host_bump (s : State) (k n : Nat) (x : Nat) : (s.bump k n).host x = s.host x := rfl
@[simp] theorem State.core_bump (s : State) (k n : Nat) (x : Nat) : (s.bump k n).core x = s.core x := rfl
@[simp] theorem State.arr_bump (s : State) (k n : Nat) (x : Nat) : (s.bump k n).arr x = s.arr x := rfl
@[simp] theorem State.ctx_bump (s : State) (k n : Nat) (x y : Nat) : (s.bump k n).ctx x y = s.ctx x y := rfl
@[simp] theorem State.hbmRead_bump (s : State) (k n : Nat) (x y : Nat) : (s.bump k n).hbmRead x y = s.hbmRead x y := rfl
@[simp] theorem State.storeRead_bump (s : State) (k n : Nat) (x y z : Nat) : (s.bump k n).storeRead x y z = s.storeRead x y z := rfl
@[simp] theorem State.bankRead_bump (s : State) (k n : Nat) (w x y z : Nat) : (s.bump k n).bankRead w x y z = s.bankRead w x y z := rfl

@[simp] theorem State.modCore_pending (s : State) (k : Nat) (f : Core → Core) : (s.modCore k f).pending = s.pending := rfl
@[simp] theorem State.modCore_regs (s : State) (k : Nat) (f : Core → Core) : (s.modCore k f).regs = s.regs := rfl
@[simp] theorem State.modCore_hbm (s : State) (k : Nat) (f : Core → Core) : (s.modCore k f).hbm = s.hbm := rfl
@[simp] theorem State.modCore_store (s : State) (k : Nat) (f : Core → Core) : (s.modCore k f).store = s.store := rfl
@[simp] theorem State.modCore_lstore (s : State) (k : Nat) (f : Core → Core) : (s.modCore k f).lstore = s.lstore := rfl
@[simp] theorem State.modCore_mbuf (s : State) (k : Nat) (f : Core → Core) : (s.modCore k f).mbuf = s.mbuf := rfl
@[simp] theorem State.modCore_badLine (s : State) (k : Nat) (f : Core → Core) : (s.modCore k f).badLine = s.badLine := rfl
@[simp] theorem State.modCore_arrays (s : State) (k : Nat) (f : Core → Core) : (s.modCore k f).arrays = s.arrays := rfl
@[simp] theorem State.modCore_parts (s : State) (k : Nat) (f : Core → Core) : (s.modCore k f).parts = s.parts := rfl
@[simp] theorem State.modCore_bars (s : State) (k : Nat) (f : Core → Core) : (s.modCore k f).bars = s.bars := rfl
@[simp] theorem State.modCore_ports (s : State) (k : Nat) (f : Core → Core) : (s.modCore k f).ports = s.ports := rfl
@[simp] theorem State.modCore_hosts (s : State) (k : Nat) (f : Core → Core) : (s.modCore k f).hosts = s.hosts := rfl
@[simp] theorem State.modCore_slots (s : State) (k : Nat) (f : Core → Core) : (s.modCore k f).slots = s.slots := rfl
@[simp] theorem State.modCore_transfers (s : State) (k : Nat) (f : Core → Core) : (s.modCore k f).transfers = s.transfers := rfl
@[simp] theorem State.modCore_reads (s : State) (k : Nat) (f : Core → Core) : (s.modCore k f).reads = s.reads := rfl
@[simp] theorem State.modCore_stra (s : State) (k : Nat) (f : Core → Core) : (s.modCore k f).stra = s.stra := rfl
@[simp] theorem State.modCore_sent (s : State) (k : Nat) (f : Core → Core) : (s.modCore k f).sent = s.sent := rfl
@[simp] theorem State.modCore_gathers (s : State) (k : Nat) (f : Core → Core) : (s.modCore k f).gathers = s.gathers := rfl
@[simp] theorem State.modCore_mcasts (s : State) (k : Nat) (f : Core → Core) : (s.modCore k f).mcasts = s.mcasts := rfl
@[simp] theorem State.modCore_recoveries (s : State) (k : Nat) (f : Core → Core) : (s.modCore k f).recoveries = s.recoveries := rfl
@[simp] theorem State.modCore_supplied (s : State) (k : Nat) (f : Core → Core) : (s.modCore k f).supplied = s.supplied := rfl
@[simp] theorem State.modCore_writtenBack (s : State) (k : Nat) (f : Core → Core) : (s.modCore k f).writtenBack = s.writtenBack := rfl
@[simp] theorem State.modCore_heldWrites (s : State) (k : Nat) (f : Core → Core) : (s.modCore k f).heldWrites = s.heldWrites := rfl
@[simp] theorem State.modCore_maint (s : State) (k : Nat) (f : Core → Core) : (s.modCore k f).maint = s.maint := rfl
@[simp] theorem State.modCore_agenda (s : State) (k : Nat) (f : Core → Core) : (s.modCore k f).agenda = s.agenda := rfl
@[simp] theorem State.modCore_evq (s : State) (k : Nat) (f : Core → Core) : (s.modCore k f).evq = s.evq := rfl
@[simp] theorem State.modCore_evLost (s : State) (k : Nat) (f : Core → Core) : (s.modCore k f).evLost = s.evLost := rfl
@[simp] theorem State.modCore_logs (s : State) (k : Nat) (f : Core → Core) : (s.modCore k f).logs = s.logs := rfl
@[simp] theorem State.modCore_clk (s : State) (k : Nat) (f : Core → Core) : (s.modCore k f).clk = s.clk := rfl
@[simp] theorem State.modCore_pwr (s : State) (k : Nat) (f : Core → Core) : (s.modCore k f).pwr = s.pwr := rfl
@[simp] theorem State.modCore_zen (s : State) (k : Nat) (f : Core → Core) : (s.modCore k f).zen = s.zen := rfl
@[simp] theorem State.modCore_tap (s : State) (k : Nat) (f : Core → Core) : (s.modCore k f).tap = s.tap := rfl
@[simp] theorem State.modCore_dumps (s : State) (k : Nat) (f : Core → Core) : (s.modCore k f).dumps = s.dumps := rfl
@[simp] theorem State.modCore_trace (s : State) (k : Nat) (f : Core → Core) : (s.modCore k f).trace = s.trace := rfl
@[simp] theorem State.modCore_pstat (s : State) (k : Nat) (f : Core → Core) : (s.modCore k f).pstat = s.pstat := rfl
@[simp] theorem State.modCore_eid (s : State) (k : Nat) (f : Core → Core) : (s.modCore k f).eid = s.eid := rfl
@[simp] theorem State.modCore_outbox (s : State) (k : Nat) (f : Core → Core) : (s.modCore k f).outbox = s.outbox := rfl
@[simp] theorem State.modCore_nextId (s : State) (k : Nat) (f : Core → Core) : (s.modCore k f).nextId = s.nextId := rfl
@[simp] theorem State.modCore_free (s : State) (k : Nat) (f : Core → Core) : (s.modCore k f).free = s.free := rfl
@[simp] theorem State.part_modCore (s : State) (k : Nat) (f : Core → Core) (x : Nat) : (s.modCore k f).part x = s.part x := rfl
@[simp] theorem State.port_modCore (s : State) (k : Nat) (f : Core → Core) (x : Nat) : (s.modCore k f).port x = s.port x := rfl
@[simp] theorem State.host_modCore (s : State) (k : Nat) (f : Core → Core) (x : Nat) : (s.modCore k f).host x = s.host x := rfl
@[simp] theorem State.arr_modCore (s : State) (k : Nat) (f : Core → Core) (x : Nat) : (s.modCore k f).arr x = s.arr x := rfl
@[simp] theorem State.reg_modCore (s : State) (k : Nat) (f : Core → Core) (x : Nat) : (s.modCore k f).reg x = s.reg x := rfl
@[simp] theorem State.fld_modCore (s : State) (k : Nat) (f : Core → Core) (x y z : Nat) : (s.modCore k f).fld x y z = s.fld x y z := rfl
@[simp] theorem State.hbmRead_modCore (s : State) (k : Nat) (f : Core → Core) (x y : Nat) : (s.modCore k f).hbmRead x y = s.hbmRead x y := rfl
@[simp] theorem State.storeRead_modCore (s : State) (k : Nat) (f : Core → Core) (x y z : Nat) : (s.modCore k f).storeRead x y z = s.storeRead x y z := rfl
@[simp] theorem State.bankRead_modCore (s : State) (k : Nat) (f : Core → Core) (w x y z : Nat) : (s.modCore k f).bankRead w x y z = s.bankRead w x y z := rfl

@[simp] theorem State.modCtx_pending (s : State) (k c : Nat) (f : Ctx → Ctx) : (s.modCtx k c f).pending = s.pending := rfl
@[simp] theorem State.modCtx_regs (s : State) (k c : Nat) (f : Ctx → Ctx) : (s.modCtx k c f).regs = s.regs := rfl
@[simp] theorem State.modCtx_hbm (s : State) (k c : Nat) (f : Ctx → Ctx) : (s.modCtx k c f).hbm = s.hbm := rfl
@[simp] theorem State.modCtx_store (s : State) (k c : Nat) (f : Ctx → Ctx) : (s.modCtx k c f).store = s.store := rfl
@[simp] theorem State.modCtx_lstore (s : State) (k c : Nat) (f : Ctx → Ctx) : (s.modCtx k c f).lstore = s.lstore := rfl
@[simp] theorem State.modCtx_mbuf (s : State) (k c : Nat) (f : Ctx → Ctx) : (s.modCtx k c f).mbuf = s.mbuf := rfl
@[simp] theorem State.modCtx_badLine (s : State) (k c : Nat) (f : Ctx → Ctx) : (s.modCtx k c f).badLine = s.badLine := rfl
@[simp] theorem State.modCtx_arrays (s : State) (k c : Nat) (f : Ctx → Ctx) : (s.modCtx k c f).arrays = s.arrays := rfl
@[simp] theorem State.modCtx_parts (s : State) (k c : Nat) (f : Ctx → Ctx) : (s.modCtx k c f).parts = s.parts := rfl
@[simp] theorem State.modCtx_bars (s : State) (k c : Nat) (f : Ctx → Ctx) : (s.modCtx k c f).bars = s.bars := rfl
@[simp] theorem State.modCtx_ports (s : State) (k c : Nat) (f : Ctx → Ctx) : (s.modCtx k c f).ports = s.ports := rfl
@[simp] theorem State.modCtx_hosts (s : State) (k c : Nat) (f : Ctx → Ctx) : (s.modCtx k c f).hosts = s.hosts := rfl
@[simp] theorem State.modCtx_slots (s : State) (k c : Nat) (f : Ctx → Ctx) : (s.modCtx k c f).slots = s.slots := rfl
@[simp] theorem State.modCtx_transfers (s : State) (k c : Nat) (f : Ctx → Ctx) : (s.modCtx k c f).transfers = s.transfers := rfl
@[simp] theorem State.modCtx_reads (s : State) (k c : Nat) (f : Ctx → Ctx) : (s.modCtx k c f).reads = s.reads := rfl
@[simp] theorem State.modCtx_stra (s : State) (k c : Nat) (f : Ctx → Ctx) : (s.modCtx k c f).stra = s.stra := rfl
@[simp] theorem State.modCtx_sent (s : State) (k c : Nat) (f : Ctx → Ctx) : (s.modCtx k c f).sent = s.sent := rfl
@[simp] theorem State.modCtx_gathers (s : State) (k c : Nat) (f : Ctx → Ctx) : (s.modCtx k c f).gathers = s.gathers := rfl
@[simp] theorem State.modCtx_mcasts (s : State) (k c : Nat) (f : Ctx → Ctx) : (s.modCtx k c f).mcasts = s.mcasts := rfl
@[simp] theorem State.modCtx_recoveries (s : State) (k c : Nat) (f : Ctx → Ctx) : (s.modCtx k c f).recoveries = s.recoveries := rfl
@[simp] theorem State.modCtx_supplied (s : State) (k c : Nat) (f : Ctx → Ctx) : (s.modCtx k c f).supplied = s.supplied := rfl
@[simp] theorem State.modCtx_writtenBack (s : State) (k c : Nat) (f : Ctx → Ctx) : (s.modCtx k c f).writtenBack = s.writtenBack := rfl
@[simp] theorem State.modCtx_heldWrites (s : State) (k c : Nat) (f : Ctx → Ctx) : (s.modCtx k c f).heldWrites = s.heldWrites := rfl
@[simp] theorem State.modCtx_maint (s : State) (k c : Nat) (f : Ctx → Ctx) : (s.modCtx k c f).maint = s.maint := rfl
@[simp] theorem State.modCtx_agenda (s : State) (k c : Nat) (f : Ctx → Ctx) : (s.modCtx k c f).agenda = s.agenda := rfl
@[simp] theorem State.modCtx_evq (s : State) (k c : Nat) (f : Ctx → Ctx) : (s.modCtx k c f).evq = s.evq := rfl
@[simp] theorem State.modCtx_evLost (s : State) (k c : Nat) (f : Ctx → Ctx) : (s.modCtx k c f).evLost = s.evLost := rfl
@[simp] theorem State.modCtx_logs (s : State) (k c : Nat) (f : Ctx → Ctx) : (s.modCtx k c f).logs = s.logs := rfl
@[simp] theorem State.modCtx_clk (s : State) (k c : Nat) (f : Ctx → Ctx) : (s.modCtx k c f).clk = s.clk := rfl
@[simp] theorem State.modCtx_pwr (s : State) (k c : Nat) (f : Ctx → Ctx) : (s.modCtx k c f).pwr = s.pwr := rfl
@[simp] theorem State.modCtx_zen (s : State) (k c : Nat) (f : Ctx → Ctx) : (s.modCtx k c f).zen = s.zen := rfl
@[simp] theorem State.modCtx_tap (s : State) (k c : Nat) (f : Ctx → Ctx) : (s.modCtx k c f).tap = s.tap := rfl
@[simp] theorem State.modCtx_dumps (s : State) (k c : Nat) (f : Ctx → Ctx) : (s.modCtx k c f).dumps = s.dumps := rfl
@[simp] theorem State.modCtx_trace (s : State) (k c : Nat) (f : Ctx → Ctx) : (s.modCtx k c f).trace = s.trace := rfl
@[simp] theorem State.modCtx_pstat (s : State) (k c : Nat) (f : Ctx → Ctx) : (s.modCtx k c f).pstat = s.pstat := rfl
@[simp] theorem State.modCtx_eid (s : State) (k c : Nat) (f : Ctx → Ctx) : (s.modCtx k c f).eid = s.eid := rfl
@[simp] theorem State.modCtx_outbox (s : State) (k c : Nat) (f : Ctx → Ctx) : (s.modCtx k c f).outbox = s.outbox := rfl
@[simp] theorem State.modCtx_nextId (s : State) (k c : Nat) (f : Ctx → Ctx) : (s.modCtx k c f).nextId = s.nextId := rfl
@[simp] theorem State.modCtx_free (s : State) (k c : Nat) (f : Ctx → Ctx) : (s.modCtx k c f).free = s.free := rfl
@[simp] theorem State.part_modCtx (s : State) (k c : Nat) (f : Ctx → Ctx) (x : Nat) : (s.modCtx k c f).part x = s.part x := rfl
@[simp] theorem State.port_modCtx (s : State) (k c : Nat) (f : Ctx → Ctx) (x : Nat) : (s.modCtx k c f).port x = s.port x := rfl
@[simp] theorem State.host_modCtx (s : State) (k c : Nat) (f : Ctx → Ctx) (x : Nat) : (s.modCtx k c f).host x = s.host x := rfl
@[simp] theorem State.arr_modCtx (s : State) (k c : Nat) (f : Ctx → Ctx) (x : Nat) : (s.modCtx k c f).arr x = s.arr x := rfl
@[simp] theorem State.reg_modCtx (s : State) (k c : Nat) (f : Ctx → Ctx) (x : Nat) : (s.modCtx k c f).reg x = s.reg x := rfl
@[simp] theorem State.fld_modCtx (s : State) (k c : Nat) (f : Ctx → Ctx) (x y z : Nat) : (s.modCtx k c f).fld x y z = s.fld x y z := rfl
@[simp] theorem State.hbmRead_modCtx (s : State) (k c : Nat) (f : Ctx → Ctx) (x y : Nat) : (s.modCtx k c f).hbmRead x y = s.hbmRead x y := rfl
@[simp] theorem State.storeRead_modCtx (s : State) (k c : Nat) (f : Ctx → Ctx) (x y z : Nat) : (s.modCtx k c f).storeRead x y z = s.storeRead x y z := rfl
@[simp] theorem State.bankRead_modCtx (s : State) (k c : Nat) (f : Ctx → Ctx) (w x y z : Nat) : (s.modCtx k c f).bankRead w x y z = s.bankRead w x y z := rfl

@[simp] theorem State.modArr_pending (s : State) (A : Nat) (f : ArrayDyn → ArrayDyn) : (s.modArr A f).pending = s.pending := rfl
@[simp] theorem State.modArr_regs (s : State) (A : Nat) (f : ArrayDyn → ArrayDyn) : (s.modArr A f).regs = s.regs := rfl
@[simp] theorem State.modArr_hbm (s : State) (A : Nat) (f : ArrayDyn → ArrayDyn) : (s.modArr A f).hbm = s.hbm := rfl
@[simp] theorem State.modArr_store (s : State) (A : Nat) (f : ArrayDyn → ArrayDyn) : (s.modArr A f).store = s.store := rfl
@[simp] theorem State.modArr_lstore (s : State) (A : Nat) (f : ArrayDyn → ArrayDyn) : (s.modArr A f).lstore = s.lstore := rfl
@[simp] theorem State.modArr_mbuf (s : State) (A : Nat) (f : ArrayDyn → ArrayDyn) : (s.modArr A f).mbuf = s.mbuf := rfl
@[simp] theorem State.modArr_badLine (s : State) (A : Nat) (f : ArrayDyn → ArrayDyn) : (s.modArr A f).badLine = s.badLine := rfl
@[simp] theorem State.modArr_cores (s : State) (A : Nat) (f : ArrayDyn → ArrayDyn) : (s.modArr A f).cores = s.cores := rfl
@[simp] theorem State.modArr_parts (s : State) (A : Nat) (f : ArrayDyn → ArrayDyn) : (s.modArr A f).parts = s.parts := rfl
@[simp] theorem State.modArr_bars (s : State) (A : Nat) (f : ArrayDyn → ArrayDyn) : (s.modArr A f).bars = s.bars := rfl
@[simp] theorem State.modArr_ports (s : State) (A : Nat) (f : ArrayDyn → ArrayDyn) : (s.modArr A f).ports = s.ports := rfl
@[simp] theorem State.modArr_hosts (s : State) (A : Nat) (f : ArrayDyn → ArrayDyn) : (s.modArr A f).hosts = s.hosts := rfl
@[simp] theorem State.modArr_slots (s : State) (A : Nat) (f : ArrayDyn → ArrayDyn) : (s.modArr A f).slots = s.slots := rfl
@[simp] theorem State.modArr_transfers (s : State) (A : Nat) (f : ArrayDyn → ArrayDyn) : (s.modArr A f).transfers = s.transfers := rfl
@[simp] theorem State.modArr_reads (s : State) (A : Nat) (f : ArrayDyn → ArrayDyn) : (s.modArr A f).reads = s.reads := rfl
@[simp] theorem State.modArr_stra (s : State) (A : Nat) (f : ArrayDyn → ArrayDyn) : (s.modArr A f).stra = s.stra := rfl
@[simp] theorem State.modArr_sent (s : State) (A : Nat) (f : ArrayDyn → ArrayDyn) : (s.modArr A f).sent = s.sent := rfl
@[simp] theorem State.modArr_gathers (s : State) (A : Nat) (f : ArrayDyn → ArrayDyn) : (s.modArr A f).gathers = s.gathers := rfl
@[simp] theorem State.modArr_mcasts (s : State) (A : Nat) (f : ArrayDyn → ArrayDyn) : (s.modArr A f).mcasts = s.mcasts := rfl
@[simp] theorem State.modArr_recoveries (s : State) (A : Nat) (f : ArrayDyn → ArrayDyn) : (s.modArr A f).recoveries = s.recoveries := rfl
@[simp] theorem State.modArr_supplied (s : State) (A : Nat) (f : ArrayDyn → ArrayDyn) : (s.modArr A f).supplied = s.supplied := rfl
@[simp] theorem State.modArr_writtenBack (s : State) (A : Nat) (f : ArrayDyn → ArrayDyn) : (s.modArr A f).writtenBack = s.writtenBack := rfl
@[simp] theorem State.modArr_heldWrites (s : State) (A : Nat) (f : ArrayDyn → ArrayDyn) : (s.modArr A f).heldWrites = s.heldWrites := rfl
@[simp] theorem State.modArr_maint (s : State) (A : Nat) (f : ArrayDyn → ArrayDyn) : (s.modArr A f).maint = s.maint := rfl
@[simp] theorem State.modArr_agenda (s : State) (A : Nat) (f : ArrayDyn → ArrayDyn) : (s.modArr A f).agenda = s.agenda := rfl
@[simp] theorem State.modArr_evq (s : State) (A : Nat) (f : ArrayDyn → ArrayDyn) : (s.modArr A f).evq = s.evq := rfl
@[simp] theorem State.modArr_evLost (s : State) (A : Nat) (f : ArrayDyn → ArrayDyn) : (s.modArr A f).evLost = s.evLost := rfl
@[simp] theorem State.modArr_logs (s : State) (A : Nat) (f : ArrayDyn → ArrayDyn) : (s.modArr A f).logs = s.logs := rfl
@[simp] theorem State.modArr_clk (s : State) (A : Nat) (f : ArrayDyn → ArrayDyn) : (s.modArr A f).clk = s.clk := rfl
@[simp] theorem State.modArr_pwr (s : State) (A : Nat) (f : ArrayDyn → ArrayDyn) : (s.modArr A f).pwr = s.pwr := rfl
@[simp] theorem State.modArr_zen (s : State) (A : Nat) (f : ArrayDyn → ArrayDyn) : (s.modArr A f).zen = s.zen := rfl
@[simp] theorem State.modArr_tap (s : State) (A : Nat) (f : ArrayDyn → ArrayDyn) : (s.modArr A f).tap = s.tap := rfl
@[simp] theorem State.modArr_dumps (s : State) (A : Nat) (f : ArrayDyn → ArrayDyn) : (s.modArr A f).dumps = s.dumps := rfl
@[simp] theorem State.modArr_trace (s : State) (A : Nat) (f : ArrayDyn → ArrayDyn) : (s.modArr A f).trace = s.trace := rfl
@[simp] theorem State.modArr_pstat (s : State) (A : Nat) (f : ArrayDyn → ArrayDyn) : (s.modArr A f).pstat = s.pstat := rfl
@[simp] theorem State.modArr_eid (s : State) (A : Nat) (f : ArrayDyn → ArrayDyn) : (s.modArr A f).eid = s.eid := rfl
@[simp] theorem State.modArr_outbox (s : State) (A : Nat) (f : ArrayDyn → ArrayDyn) : (s.modArr A f).outbox = s.outbox := rfl
@[simp] theorem State.modArr_nextId (s : State) (A : Nat) (f : ArrayDyn → ArrayDyn) : (s.modArr A f).nextId = s.nextId := rfl
@[simp] theorem State.modArr_free (s : State) (A : Nat) (f : ArrayDyn → ArrayDyn) : (s.modArr A f).free = s.free := rfl
@[simp] theorem State.part_modArr (s : State) (A : Nat) (f : ArrayDyn → ArrayDyn) (x : Nat) : (s.modArr A f).part x = s.part x := rfl
@[simp] theorem State.port_modArr (s : State) (A : Nat) (f : ArrayDyn → ArrayDyn) (x : Nat) : (s.modArr A f).port x = s.port x := rfl
@[simp] theorem State.host_modArr (s : State) (A : Nat) (f : ArrayDyn → ArrayDyn) (x : Nat) : (s.modArr A f).host x = s.host x := rfl
@[simp] theorem State.core_modArr (s : State) (A : Nat) (f : ArrayDyn → ArrayDyn) (x : Nat) : (s.modArr A f).core x = s.core x := rfl
@[simp] theorem State.ctx_modArr (s : State) (A : Nat) (f : ArrayDyn → ArrayDyn) (x y : Nat) : (s.modArr A f).ctx x y = s.ctx x y := rfl
@[simp] theorem State.reg_modArr (s : State) (A : Nat) (f : ArrayDyn → ArrayDyn) (x : Nat) : (s.modArr A f).reg x = s.reg x := rfl
@[simp] theorem State.fld_modArr (s : State) (A : Nat) (f : ArrayDyn → ArrayDyn) (x y z : Nat) : (s.modArr A f).fld x y z = s.fld x y z := rfl
@[simp] theorem State.hbmRead_modArr (s : State) (A : Nat) (f : ArrayDyn → ArrayDyn) (x y : Nat) : (s.modArr A f).hbmRead x y = s.hbmRead x y := rfl
@[simp] theorem State.storeRead_modArr (s : State) (A : Nat) (f : ArrayDyn → ArrayDyn) (x y z : Nat) : (s.modArr A f).storeRead x y z = s.storeRead x y z := rfl
@[simp] theorem State.bankRead_modArr (s : State) (A : Nat) (f : ArrayDyn → ArrayDyn) (w x y z : Nat) : (s.modArr A f).bankRead w x y z = s.bankRead w x y z := rfl

@[simp] theorem State.modPart_pending (s : State) (k : Nat) (f : Part → Part) : (s.modPart k f).pending = s.pending := rfl
@[simp] theorem State.modPart_regs (s : State) (k : Nat) (f : Part → Part) : (s.modPart k f).regs = s.regs := rfl
@[simp] theorem State.modPart_hbm (s : State) (k : Nat) (f : Part → Part) : (s.modPart k f).hbm = s.hbm := rfl
@[simp] theorem State.modPart_store (s : State) (k : Nat) (f : Part → Part) : (s.modPart k f).store = s.store := rfl
@[simp] theorem State.modPart_lstore (s : State) (k : Nat) (f : Part → Part) : (s.modPart k f).lstore = s.lstore := rfl
@[simp] theorem State.modPart_mbuf (s : State) (k : Nat) (f : Part → Part) : (s.modPart k f).mbuf = s.mbuf := rfl
@[simp] theorem State.modPart_badLine (s : State) (k : Nat) (f : Part → Part) : (s.modPart k f).badLine = s.badLine := rfl
@[simp] theorem State.modPart_cores (s : State) (k : Nat) (f : Part → Part) : (s.modPart k f).cores = s.cores := rfl
@[simp] theorem State.modPart_arrays (s : State) (k : Nat) (f : Part → Part) : (s.modPart k f).arrays = s.arrays := rfl
@[simp] theorem State.modPart_bars (s : State) (k : Nat) (f : Part → Part) : (s.modPart k f).bars = s.bars := rfl
@[simp] theorem State.modPart_ports (s : State) (k : Nat) (f : Part → Part) : (s.modPart k f).ports = s.ports := rfl
@[simp] theorem State.modPart_hosts (s : State) (k : Nat) (f : Part → Part) : (s.modPart k f).hosts = s.hosts := rfl
@[simp] theorem State.modPart_slots (s : State) (k : Nat) (f : Part → Part) : (s.modPart k f).slots = s.slots := rfl
@[simp] theorem State.modPart_transfers (s : State) (k : Nat) (f : Part → Part) : (s.modPart k f).transfers = s.transfers := rfl
@[simp] theorem State.modPart_reads (s : State) (k : Nat) (f : Part → Part) : (s.modPart k f).reads = s.reads := rfl
@[simp] theorem State.modPart_stra (s : State) (k : Nat) (f : Part → Part) : (s.modPart k f).stra = s.stra := rfl
@[simp] theorem State.modPart_sent (s : State) (k : Nat) (f : Part → Part) : (s.modPart k f).sent = s.sent := rfl
@[simp] theorem State.modPart_gathers (s : State) (k : Nat) (f : Part → Part) : (s.modPart k f).gathers = s.gathers := rfl
@[simp] theorem State.modPart_mcasts (s : State) (k : Nat) (f : Part → Part) : (s.modPart k f).mcasts = s.mcasts := rfl
@[simp] theorem State.modPart_recoveries (s : State) (k : Nat) (f : Part → Part) : (s.modPart k f).recoveries = s.recoveries := rfl
@[simp] theorem State.modPart_supplied (s : State) (k : Nat) (f : Part → Part) : (s.modPart k f).supplied = s.supplied := rfl
@[simp] theorem State.modPart_writtenBack (s : State) (k : Nat) (f : Part → Part) : (s.modPart k f).writtenBack = s.writtenBack := rfl
@[simp] theorem State.modPart_heldWrites (s : State) (k : Nat) (f : Part → Part) : (s.modPart k f).heldWrites = s.heldWrites := rfl
@[simp] theorem State.modPart_maint (s : State) (k : Nat) (f : Part → Part) : (s.modPart k f).maint = s.maint := rfl
@[simp] theorem State.modPart_agenda (s : State) (k : Nat) (f : Part → Part) : (s.modPart k f).agenda = s.agenda := rfl
@[simp] theorem State.modPart_evq (s : State) (k : Nat) (f : Part → Part) : (s.modPart k f).evq = s.evq := rfl
@[simp] theorem State.modPart_evLost (s : State) (k : Nat) (f : Part → Part) : (s.modPart k f).evLost = s.evLost := rfl
@[simp] theorem State.modPart_logs (s : State) (k : Nat) (f : Part → Part) : (s.modPart k f).logs = s.logs := rfl
@[simp] theorem State.modPart_clk (s : State) (k : Nat) (f : Part → Part) : (s.modPart k f).clk = s.clk := rfl
@[simp] theorem State.modPart_pwr (s : State) (k : Nat) (f : Part → Part) : (s.modPart k f).pwr = s.pwr := rfl
@[simp] theorem State.modPart_zen (s : State) (k : Nat) (f : Part → Part) : (s.modPart k f).zen = s.zen := rfl
@[simp] theorem State.modPart_tap (s : State) (k : Nat) (f : Part → Part) : (s.modPart k f).tap = s.tap := rfl
@[simp] theorem State.modPart_dumps (s : State) (k : Nat) (f : Part → Part) : (s.modPart k f).dumps = s.dumps := rfl
@[simp] theorem State.modPart_trace (s : State) (k : Nat) (f : Part → Part) : (s.modPart k f).trace = s.trace := rfl
@[simp] theorem State.modPart_pstat (s : State) (k : Nat) (f : Part → Part) : (s.modPart k f).pstat = s.pstat := rfl
@[simp] theorem State.modPart_eid (s : State) (k : Nat) (f : Part → Part) : (s.modPart k f).eid = s.eid := rfl
@[simp] theorem State.modPart_outbox (s : State) (k : Nat) (f : Part → Part) : (s.modPart k f).outbox = s.outbox := rfl
@[simp] theorem State.modPart_nextId (s : State) (k : Nat) (f : Part → Part) : (s.modPart k f).nextId = s.nextId := rfl
@[simp] theorem State.modPart_free (s : State) (k : Nat) (f : Part → Part) : (s.modPart k f).free = s.free := rfl
@[simp] theorem State.port_modPart (s : State) (k : Nat) (f : Part → Part) (x : Nat) : (s.modPart k f).port x = s.port x := rfl
@[simp] theorem State.host_modPart (s : State) (k : Nat) (f : Part → Part) (x : Nat) : (s.modPart k f).host x = s.host x := rfl
@[simp] theorem State.core_modPart (s : State) (k : Nat) (f : Part → Part) (x : Nat) : (s.modPart k f).core x = s.core x := rfl
@[simp] theorem State.arr_modPart (s : State) (k : Nat) (f : Part → Part) (x : Nat) : (s.modPart k f).arr x = s.arr x := rfl
@[simp] theorem State.ctx_modPart (s : State) (k : Nat) (f : Part → Part) (x y : Nat) : (s.modPart k f).ctx x y = s.ctx x y := rfl
@[simp] theorem State.reg_modPart (s : State) (k : Nat) (f : Part → Part) (x : Nat) : (s.modPart k f).reg x = s.reg x := rfl
@[simp] theorem State.fld_modPart (s : State) (k : Nat) (f : Part → Part) (x y z : Nat) : (s.modPart k f).fld x y z = s.fld x y z := rfl
@[simp] theorem State.hbmRead_modPart (s : State) (k : Nat) (f : Part → Part) (x y : Nat) : (s.modPart k f).hbmRead x y = s.hbmRead x y := rfl
@[simp] theorem State.storeRead_modPart (s : State) (k : Nat) (f : Part → Part) (x y z : Nat) : (s.modPart k f).storeRead x y z = s.storeRead x y z := rfl
@[simp] theorem State.bankRead_modPart (s : State) (k : Nat) (f : Part → Part) (w x y z : Nat) : (s.modPart k f).bankRead w x y z = s.bankRead w x y z := rfl

@[simp] theorem State.modPort_pending (s : State) (p : Nat) (f : PortDyn → PortDyn) : (s.modPort p f).pending = s.pending := rfl
@[simp] theorem State.modPort_regs (s : State) (p : Nat) (f : PortDyn → PortDyn) : (s.modPort p f).regs = s.regs := rfl
@[simp] theorem State.modPort_hbm (s : State) (p : Nat) (f : PortDyn → PortDyn) : (s.modPort p f).hbm = s.hbm := rfl
@[simp] theorem State.modPort_store (s : State) (p : Nat) (f : PortDyn → PortDyn) : (s.modPort p f).store = s.store := rfl
@[simp] theorem State.modPort_lstore (s : State) (p : Nat) (f : PortDyn → PortDyn) : (s.modPort p f).lstore = s.lstore := rfl
@[simp] theorem State.modPort_mbuf (s : State) (p : Nat) (f : PortDyn → PortDyn) : (s.modPort p f).mbuf = s.mbuf := rfl
@[simp] theorem State.modPort_badLine (s : State) (p : Nat) (f : PortDyn → PortDyn) : (s.modPort p f).badLine = s.badLine := rfl
@[simp] theorem State.modPort_cores (s : State) (p : Nat) (f : PortDyn → PortDyn) : (s.modPort p f).cores = s.cores := rfl
@[simp] theorem State.modPort_arrays (s : State) (p : Nat) (f : PortDyn → PortDyn) : (s.modPort p f).arrays = s.arrays := rfl
@[simp] theorem State.modPort_parts (s : State) (p : Nat) (f : PortDyn → PortDyn) : (s.modPort p f).parts = s.parts := rfl
@[simp] theorem State.modPort_bars (s : State) (p : Nat) (f : PortDyn → PortDyn) : (s.modPort p f).bars = s.bars := rfl
@[simp] theorem State.modPort_hosts (s : State) (p : Nat) (f : PortDyn → PortDyn) : (s.modPort p f).hosts = s.hosts := rfl
@[simp] theorem State.modPort_slots (s : State) (p : Nat) (f : PortDyn → PortDyn) : (s.modPort p f).slots = s.slots := rfl
@[simp] theorem State.modPort_transfers (s : State) (p : Nat) (f : PortDyn → PortDyn) : (s.modPort p f).transfers = s.transfers := rfl
@[simp] theorem State.modPort_reads (s : State) (p : Nat) (f : PortDyn → PortDyn) : (s.modPort p f).reads = s.reads := rfl
@[simp] theorem State.modPort_stra (s : State) (p : Nat) (f : PortDyn → PortDyn) : (s.modPort p f).stra = s.stra := rfl
@[simp] theorem State.modPort_sent (s : State) (p : Nat) (f : PortDyn → PortDyn) : (s.modPort p f).sent = s.sent := rfl
@[simp] theorem State.modPort_gathers (s : State) (p : Nat) (f : PortDyn → PortDyn) : (s.modPort p f).gathers = s.gathers := rfl
@[simp] theorem State.modPort_mcasts (s : State) (p : Nat) (f : PortDyn → PortDyn) : (s.modPort p f).mcasts = s.mcasts := rfl
@[simp] theorem State.modPort_recoveries (s : State) (p : Nat) (f : PortDyn → PortDyn) : (s.modPort p f).recoveries = s.recoveries := rfl
@[simp] theorem State.modPort_supplied (s : State) (p : Nat) (f : PortDyn → PortDyn) : (s.modPort p f).supplied = s.supplied := rfl
@[simp] theorem State.modPort_writtenBack (s : State) (p : Nat) (f : PortDyn → PortDyn) : (s.modPort p f).writtenBack = s.writtenBack := rfl
@[simp] theorem State.modPort_heldWrites (s : State) (p : Nat) (f : PortDyn → PortDyn) : (s.modPort p f).heldWrites = s.heldWrites := rfl
@[simp] theorem State.modPort_maint (s : State) (p : Nat) (f : PortDyn → PortDyn) : (s.modPort p f).maint = s.maint := rfl
@[simp] theorem State.modPort_agenda (s : State) (p : Nat) (f : PortDyn → PortDyn) : (s.modPort p f).agenda = s.agenda := rfl
@[simp] theorem State.modPort_evq (s : State) (p : Nat) (f : PortDyn → PortDyn) : (s.modPort p f).evq = s.evq := rfl
@[simp] theorem State.modPort_evLost (s : State) (p : Nat) (f : PortDyn → PortDyn) : (s.modPort p f).evLost = s.evLost := rfl
@[simp] theorem State.modPort_logs (s : State) (p : Nat) (f : PortDyn → PortDyn) : (s.modPort p f).logs = s.logs := rfl
@[simp] theorem State.modPort_clk (s : State) (p : Nat) (f : PortDyn → PortDyn) : (s.modPort p f).clk = s.clk := rfl
@[simp] theorem State.modPort_pwr (s : State) (p : Nat) (f : PortDyn → PortDyn) : (s.modPort p f).pwr = s.pwr := rfl
@[simp] theorem State.modPort_zen (s : State) (p : Nat) (f : PortDyn → PortDyn) : (s.modPort p f).zen = s.zen := rfl
@[simp] theorem State.modPort_tap (s : State) (p : Nat) (f : PortDyn → PortDyn) : (s.modPort p f).tap = s.tap := rfl
@[simp] theorem State.modPort_dumps (s : State) (p : Nat) (f : PortDyn → PortDyn) : (s.modPort p f).dumps = s.dumps := rfl
@[simp] theorem State.modPort_trace (s : State) (p : Nat) (f : PortDyn → PortDyn) : (s.modPort p f).trace = s.trace := rfl
@[simp] theorem State.modPort_pstat (s : State) (p : Nat) (f : PortDyn → PortDyn) : (s.modPort p f).pstat = s.pstat := rfl
@[simp] theorem State.modPort_eid (s : State) (p : Nat) (f : PortDyn → PortDyn) : (s.modPort p f).eid = s.eid := rfl
@[simp] theorem State.modPort_outbox (s : State) (p : Nat) (f : PortDyn → PortDyn) : (s.modPort p f).outbox = s.outbox := rfl
@[simp] theorem State.modPort_nextId (s : State) (p : Nat) (f : PortDyn → PortDyn) : (s.modPort p f).nextId = s.nextId := rfl
@[simp] theorem State.modPort_free (s : State) (p : Nat) (f : PortDyn → PortDyn) : (s.modPort p f).free = s.free := rfl
@[simp] theorem State.part_modPort (s : State) (p : Nat) (f : PortDyn → PortDyn) (x : Nat) : (s.modPort p f).part x = s.part x := rfl
@[simp] theorem State.host_modPort (s : State) (p : Nat) (f : PortDyn → PortDyn) (x : Nat) : (s.modPort p f).host x = s.host x := rfl
@[simp] theorem State.core_modPort (s : State) (p : Nat) (f : PortDyn → PortDyn) (x : Nat) : (s.modPort p f).core x = s.core x := rfl
@[simp] theorem State.arr_modPort (s : State) (p : Nat) (f : PortDyn → PortDyn) (x : Nat) : (s.modPort p f).arr x = s.arr x := rfl
@[simp] theorem State.ctx_modPort (s : State) (p : Nat) (f : PortDyn → PortDyn) (x y : Nat) : (s.modPort p f).ctx x y = s.ctx x y := rfl
@[simp] theorem State.reg_modPort (s : State) (p : Nat) (f : PortDyn → PortDyn) (x : Nat) : (s.modPort p f).reg x = s.reg x := rfl
@[simp] theorem State.fld_modPort (s : State) (p : Nat) (f : PortDyn → PortDyn) (x y z : Nat) : (s.modPort p f).fld x y z = s.fld x y z := rfl
@[simp] theorem State.hbmRead_modPort (s : State) (p : Nat) (f : PortDyn → PortDyn) (x y : Nat) : (s.modPort p f).hbmRead x y = s.hbmRead x y := rfl
@[simp] theorem State.storeRead_modPort (s : State) (p : Nat) (f : PortDyn → PortDyn) (x y z : Nat) : (s.modPort p f).storeRead x y z = s.storeRead x y z := rfl
@[simp] theorem State.bankRead_modPort (s : State) (p : Nat) (f : PortDyn → PortDyn) (w x y z : Nat) : (s.modPort p f).bankRead w x y z = s.bankRead w x y z := rfl

@[simp] theorem State.modHost_pending (s : State) (h : Nat) (f : HostPort → HostPort) : (s.modHost h f).pending = s.pending := rfl
@[simp] theorem State.modHost_regs (s : State) (h : Nat) (f : HostPort → HostPort) : (s.modHost h f).regs = s.regs := rfl
@[simp] theorem State.modHost_hbm (s : State) (h : Nat) (f : HostPort → HostPort) : (s.modHost h f).hbm = s.hbm := rfl
@[simp] theorem State.modHost_store (s : State) (h : Nat) (f : HostPort → HostPort) : (s.modHost h f).store = s.store := rfl
@[simp] theorem State.modHost_lstore (s : State) (h : Nat) (f : HostPort → HostPort) : (s.modHost h f).lstore = s.lstore := rfl
@[simp] theorem State.modHost_mbuf (s : State) (h : Nat) (f : HostPort → HostPort) : (s.modHost h f).mbuf = s.mbuf := rfl
@[simp] theorem State.modHost_badLine (s : State) (h : Nat) (f : HostPort → HostPort) : (s.modHost h f).badLine = s.badLine := rfl
@[simp] theorem State.modHost_cores (s : State) (h : Nat) (f : HostPort → HostPort) : (s.modHost h f).cores = s.cores := rfl
@[simp] theorem State.modHost_arrays (s : State) (h : Nat) (f : HostPort → HostPort) : (s.modHost h f).arrays = s.arrays := rfl
@[simp] theorem State.modHost_parts (s : State) (h : Nat) (f : HostPort → HostPort) : (s.modHost h f).parts = s.parts := rfl
@[simp] theorem State.modHost_bars (s : State) (h : Nat) (f : HostPort → HostPort) : (s.modHost h f).bars = s.bars := rfl
@[simp] theorem State.modHost_ports (s : State) (h : Nat) (f : HostPort → HostPort) : (s.modHost h f).ports = s.ports := rfl
@[simp] theorem State.modHost_slots (s : State) (h : Nat) (f : HostPort → HostPort) : (s.modHost h f).slots = s.slots := rfl
@[simp] theorem State.modHost_transfers (s : State) (h : Nat) (f : HostPort → HostPort) : (s.modHost h f).transfers = s.transfers := rfl
@[simp] theorem State.modHost_reads (s : State) (h : Nat) (f : HostPort → HostPort) : (s.modHost h f).reads = s.reads := rfl
@[simp] theorem State.modHost_stra (s : State) (h : Nat) (f : HostPort → HostPort) : (s.modHost h f).stra = s.stra := rfl
@[simp] theorem State.modHost_sent (s : State) (h : Nat) (f : HostPort → HostPort) : (s.modHost h f).sent = s.sent := rfl
@[simp] theorem State.modHost_gathers (s : State) (h : Nat) (f : HostPort → HostPort) : (s.modHost h f).gathers = s.gathers := rfl
@[simp] theorem State.modHost_mcasts (s : State) (h : Nat) (f : HostPort → HostPort) : (s.modHost h f).mcasts = s.mcasts := rfl
@[simp] theorem State.modHost_recoveries (s : State) (h : Nat) (f : HostPort → HostPort) : (s.modHost h f).recoveries = s.recoveries := rfl
@[simp] theorem State.modHost_supplied (s : State) (h : Nat) (f : HostPort → HostPort) : (s.modHost h f).supplied = s.supplied := rfl
@[simp] theorem State.modHost_writtenBack (s : State) (h : Nat) (f : HostPort → HostPort) : (s.modHost h f).writtenBack = s.writtenBack := rfl
@[simp] theorem State.modHost_heldWrites (s : State) (h : Nat) (f : HostPort → HostPort) : (s.modHost h f).heldWrites = s.heldWrites := rfl
@[simp] theorem State.modHost_maint (s : State) (h : Nat) (f : HostPort → HostPort) : (s.modHost h f).maint = s.maint := rfl
@[simp] theorem State.modHost_agenda (s : State) (h : Nat) (f : HostPort → HostPort) : (s.modHost h f).agenda = s.agenda := rfl
@[simp] theorem State.modHost_evq (s : State) (h : Nat) (f : HostPort → HostPort) : (s.modHost h f).evq = s.evq := rfl
@[simp] theorem State.modHost_evLost (s : State) (h : Nat) (f : HostPort → HostPort) : (s.modHost h f).evLost = s.evLost := rfl
@[simp] theorem State.modHost_logs (s : State) (h : Nat) (f : HostPort → HostPort) : (s.modHost h f).logs = s.logs := rfl
@[simp] theorem State.modHost_clk (s : State) (h : Nat) (f : HostPort → HostPort) : (s.modHost h f).clk = s.clk := rfl
@[simp] theorem State.modHost_pwr (s : State) (h : Nat) (f : HostPort → HostPort) : (s.modHost h f).pwr = s.pwr := rfl
@[simp] theorem State.modHost_zen (s : State) (h : Nat) (f : HostPort → HostPort) : (s.modHost h f).zen = s.zen := rfl
@[simp] theorem State.modHost_tap (s : State) (h : Nat) (f : HostPort → HostPort) : (s.modHost h f).tap = s.tap := rfl
@[simp] theorem State.modHost_dumps (s : State) (h : Nat) (f : HostPort → HostPort) : (s.modHost h f).dumps = s.dumps := rfl
@[simp] theorem State.modHost_trace (s : State) (h : Nat) (f : HostPort → HostPort) : (s.modHost h f).trace = s.trace := rfl
@[simp] theorem State.modHost_pstat (s : State) (h : Nat) (f : HostPort → HostPort) : (s.modHost h f).pstat = s.pstat := rfl
@[simp] theorem State.modHost_eid (s : State) (h : Nat) (f : HostPort → HostPort) : (s.modHost h f).eid = s.eid := rfl
@[simp] theorem State.modHost_outbox (s : State) (h : Nat) (f : HostPort → HostPort) : (s.modHost h f).outbox = s.outbox := rfl
@[simp] theorem State.modHost_nextId (s : State) (h : Nat) (f : HostPort → HostPort) : (s.modHost h f).nextId = s.nextId := rfl
@[simp] theorem State.modHost_free (s : State) (h : Nat) (f : HostPort → HostPort) : (s.modHost h f).free = s.free := rfl
@[simp] theorem State.part_modHost (s : State) (h : Nat) (f : HostPort → HostPort) (x : Nat) : (s.modHost h f).part x = s.part x := rfl
@[simp] theorem State.port_modHost (s : State) (h : Nat) (f : HostPort → HostPort) (x : Nat) : (s.modHost h f).port x = s.port x := rfl
@[simp] theorem State.core_modHost (s : State) (h : Nat) (f : HostPort → HostPort) (x : Nat) : (s.modHost h f).core x = s.core x := rfl
@[simp] theorem State.arr_modHost (s : State) (h : Nat) (f : HostPort → HostPort) (x : Nat) : (s.modHost h f).arr x = s.arr x := rfl
@[simp] theorem State.ctx_modHost (s : State) (h : Nat) (f : HostPort → HostPort) (x y : Nat) : (s.modHost h f).ctx x y = s.ctx x y := rfl
@[simp] theorem State.reg_modHost (s : State) (h : Nat) (f : HostPort → HostPort) (x : Nat) : (s.modHost h f).reg x = s.reg x := rfl
@[simp] theorem State.fld_modHost (s : State) (h : Nat) (f : HostPort → HostPort) (x y z : Nat) : (s.modHost h f).fld x y z = s.fld x y z := rfl
@[simp] theorem State.hbmRead_modHost (s : State) (h : Nat) (f : HostPort → HostPort) (x y : Nat) : (s.modHost h f).hbmRead x y = s.hbmRead x y := rfl
@[simp] theorem State.storeRead_modHost (s : State) (h : Nat) (f : HostPort → HostPort) (x y z : Nat) : (s.modHost h f).storeRead x y z = s.storeRead x y z := rfl
@[simp] theorem State.bankRead_modHost (s : State) (h : Nat) (f : HostPort → HostPort) (w x y z : Nat) : (s.modHost h f).bankRead w x y z = s.bankRead w x y z := rfl

@[simp] theorem State.out_pending (s : State) (o : Output) : (s.out o).pending = s.pending := rfl
@[simp] theorem State.out_regs (s : State) (o : Output) : (s.out o).regs = s.regs := rfl
@[simp] theorem State.out_hbm (s : State) (o : Output) : (s.out o).hbm = s.hbm := rfl
@[simp] theorem State.out_store (s : State) (o : Output) : (s.out o).store = s.store := rfl
@[simp] theorem State.out_lstore (s : State) (o : Output) : (s.out o).lstore = s.lstore := rfl
@[simp] theorem State.out_mbuf (s : State) (o : Output) : (s.out o).mbuf = s.mbuf := rfl
@[simp] theorem State.out_badLine (s : State) (o : Output) : (s.out o).badLine = s.badLine := rfl
@[simp] theorem State.out_cores (s : State) (o : Output) : (s.out o).cores = s.cores := rfl
@[simp] theorem State.out_arrays (s : State) (o : Output) : (s.out o).arrays = s.arrays := rfl
@[simp] theorem State.out_parts (s : State) (o : Output) : (s.out o).parts = s.parts := rfl
@[simp] theorem State.out_bars (s : State) (o : Output) : (s.out o).bars = s.bars := rfl
@[simp] theorem State.out_ports (s : State) (o : Output) : (s.out o).ports = s.ports := rfl
@[simp] theorem State.out_hosts (s : State) (o : Output) : (s.out o).hosts = s.hosts := rfl
@[simp] theorem State.out_slots (s : State) (o : Output) : (s.out o).slots = s.slots := rfl
@[simp] theorem State.out_transfers (s : State) (o : Output) : (s.out o).transfers = s.transfers := rfl
@[simp] theorem State.out_reads (s : State) (o : Output) : (s.out o).reads = s.reads := rfl
@[simp] theorem State.out_stra (s : State) (o : Output) : (s.out o).stra = s.stra := rfl
@[simp] theorem State.out_sent (s : State) (o : Output) : (s.out o).sent = s.sent := rfl
@[simp] theorem State.out_gathers (s : State) (o : Output) : (s.out o).gathers = s.gathers := rfl
@[simp] theorem State.out_mcasts (s : State) (o : Output) : (s.out o).mcasts = s.mcasts := rfl
@[simp] theorem State.out_recoveries (s : State) (o : Output) : (s.out o).recoveries = s.recoveries := rfl
@[simp] theorem State.out_supplied (s : State) (o : Output) : (s.out o).supplied = s.supplied := rfl
@[simp] theorem State.out_writtenBack (s : State) (o : Output) : (s.out o).writtenBack = s.writtenBack := rfl
@[simp] theorem State.out_heldWrites (s : State) (o : Output) : (s.out o).heldWrites = s.heldWrites := rfl
@[simp] theorem State.out_maint (s : State) (o : Output) : (s.out o).maint = s.maint := rfl
@[simp] theorem State.out_agenda (s : State) (o : Output) : (s.out o).agenda = s.agenda := rfl
@[simp] theorem State.out_evq (s : State) (o : Output) : (s.out o).evq = s.evq := rfl
@[simp] theorem State.out_evLost (s : State) (o : Output) : (s.out o).evLost = s.evLost := rfl
@[simp] theorem State.out_logs (s : State) (o : Output) : (s.out o).logs = s.logs := rfl
@[simp] theorem State.out_clk (s : State) (o : Output) : (s.out o).clk = s.clk := rfl
@[simp] theorem State.out_pwr (s : State) (o : Output) : (s.out o).pwr = s.pwr := rfl
@[simp] theorem State.out_zen (s : State) (o : Output) : (s.out o).zen = s.zen := rfl
@[simp] theorem State.out_tap (s : State) (o : Output) : (s.out o).tap = s.tap := rfl
@[simp] theorem State.out_dumps (s : State) (o : Output) : (s.out o).dumps = s.dumps := rfl
@[simp] theorem State.out_trace (s : State) (o : Output) : (s.out o).trace = s.trace := rfl
@[simp] theorem State.out_pstat (s : State) (o : Output) : (s.out o).pstat = s.pstat := rfl
@[simp] theorem State.out_eid (s : State) (o : Output) : (s.out o).eid = s.eid := rfl
@[simp] theorem State.out_nextId (s : State) (o : Output) : (s.out o).nextId = s.nextId := rfl
@[simp] theorem State.out_free (s : State) (o : Output) : (s.out o).free = s.free := rfl
@[simp] theorem State.part_out (s : State) (o : Output) (x : Nat) : (s.out o).part x = s.part x := rfl
@[simp] theorem State.port_out (s : State) (o : Output) (x : Nat) : (s.out o).port x = s.port x := rfl
@[simp] theorem State.host_out (s : State) (o : Output) (x : Nat) : (s.out o).host x = s.host x := rfl
@[simp] theorem State.core_out (s : State) (o : Output) (x : Nat) : (s.out o).core x = s.core x := rfl
@[simp] theorem State.arr_out (s : State) (o : Output) (x : Nat) : (s.out o).arr x = s.arr x := rfl
@[simp] theorem State.ctx_out (s : State) (o : Output) (x y : Nat) : (s.out o).ctx x y = s.ctx x y := rfl
@[simp] theorem State.reg_out (s : State) (o : Output) (x : Nat) : (s.out o).reg x = s.reg x := rfl
@[simp] theorem State.fld_out (s : State) (o : Output) (x y z : Nat) : (s.out o).fld x y z = s.fld x y z := rfl
@[simp] theorem State.hbmRead_out (s : State) (o : Output) (x y : Nat) : (s.out o).hbmRead x y = s.hbmRead x y := rfl
@[simp] theorem State.storeRead_out (s : State) (o : Output) (x y z : Nat) : (s.out o).storeRead x y z = s.storeRead x y z := rfl
@[simp] theorem State.bankRead_out (s : State) (o : Output) (w x y z : Nat) : (s.out o).bankRead w x y z = s.bankRead w x y z := rfl

@[simp] theorem State.after_pending (s : State) (dom : Option Nat) (d : Nat) (a : Act) : (s.after dom d a).pending = s.pending := rfl
@[simp] theorem State.after_regs (s : State) (dom : Option Nat) (d : Nat) (a : Act) : (s.after dom d a).regs = s.regs := rfl
@[simp] theorem State.after_hbm (s : State) (dom : Option Nat) (d : Nat) (a : Act) : (s.after dom d a).hbm = s.hbm := rfl
@[simp] theorem State.after_store (s : State) (dom : Option Nat) (d : Nat) (a : Act) : (s.after dom d a).store = s.store := rfl
@[simp] theorem State.after_lstore (s : State) (dom : Option Nat) (d : Nat) (a : Act) : (s.after dom d a).lstore = s.lstore := rfl
@[simp] theorem State.after_mbuf (s : State) (dom : Option Nat) (d : Nat) (a : Act) : (s.after dom d a).mbuf = s.mbuf := rfl
@[simp] theorem State.after_badLine (s : State) (dom : Option Nat) (d : Nat) (a : Act) : (s.after dom d a).badLine = s.badLine := rfl
@[simp] theorem State.after_cores (s : State) (dom : Option Nat) (d : Nat) (a : Act) : (s.after dom d a).cores = s.cores := rfl
@[simp] theorem State.after_arrays (s : State) (dom : Option Nat) (d : Nat) (a : Act) : (s.after dom d a).arrays = s.arrays := rfl
@[simp] theorem State.after_parts (s : State) (dom : Option Nat) (d : Nat) (a : Act) : (s.after dom d a).parts = s.parts := rfl
@[simp] theorem State.after_bars (s : State) (dom : Option Nat) (d : Nat) (a : Act) : (s.after dom d a).bars = s.bars := rfl
@[simp] theorem State.after_ports (s : State) (dom : Option Nat) (d : Nat) (a : Act) : (s.after dom d a).ports = s.ports := rfl
@[simp] theorem State.after_hosts (s : State) (dom : Option Nat) (d : Nat) (a : Act) : (s.after dom d a).hosts = s.hosts := rfl
@[simp] theorem State.after_slots (s : State) (dom : Option Nat) (d : Nat) (a : Act) : (s.after dom d a).slots = s.slots := rfl
@[simp] theorem State.after_transfers (s : State) (dom : Option Nat) (d : Nat) (a : Act) : (s.after dom d a).transfers = s.transfers := rfl
@[simp] theorem State.after_reads (s : State) (dom : Option Nat) (d : Nat) (a : Act) : (s.after dom d a).reads = s.reads := rfl
@[simp] theorem State.after_stra (s : State) (dom : Option Nat) (d : Nat) (a : Act) : (s.after dom d a).stra = s.stra := rfl
@[simp] theorem State.after_sent (s : State) (dom : Option Nat) (d : Nat) (a : Act) : (s.after dom d a).sent = s.sent := rfl
@[simp] theorem State.after_gathers (s : State) (dom : Option Nat) (d : Nat) (a : Act) : (s.after dom d a).gathers = s.gathers := rfl
@[simp] theorem State.after_mcasts (s : State) (dom : Option Nat) (d : Nat) (a : Act) : (s.after dom d a).mcasts = s.mcasts := rfl
@[simp] theorem State.after_recoveries (s : State) (dom : Option Nat) (d : Nat) (a : Act) : (s.after dom d a).recoveries = s.recoveries := rfl
@[simp] theorem State.after_supplied (s : State) (dom : Option Nat) (d : Nat) (a : Act) : (s.after dom d a).supplied = s.supplied := rfl
@[simp] theorem State.after_writtenBack (s : State) (dom : Option Nat) (d : Nat) (a : Act) : (s.after dom d a).writtenBack = s.writtenBack := rfl
@[simp] theorem State.after_heldWrites (s : State) (dom : Option Nat) (d : Nat) (a : Act) : (s.after dom d a).heldWrites = s.heldWrites := rfl
@[simp] theorem State.after_maint (s : State) (dom : Option Nat) (d : Nat) (a : Act) : (s.after dom d a).maint = s.maint := rfl
@[simp] theorem State.after_evq (s : State) (dom : Option Nat) (d : Nat) (a : Act) : (s.after dom d a).evq = s.evq := rfl
@[simp] theorem State.after_evLost (s : State) (dom : Option Nat) (d : Nat) (a : Act) : (s.after dom d a).evLost = s.evLost := rfl
@[simp] theorem State.after_logs (s : State) (dom : Option Nat) (d : Nat) (a : Act) : (s.after dom d a).logs = s.logs := rfl
@[simp] theorem State.after_clk (s : State) (dom : Option Nat) (d : Nat) (a : Act) : (s.after dom d a).clk = s.clk := rfl
@[simp] theorem State.after_pwr (s : State) (dom : Option Nat) (d : Nat) (a : Act) : (s.after dom d a).pwr = s.pwr := rfl
@[simp] theorem State.after_zen (s : State) (dom : Option Nat) (d : Nat) (a : Act) : (s.after dom d a).zen = s.zen := rfl
@[simp] theorem State.after_tap (s : State) (dom : Option Nat) (d : Nat) (a : Act) : (s.after dom d a).tap = s.tap := rfl
@[simp] theorem State.after_dumps (s : State) (dom : Option Nat) (d : Nat) (a : Act) : (s.after dom d a).dumps = s.dumps := rfl
@[simp] theorem State.after_trace (s : State) (dom : Option Nat) (d : Nat) (a : Act) : (s.after dom d a).trace = s.trace := rfl
@[simp] theorem State.after_pstat (s : State) (dom : Option Nat) (d : Nat) (a : Act) : (s.after dom d a).pstat = s.pstat := rfl
@[simp] theorem State.after_eid (s : State) (dom : Option Nat) (d : Nat) (a : Act) : (s.after dom d a).eid = s.eid := rfl
@[simp] theorem State.after_outbox (s : State) (dom : Option Nat) (d : Nat) (a : Act) : (s.after dom d a).outbox = s.outbox := rfl
@[simp] theorem State.after_nextId (s : State) (dom : Option Nat) (d : Nat) (a : Act) : (s.after dom d a).nextId = s.nextId := rfl
@[simp] theorem State.after_free (s : State) (dom : Option Nat) (d : Nat) (a : Act) : (s.after dom d a).free = s.free := rfl
@[simp] theorem State.part_after (s : State) (dom : Option Nat) (d : Nat) (a : Act) (x : Nat) : (s.after dom d a).part x = s.part x := rfl
@[simp] theorem State.port_after (s : State) (dom : Option Nat) (d : Nat) (a : Act) (x : Nat) : (s.after dom d a).port x = s.port x := rfl
@[simp] theorem State.host_after (s : State) (dom : Option Nat) (d : Nat) (a : Act) (x : Nat) : (s.after dom d a).host x = s.host x := rfl
@[simp] theorem State.core_after (s : State) (dom : Option Nat) (d : Nat) (a : Act) (x : Nat) : (s.after dom d a).core x = s.core x := rfl
@[simp] theorem State.arr_after (s : State) (dom : Option Nat) (d : Nat) (a : Act) (x : Nat) : (s.after dom d a).arr x = s.arr x := rfl
@[simp] theorem State.ctx_after (s : State) (dom : Option Nat) (d : Nat) (a : Act) (x y : Nat) : (s.after dom d a).ctx x y = s.ctx x y := rfl
@[simp] theorem State.reg_after (s : State) (dom : Option Nat) (d : Nat) (a : Act) (x : Nat) : (s.after dom d a).reg x = s.reg x := rfl
@[simp] theorem State.fld_after (s : State) (dom : Option Nat) (d : Nat) (a : Act) (x y z : Nat) : (s.after dom d a).fld x y z = s.fld x y z := rfl
@[simp] theorem State.hbmRead_after (s : State) (dom : Option Nat) (d : Nat) (a : Act) (x y : Nat) : (s.after dom d a).hbmRead x y = s.hbmRead x y := rfl
@[simp] theorem State.storeRead_after (s : State) (dom : Option Nat) (d : Nat) (a : Act) (x y z : Nat) : (s.after dom d a).storeRead x y z = s.storeRead x y z := rfl
@[simp] theorem State.bankRead_after (s : State) (dom : Option Nat) (d : Nat) (a : Act) (w x y z : Nat) : (s.after dom d a).bankRead w x y z = s.bankRead w x y z := rfl

@[simp] theorem State.later_pending (s : State) (j d : Nat) (i : Instr) : (s.later j d i).pending = s.pending := rfl
@[simp] theorem State.later_regs (s : State) (j d : Nat) (i : Instr) : (s.later j d i).regs = s.regs := rfl
@[simp] theorem State.later_hbm (s : State) (j d : Nat) (i : Instr) : (s.later j d i).hbm = s.hbm := rfl
@[simp] theorem State.later_store (s : State) (j d : Nat) (i : Instr) : (s.later j d i).store = s.store := rfl
@[simp] theorem State.later_lstore (s : State) (j d : Nat) (i : Instr) : (s.later j d i).lstore = s.lstore := rfl
@[simp] theorem State.later_mbuf (s : State) (j d : Nat) (i : Instr) : (s.later j d i).mbuf = s.mbuf := rfl
@[simp] theorem State.later_badLine (s : State) (j d : Nat) (i : Instr) : (s.later j d i).badLine = s.badLine := rfl
@[simp] theorem State.later_cores (s : State) (j d : Nat) (i : Instr) : (s.later j d i).cores = s.cores := rfl
@[simp] theorem State.later_arrays (s : State) (j d : Nat) (i : Instr) : (s.later j d i).arrays = s.arrays := rfl
@[simp] theorem State.later_parts (s : State) (j d : Nat) (i : Instr) : (s.later j d i).parts = s.parts := rfl
@[simp] theorem State.later_bars (s : State) (j d : Nat) (i : Instr) : (s.later j d i).bars = s.bars := rfl
@[simp] theorem State.later_ports (s : State) (j d : Nat) (i : Instr) : (s.later j d i).ports = s.ports := rfl
@[simp] theorem State.later_hosts (s : State) (j d : Nat) (i : Instr) : (s.later j d i).hosts = s.hosts := rfl
@[simp] theorem State.later_slots (s : State) (j d : Nat) (i : Instr) : (s.later j d i).slots = s.slots := rfl
@[simp] theorem State.later_transfers (s : State) (j d : Nat) (i : Instr) : (s.later j d i).transfers = s.transfers := rfl
@[simp] theorem State.later_reads (s : State) (j d : Nat) (i : Instr) : (s.later j d i).reads = s.reads := rfl
@[simp] theorem State.later_stra (s : State) (j d : Nat) (i : Instr) : (s.later j d i).stra = s.stra := rfl
@[simp] theorem State.later_sent (s : State) (j d : Nat) (i : Instr) : (s.later j d i).sent = s.sent := rfl
@[simp] theorem State.later_gathers (s : State) (j d : Nat) (i : Instr) : (s.later j d i).gathers = s.gathers := rfl
@[simp] theorem State.later_mcasts (s : State) (j d : Nat) (i : Instr) : (s.later j d i).mcasts = s.mcasts := rfl
@[simp] theorem State.later_recoveries (s : State) (j d : Nat) (i : Instr) : (s.later j d i).recoveries = s.recoveries := rfl
@[simp] theorem State.later_supplied (s : State) (j d : Nat) (i : Instr) : (s.later j d i).supplied = s.supplied := rfl
@[simp] theorem State.later_writtenBack (s : State) (j d : Nat) (i : Instr) : (s.later j d i).writtenBack = s.writtenBack := rfl
@[simp] theorem State.later_heldWrites (s : State) (j d : Nat) (i : Instr) : (s.later j d i).heldWrites = s.heldWrites := rfl
@[simp] theorem State.later_maint (s : State) (j d : Nat) (i : Instr) : (s.later j d i).maint = s.maint := rfl
@[simp] theorem State.later_evq (s : State) (j d : Nat) (i : Instr) : (s.later j d i).evq = s.evq := rfl
@[simp] theorem State.later_evLost (s : State) (j d : Nat) (i : Instr) : (s.later j d i).evLost = s.evLost := rfl
@[simp] theorem State.later_logs (s : State) (j d : Nat) (i : Instr) : (s.later j d i).logs = s.logs := rfl
@[simp] theorem State.later_clk (s : State) (j d : Nat) (i : Instr) : (s.later j d i).clk = s.clk := rfl
@[simp] theorem State.later_pwr (s : State) (j d : Nat) (i : Instr) : (s.later j d i).pwr = s.pwr := rfl
@[simp] theorem State.later_zen (s : State) (j d : Nat) (i : Instr) : (s.later j d i).zen = s.zen := rfl
@[simp] theorem State.later_tap (s : State) (j d : Nat) (i : Instr) : (s.later j d i).tap = s.tap := rfl
@[simp] theorem State.later_dumps (s : State) (j d : Nat) (i : Instr) : (s.later j d i).dumps = s.dumps := rfl
@[simp] theorem State.later_trace (s : State) (j d : Nat) (i : Instr) : (s.later j d i).trace = s.trace := rfl
@[simp] theorem State.later_pstat (s : State) (j d : Nat) (i : Instr) : (s.later j d i).pstat = s.pstat := rfl
@[simp] theorem State.later_eid (s : State) (j d : Nat) (i : Instr) : (s.later j d i).eid = s.eid := rfl
@[simp] theorem State.later_outbox (s : State) (j d : Nat) (i : Instr) : (s.later j d i).outbox = s.outbox := rfl
@[simp] theorem State.later_nextId (s : State) (j d : Nat) (i : Instr) : (s.later j d i).nextId = s.nextId := rfl
@[simp] theorem State.later_free (s : State) (j d : Nat) (i : Instr) : (s.later j d i).free = s.free := rfl
@[simp] theorem State.part_later (s : State) (j d : Nat) (i : Instr) (x : Nat) : (s.later j d i).part x = s.part x := rfl
@[simp] theorem State.port_later (s : State) (j d : Nat) (i : Instr) (x : Nat) : (s.later j d i).port x = s.port x := rfl
@[simp] theorem State.host_later (s : State) (j d : Nat) (i : Instr) (x : Nat) : (s.later j d i).host x = s.host x := rfl
@[simp] theorem State.core_later (s : State) (j d : Nat) (i : Instr) (x : Nat) : (s.later j d i).core x = s.core x := rfl
@[simp] theorem State.arr_later (s : State) (j d : Nat) (i : Instr) (x : Nat) : (s.later j d i).arr x = s.arr x := rfl
@[simp] theorem State.ctx_later (s : State) (j d : Nat) (i : Instr) (x y : Nat) : (s.later j d i).ctx x y = s.ctx x y := rfl
@[simp] theorem State.reg_later (s : State) (j d : Nat) (i : Instr) (x : Nat) : (s.later j d i).reg x = s.reg x := rfl
@[simp] theorem State.fld_later (s : State) (j d : Nat) (i : Instr) (x y z : Nat) : (s.later j d i).fld x y z = s.fld x y z := rfl
@[simp] theorem State.hbmRead_later (s : State) (j d : Nat) (i : Instr) (x y : Nat) : (s.later j d i).hbmRead x y = s.hbmRead x y := rfl
@[simp] theorem State.storeRead_later (s : State) (j d : Nat) (i : Instr) (x y z : Nat) : (s.later j d i).storeRead x y z = s.storeRead x y z := rfl
@[simp] theorem State.bankRead_later (s : State) (j d : Nat) (i : Instr) (w x y z : Nat) : (s.later j d i).bankRead w x y z = s.bankRead w x y z := rfl

@[simp] theorem State.laterW_pending (s : State) (d : Nat) (i : Instr) : (s.laterW d i).pending = s.pending := rfl
@[simp] theorem State.laterW_regs (s : State) (d : Nat) (i : Instr) : (s.laterW d i).regs = s.regs := rfl
@[simp] theorem State.laterW_hbm (s : State) (d : Nat) (i : Instr) : (s.laterW d i).hbm = s.hbm := rfl
@[simp] theorem State.laterW_store (s : State) (d : Nat) (i : Instr) : (s.laterW d i).store = s.store := rfl
@[simp] theorem State.laterW_lstore (s : State) (d : Nat) (i : Instr) : (s.laterW d i).lstore = s.lstore := rfl
@[simp] theorem State.laterW_mbuf (s : State) (d : Nat) (i : Instr) : (s.laterW d i).mbuf = s.mbuf := rfl
@[simp] theorem State.laterW_badLine (s : State) (d : Nat) (i : Instr) : (s.laterW d i).badLine = s.badLine := rfl
@[simp] theorem State.laterW_cores (s : State) (d : Nat) (i : Instr) : (s.laterW d i).cores = s.cores := rfl
@[simp] theorem State.laterW_arrays (s : State) (d : Nat) (i : Instr) : (s.laterW d i).arrays = s.arrays := rfl
@[simp] theorem State.laterW_parts (s : State) (d : Nat) (i : Instr) : (s.laterW d i).parts = s.parts := rfl
@[simp] theorem State.laterW_bars (s : State) (d : Nat) (i : Instr) : (s.laterW d i).bars = s.bars := rfl
@[simp] theorem State.laterW_ports (s : State) (d : Nat) (i : Instr) : (s.laterW d i).ports = s.ports := rfl
@[simp] theorem State.laterW_hosts (s : State) (d : Nat) (i : Instr) : (s.laterW d i).hosts = s.hosts := rfl
@[simp] theorem State.laterW_slots (s : State) (d : Nat) (i : Instr) : (s.laterW d i).slots = s.slots := rfl
@[simp] theorem State.laterW_transfers (s : State) (d : Nat) (i : Instr) : (s.laterW d i).transfers = s.transfers := rfl
@[simp] theorem State.laterW_reads (s : State) (d : Nat) (i : Instr) : (s.laterW d i).reads = s.reads := rfl
@[simp] theorem State.laterW_stra (s : State) (d : Nat) (i : Instr) : (s.laterW d i).stra = s.stra := rfl
@[simp] theorem State.laterW_sent (s : State) (d : Nat) (i : Instr) : (s.laterW d i).sent = s.sent := rfl
@[simp] theorem State.laterW_gathers (s : State) (d : Nat) (i : Instr) : (s.laterW d i).gathers = s.gathers := rfl
@[simp] theorem State.laterW_mcasts (s : State) (d : Nat) (i : Instr) : (s.laterW d i).mcasts = s.mcasts := rfl
@[simp] theorem State.laterW_recoveries (s : State) (d : Nat) (i : Instr) : (s.laterW d i).recoveries = s.recoveries := rfl
@[simp] theorem State.laterW_supplied (s : State) (d : Nat) (i : Instr) : (s.laterW d i).supplied = s.supplied := rfl
@[simp] theorem State.laterW_writtenBack (s : State) (d : Nat) (i : Instr) : (s.laterW d i).writtenBack = s.writtenBack := rfl
@[simp] theorem State.laterW_heldWrites (s : State) (d : Nat) (i : Instr) : (s.laterW d i).heldWrites = s.heldWrites := rfl
@[simp] theorem State.laterW_maint (s : State) (d : Nat) (i : Instr) : (s.laterW d i).maint = s.maint := rfl
@[simp] theorem State.laterW_evq (s : State) (d : Nat) (i : Instr) : (s.laterW d i).evq = s.evq := rfl
@[simp] theorem State.laterW_evLost (s : State) (d : Nat) (i : Instr) : (s.laterW d i).evLost = s.evLost := rfl
@[simp] theorem State.laterW_logs (s : State) (d : Nat) (i : Instr) : (s.laterW d i).logs = s.logs := rfl
@[simp] theorem State.laterW_clk (s : State) (d : Nat) (i : Instr) : (s.laterW d i).clk = s.clk := rfl
@[simp] theorem State.laterW_pwr (s : State) (d : Nat) (i : Instr) : (s.laterW d i).pwr = s.pwr := rfl
@[simp] theorem State.laterW_zen (s : State) (d : Nat) (i : Instr) : (s.laterW d i).zen = s.zen := rfl
@[simp] theorem State.laterW_tap (s : State) (d : Nat) (i : Instr) : (s.laterW d i).tap = s.tap := rfl
@[simp] theorem State.laterW_dumps (s : State) (d : Nat) (i : Instr) : (s.laterW d i).dumps = s.dumps := rfl
@[simp] theorem State.laterW_trace (s : State) (d : Nat) (i : Instr) : (s.laterW d i).trace = s.trace := rfl
@[simp] theorem State.laterW_pstat (s : State) (d : Nat) (i : Instr) : (s.laterW d i).pstat = s.pstat := rfl
@[simp] theorem State.laterW_eid (s : State) (d : Nat) (i : Instr) : (s.laterW d i).eid = s.eid := rfl
@[simp] theorem State.laterW_outbox (s : State) (d : Nat) (i : Instr) : (s.laterW d i).outbox = s.outbox := rfl
@[simp] theorem State.laterW_nextId (s : State) (d : Nat) (i : Instr) : (s.laterW d i).nextId = s.nextId := rfl
@[simp] theorem State.laterW_free (s : State) (d : Nat) (i : Instr) : (s.laterW d i).free = s.free := rfl
@[simp] theorem State.part_laterW (s : State) (d : Nat) (i : Instr) (x : Nat) : (s.laterW d i).part x = s.part x := rfl
@[simp] theorem State.port_laterW (s : State) (d : Nat) (i : Instr) (x : Nat) : (s.laterW d i).port x = s.port x := rfl
@[simp] theorem State.host_laterW (s : State) (d : Nat) (i : Instr) (x : Nat) : (s.laterW d i).host x = s.host x := rfl
@[simp] theorem State.core_laterW (s : State) (d : Nat) (i : Instr) (x : Nat) : (s.laterW d i).core x = s.core x := rfl
@[simp] theorem State.arr_laterW (s : State) (d : Nat) (i : Instr) (x : Nat) : (s.laterW d i).arr x = s.arr x := rfl
@[simp] theorem State.ctx_laterW (s : State) (d : Nat) (i : Instr) (x y : Nat) : (s.laterW d i).ctx x y = s.ctx x y := rfl
@[simp] theorem State.reg_laterW (s : State) (d : Nat) (i : Instr) (x : Nat) : (s.laterW d i).reg x = s.reg x := rfl
@[simp] theorem State.fld_laterW (s : State) (d : Nat) (i : Instr) (x y z : Nat) : (s.laterW d i).fld x y z = s.fld x y z := rfl
@[simp] theorem State.hbmRead_laterW (s : State) (d : Nat) (i : Instr) (x y : Nat) : (s.laterW d i).hbmRead x y = s.hbmRead x y := rfl
@[simp] theorem State.storeRead_laterW (s : State) (d : Nat) (i : Instr) (x y z : Nat) : (s.laterW d i).storeRead x y z = s.storeRead x y z := rfl
@[simp] theorem State.bankRead_laterW (s : State) (d : Nat) (i : Instr) (w x y z : Nat) : (s.laterW d i).bankRead w x y z = s.bankRead w x y z := rfl

@[simp] theorem State.setPstate_pending (s : State) (k v : Nat) : (s.setPstate k v).pending = s.pending := rfl
@[simp] theorem State.setPstate_hbm (s : State) (k v : Nat) : (s.setPstate k v).hbm = s.hbm := rfl
@[simp] theorem State.setPstate_store (s : State) (k v : Nat) : (s.setPstate k v).store = s.store := rfl
@[simp] theorem State.setPstate_lstore (s : State) (k v : Nat) : (s.setPstate k v).lstore = s.lstore := rfl
@[simp] theorem State.setPstate_mbuf (s : State) (k v : Nat) : (s.setPstate k v).mbuf = s.mbuf := rfl
@[simp] theorem State.setPstate_badLine (s : State) (k v : Nat) : (s.setPstate k v).badLine = s.badLine := rfl
@[simp] theorem State.setPstate_cores (s : State) (k v : Nat) : (s.setPstate k v).cores = s.cores := rfl
@[simp] theorem State.setPstate_arrays (s : State) (k v : Nat) : (s.setPstate k v).arrays = s.arrays := rfl
@[simp] theorem State.setPstate_parts (s : State) (k v : Nat) : (s.setPstate k v).parts = s.parts := rfl
@[simp] theorem State.setPstate_bars (s : State) (k v : Nat) : (s.setPstate k v).bars = s.bars := rfl
@[simp] theorem State.setPstate_ports (s : State) (k v : Nat) : (s.setPstate k v).ports = s.ports := rfl
@[simp] theorem State.setPstate_hosts (s : State) (k v : Nat) : (s.setPstate k v).hosts = s.hosts := rfl
@[simp] theorem State.setPstate_slots (s : State) (k v : Nat) : (s.setPstate k v).slots = s.slots := rfl
@[simp] theorem State.setPstate_transfers (s : State) (k v : Nat) : (s.setPstate k v).transfers = s.transfers := rfl
@[simp] theorem State.setPstate_reads (s : State) (k v : Nat) : (s.setPstate k v).reads = s.reads := rfl
@[simp] theorem State.setPstate_stra (s : State) (k v : Nat) : (s.setPstate k v).stra = s.stra := rfl
@[simp] theorem State.setPstate_sent (s : State) (k v : Nat) : (s.setPstate k v).sent = s.sent := rfl
@[simp] theorem State.setPstate_gathers (s : State) (k v : Nat) : (s.setPstate k v).gathers = s.gathers := rfl
@[simp] theorem State.setPstate_mcasts (s : State) (k v : Nat) : (s.setPstate k v).mcasts = s.mcasts := rfl
@[simp] theorem State.setPstate_recoveries (s : State) (k v : Nat) : (s.setPstate k v).recoveries = s.recoveries := rfl
@[simp] theorem State.setPstate_supplied (s : State) (k v : Nat) : (s.setPstate k v).supplied = s.supplied := rfl
@[simp] theorem State.setPstate_writtenBack (s : State) (k v : Nat) : (s.setPstate k v).writtenBack = s.writtenBack := rfl
@[simp] theorem State.setPstate_heldWrites (s : State) (k v : Nat) : (s.setPstate k v).heldWrites = s.heldWrites := rfl
@[simp] theorem State.setPstate_maint (s : State) (k v : Nat) : (s.setPstate k v).maint = s.maint := rfl
@[simp] theorem State.setPstate_agenda (s : State) (k v : Nat) : (s.setPstate k v).agenda = s.agenda := rfl
@[simp] theorem State.setPstate_evq (s : State) (k v : Nat) : (s.setPstate k v).evq = s.evq := rfl
@[simp] theorem State.setPstate_evLost (s : State) (k v : Nat) : (s.setPstate k v).evLost = s.evLost := rfl
@[simp] theorem State.setPstate_logs (s : State) (k v : Nat) : (s.setPstate k v).logs = s.logs := rfl
@[simp] theorem State.setPstate_clk (s : State) (k v : Nat) : (s.setPstate k v).clk = s.clk := rfl
@[simp] theorem State.setPstate_pwr (s : State) (k v : Nat) : (s.setPstate k v).pwr = s.pwr := rfl
@[simp] theorem State.setPstate_zen (s : State) (k v : Nat) : (s.setPstate k v).zen = s.zen := rfl
@[simp] theorem State.setPstate_tap (s : State) (k v : Nat) : (s.setPstate k v).tap = s.tap := rfl
@[simp] theorem State.setPstate_dumps (s : State) (k v : Nat) : (s.setPstate k v).dumps = s.dumps := rfl
@[simp] theorem State.setPstate_trace (s : State) (k v : Nat) : (s.setPstate k v).trace = s.trace := rfl
@[simp] theorem State.setPstate_pstat (s : State) (k v : Nat) : (s.setPstate k v).pstat = s.pstat := rfl
@[simp] theorem State.setPstate_eid (s : State) (k v : Nat) : (s.setPstate k v).eid = s.eid := rfl
@[simp] theorem State.setPstate_outbox (s : State) (k v : Nat) : (s.setPstate k v).outbox = s.outbox := rfl
@[simp] theorem State.setPstate_nextId (s : State) (k v : Nat) : (s.setPstate k v).nextId = s.nextId := rfl
@[simp] theorem State.setPstate_free (s : State) (k v : Nat) : (s.setPstate k v).free = s.free := rfl
@[simp] theorem State.part_setPstate (s : State) (k v : Nat) (x : Nat) : (s.setPstate k v).part x = s.part x := rfl
@[simp] theorem State.port_setPstate (s : State) (k v : Nat) (x : Nat) : (s.setPstate k v).port x = s.port x := rfl
@[simp] theorem State.host_setPstate (s : State) (k v : Nat) (x : Nat) : (s.setPstate k v).host x = s.host x := rfl
@[simp] theorem State.core_setPstate (s : State) (k v : Nat) (x : Nat) : (s.setPstate k v).core x = s.core x := rfl
@[simp] theorem State.arr_setPstate (s : State) (k v : Nat) (x : Nat) : (s.setPstate k v).arr x = s.arr x := rfl
@[simp] theorem State.ctx_setPstate (s : State) (k v : Nat) (x y : Nat) : (s.setPstate k v).ctx x y = s.ctx x y := rfl
@[simp] theorem State.hbmRead_setPstate (s : State) (k v : Nat) (x y : Nat) : (s.setPstate k v).hbmRead x y = s.hbmRead x y := rfl
@[simp] theorem State.storeRead_setPstate (s : State) (k v : Nat) (x y z : Nat) : (s.setPstate k v).storeRead x y z = s.storeRead x y z := rfl
@[simp] theorem State.bankRead_setPstate (s : State) (k v : Nat) (w x y z : Nat) : (s.setPstate k v).bankRead w x y z = s.bankRead w x y z := rfl

@[simp] theorem State.storeWrite_pending (s : State) (k off : Nat) (bs : List Nat) : (s.storeWrite k off bs).pending = s.pending := rfl
@[simp] theorem State.storeWrite_regs (s : State) (k off : Nat) (bs : List Nat) : (s.storeWrite k off bs).regs = s.regs := rfl
@[simp] theorem State.storeWrite_hbm (s : State) (k off : Nat) (bs : List Nat) : (s.storeWrite k off bs).hbm = s.hbm := rfl
@[simp] theorem State.storeWrite_lstore (s : State) (k off : Nat) (bs : List Nat) : (s.storeWrite k off bs).lstore = s.lstore := rfl
@[simp] theorem State.storeWrite_mbuf (s : State) (k off : Nat) (bs : List Nat) : (s.storeWrite k off bs).mbuf = s.mbuf := rfl
@[simp] theorem State.storeWrite_badLine (s : State) (k off : Nat) (bs : List Nat) : (s.storeWrite k off bs).badLine = s.badLine := rfl
@[simp] theorem State.storeWrite_cores (s : State) (k off : Nat) (bs : List Nat) : (s.storeWrite k off bs).cores = s.cores := rfl
@[simp] theorem State.storeWrite_arrays (s : State) (k off : Nat) (bs : List Nat) : (s.storeWrite k off bs).arrays = s.arrays := rfl
@[simp] theorem State.storeWrite_parts (s : State) (k off : Nat) (bs : List Nat) : (s.storeWrite k off bs).parts = s.parts := rfl
@[simp] theorem State.storeWrite_bars (s : State) (k off : Nat) (bs : List Nat) : (s.storeWrite k off bs).bars = s.bars := rfl
@[simp] theorem State.storeWrite_ports (s : State) (k off : Nat) (bs : List Nat) : (s.storeWrite k off bs).ports = s.ports := rfl
@[simp] theorem State.storeWrite_hosts (s : State) (k off : Nat) (bs : List Nat) : (s.storeWrite k off bs).hosts = s.hosts := rfl
@[simp] theorem State.storeWrite_slots (s : State) (k off : Nat) (bs : List Nat) : (s.storeWrite k off bs).slots = s.slots := rfl
@[simp] theorem State.storeWrite_transfers (s : State) (k off : Nat) (bs : List Nat) : (s.storeWrite k off bs).transfers = s.transfers := rfl
@[simp] theorem State.storeWrite_reads (s : State) (k off : Nat) (bs : List Nat) : (s.storeWrite k off bs).reads = s.reads := rfl
@[simp] theorem State.storeWrite_stra (s : State) (k off : Nat) (bs : List Nat) : (s.storeWrite k off bs).stra = s.stra := rfl
@[simp] theorem State.storeWrite_sent (s : State) (k off : Nat) (bs : List Nat) : (s.storeWrite k off bs).sent = s.sent := rfl
@[simp] theorem State.storeWrite_gathers (s : State) (k off : Nat) (bs : List Nat) : (s.storeWrite k off bs).gathers = s.gathers := rfl
@[simp] theorem State.storeWrite_mcasts (s : State) (k off : Nat) (bs : List Nat) : (s.storeWrite k off bs).mcasts = s.mcasts := rfl
@[simp] theorem State.storeWrite_supplied (s : State) (k off : Nat) (bs : List Nat) : (s.storeWrite k off bs).supplied = s.supplied := rfl
@[simp] theorem State.storeWrite_writtenBack (s : State) (k off : Nat) (bs : List Nat) : (s.storeWrite k off bs).writtenBack = s.writtenBack := rfl
@[simp] theorem State.storeWrite_heldWrites (s : State) (k off : Nat) (bs : List Nat) : (s.storeWrite k off bs).heldWrites = s.heldWrites := rfl
@[simp] theorem State.storeWrite_maint (s : State) (k off : Nat) (bs : List Nat) : (s.storeWrite k off bs).maint = s.maint := rfl
@[simp] theorem State.storeWrite_agenda (s : State) (k off : Nat) (bs : List Nat) : (s.storeWrite k off bs).agenda = s.agenda := rfl
@[simp] theorem State.storeWrite_evq (s : State) (k off : Nat) (bs : List Nat) : (s.storeWrite k off bs).evq = s.evq := rfl
@[simp] theorem State.storeWrite_evLost (s : State) (k off : Nat) (bs : List Nat) : (s.storeWrite k off bs).evLost = s.evLost := rfl
@[simp] theorem State.storeWrite_logs (s : State) (k off : Nat) (bs : List Nat) : (s.storeWrite k off bs).logs = s.logs := rfl
@[simp] theorem State.storeWrite_clk (s : State) (k off : Nat) (bs : List Nat) : (s.storeWrite k off bs).clk = s.clk := rfl
@[simp] theorem State.storeWrite_pwr (s : State) (k off : Nat) (bs : List Nat) : (s.storeWrite k off bs).pwr = s.pwr := rfl
@[simp] theorem State.storeWrite_zen (s : State) (k off : Nat) (bs : List Nat) : (s.storeWrite k off bs).zen = s.zen := rfl
@[simp] theorem State.storeWrite_tap (s : State) (k off : Nat) (bs : List Nat) : (s.storeWrite k off bs).tap = s.tap := rfl
@[simp] theorem State.storeWrite_dumps (s : State) (k off : Nat) (bs : List Nat) : (s.storeWrite k off bs).dumps = s.dumps := rfl
@[simp] theorem State.storeWrite_trace (s : State) (k off : Nat) (bs : List Nat) : (s.storeWrite k off bs).trace = s.trace := rfl
@[simp] theorem State.storeWrite_pstat (s : State) (k off : Nat) (bs : List Nat) : (s.storeWrite k off bs).pstat = s.pstat := rfl
@[simp] theorem State.storeWrite_eid (s : State) (k off : Nat) (bs : List Nat) : (s.storeWrite k off bs).eid = s.eid := rfl
@[simp] theorem State.storeWrite_outbox (s : State) (k off : Nat) (bs : List Nat) : (s.storeWrite k off bs).outbox = s.outbox := rfl
@[simp] theorem State.storeWrite_nextId (s : State) (k off : Nat) (bs : List Nat) : (s.storeWrite k off bs).nextId = s.nextId := rfl
@[simp] theorem State.storeWrite_free (s : State) (k off : Nat) (bs : List Nat) : (s.storeWrite k off bs).free = s.free := rfl
@[simp] theorem State.part_storeWrite (s : State) (k off : Nat) (bs : List Nat) (x : Nat) : (s.storeWrite k off bs).part x = s.part x := rfl
@[simp] theorem State.port_storeWrite (s : State) (k off : Nat) (bs : List Nat) (x : Nat) : (s.storeWrite k off bs).port x = s.port x := rfl
@[simp] theorem State.host_storeWrite (s : State) (k off : Nat) (bs : List Nat) (x : Nat) : (s.storeWrite k off bs).host x = s.host x := rfl
@[simp] theorem State.core_storeWrite (s : State) (k off : Nat) (bs : List Nat) (x : Nat) : (s.storeWrite k off bs).core x = s.core x := rfl
@[simp] theorem State.arr_storeWrite (s : State) (k off : Nat) (bs : List Nat) (x : Nat) : (s.storeWrite k off bs).arr x = s.arr x := rfl
@[simp] theorem State.ctx_storeWrite (s : State) (k off : Nat) (bs : List Nat) (x y : Nat) : (s.storeWrite k off bs).ctx x y = s.ctx x y := rfl
@[simp] theorem State.reg_storeWrite (s : State) (k off : Nat) (bs : List Nat) (x : Nat) : (s.storeWrite k off bs).reg x = s.reg x := rfl
@[simp] theorem State.fld_storeWrite (s : State) (k off : Nat) (bs : List Nat) (x y z : Nat) : (s.storeWrite k off bs).fld x y z = s.fld x y z := rfl
@[simp] theorem State.hbmRead_storeWrite (s : State) (k off : Nat) (bs : List Nat) (x y : Nat) : (s.storeWrite k off bs).hbmRead x y = s.hbmRead x y := rfl
@[simp] theorem State.bankRead_storeWrite (s : State) (k off : Nat) (bs : List Nat) (w x y z : Nat) : (s.storeWrite k off bs).bankRead w x y z = s.bankRead w x y z := rfl

@[simp] theorem State.bankWrite_pending (s : State) (A bank off : Nat) (bs : List Nat) : (s.bankWrite A bank off bs).pending = s.pending := rfl
@[simp] theorem State.bankWrite_regs (s : State) (A bank off : Nat) (bs : List Nat) : (s.bankWrite A bank off bs).regs = s.regs := rfl
@[simp] theorem State.bankWrite_hbm (s : State) (A bank off : Nat) (bs : List Nat) : (s.bankWrite A bank off bs).hbm = s.hbm := rfl
@[simp] theorem State.bankWrite_store (s : State) (A bank off : Nat) (bs : List Nat) : (s.bankWrite A bank off bs).store = s.store := rfl
@[simp] theorem State.bankWrite_mbuf (s : State) (A bank off : Nat) (bs : List Nat) : (s.bankWrite A bank off bs).mbuf = s.mbuf := rfl
@[simp] theorem State.bankWrite_badLine (s : State) (A bank off : Nat) (bs : List Nat) : (s.bankWrite A bank off bs).badLine = s.badLine := rfl
@[simp] theorem State.bankWrite_cores (s : State) (A bank off : Nat) (bs : List Nat) : (s.bankWrite A bank off bs).cores = s.cores := rfl
@[simp] theorem State.bankWrite_arrays (s : State) (A bank off : Nat) (bs : List Nat) : (s.bankWrite A bank off bs).arrays = s.arrays := rfl
@[simp] theorem State.bankWrite_parts (s : State) (A bank off : Nat) (bs : List Nat) : (s.bankWrite A bank off bs).parts = s.parts := rfl
@[simp] theorem State.bankWrite_bars (s : State) (A bank off : Nat) (bs : List Nat) : (s.bankWrite A bank off bs).bars = s.bars := rfl
@[simp] theorem State.bankWrite_ports (s : State) (A bank off : Nat) (bs : List Nat) : (s.bankWrite A bank off bs).ports = s.ports := rfl
@[simp] theorem State.bankWrite_hosts (s : State) (A bank off : Nat) (bs : List Nat) : (s.bankWrite A bank off bs).hosts = s.hosts := rfl
@[simp] theorem State.bankWrite_slots (s : State) (A bank off : Nat) (bs : List Nat) : (s.bankWrite A bank off bs).slots = s.slots := rfl
@[simp] theorem State.bankWrite_transfers (s : State) (A bank off : Nat) (bs : List Nat) : (s.bankWrite A bank off bs).transfers = s.transfers := rfl
@[simp] theorem State.bankWrite_reads (s : State) (A bank off : Nat) (bs : List Nat) : (s.bankWrite A bank off bs).reads = s.reads := rfl
@[simp] theorem State.bankWrite_stra (s : State) (A bank off : Nat) (bs : List Nat) : (s.bankWrite A bank off bs).stra = s.stra := rfl
@[simp] theorem State.bankWrite_sent (s : State) (A bank off : Nat) (bs : List Nat) : (s.bankWrite A bank off bs).sent = s.sent := rfl
@[simp] theorem State.bankWrite_gathers (s : State) (A bank off : Nat) (bs : List Nat) : (s.bankWrite A bank off bs).gathers = s.gathers := rfl
@[simp] theorem State.bankWrite_mcasts (s : State) (A bank off : Nat) (bs : List Nat) : (s.bankWrite A bank off bs).mcasts = s.mcasts := rfl
@[simp] theorem State.bankWrite_supplied (s : State) (A bank off : Nat) (bs : List Nat) : (s.bankWrite A bank off bs).supplied = s.supplied := rfl
@[simp] theorem State.bankWrite_writtenBack (s : State) (A bank off : Nat) (bs : List Nat) : (s.bankWrite A bank off bs).writtenBack = s.writtenBack := rfl
@[simp] theorem State.bankWrite_heldWrites (s : State) (A bank off : Nat) (bs : List Nat) : (s.bankWrite A bank off bs).heldWrites = s.heldWrites := rfl
@[simp] theorem State.bankWrite_maint (s : State) (A bank off : Nat) (bs : List Nat) : (s.bankWrite A bank off bs).maint = s.maint := rfl
@[simp] theorem State.bankWrite_agenda (s : State) (A bank off : Nat) (bs : List Nat) : (s.bankWrite A bank off bs).agenda = s.agenda := rfl
@[simp] theorem State.bankWrite_evq (s : State) (A bank off : Nat) (bs : List Nat) : (s.bankWrite A bank off bs).evq = s.evq := rfl
@[simp] theorem State.bankWrite_evLost (s : State) (A bank off : Nat) (bs : List Nat) : (s.bankWrite A bank off bs).evLost = s.evLost := rfl
@[simp] theorem State.bankWrite_logs (s : State) (A bank off : Nat) (bs : List Nat) : (s.bankWrite A bank off bs).logs = s.logs := rfl
@[simp] theorem State.bankWrite_clk (s : State) (A bank off : Nat) (bs : List Nat) : (s.bankWrite A bank off bs).clk = s.clk := rfl
@[simp] theorem State.bankWrite_pwr (s : State) (A bank off : Nat) (bs : List Nat) : (s.bankWrite A bank off bs).pwr = s.pwr := rfl
@[simp] theorem State.bankWrite_zen (s : State) (A bank off : Nat) (bs : List Nat) : (s.bankWrite A bank off bs).zen = s.zen := rfl
@[simp] theorem State.bankWrite_tap (s : State) (A bank off : Nat) (bs : List Nat) : (s.bankWrite A bank off bs).tap = s.tap := rfl
@[simp] theorem State.bankWrite_dumps (s : State) (A bank off : Nat) (bs : List Nat) : (s.bankWrite A bank off bs).dumps = s.dumps := rfl
@[simp] theorem State.bankWrite_trace (s : State) (A bank off : Nat) (bs : List Nat) : (s.bankWrite A bank off bs).trace = s.trace := rfl
@[simp] theorem State.bankWrite_pstat (s : State) (A bank off : Nat) (bs : List Nat) : (s.bankWrite A bank off bs).pstat = s.pstat := rfl
@[simp] theorem State.bankWrite_eid (s : State) (A bank off : Nat) (bs : List Nat) : (s.bankWrite A bank off bs).eid = s.eid := rfl
@[simp] theorem State.bankWrite_outbox (s : State) (A bank off : Nat) (bs : List Nat) : (s.bankWrite A bank off bs).outbox = s.outbox := rfl
@[simp] theorem State.bankWrite_nextId (s : State) (A bank off : Nat) (bs : List Nat) : (s.bankWrite A bank off bs).nextId = s.nextId := rfl
@[simp] theorem State.bankWrite_free (s : State) (A bank off : Nat) (bs : List Nat) : (s.bankWrite A bank off bs).free = s.free := rfl
@[simp] theorem State.part_bankWrite (s : State) (A bank off : Nat) (bs : List Nat) (x : Nat) : (s.bankWrite A bank off bs).part x = s.part x := rfl
@[simp] theorem State.port_bankWrite (s : State) (A bank off : Nat) (bs : List Nat) (x : Nat) : (s.bankWrite A bank off bs).port x = s.port x := rfl
@[simp] theorem State.host_bankWrite (s : State) (A bank off : Nat) (bs : List Nat) (x : Nat) : (s.bankWrite A bank off bs).host x = s.host x := rfl
@[simp] theorem State.core_bankWrite (s : State) (A bank off : Nat) (bs : List Nat) (x : Nat) : (s.bankWrite A bank off bs).core x = s.core x := rfl
@[simp] theorem State.arr_bankWrite (s : State) (A bank off : Nat) (bs : List Nat) (x : Nat) : (s.bankWrite A bank off bs).arr x = s.arr x := rfl
@[simp] theorem State.ctx_bankWrite (s : State) (A bank off : Nat) (bs : List Nat) (x y : Nat) : (s.bankWrite A bank off bs).ctx x y = s.ctx x y := rfl
@[simp] theorem State.reg_bankWrite (s : State) (A bank off : Nat) (bs : List Nat) (x : Nat) : (s.bankWrite A bank off bs).reg x = s.reg x := rfl
@[simp] theorem State.fld_bankWrite (s : State) (A bank off : Nat) (bs : List Nat) (x y z : Nat) : (s.bankWrite A bank off bs).fld x y z = s.fld x y z := rfl
@[simp] theorem State.hbmRead_bankWrite (s : State) (A bank off : Nat) (bs : List Nat) (x y : Nat) : (s.bankWrite A bank off bs).hbmRead x y = s.hbmRead x y := rfl
@[simp] theorem State.storeRead_bankWrite (s : State) (A bank off : Nat) (bs : List Nat) (x y z : Nat) : (s.bankWrite A bank off bs).storeRead x y z = s.storeRead x y z := rfl

@[simp] theorem State.hbmWrite_pending (s : State) (a : Nat) (bs : List Nat) : (s.hbmWrite a bs).pending = s.pending := rfl
@[simp] theorem State.hbmWrite_regs (s : State) (a : Nat) (bs : List Nat) : (s.hbmWrite a bs).regs = s.regs := rfl
@[simp] theorem State.hbmWrite_store (s : State) (a : Nat) (bs : List Nat) : (s.hbmWrite a bs).store = s.store := rfl
@[simp] theorem State.hbmWrite_lstore (s : State) (a : Nat) (bs : List Nat) : (s.hbmWrite a bs).lstore = s.lstore := rfl
@[simp] theorem State.hbmWrite_mbuf (s : State) (a : Nat) (bs : List Nat) : (s.hbmWrite a bs).mbuf = s.mbuf := rfl
@[simp] theorem State.hbmWrite_cores (s : State) (a : Nat) (bs : List Nat) : (s.hbmWrite a bs).cores = s.cores := rfl
@[simp] theorem State.hbmWrite_arrays (s : State) (a : Nat) (bs : List Nat) : (s.hbmWrite a bs).arrays = s.arrays := rfl
@[simp] theorem State.hbmWrite_parts (s : State) (a : Nat) (bs : List Nat) : (s.hbmWrite a bs).parts = s.parts := rfl
@[simp] theorem State.hbmWrite_bars (s : State) (a : Nat) (bs : List Nat) : (s.hbmWrite a bs).bars = s.bars := rfl
@[simp] theorem State.hbmWrite_ports (s : State) (a : Nat) (bs : List Nat) : (s.hbmWrite a bs).ports = s.ports := rfl
@[simp] theorem State.hbmWrite_hosts (s : State) (a : Nat) (bs : List Nat) : (s.hbmWrite a bs).hosts = s.hosts := rfl
@[simp] theorem State.hbmWrite_slots (s : State) (a : Nat) (bs : List Nat) : (s.hbmWrite a bs).slots = s.slots := rfl
@[simp] theorem State.hbmWrite_transfers (s : State) (a : Nat) (bs : List Nat) : (s.hbmWrite a bs).transfers = s.transfers := rfl
@[simp] theorem State.hbmWrite_reads (s : State) (a : Nat) (bs : List Nat) : (s.hbmWrite a bs).reads = s.reads := rfl
@[simp] theorem State.hbmWrite_stra (s : State) (a : Nat) (bs : List Nat) : (s.hbmWrite a bs).stra = s.stra := rfl
@[simp] theorem State.hbmWrite_sent (s : State) (a : Nat) (bs : List Nat) : (s.hbmWrite a bs).sent = s.sent := rfl
@[simp] theorem State.hbmWrite_gathers (s : State) (a : Nat) (bs : List Nat) : (s.hbmWrite a bs).gathers = s.gathers := rfl
@[simp] theorem State.hbmWrite_mcasts (s : State) (a : Nat) (bs : List Nat) : (s.hbmWrite a bs).mcasts = s.mcasts := rfl
@[simp] theorem State.hbmWrite_supplied (s : State) (a : Nat) (bs : List Nat) : (s.hbmWrite a bs).supplied = s.supplied := rfl
@[simp] theorem State.hbmWrite_writtenBack (s : State) (a : Nat) (bs : List Nat) : (s.hbmWrite a bs).writtenBack = s.writtenBack := rfl
@[simp] theorem State.hbmWrite_maint (s : State) (a : Nat) (bs : List Nat) : (s.hbmWrite a bs).maint = s.maint := rfl
@[simp] theorem State.hbmWrite_agenda (s : State) (a : Nat) (bs : List Nat) : (s.hbmWrite a bs).agenda = s.agenda := rfl
@[simp] theorem State.hbmWrite_evq (s : State) (a : Nat) (bs : List Nat) : (s.hbmWrite a bs).evq = s.evq := rfl
@[simp] theorem State.hbmWrite_evLost (s : State) (a : Nat) (bs : List Nat) : (s.hbmWrite a bs).evLost = s.evLost := rfl
@[simp] theorem State.hbmWrite_logs (s : State) (a : Nat) (bs : List Nat) : (s.hbmWrite a bs).logs = s.logs := rfl
@[simp] theorem State.hbmWrite_clk (s : State) (a : Nat) (bs : List Nat) : (s.hbmWrite a bs).clk = s.clk := rfl
@[simp] theorem State.hbmWrite_pwr (s : State) (a : Nat) (bs : List Nat) : (s.hbmWrite a bs).pwr = s.pwr := rfl
@[simp] theorem State.hbmWrite_zen (s : State) (a : Nat) (bs : List Nat) : (s.hbmWrite a bs).zen = s.zen := rfl
@[simp] theorem State.hbmWrite_tap (s : State) (a : Nat) (bs : List Nat) : (s.hbmWrite a bs).tap = s.tap := rfl
@[simp] theorem State.hbmWrite_dumps (s : State) (a : Nat) (bs : List Nat) : (s.hbmWrite a bs).dumps = s.dumps := rfl
@[simp] theorem State.hbmWrite_trace (s : State) (a : Nat) (bs : List Nat) : (s.hbmWrite a bs).trace = s.trace := rfl
@[simp] theorem State.hbmWrite_pstat (s : State) (a : Nat) (bs : List Nat) : (s.hbmWrite a bs).pstat = s.pstat := rfl
@[simp] theorem State.hbmWrite_eid (s : State) (a : Nat) (bs : List Nat) : (s.hbmWrite a bs).eid = s.eid := rfl
@[simp] theorem State.hbmWrite_outbox (s : State) (a : Nat) (bs : List Nat) : (s.hbmWrite a bs).outbox = s.outbox := rfl
@[simp] theorem State.hbmWrite_nextId (s : State) (a : Nat) (bs : List Nat) : (s.hbmWrite a bs).nextId = s.nextId := rfl
@[simp] theorem State.hbmWrite_free (s : State) (a : Nat) (bs : List Nat) : (s.hbmWrite a bs).free = s.free := rfl
@[simp] theorem State.part_hbmWrite (s : State) (a : Nat) (bs : List Nat) (x : Nat) : (s.hbmWrite a bs).part x = s.part x := rfl
@[simp] theorem State.port_hbmWrite (s : State) (a : Nat) (bs : List Nat) (x : Nat) : (s.hbmWrite a bs).port x = s.port x := rfl
@[simp] theorem State.host_hbmWrite (s : State) (a : Nat) (bs : List Nat) (x : Nat) : (s.hbmWrite a bs).host x = s.host x := rfl
@[simp] theorem State.core_hbmWrite (s : State) (a : Nat) (bs : List Nat) (x : Nat) : (s.hbmWrite a bs).core x = s.core x := rfl
@[simp] theorem State.arr_hbmWrite (s : State) (a : Nat) (bs : List Nat) (x : Nat) : (s.hbmWrite a bs).arr x = s.arr x := rfl
@[simp] theorem State.ctx_hbmWrite (s : State) (a : Nat) (bs : List Nat) (x y : Nat) : (s.hbmWrite a bs).ctx x y = s.ctx x y := rfl
@[simp] theorem State.reg_hbmWrite (s : State) (a : Nat) (bs : List Nat) (x : Nat) : (s.hbmWrite a bs).reg x = s.reg x := rfl
@[simp] theorem State.fld_hbmWrite (s : State) (a : Nat) (bs : List Nat) (x y z : Nat) : (s.hbmWrite a bs).fld x y z = s.fld x y z := rfl
@[simp] theorem State.storeRead_hbmWrite (s : State) (a : Nat) (bs : List Nat) (x y z : Nat) : (s.hbmWrite a bs).storeRead x y z = s.storeRead x y z := rfl
@[simp] theorem State.bankRead_hbmWrite (s : State) (a : Nat) (bs : List Nat) (w x y z : Nat) : (s.hbmWrite a bs).bankRead w x y z = s.bankRead w x y z := rfl

@[simp] theorem State.afterLive_pending (s : State) (d : Nat) (a : Act) : (s.afterLive d a).pending = s.pending := rfl
@[simp] theorem State.afterLive_regs (s : State) (d : Nat) (a : Act) : (s.afterLive d a).regs = s.regs := rfl
@[simp] theorem State.afterLive_hbm (s : State) (d : Nat) (a : Act) : (s.afterLive d a).hbm = s.hbm := rfl
@[simp] theorem State.afterLive_store (s : State) (d : Nat) (a : Act) : (s.afterLive d a).store = s.store := rfl
@[simp] theorem State.afterLive_lstore (s : State) (d : Nat) (a : Act) : (s.afterLive d a).lstore = s.lstore := rfl
@[simp] theorem State.afterLive_mbuf (s : State) (d : Nat) (a : Act) : (s.afterLive d a).mbuf = s.mbuf := rfl
@[simp] theorem State.afterLive_badLine (s : State) (d : Nat) (a : Act) : (s.afterLive d a).badLine = s.badLine := rfl
@[simp] theorem State.afterLive_cores (s : State) (d : Nat) (a : Act) : (s.afterLive d a).cores = s.cores := rfl
@[simp] theorem State.afterLive_arrays (s : State) (d : Nat) (a : Act) : (s.afterLive d a).arrays = s.arrays := rfl
@[simp] theorem State.afterLive_parts (s : State) (d : Nat) (a : Act) : (s.afterLive d a).parts = s.parts := rfl
@[simp] theorem State.afterLive_bars (s : State) (d : Nat) (a : Act) : (s.afterLive d a).bars = s.bars := rfl
@[simp] theorem State.afterLive_ports (s : State) (d : Nat) (a : Act) : (s.afterLive d a).ports = s.ports := rfl
@[simp] theorem State.afterLive_hosts (s : State) (d : Nat) (a : Act) : (s.afterLive d a).hosts = s.hosts := rfl
@[simp] theorem State.afterLive_slots (s : State) (d : Nat) (a : Act) : (s.afterLive d a).slots = s.slots := rfl
@[simp] theorem State.afterLive_transfers (s : State) (d : Nat) (a : Act) : (s.afterLive d a).transfers = s.transfers := rfl
@[simp] theorem State.afterLive_reads (s : State) (d : Nat) (a : Act) : (s.afterLive d a).reads = s.reads := rfl
@[simp] theorem State.afterLive_stra (s : State) (d : Nat) (a : Act) : (s.afterLive d a).stra = s.stra := rfl
@[simp] theorem State.afterLive_sent (s : State) (d : Nat) (a : Act) : (s.afterLive d a).sent = s.sent := rfl
@[simp] theorem State.afterLive_gathers (s : State) (d : Nat) (a : Act) : (s.afterLive d a).gathers = s.gathers := rfl
@[simp] theorem State.afterLive_mcasts (s : State) (d : Nat) (a : Act) : (s.afterLive d a).mcasts = s.mcasts := rfl
@[simp] theorem State.afterLive_recoveries (s : State) (d : Nat) (a : Act) : (s.afterLive d a).recoveries = s.recoveries := rfl
@[simp] theorem State.afterLive_supplied (s : State) (d : Nat) (a : Act) : (s.afterLive d a).supplied = s.supplied := rfl
@[simp] theorem State.afterLive_writtenBack (s : State) (d : Nat) (a : Act) : (s.afterLive d a).writtenBack = s.writtenBack := rfl
@[simp] theorem State.afterLive_heldWrites (s : State) (d : Nat) (a : Act) : (s.afterLive d a).heldWrites = s.heldWrites := rfl
@[simp] theorem State.afterLive_maint (s : State) (d : Nat) (a : Act) : (s.afterLive d a).maint = s.maint := rfl
@[simp] theorem State.afterLive_evq (s : State) (d : Nat) (a : Act) : (s.afterLive d a).evq = s.evq := rfl
@[simp] theorem State.afterLive_evLost (s : State) (d : Nat) (a : Act) : (s.afterLive d a).evLost = s.evLost := rfl
@[simp] theorem State.afterLive_logs (s : State) (d : Nat) (a : Act) : (s.afterLive d a).logs = s.logs := rfl
@[simp] theorem State.afterLive_clk (s : State) (d : Nat) (a : Act) : (s.afterLive d a).clk = s.clk := rfl
@[simp] theorem State.afterLive_pwr (s : State) (d : Nat) (a : Act) : (s.afterLive d a).pwr = s.pwr := rfl
@[simp] theorem State.afterLive_zen (s : State) (d : Nat) (a : Act) : (s.afterLive d a).zen = s.zen := rfl
@[simp] theorem State.afterLive_tap (s : State) (d : Nat) (a : Act) : (s.afterLive d a).tap = s.tap := rfl
@[simp] theorem State.afterLive_dumps (s : State) (d : Nat) (a : Act) : (s.afterLive d a).dumps = s.dumps := rfl
@[simp] theorem State.afterLive_trace (s : State) (d : Nat) (a : Act) : (s.afterLive d a).trace = s.trace := rfl
@[simp] theorem State.afterLive_pstat (s : State) (d : Nat) (a : Act) : (s.afterLive d a).pstat = s.pstat := rfl
@[simp] theorem State.afterLive_eid (s : State) (d : Nat) (a : Act) : (s.afterLive d a).eid = s.eid := rfl
@[simp] theorem State.afterLive_outbox (s : State) (d : Nat) (a : Act) : (s.afterLive d a).outbox = s.outbox := rfl
@[simp] theorem State.afterLive_nextId (s : State) (d : Nat) (a : Act) : (s.afterLive d a).nextId = s.nextId := rfl
@[simp] theorem State.afterLive_free (s : State) (d : Nat) (a : Act) : (s.afterLive d a).free = s.free := rfl
@[simp] theorem State.part_afterLive (s : State) (d : Nat) (a : Act) (x : Nat) : (s.afterLive d a).part x = s.part x := rfl
@[simp] theorem State.port_afterLive (s : State) (d : Nat) (a : Act) (x : Nat) : (s.afterLive d a).port x = s.port x := rfl
@[simp] theorem State.host_afterLive (s : State) (d : Nat) (a : Act) (x : Nat) : (s.afterLive d a).host x = s.host x := rfl
@[simp] theorem State.core_afterLive (s : State) (d : Nat) (a : Act) (x : Nat) : (s.afterLive d a).core x = s.core x := rfl
@[simp] theorem State.arr_afterLive (s : State) (d : Nat) (a : Act) (x : Nat) : (s.afterLive d a).arr x = s.arr x := rfl
@[simp] theorem State.ctx_afterLive (s : State) (d : Nat) (a : Act) (x y : Nat) : (s.afterLive d a).ctx x y = s.ctx x y := rfl
@[simp] theorem State.reg_afterLive (s : State) (d : Nat) (a : Act) (x : Nat) : (s.afterLive d a).reg x = s.reg x := rfl
@[simp] theorem State.fld_afterLive (s : State) (d : Nat) (a : Act) (x y z : Nat) : (s.afterLive d a).fld x y z = s.fld x y z := rfl
@[simp] theorem State.hbmRead_afterLive (s : State) (d : Nat) (a : Act) (x y : Nat) : (s.afterLive d a).hbmRead x y = s.hbmRead x y := rfl
@[simp] theorem State.storeRead_afterLive (s : State) (d : Nat) (a : Act) (x y z : Nat) : (s.afterLive d a).storeRead x y z = s.storeRead x y z := rfl
@[simp] theorem State.bankRead_afterLive (s : State) (d : Nat) (a : Act) (w x y z : Nat) : (s.afterLive d a).bankRead w x y z = s.bankRead w x y z := rfl

@[simp] theorem State.part_modPart_same (s : State) (k : Nat) (f : Part → Part) : (s.modPart k f).part k = f (s.part k) :=
  SMap.get_mod_same s.parts k f
theorem State.part_modPart_ne (s : State) {k j : Nat} (f : Part → Part) (h : j ≠ k) : (s.modPart k f).part j = s.part j :=
  SMap.get_mod_ne s.parts f h
@[simp] theorem State.core_modCore_same (s : State) (k : Nat) (f : Core → Core) : (s.modCore k f).core k = f (s.core k) :=
  SMap.get_mod_same s.cores k f
theorem State.core_modCore_ne (s : State) {k j : Nat} (f : Core → Core) (h : j ≠ k) : (s.modCore k f).core j = s.core j :=
  SMap.get_mod_ne s.cores f h
@[simp] theorem State.ctx_modCtx_same (s : State) (k c : Nat) (f : Ctx → Ctx) : (s.modCtx k c f).ctx k c = f (s.ctx k c) := by
  simp [State.ctx, State.modCtx]
@[simp] theorem State.arr_modArr_same (s : State) (A : Nat) (f : ArrayDyn → ArrayDyn) : (s.modArr A f).arr A = f (s.arr A) :=
  SMap.get_mod_same s.arrays A f
@[simp] theorem State.port_modPort_same (s : State) (p : Nat) (f : PortDyn → PortDyn) : (s.modPort p f).port p = f (s.port p) :=
  SMap.get_mod_same s.ports p f
theorem State.port_modPort_ne (s : State) {p q : Nat} (f : PortDyn → PortDyn) (h : q ≠ p) : (s.modPort p f).port q = s.port q :=
  SMap.get_mod_ne s.ports f h
@[simp] theorem State.host_modHost_same (s : State) (h : Nat) (f : HostPort → HostPort) : (s.modHost h f).host h = f (s.host h) :=
  SMap.get_mod_same s.hosts h f
theorem State.host_modHost_ne (s : State) {h j : Nat} (f : HostPort → HostPort) (hj : j ≠ h) : (s.modHost h f).host j = s.host j :=
  SMap.get_mod_ne s.hosts f hj
@[simp] theorem State.out_outbox (s : State) (o : Output) : (s.out o).outbox = s.outbox ++ [o] := rfl
@[simp] theorem State.after_agenda (s : State) (dom : Option Nat) (d : Nat) (a : Act) :
    (s.after dom d a).agenda =
      s.agenda ++ [{ dom := dom, at_ := (match dom with | some k => (s.part k).seqCycle | none => s.clk.wall) + d, act := a }] := rfl
@[simp] theorem State.afterLive_agenda (s : State) (d : Nat) (a : Act) :
    (s.afterLive d a).agenda = s.agenda ++ [{ dom := none, at_ := s.clk.live + d, act := a, mode := .live }] := rfl
@[simp] theorem State.laterW_agenda (s : State) (d : Nat) (i : Instr) :
    (s.laterW d i).agenda = s.agenda ++ [{ dom := none, at_ := s.clk.wall + d, act := .cmd i }] := rfl

end Sys2Proof.Machine
end

