-- ==== Sys2Proof/WellFormed.lean ====
section
/-! DEFINITION. The commands whose operands lie within what the manual counts: cores, contexts, engines, ports, stacks and the
other numbered parts. -/
namespace Sys2Proof

/-- Is the number a core of the die, or the lowest core of a partition (R21, R512)? -/
def coreOk (k : Nat) : Bool := decide (k < 4)

/-- Is the number a context of a core (R356)? -/
def ctxOk (k : Nat) : Bool := decide (k < 8)

/-- Is the number a stream engine of a core (R167)? -/
def engineOk (k : Nat) : Bool := decide (k < 8)

/-- Is the number an array of a core (R21)? -/
def arrayOk (k : Nat) : Bool := decide (k < 4)

/-- Is the number an array of the die (R21)? -/
def dieArrayOk (k : Nat) : Bool := decide (k < 16)

/-- Is the number a link port (R14)? -/
def portOk (k : Nat) : Bool := decide (k < 6)

/-- Is the number a link port, or 6 for a message of the module's own (R14, R672)? -/
def inPortOk (k : Nat) : Bool := decide (k ≤ 6)

/-- Is the number a unit of a companion: 0 the header, b + 1 block b (R113, R161)? -/
def compUnitOk (k : Nat) : Bool := decide (k ≤ 32768)

/-- Is the number an HBM stack (R474)? -/
def stackOk (k : Nat) : Bool := decide (k < 8)

/-- Is the number a host port (R588)? -/
def hostOk (k : Nat) : Bool := decide (k < 2)

/-- Is the number a mailbox interface: the host ports and SMBus (R606)? -/
def ifaceOk (k : Nat) : Bool := decide (k < 3)

/-- Is the number a barrier unit (R412)? -/
def unitOk (k : Nat) : Bool := decide (k < 64)

/-- Is the number a barrier sense (R413)? -/
def senseOk (k : Nat) : Bool := decide (k < 2)

/-- Is the number an INDEX of a sequencer instruction (R359)? -/
def indexOk (k : Nat) : Bool := decide (k < 65536)

/-- Is the number a buffer link of a context (R182)? -/
def linkOk (k : Nat) : Bool := decide (k < 128)

/-- Is the number a collective number (R299)? -/
def collOk (k : Nat) : Bool := decide (k < 65536)

/-- Is the number a rendezvous entry (R329)? -/
def rvOk (k : Nat) : Bool := decide (k < 256)

/-- Is the number a schedule set (R271)? -/
def setOk (k : Nat) : Bool := decide (k < 4)

/-- Is the number a persistent slot (R195)? -/
def slotOk (k : Nat) : Bool := decide (k < 64)

/-- Is the number a tile row or tile column of a product (R52, R160)? -/
def tileOk (k : Nat) : Bool := decide (k < 8)

/-- Is the number a tile of a panel (R41)? -/
def panelTileOk (k : Nat) : Bool := decide (k < 64)

/-- Is the number a half (R64)? -/
def halfOk (k : Nat) : Bool := decide (k < 2)

/-- Is the number a firmware slot (R517)? -/
def fwSlotOk (k : Nat) : Bool := decide (k < 2)

/-- Is the number a role key slot (R520)? -/
def keySlotOk (k : Nat) : Bool := decide (k < 8)

/-- Is the number an access size of a BAR0 access (R589)? -/
def sizeOk (k : Nat) : Bool := decide (k = 1 ∨ k = 2 ∨ k = 4 ∨ k = 8)

/-- Is the number an offset of BAR0 (R587)? -/
def bar0Ok (k : Nat) : Bool := decide (k < 67108864)

/-- Is the number a maintenance activity code (R506)? -/
def actOk (k : Nat) : Bool := decide (1 ≤ k ∧ k ≤ 7)

/-- Is the number a power state (R561)? -/
def powerOk (k : Nat) : Bool := decide (k < 4)

/-- Is the number a loop count (R364)? -/
def loopCountOk (k : Nat) : Bool := decide (1 ≤ k ∧ k ≤ 65536)

/-- Is the number a loop body (R364)? -/
def loopBodyOk (k : Nat) : Bool := decide (1 ≤ k ∧ k ≤ 255)

/-- Is the coordinate within the largest torus (R3, R4)? -/
def coordOk (c : Coord) : Bool := decide (c.x < 32) && decide (c.y < 32) && decide (c.z < 48)

/-- Are a message's kind and header fields within their widths (R442)? -/
def msgOk (m : FabricMsg) : Bool :=
  decide (m.kind < 256) && coordOk m.dest && coordOk m.src && decide (m.route < 256) && decide (m.coll < 65536) &&
    decide (m.offset < 2 ^ 29) && decide (m.msgid < 2 ^ 32) && m.content.all fun b => decide (b < 256)

/-- Are a product's fields within their widths (R361)? -/
def productOk (p : ProductArgs) : Bool :=
  decide (p.sfmt < 4) && decide (p.pfmt < 4) && decide (p.sbase < 32768) && decide (p.pbase < 32768)

/-- Is a HALO's hop count within its field (R362)? -/
def haloOk (h : HaloArgs) : Bool := decide (h.hop < 8)

/-- Are a flit's header fields within their widths (R430)? -/
def flitOk (f : Flit) : Bool := decide (f.vc < 4) && decide (f.typ < 8) && decide (f.seq < 4096)

/-- Are a command-ring entry's fields within their widths (R595)? -/
def entryOk (e : RingEntry) : Bool := decide (e.seqno < 2 ^ 32) && decide (e.count < 2 ^ 32)

/-- Is the command well formed? -/
def Instr.wf : Instr → Bool
  | .stepStart k c unit => coreOk k && ctxOk c && unitOk unit
  | .endStep k c => coreOk k && ctxOk c
  | .fetch k c e idx => coreOk k && ctxOk c && engineOk e && indexOk idx
  | .feed k c e idx => coreOk k && ctxOk c && engineOk e && indexOk idx
  | .inject k c e idx _ => coreOk k && ctxOk c && engineOk e && indexOk idx
  | .store k c e idx => coreOk k && ctxOk c && engineOk e && indexOk idx
  | .handoff k c e idx => coreOk k && ctxOk c && engineOk e && indexOk idx
  | .gather k c e idx => coreOk k && ctxOk c && engineOk e && indexOk idx
  | .receive k c e idx => coreOk k && ctxOk c && engineOk e && indexOk idx
  | .release k c link _ => coreOk k && ctxOk c && linkOk link
  | .product k c a p => coreOk k && ctxOk c && arrayOk a && productOk p
  | .halo k c a h => coreOk k && ctxOk c && arrayOk a && haloOk h
  | .vectorDescriptor k c idx _ => coreOk k && ctxOk c && indexOk idx
  | .updateDescriptor k c idx => coreOk k && ctxOk c && indexOk idx
  | .thinningDescriptor k c idx => coreOk k && ctxOk c && indexOk idx
  | .badd k c idx => coreOk k && ctxOk c && indexOk idx
  | .rearm k c => coreOk k && ctxOk c
  | .arm k c coll => coreOk k && ctxOk c && collOk coll
  | .barrierArrive k c unit sense => coreOk k && ctxOk c && unitOk unit && senseOk sense
  | .barrierDepart k c unit sense => coreOk k && ctxOk c && unitOk unit && senseOk sense
  | .loop k c _ count _ body => coreOk k && ctxOk c && loopCountOk count && loopBodyOk body
  | .streamIssue k e _ => coreOk k && engineOk e
  | .readLands _ _ => true
  | .stratusTransferDelivery _ => true
  | .tileQueueEntry A _ t => dieArrayOk A && tileOk t
  | .ringHalfRelease A half => dieArrayOk A && halfOk half
  | .haloTransferArrival _ _ => true
  | .haloAck _ => true
  | .tileResent _ tile _ => panelTileOk tile
  | .panelReinjected _ => true
  | .dwTileColumnAdded A _ t _ => dieArrayOk A && tileOk t
  | .companionResent _ unit _ => compUnitOk unit
  | .handoffComplete k e _ => coreOk k && engineOk e
  | .selectionBlockDone k _ _ => coreOk k
  | .thinnedMessageRelease k => coreOk k
  | .vectorDescriptorComplete k => coreOk k
  | .swallowedCycle => true
  | .holdStart k rv => coreOk k && rvOk rv
  | .holdEnd k rv => coreOk k && rvOk rv
  | .holdStartReceived k rv _ src => coreOk k && rvOk rv && coordOk src
  | .holdEndReceived k rv _ src _ => coreOk k && rvOk rv && coordOk src
  | .holdTimeout k rv => coreOk k && rvOk rv
  | .beatBoundary _ => true
  | .epoch => true
  | .align p _ _ _ => portOk p
  | .refLoss => true
  | .barArrive unit sense p _ => unitOk unit && senseOk sense && portOk p
  | .barDepart unit sense p _ => unitOk unit && senseOk sense && portOk p
  | .barOpen unit sense p _ => unitOk unit && senseOk sense && portOk p
  | .eventTake => true
  | .cirBad _ => true
  | .flitReceived p f => portOk p && flitOk f
  | .nak p _ _ => portOk p
  | .retryTimeout p _ => portOk p
  | .fabricMessageArrival p m => inPortOk p && msgOk m
  | .delivered _ => true
  | .deadlineMiss _ => true
  | .residueRetry _ _ => true
  | .gatherRequest p m _ => inPortOk p && msgOk m
  | .gatherReply p m => inPortOk p && msgOk m
  | .gatherRefused _ owner => coordOk owner
  | .contributionArrival p m check => inPortOk p && msgOk m && decide (check ≤ 3)
  | .armComplete k coll => coreOk k && collOk coll
  | .reduceLate k coll => coreOk k && collOk coll
  | .embeddingRowArrival k coll _ _ _ => coreOk k && collOk coll
  | .upstreamMessageAdd p from_ m _ => portOk p && inPortOk from_ && msgOk m
  | .multicastFlit p m _ => inPortOk p && msgOk m
  | .catchup _ branch _ _ => coordOk branch
  | .mcastDone p src _ => inPortOk p && coordOk src
  | .mcastComplete p src _ => inPortOk p && coordOk src
  | .mcastLaggard _ member _ => coordOk member
  | .multicastDeadline src _ => coordOk src
  | .ident p _ => portOk p
  | .keyxInit p _ => portOk p
  | .keyxResp p _ => portOk p
  | .keyxDone p _ => portOk p
  | .keySetRollover p => portOk p
  | .trainingStep p _ => portOk p
  | .linkTrainFail p _ => portOk p
  | .linkReset p => portOk p
  | .ready p _ => portOk p
  | .startTimeout => true
  | .startPhase => true
  | .retryLands _ _ => true
  | .copyReadLands _ _ => true
  | .recomputeDone _ _ => true
  | .verifyReadLands st _ _ => stackOk st
  | .remapUpdate st _ => stackOk st
  | .patrolLineRead st _ => stackOk st
  | .patrolSweepStart st => stackOk st
  | .memRecalDue st => stackOk st
  | .maintenanceRequest h act _ _ => hostOk h && actOk act
  | .recalibrationDone st => stackOk st
  | .memoryFillDone => true
  | .rekeyGranuleLock st => stackOk st
  | .granuleMigrated st => stackOk st
  | .clearingStep k _ => coreOk k
  | .clearDone k => coreOk k
  | .pstatToggle k => coreOk k
  | .loadComplete k _ => coreOk k
  | .exportDone h => hostOk h
  | .dumpCaptureDone k => coreOk k
  | .dumpWritten k _ => coreOk k
  | .squall _ => true
  | .squallEnd _ => true
  | .swallowRatioStep _ => true
  | .supplyLow _ => true
  | .supplyHigh _ => true
  | .brownout _ => true
  | .overvoltage _ => true
  | .thermtrip _ => true
  | .pwrgd _ => true
  | .resetN => true
  | .perstN h => hostOk h
  | .functionLevelReset h => hostOk h
  | .zenithWatchdog => true
  | .zenithError => true
  | .selfTest _ => true
  | .ideInsecure h => hostOk h
  | .roleTimeout i => ifaceOk i
  | .ringProducerRead k _ _ => coreOk k
  | .ringSample k => coreOk k
  | .nop k e => coreOk k && entryOk e
  | .stepRun k e => coreOk k && entryOk e
  | .stepStop k e => coreOk k && entryOk e
  | .mark k e => coreOk k && entryOk e
  | .queuedStepStart k => coreOk k
  | .status i => ifaceOk i
  | .abiOpen i _ => ifaceOk i
  | .login i _ _ _ => ifaceOk i
  | .logout i => ifaceOk i
  | .takeOwnership i _ => ifaceOk i
  | .roleKeySet i _ slot _ => ifaceOk i && keySlotOk slot
  | .load i part _ _ _ _ => ifaceOk i && coreOk part
  | .unload i part => ifaceOk i && coreOk part
  | .recoveryTable i core _ _ => ifaceOk i && coreOk core
  | .signerSet i part _ => ifaceOk i && coreOk part
  | .export_ i part _ _ _ _ => ifaceOk i && coreOk part
  | .clear i part => ifaceOk i && coreOk part
  | .rekey i part => ifaceOk i && coreOk part
  | .partitionReset i part => ifaceOk i && coreOk part
  | .partitionConfig i _ _ => ifaceOk i
  | .powerState i target => ifaceOk i && powerOk target
  | .fabricMap i _ => ifaceOk i
  | .fwUpdate i slot _ _ => ifaceOk i && fwSlotOk slot
  | .svnCommit i _ => ifaceOk i
  | .zeroize i _ => ifaceOk i
  | .debugUnlock i _ _ => ifaceOk i
  | .zenithReset i => ifaceOk i
  | .aoRecord i => ifaceOk i
  | .retest i => ifaceOk i
  | .mailboxDoneRead i => ifaceOk i
  | .persistentSlotArm h k slot _ => hostOk h && coreOk k && slotOk slot
  | .persistentBaseWrite h k slot _ _ => hostOk h && coreOk k && slotOk slot
  | .freezeWrite h k _ => hostOk h && coreOk k
  | .scheduleParameterWrite h k set _ _ => hostOk h && coreOk k && setOk set
  | .linkResetRequest h p => hostOk h && portOk p
  | .linkEnable h p _ => hostOk h && portOk p
  | .bar2BaseWrite h _ => hostOk h
  | .dumpRelease h _ => hostOk h
  | .traceEnable h _ => hostOk h
  | .registerWrite h off size _ => hostOk h && bar0Ok off && sizeOk size
  | .bar2Read h _ _ _ => hostOk h
  | .bar2Write h _ _ => hostOk h
  | .testWindowWrite h st _ _ => hostOk h && stackOk st
  | .testWindowRead h st _ _ => hostOk h && stackOk st
  | .getVersion h => hostOk h
  | .getCapabilities h => hostOk h
  | .negotiateAlgorithms h _ => hostOk h
  | .getDigests h => hostOk h
  | .getCertificate h _ _ _ => hostOk h
  | .challenge h _ => hostOk h
  | .getMeasurements h _ => hostOk h
  | .keyExchange h _ => hostOk h
  | .finish h => hostOk h
  | .keyUpdate h => hostOk h
  | .endSession h => hostOk h
  | .ideKm h _ => hostOk h
  | .idcode => true
  | .bypass => true
  | .samplePreload _ => true
  | .extest _ => true
  | .dbgAccess _ off size _ => bar0Ok off && sizeOk size
  | .setEndpointId _ => true
  | .getEndpointId => true
  | .getMctpVersionSupport => true
  | .getMessageTypeSupport => true
  | .getVendorDefinedMessageSupport => true
  | .pldmBase _ => true
  | .pldmSensorRead _ => true
  | .pldmFirmwareUpdate _ => true
  | .vendorDefinedMailbox _ _ => true
  | .flitBoundary p => portOk p
  | .localBranchWrite src _ _ => coordOk src
  | .powerStateEntered => true
  | .zenithBootDone _ => true
  | .startIdentFail p => portOk p
  | .hostLinkTrained h _ _ => hostOk h
  | .powerManagementState h _ => hostOk h

end Sys2Proof
end

