-- ==== Sys2Proof/Tests/Slice0.lean ====
section
/-! SUPPORT. Own tests: ill-formed commands refused, the worked examples of the manual, and for each statement states that
meet its hypotheses. -/
open Sys2Proof Sys2Proof.Machine

/-- One partition of four cores and six ports, owned by host port 0, loaded. -/
def loaded : State := State.reset.setReg (rZenPart 0) 0x823FF00000000000

/-- 64 bytes, zero but for those given by place. -/
def bytes64 (l : List (Nat × Nat)) : List Nat := (List.range 64).map fun i => ((l.find? fun e => e.1 == i).map (·.2)).getD 0

/-- A barrier unit's configuration for partition 0 with all its cores: root or parent port 1, the child ports as a mask. -/
def unitWord (root : Bool) (children : Nat) : Word :=
  BitVec.ofNat 64 (2 ^ 60 + (if root then 2 ^ 59 + 7 * 2 ^ 56 else 2 ^ 56) + children * 2 ^ 50 + 0xF * 2 ^ 46 + 4 * 2 ^ 42)

/-- The loaded partition with a barrier unit. -/
def withUnit (u : Nat) (root : Bool) (children : Nat) : State := loaded.setReg (rBarCfg u) (unitWord root children)


/-- The loaded partition with a descriptor, given by its bytes' places, first in core 3's vector descriptor table. -/
def withDesc (l : List (Nat × Nat)) : State := loaded.storeWrite 3 0 (bytes64 l)

/-- Core 3 of a state with buffer link 7 of context 2: two halves in the core store, from one engine to another, held by both sides. -/
def withLink (s : State) (producer consumer : Nat) : State :=
  s.modCore 3 fun c => { c with links := [(linkKey 2 7, { halves := 2, producer := producer, consumer := consumer, space := 1, base := 65536, stride := 65536 })],
                                linkDyn := [(linkKey 2 7, { prodHolds := true, consHolds := true })] }

/-- The loaded partition with one collective, given by its bytes' places, as entry 5. -/
def withColl (l : List (Nat × Nat)) (d : CollDyn) : State :=
  loaded.modPart 0 fun p => { p with colls := [(5, bytes64 l)], collDyn := [(5, d)] }

/-- The loaded partition in its third step, with rendezvous 9 pending. -/
def withRv (d : RvDyn) : State :=
  loaded.modPart 0 fun p => { p with inStep := true, stepNo := 2, rvs := [(9, some { barrier := 63, point := 5000, done := 6000 })], rvDyn := [(9, d)] }

/-- The loaded partition with link port 1 up. -/
def linked : State := loaded.setFld (rLnkStatus 1) 63 61 4

/-- The loaded partition with routes to place 4096 of its logical core 2's store (4), HBM (5), local store of array 1 (6) and feeder queue (7). -/
def routed : State := loaded.modPart 0 fun p => { p with routes := [(4, 1, 0), (5, 0, 0), (6, 2, 1), (7, 5, 0)].map fun e =>
  (e.1, [0, 0, 0, 2, e.2.1, e.2.2, 0, 0, 0, 16, 0, 0, 0, 0, 0, 0]) }

/-- The origin of a torus of 4 × 4 × 4, with port 1, to the module (3, 0, 0), up. -/
def placed : State :=
  { (routed.setFld (rLnkStatus 1) 63 61 4).setFld (rLnkStatus 1) 55 48 0x21 with
    zen := { routed.zen with map := bytes64 [(0, 4), (1, 4), (2, 4)], coord := some ⟨0, 0, 0⟩ } }

/-- One partition of core 0 alone and six ports, unloaded. -/
def oneCore : State := (State.reset.setFld rZenLayout 2 0 2).setReg (rZenPart 0) 0x803F100000000000

/-- The bytes, by place, of the smallest image for one core, without programs: header, section table and the seven records that every image
has (R351–R357, R664–R670). The shape is the one of the state it is for. -/
def smallImage (shape : Nat) : List (Nat × Nat) :=
  [(0, 0x53), (1, 0x4F), (2, 0x52), (3, 0x4F), (4, 0x52), (5, 0x45), (8, 3), (9, 2), (10, 0x03), (11, 0x0C), (12, 0x16), (13, 0x96),
   (14, 0xC0), (15, 1), (16, 4), (24, 0x40), (25, 0x20),
   (256, 1), (257, 0xFF), (265, 0x10), (272, 200), (288, 2), (297, 0x20), (304, 64), (320, 3), (329, 0x20), (352, 4), (361, 0x20),
   (4096, 1), (4100, 16), (4104, shape), (4105, 1), (4120, 2), (4124, 8), (4136, 3), (4140, 8), (4152, 4), (4156, 80), (4232, 1),
   (4240, 8), (4244, 8), (4256, 13), (4260, 16), (4268, 7), (4280, 14), (4284, 8), (4288, 0x3F)].filter fun e => e.2 != 0

/-- That partition with an image in its HBM, being loaded. -/
def loadingSmall (l : List (Nat × Nat)) : State :=
  { oneCore with hbm := l.map fun (e : Nat × Nat) => (e.1, BitVec.ofNat 8 e.2) }.modPart 0 fun p =>
    { p with loading := some ({ addr := 0, len := 0x2040, bases := [0x10000, 0x10000] }, 0, 3) }

/-- The loaded partition on a module whose Zenith has booted: the host port 0 has agreed an ABI and holds the role, and is verified. -/
def served (role : Nat) : State :=
  { (loaded.setFld rGlbAbi 7 0 4).setFld rZenRole 1 0 role with
    zen := { booted := true, alias_ := some [], officer := some [1] } }.setFld rPwrStatus 63 61 0

/-- Host port 0 with its SPDM connection in a state, on a module whose Zenith answers. -/
def attested (n : Nat) : State := (served 0).modHost 0 fun h => { h with spdm := n, session := some [7] }

/-- A value that is there. -/
theorem some_of {α : Type} {o : Option α} {d : α} (h : o.isSome = true) : o = some (o.getD d) := by cases o <;> simp_all

/-- Empty memory reads as zeros. -/
theorem memRead_nil (a n : Nat) : memRead [] a n = List.replicate n 0 := by
  induction n generalizing a with
  | zero => rfl
  | succ n ih => simp [memRead, ih, List.replicate_succ]; rfl

/-- Zero bytes spell zero words. -/
theorem chunks_zeros (n fuel : Nat) : ((chunksOf 4 fuel (List.replicate (4 * n) 0)).map leNat).all (· == 0) = true := by
  induction fuel generalizing n with
  | zero => cases n <;> rfl
  | succ f ih =>
    cases n with
    | zero => rfl
    | succ n =>
      have h : List.replicate (4 * (n + 1)) 0 = 0 :: 0 :: 0 :: 0 :: List.replicate (4 * n) 0 := by
        rw [show 4 * (n + 1) = 4 * n + 1 + 1 + 1 + 1 by omega]; rfl
      rw [h]
      simpa [chunksOf, leNat] using ih n

/-- The checksum of zero words is zero. -/
theorem fletcher_zeros (l : List Nat) (h : l.all (· == 0) = true) : fletcher l = 0 := by
  have : ∀ l : List Nat, l.all (· == 0) = true → l.foldl (fun (ab : Nat × Nat) w =>
    let a := (ab.1 + w) % 0xFFFFFFFF
    (a, (ab.2 + a) % 0xFFFFFFFF)) (0, 0) = (0, 0) := by
    intro l
    induction l with
    | nil => intro _; rfl
    | cons x l ih =>
      intro h
      simp only [List.all_cons, Bool.and_eq_true, beq_iff_eq] at h
      obtain ⟨rfl, h⟩ := h
      exact ih h
  unfold fletcher; rw [this l h]; rfl

/-- The check word of a residual block of zeros under key 0 is zero. -/
theorem residual_zeros (n : Nat) : residualCheck 0xFFFFFFFF 1 0 (List.replicate (4 * n) 0) = 0 := by
  apply fletcher_zeros
  simp [residualKey]
  simpa [wordsOf] using chunks_zeros n (4 * n)

section
set_option Elab.async false

/-- Every command whose operands the manual does not count is refused: one ill-formed term for each check of WellFormed. -/
def illFormed : List Instr :=
  [.endStep 4 0, .endStep 0 8, .fetch 0 0 8 0, .fetch 0 0 0 65536, .product 0 0 4 {}, .product 0 0 0 { sfmt := 4 }, .product 0 0 0 { pbase := 32768 },
   .halo 0 0 0 { hop := 8 }, .release 0 0 128 true, .stepStart 0 0 64, .barrierArrive 0 0 0 2, .arm 0 0 65536, .loop 0 0 0 0 0 1,
   .loop 0 0 0 65537 0 1, .loop 0 0 0 1 0 0, .loop 0 0 0 1 0 256, .ringHalfRelease 16 0, .ringHalfRelease 0 2,
   .tileQueueEntry 0 0 8, .tileResent 0 64 true, .companionResent 0 32769 true, .holdStart 0 256, .keySetRollover 6, .recalibrationDone 8,
   .exportDone 2, .status 3, .fwUpdate 0 2 [] false, .roleKeySet 0 0 8 [], .powerState 0 4, .persistentSlotArm 0 0 64 0,
   .scheduleParameterWrite 0 0 4 0 0, .registerWrite 0 0 3 0, .registerWrite 0 67108864 8 0, .maintenanceRequest 0 0 0 0,
   .multicastDeadline { x := 32 } 0, .multicastDeadline { z := 48 } 0, .gatherReply 7 {}, .gatherReply 0 { kind := 256 },
   .gatherReply 0 { offset := 2 ^ 29 }, .gatherReply 0 { content := [256] }, .flitReceived 0 { vc := 4 }, .flitReceived 0 { seq := 4096 },
   .nop 0 { seqno := 2 ^ 32 }, .nop 0 { count := 2 ^ 32 }]

/-- Each of them is refused. -/
theorem test_wf_refuses : illFormed.all (fun i => !i.wf) = true := by decide

/-- The largest operands that the manual counts are accepted. -/
theorem test_wf_accepts : ([.endStep 3 7, .fetch 3 7 7 65535, .product 3 7 3 { sfmt := 3, pfmt := 3, sbase := 32767, pbase := 32767 },
    .halo 3 7 3 { hop := 7 }, .release 3 7 127 true, .stepStart 3 7 63, .barrierArrive 3 7 63 1, .arm 3 7 65535, .loop 3 7 0 65536 0 255,
    .ringHalfRelease 15 1, .tileQueueEntry 15 1 7, .tileResent 0 63 true, .companionResent 0 32768 true, .holdStart 3 255, .keySetRollover 5,
    .recalibrationDone 7, .exportDone 1, .status 2, .fwUpdate 2 1 [] false, .roleKeySet 2 0 7 [], .powerState 2 3, .persistentSlotArm 1 3 63 0,
    .scheduleParameterWrite 1 3 3 0 0, .registerWrite 1 67108856 8 0, .maintenanceRequest 1 7 0 0, .multicastDeadline { x := 31, y := 31, z := 47 } 0,
    .gatherReply 6 { kind := 255 }, .flitReceived 5 { vc := 3, typ := 7, seq := 4095 }, .nop 3 { seqno := 2 ^ 32 - 1, count := 2 ^ 32 - 1 }]
      : List Instr).all Instr.wf = true := by decide

/-- R111's example: mantissas that sum to −1,000 leave the residue 20. -/
theorem test_residue : residue255 [-1000] = 20 := by decide

/-- The example of 05_quantisation.md: the largest magnitude 1,600 gives SCALE 2 for E4M3. -/
theorem test_scale : ceilLog2Quot 1600 0 (largestOf fcE4M3).1 (largestOf fcE4M3).2 = 2 := by decide

/-- The same example: 1,600 and 0x3E9A, divided by 4, round to nearest-even as 0x7C and 0x1A. -/
theorem test_nearest_even :
    (convElem fcE4M3 fmtE4M3 false ((fmtBF16.decode 0x44C8).scale (-2))).1 = 0x7C ∧
      (convElem fcE4M3 fmtE4M3 false ((fmtBF16.decode 0x3E9A).scale (-2))).1 = 0x1A := by decide

/-- The same example: stochastic rounding takes 1,600 up from R = 32,768 on, and 0x3E9A from R = 24,576 on. -/
theorem test_stochastic :
    (convElemSr fcE4M3 fmtE4M3 false ((fmtBF16.decode 0x44C8).scale (-2)) 32768).1 = 0x7D ∧
      (convElemSr fcE4M3 fmtE4M3 false ((fmtBF16.decode 0x44C8).scale (-2)) 32767).1 = 0x7C ∧
      (convElemSr fcE4M3 fmtE4M3 false ((fmtBF16.decode 0x3E9A).scale (-2)) 24576).1 = 0x1A ∧
      (convElemSr fcE4M3 fmtE4M3 false ((fmtBF16.decode 0x3E9A).scale (-2)) 24575).1 = 0x19 := by decide

/-- The example of the block adders: P and Q add to EXP 130, mantissas 23,750, −9,220 and 7, and RES 2, without saturating. -/
theorem test_block_add :
    addBlocks { mants := [20000, -12345, 7] ++ List.replicate 29 0, exp := 130, res := 12 }
      { mants := [30000, 25003, -1] ++ List.replicate 29 0, exp := 127, res := 177 } =
        some ({ mants := [23750, -9220, 7] ++ List.replicate 29 0, exp := 130, res := 2 }, false) := by decide +kernel

/-- The GELU example: a descriptor of 8 tiles takes 108 VCLK cycles. -/
theorem test_gelu_cycles : (({ (default : VDesc) with op := 0x17, cfmt := 1, asrc := 2, ddst := 1, n0 := 16383, n1 := 7 } : VDesc)).vclk = 108 := by decide

/-- The supply-dip example: below 42.0 V the supply ratio is 4/8. -/
theorem test_squall_ratio : ∃ t, exec (.squall 41000) (loaded.setFld rPwrStatus 63 61 0) = .next t ∧ t.clk.supply = 4 := by
  refine ⟨_, rfl, ?_⟩; decide +kernel

/-- R36: a fuse map that bypasses positions 15 and 16 passes, and one that bypasses position 0 fails. -/
theorem test_fuse_map : fuseMapOk 0x18000 = true ∧ fuseMapOk 0x10001 = false := by decide

/-- Reset: no command waits, no event is queued and memory lists nothing. -/
theorem test_reset : State.reset.pending = [] ∧ State.reset.evq = [] ∧ State.reset.hbm = [] := by decide

/-- R499: a parity failure of a place that was written back in the step raises SRAM_HARD, severity 0; the first failure raises nothing. -/
theorem test_sram_hard :
    let r : Recovery := { id := 9, core := 1, space := 1, addr := 64, len := 32, check := 1 }
    let t := (State.reset.recovered r 2).beginRecovery 1 1 0 80 32 1 none false none none
    (State.reset.beginRecovery 1 1 0 80 32 1 none false none none).evq = [] ∧
      t.evq.map (fun e => (e.code, e.sev, e.ext)) = [(0x0101, 1, 64), (0x0108, 0, 80)] ∧ t.recoveries.length = 1 := by decide +kernel

/-- States and operands that meet the hypotheses of StepRunsFront (EmptyQueueGoesOn), clause by clause. -/
theorem wit_EmptyQueueGoesOn :
    (let s : State := loaded; (s.pending = [])) := by decide +kernel

/-- States and operands that meet the hypotheses of QueueCommands, clause by clause. -/
theorem wit_QueueCommands :
    (let s : State := loaded; let k : Nat := 0; ((s.part k).queue = [])) ∧
    (let s : State := loaded; let e : RingEntry := { count := 1 }; let k : Nat := 0; (k < 4) ∧ ((s.part k).queue = []) ∧ (0 < e.count) ∧
      (s.pstate k = 1)) := by decide +kernel

/-- States and operands that meet the hypotheses of QueueCommands, clause by clause. -/
theorem wit_QueueCommands2 :
    (let s : State := loaded.modPart 0 fun p => { p with queue := [{ kind := 1, entry := { count := 2 }, started := 1 }], running := true };
      let q : QEntry := { kind := 1, entry := { count := 2 }, started := 1 }; let k : Nat := 0; (k < 4) ∧ ((s.part k).queue = [q]) ∧ (q.kind = 1) ∧
      (q.started < q.entry.count) ∧ ((s.part k).running = true) ∧ ((s.part k).records = []) ∧ (s.cqRoom k = false)) := by decide +kernel

/-- States and operands that meet the hypotheses of QueueCommands (MarkProducesRecord), clause by clause. -/
theorem wit_MarkProducesRecord :
    (let s : State := loaded.setFld (rHifCqCtrl 0) 63 63 1; let k : Nat := 0; let e : RingEntry := {}; (k < 4) ∧ ((s.part k).queue = []) ∧
      ((s.part k).records = []) ∧ (s.cqRoom k = true) ∧ (e.notify = false)) := by decide +kernel

/-- States and operands that meet the hypotheses of RingAndQueue (RingReadAndSample), clause by clause. -/
theorem wit_RingReadAndSample :
    (let s : State := ((loaded.setFld (rHifCrCtrl 3) 63 63 1).setFld (rHifCrCtrl 0) 63 63 1).setFld rGlbAbi 7 0 4 |>.setFld rPwrStatus 63 61 0;
      let b : List Nat := bytes64 [(0, 1), (16, 1)]; let k : Nat := 0; (k < 4) ∧ (s.ringRuns k = true) ∧ (s.fld (rHifCrCtrl k) 62 62 = 0) ∧
      ((s.part k).queue.length < 16) ∧ (entryBad b (s.fld (rHifCrStatus k) 63 32) = false)) := by decide +kernel

/-- States and operands that meet the hypotheses of RingAndQueue (RingReadAndSample), clause by clause. -/
theorem wit_RingReadAndSample2 :
    (let s : State := ((((loaded.setFld (rHifCrCtrl 0) 63 62 3).setFld rGlbAbi 7 0 4).setFld rPwrStatus 63 61 0).setReg (rHifCrProdAddr 0) 0x100000).hbmWrite 0x100000 [1, 0, 0, 0] |>.hbmWrite 0 (bytes64 [(0, 1), (16, 1)]);
      let b : List Nat := bytes64 [(0, 1), (16, 1)]; let k : Nat := 0; (k < 4) ∧ (s.ringRuns k = true) ∧ (s.fld (rHifCrCtrl k) 62 62 = 1) ∧
      (s.ringBad k (s.fld (rHifCrStatus k) 63 32) 1 = none) ∧
      (leNat (s.ringBytes k (s.reg (rHifCrProdAddr k)).toNat 4) = (s.fld (rHifCrStatus k) 63 32 + 1) % 2 ^ 32) ∧
      (s.deviceEntries k (s.fld (rHifCrStatus k) 63 32) 1 = [b]) ∧ ((s.part k).queue.length < 16) ∧
      (entryBad b (s.fld (rHifCrStatus k) 63 32) = false)) := by decide +kernel

/-- States and operands that meet the hypotheses of RingAndQueue (RingReadAndSample), clause by clause. -/
theorem wit_RingReadAndSample3 :
    (let s : State := (((loaded.setFld (rHifCrCtrl 3) 63 63 1).setFld (rHifCrCtrl 0) 63 63 1).setFld rGlbAbi 7 0 4 |>.setFld rPwrStatus 63 61 0).modPart 0 fun p => { p with fetched := [{ kind := 2 }] };
      let q : QEntry := { kind := 2 }; let k : Nat := 0; (k < 4) ∧ (s.ringRuns k = true) ∧ ((s.part k).fetched = [q]) ∧
      ((s.part k).refusedAt = none)) ∧
    (let s : State := loaded; let k : Nat := 0; (s.ringRuns k = false)) := by decide +kernel

/-- States and operands that meet the hypotheses of RingAndQueue (QueuedStepStarts), clause by clause. -/
theorem wit_QueuedStepStarts :
    (let s : State := (loaded.setFld (rSeqCtxStatus 3) 15 8 0x81).modPart 0 fun p => { p with queue := [{ kind := 1, entry := { count := 2 }, started := 1 }] };
      let q : QEntry := { kind := 1, entry := { count := 2 }, started := 1 }; let r : List QEntry := []; let k : Nat := 0; (s.clk.refLost = false) ∧
      (s.pstate k = 1) ∧ ((s.part k).running = false) ∧ ((s.part k).starting = false) ∧ ((s.part k).queue = q :: r) ∧ (q.kind = 1) ∧
      (q.started < q.entry.count)) := by decide +kernel

/-- States and operands that meet the hypotheses of ContextSteps (EndEndsContext), clause by clause. -/
theorem wit_EndEndsContext :
    (let s : State := loaded.setFld (rSeqCtxStatus 3) 15 8 0x81; let k : Nat := 3; let c : Nat := 0; let d : Nat := 7;
      (k ∈ s.partCores (s.lowest k)) ∧ (d ∈ s.activeCtxs k) ∧ (d ≠ c) ∧ ((s.ctx k d).ended = false) ∧
      ((s.ctx k d).stopped = false)) := by decide +kernel

/-- States and operands that meet the hypotheses of ContextSteps (LastEndEndsStep), clause by clause. -/
theorem wit_LastEndEndsStep :
    (let s : State := (loaded.setFld (rSeqCtxStatus 3) 15 8 0x80).modPart 0 fun p => { p with running := true }; let k : Nat := 3; let c : Nat := 7;
      (s.lowest k < 4) ∧ (k < 4) ∧ ((s.part (s.lowest k)).stopping = none) ∧
      ((s.modCtx k c fun x => { x with ended := true }).allQuiet (s.lowest k) = true) ∧ ((s.part (s.lowest k)).running = true) ∧
      ((s.part (s.lowest k)).queue = []) ∧ ((s.modCtx k c fun x => { x with ended := true }).anyStopped (s.lowest k) = false)) := by decide +kernel

/-- States and operands that meet the hypotheses of ContextSteps (LastEndEndsStep), clause by clause. -/
theorem wit_LastEndEndsStep2 :
    (let s : State := (loaded.setFld (rSeqCtxStatus 3) 15 8 0xC0).modCtx 3 6 fun x => { x with stopped := true }; let k : Nat := 3; let c : Nat := 7;
      (s.lowest k < 4) ∧ (k < 4) ∧ ((s.part (s.lowest k)).stopping = none) ∧
      ((s.modCtx k c fun x => { x with ended := true }).allQuiet (s.lowest k) = true) ∧ ((s.part (s.lowest k)).fault = none) ∧
      ((s.modCtx k c fun x => { x with ended := true }).anyStopped (s.lowest k) = true)) := by decide +kernel

/-- States and operands that meet the hypotheses of ContextSteps (StepStartWaits), clause by clause. -/
theorem wit_StepStartWaits :
    (let s : State := { loaded with clk := { loaded.clk with refLost := true } }; (s.clk.refLost = true)) ∧
    (let s : State := loaded.setFld (rSeqCtxStatus 3) 15 8 0x81; let k : Nat := 3; let c : Nat := 7; let u : Nat := 63; (s.clk.refLost = false) ∧
      ((s.part (s.lowest k)).fault = none) ∧
      (Nat.land (Nat.lor (SMap.get (s.bar u).stepIssued k) (2 ^ c)) (s.fld (rSeqCtxStatus k) 15 8) ≠ s.fld (rSeqCtxStatus k) 15 8)) := by decide +kernel

/-- States and operands that meet the hypotheses of ContextSteps (StepStartWaits), clause by clause. -/
theorem wit_StepStartWaits2 :
    (let s : State := (withUnit 63 true 0).setFld (rSeqCtxStatus 3) 15 8 0x80; let k : Nat := 3; let c : Nat := 7; let u : Nat := 63;
      (s.clk.refLost = false) ∧ ((s.part (s.lowest k)).fault = none) ∧
      (Nat.land (Nat.lor (SMap.get (s.bar u).stepIssued k) (2 ^ c)) (s.fld (rSeqCtxStatus k) 15 8) = s.fld (rSeqCtxStatus k) 15 8) ∧ (u < 64) ∧
      (k < 4) ∧ ((s.part (s.lowest k)).stopping = none) ∧ (s.barHas u k = true) ∧ ((s.owing u (s.arrSense u k)).contains k = false) ∧
      (s.barOpenAt u (s.arrSense u k) = true)) := by decide +kernel

/-- States and operands that meet the hypotheses of BarrierRounds (BarrierArriveAccepted), clause by clause. -/
theorem wit_BarrierArriveAccepted :
    (let s : State := withUnit 63 true 0; let k : Nat := 3; let u : Nat := 63; let e : Nat := 0; (u < 64) ∧ (k < 4) ∧ (e < 2) ∧
      (s.barHas u k = true) ∧ (s.arrSense u k = e) ∧ ((s.owing u e).contains k = false) ∧ (s.barOpenAt u e = true)) := by decide +kernel

/-- States and operands that meet the hypotheses of BarrierRounds (BarrierDepartCompletes), clause by clause. -/
theorem wit_BarrierDepartCompletes :
    (let s : State := { (withUnit 63 true 0).setFld (rBarState 63) 38 38 1 with bars := [(63, { sense := [(0, ([3], [3], []))], departReady := [(0, [3])] })] };
      let k : Nat := 3; let u : Nat := 63; let e : Nat := 0; (u < 64) ∧ (k < 4) ∧ (e < 2) ∧ (s.barHas u k = true) ∧ (s.depSense u k = e) ∧
      ((s.owing u e).contains k = true) ∧ (s.mayDepart u k e = true)) := by decide +kernel

/-- States and operands that meet the hypotheses of BarrierFaults (BarrierStrangerFaults), clause by clause. -/
theorem wit_BarrierStrangerFaults :
    (let s : State := loaded; let u : Nat := 63; let k : Nat := 0; (s.barHas u k = false)) ∧
    (let s : State := loaded; let u : Nat := 63; let k : Nat := 0; (s.barHas u k = false)) := by decide +kernel

/-- States and operands that meet the hypotheses of BarrierMessages, clause by clause. -/
theorem wit_BarrierMessages :
    (let s : State := { withUnit 63 true 0x20 with bars := [(63, { totals := [0, 0, 0, 0, 0, 4] })] }; let u : Nat := 63; let e : Nat := 1;
      let p : Nat := 5; let total : Nat := 4; (u < 64) ∧ (e < 2) ∧ ((s.barChildren u).contains p = true) ∧ (total = (s.bar u).totals.getD p 0) ∧
      (s.barArr u e + 1 < s.fld (rBarCfg u) 45 42)) := by decide +kernel

/-- States and operands that meet the hypotheses of BarrierMessages, clause by clause. -/
theorem wit_BarrierMessages2 :
    (let s : State := ({ (withUnit 63 false 0x20) with bars := [(63, { totals := [0, 0, 0, 0, 0, 4] })] }.setFld (rBarState 63) 7 4 3).setFld (rLnkStatus 1) 63 61 4;
      let u : Nat := 63; let e : Nat := 1; let p : Nat := 5; let total : Nat := 4; (u < 64) ∧ (e < 2) ∧ ((s.barChildren u).contains p = true) ∧
      (total = (s.bar u).totals.getD p 0) ∧ (s.fld (rBarCfg u) 45 42 ≤ s.barArr u e + 1) ∧ (s.barRoot u = false) ∧
      (s.linkState (s.barParent u) = 4)) := by decide +kernel

/-- States and operands that meet the hypotheses of BarrierMessages, clause by clause. -/
theorem wit_BarrierMessages3 :
    (let s : State := ({ (withUnit 63 true 0x28) with bars := [(63, { totals := [0, 0, 0, 0, 0, 4] })] }.setFld (rBarState 63) 7 4 3).setFld (rLnkStatus 3) 63 61 4;
      let u : Nat := 63; let e : Nat := 1; let p : Nat := 5; let total : Nat := 4; (u < 64) ∧ (e < 2) ∧ ((s.barChildren u).contains p = true) ∧
      (total = (s.bar u).totals.getD p 0) ∧ (s.fld (rBarCfg u) 45 42 ≤ s.barArr u e + 1) ∧ (s.barRoot u = true)) := by decide +kernel

/-- States and operands that meet the hypotheses of BarrierMessages, clause by clause. -/
theorem wit_BarrierMessages4 :
    (let s : State := (withUnit 63 false 0x28).setFld (rLnkStatus 3) 63 61 4; let u : Nat := 63; let e : Nat := 1; let p : Nat := 1; (u < 64) ∧
      (e < 2) ∧ (s.barRoot u = false) ∧ (p = s.barParent u)) := by decide +kernel

/-- States and operands that meet the hypotheses of BarrierMessages (BarOpenOpens), clause by clause. -/
theorem wit_BarOpenOpens :
    (let s : State := ((withUnit 63 false 0x28).setFld (rBarState 63) 37 36 0).setFld (rLnkStatus 3) 63 61 4; let u : Nat := 63; let e : Nat := 1;
      let p : Nat := 1; (u < 64) ∧ (e < 2) ∧ (s.barRoot u = false) ∧ (p = s.barParent u) ∧ ((s.bar u).held = [])) ∧
    (let s : State := { withUnit 63 false 0x28 with bars := [(63, { sense := [(1, ([3], [3], [3]))] })] }; let u : Nat := 63; let e : Nat := 1;
      let p : Nat := 5; ((s.barChildren u).contains p = true) ∧
      (((SMap.get (s.bar u).sense e).2.1 ≠ [] ∨ ∃ q ∈ s.barChildren u, q ≠ p ∧ q ∉ (SMap.get (s.bar u).sense e).2.2))) := by decide +kernel

/-- States and operands that meet the hypotheses of BarrierMessages (BarOpenOpens), clause by clause. -/
theorem wit_BarOpenOpens2 :
    (let s : State := (({ withUnit 63 true 0x28 with bars := [(63, { sense := [(1, ([], [], [3]))] })] }.setFld (rBarState 63) 39 38 2).setFld (rBarState 63) 37 36 0).setFld (rLnkStatus 3) 63 61 4;
      let u : Nat := 63; let e : Nat := 1; let p : Nat := 5; (u < 64) ∧ (e < 2) ∧ ((s.barChildren u).contains p = true) ∧ (s.barDoneAt u e = true) ∧
      ((SMap.get (s.bar u).sense e).2.1 = []) ∧ ((∀ q ∈ s.barChildren u, q ≠ p → q ∈ (SMap.get (s.bar u).sense e).2.2)) ∧
      ((s.bar u).held = [])) := by decide +kernel

/-- States and operands that meet the hypotheses of BarrierFaults (BarrierMessageFaults), clause by clause. -/
theorem wit_BarrierMessageFaults :
    (let s : State := loaded; let total : Nat := 1; let u : Nat := 0; let p : Nat := 0;
      (((s.barChildren u).contains p = false ∨ total ≠ (s.bar u).totals.getD p 0))) ∧
    (let s : State := withUnit 63 true 0; let u : Nat := 63; let p : Nat := 0; ((s.barRoot u = true ∨ p ≠ s.barParent u))) ∧
    (let s : State := withUnit 63 true 0; let u : Nat := 63; let p : Nat := 0; ((s.barRoot u = true ∨ p ≠ s.barParent u))) ∧
    (let s : State := loaded; let u : Nat := 0; let p : Nat := 0; ((s.barChildren u).contains p = false)) := by decide +kernel

/-- States and operands that meet the hypotheses of StreamsStart, clause by clause. -/
theorem wit_StreamsStart :
    (let s : State := loaded; let k : Nat := 0; let c : Nat := 0; let e : Nat := 0; let idx : Nat := 0;
      ((SMap.get (s.core k).engines e).running = false) ∧ ((SMap.get (s.core k).engines e).busyUntil ≤ s.cyc k) ∧
      (s.namesHalf k c (sdesc (s.streamDesc k idx)) = none)) := by decide +kernel

/-- States and operands that meet the hypotheses of BusyFaults (BusyEngineFaults), clause by clause. -/
theorem wit_BusyEngineFaults :
    (let s : State := loaded.modCore 0 fun c => { c with engines := [(7, { running := true })] }; let e : Nat := 7; let k : Nat := 0;
      (((SMap.get (s.core k).engines e).running = true ∨ s.cyc k < (SMap.get (s.core k).engines e).busyUntil))) ∧
    (let s : State := (withDesc [(0, 4), (2, 2), (10, 1)]).modCore 3 fun c => { c with map := { c.map with arrays := [[0, 0xFFFF, 0xFFFF, 0xFFFF]], stream := (0, 64), streamCount := 1 } };
      let k : Nat := 3; let e : Nat := 7; let x := halfExt 12 0 0 3; let c : Nat := 0; let idx : Nat := 0;
      ((SMap.get (s.core k).engines e).running = false) ∧ ((SMap.get (s.core k).engines e).busyUntil ≤ s.cyc k) ∧
      (s.namesHalf k c (sdesc (s.streamDesc k idx)) = some x)) := by decide +kernel

/-- States and operands that meet the hypotheses of StreamsStart (ReceiveCounts), clause by clause. -/
theorem wit_ReceiveCounts :
    (let s : State := loaded; let k : Nat := 0; let c : Nat := 0; let e : Nat := 0; let idx : Nat := 0;
      ((SMap.get (s.core k).engines e).running = false) ∧ ((SMap.get (s.core k).engines e).busyUntil ≤ s.cyc k) ∧
      (s.namesHalf k c (sdesc (s.streamDesc k idx)) = none)) := by decide +kernel

/-- States and operands that meet the hypotheses of ReadsRun (FetchIssueReads), clause by clause. -/
theorem wit_FetchIssueReads :
    (let s : State := loaded.modCore 3 fun c => { c with engines := [(7, { running := true, desc := bytes64 [(0, 1), (30, 9)], srcBase := 4096 })] };
      let k : Nat := 3; let e : Nat := 7; let en : Engine := { running := true, desc := bytes64 [(0, 1), (30, 9)], srcBase := 4096 };
      let d : SDesc := sdesc (bytes64 [(0, 1), (30, 9)]); (SMap.get (s.core k).engines e = en) ∧ (sdesc en.desc = d) ∧ (en.running = true) ∧
      ((d.kind = 1 ∨ d.kind = 2)) ∧ (d.src = 0) ∧ (d.srcBuf = false) ∧ (d.dstBuf = false) ∧ (en.issue + 1 < 65 * d.panels) ∧
      ((∀ r ∈ d.srcRanges en.srcBase en.issue, s.inBounds (s.lowest k) r.1 r.2 = true ∧ s.accShut k r.1 r.2 = false))) := by decide +kernel

/-- States and operands that meet the hypotheses of ReadsRun (FetchLands), clause by clause. -/
theorem wit_FetchLands :
    (let s : State := { loaded with reads := [{ id := 5, core := 3, kind := 1, src := 4096, dstBase := 8192, desc := bytes64 [(0, 1), (2, 1), (10, 32)] }], hbm := [(4096, 7), (6143, 9)] };
      let r : Read := { id := 5, core := 3, kind := 1, src := 4096, dstBase := 8192, desc := bytes64 [(0, 1), (2, 1), (10, 32)] };
      let d : SDesc := sdesc (bytes64 [(0, 1), (2, 1), (10, 32)]); (s.reads = [r]) ∧ (sdesc r.desc = d) ∧ (r.kind = 1) ∧ (d.src = 0) ∧ (d.dst = 1) ∧
      (d.dstBuf = false) ∧ (d.srcFormat ≠ fcBFP16) ∧ (r.unit = 0) ∧ (r.link = 255) ∧ (r.dstBase + 2048 ≤ 0x2000000) ∧
      (s.tableHit r.core r.dstBase 2048 = false) ∧ (s.linkHits r.core 1 0 r.dstBase 2048 = []) ∧ (s.hbmBad r.src 2048 = false) ∧
      (d.place 0 = (0, 0, 0))) := by decide +kernel

/-- States and operands that meet the hypotheses of BasesAndHalves (RearmTakesBases), clause by clause. -/
theorem wit_RearmTakesBases :
    (let s : State := ((loaded.setReg (rStrPsArm 3 0) 0x8000000000000000).setReg (rStrPsSrc 3 0) 4096).setReg (rStrPsDst 3 0) 8192; let k : Nat := 3;
      let w : Word := 0x8000000000000000; (k < 4) ∧ (s.slotBusy k 0 = false) ∧
      (s.slotInBounds k 0 (s.fld (rStrPsSrc k 0) 39 0) (s.fld (rStrPsDst k 0) 39 0) = true) ∧ (getF w 63 63 = 1) ∧ (getF w 55 0 ≤ s.beat) ∧
      ((∀ p, p < 64 → p ≠ 0 → s.fld (rStrPsArm k p) 63 63 = 0 ∧ s.armSeen k p = none)) ∧ (s.reg (rStrPsArm k 0) = w) ∧
      (s.armSeen k 0 = none)) := by decide +kernel

/-- States and operands that meet the hypotheses of BasesAndHalves (RearmTakesBases), clause by clause. -/
theorem wit_RearmTakesBases2 :
    (let s : State := ((loaded.modCore 3 fun c => { c with armSeen := [(0, (1, 0x8000000000000000))] }).setReg (rStrPsSrc 3 0) 4096).setReg (rStrPsDst 3 0) 8192;
      let k : Nat := 3; let w : Word := 0x8000000000000000; (k < 4) ∧ (s.slotBusy k 0 = false) ∧
      (s.slotInBounds k 0 (s.fld (rStrPsSrc k 0) 39 0) (s.fld (rStrPsDst k 0) 39 0) = true) ∧ (getF w 63 63 = 1) ∧ (getF w 55 0 ≤ s.beat) ∧
      ((∀ p, p < 64 → p ≠ 0 → s.fld (rStrPsArm k p) 63 63 = 0 ∧ s.armSeen k p = none)) ∧ (s.armSeen k 0 = some w)) := by decide +kernel

/-- States and operands that meet the hypotheses of BasesAndHalves (ReleaseConsumer), clause by clause. -/
theorem wit_ReleaseConsumer :
    (let s : State := loaded.modCore 3 fun c => { c with links := [(linkKey 7 127, { halves := 2, producer := 8, consumer := 11 })], linkDyn := [(linkKey 7 127, { prodHolds := true, consHolds := true })] };
      let k : Nat := 3; let c : Nat := 7; let m : Nat := 127; ((s.part (s.lowest k)).lull = []) ∧ ((s.link k c m).halves = 2) ∧
      (s.semVal k c (2 * m + 1) + (s.linkD k c m).emptySoon + 1 ≤ 2)) ∧
    (let s : State := loaded.modCore 3 fun c => { c with links := [(linkKey 7 127, { halves := 2, producer := 8, consumer := 11 })], linkDyn := [(linkKey 7 127, { prodHolds := true, consHolds := true })] };
      let k : Nat := 3; let c : Nat := 7; let m : Nat := 127; ((s.part (s.lowest k)).lull = []) ∧ ((s.link k c m).halves = 2) ∧
      (s.semVal k c (2 * m) + (s.linkD k c m).fullSoon + 1 ≤ 2) ∧ (s.lateReads k c m = []) ∧ (s.heldInHalf k c m = false)) := by decide +kernel

/-- States and operands that meet the hypotheses of BasesAndHalves (ReleaseStops), clause by clause. -/
theorem wit_ReleaseStops :
    (let s : State := (loaded.modCore 3 fun c => { c with links := [(linkKey 7 127, { halves := 2, producer := 8, consumer := 11 })], linkDyn := [(linkKey 7 127, { prodHolds := true, consHolds := true })] }).setSem 3 7 255 2;
      let k : Nat := 3; let c : Nat := 7; let m : Nat := 127; ((s.link k c m).halves < s.semVal k c (2 * m + 1) + (s.linkD k c m).emptySoon + 1)) ∧
    (let s : State := (loaded.modCore 3 fun c => { c with links := [(linkKey 7 127, { halves := 2, producer := 8, consumer := 11 })], linkDyn := [(linkKey 7 127, { prodHolds := true, consHolds := true })] }).setSem 3 7 254 2;
      let k : Nat := 3; let c : Nat := 7; let m : Nat := 127; (s.lateReads k c m = []) ∧ (s.heldInHalf k c m = false) ∧
      ((s.link k c m).halves < s.semVal k c (2 * m) + (s.linkD k c m).fullSoon + 1)) ∧
    (let s : State := { loaded with reads := [{ core := 3, link := 127, ctx := 7 }] }; let k : Nat := 3; let c : Nat := 7; let m : Nat := 127;
      ((s.lateReads k c m ≠ [] ∨ s.heldInHalf k c m = true))) := by decide +kernel

/-- States and operands that meet the hypotheses of ReadsRun (StratusDelivers), clause by clause. -/
theorem wit_StratusDelivers :
    (let s : State := { loaded with stra := [{ id := 9, cores := [3], space := 1, off := 4096, fmt := 2, tile := some 2, data := List.replicate 40 7 }] };
      let x : StraTransfer := { id := 9, cores := [3], space := 1, off := 4096, fmt := 2, tile := some 2, data := List.replicate 40 7 };
      let j : Nat := 3; let u : Nat := 2; (s.stra = [x]) ∧ (x.cores = [j]) ∧ (x.space = 1) ∧ (x.tile = some u) ∧ (x.hdrs = []) ∧
      (x.off + (x.group + 2048 + u * tileBytes x.fmt) + x.data.length ≤ 0x2000000) ∧
      (s.tableHit j (x.off + (x.group + 2048 + u * tileBytes x.fmt)) x.data.length = false) ∧
      (s.linkHits j 1 0 (x.off + (x.group + 2048 + u * tileBytes x.fmt)) x.data.length = [])) := by decide +kernel

/-- States and operands that meet the hypotheses of ReadsRun (StratusDelivers), clause by clause. -/
theorem wit_StratusDelivers2 :
    (let s : State := { loaded with stra := [{ id := 9, cores := [3], space := 1, off := 4096, fmt := 2, hdrs := [List.replicate 32 7, List.replicate 32 9] }] };
      let x : StraTransfer := { id := 9, cores := [3], space := 1, off := 4096, fmt := 2, hdrs := [List.replicate 32 7, List.replicate 32 9] };
      let j : Nat := 3; let a : List Nat := List.replicate 32 7; let b : List Nat := List.replicate 32 9; (s.stra = [x]) ∧ (x.cores = [j]) ∧
      (x.space = 1) ∧ (x.tile = none) ∧ (x.hdrs = [a, b]) ∧ (a.length = 32) ∧ (b.length = 32) ∧ (x.off + x.group + 64 ≤ 0x2000000) ∧
      ((∀ i ∈ [0, 32], s.tableHit j (x.off + (x.group + i)) 32 = false ∧ s.linkHits j 1 0 (x.off + (x.group + i)) 32 = []))) := by decide +kernel

/-- States and operands that meet the hypotheses of ProductIssues, clause by clause. -/
theorem wit_ProductIssues :
    (let s : State := { loaded with lstore := (List.range 64).map fun i => (lsKey 15 (16 * i) 1024, 2) }; let k : Nat := 3; let a : Nat := 3;
      let p : ProductArgs := { upset := 1, psrc := true, ssrc := true };
      ((∀ q, (s.arr (4 * k + a)).last = some q → q.issuedAt + 1024 * max q.c (cyclesOf p.sfmt) ≤ s.cyc k)) ∧
      ((s.serialStored k a p = false → s.resendInto (4 * k + a) (s.arr (4 * k + a)).readHalf = none)) ∧
      ((p.psrc = false → s.linkHits k 2 (s.poolArray k a p.pbase (p.pfmt + 1)) p.pbase (128 * elemBits (p.pfmt + 1) + 2) = [])) ∧
      ((s.serialStored k a p = true → s.linkHits k 2 (s.poolArray k a p.sbase (p.sfmt + 1)) p.sbase (128 * elemBits (p.sfmt + 1) + 2) = [])) ∧
      (p.upset ≠ 0)) := by decide +kernel

/-- States and operands that meet the hypotheses of ProductIssues, clause by clause. -/
theorem wit_ProductIssues2 :
    (let s : State := { loaded with lstore := (List.range 64).map fun i => (lsKey 15 (16 * i) 1024, 2) }; let k : Nat := 3; let a : Nat := 3;
      let p : ProductArgs := { psrc := true, ssrc := true };
      ((∀ q, (s.arr (4 * k + a)).last = some q → q.issuedAt + 1024 * max q.c (cyclesOf p.sfmt) ≤ s.cyc k)) ∧
      ((s.serialStored k a p = false → s.resendInto (4 * k + a) (s.arr (4 * k + a)).readHalf = none)) ∧
      ((p.psrc = false → s.linkHits k 2 (s.poolArray k a p.pbase (p.pfmt + 1)) p.pbase (128 * elemBits (p.pfmt + 1) + 2) = [])) ∧
      ((s.serialStored k a p = true → s.linkHits k 2 (s.poolArray k a p.sbase (p.sfmt + 1)) p.sbase (128 * elemBits (p.sfmt + 1) + 2) = [])) ∧
      (p.upset = 0) ∧ ((s.parallelOperand k a p).2 = true) ∧ ((s.serialOperand k a p).2 = true)) := by decide +kernel

/-- States and operands that meet the hypotheses of BusyFaults (ProductRefused), clause by clause. -/
theorem wit_ProductRefused :
    (let s : State := loaded.modArr 15 fun a => { a with last := some { id := 3, core := 3, c := 2, issuedAt := 5 } }; let k : Nat := 3;
      let a : Nat := 3; let q : Product := { id := 3, core := 3, c := 2, issuedAt := 5 }; let p : ProductArgs := {};
      ((s.arr (4 * k + a)).last = some q) ∧ (s.cyc k < q.issuedAt + 1024 * max q.c (cyclesOf p.sfmt))) ∧
    (let s : State := loaded; let k : Nat := 3; let a : Nat := 3; let p : ProductArgs := { psrc := true };
      ((∀ q, (s.arr (4 * k + a)).last = some q → q.issuedAt + 1024 * max q.c (cyclesOf p.sfmt) ≤ s.cyc k)) ∧ (p.psrc = true) ∧ (p.upset = 0) ∧
      (s.serialStored k a p = false) ∧ (s.resendInto (4 * k + a) (s.arr (4 * k + a)).readHalf = none) ∧
      ((s.serialOperand k a p).2 = false)) := by decide +kernel

/-- States and operands that meet the hypotheses of BusyFaults (ProductRefused), clause by clause. -/
theorem wit_ProductRefused2 :
    (let s : State := loaded; let k : Nat := 3; let a : Nat := 3; let p : ProductArgs := {};
      ((∀ q, (s.arr (4 * k + a)).last = some q → q.issuedAt + 1024 * max q.c (cyclesOf p.sfmt) ≤ s.cyc k)) ∧ (p.psrc = false) ∧ (p.upset = 0) ∧
      (s.linkHits k 2 (s.poolArray k a p.pbase (p.pfmt + 1)) p.pbase (128 * elemBits (p.pfmt + 1) + 2) = []) ∧ (s.serialStored k a p = false) ∧
      (s.resendInto (4 * k + a) (s.arr (4 * k + a)).readHalf = none) ∧ ((s.parallelOperand k a p).2 = false)) := by decide +kernel

/-- States and operands that meet the hypotheses of ProductMoments, clause by clause. -/
theorem wit_ProductMoments :
    (let s : State := loaded.modArr 15 fun a => { a with prods := [{ id := 3, core := 3, c := 2, pairs := [{ par := { fmt := 2, scales := List.replicate 64 0 }, ser := { fmt := 2, scales := List.replicate 64 0 } }], cstart := true }] };
      let A : Nat := 15; let id : Nat := 3;
      let p : Product := { id := 3, core := 3, c := 2, pairs := [{ par := { fmt := 2, scales := List.replicate 64 0 }, ser := { fmt := 2, scales := List.replicate 64 0 } }], cstart := true };
      (s.prod A id = some p) ∧ (p.abandoned = false) ∧ (p.core < 4) ∧ (A < 16) ∧ ((s.core p.core).tq.length ≤ 56)) ∧
    (let s : State := loaded.modArr 15 fun a => { a with prods := [{ id := 3, core := 3, c := 2, pairs := [{ par := { fmt := 2, scales := List.replicate 64 0 }, ser := { fmt := 2, scales := List.replicate 64 0 } }], abandoned := true }] };
      let A : Nat := 15; let id : Nat := 3;
      let p : Product := { id := 3, core := 3, c := 2, pairs := [{ par := { fmt := 2, scales := List.replicate 64 0 }, ser := { fmt := 2, scales := List.replicate 64 0 } }], abandoned := true };
      (s.prod A id = some p) ∧ (p.abandoned = true)) ∧
    (let s : State := loaded.modArr 15 fun a => { a with ring := [(1, { st := .held })] }; let A : Nat := 15; let half : Nat := 1;
      ((s.ring A half).st ≠ .free)) := by decide +kernel

/-- States and operands that meet the hypotheses of ProductMoments, clause by clause. -/
theorem wit_ProductMoments2 :
    (let s : State := loaded.modArr 15 fun a => { a with prods := [{ id := 3, core := 3, c := 2, pairs := [{ par := { fmt := 2, scales := List.replicate 64 0 }, ser := { fmt := 2, scales := List.replicate 64 0 } }], cstart := true }] };
      let A : Nat := 15; let id : Nat := 3;
      let p : Product := { id := 3, core := 3, c := 2, pairs := [{ par := { fmt := 2, scales := List.replicate 64 0 }, ser := { fmt := 2, scales := List.replicate 64 0 } }], cstart := true };
      (s.prod A id = some p) ∧ (p.abandoned = false) ∧ (p.cstart = true) ∧ (p.core < 4) ∧ (A < 16)) ∧
    (let s : State := loaded.modArr 15 fun a => { a with prods := [{ id := 3, core := 3, c := 2, pairs := [{ par := { fmt := 2, scales := List.replicate 64 0 }, ser := { fmt := 2, scales := List.replicate 64 0 } }], cstart := true }] };
      let A : Nat := 15; let id : Nat := 3;
      let p : Product := { id := 3, core := 3, c := 2, pairs := [{ par := { fmt := 2, scales := List.replicate 64 0 }, ser := { fmt := 2, scales := List.replicate 64 0 } }], cstart := true };
      (s.prod A id = some p) ∧ (p.abandoned = false)) := by decide +kernel

/-- States and operands that meet the hypotheses of HaloTransfers (HaloStarts), clause by clause. -/
theorem wit_HaloStarts :
    (let s : State := { (loaded.modArr 15 fun a => { a with fwdHalf := 1, ring := [(1, { st := .held, fmt := 2 })] }) with slots := [{ node := 15, hi := 1000 }] };
      let k : Nat := 3; let a : Nat := 3; let f : Nat := 1;
      let p : Nat × List (Nat × Bool) := ((loaded.path 3 15 false false 1).1, (loaded.path 3 15 false false 1).2); let x := { node := 15, hi := 512 };
      let h : HaloArgs := {}; (s.path k (4 * k + a) h.ccw (h.back || h.companion) h.hop = p) ∧ (s.resendOn p.1 p.2 = none) ∧
      ((if h.companion then s.sendableComp (4 * k + a) else some (s.arr (4 * k + a)).fwdHalf) = some f) ∧
      ((s.pruneSlots k).collides (hopSlots (s.cyc k) (payloadCycles h.companion (s.ring (4 * k + a) f).fmt) (h.back && !h.companion) p.1 p.2) = some x)) ∧
    (let s : State := (loaded.modArr 15 fun a => { a with fwdHalf := 1, ring := [(1, { st := .held, fmt := 2 })] }); let k : Nat := 3;
      let a : Nat := 3; let f : Nat := 1; let p : Nat × List (Nat × Bool) := ((loaded.path 3 15 false false 1).1, (loaded.path 3 15 false false 1).2);
      let h : HaloArgs := {}; (s.path k (4 * k + a) h.ccw (h.back || h.companion) h.hop = p) ∧ (s.resendOn p.1 p.2 = none) ∧
      ((if h.companion then s.sendableComp (4 * k + a) else some (s.arr (4 * k + a)).fwdHalf) = some f) ∧
      ((s.pruneSlots k).collides (hopSlots (s.cyc k) (payloadCycles h.companion (s.ring (4 * k + a) f).fmt) (h.back && !h.companion) p.1 p.2) = none)) := by decide +kernel

/-- States and operands that meet the hypotheses of HaloTransfers (HaloStarts), clause by clause. -/
theorem wit_HaloStarts2 :
    (let s : State := loaded; let k : Nat := 3; let a : Nat := 3; let h : HaloArgs := { companion := true };
      (s.resendOn (s.path k (4 * k + a) h.ccw true h.hop).1 (s.path k (4 * k + a) h.ccw true h.hop).2 = none) ∧ (h.companion = true) ∧
      (s.sendableComp (4 * k + a) = none)) := by decide +kernel

/-- States and operands that meet the hypotheses of HaloTransfers (HaloArrives), clause by clause. -/
theorem wit_HaloArrives :
    (let s : State := { loaded with transfers := [{ id := 9, core := 3, dst := 15, dstHalf := 1, started := true }] }; let id : Nat := 9;
      let x : Transfer := { id := 9, core := 3, dst := 15, dstHalf := 1, started := true }; (s.transfer id = some x) ∧ (x.started = true) ∧
      (x.arrived = false) ∧ (x.companion = false) ∧ (x.acked = false)) := by decide +kernel

/-- States and operands that meet the hypotheses of HaloTransfers (HaloArrives), clause by clause. -/
theorem wit_HaloArrives2 :
    (let s : State := { loaded with transfers := [{ id := 9, core := 3, dst := 15, dstHalf := 1, started := true }] }; let id : Nat := 9;
      let x : Transfer := { id := 9, core := 3, dst := 15, dstHalf := 1, started := true }; let u : Nat := 63; (s.transfer id = some x) ∧
      (x.started = true) ∧ (x.arrived = false) ∧ (x.companion = false) ∧ (x.resend.contains u = false)) := by decide +kernel

/-- States and operands that meet the hypotheses of HaloTransfers (HaloArrives), clause by clause. -/
theorem wit_HaloArrives3 :
    (let s : State := { (loaded.modArr 15 fun a => { a with ring := [(1, { st := .filling })], comp := [(1, { st := .filling })] }) with transfers := [{ id := 9, core := 3, dst := 15, dstHalf := 1, started := true, src := some 14, companion := true }] };
      let id : Nat := 9; let x : Transfer := { id := 9, core := 3, dst := 15, dstHalf := 1, started := true, src := some 14, companion := true };
      (s.transfer id = some x) ∧ (x.started = true) ∧ (x.arrived = false) ∧ (x.companion = true) ∧ (x.badBlocks = []) ∧ (x.acked = false)) ∧
    (let s : State := { loaded with transfers := [{ id := 9, core := 3, dst := 15, dstHalf := 1, started := true, resend := [63] }] };
      let id : Nat := 9; let x : Transfer := { id := 9, core := 3, dst := 15, dstHalf := 1, started := true, resend := [63] };
      (s.transfer id = some x) ∧ (x.acked = false) ∧ ((x.resend ≠ [] ∨ x.reinject = true))) := by decide +kernel

/-- States and operands that meet the hypotheses of HaloTransfers (HaloArrives), clause by clause. -/
theorem wit_HaloArrives4 :
    (let s : State := { (loaded.modArr 15 fun a => { a with ring := [(1, { st := .filling })], comp := [(1, { st := .filling })] }) with transfers := [{ id := 9, core := 3, dst := 15, dstHalf := 1, started := true, arrived := true }] };
      let id : Nat := 9; let x : Transfer := { id := 9, core := 3, dst := 15, dstHalf := 1, started := true, arrived := true };
      (s.transfer id = some x) ∧ (x.acked = false) ∧ (x.resend = []) ∧ (x.reinject = false) ∧ (x.src = none) ∧ (x.companion = false) ∧
      ((s.ring x.dst x.dstHalf).st = .filling) ∧ ((s.ring x.dst x.dstHalf).done = false)) := by decide +kernel

/-- States and operands that meet the hypotheses of HaloTransfers (HaloArrives), clause by clause. -/
theorem wit_HaloArrives5 :
    (let s : State := { (loaded.modArr 15 fun a => { a with ring := [(1, { st := .filling })], comp := [(1, { st := .filling })] }) with transfers := [{ id := 9, core := 3, dst := 15, dstHalf := 1, started := true, src := some 14, companion := true }] };
      let id : Nat := 9; let x : Transfer := { id := 9, core := 3, dst := 15, dstHalf := 1, started := true, src := some 14, companion := true };
      let A : Nat := 14; (s.transfer id = some x) ∧ (x.acked = false) ∧ (x.resend = []) ∧ (x.reinject = false) ∧ (x.src = some A) ∧
      (A ≠ x.dst)) := by decide +kernel

/-- States and operands that meet the hypotheses of HaloTransfers (HaloRepairs), clause by clause. -/
theorem wit_HaloRepairs :
    (let s : State := { loaded with transfers := [{ id := 9, core := 3, dst := 15, dstHalf := 1, started := true, resend := [63] }] };
      let id : Nat := 9; let x : Transfer := { id := 9, core := 3, dst := 15, dstHalf := 1, started := true, resend := [63] }; let u : Nat := 63;
      (s.transfer id = some x) ∧ (x.companion = false) ∧ (x.resend.contains u = true)) := by decide +kernel

/-- States and operands that meet the hypotheses of HaloTransfers (HaloRepairs), clause by clause. -/
theorem wit_HaloRepairs2 :
    (let s : State := { loaded with transfers := [{ id := 9, core := 3, dst := 15, dstHalf := 1, started := true, src := some 14, fmt := 2, resend := [0], hdrs := [sealHdr 0 { format := 2 } []], elems := [[]] }] };
      let id : Nat := 9;
      let x : Transfer := { id := 9, core := 3, dst := 15, dstHalf := 1, started := true, src := some 14, fmt := 2, resend := [0], hdrs := [sealHdr 0 { format := 2 } []], elems := [[]] };
      let u : Nat := 0;
      let y : Transfer := { id := 9, core := 3, dst := 15, dstHalf := 1, started := true, src := some 14, fmt := 2, resend := [0], hdrs := [sealHdr 0 { format := 2 } []], elems := [[]] };
      (s.transfer id = some x) ∧ (x.companion = false) ∧ (x.resend = [u]) ∧ (x.dst < 16) ∧ (s.evq.length < 1024) ∧ (s.resentTile x u = some y) ∧
      (x.acked = false)) := by decide +kernel

/-- States and operands that meet the hypotheses of HaloTransfers (HaloRepairs), clause by clause. -/
theorem wit_HaloRepairs3 :
    (let s : State := { loaded with transfers := [{ id := 9, core := 3, dst := 15, dstHalf := 1, started := true, reinject := true, origin := { owner := 3 } }] };
      let id : Nat := 9;
      let x : Transfer := { id := 9, core := 3, dst := 15, dstHalf := 1, started := true, reinject := true, origin := { owner := 3 } };
      (s.transfer id = some x) ∧ (x.reinject = true) ∧ (s.residentBad x = none) ∧ (s.evq.length < 1024) ∧ (x.ackDue = false) ∧ (x.acked = false)) ∧
    (let s : State := { loaded with transfers := [{ id := 9, core := 3, dst := 15, dstHalf := 1, started := true, src := some 14, companion := true, resend := [0] }] };
      let id : Nat := 9;
      let x : Transfer := { id := 9, core := 3, dst := 15, dstHalf := 1, started := true, src := some 14, companion := true, resend := [0] };
      let u : Nat := 0; (s.transfer id = some x) ∧ (x.companion = true) ∧ (x.resend.contains u = true)) := by decide +kernel

/-- States and operands that meet the hypotheses of HaloTransfers (HaloRepairs), clause by clause. -/
theorem wit_HaloRepairs4 :
    (let s : State := { loaded with transfers := [{ id := 9, core := 3, dst := 15, dstHalf := 1, started := true, src := some 14, companion := true, resend := [0] }] };
      let id : Nat := 9;
      let x : Transfer := { id := 9, core := 3, dst := 15, dstHalf := 1, started := true, src := some 14, companion := true, resend := [0] };
      let u : Nat := 0; (s.transfer id = some x) ∧ (x.companion = true) ∧ (x.resend = [u]) ∧ (s.evq.length < 1024) ∧
      (x.badBlocks.contains u = false) ∧ (x.ackDue = false) ∧ (x.acked = false)) := by decide +kernel

/-- States and operands that meet the hypotheses of VectorRuns, clause by clause. -/
theorem wit_VectorRuns :
    (let s : State := withDesc [(3, 2), (17, 3), (52, 255), (53, 255)]; let d : VDesc := vdesc (bytes64 [(3, 2), (17, 3), (52, 255), (53, 255)]);
      let k : Nat := 3; let idx : Nat := 0; let u : Bool := false; let ts : List TqTile := []; (k < 4) ∧ (vdesc (s.vectorDesc k idx) = d) ∧
      ((s.core k).vec = none) ∧ ((s.core k).tq.take d.tileCount = ts) ∧ (ts.length = d.tileCount) ∧
      ((∀ x ∈ ts, x.ok = true ∧ x.hdr.format = d.tileFmt ∧ x.enteredAt + 24 ≤ s.cyc k)) ∧ ((u = false ∨ ts = [])) ∧ (d.linkIn = 255) ∧ (d.ddst ≠ 1) ∧
      (d.redOp = 0) ∧ (idx < 2048)) := by decide +kernel

/-- States and operands that meet the hypotheses of VectorRuns (VectorWritesStore), clause by clause. -/
theorem wit_VectorWritesStore :
    (let s : State := withDesc [(3, 1), (17, 3), (52, 255), (53, 255)]; let d : VDesc := vdesc (bytes64 [(3, 1), (17, 3), (52, 255), (53, 255)]);
      let k : Nat := 3; let idx : Nat := 0; (k < 4) ∧ (vdesc (s.vectorDesc k idx) = d) ∧ ((s.core k).vec = none) ∧ (d.tileCount = 0) ∧
      (d.linkIn = 255) ∧ (d.ddst = 1) ∧ (d.redOp = 0) ∧ (d.n1 = 0) ∧ (d.n2 = 0) ∧
      (d.rowAddr d.dbase 6 7 0 + cfmtBytes d.cfmt * (d.n0 + 1) ≤ 0x2000000) ∧
      (s.tableHit k (d.rowAddr d.dbase 6 7 0) (cfmtBytes d.cfmt * (d.n0 + 1)) = false) ∧
      (s.linkHits k 1 0 (d.rowAddr d.dbase 6 7 0) (cfmtBytes d.cfmt * (d.n0 + 1)) = [])) := by decide +kernel

/-- States and operands that meet the hypotheses of BusyFaults (VectorEngineBusy), clause by clause. -/
theorem wit_VectorEngineBusy :
    (let s : State := loaded.modCore 3 fun c => { c with vec := some {} }; let k : Nat := 3; ((s.core k).vec.isSome = true)) ∧
    (let s : State := loaded.modCore 3 fun c => { c with thinQ := List.replicate 4 ([], 0, 0, 0) }; let k : Nat := 3;
      (4 ≤ (s.core k).thinQ.length)) := by decide +kernel

/-- States and operands that meet the hypotheses of UpdateRuns, clause by clause. -/
theorem wit_UpdateRuns :
    (let s : State := withDesc [(0, 0x40), (4, 5), (24, 255), (25, 255), (26, 255), (27, 255), (28, 255), (29, 255), (30, 255), (36, 0x20)];
      let d : UDesc := udesc (bytes64 [(0, 0x40), (4, 5), (24, 255), (25, 255), (26, 255), (27, 255), (28, 255), (29, 255), (30, 255), (36, 0x20)]);
      let k : Nat := 3; let idx : Nat := 0; (udesc (s.vectorDesc k idx) = d) ∧ ((s.core k).vec = none) ∧ ((d.dense && d.outside k) = true)) ∧
    (let s : State := (withDesc [(0, 0x40), (4, 5), (24, 255), (25, 255), (26, 255), (27, 255), (28, 255), (29, 255), (30, 255), (36, 0x60)]).setFld (rUpdPolicy 3) 7 0 4;
      let d : UDesc := udesc (bytes64 [(0, 0x40), (4, 5), (24, 255), (25, 255), (26, 255), (27, 255), (28, 255), (29, 255), (30, 255), (36, 0x60)]);
      let k : Nat := 3; let c : Nat := 2; let idx : Nat := 0; (udesc (s.vectorDesc k idx) = d) ∧ ((s.core k).vec = none) ∧
      ((d.dense && d.outside k) = false) ∧ (s.skewed k d = true) ∧ (bitAt (s.fld (rUpdPolicy k) 7 0) c = true)) := by decide +kernel

/-- States and operands that meet the hypotheses of UpdateRuns, clause by clause. -/
theorem wit_UpdateRuns2 :
    (let s : State := withDesc [(0, 0x40), (4, 5), (24, 255), (25, 255), (26, 255), (27, 255), (28, 255), (29, 255), (30, 255), (36, 0x60)];
      let d : UDesc := udesc (bytes64 [(0, 0x40), (4, 5), (24, 255), (25, 255), (26, 255), (27, 255), (28, 255), (29, 255), (30, 255), (36, 0x60)]);
      let k : Nat := 3; let c : Nat := 2; let idx : Nat := 0; (udesc (s.vectorDesc k idx) = d) ∧ ((s.core k).vec = none) ∧
      ((d.dense && d.outside k) = false) ∧ (s.skewed k d = true) ∧ (bitAt (s.fld (rUpdPolicy k) 7 0) c = false) ∧
      ((∀ m ∈ d.inputs, (s.link k c m).consumer = 8 ∧ (s.linkD k c m).consHolds = true)) ∧ ((∀ m ∈ d.outputs, (s.link k c m).producer = 8 ∧
      (s.linkD k c m).prodHolds = true))) := by decide +kernel

/-- States and operands that meet the hypotheses of UpdateRuns, clause by clause. -/
theorem wit_UpdateRuns3 :
    (let s : State := withLink (withDesc [(0, 0x40), (4, 1), (24, 7), (25, 255), (26, 255), (27, 255), (28, 7), (29, 255), (30, 255), (36, 0x60)]) 8 8;
      let d : UDesc := udesc (bytes64 [(0, 0x40), (4, 1), (24, 7), (25, 255), (26, 255), (27, 255), (28, 7), (29, 255), (30, 255), (36, 0x60)]);
      let k : Nat := 3; let c : Nat := 2; let idx : Nat := 0; (udesc (s.vectorDesc k idx) = d) ∧ ((s.core k).vec = none) ∧
      ((d.dense && d.outside k) = false) ∧ (s.skewed k d = false) ∧ ((∀ m ∈ d.inputs, (s.link k c m).consumer = 8 ∧
      (s.linkD k c m).consHolds = true)) ∧ ((∀ m ∈ d.outputs, (s.link k c m).producer = 8 ∧ (s.linkD k c m).prodHolds = true))) := by decide +kernel

/-- States and operands that meet the hypotheses of VectorCompletes, clause by clause. -/
theorem wit_VectorCompletes :
    (let s : State := loaded.modCore 3 fun c => { c with vec := some { ctx := 2, tiles := 1 }, tq := [{}, {}] }; let k : Nat := 3;
      let r : VecRun := { ctx := 2, tiles := 1 }; (k < 4) ∧ ((s.core k).vec = some r) ∧ (r.writesL = false) ∧
      (fieldAt (s.core k).update 0 1 ≠ 0x30)) := by decide +kernel

/-- States and operands that meet the hypotheses of VectorCompletes, clause by clause. -/
theorem wit_VectorCompletes2 :
    (let s : State := loaded.modCore 3 fun c => { c with vec := some { writesL := true }, update := bytes64 [(0, 0x40), (2, 9), (4, 6)] };
      let k : Nat := 3; let r : VecRun := { writesL := true }; let d : UDesc := udesc (bytes64 [(0, 0x40), (2, 9), (4, 6)]); (k < 4) ∧
      ((s.core k).vec = some r) ∧ (r.writesL = true) ∧ (r.tiles = 0) ∧ (udesc (s.core k).update = d) ∧ (d.shard < 256) ∧
      (fieldAt (s.core k).update 0 1 ≠ 0x30)) := by decide +kernel

/-- States and operands that meet the hypotheses of VectorCompletes, clause by clause. -/
theorem wit_VectorCompletes_a :
    (let s : State := loaded; let k : Nat := 3; let idx : Nat := 0; (k < 4) ∧ ((s.core k).vec = none) ∧
      ((s.collAt (s.lowest k) (Config.baddColl (s.vectorDesc k idx))).kind ≠ 3) ∧
      ((s.collD (s.lowest k) (Config.baddColl (s.vectorDesc k idx))).counted = [])) :=
  ⟨by decide, by decide +kernel, by show (cdesc (SMap.get [] _)).kind ≠ 3; decide +kernel, rfl⟩

/-- States and operands that meet the hypotheses of ThinningRuns, clause by clause. -/
theorem wit_ThinningRuns :
    (let s : State := withDesc [(0, 0x50), (1, 0x30), (12, 255), (13, 255), (14, 7)];
      let d : TDesc := tdesc (bytes64 [(0, 0x50), (1, 0x30), (12, 255), (13, 255), (14, 7)]); let k : Nat := 3; let idx : Nat := 0;
      (tdesc (s.vectorDesc k idx) = d) ∧ ((s.core k).thinQ.length < 4)) ∧
    (let s : State := (withLink (loaded.modCore 3 fun c => { c with thin := some { desc := bytes64 [(0, 0x52), (14, 7)], ctx := 2, k := 3, blocks := List.replicate 129 { mants := List.replicate 32 0 } } }) 9 11);
      let k : Nat := 3;
      let h : ThinRun := { desc := bytes64 [(0, 0x52), (14, 7)], ctx := 2, k := 3, blocks := List.replicate 129 { mants := List.replicate 32 0 } };
      let d : TDesc := tdesc (bytes64 [(0, 0x52), (14, 7)]); let b : Nat := 1;
      let o : List Nat := (slice (List.replicate 129 { mants := List.replicate 32 0 }) 128 128).flatMap BfpBlock.bytes; ((s.core k).thin = some h) ∧
      (tdesc h.desc = d) ∧ (((slice h.blocks (128 * b) 128).all BfpBlock.ok) = true) ∧ (d.op = 0x52) ∧
      (o = (slice h.blocks (128 * b) 128).flatMap BfpBlock.bytes) ∧
      (s.ownsHalf k h.ctx d.linkMsg 9 (s.heldBase k h.ctx d.linkMsg false + (64 + 8448 * b)) o.length)) := by decide +kernel

/-- States and operands that meet the hypotheses of ThinningRuns, clause by clause. -/
theorem wit_ThinningRuns2 :
    (let s : State := (withLink (loaded.modCore 3 fun c => { c with thin := some { desc := bytes64 [(0, 0x50), (1, 0x34), (14, 7)], ctx := 2, k := 3, blocks := List.replicate 256 { mants := List.replicate 32 0 } } }) 9 11);
      let k : Nat := 3;
      let h : ThinRun := { desc := bytes64 [(0, 0x50), (1, 0x34), (14, 7)], ctx := 2, k := 3, blocks := List.replicate 256 { mants := List.replicate 32 0 } };
      let d : TDesc := tdesc (bytes64 [(0, 0x50), (1, 0x34), (14, 7)]); let b : Nat := 1; ((s.core k).thin = some h) ∧ (tdesc h.desc = d) ∧
      (((slice h.blocks (128 * b) 128).all BfpBlock.ok) = true) ∧ (d.op ≠ 0x52) ∧ (d.rzero = true) ∧ (b ≠ 0)) := by decide +kernel

/-- States and operands that meet the hypotheses of ThinningRuns, clause by clause. -/
theorem wit_ThinningRuns3 :
    (let s : State := (withLink (loaded.modCore 3 fun c => { c with thin := some { desc := bytes64 [(0, 0x52), (14, 7)], ctx := 2, k := 3, blocks := List.replicate 256 { mants := List.replicate 32 0 } } }) 9 11);
      let k : Nat := 3;
      let h : ThinRun := { desc := bytes64 [(0, 0x52), (14, 7)], ctx := 2, k := 3, blocks := List.replicate 256 { mants := List.replicate 32 0 } };
      let d : TDesc := tdesc (bytes64 [(0, 0x52), (14, 7)]); ((s.core k).thin = some h) ∧ (tdesc h.desc = d) ∧ ((s.part (s.lowest k)).lull = []) ∧
      (s.ownsHalf k h.ctx d.linkMsg 9 (s.heldBase k h.ctx d.linkMsg false) 64) ∧ ((s.link k h.ctx d.linkMsg).consumer = 0x0B) ∧
      (s.semVal k h.ctx (2 * d.linkMsg) + (s.linkD k h.ctx d.linkMsg).fullSoon + 1 ≤ (s.link k h.ctx d.linkMsg).halves) ∧
      (d.op = 0x52)) := by decide +kernel

/-- States and operands that meet the hypotheses of ThinningRuns, clause by clause. -/
theorem wit_ThinningRuns4 :
    (let s : State := (withLink (loaded.modCore 3 fun c => { c with thin := some { desc := bytes64 [(0, 0x50), (1, 0x30), (12, 5), (13, 6), (14, 7)], ctx := 2, k := 3, blocks := List.replicate 256 { mants := List.replicate 32 0 } } }) 9 11) |>.modCore 3 fun c => { c with links := c.links ++ [(linkKey 2 6, { halves := 2 })] };
      let k : Nat := 3;
      let h : ThinRun := { desc := bytes64 [(0, 0x50), (1, 0x30), (12, 5), (13, 6), (14, 7)], ctx := 2, k := 3, blocks := List.replicate 256 { mants := List.replicate 32 0 } };
      let d : TDesc := tdesc (bytes64 [(0, 0x50), (1, 0x30), (12, 5), (13, 6), (14, 7)]); ((s.core k).thin = some h) ∧ (tdesc h.desc = d) ∧
      ((s.part (s.lowest k)).lull = []) ∧ (s.ownsHalf k h.ctx d.linkMsg 9 (s.heldBase k h.ctx d.linkMsg false) 64) ∧
      ((s.link k h.ctx d.linkMsg).consumer = 0x0B) ∧
      (s.semVal k h.ctx (2 * d.linkMsg) + (s.linkD k h.ctx d.linkMsg).fullSoon + 1 ≤ (s.link k h.ctx d.linkMsg).halves) ∧ (d.op ≠ 0x52) ∧
      (d.linkROut ≠ d.linkMsg) ∧ (d.linkROut < 128) ∧
      (s.semVal k h.ctx (2 * d.linkROut) + (s.linkD k h.ctx d.linkROut).fullSoon + 1 ≤ (s.link k h.ctx d.linkROut).halves)) := by decide +kernel

/-- States and operands that meet the hypotheses of ThinningRuns, clause by clause. -/
theorem wit_ThinningRuns_a :
    (let s : State := (withLink (loaded.modCore 3 fun c => { c with thin := some { desc := bytes64 [(0, 0x50), (1, 0x30), (12, 5), (13, 6), (14, 7), (20, 255), (21, 255), (22, 255), (23, 255)], ctx := 2, k := 3, blocks := List.replicate 256 { mants := List.replicate 32 0 } } }) 9 11);
      let k : Nat := 3;
      let h : ThinRun := { desc := bytes64 [(0, 0x50), (1, 0x30), (12, 5), (13, 6), (14, 7), (20, 255), (21, 255), (22, 255), (23, 255)], ctx := 2, k := 3, blocks := List.replicate 256 { mants := List.replicate 32 0 } };
      let d : TDesc := tdesc (bytes64 [(0, 0x50), (1, 0x30), (12, 5), (13, 6), (14, 7), (20, 255), (21, 255), (22, 255), (23, 255)]);
      let b : Nat := 1; let o : List Nat := List.replicate 8192 0; let u : Bool := false; ((s.core k).thin = some h) ∧ (tdesc h.desc = d) ∧
      (((slice h.blocks (128 * b) 128).all BfpBlock.ok) = true) ∧ (d.op ≠ 0x52) ∧ (d.rzero = false) ∧ (b ≠ 0) ∧ (u = false) ∧
      (o = s.storeRead k (s.heldBase k h.ctx d.linkRIn true + 8200 * b) 8192) ∧
      (leNat (s.storeRead k (s.heldBase k h.ctx d.linkRIn true + 8200 * b + 8192) 8) = residualCheck d.key b (d.step - 1) o)) :=
  ⟨by decide +kernel, by decide +kernel, by decide +kernel, by decide +kernel, by decide +kernel,
    by decide, rfl, (memRead_nil _ 8192).symm, by show leNat (memRead [] _ 8) = residualCheck 0xFFFFFFFF 1 0 (List.replicate (4 * 2048) 0); rw [residual_zeros, memRead_nil]; rfl⟩

/-- States and operands that meet the hypotheses of ReductionArms, clause by clause. -/
theorem wit_ReductionArms :
    (let s : State := withColl [(0, 4), (1, 1), (2, 9), (4, 3), (7, 255)] {}; let p : Nat := 1; let m : FabricMsg := {}; let k : Nat := 0;
      (s.recvPart p m = some k) ∧ (s.collEntry k m.coll = none)) ∧
    (let s : State := withColl [(0, 1), (1, 5), (2, 9), (4, 3), (22, 2), (7, 255)] { step := 4 }; let p : Nat := 1; let e : Nat := 5;
      let m : FabricMsg := { coll := 9, src := { x := 1 }, content := bytes64 [(0, 1), (8, 4), (22, 1)] ++ List.replicate 66 0 };
      let c : CDesc := cdesc (bytes64 [(0, 1), (1, 5), (2, 9), (4, 3), (22, 2), (7, 255)]); let k : Nat := 0; (s.recvPart p m = some k) ∧
      (s.collEntry k m.coll = some (e, c)) ∧
      (((s.collD k e).opened = false ∨ (s.collD k e).step ≠ fieldAt m.content 8 8 ∨ c.owner = false))) := by decide +kernel

/-- States and operands that meet the hypotheses of ReductionArms, clause by clause. -/
theorem wit_ReductionArms2 :
    (let s : State := withColl [(0, 4), (1, 1), (2, 9), (4, 3), (7, 255)] { step := 4, opened := true, counted := [(0, 0, 1)] }; let p : Nat := 1;
      let e : Nat := 5; let m : FabricMsg := { coll := 9, src := { x := 1 }, content := bytes64 [(0, 1), (8, 4), (22, 1)] ++ List.replicate 66 0 };
      let c : CDesc := cdesc (bytes64 [(0, 4), (1, 1), (2, 9), (4, 3), (7, 255)]); let k : Nat := 0; (s.recvPart p m = some k) ∧
      (s.collEntry k m.coll = some (e, c)) ∧ ((s.collD k e).opened = true) ∧ ((s.collD k e).step = fieldAt m.content 8 8) ∧ (c.owner = true) ∧
      (((if c.summed then s.panelPlace c (fieldAt m.content 6 2) else 0), fieldAt m.content 20 2, 1) ∈ (s.collD k e).counted) ∧
      (fieldAt m.content 22 2 ≠ 0)) := by decide +kernel

/-- States and operands that meet the hypotheses of ReductionTakes, clause by clause. -/
theorem wit_ReductionTakes :
    (let s : State := withColl [(0, 1), (1, 5), (2, 9), (4, 3), (22, 2), (7, 255)] { step := 4, opened := true }; let p : Nat := 1; let e : Nat := 5;
      let m : FabricMsg := { coll := 9, src := { x := 1 }, content := bytes64 [(0, 1), (8, 4), (22, 1)] ++ List.replicate 66 0 };
      let c : CDesc := cdesc (bytes64 [(0, 1), (1, 5), (2, 9), (4, 3), (22, 2), (7, 255)]); let k : Nat := 0; (s.recvPart p m = some k) ∧
      (s.collEntry k m.coll = some (e, c)) ∧ (s.collAt k e = c) ∧ ((s.collD k e).opened = true) ∧ ((s.collD k e).step = fieldAt m.content 8 8) ∧
      (c.owner = true) ∧ ((s.collD k e).counted = []) ∧ ((bodyParts m.content).all (partOk (fieldAt m.content 0 1)) = true) ∧
      ((c.vecAdd && c.summed) = true)) := by decide +kernel

/-- States and operands that meet the hypotheses of ReductionTakes, clause by clause. -/
theorem wit_ReductionTakes2 :
    (let s : State := withColl [(0, 1), (1, 1), (2, 9), (4, 3), (22, 2), (7, 255)] { step := 4, opened := true }; let p : Nat := 1; let e : Nat := 5;
      let m : FabricMsg := { coll := 9, src := { x := 1 }, content := bytes64 [(0, 1), (8, 4), (22, 1)] ++ List.replicate 66 0 };
      let c : CDesc := cdesc (bytes64 [(0, 1), (1, 1), (2, 9), (4, 3), (22, 2), (7, 255)]); let k : Nat := 0; (s.recvPart p m = some k) ∧
      (s.collEntry k m.coll = some (e, c)) ∧ (s.collAt k e = c) ∧ ((s.collD k e).opened = true) ∧ ((s.collD k e).step = fieldAt m.content 8 8) ∧
      (c.owner = true) ∧ ((s.collD k e).counted = []) ∧ ((bodyParts m.content).all (partOk (fieldAt m.content 0 1)) = true) ∧
      ((c.vecAdd && c.summed) = false) ∧
      ((({ s := s } : Added).parts c m.content (if c.summed then s.panelPlace c (fieldAt m.content 6 2) else 0) (bodyParts m.content)).ok = true)) := by decide +kernel

/-- States and operands that meet the hypotheses of ReductionTakes, clause by clause. -/
theorem wit_ReductionTakes3 :
    (let s : State := withColl [(0, 4), (1, 1), (2, 9), (4, 3), (7, 255)] { step := 4, opened := true }; let e : Nat := 5; let row : Nat := 7;
      let b : List Nat := List.replicate 66 0; let r : Added := (({ s := s } : Added).row (s.collAt 0 5) (s.collD 0 5).step 7 (List.replicate 66 0));
      let k : Nat := 0; let n : Nat := 0; ((s.collD k e).opened = true) ∧ ((blocksOf b).all BfpBlock.ok = true) ∧
      (({ s := s } : Added).row (s.collAt k e) (s.collD k e).step row b = r) ∧ (r.ok = true) ∧ (n = (s.collAt k e).acc / 2 ^ 36) ∧
      (n < 8)) := by decide +kernel

/-- States and operands that meet the hypotheses of ReductionTakes, clause by clause. -/
theorem wit_ReductionTakes4 :
    (let s : State := (withColl [(0, 1), (1, 5), (2, 9), (4, 3), (22, 2), (7, 255)] {}).modPart 0 (fun p => { p with combine := 2 }) |>.modPort 1 fun q => { q with combineOwn := some ({ coll := 9, content := bytes64 [(0, 1), (8, 4), (22, 1), (20, 1)] ++ List.replicate 66 0 }, 7), combineNext := [4, 6] };
      let p : Nat := 1; let f : Nat := 4; let fs : List Nat := [6]; let w : Nat := 7;
      let m : FabricMsg := { coll := 9, src := { x := 1 }, content := bytes64 [(0, 1), (8, 4), (22, 1)] ++ List.replicate 66 0 };
      let own : FabricMsg := { coll := 9, content := bytes64 [(0, 1), (8, 4), (22, 1), (20, 1)] ++ List.replicate 66 0 };
      let x : Nat × CDesc := (5, cdesc (bytes64 [(0, 1), (1, 5), (2, 9), (4, 3), (22, 2), (7, 255)]));
      let b : List Nat := ((combineMsg ({ coll := 9, content := bytes64 [(0, 1), (8, 4), (22, 1), (20, 1)] ++ List.replicate 66 0 } : FabricMsg).content ({ coll := 9, src := { x := 1 }, content := bytes64 [(0, 1), (8, 4), (22, 1)] ++ List.replicate 66 0 } : FabricMsg).content).getD ([], 0)).1;
      let k : Nat := 0; (s.portPart p = some k) ∧ ((s.port p).combineOwn = some (own, w)) ∧ (bitAt (s.part k).combine p = true) ∧
      (own.coll = m.coll) ∧ (fieldAt own.content 8 8 = fieldAt m.content 8 8) ∧ ((s.port p).combineNext = f :: fs) ∧ (s.collEntry k m.coll = some x) ∧
      ((bodyParts m.content).all (partOk 1) = true) ∧ (combineMsg own.content m.content = some (b, 0)) ∧ (fs ≠ [])) := by decide +kernel

/-- States and operands that meet the hypotheses of ReductionTakes, clause by clause. -/
theorem wit_ReductionTakes5 :
    (let s : State := (withColl [(0, 1), (1, 5), (2, 9), (4, 3), (22, 2), (7, 255)] {}).modPart 0 (fun p => { p with combine := 2 }) |>.modPort 1 fun q => { q with combineOwn := some ({ coll := 9, content := bytes64 [(0, 1), (8, 4), (22, 1), (20, 1)] ++ List.replicate 66 0 }, 7), combineNext := [4] };
      let p : Nat := 1; let f : Nat := 4; let fs : List Nat := []; let w : Nat := 7;
      let m : FabricMsg := { coll := 9, src := { x := 1 }, content := bytes64 [(0, 1), (8, 4), (22, 1)] ++ List.replicate 66 0 };
      let own : FabricMsg := { coll := 9, content := bytes64 [(0, 1), (8, 4), (22, 1), (20, 1)] ++ List.replicate 66 0 };
      let x : Nat × CDesc := (5, cdesc (bytes64 [(0, 1), (1, 5), (2, 9), (4, 3), (22, 2), (7, 255)]));
      let b : List Nat := ((combineMsg ({ coll := 9, content := bytes64 [(0, 1), (8, 4), (22, 1), (20, 1)] ++ List.replicate 66 0 } : FabricMsg).content ({ coll := 9, src := { x := 1 }, content := bytes64 [(0, 1), (8, 4), (22, 1)] ++ List.replicate 66 0 } : FabricMsg).content).getD ([], 0)).1;
      let k : Nat := 0; (s.portPart p = some k) ∧ ((s.port p).combineOwn = some (own, w)) ∧ (bitAt (s.part k).combine p = true) ∧
      (own.coll = m.coll) ∧ (fieldAt own.content 8 8 = fieldAt m.content 8 8) ∧ ((s.port p).combineNext = f :: fs) ∧ (s.collEntry k m.coll = some x) ∧
      ((bodyParts m.content).all (partOk 1) = true) ∧ (combineMsg own.content m.content = some (b, 0)) ∧ (fs = [])) := by decide +kernel

/-- States and operands that meet the hypotheses of ReductionTakes, clause by clause. -/
theorem wit_ReductionTakes6 :
    (let s : State := { loaded with sent := [{ hdr := { msgid := 8, content := bytes64 [(0, 1)] }, port := 6 }] }; let id : Nat := 8;
      let o : OutMsg := { hdr := { msgid := 8, content := bytes64 [(0, 1)] }, port := 6 }; let i : Nat := 0; (s.sent = [o]) ∧ (o.hdr.msgid = id) ∧
      ((o.port = 6 ∨ (s.portTakes o.core o.port o.hdr.kind (s.hops s.me o.hdr.dest) = true ∧
      (s.admitFlits o.port (resendContent o.hdr.content i).length (s.hops s.me o.hdr.dest) o.hdr.deadline).isSome = true)))) := by decide +kernel

/-- States and operands that meet the hypotheses of ReductionTakes, clause by clause. -/
theorem wit_ReductionTakes7 :
    (let s : State := (withColl [(0, 1), (1, 5), (2, 9), (4, 3), (22, 2), (7, 255)] {}).setReg rClkBeat 900; let e : Nat := 5;
      let c : CDesc := cdesc (bytes64 [(0, 1), (1, 5), (2, 9), (4, 3), (22, 2), (7, 255)]); let k : Nat := 0; (s.collAt k e = c) ∧
      ((c.summed = true → 0 < c.panels)) ∧ ((s.collD k e).complete = false) ∧ ((s.collD k e).counted = []) ∧ (0 < c.contrib) ∧
      (s.collDeadline k c.coll < s.beat) ∧ (s.evq.length + c.contrib ≤ 1024)) := by decide +kernel

/-- States and operands that meet the hypotheses of HoldsPropagate, clause by clause. -/
theorem wit_HoldsPropagate :
    (let s : State := withRv {}; let k : Nat := 0; let rv : Nat := 9; let r : RvEntry := { barrier := 63, point := 5000, done := 6000 }; (k < 4) ∧
      (rv < 256) ∧ (s.rvPending k rv = some r) ∧ (s.holdDue k rv = true) ∧ ((s.treePorts r.barrier).Nodup)) ∧
    (let s : State := withRv { holding := true }; let rv : Nat := 9; let r : RvEntry := { barrier := 63, point := 5000, done := 6000 };
      let k : Nat := 0; (k < 4) ∧ (SMap.get (s.part k).rvs rv = some r) ∧ ((s.rvD k rv).holding = true) ∧
      ((s.treePorts r.barrier).Nodup)) := by decide +kernel

/-- States and operands that meet the hypotheses of HoldsPropagate, clause by clause. -/
theorem wit_HoldsPropagate2 :
    (let s : State := loaded; let n : Nat := 7; let k : Nat := 0; (k < 4) ∧ (n ≠ (s.part k).stepNo % 65536)) ∧
    (let s : State := loaded; let n : Nat := 7; let k : Nat := 0; (k < 4) ∧ (n ≠ (s.part k).stepNo % 65536)) ∧
    (let s : State := loaded; let k : Nat := 0; let rv : Nat := 0; let n : Nat := 0; (k < 4) ∧ (n = (s.part k).stepNo % 65536) ∧
      (s.rvPending k rv = none)) := by decide +kernel

/-- States and operands that meet the hypotheses of HoldsPropagate, clause by clause. -/
theorem wit_HoldsPropagate3 :
    (let s : State := loaded; let k : Nat := 0; let rv : Nat := 0; let n : Nat := 0; (k < 4) ∧ (n = (s.part k).stepNo % 65536) ∧
      (s.rvPending k rv = none)) ∧
    (let s : State := withRv {}; let rv : Nat := 9; let n : Nat := 2; let k : Nat := 0; (k < 4) ∧ (n = (s.part k).stepNo % 65536) ∧
      ((s.rvPending k rv).isSome = true)) ∧
    (let s : State := (withRv { senders := [{ x := 3 }] }).modPart 0 fun p => { p with lull := [{ kind := 2, cause := 7, tag := holdTag 9 }] };
      let rv : Nat := 9; let n : Nat := 2; let k : Nat := 0; (k < 4) ∧ (n = (s.part k).stepNo % 65536) ∧
      ((s.rvPending k rv).isSome = true)) := by decide +kernel

/-- States and operands that meet the hypotheses of HoldsPropagate, clause by clause. -/
theorem wit_HoldsPropagate4 :
    (let s : State := ((withRv { senders := [{ x := 3 }] }).setFld (rSeqHoldLimit 0) 31 0 0).modPart 0 fun p => { p with lull := [{ kind := 2, cause := 7, tag := holdTag 9 }] };
      let k : Nat := 0; ((∃ r ∈ (s.part k).lull, r.bounded = true ∧ r.since + s.fld (rSeqHoldLimit k) 31 0 * 700 ≤ s.clk.wall))) ∧
    (let s : State := withRv {}; let k : Nat := 0;
      ((∀ r ∈ (s.part k).lull, r.bounded = true → s.clk.wall < r.since + s.fld (rSeqHoldLimit k) 31 0 * 700))) := by decide +kernel

/-- States and operands that meet the hypotheses of ClockRuns (AlignmentLoads), clause by clause. -/
theorem wit_AlignmentLoads :
    (let s : State := { linked with zen := { linked.zen with coord := some ⟨0, 0, 0⟩ }, pwr := { linked.pwr with phase5 := true } };
      (s.isOrigin = true) ∧ (s.pwr.phase5 = true) ∧ (s.fld rClkPhase 63 63 = 0)) ∧
    (let s : State := linked; ((s.isOrigin = false ∨ s.pwr.phase5 = false ∨ s.fld rClkPhase 63 63 ≠ 0))) ∧
    (let s : State := linked.setFld rClkPhase 63 63 1; let p : Nat := 1; let b : Nat := 3; let ph : Nat := 4; let d := 2104; (p < 6) ∧
      (s.fld rClkPhase 63 63 ≠ 0) ∧ (s.evq.length < 1024) ∧
      (d = (b * 700 + ph + s.oneWay p - (s.beat * 700 + s.phase)) + (s.beat * 700 + s.phase - (b * 700 + ph + s.oneWay p)))) := by decide +kernel

/-- States and operands that meet the hypotheses of ClockRuns (AlignmentLoads), clause by clause. -/
theorem wit_AlignmentLoads2 :
    (let s : State := { linked with zen := { linked.zen with coord := some ⟨0, 0, 0⟩ }, pwr := { linked.pwr with phase5 := true } }; let p : Nat := 1;
      (p < 6) ∧ (s.fld rClkPhase 63 63 = 0) ∧ (s.isOrigin = true)) ∧
    (let s : State := { linked with pwr := { linked.pwr with phase5 := true } }; let p : Nat := 1; (p < 6) ∧ (s.fld rClkPhase 63 63 = 0) ∧
      (s.isOrigin = false) ∧ (s.pwr.phase5 = true)) := by decide +kernel

/-- States and operands that meet the hypotheses of ClockRuns (AlignmentLoads), clause by clause. -/
theorem wit_AlignmentLoads3 :
    (let s : State := linked; let p : Nat := 1; (p < 6) ∧ (s.fld rClkPhase 63 63 = 0) ∧ (s.isOrigin = false) ∧ (s.pwr.phase5 = false)) ∧
    (let s : State := linked; (s.evq.length < 1024)) := by decide +kernel

/-- States and operands that meet the hypotheses of EventsAndDumps (EventsTaken), clause by clause. -/
theorem wit_EventsTaken :
    (let s : State := { (loaded.setFld rDbgEvqCtrl 63 63 1).setReg rDbgEvqBase 65536 with evq := [{ code := 0x0106, source := 3, part := 0 }] };
      let e : EventRec := { code := 0x0106, source := 3, part := 0 }; let r : List EventRec := []; let h : Nat := 0; (s.evq = e :: r) ∧
      (s.zen.booting = false) ∧ (s.evLost = 0) ∧ (s.eventShut e = false) ∧ (e.part < 4) ∧ (s.owner e.part = h) ∧
      (s.fld (rDbgEvqCtrl + localStride * h) 63 63 = 1) ∧ ((s.host h).evPending = []) ∧ (s.evqFull h = false)) := by decide +kernel

/-- States and operands that meet the hypotheses of EventsAndDumps (EventsTaken), clause by clause. -/
theorem wit_EventsTaken2 :
    (let s : State := { ((loaded.setFld rDbgEvqCtrl 63 63 1).setReg rDbgEvqBase 65536).modHost 0 fun x => { x with evPending := [[7]] } with evq := [{ code := 0x0106, source := 3, part := 0 }] };
      let e : EventRec := { code := 0x0106, source := 3, part := 0 }; let r : List EventRec := []; let h : Nat := 0; (s.evq = e :: r) ∧
      (s.zen.booting = false) ∧ (s.evLost = 0) ∧ (s.eventShut e = false) ∧ (e.part < 4) ∧ (s.owner e.part = h) ∧
      (s.fld (rDbgEvqCtrl + localStride * h) 63 63 = 1) ∧ (((s.host h).evPending ≠ [] ∨ s.evqFull h = true)) ∧
      ((s.host h).evPending.length < 256)) := by decide +kernel

/-- States and operands that meet the hypotheses of EventsAndDumps (EventsTaken), clause by clause. -/
theorem wit_EventsTaken3 :
    (let s : State := { loaded with evq := [{ code := 0x0106, source := 3 }] }; let e : EventRec := { code := 0x0106, source := 3 };
      let r : List EventRec := []; (s.evq = e :: r) ∧ (s.zen.booting = false) ∧ (s.evLost = 0) ∧ (4 ≤ e.part) ∧ (s.fld rDbgEvqCtrl 63 63 = 0) ∧
      (s.fld (rDbgEvqCtrl + localStride) 63 63 = 0)) ∧
    (let s : State := loaded; ((s.evq = [] ∨ s.zen.booting = true))) ∧
    (let m : Nat := 288230376151711744; (bitsAt m 58 6 ∈ [0x01, 0x02, 0x03, 0x08, 0x09, 0x0A, 0x10])) ∧
    (let m : Nat := 3; (bitsAt m 58 6 ∉ [0x01, 0x02, 0x03, 0x08, 0x09, 0x0A, 0x10])) := by decide +kernel

/-- States and operands that meet the hypotheses of FlitsTaken, clause by clause. -/
theorem wit_FlitsTaken :
    (let s : State := linked.modPort 1 fun q => { q with keptD := [{ flit := { seq := 2 } }, { flit := { seq := 3 } }] }; let p : Nat := 1;
      let f : Flit := { typ := 0, vc := 0, credit := 3, creditVc := 1, ackD := 2, ackC := 0 }; (p < 6) ∧ (s.linkState p = 4) ∧ (f.crcOk = true) ∧
      (f.fecOk = true) ∧ (f.tagOk = true) ∧ (f.stamp = none) ∧ (f.typ = 0)) := by decide +kernel

/-- States and operands that meet the hypotheses of FlitsTaken, clause by clause. -/
theorem wit_FlitsTaken2 :
    (let s : State := linked.modPort 1 fun q => { q with keptD := [{ flit := { seq := 2 } }, { flit := { seq := 3 } }] }; let p : Nat := 1;
      let f : Flit := { typ := 5, vc := 0, ackD := 2, ackC := 0 }; (p < 6) ∧ (s.linkState p = 4) ∧ (f.crcOk = true) ∧ (f.fecOk = true) ∧
      (f.tagOk = true) ∧ (f.stamp = none) ∧ (f.typ = 5)) := by decide +kernel

/-- States and operands that meet the hypotheses of FlitsTaken, clause by clause. -/
theorem wit_FlitsTaken3 :
    (let s : State := linked.modPort 1 fun q => { q with keptD := [{ flit := { seq := 2 } }, { flit := { seq := 3 } }] }; let p : Nat := 1;
      let f : Flit := { typ := 4, vc := 0, ackD := 2, ackC := 0 }; (p < 6) ∧ (s.linkState p = 4) ∧ (f.crcOk = true) ∧ (f.fecOk = true) ∧
      (f.tagOk = true) ∧ (f.stamp = none) ∧ (f.typ = 4) ∧ (f.vc = 0) ∧ (f.records = []) ∧ (f.seq = (s.port p).rxSeqC) ∧
      (s.quiet p = false)) := by decide +kernel

/-- States and operands that meet the hypotheses of FlitsTaken, clause by clause. -/
theorem wit_FlitsTaken4 :
    (let s : State := { (linked.modPort 1 fun q => { q with keptD := [{ flit := { seq := 2 } }, { flit := { seq := 3 } }] }).setFld (rLnkStatus 1) 60 60 1 with nextId := 3 };
      let p : Nat := 1; let f : Flit := { typ := 1, vc := 2, msg := 3, payload := [5, 6], ackD := 2, ackC := 0 }; (p < 6) ∧ (s.linkState p = 4) ∧
      (f.crcOk = true) ∧ (f.fecOk = true) ∧ (f.tagOk = true) ∧ (f.stamp = none) ∧ (f.typ = 1) ∧ (f.vc ≠ 0) ∧ (f.seq = (s.port p).expects false) ∧
      (s.crossRack p = true) ∧ ((s.port p).heldRx = []) ∧ (f.groupEnd = false)) := by decide +kernel

/-- States and operands that meet the hypotheses of FlitsTaken, clause by clause. -/
theorem wit_FlitsTaken5 :
    (let s : State := linked.modPort 1 fun q => { q with keptD := [{ flit := { seq := 2 } }, { flit := { seq := 3 } }] }; let p : Nat := 1;
      let h : FabricMsg := { kind := 4, len := 300 };
      let f : Flit := { typ := 1, vc := 2, msg := 3, header := some { kind := 4, len := 300 }, payload := [5, 6], ackD := 2, ackC := 0 }; (p < 6) ∧
      (s.linkState p = 4) ∧ (f.crcOk = true) ∧ (f.fecOk = true) ∧ (f.tagOk = true) ∧ (f.stamp = none) ∧ (f.typ = 1) ∧ (f.vc ≠ 0) ∧
      (f.seq = (s.port p).expects false) ∧ (s.crossRack p = false) ∧ (s.quiet p = false) ∧ (s.legacy p = false) ∧ (f.header = some h) ∧ (h.kind ≠ 2) ∧
      (h.kind ≠ 3)) := by decide +kernel

/-- States and operands that meet the hypotheses of FlitsTaken, clause by clause. -/
theorem wit_FlitsTaken6 :
    (let s : State := linked.modPort 1 fun q => { q with keptD := [{ flit := { seq := 2 } }, { flit := { seq := 3 } }] }; let p : Nat := 1;
      let f : Flit := { typ := 4, vc := 0, seq := 1, ackD := 2, ackC := 0 }; (p < 6) ∧ (s.linkState p = 4) ∧ (f.crcOk = true) ∧ (f.fecOk = true) ∧
      (f.tagOk = true) ∧ (f.stamp = none) ∧ (f.typ = 4) ∧ (f.vc = 0) ∧ (f.seq = ((s.port p).rxSeqC + 1) % 4096) ∧ ((s.port p).rxSeqC < 4095) ∧
      (SMap.get (s.port p).nakSent 0 = false)) := by decide +kernel

/-- States and operands that meet the hypotheses of FlitsTaken, clause by clause. -/
theorem wit_FlitsTaken7 :
    (let s : State := linked.modPort 1 fun q => { q with keptD := [{ flit := { seq := 2 } }, { flit := { seq := 3 } }] }; let p : Nat := 1;
      let f : Flit := { typ := 2, vc := 2, crcOk := false }; (p < 6) ∧ (s.linkState p = 4) ∧ (f.crcOk = false) ∧ (f.fecOk = true) ∧ (f.tagOk = true) ∧
      (SMap.get (s.port p).nakSent (if f.vc == 0 then 0 else 1) = false)) := by decide +kernel

/-- States and operands that meet the hypotheses of FlitsSent (LinkRetries), clause by clause. -/
theorem wit_LinkRetries :
    (let s : State := linked.modPort 1 fun q => { q with keptD := [{ flit := { seq := 2 }, sends := 5 }] }; let p : Nat := 1; let n : Nat := 2;
      let x : Kept := { flit := { seq := 2 }, sends := 5 }; let l : List Kept := []; (p < 6) ∧
      ((s.port p).keptD.dropWhile (fun y => y.flit.seq != n) = x :: l) ∧ (5 ≤ x.sends)) ∧
    (let s : State := linked.modPort 1 fun q => { q with keptD := [{ flit := { seq := 2 }, sends := 4 }] }; let p : Nat := 1; let n : Nat := 2;
      let x : Kept := { flit := { seq := 2 }, sends := 4 }; let l : List Kept := []; (p < 6) ∧
      ((s.port p).keptD.dropWhile (fun y => y.flit.seq != n) = x :: l) ∧ (x.sends < 5)) := by decide +kernel

/-- States and operands that meet the hypotheses of FlitsSent (LinkRetries), clause by clause. -/
theorem wit_LinkRetries2 :
    (let s : State := { (linked.modPort 1 fun q => { q with keptC := [{ flit := { seq := 2 }, sends := 5 }] }) with clk := { linked.clk with wall := 700 } };
      let p : Nat := 1; let x : Kept := { flit := { seq := 2 }, sends := 5 }; let l : List Kept := []; (p < 6) ∧ ((s.port p).keptC = x :: l) ∧
      ((s.port p).replayC = []) ∧ (x.sentAt + 700 ≤ s.clk.wall) ∧ (5 ≤ x.sends)) := by decide +kernel

/-- States and operands that meet the hypotheses of FlitsSent (LinkRetries), clause by clause. -/
theorem wit_LinkRetries3 :
    (let s : State := { (linked.modPort 1 fun q => { q with keptC := [{ flit := { seq := 2 }, sends := 1 }] }) with clk := { linked.clk with wall := 700 } };
      let p : Nat := 1; let x : Kept := { flit := { seq := 2 }, sends := 1 }; let l : List Kept := []; (p < 6) ∧ ((s.port p).keptC = x :: l) ∧
      ((s.port p).replayC = []) ∧ (x.sentAt + 700 ≤ s.clk.wall) ∧ (x.sends < 5)) := by decide +kernel

/-- States and operands that meet the hypotheses of FlitsSent (FlitBoundarySends), clause by clause. -/
theorem wit_FlitBoundarySends :
    (let s : State := linked.modPort 1 fun q => { q with nakC := true }; let p : Nat := 1; (p < 6) ∧ (s.linkState p = 4) ∧
      ((s.port p).nakC = true)) := by decide +kernel

/-- States and operands that meet the hypotheses of FlitsSent (FlitBoundarySends), clause by clause. -/
theorem wit_FlitBoundarySends2 :
    (let s : State := linked.modPort 1 fun q => { q with ctl := [.ready true, .align 0 0 {} 1], credits := [(0, 5)] }; let p : Nat := 1;
      let r : CtlRec := .ready true; let l : List CtlRec := [.align 0 0 {} 1]; (p < 6) ∧ (s.linkState p = 4) ∧ ((s.port p).nakC = false) ∧
      ((s.port p).nakD = false) ∧ (s.quiet p = false) ∧ (s.crossRack p = false) ∧ ((s.port p).crossRack = false) ∧ ((s.port p).pendTx = none) ∧
      ((s.port p).replayC = []) ∧ ((s.port p).ctl = r :: l) ∧ (0 < SMap.get (s.port p).credits 0) ∧
      ((s.port p).keptC.length < 64)) := by decide +kernel

/-- States and operands that meet the hypotheses of FlitsSent (FlitBoundarySends), clause by clause. -/
theorem wit_FlitBoundarySends3 :
    (let s : State := linked; let p : Nat := 1; (s.linkState p = 4) ∧ ((s.port p).nakC = false) ∧ ((s.port p).nakD = false) ∧
      ((s.port p).replayC = []) ∧ ((s.port p).replayD = []) ∧ ((s.port p).ctl = []) ∧ ((s.port p).tx = []) ∧ ((s.port p).owed = []) ∧
      ((s.port p).stampBeat = 0)) := by decide +kernel

/-- States and operands that meet the hypotheses of FlitsSent (FlitBoundarySends), clause by clause. -/
theorem wit_FlitBoundarySends4 :
    (let s : State := linked.modPort 1 fun q => { q with tx := [{ hdr := { route := 4, content := List.replicate 300 7, len := 300 }, vc := 2, tag := 3, last := 2 }], credits := [(2, 5)] };
      let p : Nat := 1; let m : TxMsg := { hdr := { route := 4, content := List.replicate 300 7, len := 300 }, vc := 2, tag := 3, last := 2 };
      (p < 6) ∧ (s.linkState p = 4) ∧ ((s.port p).nakC = false) ∧ ((s.port p).nakD = false) ∧ (s.quiet p = false) ∧ (s.crossRack p = false) ∧
      ((s.port p).crossRack = false) ∧ ((s.port p).pendTx = none) ∧ ((s.port p).replayC = []) ∧ ((s.port p).replayD = []) ∧ ((s.port p).ctl = []) ∧
      ((s.port p).tx = [m]) ∧ (m.vc = 1 ∨ m.vc = 2 ∨ m.vc = 3) ∧ (0 < SMap.get (s.port p).credits m.vc) ∧
      ((s.port p).keptD.length < 1024)) := by decide +kernel

/-- States and operands that meet the hypotheses of MessagesArrive, clause by clause. -/
theorem wit_MessagesArrive :
    (let s : State := placed; let p : Nat := 1; let j : Nat := 2; let a : Nat := 4160;
      let m : FabricMsg := { route := 5, offset := 64, src := { x := 3 }, msgid := 8, content := [5, 6, 7] }; let k : Nat := 0;
      (s.recvPart p m = some k) ∧ (s.routePlace k m = some (j, 0, 0, a)) ∧ (s.inBounds k a m.content.length = true) ∧
      ((∀ i ∈ [0, 1, 2, 3], s.linkHits i 0 0 a m.content.length = []))) := by decide +kernel

/-- States and operands that meet the hypotheses of MessagesArrive, clause by clause. -/
theorem wit_MessagesArrive2 :
    (let s : State := placed; let p : Nat := 1; let j : Nat := 2; let a : Nat := 4160;
      let m : FabricMsg := { route := 4, offset := 64, src := { x := 0 }, msgid := 8, content := [5, 6, 7] }; let k : Nat := 0;
      (s.recvPart p m = some k) ∧ (s.routePlace k m = some (j, 1, 0, a)) ∧ (a + m.content.length ≤ 2 ^ 25) ∧
      (s.tableHit j a m.content.length = false) ∧ (s.linkHits j 1 0 a m.content.length = []) ∧ (s.firstPort m.src = none)) := by decide +kernel

/-- States and operands that meet the hypotheses of MessagesArrive, clause by clause. -/
theorem wit_MessagesArrive3 :
    (let s : State := placed; let p : Nat := 1; let j : Nat := 2; let a : Nat := 4160; let q := 1;
      let m : FabricMsg := { route := 4, offset := 64, src := { x := 3 }, msgid := 8, content := [5, 6, 7] }; let k : Nat := 0;
      (s.recvPart p m = some k) ∧ (s.routePlace k m = some (j, 1, 0, a)) ∧ (a + m.content.length ≤ 2 ^ 25) ∧
      (s.tableHit j a m.content.length = false) ∧ (s.linkHits j 1 0 a m.content.length = []) ∧ (s.firstPort m.src = some q) ∧
      (s.linkState q = 4)) := by decide +kernel

/-- States and operands that meet the hypotheses of MessagesArrive, clause by clause. -/
theorem wit_MessagesArrive4 :
    (let s : State := placed; let p : Nat := 1; let j : Nat := 2; let arr : Nat := 1; let a : Nat := 4096;
      let m : FabricMsg := { route := 6, offset := 64, src := { x := 3 }, msgid := 8, content := [5, 6, 7] }; let k : Nat := 0;
      (s.recvPart p m = some k) ∧ (s.routePlace k m = some (j, 2, arr, a)) ∧ (m.content ≠ []) ∧
      (a + ceilDiv (m.offset + m.content.length) 1024 ≤ 20480) ∧
      (s.halfHit j arr (plainRange a m.offset m.content.length).1 (plainRange a m.offset m.content.length).2 = false) ∧
      (s.linkHits j 2 arr (plainRange a m.offset m.content.length).1 (plainRange a m.offset m.content.length).2 = [])) ∧
    (let s : State := placed; let p : Nat := 1; let j : Nat := 2; let a : Nat := 4160;
      let m : FabricMsg := { route := 7, offset := 64, src := { x := 3 }, msgid := 8, content := [5, 6, 7] }; let k : Nat := 0; let arr : Nat := 0;
      (s.recvPart p m = some k) ∧ (s.routePlace k m = some (j, 5, arr, a)) ∧ (a + m.content.length ≤ 2 ^ 21)) := by decide +kernel

/-- States and operands that meet the hypotheses of MessagesArrive, clause by clause. -/
theorem wit_MessagesArrive5 :
    (let s : State := placed; let p : Nat := 1; let j : Nat := 2; let a : Nat := (4096 + 2 ^ 25);
      let m : FabricMsg := { route := 4, offset := 2 ^ 25, src := { x := 3 }, content := [1] }; let k : Nat := 0; (s.recvPart p m = some k) ∧
      (s.routePlace k m = some (j, 1, 0, a)) ∧ (2 ^ 25 < a + m.content.length)) ∧
    (let s : State := { loaded with sent := [{ hdr := { msgid := 8, deadline := 3, legacy := false, content := List.replicate 300 7 }, port := 1, released := none }] };
      let id : Nat := 8;
      let o : OutMsg := { hdr := { msgid := 8, deadline := 3, legacy := false, content := List.replicate 300 7 }, port := 1, released := none };
      (s.sentMsg id = some o) ∧ (o.released = none)) ∧
    (let s : State := { loaded with sent := [{ hdr := { msgid := 8, deadline := 3, legacy := false, content := List.replicate 300 7 }, port := 1, released := some (3, 2, 7) }] };
      let id : Nat := 8;
      let o : OutMsg := { hdr := { msgid := 8, deadline := 3, legacy := false, content := List.replicate 300 7 }, port := 1, released := some (3, 2, 7) };
      let k := 3; let c := 2; let l := 7; (s.sentMsg id = some o) ∧ (o.released = some (k, c, l))) ∧
    (let s : State := loaded; let id : Nat := 8; (s.sentMsg id = none)) ∧
    (let s : State := loaded; let id : Nat := 8; (s.sentMsg id = none)) := by decide +kernel

/-- States and operands that meet the hypotheses of MessagesArrive, clause by clause. -/
theorem wit_MessagesArrive6 :
    (let s : State := { loaded with sent := [{ hdr := { msgid := 8, deadline := 3, legacy := false, content := List.replicate 300 7 }, port := 1, released := none }] };
      let id : Nat := 8;
      let o : OutMsg := { hdr := { msgid := 8, deadline := 3, legacy := false, content := List.replicate 300 7 }, port := 1, released := none };
      (s.sentMsg id = some o) ∧ ((s.beat ≤ o.hdr.deadline ∨ o.missed = true))) ∧
    (let s : State := ({ loaded with sent := [{ hdr := { msgid := 8, deadline := 3, legacy := false, content := List.replicate 300 7 }, port := 1, released := none }] } : State).setReg rClkBeat 4;
      let id : Nat := 8;
      let o : OutMsg := { hdr := { msgid := 8, deadline := 3, legacy := false, content := List.replicate 300 7 }, port := 1, released := none };
      (s.sentMsg id = some o) ∧ (o.hdr.deadline < s.beat) ∧ (o.missed = false) ∧
      (s.gathers.find? (fun g => g.msgid == id && g.recovery.isSome) = none) ∧ (o.hdr.legacy = false) ∧ (s.evq.length < 1024)) := by decide +kernel

/-- States and operands that meet the hypotheses of MessagesArrive, clause by clause. -/
theorem wit_MessagesArrive7 :
    (let s : State := ({ loaded with sent := [{ hdr := { msgid := 8, deadline := 3, legacy := true, content := List.replicate 300 7 }, port := 1, released := none }] } : State).setReg rClkBeat 4;
      let id : Nat := 8;
      let o : OutMsg := { hdr := { msgid := 8, deadline := 3, legacy := true, content := List.replicate 300 7 }, port := 1, released := none };
      (s.sentMsg id = some o) ∧ (o.hdr.deadline < s.beat) ∧ (o.missed = false) ∧
      (s.gathers.find? (fun g => g.msgid == id && g.recovery.isSome) = none) ∧ (o.hdr.legacy = true)) := by decide +kernel

/-- States and operands that meet the hypotheses of MessagesArrive, clause by clause. -/
theorem wit_MessagesArrive8 :
    (let s : State := ({ loaded with sent := [{ hdr := { msgid := 8, deadline := 3, legacy := true, content := List.replicate 300 7 }, port := 1, released := none }], gathers := [{ msgid := 8, core := 3, ctx := 2, items := 1, recovery := some 4 }], recoveries := [{ id := 4, core := 3, addr := 4096, len := 3, stage := 1 }] } : State).setReg rClkBeat 4;
      let id : Nat := 8;
      let o : OutMsg := { hdr := { msgid := 8, deadline := 3, legacy := true, content := List.replicate 300 7 }, port := 1, released := none };
      let w : GatherWait := { msgid := 8, core := 3, ctx := 2, items := 1, recovery := some 4 }; let i : Nat := 4;
      let r : Recovery := { id := 4, core := 3, addr := 4096, len := 3, stage := 1 }; (s.sentMsg id = some o) ∧ (o.hdr.deadline < s.beat) ∧
      (o.missed = false) ∧ (o.hdr.legacy = true) ∧ (s.gathers = [w]) ∧ (w.msgid = id) ∧ (w.recovery = some i) ∧
      (s.recovery i = some r)) := by decide +kernel

/-- States and operands that meet the hypotheses of MessagesArrive (GathersServed), clause by clause. -/
theorem wit_GathersServed :
    (let s : State := placed; let p : Nat := 1; let ps : List (Nat × Nat × Nat × Nat) := [(2, 1, 4096, 4)];
      let m : FabricMsg := { kind := 4, route := 4, msgid := 8, deadline := 200, src := { x := 0 }, content := 1 :: List.replicate 19 0 ++ [4, 0, 0, 0] };
      let k : Nat := 0; (s.recvPart p m = some k) ∧ (s.gatherPlaces k m = ps.map some) ∧
      ((∀ q ∈ ps, if q.2.1 = 0 then s.inBounds k q.2.2.1 q.2.2.2 = true ∧ s.hbmBad q.2.2.1 q.2.2.2 = false else q.2.2.1 + q.2.2.2 ≤ 2 ^ 25)) ∧
      (s.firstPort m.src = none)) := by decide +kernel

/-- States and operands that meet the hypotheses of MessagesArrive (GathersServed), clause by clause. -/
theorem wit_GathersServed2 :
    (let s : State := placed; let p : Nat := 1; let q := 1; let ps : List (Nat × Nat × Nat × Nat) := [(2, 1, 4096, 4)];
      let m : FabricMsg := { kind := 4, route := 4, msgid := 8, deadline := 200, src := { x := 3 }, content := 1 :: List.replicate 19 0 ++ [4, 0, 0, 0] };
      let k : Nat := 0; (s.recvPart p m = some k) ∧ (s.gatherPlaces k m = ps.map some) ∧
      ((∀ q ∈ ps, if q.2.1 = 0 then s.inBounds k q.2.2.1 q.2.2.2 = true ∧ s.hbmBad q.2.2.1 q.2.2.2 = false else q.2.2.1 + q.2.2.2 ≤ 2 ^ 25)) ∧
      (s.firstPort m.src = some q) ∧ (s.portTakes k q 5 (s.hops s.me m.src) = true) ∧
      ((s.fresh.2.admitFlits q (16 + (ps.flatMap fun q => if q.2.1 = 0 then s.hbmRead q.2.2.1 q.2.2.2 else s.storeRead q.1 q.2.2.1 q.2.2.2).length) (s.hops s.me m.src) m.deadline).isSome = true)) := by decide +kernel

/-- States and operands that meet the hypotheses of MessagesArrive (GathersServed), clause by clause. -/
theorem wit_GathersServed3 :
    (let s : State := placed.setFld (rLnkStatus 1) 63 61 3; let p : Nat := 1; let q := 1; let ps : List (Nat × Nat × Nat × Nat) := [(2, 1, 4096, 4)];
      let m : FabricMsg := { kind := 4, route := 4, msgid := 8, deadline := 200, src := { x := 3 }, content := 1 :: List.replicate 19 0 ++ [4, 0, 0, 0] };
      let k : Nat := 0; (s.recvPart p m = some k) ∧ (s.gatherPlaces k m = ps.map some) ∧
      ((∀ q ∈ ps, if q.2.1 = 0 then s.inBounds k q.2.2.1 q.2.2.2 = true ∧ s.hbmBad q.2.2.1 q.2.2.2 = false else q.2.2.1 + q.2.2.2 ≤ 2 ^ 25)) ∧
      (s.firstPort m.src = some q) ∧ (s.portTakes k q 5 (s.hops s.me m.src) = false)) ∧
    (let s : State := placed.modPart 0 fun p => { p with routes := [(4, [0, 0, 0, 7])] }; let p : Nat := 1;
      let m : FabricMsg := { kind := 4, route := 4, msgid := 8, deadline := 200, src := { x := 3 }, content := 1 :: List.replicate 19 0 ++ [4, 0, 0, 0] };
      let k : Nat := 0; (s.recvPart p m = some k) ∧ (none ∈ s.gatherPlaces k m)) := by decide +kernel

/-- States and operands that meet the hypotheses of MessagesArrive (GathersServed), clause by clause. -/
theorem wit_GathersServed4 :
    (let s : State := { placed with badLine := [(16, 1)] }; let p : Nat := 1; let j : Nat := 2; let a : Nat := 4096; let n : Nat := 4;
      let m : FabricMsg := { kind := 4, route := 5, msgid := 8, deadline := 200, src := { x := 3 }, content := 1 :: List.replicate 19 0 ++ [4, 0, 0, 0] };
      let k : Nat := 0; (s.recvPart p m = some k) ∧ (s.gatherPlaces k m = [some (j, 0, a, n)]) ∧ (s.inBounds k a n = true) ∧ (s.hbmBad a n = true) ∧
      (s.recoveries = [])) := by decide +kernel

/-- States and operands that meet the hypotheses of MessagesArrive (GathersServed), clause by clause. -/
theorem wit_GathersServed5 :
    (let s : State := { loaded with gathers := [{ msgid := 8, core := 3, ctx := 2, row := 5, rowBytes := 8, items := 1 }] }; let p : Nat := 6;
      let w : GatherWait := { msgid := 8, core := 3, ctx := 2, row := 5, rowBytes := 8, items := 1 };
      let m : FabricMsg := { kind := 5, src := { x := 0 }, content := [8, 0, 0, 0, 1, 0, 0, 0] ++ List.replicate 16 0 }; (s.gathers = [w]) ∧
      (w.msgid = fieldAt m.content 0 4) ∧ ((w.owner = m.src ∨ p = 6)) ∧ (w.recovery = none) ∧
      ((p = 6 ∨ s.firstPort m.src = none))) := by decide +kernel

/-- States and operands that meet the hypotheses of MessagesArrive (GathersServed), clause by clause. -/
theorem wit_GathersServed6 :
    (let s : State := { loaded with gathers := [{ msgid := 8, core := 3, ctx := 2, items := 1, recovery := some 4 }], recoveries := [{ id := 4, core := 3, addr := 4096, len := 3, stage := 1 }] };
      let p : Nat := 6; let w : GatherWait := { msgid := 8, core := 3, ctx := 2, items := 1, recovery := some 4 }; let i : Nat := 4;
      let r : Recovery := { id := 4, core := 3, addr := 4096, len := 3, stage := 1 };
      let m : FabricMsg := { kind := 5, src := { x := 0 }, content := [8, 0, 0, 0, 1, 0, 0, 0] ++ List.replicate 16 0 }; (s.gathers = [w]) ∧
      (w.msgid = fieldAt m.content 0 4) ∧ ((w.owner = m.src ∨ p = 6)) ∧ (w.recovery = some i) ∧ (p = 6) ∧ (s.recovery i = some r) ∧ (w.items ≠ 2)) ∧
    (let s : State := loaded; let m : FabricMsg := { kind := 5, src := { x := 0 }, content := [8, 0, 0, 0, 1, 0, 0, 0] ++ List.replicate 16 0 };
      let p : Nat := 0; (s.gathers.find? (fun g => g.msgid == fieldAt m.content 0 4 && (g.owner == m.src || p == 6)) = none)) := by decide +kernel

/-- States and operands that meet the hypotheses of MessagesArrive (GathersServed), clause by clause. -/
theorem wit_GathersServed7 :
    (let s : State := { loaded with gathers := [{ msgid := 8, core := 3, ctx := 2, row := 5, rowBytes := 8, items := 1 }] };
      let w : GatherWait := { msgid := 8, core := 3, ctx := 2, row := 5, rowBytes := 8, items := 1 }; let id : Nat := 8; (s.gathers = [w]) ∧
      (w.msgid = id) ∧ (w.recovery = none) ∧ (s.evq.length < 1024)) := by decide +kernel

/-- States and operands that meet the hypotheses of MulticastsRun (MulticastRuns), clause by clause. -/
theorem wit_MulticastRuns :
    (let s : State := { placed with mcasts := [{ hdr := { kind := 3, src := { x := 3 }, msgid := 8, route := 4 }, inPort := 1, flits := 3, branches := [{ line := 6 }] }] };
      let x : Mcast := { hdr := { kind := 3, src := { x := 3 }, msgid := 8, route := 4 }, inPort := 1, flits := 3, branches := [{ line := 6 }] };
      let b : Branch := { line := 6 }; let m : FabricMsg := { kind := 3, src := { x := 3 }, msgid := 8, content := [5, 6] }; (m.kind = 3) ∧
      (s.mcast m.src m.msgid = some x) ∧ (x.branches = [b]) ∧ (b.gap = none) ∧ (x.dropped = false) ∧ (b.line = 6) ∧
      (b.buffered.length < 256)) := by decide +kernel

/-- States and operands that meet the hypotheses of MulticastsRun (MulticastRuns), clause by clause. -/
theorem wit_MulticastRuns2 :
    (let s : State := { placed with mcasts := [{ hdr := { kind := 3, src := { x := 3 }, msgid := 8, route := 4 }, inPort := 1, flits := 3, branches := [{ line := 1, stage := 4, remain := 2, tag := 5 }] }] };
      let x : Mcast := { hdr := { kind := 3, src := { x := 3 }, msgid := 8, route := 4 }, inPort := 1, flits := 3, branches := [{ line := 1, stage := 4, remain := 2, tag := 5 }] };
      let b : Branch := { line := 1, stage := 4, remain := 2, tag := 5 };
      let m : FabricMsg := { kind := 3, src := { x := 3 }, msgid := 8, content := [5, 6] }; let i : Nat := 1; (m.kind = 3) ∧
      (s.mcast m.src m.msgid = some x) ∧ (x.branches = [b]) ∧ (b.gap = none) ∧ (x.dropped = false) ∧ (b.line < 6) ∧ (s.held x b < 256) ∧
      (s.linkState b.line = 4) ∧ (i ≠ 0) ∧ (b.tag ≠ 0)) := by decide +kernel

/-- States and operands that meet the hypotheses of MulticastsRun (MulticastRuns), clause by clause. -/
theorem wit_MulticastRuns3 :
    (let s : State := { placed with mcasts := [{ hdr := { kind := 3, src := { x := 3 }, msgid := 8, route := 4 }, inPort := 1, flits := 3, branches := [{ line := 6, buffered := List.replicate 256 (0, []) }] }] };
      let x : Mcast := { hdr := { kind := 3, src := { x := 3 }, msgid := 8, route := 4 }, inPort := 1, flits := 3, branches := [{ line := 6, buffered := List.replicate 256 (0, []) }] };
      let b : Branch := { line := 6, buffered := List.replicate 256 (0, []) };
      let m : FabricMsg := { kind := 3, src := { x := 3 }, msgid := 8, content := [5, 6] }; (m.kind = 3) ∧ (s.mcast m.src m.msgid = some x) ∧
      (x.branches = [b]) ∧ (b.gap = none) ∧ (x.dropped = false) ∧ (256 ≤ s.held x b)) := by decide +kernel

/-- States and operands that meet the hypotheses of MulticastsRun (MulticastRuns), clause by clause. -/
theorem wit_MulticastRuns4 :
    (let s : State := { placed with mcasts := [{ hdr := { kind := 3, src := { x := 3 }, msgid := 8, route := 4 }, inPort := 1, flits := 3, branches := [{ line := 6, gap := some 1 }] }] };
      let x : Mcast := { hdr := { kind := 3, src := { x := 3 }, msgid := 8, route := 4 }, inPort := 1, flits := 3, branches := [{ line := 6, gap := some 1 }] };
      let b : Branch := { line := 6, gap := some 1 }; let m : FabricMsg := { kind := 3, src := { x := 3 }, msgid := 8, content := [5, 6] };
      (m.kind = 3) ∧ (s.mcast m.src m.msgid = some x) ∧ (x.branches = [b]) ∧ ((b.gap ≠ none ∨ x.dropped = true))) := by decide +kernel

/-- States and operands that meet the hypotheses of MulticastsRun (MulticastRuns), clause by clause. -/
theorem wit_MulticastRuns5 :
    (let s : State := placed.setFld (rLnkStatus 4) 63 61 4; let p : Nat := 1;
      let m : FabricMsg := { kind := 3, src := { x := 3, z := 1 }, msgid := 8, stage := 2, remain := 2, sx := 1, sy := 1, sz := 2, nz := 3, len := 300, content := [5, 6] };
      (m.kind = 3) ∧ (s.mcast m.src m.msgid = none) ∧ (p < 6) ∧ (s.linkState (2 * (m.stage % 4)) = 4) ∧ (m.stage = 2) ∧
      (s.atMember m = false)) := by decide +kernel

/-- States and operands that meet the hypotheses of MulticastsRun (MulticastRuns), clause by clause. -/
theorem wit_MulticastRuns6 :
    (let s : State := { placed with mcasts := [{ hdr := { kind := 3, src := { x := 3 }, msgid := 8, route := 4 }, inPort := 1, flits := 3, branches := [{ line := 6, buffered := [(1, [5, 6])] }], member := true }] };
      let x : Mcast := { hdr := { kind := 3, src := { x := 3 }, msgid := 8, route := 4 }, inPort := 1, flits := 3, branches := [{ line := 6, buffered := [(1, [5, 6])] }], member := true };
      let c : Coord := { x := 3 }; let id : Nat := 8; let b : Branch := { line := 6, buffered := [(1, [5, 6])] }; let i : Nat := 1; let j : Nat := 2;
      let a : Nat := 4096; let bs : List Nat := [5, 6]; let k : Nat := 0; (s.mcasts = [x]) ∧ (x.hdr.src = c) ∧ (x.hdr.msgid = id) ∧ (x.inPort < 6) ∧
      (s.portPart x.inPort = some k) ∧ (x.branches = [b]) ∧ (b.line = 6) ∧ (b.buffered = [(i, bs)]) ∧ (x.member = true) ∧
      (s.routePlace k x.hdr = some (j, 1, 0, a)) ∧ (a + flitOfs i + bs.length ≤ 2 ^ 25) ∧ (s.tableHit j (a + flitOfs i) bs.length = false) ∧
      (s.linkHits j 1 0 (a + flitOfs i) bs.length = []) ∧ (s.maint.any (fun m => m.act == 4 && m.scope == 8) = false) ∧ (x.dropped = false) ∧
      (x.doneSent = false) ∧ (x.written + 1 < x.flits) ∧ (b.gap = none)) := by decide +kernel

/-- States and operands that meet the hypotheses of MulticastsRun (MulticastRuns), clause by clause. -/
theorem wit_MulticastRuns7 :
    (let s : State := { placed with mcasts := [{ hdr := { kind := 3, src := { x := 3 }, msgid := 8, route := 4 }, inPort := 1, flits := 3, branches := [{ line := 6, buffered := [(1, [5, 6])] }], member := true, written := 2 }] };
      let x : Mcast := { hdr := { kind := 3, src := { x := 3 }, msgid := 8, route := 4 }, inPort := 1, flits := 3, branches := [{ line := 6, buffered := [(1, [5, 6])] }], member := true, written := 2 };
      let c : Coord := { x := 3 }; let id : Nat := 8; let b : Branch := { line := 6, buffered := [(1, [5, 6])] }; let i : Nat := 1; let j : Nat := 2;
      let a : Nat := 4096; let bs : List Nat := [5, 6]; let k : Nat := 0; (s.mcasts = [x]) ∧ (x.hdr.src = c) ∧ (x.hdr.msgid = id) ∧ (x.inPort < 6) ∧
      (s.portPart x.inPort = some k) ∧ (x.branches = [b]) ∧ (b.line = 6) ∧ (b.buffered = [(i, bs)]) ∧ (x.member = true) ∧
      (s.routePlace k x.hdr = some (j, 1, 0, a)) ∧ (a + flitOfs i + bs.length ≤ 2 ^ 25) ∧ (s.tableHit j (a + flitOfs i) bs.length = false) ∧
      (s.linkHits j 1 0 (a + flitOfs i) bs.length = []) ∧ (s.maint.any (fun m => m.act == 4 && m.scope == 8) = false) ∧ (x.dropped = false) ∧
      (x.doneSent = false) ∧ (x.written + 1 = x.flits) ∧ (b.gap = none) ∧ (s.linkState x.inPort = 4)) := by decide +kernel

/-- States and operands that meet the hypotheses of MulticastsRun (MulticastRuns), clause by clause. -/
theorem wit_MulticastRuns8 :
    (let s : State := { placed with mcasts := [{ hdr := { kind := 3, src := { x := 3 }, msgid := 8, route := 4 }, inPort := 1, flits := 3, branches := [{ line := 6, gap := some 2, buffered := [(1, [5, 6])] }], member := true }] };
      let x : Mcast := { hdr := { kind := 3, src := { x := 3 }, msgid := 8, route := 4 }, inPort := 1, flits := 3, branches := [{ line := 6, gap := some 2, buffered := [(1, [5, 6])] }], member := true };
      let c : Coord := { x := 3 }; let id : Nat := 8; let b : Branch := { line := 6, gap := some 2, buffered := [(1, [5, 6])] }; let g := 2;
      let q := 1; let i : Nat := 1; let j : Nat := 2; let a : Nat := 4096; let bs : List Nat := [5, 6]; let k : Nat := 0; (s.mcasts = [x]) ∧
      (x.hdr.src = c) ∧ (x.hdr.msgid = id) ∧ (x.inPort < 6) ∧ (s.portPart x.inPort = some k) ∧ (x.branches = [b]) ∧ (b.line = 6) ∧
      (b.buffered = [(i, bs)]) ∧ (x.member = true) ∧ (s.routePlace k x.hdr = some (j, 1, 0, a)) ∧ (a + flitOfs i + bs.length ≤ 2 ^ 25) ∧
      (s.tableHit j (a + flitOfs i) bs.length = false) ∧ (s.linkHits j 1 0 (a + flitOfs i) bs.length = []) ∧
      (s.maint.any (fun m => m.act == 4 && m.scope == 8) = false) ∧ (x.dropped = false) ∧ (x.doneSent = false) ∧ (x.written + 1 < x.flits) ∧
      (b.gap = some g) ∧ (b.asked = false) ∧ (s.firstPort c = some q) ∧ (s.linkState q = 4)) := by decide +kernel

/-- States and operands that meet the hypotheses of MulticastsRun (MulticastRuns), clause by clause. -/
theorem wit_MulticastRuns9 :
    (let s : State := { placed with mcasts := [{ hdr := { kind := 3, src := { x := 3 }, msgid := 8, route := 5 }, inPort := 1, flits := 3, branches := [{ line := 6, buffered := [(1, [5, 6])] }] }], maint := [{ act := 4, scope := 0 }] };
      let x : Mcast := { hdr := { kind := 3, src := { x := 3 }, msgid := 8, route := 5 }, inPort := 1, flits := 3, branches := [{ line := 6, buffered := [(1, [5, 6])] }] };
      let c : Coord := { x := 3 }; let id : Nat := 8; let b : Branch := { line := 6, buffered := [(1, [5, 6])] }; let i : Nat := 1; let j : Nat := 2;
      let a : Nat := 4096; let st : Nat := 0; let bs : List Nat := [5, 6]; let k : Nat := 0; let arr : Nat := 0; (s.mcast c id = some x) ∧
      (x.inPort < 6) ∧ (s.portPart x.inPort = some k) ∧ (x.branches = [b]) ∧ (b.line = 6) ∧ (b.buffered = [(i, bs)]) ∧
      (s.routePlace k x.hdr = some (j, 0, arr, a)) ∧ (st = (a + flitOfs i) / 2 ^ 36) ∧
      (s.maint.any (fun m => m.act == 4 && m.scope == st) = true)) := by decide +kernel

/-- States and operands that meet the hypotheses of MulticastsRun (MulticastRuns), clause by clause. -/
theorem wit_MulticastRuns10 :
    (let s : State := { placed with mcasts := [{ hdr := { kind := 3, src := { x := 3 }, msgid := 8, route := 4 }, inPort := 1, flits := 3, branches := [{ line := 1 }, { line := 3 }] }] };
      let x : Mcast := { hdr := { kind := 3, src := { x := 3 }, msgid := 8, route := 4 }, inPort := 1, flits := 3, branches := [{ line := 1 }, { line := 3 }] };
      let c : Coord := { x := 3 }; let id : Nat := 8; let b : Branch := { line := 1 }; let d : Branch := { line := 3 }; let p : Nat := 1;
      (s.mcast c id = some x) ∧ (x.branches = [b, d]) ∧ (b.line = p) ∧ (p ≠ 6) ∧ (d.line ≠ 6) ∧ (d.line ≠ p) ∧ (d.done = false)) := by decide +kernel

/-- States and operands that meet the hypotheses of MulticastsRun (MulticastRuns), clause by clause. -/
theorem wit_MulticastRuns11 :
    (let s : State := { placed with mcasts := [{ hdr := { kind := 3, src := { x := 3 }, msgid := 8, route := 4 }, inPort := 1, flits := 3, branches := [{ line := 1 }, { line := 3, done := true }] }] };
      let x : Mcast := { hdr := { kind := 3, src := { x := 3 }, msgid := 8, route := 4 }, inPort := 1, flits := 3, branches := [{ line := 1 }, { line := 3, done := true }] };
      let c : Coord := { x := 3 }; let id : Nat := 8; let b : Branch := { line := 1 }; let d : Branch := { line := 3, done := true };
      let p : Nat := 1; (s.mcast c id = some x) ∧ (x.branches = [b, d]) ∧ (b.line = p) ∧ (p ≠ 6) ∧ (d.line ≠ 6) ∧ (d.line ≠ p) ∧ (d.done = true) ∧
      (x.member = false) ∧ (x.dropped = false) ∧ (x.doneSent = false) ∧ (x.inPort < 6) ∧ (s.linkState x.inPort = 4)) := by decide +kernel

/-- States and operands that meet the hypotheses of MulticastsRun (MulticastRuns), clause by clause. -/
theorem wit_MulticastRuns12 :
    (let s : State := { placed with mcasts := [{ hdr := { kind := 3, src := { x := 3 }, msgid := 8, route := 4 }, inPort := 6, flits := 3, branches := [{ line := 1 }, { line := 3, done := true }] }] };
      let x : Mcast := { hdr := { kind := 3, src := { x := 3 }, msgid := 8, route := 4 }, inPort := 6, flits := 3, branches := [{ line := 1 }, { line := 3, done := true }] };
      let c : Coord := { x := 3 }; let id : Nat := 8; let b : Branch := { line := 1 }; let d : Branch := { line := 3, done := true };
      let p : Nat := 1; (s.mcast c id = some x) ∧ (x.branches = [b, d]) ∧ (b.line = p) ∧ (p ≠ 6) ∧ (d.line ≠ 6) ∧ (d.line ≠ p) ∧ (d.done = true) ∧
      (x.member = false) ∧ (x.dropped = false) ∧ (x.doneSent = false) ∧ (x.inPort = 6)) := by decide +kernel

/-- States and operands that meet the hypotheses of MulticastsRun (MulticastRuns), clause by clause. -/
theorem wit_MulticastRuns13 :
    (let s : State := { placed with mcasts := [{ hdr := { kind := 3, src := { x := 3 }, msgid := 8, route := 4 }, inPort := 1, flits := 3, branches := [{ line := 3 }] }] };
      let x : Mcast := { hdr := { kind := 3, src := { x := 3 }, msgid := 8, route := 4 }, inPort := 1, flits := 3, branches := [{ line := 3 }] };
      let c : Coord := { x := 3 }; let id : Nat := 8; let p : Nat := 1; (s.mcast c id = some x) ∧ (x.inPort = p) ∧ (p < 6)) ∧
    (let s : State := { placed with mcasts := [{ hdr := { kind := 3, src := { x := 3 }, msgid := 8, route := 4 }, inPort := 2, flits := 3, branches := [{ line := 1 }] }] };
      let x : Mcast := { hdr := { kind := 3, src := { x := 3 }, msgid := 8, route := 4 }, inPort := 2, flits := 3, branches := [{ line := 1 }] };
      let c : Coord := { x := 3 }; let id : Nat := 8; let p : Nat := 2; let b : Branch := { line := 1 }; (s.mcast c id = some x) ∧ (x.inPort = p) ∧
      (p < 6) ∧ (x.branches = [b]) ∧ (b.line < 6) ∧ (s.linkState b.line = 4)) := by decide +kernel

/-- States and operands that meet the hypotheses of MulticastsRun (MulticastLate), clause by clause. -/
theorem wit_MulticastLate :
    (let s : State := { loaded with sent := [{ hdr := { msgid := 8, deadline := 3, legacy := false, content := List.replicate 300 7 }, port := 1, released := none }] };
      let id : Nat := 8;
      let o : OutMsg := { hdr := { msgid := 8, deadline := 3, legacy := false, content := List.replicate 300 7 }, port := 1, released := none };
      let c : Coord := {}; (s.sentMsg id = some o) ∧ (s.firstPort c = none)) ∧
    (let s : State := { placed with sent := [{ hdr := { msgid := 8, deadline := 200, legacy := false, content := List.replicate 300 7 }, port := 1, released := none }] };
      let id : Nat := 8;
      let o : OutMsg := { hdr := { msgid := 8, deadline := 200, legacy := false, content := List.replicate 300 7 }, port := 1, released := none };
      let g : Nat := 1; let c : Coord := { x := 3 }; let q := 1; (s.sentMsg id = some o) ∧ (s.firstPort c = some q) ∧
      (s.portTakes o.core q 6 (s.hops s.me c) = true) ∧
      ((s.admitFlits q (o.hdr.content.length - flitOfs g) (s.hops s.me c) o.hdr.deadline).isSome = true)) ∧
    (let s : State := { placed.setFld (rLnkStatus 1) 63 61 3 with sent := [{ hdr := { msgid := 8, deadline := 200, legacy := false, content := List.replicate 300 7 }, port := 1, released := none }] };
      let id : Nat := 8;
      let o : OutMsg := { hdr := { msgid := 8, deadline := 200, legacy := false, content := List.replicate 300 7 }, port := 1, released := none };
      let c : Coord := { x := 3 }; let q := 1; (s.sentMsg id = some o) ∧ (s.firstPort c = some q) ∧
      (s.portTakes o.core q 6 (s.hops s.me c) = false)) := by decide +kernel

/-- States and operands that meet the hypotheses of MulticastsRun (MulticastLate), clause by clause. -/
theorem wit_MulticastLate2 :
    (let s : State := { loaded with sent := [{ hdr := { msgid := 8, deadline := 3, legacy := false, content := List.replicate 300 7 }, port := 1, released := none }] };
      let id : Nat := 8;
      let o : OutMsg := { hdr := { msgid := 8, deadline := 3, legacy := false, content := List.replicate 300 7 }, port := 1, released := none };
      (s.sentMsg id = some o) ∧ (o.laggards.length < 16) ∧ (s.evq.length < 1024)) ∧
    (let s : State := { loaded with sent := [{ hdr := { msgid := 8, deadline := 3, legacy := false, content := List.replicate 300 7 }, port := 1, laggards := List.replicate 16 {}, released := none }] };
      let id : Nat := 8;
      let o : OutMsg := { hdr := { msgid := 8, deadline := 3, legacy := false, content := List.replicate 300 7 }, port := 1, laggards := List.replicate 16 {}, released := none };
      (s.sentMsg id = some o) ∧ (16 ≤ o.laggards.length) ∧ (o.port < 6)) ∧
    (let s : State := { placed with mcasts := [{ hdr := { kind := 3, src := { x := 3 }, msgid := 8, route := 4 }, inPort := 1, flits := 3, branches := [{ line := 6 }] }] };
      let x : Mcast := { hdr := { kind := 3, src := { x := 3 }, msgid := 8, route := 4 }, inPort := 1, flits := 3, branches := [{ line := 6 }] };
      let c : Coord := { x := 3 }; let id : Nat := 8; (s.mcast c id = some x) ∧ ((s.beat ≤ x.hdr.deadline ∨ x.dropped = true))) := by decide +kernel

/-- States and operands that meet the hypotheses of MulticastsRun (MulticastLate), clause by clause. -/
theorem wit_MulticastLate3 :
    (let s : State := ({ placed with mcasts := [{ hdr := { kind := 3, src := { x := 3 }, msgid := 8, route := 4 }, inPort := 1, flits := 3, branches := [{ line := 6, gap := some 1 }], member := true }] } : State).setReg rClkBeat 4;
      let x : Mcast := { hdr := { kind := 3, src := { x := 3 }, msgid := 8, route := 4 }, inPort := 1, flits := 3, branches := [{ line := 6, gap := some 1 }], member := true };
      let c : Coord := { x := 3 }; let id : Nat := 8; let b : Branch := { line := 6, gap := some 1 }; let q : Nat := 1; (s.mcast c id = some x) ∧
      (x.hdr.deadline < s.beat) ∧ (x.dropped = false) ∧ (x.inPort < 6) ∧ (x.doneSent = false) ∧ (x.branches = [b]) ∧ (b.line = 6) ∧ (b.gap ≠ none) ∧
      (x.member = true) ∧ (x.written < x.flits) ∧ (x.hdr.legacy = false) ∧ (s.firstPort c = some q) ∧ (s.linkState q = 4)) := by decide +kernel

/-- States and operands that meet the hypotheses of MulticastsRun (MulticastLate), clause by clause. -/
theorem wit_MulticastLate4 :
    (let s : State := ({ placed with mcasts := [{ hdr := { kind := 3, src := { x := 3 }, msgid := 8, route := 4 }, inPort := 6, flits := 3, branches := [] }], sent := [{ hdr := { msgid := 8 }, port := 1 }] } : State).setReg rClkBeat 4;
      let x : Mcast := { hdr := { kind := 3, src := { x := 3 }, msgid := 8, route := 4 }, inPort := 6, flits := 3, branches := [] };
      let c : Coord := { x := 3 }; let id : Nat := 8; let o : OutMsg := { hdr := { msgid := 8 }, port := 1 }; (s.mcast c id = some x) ∧
      (x.hdr.deadline < s.beat) ∧ (x.dropped = false) ∧ (x.inPort = 6) ∧ (x.branches = []) ∧ (x.member = false) ∧ (x.hdr.legacy = false) ∧
      (s.sentMsg id = some o) ∧ (s.evq.length < 1024)) := by decide +kernel

/-- States and operands that meet the hypotheses of PortsTrain, clause by clause. -/
theorem wit_PortsTrain :
    (let s : State := ((linked.setFld (rLnkStatus 1) 63 61 1)).modPort 1 fun q => { q with trainStep := 3 }; let p : Nat := 1;
      let r : TrainResult := { lanes := 0xFFFF }; (p < 6) ∧ (s.linkState p = 1) ∧
      ((s.port p).trainStep = 1 ∨ (s.port p).trainStep = 2 ∨ (s.port p).trainStep = 3) ∧ (r.lanes = 0xFFFF)) ∧
    (let s : State := ((linked.setFld (rLnkStatus 1) 63 61 1)).modPort 1 fun q => { q with trainStep := 2 }; let p : Nat := 1;
      let r : TrainResult := { lanes := 0xFF7F }; (p < 6) ∧ (s.linkState p = 1) ∧
      ((s.port p).trainStep = 1 ∨ (s.port p).trainStep = 2 ∨ (s.port p).trainStep = 3) ∧ (r.lanes ≠ 0xFFFF) ∧
      (s.evq.length < 1024)) := by decide +kernel

/-- States and operands that meet the hypotheses of PortsTrain, clause by clause. -/
theorem wit_PortsTrain2 :
    (let s : State := ((linked.setFld (rLnkStatus 1) 63 61 1)).modPort 1 fun q => { q with trainStep := 4 }; let p : Nat := 1;
      let r : TrainResult := { lanes := 0xFFFF, major := 2, minor := 3 }; (p < 6) ∧ (s.linkState p = 1) ∧ ((s.port p).trainStep = 4) ∧
      (0x10 ≤ peerVersion r) ∧ ((s.crossRack p = false ∨ 0x21 ≤ peerVersion r))) := by decide +kernel

/-- States and operands that meet the hypotheses of PortsTrain, clause by clause. -/
theorem wit_PortsTrain3 :
    (let s : State := ((linked.setFld (rLnkStatus 1) 63 61 1).setFld (rLnkStatus 1) 60 60 1).modPort 1 fun q => { q with trainStep := 4 };
      let p : Nat := 1; let r : TrainResult := { lanes := 0xFFFF, major := 2, minor := 0 }; (p < 6) ∧ (s.linkState p = 1) ∧
      ((s.port p).trainStep = 4) ∧ (peerVersion r < 0x10 ∨ (s.crossRack p = true ∧ peerVersion r < 0x21)) ∧ (s.evq.length < 1024)) ∧
    (let s : State := ((linked.setFld (rLnkStatus 1) 63 61 1)).modPort 1 fun q => { q with trainStep := 5 }; let p : Nat := 1; (p < 6) ∧
      (s.linkState p = 1) ∧ ((s.port p).trainStep = 5)) := by decide +kernel

/-- States and operands that meet the hypotheses of PortsTrain, clause by clause. -/
theorem wit_PortsTrain4 :
    (let s : State := ((linked.setFld (rLnkStatus 1) 63 61 1)).modPort 1 fun q => { q with trainStep := 6 }; let p : Nat := 1; (p < 6) ∧
      (s.linkState p = 1) ∧ ((s.port p).trainStep = 6)) ∧
    (let s : State := linked; let p : Nat := 1; (s.linkState p ≠ 1)) ∧
    (let s : State := linked; let p : Nat := 1; (s.linkState p ≠ 1)) ∧
    (let s : State := ((linked.setFld (rLnkStatus 1) 63 61 1)).modPort 1 fun q => { q with trainStep := 2 }; let p : Nat := 1; (p < 6) ∧
      (s.linkState p = 1) ∧ (s.evq.length < 1024)) ∧
    (let p : Nat := 1; (p < 6)) := by decide +kernel

/-- States and operands that meet the hypotheses of StartAdvances, clause by clause. -/
theorem wit_StartAdvances :
    (let s : State := ((placed.setFld rPwrStatus 63 61 6).setFld rPwrStatus 60 57 3); (s.startPh = 3)) ∧
    (let s : State := ((placed.setFld rPwrStatus 63 61 6).setFld rPwrStatus 60 57 5).setFld (rLnkStatus 1) 63 61 2; let p : Nat := 1;
      (5 ≤ s.startPh) ∧ (s.linkState p = 2)) ∧
    (let s : State := ((placed.setFld rPwrStatus 63 61 6).setFld rPwrStatus 60 57 3); let p : Nat := 1; (p < 6) ∧ (s.startPh = 3) ∧
      ((s.port p).identSeen = none) ∧ (s.evq.length < 1024)) ∧
    (let s : State := ((placed.setFld rPwrStatus 63 61 6).setFld rPwrStatus 60 57 4); let p : Nat := 1;
      (s.startPh ≠ 3 ∨ (s.port p).identSeen ≠ none)) ∧
    (let s : State := loaded; (s.fld rPwrStatus 56 56 = 1 ∨ s.pwr.phase5 = false)) := by decide +kernel

/-- States and operands that meet the hypotheses of StartAdvances, clause by clause. -/
theorem wit_StartAdvances2 :
    (let s : State := ({ (List.range 6).foldl (fun s p => s.setFld (rLnkStatus p) 63 61 4) (((placed.setFld rPwrStatus 63 61 6).setFld rPwrStatus 60 57 6)) with zen := { loaded.zen with coord := some ⟨1, 0, 0⟩, map := bytes64 [(0, 3), (1, 1), (2, 1)] }, pwr := { loaded.pwr with phase5 := true } } : State).setFld rClkPhase 63 63 1;
      let p : Nat := 2; let q : Nat := 1; (s.fld rPwrStatus 56 56 = 0) ∧ (s.fld rClkPhase 63 63 = 1) ∧ (s.isOrigin = false) ∧
      (s.treeParent = some q) ∧ (s.linkState q = 4) ∧ ((s.modPort p fun x => { x with readyFrom := true }).readyUp = true)) ∧
    (let s : State := { (List.range 6).foldl (fun s p => s.setFld (rLnkStatus p) 63 61 4) (((placed.setFld rPwrStatus 63 61 6).setFld rPwrStatus 60 57 6)) with zen := { loaded.zen with coord := some ⟨1, 0, 0⟩, map := bytes64 [(0, 3), (1, 1), (2, 1)] }, pwr := { loaded.pwr with phase5 := true } };
      let p : Nat := 1; (s.treeParent = some p) ∧ (s.fld rPwrStatus 63 61 = 6)) ∧
    (let s : State := loaded; let p : Nat := 1; (s.treeParent ≠ some p)) := by decide +kernel

/-- States and operands that meet the hypotheses of StartAdvances, clause by clause. -/
theorem wit_StartAdvances3 :
    (let s : State := ((placed.setFld rPwrStatus 63 61 6).setFld rPwrStatus 60 57 5); (s.fld rPwrStatus 56 56 = 0) ∧ (s.fld rPwrStatus 63 61 = 6) ∧
      (s.evq.length < 1024)) ∧
    (let s : State := loaded; (s.fld rPwrStatus 56 56 = 1 ∨ s.fld rPwrStatus 63 61 ≠ 6)) ∧
    (let s : State := ((loaded.setFld rPwrStatus 63 61 6).setFld rPwrStatus 60 57 2); (s.fld rPwrStatus 63 61 = 6) ∧
      (¬(s.pwr.cold = true ∧ s.startPh < 2)) ∧ (s.inBench = true)) := by decide +kernel

/-- States and operands that meet the hypotheses of StartAdvances, clause by clause. -/
theorem wit_StartAdvances4 :
    (let s : State := ((placed.setFld rPwrStatus 63 61 6).setFld rPwrStatus 60 57 2); (s.fld rPwrStatus 63 61 = 6) ∧
      (¬(s.pwr.cold = true ∧ s.startPh < 2)) ∧ (s.inBench = false) ∧ (s.startPh < 3) ∧ (s.pwr.phase3 = false)) := by decide +kernel

/-- States and operands that meet the hypotheses of StartAdvances, clause by clause. -/
theorem wit_StartAdvances5 :
    (let s : State := ({ ((placed.setFld rPwrStatus 63 61 6).setFld rPwrStatus 60 57 2) with pwr := { loaded.pwr with phase3 := true, cold := false } } : State).setFld (rLnkStatus 3) 63 61 1;
      (s.fld rPwrStatus 63 61 = 6) ∧ (¬(s.pwr.cold = true ∧ s.startPh < 2)) ∧ (s.inBench = false) ∧ (s.startPh < 3) ∧ (s.pwr.phase3 = true) ∧
      (s.trainingOver = false)) := by decide +kernel

/-- States and operands that meet the hypotheses of StartAdvances, clause by clause. -/
theorem wit_StartAdvances6 :
    (let s : State := { ((placed.setFld rPwrStatus 63 61 6).setFld rPwrStatus 60 57 2) with pwr := { loaded.pwr with phase3 := true, cold := false } };
      (s.fld rPwrStatus 63 61 = 6) ∧ (¬(s.pwr.cold = true ∧ s.startPh < 2)) ∧ (s.inBench = false) ∧ (s.startPh < 3) ∧ (s.pwr.phase3 = true) ∧
      (s.trainingOver = true) ∧ (s.ownPlace = none) ∧ (s.evq.length < 1024)) := by decide +kernel

/-- States and operands that meet the hypotheses of StartAdvances, clause by clause. -/
theorem wit_StartAdvances7 :
    (let s : State := ((((placed.setFld rPwrStatus 63 61 6).setFld rPwrStatus 60 57 4).modPort 1 fun q => { q with identOk := true }).setFld rClkPhase 63 63 1);
      (s.fld rPwrStatus 63 61 = 6) ∧ (¬(s.pwr.cold = true ∧ s.startPh < 2)) ∧ (s.inBench = false) ∧ (s.startPh = 4) ∧ (s.allChecked = true) ∧
      (s.fld rClkPhase 63 63 = 1)) := by decide +kernel

/-- States and operands that meet the hypotheses of StartAdvances, clause by clause. -/
theorem wit_StartAdvances8 :
    (let s : State := ((placed.setFld rPwrStatus 63 61 6).setFld rPwrStatus 60 57 5).setFld rClkPhase 63 63 1; (s.fld rPwrStatus 63 61 = 6) ∧
      (¬(s.pwr.cold = true ∧ s.startPh < 2)) ∧ (s.inBench = false) ∧ (s.startPh = 5) ∧ (s.fld rClkPhase 63 63 = 1)) ∧
    (let s : State := loaded; (s.fld rPwrStatus 63 61 ≠ 6)) := by decide +kernel

/-- States and operands that meet the hypotheses of StartAdvances, clause by clause. -/
theorem wit_StartAdvances_a :
    (let s : State := { ((placed.setFld rPwrStatus 63 61 6).setFld rPwrStatus 60 57 2) with zen := { loaded.zen with map := bytes64 [(0, 2), (1, 1), (2, 1)] ++ Config.idHash ++ List.replicate 80 0 }, pwr := { loaded.pwr with cold := false, phase3 := true } };
      let i := 0; (s.fld rPwrStatus 63 61 = 6) ∧ (¬(s.pwr.cold = true ∧ s.startPh < 2)) ∧ (s.inBench = false) ∧ (s.startPh < 3) ∧
      (s.pwr.phase3 = true) ∧ (s.trainingOver = true) ∧ (s.ownPlace = some i)) :=
  ⟨by decide +kernel, by decide +kernel, by decide +kernel, by decide +kernel, by decide +kernel, by decide +kernel, by
     simp [State.ownPlace, State.mapSize, Config.idHash, bytes64, slice]⟩

/-- States and operands that meet the hypotheses of StartAdvances, clause by clause. -/
theorem wit_StartAdvances_b :
    (let s : State := ((placed.setFld rPwrStatus 63 61 6).setFld rPwrStatus 60 57 3).modPort 1 fun q => { q with identSeen := some { aligned := true, claimed := ⟨3, 0, 0⟩, mapHash := Config.sha3 (bytes64 [(0, 4), (1, 4), (2, 4)]) } };
      let p : Nat := 1; let r : IdentRec := { aligned := true, claimed := ⟨3, 0, 0⟩, mapHash := Config.sha3 (bytes64 [(0, 4), (1, 4), (2, 4)]) };
      (s.fld rPwrStatus 63 61 = 6) ∧ (¬(s.pwr.cold = true ∧ s.startPh < 2)) ∧ (s.inBench = false) ∧ (s.startPh = 3) ∧ (s.zen.coord ≠ none) ∧
      (s.meetPorts = [p]) ∧ ((s.port p).identSeen = some r) ∧ (s.identFits p r = true) ∧ (r.aligned = true) ∧ (s.crossRack p = false)) :=
  ⟨by decide +kernel, by decide +kernel, by decide +kernel, by decide +kernel, by decide +kernel, by decide +kernel, rfl, by
     simp only [State.identFits, Bool.and_eq_true, beq_iff_eq]; exact ⟨⟨⟨trivial, by decide +kernel⟩, by decide +kernel⟩, rfl⟩, by decide +kernel,
       by decide +kernel⟩

/-- States and operands that meet the hypotheses of KeysAgreed, clause by clause. -/
theorem wit_KeysAgreed :
    (let s : State := ((((placed.setFld (rLnkStatus 1) 60 60 1)).setFld (rLnkStatus 1) 63 61 4).modPort 1 fun q => { q with setNo := 4 });
      let p : Nat := 1; let r : KeyxRec := { n := 5, sigOk := false }; (p < 6) ∧ (p % 2 = 1) ∧ (s.keyxFits p r = false)) ∧
    (let s : State := ((((placed.setFld (rLnkStatus 1) 60 60 1)).setFld (rLnkStatus 1) 63 61 4).modPort 1 fun q => { q with setNo := 4 });
      let p : Nat := 1; let r : KeyxRec := { n := 4, idHash := s.mapHashOf (s.peerOf p) }; (p < 6) ∧ (p % 2 = 1) ∧ (s.keyxFits p r = true)) ∧
    (let p : Nat := 2; (p % 2 = 0)) ∧
    (let p : Nat := 3; (p % 2 = 1)) := by decide +kernel

/-- States and operands that meet the hypotheses of KeysAgreed, clause by clause. -/
theorem wit_KeysAgreed2 :
    (let s : State := ((((placed.setFld (rLnkStatus 2) 60 60 1)).setFld (rLnkStatus 2) 63 61 3).modPort 2 fun q => { q with setNo := 4, keyxSecret := some 8 });
      let p : Nat := 2; let n : Nat := 8; let r : KeyxRec := { n := 4, chainOk := false }; (p < 6) ∧ (p % 2 = 0) ∧ ((s.port p).keyxSecret = some n) ∧
      (r.n = (s.port p).setNo) ∧ (s.keyxFits p r = false)) := by decide +kernel

/-- States and operands that meet the hypotheses of KeysAgreed, clause by clause. -/
theorem wit_KeysAgreed3 :
    (let s : State := ((((placed.setFld (rLnkStatus 2) 60 60 1)).setFld (rLnkStatus 2) 63 61 3).modPort 2 fun q => { q with setNo := 4, keyxSecret := some 8 });
      let p : Nat := 2; let n : Nat := 8; let r : KeyxRec := { n := 4, idHash := s.mapHashOf (s.peerOf p) }; (p < 6) ∧ (p % 2 = 0) ∧
      ((s.port p).keyxSecret = some n) ∧ (r.n = (s.port p).setNo) ∧ (s.keyxFits p r = true)) ∧
    (let s : State := ((((placed.setFld (rLnkStatus 2) 60 60 1)).setFld (rLnkStatus 2) 63 61 3).modPort 2 fun q => { q with setNo := 4, keyxSecret := some 8 });
      let p : Nat := 2; let n : Nat := 4; let x : Nat := 8; (p < 6) ∧ ((s.port p).keyxSecret = some x) ∧ (n = (s.port p).setNo)) := by decide +kernel

/-- States and operands that meet the hypotheses of KeysAgreed, clause by clause. -/
theorem wit_KeysAgreed4 :
    (let s : State := ((((placed.setFld (rLnkStatus 2) 60 60 1)).setFld (rLnkStatus 2) 63 61 3).modPort 2 fun q => { q with setNo := 4 });
      let p : Nat := 2; (p % 2 = 0) ∧ (s.crossRack p = true) ∧ ((s.port p).authFailed = false) ∧
      (s.linkState p = 3 ∨ s.linkState p = 4)) := by decide +kernel

/-- States and operands that meet the hypotheses of RecoveryProceeds, clause by clause. -/
theorem wit_RecoveryProceeds :
    (let s : State := { loaded with recoveries := [{ id := 4, core := 3, space := 0, addr := 4096, len := 256 }] }; let id : Nat := 4;
      let r : Recovery := { id := 4, core := 3, space := 0, addr := 4096, len := 256 }; let b : Bool := false; (s.recoveries = [r]) ∧ (r.id = id) ∧
      (r.stage = 0) ∧ ((b && !(r.space == 0 && s.hbmBad r.addr r.len) && s.retryOk r) = false)) := by decide +kernel

/-- States and operands that meet the hypotheses of RecoveryProceeds, clause by clause. -/
theorem wit_RecoveryProceeds2 :
    (let s : State := { loaded with recoveries := [{ id := 4, core := 3, space := 0, addr := 4096, len := 256 }] }; let id : Nat := 4;
      let r : Recovery := { id := 4, core := 3, space := 0, addr := 4096, len := 256 }; let b : Bool := true; (s.recoveries = [r]) ∧ (r.id = id) ∧
      (r.stage = 0) ∧ (b = true) ∧ ((r.space == 0 && s.hbmBad r.addr r.len) = false) ∧ (s.retryOk r = true) ∧ (errStack r.core r.space r.addr < 8) ∧
      (s.evq.length < 1024)) := by decide +kernel

/-- States and operands that meet the hypotheses of RecoveryProceeds, clause by clause. -/
theorem wit_RecoveryProceeds3 :
    (let s : State := { loaded with recoveries := [{ id := 4, core := 3, space := 0, addr := 4096, len := 256, stage := 2, entry := bytes64 [(0, 2), (5, 16), (14, 32), (18, 1)] }] };
      let id : Nat := 4;
      let r : Recovery := { id := 4, core := 3, space := 0, addr := 4096, len := 256, stage := 2, entry := bytes64 [(0, 2), (5, 16), (14, 32), (18, 1)] };
      let b : Bool := false; (s.recovery id = some r) ∧ (r.stage = 2) ∧ (b = false)) := by decide +kernel

/-- States and operands that meet the hypotheses of RecoveryProceeds, clause by clause. -/
theorem wit_RecoveryProceeds4 :
    (let s : State := { loaded with recoveries := [{ id := 4, core := 3, space := 0, addr := 4096, len := 256, stage := 2, entry := bytes64 [(0, 2), (5, 16), (14, 32), (18, 1)] }] };
      let id : Nat := 4;
      let r : Recovery := { id := 4, core := 3, space := 0, addr := 4096, len := 256, stage := 2, entry := bytes64 [(0, 2), (5, 16), (14, 32), (18, 1)] };
      let b : Bool := true; (s.recovery id = some r) ∧ (r.stage = 2) ∧ (b = true) ∧ (r.space = 0) ∧ (r.hdr = none) ∧ (r.newer = []) ∧
      (fieldAt r.entry 18 1 = 1) ∧ (s.heldWrites = []) ∧
      (s.heldEnds r.addr (s.storeRead r.core (fieldAt r.entry 13 5 + r.addr - fieldAt r.entry 4 5) r.len).length = (0, 0))) := by decide +kernel

/-- States and operands that meet the hypotheses of RecoveryProceeds, clause by clause. -/
theorem wit_RecoveryProceeds5 :
    (let s : State := { loaded with recoveries := [{ id := 4, core := 3, space := 1, addr := 4096, len := 256, stage := 2, entry := bytes64 [(0, 2), (5, 16), (14, 32)] }] };
      let id : Nat := 4;
      let r : Recovery := { id := 4, core := 3, space := 1, addr := 4096, len := 256, stage := 2, entry := bytes64 [(0, 2), (5, 16), (14, 32)] };
      let b : Bool := true; (s.recovery id = some r) ∧ (r.stage = 2) ∧ (b = true) ∧ (r.space = 1) ∧ (r.hdr = none) ∧ (r.newer = []) ∧
      (fieldAt r.entry 18 1 = 0) ∧ (s.hbmBad (fieldAt r.entry 13 5 + r.addr - fieldAt r.entry 4 5) r.len = false)) := by decide +kernel

/-- States and operands that meet the hypotheses of RecoveryProceeds, clause by clause. -/
theorem wit_RecoveryProceeds6 :
    (let s : State := (({ loaded with recoveries := [{ id := 4, core := 3, space := 1, addr := 5, len := 256, stage := 3, entry := bytes64 [(0, 3)] }] } : State).storeWrite 3 0 (bytes64 [(0, 1), (1, 0x40), (2, 2), (3, 5), (4, 1), (42, 16)]));
      let id : Nat := 4; let b : Bool := true; let r : Recovery := (s.recovery 4).get!; let d : SDesc := (s.recomputeOf r).get!.1;
      let x : Nat := (s.recomputeOf r).get!.2.1; let y : Nat := (s.recomputeOf r).get!.2.2.1; let q : Nat := (s.recomputeOf r).get!.2.2.2;
      (s.recovery id = some r) ∧ (r.stage = 3) ∧ (s.recomputeOf r = some (d, x, y, q)) ∧ (s.sourceBad d x q = false) ∧ (b = true)) ∧
    (let s : State := { loaded with recoveries := [{ id := 4, core := 3, space := 1, addr := 4096, len := 256, stage := 3 }] }; let id : Nat := 4;
      let r : Recovery := { id := 4, core := 3, space := 1, addr := 4096, len := 256, stage := 3 }; let b : Bool := false; (s.recovery id = some r) ∧
      (r.stage = 3) ∧ (b = false)) ∧
    (let s : State := loaded; let id : Nat := 0; (s.recovery id = none)) := by decide +kernel

/-- States and operands that meet the hypotheses of RecoveryProceeds, clause by clause. -/
theorem wit_RecoveryProceeds7 :
    (let s : State := loaded; let id : Nat := 0; (s.recovery id = none)) ∧
    (let s : State := loaded; let id : Nat := 0; (s.recovery id = none)) ∧
    (let s : State := loaded; let n : Nat := 6; let l : Nat := 9; (s.hbmBad (n * 2 ^ 36 + l * 256) 256 = false)) := by decide +kernel

/-- States and operands that meet the hypotheses of MaintenanceRuns, clause by clause. -/
theorem wit_MaintenanceRuns :
    (let s : State := { loaded with badLine := [(6 * 2 ^ 28 + 9, 1)] }; let n : Nat := 6; let l : Nat := 9;
      (s.hbmBad (n * 2 ^ 36 + l * 256) 256 = true) ∧ (s.recoveries = [])) ∧
    (let s : State := loaded; let n : Nat := 6; let l : Nat := 9; (n < 8) ∧ (s.remapOf n l = none) ∧ (s.hbmBad (n * 2 ^ 36 + l * 256) 256 = false) ∧
      (s.evq.length < 1024) ∧ (s.fld (rMemStatus n) 4 0 < 16)) := by decide +kernel

/-- States and operands that meet the hypotheses of MaintenanceRuns, clause by clause. -/
theorem wit_MaintenanceRuns2 :
    (let s : State := loaded.setFld (rMemStatus 6) 4 0 16; let n : Nat := 6; let l : Nat := 9; (n < 8) ∧ (s.remapOf n l = none) ∧
      (s.hbmBad (n * 2 ^ 36 + l * 256) 256 = false) ∧ (s.evq.length < 1024) ∧ (16 ≤ s.fld (rMemStatus n) 4 0)) ∧
    (let s : State := { loaded with maint := [{ act := 1, scope := 6 }] }; let n : Nat := 6; (n < 8) ∧ (s.patrolling n = true) ∧
      (s.hbmBad (n * 2 ^ 36 + 256 * s.fld (rMemPatrol n) 27 0) 256 = false) ∧ (s.fld (rMemPatrol n) 27 0 + 1 < patrolLines)) := by decide +kernel

/-- States and operands that meet the hypotheses of MaintenanceRuns, clause by clause. -/
theorem wit_MaintenanceRuns3 :
    (let s : State := ({ loaded with maint := [{ act := 1, scope := 6 }] } : State).setFld (rMemPatrol 6) 27 0 (patrolLines - 1); let n : Nat := 6;
      (n < 8) ∧ (s.patrolling n = true) ∧ (s.hbmBad (n * 2 ^ 36 + 256 * s.fld (rMemPatrol n) 27 0) 256 = false) ∧
      (patrolLines ≤ s.fld (rMemPatrol n) 27 0 + 1)) ∧
    (let s : State := { loaded with maint := [{ act := 1, scope := 6 }] }; let n : Nat := 6; (n < 8) ∧ (s.patrolling n = true) ∧
      (s.fld (rMemPatrol n) 27 0 + 1 < patrolLines) ∧ (s.recoveries = [])) ∧
    (let s : State := loaded; let n : Nat := 6; (s.patrolling n = false)) := by decide +kernel

/-- States and operands that meet the hypotheses of MaintenanceRuns, clause by clause. -/
theorem wit_MaintenanceRuns4 :
    (let s : State := { loaded with maint := [{ act := 1, scope := 6 }] }; let n : Nat := 6;
      (s.maint.any (fun m => m.act == 1 && m.scope == n) = true)) ∧
    (let s : State := loaded; let n : Nat := 6; (n < 8) ∧ (s.evq.length < 1024)) ∧
    (let s : State := loaded; let h : Nat := 1; let act : Nat := 3; let n : Nat := 6; (s.maintAllowed h act n = false)) ∧
    (let s : State := loaded.setReg (rZenPart 0) (0xC23FF00000000000); let n : Nat := 6; let k := 0; let h : Nat := 0; (s.maintAllowed h 3 n = true) ∧
      (s.stackPart n = some k) ∧ (s.conf k = true)) := by decide +kernel

/-- States and operands that meet the hypotheses of MaintenanceRuns, clause by clause. -/
theorem wit_MaintenanceRuns5 :
    (let s : State := loaded.modPart 0 fun p => { p with running := true, inStep := true }; let act : Nat := 4; let n : Nat := 6; let c := 0;
      let h : Nat := 0; (s.maintAllowed h act n = true) ∧ (act ≠ 3) ∧ (s.maintConflict act n = some c)) ∧
    (let s : State := loaded; let act : Nat := 2; let n : Nat := 6; let k := 0; let h : Nat := 0; (s.maintAllowed h act n = true) ∧
      (s.maintPart act n = some k) ∧ ((act ≠ 3 ∨ s.conf k = false)) ∧ (s.maintConflict act n = none)) := by decide +kernel

/-- States and operands that meet the hypotheses of SweepsAndClearing (RekeySweeps), clause by clause. -/
theorem wit_RekeySweeps :
    (let s : State := (loaded.setFld (rZenXts 0) 63 63 1); let n : Nat := 6; let k : Nat := 0; (s.stackPart n = some k) ∧
      (s.fld (rZenXts k) 63 63 = 1) ∧ (s.sweepNext k n < granulesPerStack) ∧ (SMap.get (s.part k).locked n = none) ∧
      (SMap.get (s.part k).lockAt n = 0 ∨ SMap.get (s.part k).lockAt n + 23894 ≤ s.clk.wall + 1)) := by decide +kernel

/-- States and operands that meet the hypotheses of SweepsAndClearing (RekeySweeps), clause by clause. -/
theorem wit_RekeySweeps2 :
    (let s : State := { (loaded.setFld (rZenXts 0) 63 63 1).modPart 0 (fun p => { p with lockAt := [(6, 1)] }) with clk := { loaded.clk with wall := 23892 } };
      let n : Nat := 6; let k : Nat := 0; (s.stackPart n = some k) ∧ (s.fld (rZenXts k) 63 63 = 1) ∧ (s.sweepNext k n < granulesPerStack) ∧
      (SMap.get (s.part k).locked n = none) ∧ (SMap.get (s.part k).lockAt n ≠ 0) ∧
      (s.clk.wall + 1 < SMap.get (s.part k).lockAt n + 23894)) := by decide +kernel

/-- States and operands that meet the hypotheses of SweepsAndClearing (RekeySweeps), clause by clause. -/
theorem wit_RekeySweeps3 :
    (let s : State := ((loaded.setFld (rZenXts 0) 63 63 1).setFld (rZenXts 0) 17 0 9).modPart 0 fun p => { p with locked := [(6, some 5)] };
      let n : Nat := 6; let g : Nat := 5; let k : Nat := 0; (k < 4) ∧ (s.stackPart n = some k) ∧ (SMap.get (s.part k).locked n = some g) ∧
      (1 < s.fld (rZenXts k) 17 0)) ∧
    (let s : State := loaded; let n : Nat := 6; let k : Nat := 0; (s.stackPart n = some k) ∧
      (s.fld (rZenXts k) 63 63 = 0 ∨ granulesPerStack ≤ s.sweepNext k n ∨ (SMap.get (s.part k).locked n).isSome = true)) ∧
    (let s : State := loaded; let n : Nat := 6; let k : Nat := 0; (s.stackPart n = some k) ∧ (SMap.get (s.part k).locked n = none)) ∧
    (let s : State := State.reset.setFld (rZenPart 0) 63 63 0; let n : Nat := 6; (s.stackPart n = none)) := by decide +kernel

/-- States and operands that meet the hypotheses of SweepsAndClearing (RekeySweeps), clause by clause. -/
theorem wit_RekeySweeps4 :
    (let s : State := State.reset.setFld (rZenPart 0) 63 63 0; let n : Nat := 6; (s.stackPart n = none)) := by decide +kernel

/-- States and operands that meet the hypotheses of SweepsAndClearing (ClearingProceeds), clause by clause. -/
theorem wit_ClearingProceeds :
    (let s : State := ({ loaded with hbm := [(5, 7)], store := [(5, 7)], lstore := [(5, 7)] } : State).setPstate 0 3 |>.modPart 0 fun p => { p with clearStep := 1 };
      let k : Nat := 0; (k < 4) ∧ (s.pstate k = 3) ∧ ((s.part k).clearStep = 1)) ∧
    (let s : State := ({ loaded with hbm := [(5, 7)], store := [(5, 7)], lstore := [(5, 7)] } : State).setPstate 0 3 |>.modPart 0 fun p => { p with clearStep := 2 };
      let k : Nat := 0; (k < 4) ∧ (s.pstate k = 3) ∧ ((s.part k).clearStep = 2)) ∧
    (let s : State := ({ loaded with hbm := [(5, 7)], store := [(5, 7)], lstore := [(5, 7)] } : State).setPstate 0 3 |>.modPart 0 fun p => { p with clearStep := 3 };
      let k : Nat := 0; (k < 4) ∧ (s.pstate k = 3) ∧ ((s.part k).clearStep = 3)) := by decide +kernel

/-- States and operands that meet the hypotheses of SweepsAndClearing (ClearingProceeds), clause by clause. -/
theorem wit_ClearingProceeds2 :
    (let s : State := ({ loaded with hbm := [(5, 7)], store := [(5, 7)], lstore := [(5, 7)] } : State).setPstate 0 3 |>.modPart 0 fun p => { p with clearStep := 4 };
      let k : Nat := 0; (k < 4) ∧ (s.pstate k = 3) ∧ ((s.part k).clearStep = 4)) ∧
    (let s : State := ({ loaded with hbm := [(5, 7)], store := [(5, 7)], lstore := [(5, 7)] } : State).setPstate 0 3 |>.modPart 0 fun p => { p with clearStep := 5 };
      let k : Nat := 0; let b : List Nat := []; (k < 4) ∧ (s.pstate k = 3) ∧ ((s.part k).clearStep = 5) ∧ (b = [])) := by decide +kernel

/-- States and operands that meet the hypotheses of SweepsAndClearing (ClearingProceeds), clause by clause. -/
theorem wit_ClearingProceeds3 :
    (let s : State := ({ loaded with hbm := [(5, 7)], store := [(5, 7)], lstore := [(5, 7)] } : State).setPstate 0 3 |>.modPart 0 fun p => { p with clearStep := 5 };
      let l := 6 * 2 ^ 28 + 9; let b : List Nat := [6 * 2 ^ 28 + 9]; let k : Nat := 0; (k < 4) ∧ (s.pstate k = 3) ∧ ((s.part k).clearStep = 5) ∧
      (b = [l]) ∧ (l / 2 ^ 28 < 8) ∧ (s.remapOf (l / 2 ^ 28) (l % 2 ^ 28) = none) ∧ (s.fld (rMemStatus (l / 2 ^ 28)) 4 0 < 16)) := by decide +kernel

/-- States and operands that meet the hypotheses of SweepsAndClearing (ClearingProceeds), clause by clause. -/
theorem wit_ClearingProceeds4 :
    (let s : State := ({ loaded.setFld (rMemStatus 6) 4 0 16 with hbm := [(5, 7)], store := [(5, 7)], lstore := [(5, 7)] } : State).setPstate 0 3 |>.modPart 0 fun p => { p with clearStep := 5 };
      let l := 6 * 2 ^ 28 + 9; let b : List Nat := [6 * 2 ^ 28 + 9]; let k : Nat := 0; (k < 4) ∧ (s.pstate k = 3) ∧ ((s.part k).clearStep = 5) ∧
      (b = [l]) ∧ (l / 2 ^ 28 < 8) ∧ (s.remapOf (l / 2 ^ 28) (l % 2 ^ 28) = none) ∧ (16 ≤ s.fld (rMemStatus (l / 2 ^ 28)) 4 0) ∧
      (s.evq.length < 1024) ∧ ((s.part k).tickets = [])) := by decide +kernel

/-- States and operands that meet the hypotheses of SweepsAndClearing (ClearingProceeds), clause by clause. -/
theorem wit_ClearingProceeds5 :
    (let s : State := loaded; let k : Nat := 0; (s.pstate k ≠ 3 ∨ (s.part k).clearStep = 0 ∨ 6 ≤ (s.part k).clearStep)) ∧
    (let s : State := loaded; let k : Nat := 0; (s.pstate k ≠ 3 ∨ (s.part k).clearStep ≠ 6)) ∧
    (let s : State := loaded; let k : Nat := 0; (s.pstate k ≠ 3)) ∧
    (let s : State := ({ loaded with hbm := [(5, 7)], store := [(5, 7)], lstore := [(5, 7)] } : State).setPstate 0 3 |>.modPart 0 fun p => { p with clearStep := 6 };
      let k : Nat := 0; (k < 4) ∧ (s.pstate k = 3) ∧ ((s.part k).clearStep = 6) ∧ ((s.part k).tickets = []) ∧ (s.evq.length < 1024)) ∧
    (let s : State := ({ loaded with hbm := [(5, 7)], store := [(5, 7)], lstore := [(5, 7)] } : State).setPstate 0 3 |>.modPart 0 fun p => { p with clearStep := 3 };
      let k : Nat := 0; (s.pstate k = 3)) := by decide +kernel

/-- States and operands that meet the hypotheses of EventsAndDumps (DumpsKept), clause by clause. -/
theorem wit_DumpsKept :
    (let s : State := loaded.modPart 0 fun p => { p with dumpState := 1 }; let k : Nat := 0; ((s.part k).dumpState = 1) ∧
      ((s.part k).resetWait = false) ∧ ((s.part k).waitAns = [])) ∧
    (let s : State := loaded.modPart 0 fun p => { p with dumpState := 1, resetWait := true }; let k : Nat := 0; ((s.part k).dumpState = 1) ∧
      ((s.part k).resetWait = true) ∧ ((s.part k).waitAns = [])) ∧
    (let s : State := loaded; let k : Nat := 0; ((s.part k).dumpState ≠ 1)) ∧
    (let s : State := loaded; let k : Nat := 0; ((s.part k).dumpState ≠ 2)) := by decide +kernel

/-- States and operands that meet the hypotheses of EventsAndDumps (DumpsKept), clause by clause. -/
theorem wit_DumpsKept2 :
    (let s : State := loaded.modPart 0 fun p => { p with dumpState := 2 }; let k : Nat := 0; let n : Nat := 0; (k < 4) ∧ ((s.part k).dumpState = 2) ∧
      ((s.conf k = false ∨ s.pstate k ≠ 5)) ∧ ((s.dumpSlot k).1 = n) ∧ (s.evq.length < 1024)) := by decide +kernel

/-- States and operands that meet the hypotheses of SupplyActs, clause by clause. -/
theorem wit_SupplyActs :
    (let s : State := loaded.setFld rPwrStatus 63 61 0; let v : Nat := 41000; (v < 42000) ∧ (s.pwr.held = false) ∧ (s.inSquall = false) ∧
      (s.evq.length < 1024)) ∧
    (let s : State := { (loaded.setFld rPwrStatus 55 55 1) with clk := { loaded.clk with supply := 4 }, pwr := { loaded.pwr with mv := 48000 } };
      let v : Nat := 40000; (v < 42000) ∧ (s.pwr.held = false) ∧ (s.inSquall = true)) ∧
    (let s : State := loaded; let v : Nat := 42000; (42000 ≤ v ∨ s.pwr.held = true)) := by decide +kernel

/-- States and operands that meet the hypotheses of SupplyActs, clause by clause. -/
theorem wit_SupplyActs2 :
    (let s : State := { (loaded.setFld rPwrStatus 55 55 1) with clk := { loaded.clk with supply := 4 }, pwr := { loaded.pwr with mv := 48000 } };
      let v : Nat := 43600; (43500 < v) ∧ (s.inSquall = true) ∧ (s.clk.releasing = false) ∧ (s.clk.supply ≠ 0)) ∧
    (let s : State := { (loaded.setFld rPwrStatus 55 55 1) with clk := { loaded.clk with supply := 0, cap := true }, pwr := { loaded.pwr with mv := 48000 } };
      let v : Nat := 43600; (43500 < v) ∧ (s.inSquall = true) ∧ (s.clk.releasing = false) ∧ (s.clk.supply = 0) ∧
      (s.evq.length < 1024)) := by decide +kernel

/-- States and operands that meet the hypotheses of SupplyActs, clause by clause. -/
theorem wit_SupplyActs3 :
    (let s : State := loaded; let v : Nat := 43500; (v ≤ 43500 ∨ s.clk.releasing = true)) ∧
    (let s : State := { (loaded.setFld rPwrStatus 55 55 1) with clk := { loaded.clk with releasing := true, supply := 4 }, pwr := { loaded.pwr with mv := 48000 } };
      let n : Nat := 2; (s.clk.releasing = true) ∧ (s.clk.nextSupply ≤ s.beat) ∧ (s.clk.supply = n + 2)) ∧
    (let s : State := { (loaded.setFld rPwrStatus 55 55 1) with clk := { loaded.clk with releasing := true, supply := 1 }, pwr := { loaded.pwr with mv := 48000 } };
      (s.clk.releasing = true) ∧ (s.clk.nextSupply ≤ s.beat) ∧ (s.clk.supply = 1) ∧ (s.evq.length < 1024)) ∧
    (let s : State := loaded; (s.clk.releasing = false ∨ s.beat < s.clk.nextSupply)) := by decide +kernel

/-- States and operands that meet the hypotheses of SupplyActs, clause by clause. -/
theorem wit_SupplyActs4 :
    (let s : State := { loaded with clk := { loaded.clk with thermal := 1 }, pwr := { loaded.pwr with mv := 48000, tj := 960 } }; let n : Nat := 1;
      (s.clk.nextThermal ≤ s.beat) ∧ (s.clk.thermal = n) ∧ (950 ≤ s.pwr.tj) ∧ (0 < n) ∧ (n < 6)) := by decide +kernel

/-- States and operands that meet the hypotheses of SupplyActs, clause by clause. -/
theorem wit_SupplyActs5 :
    (let s : State := { loaded with clk := { loaded.clk with thermal := 0 }, pwr := { loaded.pwr with mv := 48000, tj := 950 } }; let n : Nat := 0;
      (s.clk.nextThermal ≤ s.beat) ∧ (s.clk.thermal = n) ∧ (950 ≤ s.pwr.tj) ∧ (n = 0) ∧ (s.evq.length < 1024)) ∧
    (let s : State := { loaded with clk := { loaded.clk with thermal := 2 }, pwr := { loaded.pwr with mv := 48000, tj := 929 } }; let n : Nat := 2;
      (s.clk.nextThermal ≤ s.beat) ∧ (s.clk.thermal = n) ∧ (s.pwr.tj < 930) ∧ (1 < n)) := by decide +kernel

/-- States and operands that meet the hypotheses of SupplyActs, clause by clause. -/
theorem wit_SupplyActs6 :
    (let s : State := { loaded with clk := { loaded.clk with thermal := 1 }, pwr := { loaded.pwr with mv := 48000, tj := 900 } }; let n : Nat := 1;
      (s.clk.nextThermal ≤ s.beat) ∧ (s.clk.thermal = n) ∧ (s.pwr.tj < 930) ∧ (n = 1) ∧ (s.evq.length < 1024)) ∧
    (let s : State := loaded; let v : Nat := 42000; (42000 ≤ v) ∧ (v < 44000) ∧ (s.onceASecond s.clk.lastLow = true) ∧
      (s.evq.length < 1024)) := by decide +kernel

/-- States and operands that meet the hypotheses of SupplyActs, clause by clause. -/
theorem wit_SupplyActs7 :
    (let s : State := loaded; let v : Nat := 60000; (58000 < v) ∧ (v ≤ 60000) ∧ (s.onceASecond s.clk.lastHigh = true) ∧ (s.evq.length < 1024)) ∧
    (let s : State := loaded; let v : Nat := 44000; (s.onceASecond s.clk.lastLow = false ∨ v < 42000 ∨ 44000 ≤ v)) ∧
    (let s : State := loaded; let v : Nat := 58000; (s.onceASecond s.clk.lastHigh = false ∨ v ≤ 58000 ∨ 60000 < v)) := by decide +kernel

/-- States and operands that meet the hypotheses of ModuleResets, clause by clause. -/
theorem wit_ModuleResets :
    (let s : State := loaded; (s.pwr.held = false)) ∧
    (let s : State := { loaded with pwr := { loaded.pwr with held := true, pwrgdLow := true, resetLow := true }, clk := { loaded.clk with wall := 7000000 } };
      (s.pwr.held = true) ∧ (s.pwr.awaitRise = false) ∧ (s.pwr.pwrgdLow = true) ∧ (s.pwr.pwrgdAt + 7000000 ≤ s.clk.wall)) ∧
    (let s : State := { loaded with pwr := { loaded.pwr with held := true, pwrgdLow := false, resetLow := true }, clk := { loaded.clk with wall := 7000000 } };
      (s.pwr.held = true) ∧ (s.pwr.awaitRise = false) ∧ ((s.pwr.pwrgdLow = false ∨ s.clk.wall < s.pwr.pwrgdAt + 7000000))) := by decide +kernel

/-- States and operands that meet the hypotheses of ModuleResets, clause by clause. -/
theorem wit_ModuleResets2 :
    (let s : State := { loaded with hbm := [(5, 7)] }; (s.RegsOk) ∧ (s.pwr.held = false) ∧ (s.pwr.awaitRise = false) ∧ (s.pwr.pwrgdLow = false)) ∧
    (let s : State := { loaded with pwr := { loaded.pwr with held := true } }; ((s.pwr.held = true ∨ s.pwr.pwrgdLow = true)) ∧
      (s.pwr.awaitRise = false)) ∧
    (let s : State := { loaded with pwr := { loaded.pwr with held := true, awaitRise := true, resetLow := true } };
      (s.pwr.awaitRise = true)) := by decide +kernel

/-- States and operands that meet the hypotheses of HostPortEvents, clause by clause. -/
theorem wit_HostPortEvents :
    (let s : State := loaded; let h : Nat := 0; (s.RegsOk) ∧ (h < 2) ∧ ((∀ k, k < 4 → s.partValid k = true → s.fld (rZenPart k) 60 60 = 0))) ∧
    (let s : State := loaded.setFld rZenRole 9 9 1; let h : Nat := 1; (h < 2) ∧ (s.fld rZenRole (8 + h) (8 + h) = 1) ∧
      ((∀ k, k < 4 → s.conf k = true → s.owner k ≠ h))) := by decide +kernel

/-- States and operands that meet the hypotheses of HostPortEvents, clause by clause. -/
theorem wit_HostPortEvents2 :
    (let s : State := ((loaded.setFld rZenRole 9 9 1).setReg (rZenPart 0) 0xC23FF00000000000).setFld rZenRole 8 8 1; let h : Nat := 0;
      let k : Nat := 0; (h < 2) ∧ (s.fld rZenRole (8 + h) (8 + h) = 1) ∧ (k < 4) ∧ ((∀ j, j < 4 → ((s.conf j && s.owner j == h) = true ↔ j = k)))) ∧
    (let s : State := loaded; let h : Nat := 1; (s.fld rZenRole (8 + h) (8 + h) = 0)) ∧
    (let s : State := loaded; let h : Nat := 1; let w : Nat := 4; let r : Nat := 5; (h < 2) ∧ (w < 16) ∧ (r < 16) ∧
      (s.evq.length < 1024)) := by decide +kernel

/-- States and operands that meet the hypotheses of HostPortEvents, clause by clause. -/
theorem wit_HostPortEvents3 :
    (let s : State := loaded; let h : Nat := 1; ((∀ k, k < 4 → s.owner k = h → (s.part k).records = []))) := by decide +kernel

/-- States and operands that meet the hypotheses of ZenithResets, clause by clause. -/
theorem wit_ZenithResets :
    (let s : State := served 2; (s.pwrState ≠ 4)) ∧
    (let s : State := loaded.setFld rPwrStatus 63 61 4; (s.pwrState = 4)) ∧
    (let s : State := { loaded with zen := { loaded.zen with booting := true } }; (s.zen.booting = true)) ∧
    (let s : State := { loaded with zen := { loaded.zen with booting := true } }; (s.zen.booting = true)) ∧
    (let s : State := loaded; (s.zen.booting = false)) := by decide +kernel

/-- States and operands that meet the hypotheses of StartTests, clause by clause. -/
theorem wit_StartTests :
    (let s : State := loaded.setFld rPwrStatus 63 61 4; let r : SelfTestResult := { bypass := 0x18000, mv := 48000 }; (s.pwrState = 4) ∧
      (s.pwr.held = false) ∧ (SelfTestResult_fails r = 0) ∧ ((∀ e ∈ s.zen.remaps, e.1 < 8 ∧ e.2.length ≤ 16))) ∧
    (let s : State := loaded.setFld rPwrStatus 63 61 4; let r : SelfTestResult := { mv := 41000 }; (s.pwrState = 4) ∧ (s.pwr.held = false) ∧
      (SelfTestResult_fails r ≠ 0) ∧ (SelfTestResult_fails r < 256)) := by decide +kernel

/-- States and operands that meet the hypotheses of StartTests, clause by clause. -/
theorem wit_StartTests2 :
    (let s : State := ((loaded.setFld rPwrStatus 63 61 6).setFld rPwrStatus 60 57 1); (s.pwrState = 6) ∧ (s.startPh = 1) ∧ (s.pwr.cold = true)) ∧
    (let s : State := { loaded with pwr := { loaded.pwr with changing := some (1, 5) } }; let x : Nat := 1; let w : Nat := 5;
      (s.pwr.changing = some (x, w)) ∧ (x = 1 ∨ x = 2)) ∧
    (let s : State := { loaded with pwr := { loaded.pwr with changing := some (3, 5) } }; let x : Nat := 3; let w : Nat := 5;
      (s.pwr.changing = some (x, w)) ∧ (x = 3)) := by decide +kernel

/-- States and operands that meet the hypotheses of StartTests, clause by clause. -/
theorem wit_StartTests3 :
    (let s : State := { loaded with pwr := { loaded.pwr with changing := some (0, 5) } }; let x : Nat := 0; let w : Nat := 5;
      (s.pwr.changing = some (x, w)) ∧ (x = 0) ∧ (s.pwrState ≠ 3) ∧ (s.inSquall = false)) ∧
    (let s : State := { (loaded.setFld rPwrStatus 63 61 3) with pwr := { loaded.pwr with changing := some (0, 5) } }; let x : Nat := 0;
      let w : Nat := 5; (s.pwr.changing = some (x, w)) ∧ (x = 0) ∧ (s.pwrState = 3) ∧ (s.inSquall = false)) ∧
    (let s : State := loaded; (s.pwr.changing = none)) := by decide +kernel

/-- States and operands that meet the hypotheses of StartTests, clause by clause. -/
theorem wit_StartTests4 :
    (let s : State := loaded; (s.pwrState ≠ 6 ∨ s.startPh ≠ 1 ∨ s.pwr.cold = false)) ∧
    (let s : State := loaded.setFld rPwrStatus 63 61 0; (s.pwrState ≠ 4 ∨ s.pwr.held = true)) := by decide +kernel

/-- States and operands that meet the hypotheses of MailboxAnswers, clause by clause. -/
theorem wit_MailboxAnswers :
    (let s : State := served 2; let i : Nat := 0; (s.mailboxAwake i)) ∧
    (let s : State := served 2; let i : Nat := 0; (s.mailboxAwake i)) ∧
    (let s : State := (served 2).setFld rGlbAbi 23 16 4; let v : Nat := 4; let i : Nat := 0; (s.mailboxLives i) ∧ (i < 2) ∧
      (v = s.fld (rGlbAbi + localStride * i) 23 16) ∧ (s.fld (rGlbAbi + localStride * i) 47 40 ≤ v) ∧
      (v ≤ s.fld (rGlbAbi + localStride * i) 39 32)) := by decide +kernel

/-- States and operands that meet the hypotheses of MailboxAnswers, clause by clause. -/
theorem wit_MailboxAnswers2 :
    (let s : State := served 2; let v : Nat := 99; let i : Nat := 0; (s.mailboxLives i) ∧ (i < 2) ∧
      (v ≠ s.fld (rGlbAbi + localStride * i) 23 16 ∨ v < s.fld (rGlbAbi + localStride * i) 47 40 ∨ s.fld (rGlbAbi + localStride * i) 39 32 < v)) ∧
    (let s : State := served 2; let i : Nat := 2; (s.mailboxLives i) ∧ (i = 2)) ∧
    (let s : State := { loaded with zen := { loaded.zen with done := [(0, [(1, 2, 3, 4)])] } }; let d : Nat := 1; let n : Nat := 2; let c : Nat := 3;
      let r : Nat := 4; let i : Nat := 0; let l : List (Nat × Nat × Nat × Nat) := []; (SMap.get s.zen.done i = (d, n, c, r) :: l)) ∧
    (let s : State := loaded; let i : Nat := 1; (i < 2) ∧ (SMap.get s.zen.done i = [])) := by decide +kernel

/-- States and operands that meet the hypotheses of MailboxRoles (MailboxGates), clause by clause. -/
theorem wit_MailboxGates :
    (let s : State := { loaded with pwr := { loaded.pwr with held := true } }; (s.pwr.held = true)) ∧
    (let s : State := loaded; let i : Nat := 0; (s.pwr.held = false) ∧ (i ≤ 2) ∧ ((s.zen.booted = false ∨ s.zen.booting = true))) ∧
    (let s : State := ((served 2).setFld rPwrStatus 63 61 5); let i : Nat := 0; let n : Nat := 0; let key : List Nat := [];
      let c : Instr := ([(.svnCommit i n : Instr), .roleKeySet i 1 n key, .fabricMap i key, .zenithReset i, .zeroize i false] : List Instr).getD 2 .idcode;
      (s.mailboxAwake i) ∧ (s.pwrState = 5) ∧ (c ≠ .zeroize i false)) := by decide +kernel

/-- States and operands that meet the hypotheses of MailboxRoles (MailboxGates), clause by clause. -/
theorem wit_MailboxGates2 :
    (let s : State := (served 2).setFld rGlbAbi 7 0 0; let i : Nat := 0; (s.mailboxLives i) ∧ (i < 2) ∧ (s.fld (rGlbAbi + localStride * i) 7 0 = 0)) ∧
    (let s : State := served 1; let i : Nat := 0; (s.mailboxOpen i 0) ∧ (s.roleOf i < 2)) := by decide +kernel

/-- States and operands that meet the hypotheses of MailboxRoles (RolesHeld), clause by clause. -/
theorem wit_RolesHeld :
    (let s : State := served 2; let i : Nat := 0; let r : Nat := 0; let key : List Nat := []; (s.mailboxOpen i 0) ∧
      (¬((r = 2 ∧ s.zen.officer = some (Config.sha3 key)) ∨ (r = 1 ∧ (s.zen.users.any fun e => e.2 == some (Config.sha3 key)) = true)))) ∧
    (let s : State := served 2; let i : Nat := 0; (s.mailboxOpen i 0)) ∧
    (let s : State := served 2; let i : Nat := 0; (s.mailboxOpen i 0)) ∧
    (let s : State := { served 0 with zen := { (served 0).zen with officer := none } }; let key : List Nat := [5]; let i : Nat := 0;
      (s.mailboxOpen i 0) ∧ (s.zen.officer = none) ∧ (key.all (· == 0) = false)) := by decide +kernel

/-- States and operands that meet the hypotheses of MailboxRoles (RolesHeld), clause by clause. -/
theorem wit_RolesHeld2 :
    (let s : State := { served 0 with zen := { (served 0).zen with officer := none } }; let key : List Nat := [0]; let i : Nat := 0;
      (s.mailboxOpen i 0) ∧ (s.zen.officer = none) ∧ (key.all (· == 0) = true)) ∧
    (let s : State := served 2; let i : Nat := 0; (s.mailboxOpen i 0) ∧ (s.zen.officer ≠ none)) ∧
    (let s : State := served 2; let slot : Nat := 3; let i : Nat := 0; (s.mailboxOpen i 2) ∧ (slot < 8)) ∧
    (let s : State := served 2; let i : Nat := 0; (s.mailboxOpen i 2)) := by decide +kernel

/-- States and operands that meet the hypotheses of MailboxRoles (RolesHeld), clause by clause. -/
theorem wit_RolesHeld3 :
    (let s : State := served 2; let slot : Nat := 9; let i : Nat := 0; (s.mailboxOpen i 2) ∧ (8 ≤ slot)) ∧
    (let s : State := served 0; let i : Nat := 0; (s.roleOf i = 0)) ∧
    (let s : State := { served 1 with clk := { loaded.clk with wall := 420000000000 } }; let i : Nat := 0; (i ≤ 2) ∧ (s.roleOf i ≠ 0) ∧
      (SMap.get s.zen.lastCmd i + 420000000000 ≤ s.clk.wall + 1)) ∧
    (let s : State := served 1; let i : Nat := 0; (i ≤ 2) ∧ (s.roleOf i ≠ 0) ∧
      (s.clk.wall + 1 < SMap.get s.zen.lastCmd i + 420000000000)) := by decide +kernel

/-- States and operands that meet the hypotheses of MailboxRoles (RolesHeld), clause by clause. -/
theorem wit_RolesHeld_a :
    (let s : State := { served 0 with zen := { (served 0).zen with officer := some (Config.sha3 [5]) } }; let key : List Nat := [5]; let r : Nat := 2;
      let i : Nat := 0; (s.mailboxOpen i 0) ∧
      ((r = 2 ∧ s.zen.officer = some (Config.sha3 key)) ∨ (r = 1 ∧ ∃ n, (n, some (Config.sha3 key)) ∈ s.zen.users))) :=
  ⟨by decide +kernel, Or.inl ⟨rfl, rfl⟩⟩

/-- States and operands that meet the hypotheses of ImagesManaged, clause by clause. -/
theorem wit_ImagesManaged :
    (let s : State := ((served 1).setPstate 0 0).setFld rPwrStatus 56 56 1; let addr : Nat := 4096; let len : Nat := 8192; let i : Nat := 0;
      let k : Nat := 0; let p : Nat := 0; (s.mailboxPart i k) ∧ (s.pstate k = 0) ∧ ((s.part k).loading = none) ∧ ((s.part k).clearAfter = false) ∧
      (s.fld rPwrStatus 56 56 = 1) ∧ ((s.conf k = false ∨ (s.ideSecure (s.owner k) = true ∧ (s.part k).signers ≠ []))) ∧ (addr % 4096 = 0) ∧
      (s.inBounds k addr len = true) ∧ ((p = 0 ∨ s.inBounds k p 8 = true)) ∧ (s.ticketRoom i)) := by decide +kernel

/-- States and operands that meet the hypotheses of ImagesManaged, clause by clause. -/
theorem wit_ImagesManaged2 :
    (let s : State := (served 1); let i : Nat := 0; let k : Nat := 0; (s.mailboxPart i k) ∧
      (s.pstate k ≠ 0 ∨ (s.part k).loading ≠ none ∨ (s.part k).clearAfter = true ∨ s.fld rPwrStatus 56 56 = 0)) ∧
    (let s : State := (served 1).modPart 0 fun p => { p with running := true }; let i : Nat := 0; let k : Nat := 0; (s.mailboxPart i k) ∧
      (s.stepping k = true ∨ s.pstate k = 3 ∨ s.pstate k = 4)) ∧
    (let s : State := (served 1).setPstate 0 0; let i : Nat := 0; let k : Nat := 0; (s.mailboxPart i k) ∧ (s.stepping k = false) ∧ (s.pstate k = 0) ∧
      ((s.part k).dumpState ≠ 1) ∧ ((s.part k).loading = none)) := by decide +kernel

/-- States and operands that meet the hypotheses of ImagesManaged, clause by clause. -/
theorem wit_ImagesManaged3 :
    (let s : State := served 1; let i : Nat := 0; let k : Nat := 0; (s.mailboxPart i k) ∧ (s.stepping k = false) ∧ (s.pstate k = 1) ∧
      ((s.part k).dumpState ≠ 1) ∧ ((s.part k).loading = none) ∧ ((s.part k).queue = []) ∧ (s.conf k = false)) := by decide +kernel

/-- States and operands that meet the hypotheses of ImagesManaged, clause by clause. -/
theorem wit_ImagesManaged4 :
    (let s : State := ((served 1).setReg (rZenPart 0) 0xC23FF00000000000).setPstate 0 1; let i : Nat := 0; let k : Nat := 0; (s.mailboxPart i k) ∧
      (s.stepping k = false) ∧ (s.pstate k = 1) ∧ ((s.part k).dumpState ≠ 1) ∧ (s.conf k = true) ∧ (s.maintConflict 7 k = none)) := by decide +kernel

/-- States and operands that meet the hypotheses of ImagesManaged, clause by clause. -/
theorem wit_ImagesManaged5 :
    (let s : State := { served 1 with hbm := [(4096, 2)] }; let addr : Nat := 4096; let n : Nat := 2; let core : Nat := 2; let i : Nat := 0;
      let k : Nat := 0; (s.mailboxPart i k) ∧ (core < 4) ∧ (s.partOf core = some k) ∧ (s.pstate k ≠ 3) ∧ (s.pstate k ≠ 4) ∧ (n ≤ 512) ∧
      (s.inBounds k addr (32 * n) = true) ∧
      ((chunksOf 32 (s.hbmRead addr (32 * n)).length (s.hbmRead addr (32 * n))).all (fun e => s.recoveryOk core e) = true)) := by decide +kernel

/-- States and operands that meet the hypotheses of ImagesManaged, clause by clause. -/
theorem wit_ImagesManaged6 :
    (let s : State := { served 1 with hbm := [(4096, 9)] }; let addr : Nat := 4096; let n : Nat := 2; let core : Nat := 2; let i : Nat := 0;
      let k : Nat := 0; (s.mailboxPart i k) ∧ (core < 4) ∧ (s.partOf core = some k) ∧ (s.pstate k ≠ 3) ∧ (s.pstate k ≠ 4) ∧ (n ≤ 512) ∧
      (s.inBounds k addr (32 * n) = true) ∧
      ((chunksOf 32 (s.hbmRead addr (32 * n)).length (s.hbmRead addr (32 * n))).all (fun e => s.recoveryOk core e) = false)) := by decide +kernel

/-- States and operands that meet the hypotheses of ImagesManaged, clause by clause. -/
theorem wit_ImagesManaged7 :
    (let s : State := served 1; let keys : List (List Nat) := [List.replicate 64 7]; let i : Nat := 0; let k : Nat := 0; (s.mailboxPart i k) ∧
      (keys.length ≤ 4) ∧ (keys.all (fun h => h.length == 64) = true)) ∧
    (let s : State := served 1; let keys : List (List Nat) := [[7]]; let i : Nat := 0; let k : Nat := 0; (s.mailboxPart i k) ∧
      (4 < keys.length ∨ keys.all (fun h => h.length == 64) = false)) := by decide +kernel

/-- States and operands that meet the hypotheses of ExportsRun, clause by clause. -/
theorem wit_ExportsRun :
    (let s : State := served 1; let addr : Nat := 256; let len : Nat := 512; let i : Nat := 0; let k : Nat := 0; (s.mailboxPart i k) ∧
      (s.pstate k ≠ 3) ∧ (s.pstate k ≠ 4) ∧ (addr % 256 = 0) ∧ (len % 256 = 0) ∧ (len ≠ 0) ∧ (len ≤ 2 ^ 32) ∧ (s.inBounds k addr len = true) ∧
      ((s.conf k = false ∨ (s.ideSecure (s.owner k) = true ∧ s.resultKeyOf k ≠ none))) ∧ (s.ticketRoom i)) := by decide +kernel

/-- States and operands that meet the hypotheses of ExportsRun, clause by clause. -/
theorem wit_ExportsRun2 :
    (let s : State := served 1; let addr : Nat := 256; let len : Nat := 100; let i : Nat := 0; let k : Nat := 0; (s.mailboxPart i k) ∧
      (s.pstate k ≠ 3) ∧ (s.pstate k ≠ 4) ∧ (addr % 256 ≠ 0 ∨ len % 256 ≠ 0 ∨ len = 0 ∨ 2 ^ 32 < len)) ∧
    (let s : State := loaded.modHost 0 fun h => { h with exports := [{ part := 0, addr := 256, len := 256, data := 4096, rec_ := 8192 }] };
      let j : ExportJob := { part := 0, addr := 256, len := 256, data := 4096, rec_ := 8192 }; let h : Nat := 0; let l : List ExportJob := [];
      ((s.host h).exports = j :: l) ∧ (s.samePlace 0 0 0 j.addr j.len = none) ∧ (s.hbmBad j.addr j.len = false)) := by decide +kernel

/-- States and operands that meet the hypotheses of ExportsRun, clause by clause. -/
theorem wit_ExportsRun3 :
    (let s : State := { (loaded.modHost 0 fun h => { h with exports := [{ part := 0, addr := 256, len := 256, data := 4096, rec_ := 8192 }] }) with badLine := [(1, 1)] };
      let j : ExportJob := { part := 0, addr := 256, len := 256, data := 4096, rec_ := 8192 }; let h : Nat := 0; let l : List ExportJob := [];
      ((s.host h).exports = j :: l) ∧ (s.samePlace 0 0 0 j.addr j.len = none) ∧ (s.hbmBad j.addr j.len = true) ∧ (j.tried = false) ∧
      (s.recoveries = [])) ∧
    (let s : State := { (loaded.modHost 0 fun h => { h with exports := [{ part := 0, addr := 256, len := 256, data := 4096, rec_ := 8192, tried := true }] }) with badLine := [(1, 1)] };
      let j : ExportJob := { part := 0, addr := 256, len := 256, data := 4096, rec_ := 8192, tried := true }; let h : Nat := 0;
      let l : List ExportJob := []; ((s.host h).exports = j :: l) ∧ (s.samePlace 0 0 0 j.addr j.len = none) ∧ (s.hbmBad j.addr j.len = true) ∧
      (j.tried = true)) := by decide +kernel

/-- States and operands that meet the hypotheses of ExportsRun, clause by clause. -/
theorem wit_ExportsRun4 :
    (let s : State := loaded; let h : Nat := 0; ((s.host h).exports = [])) := by decide +kernel

/-- States and operands that meet the hypotheses of PartitionsManaged, clause by clause. -/
theorem wit_PartitionsManaged :
    (let s : State := served 1; let i : Nat := 0; let k : Nat := 0; (s.mailboxPart i k) ∧ (s.maintConflict 7 k = none) ∧ (s.ticketRoom i) ∧
      ((s.part k).loading = none)) ∧
    (let s : State := (served 1).modPart 0 fun p => { p with running := true }; let i : Nat := 0; let k : Nat := 0; let c : Nat := 0;
      (s.mailboxPart i k) ∧ (s.maintConflict 7 k = some c)) ∧
    (let s : State := (served 1).setPstate 0 3; let i : Nat := 0; let k : Nat := 0; (s.mailboxPart i k) ∧
      (s.pstate k = 3 ∨ s.pstate k = 4 ∨ (s.part k).clearAfter = true ∨ s.fld (rZenXts k) 63 63 = 1)) := by decide +kernel

/-- States and operands that meet the hypotheses of PartitionsManaged, clause by clause. -/
theorem wit_PartitionsManaged2 :
    (let s : State := (served 1).setReg (rZenPart 0) 0xC23FF00000000000; let i : Nat := 0; let k : Nat := 0; (s.mailboxPart i k) ∧ (s.pstate k ≠ 3) ∧
      (s.pstate k ≠ 4) ∧ ((s.part k).clearAfter = false) ∧ (s.fld (rZenXts k) 63 63 = 0) ∧ (s.conf k = true) ∧ (s.maintConflict 6 k = none) ∧
      (s.ticketRoom i)) := by decide +kernel

/-- States and operands that meet the hypotheses of PartitionsManaged, clause by clause. -/
theorem wit_PartitionsManaged3 :
    (let s : State := served 1; let i : Nat := 0; let k : Nat := 0; (s.RegsOk) ∧ (s.mailboxPart i k) ∧ (s.pstate k ≠ 3) ∧ (s.pstate k ≠ 4) ∧
      ((s.part k).dumpState ≠ 1) ∧ ((s.part k).resetWait = false) ∧ ((s.part k).loading = none) ∧ (s.reads = []) ∧
      (s.conf k = false)) := by decide +kernel

/-- States and operands that meet the hypotheses of PartitionsManaged, clause by clause. -/
theorem wit_PartitionsManaged4 :
    (let s : State := (served 2).setPstate 0 0; let shape : Nat := 1;
      let ps : List PartCfg := [{ links := 3 }, {}, { owner := 1, links := 12, confidential := true }]; let i : Nat := 0; (s.mailboxOpen i 2) ∧
      (shape ≤ 3) ∧ ((∀ p ∈ shapeParts shape, (ps.getD p.1 {}).owner ≤ 1 ∧ (ps.getD p.1 {}).links < 64)) ∧
      ((∀ p ∈ shapeParts shape, ∀ q ∈ shapeParts shape, p.1 < q.1 → Nat.land (ps.getD p.1 {}).links (ps.getD q.1 {}).links = 0)) ∧
      (s.zen.unlocked = false) ∧ (s.maint = []) ∧ (s.ticketRoom i) ∧ ((∀ k, k < 4 → s.pstate k = 0 ∧ (s.part k).loading = none ∧
      (s.part k).clearAfter = false ∧ s.stepping k = false))) := by decide +kernel

/-- States and operands that meet the hypotheses of ModuleManaged, clause by clause. -/
theorem wit_ModuleManaged :
    (let s : State := served 2; let n : Nat := 1; let i : Nat := 0; (s.mailboxOpen i 2) ∧ (n ≤ 3) ∧ (s.pwrState < 4) ∧ (s.pwr.changing = none) ∧
      (s.maint = []) ∧ (s.ticketRoom i) ∧ ((∀ k, k < 4 → s.stepping k = false ∧ s.pstate k ≠ 3 ∧ s.pstate k ≠ 4)) ∧
      ((n = 3 → ∀ k, k < 4 → s.pstate k = 0 ∧ (s.part k).loading = none))) := by decide +kernel

/-- States and operands that meet the hypotheses of ModuleManaged, clause by clause. -/
theorem wit_ModuleManaged2 :
    (let s : State := served 2; let m : List Nat := [1]; let i : Nat := 0; (s.mailboxOpen i 2) ∧ (mapOk m = false)) ∧
    (let s : State := served 2; let m : List Nat := [1, 1, 1] ++ List.replicate 61 0 ++ List.replicate 64 0 ++ [0, 63] ++ List.replicate 6 0;
      let i : Nat := 0; (s.mailboxOpen i 2) ∧ (mapOk m = true) ∧ (s.ticketRoom i)) ∧
    (let s : State := served 2; let i : Nat := 0; (s.mailboxOpen i 2) ∧ (s.ticketRoom i)) ∧
    (let s : State := served 2; let i : Nat := 0; (s.mailboxOpen i 2) ∧ (s.ticketRoom i)) := by decide +kernel

/-- States and operands that meet the hypotheses of ModuleManaged, clause by clause. -/
theorem wit_ModuleManaged3 :
    (let s : State := served 2; let i : Nat := 0; (s.mailboxOpen i 2) ∧ (s.ticketRoom i)) ∧
    (let s : State := served 2; let n : Nat := 3; let i : Nat := 0; (s.mailboxOpen i 2) ∧ (s.zen.fuseSvn ≤ n) ∧ (n < 2 ^ 16)) ∧
    (let s : State := { served 2 with zen := { (served 2).zen with fuseSvn := 5 } }; let n : Nat := 3; let i : Nat := 0; (s.mailboxOpen i 2) ∧
      (n < s.zen.fuseSvn ∨ 2 ^ 16 ≤ n)) := by decide +kernel

/-- States and operands that meet the hypotheses of SecretsManaged, clause by clause. -/
theorem wit_SecretsManaged :
    (let s : State := served 2; let i : Nat := 0; (s.mailboxOpen i 2) ∧ (s.ticketRoom i) ∧ (s.evq.length < 1024)) ∧
    (let s : State := served 2; let i : Nat := 0; (s.mailboxOpen i 2) ∧ (s.anyConf = false) ∧ (s.evq.length < 1024)) ∧
    (let s : State := served 2; let i : Nat := 0; (s.mailboxOpen i 2) ∧ (s.ticketRoom i)) := by decide +kernel

/-- States and operands that meet the hypotheses of SecretsManaged, clause by clause. -/
theorem wit_SecretsManaged2 :
    (let s : State := ((served 2).setFld rPwrStatus 63 61 5); let i : Nat := 0; (s.pwr.held = false) ∧ (i ≤ 2) ∧ (s.zen.booted = true) ∧
      (s.zen.booting = false) ∧ (s.pwrState = 5) ∧ (s.ticketRoom i)) := by decide +kernel

/-- States and operands that meet the hypotheses of Attestation (AttestationAnswers), clause by clause. -/
theorem wit_AttestationAnswers :
    (let s : State := attested 0; let h : Nat := 0; (s.attests h 0)) ∧
    (let s : State := attested 0; let h : Nat := 0; (s.attests h 0)) ∧
    (let s : State := attested 0; let h : Nat := 0; let l : List Nat := [2, 9]; (s.attests h 0) ∧
      (l.filter (fun n => decide (1 ≤ n) && decide (n ≤ 4)) ≠ [])) ∧
    (let s : State := attested 0; let h : Nat := 0; let l : List Nat := [9]; (s.attests h 0) ∧
      (l.filter (fun n => decide (1 ≤ n) && decide (n ≤ 4)) = [])) ∧
    (let s : State := attested 0; let h : Nat := 0; let x : Nat := 3; (s.attests h 0) ∧ (x ≠ 0)) ∧
    (let s : State := attested 0; let h : Nat := 0; (s.attests h 0)) := by decide +kernel

/-- States and operands that meet the hypotheses of Attestation (AttestationAnswers), clause by clause. -/
theorem wit_AttestationAnswers2 :
    (let s : State := attested 0; let h : Nat := 0; (s.attests h 0)) ∧
    (let s : State := attested 0; let h : Nat := 0; (s.attests h 0)) ∧
    (let s : State := attested 0; let h : Nat := 0; (s.attests h 0)) ∧
    (let s : State := attested 0; let h : Nat := 0; (s.attests h 0)) ∧
    (let s : State := attested 0; let h : Nat := 0; let x : Nat := 200; (s.attests h 0) ∧ (x ≠ 0) ∧ (x ≠ 255) ∧
      (s.measurement x = none)) := by decide +kernel

/-- States and operands that meet the hypotheses of Attestation (AttestationAnswers), clause by clause. -/
theorem wit_AttestationAnswers3 :
    (let s : State := attested 0; let h : Nat := 0; (s.attests h 0) ∧ ((s.host h).spdm = 0)) := by decide +kernel

/-- States and operands that meet the hypotheses of Attestation (AttestationAnswers), clause by clause. -/
theorem wit_AttestationAnswers_a :
    (let s : State := attested 0; let h : Nat := 0; let x : Nat := 2; let m : List Nat := (s.measurement 2).getD []; (s.attests h 0) ∧ (x ≠ 0) ∧
      (x ≠ 255) ∧ (s.measurement x = some m)) :=
  ⟨by decide +kernel, by decide, by decide, some_of (by decide +kernel)⟩

/-- States and operands that meet the hypotheses of Attestation (SessionsRun), clause by clause. -/
theorem wit_SessionsRun :
    (let s : State := attested 3; let h : Nat := 0; (s.attests h 3) ∧ (s.fld rZenRole (8 + h) (8 + h) = 0)) ∧
    (let s : State := attested 4; let h : Nat := 0; (s.attests h 4)) ∧
    (let s : State := attested 5; let h : Nat := 0; (s.attests h 5)) ∧
    (let s : State := attested 5; let h : Nat := 0; (s.attests h 5)) ∧
    (let s : State := attested 5; let h : Nat := 0; (s.attests h 5)) ∧
    (let s : State := attested 5; let h : Nat := 0; (s.attests h 5)) ∧
    (let s : State := (attested 5).modHost 0 fun h => { h with ideKeys := some 3 }; let h : Nat := 0; (s.attests h 5) ∧
      ((s.host h).ideKeys ≠ none)) := by decide +kernel

/-- States and operands that meet the hypotheses of Attestation (SessionsRun), clause by clause. -/
theorem wit_SessionsRun2 :
    (let s : State := attested 5; let h : Nat := 0; (s.attests h 5) ∧ ((s.host h).ideKeys = none)) ∧
    (let s : State := (attested 5).setFld rZenRole 8 8 1; let h : Nat := 0; (s.attests h 5) ∧ ((∀ k, k < 4 → s.conf k = true → s.owner k ≠ h)) ∧
      (s.ideSecure h = true)) := by decide +kernel

/-- States and operands that meet the hypotheses of SideBands (TapAnswers), clause by clause. -/
theorem wit_TapAnswers :
    (let s : State := { loaded with zen := { loaded.zen with unlocked := true } }; (s.tapOpen = true)) ∧
    (let s : State := { loaded with zen := { loaded.zen with unlocked := true } }; (s.tapOpen = true)) ∧
    (let s : State := { loaded with zen := { loaded.zen with unlocked := true }, pwr := { loaded.pwr with held := true } }; let n : Nat := 8;
      let w : Nat := 8; (s.tapOpen = true) ∧ ((s.tapIr 4).readReg 0 n w = (none, s.tapIr 4))) ∧
    (let s : State := { loaded with zen := { loaded.zen with unlocked := true } }; (s.tapOpen = true)) ∧
    (let s : State := { loaded with zen := { loaded.zen with unlocked := true } }; let n : Nat := 0; let w : Nat := 8;
      let b : List Nat := ((s.tapIr 4).readReg 0 0 8).1.getD []; let u : State := ((s.tapIr 4).readReg 0 0 8).2; (s.tapOpen = true) ∧
      ((s.tapIr 4).readReg 0 n w = (some b, u))) ∧
    (let s : State := loaded; (s.tapOpen = false)) := by decide +kernel

/-- States and operands that meet the hypotheses of SideBands (SideBandAnswers), clause by clause. -/
theorem wit_SideBandAnswers :
    (let s : State := loaded; let n : Nat := 9; (s.pwr.held = false) ∧ (0 < n) ∧ (n < 255)) ∧
    (let s : State := loaded; let n : Nat := 0; (s.pwr.held = false) ∧ (n = 0 ∨ 255 ≤ n)) ∧
    (let s : State := loaded; (s.pwr.held = false)) ∧
    (let s : State := loaded; (s.pwr.held = false)) ∧
    (let s : State := loaded; (s.pwr.held = false)) ∧
    (let s : State := loaded; (s.pwr.held = false)) := by decide +kernel

/-- States and operands that meet the hypotheses of SideBands (SideBandAnswers), clause by clause. -/
theorem wit_SideBandAnswers2 :
    (let s : State := loaded; (s.pwr.held = false)) ∧
    (let s : State := loaded; let n : Nat := 2; let v : Nat := s.pwrState; (s.pwr.held = false) ∧ (s.sensor n = some v)) ∧
    (let s : State := loaded; let n : Nat := 999; (s.pwr.held = false) ∧ (s.sensor n = none)) ∧
    (let s : State := loaded; (s.pwr.held = false) ∧ (s.roleOf 2 < 2 ∨ s.zen.booted = false ∨ s.zen.booting = true)) := by decide +kernel

/-- States and operands that meet the hypotheses of SideBands (SideBandAnswers), clause by clause. -/
theorem wit_SideBandAnswers3 :
    (let s : State := { served 0 with zen := { (served 0).zen with slotB := [] } }.setFld rZenRole 5 4 2; (s.pwr.held = false) ∧ (2 ≤ s.roleOf 2) ∧
      (s.zen.booted = true) ∧ (s.zen.booting = false)) ∧
    (let s : State := loaded; let b : List Nat := []; (s.pwr.held = false) ∧ (b.length ≤ 16384) ∧ (s.fld (rZenMbStatus + mbOfs 2) 63 63 = 0)) ∧
    (let s : State := { loaded with pwr := { loaded.pwr with held := true } }; (s.pwr.held = true)) := by decide +kernel

/-- States and operands that meet the hypotheses of SideBands (SideBandAnswers), clause by clause. -/
theorem wit_SideBandAnswers4 :
    (let s : State := loaded; (s.pwr.held = false) ∧ (s.fld (rZenMbStatus + mbOfs 2) 63 63 = 0)) := by decide +kernel

/-- States and operands that meet the hypotheses of WritesRefused, clause by clause. -/
theorem wit_WritesRefused :
    (let s : State := { loaded with pwr := { loaded.pwr with held := true } }; let h : Nat := 0; (h < 2) ∧
      (s.pwr.held = true ∨ (s.host h).d3 = true)) ∧
    (let s : State := loaded.setFld rPwrStatus 63 61 5; let a : Nat := 0x200000; let h : Nat := 0; (h < 2) ∧ (s.pwrState = 5) ∧
      (overcastOpen a = false)) := by decide +kernel

/-- States and operands that meet the hypotheses of WritesRefused, clause by clause. -/
theorem wit_WritesRefused2 :
    (let s : State := loaded; let size : Nat := 4; let h : Nat := 0; let a : Nat := 0; (h < 2) ∧ (s.pwr.held = false) ∧ ((s.host h).d3 = false) ∧
      (s.pwrState ≠ 5) ∧ (size ≠ 8) ∧ (a < 0xF0000)) := by decide +kernel

/-- States and operands that meet the hypotheses of WritesRefused, clause by clause. -/
theorem wit_WritesRefused3 :
    (let s : State := State.reset; let a : Nat := 0x200000; let size : Nat := 8; let h : Nat := 0; (h < 2) ∧ (s.pwr.held = false) ∧
      ((s.host h).d3 = false) ∧ (s.pwrState ≠ 5) ∧ (size = 8) ∧ (a % 8 = 0) ∧ (0x200000 ≤ a) ∧ (a < 0x600000) ∧
      ((s.partOf ((a - 0x200000) / 0x100000)).all (fun k => s.owner k != h || (s.conf k && (s.host h).ideLeft)) = true)) := by decide +kernel

/-- States and operands that meet the hypotheses of WritesRefused, clause by clause. -/
theorem wit_WritesRefused4 :
    (let s : State := loaded.setPstate 0 3; let size : Nat := 8; let a : Nat := 0x200000; let h : Nat := 0; let k : Nat := 0; (h < 2) ∧
      (s.pwr.held = false) ∧ ((s.host h).d3 = false) ∧ (s.pwrState ≠ 5) ∧ (size = 8) ∧ (a % 8 = 0) ∧ (0x200000 ≤ a) ∧ (a < 0x600000) ∧
      (s.partOf ((a - 0x200000) / 0x100000) = some k) ∧ (s.owner k = h) ∧ (s.conf k = false) ∧ (s.pstate k = 3 ∨ s.pstate k = 4)) := by decide +kernel

/-- States and operands that meet the hypotheses of RegistersWritten, clause by clause. -/
theorem wit_RegistersWritten :
    (let s : State := loaded.setReg (rZenPart 0) 0xC23FF00000000000; let a : Nat := 0x20A010;
      let r : RegRow := (rowOf 0x20A010).get (by decide +kernel); let h : Nat := 0; (s.gate h a 8 true = .served) ∧ (rowOf a = some r) ∧
      (0x200000 ≤ a) ∧ (a < 0x600000) ∧ (s.deaf a = true ∨ s.ringCopy a = true)) := by decide +kernel

/-- States and operands that meet the hypotheses of RegistersWritten, clause by clause. -/
theorem wit_RegistersWritten2 :
    (let s : State := loaded.setFld (rHifCrCtrl 0) 63 63 1; let a : Nat := 0x203008; let r : RegRow := (rowOf 0x203008).get (by decide +kernel);
      let h : Nat := 0; (s.gate h a 8 true = .served) ∧ (rowOf a = some r) ∧ (0x200000 ≤ a) ∧ (a < 0x600000) ∧ (s.deaf a = false) ∧
      (s.ringCopy a = false) ∧ ((a % 0x100000 = 0x3008 ∨ a % 0x100000 = 0x3010)) ∧
      (s.fld (rHifCrCtrl ((a - 0x200000) / 0x100000)) 63 63 = 1)) := by decide +kernel

/-- States and operands that meet the hypotheses of RegistersWritten, clause by clause. -/
theorem wit_RegistersWritten3 :
    (let s : State := loaded; let a : Nat := 0x20A010; let r : RegRow := (rowOf 0x20A010).get (by decide +kernel); let h : Nat := 0;
      (s.gate h a 8 true = .served) ∧ (rowOf a = some r) ∧ (0x200000 ≤ a) ∧ (a < 0x600000) ∧ (s.deaf a = false) ∧
      (s.captured (s.regKey h a) = false) ∧ (a % 0x100000 = 0xA010)) := by decide +kernel

/-- States and operands that meet the hypotheses of RegistersWritten, clause by clause. -/
theorem wit_RegistersWritten4 :
    (let s : State := loaded; let v : Word := 0x8000000000000000; let a : Nat := 0x208008; let r : RegRow := (rowOf 0x208008).get (by decide +kernel);
      let h : Nat := 0; (s.gate h a 8 true = .served) ∧ (rowOf a = some r) ∧ (0x200000 ≤ a) ∧ (a < 0x600000) ∧ (s.deaf a = false) ∧
      (s.captured (s.regKey h a) = false) ∧ (a % 0x100000 = 0x8008) ∧ (getF v 63 63 = 1)) := by decide +kernel

/-- States and operands that meet the hypotheses of RegistersWritten, clause by clause. -/
theorem wit_RegistersWritten5 :
    (let s : State := loaded; let a : Nat := 0x20F018; let r : RegRow := (rowOf 0x20F018).get (by decide +kernel); let h : Nat := 0;
      (s.gate h a 8 true = .served) ∧ (rowOf a = some r) ∧ (0x200000 ≤ a) ∧ (a < 0x600000) ∧ (s.deaf a = false) ∧
      (s.captured (s.regKey h a) = false) ∧ (¬(0x3000 ≤ a % 0x100000 ∧ a % 0x100000 < 0x3040)) ∧ (¬(0xC000 ≤ a % 0x100000 ∧ a % 0x100000 < 0xC600)) ∧
      (¬(0x9000 ≤ a % 0x100000 ∧ a % 0x100000 < 0x9400)) ∧ (¬(0xB100 ≤ a % 0x100000 ∧ a % 0x100000 < 0xB900)) ∧
      (a % 0x100000 ∉ [0x8048, 0xA010, 0x8008, 0x7018])) := by decide +kernel

/-- States and operands that meet the hypotheses of RegistersWritten, clause by clause. -/
theorem wit_RegistersWritten6 :
    (let s : State := loaded; let k : Nat := 3; let n : Nat := 63; let h : Nat := 0; (k < 4) ∧ (n < 64) ∧
      (s.gate h (rStrPsArm k n) 8 true = .served) ∧ (s.captured (rStrPsArm k n) = false)) ∧
    (let s : State := loaded.setFld (rStrPsArm 3 63) 63 63 1; let k : Nat := 3; let n : Nat := 63; let d : Bool := true; let h : Nat := 0; (k < 4) ∧
      (n < 64) ∧ (s.gate h (if d then rStrPsDst k n else rStrPsSrc k n) 8 true = .served) ∧ (s.fld (rStrPsArm k n) 63 63 = 1)) := by decide +kernel

/-- States and operands that meet the hypotheses of RegistersWritten, clause by clause. -/
theorem wit_RegistersWritten7 :
    (let s : State := loaded; let k : Nat := 3; let n : Nat := 63; let d : Bool := true; let h : Nat := 0; (k < 4) ∧ (n < 64) ∧
      (s.gate h (if d then rStrPsDst k n else rStrPsSrc k n) 8 true = .served) ∧ (s.fld (rStrPsArm k n) 63 63 = 0)) ∧
    (let s : State := loaded.setFld (rUpdFreezeAddr 3) 14 0 16384; let k : Nat := 3; let h : Nat := 0; (k < 4) ∧
      (s.gate h (rUpdFreezeData k) 8 true = .served) ∧ ((∀ e ∈ (s.core k).freezePend, e.1 = (s.freezePlace k).1 → e.2.2 = true)) ∧
      (s.heldEnds (s.freezePlace k).2 8 = (0, 0))) := by decide +kernel

/-- States and operands that meet the hypotheses of RegistersWritten, clause by clause. -/
theorem wit_RegistersWritten8 :
    (let s : State := loaded; let k : Nat := 3; let n : Nat := 2; let o : Nat := 8;
      let r : RegRow := (rowOf (rSchCtrl 3 2 + 8)).get (by decide +kernel); let h : Nat := 0; (k < 4) ∧ (n < 4) ∧ (o < 0x80) ∧
      (s.gate h (rSchCtrl k n + o) 8 true = .served) ∧ (rowOf (rSchCtrl k n + o) = some r)) ∧
    (let s : State := loaded; let h : Nat := 0; (s.gate h rHifBar2Base 8 true = .served)) := by decide +kernel

/-- States and operands that meet the hypotheses of RegistersWritten (ControlsWritten), clause by clause. -/
theorem wit_ControlsWritten :
    (let s : State := { loaded with maint := [{ act := 5, scope := 1 }] }; let p : Nat := 1; let c := 5; let h : Nat := 0; (p < 6) ∧
      (s.gate h (rLnkCtrl p) 8 true = .served) ∧ (s.maintConflict 5 p = some c)) ∧
    (let s : State := loaded; let p : Nat := 1; let h : Nat := 0; (p < 6) ∧ (s.gate h (rLnkCtrl p) 8 true = .served) ∧ (s.maintConflict 5 p = none)) ∧
    (let s : State := linked; let p : Nat := 1; let h : Nat := 0; let v : Word := 0#64; (p < 6) ∧ (s.gate h (rLnkCtrl p) 8 true = .served) ∧
      (getF v 0 0 = 0)) := by decide +kernel

/-- States and operands that meet the hypotheses of RegistersWritten (ControlsWritten), clause by clause. -/
theorem wit_ControlsWritten2 :
    (let s : State := (((placed.setFld rPwrStatus 63 61 0).setFld rPwrStatus 60 57 7).setFld (rLnkStatus 1) 63 61 0).setFld (rLnkCtrl 1) 0 0 0;
      let p : Nat := 1; let v : Word := 1; let h : Nat := 0; (p < 6) ∧ (s.gate h (rLnkCtrl p) 8 true = .served) ∧ (getF v 0 0 = 1) ∧
      (s.fld (rLnkCtrl p) 0 0 = 0) ∧ (s.linkState p = 0) ∧ (s.connected p = true) ∧ (s.startPh ≠ 0) ∧
      ((s.pwrState < 3 ∨ s.pwrState = 6))) := by decide +kernel

/-- States and operands that meet the hypotheses of RegistersWritten (ControlsWritten), clause by clause. -/
theorem wit_ControlsWritten3 :
    (let s : State := linked.setFld (rLnkCtrl 1) 0 0 1; let p : Nat := 1; let v : Word := 1; let h : Nat := 0; (p < 6) ∧
      (s.gate h (rLnkCtrl p) 8 true = .served) ∧ (getF v 0 0 = 1) ∧ (s.fld (rLnkCtrl p) 0 0 = 1)) ∧
    (let s : State := { loaded with dumps := [(2, { valid := true })] }; let v : Word := 0x8000000000000002; let h : Nat := 0;
      (s.gate h rDbgDumpSel 8 true = .served) ∧ (getF v 63 63 = 1) ∧ ((SMap.get s.dumps (getF v 3 0)).valid = true) ∧
      ((SMap.get s.dumps (getF v 3 0)).owner = h)) := by decide +kernel

/-- States and operands that meet the hypotheses of RegistersWritten (ControlsWritten), clause by clause. -/
theorem wit_ControlsWritten4 :
    (let s : State := loaded; let v : Word := 2; let h : Nat := 0; (s.gate h rDbgDumpSel 8 true = .served) ∧
      (getF v 63 63 = 0 ∨ (SMap.get s.dumps (getF v 3 0)).owner ≠ h)) ∧
    (let s : State := loaded; let v : Word := 0x4000000000000001; let h : Nat := 0; (s.gate h rDbgTraceCtrl 8 true = .served) ∧ (getF v 63 63 = 0)) ∧
    (let s : State := loaded.setReg (rZenPart 0) 0xC23FF00000000000; let v : Word := 0x8000000000000001; let h : Nat := 0;
      (s.gate h rDbgTraceCtrl 8 true = .served) ∧ (getF v 63 63 = 1) ∧ (s.anyConf = true)) := by decide +kernel

/-- States and operands that meet the hypotheses of RegistersWritten (ControlsWritten), clause by clause. -/
theorem wit_ControlsWritten5 :
    (let s : State := loaded; let v : Word := 0x8000000000000001; let h : Nat := 0; (s.gate h rDbgTraceCtrl 8 true = .served) ∧ (getF v 63 63 = 1) ∧
      (s.anyConf = false)) := by decide +kernel

/-- States and operands that meet the hypotheses of DeviceMemoryAccessed, clause by clause. -/
theorem wit_DeviceMemoryAccessed :
    (let s : State := loaded; let off : Nat := 4096; let b : List Nat := [1, 2]; let h : Nat := 0; (h < 2) ∧ (s.pwr.held = false) ∧
      ((s.host h).d3 = false) ∧ (s.pwrState ≠ 5) ∧ (b ≠ []) ∧ (s.bar2Class h (s.bar2Addr h off) = .plain) ∧ (s.stackHeld (s.bar2Addr h off) = false) ∧
      (s.bar2Addr h off % 2 ^ 36 + b.length ≤ 0xFB8000000) ∧ (s.hbmBad (s.bar2Addr h off) b.length = false)) := by decide +kernel

/-- States and operands that meet the hypotheses of DeviceMemoryAccessed, clause by clause. -/
theorem wit_DeviceMemoryAccessed2 :
    (let s : State := { loaded with badLine := [(16, 1)] }; let off : Nat := 4096; let b : List Nat := [1, 2]; let h : Nat := 0; (h < 2) ∧
      (s.pwr.held = false) ∧ ((s.host h).d3 = false) ∧ (s.pwrState ≠ 5) ∧ (b ≠ []) ∧ (s.bar2Class h (s.bar2Addr h off) = .plain) ∧
      (s.stackHeld (s.bar2Addr h off) = false) ∧ (s.bar2Addr h off % 2 ^ 36 + b.length ≤ 0xFB8000000) ∧
      (s.hbmBad (s.bar2Addr h off) b.length = true) ∧ (s.recoveries = [])) := by decide +kernel

/-- States and operands that meet the hypotheses of DeviceMemoryAccessed, clause by clause. -/
theorem wit_DeviceMemoryAccessed3 :
    (let s : State := loaded; let off : Nat := 4096; let b : List Nat := [1, 2]; let h : Nat := 0; (h < 2) ∧ (s.pwr.held = false) ∧
      ((s.host h).d3 = false) ∧ (s.pwrState ≠ 5) ∧ (b ≠ []) ∧
      (s.bar2Class h (s.bar2Addr h off) = .plain ∨ (s.bar2Class h (s.bar2Addr h off) = .conf ∧ s.ideSecure h = true)) ∧
      (s.stackHeld (s.bar2Addr h off) = false) ∧ (s.bar2Addr h off % 2 ^ 36 + b.length ≤ 0xFB8000000) ∧
      (s.partBad (s.bar2Addr h off) b.length = none)) := by decide +kernel

/-- States and operands that meet the hypotheses of DeviceMemoryAccessed, clause by clause. -/
theorem wit_DeviceMemoryAccessed4 :
    (let s : State := { loaded with maint := [{ act := 4, scope := 0 }] }; let off : Nat := 4096; let b : List Nat := [1, 2]; let h : Nat := 0;
      (h < 2) ∧ (s.pwr.held = false) ∧ ((s.host h).d3 = false) ∧ (s.pwrState ≠ 5) ∧ (b ≠ []) ∧ (s.bar2Class h (s.bar2Addr h off) = .plain) ∧
      (s.stackHeld (s.bar2Addr h off) = true)) := by decide +kernel

/-- States and operands that meet the hypotheses of DeviceMemoryAccessed, clause by clause. -/
theorem wit_DeviceMemoryAccessed5 :
    (let s : State := { loaded with maint := [{ act := 4, scope := 0 }] }; let off : Nat := 4096; let b : List Nat := [1, 2]; let h : Nat := 0;
      (h < 2) ∧ (s.pwr.held = false) ∧ ((s.host h).d3 = false) ∧ (s.pwrState ≠ 5) ∧ (b ≠ []) ∧ (s.bar2Class h (s.bar2Addr h off) = .plain) ∧
      (s.stackHeld (s.bar2Addr h off) = true)) := by decide +kernel

/-- States and operands that meet the hypotheses of DeviceMemoryAccessed, clause by clause. -/
theorem wit_DeviceMemoryAccessed6 :
    (let s : State := loaded.setReg (rZenPart 0) 0xC23FF00000000000; let off : Nat := 4096; let b : List Nat := [1, 2]; let h : Nat := 0; (h < 2) ∧
      (s.pwr.held = false) ∧ ((s.host h).d3 = false) ∧ (s.pwrState ≠ 5) ∧ (b ≠ []) ∧ (s.bar2Class h (s.bar2Addr h off) = .conf)) := by decide +kernel

/-- States and operands that meet the hypotheses of DeviceMemoryAccessed, clause by clause. -/
theorem wit_DeviceMemoryAccessed7 :
    (let s : State := loaded.setReg (rZenPart 0) 0xC23FF00000000000; let off : Nat := 4096; let b : List Nat := [1, 2]; let h : Nat := 0; (h < 2) ∧
      (s.pwr.held = false) ∧ ((s.host h).d3 = false) ∧ (s.pwrState ≠ 5) ∧ (b ≠ []) ∧ (s.bar2Class h (s.bar2Addr h off) = .conf) ∧
      (s.ideSecure h = false)) := by decide +kernel

/-- States and operands that meet the hypotheses of DeviceMemoryAccessed, clause by clause. -/
theorem wit_DeviceMemoryAccessed8 :
    (let s : State := loaded; let h : Nat := 1; let off : Nat := 4096; let b : List Nat := [1, 2]; (h < 2) ∧ (s.pwr.held = false) ∧
      ((s.host h).d3 = false) ∧ (s.pwrState ≠ 5) ∧ (b ≠ []) ∧ (s.bar2Class h (s.bar2Addr h off) = .foreign)) := by decide +kernel

/-- States and operands that meet the hypotheses of DeviceMemoryAccessed, clause by clause. -/
theorem wit_DeviceMemoryAccessed9 :
    (let s : State := loaded; let h : Nat := 1; let off : Nat := 4096; let b : List Nat := [1, 2]; (h < 2) ∧ (s.pwr.held = false) ∧
      ((s.host h).d3 = false) ∧ (s.pwrState ≠ 5) ∧ (b ≠ []) ∧ (s.bar2Class h (s.bar2Addr h off) = .foreign)) := by decide +kernel

/-- States and operands that meet the hypotheses of DeviceMemoryAccessed, clause by clause. -/
theorem wit_DeviceMemoryAccessed10 :
    (let s : State := loaded.setReg rHifBar2Base 0xFB8000000; let b : List Nat := [1]; let h : Nat := 0; let off : Nat := 0; (h < 2) ∧
      (s.pwr.held = false) ∧ ((s.host h).d3 = false) ∧ (s.pwrState ≠ 5) ∧ (b ≠ []) ∧
      (s.bar2Class h (s.bar2Addr h off) = .clearing ∨ s.bar2Class h (s.bar2Addr h off) = .reserved)) := by decide +kernel

/-- States and operands that meet the hypotheses of DeviceMemoryAccessed, clause by clause. -/
theorem wit_DeviceMemoryAccessed11 :
    (let s : State := loaded.setPstate 0 3; let off : Nat := 4096; let b : List Nat := [1, 2]; let h : Nat := 0; (h < 2) ∧ (s.pwr.held = false) ∧
      ((s.host h).d3 = false) ∧ (s.pwrState ≠ 5) ∧ (b ≠ []) ∧ (s.bar2Class h (s.bar2Addr h off) = .clearing)) := by decide +kernel

/-- States and operands that meet the hypotheses of DeviceMemoryAccessed, clause by clause. -/
theorem wit_DeviceMemoryAccessed12 :
    (let s : State := loaded.setReg rHifBar2Base 0xFB8000000; let b : List Nat := [1]; let h : Nat := 0; let off : Nat := 0; (h < 2) ∧
      (s.pwr.held = false) ∧ ((s.host h).d3 = false) ∧ (s.pwrState ≠ 5) ∧ (b ≠ []) ∧ (s.bar2Class h (s.bar2Addr h off) = .reserved)) ∧
    (let s : State := { loaded with pwr := { loaded.pwr with held := true } }; let h : Nat := 0; (s.pwr.held = true ∨ (s.host h).d3 = true)) ∧
    (let s : State := { loaded with pwr := { loaded.pwr with held := true } }; let h : Nat := 0;
      (s.pwr.held = true ∨ (s.host h).d3 = true)) := by decide +kernel

/-- States and operands that meet the hypotheses of DeviceMemoryAccessed, clause by clause. -/
theorem wit_DeviceMemoryAccessed13 :
    (let s : State := loaded.setFld rPwrStatus 63 61 5; let n : Nat := 2; let h : Nat := 0; (s.pwr.held = false) ∧ ((s.host h).d3 = false) ∧
      (s.pwrState = 5) ∧ (n ≠ 0)) ∧
    (let s : State := loaded.setFld rPwrStatus 63 61 5; let n : Nat := 2; let h : Nat := 0; (s.pwr.held = false) ∧ ((s.host h).d3 = false) ∧
      (s.pwrState = 5) ∧ (n ≠ 0)) := by decide +kernel

/-- States and operands that meet the hypotheses of TestWindowsRun, clause by clause. -/
theorem wit_TestWindowsRun :
    (let s : State := loaded; let st : Nat := 6; let h : Nat := 0; (st < 8) ∧ (s.pwr.held = false) ∧ ((s.host h).d3 = false) ∧ (s.pwrState ≠ 5) ∧
      ((∀ w, s.partGate h w (s.stackPart st) = .served)) ∧ (s.testGranted st = false)) := by decide +kernel

/-- States and operands that meet the hypotheses of TestWindowsRun, clause by clause. -/
theorem wit_TestWindowsRun2 :
    (let s : State := loaded; let st : Nat := 6; let h : Nat := 0; (st < 8) ∧ (s.pwr.held = false) ∧ ((s.host h).d3 = false) ∧ (s.pwrState ≠ 5) ∧
      ((∀ w, s.partGate h w (s.stackPart st) = .served)) ∧ (s.testGranted st = false)) := by decide +kernel

/-- States and operands that meet the hypotheses of TestWindowsRun, clause by clause. -/
theorem wit_TestWindowsRun3 :
    (let s : State := { loaded with maint := [{ act := 3, scope := 6 }] }; let st : Nat := 6; let off : Nat := 512;
      let b : List Nat := List.replicate 256 5; let h : Nat := 0; (st < 8) ∧ (s.pwr.held = false) ∧ ((s.host h).d3 = false) ∧ (s.pwrState ≠ 5) ∧
      ((∀ w, s.partGate h w (s.stackPart st) = .served)) ∧ (s.testGranted st = true) ∧ (off % 256 = 0) ∧ (b.length = 256) ∧
      (s.fld (rMemTestCtrl st) 8 8 = 0)) := by decide +kernel

/-- States and operands that meet the hypotheses of TestWindowsRun, clause by clause. -/
theorem wit_TestWindowsRun4 :
    (let s : State := { loaded with maint := [{ act := 3, scope := 6 }] }; let st : Nat := 6; let off : Nat := 5;
      let b : List Nat := List.replicate 256 5; let h : Nat := 0; (st < 8) ∧ (s.pwr.held = false) ∧ ((s.host h).d3 = false) ∧ (s.pwrState ≠ 5) ∧
      ((∀ w, s.partGate h w (s.stackPart st) = .served)) ∧ (s.testGranted st = true) ∧ (off % 256 ≠ 0 ∨ b.length ≠ 256)) := by decide +kernel

/-- States and operands that meet the hypotheses of TestWindowsRun, clause by clause. -/
theorem wit_TestWindowsRun5 :
    (let s : State := { loaded.setReg (rMemTestCtrl 6) 0x103 with maint := [{ act := 3, scope := 6 }] }; let st : Nat := 6; let off : Nat := 512;
      let b : List Nat := List.replicate 256 5; let h : Nat := 0; (st < 8) ∧ (s.pwr.held = false) ∧ ((s.host h).d3 = false) ∧ (s.pwrState ≠ 5) ∧
      ((∀ w, s.partGate h w (s.stackPart st) = .served)) ∧ (s.testGranted st = true) ∧ (off % 256 = 0) ∧ (b.length = 256) ∧
      (s.fld (rMemTestCtrl st) 8 8 = 1)) := by decide +kernel

/-- States and operands that meet the hypotheses of TestWindowsRun, clause by clause. -/
theorem wit_TestWindowsRun6 :
    (let s : State := { loaded with badLine := [(testLine 6 2, 1)], maint := [{ act := 3, scope := 6 }] }; let st : Nat := 6; let off : Nat := 512;
      let h : Nat := 0; (st < 8) ∧ (s.pwr.held = false) ∧ ((s.host h).d3 = false) ∧ (s.pwrState ≠ 5) ∧
      ((∀ w, s.partGate h w (s.stackPart st) = .served)) ∧ (s.testGranted st = true) ∧ (SMap.get s.badLine (testLine st (off / 256 % 256)) ≠ 0) ∧
      (s.evq.length < 1024)) := by decide +kernel

/-- States and operands that meet the hypotheses of TestWindowsRun, clause by clause. -/
theorem wit_TestWindowsRun7 :
    (let s : State := { loaded with maint := [{ act := 3, scope := 6 }] }; let st : Nat := 6; let off : Nat := 512; let h : Nat := 0; (st < 8) ∧
      (s.pwr.held = false) ∧ ((s.host h).d3 = false) ∧ (s.pwrState ≠ 5) ∧ ((∀ w, s.partGate h w (s.stackPart st) = .served)) ∧
      (s.testGranted st = true) ∧ (SMap.get s.badLine (testLine st (off / 256 % 256)) = 0)) := by decide +kernel

/-- States and operands that meet the hypotheses of CanonicalKept, clause by clause. -/
theorem wit_CanonicalKept_a :
    (let s : State := State.reset; let t : State := (match step State.reset with | .next t => t | _ => State.reset); (s.Canonical) ∧
      (step s = .next t)) :=
  ⟨by decide +kernel, rfl⟩

/-- States and operands that meet the hypotheses of ResetValues, clause by clause. -/
theorem wit_ResetValues :
    (let k : Nat := 0; (k < 4)) ∧
    (let u : Nat := 0; (u < 64)) := by decide +kernel

/-- States and operands that meet the hypotheses of FuseMapChecked, clause by clause. -/
theorem wit_FuseMapChecked_a :
    (let s : State := loaded.setFld rPwrStatus 63 61 4; let r : SelfTestResult := { bypass := 0x10001 }; (s.pwrState = 4) ∧ (s.pwr.held = false) ∧
      (((List.range 13).any (fun n => bitAt r.bypass n) = true ∨ ((List.range 18).filter fun n => bitAt r.bypass n).length ≠ 2))) :=
  ⟨by decide +kernel, by decide +kernel, Or.inl (by decide)⟩

/-- States and operands that meet the hypotheses of ReservedScheduleRefused, clause by clause. -/
theorem wit_ReservedScheduleRefused :
    (let s : State := loaded; let k : Nat := 3; let n : Nat := 2; let h : Nat := 0; (k < 4) ∧ (n < 4) ∧ (s.gate h (rSchCtrl k n) 8 true = .served) ∧
      (SMap.get (s.core k).schStaged (rSchCtrl k n) = none)) := by decide +kernel

/-- States and operands that meet the hypotheses of ThinningBoundsRefused, clause by clause. -/
theorem wit_ThinningBoundsRefused :
    (let s : State := loaded; let k : Nat := 3; let n : Nat := 255; let v : Word := 0x4403; let h : Nat := 0; (k < 4) ∧ (n < 256) ∧
      (s.gate h (rVecThinSeg k n) 8 true = .served) ∧
      (getF v 3 0 < 4 ∨ 10 < getF v 3 0 ∨ getF v 11 8 < 4 ∨ 10 < getF v 11 8 ∨ getF v 15 12 < 4 ∨ 10 < getF v 15 12 ∨ getF v 15 12 < getF v 11 8)) := by decide +kernel

/-- States and operands that meet the hypotheses of ThinningBoundsRefused, clause by clause. -/
theorem wit_ThinningBoundsRefused2 :
    (let s : State := loaded; let k : Nat := 3; let n : Nat := 255; let v : Word := 0xA50A; let h : Nat := 0; (k < 4) ∧ (n < 256) ∧
      (s.gate h (rVecThinSeg k n) 8 true = .served) ∧ (4 ≤ getF v 3 0) ∧ (getF v 3 0 ≤ 10) ∧ (4 ≤ getF v 11 8) ∧ (getF v 11 8 ≤ getF v 15 12) ∧
      (getF v 15 12 ≤ 10)) := by decide +kernel

/-- States and operands that meet the hypotheses of RekeyEnds, clause by clause. -/
theorem wit_RekeyEnds :
    (let s : State := ((loaded.setFld (rZenXts 0) 63 63 1).setFld (rZenXts 0) 17 0 1).modPart 0 fun p => { p with locked := [(6, some 5)], keys := [(0, some 1), (1, some 2)] };
      let n : Nat := 6; let g : Nat := 5; let k : Nat := 0; (k < 4) ∧ (s.stackPart n = some k) ∧ (SMap.get (s.part k).locked n = some g) ∧
      (s.fld (rZenXts k) 17 0 = 1) ∧ (s.evq.length < 1024)) := by decide +kernel

/-- States and operands that meet the hypotheses of TrainFailNamed, clause by clause. -/
theorem wit_TrainFailNamed :
    (let s : State := (linked.setFld (rLnkStatus 1) 63 61 1).modPort 1 fun q => { q with trainStep := 4 }; let p : Nat := 1; let l : Nat := 65535;
      (p < 6) ∧ (s.linkState p = 1) ∧ (l < 65536) ∧ (s.evq.length < 1024)) := by decide +kernel

/-- Reading a stretch of memory in two parts. -/
theorem memRead_add (m : List Host.Cell) (a p q : Nat) : memRead m a (p + q) = memRead m a p ++ memRead m (a + p) q := by
  induction p generalizing a with
  | zero => simp [memRead]
  | succ n ih => rw [Nat.succ_add]; simp only [memRead, List.cons_append]; rw [ih (a + 1), show a + 1 + n = a + (n + 1) by omega]

/-- A stretch of memory that lists nothing reads as zero. -/
theorem memRead_zero (m : List Host.Cell) (a n : Nat) (h : ∀ e ∈ m, e.1 < a ∨ a + n ≤ e.1) : memRead m a n = List.replicate n 0 := by
  induction n generalizing a with
  | zero => rfl
  | succ n ih =>
    rw [memRead, List.replicate_succ, ih (a + 1) (fun e he => by have := h e he; omega)]
    have : ∀ l : List Host.Cell, (∀ e ∈ l, e.1 ≠ a) → memGet l a = 0 := by
      intro l hl
      induction l with
      | nil => rfl
      | cons x r ih =>
        have hx := hl x (List.mem_cons_self ..)
        have := ih fun e he => hl e (List.mem_cons_of_mem _ he)
        simpa [memGet, SMap.get, hx] using this
    rw [this m fun e he => by have := h e he; omega]

/-- The bytes of the small image. -/
def smallBytes (shape : Nat) : List Nat :=
  memRead ((smallImage shape).map fun (e : Nat × Nat) => (e.1, BitVec.ofNat 8 e.2)) 0 416 ++ (List.replicate 3680 0 ++
    (memRead ((smallImage shape).map fun (e : Nat × Nat) => (e.1, BitVec.ofNat 8 e.2)) 4096 200 ++ List.replicate 3960 0))

/-- Where the small image lists nothing. -/
def smallGaps (l : List Host.Cell) : Prop := ∀ e ∈ l, (e.1 < 416 ∨ 416 + 3680 ≤ e.1) ∧ (e.1 < 4296 ∨ 4296 + 3960 ≤ e.1)

/-- The small image as the partition's HBM holds it. -/
theorem small_read (shape : Nat) (h : smallGaps (loadingSmall (smallImage shape)).hbm) :
    (loadingSmall (smallImage shape)).hbmRead 0 0x2040 = smallBytes shape := by
  show memRead _ 0 (416 + (3680 + (200 + 3960))) = _
  rw [memRead_add, memRead_add, memRead_add, memRead_zero _ (0 + 416) 3680 fun e he => (h e he).1,
    memRead_zero _ (0 + 416 + 3680 + 200) 3960 fun e he => (h e he).2]
  rfl

/-- The gaps are there for both shapes. -/
theorem small_gaps : smallGaps (loadingSmall (smallImage 0)).hbm ∧ smallGaps (loadingSmall (smallImage 2)).hbm := by
  unfold smallGaps; decide +kernel
/-- Its barrier units are free. -/
theorem small_free : (oneCore).unitsFree 0 (records (smallBytes 2)) = none := by decide +kernel
/-- A pair with a known second part. -/
theorem pair_of_snd {α β : Type} {x : α × β} {y : β} (h : x.2 = y) : ∃ i, x = (i, y) := ⟨x.1, by rw [← h]⟩
/-- The small image of shape 2 passes. -/
theorem small_ok : (checkImage ((loadingSmall (smallImage 2)).loadEnv 0 [0x10000, 0x10000] 0) 0x2040 (smallBytes 2) none).2 = none := by decide +kernel
/-- The small image of shape 0 fails at its shape. -/
theorem small_shape : (checkImage ((loadingSmall (smallImage 0)).loadEnv 0 [0x10000, 0x10000] 0) 0x2040 (smallBytes 0) none).2 = some (0x13, 4104) := by decide +kernel

/-- A load whose image fails its shape's check, and one whose image passes, meet the hypotheses of LoadsComplete. -/
theorem wit_LoadsComplete (b : Bool) :
    (∃ img, checkImage ((loadingSmall (smallImage 0)).loadEnv 0 [0x10000, 0x10000] 0) 0x2040 ((loadingSmall (smallImage 0)).hbmRead 0 0x2040)
      ((loadingSmall (smallImage 0)).signatureFail 0 ((loadingSmall (smallImage 0)).hbmRead 0 0x2040) b) = (img, some (0x13, 4104))) ∧
    (∃ img, checkImage ((loadingSmall (smallImage 2)).loadEnv 0 [0x10000, 0x10000] 0) 0x2040 ((loadingSmall (smallImage 2)).hbmRead 0 0x2040)
      ((loadingSmall (smallImage 2)).signatureFail 0 ((loadingSmall (smallImage 2)).hbmRead 0 0x2040) b) = (img, none)) ∧
    (loadingSmall (smallImage 2)).unitsFree 0 (records ((loadingSmall (smallImage 2)).hbmRead 0 0x2040)) = none ∧
    (∀ n, ((loadingSmall (smallImage n)).part 0).loading = some ({ addr := 0, len := 0x2040, bases := [0x10000, 0x10000] }, 0, 3)) := by
  have f : ∀ n x, (loadingSmall (smallImage n)).signatureFail 0 x b = none := fun n x => by
    have h : (loadingSmall (smallImage n)).conf 0 = false := (by decide +kernel : oneCore.conf 0 = false)
    simp [State.signatureFail, h]
  rw [small_read 0 small_gaps.1, small_read 2 small_gaps.2, f, f]
  exact ⟨pair_of_snd small_shape, pair_of_snd small_ok, small_free, fun _ => rfl⟩

end
end

section
/-! PROOF. A fuse map that the module cannot have fails the self-test, and a self-test that fails is Overcast (R36, R570, R571). -/
namespace Sys2Proof.Machine

/-- A fuse map that passes bypasses none of H0 to H12 (R36). -/
theorem not_bitAt_of_fuseMapOk {b n : Nat} (h : fuseMapOk b = true) (hn : n < 13) : bitAt b n = false := by
  simp only [fuseMapOk, Bool.and_eq_true, decide_eq_true_eq] at h
  obtain ⟨⟨hlow, -⟩, -⟩ := h
  have hdvd : 2 ^ (n + 1) ∣ b := (pow_dvd_pow 2 hn).trans (Nat.dvd_of_mod_eq_zero hlow)
  have heven : b / 2 ^ n % 2 = 0 := by
    obtain ⟨q, rfl⟩ := hdvd
    rw [pow_succ, mul_assoc, Nat.mul_div_cancel_left _ (Nat.two_pow_pos n), Nat.mul_mod_right]
  simp [bitAt, heven]

/-- A fuse map that passes bypasses exactly two positions: of the five from H13 on, three are enabled (R35, R36). -/
theorem length_bypassed_of_fuseMapOk {b : Nat} (h : fuseMapOk b = true) :
    ((List.range 18).filter fun n => bitAt b n).length = 2 := by
  have hcore : (List.range 13).filter (fun n => bitAt b n) = [] :=
    List.filter_eq_nil_iff.mpr fun n hn => by simp [not_bitAt_of_fuseMapOk h (List.mem_range.mp hn)]
  have henabled : (enabledPos b).length = 3 := by
    simp only [fuseMapOk, Bool.and_eq_true, decide_eq_true_eq] at h
    exact h.2
  have hspare : ([13, 14, 15, 16, 17].filter fun n => bitAt b n).length + (enabledPos b).length = 5 :=
    (List.length_eq_length_filter_add (l := [13, 14, 15, 16, 17]) fun n => bitAt b n).symm
  have hsplit : List.range 18 = List.range 13 ++ [13, 14, 15, 16, 17] := rfl
  rw [hsplit, List.filter_append, hcore, List.nil_append]
  omega

/-- A fuse map that does not pass fails a test of the self-test, whatever else it finds (R36). -/
theorem SelfTestResult_fails_ne_zero_of_not_fuseMapOk {r : SelfTestResult} (h : fuseMapOk r.bypass = false) :
    SelfTestResult_fails r ≠ 0 := by
  have hfuse : (if fuseMapOk r.bypass then 0 else 5) = 5 := by simp [h]
  rw [SelfTestResult_fails, hfuse]
  rcases Nat.eq_zero_or_pos r.failed with h0 | hpos <;> rcases lt_or_ge r.mv 42000 with hmv | hmv
  · simp [h0, hmv]
  · simp [h0, Nat.not_lt.mpr hmv]
  · simp [hpos, hmv]; omega
  · simp [hpos, Nat.not_lt.mpr hmv]; omega

/-- Showing a command's result changes ZEN_APPROVED alone (R522). -/
theorem Reports.showResult (s : State) (code result : Nat) : Reports (· = rZenApproved) s
    (if result ≤ 2 then (s.setFld rZenApproved 55 48 code).setFld rZenApproved 62 62 1 else s) := by
  split
  · exact trans (setFld s 55 48 code rfl) (setFld _ 62 62 1 rfl)
  · exact refl s

/-- A long-running command that has ended changes ZEN_APPROVED alone among the registers (R522, R607). -/
theorem Reports.mbFinish (s : State) (i ticket result detail : Nat) :
    Reports (· = rZenApproved) s (s.mbFinish i ticket result detail) := by
  unfold State.mbFinish
  split
  · exact refl s
  · dsimp only
    split
    · refine trans (trans ?_ (showResult _ _ _)) (msix _ _ _)
      exact of_eq rfl rfl rfl rfl rfl rfl rfl
    · refine trans (trans ?_ (showResult _ _ _)) (out _ _)
      exact of_eq rfl rfl rfl rfl rfl rfl rfl

/-- Ending the commands that waited changes ZEN_APPROVED alone among the registers (R542, R607). -/
theorem Reports.finishTickets (s : State) (ts : List (Nat × Nat × Nat)) (result detail : Nat) :
    Reports (· = rZenApproved) s (s.finishTickets ts result detail) :=
  foldl (fun s t => by
    split
    · exact refl s
    · exact mbFinish _ _ _ _ _) ts s

/-- STATE of PWR_STATUS just set (R582). -/
theorem State.pwrState_setPwr (s : State) (n : Nat) : (s.setPwr n).pwrState = n % 2 ^ 3 :=
  State.fld_setFld_same s rPwrStatus 63 61 n (by omega) (by omega)

/-- Setting the power state leaves every other register. -/
theorem State.fld_setPwr_ne (s : State) (n hi lo : Nat) {k : Nat} (h : k ≠ rPwrStatus) : (s.setPwr n).fld k hi lo = s.fld k hi lo :=
  State.fld_setFld_ne s 63 61 n hi lo h

/-- Entering Overcast is power state 5 (R571, R582). -/
theorem State.pwrState_toOvercast (s : State) (test detail : Nat) : (s.toOvercast test detail).pwrState = 5 :=
  State.pwrState_setPwr _ 5

/-- Entering Overcast sets FAILED of PWR_SELFTEST (R570, R582). -/
theorem State.failed_toOvercast (s : State) (test detail : Nat) : (s.toOvercast test detail).fld rPwrSelftest 62 62 = 1 := by
  unfold State.toOvercast
  dsimp only
  rw [State.fld_setPwr_ne _ _ _ _ (by decide), State.fld_setFld_ne _ _ _ _ _ _ (by decide),
    State.fld_setFld_disjoint _ _ _ _ _ _ _ (by omega) (by omega) (by omega) (by omega),
    State.fld_setFld_disjoint _ _ _ _ _ _ _ (by omega) (by omega) (by omega) (by omega),
    State.fld_setFld_same _ _ _ _ _ (by omega) (by omega)]
  rfl

/-- A self-test that fails ends in Overcast, and the long-running commands that waited for it end without another register changed but
ZEN_APPROVED (R570, R571). -/
theorem execSelfTest_fails {s : State} {r : SelfTestResult} (hstate : s.pwrState = 4) (hheld : s.pwr.held = false)
    (hfail : SelfTestResult_fails r ≠ 0) :
    ∃ (u : State) (detail : Nat) (t : State), execSelfTest r s = .next t ∧
      Reports (· = rZenApproved) (u.toOvercast (SelfTestResult_fails r) detail) t := by
  have hruns : ¬(s.pwrState ≠ 4 ∨ s.pwr.held = true) := by simp [hstate, hheld]
  unfold execSelfTest
  rw [if_neg hruns]
  extract_lets fail
  rw [if_pos hfail]
  exact ⟨_, _, _, rfl, Reports.finishTickets _ _ _ _⟩

/-- Settles O42: the fuse map's test fails, a failed test is Overcast, and what ends with it leaves PWR_STATUS and PWR_SELFTEST. -/
theorem fuseMapChecked : Obligations.FuseMapChecked := by
  unfold Obligations.FuseMapChecked
  intro s r hstate hheld hmap
  have hbad : fuseMapOk r.bypass = false := by
    refine Bool.eq_false_iff.mpr fun hok => ?_
    rcases hmap with hcore | hcount
    · obtain ⟨n, hn, hbit⟩ := List.any_eq_true.mp hcore
      simp [not_bitAt_of_fuseMapOk hok (List.mem_range.mp hn)] at hbit
    · exact hcount (length_bypassed_of_fuseMapOk hok)
  obtain ⟨u, detail, t, hexec, hrep⟩ := execSelfTest_fails hstate hheld (SelfTestResult_fails_ne_zero_of_not_fuseMapOk hbad)
  refine ⟨t, hexec, ?_, ?_⟩
  · rw [State.pwrState, State.fld, hrep.reg _ (by decide)]
    exact State.pwrState_toOvercast u _ detail
  · rw [State.fld, hrep.reg _ (by decide)]
    exact State.failed_toOvercast u _ detail

end Sys2Proof.Machine
end

section
/-! PROOF. A write to SCH_CTRL stages the written value, but for the fields that were given a reserved code (R268, R272). -/
namespace Sys2Proof.Machine

/-- A field lying wholly under a mask is not changed by the mask (R17). -/
theorem getF_and_of_full (v m : Word) (hi lo : Nat) (hfull : getF m hi lo = 2 ^ (hi + 1 - lo) - 1) :
    getF (v &&& m) hi lo = getF v hi lo := by
  apply Nat.eq_of_testBit_eq
  intro i
  have hbit : (getF m hi lo).testBit i = decide (i < hi + 1 - lo) := by rw [hfull, Nat.testBit_two_pow_sub_one]
  rw [testBit_getF] at hbit
  rw [testBit_getF, testBit_getF, BitVec.getLsbD_and]
  by_cases hin : i < hi + 1 - lo
  · have hone : m.getLsbD (lo + i) = true := by simpa [hin] using hbit
    rw [hone, Bool.and_true]
  · simp [hin]

section
variable {c : Prop} [Decidable c]

/-- A field put back to its old value under a condition. -/
theorem getF_keep_same (old w : Word) (hi lo : Nat) (hi64 : hi < 64) (hlo : lo ≤ hi) :
    getF (if c then setF w hi lo (getF old hi lo) else w) hi lo = if c then getF old hi lo else getF w hi lo := by
  split
  · rw [getF_setF_same _ _ _ _ hi64 hlo, Nat.mod_eq_of_lt (getF_lt old hi lo)]
  · rfl

/-- Putting one field back leaves a field that shares no bit with it. -/
theorem getF_keep_disjoint (old w : Word) (hi lo hi' lo' : Nat) (hi64 : hi < 64) (hlo : lo ≤ hi) (hi64' : hi' < 64)
    (h : hi < lo' ∨ hi' < lo) : getF (if c then setF w hi lo (getF old hi lo) else w) hi' lo' = getF w hi' lo' := by
  split
  · exact getF_setF_disjoint w hi lo _ hi' lo' hi64 hlo hi64' h
  · rfl

end

section
variable (old w : Word)

/-- WARMUP has no reserved code: it takes the write (R271). -/
theorem schCtrlKept_warmup : getF (schCtrlKept old w) 63 32 = getF w 63 32 := by
  simp (disch := omega) only [schCtrlKept, getF_keep_disjoint]

/-- MILESTONES above 8 is refused (R272). -/
theorem schCtrlKept_milestones :
    getF (schCtrlKept old w) 15 12 = if 8 < getF w 15 12 then getF old 15 12 else getF w 15 12 := by
  simp (disch := omega) only [schCtrlKept, getF_keep_disjoint, getF_keep_same]

/-- A MULT above 8 is refused (R272). -/
theorem schCtrlKept_mult :
    getF (schCtrlKept old w) 11 8 = if 8 < getF w 11 8 then getF old 11 8 else getF w 11 8 := by
  simp (disch := omega) only [schCtrlKept, getF_keep_disjoint, getF_keep_same]

/-- A DECAY of 6 to 15 is refused (R272). -/
theorem schCtrlKept_decay :
    getF (schCtrlKept old w) 7 4 = if 6 ≤ getF w 7 4 then getF old 7 4 else getF w 7 4 := by
  simp (disch := omega) only [schCtrlKept, getF_keep_disjoint, getF_keep_same]

/-- A WARM of 3 is refused (R272). -/
theorem schCtrlKept_warm :
    getF (schCtrlKept old w) 1 0 = if getF w 1 0 = 3 then getF old 1 0 else getF w 1 0 := by
  simp (disch := omega) only [schCtrlKept, getF_keep_disjoint, getF_keep_same]

end

/-- The writable bits of SCH_CTRL are its five fields, and no port has a copy of its own (R271, R588). -/
theorem rowOf_rSchCtrl {k n : Nat} (hk : k < 4) (hn : n < 4) :
    ∃ r, rowOf (rSchCtrl k n) = some r ∧ r.rw = 0xFFFFFFFF0000FFF3 ∧ r.isLocal = false := by
  have hrow : ∀ k < 4, ∀ n < 4, (rowOf (rSchCtrl k n)).map (fun r => (r.rw, r.isLocal)) = some (0xFFFFFFFF0000FFF3, false) := by
    decide +kernel
  obtain ⟨r, hr, hmasks⟩ := Option.map_eq_some_iff.mp (hrow k hk n hn)
  exact ⟨r, hr, congrArg Prod.fst hmasks, congrArg Prod.snd hmasks⟩

/-- The place of a schedule parameter within its core's block (R271). -/
theorem rSchCtrl_add_mod (k : Nat) {n o : Nat} (hn : n < 4) (ho : o < 0x80) :
    (rSchCtrl k n + o) % 0x100000 = 0x9000 + 0x100 * n + o := by
  unfold rSchCtrl; omega

/-- A schedule parameter is no copy of a ring register (R594). -/
theorem State.ringCopy_rSchCtrl (s : State) (k : Nat) {n o : Nat} (hn : n < 4) (ho : o < 0x80) : s.ringCopy (rSchCtrl k n + o) = false := by
  have hplace : ¬ (0x9000 + 0x100 * n + o < 0x3040) := by omega
  simp [State.ringCopy, rSchCtrl_add_mod k hn ho, hplace]

section
variable {k n o : Nat} (hk : k < 4) (hn : n < 4) (ho : o < 0x80)
include hk hn ho

/-- The core in whose block a schedule parameter lies (R271). -/
theorem rSchCtrl_add_core : (rSchCtrl k n + o - 0x200000) / 0x100000 = k := by
  unfold rSchCtrl; omega

/-- The schedule parameters lie in the cores' blocks. -/
theorem rSchCtrl_add_bounds : 0x200000 ≤ rSchCtrl k n + o ∧ rSchCtrl k n + o < 0x600000 := by
  unfold rSchCtrl; omega

/-- A confidential partition's schedule parameters take writes (R273). -/
theorem State.deaf_rSchCtrl (s : State) : s.deaf (rSchCtrl k n + o) = false := by
  have hstr : ¬ (0xF000 ≤ 0x9000 + 0x100 * n + o) := by omega
  have hvec : ¬ (0xA010 ≤ 0x9000 + 0x100 * n + o) := by omega
  simp [State.deaf, rSchCtrl_add_bounds hk hn ho, rSchCtrl_add_mod k hn ho, hstr, hvec]

/-- A schedule parameter is kept at its own offset, whichever port writes it (R349, R588). -/
theorem State.regKey_rSchCtrl (s : State) (h : Nat) {r : RegRow} (hrow : rowOf (rSchCtrl k n + o) = some r)
    (hlocal : r.isLocal = false) : s.regKey h (rSchCtrl k n + o) = rSchCtrl k n + o := by
  obtain ⟨hlow, -⟩ := rSchCtrl_add_bounds hk hn ho
  have hmsix : ¬ (rSchCtrl k n + o < 0xF0100) := by omega
  have htiming : ¬ (0x9000 + 0x100 * n + o < 0x7200) := by omega
  simp [State.regKey, isLocal, hrow, hlocal, hmsix, rSchCtrl_add_mod k hn ho, htiming]

/-- A served write of a schedule parameter stages it (R268). -/
theorem State.writeReg_rSchCtrl {s : State} {h : Nat} {v : Word} {r : RegRow} (hgate : s.gate h (rSchCtrl k n + o) 8 true = .served)
    (hrow : rowOf (rSchCtrl k n + o) = some r) (hlocal : r.isLocal = false) :
    s.writeReg h (rSchCtrl k n + o) 8 v = s.stageSch k (rSchCtrl k n + o) r v := by
  have hbounds := rSchCtrl_add_bounds hk hn ho
  have hmsix : ¬ (rSchCtrl k n + o < 0xF0100) := by omega
  have hmbuf : ¬ (rSchCtrl k n + o < 0x114000) := by omega
  have hserved : s.writeServed h (rSchCtrl k n + o) 8 v = s.writeCore h (rSchCtrl k n + o) r v := by
    simp [State.writeServed, hmsix, hmbuf, hrow, hbounds]
  have hstaged : s.writeCore h (rSchCtrl k n + o) r v = s.stageSch k (rSchCtrl k n + o) r v := by
    unfold State.writeCore
    simp only [rSchCtrl_add_mod k hn ho, rSchCtrl_add_core hk hn ho, State.ringCopy_rSchCtrl s k hn ho, State.deaf_rSchCtrl hk hn ho,
      State.regKey_rSchCtrl hk hn ho s h hrow hlocal, Bool.false_eq_true, or_self, if_false]
    simp (disch := omega) only [if_neg, if_pos]
  rw [State.writeReg, State.gated, hgate]
  exact hserved.trans hstaged

end

/-- Staging a schedule parameter changes no memory and no register: the set takes it up at its next computation (R268). -/
theorem Reports.stageSch {P : Nat → Prop} (s : State) (k key : Nat) (r : RegRow) (v : Word) : Reports P s (s.stageSch k key r v) :=
  Reports.modCore s k _

/-- The first write of SCH_CTRL stages what the refused codes leave of it, over the register's own value (R268, R272). -/
theorem State.schStaged_stageSch_rSchCtrl {s : State} {k n : Nat} (r : RegRow) (v : Word)
    (hnone : SMap.get (s.core k).schStaged (rSchCtrl k n) = none) :
    SMap.get ((s.stageSch k (rSchCtrl k n) r v).core k).schStaged (rSchCtrl k n) =
      some (schCtrlKept (s.reg (rSchCtrl k n)) (v &&& BitVec.ofNat 64 r.rw)) := by
  have hctrl : rSchCtrl k n % 0x100 = 0 := by unfold rSchCtrl; omega
  simp [State.stageSch, hnone, hctrl]

/-- Settles O54: the write is staged, each field is wholly writable, and a field given a reserved code keeps the register's value. -/
theorem reservedScheduleRefused : Obligations.ReservedScheduleRefused := by
  unfold Obligations.ReservedScheduleRefused
  intro s h k n v hk hn hgate hnone
  obtain ⟨r, hrow, hrw, hlocal⟩ := rowOf_rSchCtrl hk hn
  have hexec : exec (.scheduleParameterWrite h k n 0 v) s = .next (s.stageSch k (rSchCtrl k n) r v) :=
    congrArg Host.Outcome.next (State.writeReg_rSchCtrl hk hn (o := 0) (by omega) hgate hrow hlocal)
  have hstaged := State.schStaged_stageSch_rSchCtrl r v hnone
  rw [hrw] at hstaged
  have hfield : ∀ hi lo, getF 0xFFFFFFFF0000FFF3 hi lo = 2 ^ (hi + 1 - lo) - 1 →
      getF (v &&& BitVec.ofNat 64 0xFFFFFFFF0000FFF3) hi lo = getF v hi lo := getF_and_of_full v _
  have hrep : Reports (fun _ => False) s (s.stageSch k (rSchCtrl k n) r v) := Reports.stageSch s k _ r v
  refine ⟨_, _, hexec, hstaged, ?_, ?_, ?_, ?_, ?_, hrep.sameMem, fun q _ => hrep.reg q id⟩
  · rw [schCtrlKept_warmup, hfield 63 32 (by decide)]
  · rw [schCtrlKept_milestones, hfield 15 12 (by decide), State.fld]
  · rw [schCtrlKept_mult, hfield 11 8 (by decide), State.fld]
  · rw [schCtrlKept_decay, hfield 7 4 (by decide), State.fld]
  · rw [schCtrlKept_warm, hfield 1 0 (by decide), State.fld]

end Sys2Proof.Machine
end

section
/-! PROOF. A write to a thinning segment's register takes effect only with bounds in range, and then K_LOG2 and both bounds take it (R314). -/
namespace Sys2Proof.Machine

/-- A register that a row covers lies between the first and the last of the copies of one block and one second index (R11). -/
theorem RegRow.bounds_of_has {r : RegRow} {a : Nat} (h : r.has a = true) :
    ∃ b j, j < r.count2 ∧ r.base + b * r.bStride + j * r.stride2 ≤ a ∧
      a ≤ r.base + b * r.bStride + j * r.stride2 + (r.count1 - 1) * r.stride1 := by
  simp only [RegRow.has, List.any_eq_true, List.mem_range, Bool.and_eq_true, decide_eq_true_eq] at h
  obtain ⟨b, -, j, hj, hlow, hcopy⟩ := h
  refine ⟨b, j, hj, hlow, ?_⟩
  split at hcopy
  · have ha := eq_of_beq hcopy
    omega
  · simp only [Bool.and_eq_true, beq_iff_eq, decide_eq_true_eq] at hcopy
    obtain ⟨hmod, hdiv⟩ := hcopy
    have hcount := Nat.mul_le_mul_right r.stride1 (Nat.le_sub_one_of_lt hdiv)
    rw [Nat.div_mul_cancel (Nat.dvd_of_mod_eq_zero hmod)] at hcount
    omega

/-- Do a row's blocks stand as far apart as the cores', with all its registers below `lo` or from `hi` on in each of them? -/
def RegRow.apartInCore (r : RegRow) (lo hi : Nat) : Bool :=
  let first := r.base % 0x100000
  let last := first + (r.count2 - 1) * r.stride2 + (r.count1 - 1) * r.stride1
  r.bStride == 0x100000 && decide (last < 0x100000) && (decide (last < lo) || decide (hi ≤ first))

/-- Such a row covers no register that lies from `lo` up to `hi` in its core's block. -/
theorem RegRow.has_of_apartInCore {r : RegRow} {lo hi a : Nat} (hapart : r.apartInCore lo hi = true) (hlo : lo ≤ a % 0x100000)
    (hhi : a % 0x100000 < hi) : r.has a = false := by
  refine Bool.eq_false_iff.mpr fun hhas => ?_
  obtain ⟨b, j, hj, hfirst, hlast⟩ := RegRow.bounds_of_has hhas
  have hsecond := Nat.mul_le_mul_right r.stride2 (Nat.le_sub_one_of_lt hj)
  simp only [RegRow.apartInCore, Bool.and_eq_true, Bool.or_eq_true, beq_iff_eq, decide_eq_true_eq] at hapart
  obtain ⟨⟨hstride, hfits⟩, hsides⟩ := hapart
  rw [hstride] at hfirst hlast
  omega

/-- The row of VEC_THIN_SEG in the register table. -/
def thinSegRow : RegRow :=
  ⟨"VEC_THIN_SEG", 0x20B100, 0x100000, 4, 8, 256, 0, 1, false, 0xFF0F, 0x0, 0x0, 0xFFFF, 0xFFFFFFFFFFFF0000, 0x0⟩

/-- Where that row stands in the table, and what stands before it keeps away from the segments. -/
theorem regTable_thinSegRow :
    regTable.drop 48 = thinSegRow :: regTable.drop 49 ∧ ∀ r ∈ regTable.take 48, r.apartInCore 0xB100 0xB900 = true := by
  decide +kernel

section
variable {k n : Nat} (hk : k < 4) (hn : n < 256)

include hn

/-- The place of a thinning segment's register within its core's block. -/
theorem rVecThinSeg_mod : rVecThinSeg k n % 0x100000 = 0xB100 + 8 * n := by
  unfold rVecThinSeg; omega

/-- A thinning segment's register is no copy of a ring register (R594). -/
theorem State.ringCopy_rVecThinSeg (s : State) : s.ringCopy (rVecThinSeg k n) = false := by
  have hplace : ¬ (0xB100 + 8 * n < 0x3040) := by omega
  simp [State.ringCopy, rVecThinSeg_mod hn, hplace]

include hk

/-- The thinning segments' registers lie in the cores' blocks. -/
theorem rVecThinSeg_bounds : 0x200000 ≤ rVecThinSeg k n ∧ rVecThinSeg k n < 0x600000 := by
  unfold rVecThinSeg; omega

/-- The row of VEC_THIN_SEG covers every segment of every core. -/
theorem thinSegRow_has : thinSegRow.has (rVecThinSeg k n) = true := by
  have hcopy : rVecThinSeg k n - (0x20B100 + k * 0x100000) = 8 * n := by unfold rVecThinSeg; omega
  have hlow : 0x20B100 + k * 0x100000 ≤ rVecThinSeg k n := by unfold rVecThinSeg; omega
  simp only [RegRow.has, thinSegRow, List.any_eq_true, List.mem_range]
  exact ⟨k, hk, 0, by omega, by simp [hcopy, hlow, hn]⟩

/-- The register table gives a thinning segment's register the row of VEC_THIN_SEG. -/
theorem rowOf_rVecThinSeg : rowOf (rVecThinSeg k n) = some thinSegRow := by
  obtain ⟨hdrop, htake⟩ := regTable_thinSegRow
  have hmod := rVecThinSeg_mod (k := k) hn
  have hbefore : (regTable.take 48).find? (fun r => r.has (rVecThinSeg k n)) = none :=
    List.find?_eq_none.mpr fun r hr => by
      simp [RegRow.has_of_apartInCore (htake r hr) (a := rVecThinSeg k n) (by omega) (by omega)]
  rw [rowOf, ← List.take_append_drop 48 regTable, List.find?_append, hbefore, Option.none_or, hdrop]
  exact List.find?_cons_of_pos (thinSegRow_has hk hn)

/-- A confidential partition's thinning segments take writes (R315). -/
theorem State.deaf_rVecThinSeg (s : State) : s.deaf (rVecThinSeg k n) = false := by
  have hstr : ¬ (0xF000 ≤ 0xB100 + 8 * n) := by omega
  have hvec : ¬ (0xB100 + 8 * n < 0xA038) := by omega
  simp [State.deaf, rVecThinSeg_bounds hk hn, rVecThinSeg_mod hn, hstr, hvec]

/-- A thinning segment's register is kept at its own offset, whichever port writes it (R588). -/
theorem State.regKey_rVecThinSeg (s : State) (h : Nat) : s.regKey h (rVecThinSeg k n) = rVecThinSeg k n := by
  obtain ⟨hlow, -⟩ := rVecThinSeg_bounds hk hn
  have hmsix : ¬ (rVecThinSeg k n < 0xF0100) := by omega
  have htiming : ¬ (0xB100 + 8 * n < 0x7200) := by omega
  have hlocal : thinSegRow.isLocal = false := rfl
  simp [State.regKey, isLocal, rowOf_rVecThinSeg hk hn, hlocal, hmsix, rVecThinSeg_mod hn, htiming]

/-- A write of a thinning segment's register is a plain write when the bounds are in range, and nothing when they are not (R314). -/
theorem State.writeCore_rVecThinSeg (s : State) (h : Nat) (r : RegRow) (v : Word) :
    s.writeCore h (rVecThinSeg k n) r v = if thinOk v then s.writePlain (rVecThinSeg k n) r v else s := by
  unfold State.writeCore
  simp only [rVecThinSeg_mod hn, State.ringCopy_rVecThinSeg hn, State.deaf_rVecThinSeg hk hn, State.regKey_rVecThinSeg hk hn,
    Bool.false_eq_true, or_self, if_false]
  simp (disch := omega) only [if_neg, if_pos]

end

/-- A served write of a core's register is a write in the core's block (R17, R589). -/
theorem State.writeReg_of_rowOf_core {s : State} {h a : Nat} {r : RegRow} (v : Word) (hgate : s.gate h a 8 true = .served)
    (hrow : rowOf a = some r) (hlow : 0x200000 ≤ a) (hhigh : a < 0x600000) : s.writeReg h a 8 v = s.writeCore h a r v := by
  have hmsix : ¬ (a < 0xF0100) := by omega
  have hmbuf : ¬ (a < 0x114000) := by omega
  rw [State.writeReg, State.gated, hgate]
  simp [State.writeServed, hmsix, hmbuf, hrow, hlow, hhigh]

/-- Of a register without W1C bits, a field that is wholly RW takes the value written (R17). -/
theorem State.fld_writePlain_of_full (s : State) (key : Nat) {r : RegRow} (v : Word) {hi lo : Nat} (hw1c : r.w1c = 0)
    (hfull : getF (BitVec.ofNat 64 r.rw) hi lo = 2 ^ (hi + 1 - lo) - 1) : (s.writePlain key r v).fld key hi lo = getF v hi lo := by
  have hmerge : ∀ old m : Word, ((old &&& ~~~m) ||| (v &&& m)) &&& m = v &&& m := fun old m => by
    ext i
    by_cases hm : m[i] <;> simp [hm]
  simp only [State.writePlain, State.fld, State.reg_setReg_same, hw1c, ite_self, BitVec.and_zero,
    BitVec.not_zero, BitVec.and_allOnes]
  rw [← getF_and_of_full _ _ _ _ hfull, hmerge, getF_and_of_full _ _ _ _ hfull]

/-- A plain write changes its register alone (R17). -/
theorem Reports.writePlain (s : State) (key : Nat) (r : RegRow) (v : Word) : Reports (· = key) s (s.writePlain key r v) :=
  Reports.setReg s _ rfl

/-- The bounds that a thinning segment takes (R314). -/
theorem thinOk_iff (v : Word) : thinOk v = true ↔
    4 ≤ getF v 3 0 ∧ getF v 3 0 ≤ 10 ∧ 4 ≤ getF v 11 8 ∧ getF v 11 8 ≤ getF v 15 12 ∧ getF v 15 12 ≤ 10 := by
  simp [thinOk, and_assoc]

/-- Settles O55: the write is a plain one under the segment's own check of its bounds, and K_LOG2, KMIN_LOG2 and KMAX_LOG2 are wholly RW. -/
theorem thinningBoundsRefused : Obligations.ThinningBoundsRefused := by
  unfold Obligations.ThinningBoundsRefused
  intro s h k n v hk hn hgate
  obtain ⟨hlow, hhigh⟩ := rVecThinSeg_bounds hk hn
  have hexec : exec (.registerWrite h (rVecThinSeg k n) 8 v) s =
      .next (if thinOk v then s.writePlain (rVecThinSeg k n) thinSegRow v else s) :=
    congrArg Host.Outcome.next ((State.writeReg_of_rowOf_core v hgate (rowOf_rVecThinSeg hk hn) hlow hhigh).trans
      (State.writeCore_rVecThinSeg hk hn s h thinSegRow v))
  refine ⟨fun hbad => ?_, fun hk4 hk10 hmin hle hmax => ?_⟩
  · have hrefused : ¬ (thinOk v = true) := by rw [thinOk_iff]; omega
    rw [hexec, if_neg hrefused]
  · have htaken : thinOk v = true := (thinOk_iff v).mpr ⟨hk4, hk10, hmin, hle, hmax⟩
    have hrep := Reports.writePlain s (rVecThinSeg k n) thinSegRow v
    rw [hexec, if_pos htaken]
    exact ⟨_, rfl, State.fld_writePlain_of_full s _ v rfl (by decide), State.fld_writePlain_of_full s _ v rfl (by decide),
      State.fld_writePlain_of_full s _ v rfl (by decide), hrep.sameMem, fun q hq => hrep.reg q (by simpa using hq)⟩

end Sys2Proof.Machine
end

section
/-! PROOF. What an event and the end of a maintenance activity do to the event queue and to the registers (R403, R507, R510). -/
namespace Sys2Proof.Machine

/-- A field of a register that a report leaves. -/
theorem Reports.fld {P : Nat → Prop} {s t : State} (h : Reports P s t) {k : Nat} (hk : ¬ P k) (hi lo : Nat) : t.fld k hi lo = s.fld k hi lo := by
  rw [State.fld, State.fld, h.reg k hk]

/-- Scheduling a command leaves every byte of memory. -/
theorem SameMem.laterW {s t : State} (h : SameMem s t) (d : Nat) (i : Instr) : SameMem s (t.laterW d i) := h

/-- Scheduling a command leaves every register. -/
theorem SameRegsBut.laterW {l : List Nat} {s t : State} (h : SameRegsBut l s t) (d : Nat) (i : Instr) : SameRegsBut l s (t.laterW d i) := h

/-- A trace record sends no event. -/
@[simp] theorem State.evq_traceRec (s : State) (typ source payload : Nat) : (s.traceRec typ source payload).evq = s.evq := by
  unfold State.traceRec
  dsimp only
  split
  · rfl
  · split <;> rfl

/-- An event joins Zenith's queue at its end while the queue has room (R403). -/
theorem State.evq_raise {s : State} (e : EventRec) (h : s.evq.length < 1024) : (s.raise e).evq = s.evq ++ [e] := by
  simp [State.raise, h]

/-- An event of a link port joins the queue with the port's source number, its code and its detail (R400, R401, R620). -/
theorem State.exists_evq_eventPort {s : State} (p code detail ext : Nat) (h : s.evq.length < 1024) :
    ∃ e : EventRec, (s.eventPort p code detail ext).evq = s.evq ++ [e] ∧ e.code = code ∧ e.source = 12 + p ∧ e.detail = detail :=
  ⟨_, State.evq_raise _ h, rfl, rfl, rfl⟩

/-- Showing the running activities sends no event. -/
@[simp] theorem State.evq_showMaint (s : State) : s.showMaint.evq = s.evq :=
  List.foldlRecOn (motive := fun t : State => t.evq = s.evq) _ _ rfl fun _ ht _ _ => ht

/-- Showing the running activities writes the maintenance registers of the stacks alone (R510). -/
theorem Reports.showMaint (s : State) : Reports (· ∈ maintRegs) s s.showMaint :=
  List.foldlRecOn (motive := fun t : State => Reports (· ∈ maintRegs) s t) _ _ (Reports.refl s) fun t ht st hst => by
    have hmaint : rMemMaint st ∈ maintRegs := List.mem_flatMap.mpr ⟨st, hst, by simp⟩
    have hpatrol : rMemPatrol st ∈ maintRegs := List.mem_flatMap.mpr ⟨st, hst, by simp⟩
    exact ((ht.trans (Reports.setFld t _ _ _ hmaint)).trans (Reports.setFld _ _ _ _ hpatrol)).trans (Reports.setFld _ _ _ _ hpatrol)

/-- The end of an activity sends no event. -/
@[simp] theorem State.evq_maintEnd (s : State) (act scope : Nat) : (s.maintEnd act scope).evq = s.evq :=
  State.evq_showMaint _

/-- The end of an activity writes the maintenance registers of the stacks alone (R507, R510). -/
theorem Reports.maintEnd (s : State) (act scope : Nat) : Reports (· ∈ maintRegs) s (s.maintEnd act scope) := by
  unfold State.maintEnd
  refine Reports.trans ?_ (Reports.showMaint _)
  exact Reports.of_eq rfl rfl rfl rfl rfl rfl rfl

end Sys2Proof.Machine
end

section
/-! PROOF. A training that fails leaves its port dark and sends LINK_TRAIN_FAIL with the step and the lanes that did not lock (R470). -/
namespace Sys2Proof.Machine

/-- LNK_STATUS is none of the stacks' maintenance registers. -/
theorem rLnkStatus_notMem_maintRegs (p : Nat) : rLnkStatus p ∉ maintRegs := by
  intro h
  obtain ⟨st, -, hst⟩ := List.mem_flatMap.mp h
  simp only [List.mem_cons, List.not_mem_nil, or_false, rLnkStatus, rMemMaint, rMemPatrol] at hst
  omega

/-- LNK_STATUS is none of the registers that an event may change. -/
theorem rLnkStatus_notMem_eventRegs (p : Nat) : rLnkStatus p ∉ eventRegs := by
  simp only [eventRegs, List.mem_cons, List.not_mem_nil, or_false, rLnkStatus, rDbgStatus, rCirEventOvf]
  omega

/-- A port that went dark is in state 0 (R472). -/
theorem State.linkState_goDark (s : State) (p : Nat) : (s.goDark p).linkState p = 0 :=
  ((Reports.maintEnd _ 5 p).fld (rLnkStatus_notMem_maintRegs p) 63 61).trans
    (State.fld_setFld_same _ _ 63 61 0 (by omega) (by omega))

/-- Going dark sends no event. -/
@[simp] theorem State.evq_goDark (s : State) (p : Nat) : (s.goDark p).evq = s.evq :=
  State.evq_maintEnd _ 5 p

/-- Going dark writes the port's LNK_STATUS and the maintenance registers alone. -/
theorem Reports.goDark (s : State) (p : Nat) : Reports (· ∈ rLnkStatus p :: maintRegs) s (s.goDark p) :=
  ((Reports.modPort s p _).trans (Reports.setFld _ 63 61 0 List.mem_cons_self)).trans
    ((Reports.maintEnd _ 5 p).mono fun _ => List.mem_cons_of_mem _)

/-- A port whose training failed, before the failure is reported: dark, with the lanes that locked and the step in LNK_STATUS. -/
def State.darkAfterFail (s : State) (p lanes : Nat) : State :=
  ((s.setFld (rLnkStatus p) 47 32 lanes).goDark p).setFld (rLnkStatus p) 31 28 (s.port p).trainStep

/-- A failed training is the port gone dark, the event, and a look of the start at what remains (R470). -/
theorem State.trainFail_eq (s : State) (p lanes : Nat) : s.trainFail p lanes =
    ((s.darkAfterFail p lanes).eventPort p 0x0302 ((s.port p).trainStep + 256 * (65535 - lanes % 65536)) p).laterW 0 .startPhase := rfl

/-- The failed port is in state 0. -/
theorem State.linkState_darkAfterFail (s : State) (p lanes : Nat) : (s.darkAfterFail p lanes).linkState p = 0 :=
  (State.fld_setFld_disjoint _ _ 31 28 _ 63 61 (by omega) (by omega) (by omega) (by omega)).trans (State.linkState_goDark _ p)

/-- The failure is not reported yet. -/
@[simp] theorem State.evq_darkAfterFail (s : State) (p lanes : Nat) : (s.darkAfterFail p lanes).evq = s.evq := by
  rw [State.darkAfterFail, State.setFld_evq, State.evq_goDark, State.setFld_evq]

/-- The failed port's LNK_STATUS and the maintenance registers alone are written. -/
theorem Reports.darkAfterFail (s : State) (p lanes : Nat) : Reports (· ∈ rLnkStatus p :: maintRegs) s (s.darkAfterFail p lanes) :=
  ((Reports.setFld s 47 32 lanes List.mem_cons_self).trans (Reports.goDark _ p)).trans (Reports.setFld _ 31 28 _ List.mem_cons_self)

/-- The port of a failed training stays dark (R470). -/
theorem State.linkState_trainFail (s : State) (p lanes : Nat) : (s.trainFail p lanes).linkState p = 0 := by
  rw [State.trainFail_eq, State.linkState, State.fld_laterW, (Reports.eventPort _ p _ _ _).fld (rLnkStatus_notMem_eventRegs p)]
  exact State.linkState_darkAfterFail s p lanes

/-- A failed training sends LINK_TRAIN_FAIL of its port, whose detail names the step and the lanes that did not lock (R470). -/
theorem State.exists_evq_trainFail {s : State} (p lanes : Nat) (h : s.evq.length < 1024) :
    ∃ e : EventRec, (s.trainFail p lanes).evq = s.evq ++ [e] ∧ e.code = 0x0302 ∧ e.source = 12 + p ∧
      e.detail = (s.port p).trainStep + 256 * (65535 - lanes % 65536) := by
  have hroom : (s.darkAfterFail p lanes).evq.length < 1024 := by simpa using h
  simpa [State.trainFail_eq] using State.exists_evq_eventPort p 0x0302 ((s.port p).trainStep + 256 * (65535 - lanes % 65536)) p hroom

/-- Up to the start's next look, a failed training only reports: it writes the port's LNK_STATUS, the maintenance registers and what an event
writes. -/
theorem Reports.eventPort_darkAfterFail (s : State) (p lanes code detail ext : Nat) :
    Reports (· ∈ rLnkStatus p :: (maintRegs ++ eventRegs)) s ((s.darkAfterFail p lanes).eventPort p code detail ext) := by
  have hdark := (Reports.darkAfterFail s p lanes).mono (Q := (· ∈ rLnkStatus p :: (maintRegs ++ eventRegs))) fun r hr => by
    rw [← List.cons_append]
    exact List.mem_append_left _ hr
  exact hdark.trans ((Reports.eventPort _ p code detail ext).mono fun r hr => List.mem_cons_of_mem _ (List.mem_append_right _ hr))

/-- A failed training leaves every byte of memory. -/
theorem State.sameMem_trainFail (s : State) (p lanes : Nat) : SameMem s (s.trainFail p lanes) := by
  rw [State.trainFail_eq]
  exact (Reports.eventPort_darkAfterFail s p lanes _ _ _).sameMem.laterW _ _

/-- A failed training leaves every register but the port's LNK_STATUS, the maintenance registers and what an event changes. -/
theorem State.sameRegsBut_trainFail (s : State) (p lanes : Nat) :
    SameRegsBut (rLnkStatus p :: (maintRegs ++ eventRegs)) s (s.trainFail p lanes) := by
  rw [State.trainFail_eq]
  exact SameRegsBut.laterW (Reports.eventPort_darkAfterFail s p lanes _ _ _).reg _ _

/-- A training under way that fails (R470). -/
theorem execLinkTrainFail_of_training {s : State} {p : Nat} (lanes : Nat) (h : s.linkState p = 1) :
    execLinkTrainFail p lanes s = .next (s.trainFail p lanes) := by
  rw [execLinkTrainFail, if_pos h]

/-- Settles O28: the port goes dark before the event is sent, and no event changes LNK_STATUS. -/
theorem trainFailNamed : Obligations.TrainFailNamed := by
  unfold Obligations.TrainFailNamed
  intro s p l _ htraining hlanes hroom
  obtain ⟨e, hevq, hcode, hsource, hdetail⟩ := State.exists_evq_trainFail p l hroom
  rw [Nat.mod_eq_of_lt hlanes] at hdetail
  exact ⟨s.trainFail p l, e, execLinkTrainFail_of_training l htraining, State.linkState_trainFail s p l, hevq, hcode, hsource, hdetail,
    State.sameMem_trainFail s p l, State.sameRegsBut_trainFail s p l⟩

end Sys2Proof.Machine
end

section
/-! PROOF. A checker test's window: a whole line written is stored as it is, and a read shows its line and records the check (R501–R503). -/
namespace Sys2Proof.Machine

/-- A line that a write covers is not held back (R480). -/
theorem State.keepsBad_of_covered (s : State) {lo hi line : Nat} (hlo : lo ≤ line) (hhi : line < hi) : s.keepsBad lo hi line = false := by
  simp [State.keepsBad, hlo, hhi]

/-- A whole line written has no end held (R480). -/
theorem State.heldEnds_line (s : State) (l : Nat) : s.heldEnds (l * 256) 256 = (0, 0) := by
  have hlo : ceilDiv (l * 256) 256 = l := by unfold ceilDiv; omega
  have hhi : (l * 256 + 256) / 256 = l + 1 := by omega
  have hfirst : l * 256 / 256 = l := Nat.mul_div_cancel l (by omega)
  have hlast : ¬ (l + 1) * 256 < l * 256 + 256 := by omega
  simp [State.heldEnds, hlo, hhi, hfirst, hlast, s.keepsBad_of_covered (Nat.le_refl l) (Nat.lt_succ_self l)]

/-- A whole line written is stored in full (R480). -/
theorem State.hbm_hbmWrite_line (s : State) (l : Nat) {bs : List Nat} (hlen : bs.length = 256) :
    (s.hbmWrite (l * 256) bs).hbm = memWrite s.hbm (l * 256) bs :=
  State.hbm_hbmWrite (by rw [hlen]; exact s.heldEnds_line l)

/-- Without RAW the line written is the window's own (R501). -/
theorem State.testWrite_of_plain {s : State} {st : Nat} (n : Nat) (bs : List Nat) (hraw : s.fld (rMemTestCtrl st) 8 8 = 0) :
    s.testWrite st n bs = s.hbmWrite (testLine st n * 256) bs := by
  simp [State.testWrite, hraw]

/-- Under RAW the line written is the one that MEM_TEST_CTRL names, and its stored check is off by what MEM_TEST_CRC differs from the line's own
CRC (R501). -/
theorem State.testWrite_of_raw {s : State} {st : Nat} (n : Nat) (bs : List Nat) (hraw : s.fld (rMemTestCtrl st) 8 8 = 1) :
    s.testWrite st n bs =
      let l := testLine st (s.fld (rMemTestCtrl st) 7 0)
      let t := s.hbmWrite (l * 256) bs
      { t with badLine := SMap.set t.badLine l (Nat.xor (s.fld (rMemTestCrc st) 31 0) (lineCrc bs (l % 2 ^ 28) % 2 ^ 32)) } := by
  simp only [State.testWrite, hraw, BEq.rfl, if_true]
  rfl

/-- What a checked read records of a line: VALID, DETECTED as given, the line's number and its CRC (R502, R510). -/
def State.testResult (s : State) (st n detect : Nat) : Nat :=
  2 ^ 63 + detect + n * 2 ^ 32 + lineCrc (s.hbmRead (testLine st n * 256) 256) (testLine st n % 2 ^ 28) % 2 ^ 32

/-- A line that passes its check is read and recorded (R502). -/
theorem State.testRead_of_good {s : State} {st n : Nat} (hgood : SMap.get s.badLine (testLine st n) = 0) :
    s.testRead st n false = (s.hbmRead (testLine st n * 256) 256,
      s.setReg (rMemTestResult st) (BitVec.ofNat 64 (s.testResult st n 0))) := by
  have hpass : (SMap.get s.badLine (testLine st n) != 0) = false := by simp [hgood]
  simp only [State.testRead, hpass, State.testResult, Bool.false_eq_true, or_self, if_false]

/-- What a read leaves of a line that fails its check: the record with DETECTED set, and the event (R502). -/
def State.recordBadLine (s : State) (st n : Nat) : State :=
  (s.setReg (rMemTestResult st) (BitVec.ofNat 64 (s.testResult st n (2 ^ 62)))).eventStack st 0x0107 1 (testLine st n * 256)

/-- A line that fails its check is read, recorded and reported (R502). -/
theorem State.testRead_of_bad {s : State} {st n : Nat} (hbad : SMap.get s.badLine (testLine st n) ≠ 0) :
    s.testRead st n false = (s.hbmRead (testLine st n * 256) 256, s.recordBadLine st n) := by
  have hfail : (SMap.get s.badLine (testLine st n) != 0) = true := by simp [hbad]
  simp only [State.testRead, hfail, State.testResult, State.recordBadLine, true_or, if_true]

/-- A trace record answers no host. -/
@[simp] theorem State.outbox_traceRec (s : State) (typ source payload : Nat) : (s.traceRec typ source payload).outbox = s.outbox := by
  unfold State.traceRec
  dsimp only
  split
  · rfl
  · split <;> rfl

/-- An event answers no host. -/
@[simp] theorem State.outbox_raise (s : State) (e : EventRec) : (s.raise e).outbox = s.outbox := by
  unfold State.raise
  dsimp only
  split <;> simp

/-- An event of a memory controller joins the queue with its code (R400, R620). -/
theorem State.exists_evq_eventStack {s : State} (st code detail ext : Nat) (h : s.evq.length < 1024) :
    ∃ e : EventRec, (s.eventStack st code detail ext).evq = s.evq ++ [e] ∧ e.code = code :=
  ⟨_, State.evq_raise _ h, rfl⟩

/-- MEM_TEST_RESULT is none of the registers that an event may change. -/
theorem rMemTestResult_notMem_eventRegs (st : Nat) : rMemTestResult st ∉ eventRegs := by
  simp only [eventRegs, List.mem_cons, List.not_mem_nil, or_false, rMemTestResult, rDbgStatus, rCirEventOvf]
  omega

/-- A failing line read writes MEM_TEST_RESULT and what an event writes (R502). -/
theorem Reports.recordBadLine (s : State) (st n : Nat) :
    Reports (· ∈ rMemTestResult st :: eventRegs) s (s.recordBadLine st n) :=
  (Reports.setReg s _ List.mem_cons_self).trans ((Reports.eventStack _ st _ _ _).mono fun _ => List.mem_cons_of_mem _)

/-- A failing line read answers no host by itself. -/
theorem State.outbox_recordBadLine (s : State) (st n : Nat) : (s.recordBadLine st n).outbox = s.outbox := by
  rw [State.recordBadLine, State.eventStack, State.outbox_raise, State.setReg_outbox]

/-- A failing line read sends MEM_TEST_DETECT (R502). -/
theorem State.exists_evq_recordBadLine {s : State} (st n : Nat) (hroom : s.evq.length < 1024) :
    ∃ e : EventRec, (s.recordBadLine st n).evq = s.evq ++ [e] ∧ e.code = 0x0107 := by
  rw [State.recordBadLine, ← State.setReg_evq s (rMemTestResult st) (BitVec.ofNat 64 (s.testResult st n (2 ^ 62)))]
  exact State.exists_evq_eventStack _ _ _ _ (by rwa [State.setReg_evq])

/-- The record of a failing line shows DETECTED (R502, R510). -/
theorem State.detected_recordBadLine (s : State) (st : Nat) {n : Nat} (hn : n < 256) :
    (s.recordBadLine st n).fld (rMemTestResult st) 62 62 = 1 := by
  have hcrc : lineCrc (s.hbmRead (testLine st n * 256) 256) (testLine st n % 2 ^ 28) % 2 ^ 32 < 2 ^ 32 := Nat.mod_lt _ (Nat.two_pow_pos 32)
  rw [State.recordBadLine, (Reports.eventStack _ st _ _ _).fld (rMemTestResult_notMem_eventRegs st), State.fld, State.reg_setReg_same]
  simp only [getF, State.testResult, BitVec.toNat_ofNat]
  omega

section
variable {s : State} {h st off : Nat} (hheld : s.pwr.held = false) (hd3 : (s.host h).d3 = false) (hpwr : s.pwrState ≠ 5)
include hheld hd3 hpwr

/-- A served write of a test window (R501, R503). -/
theorem execTestWindowWrite_of_served (b : List Nat) (hgate : s.partGate h true (s.stackPart st) = .served) :
    execTestWindowWrite h st off b s =
      .next (if s.testGranted st ∧ off % 256 = 0 ∧ b.length = 256 then s.testWrite st (off / 256 % 256) b else s) := by
  simp [execTestWindowWrite, hheld, hd3, hpwr, hgate]

/-- A served read of a test window where no test is granted (R503). -/
theorem execTestWindowRead_of_not_granted (upset : Bool) (hgate : s.partGate h false (s.stackPart st) = .served)
    (hgrant : s.testGranted st = false) :
    execTestWindowRead h st off upset s = .next (s.out (.readData h (List.replicate 256 255))) := by
  have hup : ¬ (s.pwr.held = true ∨ (s.host h).d3 = true) := by simp [hheld, hd3]
  rw [execTestWindowRead, if_neg hup, if_neg hpwr, hgate]
  dsimp only
  rw [hgrant]
  rfl

/-- A served read of a test window under a granted test (R502). -/
theorem execTestWindowRead_of_granted (upset : Bool) (hgate : s.partGate h false (s.stackPart st) = .served)
    (hgrant : s.testGranted st = true) :
    execTestWindowRead h st off upset s =
      .next ((s.testRead st (off / 256 % 256) upset).2.out (.readData h (s.testRead st (off / 256 % 256) upset).1)) := by
  simp [execTestWindowRead, hheld, hd3, hpwr, hgate, hgrant]

/-- The read of a line that passes its check (R502). -/
theorem execTestWindowRead_of_good (hgate : s.partGate h false (s.stackPart st) = .served) (hgrant : s.testGranted st = true)
    (hgood : SMap.get s.badLine (testLine st (off / 256 % 256)) = 0) :
    execTestWindowRead h st off false s =
      .next ((s.setReg (rMemTestResult st) (BitVec.ofNat 64 (s.testResult st (off / 256 % 256) 0))).out
        (.readData h (s.hbmRead (testLine st (off / 256 % 256) * 256) 256))) := by
  rw [execTestWindowRead_of_granted hheld hd3 hpwr false hgate hgrant, State.testRead_of_good hgood]

/-- The read of a line that fails its check (R502). -/
theorem execTestWindowRead_of_bad (hgate : s.partGate h false (s.stackPart st) = .served) (hgrant : s.testGranted st = true)
    (hbad : SMap.get s.badLine (testLine st (off / 256 % 256)) ≠ 0) :
    execTestWindowRead h st off false s =
      .next ((s.recordBadLine st (off / 256 % 256)).out (.readData h (s.hbmRead (testLine st (off / 256 % 256) * 256) 256))) := by
  rw [execTestWindowRead_of_granted hheld hd3 hpwr false hgate hgrant, State.testRead_of_bad hbad]

end

/-- Settles O57: a whole line covers its line, so none of it is held back, and a read writes its record, its event and its answer alone. -/
theorem testWindowsRun : Obligations.TestWindowsRun := by
  unfold Obligations.TestWindowsRun
  intro s h st off b _ hheld hd3 hpwr hgate
  have hwrite : exec (.testWindowWrite h st off b) s =
      .next (if s.testGranted st ∧ off % 256 = 0 ∧ b.length = 256 then s.testWrite st (off / 256 % 256) b else s) :=
    execTestWindowWrite_of_served hheld hd3 hpwr b (hgate true)
  refine ⟨fun hgrant => ⟨by simp [hwrite, hgrant], ?closed⟩, fun hgrant => ⟨fun hoff hlen hraw => ?plain, fun hpart => ?part,
    fun hoff hlen hraw => ?raw, fun hbad hroom => ?bad, fun hgood => ?good⟩⟩
  case closed =>
    exact ⟨_, execTestWindowRead_of_not_granted hheld hd3 hpwr false (hgate false) hgrant, State.out_outbox _ _,
      (Reports.out (P := fun _ => False) s _).sameMem, fun _ _ => rfl⟩
  case plain =>
    rw [hwrite, if_pos ⟨hgrant, hoff, hlen⟩, State.testWrite_of_plain _ _ hraw]
    exact ⟨_, rfl, s.hbm_hbmWrite_line _ hlen, rfl, rfl, rfl, fun _ _ => rfl⟩
  case part =>
    have hdrop : ¬ (s.testGranted st = true ∧ off % 256 = 0 ∧ b.length = 256) := by omega
    rw [hwrite, if_neg hdrop]
  case raw =>
    rw [hwrite, if_pos ⟨hgrant, hoff, hlen⟩, State.testWrite_of_raw _ _ hraw]
    exact ⟨_, rfl, s.hbm_hbmWrite_line _ hlen, SMap.get_set_same _ _ _, rfl, rfl, rfl, fun _ _ => rfl⟩
  case bad =>
    have hrep := (Reports.recordBadLine s st (off / 256 % 256)).trans
      (Reports.out _ (.readData h (s.hbmRead (testLine st (off / 256 % 256) * 256) 256)))
    obtain ⟨e, hevq, hcode⟩ := State.exists_evq_recordBadLine st (off / 256 % 256) hroom
    refine ⟨_, e, execTestWindowRead_of_bad hheld hd3 hpwr (hgate false) hgrant hbad, ?_, ?_, ?_, hcode, hrep.sameMem, hrep.reg⟩
    · rw [State.out_outbox, State.outbox_recordBadLine]
    · rw [State.fld, State.reg_out]
      exact s.detected_recordBadLine st (Nat.mod_lt _ (by omega))
    · rw [State.out_evq, hevq]
  case good =>
    have hrep := (Reports.setReg (P := (· ∈ [rMemTestResult st])) s (BitVec.ofNat 64 (s.testResult st (off / 256 % 256) 0))
      List.mem_cons_self).trans (Reports.out _ (.readData h (s.hbmRead (testLine st (off / 256 % 256) * 256) 256)))
    refine ⟨_, execTestWindowRead_of_good hheld hd3 hpwr (hgate false) hgrant hgood, ?_, ?_, hrep.sameMem, hrep.reg⟩
    · rw [State.out_outbox, State.setReg_outbox]
    · rw [State.reg_out, State.reg_setReg_same, State.testResult, Nat.add_zero]

end Sys2Proof.Machine
end

section
/-! PROOF. The last granule migrated ends its partition's re-key sweep: the slot of the new key alone keeps its key, ZEN_XTS shows no sweep, and
REKEY_DONE is sent (R537). -/
namespace Sys2Proof.Machine

/-- Reading a collection of which one entry was kept. -/
theorem SMap.get_filter_key {α : Type} [Inhabited α] (m : SMap α) (k j : Nat) :
    SMap.get (m.filter fun e => e.1 == k) j = if j = k then SMap.get m j else default := by
  induction m with
  | nil => simp
  | cons e r ih =>
    by_cases hkept : e.1 = k
    · by_cases hj : e.1 = j
      · simp [SMap.get, ← hkept, hj]
      · have hjk : j ≠ k := fun h => hj (hkept.trans h.symm)
        simp [SMap.get, hkept, ih, Ne.symm hjk]
    · by_cases hj : e.1 = j
      · have hjk : j ≠ k := fun h => hkept (hj.trans h)
        simp [hkept, hjk, ih]
      · simp [SMap.get, hkept, hj, ih]

/-- A trace record leaves the partitions' records. -/
@[simp] theorem State.parts_traceRec (s : State) (typ source payload : Nat) : (s.traceRec typ source payload).parts = s.parts := by
  unfold State.traceRec
  dsimp only
  split
  · rfl
  · split <;> rfl

/-- An event leaves the partitions' records. -/
@[simp] theorem State.parts_raise (s : State) (e : EventRec) : (s.raise e).parts = s.parts := by
  unfold State.raise
  dsimp only
  split <;> simp

/-- An event of a core joins the queue with its code (R401, R617, R620). -/
theorem State.exists_evq_eventCore {s : State} (j code detail ext : Nat) (h : s.evq.length < 1024) :
    ∃ e : EventRec, (s.eventCore j code detail ext).evq = s.evq ++ [e] ∧ e.code = code :=
  ⟨_, State.evq_raise _ h, rfl⟩

/-- The end of an activity leaves the partitions' records. -/
@[simp] theorem State.parts_maintEnd (s : State) (act scope : Nat) : (s.maintEnd act scope).parts = s.parts :=
  List.foldlRecOn (motive := fun t : State => t.parts = s.parts) _ _ rfl fun _ ht _ _ => ht

/-- From s to t no event was sent and no partition's record differs. -/
structure QueueAndPartsKept (s t : State) : Prop where
  evq : t.evq = s.evq
  parts : t.parts = s.parts

namespace QueueAndPartsKept
variable {s t u : State}

/-- What is kept twice is kept. -/
theorem trans (h : QueueAndPartsKept s t) (g : QueueAndPartsKept t u) : QueueAndPartsKept s u :=
  ⟨g.evq.trans h.evq, g.parts.trans h.parts⟩

/-- An MSI-X vector is no event (R604). -/
theorem msix (s : State) (h v : Nat) : QueueAndPartsKept s (s.msix h v) := by
  unfold State.msix
  split
  · exact ⟨rfl, rfl⟩
  · split
    · exact ⟨rfl, rfl⟩
    · split <;> exact ⟨rfl, rfl⟩

/-- Sending something out is no event. -/
theorem out (s : State) (o : Output) : QueueAndPartsKept s (s.out o) := ⟨rfl, rfl⟩

/-- Showing a command's result writes a register alone (R522). -/
theorem showResult (s : State) (code result : Nat) : QueueAndPartsKept s
    (if result ≤ 2 then (s.setFld rZenApproved 55 48 code).setFld rZenApproved 62 62 1 else s) := by
  split <;> exact ⟨rfl, rfl⟩

/-- A long-running command that has ended changes Zenith's tickets and what shows its result (R522, R607). -/
theorem mbFinish (s : State) (i ticket result detail : Nat) : QueueAndPartsKept s (s.mbFinish i ticket result detail) := by
  unfold State.mbFinish
  split
  · exact ⟨rfl, rfl⟩
  · dsimp only
    split
    · refine trans (trans ?_ (showResult _ _ _)) (msix _ _ _)
      exact ⟨rfl, rfl⟩
    · refine trans (trans ?_ (showResult _ _ _)) (out _ _)
      exact ⟨rfl, rfl⟩

/-- Ending the commands that waited ends each of them, or leaves it to the last partition that holds it (R542, R607). -/
theorem finishTickets (s : State) (ts : List (Nat × Nat × Nat)) (result detail : Nat) :
    QueueAndPartsKept s (s.finishTickets ts result detail) :=
  List.foldlRecOn (motive := QueueAndPartsKept s) _ _ ⟨rfl, rfl⟩ fun t ht x _ => by
    split
    · exact ht
    · exact ht.trans (mbFinish t _ _ _ _)

end QueueAndPartsKept

/-- ZEN_XTS is none of the registers that the report of a sweep's end may change. -/
theorem rZenXts_notMem_reportRegs {k : Nat} (hk : k < 4) : rZenXts k ∉ rZenApproved :: (maintRegs ++ eventRegs) := by
  interval_cases k <;> decide

/-- A sweep closed and not yet reported: its old slot's key and its place are gone, and ZEN_XTS shows no sweep and no granule left (R537). -/
def State.closeSweep (s : State) (k : Nat) : State :=
  ((s.modPart k fun p => { p with
    keys := p.keys.filter fun e => e.1 == s.fld (rZenXts k) 62 62, sweepAt := [], lockAt := [], locked := [],
    tickets := p.tickets.filter fun t => t.2.2 != 0x16 }).setFld (rZenXts k) 63 63 0).setFld (rZenXts k) 17 0 0

/-- A sweep ends closed, out of the running activities, with its event and the end of the commands that waited for it (R537). -/
theorem State.endSweep_eq (s : State) (k : Nat) : s.endSweep k =
    (((s.closeSweep k).maintEnd 6 k).eventCore k 0x0502 0 0).finishTickets ((s.part k).tickets.filter fun t => t.2.2 == 0x16) resOk 0 := rfl

/-- Closing a sweep writes ZEN_XTS alone. -/
theorem Reports.closeSweep (s : State) (k : Nat) : Reports (· = rZenXts k) s (s.closeSweep k) := by
  unfold State.closeSweep
  exact trans (trans (modPart s k _) (setFld _ 63 63 0 rfl)) (setFld _ 17 0 0 rfl)

/-- The report of a closed sweep writes the maintenance registers, what an event writes, and ZEN_APPROVED. -/
theorem Reports.closeSweep_endSweep (s : State) (k : Nat) :
    Reports (· ∈ rZenApproved :: (maintRegs ++ eventRegs)) (s.closeSweep k) (s.endSweep k) := by
  rw [State.endSweep_eq]
  refine trans (trans ((Reports.maintEnd _ 6 k).mono fun r hr => ?maint) ((Reports.eventCore _ k _ _ _).mono fun r hr => ?event))
    ((Reports.finishTickets _ _ _ _).mono fun r hr => ?tickets)
  case maint => exact List.mem_cons_of_mem _ (List.mem_append_left _ hr)
  case event => exact List.mem_cons_of_mem _ (List.mem_append_right _ hr)
  case tickets => exact List.mem_cons.mpr (.inl hr)

/-- The end of a sweep writes ZEN_XTS and what its report writes. -/
theorem Reports.endSweep (s : State) (k : Nat) :
    Reports (· ∈ rZenXts k :: rZenApproved :: (maintRegs ++ eventRegs)) s (s.endSweep k) :=
  ((Reports.closeSweep s k).mono fun _ hr => List.mem_cons.mpr (.inl hr)).trans
    ((Reports.closeSweep_endSweep s k).mono fun _ => List.mem_cons_of_mem _)

/-- After a sweep ROTATING is clear (R537). -/
theorem State.rotating_endSweep (s : State) {k : Nat} (hk : k < 4) : (s.endSweep k).fld (rZenXts k) 63 63 = 0 :=
  calc (s.endSweep k).fld (rZenXts k) 63 63
    _ = (s.closeSweep k).fld (rZenXts k) 63 63 := (Reports.closeSweep_endSweep s k).fld (rZenXts_notMem_reportRegs hk) 63 63
    _ = (State.setFld _ (rZenXts k) 63 63 0).fld (rZenXts k) 63 63 :=
      State.fld_setFld_disjoint _ _ 17 0 0 63 63 (by omega) (by omega) (by omega) (by omega)
    _ = 0 := State.fld_setFld_same _ _ 63 63 0 (by omega) (by omega)

/-- After a sweep no granule is left (R537). -/
theorem State.left_endSweep (s : State) {k : Nat} (hk : k < 4) : (s.endSweep k).fld (rZenXts k) 17 0 = 0 :=
  ((Reports.closeSweep_endSweep s k).fld (rZenXts_notMem_reportRegs hk) 17 0).trans
    (State.fld_setFld_same _ _ 17 0 0 (by omega) (by omega))

/-- After a sweep the current slot alone holds a key, the one that it held (R537). -/
theorem State.keys_endSweep (s : State) (k : Nat) :
    ((s.endSweep k).part k).keys = (s.part k).keys.filter fun e => e.1 == s.fld (rZenXts k) 62 62 := by
  have hparts : (s.endSweep k).parts = (s.closeSweep k).parts := by
    rw [State.endSweep_eq, (QueueAndPartsKept.finishTickets _ _ _ _).parts, State.eventCore, State.parts_raise, State.parts_maintEnd]
  have hpart : (s.endSweep k).part k = (s.closeSweep k).part k := congrArg (SMap.get · k) hparts
  rw [hpart, State.closeSweep, State.part_setFld, State.part_setFld, State.part_modPart_same]

/-- The end of a sweep sends REKEY_DONE (R537). -/
theorem State.exists_evq_endSweep {s : State} (k : Nat) (hroom : s.evq.length < 1024) :
    ∃ e : EventRec, (s.endSweep k).evq = s.evq ++ [e] ∧ e.code = 0x0502 := by
  have hevq : ((s.closeSweep k).maintEnd 6 k).evq = s.evq := State.evq_maintEnd _ 6 k
  rw [State.endSweep_eq, (QueueAndPartsKept.finishTickets _ _ _ _).evq, ← hevq]
  exact State.exists_evq_eventCore k 0x0502 0 0 (by rwa [hevq])

/-- What a partition records of a migrated granule: no lock, the next granule of the stack, and the slot that its bit names (R533). -/
def Part.flipGranule (p : Part) (st g : Nat) (slot : Bool) : Part :=
  { p with locked := SMap.erase p.locked st, sweepAt := SMap.set p.sweepAt st (g + 1), granules := SMap.set p.granules (st * 32768 + g) slot }

/-- A granule flipped to the current slot; the stack's reads, which waited for it, are marked (R533, R534). -/
def State.flipGranule (s : State) (k st g : Nat) : State :=
  let t := s.modPart k fun p => p.flipGranule st g (s.fld (rZenXts k) 62 62 == 1)
  { t with reads := t.reads.map fun (r : Read) =>
      if (r.kind = 6 ∨ (sdesc r.desc).src = 0) ∧ r.range.1 / 2 ^ 36 = st then { r with rekey := true } else r }

/-- Flipping a granule changes no register. -/
theorem Reports.flipGranule {P : Nat → Prop} (s : State) (k st g : Nat) : Reports P s (s.flipGranule k st g) :=
  Reports.of_eq rfl rfl rfl rfl rfl rfl rfl

/-- The partition after a flip. -/
theorem State.part_flipGranule (s : State) (k st g : Nat) :
    (s.flipGranule k st g).part k = (s.part k).flipGranule st g (s.fld (rZenXts k) 62 62 == 1) :=
  State.part_modPart_same s k fun p => p.flipGranule st g (s.fld (rZenXts k) 62 62 == 1)

/-- A granule that its sweep had locked is flipped and counted; the last one ends the sweep, and any other asks for its stack's next lock
(R533, R537). -/
theorem execGranuleMigrated_of_locked {s : State} {st k g : Nat} (hpart : s.stackPart st = some k)
    (hlocked : SMap.get (s.part k).locked st = some g) :
    execGranuleMigrated st s = .next
      (let left := (s.flipGranule k st g).fld (rZenXts k) 17 0 - 1
      let t := (s.flipGranule k st g).setFld (rZenXts k) 17 0 left
      if left = 0 then t.endSweep k else t.laterW 0 (.rekeyGranuleLock st)) := by
  unfold execGranuleMigrated
  rw [hpart]
  dsimp only
  rw [hlocked]
  rfl

/-- The last granule of a sweep flipped, with none left, before the sweep ends. -/
def State.flipLast (s : State) (k st g : Nat) : State := (s.flipGranule k st g).setFld (rZenXts k) 17 0 0

/-- A granule migrated with one left ends the sweep (R537). -/
theorem execGranuleMigrated_of_last {s : State} {st k g : Nat} (hpart : s.stackPart st = some k)
    (hlocked : SMap.get (s.part k).locked st = some g) (hleft : s.fld (rZenXts k) 17 0 = 1) :
    execGranuleMigrated st s = .next ((s.flipLast k st g).endSweep k) := by
  have hnone : (s.flipGranule k st g).fld (rZenXts k) 17 0 - 1 = 0 := Nat.sub_eq_zero_of_le hleft.le
  simp only [execGranuleMigrated_of_locked hpart hlocked, hnone, if_true, State.flipLast]

/-- The last flip leaves the current slot's number. -/
theorem State.current_flipLast (s : State) (k st g : Nat) : (s.flipLast k st g).fld (rZenXts k) 62 62 = s.fld (rZenXts k) 62 62 :=
  State.fld_setFld_disjoint _ _ 17 0 0 62 62 (by omega) (by omega) (by omega) (by omega)

/-- The last flip leaves every key. -/
theorem State.keys_flipLast (s : State) (k st g : Nat) : ((s.flipLast k st g).part k).keys = (s.part k).keys := by
  rw [State.flipLast, State.part_setFld, State.part_flipGranule, Part.flipGranule]

/-- The last flip writes ZEN_XTS alone. -/
theorem Reports.flipLast (s : State) (k st g : Nat) : Reports (· = rZenXts k) s (s.flipLast k st g) :=
  (Reports.flipGranule s k st g).trans (Reports.setFld _ 17 0 0 rfl)

/-- Settles O34: the end of the sweep keeps the current slot's key alone, so the other slot, the old one, reads empty; its report leaves ZEN_XTS. -/
theorem rekeyEnds : Obligations.RekeyEnds := by
  unfold Obligations.RekeyEnds
  intro s n k g hk hpart hlocked hleft hroom
  let u := s.flipLast k n g
  have hkey : ∀ j, SMap.get ((u.endSweep k).part k).keys j =
      if j = s.fld (rZenXts k) 62 62 then SMap.get (s.part k).keys j else none := fun j => by
    rw [State.keys_endSweep, State.keys_flipLast, State.current_flipLast, SMap.get_filter_key]
    rfl
  have hother : 1 - s.fld (rZenXts k) 62 62 ≠ s.fld (rZenXts k) 62 62 := by omega
  obtain ⟨e, hevq, hcode⟩ := State.exists_evq_endSweep (s := u) k hroom
  have hrep : Reports (· ∈ rZenXts k :: rZenApproved :: (maintRegs ++ eventRegs)) s (u.endSweep k) :=
    ((Reports.flipLast s k n g).mono fun _ hr => List.mem_cons.mpr (.inl hr)).trans (Reports.endSweep u k)
  exact ⟨u.endSweep k, e, execGranuleMigrated_of_last hpart hlocked hleft, by rw [hkey, if_neg hother], by rw [hkey, if_pos rfl],
    u.rotating_endSweep hk, u.left_endSweep hk, hevq, hcode, hrep.sameMem, hrep.reg⟩

end Sys2Proof.Machine
end

section
/-! PROOF. Every operation of the model keeps the one canonical form of memories and registers: a lemma for each operation, whose proof follows the
operation's own text (R500, log entry 2). -/
namespace Sys2Proof.Machine

/-- The canonical form, field by field. -/
structure State.InForm (s : State) : Prop where
  hbm : Memory.wf s.hbm = true
  store : Memory.wf s.store = true
  lstore : Memory.wf s.lstore = true
  mbuf : Memory.wf s.mbuf = true
  regsOk : s.RegsOk

/-- The canonical form of the frozen statements is that form. -/
theorem State.inForm_iff (s : State) : s.InForm ↔ s.Canonical :=
  ⟨fun h => ⟨⟨h.hbm, h.store, h.lstore, h.mbuf⟩, h.regsOk⟩, fun ⟨⟨h1, h2, h3, h4⟩, h5⟩ => ⟨h1, h2, h3, h4, h5⟩⟩

/-- What a command answers is in form: the next state is. -/
def OutInForm : Out → Prop
  | .next t => t.InForm
  | _ => True

/-- The state of an option, where there is one, is in form. -/
def AllInForm : Option State → Prop
  | some t => t.InForm
  | none => True

/-- The state that a gate answers ones in is in form. -/
def GateInForm : Gate → Prop
  | .ones t => t.InForm
  | _ => True

theorem OutInForm.next {t : State} (h : t.InForm) : OutInForm (.next t) := h
theorem OutInForm.ite {c : Prop} [Decidable c] {a b : Out} (ha : OutInForm a) (hb : OutInForm b) : OutInForm (if c then a else b) := by split <;> assumption
theorem AllInForm.some {t : State} (h : t.InForm) : AllInForm (some t) := h
theorem AllInForm.none : AllInForm none := trivial
theorem AllInForm.ite {c : Prop} [Decidable c] {a b : Option State} (ha : AllInForm a) (hb : AllInForm b) : AllInForm (if c then a else b) := by
  split <;> assumption
theorem GateInForm.ones {t : State} (h : t.InForm) : GateInForm (.ones t) := h
theorem GateInForm.served : GateInForm .served := trivial
theorem GateInForm.silent : GateInForm .silent := trivial
theorem GateInForm.ite {c : Prop} [Decidable c] {a b : Gate} (ha : GateInForm a) (hb : GateInForm b) : GateInForm (if c then a else b) := by
  split <;> assumption

namespace State.InForm
variable {α β : Type}

/-- A change of what is neither memory nor register. -/
theorem upd {s : State} {pending : List Instr} {badLine : SMap Nat} {cores : SMap Core} {arrays : SMap ArrayDyn} {parts : SMap Part} {bars :
    SMap BarDyn} {ports : SMap PortDyn} {hosts : SMap HostPort} {slots : List Slot} {transfers : List Transfer} {reads : List Read} {stra : List
    StraTransfer} {sent : List OutMsg} {gathers : List GatherWait} {mcasts : List Mcast} {recoveries : List Recovery} {supplied : List (Nat ×
    Nat)} {writtenBack : List SramPlace} {heldWrites : List (Nat × List Nat)} {maint : List Maint} {agenda : List Due} {evq : List EventRec}
    {evLost : Nat} {logs : SMap (List (List Nat))} {clk : Clk} {pwr : Pwr} {zen : Zen} {tap : Tap} {dumps : SMap DumpSlot} {trace : Trace}
    {pstat : SMap Nat} {eid : Nat} {outbox : List Output} {nextId : Nat} {free : Nat}
    (h : s.InForm) :
    (State.mk pending s.regs s.hbm s.store s.lstore s.mbuf badLine cores arrays parts bars ports hosts slots transfers reads stra sent gathers
      mcasts recoveries supplied writtenBack heldWrites maint agenda evq evLost logs clk pwr zen tap dumps trace pstat eid outbox nextId
      free).InForm :=
  ⟨h.hbm, h.store, h.lstore, h.mbuf, h.regsOk⟩

/-- A change of memories too, each to one in form. -/
theorem updMem {s : State} {mHbm mStore mLstore mMbuf : List Host.Cell} {pending : List Instr} {badLine : SMap Nat} {cores : SMap Core} {arrays : SMap ArrayDyn} {parts : SMap Part} {bars :
    SMap BarDyn} {ports : SMap PortDyn} {hosts : SMap HostPort} {slots : List Slot} {transfers : List Transfer} {reads : List Read} {stra : List
    StraTransfer} {sent : List OutMsg} {gathers : List GatherWait} {mcasts : List Mcast} {recoveries : List Recovery} {supplied : List (Nat ×
    Nat)} {writtenBack : List SramPlace} {heldWrites : List (Nat × List Nat)} {maint : List Maint} {agenda : List Due} {evq : List EventRec}
    {evLost : Nat} {logs : SMap (List (List Nat))} {clk : Clk} {pwr : Pwr} {zen : Zen} {tap : Tap} {dumps : SMap DumpSlot} {trace : Trace}
    {pstat : SMap Nat} {eid : Nat} {outbox : List Output} {nextId : Nat} {free : Nat}
    (h : s.InForm) (h1 : s.InForm → Memory.wf mHbm = true) (h2 : s.InForm → Memory.wf mStore = true)
    (h3 : s.InForm → Memory.wf mLstore = true) (h4 : s.InForm → Memory.wf mMbuf = true) :
    (State.mk pending s.regs mHbm mStore mLstore mMbuf badLine cores arrays parts bars ports hosts slots transfers reads stra sent gathers
      mcasts recoveries supplied writtenBack heldWrites maint agenda evq evLost logs clk pwr zen tap dumps trace pstat eid outbox nextId
      free).InForm :=
  ⟨h1 h, h2 h, h3 h, h4 h, h.regsOk⟩

theorem ite {c : Prop} [Decidable c] {a b : State} (ha : a.InForm) (hb : b.InForm) : (if c then a else b).InForm := by split <;> assumption
theorem dite {c : Prop} [Decidable c] {a : c → State} {b : ¬c → State} (ha : ∀ h, (a h).InForm) (hb : ∀ h, (b h).InForm) :
    (if h : c then a h else b h).InForm := by split; exacts [ha _, hb _]
theorem mk_fst {t : State} {a : α} (h : t.InForm) : (t, a).1.InForm := h
theorem ite_fst {c : Prop} [Decidable c] {a b : State × α} (ha : a.1.InForm) (hb : b.1.InForm) : (if c then a else b).1.InForm := by
  split <;> assumption
theorem ite_snd {c : Prop} [Decidable c] {a b : α × State} (ha : a.2.InForm) (hb : b.2.InForm) : (if c then a else b).2.InForm := by
  split <;> assumption
theorem ite_add {c : Prop} [Decidable c] {a b : Added} (ha : a.s.InForm) (hb : b.s.InForm) : (if c then a else b).s.InForm := by
  split <;> assumption

/-- An invariant of a fold, for any reading of its accumulator as a state. -/
theorem foldl_of {f : β → α → β} (g : β → State) (hf : ∀ b a, (g b).InForm → (g (f b a)).InForm) {l : List α} :
    ∀ {b : β}, (g b).InForm → (g (l.foldl f b)).InForm := by
  induction l with
  | nil => exact id
  | cons a l ih => exact fun h => ih (hf _ a h)

theorem foldl {f : State → α → State} {l : List α} {s : State} (hf : ∀ s a, s.InForm → (f s a).InForm) (h : s.InForm) : (l.foldl f s).InForm :=
  foldl_of id hf h
theorem foldl_fst {f : State × β → α → State × β} {l : List α} {p : State × β} (hf : ∀ p a, p.1.InForm → (f p a).1.InForm)
    (h : p.1.InForm) : (l.foldl f p).1.InForm := foldl_of Prod.fst hf h
theorem foldl_snd {f : β × State → α → β × State} {l : List α} {p : β × State} (hf : ∀ p a, p.2.InForm → (f p a).2.InForm)
    (h : p.2.InForm) : (l.foldl f p).2.InForm := foldl_of Prod.snd hf h
theorem foldl_add {f : Added → α → Added} {l : List α} {p : Added} (hf : ∀ p a, p.s.InForm → (f p a).s.InForm)
    (h : p.s.InForm) : (l.foldl f p).s.InForm := foldl_of Added.s hf h

/-- The state named by a case that a match has taken. -/
theorem of_fst {p : State × α} {t : State} {a : α} (e : p = (t, a)) (h : p.1.InForm) : t.InForm := by subst e; exact h
theorem of_snd {p : α × State} {t : State} {a : α} (e : p = (a, t)) (h : p.2.InForm) : t.InForm := by subst e; exact h
theorem of_some {o : Option State} {t : State} (e : o = some t) (h : AllInForm o) : t.InForm := by subst e; exact h
theorem of_ones {g : Gate} {t : State} (e : g = .ones t) (h : GateInForm g) : t.InForm := by subst e; exact h
theorem of_next {o : Out} {t : State} (e : o = .next t) (h : OutInForm o) : t.InForm := by subst e; exact h

end State.InForm

/-- A fold over states that may stop, where it does not. -/
theorem AllInForm.foldl {α : Type} {f : State → α → Option State} {l : List α} (hf : ∀ s a, s.InForm → AllInForm (f s a)) :
    ∀ {o : Option State}, AllInForm o → AllInForm (l.foldl (fun o a => match o with | Option.none => Option.none | Option.some s => f s a) o) := by
  induction l with
  | nil => exact id
  | cons a l ih =>
    intro o h
    refine ih ?_
    cases o with
    | none => exact .none
    | some s => exact hf s a h

namespace State.InForm

theorem setReg {s : State} {key : Nat} {v : Word} (hs : s.InForm) : (s.setReg key v).InForm :=
  ⟨hs.hbm, hs.store, hs.lstore, hs.mbuf, State.regsOk_setReg hs.regsOk key v⟩
theorem setFld {s : State} {key hi lo v : Nat} (hs : s.InForm) : (s.setFld key hi lo v).InForm :=
  .setReg hs
theorem bumpF {s : State} {key hi lo n : Nat} (hs : s.InForm) : (s.bumpF key hi lo n).InForm :=
  .setFld hs
theorem bump {s : State} {key n : Nat} (hs : s.InForm) : (s.bump key n).InForm :=
  .bumpF hs
theorem hbmWrite {s : State} {a : Nat} {bs : List Nat} (hs : s.InForm) : (s.hbmWrite a bs).InForm :=
  .updMem hs (fun h => Memory.wf_memWrite _ _ h.hbm) store lstore mbuf
theorem block {x : Added} {a : Nat} {q : BfpBlock} (hs : x.s.InForm) : (Added.block x a q).s.InForm :=
  .ite_add hs (.ite_add (.bump hs) (by
    split
    · exact hs
    · exact .hbmWrite hs))
theorem blocks {x : Added} {a : Nat} {qs : List BfpBlock} (hs : x.s.InForm) : (Added.blocks x a qs).s.InForm :=
  .foldl_add (fun _ _ h1 => .block h1) hs
theorem counted {x : Added} {n : Nat} (hs : x.s.InForm) : (Added.counted x n).s.InForm :=
  .ite_add hs hs
theorem traceRec {s : State} {typ source payload : Nat} (hs : s.InForm) : (s.traceRec typ source payload).InForm :=
  .ite hs (.ite (.setFld hs) (.setFld (.upd hs)))
theorem raise {s : State} {e : EventRec} (hs : s.InForm) : (s.raise e).InForm :=
  .ite (.upd (.traceRec hs)) (.upd (.bump (.traceRec hs)))
theorem eventStack {s : State} {st code detail ext : Nat} (hs : s.InForm) : (s.eventStack st code detail ext).InForm :=
  .raise hs
theorem claimRow {s : State} {c : CDesc} {row step j nblocks : Nat} (hs : s.InForm) : (s.claimRow c row step j nblocks).InForm :=
  .hbmWrite (.hbmWrite (.hbmWrite hs))
theorem row {x : Added} {c : CDesc} {step row : Nat} {blocks : List Nat} (hs : x.s.InForm) : (Added.row x c step row blocks).s.InForm := by
  unfold Added.row
  dsimp only
  exact .ite_add hs (by
    split
    · exact .eventStack (.bump hs)
    · exact .counted (.blocks (.ite_add (.claimRow hs) hs)))
theorem part {x : Added} {c : CDesc} {content : List Nat} {place i : Nat} {b : List Nat} (hs : x.s.InForm) :
  (Added.part x c content place i b).s.InForm := by
  unfold Added.part
  dsimp only
  exact .ite_add (.counted (.block hs)) (.ite_add (by
    split
    · exact hs
    · exact .counted (.foldl_add (fun _ _ h1 => .block h1) hs)) (.row hs))
theorem parts {x : Added} {c : CDesc} {content : List Nat} {place : Nat} {bs : List (List Nat)} (hs : x.s.InForm) :
  (Added.parts x c content place bs).s.InForm :=
  .foldl_add (fun _ _ h1 => .part h1) hs
theorem loadBeat {s : State} {beat phase : Nat} (hs : s.InForm) : (s.loadBeat beat phase).InForm :=
  .setFld (.setFld (.setReg (.upd hs)))
theorem after {s : State} {dom : Option Nat} {d : Nat} {a : Act} (hs : s.InForm) : (s.after dom d a).InForm :=
  .upd hs
theorem laterW {s : State} {d : Nat} {i : Instr} (hs : s.InForm) : (s.laterW d i).InForm :=
  .after hs
theorem modPort {s : State} {p : Nat} {f : PortDyn → PortDyn} (hs : s.InForm) : (s.modPort p f).InForm :=
  .upd hs
theorem sendCtl {s : State} {p : Nat} {r : CtlRec} (hs : s.InForm) : (s.sendCtl p r).InForm :=
  .ite (.modPort hs) hs
theorem acceptAlign {s : State} {p beat phase hops : Nat} (hs : s.InForm) : (s.acceptAlign p beat phase hops).InForm :=
  .laterW (.foldl (fun _ _ h1 => .sendCtl h1) (.setFld (.setFld (.loadBeat hs))))
theorem modBar {s : State} {u : Nat} {f : BarDyn → BarDyn} (hs : s.InForm) : (s.modBar u f).InForm :=
  .upd hs
theorem afterLive {s : State} {d : Nat} {a : Act} (hs : s.InForm) : (s.afterLive d a).InForm :=
  .upd hs
theorem acceptArrival {s : State} {u k sense d : Nat} {step : Bool} (hs : s.InForm) : (s.acceptArrival u k sense d step).InForm :=
  .afterLive (.modBar (.setFld hs))
theorem captureFault {s : State} {j code : Nat} {c : Option Nat} {instr : Nat} (hs : s.InForm) : (s.captureFault j code c instr).InForm :=
  .ite hs (.setReg (.setFld (.setFld (.setFld (.setFld (.setFld hs))))))
theorem modPart {s : State} {k : Nat} {f : Machine.Part → Machine.Part} (hs : s.InForm) : (s.modPart k f).InForm :=
  .upd hs
theorem modCore {s : State} {k : Nat} {f : Core → Core} (hs : s.InForm) : (s.modCore k f).InForm :=
  .upd hs
theorem modCtx {s : State} {k c : Nat} {f : Ctx → Ctx} (hs : s.InForm) : (s.modCtx k c f).InForm :=
  .modCore hs
theorem stopPartition {s : State} {k code : Nat} {trigger : List Nat} (hs : s.InForm) : (s.stopPartition k code trigger).InForm :=
  .ite hs (.modPart hs)
theorem stopContext {s : State} {j c code : Nat} {trigger : List Nat} (hs : s.InForm) : (s.stopContext j c code trigger).InForm :=
  .ite (.stopPartition (.setFld (.modCtx hs))) (.setFld (.modCtx hs))
theorem fault {s : State} {j code : Nat} {c : Option Nat} {instr ext detail source : Nat} (hs : s.InForm) :
  (s.fault j code c instr ext detail source).InForm := by
  unfold State.fault
  dsimp only
  exact .ite (.raise hs) (by
    split
    · exact .ite (.stopContext (.captureFault (.modPart (.raise hs)))) (.stopPartition (.captureFault (.modPart (.raise hs))))
    · exact .stopPartition (.captureFault (.modPart (.raise hs))))
theorem ctlTo {s : State} {dest : Coord} {r : CtlRec} (hs : s.InForm) : (s.ctlTo dest r).InForm := by
  unfold State.ctlTo
  split
  · exact .sendCtl hs
  · exact (by
    split
    · exact .laterW hs
    · exact hs)
theorem modColl {s : State} {k e : Nat} {f : CollDyn → CollDyn} (hs : s.InForm) : (s.modColl k e f).InForm :=
  .modPart hs
theorem askAgain {s : State} {k e panel replica index : Nat} {m : FabricMsg} {sat : Bool} (hs : s.InForm) :
  (s.askAgain k e panel replica index m sat).InForm :=
  .ite (.fault hs) (.ctlTo (.eventStack (.modColl hs)))
theorem ackMsg {s : State} {m : FabricMsg} (hs : s.InForm) : (s.ackMsg m).InForm :=
  .ctlTo hs
theorem faultCtx {s : State} {j c code ext : Nat} (hs : s.InForm) : (s.faultCtx j c code ext).InForm :=
  .fault hs
theorem semFault {s : State} {j kind c logical : Nat} (hs : s.InForm) : (s.semFault j kind c logical).InForm :=
  .ite hs (.setFld (.setFld (.setFld (.setFld (.setFld hs)))))
theorem linkFault {s : State} {k c logical code kind : Nat} (hs : s.InForm) : (s.linkFault k c logical code kind).InForm :=
  .faultCtx (.semFault hs)
theorem linkOwner {s : State} {k c m : Nat} (hs : s.InForm) : (s.linkOwner k c m).InForm :=
  .linkFault hs
theorem modLink {s : State} {k c m : Nat} {f : LinkDyn → LinkDyn} (hs : s.InForm) : (s.modLink k c m f).InForm :=
  .modCore hs
theorem setSem {s : State} {k c i v : Nat} (hs : s.InForm) : (s.setSem k c i v).InForm :=
  .setFld hs
theorem acquireProd {s : State} {k c m eng : Nat} (hs : s.InForm) : (s.acquireProd k c m eng).1.InForm :=
  .ite_fst (.linkOwner hs) (.ite_fst hs (.ite_fst (.linkOwner hs) (.modLink (.setSem hs))))
theorem applyRelease {s : State} {k c m : Nat} {consumer outside : Bool} (hs : s.InForm) : (s.applyRelease k c m consumer outside).InForm :=
  .ite (.linkFault hs) (.ite (.after (.after (.modLink hs))) (.after (.modLink hs)))
theorem completeColl {s : State} {k e : Nat} (hs : s.InForm) : (s.completeColl k e).InForm := by
  unfold State.completeColl
  dsimp only
  exact .ite hs (by
    split
    · exact .modColl hs
    · exact .ite (.applyRelease (.acquireProd (.modColl hs))) (.acquireProd (.modColl hs)))
theorem accumulate {s : State} {k e place : Nat} {m : FabricMsg} (hs : s.InForm) : (s.accumulate k e place m).InForm :=
  .ite (.fault (.ite (.bump (.bump (.parts hs))) (.eventStack (.bump (.bump (.parts hs)))))) (.ite (.askAgain (.ite (.bump (.bump (.parts hs)))
    (.eventStack (.bump (.bump (.parts hs)))))) (.ite (.completeColl (.ackMsg (.modColl (.ite (.bump (.bump (.parts hs))) (.eventStack (.bump (.bump
    (.parts hs)))))))) (.ackMsg (.modColl (.ite (.bump (.bump (.parts hs))) (.eventStack (.bump (.bump (.parts hs)))))))))
theorem modTransfer {s : State} {id : Nat} {f : Transfer → Transfer} (hs : s.InForm) : (s.modTransfer id f).InForm :=
  .upd hs
theorem modArr {s : State} {A : Nat} {f : ArrayDyn → ArrayDyn} (hs : s.InForm) : (s.modArr A f).InForm :=
  .upd hs
theorem modComp {s : State} {A h : Nat} {f : Half → Half} (hs : s.InForm) : (s.modComp A h f).InForm :=
  .modArr hs
theorem modRing {s : State} {A h : Nat} {f : Half → Half} (hs : s.InForm) : (s.modRing A h f).InForm :=
  .modArr hs
theorem freeRing {s : State} {A h : Nat} (hs : s.InForm) : (s.freeRing A h).InForm :=
  .ite (.modRing hs) hs
theorem dropTransfer {s : State} {id : Nat} (hs : s.InForm) : (s.dropTransfer id).InForm :=
  .upd hs
theorem closeTransfer {s : State} {id : Nat} (hs : s.InForm) : (s.closeTransfer id).InForm := by
  unfold State.closeTransfer
  split
  · exact .ite (.dropTransfer hs) hs
  · exact hs
theorem ackTransfer {s : State} {t : Transfer} (hs : s.InForm) : (s.ackTransfer t).InForm := by
  unfold State.ackTransfer
  dsimp only
  exact .closeTransfer (.ite (.ite (.modComp (by
    split
    · exact .modTransfer hs
    · exact .ite (.modComp (.modTransfer hs)) (.freeRing (.modRing (.modTransfer hs))))) (by
    split
    · exact .modTransfer hs
    · exact .ite (.modComp (.modTransfer hs)) (.freeRing (.modRing (.modTransfer hs))))) (.ite (.freeRing (.modRing (by
    split
    · exact .modTransfer hs
    · exact .ite (.modComp (.modTransfer hs)) (.freeRing (.modRing (.modTransfer hs)))))) (by
    split
    · exact .modTransfer hs
    · exact .ite (.modComp (.modTransfer hs)) (.freeRing (.modRing (.modTransfer hs))))))
theorem askLull {s : State} {k : Nat} {r : LullReq} (hs : s.InForm) : (s.askLull k r).InForm :=
  .modPart (.ite (.traceRec hs) hs)
theorem askStage {s : State} {j stage cause tag : Nat} (hs : s.InForm) : (s.askStage j stage cause tag).InForm :=
  .ite hs (.bump (.askLull hs))
theorem acquireCons {s : State} {k c m eng stage : Nat} (hs : s.InForm) : (s.acquireCons k c m eng stage).1.InForm :=
  .ite_fst (.linkOwner hs) (.ite_fst hs (.ite_fst (.ite_fst (.askStage hs) (.linkFault hs)) (.modLink (.setSem hs))))
theorem acquireAll {s : State} {k c stage : Nat} {ms : List Nat} (hs : s.InForm) : (s.acquireAll k c stage ms).1.InForm :=
  .foldl_fst (fun _ _ h1 => (by
    split
    · exact .acquireCons h1
    · exact h1)) hs
theorem acquireBlock {s : State} {k a arr base len : Nat} (hs : s.InForm) : (s.acquireBlock k a arr base len).1.InForm :=
  .foldl_fst (fun _ _ h1 => .ite_fst (.acquireCons h1) h1) hs
theorem acquireIn {s : State} {k c link stage : Nat} (hs : s.InForm) : (s.acquireIn k c link stage).1.InForm :=
  .ite_fst hs (.acquireCons hs)
theorem acquireOuts {s : State} {k c : Nat} {ms : List Nat} (hs : s.InForm) : (s.acquireOuts k c ms).1.InForm :=
  .foldl_fst (fun _ _ h1 => .ite_fst (.acquireProd h1) h1) hs
theorem acquireThin {s : State} {k c : Nat} {d : TDesc} (hs : s.InForm) : (s.acquireThin k c d).1.InForm := by
  unfold State.acquireThin
  dsimp only
  split
  · exact .ite_fst (.acquireProd (.ite_fst (.ite_fst hs (.acquireCons hs)) (.acquireProd (.ite_fst hs (.acquireCons hs))))) (.ite_fst (.ite_fst hs
    (.acquireCons hs)) (.acquireProd (.ite_fst hs (.acquireCons hs))))
  · exact .ite_fst hs (.acquireCons hs)
theorem eventCore {s : State} {j code detail ext : Nat} (hs : s.InForm) : (s.eventCore j code detail ext).InForm :=
  .raise hs
theorem companionEvent {s : State} {A h k : Nat} {nan sat : Bool} (hs : s.InForm) : (s.companionEvent A h k nan sat).InForm :=
  .ite (.eventCore (.modComp (.ite (.eventCore (.modComp hs)) hs))) (.ite (.eventCore (.modComp hs)) hs)
theorem bankWrite {s : State} {A bank off : Nat} {bs : List Nat} (hs : s.InForm) : (s.bankWrite A bank off bs).InForm :=
  .updMem hs hbm store (fun h => Memory.wf_memWrite _ _ h.lstore) mbuf
theorem setCompBlock {s : State} {A h r b : Nat} {x : BfpBlock} (hs : s.InForm) : (s.setCompBlock A h r b x).InForm :=
  .bankWrite hs
theorem addColumnBlock {s : State} {A : Nat} {p : Product} {j b : Nat} (hs : s.InForm) : AllInForm (s.addColumnBlock A p j b) := by
  unfold State.addColumnBlock
  dsimp only
  split
  · exact .none
  · exact .some (.setCompBlock (.companionEvent (.bump (.bump (.bump hs)))))
theorem dropProd {s : State} {A id : Nat} (hs : s.InForm) : (s.dropProd A id).InForm :=
  .modArr hs
theorem adderFatal {s : State} {A : Nat} {p : Product} (hs : s.InForm) : (s.adderFatal A p).InForm :=
  .fault (.dropProd hs)
theorem adderRefused {s : State} {A h : Nat} {p : Product} (hs : s.InForm) : (s.adderRefused A h p).InForm :=
  .fault (.dropProd hs)
theorem book {p cap : Nat} : ∀ {n b f : Nat} {s : State}, s.InForm → (State.book p cap n b f s).InForm
  | 0, _, _, _, h => h
  | n + 1, _, _, _, h => book (n := n) h.modPort
theorem admitFlits {s : State} {p n h deadline : Nat} (hs : s.InForm) : AllInForm (s.admitFlits p n h deadline) :=
  .ite .none (.some (.book (.modPort hs)))
theorem afterHeld {s : State} {k : Nat} {a : Act} (hs : s.InForm) : (s.afterHeld k a).InForm :=
  .upd hs
theorem afterResend {s : State} {k d : Nat} {a : Act} (hs : s.InForm) : (s.afterResend k d a).InForm :=
  .upd hs
theorem again {s : State} {j : Nat} {i : Instr} (hs : s.InForm) : (s.again j i).InForm :=
  .afterHeld hs
theorem eventPort {s : State} {p code detail ext : Nat} (hs : s.InForm) : (s.eventPort p code detail ext).InForm :=
  .raise hs
theorem showMaint {s : State} (hs : s.InForm) : s.showMaint.InForm :=
  .foldl (fun _ _ h1 => .setFld (.setFld (.setFld h1))) hs
theorem maintEnd {s : State} {act scope : Nat} (hs : s.InForm) : (s.maintEnd act scope).InForm :=
  .showMaint (.upd hs)
theorem clearPort {s : State} {p : Nat} (hs : s.InForm) : (s.clearPort p).InForm :=
  .modPort hs
theorem goDark {s : State} {p : Nat} (hs : s.InForm) : (s.goDark p).InForm :=
  .maintEnd (.setFld (.clearPort hs))
theorem agreeVersion {s : State} {p : Nat} {r : TrainResult} (hs : s.InForm) : (s.agreeVersion p r).InForm :=
  .ite (.laterW (.eventPort (.goDark hs))) (.setFld (.setFld hs))
theorem alignOrigin {s : State} (hs : s.InForm) : s.alignOrigin.InForm :=
  .laterW (.foldl (fun _ _ h1 => .sendCtl h1) (.setFld (.setFld (.loadBeat hs))))
theorem aoAppend {s : State} {code : Nat} (hs : s.InForm) : (s.aoAppend code).InForm :=
  .upd hs
theorem endLull {s : State} {k kind tag : Nat} (hs : s.InForm) : (s.endLull k kind tag).InForm :=
  .ite (.traceRec (.modPart hs)) (.modPart hs)
theorem finishRelease {s : State} {k c m : Nat} (hs : s.InForm) : (s.finishRelease k c m).InForm :=
  .ite (.applyRelease (.endLull hs)) hs
theorem finishReleases {s : State} (hs : s.InForm) : s.finishReleases.InForm :=
  .foldl (fun _ _ h1 => .foldl (fun _ _ h2 => .finishRelease h2) h1) hs
theorem applyHeld {s : State} (hs : s.InForm) : s.applyHeld.InForm :=
  .ite (.upd hs) (.finishReleases (.foldl (fun _ _ h1 => .hbmWrite h1) (.upd hs)))
theorem resetBits {s : State} {mask : Nat → Nat} (hs : s.InForm) : (s.resetBits mask).InForm := by
  obtain ⟨hrise, -⟩ := hs.regsOk
  refine ⟨hs.hbm, hs.store, hs.lstore, hs.mbuf, hrise.filterMap _ fun a b hab a' ha' b' hb' => ?_, fun e he => ?_⟩
  · dsimp only at ha' hb'
    split at ha'
    · simp at ha'
    · split at hb'
      · simp at hb'
      · cases ha'; cases hb'; exact hab
  · obtain ⟨a, -, ha⟩ := List.mem_filterMap.mp he
    dsimp only at ha
    split at ha
    · simp at ha
    · cases ha; assumption
theorem setRegs {s : State} {l : List (Nat × Nat)} (hs : s.InForm) : (s.setRegs l).InForm :=
  .foldl (fun _ _ h1 => .setReg h1) hs
theorem storeWrite {s : State} {k off : Nat} {bs : List Nat} (hs : s.InForm) : (s.storeWrite k off bs).InForm :=
  .updMem hs hbm (fun h => Memory.wf_memWrite _ _ h.store) lstore mbuf
theorem loadCore {s : State} {img : List Nat} {rs : List Rec} {j core : Nat} (hs : s.InForm) : (s.loadCore img rs j core).InForm :=
  .setFld (.setFld (.setFld (.setFld (.storeWrite (.storeWrite (.storeWrite (.storeWrite (.foldl (fun _ _ h1 => .setFld h1) (.setRegs (.foldl
    (fun _ _ h2 => .setRegs h2) (.resetBits (.modCore hs))))))))))))
theorem loadBars {s : State} {k : Nat} {rs : List Rec} (hs : s.InForm) : (s.loadBars k rs).InForm :=
  .foldl (fun _ _ h1 => .upd (.setReg (.setReg h1))) (.foldl (fun _ _ h2 => .ite (.setReg (.setReg h2)) h2) hs)
theorem applyImage {s : State} {k : Nat} {bases img : List Nat} (hs : s.InForm) : (s.applyImage k bases img).InForm := by
  unfold State.applyImage
  dsimp only
  exact .foldl (fun _ _ h1 => (by
    split
    · exact .hbmWrite h1
    · exact h1)) (.modPart (.foldl (fun _ _ h2 => .setFld h2) (.setFld (.loadBars (.foldl (fun _ _ h3 => .loadCore h3) hs)))))
theorem modMcast {s : State} {src : Coord} {id : Nat} {f : Mcast → Mcast} (hs : s.InForm) : (s.modMcast src id f).InForm :=
  .upd hs
theorem modBranch {s : State} {src : Coord} {id line : Nat} {f : Branch → Branch} (hs : s.InForm) : (s.modBranch src id line f).InForm :=
  .modMcast hs
theorem askCatchups {s : State} (hs : s.InForm) : s.askCatchups.InForm := by
  unfold State.askCatchups
  dsimp only
  exact .foldl (fun _ _ h1 => .foldl (fun _ _ h2 => (by
    split
    · exact h2
    · exact .ite h2 (.ctlTo (.ite (.bump (.modBranch h2)) (.modBranch h2))))) h1) hs
theorem fresh {s : State} (hs : s.InForm) : (s.fresh).2.InForm :=
  .upd hs
theorem askHeader {s : State} {k c instr A h sender : Nat} (hs : s.InForm) : (s.askHeader k c instr A h sender).2.InForm :=
  .afterResend (.upd (.fresh hs))
theorem maintRefuse {s : State} {act scope conflict : Nat} (hs : s.InForm) : (s.maintRefuse act scope conflict).InForm :=
  .foldl (fun _ _ h1 => .setFld (.setFld h1)) hs
theorem maintGrant {s : State} {act scope : Nat} (hs : s.InForm) : (s.maintGrant act scope).InForm :=
  .showMaint (.upd hs)
theorem askLinkReset {s : State} {p : Nat} (hs : s.InForm) : (s.askLinkReset p).InForm := by
  unfold State.askLinkReset
  split
  · exact .maintRefuse hs
  · exact .laterW (.maintGrant hs)
theorem askNak {s : State} {p : Nat} {control : Bool} (hs : s.InForm) : (s.askNak p control).InForm :=
  .ite hs (.modPort hs)
theorem askRemap {s : State} {st line : Nat} (hs : s.InForm) : (s.askRemap st line).InForm := by
  unfold State.askRemap
  dsimp only
  split
  · exact .eventStack (.maintRefuse hs)
  · exact .laterW (.upd (.maintGrant hs))
theorem dropRecovery {s : State} {id : Nat} (hs : s.InForm) : (s.dropRecovery id).InForm :=
  .upd hs
theorem dropHeld {s : State} {a n : Nat} (hs : s.InForm) : (s.dropHeld a n).InForm :=
  .ite hs (.finishReleases (.upd hs))
theorem captureErr {s : State} {core space arr addr check method : Nat} (hs : s.InForm) : (s.captureErr core space arr addr check method).InForm :=
  .ite (.bumpF hs) (.setReg (.setFld (.setFld (.setFld (.setFld (.setFld (.bumpF hs)))))))
theorem out {s : State} {o : Output} (hs : s.InForm) : (s.out o).InForm :=
  .upd hs
theorem uncorrectable {s : State} {r : Recovery} {reason : Nat} (hs : s.InForm) : (s.uncorrectable r reason).InForm := by
  unfold State.uncorrectable
  dsimp only
  exact .ite (.eventStack (.captureErr (.bump hs))) (by
    split
    · exact .ite (.raise (.captureErr (.bump hs))) (.out (.raise (.captureErr (.bump hs))))
    · exact .ite (.fault (.fault (.captureErr (.bump hs)))) (.fault (.captureErr (.bump hs))))
theorem lost {s : State} {r : Recovery} {reason : Nat} (hs : s.InForm) : (s.lost r reason).InForm :=
  .uncorrectable (.ite (.maintEnd (.ite (.dropHeld (.upd (.dropRecovery hs))) (.upd (.dropRecovery hs)))) (.ite (.dropHeld (.upd
    (.dropRecovery hs))) (.upd (.dropRecovery hs))))
theorem modRecovery {s : State} {id : Nat} {f : Recovery → Recovery} (hs : s.InForm) : (s.modRecovery id f).InForm :=
  .upd hs
theorem keepSent {s : State} {o : OutMsg} (hs : s.InForm) : (s.keepSent o).InForm :=
  .laterW (.upd hs)
theorem queueTx {s : State} {p : Nat} {m : FabricMsg} (hs : s.InForm) : (s.queueTx p m).InForm :=
  .modPort hs
theorem askReplica {s : State} {r : Recovery} {e : List Nat} (hs : s.InForm) : (s.askReplica r e).InForm := by
  have hrefused : ∀ p : Option Nat, (match p with | some q => s.bump (rLnkNotAdmitted q) 1 | none => s).InForm := fun p => by
    cases p with
    | none => exact hs
    | some q => exact .bump hs
  have hf : s.fresh.2.InForm := .fresh hs
  unfold State.askReplica
  extract_lets base src item items n m r'
  clear_value items m
  dsimp only
  split
  · exact .lost (hrefused _)
  · split
    · exact .modRecovery (.upd (.laterW (.keepSent hf)))
    · split
      · exact .lost (.bump hs)
      · rename_i heq
        exact .modRecovery (.upd (.queueTx (.keepSent (.of_some heq (.ite (admitFlits hf) .none)))))
theorem askResend {s : State} {id u : Nat} (hs : s.InForm) : (s.askResend id u).InForm := by
  unfold State.askResend
  dsimp only
  split
  · exact hs
  · exact .ite hs (.afterResend (.modTransfer hs))
theorem authFail {s : State} {p : Nat} (hs : s.InForm) : (s.authFail p).InForm :=
  .laterW (.eventPort (.modPort hs))
theorem awaitKeys {s : State} {p : Nat} (hs : s.InForm) : (s.awaitKeys p).InForm :=
  .ite hs (.ite (.setFld (.modPort hs)) (.modPort hs))
theorem baddSlot {s : State} {k : Nat} {c : CDesc} {place replica : Nat} (hs : s.InForm) :
    (s.baddSlot k c place replica).1.InForm := by
  unfold State.baddSlot
  extract_lets a content r t
  have ht : t.InForm := .bump (.parts hs)
  exact .mk_fst (.ite ht (.eventCore ht))
theorem later {s : State} {j d : Nat} {i : Instr} (hs : s.InForm) : (s.later j d i).InForm :=
  .after hs
theorem beginVector {s : State} {k c idx vclk tail passes tiles : Nat} {desc : List Nat} {writesL : Bool} (hs : s.InForm) :
  (s.beginVector k c idx vclk tail passes tiles desc writesL).InForm :=
  .later (.setFld (.setFld (.modCore hs)))
theorem baddColl {s : State} {k c idx : Nat} {desc : List Nat} (hs : s.InForm) : (s.baddColl k c idx desc).InForm :=
  .ite (.beginVector (.foldl_fst (fun _ _ h1 => .ite_fst (.baddSlot h1) h1) hs)) (.faultCtx (.foldl_fst (fun _ _ h2 => .ite_fst
    (.baddSlot h2) h2) hs))
theorem baddRows {s : State} {k c idx n slot bytes acc : Nat} {desc : List Nat} (hs : s.InForm) : (s.baddRows k c idx n slot bytes acc desc).InForm :=
  .ite (.beginVector (.ite (.bump (.foldl_add (fun _ _ h1 => .blocks h1) (.ite hs (.hbmWrite hs)))) (.eventCore (.bump (.foldl_add
    (fun _ _ h2 => .blocks h2) (.ite hs (.hbmWrite hs))))))) (.faultCtx (.ite (.bump (.foldl_add (fun _ _ h3 => .blocks h3) (.ite hs
    (.hbmWrite hs)))) (.eventCore (.bump (.foldl_add (fun _ _ h4 => .blocks h4) (.ite hs (.hbmWrite hs)))))))
theorem barFault {s : State} {u code : Nat} {who : Option (Nat × Nat)} (hs : s.InForm) : (s.barFault u code who).InForm := by
  unfold State.barFault
  split
  · exact .faultCtx hs
  · exact .fault hs
theorem setCompHdr {s : State} {A h : Nat} {bs : List Nat} (hs : s.InForm) : (s.setCompHdr A h bs).InForm :=
  .foldl (fun _ _ h1 => .bankWrite h1) hs
theorem modProd {s : State} {A id : Nat} {f : Product → Product} (hs : s.InForm) : (s.modProd A id f).InForm :=
  .modArr hs
theorem beginAdd {s : State} {A id : Nat} (hs : s.InForm) : (s.beginAdd A id).InForm := by
  unfold State.beginAdd
  dsimp only
  split
  · exact hs
  · exact .ite hs (.ite (.ite (.adderRefused hs) (.modProd (.setCompHdr (.modArr (.modComp hs))))) (.ite (by
    split
    · exact .afterHeld (.askStage hs)
    · exact .adderRefused hs) (.ite (by
    split
    · exact .afterHeld (.askStage (.askHeader (.modProd hs)))
    · exact .fault (.dropProd hs)) (.modProd (.setCompHdr hs)))))
theorem setPstate {s : State} {k v : Nat} (hs : s.InForm) : (s.setPstate k v).InForm :=
  .setFld hs
theorem modHost {s : State} {h : Nat} {f : HostPort → HostPort} (hs : s.InForm) : (s.modHost h f).InForm :=
  .upd hs
theorem msix {s : State} {h v : Nat} (hs : s.InForm) : (s.msix h v).InForm :=
  .ite hs (.ite (.modHost hs) (.ite (.modHost hs) (.out hs)))
theorem mbFinish {s : State} {i ticket result detail : Nat} (hs : s.InForm) : (s.mbFinish i ticket result detail).InForm := by
  unfold State.mbFinish
  dsimp only
  split
  · exact hs
  · exact .ite (.msix (.ite (.setFld (.setFld (.upd hs))) (.upd hs))) (.out (.ite (.setFld (.setFld (.upd hs))) (.upd hs)))
theorem dropRun {s : State} {k : Nat} (hs : s.InForm) : (s.dropRun k).InForm :=
  .modPart (.upd hs)
theorem toUnloaded {s : State} {k : Nat} (hs : s.InForm) : (s.toUnloaded k).InForm := by
  unfold State.toUnloaded
  dsimp only
  exact .setPstate (.foldl (fun _ _ h1 => .setFld (.setFld h1)) (.dropRun (by
    split
    · exact .mbFinish hs
    · exact hs)))
theorem showPstat {s : State} (hs : s.InForm) : s.showPstat.InForm :=
  .upd hs
theorem beginClearing {s : State} {k : Nat} {ts : List (Nat × Nat × Nat)} (hs : s.InForm) : (s.beginClearing k ts).InForm :=
  .laterW (.showPstat (.modPart (.setPstate (.toUnloaded (.maintGrant hs)))))
theorem stopEngine {s : State} {k e interval : Nat} (hs : s.InForm) : (s.stopEngine k e interval).InForm :=
  .modCore hs
theorem nextIssue {s : State} {k e total interval : Nat} (hs : s.InForm) : (s.nextIssue k e total interval).InForm :=
  .ite (.later (.modCore hs)) (.stopEngine hs)
theorem takeCompanion {s : State} {k e : Nat} {en : Engine} {A h : Nat} {q : List Nat × Nat × Nat × Nat} {rest : List (List Nat × Nat × Nat × Nat)}
  (hs : s.InForm) : (s.takeCompanion k e en A h q rest).InForm :=
  .later (.later (.foldl (fun _ _ h1 => .later h1) (.modCore hs)))
theorem beginHandoff {s : State} {k e : Nat} {en : Engine} {d : SDesc} (hs : s.InForm) : (s.beginHandoff k e en d).InForm := by
  unfold State.beginHandoff
  dsimp only
  exact .ite (by
    split
    · exact .again (.askStage hs)
    · exact .fault (.stopEngine hs)) (.ite (.fault (.stopEngine hs)) (by
    split
    · exact .fault (.nextIssue (.later hs))
    · exact .ite (.nextIssue (.takeCompanion hs)) (by
      split
      · exact .again (.askStage (.modCore (.askHeader hs)))
      · exact .fault (.stopEngine hs))))
theorem pruneSlots {s : State} {k : Nat} (hs : s.InForm) : (s.pruneSlots k).InForm :=
  .upd hs
theorem haloCollision {s : State} {k c A : Nat} {x : Slot} (hs : s.InForm) : (s.haloCollision k c A x).InForm :=
  .faultCtx (.setFld (.ite hs (.setReg (.setFld (.setFld (.setFld hs))))))
theorem beginInject {s : State} {k e : Nat} {en : Engine} {d : SDesc} (hs : s.InForm) : (s.beginInject k e en d).InForm := by
  unfold State.beginInject
  dsimp only
  split
  · exact .again (.askStage (.pruneSlots hs))
  · exact (by
    split
    · exact .haloCollision (.stopEngine (.pruneSlots hs))
    · exact .nextIssue (.modCore (.after (.upd (.fresh (.pruneSlots hs))))))
theorem drawKey {s : State} (hs : s.InForm) : (s.drawKey).2.InForm :=
  .upd hs
theorem startKeyx {s : State} {p n : Nat} (hs : s.InForm) : (s.startKeyx p n).InForm :=
  .sendCtl (.modPort (.drawKey hs))
theorem beginKeys {s : State} {p : Nat} (hs : s.InForm) : (s.beginKeys p).InForm :=
  .ite (.startKeyx hs) hs
theorem countCheck {s : State} {core space addr check : Nat} (hs : s.InForm) : (s.countCheck core space addr check).InForm :=
  .ite (.bump hs) (.ite (.bump hs) hs)
theorem sramHard {s : State} {core space arr addr len check : Nat} (hs : s.InForm) : (s.sramHard core space arr addr len check).InForm :=
  .ite (.eventCore hs) hs
theorem beginRecovery {s : State} {core space arr addr len check : Nat} {waiter : Option Nat} {patrol : Bool} {host : Option Nat} {write : Option
  (Nat × List Nat)} {hdr : Option Nat} {read : Option (Nat × Nat)} {key : Nat} (hs : s.InForm) :
  (s.beginRecovery core space arr addr len check waiter patrol host write hdr read key).InForm := by
  unfold State.beginRecovery
  dsimp only
  split
  · exact (by
    split
    · exact .laterW (.upd (by
      split
      · exact .upd hs
      · exact hs))
    · exact .laterW (.upd (by
      split
      · exact .upd hs
      · exact hs))
    · exact .upd (by
      split
      · exact .upd hs
      · exact hs))
  · exact .upd (.laterW (.fresh (.sramHard (.countCheck (by
    split
    · exact .upd hs
    · exact hs)))))
theorem beginSweep {s : State} {k : Nat} {ts : List (Nat × Nat × Nat)} (hs : s.InForm) : (s.beginSweep k ts).InForm :=
  .foldl (fun _ _ h1 => .laterW h1) (.modPart (.setFld (.setFld (.setFld (.maintGrant (.drawKey hs))))))
theorem halfRefused {s : State} {k j h : Nat} {ctx : Option Nat} {addr : Nat} (hs : s.InForm) : (s.halfRefused k j h ctx addr).InForm := by
  unfold State.halfRefused
  dsimp only
  split
  · exact .faultCtx (.semFault hs)
  · exact .fault (.semFault hs)
theorem mayWrite {s : State} {k c m eng space arr addr len : Nat} (hs : s.InForm) :
    (s.mayWrite k c m eng space arr addr len).1.InForm := by
  have hrefused : ∀ j h x a, (s.halfRefused k j h x a).InForm := fun _ _ _ _ => .halfRefused hs
  unfold State.mayWrite
  refine .ite_fst (.faultCtx hs) (.ite_fst (.faultCtx hs) (.ite_fst (.faultCtx hs) (.ite_fst (.faultCtx hs) ?_)))
  dsimp only
  generalize List.find? _ _ = near
  generalize (if space = 0 then (s.farHits k addr len).head? else none) = far
  rcases near with _ | near
  · rcases far with _ | far
    · exact .ite_fst hs (.ite_fst (.linkOwner hs) (.acquireProd hs))
    · exact .mk_fst (hrefused _ _ _ _)
  · exact .mk_fst (hrefused _ _ _ _)
theorem shared {s : State} {n : Nat} (hs : s.InForm) : (s.shared n).InForm :=
  .bump hs
theorem fetchWrite {s : State} {k c e base : Nat} {d : SDesc} {n : Nat} {bs : List Nat} (hs : s.InForm) : (s.fetchWrite k c e base d n bs).InForm :=
  .foldl_fst (fun _ _ h1 => .ite (.ite_fst (.mayWrite h1) h1) (.ite (.shared (.hbmWrite (.ite_fst (.mayWrite h1) h1))) (.storeWrite (.ite_fst
    (.mayWrite h1) h1)))) hs
theorem mayWrite2 {s : State} {k c m eng space arr : Nat} {x y : Nat × Nat} (hs : s.InForm) : (s.mayWrite2 k c m eng space arr x y).1.InForm :=
  .ite_fst (.mayWrite (.mayWrite hs)) (.mayWrite hs)
theorem putElem {s : State} {A bank off w pos code : Nat} (hs : s.InForm) : (s.putElem A bank off w pos code).InForm :=
  .ite (.bankWrite hs) (.bankWrite hs)
theorem skewHdr {s : State} {A B w t : Nat} {hdr : List Nat} (hs : s.InForm) : (s.skewHdr A B w t hdr).InForm :=
  .foldl (fun _ _ h1 => .bankWrite h1) hs
theorem skewWrite {s : State} {A B w t : Nat} {hdr elems : List Nat} (hs : s.InForm) : (s.skewWrite A B w t hdr elems).InForm :=
  .skewHdr (.foldl (fun _ _ h1 => .putElem h1) hs)
theorem plainAt {s : State} {A B m0 : Nat} {bs : List Nat} (hs : s.InForm) : (s.plainAt A B m0 bs).InForm :=
  .foldl (fun _ _ h1 => .bankWrite h1) hs
theorem feedPlace {s : State} {k base : Nat} {d : SDesc} {n key : Nat} {cv : Converted} (hs : s.InForm) : (s.feedPlace k base d n key cv).InForm :=
  .ite (.skewWrite hs) (.ite (.plainAt (.plainAt hs)) (.storeWrite (.storeWrite hs)))
theorem feedWrite {s : State} {k c e base : Nat} {d : SDesc} {n key : Nat} {cv : Converted} (hs : s.InForm) :
  (s.feedWrite k c e base d n key cv).InForm :=
  .ite (.feedPlace (.ite_fst (.mayWrite hs) (.ite_fst (.mayWrite2 hs) (.mayWrite2 hs)))) (.ite_fst (.mayWrite hs) (.ite_fst (.mayWrite2 hs)
      (.mayWrite2 hs)))
theorem bfpFeed {s : State} {k c e base : Nat} {d : SDesc} {n key : Nat} {bs : List Nat} (hs : s.InForm) : (s.bfpFeed k c e base d n key bs).InForm :=
  .ite (.ite (.faultCtx hs) (.ite (.fetchWrite hs) hs)) (.ite (.faultCtx hs) (.ite (.fetchWrite hs) (.ite (.feedWrite hs) (.faultCtx hs))))
theorem bfpPlace {s : State} {k base : Nat} {d : SDesc} {n : Nat} {bs : List Nat} (hs : s.InForm) : (s.bfpPlace k base d n bs).InForm :=
  .foldl_fst (fun _ _ h1 => .storeWrite h1) hs
theorem pushLocal {s : State} {x : Mcast} {i : Nat} {bs : List Nat} (hs : s.InForm) : (s.pushLocal x i bs).InForm :=
  .laterW (.modBranch hs)
theorem pushPiece {s : State} {x : Mcast} {b : Branch} {i : Nat} {bs : List Nat} (hs : s.InForm) : (s.pushPiece x b i bs).InForm :=
  .ite (.bump hs) (.modPort (.ite (.modBranch (.modPort hs)) hs))
theorem branchFlit {s : State} {x : Mcast} {b : Branch} {i : Nat} {bs : List Nat} (hs : s.InForm) : (s.branchFlit x b i bs).InForm :=
  .ite hs (.ite (.modBranch hs) (.ite (.pushLocal hs) (.pushPiece hs)))
theorem setQueue {s : State} {k : Nat} {q : List QEntry} (hs : s.InForm) : (s.setQueue k q).InForm :=
  .setFld (.modPart hs)
theorem draw {s : State} {w : Nat} (hs : s.InForm) : (s.draw w).2.InForm :=
  .upd hs
theorem writeRecord {s : State} {k : Nat} {r : List Nat} {vector : Bool} (hs : s.InForm) : (s.writeRecord k r vector).InForm :=
  .ite (.msix (.setFld (.out hs))) (.setFld (.out hs))
theorem putRecord {s : State} {k kind status seqno step token count : Nat} {vector : Bool} (hs : s.InForm) :
  (s.putRecord k kind status seqno step token count vector).InForm :=
  .ite (.writeRecord hs) (.ite (.setFld (.modPart hs)) (.ite (.ite (.msix hs) hs) (.eventCore (.setFld (.ite (.msix hs) hs)))))
theorem recordOf {s : State} {k kind status : Nat} {e : RingEntry} {step : Option Nat} {vector : Bool} (hs : s.InForm) :
    (s.recordOf k kind status e step vector).InForm := by
  cases step with
  | none => exact .putRecord (.draw (w := 64) (.draw (w := 32) hs))
  | some n => exact .putRecord (.draw (w := 32) hs)
theorem serveQueue {k : Nat} : ∀ {n : Nat} {s : State}, s.InForm → (State.serveQueue k n s).InForm
  | 0, _, h => h
  | n + 1, s, h => by
    unfold State.serveQueue
    split
    · exact h
    · exact .ite (.ite (serveQueue (.recordOf h.setQueue)) (.ite (serveQueue (.recordOf h.setQueue)) h))
        (.ite h (serveQueue (.ite (.recordOf h.setQueue) h.setQueue)))
theorem cancelQueue {s : State} {k : Nat} (hs : s.InForm) : (s.cancelQueue k).InForm :=
  .serveQueue (.putRecord (.setQueue hs))
theorem catchupArrive {s : State} {m : FabricMsg} (hs : s.InForm) : (s.catchupArrive m).InForm := by
  unfold State.catchupArrive
  dsimp only
  split
  · exact hs
  · exact (by
    split
    · exact hs
    · exact .foldl (fun _ _ h1 => (by
      split
      · exact (by
        split
        · exact .ite (.pushLocal h1) (.pushPiece h1)
        · exact h1)
      · exact h1)) (.modBranch hs))
theorem checkPeer {s : State} {p : Nat} {r : IdentRec} (hs : s.InForm) : (s.checkPeer p r).InForm :=
  .ite (.eventPort (.setFld (.modPort hs))) (.ite (.beginKeys (.setFld (.ite (.sendCtl (.modPort hs)) (.modPort hs)))) (.setFld (.ite (.sendCtl
    (.modPort hs)) (.modPort hs))))
theorem releaseHeld {s : State} {u sense : Nat} (hs : s.InForm) : (s.releaseHeld u sense).InForm :=
  .foldl (fun _ _ h1 => .ite (.endLull (.acceptArrival h1)) h1) (.ite (.setFld (.modBar hs)) (.modBar hs))
theorem toChildren {s : State} {u : Nat} {r : CtlRec} (hs : s.InForm) : (s.toChildren u r).InForm :=
  .foldl (fun _ _ h1 => .sendCtl h1) hs
theorem openSense {s : State} {u sense : Nat} (hs : s.InForm) : (s.openSense u sense).InForm :=
  .releaseHeld (.toChildren (.setFld hs))
theorem checkReopen {s : State} {u sense : Nat} (hs : s.InForm) : (s.checkReopen u sense).InForm :=
  .ite (.ite (.openSense (.modBar (.setFld hs))) (.sendCtl (.modBar (.setFld hs)))) hs
theorem clearKeys {s : State} {k : Nat} (hs : s.InForm) : (s.clearKeys k).InForm :=
  .updMem (.foldl (fun _ _ h1 => .awaitKeys h1) (.setReg (.modPart (.ite (.drawKey hs) hs)))) (fun h => Memory.wf_filter h.hbm _) store lstore mbuf
theorem clearMemory {s : State} {k : Nat} (hs : s.InForm) : (s.clearMemory k).InForm :=
  .updMem hs (fun h => Memory.wf_filter h.hbm _) (fun h => Memory.wf_filter h.store _) (fun h => Memory.wf_filter h.lstore _) mbuf
theorem clearOrWait {s : State} {k : Nat} {ts : List (Nat × Nat × Nat)} (hs : s.InForm) : (s.clearOrWait k ts).InForm := by
  unfold State.clearOrWait
  split
  · exact .modPart (.maintRefuse hs)
  · exact .beginClearing hs
theorem clearRegs {s : State} {k : Nat} (hs : s.InForm) : (s.clearRegs k).InForm := by
  unfold State.clearRegs
  exact .resetBits hs
theorem coldState {s : State} {kind : Nat} {held : Bool} (_ : s.InForm) : (s.coldState kind held).InForm :=
  .setReg ⟨rfl, rfl, rfl, rfl, .nil, fun _ h => absurd h List.not_mem_nil⟩
theorem commitAo {s : State} (hs : s.InForm) : s.commitAo.InForm :=
  .upd hs
theorem coldHold {s : State} {code kind : Nat} (hs : s.InForm) : (s.coldHold code kind).InForm :=
  .coldState (.commitAo (.aoAppend hs))
theorem companionIn {s : State} {t : Transfer} (hs : s.InForm) : (s.companionIn t).InForm :=
  .ite (.modComp hs) hs
theorem compareBeat {s : State} {p beat phase : Nat} (hs : s.InForm) : (s.compareBeat p beat phase).InForm :=
  .ite (.eventPort (.ite (.setFld hs) hs)) (.ite (.setFld hs) hs)
theorem completeDepart {s : State} {u k sense : Nat} (hs : s.InForm) : (s.completeDepart u k sense).InForm :=
  .afterLive (.modBar (.setFld hs))
theorem dropPart {s : State} {k : Nat} (hs : s.InForm) : (s.dropPart k).InForm :=
  .upd (.toUnloaded hs)
theorem showOwner {s : State} {p : Nat} (hs : s.InForm) : (s.showOwner p).InForm := by
  unfold State.showOwner
  split
  · exact .setFld (.setFld hs)
  · exact .setFld (.setFld hs)
theorem showOwners {s : State} (hs : s.InForm) : s.showOwners.InForm :=
  .setFld (.foldl (fun _ _ h1 => .showOwner h1) (.foldl (fun _ _ h2 => .setFld h2) (.foldl (fun _ _ h3 => .setFld h3) hs)))
theorem stopTrace {s : State} (hs : s.InForm) : s.stopTrace.InForm :=
  .upd (.setFld (.setFld hs))
theorem configure {s : State} {shape : Nat} {ws changed : List Nat} (hs : s.InForm) : (s.configure shape ws changed).InForm :=
  .showPstat (.ite (.stopTrace (.showOwners (.foldl (fun _ _ h1 => .setFld (.setReg h1)) (.setFld (.foldl (fun _ _ h2 => .ite
    (.dropPart h2) h2) hs))))) (.showOwners (.foldl (fun _ _ h3 => .setFld (.setReg h3)) (.setFld (.foldl (fun _ _ h4 => .ite
    (.dropPart h4) h4) hs)))))
theorem holdArrival {s : State} {u k sense : Nat} {step : Bool} (hs : s.InForm) : (s.holdArrival u k sense step).InForm :=
  .ite (.bump (.setFld (.modBar hs))) (.askLull (.bump (.setFld (.modBar hs))))
theorem coreArrival {s : State} {k c u sense : Nat} {step : Bool} (hs : s.InForm) : (s.coreArrival k c u sense step).InForm :=
  .ite (.barFault hs) (.ite (.barFault hs) (.ite (.acceptArrival hs) (.ite (.barFault hs) (.holdArrival hs))))
theorem coreDeparture {s : State} {k c u sense : Nat} (hs : s.InForm) : (s.coreDeparture k c u sense).InForm :=
  .ite (.barFault hs) (.ite (.barFault hs) (.ite (.completeDepart hs) (.ite (.barFault hs) (.ite (.barFault hs) (.askLull (.modBar hs))))))
theorem corrected {s : State} {core space arr addr check method : Nat} (hs : s.InForm) : (s.corrected core space arr addr check method).InForm :=
  .ite (.eventStack (.captureErr (.bump hs))) (.eventCore (.captureErr (.bump hs)))
theorem roundDone {s : State} {u sense beat : Nat} (hs : s.InForm) : (s.roundDone u sense beat).InForm :=
  .afterLive (.toChildren (.modBar (.setFld (.setFld hs))))
theorem countArrival {s : State} {u sense : Nat} (hs : s.InForm) : (s.countArrival u sense).InForm :=
  .ite (.setFld hs) (.ite (.roundDone (.setFld (.setFld hs))) (.sendCtl (.setFld (.setFld hs))))
theorem countConv {s : State} {k : Nat} {c : Converted} (hs : s.InForm) : (s.countConv k c).InForm :=
  .bump (.bump (.bump (.bump hs)))
theorem under {s : State} {j c instr : Nat} {f : State → Machine.State} (hs : s.InForm) (hf : ∀ t, t.InForm → (f t).InForm) :
  (s.under j c instr f).InForm :=
  .modCtx (hf _ (.modCtx hs))
theorem readDone {s : State} {r : Read} (hs : s.InForm) : (s.readDone r).InForm :=
  .ite (.finishRelease (.upd hs)) (.upd hs)
theorem feederWrite {s : State} {k row pos : Nat} {bs : List Nat} {fmt : Nat} {scale : Int} (hs : s.InForm) :
  (s.feederWrite k row pos bs fmt scale).InForm :=
  .modCore hs
theorem gatherDeliver {s : State} {k row : Nat} {bs : List Nat} (hs : s.InForm) : (s.gatherDeliver k row bs).InForm :=
  .endLull (.feederWrite hs)
theorem deliverUnit {s : State} {r : Read} (hs : s.InForm) : (s.deliverUnit r).InForm := by
  unfold State.deliverUnit
  dsimp only
  exact .ite (.fetchWrite hs) (.ite (.bfpFeed hs) (.ite hs (by
    split
    · exact .feedWrite (.countConv hs)
    · exact .fault hs
    · exact hs)))
theorem landRead {s : State} {r : Read} (hs : s.InForm) : (s.landRead r).InForm :=
  .under hs (fun _ h1 => .ite (.readDone (.gatherDeliver h1)) (.ite (.ite (.readDone (.uncorrectable (.upd h1))) (.beginRecovery h1)) (.readDone
    (.deliverUnit h1))))
theorem dataCome {s : State} {r : Read} (hs : s.InForm) : (s.dataCome r).InForm :=
  .ite (.landRead hs) (.ite (.after (.upd hs)) (.after (.upd hs)))
theorem withhold {s : State} {p : Nat} {m : FabricMsg} {got : List Nat} (hs : s.InForm) : (s.withhold p m got).InForm := by
  unfold State.withhold
  dsimp only
  split
  · exact hs
  · exact .ite (.modPort hs) hs
theorem forward {s : State} {q : Nat} {m : FabricMsg} (hs : s.InForm) : (s.forward q m).InForm :=
  .ite (.queueTx hs) (.bump hs)
theorem msgArrive {s : State} {p : Nat} {m : FabricMsg} (hs : s.InForm) : (s.msgArrive p m).InForm := by
  unfold State.msgArrive
  dsimp only
  split
  · exact .laterW (.shared hs)
  · exact .ite (.laterW (.shared hs)) (.forward (.ite (.bump (.shared hs)) (.shared hs)))
theorem dataFlit {s : State} {p : Nat} {f : Flit} (hs : s.InForm) : (s.dataFlit p f).InForm :=
  .ite (.laterW (.shared (.withhold (.modPort hs)))) (.ite (.msgArrive (.withhold (.modPort hs))) (.withhold (.modPort hs)))
theorem decideK {s : State} {k : Nat} {d : TDesc} (hs : s.InForm) : (s.decideK k d).InForm :=
  .ite hs (.modCore (.setFld (.setFld (.setFld (.setFld (.ite (.bump hs) (.ite (.bump hs) hs)))))))
theorem deliverRead {s : State} {id : Nat} (hs : s.InForm) : (s.deliverRead id).InForm := by
  unfold State.deliverRead
  split
  · exact hs
  · exact .landRead hs
theorem putOut {s : State} {k c m off : Nat} {ws : List Nat} (hs : s.InForm) : (s.putOut k c m off ws).InForm :=
  .ite hs (.ite (.storeWrite (.mayWrite hs)) (.mayWrite hs))
theorem toStore {s : State} {k : Nat} {wc : Bool} {es : List Nat} (hs : s.InForm) : (s.toStore k wc es).InForm :=
  .modCore hs
theorem denseTile {s : State} {k c : Nat} {d : UDesc} {o : SchOut} {sg i : Nat} (hs : s.InForm) : (s.denseTile k c d o sg i).InForm :=
  .ite (.ite (.toStore (.putOut (.putOut (.putOut (.bump hs))))) (.putOut (.putOut (.putOut (.bump hs))))) (.ite (.ite (.toStore (.putOut (.putOut
    (.putOut (.eventCore (.bump hs)))))) (.putOut (.putOut (.putOut (.eventCore (.bump hs)))))) (.ite (.toStore (.putOut (.putOut (.putOut hs))))
    (.putOut (.putOut (.putOut hs)))))
theorem leaveStepBarrier {s : State} {k u : Nat} (hs : s.InForm) : (s.leaveStepBarrier k u).InForm :=
  .after (.upd (.foldl (fun _ _ h1 => .modCore (.setFld h1)) (.setPstate (.modPart (.setReg (.setReg hs))))))
theorem departReach {s : State} {u sense : Nat} (hs : s.InForm) : (s.departReach u sense).InForm :=
  .ite (.leaveStepBarrier (.foldl (fun _ _ h1 => .endLull (.completeDepart h1)) (.modBar hs))) (.foldl (fun _ _ h2 => .endLull (.completeDepart h2))
    (.modBar hs))
theorem doe {s : State} {h code : Nat} {content : List Nat} (hs : s.InForm) : (s.doe h code content).InForm :=
  .msix (.out hs)
theorem doeError {s : State} {h : Nat} (hs : s.InForm) : (s.doeError h).InForm :=
  .doe hs
theorem drainRecords {k : Nat} : ∀ {n : Nat} {s : State}, s.InForm → (State.drainRecords k n s).InForm
  | 0, _, h => h
  | n + 1, s, h => by
    unfold State.drainRecords
    split
    · exact h
    · exact .ite (drainRecords (.setFld (.writeRecord h.modPart))) h
theorem drawBytes : ∀ {n : Nat} {s : State}, s.InForm → (State.drawBytes n s).2.InForm
  | 0, _, h => h
  | n + 1, _, h => drawBytes (n := n) h.draw
theorem dressFlit {s : State} {p : Nat} {f : Flit} (hs : s.InForm) : (s.dressFlit p f).2.InForm :=
  .modPort hs
theorem dropGroup {s : State} {p vc : Nat} (hs : s.InForm) : (s.dropGroup p vc).InForm :=
  .modPort hs
theorem dropSent {s : State} {id : Nat} (hs : s.InForm) : (s.dropSent id).InForm :=
  .upd hs
theorem dueClearing {s : State} (hs : s.InForm) : s.dueClearing.InForm :=
  .foldl (fun _ _ h1 => .ite (.beginClearing h1) h1) hs
theorem measure {s : State} {k : Nat} {d : TDesc} {j : Nat} {sums : Nat × Nat} (hs : s.InForm) : (s.measure k d j sums).InForm :=
  .ite hs (.modCore hs)
theorem thinWrite {s : State} {k c m off : Nat} {bs : List Nat} (hs : s.InForm) : (s.thinWrite k c m off bs).InForm :=
  .ite hs (.ite (.storeWrite (.mayWrite hs)) (.mayWrite hs))
theorem emitBlock {s : State} {k : Nat} {t : ThinRun} {d : TDesc} {j : Nat} {resid : List Nat} (hs : s.InForm) : (s.emitBlock k t d j resid).InForm :=
  .modCore (.ite (.eventCore (.bump (.thinWrite (.thinWrite (.ite (.upd (.measure (.bump hs))) (.measure (.bump hs))))))) (.bump (.thinWrite
    (.thinWrite (.ite (.upd (.measure (.bump hs))) (.measure (.bump hs)))))))
theorem emitFlit {s : State} {p : Nat} {f : Flit} (hs : s.InForm) : (s.emitFlit p f).InForm :=
  .out (.dressFlit hs)
theorem endOfStep {s : State} {k : Nat} (hs : s.InForm) : (s.endOfStep k).InForm := by
  unfold State.endOfStep
  dsimp only
  split
  · exact .foldl (fun _ _ h1 => .setFld h1) (.setPstate (.modPart hs))
  · exact .ite (.serveQueue (.ite (.recordOf (.setQueue (.ite (.recordOf (.foldl (fun _ _ h2 => .setFld h2) (.setPstate (.modPart hs)))) (.foldl
    (fun _ _ h3 => .setFld h3) (.setPstate (.modPart hs)))))) (.setQueue (.ite (.recordOf (.foldl (fun _ _ h4 => .setFld h4) (.setPstate
    (.modPart hs)))) (.foldl (fun _ _ h5 => .setFld h5) (.setPstate (.modPart hs))))))) (.serveQueue (.ite (.recordOf (.foldl
    (fun _ _ h6 => .setFld h6) (.setPstate (.modPart hs)))) (.foldl (fun _ _ h7 => .setFld h7) (.setPstate (.modPart hs)))))
theorem eventDie {s : State} {src code detail ext : Nat} (hs : s.InForm) : (s.eventDie src code detail ext).InForm :=
  .raise hs
theorem endSquall {s : State} (hs : s.InForm) : s.endSquall.InForm :=
  .eventDie (.setFld (.upd hs))
theorem finishTickets {s : State} {ts : List (Nat × Nat × Nat)} {result detail : Nat} (hs : s.InForm) : (s.finishTickets ts result detail).InForm :=
  .foldl (fun _ _ h1 => .ite h1 (.mbFinish h1)) hs
theorem endSweep {s : State} {k : Nat} (hs : s.InForm) : (s.endSweep k).InForm :=
  .finishTickets (.eventCore (.maintEnd (.setFld (.setFld (.modPart hs)))))
theorem endThin {s : State} {k : Nat} (hs : s.InForm) : (s.endThin k).InForm :=
  .modCore hs
theorem enterNight {s : State} (hs : s.InForm) : s.enterNight.InForm :=
  .upd (.setFld (.setFld (.setFld (.resetBits (.foldl (fun _ _ h1 => .setFld (.goDark h1)) hs)))))
theorem enterStaged {s : State} {k j : Nat} (hs : s.InForm) : (s.enterStaged k j).InForm :=
  .foldl (fun _ _ h1 => .setReg h1) (.modCore hs)
theorem tqFull {s : State} {A : Nat} {p : Product} (hs : s.InForm) : (s.tqFull A p).1.InForm := by
  unfold State.tqFull
  dsimp only
  split
  · exact .fault (.dropProd hs)
  · exact (by
    split
    · exact .fault (.dropProd (.modCore hs))
    · exact .fault (.modCore hs))
theorem tqLevel {s : State} {k : Nat} (hs : s.InForm) : (s.tqLevel k).InForm :=
  .ite (.setFld (.setFld hs)) (.setFld hs)
theorem enterTiles {A : Nat} {p : Product} {t : Nat} : ∀ {n : Nat} {s : State}, s.InForm → (State.enterTiles s A p t n).InForm
  | 0, _, h => h
  | n + 1, s, h => by
    unfold State.enterTiles
    extract_lets u k q t1 es sat hd x t2
    have hq : q.1.InForm := .ite_fst (.tqFull h) h
    exact .ite hq (enterTiles (.tqLevel (.bump (.modCore hq))))
theorem evqWrite {s : State} {h : Nat} {b : List Nat} (hs : s.InForm) : (s.evqWrite h b).InForm :=
  .ite (.setFld (.out hs)) (.msix (.modHost (.setFld (.out hs))))
theorem evqLevel {s : State} {h : Nat} (hs : s.InForm) : (s.evqLevel h).InForm :=
  .setFld hs
theorem logEntry {s : State} {part : Nat} {b : List Nat} (hs : s.InForm) : (s.logEntry part b).InForm :=
  .upd hs
theorem evqDrain {h : Nat} : ∀ {n : Nat} {s : State}, s.InForm → (State.evqDrain h n s).InForm
  | 0, _, hs => hs
  | n + 1, s, hs => by
    unfold State.evqDrain
    refine .ite hs ?_
    split
    · exact evqDrain (.evqWrite (.evqLevel hs.modHost))
    · exact .ite hs (.evqWrite (.logEntry (.modHost hs.upd)))
theorem evqPut {s : State} {h : Nat} {b : List Nat} (hs : s.InForm) : (s.evqPut h b).InForm :=
  .ite hs (.ite (.evqWrite hs) (.ite (.evqLevel (.modHost hs)) (.modHost (.bump hs))))
theorem setPh {s : State} {n : Nat} (hs : s.InForm) : (s.setPh n).InForm :=
  .setFld hs
theorem fabricReady {s : State} (hs : s.InForm) : s.fabricReady.InForm :=
  .setFld (.setFld (.setPh hs))
theorem feederPending {s : State} {k row n id : Nat} (hs : s.InForm) : (s.feederPending k row n id).InForm :=
  .modCore hs
theorem modPair {s : State} {A id : Nat} {f : Pair → Pair} (hs : s.InForm) : (s.modPair A id f).InForm :=
  .modArr hs
theorem feederSlot {s : State} {A id slot : Nat} (hs : s.InForm) : (s.feederSlot A id slot).InForm := by
  unfold State.feederSlot
  dsimp only
  split
  · exact hs
  · exact (by
    split
    · exact (by
      split
      · exact .afterHeld (.askStage hs)
      · exact .fault (.dropProd hs))
    · exact .ite (.fault (.dropProd hs)) (.ite (.after (.modCore (.modPair hs))) (.modCore (.modPair hs))))
theorem feederTile {s : State} {k row pos t fmt : Nat} {scale : Int} {bytes : List Nat} (hs : s.InForm) :
  (s.feederTile k row pos t fmt scale bytes).InForm :=
  .foldl (fun _ _ h1 => .feederWrite h1) hs
theorem finishMcast {s : State} {x : Mcast} (hs : s.InForm) : (s.finishMcast x).InForm := by
  unfold State.finishMcast
  dsimp only
  exact .ite (.dropSent (.ite (.upd (.foldl (fun _ _ h1 => .sendCtl h1) hs)) (by
    split
    · exact .upd (.foldl (fun _ _ h2 => .sendCtl h2) hs)
    · exact (by
      split
      · exact .modColl (.upd (.foldl (fun _ _ h3 => .sendCtl h3) hs))
      · exact .upd (.foldl (fun _ _ h4 => .sendCtl h4) hs))))) (.ite (.upd (.foldl (fun _ _ h5 => .sendCtl h5) hs)) (by
    split
    · exact .upd (.foldl (fun _ _ h6 => .sendCtl h6) hs)
    · exact (by
      split
      · exact .modColl (.upd (.foldl (fun _ _ h7 => .sendCtl h7) hs))
      · exact .upd (.foldl (fun _ _ h8 => .sendCtl h8) hs))))
theorem firstByte {s : State} {id : Nat} (hs : s.InForm) : (s.firstByte id).InForm := by
  unfold State.firstByte
  dsimp only
  split
  · exact hs
  · exact .ite (.fault (.dropTransfer hs)) (.ite (.modArr (.modComp (.modTransfer hs))) (.modArr (.modRing (.modTransfer hs))))
theorem firstW {s : State} {i : Instr} (hs : s.InForm) : (s.firstW i).InForm :=
  .upd hs
theorem ideLost {s : State} {h : Nat} (hs : s.InForm) : (s.ideLost h).InForm :=
  .ite hs (.foldl (fun _ _ h1 => .fault h1) (.modHost (.setFld hs)))
theorem resetPart {s : State} {k : Nat} (hs : s.InForm) : (s.resetPart k).InForm :=
  .ite hs (.ite (.modPart hs) (.ite (.clearOrWait (.toUnloaded (.resetBits (.foldl (fun _ _ h1 => .landRead h1) hs)))) (.showPstat (.toUnloaded
    (.resetBits (.foldl (fun _ _ h2 => .landRead h2) hs))))))
theorem flr {s : State} {h : Nat} (hs : s.InForm) : (s.flr h).InForm :=
  .foldl (fun _ _ h1 => .resetPart h1) (.foldl (fun _ _ h2 => .modPart h2) (.updMem (.resetBits (.setFld (.ideLost hs))) hbm store lstore
    (fun h => Memory.wf_filter h.mbuf _)))
theorem foreign {s : State} {h : Nat} (hs : s.InForm) : GateInForm (s.foreign h) :=
  .ones (.bump hs)
theorem partGate {s : State} {h : Nat} {write : Bool} {k : Option Nat} (hs : s.InForm) : GateInForm (s.partGate h write k) := by
  unfold State.partGate
  split
  · exact foreign hs
  · exact .ite (foreign hs) (.ite (.ones (.ite (.bump hs) hs)) .served)
theorem gate {s : State} {h a size : Nat} {write : Bool} (hs : s.InForm) : GateInForm (s.gate h a size write) :=
  .ite .silent (.ite (.ones hs) (.ite (.ones (.bump hs)) (.ite (partGate hs) (.ite (partGate hs) (.ite (partGate hs) (.ite (by
    split
    · exact .served
    · exact partGate hs) .served))))))
theorem gated {s : State} {h a size : Nat} {f : State → Machine.State} (hs : s.InForm) (hf : ∀ t, t.InForm → (f t).InForm) :
  (s.gated h a size f).InForm := by
  unfold State.gated
  split
  · exact hf _ hs
  · rename_i e1
    exact .of_ones e1 (gate hs)
  · exact hs
theorem notAdmitted {s : State} {k c : Nat} {p : Option Nat} {dest : Coord} {deadline : Nat} (hs : s.InForm) :
  (s.notAdmitted k c p dest deadline).InForm := by
  unfold State.notAdmitted
  dsimp only
  exact .faultCtx (by
    split
    · exact .bump hs
    · exact hs)
theorem gatherLost {s : State} {w : GatherWait} {deadline : Nat} (hs : s.InForm) : (s.gatherLost w deadline).InForm := by
  unfold State.gatherLost
  dsimp only
  split
  · exact (by
    split
    · exact .lost (.upd hs)
    · exact .upd hs)
  · exact .endLull (.notAdmitted (.modCore (.upd hs)))
theorem grantNext {s : State} {ports : List Nat} (hs : s.InForm) : (s.grantNext ports).InForm := by
  unfold State.grantNext
  split
  · exact hs
  · exact .modPort hs
theorem holdBeat {s : State} {k : Nat} (hs : s.InForm) : (s.holdBeat k).InForm := by
  unfold State.holdBeat
  dsimp only
  split
  · exact .ite (.foldl (fun _ _ h1 => .ite (.laterW h1) h1) hs) hs
  · exact .laterW (.ite (.foldl (fun _ _ h2 => .ite (.laterW h2) h2) hs) hs)
theorem toTree {s : State} {u but : Nat} {r : CtlRec} (hs : s.InForm) : (s.toTree u but r).InForm :=
  .foldl (fun _ _ h1 => .sendCtl h1) hs
theorem holdRec {s : State} {p rv : Nat} {r : CtlRec} {c : Nat → Instr} (hs : s.InForm) : (s.holdRec p rv r c).InForm := by
  unfold State.holdRec
  split
  · exact hs
  · exact (by
    split
    · exact .laterW hs
    · exact .laterW (.toTree hs))
theorem recoverStore {s : State} {k stage a n check : Nat} {i : Instr} {hdr : Option Nat} {key : Nat} (hs : s.InForm) :
  (s.recoverStore k stage a n check i hdr key).InForm := by
  unfold State.recoverStore
  dsimp only
  exact .ite (.uncorrectable (.upd hs)) (by
    split
    · exact .again (.askStage (.beginRecovery hs))
    · exact .beginRecovery hs)
theorem injectTile {s : State} {k e : Nat} {en : Engine} {d : SDesc} {id : Nat} (hs : s.InForm) : (s.injectTile k e en d id).InForm := by
  unfold State.injectTile
  dsimp only
  exact .ite (.fault (.stopEngine hs)) (by
    split
    · exact .fault (.stopEngine hs)
    · exact .recoverStore hs
    · exact .ite (.fault (.stopEngine hs)) (.nextIssue (.ite (.later (.later (.after (.modTransfer (.countConv hs))))) (.after (.modTransfer
      (.countConv hs))))))
theorem installRx {s : State} {p n secret : Nat} (hs : s.InForm) : (s.installRx p n secret).InForm :=
  .sendCtl (.setFld (.modPort hs))
theorem mbResult {s : State} {i code result detail ticket : Nat} {resp : List Nat} (hs : s.InForm) :
  (s.mbResult i code result detail ticket resp).InForm :=
  .ite (.msix (.ite (.setFld (.setFld (.setFld (.setFld (.setFld (.setFld (.setFld (.setReg (.updMem hs hbm store lstore
      (fun h => Memory.wf_memWrite _ _ h.mbuf)))))))))) (.setFld (.setFld (.setFld (.setFld (.setFld (.setReg (.updMem hs hbm store lstore
      (fun h => Memory.wf_memWrite _ _ h.mbuf)))))))))) (.out (.ite (.setFld (.setFld (.setFld (.setFld (.setFld (.setFld (.setFld (.setReg
      (.updMem hs hbm store lstore (fun h => Memory.wf_memWrite _ _ h.mbuf)))))))))) (.setFld (.setFld (.setFld (.setFld (.setFld (.setReg
      (.updMem hs hbm store lstore (fun h => Memory.wf_memWrite _ _ h.mbuf))))))))))
theorem mbAnswer {s : State} {i code result : Nat} (hs : s.InForm) : (s.mbAnswer i code result).InForm :=
  .mbResult hs
theorem mailbox {s : State} {i code role : Nat} {f : State → Machine.State} (hs : s.InForm) (hf : ∀ t, t.InForm → (f t).InForm) : OutInForm
  (s.mailbox i code role f) :=
  .ite (.next hs) (.ite (.next (.mbAnswer hs)) (.ite (.next (.ite (hf _ (.upd hs)) (.mbAnswer (.upd hs)))) (.ite (.next (.mbAnswer (.upd hs))) (.ite
      (.next (.mbAnswer (.upd hs))) (.next (hf _ (.upd hs)))))))
theorem issue {s : State} {i code len : Nat} (hs : s.InForm) : (s.issue i code len).InForm := by
  unfold State.issue
  dsimp only
  exact .ite (.setFld hs) (by
    split
    · exact (by
      split
      · rename_i e1
        exact .of_next e1 (mailbox (.setFld (.setReg hs)) (fun _ h2 => .mbAnswer h2))
      · exact .setFld (.setReg hs))
    · exact .ite (by
      split
      · rename_i e3
        exact .of_next e3 (mailbox (.setFld (.setReg hs)) (fun _ h4 => .mbAnswer h4))
      · exact .setFld (.setReg hs)) (by
      split
      · exact .laterW (.setFld (.setReg hs))
      · exact .setFld (.setReg hs)))
theorem issueGather {s : State} {k e : Nat} {en : Engine} {d : SDesc} (hs : s.InForm) : (s.issueGather k e en d).InForm :=
  .ite (.fault (.stopEngine hs)) (.nextIssue (.upd (.feederPending (.fresh hs))))
theorem sendMsg {s : State} {k c : Nat} {m : FabricMsg} {deadline : Option Nat} {rel : Option (Nat × Nat × Nat)} (hs : s.InForm) :
    (s.sendMsg k c m deadline rel).1.InForm := by
  unfold State.sendMsg
  split
  · exact .mk_fst (.notAdmitted hs)
  · have hf : s.fresh.2.InForm := .fresh hs
    dsimp only
    split
    · exact .mk_fst (.laterW (.shared (.keepSent hf)))
    · split
      · exact .mk_fst (.notAdmitted hs)
      · split
        · exact .mk_fst (.notAdmitted hs)
        · rename_i heq
          exact .mk_fst (.shared (.queueTx (.keepSent (.of_some heq (admitFlits hf)))))
theorem issueGatherFabric {s : State} {k e : Nat} {en : Engine} {d : SDesc} (hs : s.InForm) : (s.issueGatherFabric k e en d).InForm :=
  .ite (.stopEngine (.sendMsg hs)) (.nextIssue (.upd (.feederPending (.sendMsg hs))))
theorem issueInject {s : State} {k e : Nat} {en : Engine} {d : SDesc} (hs : s.InForm) : (s.issueInject k e en d).InForm := by
  unfold State.issueInject
  dsimp only
  split
  · exact .stopEngine (.ite_fst (.acquireCons hs) hs)
  · exact .again (.ite_fst (.acquireCons hs) hs)
  · exact .ite (.beginInject (.ite_fst (.acquireCons hs) hs)) (by
    split
    · exact .injectTile (.ite_fst (.acquireCons hs) hs)
    · exact .stopEngine (.ite_fst (.acquireCons hs) hs))
theorem issueMove {s : State} {k e : Nat} {en : Engine} {d : SDesc} (hs : s.InForm) : (s.issueMove k e en d).InForm := by
  unfold State.issueMove
  dsimp only
  exact .ite (.fault (.stopEngine hs)) (.ite (.fault (.stopEngine hs)) (by
    split
    · exact .stopEngine (.ite_fst (.acquireCons hs) hs)
    · exact .again (.ite_fst (.acquireCons hs) hs)
    · exact .nextIssue (.ite (.upd (.fresh (.ite_fst (.acquireCons hs) hs))) (.ite (.landRead (.upd (.fresh (.ite_fst (.acquireCons hs) hs))))
      (.after (.upd (.fresh (.ite_fst (.acquireCons hs) hs))))))))
theorem issueNext {s : State} {k c : Nat} (hs : s.InForm) : (s.issueNext k c).InForm := by
  unfold State.issueNext
  dsimp only
  split
  · exact hs
  · exact .upd (.traceRec (.modCtx hs))
theorem sendMcast {s : State} {k c : Nat} {m : FabricMsg} {deadline : Nat} (hs : s.InForm) :
    (s.sendMcast k c m deadline).1.InForm := by
  unfold State.sendMcast
  extract_lets f m1 ls go
  have hgo : AllInForm go := .foldl (fun s a h => .ite (admitFlits h) .none) (.some (.fresh hs))
  clear_value go
  cases go with
  | none => exact .notAdmitted hs
  | some t => exact .foldl (fun _ _ h => .laterW h) (.laterW (.shared (.upd hgo)))
theorem storeFabric {s : State} {k : Nat} {en : Engine} {addr place : Nat} {wc : Bool} {bytes : List Nat} (hs : s.InForm) :
  (s.storeFabric k en addr place wc bytes).1.InForm := by
  unfold State.storeFabric
  dsimp only
  split
  · exact .sendMcast hs
  · exact .sendMsg hs
theorem straGo {s : State} {k e : Nat} {en : Engine} {cores : List Nat} {ext bytes : Nat} {t : StraTransfer} (hs : s.InForm) :
  (s.straGo k e en cores ext bytes t).InForm :=
  .ite (.fault (.stopEngine hs)) (.later (.bump (.foldl (fun _ _ h1 => .modCore h1) (.modCore (.upd (.fresh hs))))))
theorem straSend {s : State} {k e : Nat} {en : Engine} {addr bytes : Nat} {t : StraTransfer} (hs : s.InForm) :
  (s.straSend k e en addr bytes t).InForm := by
  unfold State.straSend
  split
  · exact .fault (.stopEngine hs)
  · exact .straGo hs
theorem storeHeaders {s : State} {k e : Nat} {en : Engine} {d : SDesc} (hs : s.InForm) : (s.storeHeaders k e en d).1.InForm := by
  unfold State.storeHeaders
  dsimp only
  exact .ite_fst (.modCore hs) (.ite_fst (by
    split
    · exact .modCore hs
    · exact .storeFabric (.modCore hs)) (.straSend (.modCore hs)))
theorem takeStore {s : State} {k fmt : Nat} (hs : s.InForm) : (s.takeStore k fmt).2.InForm :=
  .upd (.modCore hs)
theorem issueStore {s : State} {k e : Nat} {en : Engine} {d : SDesc} (hs : s.InForm) : (s.issueStore k e en d).InForm :=
  .ite (.stopEngine (.ite_fst (.storeHeaders hs) (.after (.takeStore hs)))) (.ite (.nextIssue (.ite_fst (.storeHeaders hs) (.after
    (.takeStore hs)))) (.ite_fst (.storeHeaders hs) (.after (.takeStore hs))))
theorem issueUnit {s : State} {k e : Nat} {en : Engine} {d : SDesc} (hs : s.InForm) : (s.issueUnit k e en d).InForm :=
  .ite (.issueMove hs) (.ite (.issueInject hs) (.ite (.issueStore hs) (.ite (.ite (.beginHandoff hs) (.nextIssue hs)) (.ite (.ite
    (.issueGatherFabric hs) (.issueGather hs)) (.stopEngine hs)))))
theorem recArrive {s : State} {p : Nat} {x : CtlRec} (hs : s.InForm) : (s.recArrive p x).InForm := by
  unfold State.recArrive
  split
  · exact .laterW hs
  · exact .laterW hs
  · exact .laterW hs
  · exact .holdRec hs
  · exact .holdRec hs
  · exact .laterW hs
  · exact .laterW hs
  · exact .laterW hs
  · exact .laterW hs
  · exact .laterW hs
  · exact .ctlTo hs
  · exact .ctlTo hs
  · exact .ctlTo hs
  · exact .laterW hs
  · exact .laterW hs
  · exact .ctlTo hs
  · exact .ctlTo hs
  · exact .laterW hs
theorem takeFlit {s : State} {p : Nat} {f : Flit} (hs : s.InForm) : (s.takeFlit p f).InForm :=
  .ite (.bump (.modPort (.bump hs))) (.ite (.foldl (fun _ _ h1 => .recArrive h1) (.modPort (.bump hs))) (.dataFlit (.modPort (.bump hs))))
theorem takeHeld {p : Nat} : ∀ {n : Nat} {s : State}, s.InForm → (State.takeHeld p n s).InForm
  | 0, _, h => h
  | n + 1, s, h => by
    unfold State.takeHeld
    split
    · exact takeHeld (.takeFlit h.modPort)
    · exact h
theorem joinGroup {s : State} {p : Nat} {f : Flit} (hs : s.InForm) : (s.joinGroup p f).InForm :=
  .takeHeld (.modPort hs)
theorem joinQueue {s : State} {k kind : Nat} {e : RingEntry} (hs : s.InForm) : (s.joinQueue k kind e).InForm :=
  .serveQueue (.setQueue hs)
theorem keepFreeze {s : State} {k : Nat} (hs : s.InForm) : (s.keepFreeze k).InForm :=
  .modCore hs
theorem keepSlot {s : State} {k e place : Nat} {m : FabricMsg} (hs : s.InForm) : (s.keepSlot k e place m).InForm :=
  .ite (.askAgain (.hbmWrite hs)) (.ackMsg (.modColl (.hbmWrite hs)))
theorem layerUp {s : State} {p : Nat} (hs : s.InForm) : (s.layerUp p).InForm :=
  .laterW (.ite (.maintEnd (.setFld (.setFld (.modPort hs)))) (.sendCtl (.maintEnd (.setFld (.setFld (.modPort hs))))))
theorem trainFrom {s : State} {p step : Nat} (hs : s.InForm) : (s.trainFrom p step).InForm :=
  .modPort (.setFld (.setFld (.clearPort hs)))
theorem resetPort {s : State} {p : Nat} (hs : s.InForm) : (s.resetPort p).InForm :=
  .ite (.goDark hs) (.ite (.trainFrom hs) (.maintGrant (.trainFrom hs)))
theorem linkDown {s : State} {p : Nat} (hs : s.InForm) : (s.linkDown p).InForm :=
  .resetPort (.eventPort hs)
theorem lookup {s : State} {r : Recovery} (hs : s.InForm) : (s.lookup r).InForm := by
  unfold State.lookup
  dsimp only
  exact .ite (.lost hs) (by
    split
    · exact .lost hs
    · exact .ite (.askReplica hs) (.ite (.laterW (.modRecovery hs)) (.ite (.laterW (.modRecovery hs)) (.lost hs))))
theorem lullCycle {s : State} {k : Nat} {swallowed : Bool} (hs : s.InForm) : (s.lullCycle k swallowed).InForm := by
  unfold State.lullCycle
  dsimp only
  exact .foldl (fun _ _ h1 => .ite (.laterW h1) h1) (.ite (by
    split
    · exact .bump (.setReg hs)
    · exact .setReg hs) (.foldl (fun _ _ h2 => .bump h2) (by
    split
    · exact .bump (.setReg hs)
    · exact .setReg hs)))
theorem mbAccept {s : State} {i code : Nat} (hs : s.InForm) : (s.mbAccept i code).1.InForm :=
  .ite_fst (.mbAnswer hs) (.mbResult (.upd hs))
theorem mbReply {s : State} {i code result : Nat} {resp : List Nat} (hs : s.InForm) : (s.mbReply i code result resp).InForm :=
  .mbResult hs
theorem missed {s : State} {o : OutMsg} (hs : s.InForm) : (s.missed o).InForm :=
  .raise (.ite (.bump hs) hs)
theorem modRv {s : State} {k rv : Nat} {f : RvDyn → RvDyn} (hs : s.InForm) : (s.modRv k rv f).InForm :=
  .modPart hs
theorem newNonce {s : State} (hs : s.InForm) : s.newNonce.InForm :=
  .upd (.drawKey hs)
theorem noteArm {s : State} {k slot : Nat} (hs : s.InForm) : (s.noteArm k slot).InForm :=
  .modCore hs
theorem onPart {s : State} {i code k : Nat} {f : State → Machine.State} (hs : s.InForm) (hf : ∀ t, t.InForm → (f t).InForm) :
  (s.onPart i code k f).InForm :=
  .ite (.mbAnswer hs) (.ite (.mbAnswer hs) (hf _ hs))
theorem openMcast {s : State} {p : Nat} {m : FabricMsg} (hs : s.InForm) : (s.openMcast p m).InForm :=
  .ite (.upd hs) (.laterW (.upd hs))
theorem operandSlot {s : State} {A id slot : Nat} (hs : s.InForm) : (s.operandSlot A id slot).InForm := by
  unfold State.operandSlot
  dsimp only
  split
  · exact hs
  · exact .ite (.after (.modPair hs)) (.modPair hs)
theorem outsideMay {s : State} {k space arr addr len : Nat} {ctx : Option (Nat × Nat × Nat)} (hs : s.InForm) :
  (s.outsideMay k space arr addr len ctx).1.InForm := by
  unfold State.outsideMay
  dsimp only
  exact .ite_fst (by
    split
    · exact .fault hs
    · exact .fault hs) (.ite_fst (by
    split
    · exact .fault hs
    · exact .fault hs) (.ite_fst (by
    split
    · exact .fault hs
    · exact .fault hs) hs))
theorem stopNow {s : State} {k code : Nat} {trigger : List Nat} (hs : s.InForm) : (s.stopNow k code trigger).InForm :=
  .putRecord (.setFld (.modPart (.setPstate (.foldl (fun _ _ h1 => .foldl (fun _ _ h2 => .modCtx h2) (.setFld (.ite (.setFld h1) h1))) hs))))
theorem vecCycle {s : State} {j : Nat} (hs : s.InForm) : (s.vecCycle j).InForm := by
  unfold State.vecCycle
  dsimp only
  split
  · exact hs
  · exact .bump (.bump hs)
theorem partCycle {s : State} {swallowed : Bool} {k : Nat} (hs : s.InForm) : (s.partCycle swallowed k).InForm := by
  unfold State.partCycle
  dsimp only
  exact .ite (by
    split
    · exact .stopNow hs
    · exact hs) (.ite (.ite (.lullCycle (.ite (.ite (.foldl (fun _ _ h1 => .ite (.laterW h1) h1) (by
    split
    · exact .stopNow hs
    · exact hs)) (by
    split
    · exact .stopNow hs
    · exact hs)) (.modPart (.ite (.foldl (fun _ _ h2 => .ite (.laterW h2) h2) (by
    split
    · exact .stopNow hs
    · exact hs)) (by
    split
    · exact .stopNow hs
    · exact hs))))) (.ite (.ite (.foldl (fun _ _ h3 => .ite (.laterW h3) h3) (by
    split
    · exact .stopNow hs
    · exact hs)) (by
    split
    · exact .stopNow hs
    · exact hs)) (.modPart (.ite (.foldl (fun _ _ h4 => .ite (.laterW h4) h4) (by
    split
    · exact .stopNow hs
    · exact hs)) (by
    split
    · exact .stopNow hs
    · exact hs))))) (.modPart (.foldl (fun _ _ h5 => .vecCycle h5) (.ite (.ite (.foldl (fun _ _ h6 => .ite (.laterW h6) h6) (by
    split
    · exact .stopNow hs
    · exact hs)) (by
    split
    · exact .stopNow hs
    · exact hs)) (.modPart (.ite (.foldl (fun _ _ h7 => .ite (.laterW h7) h7) (by
    split
    · exact .stopNow hs
    · exact hs)) (by
    split
    · exact .stopNow hs
    · exact hs)))))))
theorem passCycle {s : State} {swallowed : Bool} (hs : s.InForm) : (s.passCycle swallowed).InForm :=
  .ite (.ite (.bump (.ite (.laterW (.foldl (fun _ _ h1 => .ite (.foldl (fun _ _ h2 => .laterW h2) h1) h1) (.foldl (fun _ _ h3 => .partCycle h3)
    (.upd hs)))) (.foldl (fun _ _ h4 => .ite (.foldl (fun _ _ h5 => .laterW h5) h4) h4) (.foldl (fun _ _ h6 => .partCycle h6) (.upd hs))))) (.ite
    (.laterW (.foldl (fun _ _ h7 => .ite (.foldl (fun _ _ h8 => .laterW h8) h7) h7) (.foldl (fun _ _ h9 => .partCycle h9) (.upd hs)))) (.foldl
    (fun _ _ h10 => .ite (.foldl (fun _ _ h11 => .laterW h11) h10) h10) (.foldl (fun _ _ h12 => .partCycle h12) (.upd hs))))) (.ite (.firstW (.ite
    (.bump (.ite (.laterW (.foldl (fun _ _ h13 => .ite (.foldl (fun _ _ h14 => .laterW h14) h13) h13) (.foldl (fun _ _ h15 => .partCycle h15)
    (.upd hs)))) (.foldl (fun _ _ h16 => .ite (.foldl (fun _ _ h17 => .laterW h17) h16) h16) (.foldl (fun _ _ h18 => .partCycle h18) (.upd hs)))))
    (.ite (.laterW (.foldl (fun _ _ h19 => .ite (.foldl (fun _ _ h20 => .laterW h20) h19) h19) (.foldl (fun _ _ h21 => .partCycle h21) (.upd hs))))
    (.foldl (fun _ _ h22 => .ite (.foldl (fun _ _ h23 => .laterW h23) h22) h22) (.foldl (fun _ _ h24 => .partCycle h24) (.upd hs)))))) (.setFld
    (.ite (.bump (.ite (.laterW (.foldl (fun _ _ h25 => .ite (.foldl (fun _ _ h26 => .laterW h26) h25) h25) (.foldl (fun _ _ h27 => .partCycle h27)
    (.upd hs)))) (.foldl (fun _ _ h28 => .ite (.foldl (fun _ _ h29 => .laterW h29) h28) h28) (.foldl (fun _ _ h30 => .partCycle h30) (.upd hs)))))
    (.ite (.laterW (.foldl (fun _ _ h31 => .ite (.foldl (fun _ _ h32 => .laterW h32) h31) h31) (.foldl (fun _ _ h33 => .partCycle h33) (.upd hs))))
    (.foldl (fun _ _ h34 => .ite (.foldl (fun _ _ h35 => .laterW h35) h34) h34) (.foldl (fun _ _ h36 => .partCycle h36) (.upd hs)))))))
theorem pausePatrol {s : State} {on : Bool} (hs : s.InForm) : (s.pausePatrol on).InForm :=
  .showMaint (.upd (.upd hs))
theorem receiveOne {s : State} {k h addr len bytes : Nat} (hs : s.InForm) : (s.receiveOne k h addr len bytes).1.InForm := by
  have hrefused : ∀ t : State, t.InForm → ∀ a, (t.halfRefused k k h none a).InForm := fun _ ht _ => .halfRefused ht
  unfold State.receiveOne
  dsimp only
  split
  · exact hrefused _ hs _
  · refine .ite_fst (hrefused _ hs _) ?_
    have ha : ∀ (p : Prop) [Decidable p] (m : Nat) (e : Nat), (if p then (s, true) else s.acquireProd k (h / 128) m e).1.InForm :=
      fun _ _ _ _ => .ite_fst hs (.acquireProd hs)
    refine .ite_fst (ha _ _ _) (.ite (hrefused _ (.ite (.applyRelease (.modCore (ha _ _ _))) (.modCore (ha _ _ _))) _)
      (.ite (.applyRelease (.modCore (ha _ _ _))) (.modCore (ha _ _ _))))
theorem receiveCount {s : State} {k space arr addr len bytes : Nat} (hs : s.InForm) : (s.receiveCount k space arr addr len bytes).1.InForm :=
  .foldl_fst (fun _ _ h1 => .receiveOne h1) hs
theorem placeOutside {s : State} {k space arr addr m0 : Nat} {bs : List Nat} {ctx : Option (Nat × Nat × Nat)} (hs : s.InForm) :
  (s.placeOutside k space arr addr m0 bs ctx).1.InForm :=
  .ite_fst (.outsideMay hs) (.ite (.hbmWrite (.receiveCount (.outsideMay hs))) (.ite (.storeWrite (.receiveCount (.outsideMay hs))) (.plainAt
      (.receiveCount (.outsideMay hs)))))
theorem placeFabric {s : State} {k : Nat} {m : FabricMsg} {ofs : Nat} {bs : List Nat} (hs : s.InForm) : (s.placeFabric k m ofs bs).1.InForm := by
  unfold State.placeFabric
  dsimp only
  split
  · exact .fault hs
  · exact .ite_fst (.fault hs) (.ite_fst (.endLull (.feederWrite hs)) (.placeOutside hs))
theorem powerOn {s : State} {kind : Nat} (hs : s.InForm) : (s.powerOn kind).InForm :=
  .upd (.coldState hs)
theorem scheduleProduct {s : State} {k a id c : Nat} {p : ProductArgs} (hs : s.InForm) : (s.scheduleProduct k a id c p).InForm :=
  .ite (.after (.ite (.ite (.ite (.foldl (fun _ _ h1 => .later h1) (.after hs)) (.foldl (fun _ _ h2 => .later h2) hs)) (.later (.ite (.foldl
    (fun _ _ h3 => .later h3) (.after hs)) (.foldl (fun _ _ h4 => .later h4) hs)))) (.after (.ite (.ite (.foldl (fun _ _ h5 => .later h5)
    (.after hs)) (.foldl (fun _ _ h6 => .later h6) hs)) (.later (.ite (.foldl (fun _ _ h7 => .later h7) (.after hs)) (.foldl
    (fun _ _ h8 => .later h8) hs))))))) (.ite (.ite (.ite (.foldl (fun _ _ h9 => .later h9) (.after hs)) (.foldl (fun _ _ h10 => .later h10) hs))
    (.later (.ite (.foldl (fun _ _ h11 => .later h11) (.after hs)) (.foldl (fun _ _ h12 => .later h12) hs)))) (.after (.ite (.ite (.foldl
    (fun _ _ h13 => .later h13) (.after hs)) (.foldl (fun _ _ h14 => .later h14) hs)) (.later (.ite (.foldl (fun _ _ h15 => .later h15) (.after hs))
    (.foldl (fun _ _ h16 => .later h16) hs))))))
theorem putProduct {s : State} {k c a cy : Nat} {p : ProductArgs} {par ser : Panel} (hs : s.InForm) : (s.putProduct k c a cy p par ser).InForm := by
  unfold State.putProduct
  dsimp only
  exact .scheduleProduct (.modArr (by
    split
    · exact .modProd (.fresh hs)
    · exact .fresh hs))
theorem testRead {s : State} {st n : Nat} {upset : Bool} (hs : s.InForm) : (s.testRead st n upset).2.InForm :=
  .ite (.eventStack (.setReg hs)) (.setReg hs)
theorem readReg {s : State} {h a size : Nat} (hs : s.InForm) : (s.readReg h a size).2.InForm := by
  unfold State.readReg
  dsimp only
  split
  · exact hs
  · rename_i e1
    exact .of_ones e1 (gate hs)
  · exact .ite_snd (.ite_snd hs (.testRead hs)) (.ite_snd hs (.ite_snd (.upd hs) hs))
theorem rearmSlot {s : State} {k c p : Nat} (hs : s.InForm) : (s.rearmSlot k c p).InForm :=
  .ite (.ite (.modCore (.ite (.ite hs (.setFld hs)) (.setFld (.ite hs (.setFld hs))))) (.faultCtx (.ite hs (.setFld hs)))) hs
theorem recordSkew {s : State} {k c : Nat} {d : UDesc} (hs : s.InForm) : (s.recordSkew k c d).InForm :=
  .ite (.bumpF hs) (.setReg (.setReg (.setFld (.setFld (.setFld hs)))))
theorem recoverOperand {s : State} {k c a : Nat} {p : ProductArgs} (hs : s.InForm) : (s.recoverOperand k c a p).InForm := by
  unfold State.recoverOperand
  dsimp only
  split
  · exact .again (.askStage (.beginRecovery hs))
  · exact .beginRecovery hs
theorem wake {s : State} {r : Recovery} (hs : s.InForm) : (s.wake r).InForm := by
  unfold State.wake
  dsimp only
  split
  · exact .laterW (.ite (.laterW (.foldl (fun _ _ h1 => .ite (.laterW h1) (.ite (.laterW h1) h1)) (.endLull hs))) (.foldl (fun _ _ h2 => .ite
    (.laterW h2) (.ite (.laterW h2) h2)) (.endLull hs)))
  · exact .laterW (.ite (.laterW (.foldl (fun _ _ h3 => .ite (.laterW h3) (.ite (.laterW h3) h3)) (.endLull hs))) (.foldl (fun _ _ h4 => .ite
      (.laterW h4) (.ite (.laterW h4) h4)) (.endLull hs)))
  · exact .ite (.laterW (.foldl (fun _ _ h5 => .ite (.laterW h5) (.ite (.laterW h5) h5)) (.endLull hs))) (.foldl (fun _ _ h6 => .ite (.laterW h6)
      (.ite (.laterW h6) h6)) (.endLull hs))
theorem recovered {s : State} {r : Recovery} {method : Nat} (hs : s.InForm) : (s.recovered r method).InForm :=
  .wake (.ite (.applyHeld (.ite (.foldl (fun _ _ h1 => .laterW h1) (.ite (.upd (.ite (.upd (.corrected (.dropRecovery hs))) (.corrected
    (.dropRecovery hs)))) (.ite (.upd (.corrected (.dropRecovery hs))) (.corrected (.dropRecovery hs))))) (.ite (.upd (.ite (.upd (.corrected
    (.dropRecovery hs))) (.corrected (.dropRecovery hs)))) (.ite (.upd (.corrected (.dropRecovery hs))) (.corrected (.dropRecovery hs)))))) (.ite
    (.foldl (fun _ _ h2 => .laterW h2) (.ite (.upd (.ite (.upd (.corrected (.dropRecovery hs))) (.corrected (.dropRecovery hs)))) (.ite (.upd
    (.corrected (.dropRecovery hs))) (.corrected (.dropRecovery hs))))) (.ite (.upd (.ite (.upd (.corrected (.dropRecovery hs))) (.corrected
    (.dropRecovery hs)))) (.ite (.upd (.corrected (.dropRecovery hs))) (.corrected (.dropRecovery hs))))))
theorem refreshMeters {s : State} (hs : s.InForm) : s.refreshMeters.InForm :=
  .ite hs (.setFld (.setFld (.setFld (.setFld (.setFld (.upd hs))))))
theorem reinject {s : State} {t : Transfer} (hs : s.InForm) : (s.reinject t).InForm :=
  .afterResend (.askStage (.modTransfer hs))
theorem reinstate {s : State} (hs : s.InForm) : s.reinstate.InForm :=
  .foldl (fun _ _ h1 => .setFld (.foldl (fun _ _ h2 => .setReg h2) h1)) hs
theorem releaseProd {s : State} {k c m : Nat} (hs : s.InForm) : (s.releaseProd k c m).InForm := by
  unfold State.releaseProd
  dsimp only
  split
  · exact .applyRelease hs
  · exact .askStage (.modLink hs)
  · exact .askStage (.modLink hs)
theorem releaseSeen {s : State} {k c m : Nat} {consumer : Bool} (hs : s.InForm) : (s.releaseSeen k c m consumer).InForm :=
  .ite (.modLink (.setSem hs)) (.endLull (.modLink (.setSem hs)))
theorem remapLine {s : State} {st line : Nat} (hs : s.InForm) : AllInForm (s.remapLine st line) := by
  unfold State.remapLine
  dsimp only
  split
  · exact .some hs
  · exact .ite .none (.some (.upd (.setFld (.setReg hs))))
theorem repairUnit {s : State} {k base src : Nat} {d : SDesc} {n : Nat} (hs : s.InForm) : AllInForm (s.repairUnit k base src d n) := by
  unfold State.repairUnit
  dsimp only
  exact .ite (.some (.ite (.bfpPlace hs) hs)) (.ite (.ite .none (.ite (.some (.bfpPlace hs)) (.some (.feedPlace hs)))) (by
    split
    · exact .some (.feedPlace (.countConv hs))
    · exact .none))
theorem repairPanel {s : State} {k base src : Nat} {d : SDesc} {q : Nat} (hs : s.InForm) :
    AllInForm (s.repairPanel k base src d q) :=
  .foldl (fun _ _ h => repairUnit h) (.some hs)
theorem replay {s : State} {p : Nat} {control : Bool} {seq : Option Nat} (hs : s.InForm) : (s.replay p control seq).InForm := by
  unfold State.replay
  dsimp only
  split
  · exact hs
  · exact .ite (.linkDown hs) (.modPort (.bump hs))
theorem reportLost {s : State} (hs : s.InForm) : s.reportLost.InForm :=
  .foldl (fun _ _ h1 => .raise h1) (.upd hs)
theorem resendDone {s : State} {t : Transfer} {u : Nat} (hs : s.InForm) : (s.resendDone t u).InForm :=
  .ite (.modTransfer hs) (.ite (.ackTransfer (.ite (.companionIn (.endLull (.modTransfer hs))) (.endLull (.modTransfer hs)))) (.closeTransfer (.ite
    (.companionIn (.endLull (.modTransfer hs))) (.endLull (.modTransfer hs)))))
theorem setRatios {s : State} {supply thermal : Nat} (hs : s.InForm) : (s.setRatios supply thermal).InForm :=
  .setFld (.setFld (.upd hs))
theorem restSquall {s : State} {target : Nat} (hs : s.InForm) : (s.restSquall target).InForm :=
  .ite hs (.ite (.endSquall (.setRatios hs)) (.upd (.setRatios hs)))
theorem retryTile {s : State} {k slot : Nat} {i : Instr} (hs : s.InForm) : (s.retryTile k slot i).InForm := by
  unfold State.retryTile
  dsimp only
  split
  · exact .again (.askStage (.beginRecovery hs))
  · exact .beginRecovery hs
theorem ringBeat {s : State} {k : Nat} {cq : Option Nat} (hs : s.InForm) : (s.ringBeat k cq).InForm := by
  unfold State.ringBeat
  dsimp only
  exact .ite (.laterW (.ite (.ite (.laterW (.modPart (.laterW (.drainRecords (by
    split
    · exact .modPart hs
    · exact hs))))) (.modPart (.laterW (.drainRecords (by
    split
    · exact .modPart hs
    · exact hs))))) (.drainRecords (by
    split
    · exact .modPart hs
    · exact hs)))) (.ite (.ite (.laterW (.modPart (.laterW (.drainRecords (by
    split
    · exact .modPart hs
    · exact hs))))) (.modPart (.laterW (.drainRecords (by
    split
    · exact .modPart hs
    · exact hs))))) (.drainRecords (by
    split
    · exact .modPart hs
    · exact hs)))
theorem rowTile {s : State} {k c : Nat} {d : UDesc} {o : SchOut} {sg i : Nat} (hs : s.InForm) : (s.rowTile k c d o sg i).InForm :=
  .ite (.toStore (.putOut (.bump hs))) (.ite (.toStore (.putOut (.bump hs))) (.toStore (.putOut (.ite (.bump hs) hs))))
theorem sawDepart {s : State} {u k sense : Nat} (hs : s.InForm) : (s.sawDepart u k sense).InForm :=
  .checkReopen (.modBar hs)
theorem stepAnchor {s : State} {k : Nat} (hs : s.InForm) : (s.stepAnchor k).InForm :=
  .ite (.modPart hs) hs
theorem sendTaken {s : State} {k c link : Nat} {buffer : Option (Nat × List Nat)} {m : FabricMsg} {deadline : Nat} (hs : s.InForm) :
  (s.sendTaken k c link buffer m deadline).InForm := by
  unfold State.sendTaken
  dsimp only
  split
  · exact .grantNext (.modPort (.acquireCons hs))
  · exact .sendMsg (.acquireCons hs)
  · exact .acquireCons hs
theorem sendHalf {s : State} {k c link : Nat} (hs : s.InForm) : (s.sendHalf k c link).InForm := by
  unfold State.sendHalf
  dsimp only
  exact .ite hs (by
    split
    · exact hs
    · exact (by
      split
      · exact .sendTaken hs
      · exact .ite (.sendTaken hs) (.ite (.sendTaken (.bump hs)) (.ite (.sendTaken hs) (.ite (.after hs) (.sendTaken hs))))))
theorem setHdrAt {s : State} {A off t : Nat} {hdr : List Nat} (hs : s.InForm) : (s.setHdrAt A off t hdr).InForm :=
  .foldl (fun _ _ h1 => .bankWrite h1) hs
theorem setRingTile {s : State} {A h fmt t : Nat} {hdr elems : List Nat} (hs : s.InForm) : (s.setRingTile A h fmt t hdr elems).InForm :=
  .setHdrAt (.foldl (fun _ _ h1 => .putElem h1) hs)
theorem writeTile {s : State} {t : Transfer} {i : Nat} (hs : s.InForm) : (s.writeTile t i).InForm :=
  .ite (.setRingTile hs) (.setRingTile hs)
theorem tileArrive {s : State} {id i : Nat} (hs : s.InForm) : (s.tileArrive id i).InForm := by
  unfold State.tileArrive
  split
  · exact hs
  · exact .ite hs (.ite (.askResend hs) (.ite (.after hs) (.writeTile hs)))
theorem tileWrite {s : State} {id i : Nat} (hs : s.InForm) : (s.tileWrite id i).InForm := by
  unfold State.tileWrite
  split
  · exact hs
  · exact .ite hs (.writeTile hs)
theorem vectorStops {s : State} {k c code idx : Nat} (hs : s.InForm) : (s.vectorStops k c code idx).InForm :=
  .faultCtx (.setFld (.modCore hs))
theorem writeRed {s : State} {k c : Nat} {d : VDesc} {ws : List Nat} (hs : s.InForm) : (s.writeRed k c d ws).InForm :=
  .ite hs (.ite (.storeWrite (.mayWrite hs)) (.mayWrite hs))
theorem writeRows {s : State} {k c : Nat} {d : VDesc} {rows : List (List Nat)} (hs : s.InForm) : (s.writeRows k c d rows).InForm :=
  .ite (.modCore hs) (.ite (.foldl_fst (fun _ _ h1 => .ite_fst h1 (.ite (.storeWrite (.mayWrite h1)) (.mayWrite h1))) hs) hs)
theorem vectorResults {s : State} {k c : Nat} {d : VDesc} (hs : s.InForm) : (s.vectorResults k c d).InForm :=
  .writeRed (.writeRows (.bump hs))
theorem vectorTile {s : State} {k c idx tile : Nat} (hs : s.InForm) : (s.vectorTile k c idx tile).InForm := by
  unfold State.vectorTile
  dsimp only
  split
  · exact hs
  · exact .under hs (fun _ h1 => (by
    split
    · exact .vectorStops h1
    · exact .ite (.vectorStops h1) (.ite (.beginRecovery h1) (.ite (.vectorStops h1) (.ite h1 (.vectorResults h1))))))
theorem storeWriteTile {s : State} {k e : Nat} {en : Engine} {d : SDesc} {key : Nat} {wc : Bool} {cv : Converted} (hs : s.InForm) :
  (s.storeWriteTile k e en d key wc cv).1.InForm :=
  .ite_fst (.straGo hs) (.ite_fst (.ite_fst (.ite_fst (.storeFabric (.storeFabric (.modCore hs))) (.storeFabric (.modCore hs))) (.straSend hs))
      (.ite_fst (.ite (.shared (.hbmWrite (.hbmWrite (.mayWrite2 hs)))) (.mayWrite2 hs)) (.feedWrite hs)))
theorem storeOut {s : State} {k e : Nat} {en : Engine} {es : List (Nat × Nat × Bool)} (hs : s.InForm) : (s.storeOut k e en es).InForm := by
  unfold State.storeOut
  dsimp only
  exact .under hs (fun _ h1 => (by
    split
    · exact .fault (.stopEngine h1)
    · exact .ite (.fault (.stopEngine h1)) (.ite (.storeWriteTile (.countConv h1)) (.stopEngine (.storeWriteTile (.countConv h1))))))
theorem runAct {s : State} {a : Act} (hs : s.InForm) : (s.runAct a).InForm := by
  unfold State.runAct
  split
  · exact .upd hs
  · exact .firstByte hs
  · exact .countArrival hs
  · exact .departReach hs
  · exact .sawDepart hs
  · exact .releaseSeen hs
  · exact .stepAnchor hs
  · exact .feederSlot hs
  · exact .beginAdd hs
  · exact .sendHalf hs
  · exact .operandSlot hs
  · exact .tileArrive hs
  · exact .tileWrite hs
  · exact .deliverRead hs
  · exact .vectorTile hs
  · exact .storeOut hs
theorem schCompute {s : State} {k j t : Nat} (hs : s.InForm) : (s.schCompute k j t).InForm :=
  .modCore (.setReg (.setReg (.setReg (.setReg (.setReg (.enterStaged hs))))))
theorem schedule {s : State} {k j t : Nat} (hs : s.InForm) : (s.schedule k j t).1.InForm :=
  .ite_fst hs (.schCompute hs)
theorem runUpdate {s : State} {k c idx : Nat} {d : UDesc} {desc : List Nat} (hs : s.InForm) : (s.runUpdate k c idx d desc).InForm :=
  .beginVector (.foldl (fun _ _ h1 => .ite (.denseTile h1) (.rowTile h1)) (.schedule hs))
theorem runVector {s : State} {k c idx : Nat} {d : VDesc} {desc : List Nat} (hs : s.InForm) : (s.runVector k c idx d desc).InForm :=
  .ite (.vectorResults (.beginVector hs)) (.foldl (fun _ _ h1 => .after h1) (.beginVector hs))
theorem thinFatal {s : State} {k : Nat} {t : ThinRun} (hs : s.InForm) : (s.thinFatal k t).InForm :=
  .fault (.endThin hs)
theorem selectBlock {s : State} {k block : Nat} {upset : Bool} {t : ThinRun} (hs : s.InForm) : (s.selectBlock k block upset t).InForm := by
  unfold State.selectBlock
  dsimp only
  split
  · exact .endThin (.ite_fst (.acquireThin hs) hs)
  · exact .again (.ite_fst (.acquireThin hs) hs)
  · exact .ite (.thinFatal (.ite_fst (.acquireThin hs) hs)) (.ite (.modCore (.thinWrite (.ite_fst (.acquireThin hs) hs))) (.ite (.emitBlock
    (.ite_fst (.acquireThin hs) hs)) (.ite (.recoverStore (.ite_fst (.acquireThin hs) hs)) (.ite (.recoverStore (.ite_fst (.acquireThin hs) hs))
    (.emitBlock (.ite_fst (.acquireThin hs) hs))))))
theorem sendAgain {s : State} {p : Nat} {control : Bool} {x : Kept} (hs : s.InForm) : (s.sendAgain p control x).InForm :=
  .laterW (.emitFlit (.modPort hs))
theorem sendNew {s : State} {p : Nat} {f : Flit} {more : Bool} (hs : s.InForm) : (s.sendNew p f more).InForm := by
  unfold State.sendNew
  dsimp only
  exact .ite (.laterW (.emitFlit (.laterW (.bump (.modPort (by
    split
    · exact .modPort hs
    · exact hs)))))) (.ite (.laterW (.emitFlit (.laterW (.bump (.modPort (by
    split
    · exact .modPort hs
    · exact hs)))))) (.emitFlit (.laterW (.bump (.modPort (by
    split
    · exact .modPort hs
    · exact hs))))))
theorem serveHeld {s : State} (hs : s.InForm) : s.serveHeld.InForm :=
  .foldl (fun _ _ h1 => .ite h1 (.beginRecovery h1)) hs
theorem setLayout {s : State} {bypass : Nat} (hs : s.InForm) : (s.setLayout bypass).InForm :=
  .setReg (.setReg hs)
theorem setPwr {s : State} {n : Nat} (hs : s.InForm) : (s.setPwr n).InForm :=
  .showPstat (.setFld hs)
theorem setRole {s : State} {i r : Nat} (hs : s.InForm) : (s.setRole i r).InForm :=
  .setFld hs
theorem settleFreeze {s : State} {k : Nat} (hs : s.InForm) : (s.settleFreeze k).InForm :=
  .ite (.modCore hs) (.upd (.modCore hs))
theorem showMapHash {s : State} (hs : s.InForm) : s.showMapHash.InForm :=
  .foldl (fun _ _ h1 => .setReg h1) hs
theorem smbus {s : State} {b : List Nat} (hs : s.InForm) : (s.smbus b).InForm :=
  .ite hs (.out hs)
theorem spdm {s : State} {h need : Nat} {f : State → Machine.State} (hs : s.InForm) (hf : ∀ t, t.InForm → (f t).InForm) : OutInForm
  (s.spdm h need f) :=
  .ite (.next hs) (.ite (.next (.doeError hs)) (.next (hf _ hs)))
theorem spdmAt {s : State} {h n : Nat} (hs : s.InForm) : (s.spdmAt h n).InForm :=
  .modHost hs
theorem stageSch {s : State} {k key : Nat} {r : RegRow} {v : Word} (hs : s.InForm) : (s.stageSch k key r v).InForm :=
  .modCore hs
theorem startEngine {s : State} {k c e idx : Nat} {back : Bool} (hs : s.InForm) : (s.startEngine k c e idx back).InForm := by
  unfold State.startEngine
  dsimp only
  exact .ite (.faultCtx hs) (by
    split
    · exact .faultCtx hs
    · exact .later (.modCore hs))
theorem startHop {s : State} {k c A h dst : Nat} {links : List (Nat × Bool)} {x : HaloArgs} {len : Nat} (hs : s.InForm) :
  (s.startHop k c A h dst links x len).InForm :=
  .later (.later (.ite (.after (.ite (.modComp (.upd (.fresh hs))) (.modRing (.upd (.fresh hs))))) (.foldl (fun _ _ h1 => .after h1) (.after (.ite
      (.modComp (.upd (.fresh hs))) (.modRing (.upd (.fresh hs))))))))
theorem startReceive {s : State} {k c e idx : Nat} (hs : s.InForm) : (s.startReceive k c e idx).InForm := by
  unfold State.startReceive
  dsimp only
  exact .ite (.faultCtx hs) (by
    split
    · exact .faultCtx hs
    · exact .modCore hs)
theorem straFeeder {s : State} {t : StraTransfer} {j : Nat} (hs : s.InForm) : (s.straFeeder t j).InForm := by
  unfold State.straFeeder
  dsimp only
  split
  · exact hs
  · exact .ite (.fault hs) (.endLull (.feederTile hs))
theorem straPlace {s : State} {t : StraTransfer} {j : Nat} (hs : s.InForm) : (s.straPlace t j).InForm := by
  unfold State.straPlace
  dsimp only
  exact .ite (.straFeeder hs) (.ite (.ite (.outsideMay hs) (.ite (.receiveCount (.outsideMay hs)) (by
    split
    · exact .skewWrite (.foldl (fun _ _ h1 => .skewHdr h1) (.receiveCount (.outsideMay hs)))
    · exact .foldl (fun _ _ h2 => .skewHdr h2) (.receiveCount (.outsideMay hs))))) (by
    split
    · exact .placeOutside (.foldl (fun _ _ h3 => .placeOutside h3) hs)
    · exact .foldl (fun _ _ h4 => .placeOutside h4) hs))
theorem writeBack {s : State} {r : Recovery} {a : Nat} {bs : List Nat} (hs : s.InForm) : (s.writeBack r a bs).InForm :=
  .ite (.foldl (fun _ _ h1 => .bankWrite h1) (.ite hs (.bump hs))) (.ite (.upd (.hbmWrite (.ite hs (.bump hs)))) (.storeWrite (.ite hs (.bump hs))))
theorem supply {s : State} {r : Recovery} {method : Nat} {hdr bs : List Nat} (hs : s.InForm) : (s.supply r method hdr bs).InForm := by
  unfold State.supply
  dsimp only
  exact .recovered (.writeBack (by
    split
    · exact .ite hs (.writeBack hs)
    · exact hs))
theorem supplyBeat {s : State} (hs : s.InForm) : s.supplyBeat.InForm :=
  .ite (.upd (.ite (.bump (.ite (.bump hs) hs)) (.ite (.bump hs) hs))) (.ite (.bump (.ite (.bump hs) hs)) (.ite (.bump hs) hs))
theorem supplyBeatStep {s : State} (hs : s.InForm) : s.supplyBeatStep.InForm :=
  .ite (.laterW hs) hs
theorem supplySeen {s : State} {mv : Nat} (hs : s.InForm) : (s.supplySeen mv).InForm :=
  .ite (.setFld (.upd hs)) (.upd hs)
theorem takeHeader {s : State} {p : Nat} {f : Flit} (hs : s.InForm) : (s.takeHeader p f).InForm := by
  unfold State.takeHeader
  dsimp only
  split
  · exact .ite (.compareBeat (.modPort hs)) (.modPort hs)
  · exact .modPort hs
theorem takeHeldAlign {s : State} (hs : s.InForm) : s.takeHeldAlign.InForm := by
  unfold State.takeHeldAlign
  dsimp only
  exact .foldl (fun _ _ h1 => (by
    split
    · exact h1
    · exact .ite (.modPort h1) (.acceptAlign (.modPort h1)))) hs
theorem takePlace {s : State} (hs : s.InForm) : s.takePlace.InForm := by
  unfold State.takePlace
  dsimp only
  split
  · exact .upd hs
  · exact hs
theorem tapIr {s : State} {n : Nat} (hs : s.InForm) : (s.tapIr n).InForm :=
  .upd hs
theorem testWrite {s : State} {st n : Nat} {bs : List Nat} (hs : s.InForm) : (s.testWrite st n bs).InForm :=
  .ite (.upd (.hbmWrite hs)) (.hbmWrite hs)
theorem thermalBeat {s : State} {sensors : List Nat} (hs : s.InForm) : (s.thermalBeat sensors).InForm :=
  .ite (.laterW (.ite (.laterW (.upd (.ite (.eventDie (.upd hs)) (.upd hs)))) (.upd (.ite (.eventDie (.upd hs)) (.upd hs))))) (.ite (.laterW (.upd
    (.ite (.eventDie (.upd hs)) (.upd hs)))) (.upd (.ite (.eventDie (.upd hs)) (.upd hs))))
theorem toOvercast {s : State} {test detail : Nat} (hs : s.InForm) : (s.toOvercast test detail).InForm :=
  .setPwr (.setFld (.setFld (.setFld (.setFld (.setFld (.updMem (.foldl (fun _ _ h1 => .goDark h1) (.foldl (fun _ _ h2 => .ite
    (.toUnloaded h2) h2) hs)) (fun _ => rfl) store lstore mbuf))))))
theorem traceCirrus {s : State} {a : Act} (hs : s.InForm) : (s.traceCirrus a).InForm := by
  unfold State.traceCirrus
  split
  · exact .traceRec hs
  · exact hs
theorem trainFail {s : State} {p lanes : Nat} (hs : s.InForm) : (s.trainFail p lanes).InForm :=
  .laterW (.eventPort (.setFld (.goDark (.setFld hs))))
theorem tryDone {s : State} {src : Coord} {id : Nat} (hs : s.InForm) : (s.tryDone src id).InForm := by
  unfold State.tryDone
  split
  · exact hs
  · exact .ite hs (.ite (.finishMcast hs) (.sendCtl (.modMcast hs)))
theorem tryReady {s : State} (hs : s.InForm) : s.tryReady.InForm :=
  .ite hs (.ite (.foldl (fun _ _ h1 => .sendCtl h1) (.fabricReady hs)) (by
    split
    · exact .sendCtl hs
    · exact hs))
theorem unloadPlain {s : State} {k : Nat} (hs : s.InForm) : (s.unloadPlain k).InForm :=
  .modPart (.toUnloaded (.cancelQueue hs))
theorem verifyPass {s : State} {bad : List Nat} (hs : s.InForm) : (s.verifyPass bad).1.InForm := by
  unfold State.verifyPass
  dsimp only
  exact .foldl_fst (fun _ _ h1 => (by
    split
    · exact h1
    · exact (by
      split
      · rename_i e2
        exact .of_some e2 (remapLine (.bump h1))
      · exact .bump h1))) hs
theorem warmState {s : State} (hs : s.InForm) : s.warmState.InForm := by
  have hreset : (s.resetBits warmMask).InForm := .resetBits hs
  exact .showPstat (.setReg ⟨hs.hbm, hs.store, hs.lstore, rfl, hreset.regsOk⟩)
theorem writeBar2Base {s : State} {h : Nat} {v : Word} (hs : s.InForm) : (s.writeBar2Base h v).InForm :=
  .setReg hs
theorem writePlain {s : State} {key : Nat} {r : RegRow} {v : Word} (hs : s.InForm) : (s.writePlain key r v).InForm :=
  .setReg hs
theorem writeCapture {s : State} {key : Nat} {r : RegRow} {v : Word} (hs : s.InForm) : (s.writeCapture key r v).InForm :=
  .ite (.setFld (.writePlain hs)) (.writePlain hs)
theorem writeCompUnit {s : State} {t : Transfer} {u : Nat} (hs : s.InForm) : (s.writeCompUnit t u).InForm :=
  .ite (.setCompHdr hs) (.bankWrite hs)
theorem writeCompanion {s : State} {t : Transfer} {bad : List Nat} (hs : s.InForm) : (s.writeCompanion t bad).InForm :=
  .foldl (fun _ _ h1 => .foldl (fun _ _ h2 => .ite h2 (.writeCompUnit h2)) h1) (.ite hs (.writeCompUnit hs))
theorem writeRingCtrl {s : State} {key : Nat} {v : Word} {rw lo hi wide : Nat} (hs : s.InForm) : (s.writeRingCtrl key v rw lo hi wide).InForm :=
  .setReg hs
theorem writeSlotBase {s : State} {k slot : Nat} {dst : Bool} {v : Word} (hs : s.InForm) : (s.writeSlotBase k slot dst v).InForm :=
  .ite (.setFld hs) (.setReg hs)
theorem writeFreeze {s : State} {k : Nat} {v : Word} (hs : s.InForm) : (s.writeFreeze k v).InForm :=
  .hbmWrite (.modCore hs)
theorem writeTqHigh {s : State} {k key : Nat} {r : RegRow} {v : Word} (hs : s.InForm) : (s.writeTqHigh k key r v).InForm :=
  .setFld (.writePlain hs)
theorem writeCore {s : State} {h a : Nat} {r : RegRow} {v : Word} (hs : s.InForm) : (s.writeCore h a r v).InForm :=
  .ite hs (.ite (.writeRingCtrl hs) (.ite (.writeRingCtrl hs) (.ite (.ite hs (.writePlain hs)) (.ite (.ite hs (.writePlain hs)) (.ite
    (.writeSlotBase hs) (.ite (.writePlain (.noteArm hs)) (.ite (.writeFreeze hs) (.ite (.writeTqHigh hs) (.ite (.stageSch hs) (.ite
    (.writeCapture hs) (.ite (.ite hs (.writePlain hs)) (.ite (.ite (.writePlain hs) hs) (.writePlain hs)))))))))))))
theorem writeDumpSel {s : State} {h : Nat} {v : Word} (hs : s.InForm) : (s.writeDumpSel h v).InForm :=
  .ite (.upd (.setFld hs)) (.setFld hs)
theorem writeTraceCtrl {s : State} {v : Word} (hs : s.InForm) : (s.writeTraceCtrl v).InForm :=
  .ite hs (.setReg hs)
theorem writeDbg {s : State} {h a : Nat} {r : RegRow} {v : Word} (hs : s.InForm) : (s.writeDbg h a r v).InForm :=
  .ite (.ite hs (.writePlain hs)) (.ite (.writeRingCtrl hs) (.ite (.writeDumpSel hs) (.ite (.ite (.modHost hs) hs) (.ite (.writeTraceCtrl hs)
    (.writePlain hs)))))
theorem writeLinkEnable {s : State} {p : Nat} {v : Word} (hs : s.InForm) : (s.writeLinkEnable p v).InForm :=
  .ite (.goDark (.setFld hs)) (.ite (.trainFrom (.setFld hs)) (.setFld hs))
theorem writeMsix {s : State} {h a size : Nat} {v : Word} (hs : s.InForm) : (s.writeMsix h a size v).InForm :=
  .ite (.setReg hs) (.ite (.setReg hs) (.msix (.modHost (.setReg hs))))
theorem writeServed {s : State} {h a size : Nat} {v : Word} (hs : s.InForm) : (s.writeServed h a size v).InForm := by
  unfold State.writeServed
  dsimp only
  exact .ite (.writeMsix hs) (.ite (.updMem hs hbm store lstore (fun h => Memory.wf_memWrite _ _ h.mbuf)) (by
    split
    · exact hs
    · exact .ite (.writeCore hs) (.ite (.writeBar2Base hs) (.ite (.ite (.issue hs) (.setReg hs)) (.ite (.writeDbg hs) (.ite (.ite (.askLinkReset
      (.writeLinkEnable hs)) (.writeLinkEnable hs)) (.ite (.ite hs (.writePlain hs)) (.ite (.writeCapture hs) (.ite hs (.writePlain hs))))))))))
theorem writeReg {s : State} {h a size : Nat} {v : Word} (hs : s.InForm) : (s.writeReg h a size v).InForm :=
  .gated hs (fun _ h1 => .writeServed h1)
theorem zenBooted {s : State} {slot fw : Nat} (hs : s.InForm) : (s.zenBooted slot fw).InForm :=
  .upd (.setFld (.setFld (.setFld (.setFld (.setFld (.setFld (.setFld (.upd (.drawKey hs)))))))))
theorem zeroiseSecrets {s : State} (hs : s.InForm) : s.zeroiseSecrets.InForm :=
  .foldl (fun _ _ h1 => .awaitKeys h1) (.upd (.setFld (.setFld (.setFld (.setFld (.foldl (fun _ _ h2 => .modHost h2) (.foldl
    (fun _ _ h3 => .modPart h3) (.ideLost (.ideLost hs)))))))))
theorem zenReset {s : State} {why : Nat} (hs : s.InForm) : (s.zenReset why).InForm :=
  .showPstat (.setReg (.upd (.resetBits (.foldl (fun _ _ h1 => .setFld h1) (.zeroiseSecrets (.showMaint (.upd (.foldl (fun _ _ h2 => .modPart
    (.setFld (.setFld h2))) (.foldl (fun _ _ h3 => .ite (.modPart h3) h3) (.foldl (fun _ _ h4 => .fault h4) hs))))))))))
theorem zeroPanel {s : State} {key a : Nat} (hs : s.InForm) : (s.zeroPanel key a).InForm :=
  .hbmWrite hs
theorem zeroPart {s : State} {k : Nat} {t : Nat × Nat × Nat} (hs : s.InForm) : (s.zeroPart k t).InForm :=
  .ite (.modPart (.finishTickets (.ite (.modPart (.maintEnd (.setFld (.setFld hs)))) hs))) (.clearOrWait (.toUnloaded (.finishTickets (.ite
    (.modPart (.maintEnd (.setFld (.setFld hs)))) hs))))

end State.InForm

end Sys2Proof.Machine
end

section
/-! PROOF. Every command keeps the canonical form, and so does the passing of time; with them the step does (R500, log entry 2). -/
namespace Sys2Proof.Machine
namespace State.InForm

theorem execStepStart {k c unit : Nat} {s : State} (hs : s.InForm) : OutInForm (execStepStart k c unit s) :=
  .ite (.next hs) (.ite (.next (.modBar (.modCtx hs))) (.ite (.next (.coreArrival (.modBar (.modCtx hs)))) (.next (.modBar (.coreArrival (.modBar
    (.modCtx hs)))))))
theorem execEndStep {k c : Nat} {s : State} (hs : s.InForm) : OutInForm (execEndStep k c s) :=
  .ite (.next (.modCtx hs)) (.ite (.next (.stopPartition (.modCtx hs))) (.ite (.next (.endOfStep (.modCtx hs))) (.next (.modCtx hs))))
theorem execFetch {k c e idx : Nat} {s : State} (hs : s.InForm) : OutInForm (execFetch k c e idx s) :=
  .next (.startEngine hs)
theorem execFeed {k c e idx : Nat} {s : State} (hs : s.InForm) : OutInForm (execFeed k c e idx s) :=
  .next (.startEngine hs)
theorem execInject {k c e idx : Nat} {back : Bool} {s : State} (hs : s.InForm) : OutInForm (execInject k c e idx back s) :=
  .next (.startEngine hs)
theorem execStore {k c e idx : Nat} {s : State} (hs : s.InForm) : OutInForm (execStore k c e idx s) :=
  .next (.startEngine hs)
theorem execHandoff {k c e idx : Nat} {s : State} (hs : s.InForm) : OutInForm (execHandoff k c e idx s) :=
  .next (.startEngine hs)
theorem execGather {k c e idx : Nat} {s : State} (hs : s.InForm) : OutInForm (execGather k c e idx s) :=
  .next (.startEngine hs)
theorem execReceive {k c e idx : Nat} {s : State} (hs : s.InForm) : OutInForm (execReceive k c e idx s) :=
  .next (.startReceive hs)
theorem execRelease {k c link : Nat} {consumer : Bool} {s : State} (hs : s.InForm) : OutInForm (execRelease k c link consumer s) :=
  .next (.ite (.applyRelease hs) (.releaseProd hs))
theorem execProduct {k c a : Nat} {p : ProductArgs} {s : State} (hs : s.InForm) : OutInForm (execProduct k c a p s) := by
  unfold Machine.execProduct
  dsimp only
  exact .ite (.next (.faultCtx hs)) (by
    split
    · exact .next (.again (.askStage hs))
    · exact (by
      split
      · exact .next (.ite_fst (.acquireBlock (.ite_fst hs (.acquireBlock hs))) (.ite_fst hs (.acquireBlock hs)))
      · exact .next (.again (.ite_fst (.acquireBlock (.ite_fst hs (.acquireBlock hs))) (.ite_fst hs (.acquireBlock hs))))
      · exact .ite (.next (.recoverOperand (.ite_fst (.acquireBlock (.ite_fst hs (.acquireBlock hs))) (.ite_fst hs (.acquireBlock hs))))) (.ite
        (.next (.putProduct (.ite_fst (.acquireBlock (.ite_fst hs (.acquireBlock hs))) (.ite_fst hs (.acquireBlock hs))))) (.next (.faultCtx
        (.ite_fst (.acquireBlock (.ite_fst hs (.acquireBlock hs))) (.ite_fst hs (.acquireBlock hs))))))))
theorem execHalo {k c a : Nat} {h : HaloArgs} {s : State} (hs : s.InForm) : OutInForm (execHalo k c a h s) := by
  unfold Machine.execHalo
  dsimp only
  split
  · exact .next (.again (.askStage (.pruneSlots hs)))
  · exact (by
    split
    · exact .next (.faultCtx (.pruneSlots hs))
    · exact (by
      split
      · exact .next (.haloCollision (.pruneSlots hs))
      · exact .next (.startHop (.pruneSlots hs))))
theorem execVectorDescriptor {k c idx : Nat} {upset : Bool} {s : State} (hs : s.InForm) : OutInForm (execVectorDescriptor k c idx upset s) := by
  unfold Machine.execVectorDescriptor
  dsimp only
  exact .ite (.next (.faultCtx hs)) (.ite (.next (.faultCtx hs)) (.ite (.next (.retryTile hs)) (.ite (.next (.retryTile hs)) (.ite (.next
    (.faultCtx hs)) (by
    split
    · exact .next (.acquireIn hs)
    · exact .next (.again (.acquireIn hs))
    · exact .next (.runVector (.acquireIn hs)))))))
theorem execUpdateDescriptor {k c idx : Nat} {s : State} (hs : s.InForm) : OutInForm (execUpdateDescriptor k c idx s) := by
  unfold Machine.execUpdateDescriptor
  dsimp only
  exact .ite (.next (.faultCtx hs)) (.ite (.next (.faultCtx hs)) (.ite (.next (.faultCtx (.recordSkew hs))) (by
    split
    · exact .next (.settleFreeze (.acquireAll hs))
    · exact .next (.again (.keepFreeze (.acquireAll hs)))
    · exact .ite (.next (.settleFreeze (.acquireOuts (.acquireAll hs)))) (.next (.settleFreeze (.runUpdate (.ite (.raise (.recordSkew (.acquireOuts
      (.acquireAll hs)))) (.acquireOuts (.acquireAll hs)))))))))
theorem execThinningDescriptor {k c idx : Nat} {s : State} (hs : s.InForm) : OutInForm (execThinningDescriptor k c idx s) :=
  .ite (.next (.faultCtx hs)) (.next (.modCore hs))
theorem execBadd {k c idx : Nat} {s : State} (hs : s.InForm) : OutInForm (execBadd k c idx s) :=
  .ite (.next (.faultCtx hs)) (.ite (.next (.baddRows hs)) (.next (.baddColl hs)))
theorem execRearm {k c : Nat} {s : State} (hs : s.InForm) : OutInForm (execRearm k c s) :=
  .next (.foldl (fun _ _ h1 => .rearmSlot h1) hs)
theorem execArm {k _c coll : Nat} {s : State} (hs : s.InForm) : OutInForm (execArm k _c coll s) :=
  .next (.laterW (.later (.modColl hs)))
theorem execBarrierArrive {k c unit sense : Nat} {s : State} (hs : s.InForm) : OutInForm (execBarrierArrive k c unit sense s) :=
  .next (.coreArrival hs)
theorem execBarrierDepart {k c unit sense : Nat} {s : State} (hs : s.InForm) : OutInForm (execBarrierDepart k c unit sense s) :=
  .next (.coreDeparture hs)
theorem execLoop {k c : Nat} {step : Int} {count period body : Nat} {s : State} (hs : s.InForm) : OutInForm (execLoop k c step count period body s) :=
  .next (.modCtx hs)
theorem execStreamIssue {k e : Nat} {upset : Bool} {s : State} (hs : s.InForm) : OutInForm (execStreamIssue k e upset s) :=
  .ite (.next hs) (.ite (.next (.fault (.stopEngine hs))) (.ite (.next (.recoverStore hs)) (.next (.under hs (fun _ h1 => .issueUnit h1)))))
theorem execReadLands {id : Nat} {upset : Bool} {s : State} (hs : s.InForm) : OutInForm (execReadLands id upset s) := by
  unfold Machine.execReadLands
  dsimp only
  split
  · exact .next hs
  · exact .ite (.next (.beginRecovery hs)) (.ite (.next (.landRead hs)) (.next (.dataCome (.shared hs))))
theorem execStratusTransferDelivery {id : Nat} {s : State} (hs : s.InForm) : OutInForm (execStratusTransferDelivery id s) := by
  unfold Machine.execStratusTransferDelivery
  split
  · exact .next hs
  · exact .next (.foldl (fun _ _ h1 => .straPlace h1) (.upd hs))
theorem execTileQueueEntry {A id t : Nat} {s : State} (hs : s.InForm) : OutInForm (execTileQueueEntry A id t s) := by
  unfold Machine.execTileQueueEntry
  dsimp only
  split
  · exact .next hs
  · exact .next (.ite (.dropProd (.ite hs (.enterTiles hs))) (.ite hs (.enterTiles hs)))
theorem execRingHalfRelease {A half : Nat} {s : State} (hs : s.InForm) : OutInForm (execRingHalfRelease A half s) :=
  .ite (.next (.modArr hs)) (.next (.freeRing (.modRing (.modArr hs))))
theorem execHaloTransferArrival {id : Nat} {bad : List Nat} {s : State} (hs : s.InForm) : OutInForm (execHaloTransferArrival id bad s) := by
  unfold Machine.execHaloTransferArrival
  dsimp only
  split
  · exact .next hs
  · exact .ite (.next hs) (.ite (.next (.foldl (fun _ _ h1 => .askResend h1) hs)) (.next (.closeTransfer (.ite (.companionIn (.foldl
    (fun _ _ h2 => .askResend h2) (.modTransfer (.ite (.writeCompanion hs) hs)))) (.foldl (fun _ _ h3 => .askResend h3) (.modTransfer (.ite
    (.writeCompanion hs) hs)))))))
theorem execHaloAck {id : Nat} {s : State} (hs : s.InForm) : OutInForm (execHaloAck id s) := by
  unfold Machine.execHaloAck
  split
  · exact .next hs
  · exact .ite (.next hs) (.ite (.next (.modTransfer hs)) (.next (.ackTransfer hs)))
theorem execTileResent {id tile : Nat} {bad : Bool} {s : State} (hs : s.InForm) : OutInForm (execTileResent id tile bad s) := by
  unfold Machine.execTileResent
  dsimp only
  split
  · exact .next hs
  · exact .ite (.next hs) (by
    split
    · exact .next (.reinject (.bump hs))
    · exact .next (.resendDone (.writeTile (.modTransfer (.eventCore (.bump hs))))))
theorem execPanelReinjected {id : Nat} {s : State} (hs : s.InForm) : OutInForm (execPanelReinjected id s) := by
  unfold Machine.execPanelReinjected
  dsimp only
  split
  · exact .next hs
  · exact .ite (.next hs) (by
    split
    · exact .ite (.next (.uncorrectable (.upd hs))) (.next (.beginRecovery hs))
    · exact .next (.resendDone (.foldl (fun _ _ h1 => .writeTile h1) (.modTransfer (.eventCore (.bump hs))))))
theorem execDwTileColumnAdded {A id t : Nat} {upset : Bool} {s : State} (hs : s.InForm) :
    OutInForm (execDwTileColumnAdded A id t upset s) := by
  unfold Machine.execDwTileColumnAdded
  generalize List.flatMap _ (List.range 128) = places
  split
  · exact .next hs
  · refine .ite (.next (.ite (.dropProd hs) hs)) (.ite (.next (.adderFatal hs)) ?_)
    dsimp only
    generalize hq : places.foldl _ (s, true) = q
    have hq : q.1.InForm := hq ▸ .foldl_fst (fun p _ h => .ite_fst (by
      split
      · rename_i heq
        exact .mk_fst (.of_some heq (addColumnBlock h))
      · exact h) h) hs
    exact .ite (.next (.adderFatal hq)) (.next (.ite (.dropProd (.modComp hq)) hq))
theorem execCompanionResent {id unit : Nat} {bad : Bool} {s : State} (hs : s.InForm) : OutInForm (execCompanionResent id unit bad s) := by
  unfold Machine.execCompanionResent
  dsimp only
  split
  · exact .next hs
  · exact .ite (.next hs) (.ite (.next (.fault (.endLull (.dropTransfer hs)))) (.next (.resendDone (.writeCompUnit (.eventCore hs)))))
theorem execHandoffComplete {k e : Nat} {upset : Bool} {s : State} (hs : s.InForm) : OutInForm (execHandoffComplete k e upset s) := by
  unfold Machine.execHandoffComplete
  dsimp only
  split
  · exact .next (.modComp hs)
  · exact .next (.ite (.thinFatal (.modComp hs)) (.modComp hs))
theorem execSelectionBlockDone {k block : Nat} {upset : Bool} {s : State} (hs : s.InForm) : OutInForm (execSelectionBlockDone k block upset s) := by
  unfold Machine.execSelectionBlockDone
  split
  · exact .next hs
  · exact .next (.under hs (fun _ h1 => .selectBlock h1))
theorem execThinnedMessageRelease {k : Nat} {s : State} (hs : s.InForm) : OutInForm (execThinnedMessageRelease k s) := by
  unfold Machine.execThinnedMessageRelease
  dsimp only
  split
  · exact .next hs
  · exact .next (.endThin (.decideK (.under hs (fun _ h1 => .ite (.applyRelease (.thinWrite h1)) (.applyRelease (.applyRelease (.thinWrite h1)))))))
theorem execVectorDescriptorComplete {k : Nat} {s : State} (hs : s.InForm) : OutInForm (execVectorDescriptorComplete k s) := by
  unfold Machine.execVectorDescriptorComplete
  dsimp only
  split
  · exact .next hs
  · exact .next (.ite (.completeColl (.ite (.setReg (.ite (.setFld (.modCore hs)) (.tqLevel (.setFld (.modCore hs))))) (.ite (.setFld (.modCore hs))
    (.tqLevel (.setFld (.modCore hs)))))) (.ite (.setReg (.ite (.setFld (.modCore hs)) (.tqLevel (.setFld (.modCore hs))))) (.ite (.setFld
    (.modCore hs)) (.tqLevel (.setFld (.modCore hs))))))
theorem execSwallowedCycle {s : State} (hs : s.InForm) : OutInForm (execSwallowedCycle s) :=
  .next (.passCycle hs)
theorem execHoldStart {k rv : Nat} {s : State} (hs : s.InForm) : OutInForm (execHoldStart k rv s) := by
  unfold Machine.execHoldStart
  dsimp only
  split
  · exact .next hs
  · exact .ite (.next hs) (.next (.toTree (.bumpF (.setFld (.setFld (.modRv hs))))))
theorem execHoldEnd {k rv : Nat} {s : State} (hs : s.InForm) : OutInForm (execHoldEnd k rv s) := by
  unfold Machine.execHoldEnd
  dsimp only
  split
  · exact .next hs
  · exact .ite (.next hs) (.next (.toTree (.setFld (.setFld (.modRv hs)))))
theorem execHoldStartReceived {k rv step : Nat} {src : Coord} {s : State} (hs : s.InForm) : OutInForm (execHoldStartReceived k rv step src s) :=
  .ite (.next (.bumpF hs)) (.ite (.next hs) (.next (.askLull (.bumpF (.setFld (.setFld (.modRv hs)))))))
theorem execHoldEndReceived {k rv step : Nat} {src : Coord} {shift : Nat} {s : State} (hs : s.InForm) : OutInForm
  (execHoldEndReceived k rv step src shift s) :=
  .ite (.next (.bumpF hs)) (.ite (.next hs) (.ite (.next (.modRv hs)) (.next (.endLull (.setFld (.modRv hs))))))
theorem execHoldTimeout {k rv : Nat} {s : State} (hs : s.InForm) : OutInForm (execHoldTimeout k rv s) :=
  .ite (.next hs) (.next (.foldl (fun _ _ h1 => .fault h1) (.fault hs)))
theorem execBeatBoundary {seen : BeatSeen} {s : State} (hs : s.InForm) : OutInForm (execBeatBoundary seen s) :=
  .next (.ite (.foldl (fun _ _ h1 => .modPort h1) (.traceRec (.foldl (fun _ _ h2 => .evqDrain h2) (.foldl (fun _ _ h3 => .modHost h3) (.foldl
    (fun _ _ h4 => .ringBeat (.holdBeat h4)) (.refreshMeters (.thermalBeat (.supplyBeatStep (.upd (.setFld (.setReg (.supplyBeat hs))))))))))))
    (.traceRec (.foldl (fun _ _ h5 => .evqDrain h5) (.foldl (fun _ _ h6 => .modHost h6) (.foldl (fun _ _ h7 => .ringBeat (.holdBeat h7))
    (.refreshMeters (.thermalBeat (.supplyBeatStep (.upd (.setFld (.setReg (.supplyBeat hs))))))))))))
theorem execEpoch {s : State} (hs : s.InForm) : OutInForm (execEpoch s) :=
  .next (.ite (.alignOrigin (.upd hs)) (.upd hs))
theorem execAlign {p beat phase hops : Nat} {s : State} (hs : s.InForm) : OutInForm (execAlign p beat phase hops s) :=
  .ite (.next (.compareBeat hs)) (.ite (.next hs) (.ite (.next (.modPort hs)) (.next (.acceptAlign hs))))
theorem execRefLoss {s : State} (hs : s.InForm) : OutInForm (execRefLoss s) :=
  .next (.eventDie (.setFld (.upd hs)))
theorem execBarArrive {unit sense p total : Nat} {s : State} (hs : s.InForm) : OutInForm (execBarArrive unit sense p total s) :=
  .ite (.next (.countArrival hs)) (.next (.barFault hs))
theorem execBarDepart {unit sense p beat : Nat} {s : State} (hs : s.InForm) : OutInForm (execBarDepart unit sense p beat s) :=
  .ite (.next (.barFault hs)) (.next (.roundDone hs))
theorem execBarOpen {unit sense p : Nat} {up : Bool} {s : State} (hs : s.InForm) : OutInForm (execBarOpen unit sense p up s) :=
  .ite (.ite (.next (.barFault hs)) (.next (.checkReopen (.modBar hs)))) (.ite (.next (.barFault hs)) (.next (.openSense hs)))
theorem execEventTake {s : State} (hs : s.InForm) : OutInForm (execEventTake s) := by
  unfold Machine.execEventTake
  dsimp only
  split
  · exact .next hs
  · exact .ite (.next hs) (.ite (.next (.ite (.upd hs) (.upd (.upd hs)))) (.ite (.next (.evqPut (.logEntry (.upd (.ite (.upd hs) (.upd
    (.upd hs))))))) (.next (.foldl (fun _ _ h1 => .evqPut h1) (.logEntry (.upd (.ite (.upd hs) (.upd (.upd hs)))))))))
theorem execCirBad {msg : Nat} {s : State} (hs : s.InForm) : OutInForm (execCirBad msg s) :=
  .next (.ite hs (.bump hs))
theorem execFlitReceived {p : Nat} {f : Flit} {s : State} (hs : s.InForm) : OutInForm (execFlitReceived p f s) :=
  .ite (.next hs) (.ite (.next (.askNak (.ite (.bump (.bump hs)) (.dropGroup (.eventPort (.bump (.bump (.bump hs)))))))) (.ite (.next (.takeHeader
    (.ite (.bump (.bump hs)) (.dropGroup (.eventPort (.bump (.bump (.bump hs)))))))) (.ite (.next (.laterW (.takeHeader (.ite (.bump (.bump hs))
    (.dropGroup (.eventPort (.bump (.bump (.bump hs))))))))) (.ite (.next (.ite (.takeHeader (.ite (.bump (.bump hs)) (.dropGroup (.eventPort (.bump
    (.bump (.bump hs))))))) (.askNak (.takeHeader (.ite (.bump (.bump hs)) (.dropGroup (.eventPort (.bump (.bump (.bump hs)))))))))) (.next (.ite
    (.takeFlit (.takeHeader (.ite (.bump (.bump hs)) (.dropGroup (.eventPort (.bump (.bump (.bump hs)))))))) (.joinGroup (.takeHeader (.ite (.bump
    (.bump hs)) (.dropGroup (.eventPort (.bump (.bump (.bump hs))))))))))))))
theorem execNak {p : Nat} {control : Bool} {seq : Nat} {s : State} (hs : s.InForm) : OutInForm (execNak p control seq s) :=
  .next (.replay hs)
theorem execRetryTimeout {p : Nat} {control : Bool} {s : State} (hs : s.InForm) : OutInForm (execRetryTimeout p control s) := by
  unfold Machine.execRetryTimeout
  dsimp only
  split
  · exact .next hs
  · exact .ite (.next (.replay hs)) (.next hs)
theorem execFabricMessageArrival {p : Nat} {m : FabricMsg} {s : State} (hs : s.InForm) : OutInForm (execFabricMessageArrival p m s) := by
  unfold Machine.execFabricMessageArrival
  dsimp only
  split
  · exact .next hs
  · exact .next (.ite (.ackMsg (.placeFabric hs)) (.placeFabric hs))
theorem execDelivered {id : Nat} {s : State} (hs : s.InForm) : OutInForm (execDelivered id s) := by
  unfold Machine.execDelivered
  dsimp only
  split
  · exact .next hs
  · exact .next (by
    split
    · exact .applyRelease (.dropSent hs)
    · exact .dropSent hs)
theorem execDeadlineMiss {id : Nat} {s : State} (hs : s.InForm) : OutInForm (execDeadlineMiss id s) := by
  unfold Machine.execDeadlineMiss
  dsimp only
  split
  · exact .next hs
  · exact .ite (.next hs) (.next (by
    split
    · exact .gatherLost (.upd (.ite hs (.missed hs)))
    · exact .upd (.ite hs (.missed hs))))
theorem execResidueRetry {id index : Nat} {s : State} (hs : s.InForm) : OutInForm (execResidueRetry id index s) := by
  unfold Machine.execResidueRetry
  dsimp only
  split
  · exact .next hs
  · exact .ite (.next (.shared (.laterW (.keepSent (.upd (.fresh hs)))))) (by
    split
    · exact .next (.missed (.upd (.fresh hs)))
    · rename_i e1
      exact .next (.shared (.queueTx (.keepSent (.of_some e1 (.ite (admitFlits (.upd (.fresh hs))) .none))))))
theorem execGatherRequest {p : Nat} {m : FabricMsg} {upset : Bool} {s : State} (hs : s.InForm) : OutInForm (execGatherRequest p m upset s) := by
  unfold Machine.execGatherRequest
  dsimp only
  split
  · exact .next hs
  · exact .ite (.next (.fault hs)) (.ite (.next (.laterW (.beginRecovery hs))) (by
    split
    · exact .next (.shared (.laterW hs))
    · exact (by
      split
      · exact .next (.ctlTo hs)
      · rename_i e1
        exact .next (.shared (.queueTx (.keepSent (.of_some e1 (.ite (admitFlits (.fresh hs)) .none))))))))
theorem execGatherReply {p : Nat} {m : FabricMsg} {s : State} (hs : s.InForm) : OutInForm (execGatherReply p m s) := by
  unfold Machine.execGatherReply
  dsimp only
  split
  · exact .next hs
  · exact (by
    split
    · exact .next (.gatherDeliver (.ite (.upd (.dropSent hs)) (.ackMsg (.upd (.dropSent hs)))))
    · exact (by
      split
      · exact .next (.ite (.upd (.dropSent hs)) (.ackMsg (.upd (.dropSent hs))))
      · exact .next (.ite (.supply (.ite (.upd (.dropSent hs)) (.ackMsg (.upd (.dropSent hs))))) (.supply (.ite (.upd (.dropSent hs)) (.ackMsg (.upd
        (.dropSent hs))))))))
theorem execGatherRefused {id : Nat} {owner : Coord} {s : State} (hs : s.InForm) : OutInForm (execGatherRefused id owner s) := by
  unfold Machine.execGatherRefused
  split
  · exact .next hs
  · exact .next (.gatherLost (.dropSent hs))
theorem execContributionArrival {p : Nat} {m : FabricMsg} {check : Nat} {s : State} (hs : s.InForm) : OutInForm
  (execContributionArrival p m check s) := by
  unfold Machine.execContributionArrival
  dsimp only
  split
  · exact .next hs
  · exact (by
    split
    · exact .next (.fault hs)
    · exact .ite (.next (.askAgain hs)) (.ite (.next (.fault hs)) (.ite (.next (.fault hs)) (.ite (.next (.keepSlot hs)) (.ite (.next (.fault hs))
        (.ite (.next (.accumulate (.corrected (.bump hs)))) (.next (.accumulate hs))))))))
theorem execArmComplete {k coll : Nat} {s : State} (hs : s.InForm) : OutInForm (execArmComplete k coll s) :=
  .next (.modColl (.ite (.foldl (fun _ _ h1 => .zeroPanel h1) hs) (.ite (.hbmWrite hs) hs)))
theorem execReduceLate {k coll : Nat} {s : State} (hs : s.InForm) : OutInForm (execReduceLate k coll s) :=
  .ite (.next hs) (.ite (.next (.laterW hs)) (.next (.foldl (fun _ _ h1 => .eventStack (.draw h1)) hs)))
theorem execEmbeddingRowArrival {k coll row : Nat} {blocks : List Nat} {upset : Bool} {s : State} (hs : s.InForm) : OutInForm
  (execEmbeddingRowArrival k coll row blocks upset s) :=
  .ite (.next (.fault hs)) (.ite (.next (.fault hs)) (.next (.ite (.ite (.bump (.bump (.row hs))) (.eventStack (.bump (.bump (.row hs))))) (.fault
      (.ite (.bump (.bump (.row hs))) (.eventStack (.bump (.bump (.row hs)))))))))
theorem execUpstreamMessageAdd {p from_ : Nat} {m : FabricMsg} {upset : Bool} {s : State} (hs : s.InForm) : OutInForm
  (execUpstreamMessageAdd p from_ m upset s) := by
  unfold Machine.execUpstreamMessageAdd
  dsimp only
  split
  · exact .next hs
  · exact .next (.ite (.laterW hs) (.queueTx (.bump hs)))
  · exact .ite (.next (.queueTx (.bump hs))) (.ite (.next (.laterW hs)) (by
    split
    · exact .next hs
    · exact .ite (.next (.askAgain hs)) (by
      split
      · exact .next (.fault hs)
      · exact .ite (.next (.sendMsg (.modPort (.ite (.ackMsg (.bump hs)) (.eventCore (.ackMsg (.bump hs))))))) (.next (.grantNext (.modPort (.ite
          (.ackMsg (.bump hs)) (.eventCore (.ackMsg (.bump hs))))))))))
theorem execMulticastFlit {p : Nat} {m : FabricMsg} {i : Nat} {s : State} (hs : s.InForm) : OutInForm (execMulticastFlit p m i s) := by
  unfold Machine.execMulticastFlit
  dsimp only
  exact .ite (.next (.catchupArrive hs)) (by
    split
    · exact .next (.ite hs (.openMcast hs))
    · exact .next (.foldl (fun _ _ h1 => (by
      split
      · exact .branchFlit h1
      · exact h1)) (.ite hs (.openMcast hs))))
theorem execCatchup {id : Nat} {branch : Coord} {line gap : Nat} {s : State} (hs : s.InForm) : OutInForm (execCatchup id branch line gap s) := by
  unfold Machine.execCatchup
  dsimp only
  split
  · exact .next hs
  · exact (by
    split
    · exact .next (.laterW hs)
    · exact (by
      split
      · exact .next hs
      · rename_i e1
        exact .next (.shared (.queueTx (.of_some e1 (.ite (admitFlits hs) .none))))))
theorem execMcastDone {p : Nat} {src : Coord} {id : Nat} {s : State} (hs : s.InForm) : OutInForm (execMcastDone p src id s) :=
  .next (.tryDone (.modBranch hs))
theorem execMcastComplete {p : Nat} {src : Coord} {id : Nat} {s : State} (hs : s.InForm) : OutInForm (execMcastComplete p src id s) := by
  unfold Machine.execMcastComplete
  split
  · exact .next hs
  · exact .next (.ite (.finishMcast hs) hs)
theorem execMcastLaggard {id : Nat} {member : Coord} {missing : Nat} {s : State} (hs : s.InForm) : OutInForm
  (execMcastLaggard id member missing s) := by
  unfold Machine.execMcastLaggard
  dsimp only
  split
  · exact .next hs
  · exact .next (.ite (.ite (.bump (.upd hs)) (.upd hs)) (.raise (.upd hs)))
theorem execMulticastDeadline {src : Coord} {id : Nat} {s : State} (hs : s.InForm) : OutInForm (execMulticastDeadline src id s) := by
  unfold Machine.execMulticastDeadline
  dsimp only
  split
  · exact .next hs
  · exact .ite (.next hs) (.next (.ite (.ite (.ctlTo (.modMcast (.foldl (fun _ _ h1 => .ite h1 (.modPort h1)) hs))) (.modMcast (.foldl
    (fun _ _ h2 => .ite h2 (.modPort h2)) hs))) (by
    split
    · exact .ite (.ite (.ctlTo (.modMcast (.foldl (fun _ _ h3 => .ite h3 (.modPort h3)) hs))) (.modMcast (.foldl (fun _ _ h4 => .ite h4
        (.modPort h4)) hs))) (.missed (.ite (.ctlTo (.modMcast (.foldl (fun _ _ h5 => .ite h5 (.modPort h5)) hs))) (.modMcast (.foldl
        (fun _ _ h6 => .ite h6 (.modPort h6)) hs))))
    · exact .ite (.ctlTo (.modMcast (.foldl (fun _ _ h7 => .ite h7 (.modPort h7)) hs))) (.modMcast (.foldl (fun _ _ h8 => .ite h8
        (.modPort h8)) hs)))))
theorem execIdent {p : Nat} {r : IdentRec} {s : State} (hs : s.InForm) : OutInForm (execIdent p r s) :=
  .next (.ite (.laterW (.checkPeer (.modPort hs))) (.ite (.laterW (.modPort hs)) (.modPort hs)))
theorem execKeyxInit {p : Nat} {r : KeyxRec} {s : State} (hs : s.InForm) : OutInForm (execKeyxInit p r s) :=
  .ite (.next hs) (.ite (.next (.authFail hs)) (.next (.installRx (.sendCtl (.drawKey hs)))))
theorem execKeyxResp {p : Nat} {r : KeyxRec} {s : State} (hs : s.InForm) : OutInForm (execKeyxResp p r s) := by
  unfold Machine.execKeyxResp
  split
  · exact .next hs
  · exact .ite (.next hs) (.ite (.next (.authFail hs)) (.next (.installRx hs)))
theorem execKeyxDone {p n : Nat} {s : State} (hs : s.InForm) : OutInForm (execKeyxDone p n s) := by
  unfold Machine.execKeyxDone
  dsimp only
  split
  · exact .next hs
  · exact .ite (.next hs) (.next (.ite (.laterW (.setFld (.setFld (.modPort hs)))) (.setFld (.modPort hs))))
theorem execKeySetRollover {p : Nat} {s : State} (hs : s.InForm) : OutInForm (execKeySetRollover p s) :=
  .next (.ite (.beginKeys hs) hs)
theorem execTrainingStep {p : Nat} {r : TrainResult} {s : State} (hs : s.InForm) : OutInForm (execTrainingStep p r s) :=
  .ite (.next hs) (.ite (.ite (.next (.trainFail hs)) (.next (.setFld (.modPort hs)))) (.ite (.next (.ite (.modPort (.agreeVersion hs))
    (.agreeVersion hs))) (.ite (.next (.setFld (.modPort hs))) (.next (.layerUp hs)))))
theorem execLinkTrainFail {p lanes : Nat} {s : State} (hs : s.InForm) : OutInForm (execLinkTrainFail p lanes s) :=
  .next (.ite (.trainFail hs) hs)
theorem execLinkReset {p : Nat} {s : State} (hs : s.InForm) : OutInForm (execLinkReset p s) :=
  .next (.resetPort hs)
theorem execReady {p : Nat} {broadcast : Bool} {s : State} (hs : s.InForm) : OutInForm (execReady p broadcast s) :=
  .ite (.ite (.next hs) (.next (.foldl (fun _ _ h1 => .sendCtl h1) (.ite (.fabricReady hs) hs)))) (.next (.tryReady (.modPort hs)))
theorem execStartTimeout {s : State} (hs : s.InForm) : OutInForm (execStartTimeout s) :=
  .next (.ite hs (.eventDie hs))
theorem execStartPhase {s : State} (hs : s.InForm) : OutInForm (execStartPhase s) := by
  unfold Machine.execStartPhase
  dsimp only
  exact .ite (.next hs) (.ite (.next (.fabricReady (.ite hs (.loadBeat hs)))) (.ite (.ite (.ite (.next hs) (.ite (.next (.eventDie (.setPh hs)))
    (.next (.ite (.laterW (.foldl (fun _ _ h1 => .laterW (.sendCtl h1)) (.takePlace (.setPh hs)))) (.foldl (fun _ _ h2 => .laterW (.sendCtl h2))
    (.takePlace (.setPh hs))))))) (.next (.foldl (fun _ _ h3 => .ite (.trainFrom h3) h3) (.upd hs)))) (.ite (.ite (.next hs) (.next (.laterW (.foldl
    (fun _ _ h4 => (by
    split
    · exact .checkPeer h4
    · exact h4)) (.showMapHash (.setPh hs)))))) (.ite (.ite (.next hs) (.next (.laterW (.ite (.laterW (.takeHeldAlign (.upd (.setPh hs))))
        (.takeHeldAlign (.upd (.setPh hs))))))) (.ite (.ite (.next hs) (.next (.tryReady (.setPh hs)))) (.next (.tryReady hs)))))))
theorem execRetryLands {id : Nat} {ok : Bool} {s : State} (hs : s.InForm) : OutInForm (execRetryLands id ok s) := by
  unfold Machine.execRetryLands
  split
  · exact .next hs
  · exact .ite (.next hs) (.ite (.next (.recovered hs)) (.next (.lookup (.countCheck hs))))
theorem execCopyReadLands {id : Nat} {ok : Bool} {s : State} (hs : s.InForm) : OutInForm (execCopyReadLands id ok s) := by
  unfold Machine.execCopyReadLands
  dsimp only
  split
  · exact .next hs
  · exact .ite (.next hs) (.ite (.next (.lost hs)) (.ite (.next (.supply hs)) (.next (.supply hs))))
theorem execRecomputeDone {id : Nat} {ok : Bool} {s : State} (hs : s.InForm) : OutInForm (execRecomputeDone id ok s) := by
  unfold Machine.execRecomputeDone
  split
  · exact .next hs
  · exact .ite (.next hs) (by
    split
    · exact .next (.lost hs)
    · exact .ite (.next (.lost hs)) (by
      split
      · exact .next (.lost hs)
      · rename_i e1
        exact .next (.recovered (.of_some e1 (repairPanel hs)))))
theorem execVerifyReadLands {st line : Nat} {ok : Bool} {s : State} (hs : s.InForm) : OutInForm (execVerifyReadLands st line ok s) :=
  .ite (.next hs) (.next (.askRemap (.captureErr (.countCheck (.draw hs)))))
theorem execRemapUpdate {st line : Nat} {s : State} (hs : s.InForm) : OutInForm (execRemapUpdate st line s) := by
  unfold Machine.execRemapUpdate
  dsimp only
  exact .ite (.next (.upd (.beginRecovery hs))) (by
    split
    · exact .next (.eventStack (.maintEnd hs))
    · rename_i e1
      exact .next (.eventStack (.of_some e1 (remapLine (.maintEnd hs)))))
theorem execPatrolLineRead {st : Nat} {bad : Bool} {s : State} (hs : s.InForm) : OutInForm (execPatrolLineRead st bad s) :=
  .ite (.next hs) (.ite (.next (.setFld (.ite (.beginRecovery hs) hs))) (.next (.laterW (.bump (.setFld (.ite (.beginRecovery hs) hs))))))
theorem execPatrolSweepStart {st : Nat} {s : State} (hs : s.InForm) : OutInForm (execPatrolSweepStart st s) :=
  .next (.ite (.setFld hs) hs)
theorem execMemRecalDue {st : Nat} {s : State} (hs : s.InForm) : OutInForm (execMemRecalDue st s) :=
  .next (.eventStack (.setFld hs))
theorem execMaintenanceRequest {h act scope line : Nat} {s : State} (hs : s.InForm) : OutInForm (execMaintenanceRequest h act scope line s) := by
  unfold Machine.execMaintenanceRequest
  dsimp only
  exact .ite (.next hs) (.ite (.next (.maintRefuse hs)) (by
    split
    · exact .next (.maintRefuse hs)
    · exact .next (.ite (.laterW (.maintGrant hs)) (.ite (.laterW (.maintGrant hs)) (.maintGrant hs)))))
theorem execRecalibrationDone {st : Nat} {s : State} (hs : s.InForm) : OutInForm (execRecalibrationDone st s) :=
  .next (.maintEnd hs)
theorem execMemoryFillDone {s : State} (hs : s.InForm) : OutInForm (execMemoryFillDone s) :=
  .ite (.next hs) (.next (.laterW (.setPh (.foldl (fun _ _ h1 => .setFld h1) (.updMem hs (fun _ => rfl) (fun _ => rfl) (fun _ => rfl) mbuf)))))
theorem execRekeyGranuleLock {st : Nat} {s : State} (hs : s.InForm) : OutInForm (execRekeyGranuleLock st s) := by
  unfold Machine.execRekeyGranuleLock
  dsimp only
  split
  · exact .next hs
  · exact .ite (.next hs) (.ite (.next (.laterW hs)) (.next (.modPart hs)))
theorem execGranuleMigrated {st : Nat} {s : State} (hs : s.InForm) : OutInForm (execGranuleMigrated st s) := by
  unfold Machine.execGranuleMigrated
  dsimp only
  split
  · exact .next hs
  · exact (by
    split
    · exact .next hs
    · exact .next (.ite (.endSweep (.setFld (.upd (.modPart hs)))) (.laterW (.setFld (.upd (.modPart hs))))))
theorem execClearingStep {k : Nat} {bad : List Nat} {s : State} (hs : s.InForm) : OutInForm (execClearingStep k bad s) := by
  unfold Machine.execClearingStep
  dsimp only
  exact .ite (.next hs) (.ite (.next (.modPart hs)) (.ite (.next (.modPart (.clearKeys hs))) (.ite (.next (.modPart (.clearMemory hs))) (.ite (.next
    (.modPart (.setPstate (.clearRegs hs)))) (by
    split
    · exact .next (.modPart (.verifyPass hs))
    · exact .next (.showPstat (.finishTickets (.maintEnd (.setPstate (.modPart (.eventStack (.verifyPass hs))))))))))))
theorem execClearDone {k : Nat} {s : State} (hs : s.InForm) : OutInForm (execClearDone k s) :=
  .ite (.next hs) (.next (.finishTickets (.msix (.foldl (fun _ _ h1 => .ite (.laterW h1) h1) (.showPstat (.eventCore (.maintEnd (.setPstate
    (.modPart hs)))))))))
theorem execPstatToggle {k : Nat} {s : State} (hs : s.InForm) : OutInForm (execPstatToggle k s) :=
  .ite (.next hs) (.next (.laterW (.showPstat (.modPart hs))))
theorem execLoadComplete {k : Nat} {sigOk : Bool} {s : State} (hs : s.InForm) : OutInForm (execLoadComplete k sigOk s) := by
  unfold Machine.execLoadComplete
  dsimp only
  split
  · exact .next hs
  · exact (by
    split
    · exact .next (.mbFinish (.foldl (fun _ _ h1 => .setFld h1) (.modPart hs)))
    · exact .next (.mbFinish (.modPart (.setPstate (.applyImage (.modPart hs))))))
theorem execExportDone {h : Nat} {s : State} (hs : s.InForm) : OutInForm (execExportDone h s) := by
  unfold Machine.execExportDone
  dsimp only
  split
  · exact .next hs
  · exact .ite (.next hs) (.ite (.next (.mbFinish (.modHost hs))) (.ite (.next (.beginRecovery (.modHost hs))) (.next (.mbFinish (.modPart (.out
    (.out (.modHost hs))))))))
theorem execDumpCaptureDone {k : Nat} {s : State} (hs : s.InForm) : OutInForm (execDumpCaptureDone k s) :=
  .ite (.next hs) (.next (.foldl (fun _ _ h1 => .mbAnswer h1) (.ite (.resetPart (.modPart hs)) (.modPart hs))))
theorem execDumpWritten {k : Nat} {ok : Bool} {s : State} (hs : s.InForm) : OutInForm (execDumpWritten k ok s) :=
  .ite (.next hs) (.ite (.next (.raise (.modPart (.ite (.foldl (fun _ _ h1 => .modHost h1) (.upd hs)) (.upd hs))))) (.next (.clearOrWait (.raise
    (.modPart (.ite (.foldl (fun _ _ h2 => .modHost h2) (.upd hs)) (.upd hs)))))))
theorem execSquall {mv : Nat} {s : State} (hs : s.InForm) : OutInForm (execSquall mv s) :=
  .ite (.next (.supplySeen hs)) (.ite (.next (.upd (.ite (.setRatios (.supplySeen hs)) (.supplySeen hs)))) (.next (.eventDie (.bump (.setFld (.upd
    (.upd (.ite (.setRatios (.supplySeen hs)) (.supplySeen hs)))))))))
theorem execSquallEnd {mv : Nat} {s : State} (hs : s.InForm) : OutInForm (execSquallEnd mv s) :=
  .ite (.next (.supplySeen hs)) (.ite (.next (.endSquall (.supplySeen hs))) (.next (.upd (.supplySeen hs))))
theorem execSwallowRatioStep {thermal : Bool} {s : State} (hs : s.InForm) : OutInForm (execSwallowRatioStep thermal s) :=
  .ite (.ite (.next hs) (.ite (.next (.ite (.eventDie (.upd (.setRatios hs))) (.upd (.setRatios hs)))) (.ite (.next (.ite (.eventDie (.upd
    (.setRatios hs))) (.upd (.setRatios hs)))) (.next hs)))) (.ite (.next hs) (.next (.ite (.endSquall (.upd (.setRatios hs))) (.upd
    (.setRatios hs)))))
theorem execSupplyLow {mv : Nat} {s : State} (hs : s.InForm) : OutInForm (execSupplyLow mv s) :=
  .ite (.next (.eventDie (.upd (.supplySeen hs)))) (.next (.supplySeen hs))
theorem execSupplyHigh {mv : Nat} {s : State} (hs : s.InForm) : OutInForm (execSupplyHigh mv s) :=
  .ite (.next (.eventDie (.upd (.supplySeen hs)))) (.next (.supplySeen hs))
theorem execBrownout {mv : Nat} {s : State} (hs : s.InForm) : OutInForm (execBrownout mv s) :=
  .next (.coldHold (.supplySeen hs))
theorem execOvervoltage {mv : Nat} {s : State} (hs : s.InForm) : OutInForm (execOvervoltage mv s) :=
  .next (.coldHold (.supplySeen hs))
theorem execThermtrip {tj : Nat} {s : State} (hs : s.InForm) : OutInForm (execThermtrip tj s) :=
  .next (.coldHold (.out (.upd hs)))
theorem execPwrgd {high : Bool} {s : State} (hs : s.InForm) : OutInForm (execPwrgd high s) :=
  .ite (.next (.upd hs)) (.ite (.ite (.next (.powerOn (.ite hs (.out hs)))) (.next hs)) (.next (.powerOn hs)))
theorem execResetN {s : State} (hs : s.InForm) : OutInForm (execResetN s) :=
  .ite (.next (.upd hs)) (.ite (.next (.upd hs)) (.next (.warmState hs)))
theorem execPerstN {h : Nat} {s : State} (hs : s.InForm) : OutInForm (execPerstN h s) :=
  .next (.flr hs)
theorem execFunctionLevelReset {h : Nat} {s : State} (hs : s.InForm) : OutInForm (execFunctionLevelReset h s) :=
  .next (.flr hs)
theorem execZenithWatchdog {s : State} (hs : s.InForm) : OutInForm (execZenithWatchdog s) :=
  .next (.zenReset hs)
theorem execZenithError {s : State} (hs : s.InForm) : OutInForm (execZenithError s) :=
  .ite (.next (.toOvercast hs)) (.next (.upd (.setFld (.setFld (.zenReset hs)))))
theorem execSelfTest {r : SelfTestResult} {s : State} (hs : s.InForm) : OutInForm (execSelfTest r s) :=
  .ite (.next hs) (.ite (.next (.finishTickets (.toOvercast (.ite (.setLayout (.ite (.setReg (.ite (.eventDie (.ite (.zenBooted (.upd (.setFld
    (.setFld (.setFld (.setFld hs)))))) (.upd (.setFld (.setFld (.setFld (.setFld hs))))))) (.ite (.zenBooted (.upd (.setFld (.setFld (.setFld
    (.setFld hs)))))) (.upd (.setFld (.setFld (.setFld (.setFld hs)))))))) (.setReg (.ite (.eventDie (.ite (.zenBooted (.upd (.setFld (.setFld
    (.setFld (.setFld hs)))))) (.upd (.setFld (.setFld (.setFld (.setFld hs))))))) (.ite (.zenBooted (.upd (.setFld (.setFld (.setFld
    (.setFld hs)))))) (.upd (.setFld (.setFld (.setFld (.setFld hs)))))))))) (.ite (.setReg (.ite (.eventDie (.ite (.zenBooted (.upd (.setFld
    (.setFld (.setFld (.setFld hs)))))) (.upd (.setFld (.setFld (.setFld (.setFld hs))))))) (.ite (.zenBooted (.upd (.setFld (.setFld (.setFld
    (.setFld hs)))))) (.upd (.setFld (.setFld (.setFld (.setFld hs)))))))) (.setReg (.ite (.eventDie (.ite (.zenBooted (.upd (.setFld (.setFld
    (.setFld (.setFld hs)))))) (.upd (.setFld (.setFld (.setFld (.setFld hs))))))) (.ite (.zenBooted (.upd (.setFld (.setFld (.setFld
    (.setFld hs)))))) (.upd (.setFld (.setFld (.setFld (.setFld hs))))))))))))) (.next (.ite (.laterW (.finishTickets (.dueClearing (.reportLost
    (.setPwr (.setPh (.reinstate (.ite (.commitAo (.ite (.setLayout (.ite (.setReg (.ite (.eventDie (.ite (.zenBooted (.upd (.setFld (.setFld
    (.setFld (.setFld hs)))))) (.upd (.setFld (.setFld (.setFld (.setFld hs))))))) (.ite (.zenBooted (.upd (.setFld (.setFld (.setFld
    (.setFld hs)))))) (.upd (.setFld (.setFld (.setFld (.setFld hs)))))))) (.setReg (.ite (.eventDie (.ite (.zenBooted (.upd (.setFld (.setFld
    (.setFld (.setFld hs)))))) (.upd (.setFld (.setFld (.setFld (.setFld hs))))))) (.ite (.zenBooted (.upd (.setFld (.setFld (.setFld
    (.setFld hs)))))) (.upd (.setFld (.setFld (.setFld (.setFld hs)))))))))) (.ite (.setReg (.ite (.eventDie (.ite (.zenBooted (.upd (.setFld
    (.setFld (.setFld (.setFld hs)))))) (.upd (.setFld (.setFld (.setFld (.setFld hs))))))) (.ite (.zenBooted (.upd (.setFld (.setFld (.setFld
    (.setFld hs)))))) (.upd (.setFld (.setFld (.setFld (.setFld hs)))))))) (.setReg (.ite (.eventDie (.ite (.zenBooted (.upd (.setFld (.setFld
    (.setFld (.setFld hs)))))) (.upd (.setFld (.setFld (.setFld (.setFld hs))))))) (.ite (.zenBooted (.upd (.setFld (.setFld (.setFld
    (.setFld hs)))))) (.upd (.setFld (.setFld (.setFld (.setFld hs))))))))))) (.ite (.setLayout (.ite (.setReg (.ite (.eventDie (.ite (.zenBooted
    (.upd (.setFld (.setFld (.setFld (.setFld hs)))))) (.upd (.setFld (.setFld (.setFld (.setFld hs))))))) (.ite (.zenBooted (.upd (.setFld (.setFld
    (.setFld (.setFld hs)))))) (.upd (.setFld (.setFld (.setFld (.setFld hs)))))))) (.setReg (.ite (.eventDie (.ite (.zenBooted (.upd (.setFld
    (.setFld (.setFld (.setFld hs)))))) (.upd (.setFld (.setFld (.setFld (.setFld hs))))))) (.ite (.zenBooted (.upd (.setFld (.setFld (.setFld
    (.setFld hs)))))) (.upd (.setFld (.setFld (.setFld (.setFld hs)))))))))) (.ite (.setReg (.ite (.eventDie (.ite (.zenBooted (.upd (.setFld
    (.setFld (.setFld (.setFld hs)))))) (.upd (.setFld (.setFld (.setFld (.setFld hs))))))) (.ite (.zenBooted (.upd (.setFld (.setFld (.setFld
    (.setFld hs)))))) (.upd (.setFld (.setFld (.setFld (.setFld hs)))))))) (.setReg (.ite (.eventDie (.ite (.zenBooted (.upd (.setFld (.setFld
    (.setFld (.setFld hs)))))) (.upd (.setFld (.setFld (.setFld (.setFld hs))))))) (.ite (.zenBooted (.upd (.setFld (.setFld (.setFld
    (.setFld hs)))))) (.upd (.setFld (.setFld (.setFld (.setFld hs)))))))))))))))))) (.laterW (.finishTickets (.dueClearing (.reportLost (.setPwr
    (.setPh (.reinstate (.ite (.commitAo (.ite (.setLayout (.ite (.setReg (.ite (.eventDie (.ite (.zenBooted (.upd (.setFld (.setFld (.setFld
    (.setFld hs)))))) (.upd (.setFld (.setFld (.setFld (.setFld hs))))))) (.ite (.zenBooted (.upd (.setFld (.setFld (.setFld (.setFld hs)))))) (.upd
    (.setFld (.setFld (.setFld (.setFld hs)))))))) (.setReg (.ite (.eventDie (.ite (.zenBooted (.upd (.setFld (.setFld (.setFld (.setFld hs))))))
    (.upd (.setFld (.setFld (.setFld (.setFld hs))))))) (.ite (.zenBooted (.upd (.setFld (.setFld (.setFld (.setFld hs)))))) (.upd (.setFld (.setFld
    (.setFld (.setFld hs)))))))))) (.ite (.setReg (.ite (.eventDie (.ite (.zenBooted (.upd (.setFld (.setFld (.setFld (.setFld hs)))))) (.upd
    (.setFld (.setFld (.setFld (.setFld hs))))))) (.ite (.zenBooted (.upd (.setFld (.setFld (.setFld (.setFld hs)))))) (.upd (.setFld (.setFld
    (.setFld (.setFld hs)))))))) (.setReg (.ite (.eventDie (.ite (.zenBooted (.upd (.setFld (.setFld (.setFld (.setFld hs)))))) (.upd (.setFld
    (.setFld (.setFld (.setFld hs))))))) (.ite (.zenBooted (.upd (.setFld (.setFld (.setFld (.setFld hs)))))) (.upd (.setFld (.setFld (.setFld
    (.setFld hs))))))))))) (.ite (.setLayout (.ite (.setReg (.ite (.eventDie (.ite (.zenBooted (.upd (.setFld (.setFld (.setFld (.setFld hs))))))
    (.upd (.setFld (.setFld (.setFld (.setFld hs))))))) (.ite (.zenBooted (.upd (.setFld (.setFld (.setFld (.setFld hs)))))) (.upd (.setFld (.setFld
    (.setFld (.setFld hs)))))))) (.setReg (.ite (.eventDie (.ite (.zenBooted (.upd (.setFld (.setFld (.setFld (.setFld hs)))))) (.upd (.setFld
    (.setFld (.setFld (.setFld hs))))))) (.ite (.zenBooted (.upd (.setFld (.setFld (.setFld (.setFld hs)))))) (.upd (.setFld (.setFld (.setFld
    (.setFld hs)))))))))) (.ite (.setReg (.ite (.eventDie (.ite (.zenBooted (.upd (.setFld (.setFld (.setFld (.setFld hs)))))) (.upd (.setFld
    (.setFld (.setFld (.setFld hs))))))) (.ite (.zenBooted (.upd (.setFld (.setFld (.setFld (.setFld hs)))))) (.upd (.setFld (.setFld (.setFld
    (.setFld hs)))))))) (.setReg (.ite (.eventDie (.ite (.zenBooted (.upd (.setFld (.setFld (.setFld (.setFld hs)))))) (.upd (.setFld (.setFld
    (.setFld (.setFld hs))))))) (.ite (.zenBooted (.upd (.setFld (.setFld (.setFld (.setFld hs)))))) (.upd (.setFld (.setFld (.setFld
    (.setFld hs)))))))))))))))))))))
theorem execIdeInsecure {h : Nat} {s : State} (hs : s.InForm) : OutInForm (execIdeInsecure h s) :=
  .next (.ideLost hs)
theorem execRoleTimeout {i : Nat} {s : State} (hs : s.InForm) : OutInForm (execRoleTimeout i s) :=
  .ite (.next hs) (.next (.ite (.setRole hs) (.laterW hs)))
theorem execRingProducerRead {k prod : Nat} {entries : List (List Nat)} {s : State} (hs : s.InForm) : OutInForm
  (execRingProducerRead k prod entries s) := by
  unfold Machine.execRingProducerRead
  dsimp only
  exact .ite (.next (.modPart hs)) (by
    split
    · exact .next (.beginRecovery (.modPart hs))
    · exact .next (.modPart hs))
theorem execRingSample {k : Nat} {s : State} (hs : s.InForm) : OutInForm (execRingSample k s) := by
  unfold Machine.execRingSample
  dsimp only
  exact .ite (.next hs) (by
    split
    · exact .next (.modPart (.setFld (.foldl (fun _ _ h1 => .laterW h1) hs)))
    · exact .next (.recordOf (.setFld (.modPart (.setFld (.foldl (fun _ _ h2 => .laterW h2) hs))))))
theorem execNop {k : Nat} {e : RingEntry} {s : State} (hs : s.InForm) : OutInForm (execNop k e s) :=
  .next (.joinQueue hs)
theorem execStepRun {k : Nat} {e : RingEntry} {s : State} (hs : s.InForm) : OutInForm (execStepRun k e s) :=
  .next (.joinQueue hs)
theorem execStepStop {k : Nat} {e : RingEntry} {s : State} (hs : s.InForm) : OutInForm (execStepStop k e s) :=
  .next (.serveQueue (.putRecord (.setQueue hs)))
theorem execMark {k : Nat} {e : RingEntry} {s : State} (hs : s.InForm) : OutInForm (execMark k e s) :=
  .next (.joinQueue hs)
theorem execQueuedStepStart {k : Nat} {s : State} (hs : s.InForm) : OutInForm (execQueuedStepStart k s) :=
  .ite (.next hs) (.next (.foldl (fun _ _ h1 => .foldl (fun _ _ h2 => .laterW (.modCtx h2)) h1) (.modPart hs)))
theorem execStatus {i : Nat} {s : State} (hs : s.InForm) : OutInForm (execStatus i s) :=
  mailbox hs (fun _ h1 => .mbReply h1)
theorem execAbiOpen {i version : Nat} {s : State} (hs : s.InForm) : OutInForm (execAbiOpen i version s) :=
  mailbox hs (fun _ h1 => .ite (.mbAnswer h1) (.ite (.mbAnswer (.setFld h1)) (.mbAnswer h1)))
theorem execLogin {i role : Nat} {key : List Nat} {sigOk : Bool} {s : State} (hs : s.InForm) : OutInForm (execLogin i role key sigOk s) :=
  mailbox hs (fun _ h1 => .ite (.mbAnswer (.laterW (.setRole (.newNonce h1)))) (.mbAnswer (.newNonce h1)))
theorem execLogout {i : Nat} {s : State} (hs : s.InForm) : OutInForm (execLogout i s) :=
  mailbox hs (fun _ h1 => .mbAnswer (.setRole h1))
theorem execTakeOwnership {i : Nat} {key : List Nat} {s : State} (hs : s.InForm) : OutInForm (execTakeOwnership i key s) :=
  mailbox hs (fun _ h1 => .ite (.mbAnswer h1) (.ite (.mbAnswer h1) (.mbAnswer (.upd h1))))
theorem execRoleKeySet {i role slot : Nat} {key : List Nat} {s : State} (hs : s.InForm) : OutInForm (execRoleKeySet i role slot key s) :=
  mailbox hs (fun _ h1 => .ite (.mbAnswer (.upd h1)) (.ite (.mbAnswer (.upd h1)) (.mbAnswer h1)))
theorem execLoad {i part addr len : Nat} {bases : List Nat} {ptable : Nat} {s : State} (hs : s.InForm) : OutInForm
  (execLoad i part addr len bases ptable s) := by
  unfold Machine.execLoad
  dsimp only
  exact mailbox hs (fun _ h1 => .onPart h1 (fun _ h2 => .ite (.mbAnswer h2) (.ite (.mbAnswer h2) (.ite (.mbAnswer h2) (by
    split
    · rename_i e3
      exact .of_fst e3 (.mbAccept h2)
    · rename_i e4
      exact .foldl (fun _ _ h5 => .setFld h5) (.modPart (.of_fst e4 (.mbAccept h2))))))))
theorem execUnload {i part : Nat} {s : State} (hs : s.InForm) : OutInForm (execUnload i part s) :=
  mailbox hs (fun _ h1 => .onPart h1 (fun _ h2 => .ite (.mbAnswer h2) (.ite (.modPart h2) (.ite (.mbAnswer h2) (.ite (.mbAnswer (.unloadPlain h2)) (by
    split
    · exact .mbResult (.maintRefuse h2)
    · exact .mbAnswer (.beginClearing (.cancelQueue h2))))))))
theorem execRecoveryTable {i core addr entries : Nat} {s : State} (hs : s.InForm) : OutInForm (execRecoveryTable i core addr entries s) :=
  mailbox hs (fun _ h1 => .onPart h1 (fun _ h2 => .ite (.mbAnswer h2) (.ite (.mbAnswer h2) (.ite (.mbAnswer h2) (.mbAnswer (.hbmWrite h2))))))
theorem execSignerSet {i part : Nat} {keys : List (List Nat)} {s : State} (hs : s.InForm) : OutInForm (execSignerSet i part keys s) :=
  mailbox hs (fun _ h1 => .onPart h1 (fun _ h2 => .ite (.mbAnswer h2) (.mbAnswer (.modPart h2))))
theorem execExport_ {i part addr len data rec_ : Nat} {s : State} (hs : s.InForm) : OutInForm (execExport_ i part addr len data rec_ s) := by
  unfold Machine.execExport_
  dsimp only
  exact mailbox hs (fun _ h1 => .onPart h1 (fun _ h2 => .ite (.mbAnswer h2) (.ite (.mbAnswer h2) (.ite (.mbAnswer h2) (.ite (.mbAnswer h2) (by
    split
    · rename_i e3
      exact .of_fst e3 (.mbAccept h2)
    · rename_i e4
      exact .modHost (.of_fst e4 (.mbAccept h2))))))))
theorem execClear {i part : Nat} {s : State} (hs : s.InForm) : OutInForm (execClear i part s) :=
  mailbox hs (fun _ h1 => .onPart h1 (fun _ h2 => (by
    split
    · exact .mbResult (.maintRefuse h2)
    · exact (by
      split
      · rename_i e3
        exact .of_fst e3 (.mbAccept h2)
      · rename_i e4
        exact .beginClearing (.of_fst e4 (.mbAccept h2))))))
theorem execRekey {i part : Nat} {s : State} (hs : s.InForm) : OutInForm (execRekey i part s) :=
  mailbox hs (fun _ h1 => .onPart h1 (fun _ h2 => .ite (.mbAnswer h2) (.ite (.mbAnswer h2) (by
    split
    · exact .mbResult (.maintRefuse h2)
    · exact (by
      split
      · rename_i e3
        exact .of_fst e3 (.mbAccept h2)
      · rename_i e4
        exact .beginSweep (.of_fst e4 (.mbAccept h2)))))))
theorem execPartitionReset {i part : Nat} {s : State} (hs : s.InForm) : OutInForm (execPartitionReset i part s) :=
  mailbox hs (fun _ h1 => .onPart h1 (fun _ h2 => .ite (.modPart (.resetPart h2)) (.mbAnswer (.resetPart h2))))
theorem execPartitionConfig {i shape : Nat} {parts : List PartCfg} {s : State} (hs : s.InForm) : OutInForm (execPartitionConfig i shape parts s) := by
  unfold Machine.execPartitionConfig
  dsimp only
  exact mailbox hs (fun _ h1 => .ite (.mbAnswer h1) (.ite (.mbAnswer h1) (by
    split
    · exact .mbResult h1
    · exact (by
      split
      · rename_i e2
        exact .of_fst e2 (.mbAccept h1)
      · rename_i e3
        exact .ite (.mbFinish (.foldl (fun _ _ h4 => .beginClearing h4) (.configure (.of_fst e3 (.mbAccept h1))))) (.foldl
          (fun _ _ h5 => .beginClearing h5) (.configure (.of_fst e3 (.mbAccept h1))))))))
theorem execPowerState {i target : Nat} {s : State} (hs : s.InForm) : OutInForm (execPowerState i target s) := by
  unfold Machine.execPowerState
  dsimp only
  exact mailbox hs (fun _ h1 => .ite (.mbAnswer h1) (.ite (.mbAnswer h1) (.ite (.mbAnswer h1) (.ite (.mbAnswer h1) (by
    split
    · exact .mbResult h1
    · exact (by
      split
      · rename_i e2
        exact .of_fst e2 (.mbAccept h1)
      · rename_i e3
        exact .upd (.pausePatrol (.of_fst e3 (.mbAccept h1)))))))))
theorem execFabricMap {i : Nat} {map : List Nat} {s : State} (hs : s.InForm) : OutInForm (execFabricMap i map s) := by
  unfold Machine.execFabricMap
  dsimp only
  exact mailbox hs (fun _ h1 => .ite (.mbAnswer h1) (by
    split
    · rename_i e2
      exact .of_fst e2 (.mbAccept h1)
    · rename_i e3
      exact .mbFinish (.foldl (fun _ _ h4 => .ite h4 (.ite (.laterW (.modPort h4)) (.modPort h4))) (.upd (.of_fst e3 (.mbAccept h1))))))
theorem execFwUpdate {i slot : Nat} {image : List Nat} {officer : Bool} {s : State} (hs : s.InForm) : OutInForm
  (execFwUpdate i slot image officer s) := by
  unfold Machine.execFwUpdate
  dsimp only
  exact mailbox hs (fun _ h1 => .ite (.mbAnswer h1) (.ite (.mbAnswer h1) (.ite (.mbAnswer h1) (by
    split
    · rename_i e2
      exact .of_fst e2 (.mbAccept h1)
    · rename_i e3
      exact .mbFinish (.ite (.upd (.of_fst e3 (.mbAccept h1))) (.upd (.of_fst e3 (.mbAccept h1))))))))
theorem execSvnCommit {i svn : Nat} {s : State} (hs : s.InForm) : OutInForm (execSvnCommit i svn s) :=
  mailbox hs (fun _ h1 => .ite (.mbAnswer h1) (.mbAnswer (.upd h1)))
theorem execZeroize {i : Nat} {officer : Bool} {s : State} (hs : s.InForm) : OutInForm (execZeroize i officer s) := by
  unfold Machine.execZeroize
  dsimp only
  exact mailbox hs (fun _ h1 => .ite (.mbAnswer h1) (.ite (.mbAnswer h1) (by
    split
    · rename_i e2
      exact .of_fst e2 (.mbAccept h1)
    · rename_i e3
      exact .ite (.mbFinish (.newNonce (.zeroiseSecrets (.eventDie (.of_fst e3 (.mbAccept h1)))))) (.ite (.mbFinish (.upd (.foldl
        (fun _ _ h4 => .ite (.laterW h4) h4) (.foldl (fun _ _ h5 => .zeroPart h5) (.newNonce (.zeroiseSecrets (.eventDie (.of_fst e3
        (.mbAccept h1))))))))) (.upd (.foldl (fun _ _ h6 => .ite (.laterW h6) h6) (.foldl (fun _ _ h7 => .zeroPart h7) (.newNonce (.zeroiseSecrets
        (.eventDie (.of_fst e3 (.mbAccept h1))))))))))))
theorem execDebugUnlock {i : Nat} {key : List Nat} {sigOk : Bool} {s : State} (hs : s.InForm) : OutInForm (execDebugUnlock i key sigOk s) :=
  mailbox hs (fun _ h1 => .ite (.mbAnswer h1) (.ite (.mbAnswer h1) (.mbAnswer (.eventDie (.setFld (.upd h1))))))
theorem execZenithReset {i : Nat} {s : State} (hs : s.InForm) : OutInForm (execZenithReset i s) :=
  mailbox hs (fun _ h1 => (by
    split
    · rename_i e2
      exact .of_fst e2 (.mbAccept h1)
    · rename_i e3
      exact .zenReset (.of_fst e3 (.mbAccept h1))))
theorem execAoRecord {i : Nat} {s : State} (hs : s.InForm) : OutInForm (execAoRecord i s) :=
  mailbox hs (fun _ h1 => .mbReply h1)
theorem execRetest {i : Nat} {s : State} (hs : s.InForm) : OutInForm (execRetest i s) := by
  unfold Machine.execRetest
  dsimp only
  exact mailbox hs (fun _ h1 => .ite (.mbAnswer h1) (by
    split
    · rename_i e2
      exact .of_fst e2 (.mbAccept h1)
    · rename_i e3
      exact .setPwr (.upd (.of_fst e3 (.mbAccept h1)))))
theorem execMailboxDoneRead {i : Nat} {s : State} (hs : s.InForm) : OutInForm (execMailboxDoneRead i s) :=
  .next (.ite (.out (.upd hs)) (.out (.upd hs)))
theorem execPersistentSlotArm {h k slot : Nat} {v : Word} {s : State} (hs : s.InForm) : OutInForm (execPersistentSlotArm h k slot v s) :=
  .next (.writeReg hs)
theorem execPersistentBaseWrite {h k slot : Nat} {dst : Bool} {v : Word} {s : State} (hs : s.InForm) : OutInForm
  (execPersistentBaseWrite h k slot dst v s) :=
  .next (.writeReg hs)
theorem execFreezeWrite {h k : Nat} {v : Word} {s : State} (hs : s.InForm) : OutInForm (execFreezeWrite h k v s) :=
  .next (.writeReg hs)
theorem execScheduleParameterWrite {h k set off : Nat} {v : Word} {s : State} (hs : s.InForm) : OutInForm
  (execScheduleParameterWrite h k set off v s) :=
  .next (.writeReg hs)
theorem execLinkResetRequest {h p : Nat} {s : State} (hs : s.InForm) : OutInForm (execLinkResetRequest h p s) :=
  .next (.gated hs (fun _ h1 => .askLinkReset h1))
theorem execLinkEnable {h p : Nat} {v : Word} {s : State} (hs : s.InForm) : OutInForm (execLinkEnable h p v s) :=
  .next (.gated hs (fun _ h1 => .writeLinkEnable h1))
theorem execBar2BaseWrite {h : Nat} {v : Word} {s : State} (hs : s.InForm) : OutInForm (execBar2BaseWrite h v s) :=
  .next (.writeReg hs)
theorem execDumpRelease {h : Nat} {v : Word} {s : State} (hs : s.InForm) : OutInForm (execDumpRelease h v s) :=
  .next (.writeReg hs)
theorem execTraceEnable {h : Nat} {v : Word} {s : State} (hs : s.InForm) : OutInForm (execTraceEnable h v s) :=
  .next (.writeReg hs)
theorem execRegisterWrite {h off size : Nat} {v : Word} {s : State} (hs : s.InForm) : OutInForm (execRegisterWrite h off size v s) :=
  .next (.writeReg hs)
theorem execBar2Read {h off len : Nat} {upset : Bool} {s : State} (hs : s.InForm) : OutInForm (execBar2Read h off len upset s) := by
  unfold Machine.execBar2Read
  dsimp only
  exact .ite (.next hs) (.ite (.next (.out hs)) (by
    split
    · exact .next (.out (.bump hs))
    · exact .ite (.next (.laterW hs)) (.ite (.next (.beginRecovery hs)) (.next (.out hs)))
    · exact .next (.out hs)))
theorem execBar2Write {h off : Nat} {bytes : List Nat} {s : State} (hs : s.InForm) : OutInForm (execBar2Write h off bytes s) := by
  unfold Machine.execBar2Write
  dsimp only
  exact .ite (.next hs) (by
    split
    · exact .next (.bump hs)
    · exact .next (.bump hs)
    · exact .next (.bump hs)
    · exact .ite (.next (.bump hs)) (.ite (.next (.laterW hs)) (by
      split
      · exact .next (.beginRecovery hs)
      · exact .next (.ite (.bump (.hbmWrite hs)) (.hbmWrite hs)))))
theorem execTestWindowWrite {h st off : Nat} {bytes : List Nat} {s : State} (hs : s.InForm) : OutInForm (execTestWindowWrite h st off bytes s) :=
  .ite (.next hs) (by
    split
    · exact .next (.ite (.testWrite hs) hs)
    · rename_i e1
      exact .next (.of_ones e1 (partGate hs))
    · exact .next hs)
theorem execTestWindowRead {h st off : Nat} {upset : Bool} {s : State} (hs : s.InForm) : OutInForm (execTestWindowRead h st off upset s) := by
  unfold Machine.execTestWindowRead
  dsimp only
  exact .ite (.next hs) (.ite (.next (.out hs)) (by
    split
    · exact .ite (.next (.out hs)) (.next (.out (.testRead hs)))
    · rename_i e1
      exact .next (.out (.of_ones e1 (partGate hs)))
    · exact .next hs))
theorem execGetVersion {h : Nat} {s : State} (hs : s.InForm) : OutInForm (execGetVersion h s) :=
  spdm hs (fun _ h1 => .doe (.spdmAt h1))
theorem execGetCapabilities {h : Nat} {s : State} (hs : s.InForm) : OutInForm (execGetCapabilities h s) :=
  spdm hs (fun _ h1 => .doe (.spdmAt h1))
theorem execNegotiateAlgorithms {h : Nat} {offered : List Nat} {s : State} (hs : s.InForm) : OutInForm (execNegotiateAlgorithms h offered s) :=
  spdm hs (fun _ h1 => .ite (.doeError h1) (.doe (.spdmAt h1)))
theorem execGetDigests {h : Nat} {s : State} (hs : s.InForm) : OutInForm (execGetDigests h s) :=
  spdm hs (fun _ h1 => .doe h1)
theorem execGetCertificate {h slot off len : Nat} {s : State} (hs : s.InForm) : OutInForm (execGetCertificate h slot off len s) :=
  spdm hs (fun _ h1 => .ite (.doeError h1) (.doe h1))
theorem execChallenge {h : Nat} {nonce : List Nat} {s : State} (hs : s.InForm) : OutInForm (execChallenge h nonce s) :=
  spdm hs (fun _ h1 => .doe (.drawKey h1))
theorem execGetMeasurements {h index : Nat} {s : State} (hs : s.InForm) : OutInForm (execGetMeasurements h index s) := by
  unfold Machine.execGetMeasurements
  dsimp only
  exact spdm hs (fun _ h1 => (by
    split
    · exact .doeError h1
    · exact .doe h1))
theorem execKeyExchange {h : Nat} {ek : List Nat} {s : State} (hs : s.InForm) : OutInForm (execKeyExchange h ek s) :=
  spdm hs (fun _ h1 => .doe (.foldl (fun _ _ h2 => .modPart h2) (.modHost (.drawKey (.ideLost h1)))))
theorem execFinish {h : Nat} {s : State} (hs : s.InForm) : OutInForm (execFinish h s) :=
  spdm hs (fun _ h1 => .doe (.spdmAt h1))
theorem execKeyUpdate {h : Nat} {s : State} (hs : s.InForm) : OutInForm (execKeyUpdate h s) :=
  spdm hs (fun _ h1 => .doe (.modHost h1))
theorem execEndSession {h : Nat} {s : State} (hs : s.InForm) : OutInForm (execEndSession h s) :=
  spdm hs (fun _ h1 => .doe (.modHost h1))
theorem execIdeKm {h op : Nat} {s : State} (hs : s.InForm) : OutInForm (execIdeKm h op s) :=
  spdm hs (fun _ h1 => .ite (.doe h1) (.ite (.doe (.modHost (.drawKey h1))) (.ite (.doe (.modHost (.setFld h1))) (.ite (.doe (.ideLost h1))
    (.doeError h1)))))
theorem execIdcode {s : State} (hs : s.InForm) : OutInForm (execIdcode s) :=
  .next (.out (.tapIr hs))
theorem execBypass {s : State} (hs : s.InForm) : OutInForm (execBypass s) :=
  .next (.out (.tapIr hs))
theorem execSamplePreload {data : List Nat} {s : State} (hs : s.InForm) : OutInForm (execSamplePreload data s) :=
  .ite (.next (.out (.tapIr hs))) (.next (.out (.upd (.drawBytes (.tapIr hs)))))
theorem execExtest {data : List Nat} {s : State} (hs : s.InForm) : OutInForm (execExtest data s) :=
  .ite (.next (.out (.tapIr hs))) (.next (.out (.out (.upd (.drawBytes (.tapIr hs))))))
theorem execDbgAccess {write : Bool} {off size : Nat} {v : Word} {s : State} (hs : s.InForm) : OutInForm (execDbgAccess write off size v s) := by
  unfold Machine.execDbgAccess
  dsimp only
  exact .ite (.next (.out (.tapIr hs))) (.ite (.next (.writeReg (.tapIr hs))) (by
    split
    · rename_i e1
      exact .next (.out (.of_snd e1 (.readReg (.tapIr hs))))
    · rename_i e2
      exact .next (.of_snd e2 (.readReg (.tapIr hs)))))
theorem execSetEndpointId {eid : Nat} {s : State} (hs : s.InForm) : OutInForm (execSetEndpointId eid s) :=
  .ite (.next hs) (.ite (.next (.smbus hs)) (.next (.smbus (.upd hs))))
theorem execGetEndpointId {s : State} (hs : s.InForm) : OutInForm (execGetEndpointId s) :=
  .next (.smbus hs)
theorem execGetMctpVersionSupport {s : State} (hs : s.InForm) : OutInForm (execGetMctpVersionSupport s) :=
  .next (.smbus hs)
theorem execGetMessageTypeSupport {s : State} (hs : s.InForm) : OutInForm (execGetMessageTypeSupport s) :=
  .next (.smbus hs)
theorem execGetVendorDefinedMessageSupport {s : State} (hs : s.InForm) : OutInForm (execGetVendorDefinedMessageSupport s) :=
  .next (.smbus hs)
theorem execPldmBase {code : Nat} {s : State} (hs : s.InForm) : OutInForm (execPldmBase code s) :=
  .next (.smbus hs)
theorem execPldmSensorRead {id : Nat} {s : State} (hs : s.InForm) : OutInForm (execPldmSensorRead id s) :=
  .next (by
    split
    · exact .smbus hs
    · exact .smbus hs)
theorem execPldmFirmwareUpdate {image : List Nat} {s : State} (hs : s.InForm) : OutInForm (execPldmFirmwareUpdate image s) :=
  .ite (.next hs) (.ite (.next (.smbus hs)) (.next (.smbus (.upd hs))))
theorem execVendorDefinedMailbox {code : Nat} {arg : List Nat} {s : State} (hs : s.InForm) : OutInForm (execVendorDefinedMailbox code arg s) :=
  .ite (.next hs) (.next (.issue (.ite hs (.updMem hs hbm store lstore (fun h => Memory.wf_memWrite _ _ h.mbuf)))))
theorem execFlitBoundary {p : Nat} {s : State} (hs : s.InForm) : OutInForm (execFlitBoundary p s) := by
  unfold Machine.execFlitBoundary
  dsimp only
  exact .ite (.next hs) (.ite (.next (.emitFlit (.modPort hs))) (.ite (.next (.emitFlit (.modPort hs))) (.ite (.next (.ite (.emitFlit
    (.modPort hs)) hs)) (by
    split
    · exact .next (.sendAgain hs)
    · exact .ite (.next (.sendNew (.modPort hs))) (by
      split
      · exact .next (.sendAgain hs)
      · exact (by
        split
        · exact .next (.sendNew (.modPort hs))
        · exact .next (.ite (.emitFlit (.modPort hs)) hs)))))))
theorem execLocalBranchWrite {src : Coord} {id i : Nat} {s : State} (hs : s.InForm) : OutInForm (execLocalBranchWrite src id i s) := by
  unfold Machine.execLocalBranchWrite
  dsimp only
  split
  · exact .next hs
  · exact (by
    split
    · exact (by
      split
      · exact .next hs
      · exact .ite (.next (.laterW hs)) (.next (.tryDone (.askCatchups (.ite (.modMcast (.modBranch (.placeFabric hs))) (.modBranch
        (.placeFabric hs)))))))
    · exact .next hs)
theorem execPowerStateEntered {s : State} (hs : s.InForm) : OutInForm (execPowerStateEntered s) := by
  unfold Machine.execPowerStateEntered
  dsimp only
  split
  · exact .next hs
  · exact .ite (.next (.setPwr (.enterNight (.restSquall (.mbFinish (.upd hs)))))) (.ite (.next (.setPwr (.restSquall (.mbFinish (.upd hs))))) (.ite
    (.next (.setPwr (.ite (.setRatios (.upd (.pausePatrol (.mbFinish (.upd hs))))) (.pausePatrol (.mbFinish (.upd hs)))))) (.next (.laterW (.setPwr
    (.setFld (.setPh (.foldl (fun _ _ h1 => .ite (.trainFrom h1) h1) (.updMem (.setFld (.ite (.setRatios (.upd (.pausePatrol (.mbFinish
    (.upd hs))))) (.pausePatrol (.mbFinish (.upd hs))))) hbm (fun _ => rfl) (fun _ => rfl) mbuf)))))))))
theorem execZenithBootDone {ok : Bool} {s : State} (hs : s.InForm) : OutInForm (execZenithBootDone ok s) :=
  .ite (.next hs) (.ite (.next (.laterW hs)) (.next (.foldl (fun _ _ h1 => .mbFinish h1) (.foldl (fun _ _ h2 => .ite (.laterW h2) h2) (.dueClearing
    (.reportLost (.zenBooted hs)))))))
theorem execStartIdentFail {p : Nat} {s : State} (hs : s.InForm) : OutInForm (execStartIdentFail p s) :=
  .ite (.next hs) (.next (.laterW (.eventPort (.goDark hs))))
theorem execHostLinkTrained {h width rate : Nat} {s : State} (hs : s.InForm) : OutInForm (execHostLinkTrained h width rate s) :=
  .next (.ite (.eventDie (.setFld (.setFld hs))) (.setFld (.setFld hs)))
theorem execPowerManagementState {h : Nat} {d3 : Bool} {s : State} (hs : s.InForm) : OutInForm (execPowerManagementState h d3 s) :=
  .ite (.next (.modHost hs)) (.next (.foldl (fun _ _ h1 => .msix h1) (.foldl (fun _ _ h2 => .drainRecords h2) (.modHost hs))))
theorem exec {i : Instr} {s : State} (hs : s.InForm) : OutInForm (exec i s) := by
  unfold Machine.exec
  split
  · exact execStepStart hs
  · exact execEndStep hs
  · exact execFetch hs
  · exact execFeed hs
  · exact execInject hs
  · exact execStore hs
  · exact execHandoff hs
  · exact execGather hs
  · exact execReceive hs
  · exact execRelease hs
  · exact execProduct hs
  · exact execHalo hs
  · exact execVectorDescriptor hs
  · exact execUpdateDescriptor hs
  · exact execThinningDescriptor hs
  · exact execBadd hs
  · exact execRearm hs
  · exact execArm hs
  · exact execBarrierArrive hs
  · exact execBarrierDepart hs
  · exact execLoop hs
  · exact execStreamIssue hs
  · exact execReadLands hs
  · exact execStratusTransferDelivery hs
  · exact execTileQueueEntry hs
  · exact execRingHalfRelease hs
  · exact execHaloTransferArrival hs
  · exact execHaloAck hs
  · exact execTileResent hs
  · exact execPanelReinjected hs
  · exact execDwTileColumnAdded hs
  · exact execCompanionResent hs
  · exact execHandoffComplete hs
  · exact execSelectionBlockDone hs
  · exact execThinnedMessageRelease hs
  · exact execVectorDescriptorComplete hs
  · exact execSwallowedCycle hs
  · exact execHoldStart hs
  · exact execHoldEnd hs
  · exact execHoldStartReceived hs
  · exact execHoldEndReceived hs
  · exact execHoldTimeout hs
  · exact execBeatBoundary hs
  · exact execEpoch hs
  · exact execAlign hs
  · exact execRefLoss hs
  · exact execBarArrive hs
  · exact execBarDepart hs
  · exact execBarOpen hs
  · exact execEventTake hs
  · exact execCirBad hs
  · exact execFlitReceived hs
  · exact execNak hs
  · exact execRetryTimeout hs
  · exact execFabricMessageArrival hs
  · exact execDelivered hs
  · exact execDeadlineMiss hs
  · exact execResidueRetry hs
  · exact execGatherRequest hs
  · exact execGatherReply hs
  · exact execGatherRefused hs
  · exact execContributionArrival hs
  · exact execArmComplete hs
  · exact execReduceLate hs
  · exact execEmbeddingRowArrival hs
  · exact execUpstreamMessageAdd hs
  · exact execMulticastFlit hs
  · exact execCatchup hs
  · exact execMcastDone hs
  · exact execMcastComplete hs
  · exact execMcastLaggard hs
  · exact execMulticastDeadline hs
  · exact execIdent hs
  · exact execKeyxInit hs
  · exact execKeyxResp hs
  · exact execKeyxDone hs
  · exact execKeySetRollover hs
  · exact execTrainingStep hs
  · exact execLinkTrainFail hs
  · exact execLinkReset hs
  · exact execReady hs
  · exact execStartTimeout hs
  · exact execStartPhase hs
  · exact execRetryLands hs
  · exact execCopyReadLands hs
  · exact execRecomputeDone hs
  · exact execVerifyReadLands hs
  · exact execRemapUpdate hs
  · exact execPatrolLineRead hs
  · exact execPatrolSweepStart hs
  · exact execMemRecalDue hs
  · exact execMaintenanceRequest hs
  · exact execRecalibrationDone hs
  · exact execMemoryFillDone hs
  · exact execRekeyGranuleLock hs
  · exact execGranuleMigrated hs
  · exact execClearingStep hs
  · exact execClearDone hs
  · exact execPstatToggle hs
  · exact execLoadComplete hs
  · exact execExportDone hs
  · exact execDumpCaptureDone hs
  · exact execDumpWritten hs
  · exact execSquall hs
  · exact execSquallEnd hs
  · exact execSwallowRatioStep hs
  · exact execSupplyLow hs
  · exact execSupplyHigh hs
  · exact execBrownout hs
  · exact execOvervoltage hs
  · exact execThermtrip hs
  · exact execPwrgd hs
  · exact execResetN hs
  · exact execPerstN hs
  · exact execFunctionLevelReset hs
  · exact execZenithWatchdog hs
  · exact execZenithError hs
  · exact execSelfTest hs
  · exact execIdeInsecure hs
  · exact execRoleTimeout hs
  · exact execRingProducerRead hs
  · exact execRingSample hs
  · exact execNop hs
  · exact execStepRun hs
  · exact execStepStop hs
  · exact execMark hs
  · exact execQueuedStepStart hs
  · exact execStatus hs
  · exact execAbiOpen hs
  · exact execLogin hs
  · exact execLogout hs
  · exact execTakeOwnership hs
  · exact execRoleKeySet hs
  · exact execLoad hs
  · exact execUnload hs
  · exact execRecoveryTable hs
  · exact execSignerSet hs
  · exact execExport_ hs
  · exact execClear hs
  · exact execRekey hs
  · exact execPartitionReset hs
  · exact execPartitionConfig hs
  · exact execPowerState hs
  · exact execFabricMap hs
  · exact execFwUpdate hs
  · exact execSvnCommit hs
  · exact execZeroize hs
  · exact execDebugUnlock hs
  · exact execZenithReset hs
  · exact execAoRecord hs
  · exact execRetest hs
  · exact execMailboxDoneRead hs
  · exact execPersistentSlotArm hs
  · exact execPersistentBaseWrite hs
  · exact execFreezeWrite hs
  · exact execScheduleParameterWrite hs
  · exact execLinkResetRequest hs
  · exact execLinkEnable hs
  · exact execBar2BaseWrite hs
  · exact execDumpRelease hs
  · exact execTraceEnable hs
  · exact execRegisterWrite hs
  · exact execBar2Read hs
  · exact execBar2Write hs
  · exact execTestWindowWrite hs
  · exact execTestWindowRead hs
  · exact execGetVersion hs
  · exact execGetCapabilities hs
  · exact execNegotiateAlgorithms hs
  · exact execGetDigests hs
  · exact execGetCertificate hs
  · exact execChallenge hs
  · exact execGetMeasurements hs
  · exact execKeyExchange hs
  · exact execFinish hs
  · exact execKeyUpdate hs
  · exact execEndSession hs
  · exact execIdeKm hs
  · exact execIdcode hs
  · exact execBypass hs
  · exact execSamplePreload hs
  · exact execExtest hs
  · exact execDbgAccess hs
  · exact execSetEndpointId hs
  · exact execGetEndpointId hs
  · exact execGetMctpVersionSupport hs
  · exact execGetMessageTypeSupport hs
  · exact execGetVendorDefinedMessageSupport hs
  · exact execPldmBase hs
  · exact execPldmSensorRead hs
  · exact execPldmFirmwareUpdate hs
  · exact execVendorDefinedMailbox hs
  · exact execFlitBoundary hs
  · exact execLocalBranchWrite hs
  · exact execPowerStateEntered hs
  · exact execZenithBootDone hs
  · exact execStartIdentFail hs
  · exact execHostLinkTrained hs
  · exact execPowerManagementState hs
theorem idle {s : State} (hs : s.InForm) : (idle s).InForm := by
  unfold Machine.idle
  split
  · exact .runAct (.traceCirrus (.upd hs))
  · exact (by
    split
    · exact .beginClearing hs
    · exact .issueNext hs
    · exact .ite (.upd hs) (.passCycle (.askCatchups (.serveHeld hs))))

end State.InForm

/-- Settles O58: each operation keeps the form, so every command does, and so does the passing of time. -/
theorem canonicalKept : Obligations.CanonicalKept := by
  unfold Obligations.CanonicalKept
  intro s t hs ht
  have hform := (State.inForm_iff s).mpr hs
  have hkept : OutInForm (step s) := by
    unfold step
    split
    · exact .next hform.idle
    · exact State.InForm.exec hform.upd
  exact (State.inForm_iff t).mp (.of_next ht hkept)

end Sys2Proof.Machine
end

section
/-! PROOF. What a step runs, and the state after reset. -/
namespace Sys2Proof.Machine

/-- Settles O1: a step is a match on the queue. -/
theorem stepRunsFront : Obligations.StepRunsFront := by
  unfold Obligations.StepRunsFront
  refine ⟨fun s c rest => rfl, fun s hempty => ⟨idle s, ?_, rfl⟩⟩
  unfold step
  rw [hempty]

/-- Settles O59: the state after reset lists no byte and no register, and its queue is empty. -/
theorem resetCanonical : Obligations.ResetCanonical := by
  unfold Obligations.ResetCanonical
  exact ⟨(State.inForm_iff _).mp ⟨rfl, rfl, rfl, rfl, .nil, fun _ h => absurd h List.not_mem_nil⟩, rfl⟩

end Sys2Proof.Machine
end

section
/-! PROOF. Frames: from one state to another no byte of memory differs, and no register but those of P. A term of these lemmas follows the text of the
operation that it is about, from the outside in. -/
namespace Sys2Proof.Machine

/-- From s to t no byte of memory differs, and no register but those of P. -/
structure Leaves (P : Nat → Prop) (s t : State) : Prop where
  hbm : t.hbm = s.hbm
  store : t.store = s.store
  lstore : t.lstore = s.lstore
  mbuf : t.mbuf = s.mbuf
  reg : ∀ r, ¬ P r → t.reg r = s.reg r

namespace Leaves
variable {P Q : Nat → Prop} {s t u : State}

theorem refl : Leaves P s s := ⟨rfl, rfl, rfl, rfl, fun _ _ => rfl⟩

theorem trans (h : Leaves P s t) (g : Leaves P t u) : Leaves P s u :=
  ⟨g.hbm.trans h.hbm, g.store.trans h.store, g.lstore.trans h.lstore, g.mbuf.trans h.mbuf, fun r hr => (g.reg r hr).trans (h.reg r hr)⟩

theorem mono (h : Leaves P s t) (g : ∀ r, P r → Q r) : Leaves Q s t :=
  ⟨h.hbm, h.store, h.lstore, h.mbuf, fun r hr => h.reg r fun p => hr (g r p)⟩

/-- An operation that only reports, on registers of P. -/
theorem next (h : Leaves P s t) (g : Reports Q t u) (hq : ∀ r, Q r → P r) : Leaves P s u :=
  h.trans ⟨g.hbm, g.store, g.lstore, g.mbuf, fun r hr => g.reg r fun q => hr (hq r q)⟩

theorem sameMem (h : Leaves P s t) : SameMem s t := by
  refine ⟨fun a => ?_, fun a => ?_, fun a => ?_, fun a => ?_⟩
  · rw [h.hbm]
  · rw [h.store]
  · rw [h.lstore]
  · rw [h.mbuf]

theorem sameRegsBut {l : List Nat} (h : Leaves (· ∈ l) s t) : SameRegsBut l s t := h.reg

theorem fld (h : Leaves P s t) {k : Nat} (hk : ¬ P k) (hi lo : Nat) : t.fld k hi lo = s.fld k hi lo := by
  unfold State.fld
  rw [h.reg k hk]

/-- A change of what is neither memory nor register. -/
theorem upd {s t : State} {pending : List Instr} {badLine : SMap Nat} {cores : SMap Core} {arrays : SMap ArrayDyn} {parts : SMap Part} {bars :
    SMap BarDyn} {ports : SMap PortDyn} {hosts : SMap HostPort} {slots : List Slot} {transfers : List Transfer} {reads : List Read} {stra : List
    StraTransfer} {sent : List OutMsg} {gathers : List GatherWait} {mcasts : List Mcast} {recoveries : List Recovery} {supplied : List (Nat ×
    Nat)} {writtenBack : List SramPlace} {heldWrites : List (Nat × List Nat)} {maint : List Maint} {agenda : List Due} {evq : List EventRec}
    {evLost : Nat} {logs : SMap (List (List Nat))} {clk : Clk} {pwr : Pwr} {zen : Zen} {tap : Tap} {dumps : SMap DumpSlot} {trace : Trace}
    {pstat : SMap Nat} {eid : Nat} {outbox : List Output} {nextId : Nat} {free : Nat}
    (h : Leaves P s t) :
    Leaves P s (State.mk pending t.regs t.hbm t.store t.lstore t.mbuf badLine cores arrays parts bars ports hosts slots transfers reads stra sent gathers
      mcasts recoveries supplied writtenBack heldWrites maint agenda evq evLost logs clk pwr zen tap dumps trace pstat eid outbox nextId
      free) :=
  ⟨h.hbm, h.store, h.lstore, h.mbuf, h.reg⟩

theorem setReg {k : Nat} {v : Word} (h : Leaves P s t) (hk : P k) : Leaves P s (t.setReg k v) := h.next (.setReg t v rfl) fun _ e => e ▸ hk
theorem setFld {k hi lo v : Nat} (h : Leaves P s t) (hk : P k) : Leaves P s (t.setFld k hi lo v) := h.setReg hk
theorem bump {k n : Nat} (h : Leaves P s t) (hk : P k) : Leaves P s (t.bump k n) := h.setReg hk
theorem modCore {k : Nat} {f : Core → Core} (h : Leaves P s t) : Leaves P s (t.modCore k f) := h.upd
theorem modCtx {k c : Nat} {f : Ctx → Ctx} (h : Leaves P s t) : Leaves P s (t.modCtx k c f) := h.upd
theorem modArr {k : Nat} {f : ArrayDyn → ArrayDyn} (h : Leaves P s t) : Leaves P s (t.modArr k f) := h.upd
theorem modPart {k : Nat} {f : Part → Part} (h : Leaves P s t) : Leaves P s (t.modPart k f) := h.upd
theorem modPort {k : Nat} {f : PortDyn → PortDyn} (h : Leaves P s t) : Leaves P s (t.modPort k f) := h.upd
theorem modHost {k : Nat} {f : HostPort → HostPort} (h : Leaves P s t) : Leaves P s (t.modHost k f) := h.upd
theorem modBar {k : Nat} {f : BarDyn → BarDyn} (h : Leaves P s t) : Leaves P s (t.modBar k f) := h.upd
theorem out {o : Output} (h : Leaves P s t) : Leaves P s (t.out o) := h.upd
theorem after {dom : Option Nat} {d : Nat} {a : Act} (h : Leaves P s t) : Leaves P s (t.after dom d a) := h.upd
theorem afterLive {d : Nat} {a : Act} (h : Leaves P s t) : Leaves P s (t.afterLive d a) := h.upd
theorem later {j d : Nat} {i : Instr} (h : Leaves P s t) : Leaves P s (t.later j d i) := h.upd
theorem laterW {d : Nat} {i : Instr} (h : Leaves P s t) : Leaves P s (t.laterW d i) := h.upd

theorem draw {w : Nat} (h : Leaves P s t) : Leaves P s (t.draw w).2 := h.upd
theorem fresh (h : Leaves P s t) : Leaves P s t.fresh.2 := h.upd

theorem ite {c : Prop} [Decidable c] (ht : Leaves P s t) (hu : Leaves P s u) : Leaves P s (if c then t else u) := by split <;> assumption

theorem foldl {α : Type} {f : State → α → State} {l : List α} (hf : ∀ t, ∀ a ∈ l, Leaves P s t → Leaves P s (f t a)) :
    ∀ {t}, Leaves P s t → Leaves P s (l.foldl f t) := by
  induction l with
  | nil => exact id
  | cons a l ih => exact fun h => ih (fun t b hb => hf t b (List.mem_cons_of_mem a hb)) (hf _ a (List.mem_cons_self ..) h)

/-- Lull requests (R333), on the trace level's register. -/
theorem askLull {k : Nat} {r : LullReq} (h : Leaves P s t) (hd : P rDbgStatus) : Leaves P s (t.askLull k r) :=
  h.next (.askLull t k r) fun _ e => e ▸ hd
theorem endLull {k kind tag : Nat} (h : Leaves P s t) (hd : P rDbgStatus) : Leaves P s (t.endLull k kind tag) :=
  h.next (.endLull t k kind tag) fun _ e => e ▸ hd
/-- Events (R403), on the registers of events. -/
theorem raise {e : EventRec} (h : Leaves P s t) (hd : ∀ r ∈ eventRegs, P r) : Leaves P s (t.raise e) := h.next (.raise t e) hd

/-- Where ZEN_PART of the four cores is as before, so are the partitions that the cores lie in. -/
theorem partOf (h : Leaves P s t) (hz : ∀ k < 4, ¬ P (rZenPart k)) (j : Nat) : t.partOf j = s.partOf j := by
  have h0 := h.reg _ (hz 0 (by omega))
  have h1 := h.reg _ (hz 1 (by omega))
  have h2 := h.reg _ (hz 2 (by omega))
  have h3 := h.reg _ (hz 3 (by omega))
  simp only [State.partOf, State.partValid, State.fld, List.range_succ, List.range_zero, List.nil_append, List.cons_append, List.find?_cons, h0, h1,
    List.find?_nil, h2, h3]

theorem lowest (h : Leaves P s t) (hz : ∀ k < 4, ¬ P (rZenPart k)) (j : Nat) : t.lowest j = s.lowest j := by
  unfold State.lowest
  rw [h.partOf hz]

end Leaves

/-- What each step of a fold keeps, the fold keeps. -/
theorem foldl_keeps {α β : Type} {f : State → α → State} (g : State → β) (h : ∀ s a, g (f s a) = g s) (l : List α) :
    ∀ s, g (l.foldl f s) = g s := by
  induction l with
  | nil => exact fun _ => rfl
  | cons a l ih => exact fun s => (ih _).trans (h s a)

@[simp] theorem State.bar_setReg (s : State) (k : Nat) (v : Word) (x : Nat) : (s.setReg k v).bar x = s.bar x := rfl
@[simp] theorem State.bar_setFld (s : State) (k hi lo v : Nat) (x : Nat) : (s.setFld k hi lo v).bar x = s.bar x := rfl
@[simp] theorem State.bar_bump (s : State) (k n : Nat) (x : Nat) : (s.bump k n).bar x = s.bar x := rfl
@[simp] theorem State.bar_modCore (s : State) (k : Nat) (f : Core → Core) (x : Nat) : (s.modCore k f).bar x = s.bar x := rfl
@[simp] theorem State.bar_modCtx (s : State) (k c : Nat) (f : Ctx → Ctx) (x : Nat) : (s.modCtx k c f).bar x = s.bar x := rfl
@[simp] theorem State.bar_modPart (s : State) (k : Nat) (f : Part → Part) (x : Nat) : (s.modPart k f).bar x = s.bar x := rfl
@[simp] theorem State.bar_modPort (s : State) (k : Nat) (f : PortDyn → PortDyn) (x : Nat) : (s.modPort k f).bar x = s.bar x := rfl
@[simp] theorem State.bar_afterLive (s : State) (d : Nat) (a : Act) (x : Nat) : (s.afterLive d a).bar x = s.bar x := rfl
@[simp] theorem State.bar_laterW (s : State) (d : Nat) (i : Instr) (x : Nat) : (s.laterW d i).bar x = s.bar x := rfl
@[simp] theorem State.reg_modBar (s : State) (u : Nat) (f : BarDyn → BarDyn) (x : Nat) : (s.modBar u f).reg x = s.reg x := rfl
@[simp] theorem State.fld_modBar (s : State) (u : Nat) (f : BarDyn → BarDyn) (x y z : Nat) : (s.modBar u f).fld x y z = s.fld x y z := rfl
@[simp] theorem State.part_modBar (s : State) (u : Nat) (f : BarDyn → BarDyn) (x : Nat) : (s.modBar u f).part x = s.part x := rfl
@[simp] theorem State.port_modBar (s : State) (u : Nat) (f : BarDyn → BarDyn) (x : Nat) : (s.modBar u f).port x = s.port x := rfl
@[simp] theorem State.core_modBar (s : State) (u : Nat) (f : BarDyn → BarDyn) (x : Nat) : (s.modBar u f).core x = s.core x := rfl
@[simp] theorem State.ctx_modBar (s : State) (u : Nat) (f : BarDyn → BarDyn) (x y : Nat) : (s.modBar u f).ctx x y = s.ctx x y := rfl
@[simp] theorem State.agenda_modBar (s : State) (u : Nat) (f : BarDyn → BarDyn) : (s.modBar u f).agenda = s.agenda := rfl
@[simp] theorem State.clk_modBar (s : State) (u : Nat) (f : BarDyn → BarDyn) : (s.modBar u f).clk = s.clk := rfl
@[simp] theorem State.zen_modBar (s : State) (u : Nat) (f : BarDyn → BarDyn) : (s.modBar u f).zen = s.zen := rfl

@[simp] theorem State.bar_modBar_same (s : State) (u : Nat) (f : BarDyn → BarDyn) : (s.modBar u f).bar u = f (s.bar u) :=
  SMap.get_mod_same s.bars u f

@[simp] theorem SMap.get_erase_same {α : Type} [Inhabited α] (m : SMap α) (k : Nat) : SMap.get (SMap.erase m k) k = default := by
  induction m with
  | nil => rfl
  | cons e r ih =>
    by_cases he : e.1 = k
    · simpa [SMap.erase, he] using ih
    · simpa [SMap.erase, he, SMap.get] using ih

/-- Another context of the same core is as before. -/
theorem State.ctx_modCtx_ne (s : State) (k : Nat) {c d : Nat} (f : Ctx → Ctx) (h : d ≠ c) : (s.modCtx k c f).ctx k d = s.ctx k d := by
  simp [State.ctx, State.modCtx, h]

end Sys2Proof.Machine
end

section
/-! PROOF. LOOP, END and STEP_START of a context (R324, R327, R364, R366, R402, R418, R419, R625). -/
namespace Sys2Proof.Machine

/-- A context that enters a loop keeps its place, and its last cycle moves on only past a loop of no instruction (R364). -/
theorem Ctx.enterLoop_next (x : Ctx) (step : Int) (count period body : Nat) : (x.enterLoop step count period body).next = x.next := by
  unfold Ctx.enterLoop
  split
  · split <;> rfl
  · rfl

theorem Ctx.enterLoop_loops (x : Ctx) (step : Int) (count period body : Nat) : (x.enterLoop step count period body).loops =
    if body = 0 then x.loops
    else { start := x.next, len := body, count := count, period := period, step := step, t0 := x.last } :: x.loops := by
  unfold Ctx.enterLoop
  split
  · split <;> rfl
  · rfl

theorem Ctx.enterLoop_last (x : Ctx) (step : Int) (count period body : Nat) : (x.enterLoop step count period body).last =
    if body = 0 ∧ x.looped = false then x.last + count * period else x.last := by
  unfold Ctx.enterLoop
  split
  · split <;> simp_all
  · simp_all

/-- While a context of the core that is active has neither ended nor stopped, the partition is not quiet. -/
theorem State.allQuiet_eq_false {s : State} {k d : Nat} (hk : k ∈ s.partCores (s.lowest k)) (hd : d ∈ s.activeCtxs k)
    (hended : (s.ctx k d).ended = false) (hstopped : (s.ctx k d).stopped = false) : s.allQuiet (s.lowest k) = false := by
  refine Bool.eq_false_iff.mpr fun h => ?_
  have hall := List.all_eq_true.mp (List.all_eq_true.mp h k hk) d hd
  simp [hended, hstopped] at hall

/-- The end of a step of a partition with an empty queue (R366): between steps again, in no Lull, with no memory changed. -/
theorem State.endOfStep_of_empty {s : State} {k : Nat} (hqueue : (s.part k).queue = []) :
    ((s.endOfStep k).part k).running = false ∧ ((s.endOfStep k).part k).inStep = false ∧ ((s.endOfStep k).part k).lull = [] ∧
      SameMem s (s.endOfStep k) := by
  have hpart : ∀ (l : List Nat) (t : State), (l.foldl (fun s j => s.setFld (rSeqCtxStatus j) 1 0 2) t).part k = t.part k :=
    fun l t => foldl_keeps (f := fun s j => s.setFld (rSeqCtxStatus j) 1 0 2) (State.part · k) (fun _ _ => rfl) l t
  have hend : s.endOfStep k = (s.partCores k).foldl (fun s j => s.setFld (rSeqCtxStatus j) 1 0 2)
      ((s.modPart k fun p => { p with running := false, inStep := false, lull := [] }).setPstate k 1) := by
    unfold State.endOfStep
    dsimp only
    rw [hpart, State.part_setPstate, State.part_modPart_same, hqueue]
    rfl
  rw [hend, hpart, State.part_setPstate, State.part_modPart_same]
  refine ⟨rfl, rfl, rfl, Leaves.sameMem (P := fun _ => True) ?_⟩
  exact .foldl (fun _ _ _ h => .setFld h trivial) (.setFld (.modPart .refl) trivial)

/-- The state in which context c of core k has ended its step. -/
abbrev State.ctxEnded (s : State) (k c : Nat) : State := s.modCtx k c fun x => { x with ended := true }

/-- END while the partition is not quiet. -/
theorem execEndStep_of_not_quiet {s : State} {k c : Nat} (h : (s.ctxEnded k c).allQuiet (s.lowest k) = false) :
    execEndStep k c s = .next (s.ctxEnded k c) := by
  unfold execEndStep
  exact if_pos (by rw [Bool.not_eq_true']; exact h)

/-- END of the last context, with none stopped, in a running partition. -/
theorem execEndStep_of_running {s : State} {k c : Nat} (h : (s.ctxEnded k c).allQuiet (s.lowest k) = true)
    (hnone : (s.ctxEnded k c).anyStopped (s.lowest k) = false) (hrun : (s.part (s.lowest k)).running = true)
    (hstop : (s.part (s.lowest k)).stopping = none) : execEndStep k c s = .next ((s.ctxEnded k c).endOfStep (s.lowest k)) := by
  have hlow : (s.ctxEnded k c).lowest k = s.lowest k := rfl
  unfold execEndStep
  simp only [hlow, h, hnone, Bool.not_true, Bool.false_eq_true, if_false, State.part_modCtx, hrun, hstop, Option.isNone_none, Bool.and_self, if_true]

/-- END of the last context, with one stopped: the partition stops under some code. -/
theorem execEndStep_of_stopped {s : State} {k c : Nat} (h : (s.ctxEnded k c).allQuiet (s.lowest k) = true)
    (hsome : (s.ctxEnded k c).anyStopped (s.lowest k) = true) :
    ∃ code, execEndStep k c s = .next ((s.ctxEnded k c).stopPartition (s.lowest k) code []) := by
  have hlow : (s.ctxEnded k c).lowest k = s.lowest k := rfl
  unfold execEndStep
  simp only [hlow, h, hsome, Bool.not_true, Bool.false_eq_true, if_false, if_true]
  exact ⟨_, rfl⟩

/-- A partition that neither has stopped nor is to stop is to stop. -/
theorem State.stopping_stopPartition {s : State} {k code : Nat} {trigger : List Nat} (hfault : (s.part k).fault = none)
    (hstop : (s.part k).stopping = none) : ((s.stopPartition k code trigger).part k).stopping.isSome = true := by
  simp [State.stopPartition, hfault, hstop]

/-- The state in which context c of core k has issued STEP_START and waits. -/
abbrev State.ctxWaits (s : State) (k c : Nat) : State := s.modCtx k c fun x => { x with waiting := true, cmdIndex := 0 }

/-- The contexts of core k that have issued STEP_START at the unit, with c. -/
abbrev State.issuedWith (s : State) (k c u : Nat) : Nat := Nat.lor (SMap.get (s.bar u).stepIssued k) (2 ^ c)

/-- STEP_START of a context that is not the last of its core. -/
theorem execStepStart_of_more {s : State} {k c u : Nat} (hlost : s.clk.refLost = false) (hfault : (s.part (s.lowest k)).fault = none)
    (hmore : Nat.land (s.issuedWith k c u) (s.fld (rSeqCtxStatus k) 15 8) ≠ s.fld (rSeqCtxStatus k) 15 8) :
    execStepStart k c u s = .next ((s.ctxWaits k c).modBar u fun b => { b with stepIssued := SMap.set b.stepIssued k (s.issuedWith k c u) }) := by
  unfold execStepStart
  rw [if_neg (by simp [hlost, hfault])]
  exact if_pos hmore

/-- The arrival that STEP_START of the last context makes, accepted by the unit. -/
def State.lastArrives (s : State) (k c u : Nat) : State :=
  ((s.ctxWaits k c).modBar u fun b => { b with stepIssued := SMap.erase b.stepIssued k }).acceptArrival u k (s.arrSense u k) 24 true

/-- The unit's record after that arrival. -/
theorem State.bar_lastArrives (s : State) (k c u : Nat) : (s.lastArrives k c u).bar u =
    { s.bar u with
      stepIssued := SMap.erase (s.bar u).stepIssued k
      sense := SMap.mod (s.bar u).sense (s.arrSense u k) fun (x : List Nat × List Nat × List Nat) => (x.1 ++ [k], x.2.1, x.2.2)
      departReady := SMap.mod (s.bar u).departReady (s.arrSense u k) fun (l : List Nat) => l.filter (· != k) } := by
  simp only [State.lastArrives, State.acceptArrival, State.bar_afterLive, State.bar_modBar_same, State.bar_setFld, State.bar_modCtx]

/-- An accepted arrival writes BAR_STATE alone. -/
theorem Leaves.acceptArrival {P : Nat → Prop} {s t : State} {u k sense d : Nat} {step : Bool} (h : Leaves P s t) (hu : P (rBarState u)) :
    Leaves P s (t.acceptArrival u k sense d step) := .afterLive (.modBar (.setFld h hu))

/-- The unit counts an accepted arrival after its Cirrus latency (R402). -/
theorem State.agenda_acceptArrival (s : State) (u k sense d : Nat) (step : Bool) : (s.acceptArrival u k sense d step).agenda =
    s.agenda ++ [{ dom := none, at_ := s.clk.live + d, act := .coreArrive (s.barPart u) k u sense step, mode := .live }] := by
  have hcfg : rBarCfg u ≠ rBarState u := by simp only [rBarCfg, rBarState]; omega
  have hpart : (s.setFld (rBarState u) (44 + k) (44 + k) (1 - sense)).barPart u = s.barPart u := State.fld_setFld_ne _ _ _ _ _ _ hcfg
  rw [← hpart]
  rfl

/-- An arrival flips the sense expected of the core (R415). -/
theorem State.arrSense_acceptArrival (s : State) {u k sense : Nat} (d : Nat) (step : Bool) (hk : k < 4) :
    (s.acceptArrival u k sense d step).arrSense u k = (1 - sense) % 2 := by
  have hwidth : 2 ^ (44 + k + 1 - (44 + k)) = 2 := by rw [Nat.add_sub_cancel_left]; rfl
  exact (State.fld_setFld_same s (rBarState u) (44 + k) (44 + k) (1 - sense) (by omega) le_rfl).trans (by rw [hwidth])

/-- STEP_START of the last context of a core whose arrival the unit accepts: the context waits to depart. -/
theorem execStepStart_of_last {s : State} {k c u : Nat} (hlost : s.clk.refLost = false) (hfault : (s.part (s.lowest k)).fault = none)
    (hstop : (s.part (s.lowest k)).stopping = none)
    (hlast : Nat.land (s.issuedWith k c u) (s.fld (rSeqCtxStatus k) 15 8) = s.fld (rSeqCtxStatus k) 15 8)
    (hhas : s.barHas u k = true) (howing : (s.owing u (s.arrSense u k)).contains k = false) (hopen : s.barOpenAt u (s.arrSense u k) = true) :
    execStepStart k c u s =
      .next ((s.lastArrives k c u).modBar u fun b => { b with waiting := b.waiting ++ [(k, c, s.depSense u k, true)] }) := by
  let t := (s.ctxWaits k c).modBar u fun b => { b with stepIssued := SMap.erase b.stepIssued k }
  have howes : t.owing u (s.arrSense u k) = s.owing u (s.arrSense u k) := by
    show (SMap.get (t.bar u).sense _).1 = _
    rw [State.bar_modBar_same]
    rfl
  have harr : t.coreArrival k c u (s.arrSense u k) true = s.lastArrives k c u := by
    have h1 : t.barHas u k = true := hhas
    have h2 : t.arrSense u k = s.arrSense u k := rfl
    have h3 : t.barOpenAt u (s.arrSense u k) = true := hopen
    unfold State.coreArrival
    rw [h1, h2, h3, howes, howing]
    simp only [Bool.not_true, Bool.false_eq_true, ne_eq, not_true_eq_false, or_self, if_false, if_true]
    rfl
  have hleaves : Leaves (· ∈ [rBarState u]) s (s.lastArrives k c u) := .acceptArrival (.modBar (.modCtx .refl)) (List.mem_singleton_self _)
  have hlow : (s.lastArrives k c u).lowest k = s.lowest k := hleaves.lowest (fun j hj h => by
    simp only [List.mem_singleton, rZenPart, rBarState] at h
    omega) k
  have hpart : ∀ j, (s.lastArrives k c u).part j = s.part j := fun _ => rfl
  unfold execStepStart
  rw [if_neg (by simp [hlost, hfault])]
  refine (if_neg (not_not_intro hlast)).trans ?_
  change (if ((t.coreArrival k c u (s.arrSense u k) true).part ((t.coreArrival k c u (s.arrSense u k) true).lowest k)).fault.isSome ||
    ((t.coreArrival k c u (s.arrSense u k) true).part ((t.coreArrival k c u (s.arrSense u k) true).lowest k)).stopping.isSome then _ else _) = _
  rw [harr, hlow, hpart, hfault, hstop]
  exact (if_neg (by simp)).trans (congrArg (fun a => Host.Outcome.next (State.modBar a u _)) harr)

/-- Settles O2, each command by the branch that its hypotheses choose. -/
theorem contextSteps : Obligations.ContextSteps := by
  unfold Obligations.ContextSteps
  refine ⟨fun s k c inc count period body => ?_, fun s k c d hk hd hne hended hstopped => ?_,
    fun s k c hl hk hstop hquiet => ⟨fun hrun hqueue hnone => ?_, fun hfault hsome => ?_⟩,
    fun s k c u => ⟨fun hlost => ?_, fun hlost hfault => ⟨fun hmore => ?_, fun hlast hu hk hstop hhas howing hopen => ?_⟩⟩⟩
  · refine ⟨_, rfl, ?_, ?_, ?_, fun j hj => State.core_modCore_ne _ _ hj, Leaves.sameMem (P := (· ∈ [])) (.modCtx .refl),
      Leaves.sameRegsBut (.modCtx .refl)⟩
    · rw [State.ctx_modCtx_same, Ctx.enterLoop_loops]
    · rw [State.ctx_modCtx_same, Ctx.enterLoop_next]
    · rw [State.ctx_modCtx_same, Ctx.enterLoop_last]
  · have hctx : (s.ctxEnded k c).ctx k d = s.ctx k d := State.ctx_modCtx_ne s k _ hne
    have hquiet : (s.ctxEnded k c).allQuiet (s.lowest k) = false :=
      State.allQuiet_eq_false (s := s.ctxEnded k c) hk hd (by rw [hctx, hended]) (by rw [hctx, hstopped])
    refine ⟨_, execEndStep_of_not_quiet hquiet, ?_, ?_, hctx, rfl, Leaves.sameMem (P := (· ∈ [])) (.modCtx .refl),
      Leaves.sameRegsBut (.modCtx .refl)⟩
    · rw [State.ctx_modCtx_same]
    · rw [State.ctx_modCtx_same]
  · exact ⟨_, execEndStep_of_running hquiet hnone hrun hstop, State.endOfStep_of_empty (s := s.ctxEnded k c) hqueue⟩
  · obtain ⟨code, hexec⟩ := execEndStep_of_stopped hquiet hsome
    have hleaves : Leaves (· ∈ []) s ((s.ctxEnded k c).stopPartition (s.lowest k) code []) :=
      .next (.modCtx .refl) (.stopPartition _ _ _ _) fun _ => id
    exact ⟨_, hexec, State.stopping_stopPartition (s := s.ctxEnded k c) hfault hstop, hleaves.sameMem, hleaves.sameRegsBut⟩
  · show execStepStart k c u s = _
    exact if_pos (.inl hlost)
  · refine ⟨_, execStepStart_of_more hlost hfault hmore, ?_, ?_, rfl, Leaves.sameMem (P := (· ∈ [])) (.modBar (.modCtx .refl)),
      Leaves.sameRegsBut (.modBar (.modCtx .refl))⟩
    · exact congrArg Ctx.waiting (State.ctx_modCtx_same s k c _)
    · rw [State.bar_modBar_same]; exact SMap.get_set_same _ _ _
  · have hsense : s.arrSense u k < 2 := (getF_lt _ _ _).trans_eq (by rw [Nat.add_sub_cancel_left]; rfl)
    have hleaves : Leaves (· ∈ [rBarState u]) s ((s.lastArrives k c u).modBar u fun b => { b with waiting := b.waiting ++ [(k, c, s.depSense u k, true)] }) :=
      .modBar (.acceptArrival (.modBar (.modCtx .refl)) (List.mem_singleton_self _))
    refine ⟨_, execStepStart_of_last hlost hfault hstop hlast hhas howing hopen, ?_, ?_, ?_, ?_,
      State.agenda_acceptArrival ((s.ctxWaits k c).modBar u fun b => { b with stepIssued := SMap.erase b.stepIssued k }) u k (s.arrSense u k) 24 true,
      hleaves.sameMem, hleaves.sameRegsBut⟩
    · exact congrArg Ctx.waiting (State.ctx_modCtx_same s k c _)
    · rw [State.bar_modBar_same, State.bar_lastArrives]
      exact SMap.get_erase_same _ _
    · rw [State.bar_modBar_same, State.bar_lastArrives]
    · exact (State.arrSense_acceptArrival ((s.ctxWaits k c).modBar u fun b => { b with stepIssued := SMap.erase b.stepIssued k }) 24 true hk).trans
        (Nat.mod_eq_of_lt (by omega))

end Sys2Proof.Machine
end

section
/-! PROOF. The step queue and its records, and the command ring (R594, R596–R600). -/
namespace Sys2Proof.Machine

/-- The step queue set shows its length in HIF_CR_STATUS (R599). -/
theorem Leaves.setQueue {P : Nat → Prop} {s t : State} {k : Nat} {q : List QEntry} (h : Leaves P s t) (hk : P (rHifCrStatus k)) :
    Leaves P s (t.setQueue k q) := .setFld (.modPart h) hk

@[simp] theorem State.part_setQueue (s : State) (k : Nat) (q : List QEntry) : (s.setQueue k q).part k = { s.part k with queue := q } :=
  State.part_modPart_same s k fun p => { p with queue := q }

/-- A write of the step queue leaves the fields of other registers. -/
theorem State.fld_setQueue_ne (s : State) (k : Nat) (q : List QEntry) {r : Nat} (hi lo : Nat) (h : r ≠ rHifCrStatus k) :
    (s.setQueue k q).fld r hi lo = s.fld r hi lo := State.fld_setFld_ne _ 31 24 _ hi lo h

theorem rZenPart_ne_rHifCrStatus {k : Nat} (hk : k < 4) (j : Nat) : rZenPart k ≠ rHifCrStatus j := by
  simp only [rZenPart, rHifCrStatus]; omega

theorem State.pstate_setQueue (s : State) {k : Nat} (hk : k < 4) (q : List QEntry) : (s.setQueue k q).pstate k = s.pstate k :=
  State.fld_setQueue_ne s k q 59 57 (rZenPart_ne_rHifCrStatus hk k)

theorem State.owner_setQueue (s : State) {k : Nat} (hk : k < 4) (q : List QEntry) : (s.setQueue k q).owner k = s.owner k :=
  State.fld_setQueue_ne s k q 61 61 (rZenPart_ne_rHifCrStatus hk k)

theorem State.beat_setQueue (s : State) (k : Nat) (q : List QEntry) : (s.setQueue k q).beat = s.beat := by
  have hne : rClkBeat ≠ rHifCrStatus k := by simp only [rClkBeat, rHifCrStatus]; omega
  exact congrArg BitVec.toNat (State.reg_setFld_ne _ 31 24 _ hne)

/-- The completion ring has room as it had before the step queue was set. -/
theorem State.cqRoom_setQueue (s : State) {k : Nat} (hk : k < 4) (q : List QEntry) : (s.setQueue k q).cqRoom k = s.cqRoom k := by
  have hctrl : rHifCqCtrl k ≠ rHifCrStatus k := by simp only [rHifCqCtrl, rHifCrStatus]; omega
  have hstat : rHifCqStatus k ≠ rHifCrStatus k := by simp only [rHifCqStatus, rHifCrStatus]; omega
  have hhost : ∀ h, (s.setQueue k q).host h = s.host h := fun _ => rfl
  simp only [State.cqRoom, State.fld_setQueue_ne _ _ _ _ _ hctrl, State.fld_setQueue_ne _ _ _ _ _ hstat, State.owner_setQueue s hk, hhost,
    State.part_setQueue]

theorem State.serveQueue_of_nil {s : State} {k : Nat} (n : Nat) (h : (s.part k).queue = []) : State.serveQueue k n s = s := by
  cases n with
  | zero => rfl
  | succ n => simp [State.serveQueue, h]

/-- An entry whose steps have not all started stays at the head of the queue of a partition that is neither unloaded nor stopped (R599). -/
theorem State.serveQueue_of_unstarted {s : State} {k : Nat} {q : QEntry} {r : List QEntry} (n : Nat) (h : (s.part k).queue = q :: r)
    (hkind : q.kind = 1) (hmore : q.started < q.entry.count) (h0 : s.pstate k ≠ 0) (h5 : s.pstate k ≠ 5) : State.serveQueue k n s = s := by
  cases n with
  | zero => rfl
  | succ n => simp [State.serveQueue, h, hkind, hmore, h0, h5]

/-- A STEP_RUN all of whose steps have started stays while the last runs (R599). -/
theorem State.serveQueue_of_running {s : State} {k : Nat} {q : QEntry} {r : List QEntry} (n : Nat) (h : (s.part k).queue = q :: r)
    (hkind : q.kind = 1) (hdone : q.entry.count ≤ q.started) (hrun : (s.part k).running = true) : State.serveQueue k n s = s := by
  cases n with
  | zero => rfl
  | succ n => simp [State.serveQueue, h, hkind, Nat.not_lt.mpr hdone, hrun]

/-- A record that the ring has room for, with none before it and no vector, is written at once (R602). -/
theorem State.putRecord_of_room {s : State} {k : Nat} (kind status seqno step token count : Nat) (hrec : (s.part k).records = [])
    (hroom : s.cqRoom k = true) : s.putRecord k kind status seqno step token count false =
      s.writeRecord k (recordBytes kind status seqno step token count s.beat) false := by
  simp [State.putRecord, hrec, hroom]

/-- A record that the ring has no room for, with none before it, waits (R602). -/
theorem State.putRecord_of_full {s : State} {k : Nat} (kind status seqno step token count : Nat) (vector : Bool) (hrec : (s.part k).records = [])
    (hroom : s.cqRoom k = false) : s.putRecord k kind status seqno step token count vector =
      (s.modPart k fun p => { p with records := p.records ++ [(recordBytes kind status seqno step token count s.beat, vector)] }).setFld
        (rHifCqStatus k) 31 24 1 := by
  simp [State.putRecord, hrec, hroom]

/-- A record written without its vector: 32 bytes at PROD's place, and PROD one on (R602). -/
theorem State.writeRecord_quiet (s : State) (k : Nat) (r : List Nat) : s.writeRecord k r false =
    (s.out (.hostWrite (s.owner k) ((s.reg (rHifCqBase k)).toNat + 32 * (s.fld (rHifCqStatus k) 63 32 % 2 ^ s.fld (rHifCqCtrl k) 3 0))
      (r.take 28 ++ leBytes 4 s.beat))).setFld (rHifCqStatus k) 63 32 (s.fld (rHifCqStatus k) 63 32 + 1) := by
  simp [State.writeRecord]

@[simp] theorem length_leBytes (n x : Nat) : (leBytes n x).length = n := by
  induction n generalizing x with
  | zero => rfl
  | succ n ih => simp [leBytes, ih]

/-- NOP at an empty queue. -/
theorem State.joinQueue_nop {s : State} {k : Nat} (e : RingEntry) (h : (s.part k).queue = []) :
    s.joinQueue k 0 e = (s.setQueue k [{ kind := 0, entry := e }]).setQueue k [] := by
  unfold State.joinQueue
  rw [h, List.nil_append, State.serveQueue]
  simp only [State.part_setQueue, Nat.zero_ne_one, false_and, if_false, Nat.reduceEqDiff]
  exact State.serveQueue_of_nil _ (by simp)

/-- STEP_RUN at an empty queue of a loaded partition. -/
theorem State.joinQueue_stepRun {s : State} {k : Nat} {e : RingEntry} (hk : k < 4) (h : (s.part k).queue = []) (hcount : 0 < e.count)
    (hstate : s.pstate k = 1) : s.joinQueue k 1 e = s.setQueue k [{ kind := 1, entry := e }] := by
  unfold State.joinQueue
  rw [h, List.nil_append]
  have hp : (s.setQueue k [{ kind := 1, entry := e }]).pstate k = 1 := (s.pstate_setQueue hk _).trans hstate
  exact State.serveQueue_of_unstarted (q := { kind := 1, entry := e }) (r := []) 17 (by simp) rfl hcount (by omega) (by omega)

/-- The state in which a MARK has joined the empty queue and left it again. -/
abbrev State.marked (s : State) (k : Nat) (e : RingEntry) : State := (s.setQueue k [{ kind := 3, entry := e }]).setQueue k []

/-- MARK at an empty queue produces its record. -/
theorem State.joinQueue_mark {s : State} {k : Nat} (e : RingEntry) (h : (s.part k).queue = []) :
    s.joinQueue k 3 e = State.serveQueue k 16 ((s.marked k e).recordOf k 3 0 e none e.notify) := by
  unfold State.joinQueue
  rw [h, List.nil_append, State.serveQueue]
  simp [State.part_setQueue, State.marked]

/-- STEP_STOP cancels the steps of the running entry that have not started, and its record waits for room (R600, R602). -/
theorem exec_stepStop_of_running {s : State} {k : Nat} (e : RingEntry) {q : QEntry} (hk : k < 4) (hqueue : (s.part k).queue = [q]) (hkind : q.kind = 1)
    (hmore : q.started < q.entry.count) (hrun : (s.part k).running = true) (hrec : (s.part k).records = []) (hroom : s.cqRoom k = false) :
    ∃ t : State, exec (.stepStop k e) s = .next t ∧ (t.part k).queue = [{ q with entry := { q.entry with count := q.started } }] ∧
      (t.part k).records = [(recordBytes 4 0 e.seqno (q.entry.first + q.started) e.token (q.entry.count - q.started) s.beat, true)] ∧ SameMem s t := by
  let q' : QEntry := { q with entry := { q.entry with count := q.started } }
  let r := recordBytes 4 0 e.seqno (q.entry.first + q.started) e.token (q.entry.count - q.started) s.beat
  let t := ((s.setQueue k [q']).modPart k fun p => { p with records := p.records ++ [(r, true)] }).setFld (rHifCqStatus k) 31 24 1
  have hpart : t.part k = { s.part k with queue := [q'], records := (s.part k).records ++ [(r, true)] } := by
    simp only [t, State.part_setFld, State.part_modPart_same, State.part_setQueue]
  have hput : (s.setQueue k [q']).putRecord k 4 0 e.seqno (q.entry.first + q.started) e.token (q.entry.count - q.started) true = t := by
    have hfull := State.putRecord_of_full (s := s.setQueue k [q']) 4 0 e.seqno (q.entry.first + q.started) e.token (q.entry.count - q.started) true
      (by rw [State.part_setQueue]; exact hrec) (by rw [State.cqRoom_setQueue s hk]; exact hroom)
    rw [State.beat_setQueue] at hfull
    exact hfull
  have hserve : State.serveQueue k 17 t = t := State.serveQueue_of_running (q := q') (r := []) 17 (by rw [hpart]) hkind le_rfl (by rw [hpart]; exact hrun)
  have hexec : exec (.stepStop k e) s = .next t := by
    show execStepStop k e s = _
    unfold execStepStop
    have h1 : cancelled [q] = [q'] := by simp [cancelled, hkind, q']
    have h2 : firstUnstarted [q] = q.entry.first + q.started := by simp [firstUnstarted, hkind, hmore]
    have h3 : unstarted [q] = q.entry.count - q.started := by simp [unstarted, hkind]
    simp only [hqueue, h1, h2, h3, hput, hserve]
  have hleaves : Leaves (fun _ => True) s t := .setFld (.modPart (.setQueue .refl trivial)) trivial
  exact ⟨t, hexec, by rw [hpart], by rw [hpart, hrec]; rfl, hleaves.sameMem⟩

/-- The record of an entry that has no step takes its step and its count from two draws, which leave all else (R600). -/
theorem State.recordOf_none (s : State) (k kind status : Nat) (e : RingEntry) (vector : Bool) :
    ∃ (u : State) (step count : Nat), s.recordOf k kind status e none vector = u.putRecord k kind status e.seqno step e.token count vector ∧
      Leaves (fun _ => False) s u ∧ u.part k = s.part k ∧ (∀ h, u.host h = s.host h) ∧ u.outbox = s.outbox :=
  ⟨(((s.draw 32).2).draw 64).2, (((s.draw 32).2).draw 64).1, (s.draw 32).1, rfl, .draw (.draw .refl), rfl, fun _ => rfl, rfl⟩

/-- What the room of a completion ring goes by. -/
theorem State.cqRoom_congr {s u : State} {k : Nat} (hreg : ∀ r, u.reg r = s.reg r) (hpart : u.part k = s.part k) (hhost : ∀ h, u.host h = s.host h) :
    u.cqRoom k = s.cqRoom k := by
  simp only [State.cqRoom, State.owner, State.fld, hreg, hpart, hhost]

/-- A MARK that nothing stands before produces its record at once (R600, R602). -/
theorem exec_mark_of_room {s : State} {k : Nat} {e : RingEntry} (hk : k < 4) (hqueue : (s.part k).queue = []) (hrec : (s.part k).records = [])
    (hroom : s.cqRoom k = true) (hnotify : e.notify = false) :
    ∃ (t : State) (b : List Nat), exec (.mark k e) s = .next t ∧ (t.part k).queue = [] ∧ b.length = 32 ∧ b.head? = some 3 ∧
      t.outbox = s.outbox ++ [Output.hostWrite (s.owner k)
        ((s.reg (rHifCqBase k)).toNat + 32 * (s.fld (rHifCqStatus k) 63 32 % 2 ^ s.fld (rHifCqCtrl k) 3 0)) b] ∧
      t.fld (rHifCqStatus k) 63 32 = (s.fld (rHifCqStatus k) 63 32 + 1) % 2 ^ 32 ∧ SameMem s t := by
  obtain ⟨u, step, count, hrecord, hdrawn, hupart, huhost, huout⟩ := (s.marked k e).recordOf_none k 3 0 e false
  have hroom' : u.cqRoom k = true := by
    rw [State.cqRoom_congr (fun r => hdrawn.reg r id) hupart huhost, State.cqRoom_setQueue _ hk, State.cqRoom_setQueue _ hk, hroom]
  have hpart : u.part k = { s.part k with queue := [] } := by rw [hupart, State.part_setQueue, State.part_setQueue]
  rw [State.putRecord_of_room 3 0 e.seqno step e.token count (by rw [hpart]; exact hrec) hroom'] at hrecord
  have hlen : ((recordBytes 3 0 e.seqno step e.token count u.beat).take 28 ++ leBytes 4 u.beat).length = 32 := by simp [recordBytes]
  have hhead : ((recordBytes 3 0 e.seqno step e.token count u.beat).take 28 ++ leBytes 4 u.beat).head? = some 3 := by simp [recordBytes]
  generalize recordBytes 3 0 e.seqno step e.token count u.beat = r at hrecord hlen hhead
  have hpart' : (u.writeRecord k r false).part k = { s.part k with queue := [] } := by
    rw [State.writeRecord_quiet, State.part_setFld, State.part_out, hpart]
  have hserve : s.joinQueue k 3 e = u.writeRecord k r false := by
    rw [State.joinQueue_mark e hqueue, hnotify, hrecord]
    exact State.serveQueue_of_nil 16 (by rw [hpart'])
  have hexec : exec (.mark k e) s = .next (u.writeRecord k r false) := congrArg Host.Outcome.next hserve
  have hleaves : Leaves (· ∈ [rHifCrStatus k]) s u :=
    .trans (.setQueue (.setQueue .refl (by simp)) (by simp)) (hdrawn.mono fun _ h => h.elim)
  have hout : u.outbox = s.outbox := huout
  have howner : u.owner k = s.owner k := hleaves.fld (by simpa using rZenPart_ne_rHifCrStatus hk k) 61 61
  have hbase : u.reg (rHifCqBase k) = s.reg (rHifCqBase k) := hleaves.reg _ (by simp [rHifCqBase, rHifCrStatus])
  have hctrl : u.fld (rHifCqCtrl k) 3 0 = s.fld (rHifCqCtrl k) 3 0 := hleaves.fld (by simp [rHifCqCtrl, rHifCrStatus]) 3 0
  have hprod : u.fld (rHifCqStatus k) 63 32 = s.fld (rHifCqStatus k) 63 32 := hleaves.fld (by simp [rHifCqStatus, rHifCrStatus]) 63 32
  refine ⟨_, r.take 28 ++ leBytes 4 u.beat, hexec, by rw [hpart'], hlen, hhead, ?_, ?_,
    Leaves.sameMem (P := fun _ => True) (.next (hleaves.mono fun _ _ => trivial) (.writeRecord u k r false) fun _ _ => trivial)⟩
  · rw [State.writeRecord_quiet, State.setFld_outbox, State.out_outbox, howner, hbase, hctrl, hprod, hout]
  · rw [State.writeRecord_quiet, State.fld_setFld_same _ _ 63 32 _ (by omega) (by omega), hprod]

/-- Settles O3. -/
theorem queueCommands : Obligations.QueueCommands := by
  unfold Obligations.QueueCommands
  refine ⟨⟨fun s k e hqueue => ?_, fun s k e hk hqueue hcount hstate => ?_, fun s k e q hk hqueue hkind hmore hrun hrec hroom => ?_⟩,
    fun s k e hk hqueue hrec hroom hnotify => ?_⟩
  · have hexec : exec (.nop k e) s = .next ((s.setQueue k [{ kind := 0, entry := e }]).setQueue k []) := congrArg _ (State.joinQueue_nop e hqueue)
    have hleaves : Leaves (· ∈ [rHifCrStatus k]) s ((s.setQueue k [{ kind := 0, entry := e }]).setQueue k []) := .setQueue (.setQueue .refl (by simp)) (by simp)
    exact ⟨_, hexec, by simp, rfl, hleaves.sameMem, hleaves.sameRegsBut⟩
  · have hexec : exec (.stepRun k e) s = .next (s.setQueue k [{ kind := 1, entry := e }]) :=
      congrArg _ (State.joinQueue_stepRun hk hqueue hcount hstate)
    have hleaves : Leaves (· ∈ [rHifCrStatus k]) s (s.setQueue k [{ kind := 1, entry := e }]) := .setQueue .refl (by simp)
    exact ⟨_, hexec, by simp, State.fld_setFld_same _ _ 31 24 1 (by omega) (by omega), rfl, hleaves.sameMem, hleaves.sameRegsBut⟩
  · exact exec_stepStop_of_running e hk hqueue hkind hmore hrun hrec hroom
  · exact exec_mark_of_room hk hqueue hrec hroom hnotify

end Sys2Proof.Machine
end

section
/-! PROOF. The command ring is read and sampled, and a queued step starts (R594, R596–R599). -/
namespace Sys2Proof.Machine

/-- What one step of a fold sets and every later step keeps, holds at its end. -/
theorem foldl_reaches {σ α : Type} {f : σ → α → σ} (Q R : σ → Prop) {a : α} (hset : ∀ t, R t → Q (f t a)) (hkeep : ∀ t b, Q t → Q (f t b))
    (hR : ∀ t b, R t → R (f t b)) {l : List α} (ha : a ∈ l) : ∀ {s}, R s → Q (l.foldl f s) := by
  have hQ : ∀ (l : List α) t, Q t → Q (l.foldl f t) := fun l => by
    induction l with
    | nil => exact fun _ h => h
    | cons b l ih => exact fun t h => ih _ (hkeep t b h)
  induction l with
  | nil => cases ha
  | cons b l ih =>
    intro s hs
    rcases List.mem_cons.mp ha with rfl | ha
    · exact hQ l _ (hset s hs)
    · exact ih ha (hR s b hs)

/-- A field of a register is below 2 to its width. -/
theorem State.fld_lt (s : State) (r hi lo : Nat) : s.fld r hi lo < 2 ^ (hi + 1 - lo) := by
  unfold State.fld getF
  exact Nat.mod_lt _ (by positivity)

/-- A context that begins its program at its instruction 1, its STEP_START due at once (R599). -/
def State.beginStep (s : State) (j c : Nat) : State :=
  (s.modCtx j c fun x => { x with next := 1, last := 0, loops := [], ended := false, waiting := true }).laterW 0
    (.stepStart j c (instrAt (s.core j).program (s.ctx j c).first).target)

/-- The context has begun its program. -/
def State.HasBegun (s : State) (j c : Nat) : Prop := (s.ctx j c).waiting = true ∧ (s.ctx j c).next = 1 ∧ (s.ctx j c).ended = false

theorem State.hasBegun_beginStep (s : State) (j c : Nat) : (s.beginStep j c).HasBegun j c := by
  simp [State.beginStep, State.HasBegun]

theorem State.HasBegun.beginStep {s : State} {j c : Nat} (h : s.HasBegun j c) (i d : Nat) : (s.beginStep i d).HasBegun j c := by
  by_cases hi : i = j
  · subst hi
    by_cases hd : c = d
    · subst hd; exact s.hasBegun_beginStep i c
    · unfold State.HasBegun State.beginStep
      rwa [State.ctx_laterW, State.ctx_modCtx_ne _ _ _ hd]
  · have hctx : (s.beginStep i d).ctx j c = s.ctx j c := by
      simp [State.beginStep, State.ctx, State.core, State.modCtx, State.modCore, State.laterW, State.after, SMap.get_mod_ne _ _ (Ne.symm hi)]
    unfold State.HasBegun
    rwa [hctx]

/-- Every active context of the partition's cores begins. -/
def State.beginAll (s : State) (k : Nat) : State :=
  (s.partCores k).foldl (fun s j => (s.activeCtxs j).foldl (fun s c => s.beginStep j c) s) s

theorem Leaves.beginCore {P : Nat → Prop} {s t : State} (h : Leaves P s t) (l : List Nat) (j : Nat) :
    Leaves P s (l.foldl (fun s c => s.beginStep j c) t) := .foldl (fun _ _ _ h => .laterW (.modCtx h)) h

theorem Leaves.beginAll {P : Nat → Prop} {s t : State} (h : Leaves P s t) (k : Nat) : Leaves P s (t.beginAll k) :=
  .foldl (fun _ j _ h => h.beginCore _ j) h

theorem State.part_beginAll (s : State) (k i : Nat) : (s.beginAll k).part i = s.part i :=
  foldl_keeps (f := fun s j => (s.activeCtxs j).foldl (fun s c => s.beginStep j c) s) (·.part i)
    (fun t j => foldl_keeps (f := fun s c => s.beginStep j c) (·.part i) (fun _ _ => rfl) (t.activeCtxs j) t) _ s

theorem State.hasBegun_beginAll (s : State) {k j c : Nat} (hj : j ∈ s.partCores k) (hc : c ∈ s.activeCtxs j) : (s.beginAll k).HasBegun j c := by
  have hcore : ∀ (l : List Nat) (t : State) (i : Nat), t.HasBegun j c → (l.foldl (fun s d => s.beginStep i d) t).HasBegun j c := by
    intro l
    induction l with
    | nil => exact fun _ _ h => h
    | cons d l ih => exact fun t i h => ih _ i (h.beginStep i d)
  refine foldl_reaches (State.HasBegun · j c) (Leaves (fun _ => False) s) (fun t ht => ?_) (fun t b h => hcore _ t b h)
    (fun t b h => h.beginCore _ b) hj .refl
  have hact : c ∈ t.activeCtxs j := by
    unfold State.activeCtxs
    rw [ht.fld id]
    exact hc
  exact foldl_reaches (State.HasBegun · j c) (fun _ => True) (fun t _ => t.hasBegun_beginStep j c) (fun t b h => h.beginStep j b)
    (fun _ _ _ => trivial) hact trivial

theorem execQueuedStepStart_of_ready {s : State} {k : Nat} {q : QEntry} {r : List QEntry} (hlost : s.clk.refLost = false) (hstate : s.pstate k = 1)
    (hrun : (s.part k).running = false) (hstart : (s.part k).starting = false) (hqueue : (s.part k).queue = q :: r) (hkind : q.kind = 1)
    (hmore : q.started < q.entry.count) :
    exec (.queuedStepStart k) s = .next ((s.modPart k fun p => { p with starting := true }).beginAll k) := by
  show execQueuedStepStart k s = _
  unfold execQueuedStepStart
  simp only [hlost, hstate, hrun, hstart, hqueue, List.head?_cons, hkind, hmore, bne_self_eq_false, beq_self_eq_true, decide_true, Bool.and_self,
    Bool.not_true, Bool.or_self, Bool.false_eq_true, if_false]
  rfl

/-- One new entry that passes the checks is kept (R596, R597). -/
theorem execRingProducerRead_of_good {s : State} {k prod : Nat} {es : List (List Nat)} {b : List Nat} (hrun : s.ringRuns k = true)
    (hbad : s.fld (rHifCrCtrl k) 62 62 = 1 → s.ringBad k (s.fld (rHifCrStatus k) 63 32) 1 = none)
    (hprod : (if s.fld (rHifCrCtrl k) 62 62 = 1 then leNat (s.ringBytes k (s.reg (rHifCrProdAddr k)).toNat 4) else prod) =
      (s.fld (rHifCrStatus k) 63 32 + 1) % 2 ^ 32)
    (hes : (if s.fld (rHifCrCtrl k) 62 62 = 1 then s.deviceEntries k (s.fld (rHifCrStatus k) 63 32) 1 else es.take 1) = [b])
    (hroom : (s.part k).queue.length < 16) (hgood : entryBad b (s.fld (rHifCrStatus k) 63 32) = false) :
    exec (.ringProducerRead k prod es) s = .next (s.modPart k fun p => { p with
      prodRead := false, fetched := [{ kind := fieldAt b 0 1, entry := ringEntry b }], refusedAt := none }) := by
  have hcons := s.fld_lt (rHifCrStatus k) 63 32
  have hsize : ¬ 2 ^ s.fld (rHifCrCtrl k) 3 0 < 1 := by have := Nat.one_le_two_pow (n := s.fld (rHifCrCtrl k) 3 0); omega
  show execRingProducerRead k prod es s = _
  unfold execRingProducerRead
  generalize s.fld (rHifCrStatus k) 63 32 = cons at *
  have hnew : ((cons + 1) % 2 ^ 32 + 2 ^ 32 - cons % 2 ^ 32) % 2 ^ 32 = 1 := by omega
  have hmin : min 1 (16 - (s.part k).queue.length) = 1 := by omega
  simp only [hrun, Bool.not_true, Bool.false_eq_true, if_false, beq_iff_eq, hprod, hnew, hmin, hes]
  have hnone : (if s.fld (rHifCrCtrl k) 62 62 = 1 then s.ringBad k cons 1 else none) = none := by
    split
    · exact hbad ‹_›
    · rfl
  simp only [hnone, hsize, decide_false, Bool.false_eq_true, if_false]
  simp [hgood]

/-- The entries kept are brought as commands, and CONS moves past them (R598). -/
theorem execRingSample_of_one {s : State} {k : Nat} {q : QEntry} (hrun : s.ringRuns k = true) (hfetched : (s.part k).fetched = [q])
    (hgood : (s.part k).refusedAt = none) : exec (.ringSample k) s = .next (((s.laterW 0 (entryCmd k q)).setFld (rHifCrStatus k) 63 32
      (s.fld (rHifCrStatus k) 63 32 + 1)).modPart k fun p => { p with fetched := [], refusedAt := none }) := by
  show execRingSample k s = _
  unfold execRingSample
  simp only [hrun, hfetched, hgood, Bool.not_true, Bool.false_eq_true, if_false, List.foldl_cons, List.foldl_nil, List.length_cons, List.length_nil,
    Nat.zero_add, State.fld_laterW]

/-- Settles O4. -/
theorem ringAndQueue : Obligations.RingAndQueue := by
  unfold Obligations.RingAndQueue
  refine ⟨⟨fun s k b hk hrun hdev hroom hgood => ?_, fun s k n es b hk hrun hdev hbad hprod hes hroom hgood => ?_,
    fun s k q hk hrun hfetched hgood => ?_, fun s k prod es hrun => ?_⟩,
    fun s k q r hlost hstate hrun hstart hqueue hkind hmore => ?_⟩
  · have hleaves : Leaves (· ∈ ([] : List Nat)) s (s.modPart k fun p => { p with
        prodRead := false, fetched := [{ kind := fieldAt b 0 1, entry := ringEntry b }], refusedAt := none }) := .modPart .refl
    exact ⟨_, execRingProducerRead_of_good (b := b) hrun (by simp [hdev]) (by simp [hdev]) (by simp [hdev]) hroom hgood, by simp, by simp, by simp,
      hleaves.sameMem, hleaves.sameRegsBut⟩
  · have hleaves : Leaves (· ∈ ([] : List Nat)) s (s.modPart k fun p => { p with
        prodRead := false, fetched := [{ kind := fieldAt b 0 1, entry := ringEntry b }], refusedAt := none }) := .modPart .refl
    exact ⟨_, execRingProducerRead_of_good (b := b) hrun (fun _ => hbad) (by simp only [hdev, if_true, hprod]) (by simp only [hdev, if_true, hes])
      hroom hgood, by simp, by simp, by simp, hleaves.sameMem, hleaves.sameRegsBut⟩
  · have hleaves : Leaves (· ∈ [rHifCrStatus k]) s (((s.laterW 0 (entryCmd k q)).setFld (rHifCrStatus k) 63 32
      (s.fld (rHifCrStatus k) 63 32 + 1)).modPart k fun p => { p with fetched := [], refusedAt := none }) :=
      .modPart (.setFld (.laterW .refl) (by simp))
    refine ⟨_, execRingSample_of_one hrun hfetched hgood, ?_, by simp, rfl, hleaves.sameMem, hleaves.sameRegsBut⟩
    rw [State.fld_modPart]
    exact State.fld_setFld_same _ _ 63 32 _ (by omega) (by omega)
  · refine ⟨s.modPart k fun p => { p with prodRead := false }, ?_, ?_, by simp, by simp⟩
    · show execRingProducerRead k prod es s = _
      simp [execRingProducerRead, hrun]
    · show execRingSample k s = _
      simp [execRingSample, hrun]
  · have hleaves : Leaves (· ∈ ([] : List Nat)) s ((s.modPart k fun p => { p with starting := true }).beginAll k) := .beginAll (.modPart .refl) k
    refine ⟨_, execQueuedStepStart_of_ready hlost hstate hrun hstart hqueue hkind hmore, ?_, fun j hj c hc => ?_, hleaves.sameMem,
      hleaves.sameRegsBut⟩
    · rw [State.part_beginAll, State.part_modPart_same]
    · exact State.hasBegun_beginAll (s.modPart k fun p => { p with starting := true }) hj hc

end Sys2Proof.Machine
end

section
/-! PROOF. Barrier units: arrivals and departures of cores, and messages between modules (R402, R414–R418). -/
namespace Sys2Proof.Machine

theorem rBarCfg_ne_rBarState (u v : Nat) : rBarCfg u ≠ rBarState v := by simp only [rBarCfg, rBarState]; omega
theorem rLnkStatus_ne_rBarState (p : Nat) {u : Nat} (hu : u < 64) : rLnkStatus p ≠ rBarState u := by simp only [rLnkStatus, rBarState]; omega
theorem rClkBeat_ne_rBarState {u : Nat} (hu : u < 64) : rClkBeat ≠ rBarState u := by simp only [rClkBeat, rBarState]; omega

/-- What a unit's configuration says is as before where only BAR_STATE is written. -/
theorem Leaves.barCfg {s t : State} {u : Nat} (h : Leaves (· ∈ [rBarState u]) s t) (hi lo : Nat) : t.fld (rBarCfg u) hi lo = s.fld (rBarCfg u) hi lo :=
  h.fld (by simpa using rBarCfg_ne_rBarState u u) hi lo

theorem Leaves.sendCtl {P : Nat → Prop} {s t : State} {p : Nat} {r : CtlRec} (h : Leaves P s t) : Leaves P s (t.sendCtl p r) := by
  unfold State.sendCtl
  exact .ite (.modPort h) h

theorem Leaves.toChildren {P : Nat → Prop} {s t : State} {u : Nat} {r : CtlRec} (h : Leaves P s t) : Leaves P s (t.toChildren u r) :=
  .foldl (fun _ _ _ h => .sendCtl h) h

/-- A record sent changes nothing but its port. -/
theorem State.sendCtl_keeps {β : Type} (g : State → β) (h : ∀ (s : State) (p : Nat) (f : PortDyn → PortDyn), g (s.modPort p f) = g s) (s : State)
    (p : Nat) (r : CtlRec) : g (s.sendCtl p r) = g s := by
  unfold State.sendCtl
  split
  · exact h s p _
  · rfl

/-- A record for the children changes nothing but ports. -/
theorem State.toChildren_keeps {β : Type} (g : State → β) (h : ∀ (s : State) (p : Nat) (f : PortDyn → PortDyn), g (s.modPort p f) = g s) (s : State)
    (u : Nat) (r : CtlRec) : g (s.toChildren u r) = g s := foldl_keeps g (fun s p => State.sendCtl_keeps g h s p r) _ s

/-- A link that is up carries what is sent. -/
theorem State.ctl_sendCtl_up {s : State} {p : Nat} (r : CtlRec) (h : s.linkState p = 4) : ((s.sendCtl p r).port p).ctl = (s.port p).ctl ++ [r] := by
  unfold State.sendCtl
  rw [if_pos (by simp [h]), State.port_modPort_same]

theorem State.port_sendCtl_ne {s : State} {p q : Nat} (r : CtlRec) (h : q ≠ p) : (s.sendCtl p r).port q = s.port q := by
  unfold State.sendCtl
  split
  · exact State.port_modPort_ne _ _ h
  · rfl

theorem nodup_maskList (n m : Nat) : (maskList n m).Nodup := List.nodup_range.filter _

/-- Each of the ports, each named once, whose link is up carries the record once. -/
theorem State.ctl_foldl_sendCtl {l : List Nat} (hl : l.Nodup) (r : CtlRec) {q : Nat} (hq : q ∈ l) :
    ∀ {s : State}, s.linkState q = 4 → ((l.foldl (fun s p => s.sendCtl p r) s).port q).ctl = (s.port q).ctl ++ [r] := by
  induction l with
  | nil => cases hq
  | cons p l ih =>
    obtain ⟨hp, hl⟩ := List.nodup_cons.mp hl
    intro s hs
    by_cases hqp : q = p
    · subst hqp
      have hrest : ∀ (m : List Nat) (t : State), q ∉ m → (m.foldl (fun s p => s.sendCtl p r) t).port q = t.port q := by
        intro m
        induction m with
        | nil => exact fun _ _ => rfl
        | cons a m ihm =>
          intro t hm
          obtain ⟨ha, hm⟩ := not_or.mp (mt List.mem_cons.mpr hm)
          exact (ihm _ hm).trans (State.port_sendCtl_ne r ha)
      rw [List.foldl_cons, hrest l _ hp, State.ctl_sendCtl_up r hs]
    · have hs' : (s.sendCtl p r).linkState q = 4 := (Leaves.fld (P := fun _ => False) (.sendCtl .refl) id 63 61).trans hs
      rw [List.foldl_cons, ih hl ((List.mem_cons.mp hq).resolve_left hqp) hs', State.port_sendCtl_ne r hqp]

theorem State.ctl_toChildren {s : State} {u q : Nat} (r : CtlRec) (hq : q ∈ s.barChildren u) (hup : s.linkState q = 4) :
    ((s.toChildren u r).port q).ctl = (s.port q).ctl ++ [r] := State.ctl_foldl_sendCtl (nodup_maskList _ _) r hq hup

/-! Arrivals and departures of the cores. -/

/-- An arrival with the sense expected, open and not already arrived, is accepted (R414). -/
theorem execBarrierArrive_of_open {s : State} {k c u e : Nat} (hhas : s.barHas u k = true) (hsense : s.arrSense u k = e)
    (howing : (s.owing u e).contains k = false) (hopen : s.barOpenAt u e = true) :
    exec (.barrierArrive k c u e) s = .next (s.acceptArrival u k e 24 false) := by
  refine congrArg Host.Outcome.next ?_
  unfold State.coreArrival
  rw [if_neg (by simp [hhas]), if_neg (by rw [hsense, howing]; simp), if_pos hopen]

/-- A departure that has reached the core completes (R415). -/
theorem execBarrierDepart_of_ready {s : State} {k c u e : Nat} (hhas : s.barHas u k = true) (hsense : s.depSense u k = e)
    (howing : (s.owing u e).contains k = true) (hready : s.mayDepart u k e = true) :
    exec (.barrierDepart k c u e) s = .next (s.completeDepart u k e) := by
  refine congrArg Host.Outcome.next ?_
  unfold State.coreDeparture
  rw [if_neg (by simp [hhas]), if_neg (by rw [hsense, howing]; simp), if_pos hready]

theorem State.owing_acceptArrival (s : State) (u k e d : Nat) (step : Bool) : (s.acceptArrival u k e d step).owing u e = s.owing u e ++ [k] := by
  simp only [State.owing, State.acceptArrival, State.bar_afterLive, State.bar_modBar_same, State.bar_setFld, SMap.get_mod_same]

theorem State.owing_completeDepart (s : State) (u k e : Nat) : (s.completeDepart u k e).owing u e = (s.owing u e).filter (· != k) := by
  simp only [State.owing, State.completeDepart, State.bar_afterLive, State.bar_modBar_same, State.bar_setFld, SMap.get_mod_same]

/-- Settles O5. -/
theorem barrierRounds : Obligations.BarrierRounds := by
  unfold Obligations.BarrierRounds
  refine ⟨fun s k c u e hu hk he hhas hsense howing hopen => ?_, fun s k c u e hu hk he hhas hsense howing hready => ?_⟩
  · have hleaves : Leaves (· ∈ [rBarState u]) s (s.acceptArrival u k e 24 false) := .acceptArrival .refl (by simp)
    refine ⟨_, execBarrierArrive_of_open hhas hsense howing hopen, ?_, s.owing_acceptArrival u k e 24 false, s.agenda_acceptArrival u k e 24 false,
      hleaves.sameMem, hleaves.sameRegsBut⟩
    rw [State.arrSense_acceptArrival s 24 false hk]
    omega
  · have hleaves : Leaves (· ∈ [rBarState u]) s (s.completeDepart u k e) := .afterLive (.modBar (.setFld .refl (by simp)))
    refine ⟨_, execBarrierDepart_of_ready hhas hsense howing hready, ?_, by simp [State.owing_completeDepart], rfl, hleaves.sameMem,
      hleaves.sameRegsBut⟩
    have hwidth : 2 ^ (40 + k + 1 - (40 + k)) = 2 := by rw [Nat.add_sub_cancel_left]; rfl
    refine (State.fld_setFld_same s (rBarState u) (40 + k) (40 + k) (1 - e) (by omega) le_rfl).trans ?_
    rw [hwidth]
    omega

/-! Rounds. -/

theorem Leaves.roundDone {P : Nat → Prop} {s t : State} {u e beat : Nat} (h : Leaves P s t) (hu : P (rBarState u)) :
    Leaves P s (t.roundDone u e beat) := .afterLive (.toChildren (.modBar (.setFld (.setFld h hu) hu)))

/-- The unit's own part of a round that completes (R414). -/
def State.roundMarked (s : State) (u e beat : Nat) : State :=
  let s := (s.setFld (rBarState u) (38 + e) (38 + e) 1).setFld (rBarState u) 63 48 (s.fld (rBarState u) 63 48 + 1)
  let cores := s.barCores u
  s.modBar u fun b => { b with stamp := beat, sense := SMap.set b.sense e ((SMap.get b.sense e).1, cores, []) }

theorem Leaves.roundMarked {P : Nat → Prop} {s t : State} {u e beat : Nat} (h : Leaves P s t) (hu : P (rBarState u)) :
    Leaves P s (t.roundMarked u e beat) := .modBar (.setFld (.setFld h hu) hu)

theorem State.barDoneAt_roundMarked (s : State) (u beat : Nat) {e : Nat} (he : e < 2) : (s.roundMarked u e beat).barDoneAt u e = true := by
  have hwidth : 2 ^ (38 + e + 1 - (38 + e)) = 2 := by rw [Nat.add_sub_cancel_left]; rfl
  unfold State.roundMarked State.barDoneAt
  rw [State.fld_modBar, State.fld_setFld_disjoint _ _ _ _ _ _ _ (by omega) (by omega) (by omega) (by omega),
    State.fld_setFld_same _ _ _ _ _ (by omega) le_rfl, hwidth]
  rfl

theorem State.stamp_roundMarked (s : State) (u e beat : Nat) : ((s.roundMarked u e beat).bar u).stamp = beat := by
  unfold State.roundMarked
  rw [State.bar_modBar_same]

theorem State.roundDone_eq (s : State) (u e beat : Nat) : s.roundDone u e beat =
    ((s.roundMarked u e beat).toChildren u (.barDepart u e beat)).afterLive 24 (.departReach u e) := rfl

/-- A round that is complete at a unit: DONE, the stamp, the cores' departure, and the children's (R402, R414, R418). -/
theorem State.roundDone_spec (s : State) {u e : Nat} (beat : Nat) (hu : u < 64) (he : e < 2) :
    (s.roundDone u e beat).barDoneAt u e = true ∧ ((s.roundDone u e beat).bar u).stamp = beat ∧
      (s.roundDone u e beat).agenda = s.agenda ++ [{ dom := none, at_ := s.clk.live + 24, act := .departReach u e, mode := .live }] ∧
      ∀ q ∈ s.barChildren u, s.linkState q = 4 → ((s.roundDone u e beat).port q).ctl = (s.port q).ctl ++ [CtlRec.barDepart u e beat] := by
  have hdone := s.barDoneAt_roundMarked u beat he
  have hstamp := s.stamp_roundMarked u e beat
  have hagenda : (s.roundMarked u e beat).agenda = s.agenda := rfl
  have hclk : (s.roundMarked u e beat).clk = s.clk := rfl
  have hport : ∀ q, (s.roundMarked u e beat).port q = s.port q := fun _ => rfl
  have hw : Leaves (· ∈ [rBarState u]) s (s.roundMarked u e beat) := .roundMarked .refl (by simp)
  have hchildren : (s.roundMarked u e beat).barChildren u = s.barChildren u := congrArg (maskList 6) (hw.barCfg 55 50)
  rw [State.roundDone_eq]
  generalize s.roundMarked u e beat = w at *
  refine ⟨?_, ?_, ?_, fun q hq hup => ?_⟩
  · have hkeep := (Leaves.toChildren (P := fun _ => False) (u := u) (r := .barDepart u e beat) (.refl (s := w))).fld (k := rBarState u) id
    unfold State.barDoneAt at hdone ⊢
    rwa [State.fld_afterLive, hkeep]
  · rwa [State.bar_afterLive, State.toChildren_keeps (·.bar u) (fun _ _ _ => rfl)]
  · rw [State.afterLive_agenda, State.toChildren_keeps State.agenda (fun _ _ _ => rfl), State.toChildren_keeps State.clk (fun _ _ _ => rfl), hagenda,
      hclk]
  · have hup' : w.linkState q = 4 := (hw.fld (by simpa using rLnkStatus_ne_rBarState q hu) 63 61).trans hup
    rw [State.port_afterLive, State.ctl_toChildren _ (hchildren ▸ hq) hup', hport]

/-- An arrival counted while more are awaited (R414). -/
theorem State.countArrival_of_more {s : State} {u e : Nat} (h : s.barArr u e + 1 < s.fld (rBarCfg u) 45 42) :
    s.countArrival u e = s.setFld (rBarState u) (4 * e + 3) (4 * e) (s.barArr u e + 1) := by
  unfold State.countArrival
  exact if_pos h

/-- The last arrival of a round takes ARR and OPEN of its sense away (R414). -/
def State.roundArrived (s : State) (u e : Nat) : State :=
  (s.setFld (rBarState u) (4 * e + 3) (4 * e) 0).setFld (rBarState u) (36 + e) (36 + e) 0

theorem Leaves.roundArrived {P : Nat → Prop} {s t : State} {u e : Nat} (h : Leaves P s t) (hu : P (rBarState u)) :
    Leaves P s (t.roundArrived u e) := .setFld (.setFld h hu) hu

theorem State.roundArrived_arr (s : State) (u : Nat) {e : Nat} (he : e < 2) : (s.roundArrived u e).barArr u e = 0 := by
  unfold State.roundArrived State.barArr
  rw [State.fld_setFld_disjoint _ _ _ _ _ _ _ (by omega) (by omega) (by omega) (by omega), State.fld_setFld_same _ _ _ _ _ (by omega) (by omega)]
  exact Nat.zero_mod _

theorem State.roundArrived_open (s : State) (u : Nat) {e : Nat} (he : e < 2) : (s.roundArrived u e).barOpenAt u e = false := by
  unfold State.roundArrived State.barOpenAt
  rw [State.fld_setFld_same _ _ _ _ _ (by omega) (by omega), Nat.zero_mod]
  rfl

/-- The last arrival: the root completes the round, and another unit tells its parent (R414). -/
theorem State.countArrival_of_last {s : State} {u e : Nat} (hu : u < 64) (h : s.fld (rBarCfg u) 45 42 ≤ s.barArr u e + 1) :
    s.countArrival u e = if s.barRoot u then (s.roundArrived u e).roundDone u e s.beat
      else (s.roundArrived u e).sendCtl (s.barParent u) (.barArrive u e (s.fld (rBarCfg u) 17 0)) := by
  have hw : Leaves (· ∈ [rBarState u]) s (s.roundArrived u e) := .roundArrived .refl (by simp)
  have hroot : (s.roundArrived u e).barRoot u = s.barRoot u := congrArg (· == 1) (hw.barCfg 59 59)
  have hparent : (s.roundArrived u e).barParent u = s.barParent u := hw.barCfg 58 56
  have hbeat : (s.roundArrived u e).beat = s.beat := congrArg BitVec.toNat (hw.reg _ (by simpa using rClkBeat_ne_rBarState hu))
  rw [← hroot, ← hparent, ← hbeat, ← hw.barCfg 17 0]
  unfold State.countArrival
  exact if_neg (Nat.not_lt.mpr h)

/-- A BAR_ARRIVE of a child with the subtree total expected is counted (R414). -/
theorem execBarArrive_of_child {s : State} {u e p total : Nat} (hchild : (s.barChildren u).contains p = true)
    (htotal : total = (s.bar u).totals.getD p 0) : exec (.barArrive u e p total) s = .next (s.countArrival u e) := by
  show execBarArrive u e p total s = _
  unfold execBarArrive
  rw [if_pos ⟨hchild, htotal⟩]

/-! Re-opening. -/

/-- OPEN set at a unit that holds no arrival back, before its children hear of it (R416). -/
def State.opened (s : State) (u e : Nat) : State := (s.setFld (rBarState u) (36 + e) (36 + e) 1).toChildren u (.barOpen u e false)

theorem State.openSense_of_none_held {s : State} {u : Nat} (e : Nat) (h : (s.bar u).held = []) : s.openSense u e =
    ((s.opened u e).modBar u fun b => { b with held := b.held.filter fun h => h.2.1 != e }).setFld (rBarState u) 35 35 0 := by
  have hheld : ((s.opened u e).bar u).held = [] := by
    unfold State.opened
    rw [State.toChildren_keeps (·.bar u) (fun _ _ _ => rfl)]
    exact h
  show (s.opened u e).releaseHeld u e = _
  unfold State.releaseHeld
  simp [hheld]

theorem Leaves.opened {P : Nat → Prop} {s t : State} {u e : Nat} (h : Leaves P s t) (hu : P (rBarState u)) : Leaves P s (t.opened u e) :=
  .toChildren (.setFld h hu)

/-- A unit that opens its sense with no arrival held back: OPEN is set, the children hear of it, and nothing more comes (R416). -/
theorem State.openSense_spec {s : State} {u e : Nat} (hu : u < 64) (he : e < 2) (hheld : (s.bar u).held = []) :
    (s.openSense u e).barOpenAt u e = true ∧ (s.openSense u e).barDoneAt u e = s.barDoneAt u e ∧ (s.openSense u e).agenda = s.agenda ∧
      (∀ q ∈ s.barChildren u, s.linkState q = 4 → ((s.openSense u e).port q).ctl = (s.port q).ctl ++ [CtlRec.barOpen u e false]) ∧
      Leaves (· ∈ [rBarState u]) s (s.openSense u e) := by
  let w := s.setFld (rBarState u) (36 + e) (36 + e) 1
  have hw : Leaves (· ∈ [rBarState u]) s w := .setFld .refl (by simp)
  have hchildren : w.barChildren u = s.barChildren u := congrArg (maskList 6) (hw.barCfg 55 50)
  have hfld : ∀ hi lo, (s.opened u e).fld (rBarState u) hi lo = w.fld (rBarState u) hi lo :=
    (Leaves.toChildren (P := fun _ => False) (u := u) (.refl (s := w))).fld id
  have hwidth : 2 ^ (36 + e + 1 - (36 + e)) = 2 := by rw [Nat.add_sub_cancel_left]; rfl
  rw [State.openSense_of_none_held e hheld]
  refine ⟨?_, ?_, ?_, fun q hq hup => ?_, .setFld (.modBar (.opened .refl (by simp))) (by simp)⟩
  · unfold State.barOpenAt
    rw [State.fld_setFld_disjoint _ _ _ _ _ _ _ (by omega) (by omega) (by omega) (by omega), State.fld_modBar, hfld,
      State.fld_setFld_same _ _ _ _ _ (by omega) le_rfl, hwidth]
    rfl
  · unfold State.barDoneAt
    rw [State.fld_setFld_disjoint _ _ _ _ _ _ _ (by omega) (by omega) (by omega) (by omega), State.fld_modBar, hfld,
      State.fld_setFld_disjoint _ _ _ _ _ _ _ (by omega) (by omega) (by omega) (by omega)]
  · rw [State.setFld_agenda, State.agenda_modBar]
    exact State.toChildren_keeps State.agenda (fun _ _ _ => rfl) w u _
  · have hup' : w.linkState q = 4 := (hw.fld (by simpa using rLnkStatus_ne_rBarState q hu) 63 61).trans hup
    rw [State.port_setFld, State.port_modBar]
    exact State.ctl_toChildren (s := w) _ (hchildren ▸ hq) hup'

/-- The unit counts a child that has opened below (R416). -/
def State.childOpened (s : State) (u e p : Nat) : State :=
  s.modBar u fun b => { b with sense := SMap.mod b.sense e fun (x : List Nat × List Nat × List Nat) => (x.1, x.2.1, x.2.2 ++ [p]) }

theorem State.sense_childOpened (s : State) (u e p : Nat) : SMap.get ((s.childOpened u e p).bar u).sense e =
    ((SMap.get (s.bar u).sense e).1, (SMap.get (s.bar u).sense e).2.1, (SMap.get (s.bar u).sense e).2.2 ++ [p]) := by
  simp [State.childOpened]

theorem execBarOpen_up {s : State} {u e p : Nat} (hchild : (s.barChildren u).contains p = true) :
    exec (.barOpen u e p true) s = .next ((s.childOpened u e p).checkReopen u e) := by
  show execBarOpen u e p true s = _
  unfold execBarOpen
  rw [if_pos rfl, if_neg (by simp only [hchild, Bool.not_true, Bool.false_eq_true, not_false_iff])]
  rfl

/-- While a core or a child has still to depart, nothing opens (R416). -/
theorem State.checkReopen_of_waiting {s : State} {u e : Nat}
    (h : (SMap.get (s.bar u).sense e).2.1 ≠ [] ∨ ∃ q ∈ s.barChildren u, q ∉ (SMap.get (s.bar u).sense e).2.2) : s.checkReopen u e = s := by
  unfold State.checkReopen
  refine if_neg fun hall => ?_
  simp only [Bool.and_eq_true, List.isEmpty_iff, List.all_eq_true, List.contains_iff_mem] at hall
  obtain ⟨⟨-, hcores⟩, hchildren⟩ := hall
  rcases h with h | ⟨q, hq, hnot⟩
  · exact h hcores
  · exact hnot (hchildren q hq)

/-- The unit's round of the sense is over: DONE is cleared (R416). -/
def State.roundOver (s : State) (u e : Nat) : State :=
  (s.setFld (rBarState u) (38 + e) (38 + e) 0).modBar u fun b =>
    { b with sense := SMap.mod b.sense e fun (x : List Nat × List Nat × List Nat) => (x.1, x.2.1, []) }

theorem Leaves.roundOver {P : Nat → Prop} {s t : State} {u e : Nat} (h : Leaves P s t) (hu : P (rBarState u)) : Leaves P s (t.roundOver u e) :=
  .modBar (.setFld h hu)

theorem State.barDoneAt_roundOver (s : State) (u : Nat) {e : Nat} (he : e < 2) : (s.roundOver u e).barDoneAt u e = false := by
  unfold State.roundOver State.barDoneAt
  rw [State.fld_modBar, State.fld_setFld_same _ _ _ _ _ (by omega) le_rfl, Nat.zero_mod]
  rfl

theorem State.held_roundOver (s : State) (u e : Nat) : ((s.roundOver u e).bar u).held = (s.bar u).held := by
  simp [State.roundOver]

/-- When the whole subtree has departed, the root opens the sense and another unit tells its parent (R416). -/
theorem State.checkReopen_of_departed {s : State} {u e : Nat} (hdone : s.barDoneAt u e = true) (hcores : (SMap.get (s.bar u).sense e).2.1 = [])
    (hchildren : ∀ q ∈ s.barChildren u, q ∈ (SMap.get (s.bar u).sense e).2.2) :
    s.checkReopen u e = if s.barRoot u then (s.roundOver u e).openSense u e else (s.roundOver u e).sendCtl (s.barParent u) (.barOpen u e true) := by
  have hw : Leaves (· ∈ [rBarState u]) s (s.roundOver u e) := .roundOver .refl (by simp)
  have hroot : (s.roundOver u e).barRoot u = s.barRoot u := congrArg (· == 1) (hw.barCfg 59 59)
  have hparent : (s.roundOver u e).barParent u = s.barParent u := hw.barCfg 58 56
  rw [← hroot, ← hparent]
  unfold State.checkReopen
  exact if_pos (by simpa [hdone, hcores] using hchildren)

theorem execBarDepart_of_parent {s : State} {u e p beat : Nat} (hroot : s.barRoot u = false) (hp : p = s.barParent u) :
    exec (.barDepart u e p beat) s = .next (s.roundDone u e beat) := if_neg (by simp [hroot, hp])

theorem execBarOpen_down {s : State} {u e p : Nat} (hroot : s.barRoot u = false) (hp : p = s.barParent u) :
    exec (.barOpen u e p false) s = .next (s.openSense u e) := by
  show execBarOpen u e p false s = _
  unfold execBarOpen
  rw [if_neg Bool.false_ne_true, if_neg (by simp [hroot, hp])]

/-- O6's clauses on BAR_ARRIVE and BAR_DEPART. -/
theorem barrierMessages_rounds :
    (∀ (s : State) (u e p total : Nat), u < 64 → e < 2 → (s.barChildren u).contains p = true → total = (s.bar u).totals.getD p 0 →
      s.barArr u e + 1 < s.fld (rBarCfg u) 45 42 →
      ∃ t : State, exec (.barArrive u e p total) s = .next t ∧ t.barArr u e = s.barArr u e + 1 ∧ t.agenda = s.agenda ∧ t.ports = s.ports ∧
        SameMem s t ∧ SameRegsBut [rBarState u] s t) ∧
    (∀ (s : State) (u e p total : Nat), u < 64 → e < 2 → (s.barChildren u).contains p = true → total = (s.bar u).totals.getD p 0 →
      s.fld (rBarCfg u) 45 42 ≤ s.barArr u e + 1 → s.barRoot u = false → s.linkState (s.barParent u) = 4 →
      ∃ t : State, exec (.barArrive u e p total) s = .next t ∧ t.barArr u e = 0 ∧ t.barOpenAt u e = false ∧
        (t.port (s.barParent u)).ctl = (s.port (s.barParent u)).ctl ++ [CtlRec.barArrive u e (s.fld (rBarCfg u) 17 0)] ∧
        t.agenda = s.agenda ∧ SameMem s t ∧ SameRegsBut [rBarState u] s t) ∧
    (∀ (s : State) (u e p total : Nat), u < 64 → e < 2 → (s.barChildren u).contains p = true → total = (s.bar u).totals.getD p 0 →
      s.fld (rBarCfg u) 45 42 ≤ s.barArr u e + 1 → s.barRoot u = true →
      ∃ t : State, exec (.barArrive u e p total) s = .next t ∧ t.barArr u e = 0 ∧ t.barOpenAt u e = false ∧ t.barDoneAt u e = true ∧
        (t.bar u).stamp = s.beat ∧ t.agenda = s.agenda ++ [({ dom := none, at_ := s.clk.live + 24, act := .departReach u e, mode := .live } : Due)] ∧
        (∀ q ∈ s.barChildren u, s.linkState q = 4 → (t.port q).ctl = (s.port q).ctl ++ [CtlRec.barDepart u e s.beat]) ∧
        SameMem s t ∧ SameRegsBut [rBarState u] s t) := by
  refine ⟨fun s u e p total hu he hchild htotal hmore => ?_, fun s u e p total hu he hchild htotal hlast hroot hup => ?_,
    fun s u e p total hu he hchild htotal hlast hroot => ?_⟩
  · have hexec := execBarArrive_of_child (e := e) hchild htotal
    rw [State.countArrival_of_more hmore] at hexec
    have hleaves : Leaves (· ∈ [rBarState u]) s (s.setFld (rBarState u) (4 * e + 3) (4 * e) (s.barArr u e + 1)) := .setFld .refl (by simp)
    have hcfg := s.fld_lt (rBarCfg u) 45 42
    refine ⟨_, hexec, ?_, rfl, rfl, hleaves.sameMem, hleaves.sameRegsBut⟩
    have hwidth : 2 ^ (4 * e + 3 + 1 - 4 * e) = 16 := by rw [show 4 * e + 3 + 1 - 4 * e = 4 by omega]; rfl
    refine (State.fld_setFld_same _ _ _ _ _ (by omega) (by omega)).trans ?_
    rw [hwidth]
    omega
  · have hexec := execBarArrive_of_child (e := e) hchild htotal
    rw [State.countArrival_of_last hu hlast, hroot, if_neg Bool.false_ne_true] at hexec
    have hw : Leaves (· ∈ [rBarState u]) s (s.roundArrived u e) := .roundArrived .refl (by simp)
    have hup' : (s.roundArrived u e).linkState (s.barParent u) = 4 := (hw.fld (by simpa using rLnkStatus_ne_rBarState _ hu) 63 61).trans hup
    have hkeep := (Leaves.sendCtl (P := fun _ => False) (p := s.barParent u) (r := .barArrive u e (s.fld (rBarCfg u) 17 0))
      (.refl (s := s.roundArrived u e))).fld (k := rBarState u) id
    have hleaves := Leaves.sendCtl (p := s.barParent u) (r := .barArrive u e (s.fld (rBarCfg u) 17 0)) hw
    refine ⟨_, hexec, (hkeep _ _).trans (s.roundArrived_arr u he), ?_, State.ctl_sendCtl_up _ hup', ?_, hleaves.sameMem, hleaves.sameRegsBut⟩
    · exact (congrArg (· == 1) (hkeep _ _)).trans (s.roundArrived_open u he)
    · exact State.sendCtl_keeps State.agenda (fun _ _ _ => rfl) _ _ _
  · have hexec := execBarArrive_of_child (e := e) hchild htotal
    rw [State.countArrival_of_last hu hlast, hroot, if_pos rfl] at hexec
    have hw : Leaves (· ∈ [rBarState u]) s (s.roundArrived u e) := .roundArrived .refl (by simp)
    have hleaves := Leaves.roundDone (u := u) (beat := s.beat) (e := e) hw (by simp)
    obtain ⟨hdone, hstamp, hagenda, hctl⟩ := (s.roundArrived u e).roundDone_spec s.beat hu he
    have hother : ∀ hi lo, hi < 38 → lo ≤ hi → ((s.roundArrived u e).roundDone u e s.beat).fld (rBarState u) hi lo =
        (s.roundArrived u e).fld (rBarState u) hi lo := fun hi lo hhi hlo => by
      rw [State.roundDone_eq, State.fld_afterLive, (Leaves.toChildren (P := fun _ => False) (u := u) (.refl)).fld id]
      unfold State.roundMarked
      rw [State.fld_modBar, State.fld_setFld_disjoint _ _ _ _ _ _ _ (by omega) (by omega) (by omega) (by omega),
        State.fld_setFld_disjoint _ _ _ _ _ _ _ (by omega) (by omega) (by omega) (by omega)]
    have hchildren : (s.roundArrived u e).barChildren u = s.barChildren u := congrArg (maskList 6) (hw.barCfg 55 50)
    refine ⟨_, hexec, (hother _ _ (by omega) (by omega)).trans (s.roundArrived_arr u he), ?_, hdone, hstamp, hagenda, fun q hq hup => ?_,
      hleaves.sameMem, hleaves.sameRegsBut⟩
    · exact (congrArg (· == 1) (hother _ _ (by omega) (by omega))).trans (s.roundArrived_open u he)
    · exact hctl q (hchildren ▸ hq) ((hw.fld (by simpa using rLnkStatus_ne_rBarState _ hu) 63 61).trans hup)

/-- Settles O6. -/
theorem barrierMessages : Obligations.BarrierMessages := by
  unfold Obligations.BarrierMessages
  obtain ⟨hmore, hlast, hroot⟩ := barrierMessages_rounds
  refine ⟨⟨hmore, hlast, hroot, fun s u e p beat hu he hroot hp => ?_⟩, fun s u e p hu he hroot hp hheld => ?_, fun s u e p hchild hwait => ?_,
    fun s u e p hu he hchild hdone hcores hchildren hheld => ?_⟩
  · have hleaves : Leaves (· ∈ [rBarState u]) s (s.roundDone u e beat) := .roundDone .refl (by simp)
    obtain ⟨hdone, hstamp, hagenda, hctl⟩ := s.roundDone_spec beat hu he
    exact ⟨_, execBarDepart_of_parent hroot hp, hdone, hstamp, hagenda, hctl, hleaves.sameMem, hleaves.sameRegsBut⟩
  · obtain ⟨hopen, -, hagenda, hctl, hleaves⟩ := State.openSense_spec hu he hheld
    exact ⟨_, execBarOpen_down hroot hp, hopen, hctl, hagenda, hleaves.sameMem, hleaves.sameRegsBut⟩
  · have hsense := s.sense_childOpened u e p
    have hleaves : Leaves (· ∈ ([] : List Nat)) s (s.childOpened u e p) := .modBar .refl
    have hstill : (s.childOpened u e p).checkReopen u e = s.childOpened u e p := by
      refine State.checkReopen_of_waiting ?_
      rw [hsense]
      refine hwait.imp_right fun ⟨q, hq, hqp, hnot⟩ => ⟨q, hq, ?_⟩
      simp [hnot, hqp]
    exact ⟨_, (execBarOpen_up hchild).trans (congrArg _ hstill), by rw [hsense], rfl, rfl, hleaves.sameMem, hleaves.sameRegsBut⟩
  · have hexec := execBarOpen_up (e := e) hchild
    have hsense := s.sense_childOpened u e p
    have hdone' : (s.childOpened u e p).barDoneAt u e = true := hdone
    have hroot' : (s.childOpened u e p).barRoot u = s.barRoot u := rfl
    have hparent' : (s.childOpened u e p).barParent u = s.barParent u := rfl
    rw [State.checkReopen_of_departed hdone' (by rw [hsense]; exact hcores) (fun q hq => by
      rw [hsense]
      by_cases hqp : q = p
      · simp [hqp]
      · exact List.mem_append_left _ (hchildren q hq hqp)), hroot', hparent'] at hexec
    have hw : Leaves (· ∈ [rBarState u]) s ((s.childOpened u e p).roundOver u e) := .roundOver (.modBar .refl) (by simp)
    have hover := (s.childOpened u e p).barDoneAt_roundOver u he
    have hheld' : (((s.childOpened u e p).roundOver u e).bar u).held = [] := by
      rw [State.held_roundOver, State.childOpened, State.bar_modBar_same]
      exact hheld
    have hport : ∀ q, ((s.childOpened u e p).roundOver u e).port q = s.port q := fun _ => rfl
    have hagenda' : ((s.childOpened u e p).roundOver u e).agenda = s.agenda := rfl
    have hup' : ∀ q, s.linkState q = 4 → ((s.childOpened u e p).roundOver u e).linkState q = 4 := fun q hup =>
      (hw.fld (by simpa using rLnkStatus_ne_rBarState q hu) 63 61).trans hup
    have hchildren' : ((s.childOpened u e p).roundOver u e).barChildren u = s.barChildren u := congrArg (maskList 6) (hw.barCfg 55 50)
    generalize (s.childOpened u e p).roundOver u e = w at *
    by_cases hr : s.barRoot u = true
    · rw [if_pos hr] at hexec
      obtain ⟨hopen, hkept, hagenda, hctl, hleaves⟩ := State.openSense_spec hu he hheld'
      have hall := Leaves.trans hw hleaves
      refine ⟨_, hexec, hkept.trans hover, fun _ => ⟨hopen, fun q hq hup => ?_⟩, fun h => absurd (hr.symm.trans h) (by decide), hagenda.trans hagenda',
        hall.sameMem, hall.sameRegsBut⟩
      rw [hctl q (hchildren' ▸ hq) (hup' q hup), hport]
    · rw [if_neg hr] at hexec
      have hkeep := (Leaves.sendCtl (P := fun _ => False) (p := s.barParent u) (r := .barOpen u e true) (.refl (s := w))).fld (k := rBarState u) id
      have hall := Leaves.sendCtl (p := s.barParent u) (r := .barOpen u e true) hw
      refine ⟨_, hexec, (congrArg (· == 1) (hkeep _ _)).trans hover, fun h => absurd h hr, fun _ hup => ?_,
        (State.sendCtl_keeps State.agenda (fun _ _ _ => rfl) _ _ _).trans hagenda', hall.sameMem, hall.sameRegsBut⟩
      rw [State.ctl_sendCtl_up _ (hup' _ hup), hport]

end Sys2Proof.Machine
end

section
/-! PROOF. Stream descriptors that start, and what a busy engine or array refuses (R41, R50, R129, R154, R166, R175, R188, R206, R275, R663). -/
namespace Sys2Proof.Machine

/-- The engine as a descriptor that starts leaves it (R167). -/
abbrev State.startedEngine (s : State) (k c idx : Nat) (back : Bool) : Engine :=
  { running := true, desc := s.streamDesc k idx, index := idx, ctx := c, instr := (s.ctx k c).cmdIndex, back := back,
    step := s.stepOf k, srcBase := s.srcBaseOf k c (sdesc (s.streamDesc k idx)) }

/-- An engine that is free starts a descriptor that names no half (R175, R188). -/
theorem State.startEngine_of_free {s : State} {k c e idx : Nat} (back : Bool) (hrun : (SMap.get (s.core k).engines e).running = false)
    (hbusy : (SMap.get (s.core k).engines e).busyUntil ≤ s.cyc k) (hnames : s.namesHalf k c (sdesc (s.streamDesc k idx)) = none) :
    s.startEngine k c e idx back = (s.modCore k fun co => { co with engines := SMap.set co.engines e (s.startedEngine k c idx back) }).later k 0
      (.streamIssue k e false) := by
  unfold State.startEngine
  rw [if_neg (by simpa [hrun] using hbusy)]
  simp only [hnames]

/-- An engine that is not free refuses (R175). -/
theorem State.startEngine_of_busy {s : State} {k c e idx : Nat} (back : Bool)
    (h : (SMap.get (s.core k).engines e).running = true ∨ s.cyc k < (SMap.get (s.core k).engines e).busyUntil) :
    s.startEngine k c e idx back = s.faultCtx k c 0x0A e := by
  unfold State.startEngine
  rw [if_pos (by simpa using h)]

/-- A free engine refuses a descriptor whose destination takes in a half (R188). -/
theorem State.startEngine_of_half {s : State} {k c e idx x : Nat} (back : Bool) (hrun : (SMap.get (s.core k).engines e).running = false)
    (hbusy : (SMap.get (s.core k).engines e).busyUntil ≤ s.cyc k) (hnames : s.namesHalf k c (sdesc (s.streamDesc k idx)) = some x) :
    s.startEngine k c e idx back = s.faultCtx k c 0x03 x := by
  unfold State.startEngine
  rw [if_neg (by simpa [hrun] using hbusy)]
  simp only [hnames]

/-- A RECEIVE that starts counts what comes into the producer half of its link (R663). -/
theorem State.startReceive_of_free {s : State} {k c e idx : Nat} (hrun : (SMap.get (s.core k).engines e).running = false)
    (hbusy : (SMap.get (s.core k).engines e).busyUntil ≤ s.cyc k) (hnames : s.namesHalf k c (sdesc (s.streamDesc k idx)) = none) :
    s.startReceive k c e idx = s.modCore k fun co =>
      { co with engines := SMap.mod co.engines e (fun (x : Engine) => { x with busyUntil := s.cyc k + 1 }),
                receives := co.receives ++ [{ core := k, ctx := c, engine := e, link := (sdesc (s.streamDesc k idx)).linkOut,
                                              half := (s.linkD k c (sdesc (s.streamDesc k idx)).linkOut).prodHalf,
                                              target := 256 * (sdesc (s.streamDesc k idx)).auxCount }] } := by
  unfold State.startReceive
  rw [if_neg (by simpa [hrun] using hbusy)]
  simp only [hnames]

theorem State.startReceive_of_busy {s : State} {k c e idx : Nat}
    (h : (SMap.get (s.core k).engines e).running = true ∨ s.cyc k < (SMap.get (s.core k).engines e).busyUntil) :
    s.startReceive k c e idx = s.faultCtx k c 0x0A e := by
  unfold State.startReceive
  rw [if_pos (by simpa using h)]

theorem State.startReceive_of_half {s : State} {k c e idx x : Nat} (hrun : (SMap.get (s.core k).engines e).running = false)
    (hbusy : (SMap.get (s.core k).engines e).busyUntil ≤ s.cyc k) (hnames : s.namesHalf k c (sdesc (s.streamDesc k idx)) = some x) :
    s.startReceive k c e idx = s.faultCtx k c 0x03 x := by
  unfold State.startReceive
  rw [if_neg (by simpa [hrun] using hbusy)]
  simp only [hnames]

/-- The six stream instructions start an engine, each its own. -/
theorem exec_stream_eq {s : State} {k c e idx : Nat} {i : Instr}
    (hi : i ∈ [(.fetch k c e idx : Instr), .feed k c e idx, .inject k c e idx false, .inject k c e idx true, .store k c e idx, .handoff k c e idx,
      .gather k c e idx]) : ∃ back, exec i s = .next (s.startEngine k c e idx back) := by
  simp only [List.mem_cons, List.not_mem_nil, or_false] at hi
  rcases hi with rfl | rfl | rfl | rfl | rfl | rfl | rfl
  · exact ⟨false, rfl⟩
  · exact ⟨false, rfl⟩
  · exact ⟨false, rfl⟩
  · exact ⟨true, rfl⟩
  · exact ⟨false, rfl⟩
  · exact ⟨false, rfl⟩
  · exact ⟨false, rfl⟩

/-- Settles O8. -/
theorem streamsStart : Obligations.StreamsStart := by
  unfold Obligations.StreamsStart
  refine ⟨fun s k c e idx hrun hbusy hnames i hi => ?_, fun s k c e idx hrun hbusy hnames => ?_⟩
  · obtain ⟨back, hexec⟩ := exec_stream_eq (s := s) hi
    rw [State.startEngine_of_free back hrun hbusy hnames] at hexec
    have hleaves : Leaves (· ∈ ([] : List Nat)) s ((s.modCore k fun co => { co with
      engines := SMap.set co.engines e (s.startedEngine k c idx back) }).later k 0 (.streamIssue k e false)) := .later (.modCore .refl)
    exact ⟨_, hexec, by simp, by simp, by simp, by simp, by simp, rfl, hleaves.sameMem, hleaves.sameRegsBut⟩
  · have hexec : exec (.receive k c e idx) s = _ := congrArg Host.Outcome.next (State.startReceive_of_free hrun hbusy hnames)
    have hleaves := Leaves.modCore (P := (· ∈ ([] : List Nat))) (k := k) (f := fun co =>
      { co with engines := SMap.mod co.engines e (fun (x : Engine) => { x with busyUntil := s.cyc k + 1 }),
                receives := co.receives ++ [{ core := k, ctx := c, engine := e, link := (sdesc (s.streamDesc k idx)).linkOut,
                                              half := (s.linkD k c (sdesc (s.streamDesc k idx)).linkOut).prodHalf,
                                              target := 256 * (sdesc (s.streamDesc k idx)).auxCount }] }) (.refl (s := s))
    exact ⟨_, hexec, by simp, by simp [hrun], by simp, hleaves.sameMem, hleaves.sameRegsBut⟩

/-! Refusals of the vector engine and of the reduction unit. -/

theorem execVectorDescriptor_of_busy {s : State} {k c idx : Nat} (u : Bool) (h : (s.core k).vec.isSome = true) :
    exec (.vectorDescriptor k c idx u) s = .next (s.faultCtx k c 0x0A idx) := by
  show execVectorDescriptor k c idx u s = _
  unfold execVectorDescriptor
  exact if_pos h

theorem execUpdateDescriptor_of_busy {s : State} {k c idx : Nat} (h : (s.core k).vec.isSome = true) :
    exec (.updateDescriptor k c idx) s = .next (s.faultCtx k c 0x0A idx) := by
  show execUpdateDescriptor k c idx s = _
  unfold execUpdateDescriptor
  exact if_pos h

theorem execBadd_of_busy {s : State} {k c idx : Nat} (h : (s.core k).vec.isSome = true) :
    exec (.badd k c idx) s = .next (s.faultCtx k c 0x0A idx) := by
  show execBadd k c idx s = _
  unfold execBadd
  exact if_pos h

theorem execThinningDescriptor_of_full {s : State} {k c idx : Nat} (h : 4 ≤ (s.core k).thinQ.length) :
    exec (.thinningDescriptor k c idx) s = .next (s.faultCtx k c 0x02 idx) := by
  show execThinningDescriptor k c idx s = _
  unfold execThinningDescriptor
  exact if_pos h

/-! Refusals of an array. -/

/-- The array still streams the last product (R50, R42). -/
def State.streams (s : State) (k a : Nat) (p : ProductArgs) : Bool :=
  match (s.arr (4 * k + a)).last with
  | some q => decide (s.cyc k < q.issuedAt + 1024 * max q.c (cyclesOf p.sfmt))
  | none => false

theorem State.streams_eq_true {s : State} {k a : Nat} {p : ProductArgs} {q : Product} (hq : (s.arr (4 * k + a)).last = some q)
    (h : s.cyc k < q.issuedAt + 1024 * max q.c (cyclesOf p.sfmt)) : s.streams k a p = true := by
  simp only [State.streams, hq, h, decide_true]

theorem State.streams_eq_false {s : State} {k a : Nat} {p : ProductArgs}
    (h : ∀ q, (s.arr (4 * k + a)).last = some q → q.issuedAt + 1024 * max q.c (cyclesOf p.sfmt) ≤ s.cyc k) : s.streams k a p = false := by
  unfold State.streams
  cases hlast : (s.arr (4 * k + a)).last with
  | none => rfl
  | some q => simpa using h q hlast

theorem execProduct_of_streaming {s : State} {k c a : Nat} {p : ProductArgs} (h : s.streams k a p = true) :
    exec (.product k c a p) s = .next (s.faultCtx k c 0x0A (4 * k + a)) := by
  show execProduct k c a p s = _
  unfold execProduct
  exact if_pos h

/-- A product whose array is free and whose serial panel lies in a half that no resend holds is taken or refused by its operands' headers (R41, R361). -/
theorem execProduct_of_free {s : State} {k c a : Nat} {p : ProductArgs} (hfree : s.streams k a p = false)
    (hlink : p.psrc = false → s.linkHits k 2 (s.poolArray k a p.pbase (p.pfmt + 1)) p.pbase (128 * elemBits (p.pfmt + 1) + 2) = [])
    (hstored : s.serialStored k a p = false) (hresend : s.resendInto (4 * k + a) (s.arr (4 * k + a)).readHalf = none) (hupset : p.upset = 0) :
    exec (.product k c a p) s = if (s.parallelOperand k a p).2 && (s.serialOperand k a p).2
      then .next (s.putProduct k c a (cyclesOf p.sfmt) p (s.parallelOperand k a p).1 (s.serialOperand k a p).1)
      else .next (s.faultCtx k c 0x04 (4 * k + a)) := by
  have hacquire : (if p.psrc then (s, Acq.ok)
      else s.acquireBlock k a (s.poolArray k a p.pbase (p.pfmt + 1)) p.pbase (128 * elemBits (p.pfmt + 1) + 2)) = (s, Acq.ok) := by
    cases hp : p.psrc with
    | true => rfl
    | false => simp [State.acquireBlock, hlink hp]
  show execProduct k c a p s = _
  unfold execProduct
  refine (if_neg (Bool.eq_false_iff.mp hfree)).trans ?_
  simp only [hstored, hresend, hacquire, hupset, Bool.false_eq_true, and_false, if_false, ne_eq, not_true_eq_false]

/-- Settles O9. -/
theorem busyFaults : Obligations.BusyFaults := by
  unfold Obligations.BusyFaults
  refine ⟨fun s k c e idx i hi => ?_, ⟨fun s k c idx u hvec i hi => ?_, fun s k c idx hfull => execThinningDescriptor_of_full hfull⟩,
    fun s k c a p q hlast hbusy => execProduct_of_streaming (State.streams_eq_true hlast hbusy),
    fun s k c a p hfree hpsrc hupset hstored hresend hser => ?_, fun s k c a p hfree hpsrc hupset hlink hstored hresend hpar => ?_⟩
  · have hi' : i ∈ [(.fetch k c e idx : Instr), .feed k c e idx, .inject k c e idx false, .inject k c e idx true, .store k c e idx,
      .handoff k c e idx, .gather k c e idx] ∨ i = .receive k c e idx := by simpa only [List.mem_cons, List.not_mem_nil, or_false, or_assoc] using hi
    rcases hi' with hi' | rfl
    · obtain ⟨back, hexec⟩ := exec_stream_eq (s := s) hi'
      exact ⟨fun h => hexec.trans (congrArg _ (State.startEngine_of_busy back h)),
        fun x hrun hbusy hnames => hexec.trans (congrArg _ (State.startEngine_of_half back hrun hbusy hnames))⟩
    · exact ⟨fun h => congrArg Host.Outcome.next (State.startReceive_of_busy h),
        fun x hrun hbusy hnames => congrArg Host.Outcome.next (State.startReceive_of_half hrun hbusy hnames)⟩
  · simp only [List.mem_cons, List.not_mem_nil, or_false] at hi
    rcases hi with rfl | rfl | rfl
    · exact execVectorDescriptor_of_busy u hvec
    · exact execUpdateDescriptor_of_busy hvec
    · exact execBadd_of_busy hvec
  · rw [execProduct_of_free (State.streams_eq_false hfree) (fun h => by simp [hpsrc] at h) hstored hresend hupset, hser, Bool.and_false,
      if_neg Bool.false_ne_true]
  · rw [execProduct_of_free (State.streams_eq_false hfree) (fun _ => hlink) hstored hresend hupset, hpar, Bool.false_and,
      if_neg Bool.false_ne_true]

end Sys2Proof.Machine
end

section
/-! PROOF. Reads are issued and land, and Stratus transfers deliver (R172, R174, R189–R192, R386, R396). -/
namespace Sys2Proof.Machine

/-- A change of a context is one of no other part of its core. -/
theorem State.core_modCtx_keeps {β : Type} (g : Core → β) (hg : ∀ co m, g { co with ctxs := m } = g co) (s : State) (k c : Nat) (f : Ctx → Ctx)
    (j : Nat) : g ((s.modCtx k c f).core j) = g (s.core j) := by
  by_cases hj : j = k
  · subst hj
    exact (congrArg g (State.core_modCore_same s j _)).trans (hg _ _)
  · have hcore : (s.modCtx k c f).core j = s.core j := by simp [State.core, State.modCtx, State.modCore, hj]
    rw [hcore]

@[simp] theorem State.engines_modCtx (s : State) (k c : Nat) (f : Ctx → Ctx) (j : Nat) : ((s.modCtx k c f).core j).engines = (s.core j).engines :=
  State.core_modCtx_keeps Core.engines (fun _ _ => rfl) s k c f j
@[simp] theorem State.map_modCtx (s : State) (k c : Nat) (f : Ctx → Ctx) (j : Nat) : ((s.modCtx k c f).core j).map = (s.core j).map :=
  State.core_modCtx_keeps Core.map (fun _ _ => rfl) s k c f j
@[simp] theorem State.links_modCtx (s : State) (k c : Nat) (f : Ctx → Ctx) (j : Nat) : ((s.modCtx k c f).core j).links = (s.core j).links :=
  State.core_modCtx_keeps Core.links (fun _ _ => rfl) s k c f j

/-- What a store write's checks go by. -/
theorem State.tableHit_congr {s t : State} {k : Nat} (h : (t.core k).map = (s.core k).map) (off len : Nat) : t.tableHit k off len = s.tableHit k off len := by
  simp only [State.tableHit, h]
theorem State.linkHits_congr {s t : State} {k : Nat} (h : (t.core k).links = (s.core k).links) (space arr addr len : Nat) :
    t.linkHits k space arr addr len = s.linkHits k space arr addr len := by
  simp only [State.linkHits, h]

/-- A write into a core store that meets no table and no link is let through (R184, R188). -/
theorem State.mayWrite_store {s : State} {k addr len : Nat} (c m eng arr : Nat) (hfit : addr + len ≤ 0x2000000) (htable : s.tableHit k addr len = false)
    (hlinks : s.linkHits k 1 arr addr len = []) : s.mayWrite k c m eng 1 arr addr len = (s, true) := by
  unfold State.mayWrite
  rw [if_neg (by omega), if_neg (by rw [htable]; simp; omega), if_neg (by omega), if_neg (by omega), hlinks]
  simp

/-- A write from outside the core into its store that meets no table and no link is placed whole (R392, R663). -/
theorem State.placeOutside_store {s : State} {k addr m0 : Nat} {bs : List Nat} (arr : Nat) (ctx : Option (Nat × Nat × Nat))
    (hfit : addr + m0 + bs.length ≤ 0x2000000) (htable : s.tableHit k (addr + m0) bs.length = false)
    (hlinks : s.linkHits k 1 arr (addr + m0) bs.length = []) : (s.placeOutside k 1 arr addr m0 bs ctx).1 = s.storeWrite k (addr + m0) bs := by
  have hmay : s.outsideMay k 1 arr (addr + m0) bs.length ctx = (s, true) := by
    unfold State.outsideMay
    rw [if_neg (by rw [htable]; simp; omega), if_neg (by omega), if_neg (by omega)]
  have hcount : s.receiveCount k 1 arr (addr + m0) bs.length bs.length = (s, bs.length) := by
    simp [State.receiveCount, hlinks]
  simp only [State.placeOutside, OfNat.one_ne_ofNat, if_false, hmay, Bool.not_true, Bool.false_eq_true, hcount, one_ne_zero, if_true,
    List.take_length]

theorem length_memRead (m : List Host.Cell) (a n : Nat) : (memRead m a n).length = n := by
  induction n generalizing a with
  | zero => rfl
  | succ n ih => simp [memRead, ih]

/-- The header block of a FETCH's first unit (R176). -/
theorem SDesc.srcRanges_header {d : SDesc} {base n : Nat} (hfmt : d.srcFormat ≠ fcBFP16) (h : d.place n = (0, 0, 0)) :
    d.srcRanges base n = [(base, 2048)] := by
  simp [SDesc.srcRanges, h, hfmt, SDesc.groupOff]

/-- A FETCH's header block into a core store, where nothing lies (R172, R184). -/
theorem State.fetchWrite_header {s : State} {k base n : Nat} {d : SDesc} {bs : List Nat} (c e : Nat) (hdst : d.dst = 1)
    (hfmt : d.srcFormat ≠ fcBFP16) (hplace : d.place n = (0, 0, 0)) (hlen : bs.length = 2048) (hfit : base + 2048 ≤ 0x2000000)
    (htable : s.tableHit k base 2048 = false) (hlinks : s.linkHits k 1 0 base 2048 = []) :
    s.fetchWrite k c e base d n bs = s.storeWrite k base bs := by
  have hranges : ({ d with src := d.dst } : SDesc).srcRanges base n = [(base, 2048)] := SDesc.srcRanges_header hfmt hplace
  have hmay := State.mayWrite_store c d.outLink e 0 hfit htable hlinks
  unfold State.fetchWrite
  dsimp only
  rw [hranges]
  simp only [List.foldl_cons, List.foldl_nil, if_true, hdst, hmay, Bool.not_true, Bool.false_eq_true, if_false, one_ne_zero]
  rw [List.take_of_length_le (by omega)]

/-- The read of a FETCH's header block from HBM, when its data is taken (R190). -/
theorem State.deliverUnit_header {s : State} {r : Read} (hkind : r.kind = 1) (hsrc : (sdesc r.desc).src = 0) (hdst : (sdesc r.desc).dst = 1)
    (hfmt : (sdesc r.desc).srcFormat ≠ fcBFP16) (hplace : (sdesc r.desc).place r.unit = (0, 0, 0)) (hfit : r.dstBase + 2048 ≤ 0x2000000)
    (htable : s.tableHit r.core r.dstBase 2048 = false) (hlinks : s.linkHits r.core 1 0 r.dstBase 2048 = []) :
    s.deliverUnit r = s.storeWrite r.core r.dstBase (s.hbmRead r.src 2048) := by
  have hbytes : s.unitBytes r.core (sdesc r.desc) r.src r.unit = s.hbmRead r.src 2048 := by
    simp [State.unitBytes, SDesc.srcRanges_header hfmt hplace, State.spaceRead, hsrc]
  unfold State.deliverUnit
  rw [if_pos hkind, hbytes]
  exact State.fetchWrite_header r.ctx r.engine hdst hfmt hplace (length_memRead ..) hfit htable hlinks

/-- A unit of no link, taken at its landing. -/
theorem State.landRead_header {s : State} {r : Read} (hkind : r.kind = 1) (hlink : r.link = 255) (hsrc : (sdesc r.desc).src = 0)
    (hdst : (sdesc r.desc).dst = 1) (hfmt : (sdesc r.desc).srcFormat ≠ fcBFP16) (hplace : (sdesc r.desc).place r.unit = (0, 0, 0))
    (hfit : r.dstBase + 2048 ≤ 0x2000000) (htable : s.tableHit r.core r.dstBase 2048 = false) (hlinks : s.linkHits r.core 1 0 r.dstBase 2048 = []) :
    s.landRead r = s.under r.core r.ctx r.instr fun u =>
      { u.storeWrite r.core r.dstBase (s.hbmRead r.src 2048) with reads := u.reads.filter fun q => q.id != r.id } := by
  unfold State.landRead State.under
  dsimp only
  rw [if_neg (by omega), if_neg (by simp [State.readChecksumBad, hkind])]
  rw [State.deliverUnit_header hkind hsrc hdst hfmt hplace hfit
    (by rw [State.tableHit_congr (State.map_modCtx ..)]; exact htable) (by rw [State.linkHits_congr (State.links_modCtx ..)]; exact hlinks),
    State.hbmRead_modCtx]
  unfold State.readDone
  rw [if_neg (by omega)]
  rfl

/-- The block's bytes at their place, and the read gone. -/
theorem State.landRead_header_spec {s : State} {r : Read} (hreads : s.reads = [r]) (hkind : r.kind = 1) (hlink : r.link = 255)
    (hsrc : (sdesc r.desc).src = 0) (hdst : (sdesc r.desc).dst = 1) (hfmt : (sdesc r.desc).srcFormat ≠ fcBFP16)
    (hplace : (sdesc r.desc).place r.unit = (0, 0, 0)) (hfit : r.dstBase + 2048 ≤ 0x2000000) (htable : s.tableHit r.core r.dstBase 2048 = false)
    (hlinks : s.linkHits r.core 1 0 r.dstBase 2048 = []) :
    (s.landRead r).reads = [] ∧ (s.landRead r).store = memWrite s.store (storeKey r.core r.dstBase) (s.hbmRead r.src 2048) ∧
      (s.landRead r).hbm = s.hbm ∧ (s.landRead r).lstore = s.lstore ∧ ∀ x, (s.landRead r).reg x = s.reg x := by
  have hgone : s.reads.filter (fun q => q.id != r.id) = [] := by simp [hreads]
  rw [State.landRead_header hkind hlink hsrc hdst hfmt hplace hfit htable hlinks]
  generalize s.hbmRead r.src 2048 = bytes
  exact ⟨hgone, rfl, rfl, rfl, fun _ => rfl⟩

/-- O10's clause on the landing of a header block. -/
theorem readsRun_lands (s : State) (r : Read) (d : SDesc) (hreads : s.reads = [r]) (hdesc : sdesc r.desc = d) (hkind : r.kind = 1) (hsrc : d.src = 0)
    (hdst : d.dst = 1) (hfmt : d.srcFormat ≠ fcBFP16) (hunit : r.unit = 0) (hlink : r.link = 255)
    (hfit : r.dstBase + 2048 ≤ 0x2000000) (htable : s.tableHit r.core r.dstBase 2048 = false) (hlinks : s.linkHits r.core 1 0 r.dstBase 2048 = [])
    (hgood : s.hbmBad r.src 2048 = false) (hplace : d.place 0 = (0, 0, 0)) :
    ∃ t : State, exec (.readLands r.id false) s = .next t ∧ t.reads = [] ∧
      t.store = memWrite s.store (storeKey r.core r.dstBase) (s.hbmRead r.src 2048) ∧ t.hbm = s.hbm ∧ t.lstore = s.lstore ∧
      (∀ a, a < storeKey r.core r.dstBase ∨ storeKey r.core r.dstBase + 2048 ≤ a → memGet t.store a = memGet s.store a) ∧
      SameRegsBut [rStraSharedBytes] s t := by
  subst hdesc
  replace hplace : (sdesc r.desc).place r.unit = (0, 0, 0) := hunit ▸ hplace
  have hrange : r.range = (r.src, 2048) := by
    unfold Read.range
    rw [if_neg (by omega), SDesc.srcRanges_header hfmt hplace]
    rfl
  have hfind : s.reads.find? (fun q => q.id == r.id) = some r := by simp [hreads]
  have hexec : exec (.readLands r.id false) s = .next (if r.landed then s.landRead r else (s.shared r.size).landRead r) := by
    show execReadLands r.id false s = _
    unfold execReadLands
    simp only [hfind, hrange, hgood, Bool.or_self, Bool.false_and, Bool.false_eq_true, if_false]
    have hcome : (s.shared r.size).dataCome r = (s.shared r.size).landRead r := if_pos (by omega)
    rw [hcome]
    split <;> rfl
  have houtside : ∀ a, a < storeKey r.core r.dstBase ∨ storeKey r.core r.dstBase + 2048 ≤ a →
      memGet (memWrite s.store (storeKey r.core r.dstBase) (s.hbmRead r.src 2048)) a = memGet s.store a := fun a ha => by
    have hlen : (s.hbmRead r.src 2048).length = 2048 := length_memRead ..
    rw [memGet_memWrite, hlen, if_neg (by omega)]
  by_cases hlanded : r.landed = true
  · obtain ⟨hr, hstore, hhbm, hlstore, hreg⟩ := State.landRead_header_spec hreads hkind hlink hsrc hdst hfmt hplace hfit htable hlinks
    rw [if_pos hlanded] at hexec
    exact ⟨_, hexec, hr, hstore, hhbm, hlstore, fun a ha => by rw [hstore, houtside a ha], fun x _ => hreg x⟩
  · have hshared : Leaves (· ∈ [rStraSharedBytes]) s (s.shared r.size) := .bump .refl (by simp)
    obtain ⟨hr, hstore, hhbm, hlstore, hreg⟩ := State.landRead_header_spec (s := s.shared r.size) hreads hkind hlink hsrc hdst hfmt hplace hfit
      ((State.tableHit_congr (by rfl) ..).trans htable) ((State.linkHits_congr (by rfl) ..).trans hlinks)
    rw [if_neg hlanded] at hexec
    exact ⟨_, hexec, hr, hstore, hhbm, hlstore, fun a ha => (congrArg (memGet · a) hstore).trans (houtside a ha),
      fun x hx => (hreg x).trans (hshared.reg x hx)⟩

/-- A transfer into one core is gone with its delivery (R386). -/
theorem execStratusTransferDelivery_of_one {s : State} {x : StraTransfer} {j : Nat} (hstra : s.stra = [x]) (hcores : x.cores = [j]) :
    exec (.stratusTransferDelivery x.id) s = .next (({ s with stra := [] } : State).straPlace x j) := by
  show execStratusTransferDelivery x.id s = _
  unfold execStratusTransferDelivery
  simp [hstra, hcores]

/-- The part of a transfer that goes into a core store (R386, R392). -/
theorem State.straPlace_store (s : State) {x : StraTransfer} (j : Nat) (hspace : x.space = 1) : s.straPlace x j =
    match x.tile with
    | some u => ((x.heads.foldl (fun s h => (s.placeOutside j x.space x.array x.off (x.group + 32 * h.1) h.2 (some (x.core, x.ctx, x.instr))).1)
        s).placeOutside j x.space x.array x.off (x.group + 2048 + u * tileBytes x.fmt) x.data (some (x.core, x.ctx, x.instr))).1
    | none => x.heads.foldl (fun s h => (s.placeOutside j x.space x.array x.off (x.group + 32 * h.1) h.2 (some (x.core, x.ctx, x.instr))).1) s := by
  unfold State.straPlace
  exact (if_neg (by omega)).trans ((if_neg (by omega)).trans (by cases x.tile <;> rfl))

/-- O10's clause on a tile's payload. -/
theorem readsRun_tile (s : State) (x : StraTransfer) (j u : Nat) (hstra : s.stra = [x]) (hcores : x.cores = [j]) (hspace : x.space = 1)
    (htile : x.tile = some u) (hhdrs : x.hdrs = []) (hfit : x.off + (x.group + 2048 + u * tileBytes x.fmt) + x.data.length ≤ 0x2000000)
    (htable : s.tableHit j (x.off + (x.group + 2048 + u * tileBytes x.fmt)) x.data.length = false)
    (hlinks : s.linkHits j 1 0 (x.off + (x.group + 2048 + u * tileBytes x.fmt)) x.data.length = []) :
    ∃ t : State, exec (.stratusTransferDelivery x.id) s = .next t ∧ t.stra = [] ∧
      t.store = memWrite s.store (storeKey j (x.off + (x.group + 2048 + u * tileBytes x.fmt))) x.data ∧
      t.hbm = s.hbm ∧ t.lstore = s.lstore ∧ SameRegsBut [] s t := by
  have hheads : x.heads = [] := by simp [StraTransfer.heads, htile, hhdrs]
  have hlinks' : s.linkHits j 1 x.array (x.off + (x.group + 2048 + u * tileBytes x.fmt)) x.data.length = [] := hlinks
  have hexec := execStratusTransferDelivery_of_one hstra hcores
  rw [State.straPlace_store _ j hspace, htile] at hexec
  simp only [hheads, List.foldl_nil, hspace] at hexec
  rw [State.placeOutside_store (s := { s with stra := [] }) x.array _ hfit htable hlinks'] at hexec
  exact ⟨_, hexec, rfl, rfl, rfl, rfl, fun _ _ => rfl⟩

/-- O10's clause on a header block. -/
theorem readsRun_headers (s : State) (x : StraTransfer) (j : Nat) (a b : List Nat) (hstra : s.stra = [x]) (hcores : x.cores = [j])
    (hspace : x.space = 1) (htile : x.tile = none) (hhdrs : x.hdrs = [a, b]) (ha : a.length = 32) (hb : b.length = 32)
    (hfit : x.off + x.group + 64 ≤ 0x2000000)
    (hclear : ∀ i ∈ [0, 32], s.tableHit j (x.off + (x.group + i)) 32 = false ∧ s.linkHits j 1 0 (x.off + (x.group + i)) 32 = []) :
    ∃ t : State, exec (.stratusTransferDelivery x.id) s = .next t ∧ t.stra = [] ∧
      t.store = memWrite (memWrite s.store (storeKey j (x.off + x.group)) a) (storeKey j (x.off + (x.group + 32))) b ∧
      t.hbm = s.hbm ∧ t.lstore = s.lstore ∧ SameRegsBut [] s t := by
  have hheads : x.heads = [(0, a), (1, b)] := by simp [StraTransfer.heads, htile, hhdrs, List.zipIdx]
  obtain ⟨htable0, hlinks0⟩ := hclear 0 (by simp)
  obtain ⟨htable1, hlinks1⟩ := hclear 32 (by simp)
  have hlinks0' : s.linkHits j 1 x.array (x.off + (x.group + 0)) 32 = [] := hlinks0
  have hlinks1' : s.linkHits j 1 x.array (x.off + (x.group + 32)) 32 = [] := hlinks1
  have hexec := execStratusTransferDelivery_of_one hstra hcores
  rw [State.straPlace_store _ j hspace, htile] at hexec
  simp only [hheads, List.foldl_cons, List.foldl_nil, hspace, Nat.mul_zero, Nat.mul_one] at hexec
  rw [State.placeOutside_store (s := { s with stra := [] }) x.array _ (by omega) (by rw [ha]; exact htable0) (by rw [ha]; exact hlinks0'),
    State.placeOutside_store (s := ({ s with stra := [] } : State).storeWrite j (x.off + (x.group + 0)) a) x.array _ (by omega)
      (by rw [hb]; exact htable1) (by rw [hb]; exact hlinks1')] at hexec
  exact ⟨_, hexec, rfl, rfl, rfl, rfl, fun _ _ => rfl⟩

/-- The read that an issue of a FETCH or FEED from HBM makes (R174, R189). -/
abbrev State.moveRead (s : State) (k e : Nat) (en : Engine) (d : SDesc) : Read :=
  { id := s.nextId, core := k, engine := e, ctx := en.ctx, instr := en.instr, link := d.outLink, half := (s.linkD k en.ctx d.linkOut).prodHalf,
    index := en.index, kind := d.kind, unit := en.issue,
    key := d.key (s.stepOf k) (d.place en.issue).1 (d.place en.issue).2.1 ((d.place en.issue).2.2 - 1), src := en.srcBase, issuedAt := s.cyc k,
    desc := en.desc, dstBase := s.dstBaseOf k en.ctx d (s.linkD k en.ctx d.linkOut).prodHalf, landed := false, supply := s.clk.cap,
    rekey := (d.srcRanges en.srcBase en.issue).any fun g => s.meetsLock (s.lowest k) g.1 g.2 }

/-- An issue from HBM, within bounds, from no link and from no accumulator still added to (R174, R189, R302). -/
theorem State.issueMove_hbm {s : State} {k e : Nat} {en : Engine} {d : SDesc} (hsrc : d.src = 0) (hbuf : d.srcBuf = false)
    (hgood : ∀ r ∈ d.srcRanges en.srcBase en.issue, s.inBounds (s.lowest k) r.1 r.2 = true ∧ s.accShut k r.1 r.2 = false) :
    s.issueMove k e en d = ({ s with nextId := s.nextId + 1, reads := s.reads ++ [s.moveRead k e en d] } : State).nextIssue k e (65 * d.panels)
      d.interval := by
  have hbounds : ((d.srcRanges en.srcBase en.issue).any fun r => if d.src = 0 then !s.inBounds (s.lowest k) r.1 r.2
      else decide (0x2000000 < r.1 + r.2)) = false := by
    rw [List.any_eq_false]
    intro r hr
    simp [hsrc, (hgood r hr).1]
  have hopen : ¬ (d.src = 0 ∧ ((d.srcRanges en.srcBase en.issue).any fun r => s.accShut k r.1 r.2) = true) := by
    rintro ⟨-, h⟩
    obtain ⟨r, hr, h⟩ := List.any_eq_true.mp h
    exact Bool.false_ne_true ((hgood r hr).2.symm.trans h)
  unfold State.issueMove
  dsimp only
  rw [hbounds, if_neg Bool.false_ne_true, if_neg hopen, hbuf]
  simp only [Bool.false_eq_true, if_false, hsrc, if_true]
  rfl

/-- An engine with an issue to come goes on to it INTERVAL cycles later (R174). -/
theorem State.nextIssue_of_more {s : State} {k e total interval : Nat} (h : (SMap.get (s.core k).engines e).issue + 1 < total) :
    s.nextIssue k e total interval = (s.modCore k fun co => { co with engines := SMap.mod co.engines e fun en =>
      { en with issue := en.issue + 1 } }).later k interval (.streamIssue k e false) := by
  unfold State.nextIssue
  exact if_pos h

/-- The issue of a FETCH or FEED, as an instruction of its context (R174). -/
theorem execStreamIssue_move {s : State} {k e : Nat} {en : Engine} (hen : SMap.get (s.core k).engines e = en) (hrun : en.running = true)
    (hkind : (sdesc en.desc).kind = 1 ∨ (sdesc en.desc).kind = 2) :
    exec (.streamIssue k e false) s = .next (s.under k en.ctx en.instr fun s => s.issueMove k e en (sdesc en.desc)) := by
  show execStreamIssue k e false s = _
  unfold execStreamIssue
  simp only [hen, hrun, Bool.not_true, Bool.false_eq_true, false_and, if_false]
  refine congrArg (fun f => Host.Outcome.next (s.under k en.ctx en.instr f)) (funext fun u => ?_)
  exact if_pos hkind

/-- O10's clause on an issue. -/
theorem readsRun_issue (s : State) (k e : Nat) (en : Engine) (d : SDesc) (hen : SMap.get (s.core k).engines e = en) (hdesc : sdesc en.desc = d)
    (hrun : en.running = true) (hkind : d.kind = 1 ∨ d.kind = 2) (hsrc : d.src = 0) (hsrcBuf : d.srcBuf = false) (hdstBuf : d.dstBuf = false)
    (hmore : en.issue + 1 < 65 * d.panels)
    (hgood : ∀ r ∈ d.srcRanges en.srcBase en.issue, s.inBounds (s.lowest k) r.1 r.2 = true ∧ s.accShut k r.1 r.2 = false) :
    ∃ (t : State) (r : Read), exec (.streamIssue k e false) s = .next t ∧ t.reads = s.reads ++ [r] ∧ r.core = k ∧ r.engine = e ∧ r.unit = en.issue ∧
      r.src = en.srcBase ∧ r.kind = d.kind ∧ r.link = 255 ∧ r.issuedAt = s.cyc k ∧ r.landed = false ∧
      (SMap.get (t.core k).engines e).issue = en.issue + 1 ∧
      t.agenda = s.agenda ++ [({ dom := some (s.lowest k), at_ := s.cyc k + d.interval, act := .cmd (.streamIssue k e false) } : Due)] ∧
      SameMem s t ∧ SameRegsBut [] s t := by
  subst hdesc
  let u := s.modCtx k en.ctx fun x => { x with cmdIndex := en.instr }
  let r := u.moveRead k e en (sdesc en.desc)
  let v : State := { u with nextId := u.nextId + 1, reads := u.reads ++ [r] }
  have hmove : u.issueMove k e en (sdesc en.desc) = v.nextIssue k e (65 * (sdesc en.desc).panels) (sdesc en.desc).interval :=
    State.issueMove_hbm hsrc hsrcBuf hgood
  have hengine : SMap.get (v.core k).engines e = en := (congrArg (SMap.get · e) (State.engines_modCtx s k en.ctx _ k)).trans hen
  have hnext := State.nextIssue_of_more (s := v) (interval := (sdesc en.desc).interval) (by rw [hengine]; exact hmore)
  have hexec := execStreamIssue_move hen hrun hkind
  have hunder : (s.under k en.ctx en.instr fun s => s.issueMove k e en (sdesc en.desc)) =
      (u.issueMove k e en (sdesc en.desc)).modCtx k en.ctx fun x => { x with cmdIndex := (s.ctx k en.ctx).cmdIndex } := rfl
  rw [hunder, hmove, hnext] at hexec
  have hleaves : Leaves (· ∈ ([] : List Nat)) s v := .upd (.modCtx .refl)
  have hlink : r.link = 255 := by simp [r, SDesc.outLink, hdstBuf]
  have hagenda : v.agenda = s.agenda := rfl
  have hreads : v.reads = s.reads ++ [r] := rfl
  have hcyc : v.cyc k = s.cyc k := rfl
  have hlowest : v.lowest k = s.lowest k := rfl
  have hrcyc : r.issuedAt = s.cyc k := rfl
  have hr : r.core = k ∧ r.engine = e ∧ r.unit = en.issue ∧ r.src = en.srcBase ∧ r.kind = (sdesc en.desc).kind ∧ r.landed = false :=
    ⟨rfl, rfl, rfl, rfl, rfl, rfl⟩
  obtain ⟨hrcore, hrengine, hrunit, hrsrc, hrkind, hrlanded⟩ := hr
  clear_value v r
  have hfinal := Leaves.modCtx (k := k) (c := en.ctx) (f := fun x => { x with cmdIndex := (s.ctx k en.ctx).cmdIndex })
    (.later (j := k) (d := (sdesc en.desc).interval) (i := .streamIssue k e false) (.modCore (k := k) (f := fun co =>
      { co with engines := SMap.mod co.engines e fun en => { en with issue := en.issue + 1 } }) hleaves))
  refine ⟨_, r, hexec, hreads, hrcore, hrengine, hrunit, hrsrc, hrkind, hlink, hrcyc, hrlanded, ?_, ?_, hfinal.sameMem, hfinal.sameRegsBut⟩
  · rw [State.engines_modCtx, State.core_later, State.core_modCore_same]
    simp [hengine]
  · rw [State.modCtx_agenda, ← hagenda, ← hlowest, ← hcyc]
    rfl

/-- Settles O10. -/
theorem readsRun : Obligations.ReadsRun :=
  ⟨readsRun_issue, fun s r d hreads hdesc hkind hsrc hdst _ => readsRun_lands s r d hreads hdesc hkind hsrc hdst, readsRun_tile, readsRun_headers⟩

end Sys2Proof.Machine
end

section
/-! PROOF. Re-arm points and the releases of links (R183–R186, R192, R197–R199). -/
namespace Sys2Proof.Machine

/-- The partition of a core, by its lowest core, is one of the four. -/
theorem State.lowest_lt (s : State) {j : Nat} (hj : j < 4) : s.lowest j < 4 := by
  unfold State.lowest
  cases h : s.partOf j with
  | none => exact hj
  | some k => exact List.mem_range.mp (List.mem_of_find?_eq_some h)

/-- Where ZEN_PART is as before, so are the bounds of a partition. -/
theorem Leaves.inBounds {P : Nat → Prop} {s t : State} (h : Leaves P s t) {k : Nat} (hz : ¬ P (rZenPart k)) (a n : Nat) :
    t.inBounds k a n = s.inBounds k a n := by
  simp only [State.inBounds, State.partCores, h.fld hz]

theorem rZenPart_ne_rStrPsArm {j k p : Nat} (hj : j < 4) : rZenPart j ≠ rStrPsArm k p := by simp only [rZenPart, rStrPsArm]; omega

/-- The bounds of a slot's stream after STR_PS_ARM is written (R198). -/
theorem State.slotInBounds_setFld_arm (s : State) {k : Nat} (hk : k < 4) (i hi lo v p src dst : Nat) :
    (s.setFld (rStrPsArm k i) hi lo v).slotInBounds k p src dst = s.slotInBounds k p src dst := by
  have h : Leaves (· ∈ [rStrPsArm k i]) s (s.setFld (rStrPsArm k i) hi lo v) := .setFld .refl (by simp)
  have hlow : (s.setFld (rStrPsArm k i) hi lo v).lowest k = s.lowest k :=
    h.lowest (fun j hj => by simpa using rZenPart_ne_rStrPsArm hj) k
  have hbounds := h.inBounds (k := s.lowest k) (by simpa using rZenPart_ne_rStrPsArm (s.lowest_lt hk))
  have hdescs : (s.setFld (rStrPsArm k i) hi lo v).slotDescs k p = s.slotDescs k p := rfl
  have hextent : (s.setFld (rStrPsArm k i) hi lo v).extent = s.extent := rfl
  simp only [State.slotInBounds, hdescs, hextent, State.spaceBounds, hlow, hbounds]

/-- A slot that is due at a re-arm point and idle, no write of this cycle having reached its STR_PS_ARM (R197, R199). -/
theorem State.rearmSlot_of_due {s : State} {k c : Nat} (hk : k < 4) {p src dst : Nat} (hseen : s.armSeen k p = none)
    (harmed : getF (s.reg (rStrPsArm k p)) 63 63 = 1) (hdue : getF (s.reg (rStrPsArm k p)) 55 0 ≤ s.beat) (hidle : s.slotBusy k p = false)
    (hsrc : s.fld (rStrPsSrc k p) 39 0 = src) (hdst : s.fld (rStrPsDst k p) 39 0 = dst) (hbounds : s.slotInBounds k p src dst = true) :
    s.rearmSlot k c p = ((s.setFld (rStrPsArm k p) 63 63 0).setFld (rStrPsArm k p) 62 62 1).modCore k fun co =>
      { co with active := SMap.set co.active p (src, dst) } := by
  have hbounds' := (s.slotInBounds_setFld_arm hk p 63 63 0 p src dst).trans hbounds
  unfold State.rearmSlot
  simp only [hseen, Option.getD_none, harmed, hdue, hidle, Bool.not_false, true_and, and_self, if_true, hsrc, hdst, Option.isSome_none,
    Bool.false_eq_true, if_false, hbounds']

/-- A slot whose STR_PS_ARM a write of this cycle has reached goes by the word before (R199). -/
theorem State.rearmSlot_of_seen {s : State} {k c : Nat} {w : Word} {p src dst : Nat} (hseen : s.armSeen k p = some w) (harmed : getF w 63 63 = 1)
    (hdue : getF w 55 0 ≤ s.beat) (hidle : s.slotBusy k p = false) (hsrc : s.fld (rStrPsSrc k p) 39 0 = src)
    (hdst : s.fld (rStrPsDst k p) 39 0 = dst) (hbounds : s.slotInBounds k p src dst = true) :
    s.rearmSlot k c p = s.modCore k fun co => { co with active := SMap.set co.active p (src, dst) } := by
  unfold State.rearmSlot
  simp only [hseen, Option.getD_some, harmed, hdue, hidle, Bool.not_false, true_and, and_self, if_true, hsrc, hdst, Option.isSome_some, hbounds]

/-- A slot that is not armed keeps its bases (R197). -/
theorem State.rearmSlot_of_unarmed {s : State} {k c p : Nat} (hseen : s.armSeen k p = none) (h : s.fld (rStrPsArm k p) 63 63 = 0) :
    s.rearmSlot k c p = s := by
  have hword : getF (s.reg (rStrPsArm k p)) 63 63 = 0 := h
  unfold State.rearmSlot
  simp [hseen, hword]

/-- A re-arm point at which slot 0 alone is armed does what slot 0 does (R197). -/
theorem execRearm_of_slot0 {s t : State} {k c : Nat} (h0 : s.rearmSlot k c 0 = t)
    (hothers : ∀ p, p < 64 → p ≠ 0 → t.fld (rStrPsArm k p) 63 63 = 0 ∧ t.armSeen k p = none) : exec (.rearm k c) s = .next t := by
  have hrest : ∀ l : List Nat, (∀ p ∈ l, t.rearmSlot k c p = t) → l.foldl (fun s p => s.rearmSlot k c p) t = t := by
    intro l
    induction l with
    | nil => exact fun _ => rfl
    | cons p l ih =>
      intro h
      rw [List.foldl_cons, h p List.mem_cons_self]
      exact ih fun q hq => h q (List.mem_cons_of_mem p hq)
  have hfold : (List.range 64).foldl (fun s p => s.rearmSlot k c p) s = t := by
    rw [List.range_succ_eq_map, List.foldl_cons, h0]
    refine hrest _ fun p hp => ?_
    obtain ⟨q, hq, rfl⟩ := List.mem_map.mp hp
    obtain ⟨hfld, hseen⟩ := hothers (q + 1) (by have := List.mem_range.mp hq; omega) (by omega)
    exact State.rearmSlot_of_unarmed hseen hfld
  exact congrArg Host.Outcome.next hfold

/-- What a write of the active bases leaves of a core. -/
theorem State.armSeen_modCore_active (s : State) (k : Nat) (m : SMap (Nat × Nat) → SMap (Nat × Nat)) (q : Nat) :
    (s.modCore k fun co => { co with active := m co.active }).armSeen k q = s.armSeen k q := by
  unfold State.armSeen
  rw [State.core_modCore_same]
  rfl

theorem State.getF_reg (s : State) (r hi lo : Nat) : getF (s.reg r) hi lo = s.fld r hi lo := rfl

/-- O11's clause on a re-arm point. -/
theorem basesAndHalves_rearm (s : State) (k c : Nat) (w : Word) (hk : k < 4) (hidle : s.slotBusy k 0 = false)
    (hbounds : s.slotInBounds k 0 (s.fld (rStrPsSrc k 0) 39 0) (s.fld (rStrPsDst k 0) 39 0) = true) (harmed : getF w 63 63 = 1)
    (hdue : getF w 55 0 ≤ s.beat) (hothers : ∀ p, p < 64 → p ≠ 0 → s.fld (rStrPsArm k p) 63 63 = 0 ∧ s.armSeen k p = none) :
    (s.reg (rStrPsArm k 0) = w → s.armSeen k 0 = none →
      ∃ t : State, exec (.rearm k c) s = .next t ∧ t.fld (rStrPsArm k 0) 63 63 = 0 ∧ t.fld (rStrPsArm k 0) 62 62 = 1 ∧
        SMap.get (t.core k).active 0 = (s.fld (rStrPsSrc k 0) 39 0, s.fld (rStrPsDst k 0) 39 0) ∧ SameMem s t ∧
        SameRegsBut [rStrPsArm k 0] s t) ∧
    (s.armSeen k 0 = some w →
      ∃ t : State, exec (.rearm k c) s = .next t ∧
        SMap.get (t.core k).active 0 = (s.fld (rStrPsSrc k 0) 39 0, s.fld (rStrPsDst k 0) 39 0) ∧ SameMem s t ∧ SameRegsBut [] s t) := by
  have harm : ∀ p, p ≠ 0 → rStrPsArm k p ≠ rStrPsArm k 0 := fun p hp => by simp only [rStrPsArm]; omega
  refine ⟨fun hw hseen => ?_, fun hseen => ?_⟩
  · subst hw
    have h0 := State.rearmSlot_of_due (c := c) hk hseen harmed hdue hidle rfl rfl hbounds
    have hleaves : Leaves (· ∈ [rStrPsArm k 0]) s (((s.setFld (rStrPsArm k 0) 63 63 0).setFld (rStrPsArm k 0) 62 62 1).modCore k fun co =>
      { co with active := SMap.set co.active 0 (s.fld (rStrPsSrc k 0) 39 0, s.fld (rStrPsDst k 0) 39 0) }) :=
      .modCore (.setFld (.setFld .refl (by simp)) (by simp))
    have hexec := execRearm_of_slot0 h0 fun p hp hp0 => by
      rw [State.armSeen_modCore_active _ k fun m => SMap.set m 0 _]
      exact ⟨(hleaves.fld (by simpa using harm p hp0) 63 63).trans (hothers p hp hp0).1, (hothers p hp hp0).2⟩
    refine ⟨_, hexec, ?_, ?_, by rw [State.core_modCore_same]; exact SMap.get_set_same .., hleaves.sameMem, hleaves.sameRegsBut⟩
    · rw [State.fld_modCore, State.fld_setFld_disjoint _ _ _ _ _ _ _ (by omega) (by omega) (by omega) (by omega),
        State.fld_setFld_same _ _ _ _ _ (by omega) (by omega), Nat.zero_mod]
    · rw [State.fld_modCore, State.fld_setFld_same _ _ _ _ _ (by omega) (by omega)]
      rfl
  · have h0 := State.rearmSlot_of_seen (c := c) hseen harmed hdue hidle rfl rfl hbounds
    have hleaves : Leaves (· ∈ ([] : List Nat)) s (s.modCore k fun co =>
      { co with active := SMap.set co.active 0 (s.fld (rStrPsSrc k 0) 39 0, s.fld (rStrPsDst k 0) 39 0) }) := .modCore .refl
    have hexec := execRearm_of_slot0 h0 fun p hp hp0 => by
      rw [State.armSeen_modCore_active _ k fun m => SMap.set m 0 _]
      exact hothers p hp hp0
    exact ⟨_, hexec, by rw [State.core_modCore_same]; exact SMap.get_set_same .., hleaves.sameMem, hleaves.sameRegsBut⟩

/-- A side's pointers after its release of a half of a link of two (R183). -/
def LinkDyn.released (consumer : Bool) (d : LinkDyn) : LinkDyn :=
  if consumer then { d with consHolds := false, consHalf := 1 - d.consHalf, emptySoon := d.emptySoon + 1 }
  else { d with prodHolds := false, prodHalf := 1 - d.prodHalf, fullSoon := d.fullSoon + 1, pendingRelease := false }

@[simp] theorem State.linkD_modLink (s : State) (k c m : Nat) (f : LinkDyn → LinkDyn) : (s.modLink k c m f).linkD k c m = f (s.linkD k c m) := by
  simp [State.linkD, State.modLink]

/-- A release that raises no semaphore above the halves, in a partition in no Lull (R183, R185, R186). -/
theorem State.applyRelease_of_room {s : State} {k c m : Nat} (consumer : Bool) (hlull : (s.part (s.lowest k)).lull = [])
    (hhalves : (s.link k c m).halves = 2) (hroom : s.semVal k c (if consumer then 2 * m + 1 else 2 * m) +
      (if consumer then (s.linkD k c m).emptySoon else (s.linkD k c m).fullSoon) + 1 ≤ 2) :
    s.applyRelease k c m consumer =
      (let t := (s.modLink k c m (LinkDyn.released consumer)).after (some (s.lowest k)) 2 (.releaseVisible k c m consumer)
       if (s.link k c m).consumer = 0x0B then t.after (some (s.lowest k)) 2 (.sendHalf k c m) else t) := by
  have hlink : ∀ f, ((s.modLink k c m f).link k c m) = s.link k c m := fun f => by simp [State.link, State.modLink]
  unfold State.applyRelease
  dsimp only
  rw [if_neg (by omega)]
  simp only [hlull, hhalves, List.any_nil, Bool.or_self, Bool.false_eq_true, if_false, beq_self_eq_true, if_true]
  have hafter : ((s.modLink k c m (LinkDyn.released consumer)).after (some (s.lowest k)) 2 (.releaseVisible k c m consumer)).link k c m =
      s.link k c m := hlink _
  rw [← hafter]
  rfl

/-- What the release leaves behind. -/
theorem State.applyRelease_spec {s : State} {k c m : Nat} (consumer : Bool) (hlull : (s.part (s.lowest k)).lull = [])
    (hhalves : (s.link k c m).halves = 2) (hroom : s.semVal k c (if consumer then 2 * m + 1 else 2 * m) +
      (if consumer then (s.linkD k c m).emptySoon else (s.linkD k c m).fullSoon) + 1 ≤ 2) :
    (s.applyRelease k c m consumer).linkD k c m = LinkDyn.released consumer (s.linkD k c m) ∧
      (s.applyRelease k c m consumer).agenda = s.agenda ++
        ({ dom := some (s.lowest k), at_ := (s.part (s.lowest k)).seqCycle + 2, act := .releaseVisible k c m consumer } : Due) ::
          (if (s.link k c m).consumer = 0x0B then
            [({ dom := some (s.lowest k), at_ := (s.part (s.lowest k)).seqCycle + 2, act := .sendHalf k c m } : Due)] else []) ∧
      Leaves (· ∈ ([] : List Nat)) s (s.applyRelease k c m consumer) := by
  have hlinkD := s.linkD_modLink k c m (LinkDyn.released consumer)
  have hleaves : Leaves (· ∈ ([] : List Nat)) s (s.modLink k c m (LinkDyn.released consumer)) := .modCore .refl
  rw [State.applyRelease_of_room consumer hlull hhalves hroom]
  by_cases hsend : (s.link k c m).consumer = 0x0B
  · rw [if_pos hsend, if_pos hsend]
    exact ⟨hlinkD, List.append_assoc .., .after (.after hleaves)⟩
  · rw [if_neg hsend, if_neg hsend]
    exact ⟨hlinkD, rfl, .after hleaves⟩

theorem State.applyRelease_of_full {s : State} {k c m : Nat} (consumer : Bool)
    (h : (s.link k c m).halves < s.semVal k c (if consumer then 2 * m + 1 else 2 * m) +
      (if consumer then (s.linkD k c m).emptySoon else (s.linkD k c m).fullSoon) + 1) :
    s.applyRelease k c m consumer = s.linkFault k c (if consumer then 2 * m + 1 else 2 * m) 0x02 1 := by
  unfold State.applyRelease
  exact if_pos h

/-- A producer's release with no read into its half in flight and no write held back (R192). -/
theorem State.releaseProd_of_clear {s : State} {k c m : Nat} (hreads : s.lateReads k c m = []) (hheld : s.heldInHalf k c m = false) :
    s.releaseProd k c m = s.applyRelease k c m false := by
  unfold State.releaseProd
  rw [hreads, hheld]

/-- A request of a Lull leaves the partition in one (R333). -/
theorem State.lull_askLull (s : State) (k : Nat) (r : LullReq) : ((s.askLull k r).part k).lull ≠ [] := by
  unfold State.askLull
  rw [State.part_modPart_same]
  generalize State.part _ k = p
  split
  next h => exact fun he => by simp [he] at h
  next h => exact List.append_ne_nil_of_right_ne_nil _ (List.cons_ne_nil _ _)

theorem State.lull_askStage (s : State) (j stage cause tag : Nat) : ((s.askStage j stage cause tag).part (s.lowest j)).lull ≠ [] := by
  unfold State.askStage
  dsimp only
  split
  next h => exact fun he => by simp [he] at h
  next h => exact (s.lull_askLull _ _)

/-- A request of a stage changes no core. -/
theorem State.cores_askStage (s : State) (j stage cause tag : Nat) : (s.askStage j stage cause tag).cores = s.cores := by
  have htrace : ∀ (t : State) a b c, (t.traceRec a b c).cores = t.cores := fun t a b c => by
    unfold State.traceRec
    dsimp only
    repeat' split
    all_goals rfl
  unfold State.askStage
  dsimp only
  split
  · rfl
  · rw [State.bump_cores]
    unfold State.askLull
    rw [State.modPart_cores]
    split
    · exact htrace ..
    · rfl

/-- A producer's release waits with a Lull while something still goes into its half (R192, R480). -/
theorem State.releaseProd_of_waiting {s : State} {k c m : Nat} (h : s.lateReads k c m ≠ [] ∨ s.heldInHalf k c m = true) :
    ∃ stage cause, s.releaseProd k c m = (s.modLink k c m fun d => { d with pendingRelease := true }).askStage k stage cause (lateTag c m) := by
  unfold State.releaseProd
  cases hreads : s.lateReads k c m with
  | nil =>
    rw [h.resolve_left fun hne => hne hreads]
    exact ⟨6, 6, rfl⟩
  | cons r l =>
    cases s.heldInHalf k c m
    · exact ⟨_, _, rfl⟩
    · exact ⟨_, _, rfl⟩

/-- Settles O11. -/
theorem basesAndHalves : Obligations.BasesAndHalves := by
  unfold Obligations.BasesAndHalves
  refine ⟨basesAndHalves_rearm, fun s k c m hlull hhalves => ⟨fun hroom => ?_, fun hroom hreads hheld => ?_⟩,
    fun s k c m hfull => congrArg Host.Outcome.next (State.applyRelease_of_full true hfull),
    fun s k c m hreads hheld hfull => congrArg Host.Outcome.next
      ((State.releaseProd_of_clear hreads hheld).trans (State.applyRelease_of_full false hfull)),
    fun s k c m hwait => ?_⟩
  · obtain ⟨hlinkD, hagenda, hleaves⟩ := State.applyRelease_spec true hlull hhalves hroom
    exact ⟨s.applyRelease k c m true, rfl, by rw [hlinkD]; rfl, by rw [hlinkD]; rfl, by rw [hlinkD]; rfl, hagenda, hleaves.sameMem, hleaves.sameRegsBut⟩
  · obtain ⟨hlinkD, hagenda, hleaves⟩ := State.applyRelease_spec false hlull hhalves hroom
    have hexec : exec (.release k c m false) s = .next (s.applyRelease k c m false) :=
      congrArg Host.Outcome.next (State.releaseProd_of_clear hreads hheld)
    exact ⟨_, hexec, by rw [hlinkD]; rfl, by rw [hlinkD]; rfl, by rw [hlinkD]; rfl, hagenda, hleaves.sameMem, hleaves.sameRegsBut⟩
  · obtain ⟨stage, cause, hwaits⟩ := State.releaseProd_of_waiting hwait
    have hexec : exec (.release k c m false) s = _ := congrArg Host.Outcome.next hwaits
    have hleaves : Leaves (fun _ => True) s (s.modLink k c m fun d => { d with pendingRelease := true }) := .modCore .refl
    have hlinkD := s.linkD_modLink k c m fun d => { d with pendingRelease := true }
    have hlowest : (s.modLink k c m fun d => { d with pendingRelease := true }).lowest k = s.lowest k := rfl
    generalize (s.modLink k c m fun d => { d with pendingRelease := true }) = u at *
    refine ⟨_, hexec, ?_, hlowest ▸ u.lull_askStage k stage cause (lateTag c m),
      (hleaves.next (.askStage u k stage cause (lateTag c m)) fun _ _ => trivial).sameMem⟩
    unfold State.linkD State.core at hlinkD ⊢
    rw [State.cores_askStage, hlinkD]

end Sys2Proof.Machine
end

section
/-! PROOF. Panel products: issue, tiles, halves and the companion adder (R49–R55, R84, R85, R151, R158–R161, R208, R481–R483). -/
namespace Sys2Proof.Machine

/-- Instructions to come at several cycles of a core's sequencer. -/
theorem State.agenda_foldl_later {α : Type} (j : Nat) (d : α → Nat) (i : α → Instr) (l : List α) :
    ∀ s : State, (l.foldl (fun s x => s.later j (d x) (i x)) s).agenda =
      s.agenda ++ l.map fun x => { dom := some (s.lowest j), at_ := s.cyc j + d x, act := .cmd (i x) } := by
  induction l with
  | nil => exact fun s => (List.append_nil _).symm
  | cons x l ih =>
    intro s
    have hagenda : (s.later j (d x) (i x)).agenda = s.agenda ++ [{ dom := some (s.lowest j), at_ := s.cyc j + d x, act := .cmd (i x) }] := rfl
    have hlowest : (s.later j (d x) (i x)).lowest j = s.lowest j := rfl
    have hcyc : (s.later j (d x) (i x)).cyc j = s.cyc j := rfl
    rw [List.foldl_cons, ih, hagenda, hlowest, hcyc, List.append_assoc]
    rfl

theorem State.arr_foldl_later {α : Type} (j A : Nat) (d : α → Nat) (i : α → Instr) (l : List α) (s : State) :
    (l.foldl (fun s x => s.later j (d x) (i x)) s).arr A = s.arr A :=
  foldl_keeps (f := fun s x => s.later j (d x) (i x)) (·.arr A) (fun _ _ => rfl) l s

/-- The tiles, or the tile columns, that a product brings (R52, R151, R160). -/
def State.scheduleTiles (s : State) (k a id c : Nat) (p : ProductArgs) : State :=
  if s.toCompanion k a p then
    (List.range 8).foldl (fun s t => s.later k ((1152 + 128 * t) * c + 30) (.dwTileColumnAdded (4 * k + a) id t false))
      (s.after (some (s.lowest k)) (1152 * c + 14) (.beginAdd (4 * k + a) id))
  else (List.range 8).foldl (fun s t => s.later k ((1152 + 128 * t) * c + 14) (.tileQueueEntry (4 * k + a) id t)) s

theorem State.agenda_scheduleTiles (s : State) (k a id c : Nat) (p : ProductArgs) : (s.scheduleTiles k a id c p).agenda = s.agenda ++
    if s.toCompanion k a p then
      ({ dom := some (s.lowest k), at_ := s.cyc k + (1152 * c + 14), act := .beginAdd (4 * k + a) id } : Due) ::
        (List.range 8).map fun t => { dom := some (s.lowest k), at_ := s.cyc k + ((1152 + 128 * t) * c + 30),
                                      act := .cmd (.dwTileColumnAdded (4 * k + a) id t false) }
    else (List.range 8).map fun t => { dom := some (s.lowest k), at_ := s.cyc k + ((1152 + 128 * t) * c + 14),
                                       act := .cmd (.tileQueueEntry (4 * k + a) id t) } := by
  unfold State.scheduleTiles
  split
  · refine (State.agenda_foldl_later k (fun t => (1152 + 128 * t) * c + 30) (fun t => .dwTileColumnAdded (4 * k + a) id t false) _ _).trans ?_
    exact List.append_assoc s.agenda [_] _
  · exact State.agenda_foldl_later k (fun t => (1152 + 128 * t) * c + 14) (fun t => .tileQueueEntry (4 * k + a) id t) _ s

theorem State.arr_scheduleTiles (s : State) (k a id c : Nat) (p : ProductArgs) (A : Nat) : (s.scheduleTiles k a id c p).arr A = s.arr A := by
  unfold State.scheduleTiles
  split
  · exact State.arr_foldl_later k A _ _ _ _
  · exact State.arr_foldl_later k A _ _ _ _

theorem Leaves.scheduleTiles {P : Nat → Prop} {s t : State} (h : Leaves P s t) (k a id c : Nat) (p : ProductArgs) :
    Leaves P s (t.scheduleTiles k a id c p) := .ite (.foldl (fun _ _ _ h => .later h) (.after h)) (.foldl (fun _ _ _ h => .later h) h)

theorem State.lowest_scheduleTiles (s : State) (k a id c : Nat) (p : ProductArgs) (j : Nat) : (s.scheduleTiles k a id c p).lowest j = s.lowest j :=
  Leaves.lowest (P := fun _ => False) (.scheduleTiles .refl k a id c p) (fun _ _ h => h.elim) j

theorem State.part_scheduleTiles (s : State) (k a id c : Nat) (p : ProductArgs) (j : Nat) : (s.scheduleTiles k a id c p).part j = s.part j := by
  unfold State.scheduleTiles
  split
  · exact foldl_keeps (f := fun s t => s.later k ((1152 + 128 * t) * c + 30) (.dwTileColumnAdded (4 * k + a) id t false)) (·.part j)
      (fun _ _ => rfl) _ _
  · exact foldl_keeps (f := fun s t => s.later k ((1152 + 128 * t) * c + 14) (.tileQueueEntry (4 * k + a) id t)) (·.part j) (fun _ _ => rfl) _ s

/-- The release of the half that a product reads, its digit slots at a local store, and its feeder slots (R55, R61, R180). -/
def State.scheduleReads (s : State) (k a id c : Nat) (p : ProductArgs) : State :=
  let A := 4 * k + a
  let st := s.serialStored k a p
  let s := if st then s else s.later k (1024 * c) (.ringHalfRelease A (s.arr A).readHalf)
  let s := if p.psrc && !st then s else s.after (some (s.lowest k)) 0 (.operandSlot A id 0)
  if p.psrc then s.after (some (s.lowest k)) 0 (.feederSlot A id 0) else s

theorem State.scheduleProduct_eq (s : State) (k a id c : Nat) (p : ProductArgs) :
    s.scheduleProduct k a id c p = (s.scheduleTiles k a id c p).scheduleReads k a id c p := rfl

theorem State.scheduleReads_spec (s : State) (k a id c : Nat) (p : ProductArgs) :
    (s.scheduleReads k a id c p).agenda = s.agenda ++
        (if s.serialStored k a p then [] else
          [{ dom := some (s.lowest k), at_ := s.cyc k + 1024 * c, act := .cmd (.ringHalfRelease (4 * k + a) (s.arr (4 * k + a)).readHalf) }]) ++
        (if p.psrc && !s.serialStored k a p then [] else [{ dom := some (s.lowest k), at_ := s.cyc k + 0, act := .operandSlot (4 * k + a) id 0 }]) ++
        (if p.psrc then [{ dom := some (s.lowest k), at_ := s.cyc k + 0, act := .feederSlot (4 * k + a) id 0 }] else []) ∧
      (∀ A, (s.scheduleReads k a id c p).arr A = s.arr A) ∧ Leaves (· ∈ ([] : List Nat)) s (s.scheduleReads k a id c p) := by
  unfold State.scheduleReads
  cases p.psrc <;> cases s.serialStored k a p
  · exact ⟨(List.append_nil _).symm, fun _ => rfl, .after (.later .refl)⟩
  · exact ⟨by simp; rfl, fun _ => rfl, .after .refl⟩
  · exact ⟨congrArg (· ++ [_]) (List.append_nil _).symm, fun _ => rfl, .after (.later .refl)⟩
  · exact ⟨congrArg (· ++ [_] ++ [_]) (List.append_nil _).symm, fun _ => rfl, .after (.after .refl)⟩

/-- What scheduling a product leaves and what it adds to the agenda (R52, R55, R61, R160, R180). -/
theorem State.scheduleProduct_spec (s : State) (k a id c : Nat) (p : ProductArgs) :
    (s.scheduleProduct k a id c p).agenda = (s.scheduleTiles k a id c p).agenda ++
        (if s.serialStored k a p then [] else
          [{ dom := some (s.lowest k), at_ := s.cyc k + 1024 * c, act := .cmd (.ringHalfRelease (4 * k + a) (s.arr (4 * k + a)).readHalf) }]) ++
        (if p.psrc && !s.serialStored k a p then [] else [{ dom := some (s.lowest k), at_ := s.cyc k + 0, act := .operandSlot (4 * k + a) id 0 }]) ++
        (if p.psrc then [{ dom := some (s.lowest k), at_ := s.cyc k + 0, act := .feederSlot (4 * k + a) id 0 }] else []) ∧
      (∀ A, (s.scheduleProduct k a id c p).arr A = s.arr A) ∧ Leaves (· ∈ ([] : List Nat)) s (s.scheduleProduct k a id c p) := by
  have htiles : Leaves (· ∈ ([] : List Nat)) s (s.scheduleTiles k a id c p) := .scheduleTiles .refl k a id c p
  have hlowest := s.lowest_scheduleTiles k a id c p k
  have hcyc : (s.scheduleTiles k a id c p).cyc k = s.cyc k := by
    unfold State.cyc
    rw [hlowest, State.part_scheduleTiles]
  have hstored : (s.scheduleTiles k a id c p).serialStored k a p = s.serialStored k a p := by
    unfold State.serialStored State.fused State.fusionOf
    rw [htiles.fld (by simp)]
  obtain ⟨hagenda, harr, hleaves⟩ := (s.scheduleTiles k a id c p).scheduleReads_spec k a id c p
  rw [hstored, hlowest, hcyc, State.arr_scheduleTiles] at hagenda
  rw [State.scheduleProduct_eq]
  exact ⟨hagenda, fun A => (harr A).trans (s.arr_scheduleTiles k a id c p A), htiles.trans hleaves⟩

/-- The product that PRODUCT puts in flight (R55). -/
abbrev State.newProduct (s : State) (k c a : Nat) (p : ProductArgs) (par ser : Panel) : Product :=
  { id := s.nextId, core := k, ctx := c, instr := (s.ctx k c).cmdIndex, issuedAt := s.cyc k, c := cyclesOf p.sfmt, colSkew := p.colSkew,
    outBf16 := p.outBf16, cont := p.cont, cstart := p.cstart, matrix := p.matrix, panel := p.panel, key := p.key, feeder := p.psrc,
    pairs := pairsBefore s (4 * k + a) p ++ [{ prod := s.nextId, par := par, ser := ser, colSkew := p.colSkew }],
    abandoned := s.isContinued k c a }

/-- The array as PRODUCT leaves it: its predecessor, when continued, held back, and the product in flight (R55, R151). -/
abbrev State.productArray (s : State) (k c a : Nat) (p : ProductArgs) (par ser : Panel) : ArrayDyn → ArrayDyn := fun x =>
  { x with prods := x.prods ++ [s.newProduct k c a p par ser], last := some (s.newProduct k c a p par ser),
           fwdHalf := if s.serialStored k a p then x.fwdHalf else x.readHalf }

/-- The state with the predecessor of a continued product held back (R55). -/
def State.heldBack (s : State) (A : Nat) (p : ProductArgs) : State :=
  match p.cont, (s.arr A).last with
  | true, some q => s.modProd A q.id fun x => { x with abandoned := true }
  | _, _ => s

/-- What holding back the predecessor changes, and what it leaves. -/
theorem State.heldBack_spec (s : State) (A : Nat) (p : ProductArgs) :
    ((s.heldBack A p).arr A).prods = prodsBefore s A p ∧ ((s.heldBack A p).arr A).fwdHalf = (s.arr A).fwdHalf ∧
      ((s.heldBack A p).arr A).readHalf = (s.arr A).readHalf ∧ ∃ m, s.heldBack A p = { s with arrays := m } := by
  unfold State.heldBack prodsBefore
  cases p.cont with
  | false => exact ⟨rfl, rfl, rfl, s.arrays, rfl⟩
  | true =>
    cases (s.arr A).last with
    | none => exact ⟨rfl, rfl, rfl, s.arrays, rfl⟩
    | some q => exact ⟨by simp [State.modProd], by simp [State.modProd], by simp [State.modProd], _, rfl⟩

/-- The operands that a continued product leaves to the next (R55). -/
theorem pairsBefore_eq (s : State) (A : Nat) (p : ProductArgs) :
    (if p.cont then (match (s.arr A).last with | some q => q.pairs | none => []) else []) = pairsBefore s A p := by
  unfold pairsBefore
  cases p.cont with
  | false => rfl
  | true => cases (s.arr A).last <;> rfl

theorem State.putProduct_eq (s : State) (k c a : Nat) (p : ProductArgs) (par ser : Panel) :
    s.putProduct k c a (cyclesOf p.sfmt) p par ser =
      ((({ s with nextId := s.nextId + 1 } : State).heldBack (4 * k + a) p).modArr (4 * k + a) (s.productArray k c a p par ser)).scheduleProduct k a
        s.nextId (cyclesOf p.sfmt) p := by
  have hlast : (State.arr ({ s with nextId := s.nextId + 1 } : State) (4 * k + a)).last = (s.arr (4 * k + a)).last := rfl
  have hlast' : (s.fresh.2.arr (4 * k + a)).last = (s.arr (4 * k + a)).last := rfl
  unfold State.putProduct State.heldBack State.productArray State.newProduct
  rw [← pairsBefore_eq]
  dsimp only
  rw [hlast, hlast']
  cases p.cont with
  | false => rfl
  | true =>
    cases (s.arr (4 * k + a)).last with
    | none => rfl
    | some q => rfl

/-- A block that no link guards is acquired at once (R667). -/
theorem State.acquireBlock_of_clear {s : State} {k arr base len : Nat} (a : Nat) (h : s.linkHits k 2 arr base len = []) :
    s.acquireBlock k a arr base len = (s, Acq.ok) := by
  simp [State.acquireBlock, h]

/-- A product whose array is free and whose operands no link guards and no resend holds (R41, R361, R481). -/
theorem execProduct_of_clear {s : State} {k c a : Nat} {p : ProductArgs} (hfree : s.streams k a p = false)
    (hresend : s.serialStored k a p = false → s.resendInto (4 * k + a) (s.arr (4 * k + a)).readHalf = none)
    (hpar : p.psrc = false → s.linkHits k 2 (s.poolArray k a p.pbase (p.pfmt + 1)) p.pbase (128 * elemBits (p.pfmt + 1) + 2) = [])
    (hser : s.serialStored k a p = true →
      s.linkHits k 2 (s.poolArray k a p.sbase (p.sfmt + 1)) p.sbase (128 * elemBits (p.sfmt + 1) + 2) = []) :
    exec (.product k c a p) s = if p.upset ≠ 0 then .next (s.recoverOperand k c a p)
      else if (s.parallelOperand k a p).2 && (s.serialOperand k a p).2
      then .next (s.putProduct k c a (cyclesOf p.sfmt) p (s.parallelOperand k a p).1 (s.serialOperand k a p).1)
      else .next (s.faultCtx k c 0x04 (4 * k + a)) := by
  have hnone : (if s.serialStored k a p then none else s.resendInto (4 * k + a) (s.arr (4 * k + a)).readHalf) = none := by
    split
    · rfl
    · exact hresend (Bool.eq_false_iff.mpr ‹_›)
  have hacqPar : (if p.psrc then (s, Acq.ok)
      else s.acquireBlock k a (s.poolArray k a p.pbase (p.pfmt + 1)) p.pbase (128 * elemBits (p.pfmt + 1) + 2)) = (s, Acq.ok) := by
    split
    · rfl
    · exact State.acquireBlock_of_clear a (hpar (Bool.eq_false_iff.mpr ‹_›))
  have hacqSer : (if s.serialStored k a p then s.acquireBlock k a (s.poolArray k a p.sbase (p.sfmt + 1)) p.sbase (128 * elemBits (p.sfmt + 1) + 2)
      else (s, Acq.ok)) = (s, Acq.ok) := by
    split
    next h => exact State.acquireBlock_of_clear a (hser h)
    · rfl
  show execProduct k c a p s = _
  unfold execProduct
  refine (if_neg (Bool.eq_false_iff.mp hfree)).trans ?_
  simp only [hnone, hacqPar, true_and, hacqSer]

/-- Settles O12. -/
theorem productIssues : Obligations.ProductIssues := by
  unfold Obligations.ProductIssues
  intro s k c a p hfree hresend hpar hser
  have hexec := execProduct_of_clear (c := c) (State.streams_eq_false hfree) hresend hpar hser
  refine ⟨fun hupset => hexec.trans (if_pos hupset), fun hupset hparOk hserOk => ?_⟩
  rw [if_neg (not_not_intro hupset), hparOk, hserOk, if_pos (by rfl), State.putProduct_eq] at hexec
  generalize (s.parallelOperand k a p).1 = par at *
  generalize (s.serialOperand k a p).1 = ser at *
  obtain ⟨hprods, hfwd, hread, m, hm⟩ := ({ s with nextId := s.nextId + 1 } : State).heldBack_spec (4 * k + a) p
  generalize ({ s with nextId := s.nextId + 1 } : State).heldBack (4 * k + a) p = u at *
  obtain ⟨hagenda, harr, hleaves⟩ := (u.modArr (4 * k + a) (s.productArray k c a p par ser)).scheduleProduct_spec k a s.nextId (cyclesOf p.sfmt) p
  have hu : Leaves (· ∈ ([] : List Nat)) s (u.modArr (4 * k + a) (s.productArray k c a p par ser)) := by
    rw [hm]
    exact .modArr (.upd (.upd .refl))
  have hall := hu.trans hleaves
  refine ⟨_, s.newProduct k c a p par ser, hexec, ?_, rfl, rfl, rfl, rfl, rfl, rfl, ?_, ?_, ?_, hall.sameMem, hall.sameRegsBut⟩
  · rw [harr, State.arr_modArr_same]
    exact congrArg (· ++ [_]) hprods
  · rw [harr, State.arr_modArr_same]
  · rw [harr, State.arr_modArr_same]
    show (if s.serialStored k a p then (u.arr (4 * k + a)).fwdHalf else (u.arr (4 * k + a)).readHalf) = _
    rw [hfwd, hread]
    rfl
  · have hread' : ((u.modArr (4 * k + a) (s.productArray k c a p par ser)).arr (4 * k + a)).readHalf = (s.arr (4 * k + a)).readHalf := by
      rw [State.arr_modArr_same]
      exact hread
    rw [hagenda, hread', State.agenda_scheduleTiles]
    generalize s.productArray k c a p par ser = f
    subst hm
    simp only [productDues, List.append_assoc]
    rfl

end Sys2Proof.Machine
end

section
/-! PROOF. The moments of a running product (R52, R55, R151, R158–R161, R208). -/
namespace Sys2Proof.Machine

/-- What the trace record of an event changes: registers and the trace. -/
theorem State.traceRec_keeps {β : Type} (g : State → β) (hg : ∀ (s : State) r t, g { s with regs := r, trace := t } = g s) (s : State)
    (typ source payload : Nat) : g (s.traceRec typ source payload) = g s := by
  unfold State.traceRec
  dsimp only
  repeat' split
  · rfl
  · exact hg s _ s.trace
  · exact hg s _ _
  · exact hg s _ _

/-- What an event changes: registers, the trace and the queue of events (R403). -/
theorem State.raise_keeps {β : Type} (g : State → β) (hg : ∀ (s : State) r t q n, g { s with regs := r, trace := t, evq := q, evLost := n } = g s)
    (s : State) (e : EventRec) : g (s.raise e) = g s := by
  have htrace : g (s.traceRec 0 e.source (eventWord e)) = g s := State.traceRec_keeps g (fun s r t => hg s r t s.evq s.evLost) s _ _ _
  unfold State.raise
  generalize s.traceRec 0 e.source (eventWord e) = u at *
  dsimp only
  split
  · exact (hg u u.regs u.trace (u.evq ++ [e]) u.evLost).trans htrace
  · exact (hg u (u.bump rCirEventOvf 1).regs u.trace u.evq (u.evLost + 1)).trans htrace

/-- HBM and the core stores are as before, and every register but those of P. -/
structure LeavesHbm (P : Nat → Prop) (s t : State) : Prop where
  hbm : t.hbm = s.hbm
  store : t.store = s.store
  reg : ∀ r, ¬ P r → t.reg r = s.reg r

namespace LeavesHbm
variable {P : Nat → Prop} {s t u : State}

theorem refl : LeavesHbm P s s := ⟨rfl, rfl, fun _ _ => rfl⟩

/-- Then a change that leaves all memory. -/
theorem then_ (h : LeavesHbm P s t) (g : Leaves P t u) : LeavesHbm P s u :=
  ⟨g.hbm.trans h.hbm, g.store.trans h.store, fun r hr => (g.reg r hr).trans (h.reg r hr)⟩

theorem trans (h : LeavesHbm P s t) (g : LeavesHbm P t u) : LeavesHbm P s u :=
  ⟨g.hbm.trans h.hbm, g.store.trans h.store, fun r hr => (g.reg r hr).trans (h.reg r hr)⟩

/-- Then a write of a local store. -/
theorem bankWrite (h : LeavesHbm P s t) (A bank off : Nat) (bs : List Nat) : LeavesHbm P s (t.bankWrite A bank off bs) := ⟨h.hbm, h.store, h.reg⟩

theorem sameRegsBut {l : List Nat} (h : LeavesHbm (· ∈ l) s t) : SameRegsBut l s t := h.reg

end LeavesHbm

/-! Tile rows enter the tile queue. -/

theorem length_insertTile (q : List TqTile) (x : TqTile) : (insertTile q x).length = q.length + 1 := by
  have h := congrArg List.length (List.takeWhile_append_dropWhile (p := fun y : TqTile => y.before x) (l := q))
  simp only [List.length_append] at h
  simp only [insertTile, List.length_append, List.length_cons]
  omega

/-- One tile in the tile queue, with a slot for it (R208, R210). -/
def State.enterTile (s : State) (A : Nat) (p : Product) (t u : Nat) : State :=
  let es := p.tile t u
  let h : TileHdr := { format := if p.outBf16 then fcBF16 else fcFP32 }
  let x : TqTile := { hdr := h, sealed := sealHdr 0 h (packElems (elemBits h.format) (es.map (·.1))), elems := es.map (·.1),
                      enteredAt := s.cyc p.core, array := A, prod := p.id, sat := es.countP (·.2) }
  ((s.modCore p.core fun co => { co with tq := insertTile co.tq x }).bump (rHaloArraySat A) (es.countP (·.2))).tqLevel p.core

theorem State.enterTiles_succ {s : State} {A : Nat} {p : Product} {t n : Nat} (h : (s.core p.core).tq.length < 64) :
    s.enterTiles A p t (n + 1) = (s.enterTile A p t (8 - (n + 1))).enterTiles A p t n := by
  have hslot : (if 64 ≤ (s.core p.core).tq.length then s.tqFull A p else (s, true)) = (s, true) := if_neg (by omega)
  rw [State.enterTiles]
  simp only [hslot, Bool.not_true, Bool.false_eq_true, if_false]
  rfl

theorem Leaves.tqLevel {P : Nat → Prop} {s t : State} {k : Nat} (h : Leaves P s t) (hs : P (rVecStatus k)) (hh : P (rVecTqHigh k)) :
    Leaves P s (t.tqLevel k) := .ite (.setFld (.setFld h hs) hh) (.setFld h hs)

/-- The registers that a tile row may change (R48, R233). -/
abbrev tileRegs (A : Nat) (p : Product) : List Nat := [rHaloArraySat A, rVecStatus p.core, rVecTqHigh p.core]

theorem Leaves.enterTile {s t : State} {A : Nat} {p : Product} {P : Nat → Prop} (h : Leaves P s t) (hr : ∀ r ∈ tileRegs A p, P r) (i u : Nat) :
    Leaves P s (t.enterTile A p i u) :=
  .tqLevel (.bump (.modCore h) (hr _ (by simp))) (hr _ (by simp)) (hr _ (by simp))

theorem State.tqLevel_keeps {β : Type} (g : State → β) (hg : ∀ (s : State) r, g { s with regs := r } = g s) (s : State) (k : Nat) :
    g (s.tqLevel k) = g s := by
  unfold State.tqLevel
  dsimp only
  split
  · exact (hg (s.setFld (rVecStatus k) 22 16 (s.core k).tq.length) _).trans (hg s _)
  · exact hg s _

theorem State.length_tq_enterTile (s : State) (A : Nat) (p : Product) (t u : Nat) :
    ((s.enterTile A p t u).core p.core).tq.length = (s.core p.core).tq.length + 1 := by
  unfold State.enterTile
  dsimp only
  rw [State.tqLevel_keeps (·.core p.core) (fun _ _ => rfl), State.core_bump, State.core_modCore_same]
  exact length_insertTile _ _

theorem State.arrays_enterTile (s : State) (A : Nat) (p : Product) (t u : Nat) : (s.enterTile A p t u).arrays = s.arrays := by
  unfold State.enterTile
  dsimp only
  rw [State.tqLevel_keeps State.arrays (fun _ _ => rfl)]
  rfl

theorem State.fld_tqLevel (s : State) {k : Nat} (h : (s.core k).tq.length < 128) : (s.tqLevel k).fld (rVecStatus k) 22 16 = (s.core k).tq.length := by
  have hne : rVecStatus k ≠ rVecTqHigh k := by simp only [rVecStatus, rVecTqHigh]; omega
  have hset : (s.setFld (rVecStatus k) 22 16 (s.core k).tq.length).fld (rVecStatus k) 22 16 = (s.core k).tq.length := by
    rw [State.fld_setFld_same _ _ _ _ _ (by omega) (by omega)]
    exact Nat.mod_eq_of_lt h
  unfold State.tqLevel
  dsimp only
  split
  · rw [State.fld_setFld_ne _ _ _ _ _ _ hne, hset]
  · exact hset

theorem State.level_enterTile (s : State) (A : Nat) (p : Product) (t u : Nat) (h : (s.core p.core).tq.length < 64) :
    (s.enterTile A p t u).fld (rVecStatus p.core) 22 16 = (s.core p.core).tq.length + 1 := by
  have hlen := s.length_tq_enterTile A p t u
  unfold State.enterTile at hlen ⊢
  dsimp only at hlen ⊢
  rw [State.tqLevel_keeps (·.core p.core) (fun _ _ => rfl)] at hlen
  rw [State.fld_tqLevel _ (by omega), hlen]

/-- A tile row, with slots for its tiles (R208, R233). -/
theorem State.enterTiles_spec {A : Nat} {p : Product} {t : Nat} (n : Nat) : ∀ s : State, (s.core p.core).tq.length + n ≤ 64 →
    ((s.enterTiles A p t n).core p.core).tq.length = (s.core p.core).tq.length + n ∧ (s.enterTiles A p t n).arrays = s.arrays ∧
      (0 < n → (s.enterTiles A p t n).fld (rVecStatus p.core) 22 16 = (s.core p.core).tq.length + n) ∧
      Leaves (· ∈ tileRegs A p) s (s.enterTiles A p t n) := by
  induction n with
  | zero => exact fun s _ => ⟨rfl, rfl, fun h => absurd h (lt_irrefl _), .refl⟩
  | succ n ih =>
    intro s hs
    have hlen := s.length_tq_enterTile A p t (8 - (n + 1))
    obtain ⟨htq, harr, hlevel, hleaves⟩ := ih (s.enterTile A p t (8 - (n + 1))) (by omega)
    rw [State.enterTiles_succ (by omega)]
    refine ⟨by omega, harr.trans (s.arrays_enterTile ..), fun _ => ?_, .trans (.enterTile .refl (fun _ h => h) _ _) hleaves⟩
    rcases Nat.eq_zero_or_pos n with h0 | hpos
    · subst h0
      exact s.level_enterTile A p t _ (by omega)
    · rw [hlevel hpos]
      omega

theorem State.prod_dropProd (s : State) (A id : Nat) : (s.dropProd A id).prod A id = none := by
  simp [State.prod, State.dropProd]

/-- O13's clause on a tile row. -/
theorem productMoments_tiles (s : State) (A id t : Nat) (p : Product) (hprod : s.prod A id = some p) (hgoes : p.abandoned = false)
    (htq : (s.core p.core).tq.length ≤ 56) :
    ∃ u, exec (.tileQueueEntry A id t) s = .next u ∧ (u.core p.core).tq.length = (s.core p.core).tq.length + 8 ∧
      u.fld (rVecStatus p.core) 22 16 = (s.core p.core).tq.length + 8 ∧ (t = 7 → u.prod A id = none) ∧ (t ≠ 7 → u.prod A id = some p) ∧
      SameMem s u ∧ SameRegsBut [rHaloArraySat A, rVecStatus p.core, rVecTqHigh p.core] s u := by
  obtain ⟨hlen, harr, hlevel, hleaves⟩ := State.enterTiles_spec (A := A) (p := p) (t := t) 8 s (by omega)
  have hexec : exec (.tileQueueEntry A id t) s = .next (if t = 7 then (s.enterTiles A p t 8).dropProd A id else s.enterTiles A p t 8) := by
    show execTileQueueEntry A id t s = _
    unfold execTileQueueEntry
    rw [hprod]
    simp only [hgoes, Bool.false_eq_true, if_false]
  have hprod' : (s.enterTiles A p t 8).prod A id = some p := by
    unfold State.prod State.arr at hprod ⊢
    rw [harr, hprod]
  have hlevel' := hlevel (by omega)
  generalize s.enterTiles A p t 8 = u at *
  by_cases ht : t = 7
  · rw [if_pos ht] at hexec
    exact ⟨_, hexec, hlen, hlevel', fun _ => u.prod_dropProd A id, fun h => absurd ht h, hleaves.modArr.sameMem, hleaves.modArr.sameRegsBut⟩
  · rw [if_neg ht] at hexec
    exact ⟨_, hexec, hlen, hlevel', fun h => absurd h ht, fun _ => hprod', hleaves.sameMem, hleaves.sameRegsBut⟩

/-- A product that is continued sends no tile (R55). -/
theorem execTileQueueEntry_of_abandoned {s : State} {A id t : Nat} {p : Product} (hprod : s.prod A id = some p) (h : p.abandoned = true) :
    exec (.tileQueueEntry A id t) s = .next (if t = 7 then s.dropProd A id else s) := by
  show execTileQueueEntry A id t s = _
  unfold execTileQueueEntry
  rw [hprod]
  simp only [h, if_true]

/-! The release of a ring-buffer half. -/

theorem execRingHalfRelease_of_taken {s : State} {A half : Nat} (h : (s.ring A half).st ≠ .free) :
    exec (.ringHalfRelease A half) s =
      .next (((s.modArr A fun a => { a with readHalf := if a.readHalf = half then 1 - half else a.readHalf }).modRing A half fun x =>
        { x with done := true }).freeRing A half) := by
  have hring : (s.modArr A fun a => { a with readHalf := if a.readHalf = half then 1 - half else a.readHalf }).ring A half = s.ring A half := by
    simp [State.ring]
  show execRingHalfRelease A half s = _
  unfold execRingHalfRelease
  dsimp only
  rw [hring, if_neg h]

@[simp] theorem State.ring_modRing (s : State) (A h : Nat) (f : Half → Half) : (s.modRing A h f).ring A h = f (s.ring A h) := by
  simp [State.ring, State.modRing]

@[simp] theorem State.readHalf_modRing (s : State) (A h : Nat) (f : Half → Half) : ((s.modRing A h f).arr A).readHalf = (s.arr A).readHalf := by
  simp [State.modRing]

/-- A half that its array has released is free once no link reads it (R151, R152). -/
theorem State.freeRing_spec (s : State) (A h : Nat) :
    (s.freeRing A h).ring A h = (if (s.ring A h).done = true ∧ (s.ring A h).linkReads = 0 then {} else s.ring A h) ∧
      ((s.freeRing A h).arr A).readHalf = (s.arr A).readHalf ∧ Leaves (· ∈ ([] : List Nat)) s (s.freeRing A h) := by
  unfold State.freeRing
  dsimp only
  split
  · exact ⟨by simp, by simp, .modArr .refl⟩
  · exact ⟨rfl, rfl, .refl⟩

/-- O13's clause on the release of a half. -/
theorem productMoments_release (s : State) (A half : Nat) (h : (s.ring A half).st ≠ .free) :
    ∃ u, exec (.ringHalfRelease A half) s = .next u ∧
      u.ring A half = (if (s.ring A half).linkReads = 0 then {} else { s.ring A half with done := true }) ∧
      (u.arr A).readHalf = (if (s.arr A).readHalf = half then 1 - half else (s.arr A).readHalf) ∧ SameMem s u ∧ SameRegsBut [] s u := by
  let v := (s.modArr A fun a => { a with readHalf := if a.readHalf = half then 1 - half else a.readHalf }).modRing A half fun x =>
    { x with done := true }
  have hring : v.ring A half = { s.ring A half with done := true } := (State.ring_modRing ..).trans (by simp [State.ring])
  have hread : (v.arr A).readHalf = if (s.arr A).readHalf = half then 1 - half else (s.arr A).readHalf := by simp [v]
  have hv : Leaves (· ∈ ([] : List Nat)) s v := .modArr (.modArr .refl)
  obtain ⟨hfree, hkeep, hleaves⟩ := v.freeRing_spec A half
  refine ⟨_, execRingHalfRelease_of_taken h, ?_, hkeep.trans hread, (hv.trans hleaves).sameMem, (hv.trans hleaves).sameRegsBut⟩
  rw [hfree, hring]
  simp

/-! The companion adder. -/

theorem Leaves.companionEvent {P : Nat → Prop} {s t : State} (h : Leaves P s t) (hr : ∀ r ∈ eventRegs, P r) (A half k : Nat) (nan sat : Bool) :
    Leaves P s (t.companionEvent A half k nan sat) :=
  .ite (.raise (.modArr (.ite (.raise (.modArr h) hr) h)) hr) (.ite (.raise (.modArr h) hr) h)

/-- A block of a start addition is written, since nothing is added to it (R158, R290). -/
theorem State.addColumnBlock_of_start {s : State} {p : Product} (A j b : Nat) (h : p.cstart = true) : ∃ (t : State) (bad sat : Nat) (nan full : Bool) (x : BfpBlock),
    t = (((s.bump (rHaloArraySat A) sat).bump (rVecGradNonfinite p.core) bad).bump (rVecBfpSat p.core) (if full then 1 else 0)).companionEvent A p.half
      p.core nan full ∧ s.addColumnBlock A p j b = some (t.setCompBlock A p.half j b x) := by
  unfold State.addColumnBlock
  simp only [h, if_true]
  exact ⟨_, _, _, _, _, _, rfl, rfl⟩

/-- The events of a companion leave its state (R290, R293). -/
theorem State.st_companionEvent (s : State) (A h k : Nat) (nan sat : Bool) : ((s.companionEvent A h k nan sat).comp A h).st = (s.comp A h).st := by
  have hraise : ∀ (t : State) (j code detail ext : Nat), ((t.eventCore j code detail ext).comp A h).st = (t.comp A h).st :=
    fun t _ _ _ _ => State.raise_keeps (fun t => (t.comp A h).st) (fun _ _ _ _ _ => rfl) t _
  have hnan : ∀ t : State, ((t.modComp A h fun y => { y with nanSeen := true }).comp A h).st = (t.comp A h).st := fun t => by
    simp [State.comp, State.modComp]
  have hsat : ∀ t : State, ((t.modComp A h fun y => { y with satSeen := true }).comp A h).st = (t.comp A h).st := fun t => by
    simp [State.comp, State.modComp]
  unfold State.companionEvent
  dsimp only
  repeat' split
  · rw [hraise, hsat, hraise, hnan]
  · rw [hraise, hsat]
  · rw [hraise, hnan]
  · rfl

/-- The registers that a tile column may change (R48, R290, R293). -/
abbrev columnRegs (A : Nat) (p : Product) : List Nat := [rHaloArraySat A, rVecGradNonfinite p.core, rVecBfpSat p.core] ++ eventRegs

/-- The blocks of a start addition's tile column, written one after another (R158, R290). -/
theorem State.addColumn_of_start {p : Product} (A : Nat) (h : p.cstart = true) (l : List (Nat × Nat)) : ∀ s : State, ∃ t : State,
    l.foldl (fun (q : State × Bool) jb => if q.2 then
      (match q.1.addColumnBlock A p jb.1 jb.2 with | some s => (s, true) | none => (q.1, false)) else q) (s, true) = (t, true) ∧
      (t.comp A p.half).st = (s.comp A p.half).st ∧ LeavesHbm (· ∈ columnRegs A p) s t := by
  induction l with
  | nil => exact fun s => ⟨s, rfl, rfl, .refl⟩
  | cons jb l ih =>
    intro s
    obtain ⟨u, bad, sat, nan, full, x, hu, hblock⟩ := State.addColumnBlock_of_start (s := s) A jb.1 jb.2 h
    obtain ⟨t, hfold, hst, hleaves⟩ := ih (u.setCompBlock A p.half jb.1 jb.2 x)
    have hust : (u.comp A p.half).st = (s.comp A p.half).st := by
      rw [hu, State.st_companionEvent]
      rfl
    have huleaves : Leaves (· ∈ columnRegs A p) s u := by
      rw [hu]
      exact .companionEvent (.bump (.bump (.bump .refl (by simp)) (by simp)) (by simp)) (fun r hr => List.mem_append_right _ hr) ..
    refine ⟨t, ?_, hst.trans hust, .trans (.bankWrite (.then_ .refl huleaves) ..) hleaves⟩
    rw [List.foldl_cons, if_pos rfl, hblock]
    exact hfold

/-- O13's clause on the last tile column. -/
theorem productMoments_column (s : State) (A id : Nat) (p : Product) (hprod : s.prod A id = some p) (hgoes : p.abandoned = false)
    (hstart : p.cstart = true) :
    ∃ u, exec (.dwTileColumnAdded A id 7 false) s = .next u ∧ (u.comp A p.half).done = true ∧
      (u.comp A p.half).st = (s.comp A p.half).st ∧ u.prod A id = none ∧ u.hbm = s.hbm ∧ u.store = s.store ∧
      SameRegsBut ([rHaloArraySat A, rVecGradNonfinite p.core, rVecBfpSat p.core] ++ eventRegs) s u := by
  obtain ⟨t, hfold, hst, hleaves⟩ := State.addColumn_of_start A hstart
    ((List.range 128).flatMap fun j => (List.range 32).map fun b => (128 * 7 + j, b)) s
  have hexec : exec (.dwTileColumnAdded A id 7 false) s = .next ((t.modComp A p.half fun x => { x with done := true }).dropProd A id) := by
    show execDwTileColumnAdded A id 7 false s = _
    unfold execDwTileColumnAdded
    rw [hprod]
    simp only [hgoes, Bool.false_eq_true, if_false]
    exact congrArg (fun q : State × Bool => (if (!q.2) = true then Host.Outcome.next (q.1.adderFatal A p) else
      Host.Outcome.next (if (7 : Nat) = 7 then (q.1.modComp A p.half fun x => { x with done := true }).dropProd A id else q.1) : Out)) hfold
  have hcomp : ((t.modComp A p.half fun x => { x with done := true }).dropProd A id).comp A p.half = { t.comp A p.half with done := true } := by
    simp [State.comp, State.modComp, State.dropProd]
  have hall := hleaves.then_ (u := (t.modComp A p.half fun x => { x with done := true }).dropProd A id) (.modArr (.modArr .refl))
  exact ⟨_, hexec, by rw [hcomp], by rw [hcomp]; exact hst, State.prod_dropProd .., hall.hbm, hall.store, hall.sameRegsBut⟩

/-- Settles O13. -/
theorem productMoments : Obligations.ProductMoments := by
  unfold Obligations.ProductMoments
  refine ⟨fun s A id t p hprod hgoes _ _ htq => productMoments_tiles s A id t p hprod hgoes htq, fun s A id t p hprod hgone => ?_,
    productMoments_release, fun s A id p hprod hgoes hstart _ _ => productMoments_column s A id p hprod hgoes hstart,
    fun s A id t p hprod hgoes => ?_⟩
  · have hexec := execTileQueueEntry_of_abandoned (t := t) hprod hgone
    by_cases ht : t = 7
    · rw [if_pos ht] at hexec
      have hleaves : Leaves (· ∈ ([] : List Nat)) s (s.dropProd A id) := .modArr .refl
      exact ⟨_, hexec, rfl, fun _ => s.prod_dropProd A id, fun h => absurd ht h, hleaves.sameMem, hleaves.sameRegsBut⟩
    · rw [if_neg ht] at hexec
      exact ⟨_, hexec, rfl, fun h => absurd h ht, fun _ => rfl, Leaves.refl.sameMem (P := fun _ => False), fun _ _ => rfl⟩
  · show execDwTileColumnAdded A id t true s = _
    unfold execDwTileColumnAdded
    rw [hprod]
    have hid : p.id = id := by simpa using List.find?_some hprod
    simp only [hgoes, Bool.false_eq_true, if_false, if_true, State.adderFatal, hid]

end Sys2Proof.Machine
end

section
/-! PROOF. What the operations of Halo transfers leave: the local stores' writes, the transfers in flight, and the ends of Lulls
(R64, R70–R73, R151, R161). -/
namespace Sys2Proof.Machine

/-- From s to t nothing differs but the bytes of the local stores and what the recoveries note of them. -/
def OnlyBanks (s t : State) : Prop := ∃ l r, t = { s with lstore := l, recoveries := r }

namespace OnlyBanks
variable {s t : State}

theorem refl (s : State) : OnlyBanks s s := ⟨s.lstore, s.recoveries, rfl⟩

theorem bankWrite (h : OnlyBanks s t) (A bank off : Nat) (bs : List Nat) : OnlyBanks s (t.bankWrite A bank off bs) := by
  obtain ⟨l, r, rfl⟩ := h
  exact ⟨_, _, rfl⟩

theorem foldl {α : Type} {f : State → α → State} (hf : ∀ t a, OnlyBanks s t → OnlyBanks s (f t a)) (l : List α) :
    ∀ {t}, OnlyBanks s t → OnlyBanks s (l.foldl f t) := by
  induction l with
  | nil => exact id
  | cons a l ih => exact fun h => ih (hf _ a h)

theorem ite {u : State} {c : Prop} [Decidable c] (ht : OnlyBanks s t) (hu : OnlyBanks s u) : OnlyBanks s (if c then t else u) := by split <;> assumption

theorem putElem (h : OnlyBanks s t) (A bank off w pos code : Nat) : OnlyBanks s (t.putElem A bank off w pos code) :=
  .ite (.bankWrite h ..) (.bankWrite h ..)

theorem setHdrAt (h : OnlyBanks s t) (A off i : Nat) (hdr : List Nat) : OnlyBanks s (t.setHdrAt A off i hdr) :=
  .foldl (fun _ _ h => .bankWrite h ..) _ h

theorem setRingTile (h : OnlyBanks s t) (A half fmt i : Nat) (hdr elems : List Nat) : OnlyBanks s (t.setRingTile A half fmt i hdr elems) :=
  .setHdrAt (.foldl (fun _ _ h => .putElem h ..) _ h) ..

theorem writeTile (h : OnlyBanks s t) (x : Transfer) (i : Nat) : OnlyBanks s (t.writeTile x i) := .ite (.setRingTile h ..) (.setRingTile h ..)

theorem setCompHdr (h : OnlyBanks s t) (A half : Nat) (bs : List Nat) : OnlyBanks s (t.setCompHdr A half bs) :=
  .foldl (fun _ _ h => .bankWrite h ..) _ h

theorem writeCompUnit (h : OnlyBanks s t) (x : Transfer) (u : Nat) : OnlyBanks s (t.writeCompUnit x u) := .ite (.setCompHdr h ..) (.bankWrite h ..)

theorem writeCompanion (h : OnlyBanks s t) (x : Transfer) (bad : List Nat) : OnlyBanks s (t.writeCompanion x bad) :=
  .foldl (fun _ _ h => .foldl (fun _ _ h => .ite h (.writeCompUnit h ..)) _ h) _ (.ite h (.writeCompUnit h ..))

/-- What reads neither the local stores nor the recoveries is as before. -/
theorem keeps {β : Type} (h : OnlyBanks s t) (g : State → β) (hg : ∀ (s : State) l r, g { s with lstore := l, recoveries := r } = g s) : g t = g s := by
  obtain ⟨l, r, rfl⟩ := h
  exact hg s l r

theorem leavesHbm {P : Nat → Prop} (h : OnlyBanks s t) : LeavesHbm P s t := by
  obtain ⟨l, r, rfl⟩ := h
  exact ⟨rfl, rfl, fun _ _ => rfl⟩

end OnlyBanks

/-! The transfers in flight. -/

theorem Transfer.id_of_transfer {s : State} {id : Nat} {x : Transfer} (h : s.transfer id = some x) : x.id = id := by
  simpa using List.find?_some h

/-- A transfer changed, its number kept. -/
theorem State.transfer_modTransfer {s : State} {id : Nat} {x : Transfer} {f : Transfer → Transfer} (h : s.transfer id = some x) (hf : (f x).id = id) :
    (s.modTransfer id f).transfer id = some (f x) := by
  have hlist : ∀ l : List Transfer, l.find? (fun t => t.id == id) = some x →
      (l.map fun t => if t.id = id then f t else t).find? (fun t => t.id == id) = some (f x) := by
    intro l
    induction l with
    | nil => exact fun h => nomatch h
    | cons t l ih =>
      intro h
      by_cases ht : t.id = id
      · have htx : t = x := by simpa [List.find?_cons, ht] using h
        subst htx
        simp [ht, hf]
      · simp only [List.find?_cons, beq_eq_false_iff_ne.mpr ht] at h
        simp [ht, ih h]
  exact hlist s.transfers h

theorem State.transfer_dropTransfer (s : State) (id : Nat) : (s.dropTransfer id).transfer id = none := by
  simp [State.transfer, State.dropTransfer]

theorem Leaves.modTransfer {P : Nat → Prop} {s t : State} {id : Nat} {f : Transfer → Transfer} (h : Leaves P s t) : Leaves P s (t.modTransfer id f) :=
  h.upd
theorem Leaves.dropTransfer {P : Nat → Prop} {s t : State} {id : Nat} (h : Leaves P s t) : Leaves P s (t.dropTransfer id) := h.upd
theorem Leaves.modRing {P : Nat → Prop} {s t : State} {A h : Nat} {f : Half → Half} (l : Leaves P s t) : Leaves P s (t.modRing A h f) := l.modArr
theorem Leaves.modComp {P : Nat → Prop} {s t : State} {A h : Nat} {f : Half → Half} (l : Leaves P s t) : Leaves P s (t.modComp A h f) := l.modArr
theorem Leaves.freeRing {P : Nat → Prop} {s t : State} {A h : Nat} (l : Leaves P s t) : Leaves P s (t.freeRing A h) := .ite (.modRing l) l
theorem Leaves.afterResend {P : Nat → Prop} {s t : State} {k d : Nat} {a : Act} (h : Leaves P s t) : Leaves P s (t.afterResend k d a) := h.upd

theorem Leaves.closeTransfer {P : Nat → Prop} {s t : State} {id : Nat} (h : Leaves P s t) : Leaves P s (t.closeTransfer id) := by
  unfold State.closeTransfer
  split
  · exact .ite (.dropTransfer h) h
  · exact h

theorem Leaves.companionIn {P : Nat → Prop} {s t : State} {x : Transfer} (h : Leaves P s t) : Leaves P s (t.companionIn x) := .ite (.modComp h) h

theorem Leaves.ackTransfer {P : Nat → Prop} {s t : State} {x : Transfer} (h : Leaves P s t) : Leaves P s (t.ackTransfer x) := by
  unfold State.ackTransfer
  dsimp only
  have hsend : Leaves P s (match x.src with
      | none => t.modTransfer x.id fun y => { y with ackDue := true, acked := true }
      | some A => if x.companion then (t.modTransfer x.id fun y => { y with ackDue := true, acked := true }).modComp A x.srcHalf fun _ => {}
        else ((t.modTransfer x.id fun y => { y with ackDue := true, acked := true }).modRing A x.srcHalf fun y =>
          { y with linkReads := y.linkReads - 1 }).freeRing A x.srcHalf) := by
    split
    · exact .modTransfer h
    · exact .ite (.modComp (.modTransfer h)) (.freeRing (.modRing (.modTransfer h)))
  exact .closeTransfer (.ite (.ite (.modComp hsend) hsend) (.ite (.freeRing (.modRing hsend)) hsend))

/-- The end of a Lull changes the partition's record, the trace and registers. -/
theorem State.endLull_keeps {β : Type} (g : State → β) (hg : ∀ (s : State) r t p, g { s with regs := r, trace := t, parts := p } = g s) (s : State)
    (k kind tag : Nat) : g (s.endLull k kind tag) = g s := by
  have hpart : ∀ f, g (s.modPart k f) = g s := fun f => hg s s.regs s.trace _
  have htrace : ∀ (t : State) a b c, g (t.traceRec a b c) = g t :=
    fun t a b c => State.traceRec_keeps g (fun s r t => hg s r t s.parts) t a b c
  unfold State.endLull
  dsimp only
  split
  · exact (htrace _ _ _ _).trans (hpart _)
  · exact hpart _

/-- A transfer that has still to be acknowledged stays (R71). -/
theorem State.closeTransfer_of_unacked {s : State} {id : Nat} {x : Transfer} (h : s.transfer id = some x) (hacked : x.acked = false) :
    s.closeTransfer id = s := by
  unfold State.closeTransfer
  rw [h]
  simp [hacked]

/-- An acknowledged transfer with nothing to resend is forgotten once it has arrived (R71). -/
theorem State.transfer_closeTransfer_of_acked {s : State} {id : Nat} {x : Transfer} (h : s.transfer id = some x) (hacked : x.acked = true)
    (hresend : x.resend = []) (hreinject : x.reinject = false) : (s.closeTransfer id).transfer id = if x.arrived then none else some x := by
  unfold State.closeTransfer
  rw [h]
  cases harr : x.arrived with
  | true => simpa [hacked, harr, hresend, hreinject] using s.transfer_dropTransfer id
  | false => simpa [hacked, harr, hresend, hreinject] using h

end Sys2Proof.Machine
end

section
/-! PROOF. Halo transfers start, arrive and are repaired (R65–R67, R70–R74, R151, R152, R161–R163). -/
namespace Sys2Proof.Machine

@[simp] theorem State.comp_modComp (s : State) (A h : Nat) (f : Half → Half) : (s.modComp A h f).comp A h = f (s.comp A h) := by
  simp [State.comp, State.modComp]

theorem State.arr_modArr_ne (s : State) {A B : Nat} (f : ArrayDyn → ArrayDyn) (h : B ≠ A) : (s.modArr A f).arr B = s.arr B :=
  SMap.get_mod_ne s.arrays f h

/-! The start. -/

/-- Actions to come at several cycles of one partition's clock. -/
theorem State.agenda_foldl_after {α : Type} (k : Nat) (d : α → Nat) (i : α → Act) (l : List α) :
    ∀ s : State, (l.foldl (fun s x => s.after (some k) (d x) (i x)) s).agenda =
      s.agenda ++ l.map fun x => { dom := some k, at_ := (s.part k).seqCycle + d x, act := i x } := by
  induction l with
  | nil => exact fun s => (List.append_nil _).symm
  | cons x l ih =>
    intro s
    have hagenda : (s.after (some k) (d x) (i x)).agenda = s.agenda ++ [{ dom := some k, at_ := (s.part k).seqCycle + d x, act := i x }] := rfl
    have hpart : (s.after (some k) (d x) (i x)).part k = s.part k := rfl
    rw [List.foldl_cons, ih, hagenda, hpart, List.append_assoc]
    rfl

/-- The transfer that a HALO starts, its copy made (R65, R66). -/
def State.hopTransfer (s : State) (id k c A h dst : Nat) (links : List (Nat × Bool)) (x : HaloArgs) : Transfer :=
  let hf := if x.companion then s.comp A h else s.ring A h
  let data := if x.companion then s.companionOut A h else s.panelOut A h
  { id := id, core := k, src := some A, srcHalf := h, dst := dst, companion := x.companion, back := x.back && !x.companion,
    fmt := hf.fmt, hdrs := data.1, elems := data.2, keys := hf.keys, links := links,
    origin := hf.origin, nanSeen := hf.nanSeen, satSeen := hf.satSeen, ctx := c, instr := (s.ctx k c).cmdIndex }

/-- The slots and the transfer taken, and the half that the link reads now (R67, R151). -/
def State.hopBegun (s : State) (k A h dst : Nat) (links : List (Nat × Bool)) (x : HaloArgs) (len : Nat) (t : Transfer) : State :=
  let s : State := { s with slots := s.slots ++ hopSlots (s.cyc k) len (x.back && !x.companion) dst links, transfers := s.transfers ++ [t] }
  if x.companion then s.modComp A h fun y => { y with st := .sending } else s.modRing A h fun y => { y with linkReads := y.linkReads + 1 }

/-- The moments of a transfer that has begun (R66, R70, R71). -/
def State.hopTimed (s : State) (k p id fmt : Nat) (links : List (Nat × Bool)) (x : HaloArgs) (len : Nat) : State :=
  let lat := 6 * links.length
  let s := s.after (some p) lat (.firstByte id)
  let s := if x.companion then s
    else (List.range 64).foldl (fun s i => s.after (some p) (lat + tileDone fmt i) (.tileArrive id i)) s
  (s.later k (lat + len + (if x.back && !x.companion then 132 else 0)) (.haloTransferArrival id [])).later k (lat - 6 + len + 12) (.haloAck id)

theorem State.startHop_eq (s : State) (k c A h dst : Nat) (links : List (Nat × Bool)) (x : HaloArgs) (len : Nat) :
    s.startHop k c A h dst links x len =
      (s.fresh.2.hopBegun k A h dst links x len (s.fresh.2.hopTransfer s.fresh.1 k c A h dst links x)).hopTimed k (s.fresh.2.lowest k) s.fresh.1
        (if x.companion then s.fresh.2.comp A h else s.fresh.2.ring A h).fmt links x len := rfl

theorem State.hopBegun_spec (s : State) (k A h dst : Nat) (links : List (Nat × Bool)) (x : HaloArgs) (len : Nat) (t : Transfer) :
    (s.hopBegun k A h dst links x len t).transfers = s.transfers ++ [t] ∧ (s.hopBegun k A h dst links x len t).agenda = s.agenda ∧
      (x.companion = true → ((s.hopBegun k A h dst links x len t).comp A h).st = .sending) ∧
      (x.companion = false → ((s.hopBegun k A h dst links x len t).ring A h).linkReads = (s.ring A h).linkReads + 1) ∧
      (∀ j, (s.hopBegun k A h dst links x len t).lowest j = s.lowest j) ∧ (∀ j, (s.hopBegun k A h dst links x len t).part j = s.part j) ∧
      Leaves (· ∈ ([] : List Nat)) s (s.hopBegun k A h dst links x len t) := by
  unfold State.hopBegun
  cases x.companion with
  | true => exact ⟨rfl, rfl, fun _ => by simp, fun h => absurd h (by decide), fun _ => rfl, fun _ => rfl, .modComp (.upd .refl)⟩
  | false =>
    exact ⟨rfl, rfl, fun h => absurd h (by decide), fun _ => congrArg Half.linkReads (State.ring_modRing ..), fun _ => rfl, fun _ => rfl, .modRing (.upd .refl)⟩

/-- What the moments of a transfer add to the agenda. -/
def hopDues (p now id fmt : Nat) (links : List (Nat × Bool)) (x : HaloArgs) (len : Nat) : List Due :=
  { dom := some p, at_ := now + 6 * links.length, act := .firstByte id } ::
    (if x.companion then [] else (List.range 64).map fun i =>
      { dom := some p, at_ := now + (6 * links.length + tileDone fmt i), act := .tileArrive id i }) ++
    [{ dom := some p, at_ := now + (6 * links.length + len + (if x.back && !x.companion then 132 else 0)), act := .cmd (.haloTransferArrival id []) },
     { dom := some p, at_ := now + (6 * links.length - 6 + len + 12), act := .cmd (.haloAck id) }]

theorem State.hopTimed_spec (s : State) (k id fmt : Nat) (links : List (Nat × Bool)) (x : HaloArgs) (len : Nat) :
    (s.hopTimed k (s.lowest k) id fmt links x len).agenda = s.agenda ++ hopDues (s.lowest k) (s.part (s.lowest k)).seqCycle id fmt links x len ∧
      (s.hopTimed k (s.lowest k) id fmt links x len).transfers = s.transfers ∧ (s.hopTimed k (s.lowest k) id fmt links x len).arrays = s.arrays ∧
      Leaves (· ∈ ([] : List Nat)) s (s.hopTimed k (s.lowest k) id fmt links x len) := by
  unfold State.hopTimed hopDues
  dsimp only
  cases x.companion with
  | true =>
    refine ⟨?_, rfl, rfl, .later (.later (.after .refl))⟩
    simp only [State.later, State.after, if_true, List.append_assoc, List.cons_append, List.nil_append]
    rfl
  | false =>
    simp only [Bool.false_eq_true, if_false, Bool.not_false, Bool.and_true]
    have hagenda := State.agenda_foldl_after (s.lowest k) (fun i => 6 * links.length + tileDone fmt i) (fun i => .tileArrive id i) (List.range 64)
      (s.after (some (s.lowest k)) (6 * links.length) (.firstByte id))
    have hkeep : ∀ {β : Type} (g : State → β), (∀ (t : State) d a, g (t.after (some (s.lowest k)) d a) = g t) → g ((List.range 64).foldl
        (fun s' i => s'.after (some (s.lowest k)) (6 * links.length + tileDone fmt i) (.tileArrive id i))
        (s.after (some (s.lowest k)) (6 * links.length) (.firstByte id))) = g s := fun g hg =>
      (foldl_keeps (f := fun s' i => s'.after (some (s.lowest k)) (6 * links.length + tileDone fmt i) (.tileArrive id i)) g
        (fun t i => hg t _ _) (List.range 64) _).trans (hg s _ _)
    have hlowest := hkeep (·.lowest k) (fun _ _ _ => rfl)
    have hpart := hkeep (·.part (s.lowest k)) (fun _ _ _ => rfl)
    have htransfers := hkeep State.transfers (fun _ _ _ => rfl)
    have harrays := hkeep State.arrays (fun _ _ _ => rfl)
    have hleaves : Leaves (· ∈ ([] : List Nat)) s ((List.range 64).foldl
        (fun s' i => s'.after (some (s.lowest k)) (6 * links.length + tileDone fmt i) (.tileArrive id i))
        (s.after (some (s.lowest k)) (6 * links.length) (.firstByte id))) := .foldl (fun _ _ _ h => .after h) (.after .refl)
    generalize (List.range 64).foldl (fun s' i => s'.after (some (s.lowest k)) (6 * links.length + tileDone fmt i) (.tileArrive id i))
        (s.after (some (s.lowest k)) (6 * links.length) (.firstByte id)) = u at *
    refine ⟨?_, htransfers, harrays, .later (.later hleaves)⟩
    have hl : ∀ (v : State) d i, v.lowest k = s.lowest k → v.part (s.lowest k) = s.part (s.lowest k) → (v.later k d i).agenda =
        v.agenda ++ [{ dom := some (s.lowest k), at_ := (s.part (s.lowest k)).seqCycle + d, act := .cmd i }] := fun v d i h1 h2 => by
      simp [State.later, State.after, h1, h2]
    rw [hl (u.later k _ _) _ _ hlowest hpart, hl u _ _ hlowest hpart, hagenda]
    simp only [State.after_agenda, State.part_after, List.append_assoc, List.cons_append, List.nil_append]

/-- HALO where no resend holds the link or the ring input (R72). -/
theorem execHalo_of_clear {s : State} {k c a : Nat} {h : HaloArgs} {p : Nat × List (Nat × Bool)}
    (hpath : s.path k (4 * k + a) h.ccw (h.back || h.companion) h.hop = p) (hresend : s.resendOn p.1 p.2 = none) :
    exec (.halo k c a h) s =
      match (if h.companion then s.sendableComp (4 * k + a) else some (s.arr (4 * k + a)).fwdHalf) with
      | none => .next ((s.pruneSlots k).faultCtx k c 0x0A (4 * k + a))
      | some f =>
        match (s.pruneSlots k).collides (hopSlots (s.cyc k) (payloadCycles h.companion (s.ring (4 * k + a) f).fmt) (h.back && !h.companion) p.1 p.2) with
        | some x => .next ((s.pruneSlots k).haloCollision k c (4 * k + a) x)
        | none => .next ((s.pruneSlots k).startHop k c (4 * k + a) f p.1 p.2 h (payloadCycles h.companion (s.ring (4 * k + a) f).fmt)) := by
  have hpath' : (s.pruneSlots k).path k (4 * k + a) h.ccw (h.back || h.companion) h.hop = p := hpath
  have hresend' : (s.pruneSlots k).resendOn p.1 p.2 = none := hresend
  show execHalo k c a h s = _
  unfold execHalo
  simp only [hpath', hresend']
  rfl

/-- O14's clauses on HALO. -/
theorem haloTransfers_start :
    (∀ (s : State) (k c a f : Nat) (h : HaloArgs) (p : Nat × List (Nat × Bool)),
      s.path k (4 * k + a) h.ccw (h.back || h.companion) h.hop = p → s.resendOn p.1 p.2 = none →
      (if h.companion then s.sendableComp (4 * k + a) else some (s.arr (4 * k + a)).fwdHalf) = some f →
      (∀ x, (s.pruneSlots k).collides (hopSlots (s.cyc k) (payloadCycles h.companion (s.ring (4 * k + a) f).fmt) (h.back && !h.companion) p.1 p.2) =
          some x → exec (.halo k c a h) s = .next ((s.pruneSlots k).haloCollision k c (4 * k + a) x)) ∧
      ((s.pruneSlots k).collides (hopSlots (s.cyc k) (payloadCycles h.companion (s.ring (4 * k + a) f).fmt) (h.back && !h.companion) p.1 p.2) = none →
        ∃ (t : State) (x : Transfer), exec (.halo k c a h) s = .next t ∧ t.transfers = s.transfers ++ [x] ∧ x.id = s.nextId ∧
          x.src = some (4 * k + a) ∧ x.srcHalf = f ∧ x.dst = p.1 ∧ x.companion = h.companion ∧ x.started = false ∧
          (h.companion = true → (t.comp (4 * k + a) f).st = .sending) ∧
          (h.companion = false → (t.ring (4 * k + a) f).linkReads = (s.ring (4 * k + a) f).linkReads + 1) ∧
          t.agenda = s.agenda ++
            ({ dom := some (s.lowest k), at_ := s.cyc k + 6 * p.2.length, act := .firstByte s.nextId } : Due) ::
            (if h.companion then [] else (List.range 64).map fun i =>
              ({ dom := some (s.lowest k), at_ := s.cyc k + (6 * p.2.length + tileDone (s.ring (4 * k + a) f).fmt i),
                 act := .tileArrive s.nextId i } : Due)) ++
            [({ dom := some (s.lowest k),
                at_ := s.cyc k + (6 * p.2.length + payloadCycles h.companion (s.ring (4 * k + a) f).fmt +
                  (if h.back && !h.companion then 132 else 0)), act := .cmd (.haloTransferArrival s.nextId []) } : Due),
             ({ dom := some (s.lowest k),
                at_ := s.cyc k + (6 * p.2.length - 6 + payloadCycles h.companion (s.ring (4 * k + a) f).fmt + 12),
                act := .cmd (.haloAck s.nextId) } : Due)] ∧
          SameMem s t ∧ SameRegsBut [] s t)) ∧
    (∀ (s : State) (k c a : Nat) (h : HaloArgs),
      s.resendOn (s.path k (4 * k + a) h.ccw true h.hop).1 (s.path k (4 * k + a) h.ccw true h.hop).2 = none → h.companion = true →
      s.sendableComp (4 * k + a) = none → exec (.halo k c a h) s = .next ((s.pruneSlots k).faultCtx k c 0x0A (4 * k + a))) := by
  refine ⟨fun s k c a f h p hpath hresend hhalf => ⟨fun x hcollides => ?_, fun hfree => ?_⟩, fun s k c a h hresend hcomp hnone => ?_⟩
  · rw [execHalo_of_clear hpath hresend]
    simp only [hhalf, hcollides]
  · have hexec := execHalo_of_clear (c := c) hpath hresend
    simp only [hhalf, hfree] at hexec
    rw [State.startHop_eq] at hexec
    obtain ⟨htransfers, hagenda, hsending, hreads, hlowest, hpart, hleaves⟩ := (s.pruneSlots k).fresh.2.hopBegun_spec k (4 * k + a) f p.1 p.2 h
      (payloadCycles h.companion (s.ring (4 * k + a) f).fmt) ((s.pruneSlots k).fresh.2.hopTransfer (s.pruneSlots k).fresh.1 k c (4 * k + a) f p.1 p.2 h)
    have hx : ∀ x, (s.pruneSlots k).fresh.2.hopTransfer (s.pruneSlots k).fresh.1 k c (4 * k + a) f p.1 p.2 h = x → x.id = s.nextId ∧
        x.src = some (4 * k + a) ∧ x.srcHalf = f ∧ x.dst = p.1 ∧ x.companion = h.companion ∧ x.started = false := by
      rintro x rfl
      exact ⟨rfl, rfl, rfl, rfl, rfl, rfl⟩
    generalize (s.pruneSlots k).fresh.2.hopTransfer (s.pruneSlots k).fresh.1 k c (4 * k + a) f p.1 p.2 h = x at *
    obtain ⟨hid, hsrc, hhalf', hdst, hcomp, hstarted⟩ := hx x rfl
    have hu : Leaves (· ∈ ([] : List Nat)) s (s.pruneSlots k).fresh.2 := .upd (.upd .refl)
    have hfmt : h.companion = false → (if h.companion = true then (s.pruneSlots k).fresh.2.comp (4 * k + a) f
        else (s.pruneSlots k).fresh.2.ring (4 * k + a) f).fmt = (s.ring (4 * k + a) f).fmt := fun hc => by rw [hc]; rfl
    generalize (if h.companion = true then (s.pruneSlots k).fresh.2.comp (4 * k + a) f
        else (s.pruneSlots k).fresh.2.ring (4 * k + a) f).fmt = fmt at *
    rw [← hlowest k] at hexec
    generalize (s.pruneSlots k).fresh.2.hopBegun k (4 * k + a) f p.1 p.2 h (payloadCycles h.companion (s.ring (4 * k + a) f).fmt) x = v at *
    have hlow : v.lowest k = s.lowest k := hlowest k
    have hcyc : (v.part (v.lowest k)).seqCycle = s.cyc k := by rw [hlow, hpart]; rfl
    obtain ⟨hag, htr, harr, hl⟩ := v.hopTimed_spec k (s.pruneSlots k).fresh.1 fmt p.2 h (payloadCycles h.companion (s.ring (4 * k + a) f).fmt)
    have hall := (hu.trans hleaves).trans hl
    refine ⟨_, x, hexec, htr.trans htransfers, hid, hsrc, hhalf', hdst, hcomp, hstarted, fun hc => ?_, fun hc => ?_, ?_, hall.sameMem, hall.sameRegsBut⟩
    · have h1 := hsending hc
      unfold State.comp State.arr at h1 ⊢
      rwa [harr]
    · exact (congrArg (fun m => (SMap.get (SMap.get m (4 * k + a)).ring f).linkReads) harr).trans (hreads hc)
    · rw [hag, hagenda, hcyc, hlow]
      unfold hopDues
      rw [← List.append_assoc]
      cases hc : h.companion with
      | true => rfl
      | false => rw [hfmt hc]; rfl
  · have hexec := execHalo_of_clear (c := c) (s := s) (k := k) (a := a) (p := s.path k (4 * k + a) h.ccw true h.hop) (h := h) (by simp [hcomp])
      hresend
    rw [hexec]
    simp only [hcomp, if_true, hnone]

/-! Arrival and acknowledgement. -/

/-- A panel with nothing bad at its end (R70, R71). -/
theorem execHaloTransferArrival_of_panel {s : State} {id : Nat} {x : Transfer} (hx : s.transfer id = some x) (hstarted : x.started = true)
    (harrived : x.arrived = false) (hcomp : x.companion = false) :
    exec (.haloTransferArrival id []) s = .next ((s.modTransfer id fun x => { x with arrived := true }).closeTransfer id) := by
  show execHaloTransferArrival id [] s = _
  unfold execHaloTransferArrival
  rw [hx]
  simp [hstarted, harrived, hcomp]

/-- A tile that fails is asked for again (R70, R72). -/
theorem execHaloTransferArrival_of_bad {s : State} {id u : Nat} {x : Transfer} (hx : s.transfer id = some x) (hstarted : x.started = true)
    (harrived : x.arrived = false) (hcomp : x.companion = false) : exec (.haloTransferArrival id [u]) s = .next (s.askResend id u) := by
  show execHaloTransferArrival id [u] s = _
  unfold execHaloTransferArrival
  rw [hx]
  simp [hstarted, harrived, hcomp]

/-- A companion whose blocks pass, at its end (R151, R161, R163). -/
theorem execHaloTransferArrival_of_companion {s : State} {id : Nat} {x : Transfer} (hx : s.transfer id = some x) (hstarted : x.started = true)
    (harrived : x.arrived = false) (hcomp : x.companion = true) (hgood : x.badBlocks = []) :
    exec (.haloTransferArrival id []) s = .next
      ((((s.writeCompanion x []).modTransfer id fun x => { x with arrived := true }).companionIn x).closeTransfer id) := by
  show execHaloTransferArrival id [] s = _
  unfold execHaloTransferArrival
  rw [hx]
  simp [hstarted, harrived, hcomp, hgood]

/-- A unit asked for again takes the link after the resend before it (R72; log entry 95). -/
theorem State.askResend_of_new {s : State} {id u : Nat} {x : Transfer} (hx : s.transfer id = some x) (hcomp : x.companion = false)
    (hnew : x.resend.contains u = false) : s.askResend id u =
      (s.modTransfer id fun y => { y with
        resend := y.resend ++ [u]
        resendUntil := max (s.part (s.lowest x.core)).resendCycle x.resendUntil + resendCycles x }).afterResend (s.lowest x.core)
        (max (s.part (s.lowest x.core)).resendCycle x.resendUntil + resendCycles x - (s.part (s.lowest x.core)).resendCycle)
        (.cmd (.tileResent id u false)) := by
  have hu : u ∉ x.resend := by simpa using hnew
  unfold State.askResend
  rw [hx]
  simp only [hnew, Bool.false_eq_true, if_false, hcomp]
  rfl

/-- Whether a companion is home, after its half's state alone has changed. -/
theorem State.isHome_modComp (s : State) (A h B i : Nat) (f : Half → Half) : (s.modComp B i f).isHome A h = s.isHome A h := rfl

theorem State.companionIn_spec (s : State) (x : Transfer) : ((s.companionIn x).comp x.dst x.dstHalf).st =
      (if (s.companionIn x).isHome x.dst x.dstHalf then .handoff else (s.comp x.dst x.dstHalf).st) ∧
    (s.companionIn x).transfers = s.transfers ∧ (s.companionIn x).agenda = s.agenda := by
  unfold State.companionIn
  by_cases h : s.isHome x.dst x.dstHalf = true
  · rw [if_pos h, State.isHome_modComp, if_pos h, State.comp_modComp]
    exact ⟨rfl, rfl, rfl⟩
  · rw [if_neg h, if_neg h]
    exact ⟨rfl, rfl, rfl⟩

theorem State.transfer_congr {s t : State} (h : t.transfers = s.transfers) (id : Nat) : t.transfer id = s.transfer id := by
  unfold State.transfer
  rw [h]

/-- The transfer marked acknowledged (R71). -/
def State.acknowledged (s : State) (x : Transfer) : State := s.modTransfer x.id fun y => { y with ackDue := true, acked := true }

/-- The sender's copy and half released (R71, R151, R152). -/
def State.senderFreed (s : State) (x : Transfer) : State :=
  match x.src with
  | none => s
  | some A => if x.companion then s.modComp A x.srcHalf fun _ => {}
    else (s.modRing A x.srcHalf fun y => { y with linkReads := y.linkReads - 1 }).freeRing A x.srcHalf

/-- The receiver's half passed on (R71, R151). -/
def State.receiverPassed (s : State) (x : Transfer) : State :=
  if x.companion then
    if (s.comp x.dst x.dstHalf).st = .filling then s.modComp x.dst x.dstHalf fun y => { y with st := .adding } else s
  else if (s.ring x.dst x.dstHalf).st = .filling then
    (s.modRing x.dst x.dstHalf fun y => { y with st := .held }).freeRing x.dst x.dstHalf
  else s

theorem State.ackTransfer_eq (s : State) (x : Transfer) : s.ackTransfer x = (((s.acknowledged x).senderFreed x).receiverPassed x).closeTransfer x.id := by
  unfold State.ackTransfer State.senderFreed
  cases x.src <;> rfl

theorem State.freeRing_keeps {β : Type} (g : State → β) (hg : ∀ (s : State) m, g { s with arrays := m } = g s) (s : State) (A h : Nat) :
    g (s.freeRing A h) = g s := by
  unfold State.freeRing
  dsimp only
  split
  · exact hg s _
  · rfl

theorem State.senderFreed_keeps {β : Type} (g : State → β) (hg : ∀ (s : State) m, g { s with arrays := m } = g s) (s : State) (x : Transfer) :
    g (s.senderFreed x) = g s := by
  unfold State.senderFreed
  cases x.src with
  | none => rfl
  | some A =>
    dsimp only
    split
    · exact hg s _
    · exact (State.freeRing_keeps g hg _ _ _).trans (hg s _)

theorem State.receiverPassed_keeps {β : Type} (g : State → β) (hg : ∀ (s : State) m, g { s with arrays := m } = g s) (s : State) (x : Transfer) :
    g (s.receiverPassed x) = g s := by
  unfold State.receiverPassed
  repeat' split
  · exact hg s _
  · rfl
  · exact (State.freeRing_keeps g hg _ _ _).trans (hg s _)
  · rfl

theorem State.arrays_closeTransfer (s : State) (id : Nat) : (s.closeTransfer id).arrays = s.arrays := by
  unfold State.closeTransfer
  split
  · split
    · rfl
    · rfl
  · rfl

theorem State.agenda_closeTransfer (s : State) (id : Nat) : (s.closeTransfer id).agenda = s.agenda := by
  unfold State.closeTransfer
  split
  · split
    · rfl
    · rfl
  · rfl

/-- The transfer after its acknowledgement (R71). -/
theorem State.transfer_ackTransfer {s : State} {id : Nat} {x y : Transfer} (hx : s.transfer id = some x) (hid : y.id = id) (hresend : x.resend = [])
    (hreinject : x.reinject = false) : (s.ackTransfer y).transfer id = if x.arrived then none else some { x with ackDue := true, acked := true } := by
  have hxid := Transfer.id_of_transfer hx
  have hack : (s.acknowledged y).transfer id = some { x with ackDue := true, acked := true } := by
    unfold State.acknowledged
    rw [hid]
    exact State.transfer_modTransfer hx hxid
  have hpassed : (((s.acknowledged y).senderFreed y).receiverPassed y).transfer id = some { x with ackDue := true, acked := true } :=
    (State.receiverPassed_keeps (·.transfer id) (fun _ _ => rfl) _ _).trans ((State.senderFreed_keeps (·.transfer id) (fun _ _ => rfl) _ _).trans hack)
  rw [State.ackTransfer_eq, hid]
  exact State.transfer_closeTransfer_of_acked hpassed rfl hresend hreinject

theorem State.agenda_ackTransfer (s : State) (x : Transfer) : (s.ackTransfer x).agenda = s.agenda := by
  rw [State.ackTransfer_eq, State.agenda_closeTransfer]
  exact (State.receiverPassed_keeps State.agenda (fun _ _ => rfl) _ _).trans (State.senderFreed_keeps State.agenda (fun _ _ => rfl) _ _)

theorem State.arrays_ackTransfer (s : State) (x : Transfer) : (s.ackTransfer x).arrays = (((s.acknowledged x).senderFreed x).receiverPassed x).arrays := by
  rw [State.ackTransfer_eq, State.arrays_closeTransfer]

theorem execHaloAck_of_clear {s : State} {id : Nat} {x : Transfer} (hx : s.transfer id = some x) (hacked : x.acked = false) (hresend : x.resend = [])
    (hreinject : x.reinject = false) : exec (.haloAck id) s = .next (s.ackTransfer x) := by
  show execHaloAck id s = _
  unfold execHaloAck
  rw [hx]
  simp [hacked, hresend, hreinject]

theorem execHaloAck_of_resend {s : State} {id : Nat} {x : Transfer} (hx : s.transfer id = some x) (hacked : x.acked = false)
    (hresend : x.resend ≠ [] ∨ x.reinject = true) : exec (.haloAck id) s = .next (s.modTransfer id fun x => { x with ackDue := true }) := by
  show execHaloAck id s = _
  unfold execHaloAck
  rw [hx]
  simp [hacked, hresend]

theorem State.ring_congr {s t : State} (h : t.arrays = s.arrays) (A i : Nat) : t.ring A i = s.ring A i := by
  unfold State.ring State.arr
  rw [h]

theorem State.comp_congr {s t : State} (h : t.arrays = s.arrays) (A i : Nat) : t.comp A i = s.comp A i := by
  unfold State.comp State.arr
  rw [h]

theorem State.ring_modRing_ne (s : State) {A B : Nat} (h i : Nat) (f : Half → Half) (hne : B ≠ A) : (s.modRing A h f).ring B i = s.ring B i :=
  congrArg (fun a : ArrayDyn => SMap.get a.ring i) (State.arr_modArr_ne s _ hne)

theorem State.comp_modComp_ne (s : State) {A B : Nat} (h i : Nat) (f : Half → Half) (hne : B ≠ A) : (s.modComp A h f).comp B i = s.comp B i :=
  congrArg (fun a : ArrayDyn => SMap.get a.comp i) (State.arr_modArr_ne s _ hne)

theorem State.ring_freeRing_ne (s : State) {A B : Nat} (h i : Nat) (hne : B ≠ A) : (s.freeRing A h).ring B i = s.ring B i := by
  unfold State.freeRing
  dsimp only
  split
  · exact s.ring_modRing_ne h i _ hne
  · rfl

/-- A panel's half that its receiver holds now (R71, R151). -/
theorem State.receiverPassed_panel {s : State} {x : Transfer} (hcomp : x.companion = false) (hst : (s.ring x.dst x.dstHalf).st = .filling)
    (hdone : (s.ring x.dst x.dstHalf).done = false) : ((s.receiverPassed x).ring x.dst x.dstHalf).st = .held := by
  have hring := s.ring_modRing x.dst x.dstHalf fun y => { y with st := .held }
  unfold State.receiverPassed
  rw [if_neg (by simp [hcomp]), if_pos hst, ((s.modRing x.dst x.dstHalf fun y => { y with st := .held }).freeRing_spec x.dst x.dstHalf).1, hring]
  simp [hdone]

/-- A companion's halves after its acknowledgement (R151). -/
theorem State.ackTransfer_companion (s : State) {x : Transfer} {A : Nat} (hcomp : x.companion = true) (hsrc : x.src = some A) (hne : A ≠ x.dst) :
    (s.ackTransfer x).comp A x.srcHalf = {} ∧ ((s.ackTransfer x).comp x.dst x.dstHalf).st =
      (if (s.comp x.dst x.dstHalf).st = .filling then .adding else (s.comp x.dst x.dstHalf).st) := by
  let u := s.acknowledged x
  have hu : u.arrays = s.arrays := rfl
  have hfreed : u.senderFreed x = u.modComp A x.srcHalf fun _ => {} := by
    unfold State.senderFreed
    rw [hsrc]
    simp [hcomp]
  have harr : (s.ackTransfer x).arrays = ((u.modComp A x.srcHalf fun _ => {}).receiverPassed x).arrays := by rw [State.arrays_ackTransfer, ← hfreed]
  have hdst : (u.modComp A x.srcHalf fun _ => {}).comp x.dst x.dstHalf = s.comp x.dst x.dstHalf :=
    (u.comp_modComp_ne _ _ _ (Ne.symm hne)).trans (State.comp_congr hu _ _)
  have hsender : (u.modComp A x.srcHalf fun _ => {}).comp A x.srcHalf = {} := State.comp_modComp ..
  rw [State.comp_congr harr, State.comp_congr harr]
  generalize (u.modComp A x.srcHalf fun _ => {}) = v at *
  unfold State.receiverPassed
  rw [if_pos hcomp, ← hdst]
  split
  · exact ⟨(v.comp_modComp_ne _ _ _ hne).trans hsender, congrArg Half.st (State.comp_modComp ..)⟩
  · exact ⟨hsender, rfl⟩

/-- A forwarded panel's half after its acknowledgement (R151, R152). -/
theorem State.ackTransfer_panel (s : State) {x : Transfer} {A : Nat} (hcomp : x.companion = false) (hsrc : x.src = some A) (hne : A ≠ x.dst) :
    (s.ackTransfer x).ring A x.srcHalf = if (s.ring A x.srcHalf).done = true ∧ (s.ring A x.srcHalf).linkReads - 1 = 0 then {}
      else { s.ring A x.srcHalf with linkReads := (s.ring A x.srcHalf).linkReads - 1 } := by
  let u := s.acknowledged x
  let v := (u.modRing A x.srcHalf fun y => { y with linkReads := y.linkReads - 1 }).freeRing A x.srcHalf
  have hfreed : u.senderFreed x = v := by
    unfold State.senderFreed
    rw [hsrc]
    simp [hcomp, v]
  have harr : (s.ackTransfer x).arrays = (v.receiverPassed x).arrays := by rw [State.arrays_ackTransfer, ← hfreed]
  have hring : (u.modRing A x.srcHalf fun y => { y with linkReads := y.linkReads - 1 }).ring A x.srcHalf =
      { s.ring A x.srcHalf with linkReads := (s.ring A x.srcHalf).linkReads - 1 } := State.ring_modRing ..
  have hv : v.ring A x.srcHalf = if (s.ring A x.srcHalf).done = true ∧ (s.ring A x.srcHalf).linkReads - 1 = 0 then {}
      else { s.ring A x.srcHalf with linkReads := (s.ring A x.srcHalf).linkReads - 1 } := by
    rw [(State.freeRing_spec _ A x.srcHalf).1, hring]
  rw [State.ring_congr harr, ← hv]
  clear_value v
  unfold State.receiverPassed
  rw [if_neg (by simp [hcomp])]
  split
  · rw [State.ring_freeRing_ne _ _ _ hne, State.ring_modRing_ne _ _ _ _ hne]
  · rfl

/-- O14's clauses on HALO_ACK. -/
theorem haloTransfers_ack (s : State) (id : Nat) (x : Transfer) (hx : s.transfer id = some x) (hacked : x.acked = false) (hresend : x.resend = [])
    (hreinject : x.reinject = false) : ∃ t : State, exec (.haloAck id) s = .next t ∧
      t.transfer id = (if x.arrived then none else some { x with ackDue := true, acked := true }) ∧
      (x.src = none → x.companion = false → (s.ring x.dst x.dstHalf).st = .filling → (s.ring x.dst x.dstHalf).done = false →
        (t.ring x.dst x.dstHalf).st = .held) ∧
      (∀ A, x.src = some A → A ≠ x.dst →
        (x.companion = true → t.comp A x.srcHalf = {} ∧
          (t.comp x.dst x.dstHalf).st = (if (s.comp x.dst x.dstHalf).st = .filling then .adding else (s.comp x.dst x.dstHalf).st)) ∧
        (x.companion = false → t.ring A x.srcHalf =
          (if (s.ring A x.srcHalf).done = true ∧ (s.ring A x.srcHalf).linkReads - 1 = 0 then {}
           else { s.ring A x.srcHalf with linkReads := (s.ring A x.srcHalf).linkReads - 1 }))) ∧
      SameMem s t ∧ SameRegsBut [] s t := by
  have hleaves : Leaves (· ∈ ([] : List Nat)) s (s.ackTransfer x) := .ackTransfer .refl
  refine ⟨_, execHaloAck_of_clear hx hacked hresend hreinject, State.transfer_ackTransfer hx (Transfer.id_of_transfer hx) hresend hreinject,
    fun hsrc hcomp hst hdone => ?_, fun A hsrc hne => ⟨fun hcomp => s.ackTransfer_companion hcomp hsrc hne, fun hcomp => s.ackTransfer_panel hcomp hsrc hne⟩,
    hleaves.sameMem, hleaves.sameRegsBut⟩
  have hfreed : (s.acknowledged x).senderFreed x = s.acknowledged x := by
    unfold State.senderFreed
    rw [hsrc]
  rw [State.ring_congr (s.arrays_ackTransfer x), hfreed]
  exact State.receiverPassed_panel (s := s.acknowledged x) hcomp hst hdone

/-- O14's clauses on the end of a transfer and its acknowledgement. -/
theorem haloTransfers_arrival :
    (∀ (s : State) (id : Nat) (x : Transfer), s.transfer id = some x → x.started = true → x.arrived = false → x.companion = false →
      x.acked = false →
      ∃ t : State, exec (.haloTransferArrival id []) s = .next t ∧ t.transfer id = some { x with arrived := true } ∧ t.agenda = s.agenda ∧
        SameMem s t ∧ SameRegsBut [] s t) ∧
    (∀ (s : State) (id u : Nat) (x : Transfer), s.transfer id = some x → x.started = true → x.arrived = false → x.companion = false →
      x.resend.contains u = false →
      ∃ t : State, exec (.haloTransferArrival id [u]) s = .next t ∧
        t.transfer id = some { x with
          resend := x.resend ++ [u], resendUntil := max (s.part (s.lowest x.core)).resendCycle x.resendUntil + resendCycles x } ∧
        t.agenda = s.agenda ++ [({ dom := some (s.lowest x.core), mode := .resend, act := .cmd (.tileResent id u false),
                                   at_ := max (s.part (s.lowest x.core)).resendCycle x.resendUntil + resendCycles x } : Due)] ∧
        SameMem s t ∧ SameRegsBut [] s t) ∧
    (∀ (s : State) (id : Nat) (x : Transfer), s.transfer id = some x → x.started = true → x.arrived = false → x.companion = true →
      x.badBlocks = [] → x.acked = false →
      ∃ t : State, exec (.haloTransferArrival id []) s = .next t ∧ t.transfer id = some { x with arrived := true } ∧
        (t.comp x.dst x.dstHalf).st = (if t.isHome x.dst x.dstHalf then .handoff else (s.comp x.dst x.dstHalf).st) ∧ t.agenda = s.agenda ∧
        t.hbm = s.hbm ∧ t.store = s.store ∧ SameRegsBut [] s t) := by
  refine ⟨fun s id x hx hstarted harrived hcomp hacked => ?_, fun s id u x hx hstarted harrived hcomp hnew => ?_,
    fun s id x hx hstarted harrived hcomp hgood hacked => ?_⟩
  · have hmod := State.transfer_modTransfer (f := fun x => { x with arrived := true }) hx (show x.id = id from Transfer.id_of_transfer hx)
    have hexec := execHaloTransferArrival_of_panel hx hstarted harrived hcomp
    rw [State.closeTransfer_of_unacked hmod hacked] at hexec
    have hleaves : Leaves (· ∈ ([] : List Nat)) s (s.modTransfer id fun x => { x with arrived := true }) := .modTransfer .refl
    exact ⟨_, hexec, hmod, rfl, hleaves.sameMem, hleaves.sameRegsBut⟩
  · have hexec := execHaloTransferArrival_of_bad (u := u) hx hstarted harrived hcomp
    rw [State.askResend_of_new hx hcomp hnew] at hexec
    have hmod := State.transfer_modTransfer (f := fun y => { y with
      resend := y.resend ++ [u]
      resendUntil := max (s.part (s.lowest x.core)).resendCycle x.resendUntil + resendCycles x }) hx (show x.id = id from Transfer.id_of_transfer hx)
    have hleaves := Leaves.afterResend (P := (· ∈ ([] : List Nat))) (k := s.lowest x.core)
      (d := max (s.part (s.lowest x.core)).resendCycle x.resendUntil + resendCycles x - (s.part (s.lowest x.core)).resendCycle)
      (a := .cmd (.tileResent id u false)) (.modTransfer (id := id) (f := fun y => { y with
        resend := y.resend ++ [u]
        resendUntil := max (s.part (s.lowest x.core)).resendCycle x.resendUntil + resendCycles x }) (.refl (s := s)))
    refine ⟨_, hexec, hmod, ?_, hleaves.sameMem, hleaves.sameRegsBut⟩
    have hat : (s.part (s.lowest x.core)).resendCycle + (max (s.part (s.lowest x.core)).resendCycle x.resendUntil + resendCycles x -
        (s.part (s.lowest x.core)).resendCycle) = max (s.part (s.lowest x.core)).resendCycle x.resendUntil + resendCycles x := by omega
    conv_rhs => rw [← hat]
    rfl
  · have hexec := execHaloTransferArrival_of_companion hx hstarted harrived hcomp hgood
    have hbanks : OnlyBanks s (s.writeCompanion x []) := .writeCompanion (.refl s) x []
    have htransfer : (s.writeCompanion x []).transfer id = some x := (hbanks.keeps (·.transfer id) fun _ _ _ => rfl).trans hx
    have hcompanion : (s.writeCompanion x []).comp x.dst x.dstHalf = s.comp x.dst x.dstHalf :=
      hbanks.keeps (·.comp x.dst x.dstHalf) fun _ _ _ => rfl
    have hagenda : (s.writeCompanion x []).agenda = s.agenda := hbanks.keeps State.agenda fun _ _ _ => rfl
    have hw : LeavesHbm (· ∈ ([] : List Nat)) s (s.writeCompanion x []) := hbanks.leavesHbm
    generalize s.writeCompanion x [] = w at *
    have hmod := State.transfer_modTransfer (f := fun x => { x with arrived := true }) htransfer (show x.id = id from Transfer.id_of_transfer hx)
    obtain ⟨hst, htr, hag⟩ := (w.modTransfer id fun x => { x with arrived := true }).companionIn_spec x
    have hin := (State.transfer_congr htr id).trans hmod
    rw [State.closeTransfer_of_unacked hin hacked] at hexec
    have hall := hw.then_ (u := (w.modTransfer id fun x => { x with arrived := true }).companionIn x) (.companionIn (.modTransfer .refl))
    exact ⟨_, hexec, hin, hst.trans (by rw [← hcompanion]; rfl), hag.trans hagenda, hall.hbm, hall.store, hall.sameRegsBut⟩

/-! Resends and re-injections. -/

/-- The acknowledgement that is due after a resend, or the end of one given (R71). -/
def State.resendEnds (s : State) (x : Transfer) : State :=
  let s := if x.companion && x.arrived && !x.acked then s.companionIn x else s
  if x.ackDue && !x.acked then s.ackTransfer { x with resend := [], reinject := false } else s.closeTransfer x.id

theorem State.resendDone_of_last (s : State) {x : Transfer} {u : Nat} (h : x.resend.filter (· != u) = []) : s.resendDone x u =
    ((s.modTransfer x.id fun y => { y with resend := [], reinject := false }).endLull
      ((s.modTransfer x.id fun y => { y with resend := [], reinject := false }).lowest x.core) 0 (resendTag x.id)).resendEnds x := by
  unfold State.resendDone
  rw [h]
  rfl

/-- The transfer, and what stays, once the last unit asked for again is in place (R71, R72, R161). -/
theorem State.resendDone_spec {s : State} {id : Nat} {x y : Transfer} {u : Nat} (hx : s.transfer id = some x) (hid : y.id = id)
    (hrest : y.resend.filter (· != u) = []) (hxacked : x.acked = false) (hacked : y.acked = false) :
    (s.resendDone y u).transfer id = (if y.ackDue = false then some { x with resend := [], reinject := false }
      else if x.arrived then none else some { x with resend := [], reinject := false, ackDue := true, acked := true }) ∧
      (s.resendDone y u).agenda = s.agenda ∧ (s.resendDone y u).evq = s.evq ∧ Leaves (· ∈ eventRegs) s (s.resendDone y u) := by
  subst hid
  have hmod := State.transfer_modTransfer (f := fun y => { y with resend := [], reinject := false }) hx (show x.id = y.id from Transfer.id_of_transfer hx)
  rw [State.resendDone_of_last s hrest]
  let v := s.modTransfer y.id fun y => { y with resend := [], reinject := false }
  let w := v.endLull (v.lowest y.core) 0 (resendTag y.id)
  have hw : w.transfer y.id = some { x with resend := [], reinject := false } :=
    (State.endLull_keeps (·.transfer y.id) (fun _ _ _ _ => rfl) v _ _ _).trans hmod
  have hagenda : w.agenda = s.agenda := State.endLull_keeps State.agenda (fun _ _ _ _ => rfl) v _ _ _
  have hevq : w.evq = s.evq := State.endLull_keeps State.evq (fun _ _ _ _ => rfl) v _ _ _
  have hleaves : Leaves (· ∈ eventRegs) s w := .endLull (.modTransfer .refl) (by simp [eventRegs])
  change (w.resendEnds y).transfer y.id = _ ∧ (w.resendEnds y).agenda = s.agenda ∧ (w.resendEnds y).evq = s.evq ∧ Leaves _ s (w.resendEnds y)
  clear_value w
  unfold State.resendEnds
  dsimp only
  have hin : ∀ {β : Type} (g : State → β), (∀ (s : State) m, g { s with arrays := m } = g s) →
      g (if y.companion && y.arrived && !y.acked then w.companionIn y else w) = g w := fun g hg => by
    split
    · unfold State.companionIn
      split
      · exact hg w _
      · rfl
    · rfl
  have htr := (hin (·.transfer y.id) fun _ _ => rfl).trans hw
  have hag := (hin State.agenda fun _ _ => rfl).trans hagenda
  have hev := (hin State.evq fun _ _ => rfl).trans hevq
  have hl : Leaves (· ∈ eventRegs) s (if y.companion && y.arrived && !y.acked then w.companionIn y else w) := .ite (.companionIn hleaves) hleaves
  generalize (if y.companion && y.arrived && !y.acked then w.companionIn y else w) = z at *
  cases hdue : y.ackDue with
  | false =>
    simp only [Bool.false_and, Bool.false_eq_true, if_false, if_true]
    rw [State.closeTransfer_of_unacked htr hxacked]
    exact ⟨htr, hag, hev, hl⟩
  | true =>
    simp only [hacked, Bool.not_false, Bool.and_self, if_true, Bool.true_eq_false, if_false]
    have hevack : (z.ackTransfer { y with resend := [], reinject := false }).evq = z.evq := by
      rw [State.ackTransfer_eq]
      have hclose : ∀ (t : State) (id : Nat), (t.closeTransfer id).evq = t.evq := fun t id => by
        unfold State.closeTransfer
        repeat' split
        all_goals rfl
      rw [hclose]
      exact (State.receiverPassed_keeps State.evq (fun _ _ => rfl) _ _).trans (State.senderFreed_keeps State.evq (fun _ _ => rfl) _ _)
    exact ⟨State.transfer_ackTransfer htr rfl rfl rfl, (State.agenda_ackTransfer _ _).trans hag, hevack.trans hev, .ackTransfer hl⟩

/-- What a tile resent by its sender keeps of the transfer (R72). -/
theorem State.resentTile_eq {s : State} {x y : Transfer} {u : Nat} (h : s.resentTile x u = some y) :
    y = { x with hdrs := y.hdrs, elems := y.elems } := by
  have hsrc : x.src = none ∨ ∃ A, x.src = some A := by
    cases x.src with
    | none => exact .inl rfl
    | some A => exact .inr ⟨A, rfl⟩
  unfold State.resentTile at h
  rcases hsrc with hsrc | ⟨A, hsrc⟩
  · rw [hsrc] at h
    dsimp only at h
    split at h
    · cases h
      rfl
    · cases h
  · rw [hsrc] at h
    simp only [Option.ite_none_right_eq_some, Option.some.injEq] at h
    rw [← h.2]

/-- An event, with room for it, at one place of the history. -/
theorem State.eventCore_spec {s : State} (j code detail ext : Nat) (h : s.evq.length < 1024) : ∃ e : EventRec,
    (s.eventCore j code detail ext).evq = s.evq ++ [e] ∧ e.code = code ∧ e.detail = detail ∧ (s.eventCore j code detail ext).agenda = s.agenda ∧
      (s.eventCore j code detail ext).transfers = s.transfers ∧ Leaves (· ∈ eventRegs) s (s.eventCore j code detail ext) :=
  ⟨_, State.evq_raise _ h, rfl, rfl, State.raise_keeps State.agenda (fun _ _ _ _ _ => rfl) s _, State.raise_keeps State.transfers
    (fun _ _ _ _ _ => rfl) s _, .raise .refl fun _ h => h⟩

/-- A resent tile that fails again starts the re-injection of its panel (R73). -/
theorem execTileResent_of_bad {s : State} {id u : Nat} {x : Transfer} (hx : s.transfer id = some x) (hcomp : x.companion = false)
    (hasked : x.resend.contains u = true) : exec (.tileResent id u true) s = .next ((s.bump (rHaloResend x.dst) 1).reinject x) := by
  show execTileResent id u true s = _
  unfold execTileResent
  rw [hx]
  simp only [hcomp, hasked, Bool.not_true, Bool.or_self, Bool.false_eq_true, if_false, if_true]

theorem execTileResent_of_good {s : State} {id u : Nat} {x y : Transfer} (hx : s.transfer id = some x) (hcomp : x.companion = false)
    (hasked : x.resend.contains u = true) (hy : s.resentTile x u = some y) : exec (.tileResent id u false) s =
      .next (((((s.bump (rHaloResend x.dst) 1).eventCore x.core 0x010B (resentDetail x u) 0).modTransfer id fun z =>
        { z with hdrs := y.hdrs, elems := y.elems }).writeTile y u).resendDone y u) := by
  have hy' : (s.bump (rHaloResend x.dst) 1).resentTile x u = some y := hy
  show execTileResent id u false s = _
  unfold execTileResent
  rw [hx]
  simp only [hcomp, hasked, Bool.not_true, Bool.or_self, Bool.false_eq_true, if_false, hy']

theorem rHaloResend_notMem_eventRegs {A : Nat} (hA : A < 16) : rHaloResend A ∉ eventRegs := by
  simp only [eventRegs, List.mem_cons, List.not_mem_nil, or_false, rHaloResend, rDbgStatus, rCirEventOvf]
  omega

/-- O14's clause on a resent tile that passes. -/
theorem haloTransfers_tileResent (s : State) (id u : Nat) (x y : Transfer) (hx : s.transfer id = some x) (hcomp : x.companion = false)
    (hresend : x.resend = [u]) (hdst : x.dst < 16) (hroom : s.evq.length < 1024) (hy : s.resentTile x u = some y) (hacked : x.acked = false) :
    ∃ (t : State) (e : EventRec), exec (.tileResent id u false) s = .next t ∧
      t.transfer id = (if x.ackDue = false then some { x with hdrs := y.hdrs, elems := y.elems, resend := [], reinject := false }
        else if x.arrived then none
        else some { x with hdrs := y.hdrs, elems := y.elems, resend := [], reinject := false, ackDue := true, acked := true }) ∧
      t.evq = s.evq ++ [e] ∧ e.code = 0x010B ∧ e.detail = resentDetail x u ∧
      t.fld (rHaloResend x.dst) 47 0 = min (s.fld (rHaloResend x.dst) 47 0 + 1) (2 ^ 48 - 1) ∧
      t.agenda = s.agenda ∧ t.hbm = s.hbm ∧ t.store = s.store ∧ SameRegsBut (rHaloResend x.dst :: eventRegs) s t := by
  have hxid := Transfer.id_of_transfer hx
  have hyx := State.resentTile_eq hy
  have hyid : y.id = id := by rw [hyx]; exact hxid
  have hexec := execTileResent_of_good hx hcomp (by simp [hresend]) hy
  obtain ⟨e, hevq, hcode, hdetail, hagenda, htransfers, hleaves⟩ :=
    (s.bump (rHaloResend x.dst) 1).eventCore_spec x.core 0x010B (resentDetail x u) 0 hroom
  generalize (s.bump (rHaloResend x.dst) 1).eventCore x.core 0x010B (resentDetail x u) 0 = v at *
  have hv : v.transfer id = some x := (State.transfer_congr htransfers id).trans hx
  have hmod := State.transfer_modTransfer (f := fun z => { z with hdrs := y.hdrs, elems := y.elems }) hv (show x.id = id from hxid)
  have hbanks : OnlyBanks _ ((v.modTransfer id fun z => { z with hdrs := y.hdrs, elems := y.elems }).writeTile y u) := .writeTile (.refl _) y u
  have hwtr := (hbanks.keeps (·.transfer id) fun _ _ _ => rfl).trans hmod
  have hwag : _ = v.agenda := hbanks.keeps State.agenda fun _ _ _ => rfl
  have hwev : _ = v.evq := hbanks.keeps State.evq fun _ _ _ => rfl
  have hvregs : LeavesHbm (· ∈ eventRegs) (s.bump (rHaloResend x.dst) 1) ((v.modTransfer id fun z =>
      { z with hdrs := y.hdrs, elems := y.elems }).writeTile y u) := .trans (.then_ .refl hleaves.modTransfer) hbanks.leavesHbm
  generalize (v.modTransfer id fun z => { z with hdrs := y.hdrs, elems := y.elems }).writeTile y u = w at *
  obtain ⟨htr, hag, hev, hl⟩ := State.resendDone_spec (s := w) (x := { x with hdrs := y.hdrs, elems := y.elems }) (y := y) (u := u) hwtr hyid
    (by rw [hyx]; simp [hresend]) hacked (by rw [hyx]; exact hacked)
  have hall := hvregs.then_ hl
  have hdue : y.ackDue = x.ackDue := by rw [hyx]
  rw [hdue] at htr
  refine ⟨_, e, hexec, htr, hev.trans (hwev.trans hevq), hcode, hdetail, ?_, hag.trans (hwag.trans hagenda), hall.hbm, hall.store, fun r hr => ?_⟩
  · have hreg := hall.reg _ (rHaloResend_notMem_eventRegs hdst)
    rw [← State.fld_bump_same]
    unfold State.fld
    rw [hreg]
  · obtain ⟨hne, hr⟩ := not_or.mp (mt List.mem_cons.mpr hr)
    exact (hall.reg r hr).trans ((Leaves.bump (P := (· = rHaloResend x.dst)) .refl rfl).reg r hne)

/-- What an injection again keeps of the transfer (R73). -/
theorem State.injectedAgain_eq (s : State) (x : Transfer) :
    s.injectedAgain x = { x with hdrs := (s.injectedAgain x).hdrs, elems := (s.injectedAgain x).elems } := by
  have hfold : ∀ (l : List Nat) (y : Transfer), (∃ a b, y = { x with hdrs := a, elems := b }) → ∃ a b,
      l.foldl (fun t i => match s.readAgain t.origin (t.keys.getD i 0) i with | .ok cv => t.withTile i cv | .error _ => t) y =
        { x with hdrs := a, elems := b } := by
    intro l
    induction l with
    | nil => exact fun y hy => hy
    | cons i l ih =>
      rintro y ⟨a, b, rfl⟩
      refine ih _ ?_
      dsimp only
      split
      · exact ⟨_, _, rfl⟩
      · exact ⟨a, b, rfl⟩
  obtain ⟨a, b, hab⟩ := hfold (List.range 64) x ⟨x.hdrs, x.elems, rfl⟩
  have heq : s.injectedAgain x = { x with hdrs := a, elems := b } := hab
  rw [heq]

theorem execPanelReinjected_of_good {s : State} {id : Nat} {x : Transfer} (hx : s.transfer id = some x) (hreinject : x.reinject = true)
    (hgood : s.residentBad x = none) : exec (.panelReinjected id) s =
      .next ((((List.range 64).foldl (fun t i => t.writeTile (s.injectedAgain x) i)
        (((s.bump rHaloReinject 1).eventCore x.core 0x010C x.dst (x.origin.tileAddr 0).2).modTransfer id fun z =>
          { z with hdrs := (s.injectedAgain x).hdrs, elems := (s.injectedAgain x).elems })).resendDone { s.injectedAgain x with resend := [] } 0)) := by
  show execPanelReinjected id s = _
  unfold execPanelReinjected
  rw [hx]
  simp only [hreinject, Bool.not_true, Bool.false_eq_true, if_false, hgood]

theorem rHaloReinject_notMem_eventRegs : rHaloReinject ∉ eventRegs := by decide

/-- O14's clause on a panel injected again. -/
theorem haloTransfers_reinjected (s : State) (id : Nat) (x : Transfer) (hx : s.transfer id = some x) (hreinject : x.reinject = true)
    (hgood : s.residentBad x = none) (hroom : s.evq.length < 1024) (hdue : x.ackDue = false) (hacked : x.acked = false) :
    ∃ (t : State) (e : EventRec), exec (.panelReinjected id) s = .next t ∧
      t.transfer id = some { x with hdrs := (s.injectedAgain x).hdrs, elems := (s.injectedAgain x).elems, resend := [], reinject := false } ∧
      t.evq = s.evq ++ [e] ∧ e.code = 0x010C ∧ t.fld rHaloReinject 47 0 = min (s.fld rHaloReinject 47 0 + 1) (2 ^ 48 - 1) ∧
      t.agenda = s.agenda ∧ t.hbm = s.hbm ∧ t.store = s.store ∧ SameRegsBut (rHaloReinject :: eventRegs) s t := by
  have hxid := Transfer.id_of_transfer hx
  have hyx := s.injectedAgain_eq x
  have hexec := execPanelReinjected_of_good hx hreinject hgood
  generalize s.injectedAgain x = y at *
  have hyid : ({ y with resend := [] } : Transfer).id = id := by rw [hyx]; exact hxid
  have hydue : y.ackDue = false := by rw [hyx]; exact hdue
  have hyacked : y.acked = false := by rw [hyx]; exact hacked
  obtain ⟨e, hevq, hcode, -, hagenda, htransfers, hleaves⟩ := (s.bump rHaloReinject 1).eventCore_spec x.core 0x010C x.dst (x.origin.tileAddr 0).2 hroom
  generalize (s.bump rHaloReinject 1).eventCore x.core 0x010C x.dst (x.origin.tileAddr 0).2 = v at *
  have hv : v.transfer id = some x := (State.transfer_congr htransfers id).trans hx
  have hmod := State.transfer_modTransfer (f := fun z => { z with hdrs := y.hdrs, elems := y.elems }) hv (show x.id = id from hxid)
  have hbanks : OnlyBanks _ ((List.range 64).foldl (fun t i => t.writeTile y i) (v.modTransfer id fun z => { z with hdrs := y.hdrs, elems := y.elems })) :=
    .foldl (fun _ i h => .writeTile h y i) _ (.refl _)
  have hwtr := (hbanks.keeps (·.transfer id) fun _ _ _ => rfl).trans hmod
  have hwag : _ = v.agenda := hbanks.keeps State.agenda fun _ _ _ => rfl
  have hwev : _ = v.evq := hbanks.keeps State.evq fun _ _ _ => rfl
  have hvregs : LeavesHbm (· ∈ eventRegs) (s.bump rHaloReinject 1) _ := .trans (.then_ .refl hleaves.modTransfer) hbanks.leavesHbm
  generalize (List.range 64).foldl (fun t i => t.writeTile y i) (v.modTransfer id fun z => { z with hdrs := y.hdrs, elems := y.elems }) = w at *
  obtain ⟨htr, hag, hev, hl⟩ := State.resendDone_spec (s := w) (x := { x with hdrs := y.hdrs, elems := y.elems }) (y := { y with resend := [] }) (u := 0)
    hwtr hyid rfl hacked hyacked
  have hall := hvregs.then_ hl
  refine ⟨_, e, hexec, htr.trans (if_pos (by exact hydue)), hev.trans (hwev.trans hevq), hcode, ?_, hag.trans (hwag.trans hagenda), hall.hbm, hall.store,
    fun r hr => ?_⟩
  · have hreg := hall.reg _ rHaloReinject_notMem_eventRegs
    rw [← State.fld_bump_same]
    unfold State.fld
    rw [hreg]
  · obtain ⟨hne, hr⟩ := not_or.mp (mt List.mem_cons.mpr hr)
    exact (hall.reg r hr).trans ((Leaves.bump (P := (· = rHaloReinject)) .refl rfl).reg r hne)

theorem execCompanionResent_of_bad {s : State} {id u : Nat} {x : Transfer} (hx : s.transfer id = some x) (hcomp : x.companion = true)
    (hasked : x.resend.contains u = true) : exec (.companionResent id u true) s =
      .next (((s.dropTransfer id).endLull (s.lowest x.core) 0 (resendTag id)).fault x.core 0x14 none 0 (compExt (x.hdrs.getD 0 []) u)) := by
  show execCompanionResent id u true s = _
  unfold execCompanionResent
  rw [hx]
  simp only [hcomp, hasked, Bool.not_true, Bool.or_self, Bool.false_eq_true, if_false, Bool.true_or, if_true]

theorem execCompanionResent_of_good {s : State} {id u : Nat} {x : Transfer} (hx : s.transfer id = some x) (hcomp : x.companion = true)
    (hasked : x.resend.contains u = true) (hgood : x.badBlocks.contains u = false) : exec (.companionResent id u false) s =
      .next (((s.eventCore x.core 0x010D x.dst (compExt (x.hdrs.getD 0 []) u)).writeCompUnit x u).resendDone x u) := by
  show execCompanionResent id u false s = _
  unfold execCompanionResent
  rw [hx]
  simp only [hcomp, hasked, hgood, Bool.not_true, Bool.or_self, Bool.false_eq_true, if_false]

/-- O14's clause on a resent unit of a companion that passes. -/
theorem haloTransfers_companionResent (s : State) (id u : Nat) (x : Transfer) (hx : s.transfer id = some x) (hcomp : x.companion = true)
    (hresend : x.resend = [u]) (hroom : s.evq.length < 1024) (hgood : x.badBlocks.contains u = false) (hdue : x.ackDue = false)
    (hacked : x.acked = false) :
    ∃ (t : State) (e : EventRec), exec (.companionResent id u false) s = .next t ∧ t.transfer id = some { x with resend := [], reinject := false } ∧
      t.evq = s.evq ++ [e] ∧ e.code = 0x010D ∧ t.agenda = s.agenda ∧ t.hbm = s.hbm ∧ t.store = s.store ∧ SameRegsBut eventRegs s t := by
  have hxid := Transfer.id_of_transfer hx
  have hexec := execCompanionResent_of_good hx hcomp (by simp [hresend]) hgood
  obtain ⟨e, hevq, hcode, -, hagenda, htransfers, hleaves⟩ := s.eventCore_spec x.core 0x010D x.dst (compExt (x.hdrs.getD 0 []) u) hroom
  generalize s.eventCore x.core 0x010D x.dst (compExt (x.hdrs.getD 0 []) u) = v at *
  have hv : v.transfer id = some x := (State.transfer_congr htransfers id).trans hx
  have hbanks : OnlyBanks v (v.writeCompUnit x u) := .writeCompUnit (.refl v) x u
  have hwtr : (v.writeCompUnit x u).transfer id = some x := (hbanks.keeps (·.transfer id) fun _ _ _ => rfl).trans hv
  have hwag : _ = v.agenda := hbanks.keeps State.agenda fun _ _ _ => rfl
  have hwev : _ = v.evq := hbanks.keeps State.evq fun _ _ _ => rfl
  obtain ⟨htr, hag, hev, hl⟩ := State.resendDone_spec (u := u) hwtr hxid (by simp [hresend]) hacked hacked
  have hall : LeavesHbm (· ∈ eventRegs) s _ := .then_ (.trans (.then_ .refl hleaves) hbanks.leavesHbm) hl
  exact ⟨_, e, hexec, htr.trans (if_pos hdue), hev.trans (hwev.trans hevq), hcode, hag.trans (hwag.trans hagenda), hall.hbm, hall.store,
    hall.sameRegsBut⟩

/-- Settles O14. -/
theorem haloTransfers : Obligations.HaloTransfers := by
  unfold Obligations.HaloTransfers
  obtain ⟨hend, hbad, hcompanion⟩ := haloTransfers_arrival
  refine ⟨haloTransfers_start, ⟨hend, hbad, hcompanion, fun s id x hx hacked hresend => ?_,
    fun s id x hx hacked hresend hreinject hsrc hcomp hst hdone => ?_, fun s id A x hx hacked hresend hreinject hsrc hne => ?_⟩,
    fun s id u x hx hcomp hasked => execTileResent_of_bad hx hcomp hasked,
    fun s id u x y hx hcomp hresend hdst hroom hy hacked => haloTransfers_tileResent s id u x y hx hcomp hresend hdst hroom hy hacked,
    haloTransfers_reinjected, fun s id u x hx hcomp hasked => execCompanionResent_of_bad hx hcomp hasked, haloTransfers_companionResent⟩
  · have hleaves : Leaves (· ∈ ([] : List Nat)) s (s.modTransfer id fun x => { x with ackDue := true }) := .modTransfer .refl
    exact ⟨_, execHaloAck_of_resend hx hacked hresend,
      State.transfer_modTransfer (f := fun x => { x with ackDue := true }) hx (show x.id = id from Transfer.id_of_transfer hx), rfl, hleaves.sameMem,
      hleaves.sameRegsBut⟩
  · obtain ⟨t, hexec, htr, hpanel, -, hmem, hregs⟩ := haloTransfers_ack s id x hx hacked hresend hreinject
    exact ⟨t, hexec, htr, hpanel hsrc hcomp hst hdone, hmem, hregs⟩
  · obtain ⟨t, hexec, htr, -, hsent, hmem, hregs⟩ := haloTransfers_ack s id x hx hacked hresend hreinject
    obtain ⟨hcomp, hpanel⟩ := hsent A hsrc hne
    exact ⟨t, hexec, htr, hcomp, hpanel, hmem, hregs⟩

end Sys2Proof.Machine
end

section
/-! PROOF. Vector descriptors run and write (R206, R209–R223). -/
namespace Sys2Proof.Machine

/-- A result row goes by the core store and the tiles alone. -/
theorem State.resultRow_congr {s t : State} (h : t.store = s.store) (k : Nat) (d : VDesc) (row : Nat) (tiles : List Nat) :
    t.resultRow k d row tiles = s.resultRow k d row tiles := by
  simp only [State.resultRow, State.operandRow, State.storeRead, h]

theorem Leaves.beginVector {P : Nat → Prop} {s t : State} (h : Leaves P s t) {k c idx vclk tail passes tiles : Nat} {desc : List Nat} {w : Bool}
    (hv : P (rVecStatus k)) : Leaves P s (t.beginVector k c idx vclk tail passes tiles desc w) :=
  ((h.modCore.setFld hv).setFld hv).later

/-- What the start of a vector descriptor leaves (R206, R218). -/
theorem State.beginVector_spec (s : State) (k c idx vclk tail passes tiles : Nat) (desc : List Nat) (w : Bool) (hidx : idx < 2048) :
    ∃ r : VecRun, ((s.beginVector k c idx vclk tail passes tiles desc w).core k).vec = some r ∧ r.ctx = c ∧ r.index = idx ∧ r.issuedAt = s.cyc k ∧
      r.tiles = tiles ∧
      (s.beginVector k c idx vclk tail passes tiles desc w).fld (rVecStatus k) 63 63 = 1 ∧
      (s.beginVector k c idx vclk tail passes tiles desc w).fld (rVecStatus k) 10 0 = idx ∧
      ((s.beginVector k c idx vclk tail passes tiles desc w).core k).tq = (s.core k).tq ∧
      ((s.beginVector k c idx vclk tail passes tiles desc w).core k).storeBuf = (s.core k).storeBuf ∧
      ((s.beginVector k c idx vclk tail passes tiles desc w).core k).map = (s.core k).map ∧
      ((s.beginVector k c idx vclk tail passes tiles desc w).core k).links = (s.core k).links ∧
      (s.beginVector k c idx vclk tail passes tiles desc w).agenda =
        s.agenda ++ [({ dom := some (s.lowest k), at_ := s.cyc k + ceilDiv vclk 2, act := .cmd (.vectorDescriptorComplete k) } : Due)] := by
  have hlow : (s.beginVector k c idx vclk tail passes tiles desc w).lowest k = s.lowest k :=
    (Leaves.refl.beginVector (P := fun r => r = rVecStatus k) rfl).lowest (fun j hj => by simp only [rVecStatus, rZenPart]; omega) k
  refine ⟨_, by simp only [State.beginVector, State.core_later, State.core_setFld, State.core_modCore_same]; exact rfl, rfl, rfl, rfl, rfl,
    ?_, ?_, ?_, ?_, ?_, ?_, ?_⟩
  · simp only [State.beginVector, State.fld_later]
    rw [State.fld_setFld_disjoint _ _ _ _ _ _ _ (by omega) (by omega) (by omega) (by omega)]
    exact State.fld_setFld_same _ _ _ _ _ (by omega) (by omega)
  · simp only [State.beginVector, State.fld_later]
    exact (State.fld_setFld_same _ _ _ _ _ (by omega) (by omega)).trans (Nat.mod_eq_of_lt hidx)
  · simp only [State.beginVector, State.core_later, State.core_setFld, State.core_modCore_same]
  · simp only [State.beginVector, State.core_later, State.core_setFld, State.core_modCore_same]
  · simp only [State.beginVector, State.core_later, State.core_setFld, State.core_modCore_same]
  · simp only [State.beginVector, State.core_later, State.core_setFld, State.core_modCore_same]
  · exact congrArg (fun j => s.agenda ++ [({ dom := some j, at_ := (s.part j).seqCycle + ceilDiv vclk 2, act := .cmd (.vectorDescriptorComplete k) } : Due)])
      hlow

/-- A vector descriptor on a free engine whose tiles are there, read late enough and good, runs (R206, R209–R211). -/
theorem execVectorDescriptor_of_ready {s : State} {k c idx : Nat} {u : Bool} {d : VDesc} (hdesc : vdesc (s.vectorDesc k idx) = d)
    (hfree : (s.core k).vec = none) (hlen : ((s.core k).tq.take d.tileCount).length = d.tileCount)
    (htiles : ∀ x ∈ (s.core k).tq.take d.tileCount, x.ok = true ∧ x.hdr.format = d.tileFmt ∧ x.enteredAt + 24 ≤ s.cyc k)
    (hupset : u = false ∨ (s.core k).tq.take d.tileCount = []) (hlink : d.linkIn = 255) :
    exec (.vectorDescriptor k c idx u) s = .next
      ((s.beginVector k c idx d.vclk d.tail d.passes d.tileCount (s.vectorDesc k idx) false).vectorResults k c d) := by
  show execVectorDescriptor k c idx u s = _
  unfold execVectorDescriptor
  subst hdesc
  generalize hd : vdesc (s.vectorDesc k idx) = d at *
  have hempty : (decide (0 < d.tileCount) && ((s.core k).tq.take d.tileCount).isEmpty) = false := by
    generalize (s.core k).tq.take d.tileCount = l at hlen
    cases l with
    | nil => simp [← hlen]
    | cons x xs => simp
  have hlate : ((s.core k).tq.take d.tileCount).zipIdx.any (fun t => decide (s.cyc k + d.needAt t.2 < t.1.enteredAt + 24)) = false := by
    simp only [List.any_eq_false, decide_eq_true_eq]
    intro x hx
    have hold := (htiles x.1 (List.fst_mem_of_mem_zipIdx hx)).2.2
    omega
  have hok : ((s.core k).tq.take d.tileCount).any (fun t => !t.ok) = false := by
    simp only [List.any_eq_false]
    intro x hx
    simp [(htiles x hx).1]
  have hfmt : ((s.core k).tq.take d.tileCount).any (fun t => t.hdr.format != d.tileFmt) = false := by
    simp only [List.any_eq_false]
    intro x hx
    simp [(htiles x hx).2.1]
  have hup : (u && !((s.core k).tq.take d.tileCount).isEmpty) = false := by
    rcases hupset with h | h <;> simp [h]
  simp only [hd]
  rw [if_neg (by simp [hfree]), if_neg (by simp only [hempty, hlate, Bool.or_self, Bool.false_eq_true, not_false_eq_true]),
    if_neg (by simp only [hup, Bool.false_eq_true, not_false_eq_true]), if_neg (by simp only [hok, Bool.false_eq_true, not_false_eq_true]),
    if_neg (by simp only [hfmt, Bool.false_eq_true, not_false_eq_true])]
  have hacq : s.acquireIn k c d.linkIn 4 = (s, .ok) := if_pos hlink
  simp only [hacq]
  refine congrArg Host.Outcome.next ?_
  unfold State.runVector
  exact if_pos (le_of_eq hlen.symm)

/-- The results of a descriptor of no reduction that does not go to the core store (R213, R216). -/
theorem State.vectorResults_buffered (s : State) (k c : Nat) {d : VDesc} (hdst : d.ddst ≠ 1) (hred : d.redOp = 0) :
    Leaves (· = rVecIntSat k) s (s.vectorResults k c d) ∧ (s.vectorResults k c d).agenda = s.agenda ∧
      ((s.vectorResults k c d).core k).vec = (s.core k).vec ∧
      ((s.vectorResults k c d).core k).storeBuf = (s.core k).storeBuf ++ (if d.ddst = 2 then
        (List.range ((d.n1 + 1) * (d.n2 + 1))).flatMap fun i =>
          (s.resultRow k d i (((s.core k).tq.take d.tileCount).flatMap fun x => x.elems)).map fun e => (e.1, cfmtCode d.cfmt, false) else []) := by
  have hwords : ∀ rows, redWords d rows = [] := fun rows => if_pos hred
  simp only [State.vectorResults, hwords, State.writeRed, List.isEmpty_nil, if_true, State.writeRows, hdst, if_false]
  by_cases h : d.ddst = 2
  · simp only [h, if_true]
    refine ⟨(Leaves.refl.bump (by rfl)).modCore, rfl, by simp, ?_⟩
    simp only [State.core_modCore_same, State.core_bump, List.flatMap_map, List.map_map, Function.comp_def]
  · simp only [h, if_false, State.core_bump, List.append_nil, and_true]
    exact ⟨Leaves.refl.bump rfl, rfl⟩

theorem vectorRuns_buffered (s : State) (k c idx : Nat) (u : Bool) (d : VDesc) (ts : List TqTile) (hdesc : vdesc (s.vectorDesc k idx) = d)
    (hfree : (s.core k).vec = none) (hts : (s.core k).tq.take d.tileCount = ts) (hlen : ts.length = d.tileCount)
    (htiles : ∀ x ∈ ts, x.ok = true ∧ x.hdr.format = d.tileFmt ∧ x.enteredAt + 24 ≤ s.cyc k) (hupset : u = false ∨ ts = [])
    (hlink : d.linkIn = 255) (hdst : d.ddst ≠ 1) (hred : d.redOp = 0) (hidx : idx < 2048) :
    ∃ (t : State) (r : VecRun), exec (.vectorDescriptor k c idx u) s = .next t ∧ (t.core k).vec = some r ∧ r.ctx = c ∧ r.index = idx ∧
      r.issuedAt = s.cyc k ∧ r.tiles = d.tileCount ∧ t.fld (rVecStatus k) 63 63 = 1 ∧ t.fld (rVecStatus k) 10 0 = idx ∧
      (t.core k).storeBuf = (s.core k).storeBuf ++ (if d.ddst = 2 then
        (List.range ((d.n1 + 1) * (d.n2 + 1))).flatMap fun i =>
          (s.resultRow k d i (ts.flatMap fun x => x.elems)).map fun e => (e.1, cfmtCode d.cfmt, false) else []) ∧
      t.agenda = s.agenda ++ [({ dom := some (s.lowest k), at_ := s.cyc k + ceilDiv d.vclk 2, act := .cmd (.vectorDescriptorComplete k) } : Due)] ∧
      SameMem s t ∧ SameRegsBut [rVecIntSat k, rVecStatus k] s t := by
  subst hts
  have hexec := execVectorDescriptor_of_ready (c := c) hdesc hfree hlen htiles hupset hlink
  have hbegun : Leaves (· = rVecStatus k) s (s.beginVector k c idx d.vclk d.tail d.passes d.tileCount (s.vectorDesc k idx) false) :=
    Leaves.refl.beginVector rfl
  obtain ⟨r, hvec, hctx, hindex, hissued, htls, hbusy, hnum, htq, hbuf, -, -, hagenda⟩ :=
    s.beginVector_spec k c idx d.vclk d.tail d.passes d.tileCount (s.vectorDesc k idx) false hidx
  generalize s.beginVector k c idx d.vclk d.tail d.passes d.tileCount (s.vectorDesc k idx) false = b at *
  obtain ⟨hres, hsame, hkept, hout⟩ := b.vectorResults_buffered k c hdst hred
  have hne : ¬ (rVecStatus k = rVecIntSat k) := by simp only [rVecStatus, rVecIntSat]; omega
  have hleaves : Leaves (· ∈ [rVecIntSat k, rVecStatus k]) s (b.vectorResults k c d) :=
    (hbegun.mono (by simp)).trans (hres.mono (by simp))
  refine ⟨_, r, hexec, hkept.trans hvec, hctx, hindex, hissued, htls, (hres.fld hne _ _).trans hbusy, (hres.fld hne _ _).trans hnum, ?_,
    hsame.trans hagenda, hleaves.sameMem, hleaves.sameRegsBut⟩
  rw [hout, hbuf, htq]
  simp only [State.resultRow_congr hbegun.store]

/-- The length of a row's bytes. -/
theorem length_flatMap_leBytes {α : Type} (w : Nat) (f : α → Nat) (l : List α) : (l.flatMap fun e => leBytes w (f e)).length = w * l.length := by
  simp [List.length_flatMap, Function.comp_def, Nat.mul_comm]

/-- The results of a descriptor of one row for the core store, where nothing lies (R213, R214, R216). -/
theorem State.vectorResults_row {s : State} {k : Nat} {d : VDesc} (c : Nat) (htile : d.tileCount = 0) (hdst : d.ddst = 1) (hred : d.redOp = 0)
    (hn1 : d.n1 = 0) (hn2 : d.n2 = 0) (hfit : d.rowAddr d.dbase 6 7 0 + cfmtBytes d.cfmt * (d.n0 + 1) ≤ 0x2000000)
    (htable : s.tableHit k (d.rowAddr d.dbase 6 7 0) (cfmtBytes d.cfmt * (d.n0 + 1)) = false)
    (hlinks : s.linkHits k 1 0 (d.rowAddr d.dbase 6 7 0) (cfmtBytes d.cfmt * (d.n0 + 1)) = []) :
    s.vectorResults k c d = (s.bump (rVecIntSat k) ((s.resultRow k d 0 []).countP (·.2))).storeWrite k (d.rowAddr d.dbase 6 7 0)
      ((s.resultRow k d 0 []).flatMap fun e => leBytes (cfmtBytes d.cfmt) e.1) := by
  have hwords : ∀ rows, redWords d rows = [] := fun rows => if_pos hred
  have hmay : (s.bump (rVecIntSat k) ((s.resultRow k d 0 []).countP (·.2))).mayWrite k c d.linkOut 8 1 0 (d.rowAddr d.dbase 6 7 0)
      (cfmtBytes d.cfmt * (d.n0 + 1)) = (s.bump (rVecIntSat k) ((s.resultRow k d 0 []).countP (·.2)), true) :=
    State.mayWrite_store c d.linkOut 8 0 hfit htable hlinks
  have hrange : List.range ((d.n1 + 1) * (d.n2 + 1)) = [0] := by rw [hn1, hn2]; rfl
  simp only [State.vectorResults, hwords, State.writeRed, List.isEmpty_nil, if_true, State.writeRows, hdst, OfNat.one_ne_ofNat, if_false, hrange,
    htile, List.take_zero, List.flatMap_nil, List.map_cons, List.map_nil, List.foldl_cons, List.foldl_nil, List.zipIdx_cons, List.zipIdx_nil,
    Bool.not_true, Bool.false_eq_true, Nat.zero_add, hmay, List.flatMap_map]

theorem vectorRuns_stored (s : State) (k c idx : Nat) (u : Bool) (d : VDesc) (hdesc : vdesc (s.vectorDesc k idx) = d) (hfree : (s.core k).vec = none)
    (htile : d.tileCount = 0) (hlink : d.linkIn = 255) (hdst : d.ddst = 1) (hred : d.redOp = 0) (hn1 : d.n1 = 0) (hn2 : d.n2 = 0)
    (hfit : d.rowAddr d.dbase 6 7 0 + cfmtBytes d.cfmt * (d.n0 + 1) ≤ 0x2000000)
    (htable : s.tableHit k (d.rowAddr d.dbase 6 7 0) (cfmtBytes d.cfmt * (d.n0 + 1)) = false)
    (hlinks : s.linkHits k 1 0 (d.rowAddr d.dbase 6 7 0) (cfmtBytes d.cfmt * (d.n0 + 1)) = []) :
    ∃ (t : State) (b : List Nat), exec (.vectorDescriptor k c idx u) s = .next t ∧ b = (s.resultRow k d 0 []).flatMap (fun e => leBytes (cfmtBytes d.cfmt) e.1) ∧
      b.length = cfmtBytes d.cfmt * (d.n0 + 1) ∧ t.store = memWrite s.store (storeKey k (d.rowAddr d.dbase 6 7 0)) b ∧
      (∀ a, a < storeKey k (d.rowAddr d.dbase 6 7 0) ∨ storeKey k (d.rowAddr d.dbase 6 7 0) + b.length ≤ a →
        memGet t.store a = memGet s.store a) ∧ t.hbm = s.hbm ∧ t.lstore = s.lstore ∧
      SameRegsBut [rVecIntSat k, rVecStatus k] s t := by
  have htake : (s.core k).tq.take d.tileCount = [] := by rw [htile]; rfl
  have hexec := execVectorDescriptor_of_ready (c := c) (u := u) hdesc hfree (by rw [htake]; exact htile.symm) (by simp [htake]) (.inr htake) hlink
  have hbegun : Leaves (· = rVecStatus k) s (s.beginVector k c idx d.vclk d.tail d.passes d.tileCount (s.vectorDesc k idx) false) :=
    Leaves.refl.beginVector rfl
  have hcore : ∀ {β : Type} (g : Core → β), (∀ co v u, g { co with vec := v, update := u } = g co) →
      g ((s.beginVector k c idx d.vclk d.tail d.passes d.tileCount (s.vectorDesc k idx) false).core k) = g (s.core k) := by
    intro β g hg
    simp only [State.beginVector, State.core_later, State.core_setFld, State.core_modCore_same, hg]
  have hmap := hcore Core.map fun _ _ _ => rfl
  have hlnk := hcore Core.links fun _ _ _ => rfl
  clear hcore
  generalize s.beginVector k c idx d.vclk d.tail d.passes d.tileCount (s.vectorDesc k idx) false = b at *
  rw [State.vectorResults_row c htile hdst hred hn1 hn2 hfit ((State.tableHit_congr hmap ..).trans htable) ((State.linkHits_congr hlnk ..).trans hlinks),
    State.resultRow_congr hbegun.store] at hexec
  have hlen : ((s.resultRow k d 0 []).flatMap fun e => leBytes (cfmtBytes d.cfmt) e.1).length = cfmtBytes d.cfmt * (d.n0 + 1) :=
    (length_flatMap_leBytes _ _ _).trans (by simp [State.resultRow])
  generalize hbytes : ((s.resultRow k d 0 []).flatMap fun e => leBytes (cfmtBytes d.cfmt) e.1) = bs at *
  have hstore : ((b.bump (rVecIntSat k) ((s.resultRow k d 0 []).countP (·.2))).storeWrite k (d.rowAddr d.dbase 6 7 0) bs).store =
      memWrite s.store (storeKey k (d.rowAddr d.dbase 6 7 0)) bs := congrArg (fun m => memWrite m _ bs) hbegun.store
  refine ⟨_, bs, hexec, rfl, hlen, hstore, ?_, hbegun.hbm, hbegun.lstore, ?_⟩
  · intro a ha
    rw [hstore]
    exact (memGet_memWrite ..).trans (if_neg (by omega))
  · exact ((hbegun.mono (by simp)).trans ((Leaves.refl.bump rfl : Leaves (· = rVecIntSat k) b _).mono (by simp))).reg

/-- Settles O15: a vector descriptor that is ready runs, and its rows go to the store stage or to the core store. -/
theorem vectorRuns : Obligations.VectorRuns :=
  ⟨fun s k c idx u d ts _ hdesc hfree hts hlen htiles hupset hlink hdst hred hidx =>
      vectorRuns_buffered s k c idx u d ts hdesc hfree hts hlen htiles hupset hlink hdst hred hidx,
    fun s k c idx u d _ hdesc hfree htile hlink hdst hred hn1 hn2 hfit htable hlinks =>
      vectorRuns_stored s k c idx u d hdesc hfree htile hlink hdst hred hn1 hn2 hfit htable hlinks⟩

end Sys2Proof.Machine
end

section
/-! PROOF. Update descriptors (R235–R262, R267, R270). -/
namespace Sys2Proof.Machine

/-- What a step that writes a core store alone leaves unchanged: HBM, the local stores and the mailbox buffers. -/
structure StoreOnly (s t : State) : Prop where
  hbm : t.hbm = s.hbm
  lstore : t.lstore = s.lstore
  mbuf : t.mbuf = s.mbuf

namespace StoreOnly
variable {s t u : State}

theorem refl : StoreOnly s s := ⟨rfl, rfl, rfl⟩

/-- A step that reports, after one that writes a core store alone. -/
theorem reports {P : Nat → Prop} (h : StoreOnly s t) (g : Reports P t u) : StoreOnly s u := ⟨g.hbm.trans h.hbm, g.lstore.trans h.lstore, g.mbuf.trans h.mbuf⟩

theorem setReg {k : Nat} {v : Word} (h : StoreOnly s t) : StoreOnly s (t.setReg k v) := ⟨h.hbm, h.lstore, h.mbuf⟩
theorem bump {k n : Nat} (h : StoreOnly s t) : StoreOnly s (t.bump k n) := h.setReg
theorem setFld {k hi lo v : Nat} (h : StoreOnly s t) : StoreOnly s (t.setFld k hi lo v) := h.setReg
theorem modCore {k : Nat} {f : Core → Core} (h : StoreOnly s t) : StoreOnly s (t.modCore k f) := ⟨h.hbm, h.lstore, h.mbuf⟩
theorem modCtx {k c : Nat} {f : Ctx → Ctx} (h : StoreOnly s t) : StoreOnly s (t.modCtx k c f) := h.modCore
theorem storeWrite {k a : Nat} {bs : List Nat} (h : StoreOnly s t) : StoreOnly s (t.storeWrite k a bs) := ⟨h.hbm, h.lstore, h.mbuf⟩
theorem eventCore {j code detail ext : Nat} (h : StoreOnly s t) : StoreOnly s (t.eventCore j code detail ext) := h.reports (.eventCore ..)
theorem faultCtx {j c code ext : Nat} (h : StoreOnly s t) : StoreOnly s (t.faultCtx j c code ext) := h.reports (.faultCtx ..)
theorem linkFault {k c logical code kind : Nat} (h : StoreOnly s t) : StoreOnly s (t.linkFault k c logical code kind) :=
  (h.reports (.semFault ..)).faultCtx

theorem ite {c : Prop} [Decidable c] (ht : StoreOnly s t) (hu : StoreOnly s u) : StoreOnly s (if c then t else u) := by split <;> assumption
theorem ite_fst {α : Type} {c : Prop} [Decidable c] {p q : State × α} (ht : StoreOnly s p.1) (hu : StoreOnly s q.1) :
    StoreOnly s (if c then p else q).1 := by split <;> assumption
theorem foldl {α : Type} {f : State → α → State} {l : List α} (hf : ∀ t, ∀ a ∈ l, StoreOnly s t → StoreOnly s (f t a)) :
    StoreOnly s t → StoreOnly s (l.foldl f t) := by
  induction l generalizing t with
  | nil => exact id
  | cons a l ih => exact fun h => ih (fun t b hb => hf t b (List.mem_cons_of_mem _ hb)) (hf t a (List.mem_cons_self ..) h)

theorem acquireProd {k c m eng : Nat} (h : StoreOnly s t) : StoreOnly s (t.acquireProd k c m eng).1 :=
  ite_fst h.linkFault (ite_fst h (ite_fst h.linkFault h.setFld.modCore))

theorem halfRefused {k j m c addr : Nat} (h : StoreOnly s t) : StoreOnly s (t.halfRefused k j m (some c) addr) := (h.reports (.semFault ..)).faultCtx

theorem mayWrite {k c m eng space arr addr len : Nat} (h : StoreOnly s t) : StoreOnly s (t.mayWrite k c m eng space arr addr len).1 := by
  have hrefused : ∀ j x, StoreOnly s (t.halfRefused k j x (some c) addr) := fun _ _ => h.halfRefused
  unfold State.mayWrite
  refine ite_fst h.faultCtx (ite_fst h.faultCtx (ite_fst h.faultCtx (ite_fst h.faultCtx ?_)))
  dsimp only
  generalize List.find? _ _ = near
  generalize (if space = 0 then (t.farHits k addr len).head? else none) = far
  rcases near with _ | near
  · rcases far with _ | far
    · exact ite_fst h (ite_fst h.linkFault h.acquireProd)
    · exact hrefused _ _
  · exact hrefused _ _

/-- A write of a core store behind its ownership check. -/
theorem checkedWrite {k c m eng space arr addr len a : Nat} {bs : List Nat} (h : StoreOnly s t) :
    StoreOnly s (if (t.mayWrite k c m eng space arr addr len).2 then (t.mayWrite k c m eng space arr addr len).1.storeWrite k a bs
      else (t.mayWrite k c m eng space arr addr len).1) := .ite h.mayWrite.storeWrite h.mayWrite

theorem putOut {k c m off : Nat} {ws : List Nat} (h : StoreOnly s t) : StoreOnly s (t.putOut k c m off ws) := .ite h h.checkedWrite

theorem toStore {k : Nat} {wc : Bool} {es : List Nat} (h : StoreOnly s t) : StoreOnly s (t.toStore k wc es) := h.modCore

theorem denseTile {k c : Nat} {d : UDesc} {o : SchOut} {sg i : Nat} (h : StoreOnly s t) : StoreOnly s (t.denseTile k c d o sg i) := by
  have hput : ∀ {v : State} {w x y : List Nat} {off : Nat} {z : List Nat}, StoreOnly s v →
      StoreOnly s (if d.wc then (((v.putOut k c d.linkWO off w).putOut k c d.linkS1O off x).putOut k c d.linkS2O off y).toStore k true z
        else ((v.putOut k c d.linkWO off w).putOut k c d.linkS1O off x).putOut k c d.linkS2O off y) :=
    fun hv => .ite hv.putOut.putOut.putOut.toStore hv.putOut.putOut.putOut
  exact .ite (hput h.bump) (.ite (hput h.bump.eventCore) (hput h))

theorem rowTile {k c : Nat} {d : UDesc} {o : SchOut} {sg i : Nat} (h : StoreOnly s t) : StoreOnly s (t.rowTile k c d o sg i) :=
  .ite h.bump.putOut.toStore (.ite h.bump.putOut.toStore (.toStore (.putOut (.ite h.bump h))))

theorem schCompute {k j n : Nat} (h : StoreOnly s t) : StoreOnly s (t.schCompute k j n) := by
  have hstaged : StoreOnly s (t.enterStaged k j) := .foldl (fun v p _ hv => hv.setReg) h.modCore
  exact hstaged.setReg.setReg.setReg.setReg.setReg.modCore

theorem schedule {k j n : Nat} (h : StoreOnly s t) : StoreOnly s (t.schedule k j n).1 := ite_fst h h.schCompute

theorem beginVector {k c idx vclk tail passes tiles : Nat} {desc : List Nat} {w : Bool} (h : StoreOnly s t) :
    StoreOnly s (t.beginVector k c idx vclk tail passes tiles desc w) := ⟨h.hbm, h.lstore, h.mbuf⟩

theorem runUpdate {k c idx : Nat} {d : UDesc} {desc : List Nat} (h : StoreOnly s t) : StoreOnly s (t.runUpdate k c idx d desc) :=
  .beginVector (.foldl (fun v _ _ hv => .ite hv.denseTile hv.rowTile) h.schedule)

theorem settleFreeze {k : Nat} (h : StoreOnly s t) : StoreOnly s (t.settleFreeze k) := .ite h.modCore ⟨h.hbm, h.lstore, h.mbuf⟩

end StoreOnly

/-- An entry whose number stands once is changed by `mapVals` as every other. -/
theorem SMap.get_mapVals_of_unique {α : Type} [Inhabited α] [DecidableEq α] {f : α → α} {k : Nat} {v : α} (hv : v ≠ default) (hf : f v ≠ default)
    {m : SMap α} (honly : ∀ e ∈ m, e.1 = k → e.2 = v) (hget : SMap.get m k = v) : SMap.get (SMap.mapVals f m) k = f v := by
  induction m with
  | nil => exact absurd hget.symm hv
  | cons e m ih =>
    obtain ⟨j, w⟩ := e
    by_cases hj : j = k
    · have hw : w = v := honly (j, w) (List.mem_cons_self ..) hj
      subst hj hw
      simp [SMap.mapVals, hf, SMap.get]
    · have hrest := ih (fun e he => honly e (List.mem_cons_of_mem _ he)) (by simpa [SMap.get, hj] using hget)
      by_cases hd : f w = default
      · simpa [SMap.mapVals, hd] using hrest
      · simpa [SMap.mapVals, hd, SMap.get, hj] using hrest

theorem SMap.get_mapVals_set {α : Type} [Inhabited α] [DecidableEq α] {f : α → α} {v : α} (hv : v ≠ default) (hf : f v ≠ default) (m : SMap α) (k : Nat) :
    SMap.get (SMap.mapVals f (SMap.set m k v)) k = f v := by
  refine SMap.get_mapVals_of_unique hv hf ?_ (by simp [SMap.get_set])
  intro e he hk
  rw [SMap.set, if_neg hv] at he
  rcases SMap.mem_put _ _ _ _ he with rfl | he
  · rfl
  · exact absurd hk (SMap.mem_erase m k e he)

/-- What settling the freeze words does to the vector engine: nothing (R257). -/
theorem State.vec_settleFreeze {s : State} {k : Nat} {r : VecRun} (h : (s.core k).vec = some r) : ((s.settleFreeze k).core k).vec = some r := by
  unfold State.settleFreeze
  dsimp only
  split
  · simpa using h
  · have hne : ∀ co : Core, co.vec = some r → co ≠ default := by
      intro co hco he
      rw [he] at hco
      exact Option.some_ne_none r (hco.symm.trans rfl)
    have hget : SMap.get (SMap.mapVals (fun c : Core => { c with freezePend := c.freezePend.filter fun p => !p.2.2 })
        (SMap.set s.cores k { s.core k with updWait := false })) k = _ := 
      SMap.get_mapVals_set (f := fun c : Core => { c with freezePend := c.freezePend.filter fun p => !p.2.2 })
        (v := { s.core k with updWait := false }) (hne _ h) (hne _ h) s.cores k
    exact (congrArg Core.vec hget).trans h

/-- Inputs that the engine holds are acquired as they stand (R183). -/
theorem State.acquireAll_of_held {s : State} {k c stage : Nat} {ms : List Nat}
    (h : ∀ m ∈ ms, (s.link k c m).consumer = 8 ∧ (s.linkD k c m).consHolds = true) : s.acquireAll k c stage ms = (s, .ok) := by
  unfold State.acquireAll
  induction ms with
  | nil => rfl
  | cons m ms ih =>
    obtain ⟨hown, hheld⟩ := h m (List.mem_cons_self ..)
    have hone : s.acquireCons k c m 8 stage = (s, .ok) := by
      unfold State.acquireCons
      rw [if_neg (not_not.mpr hown), if_pos hheld]
    simp only [List.foldl_cons, hone]
    exact ih fun m hm => h m (List.mem_cons_of_mem _ hm)

/-- Outputs that the engine holds are acquired as they stand (R183, R184). -/
theorem State.acquireOuts_of_held {s : State} {k c : Nat} {ms : List Nat}
    (h : ∀ m ∈ ms, (s.link k c m).producer = 8 ∧ (s.linkD k c m).prodHolds = true) : s.acquireOuts k c ms = (s, true) := by
  unfold State.acquireOuts
  induction ms with
  | nil => rfl
  | cons m ms ih =>
    obtain ⟨hown, hheld⟩ := h m (List.mem_cons_self ..)
    have hone : s.acquireProd k c m 8 = (s, true) := by
      unfold State.acquireProd
      rw [if_neg (not_not.mpr hown), if_pos hheld]
    simp only [List.foldl_cons, if_true, hone]
    exact ih fun m hm => h m (List.mem_cons_of_mem _ hm)

/-- The run that a vector or update descriptor begins (R206, R218). -/
theorem State.vec_beginVector (s : State) (k c idx vclk tail passes tiles : Nat) (desc : List Nat) (w : Bool) :
    ((s.beginVector k c idx vclk tail passes tiles desc w).core k).vec = some
      { ctx := c, instr := (s.ctx k c).cmdIndex, index := idx, issuedAt := s.cyc k, vclk := vclk, tiles := tiles, writesL := w, passes := passes,
        tail := tail } := by
  simp only [State.beginVector, State.core_later, State.core_setFld, State.core_modCore_same]

/-- An update descriptor on a free engine within its stacks, under no halt policy that a skew would meet, and with its links held, runs (R239, R258). -/
theorem execUpdateDescriptor_of_held {s : State} {k c idx : Nat} {d : UDesc} (hdesc : udesc (s.vectorDesc k idx) = d) (hfree : (s.core k).vec = none)
    (hin : (d.dense && d.outside k) = false) (hgo : (s.skewed k d && bitAt (s.fld (rUpdPolicy k) 7 0) c) = false)
    (hins : ∀ m ∈ d.inputs, (s.link k c m).consumer = 8 ∧ (s.linkD k c m).consHolds = true)
    (houts : ∀ m ∈ d.outputs, (s.link k c m).producer = 8 ∧ (s.linkD k c m).prodHolds = true) :
    exec (.updateDescriptor k c idx) s = .next (((if s.skewed k d then (s.recordSkew k c d).raise
      { code := 0x0E, sev := severityOf 0x0E false, source := k, part := s.lowest k, ctx := c, ext := d.shard } else s).runUpdate k c idx d
        (s.vectorDesc k idx)).settleFreeze k) := by
  show execUpdateDescriptor k c idx s = _
  unfold execUpdateDescriptor
  simp only [hdesc, State.acquireAll_of_held hins, State.acquireOuts_of_held houts, Bool.not_true, Bool.false_eq_true, if_false]
  rw [if_neg (by simp [hfree]), if_neg (by simp [hin]), if_neg (by simp only [hgo]; simp)]

theorem updateRuns_runs (s : State) (k c idx : Nat) (d : UDesc) (hdesc : udesc (s.vectorDesc k idx) = d) (hfree : (s.core k).vec = none)
    (hin : (d.dense && d.outside k) = false) (hskew : s.skewed k d = false)
    (hins : ∀ m ∈ d.inputs, (s.link k c m).consumer = 8 ∧ (s.linkD k c m).consHolds = true)
    (houts : ∀ m ∈ d.outputs, (s.link k c m).producer = 8 ∧ (s.linkD k c m).prodHolds = true) :
    ∃ (t : State) (r : VecRun), exec (.updateDescriptor k c idx) s = .next t ∧ t = (s.runUpdate k c idx d (s.vectorDesc k idx)).settleFreeze k ∧
      (t.core k).vec = some r ∧ r.ctx = c ∧ r.index = idx ∧ r.tiles = 0 ∧ r.writesL = d.dense ∧ r.passes = d.passes ∧
      t.hbm = s.hbm ∧ t.lstore = s.lstore ∧ t.mbuf = s.mbuf := by
  have hexec := execUpdateDescriptor_of_held hdesc hfree hin (by rw [hskew]; rfl) hins houts
  simp only [hskew, Bool.false_eq_true, if_false] at hexec
  have hkept : StoreOnly s ((s.runUpdate k c idx d (s.vectorDesc k idx)).settleFreeze k) := StoreOnly.refl.runUpdate.settleFreeze
  exact ⟨_, _, hexec, rfl, State.vec_settleFreeze (State.vec_beginVector ..), rfl, rfl, rfl, rfl, rfl, hkept.hbm, hkept.lstore, hkept.mbuf⟩

/-- Settles O16: the checks of an update descriptor in their order, and its run. -/
theorem updateRuns : Obligations.UpdateRuns := by
  intro s k c idx d hdesc hfree
  refine ⟨fun hout => ?_, fun hin hskew hhalt => ?_, fun hin hskew hgo hins houts => ?_, fun hin hskew hins houts =>
    updateRuns_runs s k c idx d hdesc hfree hin hskew hins houts⟩
  · show execUpdateDescriptor k c idx s = _
    unfold execUpdateDescriptor
    simp only [hdesc]
    rw [if_neg (by simp [hfree]), if_pos hout]
  · show execUpdateDescriptor k c idx s = _
    unfold execUpdateDescriptor
    simp only [hdesc]
    rw [if_neg (by simp [hfree]), if_neg (by simp [hin]), if_pos (by simp only [hskew, hhalt]; rfl)]
  · rw [execUpdateDescriptor_of_held hdesc hfree hin (by rw [hgo, Bool.and_false]) hins houts, if_pos hskew]

end Sys2Proof.Machine
end

section
/-! PROOF. Companions are handed off and thinned (R164, R183, R274–R278, R283, R285). -/
namespace Sys2Proof.Machine

/-- A write into a half that its engine holds is let through (R184). -/
theorem State.mayWrite_owned {s : State} {k c m eng a n : Nat} (h : s.ownsHalf k c m eng a n) : s.mayWrite k c m eng 1 0 a n = (s, true) := by
  obtain ⟨hm, hfit, htable, hhits, hwithin, hown, hheld⟩ := h
  have hmine : List.find? (fun h => !(decide (m < 128) && h == linkKey c m)) [linkKey c m] = none := by simp [hm]
  have hacq : s.acquireProd k c m eng = (s, true) := by
    unfold State.acquireProd
    rw [if_neg (not_not.mpr hown), if_pos hheld]
  unfold State.mayWrite
  rw [if_neg (by omega), if_neg (by rw [htable]; simp; omega), if_neg (by omega), if_neg (by omega), hhits]
  simp [hm, hwithin, hacq]

/-- What the reduction unit writes into a half that it holds (R278). -/
theorem State.thinWrite_owned {s : State} {k c m off : Nat} {bs : List Nat} (h : s.ownsHalf k c m 9 (s.heldBase k c m false + off) bs.length) :
    ∃ rs, s.thinWrite k c m off bs =
      { s with store := memWrite s.store (storeKey k (s.heldBase k c m false + off)) bs, recoveries := rs } := by
  unfold State.thinWrite
  cases bs with
  | nil => exact ⟨s.recoveries, rfl⟩
  | cons b bs =>
    rw [if_neg (by simp)]
    simp only [State.mayWrite_owned h, if_true]
    exact ⟨_, rfl⟩

/-- The state in which a context's instruction of an earlier number acts (R275). -/
def State.asInstr (s : State) (k c i : Nat) : State := s.modCtx k c fun x => { x with cmdIndex := i }

theorem State.under_eq (s : State) (k c i : Nat) (f : State → State) : s.under k c i f = (f (s.asInstr k c i)).asInstr k c (s.ctx k c).cmdIndex := rfl

theorem Leaves.asInstr {P : Nat → Prop} {s t : State} {k c i : Nat} (h : Leaves P s t) : Leaves P s (t.asInstr k c i) := h.modCtx

theorem State.core_asInstr {β : Type} (g : Core → β) (hg : ∀ co m, g { co with ctxs := m } = g co) (s : State) (k c i j : Nat) :
    g ((s.asInstr k c i).core j) = g (s.core j) := State.core_modCtx_keeps g hg s k c _ j

theorem State.heldBase_congr {s t : State} {k : Nat} (hl : (t.core k).links = (s.core k).links) (hd : (t.core k).linkDyn = (s.core k).linkDyn)
    (c m : Nat) (b : Bool) : t.heldBase k c m b = s.heldBase k c m b := by
  simp only [State.heldBase, State.link, State.linkD, hl, hd]

theorem State.heldBase_asInstr (s : State) (k c i c' m : Nat) (b : Bool) : (s.asInstr k c i).heldBase k c' m b = s.heldBase k c' m b :=
  State.heldBase_congr (s.core_asInstr Core.links (fun _ _ => rfl) k c i k) (s.core_asInstr Core.linkDyn (fun _ _ => rfl) k c i k) c' m b

theorem State.ownsHalf_asInstr {s : State} {k c m eng a n : Nat} (c' i : Nat) (h : s.ownsHalf k c m eng a n) :
    (s.asInstr k c' i).ownsHalf k c m eng a n := by
  have hlinks := s.core_asInstr Core.links (fun _ _ => rfl) k c' i k
  have hmap := s.core_asInstr Core.map (fun _ _ => rfl) k c' i k
  have hdyn := s.core_asInstr Core.linkDyn (fun _ _ => rfl) k c' i k
  simpa only [State.ownsHalf, State.tableHit, State.linkHits, State.link, State.linkD, hlinks, hmap, hdyn] using h

theorem thinningRuns_queue (s : State) (k c idx : Nat) (d : TDesc) (hdesc : tdesc (s.vectorDesc k idx) = d) (hroom : (s.core k).thinQ.length < 4) :
    ∃ t : State, exec (.thinningDescriptor k c idx) s = .next t ∧
      (t.core k).thinQ = (s.core k).thinQ ++
        [(s.vectorDesc k idx, if d.op = 0x51 then s.fld (rVecThinSeg k d.seg) 3 0 else d.klog, c, (s.ctx k c).cmdIndex)] ∧
      SameMem s t ∧ SameRegsBut [] s t := by
  subst hdesc
  refine ⟨_, if_neg (by omega), ?_, (Leaves.refl.modCore : Leaves (· ∈ ([] : List Nat)) s _).sameMem,
    (Leaves.refl.modCore : Leaves (· ∈ ([] : List Nat)) s _).sameRegsBut⟩
  rw [State.core_modCore_same]

/-- A block of a gather companion, whose halves the unit holds, passes unchanged (R276). -/
theorem State.selectBlock_gather {s : State} {k b : Nat} {h : ThinRun} {d : TDesc} (u : Bool) (hd : tdesc h.desc = d) (hop : d.op = 0x52)
    (hok : ((slice h.blocks (128 * b) 128).all BfpBlock.ok) = true)
    (howns : s.ownsHalf k h.ctx d.linkMsg 9 (s.heldBase k h.ctx d.linkMsg false + (64 + 8448 * b))
      ((slice h.blocks (128 * b) 128).flatMap BfpBlock.bytes).length) :
    ∃ rs, s.selectBlock k b u h = ({ s with
        store := memWrite s.store (storeKey k (s.heldBase k h.ctx d.linkMsg false + (64 + 8448 * b)))
          ((slice h.blocks (128 * b) 128).flatMap BfpBlock.bytes)
        recoveries := rs } : State).modCore k fun co => { co with thin := some { h with bytes := h.bytes + ((slice h.blocks (128 * b) 128).flatMap BfpBlock.bytes).length } } := by
  obtain ⟨-, -, -, -, -, hown, hheld⟩ := id howns
  have hacq : s.acquireProd k h.ctx d.linkMsg 9 = (s, true) := by
    unfold State.acquireProd
    rw [if_neg (not_not.mpr hown), if_pos hheld]
  have hthin : (if b = 0 then s.acquireThin k h.ctx d else (s, .ok)) = (s, Acq.ok) := by
    split
    · simp [State.acquireThin, hop, hacq]
    · rfl
  obtain ⟨rs, hwrite⟩ := State.thinWrite_owned howns
  refine ⟨rs, ?_⟩
  unfold State.selectBlock
  simp only [hd, hthin, hok, Bool.not_true, Bool.false_eq_true, if_false, if_pos hop, hwrite]

theorem thinningRuns_gather (s : State) (k b : Nat) (u : Bool) (h : ThinRun) (d : TDesc) (o : List Nat) (hthin : (s.core k).thin = some h)
    (hd : tdesc h.desc = d) (hok : ((slice h.blocks (128 * b) 128).all BfpBlock.ok) = true) (hop : d.op = 0x52)
    (ho : o = (slice h.blocks (128 * b) 128).flatMap BfpBlock.bytes)
    (howns : s.ownsHalf k h.ctx d.linkMsg 9 (s.heldBase k h.ctx d.linkMsg false + (64 + 8448 * b)) o.length) :
    ∃ t : State, exec (.selectionBlockDone k b u) s = .next t ∧ (t.core k).thin = some { h with bytes := h.bytes + o.length } ∧
      t.store = memWrite s.store (storeKey k (s.heldBase k h.ctx d.linkMsg false + (64 + 8448 * b))) o ∧
      t.hbm = s.hbm ∧ t.lstore = s.lstore ∧ SameRegsBut [] s t := by
  subst ho
  have hbase := s.heldBase_asInstr k h.ctx h.instr h.ctx d.linkMsg false
  obtain ⟨rs, hselect⟩ := State.selectBlock_gather (s := s.asInstr k h.ctx h.instr) u hd hop hok (by
    rw [hbase]; exact State.ownsHalf_asInstr h.ctx h.instr howns)
  rw [hbase] at hselect
  generalize (slice h.blocks (128 * b) 128).flatMap BfpBlock.bytes = o at *
  have hexec : exec (.selectionBlockDone k b u) s = .next (s.under k h.ctx h.instr fun s => s.selectBlock k b u h) := by
    show execSelectionBlockDone k b u s = _
    unfold execSelectionBlockDone
    rw [hthin]
  rw [State.under_eq, hselect] at hexec
  refine ⟨_, hexec, ?_, rfl, rfl, rfl, fun r _ => rfl⟩
  rw [State.core_asInstr Core.thin fun _ _ => rfl, State.core_modCore_same]

theorem StoreOnly.thinWrite {s t : State} {k c m off : Nat} {bs : List Nat} (h : StoreOnly s t) : StoreOnly s (t.thinWrite k c m off bs) :=
  .ite h h.checkedWrite

theorem StoreOnly.emitBlock {s t : State} {k j : Nat} {r : ThinRun} {d : TDesc} {resid : List Nat} (h : StoreOnly s t) :
    StoreOnly s (t.emitBlock k r d j resid) := by
  have hmeasure : ∀ {v : State} {x : Nat × Nat}, StoreOnly s v → StoreOnly s (v.measure k d j x) := fun hv => .ite hv hv.modCore
  have hfree : ∀ {v : State} {n : Nat}, StoreOnly s v → StoreOnly s { v with free := n } := fun hv => ⟨hv.hbm, hv.lstore, hv.mbuf⟩
  have hmeasured : ∀ x, StoreOnly s ((t.bump (rVecSelBlocks k) 1).measure k d j x) := fun x => hmeasure h.bump
  have hwritten : ∀ {v : State} {a b : List Nat}, StoreOnly s v →
      StoreOnly s (((v.thinWrite k r.ctx d.linkMsg (64 + r.bytes) a).thinWrite k r.ctx d.linkROut (8200 * j) b)) := fun hv => hv.thinWrite.thinWrite
  exact .modCore (.ite (.eventCore (.bump (hwritten (.ite (hfree (hmeasured _)) (hmeasured _)))))
    (.bump (hwritten (.ite (hfree (hmeasured _)) (hmeasured _)))))

theorem State.thin_emitBlock (s : State) (k : Nat) (r : ThinRun) (d : TDesc) (j : Nat) (resid : List Nat) :
    ((s.emitBlock k r d j resid).core k).thin ≠ none := by
  unfold State.emitBlock
  dsimp only
  rw [State.core_modCore_same]
  exact Option.some_ne_none _

/-- A block that the unit thins, once what it goes by is known (R225–R227, R279–R283). -/
theorem thinningRuns_emit (s : State) (k b : Nat) (u : Bool) (h : ThinRun) (d : TDesc) (resid : List Nat) (hthin : (s.core k).thin = some h)
    (hselect : (s.asInstr k h.ctx h.instr).selectBlock k b u h = (s.asInstr k h.ctx h.instr).emitBlock k h d b resid) :
    ∃ t : State, exec (.selectionBlockDone k b u) s = .next t ∧ t = s.under k h.ctx h.instr (fun v => v.emitBlock k h d b resid) ∧
      (t.core k).thin ≠ none ∧ t.hbm = s.hbm ∧ t.lstore = s.lstore := by
  have hexec : exec (.selectionBlockDone k b u) s = .next (s.under k h.ctx h.instr fun s => s.selectBlock k b u h) := by
    show execSelectionBlockDone k b u s = _
    unfold execSelectionBlockDone
    rw [hthin]
  rw [State.under_eq, hselect] at hexec
  have hkept : StoreOnly s (s.under k h.ctx h.instr (fun v => v.emitBlock k h d b resid)) := StoreOnly.refl.modCtx.emitBlock.modCtx
  refine ⟨_, hexec, rfl, ?_, hkept.hbm, hkept.lstore⟩
  rw [State.core_asInstr Core.thin fun _ _ => rfl]
  exact State.thin_emitBlock _ _ _ _ _ _

theorem State.selectBlock_fresh {s : State} {k b : Nat} {h : ThinRun} {d : TDesc} (u : Bool) (hd : tdesc h.desc = d) (hop : d.op ≠ 0x52)
    (hok : ((slice h.blocks (128 * b) 128).all BfpBlock.ok) = true) (hz : d.rzero = true) (hb : b ≠ 0) :
    s.selectBlock k b u h = s.emitBlock k h d b [] := by
  unfold State.selectBlock
  simp only [hd, if_neg hb, hok, Bool.not_true, Bool.false_eq_true, if_false, if_neg hop, hz, if_true]

theorem State.selectBlock_residual {s : State} {k b : Nat} {h : ThinRun} {d : TDesc} {o : List Nat} (hd : tdesc h.desc = d) (hop : d.op ≠ 0x52)
    (hok : ((slice h.blocks (128 * b) 128).all BfpBlock.ok) = true) (hz : d.rzero = false) (hb : b ≠ 0)
    (ho : o = s.storeRead k (s.heldBase k h.ctx d.linkRIn true + 8200 * b) 8192)
    (hcheck : leNat (s.storeRead k (s.heldBase k h.ctx d.linkRIn true + 8200 * b + 8192) 8) = residualCheck d.key b (d.step - 1) o) :
    s.selectBlock k b false h = s.emitBlock k h d b ((chunksOf 2 4096 o).map leNat) := by
  unfold State.selectBlock
  simp only [hd, if_neg hb, hok, Bool.not_true, Bool.false_eq_true, if_false, if_neg hop, hz, ← ho, hcheck, ne_eq, not_true_eq_false]

theorem thinningRuns_handoff (s : State) (k e : Nat) :
    ∃ t : State, exec (.handoffComplete k e false) s = .next t ∧
      t.comp (4 * k + (sdesc (SMap.get (s.core k).engines e).desc).srcArray) ((SMap.get (s.core k).engines e).srcBase % 2) = {} ∧
      (t.core k).thin = (s.core k).thin ∧ SameMem s t ∧ SameRegsBut [] s t := by
  have hexec : exec (.handoffComplete k e false) s = .next (s.modComp (4 * k + (sdesc (SMap.get (s.core k).engines e).desc).srcArray)
      ((SMap.get (s.core k).engines e).srcBase % 2) fun _ => {}) := by
    show execHandoffComplete k e false s = _
    unfold execHandoffComplete
    dsimp only
    split <;> rfl
  have hleaves : Leaves (· ∈ ([] : List Nat)) s _ := Leaves.refl.modComp (A := 4 * k + (sdesc (SMap.get (s.core k).engines e).desc).srcArray)
    (h := (SMap.get (s.core k).engines e).srcBase % 2) (f := fun _ => {})
  exact ⟨_, hexec, State.comp_modComp .., rfl, hleaves.sameMem, hleaves.sameRegsBut⟩

/-- A producer's release as it changes its link (R183, R186). -/
def LinkDyn.handedOver (two : Bool) (d : LinkDyn) : LinkDyn :=
  { d with prodHolds := false, prodHalf := if two then 1 - d.prodHalf else 0, fullSoon := d.fullSoon + 1, pendingRelease := false }

/-- A producer's release that raises no semaphore above the halves, in a partition in no Lull (R183, R185, R186). -/
theorem State.applyRelease_prod {s : State} {k c m : Nat} (hlull : (s.part (s.lowest k)).lull = [])
    (hroom : s.semVal k c (2 * m) + (s.linkD k c m).fullSoon + 1 ≤ (s.link k c m).halves) :
    s.applyRelease k c m false =
      (let t := (s.modLink k c m (LinkDyn.handedOver ((s.link k c m).halves == 2))).after (some (s.lowest k)) 2 (.releaseVisible k c m false)
       if (s.link k c m).consumer = 0x0B then t.after (some (s.lowest k)) 2 (.sendHalf k c m) else t) := by
  have hlink : ∀ f, ((s.modLink k c m f).link k c m) = s.link k c m := fun f => by simp [State.link, State.modLink]
  have hafter : ((s.modLink k c m (LinkDyn.handedOver ((s.link k c m).halves == 2))).after (some (s.lowest k)) 2 (.releaseVisible k c m false)).link k c m =
      s.link k c m := hlink _
  unfold State.applyRelease
  dsimp only
  rw [if_neg (by simp only [Bool.false_eq_true, if_false]; omega)]
  simp only [hlull, List.any_nil, Bool.or_self, Bool.false_eq_true, if_false]
  exact if_congr (Eq.to_iff (congrArg (fun l : LinkCfg => l.consumer = 0x0B) hafter)) rfl rfl

/-- What such a release leaves, and what it changes (R183, R186). -/
theorem State.applyRelease_prod_spec {s : State} {k c m : Nat} (hlull : (s.part (s.lowest k)).lull = [])
    (hroom : s.semVal k c (2 * m) + (s.linkD k c m).fullSoon + 1 ≤ (s.link k c m).halves) :
    (s.applyRelease k c m false).cores = (s.modLink k c m (LinkDyn.handedOver ((s.link k c m).halves == 2))).cores ∧
      (s.applyRelease k c m false).parts = s.parts ∧
      (s.applyRelease k c m false).agenda = s.agenda ++
        ({ dom := some (s.lowest k), at_ := (s.part (s.lowest k)).seqCycle + 2, act := .releaseVisible k c m false } : Due) ::
          (if (s.link k c m).consumer = 0x0B then
            [({ dom := some (s.lowest k), at_ := (s.part (s.lowest k)).seqCycle + 2, act := .sendHalf k c m } : Due)] else []) ∧
      Leaves (· ∈ ([] : List Nat)) s (s.applyRelease k c m false) := by
  have hleaves : Leaves (· ∈ ([] : List Nat)) s (s.modLink k c m (LinkDyn.handedOver ((s.link k c m).halves == 2))) := .modCore .refl
  rw [State.applyRelease_prod hlull hroom]
  by_cases hsend : (s.link k c m).consumer = 0x0B
  · rw [if_pos hsend, if_pos hsend]
    exact ⟨rfl, rfl, List.append_assoc .., .after (.after hleaves)⟩
  · rw [if_neg hsend, if_neg hsend]
    exact ⟨rfl, rfl, rfl, .after hleaves⟩

theorem State.linkD_modLink_ne (s : State) (k c : Nat) {m n : Nat} (f : LinkDyn → LinkDyn) (h : n ≠ m) : (s.modLink k c m f).linkD k c n = s.linkD k c n := by
  have hkey : linkKey c n ≠ linkKey c m := by simp only [linkKey]; omega
  simp only [State.linkD, State.modLink, State.core_modCore_same]
  exact SMap.get_mod_ne _ f hkey

/-- The registers that the decision on a segment's k may write (R285). -/
def thinRegs (k seg : Nat) : List Nat := [rVecThinSeg k seg, rVecThinUp k, rVecThinHold k, rVecThinDown k, rVecThinCommit k]

theorem Leaves.decideK {s t : State} {k : Nat} {d : TDesc} (h : Leaves (· ∈ thinRegs k d.seg) s t) : Leaves (· ∈ thinRegs k d.seg) s (t.decideK k d) := by
  have hstep : ∀ {v : State} {a b n : Nat} {p q : Prop} [Decidable p] [Decidable q] {r : Nat}, r ∈ thinRegs k d.seg →
      Leaves (· ∈ thinRegs k d.seg) s v →
      Leaves (· ∈ thinRegs k d.seg) s (((((if p then v.bump r 1 else if q then v.bump (rVecThinDown k) 1 else v).setFld (rVecThinSeg k d.seg) 3 0 n).setFld
        (rVecThinSeg k d.seg) 31 16 a).setFld (rVecThinSeg k d.seg) 63 32 b)) :=
    fun hr hv => (((Leaves.ite (hv.bump hr) (.ite (hv.bump (by simp [thinRegs])) hv)).setFld (by simp [thinRegs])).setFld
      (by simp [thinRegs])).setFld (by simp [thinRegs])
  unfold State.decideK
  split
  · exact h
  · refine .modCore (.setFld (hstep ?_ h) (by simp [thinRegs]))
    split <;> simp [thinRegs]

/-- The decision changes of a core the segments' measurements alone. -/
theorem State.core_decideK {β : Type} (g : Core → β) (hg : ∀ co m, g { co with segs := m } = g co) (s : State) (k : Nat) (d : TDesc) :
    g ((s.decideK k d).core k) = g (s.core k) := by
  unfold State.decideK
  split
  · rfl
  · dsimp only
    rw [State.core_modCore_same, hg]
    split
    · simp only [State.core_setFld, State.core_bump]
    · split <;> simp only [State.core_setFld, State.core_bump]

theorem length_messageHeader (kind : Nat) (d : TDesc) (src : Coord) (core segs len : Nat) : (messageHeader kind d src core segs len).length = 64 := by
  simp [messageHeader]

/-- The message's header, written into its half, and the half's release (R183, R295). -/
theorem State.release_header {s : State} {k c m : Nat} {bs : List Nat} (hlen : bs.length = 64) (hlull : (s.part (s.lowest k)).lull = [])
    (howns : s.ownsHalf k c m 9 (s.heldBase k c m false) 64)
    (hroom : s.semVal k c (2 * m) + (s.linkD k c m).fullSoon + 1 ≤ (s.link k c m).halves) :
    ∃ t : State, (s.thinWrite k c m 0 bs).applyRelease k c m false = t ∧
      t.cores = (s.modLink k c m (LinkDyn.handedOver ((s.link k c m).halves == 2))).cores ∧ t.parts = s.parts ∧
      t.store = memWrite s.store (storeKey k (s.heldBase k c m false)) bs ∧ t.hbm = s.hbm ∧ (∀ r, t.reg r = s.reg r) ∧
      t.agenda = s.agenda ++
        ({ dom := some (s.lowest k), at_ := (s.part (s.lowest k)).seqCycle + 2, act := .releaseVisible k c m false } : Due) ::
          (if (s.link k c m).consumer = 0x0B then
            [({ dom := some (s.lowest k), at_ := (s.part (s.lowest k)).seqCycle + 2, act := .sendHalf k c m } : Due)] else []) := by
  obtain ⟨rs, hwrite⟩ := State.thinWrite_owned (off := 0) (bs := bs) (by rw [hlen]; exact howns)
  obtain ⟨hcores, hparts, hagenda, hleaves⟩ := State.applyRelease_prod_spec (k := k) (c := c) (m := m) (s := { s with
    store := memWrite s.store (storeKey k (s.heldBase k c m false)) bs
    recoveries := rs }) hlull hroom
  rw [hwrite]
  exact ⟨_, rfl, hcores, hparts, hleaves.store, hleaves.hbm, fun r => hleaves.reg r (by simp), hagenda⟩

/-- The lowest core of a partition goes by the registers alone. -/
theorem State.lowest_congr {s t : State} (h : ∀ r, t.reg r = s.reg r) (j : Nat) : t.lowest j = s.lowest j := by
  have hfld : ∀ k hi lo, t.fld k hi lo = s.fld k hi lo := fun k hi lo => by simp only [State.fld, h]
  simp only [State.lowest, State.partOf, State.partValid, hfld]

/-- What the release of a companion's message begins with: the header written and the message half handed over (R183, R283, R295). -/
structure MessageReleased (s u : State) (k : Nat) (h : ThinRun) (d : TDesc) (kind : Nat) : Prop where
  written : ((s.asInstr k h.ctx h.instr).thinWrite k h.ctx d.linkMsg 0 (messageHeader kind d (s.asInstr k h.ctx h.instr).me k h.segs h.bytes)).applyRelease
    k h.ctx d.linkMsg false = u
  thinNext : (u.core k).thinNext = (s.core k).thinNext
  msgFree : (u.linkD k h.ctx d.linkMsg).prodHolds = false
  others : ∀ m, m ≠ d.linkMsg → u.linkD k h.ctx m = s.linkD k h.ctx m
  links : (u.core k).links = (s.core k).links
  parts : u.parts = s.parts
  store : u.store = memWrite s.store (storeKey k (s.heldBase k h.ctx d.linkMsg false)) (messageHeader kind d s.me k h.segs h.bytes)
  hbm : u.hbm = s.hbm
  reg : ∀ r, u.reg r = s.reg r
  agenda : u.agenda = s.agenda ++
    [({ dom := some (s.lowest k), at_ := (s.part (s.lowest k)).seqCycle + 2, act := .releaseVisible k h.ctx d.linkMsg false } : Due),
     ({ dom := some (s.lowest k), at_ := (s.part (s.lowest k)).seqCycle + 2, act := .sendHalf k h.ctx d.linkMsg } : Due)]

theorem State.messageReleased {s : State} {k : Nat} {h : ThinRun} {d : TDesc} (kind : Nat) (hlull : (s.part (s.lowest k)).lull = [])
    (howns : s.ownsHalf k h.ctx d.linkMsg 9 (s.heldBase k h.ctx d.linkMsg false) 64) (hcons : (s.link k h.ctx d.linkMsg).consumer = 0x0B)
    (hroom : s.semVal k h.ctx (2 * d.linkMsg) + (s.linkD k h.ctx d.linkMsg).fullSoon + 1 ≤ (s.link k h.ctx d.linkMsg).halves) :
    ∃ u, MessageReleased s u k h d kind := by
  have hlinks := s.core_asInstr Core.links (fun _ _ => rfl) k h.ctx h.instr k
  have hdyn := s.core_asInstr Core.linkDyn (fun _ _ => rfl) k h.ctx h.instr k
  have hlink : ∀ m, (s.asInstr k h.ctx h.instr).link k h.ctx m = s.link k h.ctx m := fun m => congrArg (fun x => SMap.get x _) hlinks
  have hlinkD : ∀ m, (s.asInstr k h.ctx h.instr).linkD k h.ctx m = s.linkD k h.ctx m := fun m => congrArg (fun x => SMap.get x _) hdyn
  have hbase := State.heldBase_congr hlinks hdyn h.ctx d.linkMsg false
  obtain ⟨u, hu, hcores, hparts, hstore, hhbm, hreg, hagenda⟩ := State.release_header (s := s.asInstr k h.ctx h.instr) (k := k) (c := h.ctx) (m := d.linkMsg)
    (bs := messageHeader kind d s.me k h.segs h.bytes) (length_messageHeader ..) hlull
    (by rw [hbase]; exact State.ownsHalf_asInstr h.ctx h.instr howns) (by rw [hlink, hlinkD]; exact hroom)
  have hcore : u.core k = ((s.asInstr k h.ctx h.instr).modLink k h.ctx d.linkMsg
      (LinkDyn.handedOver (((s.asInstr k h.ctx h.instr).link k h.ctx d.linkMsg).halves == 2))).core k := congrArg (fun x => SMap.get x k) hcores
  have hdynOf : ∀ m, u.linkD k h.ctx m = ((s.asInstr k h.ctx h.instr).modLink k h.ctx d.linkMsg
      (LinkDyn.handedOver (((s.asInstr k h.ctx h.instr).link k h.ctx d.linkMsg).halves == 2))).linkD k h.ctx m :=
    fun m => congrArg (fun co : Core => SMap.get co.linkDyn (linkKey h.ctx m)) hcore
  rw [hlink, if_pos hcons] at hagenda
  refine ⟨u, hu, ?_, ?_, fun m hm => ?_, ?_, hparts, ?_, hhbm, hreg, hagenda⟩
  · rw [hcore, State.modLink, State.core_modCore_same]
    exact s.core_asInstr Core.thinNext (fun _ _ => rfl) k h.ctx h.instr k
  · rw [hdynOf, State.linkD_modLink]
    rfl
  · rw [hdynOf, State.linkD_modLink_ne _ _ _ _ hm, hlinkD]
  · rw [hcore, State.modLink, State.core_modCore_same]
    exact hlinks
  · rw [hstore, hbase]
    rfl

theorem thinningRuns_releaseGather (s : State) (k : Nat) (h : ThinRun) (d : TDesc) (hthin : (s.core k).thin = some h) (hd : tdesc h.desc = d)
    (hlull : (s.part (s.lowest k)).lull = []) (howns : s.ownsHalf k h.ctx d.linkMsg 9 (s.heldBase k h.ctx d.linkMsg false) 64)
    (hcons : (s.link k h.ctx d.linkMsg).consumer = 0x0B)
    (hroom : s.semVal k h.ctx (2 * d.linkMsg) + (s.linkD k h.ctx d.linkMsg).fullSoon + 1 ≤ (s.link k h.ctx d.linkMsg).halves) (hop : d.op = 0x52) :
    ∃ t : State, exec (.thinnedMessageRelease k) s = .next t ∧ (t.core k).thin = (s.core k).thinNext ∧
      (t.linkD k h.ctx d.linkMsg).prodHolds = false ∧
      t.store = memWrite s.store (storeKey k (s.heldBase k h.ctx d.linkMsg false)) (messageHeader 1 d s.me k h.segs h.bytes) ∧
      t.agenda = s.agenda ++
        [({ dom := some (s.lowest k), at_ := (s.part (s.lowest k)).seqCycle + 2, act := .releaseVisible k h.ctx d.linkMsg false } : Due),
         ({ dom := some (s.lowest k), at_ := (s.part (s.lowest k)).seqCycle + 2, act := .sendHalf k h.ctx d.linkMsg } : Due)] ∧
      t.hbm = s.hbm ∧ SameRegsBut [] s t := by
  obtain ⟨u, hu⟩ := State.messageReleased 1 hlull howns hcons hroom
  have hdecide : ∀ v : State, v.decideK k d = v := fun v => if_pos (by simp [hop])
  have hexec : exec (.thinnedMessageRelease k) s = .next ((u.asInstr k h.ctx (s.ctx k h.ctx).cmdIndex).endThin k) := by
    show execThinnedMessageRelease k s = _
    unfold execThinnedMessageRelease
    simp only [hthin, hd, hop, if_true, hdecide]
    exact congrArg (fun v : State => Host.Outcome.next ((v.asInstr k h.ctx (s.ctx k h.ctx).cmdIndex).endThin k)) hu.written
  refine ⟨_, hexec, ?_, ?_, hu.store, hu.agenda, hu.hbm, fun r _ => hu.reg r⟩
  · simp only [State.endThin, State.core_modCore_same]
    exact (u.core_asInstr Core.thinNext (fun _ _ => rfl) k h.ctx _ k).trans hu.thinNext
  · simp only [State.linkD, State.endThin, State.core_modCore_same]
    exact (congrArg (fun x => (SMap.get x (linkKey h.ctx d.linkMsg)).prodHolds)
      (u.core_asInstr Core.linkDyn (fun _ _ => rfl) k h.ctx _ k)).trans hu.msgFree

theorem thinningRuns_release (s : State) (k : Nat) (h : ThinRun) (d : TDesc) (hthin : (s.core k).thin = some h) (hd : tdesc h.desc = d)
    (hlull : (s.part (s.lowest k)).lull = []) (howns : s.ownsHalf k h.ctx d.linkMsg 9 (s.heldBase k h.ctx d.linkMsg false) 64)
    (hcons : (s.link k h.ctx d.linkMsg).consumer = 0x0B)
    (hroom : s.semVal k h.ctx (2 * d.linkMsg) + (s.linkD k h.ctx d.linkMsg).fullSoon + 1 ≤ (s.link k h.ctx d.linkMsg).halves) (hop : d.op ≠ 0x52)
    (hne : d.linkROut ≠ d.linkMsg)
    (hout : s.semVal k h.ctx (2 * d.linkROut) + (s.linkD k h.ctx d.linkROut).fullSoon + 1 ≤ (s.link k h.ctx d.linkROut).halves) :
    ∃ t : State, exec (.thinnedMessageRelease k) s = .next t ∧ (t.core k).thin = (s.core k).thinNext ∧
      (t.linkD k h.ctx d.linkMsg).prodHolds = false ∧ (t.linkD k h.ctx d.linkROut).prodHolds = false ∧
      t.store = memWrite s.store (storeKey k (s.heldBase k h.ctx d.linkMsg false)) (messageHeader 2 d s.me k h.segs h.bytes) ∧
      t.hbm = s.hbm ∧ SameRegsBut [rVecThinSeg k d.seg, rVecThinUp k, rVecThinHold k, rVecThinDown k, rVecThinCommit k] s t := by
  obtain ⟨u, hu⟩ := State.messageReleased 2 hlull howns hcons hroom
  have hlow := State.lowest_congr hu.reg k
  have hpart : u.part (u.lowest k) = s.part (s.lowest k) := by rw [hlow]; exact congrArg (fun x => SMap.get x _) hu.parts
  have hsem : u.semVal k h.ctx (2 * d.linkROut) = s.semVal k h.ctx (2 * d.linkROut) := by
    simp only [State.semVal, State.semReg, State.fld, hu.reg]
  have hlink : u.link k h.ctx d.linkROut = s.link k h.ctx d.linkROut := congrArg (fun x => SMap.get x _) hu.links
  obtain ⟨hcores, -, -, hleaves⟩ := State.applyRelease_prod_spec (s := u) (k := k) (c := h.ctx) (m := d.linkROut) (by rw [hpart]; exact hlull)
    (by rw [hsem, hlink, hu.others _ hne]; exact hout)
  have hexec : exec (.thinnedMessageRelease k) s =
      .next ((((u.applyRelease k h.ctx d.linkROut false).asInstr k h.ctx (s.ctx k h.ctx).cmdIndex).decideK k d).endThin k) := by
    show execThinnedMessageRelease k s = _
    unfold execThinnedMessageRelease
    simp only [hthin, hd, if_neg hop]
    exact congrArg (fun v : State => Host.Outcome.next ((((v.applyRelease k h.ctx d.linkROut false).asInstr k h.ctx
      (s.ctx k h.ctx).cmdIndex).decideK k d).endThin k)) hu.written
  generalize u.applyRelease k h.ctx d.linkROut false = v at *
  have hcore : v.core k = (u.modLink k h.ctx d.linkROut (LinkDyn.handedOver ((u.link k h.ctx d.linkROut).halves == 2))).core k :=
    congrArg (fun x => SMap.get x k) hcores
  have hdecided : Leaves (· ∈ thinRegs k d.seg) v (((v.asInstr k h.ctx (s.ctx k h.ctx).cmdIndex).decideK k d).endThin k) :=
    .modCore (.decideK (.asInstr .refl))
  have hkept : ∀ {β : Type} (g : Core → β), (∀ co m, g { co with ctxs := m } = g co) → (∀ co m, g { co with segs := m } = g co) →
      (∀ co x y, g { co with thin := x, thinNext := y } = g co) →
      g ((((v.asInstr k h.ctx (s.ctx k h.ctx).cmdIndex).decideK k d).endThin k).core k) = g (v.core k) := fun g hc hs ht => by
    rw [State.endThin, State.core_modCore_same, ht, State.core_decideK g hs, State.core_asInstr g hc]
  have hdyn := hkept Core.linkDyn (fun _ _ => rfl) (fun _ _ => rfl) fun _ _ _ => rfl
  refine ⟨_, hexec, ?_, ?_, ?_, (hdecided.store.trans hleaves.store).trans hu.store, (hdecided.hbm.trans hleaves.hbm).trans hu.hbm,
    fun r hr => ((hdecided.reg r hr).trans (hleaves.reg r (by simp))).trans (hu.reg r)⟩
  · rw [State.endThin, State.core_modCore_same]
    refine (State.core_decideK Core.thinNext (fun _ _ => rfl) _ _ _).trans ((v.core_asInstr Core.thinNext (fun _ _ => rfl) k h.ctx _ k).trans ?_)
    rw [hcore, State.modLink, State.core_modCore_same]
    exact hu.thinNext
  · have hget := u.linkD_modLink_ne k h.ctx (m := d.linkROut) (n := d.linkMsg)
      (LinkDyn.handedOver ((u.link k h.ctx d.linkROut).halves == 2)) (Ne.symm hne)
    simp only [State.linkD, hdyn, hcore] at *
    rw [hget]
    exact hu.msgFree
  · have hget := u.linkD_modLink k h.ctx d.linkROut (LinkDyn.handedOver ((u.link k h.ctx d.linkROut).halves == 2))
    simp only [State.linkD, hdyn, hcore] at *
    rw [hget]
    rfl

/-- Settles O18: the queue, the blocks, the hand-off and the release of the reduction unit. -/
theorem thinningRuns : Obligations.ThinningRuns := by
  refine ⟨thinningRuns_queue, fun s k b u h d o hthin hd hok => ⟨fun hop ho howns => thinningRuns_gather s k b u h d o hthin hd hok hop ho howns,
      fun hop hz hb => ?_, fun hop hz hb hu ho hcheck => ?_⟩, thinningRuns_handoff,
    fun s k h d hthin hd hlull howns hcons hroom => ⟨thinningRuns_releaseGather s k h d hthin hd hlull howns hcons hroom,
      fun hop hne _ hout => thinningRuns_release s k h d hthin hd hlull howns hcons hroom hop hne hout⟩⟩
  · exact thinningRuns_emit s k b u h d [] hthin (State.selectBlock_fresh u hd hop hok hz hb)
  · subst hu
    refine thinningRuns_emit s k b false h d _ hthin (State.selectBlock_residual hd hop hok hz hb ?_ ?_)
    · rw [State.heldBase_asInstr]
      exact ho
    · rw [State.heldBase_asInstr]
      exact hcheck

end Sys2Proof.Machine
end

section
/-! PROOF. Collective instances are armed (R301, R302, R305, R311). -/
namespace Sys2Proof.Machine

theorem State.collD_modColl (s : State) (k e : Nat) (f : CollDyn → CollDyn) : (s.modColl k e f).collD k e = f (s.collD k e) := by
  simp only [State.collD, State.modColl, State.part_modPart_same]
  exact SMap.get_mod_same _ _ _

/-- A change of a collective is one of no other part of its partition. -/
theorem State.part_modColl {β : Type} (g : Part → β) (hg : ∀ p m, g { p with collDyn := m } = g p) (s : State) (k e : Nat) (f : CollDyn → CollDyn)
    (j : Nat) : g ((s.modColl k e f).part j) = g (s.part j) := by
  by_cases hj : j = k
  · subst hj
    rw [State.modColl, State.part_modPart_same, hg]
  · have hpart : (s.modColl k e f).part j = s.part j := State.part_modPart_ne s _ hj
    rw [hpart]

theorem Leaves.modColl {P : Nat → Prop} {s t : State} {k e : Nat} {f : CollDyn → CollDyn} (h : Leaves P s t) : Leaves P s (t.modColl k e f) := h.modPart

/-- The deadline of a collective comes from its descriptor and its rendezvous alone (R297, R298). -/
theorem State.collDeadline_modColl (s : State) (k e : Nat) (f : CollDyn → CollDyn) (j coll : Nat) :
    (s.modColl k e f).collDeadline j coll = s.collDeadline j coll := by
  have hcolls := s.part_modColl Part.colls (fun _ _ => rfl) k e f j
  have hrvs := s.part_modColl Part.rvs (fun _ _ => rfl) k e f j
  have hdyn := s.part_modColl Part.rvDyn (fun _ _ => rfl) k e f j
  have hreg : ∀ r, (s.modColl k e f).reg r = s.reg r := fun _ => rfl
  generalize s.modColl k e f = t at *
  simp only [State.collDeadline, State.collEntry, State.rvOfColl, State.shiftOf, State.anchor, hcolls, hrvs, hdyn, hreg]

theorem reductionArms_arm (s : State) (k c e : Nat) : ∃ t : State, exec (.arm k c e) s = .next t ∧ t.collD (s.lowest k) e = { step := s.stepOf k } ∧
    t.agenda = s.agenda ++
      [({ dom := some (s.lowest k), at_ := s.cyc k + (s.collAt (s.lowest k) e).armCycles, act := .cmd (.armComplete (s.lowest k) e) } : Due),
       ({ dom := none, at_ := s.clk.wall + s.untilEnd (s.collDeadline (s.lowest k) (s.collAt (s.lowest k) e).coll),
          act := .cmd (.reduceLate (s.lowest k) e) } : Due)] ∧ SameMem s t ∧ SameRegsBut [] s t := by
  have hleaves : Leaves (· ∈ ([] : List Nat)) s (s.modColl (s.lowest k) e fun _ => { step := s.stepOf k }) := .modColl .refl
  have hcyc := s.part_modColl Part.seqCycle (fun _ _ => rfl) (s.lowest k) e (fun _ => { step := s.stepOf k }) (s.lowest k)
  have hdeadline := s.collDeadline_modColl (s.lowest k) e (fun _ => { step := s.stepOf k }) (s.lowest k) (s.collAt (s.lowest k) e).coll
  refine ⟨_, rfl, State.collD_modColl .., ?_, hleaves.later.laterW.sameMem, hleaves.later.laterW.sameRegsBut⟩
  refine (List.append_assoc ..).trans (congrArg (s.agenda ++ ·) ?_)
  exact congrArg₂ (fun x y =>
    [({ dom := some (s.lowest k), at_ := x + (s.collAt (s.lowest k) e).armCycles, act := .cmd (.armComplete (s.lowest k) e) } : Due),
     ({ dom := none, at_ := s.clk.wall + s.untilEnd y, act := .cmd (.reduceLate (s.lowest k) e) } : Due)]) hcyc hdeadline

/-- What a write of HBM alone leaves unchanged. -/
structure HbmOnly (s t : State) : Prop where
  store : t.store = s.store
  lstore : t.lstore = s.lstore
  parts : t.parts = s.parts
  reg : ∀ r, t.reg r = s.reg r

theorem HbmOnly.refl {s : State} : HbmOnly s s := ⟨rfl, rfl, rfl, fun _ => rfl⟩

theorem HbmOnly.hbmWrite {s t : State} (h : HbmOnly s t) {a : Nat} {bs : List Nat} : HbmOnly s (t.hbmWrite a bs) := ⟨h.store, h.lstore, h.parts, h.reg⟩

theorem HbmOnly.foldl {α : Type} {s : State} {f : State → α → State} (hf : ∀ t a, HbmOnly s t → HbmOnly s (f t a)) (l : List α) :
    ∀ t, HbmOnly s t → HbmOnly s (l.foldl f t) := by
  induction l with
  | nil => exact fun _ h => h
  | cons a l ih => exact fun t h => ih _ (hf t a h)

/-- The zeroing of a collective as it opens (R302, R305). -/
def State.armZeroed (s : State) (k e : Nat) : State :=
  if (s.collAt k e).summed then (List.range (s.collAt k e).panels).foldl (fun t i =>
    t.zeroPanel (Config.accKey (SMap.get (t.part k).colls e)) ((s.collAt k e).acc + i * panelBytes)) s
  else if (s.collAt k e).kind = 3 then s.hbmWrite (s.collAt k e).slot (leBytes 4 0) else s

theorem State.hbmOnly_armZeroed (s : State) (k e : Nat) : HbmOnly s (s.armZeroed k e) := by
  unfold State.armZeroed
  split
  · exact HbmOnly.foldl (fun t i h => h.hbmWrite) _ _ .refl
  · split
    · exact HbmOnly.refl.hbmWrite
    · exact .refl

/-- A count word of zero reads zero. -/
theorem State.hbmRead_hbmWrite_zeros {s : State} {a : Nat} (h : s.heldEnds a 4 = (0, 0)) : leNat ((s.hbmWrite a (leBytes 4 0)).hbmRead a 4) = 0 := by
  have hbytes : leBytes 4 0 = [0, 0, 0, 0] := rfl
  rw [hbytes, State.hbmRead, State.hbm_hbmWrite (show s.heldEnds a [0, 0, 0, 0].length = (0, 0) from h)]
  simp [memRead, memGet_memWrite, leNat, Nat.add_assoc]

theorem reductionArms_opened (s : State) (k e : Nat) : ∃ t : State, exec (.armComplete k e) s = .next t ∧ (t.collD k e).opened = true ∧
    (t.collD k e).step = (s.collD k e).step ∧ ((s.collAt k e).summed = false → (s.collAt k e).kind ≠ 3 → t.hbm = s.hbm) ∧
    ((s.collAt k e).kind = 3 → s.heldEnds (s.collAt k e).slot 4 = (0, 0) → leNat (t.hbmRead (s.collAt k e).slot 4) = 0) ∧ t.store = s.store ∧
    t.lstore = s.lstore ∧ SameRegsBut [] s t := by
  have hexec : exec (.armComplete k e) s = .next ((s.armZeroed k e).modColl k e fun x => { x with opened := true }) := rfl
  obtain ⟨hstore, hlstore, hparts, hreg⟩ := s.hbmOnly_armZeroed k e
  have hcoll : (s.armZeroed k e).collD k e = s.collD k e := by simp only [State.collD, State.part, hparts]
  refine ⟨_, hexec, ?_, ?_, fun hsum hkind => ?_, fun hkind hends => ?_, hstore, hlstore, fun r _ => hreg r⟩
  · rw [State.collD_modColl]
  · rw [State.collD_modColl, hcoll]
  · show (s.armZeroed k e).hbm = s.hbm
    rw [State.armZeroed, if_neg (by simp [hsum]), if_neg hkind]
  · show leNat ((s.armZeroed k e).hbmRead _ 4) = 0
    rw [State.armZeroed, if_neg (by simp [CDesc.summed, hkind]), if_pos hkind]
    exact State.hbmRead_hbmWrite_zeros hends

theorem reductionArms_unlisted (s : State) (p k : Nat) (m : FabricMsg) (hrecv : s.recvPart p m = some k) (hentry : s.collEntry k m.coll = none) :
    exec (.contributionArrival p m 0) s = .next (s.fault k 0x0B none 0 (coordNum m.src)) := by
  show execContributionArrival p m 0 s = _
  unfold execContributionArrival
  simp only [hrecv, hentry]

theorem reductionArms_refused (s : State) (p k e : Nat) (m : FabricMsg) (c : CDesc) (hrecv : s.recvPart p m = some k)
    (hentry : s.collEntry k m.coll = some (e, c)) :
    (((s.collD k e).opened = false ∨ (s.collD k e).step ≠ fieldAt m.content 8 8 ∨ c.owner = false) →
      exec (.contributionArrival p m 0) s = .next (s.fault c.core 0x0B none 0 (coordNum m.src))) ∧
    ((s.collD k e).opened = true → (s.collD k e).step = fieldAt m.content 8 8 → c.owner = true →
      ((if c.summed then s.panelPlace c (fieldAt m.content 6 2) else 0), fieldAt m.content 20 2, 1) ∈ (s.collD k e).counted →
      fieldAt m.content 22 2 ≠ 0 →
      exec (.contributionArrival p m 0) s = .next (s.fault c.core 0x0C none 0 (coordNum m.src))) := by
  constructor
  · intro hnot
    show execContributionArrival p m 0 s = _
    unfold execContributionArrival
    simp only [hrecv, hentry]
    rw [if_neg (by decide), if_pos (by simpa [or_assoc] using hnot)]
  · intro hopen hstep howner hmem hn
    show execContributionArrival p m 0 s = _
    unfold execContributionArrival
    simp only [hrecv, hentry]
    rw [if_neg (by decide), if_neg (by simp [hopen, hstep, howner]), if_pos]
    refine List.any_eq_true.mpr ⟨_, hmem, ?_⟩
    simp only [beq_self_eq_true, Bool.true_and, Bool.and_eq_true, decide_eq_true_eq]
    omega

/-- Settles O19: arming, opening and the two refusals of a contribution. -/
theorem reductionArms : Obligations.ReductionArms :=
  ⟨reductionArms_arm, reductionArms_opened, reductionArms_unlisted, reductionArms_refused⟩

end Sys2Proof.Machine
end

section
/-! PROOF. Contributions are taken, combined, sent again and reported late (R298, R302–R305, R308, R447). -/
namespace Sys2Proof.Machine

/-- What a fault changes at most: registers, the trace, the queue of events, contexts, and of each partition what stops it (R376, R377). -/
structure FaultOnly (s t : State) : Prop where
  state : ∃ r tr q n c p, t = { s with regs := r, trace := tr, evq := q, evLost := n, cores := c, parts := p }
  part : ∀ k, ∃ x y, t.part k = { s.part k with first := x, stopping := y }

namespace FaultOnly
variable {s t u : State}

theorem refl (s : State) : FaultOnly s s := ⟨⟨s.regs, s.trace, s.evq, s.evLost, s.cores, s.parts, rfl⟩, fun k => ⟨(s.part k).first, (s.part k).stopping, rfl⟩⟩

theorem trans (h : FaultOnly s t) (g : FaultOnly t u) : FaultOnly s u := by
  refine ⟨?_, fun k => ?_⟩
  · obtain ⟨r, tr, q, n, c, p, ht⟩ := h.state
    obtain ⟨r', tr', q', n', c', p', hu⟩ := g.state
    exact ⟨r', tr', q', n', c', p', by rw [hu, ht]⟩
  · obtain ⟨x, y, ht⟩ := h.part k
    obtain ⟨x', y', hu⟩ := g.part k
    exact ⟨x', y', by rw [hu, ht]⟩

/-- A change that leaves the partitions' records. -/
theorem of_eq {r : SMap Word} {tr : Trace} {q : List EventRec} {n : Nat} {c : SMap Core} :
    FaultOnly s { s with regs := r, trace := tr, evq := q, evLost := n, cores := c } :=
  ⟨⟨r, tr, q, n, c, s.parts, rfl⟩, fun k => ⟨(s.part k).first, (s.part k).stopping, rfl⟩⟩

theorem setReg (h : FaultOnly s t) {k : Nat} {v : Word} : FaultOnly s (t.setReg k v) := h.trans (of_eq (s := t) (tr := t.trace) (q := t.evq) (n := t.evLost)
  (c := t.cores))
theorem setFld (h : FaultOnly s t) {k hi lo v : Nat} : FaultOnly s (t.setFld k hi lo v) := h.setReg
theorem modCtx (h : FaultOnly s t) {k c : Nat} {f : Ctx → Ctx} : FaultOnly s (t.modCtx k c f) := h.trans (of_eq (s := t) (r := t.regs) (tr := t.trace)
  (q := t.evq) (n := t.evLost))

theorem modPart (h : FaultOnly s t) {k : Nat} {f : Part → Part} (hf : ∀ p, ∃ x y, f p = { p with first := x, stopping := y }) :
    FaultOnly s (t.modPart k f) := by
  refine h.trans ⟨⟨t.regs, t.trace, t.evq, t.evLost, t.cores, _, rfl⟩, fun j => ?_⟩
  by_cases hj : j = k
  · subst hj
    rw [State.part_modPart_same]
    exact hf _
  · rw [State.part_modPart_ne _ _ hj]
    exact ⟨_, _, rfl⟩

theorem raise (h : FaultOnly s t) {e : EventRec} : FaultOnly s (t.raise e) := by
  refine h.trans ⟨State.raise_keeps (fun u => ∃ r tr q n c p, u = ({ t with regs := r, trace := tr, evq := q, evLost := n, cores := c, parts := p } : State))
    (fun u r tr q n => ?_) t e ▸ (refl t).state, fun k => ?_⟩
  · refine propext ⟨fun ⟨r', tr', q', n', c', p', hu⟩ => ⟨u.regs, u.trace, u.evq, u.evLost, c', p', ?_⟩, fun ⟨r', tr', q', n', c', p', hu⟩ => ⟨r, tr, q, n,
      c', p', by rw [hu]⟩⟩
    obtain ⟨⟩ := u
    obtain ⟨⟩ := t
    simp only [State.mk.injEq] at hu ⊢
    simp [hu]
  · exact ⟨(t.part k).first, (t.part k).stopping, congrArg (fun p => SMap.get p k) (State.parts_raise t e)⟩

theorem stopPartition (h : FaultOnly s t) {k code : Nat} {g : List Nat} : FaultOnly s (t.stopPartition k code g) := by
  unfold State.stopPartition
  split
  · exact h
  · exact h.modPart fun p => ⟨p.first, _, rfl⟩

theorem stopContext (h : FaultOnly s t) {j c code : Nat} {g : List Nat} : FaultOnly s (t.stopContext j c code g) := by
  unfold State.stopContext
  dsimp only
  split
  · exact h.modCtx.setFld.stopPartition
  · exact h.modCtx.setFld

theorem captureFault (h : FaultOnly s t) {j code instr : Nat} {c : Option Nat} : FaultOnly s (t.captureFault j code c instr) := by
  unfold State.captureFault
  dsimp only
  generalize (if c.isSome = true then j else t.lowest j) = j'
  split
  · exact h
  · exact h.setFld.setFld.setFld.setFld.setFld.setReg

theorem fault (h : FaultOnly s t) {j code instr ext detail source : Nat} {c : Option Nat} :
    FaultOnly s (t.fault j code c instr ext detail source) := by
  unfold State.fault
  dsimp only
  generalize ({ code := code, sev := severityOf code true, source := source, part := t.lowest j, ctx := c.getD 0xFF, detail := detail, ext := ext } :
    EventRec) = e
  generalize t.entryAs e _ = trig
  have hfirst : FaultOnly s (((t.raise e).modPart (t.lowest j) fun p => { p with first := p.first.or (some (code, trig)) }).captureFault j code c instr) :=
    (h.raise.modPart fun p => ⟨_, p.stopping, rfl⟩).captureFault
  split
  · exact h.raise
  · cases c with
    | none => exact hfirst.stopPartition
    | some c =>
      dsimp only
      split
      · exact hfirst.stopContext
      · exact hfirst.stopPartition

/-- What goes by none of these is as before. -/
theorem keeps {β : Type} (h : FaultOnly s t) (g : State → β)
    (hg : ∀ (s : State) r tr q n c p, g { s with regs := r, trace := tr, evq := q, evLost := n, cores := c, parts := p } = g s) : g t = g s := by
  obtain ⟨r, tr, q, n, c, p, ht⟩ := h.state
  rw [ht, hg]

/-- What of a partition goes by none of what stops it is as before. -/
theorem part_keeps {β : Type} (h : FaultOnly s t) (g : Part → β) (hg : ∀ p x y, g { p with first := x, stopping := y } = g p) (k : Nat) :
    g (t.part k) = g (s.part k) := by
  obtain ⟨x, y, ht⟩ := h.part k
  rw [ht, hg]

end FaultOnly

theorem Leaves.ctlTo {P : Nat → Prop} {s t : State} {c : Coord} {r : CtlRec} (h : Leaves P s t) : Leaves P s (t.ctlTo c r) := by
  unfold State.ctlTo
  split
  · exact h.sendCtl
  · split
    · exact h.laterW
    · exact h

/-- A record sent to a module changes ports, or the agenda of this one. -/
theorem State.ctlTo_keeps {β : Type} (g : State → β) (hport : ∀ (s : State) (p : Nat) (f : PortDyn → PortDyn), g (s.modPort p f) = g s)
    (hagenda : ∀ (s : State) a, g { s with agenda := a } = g s) (s : State) (c : Coord) (r : CtlRec) : g (s.ctlTo c r) = g s := by
  unfold State.ctlTo
  split
  · exact State.sendCtl_keeps g hport s _ r
  · split
    · exact hagenda s _
    · rfl

theorem Leaves.ackMsg {P : Nat → Prop} {s t : State} {m : FabricMsg} (h : Leaves P s t) : Leaves P s (t.ackMsg m) := h.ctlTo

theorem State.parts_ackMsg (s : State) (m : FabricMsg) : (s.ackMsg m).parts = s.parts :=
  State.ctlTo_keeps State.parts (fun _ _ _ => rfl) (fun _ _ => rfl) s _ _

theorem State.collD_congr {s t : State} (h : t.parts = s.parts) (k e : Nat) : t.collD k e = s.collD k e := by simp only [State.collD, State.part, h]

theorem State.collAt_congr {s t : State} (h : t.parts = s.parts) (k e : Nat) : t.collAt k e = s.collAt k e := by simp only [State.collAt, State.part, h]

/-- Parts that all pass are all good. -/
theorem takeWhile_of_all {α : Type} {p : α → Bool} {l : List α} (h : l.all p = true) : l.takeWhile p = l :=
  List.takeWhile_eq_self_iff.mpr (List.all_eq_true.mp h)

/-- A contribution of a listed and open collective of this step that is owned here and overlaps nothing counted goes on (R298, R301). -/
theorem execContributionArrival_of_open {s : State} {p k e : Nat} {m : FabricMsg} {c : CDesc} (hrecv : s.recvPart p m = some k)
    (hentry : s.collEntry k m.coll = some (e, c)) (hopen : (s.collD k e).opened = true) (hstep : (s.collD k e).step = fieldAt m.content 8 8)
    (howner : c.owner = true) (hnone : (s.collD k e).counted = []) :
    exec (.contributionArrival p m 0) s = .next (if c.vecAdd && c.summed
      then s.keepSlot k e (if c.summed then s.panelPlace c (fieldAt m.content 6 2) else 0) m
      else s.accumulate k e (if c.summed then s.panelPlace c (fieldAt m.content 6 2) else 0) m) := by
  show execContributionArrival p m 0 s = _
  unfold execContributionArrival
  simp only [hrecv, hentry]
  rw [if_neg (by decide), if_neg (by simp [hopen, hstep, howner]), if_neg (by simp [hnone])]
  split
  · rfl
  · rw [if_neg (by decide), if_neg (by decide)]

theorem reductionTakes_kept (s : State) (p k e : Nat) (m : FabricMsg) (c : CDesc) (hrecv : s.recvPart p m = some k)
    (hentry : s.collEntry k m.coll = some (e, c)) (hat : s.collAt k e = c) (hopen : (s.collD k e).opened = true)
    (hstep : (s.collD k e).step = fieldAt m.content 8 8) (howner : c.owner = true) (hnone : (s.collD k e).counted = [])
    (hparts : (bodyParts m.content).all (partOk (fieldAt m.content 0 1)) = true) (hvec : (c.vecAdd && c.summed) = true) :
    ∃ t : State, exec (.contributionArrival p m 0) s = .next t ∧
      (t.collD k e).counted = [(s.panelPlace c (fieldAt m.content 6 2), fieldAt m.content 20 2, fieldAt m.content 22 2)] ∧
      (skipped m.content = 0 → t.hbm = (s.hbmWrite (c.slot + fieldAt m.content 20 2 * c.slotBytes +
        s.panelPlace c (fieldAt m.content 6 2) * (c.slotBytes / max 1 c.panels)) m.content).hbm) ∧
      t.store = s.store ∧ t.lstore = s.lstore ∧ SameRegsBut [] s t := by
  have hsum : c.summed = true := (Bool.and_eq_true_iff.mp hvec).2
  have hexec := execContributionArrival_of_open hrecv hentry hopen hstep howner hnone
  rw [if_pos hvec, if_pos hsum] at hexec
  generalize hplace : s.panelPlace c (fieldAt m.content 6 2) = place at *
  have hkeep : ∃ a bs, (skipped m.content = 0 → a = c.slot + fieldAt m.content 20 2 * c.slotBytes + place * (c.slotBytes / max 1 c.panels) ∧
      bs = m.content) ∧ s.keepSlot k e place m =
      (((s.hbmWrite a bs).modColl k e fun x => { x with counted := x.counted ++ [(place, fieldAt m.content 20 2, fieldAt m.content 22 2)] }).ackMsg m) := by
    refine ⟨c.slot + fieldAt m.content 20 2 * c.slotBytes + place * (c.slotBytes / max 1 c.panels) +
      (if skipped m.content = 0 then 0 else 64 + skipped m.content), if skipped m.content = 0 then m.content else m.content.drop 64,
      fun hskip => ⟨by rw [if_pos hskip, Nat.add_zero], if_pos hskip⟩, ?_⟩
    unfold State.keepSlot
    simp only [hat, takeWhile_of_all hparts, lt_irrefl, if_false]
  obtain ⟨a, bs, hab, hkeep⟩ := hkeep
  rw [hkeep] at hexec
  have hwritten : HbmOnly s (s.hbmWrite a bs) := HbmOnly.refl.hbmWrite
  have hhbm : skipped m.content = 0 → (s.hbmWrite a bs).hbm = (s.hbmWrite (c.slot + fieldAt m.content 20 2 * c.slotBytes +
      place * (c.slotBytes / max 1 c.panels)) m.content).hbm := fun hskip => by rw [(hab hskip).1, (hab hskip).2]
  generalize s.hbmWrite a bs = u at *
  have hleaves : Leaves (· ∈ ([] : List Nat)) u ((u.modColl k e fun x =>
      { x with counted := x.counted ++ [(place, fieldAt m.content 20 2, fieldAt m.content 22 2)] }).ackMsg m) := Leaves.refl.modColl.ackMsg
  refine ⟨_, hexec, ?_, fun hskip => hleaves.hbm.trans (hhbm hskip), hleaves.store.trans hwritten.store, hleaves.lstore.trans hwritten.lstore,
    fun r hr => (hleaves.reg r hr).trans (hwritten.reg r)⟩
  rw [State.collD_congr (State.parts_ackMsg _ m), State.collD_modColl, State.collD_congr hwritten.parts, hnone]
  rfl

/-- What the adders of the memory controllers leave unchanged: the other memories and the partitions' records (R291–R294). -/
structure AddsOnly (s t : State) : Prop where
  store : t.store = s.store
  lstore : t.lstore = s.lstore
  parts : t.parts = s.parts

namespace AddsOnly
variable {s t : State}

theorem refl : AddsOnly s s := ⟨rfl, rfl, rfl⟩
theorem hbmWrite (h : AddsOnly s t) {a : Nat} {bs : List Nat} : AddsOnly s (t.hbmWrite a bs) := ⟨h.store, h.lstore, h.parts⟩
theorem bump (h : AddsOnly s t) {k n : Nat} : AddsOnly s (t.bump k n) := ⟨h.store, h.lstore, h.parts⟩
theorem eventStack (h : AddsOnly s t) {st code detail ext : Nat} : AddsOnly s (t.eventStack st code detail ext) :=
  have hr : Reports _ t (t.eventStack st code detail ext) := .eventStack ..
  ⟨hr.store.trans h.store, hr.lstore.trans h.lstore, (State.parts_raise ..).trans h.parts⟩

theorem block {x : Added} (h : AddsOnly s x.s) (a : Nat) (q : BfpBlock) : AddsOnly s (x.block a q).s := by
  unfold Added.block
  split
  · exact h
  · split
    · exact h.bump
    · split
      · exact h
      · exact h.hbmWrite

/-- A fold of the adder. -/
theorem foldl {α : Type} {f : Added → α → Added} (hf : ∀ x a, AddsOnly s x.s → AddsOnly s (f x a).s) (l : List α) :
    ∀ x : Added, AddsOnly s x.s → AddsOnly s (l.foldl f x).s := by
  induction l with
  | nil => exact fun _ h => h
  | cons a l ih => exact fun x h => ih _ (hf x a h)

theorem counted {x : Added} (h : AddsOnly s x.s) (n : Nat) : AddsOnly s (x.counted n).s := by
  unfold Added.counted
  split <;> exact h

theorem row {x : Added} (h : AddsOnly s x.s) (c : CDesc) (step row : Nat) (bs : List Nat) : AddsOnly s (x.row c step row bs).s := by
  unfold Added.row
  dsimp only
  split
  · exact h
  · split
    · exact h.bump.eventStack
    · refine counted (foldl (fun x q hx => hx.block _ _) _ _ ?_) _
      split
      · exact h.hbmWrite.hbmWrite.hbmWrite
      · exact h

theorem part {x : Added} (h : AddsOnly s x.s) (c : CDesc) (content : List Nat) (place i : Nat) (b : List Nat) :
    AddsOnly s (x.part c content place i b).s := by
  unfold Added.part
  dsimp only
  split
  · exact counted (h.block _ _) _
  · split
    · split
      · exact h
      · exact counted (foldl (fun x y hx => hx.block _ _) _ _ h) _
    · exact h.row ..

theorem addParts {x : Added} (h : AddsOnly s x.s) (c : CDesc) (content : List Nat) (place : Nat) (bs : List (List Nat)) :
    AddsOnly s (x.parts c content place bs).s := foldl (fun x b hx => hx.part ..) _ _ h

end AddsOnly

/-- What a completion of a collective may change of the state, beside the link LINK_DONE: no memory, and of the instances only that they are
complete (R305). -/
theorem State.completeColl_kept (s : State) (k e : Nat) :
    Leaves (fun _ => True) s (s.completeColl k e) ∧ ((s.completeColl k e).collD k e).counted = (s.collD k e).counted := by
  have hlink : ∀ (t : State) (j c l code kind : Nat), Leaves (fun _ => True) t (t.linkFault j c l code kind) ∧
      (t.linkFault j c l code kind).collD k e = t.collD k e := by
    intro t j c l code kind
    have hsem : (t.semFault j kind c l).parts = t.parts := by
      unfold State.semFault
      dsimp only
      split <;> rfl
    have hfault : FaultOnly (t.semFault j kind c l) (t.linkFault j c l code kind) := (FaultOnly.refl _).fault
    refine ⟨(Leaves.refl.next (.semFault ..) fun _ _ => trivial).next (.faultCtx ..) fun _ _ => trivial, ?_⟩
    exact (congrArg (fun m => SMap.get m e) (hfault.part_keeps Part.collDyn (fun _ _ _ => rfl) k)).trans (State.collD_congr hsem k e)
  have hacq : ∀ (t : State) (j c m eng : Nat), Leaves (fun _ => True) t (t.acquireProd j c m eng).1 ∧
      (t.acquireProd j c m eng).1.collD k e = t.collD k e := by
    intro t j c m eng
    unfold State.acquireProd
    split
    · exact hlink ..
    · split
      · exact ⟨.refl, rfl⟩
      · split
        · exact hlink ..
        · exact ⟨.modCore (.setFld .refl trivial), rfl⟩
  have hrel : ∀ (t : State) (j c m : Nat), Leaves (fun _ => True) t (t.applyRelease j c m false true) ∧
      (t.applyRelease j c m false true).collD k e = t.collD k e := by
    intro t j c m
    have hite : ∀ {p : Prop} [Decidable p] {a b : State}, (Leaves (fun _ => True) t a ∧ a.collD k e = t.collD k e) →
        (Leaves (fun _ => True) t b ∧ b.collD k e = t.collD k e) →
        Leaves (fun _ => True) t (if p then a else b) ∧ (if p then a else b).collD k e = t.collD k e := by
      intro p _ a b ha hb
      split <;> assumption
    exact hite (hlink ..) (hite ⟨.after (.after (.modCore .refl)), rfl⟩ ⟨.after (.modCore .refl), rfl⟩)
  have hmod : Leaves (fun _ => True) s (s.modColl k e fun x => { x with complete := true }) := .modColl .refl
  have hcounted : ((s.modColl k e fun x => { x with complete := true }).collD k e).counted = (s.collD k e).counted := by rw [State.collD_modColl]
  unfold State.completeColl
  dsimp only
  generalize (s.modColl k e fun x => { x with complete := true }) = u at *
  split
  · exact ⟨.refl, rfl⟩
  · split
    · exact ⟨hmod, hcounted⟩
    · next x _ =>
      obtain ⟨hl, hc⟩ := hacq u (s.collAt k e).core x (s.collAt k e).linkDone 0x0A
      split
      · obtain ⟨hl', hc'⟩ := hrel (u.acquireProd (s.collAt k e).core x (s.collAt k e).linkDone 0x0A).1 (s.collAt k e).core x (s.collAt k e).linkDone
        exact ⟨(hmod.trans hl).trans hl', by rw [hc', hc, hcounted]⟩
      · exact ⟨hmod.trans hl, by rw [hc, hcounted]⟩

theorem reductionTakes_added (s : State) (p k e : Nat) (m : FabricMsg) (c : CDesc) (hrecv : s.recvPart p m = some k)
    (hentry : s.collEntry k m.coll = some (e, c)) (hat : s.collAt k e = c) (hopen : (s.collD k e).opened = true)
    (hstep : (s.collD k e).step = fieldAt m.content 8 8) (howner : c.owner = true) (hnone : (s.collD k e).counted = [])
    (hparts : (bodyParts m.content).all (partOk (fieldAt m.content 0 1)) = true) (hvec : (c.vecAdd && c.summed) = false) (place : Nat)
    (hplace : (if c.summed then s.panelPlace c (fieldAt m.content 6 2) else 0) = place)
    (hok : (({ s := s } : Added).parts c m.content place (bodyParts m.content)).ok = true) :
    ∃ t : State, exec (.contributionArrival p m 0) s = .next t ∧
      (t.collD k e).counted = [(place, fieldAt m.content 20 2, fieldAt m.content 22 2)] ∧
      t.hbm = (({ s := s } : Added).parts c m.content place (bodyParts m.content)).s.hbm ∧ t.store = s.store ∧ t.lstore = s.lstore := by
  have hexec := execContributionArrival_of_open hrecv hentry hopen hstep howner hnone
  rw [if_neg (by rw [hvec]; exact Bool.false_ne_true), hplace] at hexec
  have hadds : AddsOnly s (({ s := s } : Added).parts c m.content place (bodyParts m.content)).s :=
    AddsOnly.addParts (x := { s := s }) .refl ..
  unfold State.accumulate at hexec
  simp only [hat, takeWhile_of_all hparts, lt_irrefl, if_false] at hexec
  generalize ({ s := s } : Added).parts c m.content place (bodyParts m.content) = r at *
  simp only [hok, Bool.not_true, Bool.false_eq_true, if_false] at hexec
  have hbumped : Leaves (fun _ => True) r.s ((r.s.bump (rMemAddBlocks (c.acc / 2 ^ 36)) r.n).bump (rMemAddSat (c.acc / 2 ^ 36)) r.sat) :=
    .bump (.bump .refl trivial) trivial
  have htold : ∃ u, (if r.sat = 0 ∨ (s.collD k e).retried.contains (fieldAt m.content 6 2, fieldAt m.content 20 2, true) = true then
      (r.s.bump (rMemAddBlocks (c.acc / 2 ^ 36)) r.n).bump (rMemAddSat (c.acc / 2 ^ 36)) r.sat
      else ((r.s.bump (rMemAddBlocks (c.acc / 2 ^ 36)) r.n).bump (rMemAddSat (c.acc / 2 ^ 36)) r.sat).eventStack (c.acc / 2 ^ 36) 0x0203 0 0) = u ∧
      Leaves (fun _ => True) r.s u ∧ u.parts = r.s.parts := by
    split
    · exact ⟨_, rfl, hbumped, rfl⟩
    · exact ⟨_, rfl, .raise hbumped fun _ _ => trivial, State.parts_raise ..⟩
  obtain ⟨u, hu, hleaves, hsame⟩ := htold
  rw [hu] at hexec
  have hacked : Leaves (fun _ => True) u ((u.modColl k e fun x =>
      { x with counted := x.counted ++ [(place, fieldAt m.content 20 2, fieldAt m.content 22 2)] }).ackMsg m) := Leaves.refl.modColl.ackMsg
  have hcounted : (((u.modColl k e fun x =>
      { x with counted := x.counted ++ [(place, fieldAt m.content 20 2, fieldAt m.content 22 2)] }).ackMsg m).collD k e).counted =
      [(place, fieldAt m.content 20 2, fieldAt m.content 22 2)] := by
    rw [State.collD_congr (State.parts_ackMsg _ m), State.collD_modColl, State.collD_congr (hsame.trans hadds.parts), hnone]
    rfl
  generalize ((u.modColl k e fun x =>
      { x with counted := x.counted ++ [(place, fieldAt m.content 20 2, fieldAt m.content 22 2)] }).ackMsg m) = v at *
  obtain ⟨hcomp, hkept⟩ := v.completeColl_kept k e
  have hfinal : ∃ t, (if v.allCounted k e = true then v.completeColl k e else v) = t ∧ Leaves (fun _ => True) v t ∧
      (t.collD k e).counted = (v.collD k e).counted := by
    split
    · exact ⟨_, rfl, hcomp, hkept⟩
    · exact ⟨_, rfl, .refl, rfl⟩
  obtain ⟨t, ht, hend, hsum⟩ := hfinal
  rw [ht] at hexec
  have hall := (hleaves.trans hacked).trans hend
  exact ⟨t, hexec, hsum.trans hcounted, hall.hbm, hall.store.trans hadds.store, hall.lstore.trans hadds.lstore⟩

theorem reductionTakes_row (s : State) (k e row n : Nat) (b : List Nat) (r : Added) (hopen : (s.collD k e).opened = true)
    (hok : (blocksOf b).all BfpBlock.ok = true) (hr : ({ s := s } : Added).row (s.collAt k e) (s.collD k e).step row b = r) (hgood : r.ok = true)
    (hn : n = (s.collAt k e).acc / 2 ^ 36) (hlt : n < 8) :
    ∃ t : State, exec (.embeddingRowArrival k e row b false) s = .next t ∧ t.hbm = r.s.hbm ∧ t.store = r.s.store ∧
      t.fld (rMemAddBlocks n) 47 0 = min (r.s.fld (rMemAddBlocks n) 47 0 + r.n) (2 ^ 48 - 1) ∧
      SameRegsBut ([rMemAddBlocks n, rMemAddSat n] ++ eventRegs) r.s t := by
  have hexec : exec (.embeddingRowArrival k e row b false) s = .next
      (if r.sat = 0 then (r.s.bump (rMemAddBlocks n) r.n).bump (rMemAddSat n) r.sat
        else ((r.s.bump (rMemAddBlocks n) r.n).bump (rMemAddSat n) r.sat).eventStack n 0x0203 0 0) := by
    show execEmbeddingRowArrival k e row b false s = _
    unfold execEmbeddingRowArrival
    simp only [hopen, hok, hr, ← hn, hgood, Bool.not_true, Bool.or_self, Bool.false_eq_true, if_false, if_true]
  have hsat : rMemAddBlocks n ≠ rMemAddSat n := by simp only [rMemAddBlocks, rMemAddSat]; omega
  have hevent : rMemAddBlocks n ∉ eventRegs := by
    simp only [eventRegs, List.mem_cons, List.not_mem_nil, or_false, rMemAddBlocks, rDbgStatus, rCirEventOvf]; omega
  have hbumped : Leaves (· ∈ [rMemAddBlocks n, rMemAddSat n] ++ eventRegs) r.s ((r.s.bump (rMemAddBlocks n) r.n).bump (rMemAddSat n) r.sat) :=
    .bump (.bump .refl (by simp)) (by simp)
  have hcount : ((r.s.bump (rMemAddBlocks n) r.n).bump (rMemAddSat n) r.sat).fld (rMemAddBlocks n) 47 0 =
      min (r.s.fld (rMemAddBlocks n) 47 0 + r.n) (2 ^ 48 - 1) :=
    (State.fld_setReg_ne _ _ _ _ hsat).trans (State.fld_bump_same ..)
  generalize (r.s.bump (rMemAddBlocks n) r.n).bump (rMemAddSat n) r.sat = u at *
  by_cases h : r.sat = 0
  · rw [if_pos h] at hexec
    exact ⟨u, hexec, hbumped.hbm, hbumped.store, hcount, hbumped.sameRegsBut⟩
  · rw [if_neg h] at hexec
    have htold : Leaves (· ∈ eventRegs) u (u.eventStack n 0x0203 0 0) := .raise .refl fun _ h => h
    have hall := hbumped.trans (htold.mono fun r hr => List.mem_append_right _ hr)
    exact ⟨_, hexec, hall.hbm, hall.store, (htold.fld hevent _ _).trans hcount, hall.sameRegsBut⟩

/-- A change of a port that leaves what `g` goes by. -/
theorem State.port_modPort_keeps {β : Type} (g : PortDyn → β) {f : PortDyn → PortDyn} (hg : ∀ x, g (f x) = g x) (s : State) (q p : Nat) :
    g ((s.modPort q f).port p) = g (s.port p) := by
  by_cases h : p = q
  · subst h
    rw [State.port_modPort_same, hg]
  · rw [State.port_modPort_ne _ _ h]

theorem State.port_sendCtl_keeps {β : Type} (g : PortDyn → β) (hg : ∀ x l, g { x with ctl := l } = g x) (s : State) (q p : Nat) (r : CtlRec) :
    g ((s.sendCtl q r).port p) = g (s.port p) := by
  unfold State.sendCtl
  split
  · exact State.port_modPort_keeps g (fun x => hg x _) s q p
  · rfl

theorem State.port_ctlTo_keeps {β : Type} (g : PortDyn → β) (hg : ∀ x l, g { x with ctl := l } = g x) (s : State) (c : Coord) (r : CtlRec) (p : Nat) :
    g ((s.ctlTo c r).port p) = g (s.port p) := by
  unfold State.ctlTo
  split
  · exact State.port_sendCtl_keeps g hg s _ p r
  · split <;> rfl

theorem Leaves.grantNext {P : Nat → Prop} {s t : State} {l : List Nat} (h : Leaves P s t) : Leaves P s (t.grantNext l) := by
  cases l with
  | nil => exact h
  | cons p l => exact h.modPort

theorem State.port_grantNext_keeps {β : Type} (g : PortDyn → β) (hg : ∀ x o w, g { x with owed := o, withheld := w } = g x) (s : State) (l : List Nat)
    (p : Nat) : g ((s.grantNext l).port p) = g (s.port p) := by
  cases l with
  | nil => rfl
  | cons q l => exact State.port_modPort_keeps g (fun x => hg x _ _) s q p

/-- What a reservation of credit changes: ledgers alone (R451). -/
theorem State.book_keeps {β : Type} (g : State → β) (hport : ∀ (s : State) (q : Nat) (f : PortDyn → PortDyn), (∀ x, ∃ l, f x = { x with ledger := l }) →
    g (s.modPort q f) = g s) (p cap n : Nat) : ∀ (b f : Nat) (s : State), g (State.book p cap n b f s) = g s := by
  induction n with
  | zero => exact fun _ _ _ => rfl
  | succ n ih => exact fun b f s => (ih _ _ _).trans (hport s p _ fun x => ⟨_, rfl⟩)

theorem State.admitFlits_keeps {β : Type} (g : State → β) (hport : ∀ (s : State) (q : Nat) (f : PortDyn → PortDyn),
    (∀ x, ∃ l, f x = { x with ledger := l }) → g (s.modPort q f) = g s) {s t : State} {p n h d : Nat} (ht : s.admitFlits p n h d = some t) : g t = g s := by
  unfold State.admitFlits at ht
  dsimp only at ht
  split at ht
  · cases ht
  · cases ht
    exact (State.book_keeps g hport _ _ _ _ _ _).trans (hport s p _ fun x => ⟨_, rfl⟩)

/-- What a message sent from this module leaves of the ports: all but the ledgers and what waits to go out (R445, R451). -/
theorem State.port_sendMsg_keeps {β : Type} (g : PortDyn → β) (hledger : ∀ x l, g { x with ledger := l } = g x)
    (htx : ∀ x l n, g { x with tx := l, nextTag := n } = g x) (s : State) (k c : Nat) (m : FabricMsg) (d : Option Nat) (rel : Option (Nat × Nat × Nat))
    (p : Nat) : g ((s.sendMsg k c m d rel).1.port p) = g (s.port p) := by
  have hrefused : ∀ (q : Option Nat) (dest : Coord) (dl : Nat), g ((s.notAdmitted k c q dest dl, false).1.port p) = g (s.port p) := by
    intro q dest dl
    unfold State.notAdmitted
    cases q with
    | none => exact congrArg g (((FaultOnly.refl s).fault).keeps (fun t => t.port p) fun _ _ _ _ _ _ _ => rfl)
    | some q => exact congrArg g (((FaultOnly.refl s).setReg.fault).keeps (fun t => t.port p) fun _ _ _ _ _ _ _ => rfl)
  unfold State.sendMsg
  cases d with
  | none => exact hrefused _ _ _
  | some d =>
    have hite : ∀ {c : Prop} [Decidable c] {a b : State × Bool}, g (a.1.port p) = g (s.port p) → g (b.1.port p) = g (s.port p) →
        g ((if c then a else b).1.port p) = g (s.port p) := by
      intro c _ a b ha hb
      split <;> assumption
    dsimp only
    cases s.firstPort m.dest with
    | none => rfl
    | some q =>
      refine hite (hrefused _ _ _) ?_
      generalize ht : s.fresh.2.admitFlits q m.content.length (s.hops s.me m.dest) d = t
      cases t with
      | none => exact hrefused _ _ _
      | some t =>
        have hadmitted : g (t.port p) = g (s.port p) := State.admitFlits_keeps (s := s.fresh.2) (fun t => g (t.port p)) (fun s q f hf =>
          State.port_modPort_keeps g (fun x => by obtain ⟨l, hl⟩ := hf x; rw [hl, hledger]) s q p) ht
        exact (State.port_modPort_keeps g (fun x => htx x _ _) _ _ p).trans hadmitted

/-- The combine buffer of a port. -/
def PortDyn.combined (x : PortDyn) : Option (FabricMsg × Nat) × List Nat := (x.combineOwn, x.combineNext)

/-- An upstream message whose turn it is and whose parts pass, and that sums without a saturated addition (R304, R393). -/
theorem execUpstreamMessageAdd_of_turn {s : State} {p f k w : Nat} {fs b : List Nat} {m own : FabricMsg} {x : Nat × CDesc}
    (hpart : s.portPart p = some k) (hown : (s.port p).combineOwn = some (own, w)) (hcombine : bitAt (s.part k).combine p = true)
    (hcoll : own.coll = m.coll) (hstep : fieldAt own.content 8 8 = fieldAt m.content 8 8) (hnext : (s.port p).combineNext = f :: fs)
    (hentry : s.collEntry k m.coll = some x) (hparts : (bodyParts m.content).all (partOk 1) = true)
    (hsum : combineMsg own.content m.content = some (b, 0)) :
    exec (.upstreamMessageAdd p f m false) s = .next (if fs.isEmpty
      then ((((s.bump rStraCombined 1).ackMsg m).modPort p fun q => { q with combineOwn := none, combineNext := [] }).sendMsg (w / 65536) (w / 256 % 256)
        { own with content := b, len := b.length } (some own.deadline) (some (w / 65536, w / 256 % 256, w % 256))).1
      else (((s.bump rStraCombined 1).ackMsg m).modPort p fun q =>
        { q with combineOwn := some ({ own with content := b }, w), combineNext := fs }).grantNext fs) := by
  show execUpstreamMessageAdd p f m false s = _
  unfold execUpstreamMessageAdd
  have hturn : ¬ (own.coll ≠ m.coll ∨ fieldAt own.content 8 8 ≠ fieldAt m.content 8 8 ∨ (f :: fs).head? ≠ some f) := by simp [hcoll, hstep]
  simp only [hpart, hown, hcombine, hnext, if_neg hturn, hentry, takeWhile_of_all hparts, lt_irrefl, hsum, Bool.not_true, Bool.false_eq_true, or_self,
    if_false, if_true, List.tail_cons]
  split <;> rfl

theorem reductionTakes_combined (s : State) (p f k w : Nat) (fs b : List Nat) (m own : FabricMsg) (x : Nat × CDesc) (hpart : s.portPart p = some k)
    (hown : (s.port p).combineOwn = some (own, w)) (hcombine : bitAt (s.part k).combine p = true) (hcoll : own.coll = m.coll)
    (hstep : fieldAt own.content 8 8 = fieldAt m.content 8 8) (hnext : (s.port p).combineNext = f :: fs) (hentry : s.collEntry k m.coll = some x)
    (hparts : (bodyParts m.content).all (partOk 1) = true) (hsum : combineMsg own.content m.content = some (b, 0)) :
    (fs ≠ [] → ∃ t : State, exec (.upstreamMessageAdd p f m false) s = .next t ∧
      (t.port p).combineOwn = some ({ own with content := b }, w) ∧ (t.port p).combineNext = fs ∧ SameMem s t ∧
      SameRegsBut [rStraCombined] s t) ∧
    (fs = [] → ∃ t : State, exec (.upstreamMessageAdd p f m false) s = .next t ∧ (t.port p).combineOwn = none ∧ (t.port p).combineNext = []) := by
  have hexec := execUpstreamMessageAdd_of_turn hpart hown hcombine hcoll hstep hnext hentry hparts hsum
  have hleaves : Leaves (· ∈ [rStraCombined]) s ((s.bump rStraCombined 1).ackMsg m) := .ackMsg (.bump .refl (by simp))
  generalize (s.bump rStraCombined 1).ackMsg m = u at *
  constructor
  · intro hne
    rw [if_neg (by simpa using hne)] at hexec
    generalize hf : (fun q : PortDyn => { q with combineOwn := some ({ own with content := b }, w), combineNext := fs }) = g at hexec
    have hgrant := (State.port_grantNext_keeps PortDyn.combined (fun _ _ _ => rfl) (u.modPort p g) fs p).trans
      (congrArg PortDyn.combined (State.port_modPort_same u p g))
    have hnow : PortDyn.combined (g (u.port p)) = (some ({ own with content := b }, w), fs) := hf ▸ rfl
    rw [hnow] at hgrant
    have hall := (hleaves.modPort (f := g) (k := p)).grantNext (l := fs)
    generalize (u.modPort p g).grantNext fs = t at *
    exact ⟨t, hexec, congrArg Prod.fst hgrant, congrArg Prod.snd hgrant, hall.sameMem, hall.sameRegsBut⟩
  · intro he
    rw [if_pos (by simp [he])] at hexec
    generalize hf : (fun q : PortDyn => { q with combineOwn := none, combineNext := [] }) = g at hexec
    have hsent := (State.port_sendMsg_keeps PortDyn.combined (fun _ _ => rfl) (fun _ _ _ => rfl) (u.modPort p g) (w / 65536) (w / 256 % 256)
      { own with content := b, len := b.length } (some own.deadline) (some (w / 65536, w / 256 % 256, w % 256)) p).trans
      (congrArg PortDyn.combined (State.port_modPort_same u p g))
    have hnow : PortDyn.combined (g (u.port p)) = (none, []) := hf ▸ rfl
    rw [hnow] at hsent
    generalize ((u.modPort p g).sendMsg _ _ _ _ _).1 = t at *
    exact ⟨t, hexec, congrArg Prod.fst hsent, congrArg Prod.snd hsent⟩

theorem Leaves.admitFlits {P : Nat → Prop} {s t u : State} {p n h d : Nat} (hs : Leaves P s t) (hu : t.admitFlits p n h d = some u) : Leaves P s u :=
  hs.trans ⟨State.admitFlits_keeps State.hbm (fun _ _ _ _ => rfl) hu, State.admitFlits_keeps State.store (fun _ _ _ _ => rfl) hu,
    State.admitFlits_keeps State.lstore (fun _ _ _ _ => rfl) hu, State.admitFlits_keeps State.mbuf (fun _ _ _ _ => rfl) hu,
    fun r _ => State.admitFlits_keeps (fun v => v.reg r) (fun _ _ _ _ => rfl) hu⟩

/-- Admission goes by the ports, the registers and the beat (R451). -/
theorem State.isSome_admitFlits (s : State) (l : List OutMsg) (n p f h d : Nat) :
    (({ s with sent := l, nextId := n } : State).admitFlits p f h d).isSome = (s.admitFlits p f h d).isSome := by
  unfold State.admitFlits
  dsimp only
  have hite : ∀ {c : Prop} [Decidable c] (x y : State), ((if c then none else some x).isSome : Bool) = (if c then none else some y).isSome := by
    intro c _ x y
    split <;> rfl
  exact hite _ _

/-- The message that a source sends again from a part on (R447). -/
def State.resent (s : State) (o : OutMsg) (i : Nat) : FabricMsg :=
  { o.hdr with
    content := resendContent o.hdr.content i
    len := (resendContent o.hdr.content i).length
    msgid := s.nextId % 2 ^ 32 }

theorem execResidueRetry_of_local {s : State} {id i : Nat} {o : OutMsg} (hsent : s.sent = [o]) (hid : o.hdr.msgid = id) (hport : o.port = 6) :
    exec (.residueRetry id i) s = .next (((({ s with nextId := s.nextId + 1, sent := [] } : State).keepSent { o with hdr := s.resent o i }).laterW 0
      (arrivalCmd 6 (s.resent o i))).shared (s.resent o i).len) := by
  show execResidueRetry id i s = _
  unfold execResidueRetry
  simp only [hsent, List.find?_cons, hid, beq_self_eq_true, hport, if_true, State.fresh, List.filter_cons, bne_self_eq_false, Bool.false_eq_true, if_false,
    List.filter_nil]
  rfl

theorem execResidueRetry_of_admitted {s u : State} {id i : Nat} {o : OutMsg} (hsent : s.sent = [o]) (hid : o.hdr.msgid = id) (hport : o.port ≠ 6)
    (htakes : s.portTakes o.core o.port o.hdr.kind (s.hops s.me o.hdr.dest) = true)
    (hu : ({ s with sent := [], nextId := s.nextId + 1 } : State).admitFlits o.port (resendContent o.hdr.content i).length (s.hops s.me o.hdr.dest)
      o.hdr.deadline = some u) :
    exec (.residueRetry id i) s = .next (((u.keepSent { o with hdr := s.resent o i }).queueTx o.port (s.resent o i)).shared (s.resent o i).len) := by
  have hmatch : ∀ (x : Option State) (z : State), x = some u → (match x with
      | none => Host.Outcome.next z
      | some v => (Host.Outcome.next (((v.keepSent { o with hdr := s.resent o i }).queueTx o.port (s.resent o i)).shared (s.resent o i).len) : Out)) =
      .next (((u.keepSent { o with hdr := s.resent o i }).queueTx o.port (s.resent o i)).shared (s.resent o i).len) := by
    rintro _ z rfl
    rfl
  show execResidueRetry id i s = _
  unfold execResidueRetry
  simp only [hsent, List.find?_cons, hid, beq_self_eq_true, hport, if_false, State.fresh, List.filter_cons, bne_self_eq_false, Bool.false_eq_true,
    List.filter_nil]
  exact hmatch _ _ ((if_pos htakes).trans hu)

theorem reductionTakes_resent (s : State) (id i : Nat) (o : OutMsg) (hsent : s.sent = [o]) (hid : o.hdr.msgid = id)
    (hgoes : o.port = 6 ∨ (s.portTakes o.core o.port o.hdr.kind (s.hops s.me o.hdr.dest) = true ∧
      (s.admitFlits o.port (resendContent o.hdr.content i).length (s.hops s.me o.hdr.dest) o.hdr.deadline).isSome = true)) :
    ∃ (t : State) (m : FabricMsg), exec (.residueRetry id i) s = .next t ∧ t.sent = [{ o with hdr := m }] ∧ m.msgid = s.nextId % 2 ^ 32 ∧
      m.content = resendContent o.hdr.content i ∧ m.dest = o.hdr.dest ∧ m.deadline = o.hdr.deadline ∧
      (o.port ≠ 6 → ((t.port o.port).tx.map fun x => x.hdr) = ((s.port o.port).tx.map fun x => x.hdr) ++ [m]) ∧ SameMem s t ∧
      SameRegsBut [rStraSharedBytes] s t := by
  have hcleared : Leaves (· ∈ [rStraSharedBytes]) s { s with sent := [], nextId := s.nextId + 1 } := ⟨rfl, rfl, rfl, rfl, fun _ _ => rfl⟩
  by_cases hport : o.port = 6
  · have hexec := execResidueRetry_of_local (i := i) hsent hid hport
    have hall : Leaves (· ∈ [rStraSharedBytes]) s (((({ s with nextId := s.nextId + 1, sent := [] } : State).keepSent
        { o with hdr := s.resent o i }).laterW 0 (arrivalCmd 6 (s.resent o i))).shared (s.resent o i).len) :=
      .bump (.laterW (.trans hcleared ⟨rfl, rfl, rfl, rfl, fun _ _ => rfl⟩)) (by simp)
    exact ⟨_, s.resent o i, hexec, rfl, rfl, rfl, rfl, rfl, fun h => absurd hport h, hall.sameMem, hall.sameRegsBut⟩
  · obtain ⟨htakes, hadmit⟩ := hgoes.resolve_left hport
    rw [← State.isSome_admitFlits s [] (s.nextId + 1)] at hadmit
    obtain ⟨u, hu⟩ := Option.isSome_iff_exists.mp hadmit
    have hexec := execResidueRetry_of_admitted hsent hid hport htakes hu
    have hempty : u.sent = [] := State.admitFlits_keeps State.sent (fun _ _ _ _ => rfl) hu
    have htx : (u.port o.port).tx = (s.port o.port).tx := State.admitFlits_keeps
      (s := { s with sent := [], nextId := s.nextId + 1 }) (fun v => (v.port o.port).tx)
      (fun v q f hf => State.port_modPort_keeps PortDyn.tx (fun x => by obtain ⟨l, hl⟩ := hf x; rw [hl]) v q o.port) hu
    have hall : Leaves (· ∈ [rStraSharedBytes]) s (((u.keepSent { o with hdr := s.resent o i }).queueTx o.port (s.resent o i)).shared
        (s.resent o i).len) := .bump (.modPort (.trans (.admitFlits hcleared hu) ⟨rfl, rfl, rfl, rfl, fun _ _ => rfl⟩)) (by simp)
    have htxs : ((((u.keepSent { o with hdr := s.resent o i }).queueTx o.port (s.resent o i)).port o.port).tx.map fun x => x.hdr) =
        ((u.port o.port).tx.map fun x => x.hdr) ++ [s.resent o i] := by
      unfold State.queueTx
      rw [State.port_modPort_same, List.map_append]
      rfl
    have hsents : ((u.keepSent { o with hdr := s.resent o i }).queueTx o.port (s.resent o i)).sent = u.sent ++ [{ o with hdr := s.resent o i }] := rfl
    exact ⟨_, s.resent o i, hexec, hsents.trans (by rw [hempty]; rfl), rfl, rfl, rfl, rfl, fun _ => htxs.trans (by rw [htx]), hall.sameMem,
      hall.sameRegsBut⟩

/-- Reports of missing replicas, each with a free coordinate, while the queue of events has room (R305, R401). -/
theorem State.reportMissing (st : Nat) (l : List Nat) : ∀ s : State, s.evq.length + l.length ≤ 1024 → ∃ t : State,
    l.foldl (fun s r => (s.draw 24).2.eventStack st 0x0205 r (s.draw 24).1) s = t ∧ t.evq.length = s.evq.length + l.length ∧
      t.free = s.free + l.length ∧ t.agenda = s.agenda ∧ Leaves (· ∈ eventRegs) s t := by
  induction l with
  | nil => exact fun s _ => ⟨s, rfl, rfl, rfl, rfl, .refl⟩
  | cons r l ih =>
    intro s hroom
    rw [List.length_cons] at hroom
    have hevent : Reports (· ∈ eventRegs) (s.draw 24).2 ((s.draw 24).2.eventStack st 0x0205 r (s.draw 24).1) := .eventStack ..
    obtain ⟨e, hevq, -⟩ := State.exists_evq_eventStack (s := (s.draw 24).2) st 0x0205 r (s.draw 24).1 (show s.evq.length < 1024 by omega)
    have hfree : ((s.draw 24).2.eventStack st 0x0205 r (s.draw 24).1).free = s.free + 1 := State.raise_keeps State.free (fun _ _ _ _ _ => rfl) _ _
    have hlen : ((s.draw 24).2.eventStack st 0x0205 r (s.draw 24).1).evq.length = s.evq.length + 1 := by
      rw [hevq, List.length_append]
      rfl
    have hleaves : Leaves (· ∈ eventRegs) s ((s.draw 24).2.eventStack st 0x0205 r (s.draw 24).1) := Leaves.refl.draw.next hevent fun _ h => h
    have hagenda : ((s.draw 24).2.eventStack st 0x0205 r (s.draw 24).1).agenda = s.agenda := hevent.agenda
    rw [List.foldl_cons]
    generalize (s.draw 24).2.eventStack st 0x0205 r (s.draw 24).1 = u at *
    obtain ⟨t, ht, hqueue, hdrawn, hsame, hrest⟩ := ih u (by omega)
    exact ⟨t, ht, by rw [hqueue, hlen, List.length_cons]; omega, by rw [hdrawn, hfree, List.length_cons]; omega, hsame.trans hagenda, hleaves.trans hrest⟩

theorem reductionTakes_late (s : State) (k e : Nat) (c : CDesc) (hat : s.collAt k e = c) (hpanels : c.summed = true → 0 < c.panels)
    (hgoes : (s.collD k e).complete = false) (hnone : (s.collD k e).counted = []) (hcontrib : 0 < c.contrib)
    (hlate : s.collDeadline k c.coll < s.beat) (hroom : s.evq.length + c.contrib ≤ 1024) :
    ∃ t : State, exec (.reduceLate k e) s = .next t ∧ t.evq.length = s.evq.length + c.contrib ∧ t.free = s.free + c.contrib ∧
      t.agenda = s.agenda ∧ SameMem s t ∧ SameRegsBut eventRegs s t := by
  have hpos : 0 < (if c.summed then c.panels else 1) := by
    split
    · exact hpanels ‹_›
    · exact Nat.one_pos
  have hnot : s.allCounted k e = false := by
    simp only [State.allCounted, hat, hnone, List.filter_nil, List.foldl_nil, List.all_eq_false, List.mem_range, decide_eq_true_eq]
    exact ⟨0, hpos, by omega⟩
  have hmissing : (List.range c.contrib).filter (fun r => (List.range (if c.summed then c.panels else 1)).any fun p =>
      !((s.collD k e).counted.any fun q => q.1 == p && decide (q.2.1 ≤ r) && decide (r < q.2.1 + q.2.2))) = List.range c.contrib := by
    refine List.filter_eq_self.mpr fun r _ => ?_
    simp only [hnone, List.any_nil, Bool.not_false, List.any_eq_true, List.mem_range, and_true]
    exact ⟨0, hpos⟩
  obtain ⟨t, ht, hqueue, hfree, hagenda, hleaves⟩ := State.reportMissing (c.acc / 2 ^ 36) (List.range c.contrib) s (by simpa using hroom)
  have hexec : exec (.reduceLate k e) s = .next t := by
    show execReduceLate k e s = _
    unfold execReduceLate
    simp only [hat, hgoes, hnot, Bool.or_self, Bool.false_eq_true, if_false, if_neg (Nat.not_le.mpr hlate), hmissing]
    exact congrArg Host.Outcome.next ht
  rw [List.length_range] at hqueue hfree
  exact ⟨t, hexec, hqueue, hfree, hagenda, hleaves.sameMem, hleaves.sameRegsBut⟩

/-- Settles O20: contributions, rows and upstream messages that pass, a resend, and a collective that is late. -/
theorem reductionTakes : Obligations.ReductionTakes :=
  ⟨fun s p k e m c hrecv hentry hat hopen hstep howner hnone hparts =>
      ⟨reductionTakes_kept s p k e m c hrecv hentry hat hopen hstep howner hnone hparts,
        fun hvec hok => reductionTakes_added s p k e m c hrecv hentry hat hopen hstep howner hnone hparts hvec _ rfl hok⟩,
    fun s k e row n b r => reductionTakes_row s k e row n b r,
    fun s p f k w fs b m own x => reductionTakes_combined s p f k w fs b m own x,
    fun s id i o => reductionTakes_resent s id i o,
    fun s k e c => reductionTakes_late s k e c⟩

end Sys2Proof.Machine
end

section
/-! PROOF. Holds begin, travel and end (R337–R342). -/
namespace Sys2Proof.Machine

theorem State.rvD_modRv (s : State) (k rv : Nat) (f : RvDyn → RvDyn) : (s.modRv k rv f).rvD k rv = f (s.rvD k rv) := by
  simp only [State.rvD, State.modRv, State.part_modPart_same]
  exact SMap.get_mod_same _ _ _

/-- A change of a rendezvous is one of no other part of its partition. -/
theorem State.part_modRv {β : Type} (g : Part → β) (hg : ∀ p m, g { p with rvDyn := m } = g p) (s : State) (k rv : Nat) (f : RvDyn → RvDyn) (j : Nat) :
    g ((s.modRv k rv f).part j) = g (s.part j) := by
  by_cases hj : j = k
  · subst hj
    rw [State.modRv, State.part_modPart_same, hg]
  · have hpart : (s.modRv k rv f).part j = s.part j := State.part_modPart_ne s _ hj
    rw [hpart]

theorem Leaves.modRv {P : Nat → Prop} {s t : State} {k rv : Nat} {f : RvDyn → RvDyn} (h : Leaves P s t) : Leaves P s (t.modRv k rv f) := h.modPart

theorem Leaves.bumpF {P : Nat → Prop} {s t : State} {k hi lo n : Nat} (h : Leaves P s t) (hk : P k) : Leaves P s (t.bumpF k hi lo n) := h.setFld hk

/-- SEQ_HOLD is no register of a barrier unit. -/
theorem rBarCfg_ne_rSeqHold {k : Nat} (u : Nat) (hk : k < 4) : rBarCfg u ≠ rSeqHold k := by simp only [rBarCfg, rSeqHold]; omega

theorem State.treePorts_congr {s t : State} {u : Nat} (h : t.reg (rBarCfg u) = s.reg (rBarCfg u)) : t.treePorts u = s.treePorts u := by
  have hroot : t.barRoot u = s.barRoot u := by simp only [State.barRoot, State.fld, h]
  have hparent : t.barParent u = s.barParent u := by simp only [State.barParent, State.fld, h]
  have hchildren : t.barChildren u = s.barChildren u := by simp only [State.barChildren, State.fld, h]
  simp only [State.treePorts, hroot, hparent, hchildren]

theorem Leaves.toTree {P : Nat → Prop} {s t : State} {u b : Nat} {r : CtlRec} (h : Leaves P s t) : Leaves P s (t.toTree u b r) :=
  .foldl (fun _ _ _ h => h.sendCtl) h

/-- What goes out on a barrier's tree changes ports alone. -/
theorem State.toTree_keeps {β : Type} (g : State → β) (h : ∀ (s : State) (p : Nat) (f : PortDyn → PortDyn), g (s.modPort p f) = g s) (s : State)
    (u b : Nat) (r : CtlRec) : g (s.toTree u b r) = g s := foldl_keeps g (fun s p => State.sendCtl_keeps g h s p r) _ s

/-- A link of the tree that is up carries what goes out on it (R338). -/
theorem State.ctl_toTree {s : State} {u b p : Nat} (r : CtlRec) (hnodup : (s.treePorts u).Nodup) (hp : p ∈ s.treePorts u) (hb : p ≠ b)
    (hup : s.linkState p = 4) : ((s.toTree u b r).port p).ctl = (s.port p).ctl ++ [r] :=
  State.ctl_foldl_sendCtl (hnodup.filter _) r (List.mem_filter.mpr ⟨hp, by simpa using hb⟩) hup

/-- A Lull asked for is among the partition's requests (R333). -/
theorem State.mem_lull_askLull (s : State) (k : Nat) (r : LullReq) : ∃ q ∈ ((s.askLull k r).part k).lull, q.kind = r.kind ∧ q.tag = r.tag := by
  unfold State.askLull
  rw [State.part_modPart_same]
  generalize State.part _ k = p
  split
  · next h =>
    obtain ⟨q, hq, hsame⟩ := List.any_eq_true.mp h
    simp only [Bool.and_eq_true, beq_iff_eq] at hsame
    obtain ⟨⟨⟨hkind, htag⟩, -⟩, -⟩ := hsame
    exact ⟨q, hq, hkind, htag⟩
  · exact ⟨_, List.mem_append_right _ (List.mem_singleton.mpr rfl), rfl, rfl⟩

/-- A request changes of a partition its requests alone. -/
theorem State.rvD_askLull (s : State) (k : Nat) (r : LullReq) (j rv : Nat) : (s.askLull k r).rvD j rv = s.rvD j rv := by
  have htrace : ∀ a b c, (s.traceRec a b c).parts = s.parts := fun a b c => State.traceRec_keeps State.parts (fun _ _ _ => rfl) s a b c
  have hmod : ∀ (t : State) (f : Part → Part), t.parts = s.parts → (∀ p, (f p).rvDyn = p.rvDyn) → (t.modPart k f).rvD j rv = s.rvD j rv := by
    intro t f ht hf
    have hpart : t.part j = s.part j := by simp only [State.part, ht]
    by_cases hj : j = k
    · subst hj
      rw [State.rvD, State.part_modPart_same, hf, hpart]
      rfl
    · rw [State.rvD, State.part_modPart_ne _ _ hj, hpart]
      rfl
  unfold State.askLull
  dsimp only
  refine hmod _ _ ?_ fun p => ?_
  · split
    · exact htrace ..
    · rfl
  · split <;> rfl

/-- An ended request is none of the partition's (R333). -/
theorem State.notMem_lull_endLull (s : State) {k kind tag : Nat} {r : LullReq} (hr : r ∈ ((s.endLull k kind tag).part k).lull) :
    ¬(r.kind = kind ∧ r.tag = tag) := by
  have htrace : ∀ (t : State) a b c, (t.traceRec a b c).parts = t.parts := fun t a b c => State.traceRec_keeps State.parts (fun _ _ _ => rfl) t a b c
  have hlull : ((s.endLull k kind tag).part k).lull = (s.part k).lull.filter fun r => !(r.kind == kind && r.tag == tag) := by
    unfold State.endLull
    dsimp only
    split
    · rw [State.part, htrace, ← State.part, State.part_modPart_same]
    · rw [State.part_modPart_same]
  rw [hlull] at hr
  rintro ⟨hkind, htag⟩
  simpa [hkind, htag] using (List.mem_filter.mp hr).2

/-- The end of a request changes of a partition its requests alone. -/
theorem State.rvD_endLull (s : State) (j rv k kind tag : Nat) : (s.endLull k kind tag).rvD j rv = s.rvD j rv := by
  have htrace : ∀ (t : State) a b c, (t.traceRec a b c).parts = t.parts := fun t a b c => State.traceRec_keeps State.parts (fun _ _ _ => rfl) t a b c
  have hmod : (s.modPart k fun p => { p with lull := (s.part k).lull.filter fun r => !(r.kind == kind && r.tag == tag) }).rvD j rv = s.rvD j rv := by
    by_cases hj : j = k
    · subst hj
      rw [State.rvD, State.part_modPart_same]
      rfl
    · rw [State.rvD, State.part_modPart_ne _ _ hj]
      rfl
  unfold State.endLull
  dsimp only
  split
  · rw [State.rvD, State.part, htrace]
    exact hmod
  · exact hmod

theorem State.linkState_congr {s t : State} {p : Nat} (h : t.reg (rLnkStatus p) = s.reg (rLnkStatus p)) : t.linkState p = s.linkState p := by
  simp only [State.linkState, State.fld, h]

/-- What goes out on the tree of a unit after SEQ_HOLD has been written, over links that are up (R338). -/
theorem State.ctl_toTree_rSeqHold {s t : State} {k u p : Nat} (r : CtlRec) (hk : k < 4) (h : Leaves (· ∈ [rSeqHold k]) s t) (hports : t.ports = s.ports)
    (hnodup : (s.treePorts u).Nodup) (hp : p ∈ s.treePorts u) (hne : p ≠ 7) (hup : s.linkState p = 4) :
    ((t.toTree u 7 r).port p).ctl = (s.port p).ctl ++ [r] := by
  have htree := State.treePorts_congr (h.reg (rBarCfg u) (by simpa using rBarCfg_ne_rSeqHold u hk))
  have hlink := State.linkState_congr (h.reg (rLnkStatus p) (by simp only [List.mem_singleton, rLnkStatus, rSeqHold]; omega))
  rw [State.ctl_toTree r (htree ▸ hnodup) (htree ▸ hp) hne (hlink.trans hup)]
  simp only [State.port, hports]

theorem holdsPropagate_start (s : State) (k rv : Nat) (r : RvEntry) (hk : k < 4) (hrv : rv < 256) (hpend : s.rvPending k rv = some r)
    (hdue : s.holdDue k rv = true) (hnodup : (s.treePorts r.barrier).Nodup) :
    ∃ t : State, exec (.holdStart k rv) s = .next t ∧ (t.rvD k rv).holding = true ∧ (t.rvD k rv).shift = (s.rvD k rv).shift ∧
      t.fld (rSeqHold k) 62 62 = 1 ∧ t.fld (rSeqHold k) 55 48 = rv ∧
      t.fld (rSeqHold k) 47 24 = min (s.fld (rSeqHold k) 47 24 + 1) (2 ^ 24 - 1) ∧
      (∀ p ∈ s.treePorts r.barrier, p ≠ 7 → s.linkState p = 4 →
        (t.port p).ctl = (s.port p).ctl ++ [CtlRec.holdStart rv ((s.part k).stepNo % 65536) s.me]) ∧ SameMem s t ∧ SameRegsBut [rSeqHold k] s t := by
  have hexec : exec (.holdStart k rv) s = .next ((((((s.modRv k rv fun x => { x with
      holding := true
      bare := s.clk.swallowNow && (s.part k).lull.isEmpty }).setFld (rSeqHold k) 62 62 1).setFld (rSeqHold k) 55 48 rv).bumpF (rSeqHold k) 47 24 1).toTree
      r.barrier 7 (.holdStart rv (((s.modRv k rv fun x => { x with
        holding := true
        bare := s.clk.swallowNow && (s.part k).lull.isEmpty }).part k).stepNo % 65536) s.me))) := by
    show execHoldStart k rv s = _
    unfold execHoldStart
    simp only [hpend, hdue, Bool.not_true, Bool.false_eq_true, if_false]
    rfl
  rw [s.part_modRv Part.stepNo (fun _ _ => rfl)] at hexec
  have hmod : (s.modRv k rv fun x => { x with
      holding := true
      bare := s.clk.swallowNow && (s.part k).lull.isEmpty }).rvD k rv = { s.rvD k rv with
      holding := true
      bare := s.clk.swallowNow && (s.part k).lull.isEmpty } := State.rvD_modRv ..
  have hleaves : Leaves (· ∈ [rSeqHold k]) s (s.modRv k rv fun x => { x with
      holding := true
      bare := s.clk.swallowNow && (s.part k).lull.isEmpty }) := .modRv .refl
  have hports : (s.modRv k rv fun x => { x with
      holding := true
      bare := s.clk.swallowNow && (s.part k).lull.isEmpty }).ports = s.ports := rfl
  have hregs : (s.modRv k rv fun x => { x with
      holding := true
      bare := s.clk.swallowNow && (s.part k).lull.isEmpty }).fld (rSeqHold k) 47 24 = s.fld (rSeqHold k) 47 24 := rfl
  generalize (s.modRv k rv fun x => { x with
      holding := true
      bare := s.clk.swallowNow && (s.part k).lull.isEmpty }) = u at *
  have hall : Leaves (· ∈ [rSeqHold k]) s (((u.setFld (rSeqHold k) 62 62 1).setFld (rSeqHold k) 55 48 rv).bumpF (rSeqHold k) 47 24 1) :=
    .bumpF (.setFld (.setFld hleaves (by simp)) (by simp)) (by simp)
  have h62 : (((u.setFld (rSeqHold k) 62 62 1).setFld (rSeqHold k) 55 48 rv).bumpF (rSeqHold k) 47 24 1).fld (rSeqHold k) 62 62 = 1 := by
    rw [State.bumpF, State.fld_setFld_disjoint _ _ _ _ _ _ _ (by omega) (by omega) (by omega) (by omega),
      State.fld_setFld_disjoint _ _ _ _ _ _ _ (by omega) (by omega) (by omega) (by omega), State.fld_setFld_same _ _ _ _ _ (by omega) (by omega)]
    exact Nat.mod_eq_of_lt (by norm_num)
  have h55 : (((u.setFld (rSeqHold k) 62 62 1).setFld (rSeqHold k) 55 48 rv).bumpF (rSeqHold k) 47 24 1).fld (rSeqHold k) 55 48 = rv := by
    rw [State.bumpF, State.fld_setFld_disjoint _ _ _ _ _ _ _ (by omega) (by omega) (by omega) (by omega),
      State.fld_setFld_same _ _ _ _ _ (by omega) (by omega)]
    exact Nat.mod_eq_of_lt hrv
  have h47 : (((u.setFld (rSeqHold k) 62 62 1).setFld (rSeqHold k) 55 48 rv).bumpF (rSeqHold k) 47 24 1).fld (rSeqHold k) 47 24 =
      min (s.fld (rSeqHold k) 47 24 + 1) (2 ^ 24 - 1) := by
    rw [State.fld_bumpF_same _ _ _ _ _ (by omega) (by omega), State.fld_setFld_disjoint _ _ _ _ _ _ _ (by omega) (by omega) (by omega) (by omega),
      State.fld_setFld_disjoint _ _ _ _ _ _ _ (by omega) (by omega) (by omega) (by omega), hregs]
  have hrvD : (((u.setFld (rSeqHold k) 62 62 1).setFld (rSeqHold k) 55 48 rv).bumpF (rSeqHold k) 47 24 1).rvD k rv = u.rvD k rv := rfl
  have hsame : (((u.setFld (rSeqHold k) 62 62 1).setFld (rSeqHold k) 55 48 rv).bumpF (rSeqHold k) 47 24 1).ports = s.ports := hports
  generalize ((u.setFld (rSeqHold k) 62 62 1).setFld (rSeqHold k) 55 48 rv).bumpF (rSeqHold k) 47 24 1 = v at *
  have hkept : ∀ {β : Type} (g : State → β), (∀ (s : State) (p : Nat) (f : PortDyn → PortDyn), g (s.modPort p f) = g s) →
      g (v.toTree r.barrier 7 (.holdStart rv ((s.part k).stepNo % 65536) s.me)) = g v := fun g hg => State.toTree_keeps g hg v _ _ _
  have hend := (hall.toTree (u := r.barrier) (b := 7) (r := .holdStart rv ((s.part k).stepNo % 65536) s.me))
  refine ⟨_, hexec, ?_, ?_, (hkept (fun t => t.fld (rSeqHold k) 62 62) fun _ _ _ => rfl).trans h62,
    (hkept (fun t => t.fld (rSeqHold k) 55 48) fun _ _ _ => rfl).trans h55,
    (hkept (fun t => t.fld (rSeqHold k) 47 24) fun _ _ _ => rfl).trans h47,
    fun p hp hne hup => State.ctl_toTree_rSeqHold _ hk hall hsame hnodup hp hne hup, hend.sameMem, hend.sameRegsBut⟩
  · rw [hkept (fun t => t.rvD k rv) fun _ _ _ => rfl, hrvD, hmod]
  · rw [hkept (fun t => t.rvD k rv) fun _ _ _ => rfl, hrvD, hmod]

theorem holdsPropagate_end (s : State) (k rv : Nat) (r : RvEntry) (hk : k < 4) (hlisted : SMap.get (s.part k).rvs rv = some r)
    (hholds : (s.rvD k rv).holding = true) (hnodup : (s.treePorts r.barrier).Nodup) :
    ∃ t : State, exec (.holdEnd k rv) s = .next t ∧ (t.rvD k rv).holding = false ∧
      (t.rvD k rv).shift = (((s.rvD k rv).shift : Int) + s.excess k rv r).toNat ∧
      (∀ p ∈ s.treePorts r.barrier, p ≠ 7 → s.linkState p = 4 →
        (t.port p).ctl = (s.port p).ctl ++ [CtlRec.holdEnd rv ((s.part k).stepNo % 65536) s.me (t.rvD k rv).shift]) ∧
      SameMem s t ∧ SameRegsBut [rSeqHold k] s t := by
  generalize hshift : (((s.rvD k rv).shift : Int) + s.excess k rv r).toNat = sh
  have hexec : ∃ n, exec (.holdEnd k rv) s = .next ((((s.modRv k rv fun x => { x with
      holding := false
      bare := false
      shift := sh }).setFld (rSeqHold k) 62 62 n).setFld (rSeqHold k) 55 48 rv).toTree r.barrier 7 (.holdEnd rv (((s.modRv k rv fun x => { x with
        holding := false
        bare := false
        shift := sh }).part k).stepNo % 65536) s.me sh)) := by
    refine ⟨if (((s.modRv k rv fun x => { x with
      holding := false
      bare := false
      shift := sh }).part k).rvDyn.any fun e => e.2.holding) then 1 else 0, ?_⟩
    show execHoldEnd k rv s = _
    unfold execHoldEnd
    simp only [hlisted, hholds, Bool.not_true, Bool.false_eq_true, if_false]
    rw [show ((s.shiftOf k rv : Int) + s.excess k rv r).toNat = sh from hshift]
    rfl
  obtain ⟨n, hexec⟩ := hexec
  rw [s.part_modRv Part.stepNo (fun _ _ => rfl)] at hexec
  have hmod : (s.modRv k rv fun x => { x with
      holding := false
      bare := false
      shift := sh }).rvD k rv = { s.rvD k rv with
      holding := false
      bare := false
      shift := sh } := State.rvD_modRv ..
  have hall : Leaves (· ∈ [rSeqHold k]) s (((s.modRv k rv fun x => { x with
      holding := false
      bare := false
      shift := sh }).setFld (rSeqHold k) 62 62 n).setFld (rSeqHold k) 55 48 rv) := .setFld (.setFld (.modRv .refl) (by simp)) (by simp)
  have hports : (((s.modRv k rv fun x => { x with
      holding := false
      bare := false
      shift := sh }).setFld (rSeqHold k) 62 62 n).setFld (rSeqHold k) 55 48 rv).ports = s.ports := rfl
  have hrvD : (((s.modRv k rv fun x => { x with
      holding := false
      bare := false
      shift := sh }).setFld (rSeqHold k) 62 62 n).setFld (rSeqHold k) 55 48 rv).rvD k rv = _ := hmod
  generalize ((s.modRv k rv fun x => { x with
      holding := false
      bare := false
      shift := sh }).setFld (rSeqHold k) 62 62 n).setFld (rSeqHold k) 55 48 rv = v at *
  have hkept : (v.toTree r.barrier 7 (.holdEnd rv ((s.part k).stepNo % 65536) s.me sh)).rvD k rv = v.rvD k rv :=
    State.toTree_keeps (fun t => t.rvD k rv) (fun _ _ _ => rfl) v _ _ _
  have hend := (hall.toTree (u := r.barrier) (b := 7) (r := .holdEnd rv ((s.part k).stepNo % 65536) s.me sh))
  refine ⟨_, hexec, ?_, ?_, fun p hp hne hup => ?_, hend.sameMem, hend.sameRegsBut⟩
  · rw [hkept, hrvD]
  · rw [hkept, hrvD]
  · rw [State.ctl_toTree_rSeqHold _ hk hall hports hnodup hp hne hup, hkept, hrvD]

theorem holdsPropagate_received (s : State) (k rv n : Nat) (c : Coord) (hk : k < 4) (hn : n = (s.part k).stepNo % 65536)
    (hpend : (s.rvPending k rv).isSome = true) :
    ∃ t : State, exec (.holdStartReceived k rv n c) s = .next t ∧ c ∈ (t.rvD k rv).senders ∧ t.fld (rSeqHold k) 63 63 = 1 ∧
      (∃ r ∈ (t.part k).lull, r.kind = 2 ∧ r.tag = holdTag rv) ∧ SameMem s t ∧ SameRegsBut (rSeqHold k :: eventRegs) s t := by
  have hexec : ∃ f : RvDyn → RvDyn, (∀ x, (f x).senders = if x.senders.contains c then x.senders else x.senders ++ [c]) ∧
      exec (.holdStartReceived k rv n c) s = .next (((((s.modRv k rv f).setFld (rSeqHold k) 63 63 1).setFld (rSeqHold k) 55 48 rv).bumpF
        (rSeqHold k) 23 8 1).askLull k { kind := 2, cause := 7, core := k, tag := holdTag rv }) := by
    refine ⟨fun x => { x with
      senders := if x.senders.contains c then x.senders else x.senders ++ [c]
      since := if x.senders.isEmpty then s.beat else x.since
      received := true }, fun x => rfl, ?_⟩
    show execHoldStartReceived k rv n c s = _
    unfold execHoldStartReceived
    rw [if_neg (by simpa using hn), if_neg (by rw [Option.isNone_iff_eq_none]; exact Option.isSome_iff_ne_none.mp hpend)]
  obtain ⟨f, hf, hexec⟩ := hexec
  have hmod : c ∈ ((s.modRv k rv f).rvD k rv).senders := by
    rw [State.rvD_modRv, hf]
    split
    · next h => simpa using h
    · simp
  have hleaves : Leaves (· ∈ rSeqHold k :: eventRegs) s (s.modRv k rv f) := .modRv .refl
  generalize s.modRv k rv f = u at *
  have h63 : (((u.setFld (rSeqHold k) 63 63 1).setFld (rSeqHold k) 55 48 rv).bumpF (rSeqHold k) 23 8 1).fld (rSeqHold k) 63 63 = 1 := by
    rw [State.bumpF, State.fld_setFld_disjoint _ _ _ _ _ _ _ (by omega) (by omega) (by omega) (by omega),
      State.fld_setFld_disjoint _ _ _ _ _ _ _ (by omega) (by omega) (by omega) (by omega), State.fld_setFld_same _ _ _ _ _ (by omega) (by omega)]
    exact Nat.mod_eq_of_lt (by norm_num)
  have hrvD : (((u.setFld (rSeqHold k) 63 63 1).setFld (rSeqHold k) 55 48 rv).bumpF (rSeqHold k) 23 8 1).rvD k rv = u.rvD k rv := rfl
  have hall : Leaves (· ∈ rSeqHold k :: eventRegs) s (((u.setFld (rSeqHold k) 63 63 1).setFld (rSeqHold k) 55 48 rv).bumpF (rSeqHold k) 23 8 1) :=
    .bumpF (.setFld (.setFld hleaves (by simp)) (by simp)) (by simp)
  generalize ((u.setFld (rSeqHold k) 63 63 1).setFld (rSeqHold k) 55 48 rv).bumpF (rSeqHold k) 23 8 1 = v at *
  have hask : Leaves (· = rDbgStatus) v (v.askLull k { kind := 2, cause := 7, core := k, tag := holdTag rv }) := .askLull .refl rfl
  have hend := hall.askLull (k := k) (r := { kind := 2, cause := 7, core := k, tag := holdTag rv }) (by simp [eventRegs])
  refine ⟨_, hexec, ?_, (hask.fld (by simp only [rSeqHold, rDbgStatus]; omega) _ _).trans h63, State.mem_lull_askLull .., hend.sameMem, hend.sameRegsBut⟩
  rw [State.rvD_askLull, hrvD]
  exact hmod

theorem holdsPropagate_ended (s : State) (k rv n x : Nat) (c : Coord) (hn : n = (s.part k).stepNo % 65536) (hpend : (s.rvPending k rv).isSome = true) :
    ∃ t : State, exec (.holdEndReceived k rv n c x) s = .next t ∧ (t.rvD k rv).senders = (s.rvD k rv).senders.filter (· != c) ∧
      (t.rvD k rv).shift = max (s.rvD k rv).shift x ∧
      ((t.rvD k rv).senders = [] → ∀ r ∈ (t.part k).lull, ¬(r.kind = 2 ∧ r.tag = holdTag rv)) ∧
      ((t.rvD k rv).senders ≠ [] → (t.part k).lull = (s.part k).lull) ∧ SameMem s t ∧ SameRegsBut (rSeqHold k :: eventRegs) s t := by
  have hleaves : Leaves (· ∈ rSeqHold k :: eventRegs) s (s.modRv k rv fun y => { y with
      senders := y.senders.filter (· != c)
      shift := max y.shift x }) := .modRv .refl
  have hmod : (s.modRv k rv fun y => { y with
      senders := y.senders.filter (· != c)
      shift := max y.shift x }).rvD k rv = { s.rvD k rv with
      senders := (s.rvD k rv).senders.filter (· != c)
      shift := max (s.rvD k rv).shift x } := State.rvD_modRv ..
  have hlull := s.part_modRv Part.lull (fun _ _ => rfl) k rv (fun y => { y with
      senders := y.senders.filter (· != c)
      shift := max y.shift x }) k
  have hexec : ∃ m, exec (.holdEndReceived k rv n c x) s = .next (if !((s.modRv k rv fun y => { y with
      senders := y.senders.filter (· != c)
      shift := max y.shift x }).rvD k rv).senders.isEmpty then s.modRv k rv fun y => { y with
      senders := y.senders.filter (· != c)
      shift := max y.shift x } else ((s.modRv k rv fun y => { y with
      senders := y.senders.filter (· != c)
      shift := max y.shift x }).setFld (rSeqHold k) 63 63 m).endLull k 2 (holdTag rv)) := by
    refine ⟨if (((s.modRv k rv fun y => { y with
      senders := y.senders.filter (· != c)
      shift := max y.shift x }).part k).rvDyn.any fun e => !e.2.senders.isEmpty) then 1 else 0, ?_⟩
    show execHoldEndReceived k rv n c x s = _
    unfold execHoldEndReceived
    rw [if_neg (by simpa using hn), if_neg (by rw [Option.isNone_iff_eq_none]; exact Option.isSome_iff_ne_none.mp hpend)]
    exact (apply_ite Host.Outcome.next _ _ _).symm
  obtain ⟨m, hexec⟩ := hexec
  generalize (s.modRv k rv fun y => { y with
      senders := y.senders.filter (· != c)
      shift := max y.shift x }) = u at *
  have hsenders : (u.rvD k rv).senders = (s.rvD k rv).senders.filter (· != c) := by rw [hmod]
  have hshift : (u.rvD k rv).shift = max (s.rvD k rv).shift x := by rw [hmod]
  by_cases he : (u.rvD k rv).senders = []
  · rw [if_neg (by simp [he])] at hexec
    have hrvD := (u.setFld (rSeqHold k) 63 63 m).rvD_endLull k rv k 2 (holdTag rv)
    have hsame : (u.setFld (rSeqHold k) 63 63 m).rvD k rv = u.rvD k rv := rfl
    have hend := (hleaves.setFld (hi := 63) (lo := 63) (v := m) (by simp : rSeqHold k ∈ rSeqHold k :: eventRegs)).endLull (k := k) (kind := 2)
      (tag := holdTag rv) (by simp [eventRegs])
    refine ⟨_, hexec, ?_, ?_, fun _ r hr => ?_, fun hne => absurd ?_ hne, hend.sameMem, hend.sameRegsBut⟩
    · rw [hrvD, hsame, hsenders]
    · rw [hrvD, hsame, hshift]
    · exact State.notMem_lull_endLull _ hr
    · rw [hrvD, hsame, he]
  · rw [if_pos (by simpa using he)] at hexec
    exact ⟨u, hexec, hsenders, hshift, fun h => absurd h he, fun _ => hlull, hleaves.sameMem, hleaves.sameRegsBut⟩

theorem holdsPropagate_timeout (s : State) (k rv : Nat) :
    ((∃ r ∈ (s.part k).lull, r.bounded = true ∧ r.since + s.fld (rSeqHoldLimit k) 31 0 * 700 ≤ s.clk.wall) →
      exec (.holdTimeout k rv) s = .next ((s.rvD k rv).senders.tail.foldl (fun v c => v.fault k 0x0F none 0 (coordNum c + 2 ^ 24 * rv))
        (s.fault k 0x0F none 0 (coordNum ((s.rvD k rv).senders.headD {}) + 2 ^ 24 * rv)))) ∧
    ((∀ r ∈ (s.part k).lull, r.bounded = true → s.clk.wall < r.since + s.fld (rSeqHoldLimit k) 31 0 * 700) →
      exec (.holdTimeout k rv) s = .next s) := by
  constructor
  · rintro ⟨r, hr, hbounded, hlate⟩
    show execHoldTimeout k rv s = _
    unfold execHoldTimeout
    have hany : (s.part k).lull.any (fun r => r.bounded && decide (r.since + s.fld (rSeqHoldLimit k) 31 0 * 700 ≤ s.clk.wall)) = true :=
      List.any_eq_true.mpr ⟨r, hr, by simp [hbounded, hlate]⟩
    exact if_neg (by rw [hany]; decide)
  · intro hnone
    show execHoldTimeout k rv s = _
    unfold execHoldTimeout
    have hany : (s.part k).lull.any (fun r => r.bounded && decide (r.since + s.fld (rSeqHoldLimit k) 31 0 * 700 ≤ s.clk.wall)) = false := by
      refine List.any_eq_false.mpr fun r hr hboth => ?_
      simp only [Bool.and_eq_true, decide_eq_true_eq] at hboth
      exact absurd hboth.2 (Nat.not_le.mpr (hnone r hr hboth.1))
    exact if_pos (by rw [hany]; decide)

/-- Settles O21: a hold's start, its end, what is received of one, and the limit of a wait. -/
theorem holdsPropagate : Obligations.HoldsPropagate := by
  refine ⟨holdsPropagate_start, holdsPropagate_end, fun s k rv n x c _ => ⟨fun hne => ⟨if_pos hne, if_pos hne⟩, fun hn hpend => ⟨?_, ?_⟩⟩,
    holdsPropagate_received, fun s k rv n x c _ hn hpend => holdsPropagate_ended s k rv n x c hn hpend, holdsPropagate_timeout⟩
  · show execHoldStartReceived k rv n c s = _
    unfold execHoldStartReceived
    rw [if_neg (by simpa using hn), if_pos (by simp [hpend])]
  · show execHoldEndReceived k rv n c x s = _
    unfold execHoldEndReceived
    rw [if_neg (by simpa using hn), if_pos (by simp [hpend])]

end Sys2Proof.Machine
end

section
/-! PROOF. The clock counts, but not for a partition whose state Zenith captures (R335, R628). -/
namespace Sys2Proof.Machine

/-- Partition 0 in a step while its dump is captured. -/
def State.inStepAndCaptured : State := (State.reset.setFld (rZenPart 0) 63 63 1).modPart 0 fun p =>
  { p with inStep := true, dumpState := 1 }

/-- Nothing of a captured partition counts (R628). -/
theorem State.lag_inStepAndCaptured : (State.inStepAndCaptured.passCycle true).reg (rSeqLag 0) = 0#64 := by decide

/-- Refutes O22: a swallowed cycle does not raise the lag of a partition that is in a step with its dump being captured (R628), which the first
clause does not leave out. -/
theorem not_clockRuns : ¬ Obligations.ClockRuns := by
  rintro ⟨⟨hswallowed, -⟩, -⟩
  obtain ⟨t, hexec, -, -, hlag, -⟩ := hswallowed State.inStepAndCaptured
  have ht : State.inStepAndCaptured.passCycle true = t := by
    have h : Host.Outcome.next (State.inStepAndCaptured.passCycle true) = (.next t : Out) := hexec
    injection h
  have hrises := hlag 0 (by decide) (by decide) (by decide) (by decide)
  rw [← ht, State.lag_inStepAndCaptured] at hrises
  exact absurd hrises (by decide)

end Sys2Proof.Machine
end

section
/-! PROOF. Arriving flits, of which one may name a channel that no port has (R428, R432, R472). -/
namespace Sys2Proof.Machine

/-- A module whose port 0 is up. -/
def State.portUp : State := State.reset.setFld (rLnkStatus 0) 63 61 4

/-- A data flit, with one symbol corrected, of a channel 28: the counter that stands 28 places after the first of LNK_RX_FLITS is LNK_FEC_CORR. -/
def flitOfChannel28 : Flit := { vc := 28, typ := 1, header := some {}, fecCorrected := 1 }

/-- The flit's correction and the flit itself are counted in one register. -/
theorem State.counted_flitOfChannel28 : (match exec (.flitReceived 0 flitOfChannel28) State.portUp with
    | .next t => t.fld (rLnkRxFlits 0 28) 47 0
    | _ => 0) = 2 := by decide

/-- Refutes O23: the clause on a data flit leaves its VC free, and for VC 28 the counter of received flits is LNK_FEC_CORR (R472), which the flit's
corrected symbols raise too (R428). -/
theorem not_flitsTaken : ¬ Obligations.FlitsTaken := by
  rintro ⟨htaken, -⟩
  obtain ⟨-, -, -, -, hdata, -⟩ := htaken State.portUp 0 flitOfChannel28 (by decide) (by decide) rfl rfl rfl rfl
  obtain ⟨t, hexec, -, -, -, -, hcount, -⟩ := hdata {} rfl (by decide) (by decide) (by decide) (by decide) (by decide) rfl (by decide) (by decide)
  have htwo := State.counted_flitOfChannel28
  rw [hexec] at htwo
  have hone : t.fld (rLnkRxFlits 0 28) 47 0 = 1 := hcount.trans (by decide)
  exact absurd (hone.symm.trans htwo) (by decide)

end Sys2Proof.Machine
end

section
/-! PROOF. Messages of the shared plane, whose count of bytes is one of 48 bits (R420, R449). -/
namespace Sys2Proof.Machine

/-- A module whose partition 0 owns port 0, and whose count of the shared plane's bytes stands at its greatest value. -/
def State.sharedFull : State :=
  ((State.reset.setFld (rZenPart 0) 63 63 1).setFld (rZenPart 0) 53 48 1).setReg rStraSharedBytes 0xFFFFFFFFFFFF#64

/-- The reply to a request of no item leaves the count at its greatest value. -/
theorem State.counted_sharedFull : (match exec (.gatherRequest 0 { kind := 4 } false) State.sharedFull with
    | .next t => t.fld rStraSharedBytes 63 0
    | _ => 0) = 2 ^ 48 - 1 := by decide

/-- Refutes O25: the clause on a gather request counts the reply's bytes in 64 bits, and STRA_SHARED_BYTES stops at 2^48 - 1 (R420). -/
theorem not_messagesArrive : ¬ Obligations.MessagesArrive := by
  rintro ⟨-, hrequest, -⟩
  obtain ⟨hlocal, -⟩ := hrequest State.sharedFull 0 0 { kind := 4 } [] (by decide) (by decide) (by simp)
  obtain ⟨t, r, hexec, -, -, -, hcontent, hcount, -⟩ := hlocal (by decide)
  have hstays := State.counted_sharedFull
  rw [hexec] at hstays
  have hlen : r.content.length = 16 := by rw [hcontent]; decide
  rw [hlen] at hcount
  exact absurd (hstays.symm.trans hcount) (by decide)

end Sys2Proof.Machine
end

section
/-! PROOF. Multicasts, of which one may be met by pieces of its own number that wait at the port (R397, R456). -/
namespace Sys2Proof.Machine

/-- A module that has met no multicast, with port 4 up and a queue of messages there. -/
def State.queuedAtPort4 (l : List TxMsg) : State := { State.reset.setFld (rLnkStatus 4) 63 61 4 with ports := [(4, { tx := l })] }

/-- A piece of multicast 0 of this module, and the multicast's header. -/
def pieceOfZero : TxMsg := { hdr := { kind := 3, stage := 2 }, piece := true }

/-- A multicast's first flit here, where 256 pieces of it wait at its branch's port already: the flit is the branch's gap, and nothing joins the
queue (R397). -/
theorem State.tx_multicastFlit_full {l : List TxMsg} (h : 256 ≤ (l.filter fun t => t.pieceOf {} 0).length) {t : State}
    (ht : exec (.multicastFlit 0 { kind := 3, stage := 2 } 0) (State.queuedAtPort4 l) = .next t) : (t.port 4).tx = l := by
  have hbranch : exec (.multicastFlit 0 { kind := 3, stage := 2 } 0) (State.queuedAtPort4 l) =
      .next (((State.queuedAtPort4 l).openMcast 0 { kind := 3, stage := 2 }).branchFlit
        { hdr := { kind := 3, stage := 2 }, inPort := 0, flits := 1, branches := [{ line := 4, stage := 2 }] } { line := 4, stage := 2 } 0 []) := rfl
  have hgap : ((State.queuedAtPort4 l).openMcast 0 { kind := 3, stage := 2 }).branchFlit
      { hdr := { kind := 3, stage := 2 }, inPort := 0, flits := 1, branches := [{ line := 4, stage := 2 }] } { line := 4, stage := 2 } 0 [] =
      ((State.queuedAtPort4 l).openMcast 0 { kind := 3, stage := 2 }).modBranch {} 0 4 fun y => { y with gap := some 0 } :=
    (if_neg (by decide)).trans (if_pos h)
  rw [hbranch, hgap] at ht
  injection ht with ht
  rw [← ht]
  rfl

/-- Refutes O26: the clause on a multicast not met before says that a piece joins the queue of its branch's port; where 256 pieces of its number wait
there already, the branch has no credit (R397). -/
theorem not_multicastsRun : ¬ Obligations.MulticastsRun := by
  rintro ⟨⟨-, -, hfirst, -⟩, -⟩
  obtain ⟨t, -, hexec, -, -, -, -, -, -, hjoins, -⟩ := hfirst (State.queuedAtPort4 (List.replicate 256 pieceOfZero)) 0 0 { kind := 3, stage := 2 }
    rfl rfl (by decide) (by decide) rfl (by decide)
  have hfull : 256 ≤ ((List.replicate 256 pieceOfZero).filter fun t => t.pieceOf {} 0).length := by
    rw [List.filter_replicate_of_pos (by decide), List.length_replicate]
  rw [State.tx_multicastFlit_full hfull hexec] at hjoins
  have hmore : (List.replicate 256 pieceOfZero).length = (List.replicate 256 pieceOfZero).length + 1 := hjoins
  omega

end Sys2Proof.Machine
end

section
/-! PROOF. Link ports train and are reset (R425, R466–R471, R569). -/
namespace Sys2Proof.Machine

/-- What showing the running activities changes: registers alone. -/
theorem State.showMaint_keeps {β : Type} (g : State → β) (hg : ∀ (s : State) r, g { s with regs := r } = g s) (s : State) : g s.showMaint = g s :=
  foldl_keeps g (fun _ _ => ((hg _ _).trans (hg _ _)).trans (hg _ _)) _ s

/-- What the end of an activity changes: registers and the activities. -/
theorem State.maintEnd_keeps {β : Type} (g : State → β) (hg : ∀ (s : State) r m, g { s with regs := r, maint := m } = g s) (s : State)
    (act scope : Nat) : g (s.maintEnd act scope) = g s :=
  (State.showMaint_keeps g (fun s r => hg s r s.maint) _).trans (hg s s.regs _)

/-- What a grant changes: registers and the activities. -/
theorem State.maintGrant_keeps {β : Type} (g : State → β) (hg : ∀ (s : State) r m, g { s with regs := r, maint := m } = g s) (s : State)
    (act scope : Nat) : g (s.maintGrant act scope) = g s :=
  (State.showMaint_keeps g (fun s r => hg s r s.maint) _).trans (hg s s.regs _)

theorem Reports.maintGrant (s : State) (act scope : Nat) : Reports (· ∈ maintRegs) s (s.maintGrant act scope) := by
  unfold State.maintGrant
  refine Reports.trans ?_ (Reports.showMaint _)
  exact Reports.of_eq rfl rfl rfl rfl rfl rfl rfl

/-- The model's `min` is of functions: it is the lower version of the two all the same (R468). -/
theorem min_peerVersion (r : TrainResult) : (min 0x21 peerVersion : TrainResult → Nat) r = min 0x21 (peerVersion r) := rfl

/-- A failed training leaves the lanes that locked in LNK_STATUS (R470). -/
theorem State.lanes_trainFail (s : State) (p lanes : Nat) : (s.trainFail p lanes).fld (rLnkStatus p) 47 32 = lanes % 65536 := by
  have hdark : ((s.setFld (rLnkStatus p) 47 32 lanes).goDark p).fld (rLnkStatus p) 47 32 = lanes % 65536 := by
    rw [State.goDark, (Reports.maintEnd _ 5 p).fld (rLnkStatus_notMem_maintRegs p),
      State.fld_setFld_disjoint _ _ _ _ _ _ _ (by omega) (by omega) (by omega) (by omega)]
    exact State.fld_setFld_same s _ 47 32 lanes (by omega) (by omega)
  rw [State.trainFail_eq, State.fld_laterW, (Reports.eventPort _ p _ _ _).fld (rLnkStatus_notMem_eventRegs p), State.darkAfterFail,
    State.fld_setFld_disjoint _ _ _ _ _ _ _ (by omega) (by omega) (by omega) (by omega)]
  exact hdark

/-- A failed training leaves its step in LNK_STATUS (R470). -/
theorem State.step_trainFail (s : State) (p lanes : Nat) : (s.trainFail p lanes).fld (rLnkStatus p) 31 28 = (s.port p).trainStep % 16 := by
  rw [State.trainFail_eq, State.fld_laterW, (Reports.eventPort _ p _ _ _).fld (rLnkStatus_notMem_eventRegs p), State.darkAfterFail]
  exact State.fld_setFld_same _ _ _ _ _ (by omega) (by omega)

theorem portsTrain_locked (s : State) (p : Nat) (r : TrainResult) (hup : s.linkState p = 1)
    (hstep : (s.port p).trainStep = 1 ∨ (s.port p).trainStep = 2 ∨ (s.port p).trainStep = 3) (hlanes : r.lanes = 0xFFFF) :
    ∃ t : State, exec (.trainingStep p r) s = .next t ∧ (t.port p).trainStep = (s.port p).trainStep + 1 ∧ t.fld (rLnkStatus p) 47 32 = 0xFFFF ∧
      t.linkState p = 1 ∧ t.agenda = s.agenda ∧ SameMem s t ∧ SameRegsBut [rLnkStatus p] s t := by
  have hexec : exec (.trainingStep p r) s = .next ((s.modPort p fun q => { q with trainStep := (s.port p).trainStep + 1 }).setFld (rLnkStatus p)
      47 32 0xFFFF) := by
    have hruns : ¬(s.linkState p ≠ 1 ∨ (s.port p).trainStep = 0) := by omega
    have hlock : (s.port p).trainStep ≤ 3 := by omega
    exact (if_neg hruns).trans ((if_pos hlock).trans (if_neg (not_not_intro hlanes)))
  have hleaves : Leaves (· ∈ [rLnkStatus p]) s ((s.modPort p fun q => { q with trainStep := (s.port p).trainStep + 1 }).setFld (rLnkStatus p) 47 32
      0xFFFF) := .setFld (.modPort .refl) (by simp)
  refine ⟨_, hexec, ?_, State.fld_setFld_same _ _ _ _ _ (by omega) (by omega), ?_, rfl, hleaves.sameMem, hleaves.sameRegsBut⟩
  · rw [State.port_setFld, State.port_modPort_same]
  · exact (State.fld_setFld_disjoint _ _ _ _ _ _ _ (by omega) (by omega) (by omega) (by omega)).trans hup

theorem portsTrain_unlocked (s : State) (p : Nat) (r : TrainResult) (hup : s.linkState p = 1)
    (hstep : (s.port p).trainStep = 1 ∨ (s.port p).trainStep = 2 ∨ (s.port p).trainStep = 3) (hlanes : r.lanes ≠ 0xFFFF)
    (hroom : s.evq.length < 1024) :
    ∃ (t : State) (e : EventRec), exec (.trainingStep p r) s = .next t ∧ t.linkState p = 0 ∧ t.fld (rLnkStatus p) 47 32 = r.lanes % 65536 ∧
      t.fld (rLnkStatus p) 31 28 = (s.port p).trainStep ∧ t.evq = s.evq ++ [e] ∧ e.code = 0x0302 ∧ SameMem s t ∧
      SameRegsBut (rLnkStatus p :: (maintRegs ++ eventRegs)) s t := by
  have hexec : exec (.trainingStep p r) s = .next (s.trainFail p r.lanes) := by
    have hruns : ¬(s.linkState p ≠ 1 ∨ (s.port p).trainStep = 0) := by omega
    have hlock : (s.port p).trainStep ≤ 3 := by omega
    exact (if_neg hruns).trans ((if_pos hlock).trans (if_pos hlanes))
  obtain ⟨e, hevq, hcode, -, -⟩ := State.exists_evq_trainFail p r.lanes hroom
  refine ⟨_, e, hexec, State.linkState_trainFail s p r.lanes, State.lanes_trainFail s p r.lanes, ?_, hevq, hcode, State.sameMem_trainFail ..,
    State.sameRegsBut_trainFail s p r.lanes⟩
  rw [State.step_trainFail]
  omega

theorem portsTrain_agreed (s : State) (p : Nat) (r : TrainResult) (hup : s.linkState p = 1) (hstep : (s.port p).trainStep = 4)
    (hmin : 0x10 ≤ peerVersion r) (hrack : s.crossRack p = false ∨ 0x21 ≤ peerVersion r) :
    ∃ t : State, exec (.trainingStep p r) s = .next t ∧ (t.port p).trainStep = 5 ∧ t.linkVersion p = min 0x21 (peerVersion r) ∧
      (t.legacy p = true ↔ peerVersion r < 0x20) ∧ t.linkState p = 1 ∧ t.agenda = s.agenda ∧ SameMem s t ∧ SameRegsBut [rLnkStatus p] s t := by
  have hagree : s.agreeVersion p r = (s.setFld (rLnkStatus p) 55 48 (min 0x21 (peerVersion r))).setFld (rLnkStatus p) 59 59
      (if min 0x21 (peerVersion r) < 0x20 then 1 else 0) := by
    unfold State.agreeVersion
    rw [min_peerVersion]
    refine if_neg ?_
    rintro (h | ⟨hcross, h⟩)
    · omega
    · rcases hrack with hrack | hrack
      · rw [hrack] at hcross
        exact Bool.false_ne_true hcross
      · omega
  have hstate : (s.agreeVersion p r).linkState p = 1 := by
    rw [hagree, State.linkState, State.fld_setFld_disjoint _ _ _ _ _ _ _ (by omega) (by omega) (by omega) (by omega),
      State.fld_setFld_disjoint _ _ _ _ _ _ _ (by omega) (by omega) (by omega) (by omega)]
    exact hup
  have hexec : exec (.trainingStep p r) s = .next ((s.agreeVersion p r).modPort p fun q => { q with trainStep := (s.port p).trainStep + 1 }) := by
    show execTrainingStep p r s = _
    unfold execTrainingStep
    dsimp only
    rw [if_neg (by omega), if_neg (by omega), if_pos hstep, if_pos hstate]
  have hleaves : Leaves (· ∈ [rLnkStatus p]) s (s.agreeVersion p r) := by
    rw [hagree]
    exact .setFld (.setFld .refl (by simp)) (by simp)
  refine ⟨_, hexec, ?_, ?_, ?_, hstate, by rw [hagree]; rfl, hleaves.modPort.sameMem, hleaves.modPort.sameRegsBut⟩
  · rw [State.port_modPort_same, hstep]
  · show (s.agreeVersion p r).fld _ _ _ = _
    rw [hagree, State.fld_setFld_disjoint _ _ _ _ _ _ _ (by omega) (by omega) (by omega) (by omega),
      State.fld_setFld_same _ _ _ _ _ (by omega) (by omega)]
    exact Nat.mod_eq_of_lt (by norm_num)
  · show ((s.agreeVersion p r).fld _ _ _ == 1) = true ↔ _
    rw [hagree, State.fld_setFld_same _ _ _ _ _ (by omega) (by omega), beq_iff_eq]
    split
    · next h => exact ⟨fun _ => by omega, fun _ => rfl⟩
    · next h => exact ⟨fun h0 => absurd h0 (by decide), fun h1 => absurd h1 (by omega)⟩

theorem portsTrain_disagreed (s : State) (p : Nat) (r : TrainResult) (hup : s.linkState p = 1) (hstep : (s.port p).trainStep = 4)
    (hbad : peerVersion r < 0x10 ∨ (s.crossRack p = true ∧ peerVersion r < 0x21)) (hroom : s.evq.length < 1024) :
    ∃ (t : State) (e : EventRec), exec (.trainingStep p r) s = .next t ∧ t.linkState p = 0 ∧ t.evq = s.evq ++ [e] ∧ e.code = 0x0303 ∧
      e.detail = peerVersion r ∧ SameMem s t ∧ SameRegsBut (rLnkStatus p :: (maintRegs ++ eventRegs)) s t := by
  have hagree : s.agreeVersion p r = ((s.goDark p).eventPort p 0x0303 (peerVersion r) p).laterW 0 .startPhase := by
    unfold State.agreeVersion
    refine if_pos (hbad.imp_right fun ⟨hcross, h⟩ => ⟨hcross, ?_⟩)
    rw [min_peerVersion, Nat.min_eq_right (Nat.le_of_lt h)]
    exact h
  have hdark : (s.agreeVersion p r).linkState p = 0 := by
    rw [hagree, State.linkState, State.fld_laterW, (Reports.eventPort _ p _ _ _).fld (rLnkStatus_notMem_eventRegs p)]
    exact State.linkState_goDark s p
  have hexec : exec (.trainingStep p r) s = .next (s.agreeVersion p r) := by
    show execTrainingStep p r s = _
    unfold execTrainingStep
    dsimp only
    rw [if_neg (by omega), if_neg (by omega), if_pos hstep, if_neg (by omega)]
  obtain ⟨e, hevq, hcode, -, hdetail⟩ := State.exists_evq_eventPort (s := s.goDark p) p 0x0303 (peerVersion r) p (by rwa [State.evq_goDark])
  rw [State.evq_goDark] at hevq
  have hleaves : Leaves (· ∈ rLnkStatus p :: (maintRegs ++ eventRegs)) s (s.agreeVersion p r) := by
    rw [hagree]
    refine .laterW (.raise (Leaves.refl.next (.goDark s p) fun x hx => ?_) fun x hx => ?_)
    · exact (List.mem_cons.mp hx).elim (fun h => List.mem_cons.mpr (.inl h)) fun h => List.mem_cons_of_mem _ (List.mem_append_left _ h)
    · exact List.mem_cons_of_mem _ (List.mem_append_right _ hx)
  exact ⟨_, e, hexec, hdark, by rw [hagree]; exact hevq, hcode, hdetail, hleaves.sameMem, hleaves.sameRegsBut⟩

theorem portsTrain_timed (s : State) (p : Nat) (r : TrainResult) (hup : s.linkState p = 1) (hstep : (s.port p).trainStep = 5) :
    ∃ t : State, exec (.trainingStep p r) s = .next t ∧ (t.port p).trainStep = 6 ∧ t.fld (rLnkRtt p) 31 0 = r.rtt % 2 ^ 32 ∧
      t.agenda = s.agenda ∧ SameMem s t ∧ SameRegsBut [rLnkRtt p] s t := by
  have hexec : exec (.trainingStep p r) s = .next ((s.modPort p fun q => { q with trainStep := (s.port p).trainStep + 1 }).setFld (rLnkRtt p) 31 0
      r.rtt) := by
    show execTrainingStep p r s = _
    unfold execTrainingStep
    dsimp only
    rw [if_neg (by omega), if_neg (by omega), if_neg (by omega), if_pos hstep]
  have hleaves : Leaves (· ∈ [rLnkRtt p]) s ((s.modPort p fun q => { q with trainStep := (s.port p).trainStep + 1 }).setFld (rLnkRtt p) 31 0 r.rtt) :=
    .setFld (.modPort .refl) (by simp)
  refine ⟨_, hexec, ?_, State.fld_setFld_same _ _ _ _ _ (by omega) (by omega), rfl, hleaves.sameMem, hleaves.sameRegsBut⟩
  rw [State.port_setFld, State.port_modPort_same, hstep]

/-- A port's dynamic record as its flit layer comes up (R432, R469). -/
def PortDyn.layered (q : PortDyn) : PortDyn :=
  { q with trainStep := 0, credits := [(0, 16), (1, 1024), (2, 1024), (3, 1024)], txSeqD := 0, txSeqC := 0, rxSeqD := 0, rxSeqC := 0 }

/-- A port's dynamic record with records to send. -/
def PortDyn.sending (q : PortDyn) (cs : List CtlRec) : PortDyn := { q with ctl := q.ctl ++ cs }

theorem PortDyn.sending_nil (q : PortDyn) : q.sending [] = q := by
  cases q
  simp only [PortDyn.sending, List.append_nil]

/-- The flit layer up, before identities are exchanged (R469). -/
def State.layered (s : State) (p : Nat) : State :=
  (((s.modPort p PortDyn.layered).setFld (rLnkStatus p) 63 61 2).setFld (rLnkStatus p) 31 28 0).maintEnd 5 p

theorem State.layerUp_eq (s : State) (p : Nat) : s.layerUp p =
    (if (s.layered p).fld rPwrStatus 60 57 < 3 then s.layered p else (s.layered p).sendCtl p (.ident (s.layered p).ownIdent)).laterW 0 .startPhase := rfl

theorem State.layered_spec (s : State) (p : Nat) : Leaves (· ∈ rLnkStatus p :: maintRegs) s (s.layered p) ∧ (s.layered p).linkState p = 2 ∧
    (s.layered p).port p = (s.port p).layered ∧ (s.layered p).agenda = s.agenda ∧ (s.layered p).clk = s.clk ∧ (s.layered p).zen = s.zen := by
  have hfld : (((s.modPort p PortDyn.layered).setFld (rLnkStatus p) 63 61 2).setFld (rLnkStatus p) 31 28 0).fld (rLnkStatus p) 63 61 = 2 := by
    rw [State.fld_setFld_disjoint _ _ _ _ _ _ _ (by omega) (by omega) (by omega) (by omega), State.fld_setFld_same _ _ _ _ _ (by omega) (by omega)]
    exact Nat.mod_eq_of_lt (by norm_num)
  have hport : (((s.modPort p PortDyn.layered).setFld (rLnkStatus p) 63 61 2).setFld (rLnkStatus p) 31 28 0).port p = (s.port p).layered :=
    State.port_modPort_same s p _
  have hkept : ∀ {β : Type} (g : State → β), (∀ (s : State) r m, g { s with regs := r, maint := m } = g s) →
      g (s.layered p) = g (((s.modPort p PortDyn.layered).setFld (rLnkStatus p) 63 61 2).setFld (rLnkStatus p) 31 28 0) :=
    fun g hg => State.maintEnd_keeps g hg _ 5 p
  have hleaves : Leaves (· ∈ rLnkStatus p :: maintRegs) s (((s.modPort p PortDyn.layered).setFld (rLnkStatus p) 63 61 2).setFld (rLnkStatus p) 31 28 0) :=
    .setFld (.setFld (.modPort .refl) (by simp)) (by simp)
  exact ⟨hleaves.next (.maintEnd _ 5 p) fun _ => List.mem_cons_of_mem _,
    ((Reports.maintEnd _ 5 p).fld (rLnkStatus_notMem_maintRegs p) 63 61).trans hfld, (hkept (fun v => v.port p) fun _ _ _ => rfl).trans hport,
    hkept State.agenda fun _ _ _ => rfl, hkept State.clk fun _ _ _ => rfl, hkept State.zen fun _ _ _ => rfl⟩

/-- A register above the stacks' and below the ports' is neither LNK_STATUS nor one of maintenance. -/
theorem notMem_rLnkStatus_maintRegs {r p : Nat} (hlnk : r ≠ rLnkStatus p) (hmaint : ∀ st < 8, r ≠ rMemMaint st ∧ r ≠ rMemPatrol st) :
    r ∉ rLnkStatus p :: maintRegs := by
  intro h
  rcases List.mem_cons.mp h with h | h
  · exact hlnk h
  · obtain ⟨st, hst, hr⟩ := List.mem_flatMap.mp h
    simp only [List.mem_cons, List.not_mem_nil, or_false] at hr
    obtain ⟨hm, hp⟩ := hmaint st (List.mem_range.mp hst)
    exact hr.elim hm hp

/-- Before its identity goes, a port whose flit layer came up knows its phase and its identity as before. -/
theorem State.ident_layered (s : State) (p : Nat) (hp : p < 6) : (s.layered p).fld rPwrStatus 60 57 = s.startPh ∧ (s.layered p).ownIdent = s.ownIdent := by
  obtain ⟨hleaves, -, -, -, -, hzen⟩ := s.layered_spec p
  have hphase : (s.layered p).fld rPwrStatus 60 57 = s.startPh :=
    hleaves.fld (notMem_rLnkStatus_maintRegs (by simp only [rPwrStatus, rLnkStatus]; omega)
      fun st hst => by simp only [rPwrStatus, rMemMaint, rMemPatrol]; omega) 60 57
  have hclock : (s.layered p).fld rClkPhase 63 63 = s.fld rClkPhase 63 63 :=
    hleaves.fld (notMem_rLnkStatus_maintRegs (by simp only [rClkPhase, rLnkStatus]; omega)
      fun st hst => by simp only [rClkPhase, rMemMaint, rMemPatrol]; omega) 63 63
  exact ⟨hphase, by simp only [State.ownIdent, State.me, hzen, hclock]⟩

/-- What a port whose flit layer came up is left with: its identity sent in phase 3 and later (R469, R577). -/
theorem State.layerUp_spec (s : State) (p : Nat) (hp : p < 6) : Leaves (· ∈ rLnkStatus p :: maintRegs) s (s.layerUp p) ∧
    (s.layerUp p).linkState p = 2 ∧
    (s.layerUp p).port p = (s.port p).layered.sending (if s.startPh < 3 then [] else [.ident s.ownIdent]) ∧
    (s.layerUp p).agenda = s.agenda ++ [({ dom := none, at_ := s.clk.wall, act := .cmd .startPhase } : Due)] := by
  obtain ⟨hleaves, hstate, hport, hagenda, hclk, -⟩ := s.layered_spec p
  obtain ⟨hphase, hident⟩ := s.ident_layered p hp
  rw [State.layerUp_eq, hphase, hident]
  generalize s.layered p = u at *
  have hsend : Leaves (· ∈ rLnkStatus p :: maintRegs) s (u.sendCtl p (.ident s.ownIdent)) := hleaves.sendCtl
  by_cases hph : s.startPh < 3
  · rw [if_pos hph, if_pos hph, PortDyn.sending_nil]
    exact ⟨hleaves.laterW, by rw [State.linkState, State.fld_laterW]; exact hstate, by rw [State.port_laterW, hport],
      by simp [State.laterW, State.after, hagenda, hclk]⟩
  · rw [if_neg hph, if_neg hph]
    have hkept : ∀ {β : Type} (g : State → β), (∀ (s : State) (p : Nat) (f : PortDyn → PortDyn), g (s.modPort p f) = g s) →
        g (u.sendCtl p (.ident s.ownIdent)) = g u := fun g hg => State.sendCtl_keeps g hg u p _
    have hctl : (u.sendCtl p (.ident s.ownIdent)).port p = (s.port p).layered.sending [.ident s.ownIdent] := by
      unfold State.sendCtl
      rw [if_pos (by rw [hstate]; exact ⟨by omega, by omega, .inr (.inr rfl)⟩), State.port_modPort_same, hport]
      rfl
    have hagenda' := (hkept State.agenda fun _ _ _ => rfl).trans hagenda
    have hclk' := (hkept State.clk fun _ _ _ => rfl).trans hclk
    have hstate' := (hkept (fun v => v.linkState p) fun _ _ _ => rfl).trans hstate
    exact ⟨hsend.laterW, by rw [State.linkState, State.fld_laterW]; exact hstate', by rw [State.port_laterW, hctl],
      by simp [State.laterW, State.after, hagenda', hclk']⟩

theorem portsTrain_up (s : State) (p : Nat) (r : TrainResult) (hp : p < 6) (hup : s.linkState p = 1) (hstep : (s.port p).trainStep = 6) :
    ∃ t : State, exec (.trainingStep p r) s = .next t ∧ t.linkState p = 2 ∧ (t.port p).txSeqD = 0 ∧ (t.port p).rxSeqD = 0 ∧
      (t.port p).txSeqC = 0 ∧ (t.port p).rxSeqC = 0 ∧ (t.port p).credits = [(0, 16), (1, 1024), (2, 1024), (3, 1024)] ∧
      (t.port p).ctl = (s.port p).ctl ++ (if s.startPh < 3 then [] else [.ident s.ownIdent]) ∧
      t.agenda = s.agenda ++ [({ dom := none, at_ := s.clk.wall, act := .cmd .startPhase } : Due)] ∧ SameMem s t ∧
      SameRegsBut (rLnkStatus p :: maintRegs) s t := by
  have hexec : exec (.trainingStep p r) s = .next (s.layerUp p) := by
    show execTrainingStep p r s = _
    unfold execTrainingStep
    dsimp only
    rw [if_neg (by omega), if_neg (by omega), if_neg (by omega), if_neg (by omega)]
  obtain ⟨hleaves, hstate, hport, hagenda⟩ := s.layerUp_spec p hp
  exact ⟨_, hexec, hstate, by rw [hport]; rfl, by rw [hport]; rfl, by rw [hport]; rfl, by rw [hport]; rfl, by rw [hport]; rfl,
    by rw [hport]; rfl, hagenda, hleaves.sameMem, hleaves.sameRegsBut⟩

/-- A port that trains again, in the grant of its link reset (R469, R471). -/
def State.retrained (s : State) (p : Nat) : State :=
  if (s.trainFrom p 2).maint.any (fun m => m.act == 5 && m.scope == p) then s.trainFrom p 2 else (s.trainFrom p 2).maintGrant 5 p

theorem State.resetPort_eq (s : State) (p : Nat) :
    s.resetPort p = if s.fld (rLnkCtrl p) 0 0 = 0 || !s.connected p then s.goDark p else s.retrained p := rfl

theorem State.goDark_spec (s : State) (p : Nat) : Leaves (· ∈ rLnkStatus p :: maintRegs) s (s.goDark p) ∧
    (s.goDark p).port p = { setNo := (s.port p).setNo } ∧ (s.goDark p).agenda = s.agenda :=
  ⟨Leaves.refl.next (.goDark s p) fun _ h => h,
    (State.maintEnd_keeps (fun v => v.port p) (fun _ _ _ => rfl) _ 5 p).trans (State.port_modPort_same s p fun q => { setNo := q.setNo }),
    State.maintEnd_keeps State.agenda (fun _ _ _ => rfl) _ 5 p⟩

theorem State.retrained_spec (s : State) (p : Nat) : Leaves (· ∈ rLnkStatus p :: maintRegs) s (s.retrained p) ∧ (s.retrained p).linkState p = 1 ∧
    (∃ b, (s.retrained p).port p = { setNo := (s.port p).setNo, trainStep := 2, crossRack := b }) ∧ (s.retrained p).agenda = s.agenda := by
  have hfrom : Leaves (· ∈ rLnkStatus p :: maintRegs) s (s.trainFrom p 2) := .modPort (.setFld (.setFld (.modPort .refl) (by simp)) (by simp))
  have hstate : (s.trainFrom p 2).linkState p = 1 := by
    unfold State.trainFrom
    rw [State.linkState, State.fld_modPort, State.fld_setFld_disjoint _ _ _ _ _ _ _ (by omega) (by omega) (by omega) (by omega),
      State.fld_setFld_same _ _ _ _ _ (by omega) (by omega)]
    rfl
  have hport : ∃ b, (s.trainFrom p 2).port p = { setNo := (s.port p).setNo, trainStep := 2, crossRack := b } := by
    refine ⟨(((s.clearPort p).setFld (rLnkStatus p) 63 61 1).setFld (rLnkStatus p) 60 60 (if (s.clearPort p).mapMask 64 p then 1 else 0)).mapMask 64 p, ?_⟩
    have hclear : (s.clearPort p).port p = { setNo := (s.port p).setNo } := State.port_modPort_same s p _
    unfold State.trainFrom
    rw [State.port_modPort_same, State.port_setFld, State.port_setFld, hclear]
  have hagenda : (s.trainFrom p 2).agenda = s.agenda := rfl
  unfold State.retrained
  generalize s.trainFrom p 2 = u at *
  split
  · exact ⟨hfrom, hstate, hport, hagenda⟩
  · have hkept : ∀ {β : Type} (g : State → β), (∀ (s : State) r m, g { s with regs := r, maint := m } = g s) → g (u.maintGrant 5 p) = g u :=
      fun g hg => State.maintGrant_keeps g hg u 5 p
    exact ⟨hfrom.next (.maintGrant u 5 p) fun _ => List.mem_cons_of_mem _,
      ((Reports.maintGrant u 5 p).fld (rLnkStatus_notMem_maintRegs p) 63 61).trans hstate,
      hport.imp fun b hb => (hkept (fun v => v.port p) fun _ _ _ => rfl).trans hb, (hkept State.agenda fun _ _ _ => rfl).trans hagenda⟩

theorem portsTrain_reset (s : State) (p : Nat) :
    ∃ t : State, exec (.linkReset p) s = .next t ∧ t.linkState p = (if s.fld (rLnkCtrl p) 0 0 = 0 ∨ s.connected p = false then 0 else 1) ∧
      (s.fld (rLnkCtrl p) 0 0 = 1 → s.connected p = true → (t.port p).trainStep = 2) ∧ (t.port p).tx = [] ∧ (t.port p).ctl = [] ∧
      (t.port p).keptD = [] ∧ (t.port p).keptC = [] ∧ (t.port p).ledger = [] ∧ (t.port p).txKey = none ∧ (t.port p).rxKey = none ∧
      (t.port p).setNo = (s.port p).setNo ∧ t.agenda = s.agenda ∧ SameMem s t ∧ SameRegsBut (rLnkStatus p :: maintRegs) s t := by
  have hexec : exec (.linkReset p) s = .next (s.resetPort p) := rfl
  rw [State.resetPort_eq] at hexec
  by_cases hdark : s.fld (rLnkCtrl p) 0 0 = 0 ∨ s.connected p = false
  · obtain ⟨hleaves, hport, hagenda⟩ := s.goDark_spec p
    have hstate := s.linkState_goDark p
    rw [if_pos (by simpa using hdark)] at hexec
    refine ⟨_, hexec, by rw [if_pos hdark]; exact hstate, fun hen hcon => ?_, by rw [hport], by rw [hport], by rw [hport], by rw [hport], by rw [hport],
      by rw [hport], by rw [hport], by rw [hport], hagenda, hleaves.sameMem, hleaves.sameRegsBut⟩
    rcases hdark with h | h
    · omega
    · rw [hcon] at h
      exact absurd h (by decide)
  · obtain ⟨hleaves, hstate, ⟨b, hport⟩, hagenda⟩ := s.retrained_spec p
    rw [if_neg (by simpa using hdark)] at hexec
    exact ⟨_, hexec, by rw [if_neg hdark]; exact hstate, fun _ _ => by rw [hport], by rw [hport], by rw [hport], by rw [hport], by rw [hport],
      by rw [hport], by rw [hport], by rw [hport], by rw [hport], hagenda, hleaves.sameMem, hleaves.sameRegsBut⟩

/-- Settles O27: the steps of training one after another, their failures, and a link reset. -/
theorem portsTrain : Obligations.PortsTrain := by
  refine ⟨fun s p r hp hup => ⟨portsTrain_locked s p r hup, portsTrain_unlocked s p r hup, portsTrain_agreed s p r hup, portsTrain_disagreed s p r hup,
    portsTrain_timed s p r hup, portsTrain_up s p r hp hup⟩, fun s p r l hnot => ⟨if_pos (.inl hnot), congrArg Host.Outcome.next (if_neg hnot)⟩,
    fun s p l _ hup hroom => ?_, fun s p _ => portsTrain_reset s p⟩
  obtain ⟨e, hevq, hcode, -, hdetail⟩ := State.exists_evq_trainFail p l hroom
  exact ⟨s.trainFail p l, e, execLinkTrainFail_of_training l hup, State.linkState_trainFail s p l, State.lanes_trainFail s p l,
    State.step_trainFail s p l, hevq, hcode, hdetail, State.sameMem_trainFail s p l, State.sameRegsBut_trainFail s p l⟩

end Sys2Proof.Machine
end

section
/-! PROOF. The phases of a start (R6, R574–R580). -/
namespace Sys2Proof.Machine

/-- What one element of a list does to an observation, each element once and no other touching it, the fold over the list does. -/
theorem foldl_once {σ α β : Type} {f : σ → α → σ} {a : α} (g : σ → β) (h : β → β) (R : σ → Prop) (hset : ∀ t, R t → g (f t a) = h (g t))
    (hkeep : ∀ t b, b ≠ a → g (f t b) = g t) (hR : ∀ t b, R t → R (f t b)) {l : List α} (hl : l.Nodup) (ha : a ∈ l) :
    ∀ {s}, R s → g (l.foldl f s) = h (g s) := by
  have hrest : ∀ (m : List α) (t : σ), a ∉ m → g (m.foldl f t) = g t := by
    intro m
    induction m with
    | nil => exact fun _ _ => rfl
    | cons b m ih =>
      intro t hm
      obtain ⟨hb, hm⟩ := not_or.mp (mt List.mem_cons.mpr hm)
      exact (ih _ hm).trans (hkeep t b (Ne.symm hb))
  induction l with
  | nil => cases ha
  | cons b l ih =>
    obtain ⟨hb, hl⟩ := List.nodup_cons.mp hl
    intro s hs
    rw [List.foldl_cons]
    by_cases hab : a = b
    · subst hab
      rw [hrest l _ hb, hset s hs]
    · rw [ih hl ((List.mem_cons.mp ha).resolve_left hab) (hR s b hs), hkeep s b (Ne.symm hab)]

theorem rLnkStatus_ne {p q : Nat} (h : p ≠ q) : rLnkStatus p ≠ rLnkStatus q := by
  simp only [rLnkStatus]
  omega

theorem rLnkCtrl_notMem_rLnkStatus (p : Nat) : rLnkCtrl p ∉ (List.range 6).map rLnkStatus := by
  intro h
  obtain ⟨q, -, hq⟩ := List.mem_map.mp h
  simp only [rLnkCtrl, rLnkStatus] at hq
  omega

theorem rLnkStatus_ne_rPwrStatus {p : Nat} (hp : p < 6) : rLnkStatus p ≠ rPwrStatus := by
  simp only [rLnkStatus, rPwrStatus]
  omega

/-- An event of the die sent: the queue's newest entry, of that code. -/
theorem State.exists_evq_eventDie {s : State} (src code detail ext : Nat) (h : s.evq.length < 1024) :
    ∃ e : EventRec, (s.eventDie src code detail ext).evq = s.evq ++ [e] ∧ e.code = code ∧ e.detail = detail ∧ e.ext = ext :=
  ⟨_, State.evq_raise _ h, rfl, rfl, rfl⟩

/-! Identities. -/

theorem startAdvances_ident (s : State) (p : Nat) (r : IdentRec) (hph : s.startPh = 3) :
    ∃ t : State, exec (.ident p r) s = .next t ∧ (t.port p).identSeen = some r ∧
      t.agenda = s.agenda ++ [({ dom := none, at_ := s.clk.wall, act := .cmd .startPhase } : Due)] ∧ SameMem s t ∧ SameRegsBut [] s t := by
  have hexec : exec (.ident p r) s = .next ((s.modPort p fun q => { q with identSeen := some r }).laterW 0 .startPhase) := by
    have hlate : ¬(5 ≤ s.startPh ∧ s.linkState p = 2) := by omega
    exact congrArg Host.Outcome.next ((if_neg hlate).trans (if_pos hph))
  have hleaves : Leaves (· ∈ []) s ((s.modPort p fun q => { q with identSeen := some r }).laterW 0 .startPhase) := .laterW (.modPort .refl)
  exact ⟨_, hexec, by rw [State.port_laterW, State.port_modPort_same], rfl, hleaves.sameMem, hleaves.sameRegsBut⟩

theorem startAdvances_noIdent (s : State) (p : Nat) (hph : s.startPh = 3) (hseen : (s.port p).identSeen = none) (hroom : s.evq.length < 1024) :
    ∃ (t : State) (e : EventRec), exec (.startIdentFail p) s = .next t ∧ t.linkState p = 0 ∧ t.evq = s.evq ++ [e] ∧ e.code = 0x0308 ∧ SameMem s t ∧
      SameRegsBut (rLnkStatus p :: (maintRegs ++ eventRegs)) s t := by
  have hexec : exec (.startIdentFail p) s = .next (((s.goDark p).eventPort p 0x0308 0 p).laterW 0 .startPhase) := if_neg (by simp [hseen, hph])
  obtain ⟨e, hevq, hcode, -, -⟩ := State.exists_evq_eventPort (s := s.goDark p) p 0x0308 0 p (by rwa [State.evq_goDark])
  rw [State.evq_goDark] at hevq
  have hdark : ((s.goDark p).eventPort p 0x0308 0 p).linkState p = 0 :=
    ((Reports.eventPort _ p _ _ _).fld (rLnkStatus_notMem_eventRegs p) 63 61).trans (State.linkState_goDark s p)
  have hleaves : Leaves (· ∈ rLnkStatus p :: (maintRegs ++ eventRegs)) s ((s.goDark p).eventPort p 0x0308 0 p) := by
    refine .raise (Leaves.refl.next (.goDark s p) fun x hx => ?_) fun x hx => List.mem_cons_of_mem _ (List.mem_append_right _ hx)
    exact (List.mem_cons.mp hx).elim (fun h => List.mem_cons.mpr (.inl h)) fun h => List.mem_cons_of_mem _ (List.mem_append_left _ h)
  exact ⟨_, e, hexec, hdark, hevq, hcode, hleaves.laterW.sameMem, hleaves.laterW.sameRegsBut⟩

/-! READY. -/

theorem State.tryReady_of_not {s : State} (h : s.fld rPwrStatus 56 56 = 1 ∨ s.pwr.phase5 = false) : s.tryReady = s := by
  refine if_pos (h.imp_right fun h5 => .inl ?_)
  simp only [State.readyUp, h5, Bool.false_and, Bool.not_false]

theorem startAdvances_readyKept (s : State) (p : Nat) (hnot : s.fld rPwrStatus 56 56 = 1 ∨ s.pwr.phase5 = false) :
    ∃ t : State, exec (.ready p false) s = .next t ∧ (t.port p).readyFrom = true ∧ t.agenda = s.agenda ∧ SameMem s t ∧ SameRegsBut [] s t := by
  have hexec : exec (.ready p false) s = .next (s.modPort p fun x => { x with readyFrom := true }) :=
    congrArg Host.Outcome.next (State.tryReady_of_not (s := s.modPort p fun x => { x with readyFrom := true }) hnot)
  have hleaves : Leaves (· ∈ []) s (s.modPort p fun x => { x with readyFrom := true }) := .modPort .refl
  exact ⟨_, hexec, by rw [State.port_modPort_same], rfl, hleaves.sameMem, hleaves.sameRegsBut⟩

theorem startAdvances_readyUp (s : State) (p q : Nat) (hready : s.fld rPwrStatus 56 56 = 0) (haligned : s.fld rClkPhase 63 63 = 1)
    (horigin : s.isOrigin = false) (hparent : s.treeParent = some q) (hup : s.linkState q = 4)
    (hall : (s.modPort p fun x => { x with readyFrom := true }).readyUp = true) :
    ∃ t : State, exec (.ready p false) s = .next t ∧ (t.port p).readyFrom = true ∧ (t.port q).ctl = (s.port q).ctl ++ [CtlRec.ready false] ∧
      t.agenda = s.agenda ∧ SameMem s t ∧ SameRegsBut [] s t := by
  have hexec : exec (.ready p false) s = .next ((s.modPort p fun x => { x with readyFrom := true }).tryReady) := rfl
  have hfrom : (((s.modPort p fun x => { x with readyFrom := true }).port p).readyFrom) = true := by rw [State.port_modPort_same]
  have hctl : ((s.modPort p fun x => { x with readyFrom := true }).port q).ctl = (s.port q).ctl := by
    by_cases hqp : q = p
    · rw [hqp, State.port_modPort_same]
    · rw [State.port_modPort_ne _ _ hqp]
  have hready' : (s.modPort p fun x => { x with readyFrom := true }).fld rPwrStatus 56 56 = 0 := hready
  have haligned' : (s.modPort p fun x => { x with readyFrom := true }).fld rClkPhase 63 63 = 1 := haligned
  have horigin' : (s.modPort p fun x => { x with readyFrom := true }).isOrigin = false := horigin
  have hparent' : (s.modPort p fun x => { x with readyFrom := true }).treeParent = some q := hparent
  have hup' : (s.modPort p fun x => { x with readyFrom := true }).linkState q = 4 := hup
  have hagenda : (s.modPort p fun x => { x with readyFrom := true }).agenda = s.agenda := rfl
  have hleaves : Leaves (· ∈ []) s (s.modPort p fun x => { x with readyFrom := true }) := .modPort .refl
  generalize (s.modPort p fun x => { x with readyFrom := true }) = u at *
  have htry : u.tryReady = u.sendCtl q (.ready false) := by
    unfold State.tryReady
    rw [if_neg (by rw [hready', hall, haligned']; decide), if_neg (by rw [horigin']; decide), hparent']
  rw [htry] at hexec
  have hsend : (u.sendCtl q (.ready false)).port p = (if p = q then { u.port q with ctl := (u.port q).ctl ++ [.ready false] } else u.port p) := by
    split
    · next h =>
      rw [h]
      unfold State.sendCtl
      rw [if_pos (by simp [hup']), State.port_modPort_same]
    · next h => exact State.port_sendCtl_ne _ h
  refine ⟨_, hexec, ?_, ?_, (State.sendCtl_keeps State.agenda (fun _ _ _ => rfl) u q _).trans hagenda, hleaves.sendCtl.sameMem,
    hleaves.sendCtl.sameRegsBut⟩
  · rw [hsend]
    split
    · next h => rw [← h]; exact hfrom
    · exact hfrom
  · rw [State.ctl_sendCtl_up _ hup', hctl]

theorem State.nodup_treeChildren (s : State) : s.treeChildren.Nodup := List.nodup_range.filter _

theorem State.lt_of_mem_treeChildren {s : State} {q : Nat} (h : q ∈ s.treeChildren) : q < 6 := List.mem_range.mp (List.mem_of_mem_filter h)

/-- The end of a start shows READY, phase 7 and state 0 (R580). -/
theorem State.fabricReady_spec (s : State) : Leaves (· ∈ [rPwrStatus]) s s.fabricReady ∧ s.fabricReady.fld rPwrStatus 56 56 = 1 ∧
    s.fabricReady.fld rPwrStatus 63 61 = 0 ∧ s.fabricReady.fld rPwrStatus 60 57 = 7 := by
  refine ⟨.setFld (.setFld (.setFld .refl (by simp)) (by simp)) (by simp), ?_, ?_, ?_⟩
  · exact (State.fld_setFld_disjoint _ _ _ _ _ _ _ (by omega) (by omega) (by omega) (by omega)).trans
      (State.fld_setFld_same _ _ _ _ _ (by omega) (by omega))
  · exact State.fld_setFld_same _ _ _ _ _ (by omega) (by omega)
  · exact (State.fld_setFld_disjoint _ _ _ _ _ _ _ (by omega) (by omega) (by omega) (by omega)).trans
      ((State.fld_setFld_disjoint _ _ _ _ _ _ _ (by omega) (by omega) (by omega) (by omega)).trans
        (State.fld_setFld_same _ _ _ _ _ (by omega) (by omega)))

theorem startAdvances_broadcast (s : State) (p : Nat) (hparent : s.treeParent = some p) (hstate : s.fld rPwrStatus 63 61 = 6) :
    ∃ t : State, exec (.ready p true) s = .next t ∧ t.fld rPwrStatus 56 56 = 1 ∧ t.fld rPwrStatus 63 61 = 0 ∧ t.fld rPwrStatus 60 57 = 7 ∧
      (∀ q ∈ s.treeChildren, s.linkState q = 4 → (t.port q).ctl = (s.port q).ctl ++ [CtlRec.ready true]) ∧ SameMem s t ∧
      SameRegsBut [rPwrStatus] s t := by
  have hexec : exec (.ready p true) s = .next (s.treeChildren.foldl (fun s q => s.sendCtl q (.ready true)) s.fabricReady) := by
    show execReady p true s = _
    unfold execReady
    rw [if_pos rfl, if_neg (by simp [hparent]), if_pos hstate]
  obtain ⟨hleaves, hready, hpwr, hphase⟩ := s.fabricReady_spec
  have hkept : ∀ hi lo, (s.treeChildren.foldl (fun s q => s.sendCtl q (.ready true)) s.fabricReady).fld rPwrStatus hi lo =
      s.fabricReady.fld rPwrStatus hi lo :=
    fun hi lo => Leaves.fld (P := fun _ => False) (.foldl (fun _ _ _ h => .sendCtl h) .refl) id hi lo
  have hall : Leaves (· ∈ [rPwrStatus]) s (s.treeChildren.foldl (fun s q => s.sendCtl q (.ready true)) s.fabricReady) :=
    .foldl (fun _ _ _ h => .sendCtl h) hleaves
  refine ⟨_, hexec, (hkept 56 56).trans hready, (hkept 63 61).trans hpwr, (hkept 60 57).trans hphase, fun q hq hup => ?_, hall.sameMem, hall.sameRegsBut⟩
  have hup' : s.fabricReady.linkState q = 4 :=
    (hleaves.fld (by simpa using rLnkStatus_ne_rPwrStatus (State.lt_of_mem_treeChildren hq)) 63 61).trans hup
  exact State.ctl_foldl_sendCtl s.nodup_treeChildren (.ready true) hq hup'

theorem startAdvances_timeout (s : State) (hready : s.fld rPwrStatus 56 56 = 0) (hstate : s.fld rPwrStatus 63 61 = 6) (hroom : s.evq.length < 1024) :
    ∃ (t : State) (e : EventRec), exec .startTimeout s = .next t ∧ t.evq = s.evq ++ [e] ∧ e.code = 0x030B ∧ t.agenda = s.agenda ∧ SameMem s t ∧
      SameRegsBut eventRegs s t := by
  have hexec : exec .startTimeout s = .next (s.eventDie 20 0x030B 0 0) := congrArg Host.Outcome.next (if_neg (by simp [hready, hstate]))
  obtain ⟨e, hevq, hcode, -, -⟩ := State.exists_evq_eventDie 20 0x030B 0 0 hroom
  have hleaves : Leaves (· ∈ eventRegs) s (s.eventDie 20 0x030B 0 0) := .raise .refl fun _ h => h
  exact ⟨_, e, hexec, hevq, hcode, State.raise_keeps State.agenda (fun _ _ _ _ _ => rfl) s _, hleaves.sameMem, hleaves.sameRegsBut⟩

/-! The phases. -/

theorem Leaves.trainFrom {P : Nat → Prop} {s t : State} {p n : Nat} (h : Leaves P s t) (hp : P (rLnkStatus p)) : Leaves P s (t.trainFrom p n) :=
  .modPort (.setFld (.setFld (.modPort h) hp) hp)

theorem State.linkState_trainFrom (s : State) (p n : Nat) : (s.trainFrom p n).linkState p = 1 := by
  unfold State.trainFrom
  rw [State.linkState, State.fld_modPort, State.fld_setFld_disjoint _ _ _ _ _ _ _ (by omega) (by omega) (by omega) (by omega),
    State.fld_setFld_same _ _ _ _ _ (by omega) (by omega)]
  rfl

theorem State.trainStep_trainFrom (s : State) (p n : Nat) : ((s.trainFrom p n).port p).trainStep = n := by
  unfold State.trainFrom
  rw [State.port_modPort_same]

theorem State.linkState_trainFrom_ne (s : State) {p q : Nat} (n : Nat) (h : p ≠ q) : (s.trainFrom q n).linkState p = s.linkState p :=
  Leaves.fld (P := (· = rLnkStatus q)) (.trainFrom .refl rfl) (rLnkStatus_ne h) 63 61

theorem State.port_trainFrom_ne (s : State) {p q : Nat} (n : Nat) (h : p ≠ q) : (s.trainFrom q n).port p = s.port p := by
  unfold State.trainFrom
  rw [State.port_modPort_ne _ _ h, State.port_setFld, State.port_setFld, State.clearPort, State.port_modPort_ne _ _ h]

/-- The first phase 3 step: a connected port that may come up begins to train (R569, R576). -/
def State.trainPort (s : State) (p : Nat) : State :=
  if s.connected p ∧ s.fld (rLnkCtrl p) 0 0 = 1 then s.trainFrom p (if s.clk.counting then 2 else 1) else s

theorem State.trainPort_keeps {β : Type} (g : State → β) (hg : ∀ (s : State) r p, g { s with regs := r, ports := p } = g s) (s : State) (p : Nat) :
    g (s.trainPort p) = g s := by
  unfold State.trainPort
  split
  · exact hg s _ _
  · rfl

theorem Leaves.trainPort {P : Nat → Prop} {s t : State} {p : Nat} (h : Leaves P s t) (hp : P (rLnkStatus p)) : Leaves P s (t.trainPort p) :=
  .ite (h.trainFrom hp) h

theorem State.meetPorts_congr {s t : State} (h : ∀ p < 6, t.linkState p = s.linkState p) : t.meetPorts = s.meetPorts := by
  unfold State.meetPorts State.trainedPorts
  exact List.filter_congr fun p hp => by rw [h p (List.mem_range.mp hp)]

/-- A port's state and training step. -/
def State.training (s : State) (p : Nat) : Nat × Nat := (s.linkState p, (s.port p).trainStep)

theorem State.training_trainFrom (s : State) (p n : Nat) : (s.trainFrom p n).training p = (1, n) :=
  Prod.ext (s.linkState_trainFrom p n) (s.trainStep_trainFrom p n)

theorem State.training_trainPort_ne (s : State) {p q : Nat} (h : q ≠ p) : (s.trainPort q).training p = s.training p := by
  unfold State.trainPort
  split
  · exact Prod.ext (s.linkState_trainFrom_ne _ h.symm) (congrArg PortDyn.trainStep (s.port_trainFrom_ne _ h.symm))
  · rfl

theorem State.connected_congr {s t : State} (h : t.zen = s.zen) (p : Nat) : t.connected p = s.connected p := by
  unfold State.connected State.dims State.mapMask State.ownPlace State.mapSize
  rw [h]

/-- The first phase 3 step brings every connected port that may come up to its first training step (R569). -/
theorem State.training_foldl_trainPort {s : State} {p : Nat} (hp : p ∈ List.range 6) (hcon : s.connected p = true) (hen : s.fld (rLnkCtrl p) 0 0 = 1) :
    ((List.range 6).foldl State.trainPort s).training p = (1, if s.clk.counting then 2 else 1) := by
  have hctrl : ∀ q, rLnkCtrl p ≠ rLnkStatus q := fun q => by simp only [rLnkCtrl, rLnkStatus]; omega
  refine foldl_once (f := State.trainPort) (fun t => t.training p) (fun _ => (1, if s.clk.counting then 2 else 1))
    (fun t => (t.zen = s.zen ∧ t.clk = s.clk) ∧ t.fld (rLnkCtrl p) 0 0 = 1) (fun t ht => ?_) (fun t q hq => t.training_trainPort_ne hq)
    (fun t q ht => ?_) List.nodup_range hp ⟨⟨rfl, rfl⟩, hen⟩
  · obtain ⟨⟨hzen, hclk⟩, hset⟩ := ht
    unfold State.trainPort
    rw [if_pos ⟨(State.connected_congr hzen p).trans hcon, hset⟩, hclk]
    exact t.training_trainFrom p _
  · obtain ⟨⟨hzen, hclk⟩, hset⟩ := ht
    exact ⟨⟨(t.trainPort_keeps State.zen (fun _ _ _ => rfl) q).trans hzen, (t.trainPort_keeps State.clk (fun _ _ _ => rfl) q).trans hclk⟩,
      (Leaves.fld (P := (· = rLnkStatus q)) (.trainPort .refl rfl) (hctrl q) 0 0).trans hset⟩

/-- This module's own identity goes out on a port, and the port's time for one begins (R576). -/
def State.meetPort (s : State) (p : Nat) : State := (s.sendCtl p (.ident s.ownIdent)).laterW 7000000 (.startIdentFail p)

/-- The identities sent on every port that came up. -/
def State.metPorts (s : State) : State :=
  if (s.meetPorts.foldl State.meetPort s).allIdents then (s.meetPorts.foldl State.meetPort s).laterW 0 .startPhase else s.meetPorts.foldl State.meetPort s

theorem State.meetPort_keeps {β : Type} (g : State → β) (hg : ∀ (s : State) p a, g { s with ports := p, agenda := a } = g s) (s : State) (p : Nat) :
    g (s.meetPort p) = g s := (hg _ _ _).trans (State.sendCtl_keeps g (fun s _ _ => hg s _ s.agenda) s p _)

theorem State.ownIdent_congr {s t : State} (hzen : t.zen = s.zen) (hclock : t.fld rClkPhase 63 63 = s.fld rClkPhase 63 63) : t.ownIdent = s.ownIdent := by
  simp only [State.ownIdent, State.me, hzen, hclock]

theorem State.ctl_foldl_meetPort {s : State} {p : Nat} (hp : p ∈ s.meetPorts) :
    ((s.meetPorts.foldl State.meetPort s).port p).ctl = (s.port p).ctl ++ [CtlRec.ident s.ownIdent] := by
  have hnodup : s.meetPorts.Nodup := List.nodup_range.filter _
  have hup : 2 ≤ s.linkState p ∧ s.linkState p ≤ 4 := by simpa using (List.mem_filter.mp hp).2
  refine foldl_once (f := State.meetPort) (fun t => (t.port p).ctl) (· ++ [CtlRec.ident s.ownIdent])
    (fun t => Leaves (fun _ => False) s t ∧ t.zen = s.zen) (fun t ht => ?_) (fun t q hq => ?_) (fun t q ht => ?_) hnodup hp ⟨.refl, rfl⟩
  · obtain ⟨hleaves, hzen⟩ := ht
    have hstate : t.linkState p = s.linkState p := hleaves.fld id 63 61
    unfold State.meetPort
    rw [State.port_laterW, State.sendCtl, if_pos (by rw [hstate]; exact ⟨hup.1, hup.2, .inr (.inr rfl)⟩), State.port_modPort_same,
      State.ownIdent_congr hzen (hleaves.fld id 63 63)]
  · unfold State.meetPort
    rw [State.port_laterW, State.port_sendCtl_ne _ hq.symm]
  · obtain ⟨hleaves, hzen⟩ := ht
    exact ⟨hleaves.sendCtl.laterW, (t.meetPort_keeps State.zen (fun _ _ _ => rfl) q).trans hzen⟩

theorem State.due_foldl_meetPort {s : State} {p : Nat} (hp : p ∈ s.meetPorts) :
    ({ dom := none, at_ := s.clk.wall + 7000000, act := .cmd (.startIdentFail p) } : Due) ∈ (s.meetPorts.foldl State.meetPort s).agenda := by
  have hagenda : ∀ (t : State) q, (t.meetPort q).agenda =
      t.agenda ++ [({ dom := none, at_ := t.clk.wall + 7000000, act := .cmd (.startIdentFail q) } : Due)] := fun t q => by
    unfold State.meetPort State.laterW State.after
    dsimp only
    rw [State.sendCtl_keeps State.agenda fun _ _ _ => rfl, State.sendCtl_keeps State.clk fun _ _ _ => rfl]
  refine foldl_reaches (f := State.meetPort)
    (fun t => ({ dom := none, at_ := s.clk.wall + 7000000, act := .cmd (.startIdentFail p) } : Due) ∈ t.agenda) (fun t => t.clk = s.clk)
    (fun t ht => ?_) (fun t q h => ?_) (fun t q h => (t.meetPort_keeps State.clk (fun _ _ _ => rfl) q).trans h) hp rfl
  · rw [hagenda, ht]
    exact List.mem_append_right _ (List.mem_singleton_self _)
  · rw [hagenda]
    exact List.mem_append_left _ h

theorem State.metPorts_spec (s : State) : Leaves (fun _ => False) s s.metPorts ∧ s.metPorts.zen = s.zen ∧
    ∀ p ∈ s.meetPorts, (s.metPorts.port p).ctl = (s.port p).ctl ++ [CtlRec.ident s.ownIdent] ∧
      ({ dom := none, at_ := s.clk.wall + 7000000, act := .cmd (.startIdentFail p) } : Due) ∈ s.metPorts.agenda := by
  have hleaves : Leaves (fun _ => False) s (s.meetPorts.foldl State.meetPort s) := .foldl (fun _ _ _ h => h.sendCtl.laterW) .refl
  have hzen : (s.meetPorts.foldl State.meetPort s).zen = s.zen := foldl_keeps State.zen (State.meetPort_keeps State.zen fun _ _ _ => rfl) _ _
  have hctl := fun p (hp : p ∈ s.meetPorts) => State.ctl_foldl_meetPort hp
  have hdue := fun p (hp : p ∈ s.meetPorts) => State.due_foldl_meetPort hp
  unfold State.metPorts
  split
  · exact ⟨hleaves.laterW, hzen, fun p hp => ⟨by rw [State.port_laterW, hctl p hp], List.mem_append_left _ (hdue p hp)⟩⟩
  · exact ⟨hleaves, hzen, fun p hp => ⟨hctl p hp, hdue p hp⟩⟩

/-- A module that takes its place in the map (R575). -/
theorem State.takePlace_setPh {s : State} {i : Nat} (hplace : s.ownPlace = some i) : Leaves (· ∈ [rPwrStatus]) s (s.setPh 3).takePlace ∧
    (s.setPh 3).takePlace.zen.coord = some (s.placeCoord i) ∧ (s.setPh 3).takePlace.ports = s.ports ∧ (s.setPh 3).takePlace.clk = s.clk ∧
    (s.setPh 3).takePlace.startPh = 3 := by
  have htake : (s.setPh 3).takePlace = { s.setPh 3 with zen := { s.zen with coord := some (s.placeCoord i) } } := by
    have hplace' : (s.setPh 3).ownPlace = some i := hplace
    unfold State.takePlace
    rw [hplace']
    rfl
  rw [htake]
  exact ⟨.upd (.setFld .refl (by simp)), rfl, rfl, rfl,
    (State.fld_setFld_same s rPwrStatus 60 57 3 (by omega) (by omega)).trans (Nat.mod_eq_of_lt (by norm_num))⟩

theorem State.trainPorts_spec {s u : State} (hphase : u.pwr.phase3 = true) (hzen : u.zen = s.zen) (hclk : u.clk = s.clk) (hagenda : u.agenda = s.agenda)
    (hset : Leaves (· ∈ (List.range 6).map rLnkStatus) s u) : ((List.range 6).foldl State.trainPort u).pwr.phase3 = true ∧
      (∀ p ∈ List.range 6, s.connected p = true → s.fld (rLnkCtrl p) 0 0 = 1 →
        ((List.range 6).foldl State.trainPort u).linkState p = 1 ∧
        (((List.range 6).foldl State.trainPort u).port p).trainStep = (if s.clk.counting = true then 2 else 1)) ∧
      ((List.range 6).foldl State.trainPort u).agenda = s.agenda ∧ SameMem s ((List.range 6).foldl State.trainPort u) ∧
      SameRegsBut ((List.range 6).map rLnkStatus) s ((List.range 6).foldl State.trainPort u) := by
  have hleaves : Leaves (· ∈ (List.range 6).map rLnkStatus) s ((List.range 6).foldl State.trainPort u) :=
    .foldl (fun _ _ hp h => h.trainPort (List.mem_map_of_mem hp)) hset
  have hpwr : ∀ l : List Nat, (l.foldl State.trainPort u).pwr = u.pwr := fun l => foldl_keeps State.pwr (State.trainPort_keeps State.pwr fun _ _ _ => rfl) l u
  have hdue : ∀ l : List Nat, (l.foldl State.trainPort u).agenda = u.agenda :=
    fun l => foldl_keeps State.agenda (State.trainPort_keeps State.agenda fun _ _ _ => rfl) l u
  refine ⟨by rw [hpwr, hphase], fun p hp hcon hen => ?_, by rw [hdue, hagenda], hleaves.sameMem, hleaves.sameRegsBut⟩
  have hctrl : u.fld (rLnkCtrl p) 0 0 = 1 := (hset.fld (rLnkCtrl_notMem_rLnkStatus p) 0 0).trans hen
  have htrain := State.training_foldl_trainPort hp ((State.connected_congr hzen p).trans hcon) hctrl
  rw [hclk, State.training] at htrain
  exact Prod.mk.inj htrain

/-- A peer whose identity fits, in step, on a port of the same rack: the port is up (R576). -/
theorem State.checkPeer_of_fits {s : State} {p : Nat} {r : IdentRec} (hfits : s.identFits p r = true) (haligned : r.aligned = true)
    (hrack : s.crossRack p = false) :
    s.checkPeer p r = (s.modPort p fun q => { q with identOk := true, identOnly := false }).setFld (rLnkStatus p) 63 61 4 := by
  have hrack' : (s.modPort p fun q => { q with identOk := true, identOnly := false }).crossRack p = false := hrack
  unfold State.checkPeer
  rw [if_neg (by rw [hfits]; decide)]
  dsimp only
  rw [if_neg (c := (!r.aligned) = true ∧ _) (by rw [haligned]; simp), if_neg (by rw [hrack']; decide)]

/-- A port's peer checked, where its identity has come. -/
def State.checkSeen (s : State) (p : Nat) : State := match (s.port p).identSeen with
  | some r => s.checkPeer p r
  | none => s

/-- Once the counter is aligned, the messages held until phase 5 are only taken away (R578). -/
theorem State.takeHeldAlign_of_aligned {s : State} (h : s.fld rClkPhase 63 63 = 1) :
    s.takeHeldAlign = { s with ports := s.takeHeldAlign.ports } := by
  have hfold : ∀ (l : List Nat) (t : State), t.fld rClkPhase 63 63 = 1 →
      ∃ ps, l.foldl (fun s p => match (s.port p).heldAlign with
        | none => s
        | some (b, ph, h, w) =>
          let t := b * 700 + ph + (s.clk.wall - w)
          let s := s.modPort p fun q => { q with heldAlign := none }
          if s.fld rClkPhase 63 63 = 1 then s else s.acceptAlign p (t / 700) (t % 700) h) t = { t with ports := ps } := by
    intro l
    induction l with
    | nil => exact fun t _ => ⟨t.ports, rfl⟩
    | cons p l ih =>
      intro t ht
      rw [List.foldl_cons]
      cases (t.port p).heldAlign with
      | none => exact ih t ht
      | some x =>
        have hset : (t.modPort p fun q => { q with heldAlign := none }).fld rClkPhase 63 63 = 1 := ht
        obtain ⟨ps, hps⟩ := ih (t.modPort p fun q => { q with heldAlign := none }) ht
        dsimp only
        rw [if_pos hset]
        exact ⟨ps, hps.trans rfl⟩
  obtain ⟨ps, hps⟩ := hfold (List.range 6) s h
  have heq : s.takeHeldAlign = { s with ports := ps } := hps
  rw [heq]

section
variable {s : State} (hstate : s.fld rPwrStatus 63 61 = 6) (hcold : ¬(s.pwr.cold = true ∧ s.startPh < 2))
include hstate hcold

/-- A start that is under way in the bench shape is over at once. -/
theorem execStartPhase_of_bench (hbench : s.inBench = true) :
    exec .startPhase s = .next (if s.clk.counting then s else s.loadBeat 0 0).fabricReady := by
  show execStartPhase s = _
  unfold execStartPhase
  dsimp only
  rw [if_neg (not_or.mpr ⟨not_not_intro hstate, hcold⟩), if_pos hbench]

theorem execStartPhase_of_training (hbench : s.inBench = false) (hph : s.startPh < 3) (hphase3 : s.pwr.phase3 = true) :
    exec .startPhase s = (if !s.trainingOver then .next s
      else if s.ownPlace.isNone then .next ((s.setPh 3).eventDie 20 0x030A 0 0)
      else
        let s := (s.setPh 3).takePlace
        let s := s.meetPorts.foldl (fun s p => (s.sendCtl p (.ident s.ownIdent)).laterW 7000000 (.startIdentFail p)) s
        .next (if s.allIdents then s.laterW 0 .startPhase else s)) := by
  show execStartPhase s = _
  unfold execStartPhase
  dsimp only
  rw [if_neg (not_or.mpr ⟨not_not_intro hstate, hcold⟩), if_neg (by rw [hbench]; decide), if_pos hph, if_pos hphase3]

theorem startAdvances_bench (hbench : s.inBench = true) :
    ∃ t : State, exec .startPhase s = .next t ∧ t.fld rPwrStatus 56 56 = 1 ∧ t.fld rPwrStatus 63 61 = 0 ∧ t.fld rPwrStatus 60 57 = 7 ∧
      t.clk.counting = true ∧ SameMem s t ∧ SameRegsBut [rPwrStatus, rClkBeat, rClkPhase] s t := by
  have hexec := execStartPhase_of_bench hstate hcold hbench
  have hloaded : Leaves (· ∈ [rPwrStatus, rClkBeat, rClkPhase]) s (if s.clk.counting then s else s.loadBeat 0 0) :=
    .ite .refl (.setFld (.setFld (.setReg (.upd .refl) (by simp)) (by simp)) (by simp))
  have hcounts : (if s.clk.counting then s else s.loadBeat 0 0).clk.counting = true := by
    split
    · next h => exact h
    · rfl
  generalize (if s.clk.counting then s else s.loadBeat 0 0) = u at *
  obtain ⟨hleaves, hready, hpwr, hphase⟩ := u.fabricReady_spec
  have hall := hloaded.trans (hleaves.mono (Q := (· ∈ [rPwrStatus, rClkBeat, rClkPhase])) fun x hx => by
    rw [List.mem_singleton.mp hx]
    exact List.mem_cons_self ..)
  exact ⟨_, hexec, hready, hpwr, hphase, hcounts, hall.sameMem, hall.sameRegsBut⟩

theorem startAdvances_unnamed (hbench : s.inBench = false) (hph : s.startPh < 3) (hphase3 : s.pwr.phase3 = true) (hover : s.trainingOver = true)
    (hplace : s.ownPlace = none) (hroom : s.evq.length < 1024) :
    ∃ (t : State) (e : EventRec), exec .startPhase s = .next t ∧ t.startPh = 3 ∧ t.evq = s.evq ++ [e] ∧ e.code = 0x030A ∧ t.agenda = s.agenda ∧
      SameMem s t ∧ SameRegsBut (rPwrStatus :: eventRegs) s t := by
  have hexec := execStartPhase_of_training hstate hcold hbench hph hphase3
  rw [if_neg (by rw [hover]; decide), if_pos (by rw [hplace]; rfl)] at hexec
  obtain ⟨e, hevq, hcode, -, -⟩ := State.exists_evq_eventDie (s := s.setPh 3) 20 0x030A 0 0 hroom
  have hleaves : Leaves (· ∈ rPwrStatus :: eventRegs) s ((s.setPh 3).eventDie 20 0x030A 0 0) :=
    .raise (.setFld .refl (by simp)) fun x hx => List.mem_cons_of_mem _ hx
  have hph3 : ((s.setPh 3).eventDie 20 0x030A 0 0).startPh = 3 := by
    refine ((Reports.eventDie _ 20 _ _ _).fld (by decide) 60 57).trans ?_
    exact (State.fld_setFld_same s rPwrStatus 60 57 3 (by omega) (by omega)).trans (Nat.mod_eq_of_lt (by norm_num))
  exact ⟨_, e, hexec, hph3, hevq, hcode, State.raise_keeps State.agenda (fun _ _ _ _ _ => rfl) _ _, hleaves.sameMem, hleaves.sameRegsBut⟩

theorem execStartPhase_of_untrained (hbench : s.inBench = false) (hph : s.startPh < 3) (hphase3 : s.pwr.phase3 = false) :
    exec .startPhase s = .next ((List.range 6).foldl State.trainPort { s with pwr := { s.pwr with phase3 := true } }) := by
  show execStartPhase s = _
  unfold execStartPhase
  dsimp only
  rw [if_neg (not_or.mpr ⟨not_not_intro hstate, hcold⟩), if_neg (by rw [hbench]; decide), if_pos hph, if_neg (by rw [hphase3]; decide)]
  rfl

theorem startAdvances_trains (hbench : s.inBench = false) (hph : s.startPh < 3) (hphase3 : s.pwr.phase3 = false) :
    ∃ t : State, exec .startPhase s = .next t ∧ t.pwr.phase3 = true ∧
      (∀ p ∈ List.range 6, s.connected p = true → s.fld (rLnkCtrl p) 0 0 = 1 →
        t.linkState p = 1 ∧ (t.port p).trainStep = (if s.clk.counting = true then 2 else 1)) ∧ t.agenda = s.agenda ∧ SameMem s t ∧
      SameRegsBut ((List.range 6).map rLnkStatus) s t :=
  ⟨_, execStartPhase_of_untrained hstate hcold hbench hph hphase3, State.trainPorts_spec (s := s) rfl rfl rfl rfl (.upd .refl)⟩

theorem startAdvances_meets (i : Nat) (hbench : s.inBench = false) (hph : s.startPh < 3) (hphase3 : s.pwr.phase3 = true)
    (hover : s.trainingOver = true) (hplace : s.ownPlace = some i) :
    ∃ t : State, exec .startPhase s = .next t ∧ t.startPh = 3 ∧ t.zen.coord = some (s.placeCoord i) ∧
      (∀ p ∈ s.meetPorts, (t.port p).ctl = (s.port p).ctl ++ [CtlRec.ident t.ownIdent] ∧
        ({ dom := none, at_ := s.clk.wall + 7000000, act := .cmd (.startIdentFail p) } : Due) ∈ t.agenda) ∧ SameMem s t ∧
      SameRegsBut [rPwrStatus] s t := by
  have hexec : exec .startPhase s = .next ((s.setPh 3).takePlace.metPorts) := by
    refine (execStartPhase_of_training hstate hcold hbench hph hphase3).trans ?_
    rw [if_neg (by rw [hover]; decide), if_neg (by rw [hplace]; simp)]
    rfl
  obtain ⟨hleaves, hcoord, hports, hclk, hph3⟩ := State.takePlace_setPh hplace
  generalize (s.setPh 3).takePlace = u at *
  have hlinks : ∀ p < 6, u.linkState p = s.linkState p := fun p hp => hleaves.fld (by simpa using rLnkStatus_ne_rPwrStatus hp) 63 61
  obtain ⟨hmet, hzen, hall⟩ := u.metPorts_spec
  have hwhole := hleaves.trans (hmet.mono (Q := (· ∈ [rPwrStatus])) fun _ h => h.elim)
  refine ⟨_, hexec, (hmet.fld id 60 57).trans hph3, ?_, fun p hp => ?_, hwhole.sameMem, hwhole.sameRegsBut⟩
  · rw [hzen, hcoord]
  · have hu : u.port p = s.port p := by
      unfold State.port
      rw [hports]
    obtain ⟨hctl, hdue⟩ := hall p (by rwa [State.meetPorts_congr hlinks])
    exact ⟨by rw [hctl, hu, State.ownIdent_congr hzen (hmet.fld id 63 63)], by rw [← hclk]; exact hdue⟩

theorem execStartPhase_of_identified (hbench : s.inBench = false) (hph : s.startPh = 3) (hcoord : s.zen.coord ≠ none) (hall : s.allIdents = true) :
    exec .startPhase s = .next (((s.setPh 4).showMapHash.meetPorts.foldl State.checkSeen (s.setPh 4).showMapHash).laterW 0 .startPhase) := by
  show execStartPhase s = _
  unfold execStartPhase
  dsimp only
  rw [if_neg (not_or.mpr ⟨not_not_intro hstate, hcold⟩), if_neg (by rw [hbench]; decide), if_neg (by omega), if_pos hph,
    if_neg (by simp [hall, hcoord])]
  rfl

theorem startAdvances_checks (p : Nat) (r : IdentRec) (hbench : s.inBench = false) (hph : s.startPh = 3) (hcoord : s.zen.coord ≠ none)
    (hports : s.meetPorts = [p]) (hseen : (s.port p).identSeen = some r) (hfits : s.identFits p r = true) (haligned : r.aligned = true)
    (hrack : s.crossRack p = false) :
    ∃ t : State, exec .startPhase s = .next t ∧ t.startPh = 4 ∧ (t.port p).identOk = true ∧ t.linkState p = 4 ∧
      t.agenda = s.agenda ++ [({ dom := none, at_ := s.clk.wall, act := .cmd .startPhase } : Due)] ∧ SameMem s t ∧
      SameRegsBut (rPwrStatus :: rLnkStatus p :: (List.range 8).map rPwrMapHash) s t := by
  have hall : s.allIdents = true := by
    unfold State.allIdents
    rw [hports, List.all_cons, hseen]
    rfl
  have hp6 : p < 6 := List.mem_range.mp (List.mem_of_mem_filter (by rw [← State.trainedPorts, ← State.meetPorts, hports]; exact List.mem_singleton_self p))
  have hexec := execStartPhase_of_identified hstate hcold hbench hph hcoord hall
  have hshown : Leaves (· ∈ rPwrStatus :: (List.range 8).map rPwrMapHash) s (s.setPh 4).showMapHash :=
    .foldl (fun _ i hi h => .setReg h (List.mem_cons_of_mem _ (List.mem_map_of_mem hi))) (.setFld .refl (by simp))
  have hhashes : Leaves (· ∈ (List.range 8).map rPwrMapHash) (s.setPh 4) (s.setPh 4).showMapHash :=
    .foldl (fun _ i hi h => .setReg h (List.mem_map_of_mem hi)) .refl
  have hkept : ∀ {β : Type} (g : State → β), (∀ (s : State) r, g { s with regs := r } = g s) → g (s.setPh 4).showMapHash = g s :=
    fun g hg => (foldl_keeps g (fun _ _ => hg _ _) _ _).trans (hg s _)
  have hport := hkept (fun v => v.port p) fun _ _ => rfl
  have hzen := hkept State.zen fun _ _ => rfl
  have hagenda := hkept State.agenda fun _ _ => rfl
  have hclk := hkept State.clk fun _ _ => rfl
  have hph4 : (s.setPh 4).showMapHash.startPh = 4 :=
    (hhashes.fld (by decide) 60 57).trans ((State.fld_setFld_same s rPwrStatus 60 57 4 (by omega) (by omega)).trans (Nat.mod_eq_of_lt (by norm_num)))
  generalize (s.setPh 4).showMapHash = u at *
  have hlnk : ∀ q < 6, rLnkStatus q ∉ rPwrStatus :: (List.range 8).map rPwrMapHash := by decide
  have hmeet : u.meetPorts = [p] := by
    rw [← hports]
    exact State.meetPorts_congr fun q hq => State.linkState_congr (hshown.reg _ (hlnk q hq))
  have hfits' : u.identFits p r = true := by
    rw [← hfits]
    simp only [State.identFits, State.peerOf, State.neighbour, State.me, State.dims, State.mapHashOf, State.mapEntry, hzen]
  have hrack' : u.crossRack p = false := by
    rw [← hrack]
    unfold State.crossRack
    rw [hshown.fld (hlnk p hp6)]
  have hchecked : u.meetPorts.foldl State.checkSeen u =
      (u.modPort p fun q => { q with identOk := true, identOnly := false }).setFld (rLnkStatus p) 63 61 4 := by
    rw [hmeet, List.foldl_cons, List.foldl_nil, State.checkSeen, hport, hseen]
    exact State.checkPeer_of_fits hfits' haligned hrack'
  rw [hchecked] at hexec
  have hleaves : Leaves (· ∈ rPwrStatus :: rLnkStatus p :: (List.range 8).map rPwrMapHash) s
      ((u.modPort p fun q => { q with identOk := true, identOnly := false }).setFld (rLnkStatus p) 63 61 4) := by
    refine .setFld (.modPort (hshown.mono fun x hx => ?_)) (by simp)
    exact (List.mem_cons.mp hx).elim (fun h => List.mem_cons.mpr (.inl h)) fun h => List.mem_cons_of_mem _ (List.mem_cons_of_mem _ h)
  refine ⟨_, hexec, ?_, ?_, ?_, ?_, hleaves.laterW.sameMem, hleaves.laterW.sameRegsBut⟩
  · rw [State.startPh, State.fld_laterW, State.fld_setFld_ne _ _ _ _ _ _ (rLnkStatus_ne_rPwrStatus hp6).symm]
    exact hph4
  · rw [State.port_laterW, State.port_setFld, State.port_modPort_same]
  · rw [State.linkState, State.fld_laterW, State.fld_setFld_same _ _ _ _ _ (by omega) (by omega)]
    rfl
  · simp [State.laterW, State.after, hagenda, hclk]

theorem execStartPhase_of_checked (hbench : s.inBench = false) (hph : s.startPh = 4) (hall : s.allChecked = true) :
    exec .startPhase s = .next
      (let t := ({ s.setPh 5 with pwr := { s.pwr with phase5 := true } } : State).takeHeldAlign
      (if t.isOrigin && t.clk.epochHigh && t.fld rClkPhase 63 63 == 0 then t.laterW 0 .epoch else t).laterW 0 .startPhase) := by
  show execStartPhase s = _
  unfold execStartPhase
  dsimp only
  rw [if_neg (not_or.mpr ⟨not_not_intro hstate, hcold⟩), if_neg (by rw [hbench]; decide), if_neg (by omega), if_neg (by omega), if_pos hph,
    if_neg (by rw [hall]; decide)]

theorem startAdvances_checked (hbench : s.inBench = false) (hph : s.startPh = 4) (hall : s.allChecked = true) (haligned : s.fld rClkPhase 63 63 = 1) :
    ∃ t : State, exec .startPhase s = .next t ∧ t.startPh = 5 ∧ t.pwr.phase5 = true ∧
      t.agenda = s.agenda ++ [({ dom := none, at_ := s.clk.wall, act := .cmd .startPhase } : Due)] ∧ SameMem s t ∧
      SameRegsBut [rPwrStatus] s t := by
  have hexec := execStartPhase_of_checked hstate hcold hbench hph hall
  have hleaves : Leaves (· ∈ [rPwrStatus]) s { s.setPh 5 with pwr := { s.pwr with phase5 := true } } := .upd (.setFld .refl (by simp))
  have hph5 : ({ s.setPh 5 with pwr := { s.pwr with phase5 := true } } : State).startPh = 5 :=
    (State.fld_setFld_same s rPwrStatus 60 57 5 (by omega) (by omega)).trans (Nat.mod_eq_of_lt (by norm_num))
  have hphase5 : ({ s.setPh 5 with pwr := { s.pwr with phase5 := true } } : State).pwr.phase5 = true := rfl
  have hagenda : ({ s.setPh 5 with pwr := { s.pwr with phase5 := true } } : State).agenda = s.agenda := rfl
  have hclk : ({ s.setPh 5 with pwr := { s.pwr with phase5 := true } } : State).clk = s.clk := rfl
  have hclock : ({ s.setPh 5 with pwr := { s.pwr with phase5 := true } } : State).fld rClkPhase 63 63 = 1 :=
    (hleaves.fld (by decide) 63 63).trans haligned
  generalize ({ s.setPh 5 with pwr := { s.pwr with phase5 := true } } : State) = u at *
  have hheld : u.takeHeldAlign = { u with ports := u.takeHeldAlign.ports } := State.takeHeldAlign_of_aligned hclock
  rw [hheld] at hexec
  dsimp only at hexec
  have hnot : ¬((({ u with ports := u.takeHeldAlign.ports } : State).isOrigin && u.clk.epochHigh &&
      ({ u with ports := u.takeHeldAlign.ports } : State).fld rClkPhase 63 63 == 0) = true) := by
    have h1 : ({ u with ports := u.takeHeldAlign.ports } : State).fld rClkPhase 63 63 = 1 := hclock
    rw [h1]
    simp
  rw [if_neg hnot] at hexec
  have hall : Leaves (· ∈ [rPwrStatus]) s (({ u with ports := u.takeHeldAlign.ports } : State).laterW 0 .startPhase) := .laterW (.upd hleaves)
  exact ⟨_, hexec, hph5, hphase5, by simp [State.laterW, State.after, hagenda, hclk], hall.sameMem, hall.sameRegsBut⟩

theorem startAdvances_aligned (hbench : s.inBench = false) (hph : s.startPh = 5) (haligned : s.fld rClkPhase 63 63 = 1) :
    exec .startPhase s = .next (s.setPh 6).tryReady := by
  show execStartPhase s = _
  unfold execStartPhase
  dsimp only
  rw [if_neg (not_or.mpr ⟨not_not_intro hstate, hcold⟩), if_neg (by rw [hbench]; decide), if_neg (by omega), if_neg (by omega), if_neg (by omega),
    if_pos hph, if_neg (by omega)]

end

/-- Settles O29, phase by phase. -/
theorem startAdvances : Obligations.StartAdvances := by
  refine ⟨startAdvances_ident, fun s p r hph hup => congrArg Host.Outcome.next (if_pos ⟨hph, hup⟩), fun s p _ => startAdvances_noIdent s p,
    fun s p hnot => if_pos (hnot.symm.imp_left Option.isSome_iff_ne_none.mpr), startAdvances_readyKept, startAdvances_readyUp, startAdvances_broadcast, fun s p hne => if_pos hne, startAdvances_timeout,
    fun s h => congrArg Host.Outcome.next (if_pos h), fun s hstate hcold => ⟨startAdvances_bench hstate hcold, startAdvances_trains hstate hcold,
      fun hbench hph hphase3 hover => ?_, startAdvances_unnamed hstate hcold, startAdvances_meets hstate hcold, startAdvances_checks hstate hcold,
      startAdvances_checked hstate hcold, startAdvances_aligned hstate hcold⟩, fun s h => if_pos (.inl h)⟩
  rw [execStartPhase_of_training hstate hcold hbench hph hphase3, if_pos (by rw [hover]; rfl)]

end Sys2Proof.Machine
end

section
/-! PROOF. Cross-rack ports agree keys (R464, R539–R541). -/
namespace Sys2Proof.Machine

theorem rLnkStatus_ne_rLnkKeyset (p q : Nat) : rLnkStatus p ≠ rLnkKeyset q := by
  simp only [rLnkStatus, rLnkKeyset]
  omega

/-- A record of a port that trains its keys goes out where the flit layer is up (R465). -/
theorem State.port_sendCtl_early {s : State} {p : Nat} {r : CtlRec} (hearly : earlyRec r = true) (hlo : 2 ≤ s.linkState p) (hhi : s.linkState p ≤ 4) :
    (s.sendCtl p r).port p = { s.port p with ctl := (s.port p).ctl ++ [r] } := by
  unfold State.sendCtl
  rw [if_pos ⟨hlo, hhi, .inr (.inr hearly)⟩, State.port_modPort_same]

/-- What a record sent leaves of a port: all but what it sends. -/
theorem State.port_sendCtl_keeps' {β : Type} (g : PortDyn → β) (hg : ∀ q l, g { q with ctl := l } = g q) (s : State) (p : Nat) (r : CtlRec) :
    g ((s.sendCtl p r).port p) = g (s.port p) := by
  unfold State.sendCtl
  split
  · rw [State.port_modPort_same, hg]
  · rfl

/-- A port's keys as a set is installed for receiving (R464). -/
def PortDyn.received (q : PortDyn) (n secret : Nat) : PortDyn :=
  { q with rxOld := q.rxKey, rxKey := some secret, keyxSecret := some secret, setNo := n }

/-- A set installed for receiving, before it is told to the peer. -/
def State.received (s : State) (p n secret : Nat) : State := (s.modPort p fun q => q.received n secret).setFld (rLnkKeyset p) 15 0 n

theorem State.installRx_eq (s : State) (p n secret : Nat) : s.installRx p n secret = (s.received p n secret).sendCtl p (.keyxDone n) := rfl

/-- A set installed for receiving: the older one is kept, the set shown, and the peer told (R464, R539). -/
theorem State.installRx_spec (s : State) (p n secret : Nat) : Leaves (· ∈ [rLnkKeyset p]) s (s.installRx p n secret) ∧
    ((s.installRx p n secret).port p).rxKey = some secret ∧ ((s.installRx p n secret).port p).rxOld = (s.port p).rxKey ∧
    ((s.installRx p n secret).port p).setNo = n ∧ (s.installRx p n secret).fld (rLnkKeyset p) 15 0 = n % 65536 ∧
    (s.installRx p n secret).agenda = s.agenda ∧ (s.installRx p n secret).zen = s.zen ∧
    (2 ≤ s.linkState p → s.linkState p ≤ 4 → ((s.installRx p n secret).port p).ctl = (s.port p).ctl ++ [CtlRec.keyxDone n]) := by
  have hport : (s.received p n secret).port p = (s.port p).received n secret :=
    State.port_modPort_same s p fun q => q.received n secret
  have hset : (s.received p n secret).fld (rLnkKeyset p) 15 0 = n % 65536 := State.fld_setFld_same _ _ 15 0 n (by omega) (by omega)
  have hleaves : Leaves (· ∈ [rLnkKeyset p]) s (s.received p n secret) := .setFld (.modPort .refl) (by simp)
  have hstate : (s.received p n secret).linkState p = s.linkState p := hleaves.fld (by simpa using rLnkStatus_ne_rLnkKeyset p p) 63 61
  have hagenda : (s.received p n secret).agenda = s.agenda := rfl
  have hzen : (s.received p n secret).zen = s.zen := rfl
  rw [State.installRx_eq]
  generalize s.received p n secret = u at *
  have hkept : ∀ {β : Type} (g : PortDyn → β), (∀ q l, g { q with ctl := l } = g q) →
      g ((u.sendCtl p (.keyxDone n)).port p) = g ((s.port p).received n secret) :=
    fun g hg => (State.port_sendCtl_keeps' g hg u p _).trans (congrArg g hport)
  have hsent : Leaves (fun _ => False) u (u.sendCtl p (.keyxDone n)) := .sendCtl .refl
  refine ⟨hleaves.sendCtl, hkept PortDyn.rxKey fun _ _ => rfl, hkept PortDyn.rxOld fun _ _ => rfl, hkept PortDyn.setNo fun _ _ => rfl,
    (hsent.fld id 15 0).trans hset, (State.sendCtl_keeps State.agenda (fun _ _ _ => rfl) u p _).trans hagenda,
    (State.sendCtl_keeps State.zen (fun _ _ _ => rfl) u p _).trans hzen, fun hlo hhi => ?_⟩
  rw [State.port_sendCtl_early rfl (by rwa [hstate]) (by rwa [hstate]), hport]
  rfl

theorem keysAgreed_init (s : State) (p : Nat) (r : KeyxRec) (hodd : p % 2 = 1) (hfits : s.keyxFits p r = true) :
    ∃ t : State, exec (.keyxInit p r) s = .next t ∧ (t.port p).rxKey = some s.zen.drbg ∧ (t.port p).rxOld = (s.port p).rxKey ∧
      (t.port p).setNo = r.n ∧ t.zen.drbg = s.zen.drbg + 1 ∧ t.fld (rLnkKeyset p) 15 0 = r.n % 65536 ∧
      (2 ≤ s.linkState p → s.linkState p ≤ 4 → ((t.port p).ctl.drop (s.port p).ctl.length).length = 2 ∧
        (t.port p).ctl.getLast? = some (.keyxDone r.n)) ∧ t.agenda = s.agenda ∧ SameMem s t ∧ SameRegsBut [rLnkKeyset p] s t := by
  obtain ⟨c, hc⟩ : ∃ c, exec (.keyxInit p r) s = .next ((s.drawKey.2.sendCtl p (.keyxResp c)).installRx p r.n s.zen.drbg) :=
    ⟨_, (if_neg (by omega)).trans (if_neg (by rw [hfits]; decide))⟩
  have hdrawn : Leaves (· ∈ [rLnkKeyset p]) s (s.drawKey.2.sendCtl p (.keyxResp c)) := .sendCtl (.upd .refl)
  have hagenda : (s.drawKey.2.sendCtl p (.keyxResp c)).agenda = s.agenda := State.sendCtl_keeps State.agenda (fun _ _ _ => rfl) _ p _
  have hzen : (s.drawKey.2.sendCtl p (.keyxResp c)).zen.drbg = s.zen.drbg + 1 := State.sendCtl_keeps (fun v => v.zen.drbg) (fun _ _ _ => rfl) _ p _
  have hstate : (s.drawKey.2.sendCtl p (.keyxResp c)).linkState p = s.linkState p :=
    State.sendCtl_keeps (fun v => v.linkState p) (fun _ _ _ => rfl) _ p _
  have hrx : ((s.drawKey.2.sendCtl p (.keyxResp c)).port p).rxKey = (s.port p).rxKey := State.port_sendCtl_keeps' PortDyn.rxKey (fun _ _ => rfl) _ p _
  have hctl : 2 ≤ s.linkState p → s.linkState p ≤ 4 → ((s.drawKey.2.sendCtl p (.keyxResp c)).port p).ctl = (s.port p).ctl ++ [.keyxResp c] :=
    fun hlo hhi => congrArg PortDyn.ctl (State.port_sendCtl_early (s := s.drawKey.2) rfl hlo hhi)
  generalize s.drawKey.2.sendCtl p (.keyxResp c) = u at *
  obtain ⟨hleaves, hkey, hold, hno, hset, hag, hz, hsent⟩ := u.installRx_spec p r.n s.zen.drbg
  refine ⟨_, hc, hkey, hold.trans hrx, hno, by rw [hz, hzen], hset, fun hlo hhi => ?_, hag.trans hagenda, (hdrawn.trans hleaves).sameMem,
    (hdrawn.trans hleaves).sameRegsBut⟩
  rw [hsent (by rwa [hstate]) (by rwa [hstate]), hctl hlo hhi]
  refine ⟨?_, List.getLast?_concat⟩
  rw [List.append_assoc, List.drop_left]
  rfl

theorem keysAgreed_resp (s : State) (p n : Nat) (r : KeyxRec) (heven : p % 2 = 0) (hsecret : (s.port p).keyxSecret = some n)
    (hno : r.n = (s.port p).setNo) :
    (s.keyxFits p r = false → exec (.keyxResp p r) s = .next (s.authFail p)) ∧
    (s.keyxFits p r = true →
      ∃ t : State, exec (.keyxResp p r) s = .next t ∧ (t.port p).rxKey = some n ∧ (t.port p).rxOld = (s.port p).rxKey ∧
        (t.port p).setNo = r.n ∧ t.fld (rLnkKeyset p) 15 0 = r.n % 65536 ∧
        (2 ≤ s.linkState p → s.linkState p ≤ 4 → (t.port p).ctl = (s.port p).ctl ++ [CtlRec.keyxDone r.n]) ∧ t.agenda = s.agenda ∧ SameMem s t ∧
        SameRegsBut [rLnkKeyset p] s t) := by
  have hexec : exec (.keyxResp p r) s = if !s.keyxFits p r then .next (s.authFail p) else .next (s.installRx p r.n n) := by
    show execKeyxResp p r s = _
    unfold execKeyxResp
    rw [hsecret]
    exact if_neg (by omega)
  refine ⟨fun hfits => hexec.trans (if_pos (by rw [hfits]; rfl)), fun hfits => ?_⟩
  obtain ⟨hleaves, hkey, hold, hset, hshown, hag, -, hsent⟩ := s.installRx_spec p r.n n
  exact ⟨_, hexec.trans (if_neg (by rw [hfits]; decide)), hkey, hold, hset, hshown, hsent, hag, hleaves.sameMem, hleaves.sameRegsBut⟩

/-- A port's keys as the agreed set takes effect for sending: at once where there is none, and else with the next group (R464, R541). -/
def PortDyn.agreed (q : PortDyn) (first : Bool) (x : Nat) : PortDyn :=
  if first then { q with txKey := some x, groups := 0, keyxSecret := none } else { q with pendTx := some x, keyxSecret := none }

theorem keysAgreed_done (s : State) (p n x : Nat) (hsecret : (s.port p).keyxSecret = some x) (hno : n = (s.port p).setNo) :
    ∃ t : State, exec (.keyxDone p n) s = .next t ∧ (t.port p).keyxSecret = none ∧
      ((s.port p).txKey = none → (t.port p).txKey = some x) ∧ ((s.port p).txKey ≠ none → (t.port p).pendTx = some x) ∧
      t.fld (rLnkKeyset p) 31 16 = n % 65536 ∧ (s.linkState p = 3 → t.linkState p = 4) ∧ SameMem s t ∧
      SameRegsBut [rLnkKeyset p, rLnkStatus p] s t := by
  have hexec : exec (.keyxDone p n) s = .next
      (let u := (s.modPort p fun q => q.agreed (s.port p).txKey.isNone x).setFld (rLnkKeyset p) 31 16 n
      if u.linkState p = 3 then (u.setFld (rLnkStatus p) 63 61 4).laterW 0 .startPhase else u) := by
    show execKeyxDone p n s = _
    unfold execKeyxDone
    rw [hsecret]
    exact if_neg (not_not_intro hno)
  have hport : ((s.modPort p fun q => q.agreed (s.port p).txKey.isNone x).setFld (rLnkKeyset p) 31 16 n).port p =
      (s.port p).agreed (s.port p).txKey.isNone x := State.port_modPort_same s p fun q => q.agreed (s.port p).txKey.isNone x
  have hset : ((s.modPort p fun q => q.agreed (s.port p).txKey.isNone x).setFld (rLnkKeyset p) 31 16 n).fld (rLnkKeyset p) 31 16 = n % 65536 :=
    State.fld_setFld_same _ _ 31 16 n (by omega) (by omega)
  have hleaves : Leaves (· ∈ [rLnkKeyset p]) s ((s.modPort p fun q => q.agreed (s.port p).txKey.isNone x).setFld (rLnkKeyset p) 31 16 n) :=
    .setFld (.modPort .refl) (by simp)
  have hstate := hleaves.fld (by simpa using rLnkStatus_ne_rLnkKeyset p p) 63 61
  generalize (s.modPort p fun q => q.agreed (s.port p).txKey.isNone x).setFld (rLnkKeyset p) 31 16 n = u at *
  dsimp only at hexec
  have hwide : Leaves (· ∈ [rLnkKeyset p, rLnkStatus p]) s u := hleaves.mono fun r hr => List.mem_cons.mpr (.inl (List.mem_singleton.mp hr))
  have hsecret' : ((s.port p).agreed (s.port p).txKey.isNone x).keyxSecret = none := by
    unfold PortDyn.agreed
    split <;> rfl
  have htx : (s.port p).txKey = none → ((s.port p).agreed (s.port p).txKey.isNone x).txKey = some x := fun h => by
    rw [h]
    rfl
  have hpend : (s.port p).txKey ≠ none → ((s.port p).agreed (s.port p).txKey.isNone x).pendTx = some x := fun h => by
    unfold PortDyn.agreed
    rw [if_neg (mt Option.isNone_iff_eq_none.mp h)]
  by_cases hwaits : u.linkState p = 3
  · rw [if_pos hwaits] at hexec
    have hup : Leaves (· ∈ [rLnkKeyset p, rLnkStatus p]) s ((u.setFld (rLnkStatus p) 63 61 4).laterW 0 .startPhase) := .laterW (.setFld hwide (by simp))
    refine ⟨_, hexec, ?_, fun h => ?_, fun h => ?_, ?_, fun _ => ?_, hup.sameMem, hup.sameRegsBut⟩
    · rw [State.port_laterW, State.port_setFld, hport, hsecret']
    · rw [State.port_laterW, State.port_setFld, hport, htx h]
    · rw [State.port_laterW, State.port_setFld, hport, hpend h]
    · rw [State.fld_laterW, State.fld_setFld_ne _ _ _ _ _ _ (rLnkStatus_ne_rLnkKeyset p p).symm, hset]
    · rw [State.linkState, State.fld_laterW, State.fld_setFld_same _ _ _ _ _ (by omega) (by omega)]
      rfl
  · rw [if_neg hwaits] at hexec
    refine ⟨_, hexec, by rw [hport, hsecret'], fun h => by rw [hport, htx h], fun h => by rw [hport, hpend h], hset,
      fun h => absurd (hstate.trans h) hwaits, hwide.sameMem, hwide.sameRegsBut⟩

theorem keysAgreed_rollover (s : State) (p : Nat) (heven : p % 2 = 0) (hrack : s.crossRack p = true) (hauth : (s.port p).authFailed = false)
    (hup : s.linkState p = 3 ∨ s.linkState p = 4) :
    ∃ t : State, exec (.keySetRollover p) s = .next t ∧ (t.port p).keyxSecret = some s.zen.drbg ∧ (t.port p).setNo = (s.port p).setNo + 1 ∧
      (t.port p).ctl.length = (s.port p).ctl.length + 1 ∧ t.zen.drbg = s.zen.drbg + 1 ∧ SameMem s t ∧ SameRegsBut [] s t := by
  have hlo : 3 ≤ s.linkState p := by omega
  have hhi : s.linkState p ≤ 4 := by omega
  have hbegin : exec (.keySetRollover p) s = .next (s.startKeyx p ((s.port p).setNo + 1)) := by
    refine congrArg Host.Outcome.next ((if_pos ?_).trans (if_pos heven))
    simp only [hrack, hauth, hlo, hhi, decide_true, Bool.not_false, Bool.and_self]
  obtain ⟨c, hc⟩ : ∃ c, s.startKeyx p ((s.port p).setNo + 1) =
      (s.drawKey.2.modPort p fun q => { q with keyxSecret := some s.zen.drbg, setNo := (s.port p).setNo + 1 }).sendCtl p (.keyxInit c) := ⟨_, rfl⟩
  rw [hc] at hbegin
  have hstate : (s.drawKey.2.modPort p fun q => { q with keyxSecret := some s.zen.drbg, setNo := (s.port p).setNo + 1 }).linkState p = s.linkState p :=
    rfl
  have hport : (s.drawKey.2.modPort p fun q => { q with keyxSecret := some s.zen.drbg, setNo := (s.port p).setNo + 1 }).port p =
      { s.port p with keyxSecret := some s.zen.drbg, setNo := (s.port p).setNo + 1 } := State.port_modPort_same _ p _
  have hzen : (s.drawKey.2.modPort p fun q => { q with keyxSecret := some s.zen.drbg, setNo := (s.port p).setNo + 1 }).zen.drbg = s.zen.drbg + 1 := rfl
  have hleaves : Leaves (· ∈ []) s (s.drawKey.2.modPort p fun q => { q with keyxSecret := some s.zen.drbg, setNo := (s.port p).setNo + 1 }) :=
    .modPort (.upd .refl)
  generalize (s.drawKey.2.modPort p fun q => { q with keyxSecret := some s.zen.drbg, setNo := (s.port p).setNo + 1 }) = u at *
  have hsent := State.port_sendCtl_early (s := u) (p := p) (r := .keyxInit c) rfl (by omega) (by omega)
  refine ⟨_, hbegin, by rw [hsent, hport], by rw [hsent, hport], ?_, ?_, hleaves.sendCtl.sameMem, hleaves.sendCtl.sameRegsBut⟩
  · rw [hsent, hport]
    exact List.length_append
  · exact (State.sendCtl_keeps (fun v => v.zen.drbg) (fun _ _ _ => rfl) u p _).trans hzen

/-- Settles O30, record by record of the handshake. -/
theorem keysAgreed : Obligations.KeysAgreed := by
  refine ⟨fun s p r _ hodd => ⟨fun hfits => (if_neg (by omega)).trans (if_pos (by rw [hfits]; rfl)), keysAgreed_init s p r hodd⟩,
    fun s p r => ⟨fun heven => if_pos heven, fun hodd => ?_⟩, fun s p n r _ => keysAgreed_resp s p n r, fun s p n x _ => keysAgreed_done s p n x,
    keysAgreed_rollover⟩
  show execKeyxResp p r s = _
  unfold execKeyxResp
  split
  · rfl
  · exact if_pos (.inl hodd)

end Sys2Proof.Machine
end

section
/-! PROOF. A recovery that a retry ends, beside a write that a failing line held back (R483, R488). -/
namespace Sys2Proof.Machine

/-- A recovery whose retry is due, with a write into the first line held back. -/
def State.retryBesideHeldWrite : State := { State.reset with recoveries := [{}], heldWrites := [(0, [1])] }

/-- With its recovery over, a held write is carried out. -/
theorem State.memGet_retryBesideHeldWrite : memGet (State.retryBesideHeldWrite.recovered {} 0).hbm 0 = 1 := by decide

/-- Refutes O31: a retry that reads good bytes ends the recovery, and a write that its line held back reaches HBM with it, so memory is not the same,
against the second clause. -/
theorem not_recoveryProceeds : ¬ Obligations.RecoveryProceeds := by
  rintro ⟨hretry, -⟩
  obtain ⟨t, -, hexec, -, -, -, -, -, hmem, -⟩ :=
    (hretry State.retryBesideHeldWrite 0 true {} rfl rfl rfl).2 rfl (by decide) (by decide) (by decide) (by decide)
  have ht : State.retryBesideHeldWrite.recovered {} 0 = t := by
    have h : Host.Outcome.next (State.retryBesideHeldWrite.recovered {} 0) = (.next t : Out) := hexec
    injection h
  have hsame : memGet t.hbm 0 = memGet State.retryBesideHeldWrite.hbm 0 := hmem.1 0
  rw [← ht, State.memGet_retryBesideHeldWrite] at hsame
  exact absurd hsame (by decide)

end Sys2Proof.Machine
end

section
/-! PROOF. Remapping, patrol and the maintenance arbiter (R495–R498, R504–R508). -/
namespace Sys2Proof.Machine

/-- The recovery that a failing place of HBM begins. -/
def State.newRecovery (s : State) (core a len : Nat) (patrol : Bool) : Recovery :=
  { id := s.nextId, core := core, addr := a, len := len, patrol := patrol }

/-- Where none is under way, a failing place of HBM begins a recovery, and its failure is counted (R483). -/
theorem State.beginRecovery_alone {s : State} (core a len : Nat) (patrol : Bool) (h : s.recoveries = []) :
    s.beginRecovery core 0 0 a len 0 none patrol none none =
      { ((s.bump (rMemCrcFail (a / 2 ^ 36)) 1).fresh.2.laterW 140 (.retryLands s.nextId true)) with recoveries := [s.newRecovery core a len patrol] } := by
  have hnone : s.samePlace core 0 0 a len = none := by
    unfold State.samePlace
    rw [h]
    rfl
  have hcount : s.countCheck core 0 a 0 = s.bump (rMemCrcFail (a / 2 ^ 36)) 1 := rfl
  have hhard : (s.bump (rMemCrcFail (a / 2 ^ 36)) 1).sramHard core 0 0 a len 0 = s.bump (rMemCrcFail (a / 2 ^ 36)) 1 := if_neg (by simp)
  unfold State.beginRecovery
  dsimp only
  rw [hnone, hcount]
  dsimp only
  rw [hhard]
  have hrec : (((s.bump (rMemCrcFail (a / 2 ^ 36)) 1).fresh.2).laterW 140 (.retryLands s.nextId true)).recoveries = [] := h
  have hlist : (((s.bump (rMemCrcFail (a / 2 ^ 36)) 1).fresh.2).laterW 140 (.retryLands s.nextId true)).recoveries ++
      [s.newRecovery core a len patrol] = [s.newRecovery core a len patrol] := by rw [hrec, List.nil_append]
  rw [← hlist]
  rfl

theorem Leaves.beginRecovery_alone {s : State} {core a len : Nat} {patrol : Bool} (h : s.recoveries = []) :
    Leaves (· = rMemCrcFail (a / 2 ^ 36)) s (s.beginRecovery core 0 0 a len 0 none patrol none none) := by
  rw [State.beginRecovery_alone core a len patrol h]
  exact .upd (.laterW (.fresh (.bump .refl rfl)))

theorem rMemStatus_notMem_eventRegs {n : Nat} (hn : n < 8) : rMemStatus n ∉ eventRegs := by
  simp only [eventRegs, List.mem_cons, List.not_mem_nil, or_false, rMemStatus, rDbgStatus, rCirEventOvf]
  omega

theorem rMemRemap_ne_rMemCrcFail (n m : Nat) {e : Nat} (he : e < 16) : rMemRemap n e ≠ rMemCrcFail m := by
  simp only [rMemRemap, rMemCrcFail]
  omega

theorem State.remapOf_congr {s t : State} {n : Nat} (l : Nat) (h : ∀ e < 16, t.reg (rMemRemap n e) = s.reg (rMemRemap n e)) :
    t.remapOf n l = s.remapOf n l := by
  unfold State.remapOf State.fld
  exact List.find?_congr fun e he => by rw [h e (List.mem_range.mp he)]

theorem maintenanceRuns_recovers (s : State) (n l : Nat) (hbad : s.hbmBad (n * 2 ^ 36 + l * 256) 256 = true) (hnone : s.recoveries = []) :
    ∃ (t : State) (r : Recovery), exec (.remapUpdate n l) s = .next t ∧ t.recoveries = [r] ∧ r.remap = true ∧ r.space = 0 ∧ r.addr = n * 2 ^ 36 + l * 256 ∧
      r.len = 256 ∧ t.remapOf n l = s.remapOf n l ∧ SameMem s t := by
  have hexec : exec (.remapUpdate n l) s = .next
      (let u := s.beginRecovery (n / 2) 0 0 (n * 2 ^ 36 + l * 256) 256 0 none false none none
      { u with recoveries := u.recoveries.map fun (r : Recovery) =>
        if r.space = 0 ∧ r.addr < n * 2 ^ 36 + l * 256 + 256 ∧ n * 2 ^ 36 + l * 256 < r.addr + r.len then { r with remap := true } else r }) :=
    if_pos hbad
  have hleaves := Leaves.beginRecovery_alone (core := n / 2) (a := n * 2 ^ 36 + l * 256) (len := 256) (patrol := false) hnone
  have hrec : (s.beginRecovery (n / 2) 0 0 (n * 2 ^ 36 + l * 256) 256 0 none false none none).recoveries =
      [s.newRecovery (n / 2) (n * 2 ^ 36 + l * 256) 256 false] := by rw [State.beginRecovery_alone _ _ _ _ hnone]
  generalize s.beginRecovery (n / 2) 0 0 (n * 2 ^ 36 + l * 256) 256 0 none false none none = u at *
  dsimp only at hexec
  refine ⟨_, { s.newRecovery (n / 2) (n * 2 ^ 36 + l * 256) 256 false with remap := true }, hexec, ?_, rfl, rfl, rfl, rfl,
    State.remapOf_congr l fun e he => hleaves.reg _ (rMemRemap_ne_rMemCrcFail n _ he), (Leaves.upd hleaves).sameMem⟩
  dsimp only
  rw [hrec, List.map_cons, List.map_nil, if_pos ⟨rfl, Nat.lt_add_of_pos_right (by norm_num), Nat.lt_add_of_pos_right (show 0 < 256 by norm_num)⟩]

/-- The end of an activity sends no event and leaves the spares as they are. -/
theorem State.maintEnd_spec {s : State} (act scope : Nat) {n : Nat} : Leaves (· ∈ maintRegs) s (s.maintEnd act scope) ∧
    (s.maintEnd act scope).evq = s.evq ∧ (s.maintEnd act scope).fld (rMemStatus n) 4 0 = s.fld (rMemStatus n) 4 0 := by
  have hne : rMemStatus n ∉ maintRegs := by
    intro h
    obtain ⟨st, -, hst⟩ := List.mem_flatMap.mp h
    simp only [List.mem_cons, List.not_mem_nil, or_false, rMemStatus, rMemMaint, rMemPatrol] at hst
    omega
  exact ⟨Leaves.refl.next (.maintEnd s act scope) fun _ h => h, State.evq_maintEnd s act scope, (Reports.maintEnd s act scope).fld hne 4 0⟩

theorem rMemRemap_notMem_maintRegs (n : Nat) {e : Nat} (he : e < 16) : rMemRemap n e ∉ maintRegs := by
  intro h
  obtain ⟨st, -, hst⟩ := List.mem_flatMap.mp h
  simp only [List.mem_cons, List.not_mem_nil, or_false, rMemRemap, rMemMaint, rMemPatrol] at hst
  omega

/-- The registers as the next spare is taken for a line (R495). -/
def State.sparedRegs (s : State) (n l : Nat) : State :=
  (s.setReg (rMemRemap n (s.fld (rMemStatus n) 4 0)) (BitVec.ofNat 64 (2 ^ 63 + l % 2 ^ 28))).setFld (rMemStatus n) 4 0 (s.fld (rMemStatus n) 4 0 + 1)

/-- The next spare taken for a line (R495). -/
def State.spared (s : State) (n l : Nat) : State :=
  { s.sparedRegs n l with
    zen := { s.zen with remaps := SMap.mod s.zen.remaps n fun (l' : List Nat) => l' ++ [l] }
    badLine := SMap.erase s.badLine (n * 2 ^ 28 + l) }

theorem State.reg_spared (s : State) (n l k : Nat) : (s.spared n l).reg k = (s.sparedRegs n l).reg k := rfl
theorem State.fld_spared (s : State) (n l k hi lo : Nat) : (s.spared n l).fld k hi lo = (s.sparedRegs n l).fld k hi lo := rfl

theorem State.spared_spec {s : State} {n : Nat} (l : Nat) (hfree : s.fld (rMemStatus n) 4 0 < 16) :
    (s.spared n l).reg (rMemRemap n (s.fld (rMemStatus n) 4 0)) = BitVec.ofNat 64 (2 ^ 63 + l % 2 ^ 28) ∧
    (s.spared n l).fld (rMemStatus n) 4 0 = s.fld (rMemStatus n) 4 0 + 1 ∧ (s.spared n l).evq = s.evq ∧
    Leaves (· ∈ [rMemRemap n (s.fld (rMemStatus n) 4 0), rMemStatus n]) s (s.spared n l) := by
  have hne : rMemRemap n (s.fld (rMemStatus n) 4 0) ≠ rMemStatus n := by
    simp only [rMemRemap, rMemStatus]
    omega
  have hleaves : Leaves (· ∈ [rMemRemap n (s.fld (rMemStatus n) 4 0), rMemStatus n]) s (s.sparedRegs n l) :=
    .setFld (.setReg .refl (by simp)) (by simp)
  refine ⟨?_, ?_, rfl, .upd hleaves⟩
  · rw [State.reg_spared, State.sparedRegs, State.reg_setFld_ne _ _ _ _ hne, State.reg_setReg_same]
  · rw [State.fld_spared, State.sparedRegs, State.fld_setFld_same _ _ 4 0 _ (by omega) (by omega)]
    exact Nat.mod_eq_of_lt (Nat.lt_of_le_of_lt hfree (by norm_num))

theorem State.remapLine_of_new {s : State} {n l : Nat} (h : s.remapOf n l = none) :
    s.remapLine n l = if 16 ≤ s.fld (rMemStatus n) 4 0 then none else some (s.spared n l) := by
  unfold State.remapLine
  rw [h]
  rfl

theorem execRemapUpdate_of_good {s : State} {n l : Nat} (hgood : s.hbmBad (n * 2 ^ 36 + l * 256) 256 = false) (hnew : s.remapOf n l = none) :
    exec (.remapUpdate n l) s = .next (if 16 ≤ s.fld (rMemStatus n) 4 0 then (s.maintEnd 2 n).eventStack n 0x0103 0 (n * 2 ^ 36 + l * 256)
      else ((s.maintEnd 2 n).spared n l).eventStack n 0x0102 0 (n * 2 ^ 36 + l * 256)) := by
  obtain ⟨hleaves, -, hcount⟩ := s.maintEnd_spec 2 n (n := n)
  have hnew' : (s.maintEnd 2 n).remapOf n l = none :=
    (State.remapOf_congr l fun e he => hleaves.reg _ (rMemRemap_notMem_maintRegs n he)).trans hnew
  show execRemapUpdate n l s = _
  unfold execRemapUpdate
  dsimp only
  rw [if_neg (by rw [hgood]; decide), State.remapLine_of_new hnew', hcount]
  by_cases hspent : 16 ≤ s.fld (rMemStatus n) 4 0
  · rw [if_pos hspent, if_pos hspent]
  · rw [if_neg hspent, if_neg hspent]

theorem maintenanceRuns_remaps (s : State) (n l : Nat) (hn : n < 8) (hnew : s.remapOf n l = none)
    (hgood : s.hbmBad (n * 2 ^ 36 + l * 256) 256 = false) (hroom : s.evq.length < 1024) (hfree : s.fld (rMemStatus n) 4 0 < 16) :
    ∃ (t : State) (e : EventRec), exec (.remapUpdate n l) s = .next t ∧
      t.reg (rMemRemap n (s.fld (rMemStatus n) 4 0)) = BitVec.ofNat 64 (2 ^ 63 + l % 2 ^ 28) ∧
      t.fld (rMemStatus n) 4 0 = s.fld (rMemStatus n) 4 0 + 1 ∧ t.evq = s.evq ++ [e] ∧ e.code = 0x0102 ∧ SameMem s t ∧
      SameRegsBut ([rMemRemap n (s.fld (rMemStatus n) 4 0), rMemStatus n] ++ (maintRegs ++ eventRegs)) s t := by
  have hexec := execRemapUpdate_of_good hgood hnew
  rw [if_neg (by omega)] at hexec
  obtain ⟨hend, hevq, hcount⟩ := s.maintEnd_spec 2 n (n := n)
  generalize s.maintEnd 2 n = u at *
  have hstatus := rMemStatus_notMem_eventRegs hn
  have hremap : rMemRemap n (s.fld (rMemStatus n) 4 0) ∉ eventRegs := by
    simp only [eventRegs, List.mem_cons, List.not_mem_nil, or_false, rMemRemap, rDbgStatus, rCirEventOvf]
    omega
  obtain ⟨hset, hnext, hsame, hleft⟩ := u.spared_spec (n := n) l (by rwa [hcount])
  rw [hcount] at hset hnext hleft
  have hspared : Leaves (· ∈ [rMemRemap n (s.fld (rMemStatus n) 4 0), rMemStatus n] ++ (maintRegs ++ eventRegs)) s (u.spared n l) :=
    (hend.mono fun _ h => List.mem_append_right _ (List.mem_append_left _ h)).trans (hleft.mono fun _ h => List.mem_append_left _ h)
  have hevq' : (u.spared n l).evq = s.evq := hsame.trans hevq
  generalize u.spared n l = v at *
  obtain ⟨e, hsent, hcode⟩ := State.exists_evq_eventStack (s := v) n 0x0102 0 (n * 2 ^ 36 + l * 256) (by rwa [hevq'])
  have hall : Leaves (· ∈ [rMemRemap n (s.fld (rMemStatus n) 4 0), rMemStatus n] ++ (maintRegs ++ eventRegs)) s
      (v.eventStack n 0x0102 0 (n * 2 ^ 36 + l * 256)) :=
    .raise hspared fun _ h => List.mem_append_right _ (List.mem_append_right _ h)
  have hrep : Reports (· ∈ eventRegs) v (v.eventStack n 0x0102 0 (n * 2 ^ 36 + l * 256)) := Reports.raise _ _
  exact ⟨_, e, hexec, (hrep.reg _ hremap).trans hset, (hrep.fld hstatus 4 0).trans hnext, by rw [hsent, hevq'], hcode, hall.sameMem, hall.sameRegsBut⟩

theorem maintenanceRuns_spent (s : State) (n l : Nat) (hnew : s.remapOf n l = none) (hgood : s.hbmBad (n * 2 ^ 36 + l * 256) 256 = false)
    (hroom : s.evq.length < 1024) (hspent : 16 ≤ s.fld (rMemStatus n) 4 0) :
    ∃ (t : State) (e : EventRec), exec (.remapUpdate n l) s = .next t ∧ t.evq = s.evq ++ [e] ∧ e.code = 0x0103 ∧ SameMem s t ∧
      SameRegsBut (maintRegs ++ eventRegs) s t := by
  have hexec := execRemapUpdate_of_good hgood hnew
  rw [if_pos hspent] at hexec
  obtain ⟨hend, hevq, -⟩ := s.maintEnd_spec 2 n (n := n)
  obtain ⟨e, hsent, hcode⟩ := State.exists_evq_eventStack (s := s.maintEnd 2 n) n 0x0103 0 (n * 2 ^ 36 + l * 256) (by rwa [hevq])
  have hall : Leaves (· ∈ maintRegs ++ eventRegs) s ((s.maintEnd 2 n).eventStack n 0x0103 0 (n * 2 ^ 36 + l * 256)) :=
    .raise (hend.mono fun _ h => List.mem_append_left _ h) fun _ h => List.mem_append_right _ h
  exact ⟨_, e, hexec, by rw [hsent, hevq], hcode, hall.sameMem, hall.sameRegsBut⟩

/-! Patrol. -/

theorem execPatrolLineRead_of_patrolling {s : State} {n : Nat} (bad : Bool) (h : s.patrolling n = true) : exec (.patrolLineRead n bad) s =
    (let m := s.fld (rMemPatrol n) 27 0
    let u := if bad || s.hbmBad (n * 2 ^ 36 + 256 * m) 256 then s.beginRecovery (n / 2) 0 0 (n * 2 ^ 36 + 256 * m) 256 0 none true none none else s
    if m + 1 < patrolLines then .next (u.setFld (rMemPatrol n) 27 0 (m + 1))
    else .next (((u.setFld (rMemPatrol n) 27 0 0).bump (rMemPatrolSweeps n) 1).laterW
      (((u.setFld (rMemPatrol n) 27 0 0).bump (rMemPatrolSweeps n) 1).fld (rMemPatrol n) 47 32 * 700000000) (.patrolSweepStart n))) :=
  if_neg (by rw [h]; decide)

theorem maintenanceRuns_reads (s : State) (n : Nat) (hpat : s.patrolling n = true)
    (hgood : s.hbmBad (n * 2 ^ 36 + 256 * s.fld (rMemPatrol n) 27 0) 256 = false) :
    (s.fld (rMemPatrol n) 27 0 + 1 < patrolLines →
      ∃ t : State, exec (.patrolLineRead n false) s = .next t ∧ t.fld (rMemPatrol n) 27 0 = (s.fld (rMemPatrol n) 27 0 + 1) % 2 ^ 28 ∧
        t.agenda = s.agenda ∧ SameMem s t ∧ SameRegsBut [rMemPatrol n] s t) ∧
    (patrolLines ≤ s.fld (rMemPatrol n) 27 0 + 1 →
      ∃ t : State, exec (.patrolLineRead n false) s = .next t ∧ t.fld (rMemPatrol n) 27 0 = 0 ∧
        t.fld (rMemPatrolSweeps n) 47 0 = min (s.fld (rMemPatrolSweeps n) 47 0 + 1) (2 ^ 48 - 1) ∧
        t.agenda = s.agenda ++ [({ dom := none, at_ := s.clk.wall + s.fld (rMemPatrol n) 47 32 * 700000000,
                                   act := .cmd (.patrolSweepStart n) } : Due)] ∧ SameMem s t ∧
        SameRegsBut [rMemPatrol n, rMemPatrolSweeps n] s t) := by
  have hexec := execPatrolLineRead_of_patrolling false hpat
  dsimp only at hexec
  rw [if_neg (c := (false || _) = true) (by rw [hgood]; decide)] at hexec
  have hne : rMemPatrol n ≠ rMemPatrolSweeps n := by
    simp only [rMemPatrol, rMemPatrolSweeps]
    omega
  refine ⟨fun hmore => ?_, fun hlast => ?_⟩
  · rw [if_pos hmore] at hexec
    have hleaves : Leaves (· ∈ [rMemPatrol n]) s (s.setFld (rMemPatrol n) 27 0 (s.fld (rMemPatrol n) 27 0 + 1)) := .setFld .refl (by simp)
    exact ⟨_, hexec, State.fld_setFld_same _ _ 27 0 _ (by omega) (by omega), rfl, hleaves.sameMem, hleaves.sameRegsBut⟩
  · rw [if_neg (Nat.not_lt.mpr hlast)] at hexec
    have hleaves : Leaves (· ∈ [rMemPatrol n, rMemPatrolSweeps n]) s ((s.setFld (rMemPatrol n) 27 0 0).bump (rMemPatrolSweeps n) 1) :=
      .bump (.setFld .refl (by simp)) (by simp)
    have hfirst : ((s.setFld (rMemPatrol n) 27 0 0).bump (rMemPatrolSweeps n) 1).fld (rMemPatrol n) 27 0 = 0 :=
      (State.fld_setFld_ne _ _ _ _ _ _ hne).trans (State.fld_setFld_same s _ 27 0 0 (by omega) (by omega))
    have hpause : ((s.setFld (rMemPatrol n) 27 0 0).bump (rMemPatrolSweeps n) 1).fld (rMemPatrol n) 47 32 = s.fld (rMemPatrol n) 47 32 :=
      (State.fld_setFld_ne _ _ _ _ _ _ hne).trans (State.fld_setFld_disjoint _ _ _ _ _ _ _ (by omega) (by omega) (by omega) (by omega))
    have hcount : ((s.setFld (rMemPatrol n) 27 0 0).bump (rMemPatrolSweeps n) 1).fld (rMemPatrolSweeps n) 47 0 =
        min (s.fld (rMemPatrolSweeps n) 47 0 + 1) (2 ^ 48 - 1) := by
      refine (State.fld_setFld_same _ _ 47 0 _ (by omega) (by omega)).trans ?_
      rw [State.fld_setFld_ne _ _ _ _ _ _ hne.symm]
      exact Nat.mod_eq_of_lt (by omega)
    rw [hpause] at hexec
    exact ⟨_, hexec, hfirst, hcount, rfl, hleaves.laterW.sameMem, hleaves.laterW.sameRegsBut⟩

theorem maintenanceRuns_patrolRecovers (s : State) (n : Nat) (hpat : s.patrolling n = true)
    (hmore : s.fld (rMemPatrol n) 27 0 + 1 < patrolLines) (hnone : s.recoveries = []) :
    ∃ (t : State) (r : Recovery), exec (.patrolLineRead n true) s = .next t ∧ t.fld (rMemPatrol n) 27 0 = (s.fld (rMemPatrol n) 27 0 + 1) % 2 ^ 28 ∧
      t.recoveries = [r] ∧ r.patrol = true ∧ r.addr = n * 2 ^ 36 + 256 * s.fld (rMemPatrol n) 27 0 ∧ r.len = 256 ∧ SameMem s t := by
  have hexec := execPatrolLineRead_of_patrolling true hpat
  dsimp only at hexec
  rw [if_pos (c := (true || _) = true) rfl, if_pos hmore] at hexec
  have hleaves := Leaves.beginRecovery_alone (core := n / 2) (a := n * 2 ^ 36 + 256 * s.fld (rMemPatrol n) 27 0) (len := 256) (patrol := true) hnone
  have hrec : (s.beginRecovery (n / 2) 0 0 (n * 2 ^ 36 + 256 * s.fld (rMemPatrol n) 27 0) 256 0 none true none none).recoveries =
      [s.newRecovery (n / 2) (n * 2 ^ 36 + 256 * s.fld (rMemPatrol n) 27 0) 256 true] := by rw [State.beginRecovery_alone _ _ _ _ hnone]
  generalize s.beginRecovery (n / 2) 0 0 (n * 2 ^ 36 + 256 * s.fld (rMemPatrol n) 27 0) 256 0 none true none none = u at *
  exact ⟨_, _, hexec, State.fld_setFld_same _ _ 27 0 _ (by omega) (by omega), hrec, rfl, rfl, rfl,
    (Leaves.setFld (P := fun _ => True) (hleaves.mono fun _ _ => trivial) trivial).sameMem⟩

/-! Recalibration and requests. -/

theorem maintenanceRuns_recalDue (s : State) (n : Nat) (hn : n < 8) (hroom : s.evq.length < 1024) :
    ∃ (t : State) (e : EventRec), exec (.memRecalDue n) s = .next t ∧ t.fld (rMemStatus n) 62 62 = 1 ∧ t.evq = s.evq ++ [e] ∧ e.code = 0x0106 ∧
      SameMem s t ∧ SameRegsBut (rMemStatus n :: eventRegs) s t := by
  have hstatus := rMemStatus_notMem_eventRegs hn
  obtain ⟨e, hsent, hcode⟩ := State.exists_evq_eventStack (s := s.setFld (rMemStatus n) 62 62 1) n 0x0106 0 0 hroom
  have hleaves : Leaves (· ∈ rMemStatus n :: eventRegs) s ((s.setFld (rMemStatus n) 62 62 1).eventStack n 0x0106 0 0) :=
    .raise (.setFld .refl (by simp)) fun _ h => List.mem_cons_of_mem _ h
  have hrep : Reports (· ∈ eventRegs) (s.setFld (rMemStatus n) 62 62 1) ((s.setFld (rMemStatus n) 62 62 1).eventStack n 0x0106 0 0) :=
    Reports.raise _ _
  exact ⟨_, e, rfl, (hrep.fld hstatus 62 62).trans (State.fld_setFld_same s _ 62 62 1 (by omega) (by omega)), hsent, hcode, hleaves.sameMem,
    hleaves.sameRegsBut⟩

theorem execMaintenanceRequest_of_allowed {s : State} {h act n : Nat} (l : Nat) (hallow : s.maintAllowed h act n = true)
    (hconf : act ≠ 3 ∨ ∀ k, s.stackPart n = some k → s.conf k = false) : exec (.maintenanceRequest h act n l) s =
      match s.maintConflict act n with
      | some c => .next (s.maintRefuse act n c)
      | none => .next (if act = 2 then (s.maintGrant act n).laterW 0 (.remapUpdate n l)
          else if act = 5 then (s.maintGrant act n).laterW 0 (.linkReset n) else s.maintGrant act n) := by
  show execMaintenanceRequest h act n l s = _
  unfold execMaintenanceRequest
  have hgate : ¬(act == 3 && (match s.stackPart n with | some k => s.conf k | none => false)) = true := by
    intro hboth
    obtain ⟨hact, hpart⟩ := (Bool.and_eq_true _ _).mp hboth
    refine hconf.elim (fun hne => hne (beq_iff_eq.mp hact)) fun hall => ?_
    cases hp : s.stackPart n with
    | none => rw [hp] at hpart; exact Bool.false_ne_true hpart
    | some k =>
      rw [hp] at hpart
      exact Bool.false_ne_true ((hall k hp).symm.trans hpart)
  exact (if_neg (by rw [hallow]; decide)).trans ((if_neg hgate).trans rfl)

theorem State.maint_laterW (s : State) (d : Nat) (i : Instr) : (s.laterW d i).maint = s.maint := by
  unfold State.laterW State.after
  rfl

theorem State.maintGrant_spec (s : State) (act n : Nat) : { act := act, scope := n } ∈ (s.maintGrant act n).maint ∧
    (s.maintGrant act n).agenda = s.agenda ∧ (s.maintGrant act n).clk = s.clk := by
  refine ⟨?_, State.maintGrant_keeps State.agenda (fun _ _ _ => rfl) s act n, State.maintGrant_keeps State.clk (fun _ _ _ => rfl) s act n⟩
  unfold State.maintGrant
  rw [State.showMaint_keeps State.maint fun _ _ => rfl]
  exact List.mem_append_right _ (List.mem_singleton_self _)

theorem maintenanceRuns_granted (s : State) (h act n l k : Nat) (hallow : s.maintAllowed h act n = true) (hpart : s.maintPart act n = some k)
    (hconf : act ≠ 3 ∨ s.conf k = false) (hfree : s.maintConflict act n = none) :
    ∃ t : State, exec (.maintenanceRequest h act n l) s = .next t ∧ { act := act, scope := n } ∈ t.maint ∧
      t.agenda = s.agenda ++ (if act = 2 then [({ dom := none, at_ := s.clk.wall, act := .cmd (.remapUpdate n l) } : Due)]
        else if act = 5 then [({ dom := none, at_ := s.clk.wall, act := .cmd (.linkReset n) } : Due)] else []) ∧ SameMem s t ∧
      SameRegsBut maintRegs s t := by
  have hopen : act ≠ 3 ∨ ∀ j, s.stackPart n = some j → s.conf j = false := by
    by_cases hact : act = 3
    · subst hact
      refine .inr fun j hj => ?_
      rw [State.maintPart, if_neg (by decide), if_pos (by decide), hj] at hpart
      rw [Option.some.inj hpart]
      exact hconf.resolve_left fun hne => hne rfl
    · exact .inl hact
  have hexec := execMaintenanceRequest_of_allowed l hallow hopen
  rw [hfree] at hexec
  dsimp only at hexec
  have hleaves : Leaves (· ∈ maintRegs) s (s.maintGrant act n) := Leaves.refl.next (.maintGrant s act n) fun _ h => h
  obtain ⟨hmaint, hagenda, hclk⟩ := s.maintGrant_spec act n
  generalize s.maintGrant act n = u at *
  have hafter : ∀ i, (u.laterW 0 i).agenda = s.agenda ++ [({ dom := none, at_ := s.clk.wall, act := .cmd i } : Due)] := fun i => by
    rw [← hagenda, ← hclk]
    rfl
  by_cases h2 : act = 2
  · rw [if_pos h2] at hexec ⊢
    exact ⟨_, hexec, by rw [State.maint_laterW]; exact hmaint, hafter _, hleaves.laterW.sameMem, hleaves.laterW.sameRegsBut⟩
  · rw [if_neg h2] at hexec ⊢
    by_cases h5 : act = 5
    · rw [if_pos h5] at hexec ⊢
      exact ⟨_, hexec, by rw [State.maint_laterW]; exact hmaint, hafter _, hleaves.laterW.sameMem, hleaves.laterW.sameRegsBut⟩
    · rw [if_neg h5] at hexec ⊢
      exact ⟨_, hexec, hmaint, by rw [hagenda, List.append_nil], hleaves.sameMem, hleaves.sameRegsBut⟩

/-- An activity that has ended is none of those that run. -/
theorem State.notMem_maintEnd {s : State} {act scope : Nat} {m : Maint} (hm : m ∈ (s.maintEnd act scope).maint) : ¬(m.act = act ∧ m.scope = scope) := by
  unfold State.maintEnd at hm
  rw [State.showMaint_keeps State.maint fun _ _ => rfl] at hm
  obtain ⟨q, hq, rfl⟩ := List.mem_map.mp hm
  have hleft := (List.mem_filter.mp hq).2
  intro hboth
  have hsame : q.act = act ∧ q.scope = scope := by
    split at hboth
    · exact hboth
    · exact hboth
  rw [hsame.1, hsame.2] at hleft
  simp at hleft

/-- Settles O32. -/
theorem maintenanceRuns : Obligations.MaintenanceRuns := by
  refine ⟨maintenanceRuns_recovers, fun s n l hn hnew hgood hroom => ⟨maintenanceRuns_remaps s n l hn hnew hgood hroom,
    maintenanceRuns_spent s n l hnew hgood hroom⟩, fun s n _ => maintenanceRuns_reads s n, fun s n _ => maintenanceRuns_patrolRecovers s n,
    fun s n b h => if_pos (by rw [h]; rfl), fun s n h => ?_, maintenanceRuns_recalDue,
    fun s h act n l => ⟨fun hallow => if_pos (by rw [hallow]; rfl), fun k hallow hpart hconf => ?_, fun c hallow hact hmeets => ?_,
      fun k => maintenanceRuns_granted s h act n l k⟩, fun s n => ?_⟩
  · have hleaves : Leaves (· ∈ [rMemPatrol n]) s (s.setFld (rMemPatrol n) 27 0 0) := .setFld .refl (by simp)
    exact ⟨_, congrArg Host.Outcome.next (if_pos h), State.fld_setFld_same s _ 27 0 0 (by omega) (by omega), hleaves.sameMem, hleaves.sameRegsBut⟩
  · show execMaintenanceRequest h 3 n l s = _
    unfold execMaintenanceRequest
    rw [if_neg (by rw [hallow]; decide), hpart, if_pos (by simpa using hconf)]
  · rw [execMaintenanceRequest_of_allowed l hallow (.inl hact), hmeets]
  · have hleaves : Leaves (· ∈ maintRegs) s (s.maintEnd 4 n) := (s.maintEnd_spec 4 n (n := n)).1
    exact ⟨_, rfl, fun m hm => State.notMem_maintEnd hm, hleaves.sameMem, hleaves.sameRegsBut⟩

end Sys2Proof.Machine
end

section
/-! PROOF. Re-key sweeps and Clearing (R533–R537, R542–R545). -/
namespace Sys2Proof.Machine

/-! Sweeps. -/

theorem sweeps_locks (s : State) (n k : Nat) (hpart : s.stackPart n = some k) (hrot : s.fld (rZenXts k) 63 63 = 1)
    (hmore : s.sweepNext k n < granulesPerStack) (hfree : SMap.get (s.part k).locked n = none) :
    (SMap.get (s.part k).lockAt n = 0 ∨ SMap.get (s.part k).lockAt n + 23894 ≤ s.clk.wall + 1 →
      ∃ t : State, exec (.rekeyGranuleLock n) s = .next t ∧ SMap.get (t.part k).locked n = some (s.sweepNext k n) ∧
        SMap.get (t.part k).lockAt n = s.clk.wall + 1 ∧ t.agenda = s.agenda ∧ SameMem s t ∧ SameRegsBut [] s t) ∧
    (SMap.get (s.part k).lockAt n ≠ 0 → s.clk.wall + 1 < SMap.get (s.part k).lockAt n + 23894 →
      ∃ t : State, exec (.rekeyGranuleLock n) s = .next t ∧ t.part k = s.part k ∧
        t.agenda = s.agenda ++ [({ dom := none, at_ := s.clk.wall + (SMap.get (s.part k).lockAt n + 23894 - (s.clk.wall + 1)),
                                   act := .cmd (.rekeyGranuleLock n) } : Due)] ∧ SameMem s t ∧ SameRegsBut [] s t) := by
  have hexec : exec (.rekeyGranuleLock n) s =
      if SMap.get (s.part k).lockAt n ≠ 0 ∧ s.clk.wall + 1 < SMap.get (s.part k).lockAt n + 23894 then
        .next (s.laterW (SMap.get (s.part k).lockAt n + 23894 - (s.clk.wall + 1)) (.rekeyGranuleLock n))
      else .next (s.modPart k fun p => { p with
        locked := SMap.set p.locked n (some (s.sweepNext k n)), lockAt := SMap.set p.lockAt n (s.clk.wall + 1) }) := by
    show execRekeyGranuleLock n s = _
    unfold execRekeyGranuleLock
    rw [hpart]
    dsimp only
    rw [if_neg]
    rintro (h | h | h)
    · omega
    · omega
    · rw [hfree] at h
      exact Bool.false_ne_true h
  refine ⟨fun hdue => ?_, fun hlast hsoon => ?_⟩
  · rw [if_neg (by omega)] at hexec
    have hleaves : Leaves (· ∈ []) s (s.modPart k fun p => { p with
      locked := SMap.set p.locked n (some (s.sweepNext k n)), lockAt := SMap.set p.lockAt n (s.clk.wall + 1) }) := .modPart .refl
    exact ⟨_, hexec, by rw [State.part_modPart_same, SMap.get_set_same], by rw [State.part_modPart_same, SMap.get_set_same], rfl, hleaves.sameMem,
      hleaves.sameRegsBut⟩
  · rw [if_pos ⟨hlast, hsoon⟩] at hexec
    have hleaves : Leaves (· ∈ []) s (s.laterW (SMap.get (s.part k).lockAt n + 23894 - (s.clk.wall + 1)) (.rekeyGranuleLock n)) := .laterW .refl
    exact ⟨_, hexec, rfl, rfl, hleaves.sameMem, hleaves.sameRegsBut⟩

theorem sweeps_migrates (s : State) (n k g : Nat) (hpart : s.stackPart n = some k) (hlocked : SMap.get (s.part k).locked n = some g)
    (hleft : 1 < s.fld (rZenXts k) 17 0) :
    ∃ t : State, exec (.granuleMigrated n) s = .next t ∧ SMap.get (t.part k).locked n = none ∧
      SMap.get (t.part k).granules (n * 32768 + g) = (s.fld (rZenXts k) 62 62 == 1) ∧ t.sweepNext k n = g + 1 ∧
      t.reads = s.reads.map (fun r => if (r.kind = 6 ∨ (sdesc r.desc).src = 0) ∧ r.range.1 / 2 ^ 36 = n then { r with rekey := true } else r) ∧
      t.fld (rZenXts k) 17 0 = s.fld (rZenXts k) 17 0 - 1 ∧
      t.agenda = s.agenda ++ [({ dom := none, at_ := s.clk.wall, act := .cmd (.rekeyGranuleLock n) } : Due)] ∧ SameMem s t ∧
      SameRegsBut [rZenXts k] s t := by
  have hcount : (s.flipGranule k n g).fld (rZenXts k) 17 0 = s.fld (rZenXts k) 17 0 := rfl
  have hexec : exec (.granuleMigrated n) s = .next
      (((s.flipGranule k n g).setFld (rZenXts k) 17 0 (s.fld (rZenXts k) 17 0 - 1)).laterW 0 (.rekeyGranuleLock n)) := by
    have hmore : s.fld (rZenXts k) 17 0 - 1 ≠ 0 := by omega
    refine (execGranuleMigrated_of_locked hpart hlocked).trans (congrArg Host.Outcome.next ?_)
    dsimp only
    rw [hcount, if_neg hmore]
  have hport := s.part_flipGranule k n g
  have hleaves : Leaves (· ∈ [rZenXts k]) s (s.flipGranule k n g) := Leaves.refl.next (.flipGranule (P := (· ∈ [rZenXts k])) s k n g) fun _ h => h
  have hreads : (s.flipGranule k n g).reads =
    s.reads.map (fun r => if (r.kind = 6 ∨ (sdesc r.desc).src = 0) ∧ r.range.1 / 2 ^ 36 = n then { r with rekey := true } else r) := rfl
  have hagenda : (s.flipGranule k n g).agenda = s.agenda := rfl
  have hclk : (s.flipGranule k n g).clk = s.clk := rfl
  generalize s.flipGranule k n g = u at *
  have hpart' : ((u.setFld (rZenXts k) 17 0 (s.fld (rZenXts k) 17 0 - 1)).laterW 0 (.rekeyGranuleLock n)).part k =
    (s.part k).flipGranule n g (s.fld (rZenXts k) 62 62 == 1) := hport
  have hall : Leaves (· ∈ [rZenXts k]) s ((u.setFld (rZenXts k) 17 0 (s.fld (rZenXts k) 17 0 - 1)).laterW 0 (.rekeyGranuleLock n)) :=
    .laterW (.setFld hleaves (by simp))
  have hlt : s.fld (rZenXts k) 17 0 - 1 < 2 ^ 18 := lt_of_le_of_lt (Nat.sub_le _ _) (s.fld_lt (rZenXts k) 17 0)
  refine ⟨_, hexec, ?_, ?_, ?_, hreads, ?_, ?_, hall.sameMem, hall.sameRegsBut⟩
  · rw [hpart']
    exact SMap.get_erase_same _ n
  · rw [hpart']
    exact SMap.get_set_same (s.part k).granules _ _
  · rw [State.sweepNext, hpart', Part.flipGranule]
    exact SMap.get_set_same (s.part k).sweepAt n (g + 1)
  · rw [State.fld_laterW, State.fld_setFld_same _ _ _ _ _ (by omega) (by omega)]
    exact Nat.mod_eq_of_lt hlt
  · rw [← hagenda, ← hclk]
    rfl

theorem sweeps_nothing (s : State) (n k : Nat) (hpart : s.stackPart n = some k) :
    (s.fld (rZenXts k) 63 63 = 0 ∨ granulesPerStack ≤ s.sweepNext k n ∨ (SMap.get (s.part k).locked n).isSome = true →
      exec (.rekeyGranuleLock n) s = .next s) ∧
    (SMap.get (s.part k).locked n = none → exec (.granuleMigrated n) s = .next s) := by
  refine ⟨fun hnot => ?_, fun hfree => ?_⟩
  · show execRekeyGranuleLock n s = _
    unfold execRekeyGranuleLock
    rw [hpart]
    exact if_pos hnot
  · show execGranuleMigrated n s = _
    unfold execGranuleMigrated
    rw [hpart]
    dsimp only
    rw [hfree]

theorem sweeps_unowned (s : State) (n : Nat) (hpart : s.stackPart n = none) :
    exec (.rekeyGranuleLock n) s = .next s ∧ exec (.granuleMigrated n) s = .next s := by
  refine ⟨?_, ?_⟩
  · show execRekeyGranuleLock n s = _
    unfold execRekeyGranuleLock
    rw [hpart]
  · show execGranuleMigrated n s = _
    unfold execGranuleMigrated
    rw [hpart]

/-! The steps of Clearing. -/

/-- A partition that goes on to the next step of Clearing (R543). -/
def State.clearNext (s : State) (k n : Nat) : State := s.modPart k fun p => { p with clearStep := n + 1 }

theorem State.part_clearNext (s : State) (k n : Nat) : (s.clearNext k n).part k = { s.part k with clearStep := n + 1 } := State.part_modPart_same s k _

theorem Leaves.clearNext {P : Nat → Prop} {s t : State} {k n : Nat} (h : Leaves P s t) : Leaves P s (t.clearNext k n) := h.modPart

/-- The steps of Clearing, one after another (R543). -/
theorem execClearingStep_of_clearing {s : State} {k n : Nat} (b : List Nat) (hstate : s.pstate k = 3) (hn : (s.part k).clearStep = n)
    (hlo : 1 ≤ n) (hhi : n ≤ 5) : exec (.clearingStep k b) s =
      if n = 1 then .next (s.clearNext k n)
      else if n = 2 then .next ((s.clearKeys k).clearNext k n)
      else if n = 3 then .next ((s.clearMemory k).clearNext k n)
      else if n = 4 then .next (((s.clearRegs k).setPstate k 3).clearNext k n)
      else match (s.verifyPass b).2 with
        | none => .next ((s.verifyPass b).1.clearNext k n)
        | some l =>
          let u := (s.verifyPass b).1.eventStack (l / 2 ^ 28) 0x0504 (l / 2 ^ 28) (l % 2 ^ 28)
          .next ((((((u.modPart k fun p => { p with clearStep := 0, tickets := [] }).setPstate k 4).maintEnd 7 k).finishTickets (u.part k).tickets 0x2A l)).showPstat) := by
  show execClearingStep k b s = _
  unfold execClearingStep
  dsimp only
  rw [hn, if_neg (by omega)]
  rfl

theorem State.awaitKeys_keeps {β : Type} (g : State → β) (hg : ∀ (s : State) r p, g { s with regs := r, ports := p } = g s) (s : State) (p : Nat) :
    g (s.awaitKeys p) = g s := by
  unfold State.awaitKeys
  split
  · rfl
  · dsimp only
    split
    · exact hg s _ _
    · exact hg s s.regs _

theorem Leaves.awaitKeys {P : Nat → Prop} {s t : State} {p : Nat} (h : Leaves P s t) (hp : P (rLnkStatus p)) : Leaves P s (t.awaitKeys p) :=
  .ite h (.ite (.setFld h.modPort hp) h.modPort)

/-- What step 2 of Clearing zeroises (R543). -/
def Part.keysCleared (p : Part) (keys : SMap (Option Nat)) : Part :=
  { p with keys := keys, granules := [], sweepAt := [], locked := [], lockAt := [], signers := [], resultKey := none, exportSeq := 0 }

/-- A confidential partition's new key drawn (R543). -/
def State.keyDrawn (s : State) (k : Nat) : State := if s.conf k then s.drawKey.2 else s

/-- The keys of a partition zeroised, before its ports await new ones and its recovery table goes. -/
def State.keysCleared (s : State) (k : Nat) : State :=
  ((s.keyDrawn k).modPart k fun p => p.keysCleared (if (s.keyDrawn k).conf k then [(0, some s.drawKey.1)] else [])).setReg (rZenXts k) 0

theorem State.clearKeys_eq (s : State) (k : Nat) : ∃ hbm, s.clearKeys k =
    { (maskList 6 ((s.keysCleared k).fld (rZenPart k) 53 48)).foldl (fun s p => s.awaitKeys p) (s.keysCleared k) with hbm := hbm } := by
  exact ⟨_, rfl⟩

theorem sweeps_step2 (s : State) (k : Nat) (b : List Nat) (hk : k < 4) (hstate : s.pstate k = 3) (hstep : (s.part k).clearStep = 2) :
    ∃ t : State, exec (.clearingStep k b) s = .next t ∧ (t.part k).clearStep = 3 ∧ (t.part k).signers = [] ∧
      (t.part k).resultKey = none ∧ t.reg (rZenXts k) = 0#64 ∧ t.store = s.store ∧ t.lstore = s.lstore := by
  have hexec := execClearingStep_of_clearing b hstate hstep (by omega) (by omega)
  rw [if_neg (by omega), if_pos rfl] at hexec
  obtain ⟨hbm, heq⟩ := s.clearKeys_eq k
  have hport : (s.keysCleared k).part k =
      ((s.keyDrawn k).part k).keysCleared (if (s.keyDrawn k).conf k then [(0, some s.drawKey.1)] else []) :=
    State.part_modPart_same _ k fun p => p.keysCleared (if (s.keyDrawn k).conf k then [(0, some s.drawKey.1)] else [])
  have hreg : (s.keysCleared k).reg (rZenXts k) = 0#64 := State.reg_setReg_same _ _ _
  have hmem : (s.keyDrawn k).store = s.store ∧ (s.keyDrawn k).lstore = s.lstore := by
    unfold State.keyDrawn
    split <;> exact ⟨rfl, rfl⟩
  have hmem' : (s.keysCleared k).store = s.store ∧ (s.keysCleared k).lstore = s.lstore := hmem
  have hports : Leaves (fun r => ∃ p, r = rLnkStatus p) (s.keysCleared k)
      ((maskList 6 ((s.keysCleared k).fld (rZenPart k) 53 48)).foldl (fun s p => s.awaitKeys p) (s.keysCleared k)) :=
    .foldl (fun _ p _ h => h.awaitKeys ⟨p, rfl⟩) .refl
  have hkept : ((maskList 6 ((s.keysCleared k).fld (rZenPart k) 53 48)).foldl (fun s p => s.awaitKeys p) (s.keysCleared k)).part k =
      (s.keysCleared k).part k := foldl_keeps (fun v => v.part k) (State.awaitKeys_keeps (fun v => v.part k) fun _ _ _ => rfl) _ _
  have hxts : ¬∃ p, rZenXts k = rLnkStatus p := by
    rintro ⟨p, hp⟩
    simp only [rZenXts, rLnkStatus] at hp
    omega
  generalize (maskList 6 ((s.keysCleared k).fld (rZenPart k) 53 48)).foldl (fun s p => s.awaitKeys p) (s.keysCleared k) = u at *
  have hpart : ((s.clearKeys k).clearNext k 2).part k = { u.part k with clearStep := 3 } := by
    rw [State.part_clearNext, heq]
    rfl
  refine ⟨_, hexec, by rw [hpart], ?_, ?_, ?_, ?_, ?_⟩
  · rw [hpart, hkept, hport]
    rfl
  · rw [hpart, hkept, hport]
    rfl
  · rw [heq]
    exact (hports.reg _ hxts).trans hreg
  · rw [heq]
    exact hports.store.trans hmem'.1
  · rw [heq]
    exact hports.lstore.trans hmem'.2

/-- A byte of a memory from which all but some keys were taken. -/
theorem memGet_filter (m : List Host.Cell) (p : Nat → Bool) (a : Nat) :
    memGet (m.filter fun c => !p c.1) a = if p a then 0 else memGet m a := by
  induction m with
  | nil => cases p a <;> rfl
  | cons c m ih =>
    unfold memGet at ih ⊢
    cases hp : p c.1 with
    | true =>
      rw [List.filter_cons_of_neg (by simp [hp]), ih]
      by_cases ha : c.1 = a
      · rw [← ha, hp, if_pos rfl, if_pos rfl]
      · rw [SMap.get, if_neg ha]
    | false =>
      rw [List.filter_cons_of_pos (by simp [hp])]
      by_cases ha : c.1 = a
      · subst ha
        simp [SMap.get, hp]
      · rw [SMap.get, SMap.get, if_neg ha, if_neg ha, ih]

theorem sweeps_step3 (s : State) (k : Nat) (b : List Nat) (hstate : s.pstate k = 3) (hstep : (s.part k).clearStep = 3) :
    ∃ t : State, exec (.clearingStep k b) s = .next t ∧ (t.part k).clearStep = 4 ∧
      (∀ j ∈ s.partCores k, ∀ a, a < 2 ^ 25 → memGet t.store (storeKey j a) = 0) ∧
      (∀ j ∈ s.partCores k, ∀ a, a < 0xFB8000000 → memGet t.hbm (2 * j * 2 ^ 36 + a) = 0 ∧ memGet t.hbm ((2 * j + 1) * 2 ^ 36 + a) = 0) ∧
      (∀ a, a / 2 ^ 37 ∉ s.partCores k → memGet t.hbm a = memGet s.hbm a) ∧ SameRegsBut [] s t := by
  have hexec := execClearingStep_of_clearing b hstate hstep (by omega) (by omega)
  rw [if_neg (by omega), if_neg (by omega), if_pos rfl] at hexec
  have hstore : ((s.clearMemory k).clearNext k 3).store = s.store.filter fun c => !(s.partCores k).contains (c.1 / 2 ^ 25) := rfl
  have hhbm : ((s.clearMemory k).clearNext k 3).hbm = s.hbm.filter fun c => !((s.partCores k).contains (c.1 / 2 ^ 36 / 2) &&
    (decide (c.1 % 2 ^ 36 < 0xFB8000000) || (decide (0xFBF000000 ≤ c.1 % 2 ^ 36) && decide (c.1 % 2 ^ 36 < 0xFBF020000)))) := rfl
  refine ⟨_, hexec, by rw [State.part_clearNext], fun j hj a ha => ?_, fun j hj a ha => ⟨?_, ?_⟩, fun a ha => ?_, fun _ _ => rfl⟩
  · have hcore : storeKey j a / 2 ^ 25 = j := by
      unfold storeKey
      omega
    rw [hstore, memGet_filter _ fun x => (s.partCores k).contains (x / 2 ^ 25), if_pos]
    rw [hcore]
    exact List.contains_iff_mem.mpr hj
  · have hcore : (2 * j * 2 ^ 36 + a) / 2 ^ 36 / 2 = j := by omega
    have hoff : (2 * j * 2 ^ 36 + a) % 2 ^ 36 < 0xFB8000000 := by omega
    rw [hhbm, memGet_filter _ fun x => (s.partCores k).contains (x / 2 ^ 36 / 2) &&
      (decide (x % 2 ^ 36 < 0xFB8000000) || (decide (0xFBF000000 ≤ x % 2 ^ 36) && decide (x % 2 ^ 36 < 0xFBF020000))), if_pos]
    simp only [hcore, hoff, List.contains_iff_mem.mpr hj, decide_true, Bool.true_or, Bool.and_self]
  · have hcore : ((2 * j + 1) * 2 ^ 36 + a) / 2 ^ 36 / 2 = j := by omega
    have hoff : ((2 * j + 1) * 2 ^ 36 + a) % 2 ^ 36 < 0xFB8000000 := by omega
    rw [hhbm, memGet_filter _ fun x => (s.partCores k).contains (x / 2 ^ 36 / 2) &&
      (decide (x % 2 ^ 36 < 0xFB8000000) || (decide (0xFBF000000 ≤ x % 2 ^ 36) && decide (x % 2 ^ 36 < 0xFBF020000))), if_pos]
    simp only [hcore, hoff, List.contains_iff_mem.mpr hj, decide_true, Bool.true_or, Bool.and_self]
  · have hcore : a / 2 ^ 36 / 2 = a / 2 ^ 37 := by omega
    have hnot : (s.partCores k).contains (a / 2 ^ 37) = false := by
      rw [← Bool.not_eq_true]
      exact mt List.contains_iff_mem.mp ha
    rw [hhbm, memGet_filter _ fun x => (s.partCores k).contains (x / 2 ^ 36 / 2) &&
      (decide (x % 2 ^ 36 < 0xFB8000000) || (decide (0xFBF000000 ≤ x % 2 ^ 36) && decide (x % 2 ^ 36 < 0xFBF020000))), if_neg]
    rw [hcore, hnot]
    exact Bool.false_ne_true

theorem State.pstate_setPstate (s : State) (k : Nat) {v : Nat} (hv : v < 8) : (s.setPstate k v).pstate k = v :=
  (State.fld_setFld_same s (rZenPart k) 59 57 v (by omega) (by omega)).trans (Nat.mod_eq_of_lt hv)

theorem sweeps_step4 (s : State) (k : Nat) (b : List Nat) (hstate : s.pstate k = 3) (hstep : (s.part k).clearStep = 4) :
    ∃ t : State, exec (.clearingStep k b) s = .next t ∧ (t.part k).clearStep = 5 ∧ t.pstate k = 3 ∧ SameMem s t := by
  have hexec := execClearingStep_of_clearing b hstate hstep (by omega) (by omega)
  rw [if_neg (by omega), if_neg (by omega), if_neg (by omega), if_pos rfl] at hexec
  have hleaves : Leaves (fun _ => True) s (((s.clearRegs k).setPstate k 3).clearNext k 4) :=
    .clearNext (.setFld ⟨rfl, rfl, rfl, rfl, fun _ h => absurd trivial h⟩ trivial)
  exact ⟨_, hexec, by rw [State.part_clearNext], State.pstate_setPstate _ k (by omega), hleaves.sameMem⟩

theorem rMemCrcFail_notMem_spared (n : Nat) {e : Nat} (he : e < 16) : rMemCrcFail n ∉ [rMemRemap n e, rMemStatus n] := by
  simp only [List.mem_cons, List.not_mem_nil, or_false, rMemCrcFail, rMemRemap, rMemStatus]
  omega

/-- Showing the partitions' states on the pins changes the pins alone (R544). -/
theorem State.showPstat_keeps {β : Type} (g : State → β) (hg : ∀ (s : State) p, g { s with pstat := p } = g s) (s : State) : g s.showPstat = g s :=
  hg s _

theorem Leaves.showPstat {P : Nat → Prop} {s t : State} (h : Leaves P s t) : Leaves P s t.showPstat := .upd h

/-- One line that fails step 5: it is counted, and remapped where a spare is left (R543, R545). -/
theorem State.verifyPass_one (s : State) (l : Nat) (hnew : s.remapOf (l / 2 ^ 28) (l % 2 ^ 28) = none) :
    s.verifyPass [l] = if 16 ≤ s.fld (rMemStatus (l / 2 ^ 28)) 4 0 then (s.bump (rMemCrcFail (l / 2 ^ 28)) 1, some l)
      else ((s.bump (rMemCrcFail (l / 2 ^ 28)) 1).spared (l / 2 ^ 28) (l % 2 ^ 28), none) := by
  have hleaves : Leaves (· = rMemCrcFail (l / 2 ^ 28)) s (s.bump (rMemCrcFail (l / 2 ^ 28)) 1) := .bump .refl rfl
  have hnew' : (s.bump (rMemCrcFail (l / 2 ^ 28)) 1).remapOf (l / 2 ^ 28) (l % 2 ^ 28) = none :=
    (State.remapOf_congr _ fun e he => hleaves.reg _ (rMemRemap_ne_rMemCrcFail _ _ he)).trans hnew
  have hcount : (s.bump (rMemCrcFail (l / 2 ^ 28)) 1).fld (rMemStatus (l / 2 ^ 28)) 4 0 = s.fld (rMemStatus (l / 2 ^ 28)) 4 0 :=
    hleaves.fld (by simp only [rMemStatus, rMemCrcFail]; omega) 4 0
  unfold State.verifyPass
  rw [List.foldl_cons, List.foldl_nil]
  dsimp only
  rw [State.remapLine_of_new hnew', hcount]
  by_cases hspent : 16 ≤ s.fld (rMemStatus (l / 2 ^ 28)) 4 0
  · rw [if_pos hspent, if_pos hspent]
  · rw [if_neg hspent, if_neg hspent]

theorem sweeps_remapped (s : State) (k l : Nat) (hstate : s.pstate k = 3) (hstep : (s.part k).clearStep = 5)
    (hnew : s.remapOf (l / 2 ^ 28) (l % 2 ^ 28) = none) (hfree : s.fld (rMemStatus (l / 2 ^ 28)) 4 0 < 16) :
    ∃ t : State, exec (.clearingStep k [l]) s = .next t ∧ (t.part k).clearStep = 6 ∧ (t.remapOf (l / 2 ^ 28) (l % 2 ^ 28)).isSome = true ∧
      t.fld (rMemCrcFail (l / 2 ^ 28)) 47 0 = min (s.fld (rMemCrcFail (l / 2 ^ 28)) 47 0 + 1) (2 ^ 48 - 1) ∧ SameMem s t ∧
      SameRegsBut [rMemCrcFail (l / 2 ^ 28), rMemRemap (l / 2 ^ 28) (s.fld (rMemStatus (l / 2 ^ 28)) 4 0), rMemStatus (l / 2 ^ 28)] s t := by
  have hexec := execClearingStep_of_clearing [l] hstate hstep (by omega) (by omega)
  rw [if_neg (by omega), if_neg (by omega), if_neg (by omega), if_neg (by omega), s.verifyPass_one l hnew, if_neg (Nat.not_le.mpr hfree)] at hexec
  dsimp only at hexec
  have hbump : Leaves (· = rMemCrcFail (l / 2 ^ 28)) s (s.bump (rMemCrcFail (l / 2 ^ 28)) 1) := .bump .refl rfl
  have hcrc : (s.bump (rMemCrcFail (l / 2 ^ 28)) 1).fld (rMemCrcFail (l / 2 ^ 28)) 47 0 =
    min (s.fld (rMemCrcFail (l / 2 ^ 28)) 47 0 + 1) (2 ^ 48 - 1) := State.fld_bump_same _ _ _
  have hcount : (s.bump (rMemCrcFail (l / 2 ^ 28)) 1).fld (rMemStatus (l / 2 ^ 28)) 4 0 = s.fld (rMemStatus (l / 2 ^ 28)) 4 0 :=
    hbump.fld (by simp only [rMemStatus, rMemCrcFail]; omega) 4 0
  generalize s.bump (rMemCrcFail (l / 2 ^ 28)) 1 = u at *
  obtain ⟨hset, -, -, hleft⟩ := u.spared_spec (n := l / 2 ^ 28) (l % 2 ^ 28) (by rwa [hcount])
  rw [hcount] at hset hleft
  have hkeep : (u.spared (l / 2 ^ 28) (l % 2 ^ 28)).fld (rMemCrcFail (l / 2 ^ 28)) 47 0 = u.fld (rMemCrcFail (l / 2 ^ 28)) 47 0 := by
    exact hleft.fld (rMemCrcFail_notMem_spared _ hfree) 47 0
  have hfound : ((u.spared (l / 2 ^ 28) (l % 2 ^ 28)).remapOf (l / 2 ^ 28) (l % 2 ^ 28)).isSome = true := by
    unfold State.remapOf
    rw [List.find?_isSome]
    refine ⟨s.fld (rMemStatus (l / 2 ^ 28)) 4 0, List.mem_range.mpr hfree, ?_⟩
    have hline : l % 2 ^ 28 % 2 ^ 28 = l % 2 ^ 28 := Nat.mod_mod _ _
    have hlt : l % 2 ^ 28 < 2 ^ 28 := Nat.mod_lt _ (by norm_num)
    have hnat : (BitVec.ofNat 64 (2 ^ 63 + l % 2 ^ 28 % 2 ^ 28)).toNat = 2 ^ 63 + l % 2 ^ 28 := by
      rw [BitVec.toNat_ofNat, hline]
      exact Nat.mod_eq_of_lt (by omega)
    have hvalid : getF (BitVec.ofNat 64 (2 ^ 63 + l % 2 ^ 28 % 2 ^ 28)) 63 63 = 1 := by
      unfold getF
      rw [hnat]
      omega
    have hshown : getF (BitVec.ofNat 64 (2 ^ 63 + l % 2 ^ 28 % 2 ^ 28)) 27 0 = l % 2 ^ 28 := by
      unfold getF
      rw [hnat]
      omega
    unfold State.fld at hset ⊢
    rw [hset, hvalid, hshown]
    simp
  have hall : Leaves (· ∈ [rMemCrcFail (l / 2 ^ 28), rMemRemap (l / 2 ^ 28) (s.fld (rMemStatus (l / 2 ^ 28)) 4 0), rMemStatus (l / 2 ^ 28)]) s
      (u.spared (l / 2 ^ 28) (l % 2 ^ 28)) :=
    (hbump.mono fun r hr => List.mem_cons.mpr (.inl hr)).trans (hleft.mono fun r hr => List.mem_cons_of_mem _ hr)
  exact ⟨_, hexec, by rw [State.part_clearNext], hfound, hkeep.trans hcrc, hall.clearNext.sameMem, hall.clearNext.sameRegsBut⟩

theorem rZenPart_notMem_maintRegs {k : Nat} (hk : k < 4) : rZenPart k ∉ maintRegs := by interval_cases k <;> decide

theorem rZenPart_notMem_eventRegs {k : Nat} (hk : k < 4) : rZenPart k ∉ eventRegs := by interval_cases k <;> decide

theorem sweeps_quarantined (s : State) (k l : Nat) (hk : k < 4) (hstate : s.pstate k = 3) (hstep : (s.part k).clearStep = 5)
    (hnew : s.remapOf (l / 2 ^ 28) (l % 2 ^ 28) = none) (hspent : 16 ≤ s.fld (rMemStatus (l / 2 ^ 28)) 4 0) (hroom : s.evq.length < 1024)
    (htickets : (s.part k).tickets = []) :
    ∃ (t : State) (e : EventRec), exec (.clearingStep k [l]) s = .next t ∧ t.pstate k = 4 ∧ (t.part k).clearStep = 0 ∧ t.evq = s.evq ++ [e] ∧
      e.code = 0x0504 ∧ SameMem s t ∧ SameRegsBut (rMemCrcFail (l / 2 ^ 28) :: rZenPart k :: (maintRegs ++ eventRegs)) s t := by
  have hexec := execClearingStep_of_clearing [l] hstate hstep (by omega) (by omega)
  rw [if_neg (by omega), if_neg (by omega), if_neg (by omega), if_neg (by omega), s.verifyPass_one l hnew, if_pos hspent] at hexec
  dsimp only at hexec
  have hbump : Leaves (· ∈ rMemCrcFail (l / 2 ^ 28) :: rZenPart k :: (maintRegs ++ eventRegs)) s
      ((s.bump (rMemCrcFail (l / 2 ^ 28)) 1).eventStack (l / 2 ^ 28) 0x0504 (l / 2 ^ 28) (l % 2 ^ 28)) :=
    .raise (.bump .refl (by simp)) fun r hr => List.mem_cons_of_mem _ (List.mem_cons_of_mem _ (List.mem_append_right _ hr))
  obtain ⟨e, hevq, hcode⟩ := State.exists_evq_eventStack (s := s.bump (rMemCrcFail (l / 2 ^ 28)) 1) (l / 2 ^ 28) 0x0504 (l / 2 ^ 28) (l % 2 ^ 28) hroom
  have htick : (((s.bump (rMemCrcFail (l / 2 ^ 28)) 1).eventStack (l / 2 ^ 28) 0x0504 (l / 2 ^ 28) (l % 2 ^ 28)).part k).tickets = [] :=
    (congrArg (fun m => (SMap.get m k).tickets) (State.parts_raise (s.bump (rMemCrcFail (l / 2 ^ 28)) 1) _)).trans htickets
  have hq : (s.bump (rMemCrcFail (l / 2 ^ 28)) 1).evq = s.evq := rfl
  rw [hq] at hevq
  generalize (s.bump (rMemCrcFail (l / 2 ^ 28)) 1).eventStack (l / 2 ^ 28) 0x0504 (l / 2 ^ 28) (l % 2 ^ 28) = u at *
  have hset : (((u.modPart k fun p => { p with clearStep := 0, tickets := [] }).setPstate k 4)).pstate k = 4 := State.pstate_setPstate _ k (by omega)
  have hpart : (((u.modPart k fun p => { p with clearStep := 0, tickets := [] }).setPstate k 4).part k).clearStep = 0 := by
    rw [State.setPstate, State.part_setFld, State.part_modPart_same]
  have hleaves : Leaves (· ∈ rMemCrcFail (l / 2 ^ 28) :: rZenPart k :: (maintRegs ++ eventRegs)) s
      ((u.modPart k fun p => { p with clearStep := 0, tickets := [] }).setPstate k 4) := .setFld hbump.modPart (by simp)
  have hq' : ((u.modPart k fun p => { p with clearStep := 0, tickets := [] }).setPstate k 4).evq = u.evq := rfl
  rw [htick] at hexec
  generalize (u.modPart k fun p => { p with clearStep := 0, tickets := [] }).setPstate k 4 = v at *
  have hend : Leaves (· ∈ rMemCrcFail (l / 2 ^ 28) :: rZenPart k :: (maintRegs ++ eventRegs)) s (v.maintEnd 7 k) :=
    hleaves.next (.maintEnd v 7 k) fun r hr => List.mem_cons_of_mem _ (List.mem_cons_of_mem _ (List.mem_append_left _ hr))
  have hstate' : (v.maintEnd 7 k).pstate k = 4 := ((Reports.maintEnd v 7 k).fld (rZenPart_notMem_maintRegs hk) 59 57).trans hset
  have hparts : (v.maintEnd 7 k).part k = v.part k := congrArg (fun m => SMap.get m k) (State.parts_maintEnd v 7 k)
  have hevq' : (v.maintEnd 7 k).evq = s.evq ++ [e] := (State.evq_maintEnd v 7 k).trans (hq'.trans hevq)
  have hnone : (v.maintEnd 7 k).finishTickets [] 0x2A l = v.maintEnd 7 k := rfl
  rw [hnone] at hexec
  generalize v.maintEnd 7 k = w at *
  refine ⟨_, e, hexec, ?_, ?_, ?_, hcode, hend.showPstat.sameMem, hend.showPstat.sameRegsBut⟩
  · rw [State.showPstat_keeps (fun x => x.pstate k) fun _ _ => rfl]
    exact hstate'
  · rw [State.showPstat_keeps (fun x => x.part k) fun _ _ => rfl, hparts, hpart]
  · rw [State.showPstat_keeps State.evq fun _ _ => rfl, hevq']

/-! The end of Clearing. -/

/-- A cross-rack port of a cleared partition that awaits keys begins a handshake (R543). -/
def State.rekeyPort (s : State) (p : Nat) : State := if s.crossRack p && s.linkState p == 3 then s.laterW 0 (.keySetRollover p) else s

theorem State.rekeyPort_keeps {β : Type} (g : State → β) (hg : ∀ (s : State) a, g { s with agenda := a } = g s) (s : State) (p : Nat) :
    g (s.rekeyPort p) = g s := by
  unfold State.rekeyPort
  split
  · exact hg s _
  · rfl

theorem Leaves.rekeyPort {P : Nat → Prop} {s t : State} {p : Nat} (h : Leaves P s t) : Leaves P s (t.rekeyPort p) := .ite h.laterW h

theorem sweeps_clearDone (s : State) (k : Nat) (hk : k < 4) (hstate : s.pstate k = 3) (hstep : (s.part k).clearStep = 6)
    (htickets : (s.part k).tickets = []) (hroom : s.evq.length < 1024) :
    ∃ (t : State) (e : EventRec), exec (.clearDone k) s = .next t ∧ t.pstate k = 0 ∧ (t.part k).clearStep = 0 ∧ t.evq = s.evq ++ [e] ∧
      e.code = 0x0503 ∧ SameMem s t ∧ SameRegsBut (rZenPart k :: (maintRegs ++ eventRegs)) s t := by
  have hexec : exec (.clearDone k) s = .next
      (let v := (s.modPart k fun p => { p with clearStep := 0, tickets := [], pstatFlip := false }).setPstate k 0
      let w := ((v.maintEnd 7 k).eventCore k 0x0503 0 0).showPstat
      let x := (maskList 6 (w.fld (rZenPart k) 53 48)).foldl State.rekeyPort w
      (x.msix (x.owner k) 0).finishTickets [] resOk 0) := by
    show execClearDone k s = _
    unfold execClearDone
    rw [if_neg (by omega), htickets]
    rfl
  have hset : ((s.modPart k fun p => { p with clearStep := 0, tickets := [], pstatFlip := false }).setPstate k 0).pstate k = 0 :=
    State.pstate_setPstate _ k (by omega)
  have hpart : (((s.modPart k fun p => { p with clearStep := 0, tickets := [], pstatFlip := false }).setPstate k 0).part k).clearStep = 0 := by
    rw [State.setPstate, State.part_setFld, State.part_modPart_same]
  have hleaves : Leaves (· ∈ rZenPart k :: (maintRegs ++ eventRegs)) s
      ((s.modPart k fun p => { p with clearStep := 0, tickets := [], pstatFlip := false }).setPstate k 0) := .setFld (.modPart .refl) (by simp)
  have hq : ((s.modPart k fun p => { p with clearStep := 0, tickets := [], pstatFlip := false }).setPstate k 0).evq = s.evq := rfl
  dsimp only at hexec
  generalize (s.modPart k fun p => { p with clearStep := 0, tickets := [], pstatFlip := false }).setPstate k 0 = v at *
  have hend : Leaves (· ∈ rZenPart k :: (maintRegs ++ eventRegs)) s ((v.maintEnd 7 k).eventCore k 0x0503 0 0).showPstat :=
    .upd (.raise (hleaves.next (.maintEnd v 7 k) fun r hr => List.mem_cons_of_mem _ (List.mem_append_left _ hr))
      fun r hr => List.mem_cons_of_mem _ (List.mem_append_right _ hr))
  have hevq : (v.maintEnd 7 k).evq = s.evq := (State.evq_maintEnd v 7 k).trans hq
  obtain ⟨e, hsent, hcode⟩ := State.exists_evq_eventCore (s := v.maintEnd 7 k) k 0x0503 0 0 (by rwa [hevq])
  have hsent' : ((v.maintEnd 7 k).eventCore k 0x0503 0 0).showPstat.evq = s.evq ++ [e] := hsent.trans (by rw [hevq])
  have hstate' : ((v.maintEnd 7 k).eventCore k 0x0503 0 0).showPstat.pstate k = 0 :=
    ((Reports.eventCore (v.maintEnd 7 k) k 0x0503 0 0).fld (rZenPart_notMem_eventRegs hk) 59 57).trans
      (((Reports.maintEnd v 7 k).fld (rZenPart_notMem_maintRegs hk) 59 57).trans hset)
  have hparts : ((v.maintEnd 7 k).eventCore k 0x0503 0 0).showPstat.parts = v.parts := (State.parts_raise _ _).trans (State.parts_maintEnd v 7 k)
  generalize ((v.maintEnd 7 k).eventCore k 0x0503 0 0).showPstat = w at *
  have hports : Leaves (fun _ => False) w ((maskList 6 (w.fld (rZenPart k) 53 48)).foldl State.rekeyPort w) := .foldl (fun _ _ _ h => h.rekeyPort) .refl
  have hevq' : ((maskList 6 (w.fld (rZenPart k) 53 48)).foldl State.rekeyPort w).evq = w.evq :=
    foldl_keeps State.evq (State.rekeyPort_keeps State.evq fun _ _ => rfl) _ _
  have hparts' : ((maskList 6 (w.fld (rZenPart k) 53 48)).foldl State.rekeyPort w).parts = w.parts :=
    foldl_keeps State.parts (State.rekeyPort_keeps State.parts fun _ _ => rfl) _ _
  generalize (maskList 6 (w.fld (rZenPart k) 53 48)).foldl State.rekeyPort w = x at *
  have hmsix : Leaves (fun _ => False) x (x.msix (x.owner k) 0) := Leaves.refl.next (.msix (P := fun _ => False) x _ 0) fun _ h => h
  have hkept := QueueAndPartsKept.msix x (x.owner k) 0
  generalize x.msix (x.owner k) 0 = y at *
  have hnone : y.finishTickets [] resOk 0 = y := rfl
  rw [hnone] at hexec
  have hpath := (hports.trans hmsix)
  have hall := hend.trans (hpath.mono (Q := (· ∈ rZenPart k :: (maintRegs ++ eventRegs))) fun _ h => h.elim)
  refine ⟨_, e, hexec, (hpath.fld id 59 57).trans hstate', ?_, ?_, hcode, hall.sameMem, hall.sameRegsBut⟩
  · have hsame : y.part k = v.part k := congrArg (SMap.get · k) (hkept.parts.trans (hparts'.trans hparts))
    rw [hsame, hpart]
  · rw [hkept.evq, hevq', hsent']

theorem sweeps_pstatToggle (s : State) (k : Nat) (hstate : s.pstate k = 3) :
    ∃ t : State, exec (.pstatToggle k) s = .next t ∧ (t.part k).pstatFlip = !(s.part k).pstatFlip ∧
      t.agenda = s.agenda ++ [({ dom := none, at_ := s.clk.wall + 350000, act := .cmd (.pstatToggle k) } : Due)] ∧ SameMem s t ∧
      SameRegsBut [] s t := by
  have hexec : exec (.pstatToggle k) s = .next (((s.modPart k fun p => { p with pstatFlip := !p.pstatFlip }).showPstat).laterW 350000 (.pstatToggle k)) :=
    if_neg (not_not_intro hstate)
  have hpart : (((s.modPart k fun p => { p with pstatFlip := !p.pstatFlip }).showPstat).part k).pstatFlip = !(s.part k).pstatFlip :=
    congrArg Part.pstatFlip (State.part_modPart_same s k fun p => { p with pstatFlip := !p.pstatFlip })
  have hleaves : Leaves (· ∈ []) s (((s.modPart k fun p => { p with pstatFlip := !p.pstatFlip }).showPstat).laterW 350000 (.pstatToggle k)) :=
    .laterW (.upd (.modPart .refl))
  exact ⟨_, hexec, hpart, rfl, hleaves.sameMem, hleaves.sameRegsBut⟩

/-- Settles O33: the sweep's locks and migrations, and Clearing step by step. -/
theorem sweepsAndClearing : Obligations.SweepsAndClearing := by
  refine ⟨⟨sweeps_locks, fun s n k g _ => sweeps_migrates s n k g, sweeps_nothing, sweeps_unowned⟩, fun s k b hk hstate => ⟨fun hstep => ?_,
    sweeps_step2 s k b hk hstate, sweeps_step3 s k b hstate, sweeps_step4 s k b hstate, fun hstep hb => ?_, fun l hstep hb _ hnew => ⟨fun hfree => ?_,
      fun hspent hroom htickets => ?_⟩⟩, fun s k b => ⟨fun h => if_pos h, fun h => if_pos h, fun h => if_pos h⟩, sweeps_clearDone, sweeps_pstatToggle⟩
  · have hexec := execClearingStep_of_clearing b hstate hstep (by omega) (by omega)
    rw [if_pos rfl] at hexec
    have hleaves : Leaves (· ∈ []) s (s.clearNext k 1) := .clearNext .refl
    exact ⟨_, hexec, by rw [State.part_clearNext], hleaves.sameMem, hleaves.sameRegsBut⟩
  · subst hb
    have hexec := execClearingStep_of_clearing [] hstate hstep (by omega) (by omega)
    have hleaves : Leaves (· ∈ []) s (s.clearNext k 5) := .clearNext .refl
    exact ⟨_, hexec, by rw [State.part_clearNext], hleaves.sameMem, hleaves.sameRegsBut⟩
  · subst hb
    exact sweeps_remapped s k l hstate hstep hnew hfree
  · subst hb
    exact sweeps_quarantined s k l hk hstate hstep hnew hspent hroom htickets

end Sys2Proof.Machine
end

section
/-! PROOF. Events are taken and dumps kept (R401, R403, R620–R624, R628–R630). -/
namespace Sys2Proof.Machine

/-- The oldest event taken off the queue, numbered and logged, before it goes to a ring (R403, R621). -/
def State.taken (s : State) (e : EventRec) (r : List EventRec) : State :=
  ({ s with evq := r, zen := { s.zen with eventSeq := (s.zen.eventSeq + 1) % 2 ^ 32 } } : State).logEntry e.part (s.eventEntry e)

theorem State.length_eventEntry (s : State) (e : EventRec) : (s.eventEntry e).length = 32 := by
  simp only [State.eventEntry, State.entryAs, List.length_append, length_leBytes, List.length_cons, List.length_nil]

/-- The byte of an entry that names its partition (R621). -/
theorem State.part_eventEntry (s : State) (e : EventRec) : fieldAt (s.eventEntry e) 18 1 = e.part := by
  simp only [State.eventEntry, State.entryAs, fieldAt, slice, leBytes, List.cons_append, List.nil_append, List.drop_succ_cons, List.drop_zero,
    List.take_succ_cons, List.take_zero, leNat, Nat.mul_zero, Nat.add_zero]

theorem State.getLast?_logEntry (s : State) (part : Nat) (b : List Nat) : (SMap.get (s.logEntry part b).logs (logOf part)).getLast? = some b := by
  unfold State.logEntry
  rw [SMap.get_mod_same]
  rw [List.getLast?_drop, if_neg, List.getLast?_concat]
  rw [List.length_append, List.length_singleton]
  omega

/-- An event that is taken (R403). -/
theorem execEventTake_of_head {s : State} {e : EventRec} {r : List EventRec} (hevq : s.evq = e :: r) (hboot : s.zen.booting = false)
    (hlost : s.evLost = 0) (hshut : s.eventShut e = false) : exec .eventTake s = .next (if e.part < 4 then
      (s.taken e r).evqPut ((s.taken e r).owner e.part) (s.eventEntry e)
      else (List.range 2).foldl (fun u h => u.evqPut h (s.eventEntry e)) (s.taken e r)) := by
  have hshut' : ({ s with evq := r } : State).eventShut e = false := hshut
  show execEventTake s = _
  unfold execEventTake
  rw [hevq]
  dsimp only
  rw [if_neg (by rw [hboot]; decide), if_pos hlost, if_neg (by rw [hshut']; decide)]
  by_cases hpart : e.part < 4
  · rw [if_pos hpart, if_pos hpart]
    rfl
  · rw [if_neg hpart, if_neg hpart]
    rfl

theorem State.taken_spec (s : State) (e : EventRec) (r : List EventRec) : Leaves (fun _ => False) s (s.taken e r) ∧ (s.taken e r).evq = r ∧
    (s.taken e r).zen.eventSeq = (s.zen.eventSeq + 1) % 2 ^ 32 ∧ (s.taken e r).outbox = s.outbox ∧ (s.taken e r).hosts = s.hosts ∧
    (SMap.get (s.taken e r).logs (logOf e.part)).getLast? = some (s.eventEntry e) :=
  ⟨.upd (.upd .refl), rfl, rfl, rfl, rfl, State.getLast?_logEntry _ e.part _⟩

theorem State.evqPut_of_room {s : State} {h : Nat} {b : List Nat} (hen : s.fld (rDbgEvqCtrl + localStride * h) 63 63 = 1)
    (hnone : (s.host h).evPending = []) (hroom : s.evqFull h = false) (hpart : fieldAt b 18 1 ≠ 0xFF) :
    s.evqPut h b = (s.out (.hostWrite h ((s.reg (rDbgEvqBase + localStride * h)).toNat +
      32 * (s.fld (rDbgEvqStatus + localStride * h) 63 32 % 2 ^ s.fld (rDbgEvqCtrl + localStride * h) 4 0)) b)).setFld
      (rDbgEvqStatus + localStride * h) 63 32 (s.fld (rDbgEvqStatus + localStride * h) 63 32 + 1) := by
  unfold State.evqPut
  dsimp only
  rw [if_neg (by omega), if_pos (by rw [hnone, hroom]; rfl)]
  exact if_pos (.inl hpart)

theorem State.evqPut_of_waiting {s : State} {h : Nat} {b : List Nat} (hen : s.fld (rDbgEvqCtrl + localStride * h) 63 63 = 1)
    (hwait : (s.host h).evPending ≠ [] ∨ s.evqFull h = true) (hroom : (s.host h).evPending.length < 256) :
    s.evqPut h b = (s.modHost h fun x => { x with evPending := x.evPending ++ [b] }).evqLevel h := by
  unfold State.evqPut
  dsimp only
  rw [if_neg (by omega), if_neg, if_pos hroom]
  intro hboth
  obtain ⟨hnone, hfree⟩ := (Bool.and_eq_true _ _).mp hboth
  refine hwait.elim (fun h => h (List.isEmpty_iff.mp hnone)) fun h => ?_
  rw [h] at hfree
  exact Bool.false_ne_true hfree

theorem State.evqFull_congr {s t : State} {h : Nat} (hregs : ∀ r, t.reg r = s.reg r) (hhosts : t.hosts = s.hosts) : t.evqFull h = s.evqFull h := by
  unfold State.evqFull State.fld State.host
  rw [hregs, hregs, hhosts]

section
variable {s : State} {e : EventRec} {r : List EventRec} {h : Nat} (hevq : s.evq = e :: r) (hboot : s.zen.booting = false) (hlost : s.evLost = 0)
  (hshut : s.eventShut e = false) (hpart : e.part < 4) (howner : s.owner e.part = h) (hen : s.fld (rDbgEvqCtrl + localStride * h) 63 63 = 1)
include hevq hboot hlost hshut hpart howner hen

theorem eventsTaken_written (hnone : (s.host h).evPending = []) (hroom : s.evqFull h = false) :
    ∃ t : State, exec .eventTake s = .next t ∧ t.evq = r ∧ t.zen.eventSeq = (s.zen.eventSeq + 1) % 2 ^ 32 ∧
      t.outbox = s.outbox ++ [Output.hostWrite h ((s.reg (rDbgEvqBase + localStride * h)).toNat +
        32 * (s.fld (rDbgEvqStatus + localStride * h) 63 32 % 2 ^ s.fld (rDbgEvqCtrl + localStride * h) 4 0)) (s.eventEntry e)] ∧
      (s.eventEntry e).length = 32 ∧ (SMap.get t.logs e.part).getLast? = some (s.eventEntry e) ∧
      t.fld (rDbgEvqStatus + localStride * h) 63 32 = (s.fld (rDbgEvqStatus + localStride * h) 63 32 + 1) % 2 ^ 32 ∧ SameMem s t ∧
      SameRegsBut [rDbgEvqStatus + localStride * h] s t := by
  have hexec := execEventTake_of_head hevq hboot hlost hshut
  obtain ⟨hleaves, htevq, hseq, hout, hhosts, hlog⟩ := s.taken_spec e r
  have howner' : (s.taken e r).owner e.part = h := (hleaves.fld id 61 61).trans howner
  have hlogOf : logOf e.part = e.part := if_pos hpart
  have hbyte : fieldAt (s.eventEntry e) 18 1 ≠ 0xFF := by
    rw [State.part_eventEntry]
    omega
  rw [if_pos hpart, howner'] at hexec
  rw [hlogOf] at hlog
  generalize s.taken e r = u at *
  have hhost : u.host h = s.host h := by
    unfold State.host
    rw [hhosts]
  have hregs : ∀ x, u.reg x = s.reg x := fun x => hleaves.reg x id
  rw [State.evqPut_of_room ((hleaves.fld id 63 63).trans hen) (by rw [hhost, hnone]) ((State.evqFull_congr hregs hhosts).trans hroom) hbyte, hregs,
    hleaves.fld id, hleaves.fld id] at hexec
  generalize hb : s.eventEntry e = b at *
  generalize (s.reg (rDbgEvqBase + localStride * h)).toNat + 32 * (s.fld (rDbgEvqStatus + localStride * h) 63 32 %
    2 ^ s.fld (rDbgEvqCtrl + localStride * h) 4 0) = a at *
  have hall : Leaves (· ∈ [rDbgEvqStatus + localStride * h]) s ((u.out (.hostWrite h a b)).setFld (rDbgEvqStatus + localStride * h) 63 32
      (s.fld (rDbgEvqStatus + localStride * h) 63 32 + 1)) := .setFld (.out (hleaves.mono fun _ h => h.elim)) (by simp)
  refine ⟨_, hexec, htevq, hseq, ?_, hb ▸ s.length_eventEntry e, hlog, ?_, hall.sameMem, hall.sameRegsBut⟩
  · rw [← hout]
    rfl
  · exact State.fld_setFld_same _ _ 63 32 _ (by omega) (by omega)

theorem eventsTaken_kept (hwait : (s.host h).evPending ≠ [] ∨ s.evqFull h = true) (hroom : (s.host h).evPending.length < 256) :
    ∃ t : State, exec .eventTake s = .next t ∧ t.evq = r ∧ t.zen.eventSeq = (s.zen.eventSeq + 1) % 2 ^ 32 ∧ t.outbox = s.outbox ∧
      (t.host h).evPending = (s.host h).evPending ++ [s.eventEntry e] ∧ (SMap.get t.logs e.part).getLast? = some (s.eventEntry e) ∧
      t.fld (rDbgEvqStatus + localStride * h) 31 23 = (s.host h).evPending.length + 1 ∧ SameMem s t ∧
      SameRegsBut [rDbgEvqStatus + localStride * h] s t := by
  have hexec := execEventTake_of_head hevq hboot hlost hshut
  obtain ⟨hleaves, htevq, hseq, hout, hhosts, hlog⟩ := s.taken_spec e r
  have howner' : (s.taken e r).owner e.part = h := (hleaves.fld id 61 61).trans howner
  have hlogOf : logOf e.part = e.part := if_pos hpart
  rw [if_pos hpart, howner'] at hexec
  rw [hlogOf] at hlog
  generalize s.taken e r = u at *
  have hhost : u.host h = s.host h := by
    unfold State.host
    rw [hhosts]
  have hregs : ∀ x, u.reg x = s.reg x := fun x => hleaves.reg x id
  rw [State.evqPut_of_waiting ((hleaves.fld id 63 63).trans hen) (by rwa [hhost, State.evqFull_congr hregs hhosts]) (by rwa [hhost])] at hexec
  generalize s.eventEntry e = b at *
  have hpend : ((u.modHost h fun x => { x with evPending := x.evPending ++ [b] }).host h).evPending = (s.host h).evPending ++ [b] := by
    rw [State.host_modHost_same, hhost]
  have hmod : Leaves (fun _ => False) s (u.modHost h fun x => { x with evPending := x.evPending ++ [b] }) := hleaves.modHost
  have htevq' : (u.modHost h fun x => { x with evPending := x.evPending ++ [b] }).evq = r := htevq
  have hseq' : (u.modHost h fun x => { x with evPending := x.evPending ++ [b] }).zen.eventSeq = (s.zen.eventSeq + 1) % 2 ^ 32 := hseq
  have hout' : (u.modHost h fun x => { x with evPending := x.evPending ++ [b] }).outbox = s.outbox := hout
  have hlog' : (SMap.get (u.modHost h fun x => { x with evPending := x.evPending ++ [b] }).logs e.part).getLast? = some b := hlog
  generalize (u.modHost h fun x => { x with evPending := x.evPending ++ [b] }) = v at *
  have hall : Leaves (· ∈ [rDbgEvqStatus + localStride * h]) s (v.evqLevel h) := .setFld (hmod.mono fun _ h => h.elim) (by simp)
  have hfit : (s.host h).evPending.length + 1 < 2 ^ 9 := by omega
  refine ⟨_, hexec, htevq', hseq', hout', hpend, hlog', ?_, hall.sameMem, hall.sameRegsBut⟩
  unfold State.evqLevel
  rw [State.fld_setFld_same _ _ _ _ _ (by omega) (by omega), hpend, List.length_append, List.length_singleton]
  exact Nat.mod_eq_of_lt hfit

end

theorem eventsTaken_ofDie (s : State) (e : EventRec) (r : List EventRec) (hevq : s.evq = e :: r) (hboot : s.zen.booting = false) (hlost : s.evLost = 0)
    (hpart : 4 ≤ e.part) (hoff0 : s.fld rDbgEvqCtrl 63 63 = 0) (hoff1 : s.fld (rDbgEvqCtrl + localStride) 63 63 = 0) :
    ∃ t : State, exec .eventTake s = .next t ∧ t.evq = r ∧ t.zen.eventSeq = (s.zen.eventSeq + 1) % 2 ^ 32 ∧ t.outbox = s.outbox ∧
      (SMap.get t.logs 4).getLast? = some (s.eventEntry e) ∧ SameMem s t ∧ SameRegsBut [] s t := by
  have hshut : s.eventShut e = false := by
    unfold State.eventShut
    rw [decide_eq_false (Nat.not_lt.mpr hpart)]
    rfl
  have hexec := execEventTake_of_head hevq hboot hlost hshut
  obtain ⟨hleaves, htevq, hseq, hout, -, hlog⟩ := s.taken_spec e r
  have hlogOf : logOf e.part = 4 := if_neg (Nat.not_lt.mpr hpart)
  rw [hlogOf] at hlog
  generalize s.taken e r = u at *
  have hput0 : u.evqPut 0 (s.eventEntry e) = u := if_pos ((hleaves.fld id 63 63).trans hoff0)
  have hput1 : u.evqPut 1 (s.eventEntry e) = u := if_pos ((hleaves.fld id 63 63).trans hoff1)
  have hfold : (List.range 2).foldl (fun u h => u.evqPut h (s.eventEntry e)) u = u := by
    have hrange : List.range 2 = [0, 1] := rfl
    rw [hrange, List.foldl_cons, hput0, List.foldl_cons, hput1, List.foldl_nil]
  rw [if_neg (Nat.not_lt.mpr hpart), hfold] at hexec
  have hall : Leaves (· ∈ []) s u := hleaves.mono fun _ h => h.elim
  exact ⟨u, hexec, htevq, hseq, hout, hlog, hall.sameMem, hall.sameRegsBut⟩

/-! Dumps. -/

/-- A partition's record as its dump has been captured (R628). -/
def Part.captured (p : Part) (d : List Nat × List Nat) : Part := { p with dumpState := 2, dumpHdr := d.1, dumpBody := d.2, resetWait := false }

/-- Two changes of a record that give the same one here are one change. -/
theorem State.modPart_congr (s : State) (k : Nat) {f g : Part → Part} (h : f (s.part k) = g (s.part k)) : s.modPart k f = s.modPart k g := by
  have hparts : SMap.mod s.parts k f = SMap.mod s.parts k g := congrArg (SMap.set s.parts k) h
  unfold State.modPart
  rw [hparts]

theorem execDumpCaptureDone_of_unanswered {s : State} {k : Nat} (hstate : (s.part k).dumpState = 1) (hwait : (s.part k).waitAns = []) :
    exec (.dumpCaptureDone k) s = .next (if (s.part k).resetWait then (s.modPart k fun p => p.captured (s.dumpRecord k)).resetPart k
      else s.modPart k fun p => p.captured (s.dumpRecord k)) := by
  have hmod : (s.modPart k fun p => { p with
      dumpState := 2, dumpHdr := (s.dumpRecord k).1, dumpBody := (s.dumpRecord k).2, resetWait := false, waitAns := [] }) =
      s.modPart k fun p => p.captured (s.dumpRecord k) := State.modPart_congr s k (by rw [← hwait]; rfl)
  show execDumpCaptureDone k s = _
  unfold execDumpCaptureDone
  dsimp only
  rw [if_neg (not_not_intro hstate), hwait, hmod]
  rfl

theorem dumps_captured (s : State) (k : Nat) (hstate : (s.part k).dumpState = 1) (hreset : (s.part k).resetWait = false)
    (hwait : (s.part k).waitAns = []) :
    ∃ t : State, exec (.dumpCaptureDone k) s = .next t ∧ (t.part k).dumpState = 2 ∧ (t.part k).dumpHdr = (s.dumpRecord k).1 ∧
      (t.part k).dumpBody = (s.dumpRecord k).2 ∧ t.agenda = s.agenda ∧ SameMem s t ∧ SameRegsBut [] s t := by
  have hexec := execDumpCaptureDone_of_unanswered hstate hwait
  rw [if_neg (by rw [hreset]; decide)] at hexec
  have hpart : (s.modPart k fun p => p.captured (s.dumpRecord k)).part k = (s.part k).captured (s.dumpRecord k) := State.part_modPart_same s k _
  have hleaves : Leaves (· ∈ []) s (s.modPart k fun p => p.captured (s.dumpRecord k)) := .modPart .refl
  exact ⟨_, hexec, by rw [hpart]; rfl, by rw [hpart]; rfl, by rw [hpart]; rfl, rfl, hleaves.sameMem, hleaves.sameRegsBut⟩

/-- The slot that a dump leaves (R629, R630). -/
def State.slotOf (s : State) (k : Nat) : DumpSlot :=
  let p := s.part k
  let rec_ := p.dumpHdr.take 16 ++ leBytes 8 (s.zen.dumpSeq + 1) ++ slice p.dumpHdr 24 224 ++ leBytes 8 (s.zen.dumpSeq + 1) ++ p.dumpBody
  { valid := true, seq := s.zen.dumpSeq + 1, owner := fieldAt rec_ 12 1, code := fieldAt rec_ 64 2, conf := bitAt (fieldAt rec_ 10 1) 0, bytes := rec_ }

/-- The slot's number and the hosts told of what it overwrites (R629). -/
def State.slotted (s : State) (k : Nat) (ok : Bool) : State :=
  let u : State := { s with zen := { s.zen with dumpSeq := s.zen.dumpSeq + 1 },
                            dumps := SMap.set s.dumps (s.dumpSlot k).1 (if ok then s.slotOf k else {}) }
  if (s.dumpSlot k).2 then (List.range 2).foldl (fun s h => s.modHost h fun x => { x with overwrote := Nat.lor x.overwrote (2 ^ k) }) u else u

theorem State.slotted_keeps {β : Type} (g : State → β) (hg : ∀ (s : State) h, g { s with hosts := h } = g s) (s : State) (k : Nat) (ok : Bool) :
    g (s.slotted k ok) = g { s with zen := { s.zen with dumpSeq := s.zen.dumpSeq + 1 },
                                    dumps := SMap.set s.dumps (s.dumpSlot k).1 (if ok then s.slotOf k else {}) } := by
  unfold State.slotted
  dsimp only
  split
  · exact foldl_keeps g (fun _ _ => hg _ _) _ _
  · rfl

theorem Leaves.slotted {P : Nat → Prop} {s : State} {k : Nat} {ok : Bool} : Leaves P s (s.slotted k ok) :=
  .ite (.foldl (fun _ _ _ h => h.modHost) (.upd .refl)) (.upd .refl)

/-- The event of a written dump (R630). -/
def State.dumpEvent (s : State) (k : Nat) (ok : Bool) : EventRec :=
  { code := if ok then 0x0509 else 0x050A, sev := if ok then 0 else 2, source := 20, part := k, detail := if ok then (s.dumpSlot k).1 % 4 else 2, open_ := true }

/-- A written dump is reported, and a confidential partition that stopped for it runs Clearing (R542, R627). -/
theorem execDumpWritten_of_captured {s : State} {k : Nat} (ok : Bool) (hstate : (s.part k).dumpState = 2) : exec (.dumpWritten k ok) s =
    (let v := ((s.slotted k ok).modPart k fun p => { p with dumpState := 0, dumpHdr := [], dumpBody := [], trigger := [] }).raise
      (s.dumpEvent k ok)
    if !v.conf k || v.pstate k != 5 then .next v else .next (v.clearOrWait k [])) := by
  show execDumpWritten k ok s = _
  unfold execDumpWritten
  dsimp only
  rw [if_neg (not_not_intro hstate)]
  rfl

theorem dumps_written (s : State) (k n : Nat) (b : Bool) (hk : k < 4) (hstate : (s.part k).dumpState = 2) (hopen : s.conf k = false ∨ s.pstate k ≠ 5)
    (hslot : (s.dumpSlot k).1 = n) (hroom : s.evq.length < 1024) :
    ∃ (t : State) (e : EventRec), exec (.dumpWritten k b) s = .next t ∧ (t.part k).dumpState = 0 ∧ (SMap.get t.dumps n).valid = b ∧
      (b = true → (SMap.get t.dumps n).seq = s.zen.dumpSeq + 1) ∧ t.zen.dumpSeq = s.zen.dumpSeq + 1 ∧ t.evq = s.evq ++ [e] ∧
      e.code = (if b then 0x0509 else 0x050A) ∧ SameMem s t ∧ SameRegsBut eventRegs s t := by
  have hexec := execDumpWritten_of_captured b hstate
  have hdumps : SMap.get (s.slotted k b).dumps n = if b then s.slotOf k else {} := by
    rw [State.slotted_keeps State.dumps fun _ _ => rfl, hslot]
    exact SMap.get_set_same _ _ _
  have hseq : (s.slotted k b).zen.dumpSeq = s.zen.dumpSeq + 1 := by rw [State.slotted_keeps State.zen fun _ _ => rfl]
  have hevq : (s.slotted k b).evq = s.evq := by rw [State.slotted_keeps State.evq fun _ _ => rfl]
  have hleaves : Leaves (· ∈ eventRegs) s (s.slotted k b) := .slotted
  generalize s.slotted k b = u at *
  have hpart : ((u.modPart k fun p => { p with dumpState := 0, dumpHdr := [], dumpBody := [], trigger := [] }).part k).dumpState = 0 := by
    rw [State.part_modPart_same]
  have hdumps' : (u.modPart k fun p => { p with dumpState := 0, dumpHdr := [], dumpBody := [], trigger := [] }).dumps = u.dumps := rfl
  have hzen' : (u.modPart k fun p => { p with dumpState := 0, dumpHdr := [], dumpBody := [], trigger := [] }).zen = u.zen := rfl
  have hevq' : (u.modPart k fun p => { p with dumpState := 0, dumpHdr := [], dumpBody := [], trigger := [] }).evq = u.evq := rfl
  have hmod : Leaves (· ∈ eventRegs) s (u.modPart k fun p => { p with dumpState := 0, dumpHdr := [], dumpBody := [], trigger := [] }) := hleaves.modPart
  generalize (u.modPart k fun p => { p with dumpState := 0, dumpHdr := [], dumpBody := [], trigger := [] }) = v at *
  have hcode : (s.dumpEvent k b).code = (if b then 0x0509 else 0x050A) := rfl
  generalize s.dumpEvent k b = e at *
  have hraise : Leaves (· ∈ eventRegs) s (v.raise e) := .raise hmod fun _ h => h
  have hsent : (v.raise e).evq = s.evq ++ [e] := by rw [State.evq_raise e (by rwa [hevq', hevq]), hevq', hevq]
  have hrdumps : (v.raise e).dumps = v.dumps := State.raise_keeps State.dumps (fun _ _ _ _ _ => rfl) v e
  have hrzen : (v.raise e).zen = v.zen := State.raise_keeps State.zen (fun _ _ _ _ _ => rfl) v e
  have hrpart : (v.raise e).part k = v.part k := State.raise_keeps (fun x => x.part k) (fun _ _ _ _ _ => rfl) v e
  generalize v.raise e = w at *
  have hstill : w.conf k = s.conf k ∧ w.pstate k = s.pstate k := by
    have hz := hraise.reg (rZenPart k) (rZenPart_notMem_eventRegs hk)
    simp only [State.conf, State.partValid, State.pstate, State.fld, hz, and_self]
  dsimp only at hexec
  rw [hstill.1, hstill.2, if_pos] at hexec
  · refine ⟨_, e, hexec, by rw [hrpart, hpart], ?_, fun hb => ?_, by rw [hrzen, hzen', hseq], hsent, hcode, hraise.sameMem, hraise.sameRegsBut⟩
    · rw [hrdumps, hdumps', hdumps]
      cases b <;> rfl
    · rw [hrdumps, hdumps', hdumps, if_pos hb]
      rfl
  · rcases hopen with hopen | hopen
    · rw [hopen]
      rfl
    · rw [bne_iff_ne.mpr hopen, Bool.or_true]

/-- Settles O35: events taken, and dumps captured and written. -/
theorem eventsAndDumps : Obligations.EventsAndDumps := by
  refine ⟨⟨fun s e r h hevq hboot hlost hshut hpart howner hen => ⟨eventsTaken_written hevq hboot hlost hshut hpart howner hen,
      eventsTaken_kept hevq hboot hlost hshut hpart howner hen⟩, eventsTaken_ofDie, fun s hnot => ?_, fun s m => ⟨fun hknown => ?_, fun hunknown => ?_⟩⟩,
    dumps_captured, fun s k hstate hreset hwait => ?_, fun s k b => ⟨fun hnot => if_pos hnot, fun hnot => if_pos hnot⟩, dumps_written⟩
  · show execEventTake s = _
    unfold execEventTake
    split
    · rfl
    · next hevq =>
      refine if_pos (hnot.resolve_left fun h => ?_)
      rw [hevq] at h
      exact List.cons_ne_nil _ _ h
  · exact congrArg Host.Outcome.next (if_pos (List.contains_iff_mem.mpr hknown))
  · have hleaves : Leaves (· ∈ [rCirBad]) s (s.bump rCirBad 1) := .bump .refl (by simp)
    exact ⟨_, congrArg Host.Outcome.next (if_neg (mt List.contains_iff_mem.mp hunknown)), State.fld_bump_same _ _ _, rfl, hleaves.sameMem,
      hleaves.sameRegsBut⟩
  · rw [execDumpCaptureDone_of_unanswered hstate hwait, if_pos hreset]
    rfl

end Sys2Proof.Machine
end

section
/-! PROOF. A load ends (R40, R371–R374, R522, R524, R607). -/
namespace Sys2Proof.Machine

/-! What the end of a mailbox command leaves. -/

/-- The end of a command is one of those that its interface is to read, where the command was under way (R607). -/
theorem State.done_mbFinish (s : State) (i n result detail : Nat) :
    ∀ x ∈ s.zen.tickets, x.1 = i ∧ x.2.1 = n → ∃ c, SMap.get (s.mbFinish i n result detail).zen.done i = SMap.get s.zen.done i ++ [(detail, n, c, result)] := by
  rintro x hx ⟨hi, hn⟩
  have hsome : (s.zen.tickets.find? fun t => t.1 == i && t.2.1 == n).isSome = true := by
    rw [List.find?_isSome]
    exact ⟨x, hx, by rw [hi, hn, beq_self_eq_true, beq_self_eq_true]; rfl⟩
  obtain ⟨t, ht⟩ := Option.isSome_iff_exists.mp hsome
  refine ⟨t.2.2, ?_⟩
  unfold State.mbFinish
  rw [ht]
  dsimp only
  have hmsix : ∀ (u : State) (h v : Nat), (u.msix h v).zen = u.zen := fun u h v => by
    unfold State.msix
    split
    · rfl
    · split
      · rfl
      · split <;> rfl
  have hshow : ∀ (u : State) (c : Nat), (if result ≤ 2 then (u.setFld rZenApproved 55 48 c).setFld rZenApproved 62 62 1 else u).zen = u.zen := fun u c => by
    split <;> rfl
  split
  · rw [hmsix, hshow]
    exact SMap.get_mod_same s.zen.done i fun l => l ++ [(detail, n, t.2.2, result)]
  · rw [State.out_zen, hshow]
    exact SMap.get_mod_same s.zen.done i fun l => l ++ [(detail, n, t.2.2, result)]

/-- The same, as the length and the last of those ends. -/
theorem State.lastDone_mbFinish (s : State) (i n result detail : Nat) : ∀ x ∈ s.zen.tickets, x.1 = i ∧ x.2.1 = n →
    (SMap.get (s.mbFinish i n result detail).zen.done i).length = (SMap.get s.zen.done i).length + 1 ∧
    (SMap.get (s.mbFinish i n result detail).zen.done i).getLast?.map (fun y => (y.1, y.2.1, y.2.2.2)) = some (detail, n, result) := by
  intro x hx hin
  obtain ⟨c, hdone⟩ := s.done_mbFinish i n result detail x hx hin
  rw [hdone, List.getLast?_concat]
  exact ⟨List.length_append, rfl⟩

theorem Leaves.mbFinish {P : Nat → Prop} {s t : State} {i n result detail : Nat} (h : Leaves P s t) (hp : P rZenApproved) :
    Leaves P s (t.mbFinish i n result detail) := h.next (.mbFinish t i n result detail) fun _ hr => hr ▸ hp

/-! A load that fails. -/

theorem rSeqCtxStatus_ne_rZenApproved (k : Nat) : rSeqCtxStatus k ≠ rZenApproved := by
  simp only [rSeqCtxStatus, rZenApproved]
  omega

theorem rSeqCtxStatus_ne {k j : Nat} (h : k ≠ j) : rSeqCtxStatus k ≠ rSeqCtxStatus j := by
  simp only [rSeqCtxStatus]
  omega

/-- The cores of a partition back from loading (R373). -/
def State.unloading (s : State) (k : Nat) : State :=
  (s.partCores k).foldl (fun s j => s.setFld (rSeqCtxStatus j) 1 0 0) (s.modPart k fun p => { p with loading := none })

theorem State.unloading_spec (s : State) (k : Nat) : Leaves (fun r => ∃ j, r = rSeqCtxStatus j) s (s.unloading k) ∧
    (s.unloading k).parts = (s.modPart k fun p => { p with loading := none }).parts ∧ (s.unloading k).zen = s.zen ∧
    ∀ j ∈ s.partCores k, (s.unloading k).fld (rSeqCtxStatus j) 1 0 = 0 := by
  refine ⟨.foldl (fun _ j _ h => h.setFld ⟨j, rfl⟩) (.modPart .refl),
    foldl_keeps (f := fun (s : State) j => s.setFld (rSeqCtxStatus j) 1 0 0) State.parts (fun _ _ => rfl) _ _,
    foldl_keeps (f := fun (s : State) j => s.setFld (rSeqCtxStatus j) 1 0 0) State.zen (fun _ _ => rfl) _ _, fun j hj => ?_⟩
  refine foldl_reaches (f := fun (s : State) j => s.setFld (rSeqCtxStatus j) 1 0 0) (fun t => t.fld (rSeqCtxStatus j) 1 0 = 0) (fun _ => True)
    (fun t _ => State.fld_setFld_same t _ 1 0 0 (by omega) (by omega)) (fun t c h => ?_) (fun _ _ _ => trivial) hj trivial
  by_cases hc : j = c
  · subst hc
    exact State.fld_setFld_same t _ 1 0 0 (by omega) (by omega)
  · exact (State.fld_setFld_ne t _ _ _ _ _ (rSeqCtxStatus_ne hc)).trans h

/-- The end of a load, by what its checks find (R371, R607). -/
theorem execLoadComplete_of_loading {s : State} {k i n : Nat} {b : Bool} {l : Loaded} {img : List Nat} {f : Fail}
    (hload : (s.part k).loading = some (l, i, n))
    (hcheck : checkImage (s.loadEnv k l.bases l.ptable) l.len (s.hbmRead l.addr l.len) (s.signatureFail k (s.hbmRead l.addr l.len) b) = (img, f)) :
    exec (.loadComplete k b) s = match f.or (s.unitsFree k (records (s.hbmRead l.addr l.len))) with
      | some (code, off) => .next ((s.unloading k).mbFinish i n code off)
      | none => .next ((((((s.modPart k fun p => { p with loading := none }).applyImage k l.bases img).setPstate k 1).modPart k fun p =>
          { p with image := some (measured l (s.hbmRead l.addr l.len) img (s.loadEnv k l.bases l.ptable).params) })).mbFinish i n 2 0) := by
  show execLoadComplete k b s = _
  unfold execLoadComplete
  rw [hload]
  dsimp only
  rw [hcheck]
  rfl

theorem loadsComplete_fails (s : State) (k i n : Nat) (b : Bool) (l : Loaded) (img : List Nat) (f : Fail) (hk : k < 4)
    (hload : (s.part k).loading = some (l, i, n))
    (hcheck : checkImage (s.loadEnv k l.bases l.ptable) l.len (s.hbmRead l.addr l.len) (s.signatureFail k (s.hbmRead l.addr l.len) b) = (img, f))
    (c o : Nat) (hfail : f.or (s.unitsFree k (records (s.hbmRead l.addr l.len))) = some (c, o)) :
    ∃ t : State, exec (.loadComplete k b) s = .next t ∧ (t.part k).loading = none ∧ (t.part k).image = (s.part k).image ∧
      t.pstate k = s.pstate k ∧ (∀ j ∈ s.partCores k, t.fld (rSeqCtxStatus j) 1 0 = 0) ∧
      (∀ x ∈ s.zen.tickets, x.1 = i ∧ x.2.1 = n → (SMap.get t.zen.done i).length = (SMap.get s.zen.done i).length + 1 ∧
        (SMap.get t.zen.done i).getLast?.map (fun y => (y.1, y.2.1, y.2.2.2)) = some (o, n, c)) ∧ SameMem s t := by
  have hexec := execLoadComplete_of_loading hload hcheck
  rw [hfail] at hexec
  dsimp only at hexec
  obtain ⟨hleaves, hparts, hzen, hcores⟩ := s.unloading_spec k
  generalize s.unloading k = u at *
  have hpart : (u.mbFinish i n c o).part k = { s.part k with loading := none } := by
    have hall : (u.mbFinish i n c o).parts = (s.modPart k fun p => { p with loading := none }).parts :=
      (QueueAndPartsKept.mbFinish u i n c o).parts.trans hparts
    exact (congrArg (SMap.get · k) hall).trans (State.part_modPart_same s k _)
  have hend : Leaves (· = rZenApproved) u (u.mbFinish i n c o) := .mbFinish .refl rfl
  have hmem : Leaves (fun _ => True) s (u.mbFinish i n c o) := (hleaves.mono fun _ _ => trivial).mbFinish trivial
  refine ⟨_, hexec, by rw [hpart], by rw [hpart], ?_, fun j hj => ?_, ?_, hmem.sameMem⟩
  · have hne : ¬∃ j, rZenPart k = rSeqCtxStatus j := by
      rintro ⟨j, hj⟩
      simp only [rZenPart, rSeqCtxStatus] at hj
      omega
    have happ : rZenPart k ≠ rZenApproved := by simp only [rZenPart, rZenApproved]; omega
    exact (hend.fld happ 59 57).trans (hleaves.fld hne 59 57)
  · exact (hend.fld (rSeqCtxStatus_ne_rZenApproved j) 1 0).trans (hcores j hj)
  · rw [← hzen]
    exact u.lastDone_mbFinish i n c o

/-! A load that passes. -/

/-- Two states hold the same bytes, and the same lines of HBM fail. -/
structure SameBytes (s t : State) : Prop where
  hbm : t.hbm = s.hbm
  store : t.store = s.store
  badLine : t.badLine = s.badLine

namespace SameBytes
variable {s t : State}

theorem foldl {α : Type} {f : State → α → State} (hf : ∀ s t a, SameBytes s t → SameBytes (f s a) (f t a)) (l : List α) :
    ∀ {s t}, SameBytes s t → SameBytes (l.foldl f s) (l.foldl f t) := by
  induction l with
  | nil => exact id
  | cons a l ih => exact fun h => ih (hf _ _ a h)

theorem setFld {k hi lo v : Nat} (h : SameBytes s t) : SameBytes (s.setFld k hi lo v) (t.setFld k hi lo v) := ⟨h.hbm, h.store, h.badLine⟩
theorem modPart {k : Nat} {f g : Part → Part} (h : SameBytes s t) : SameBytes (s.modPart k f) (t.modPart k g) := ⟨h.hbm, h.store, h.badLine⟩

theorem hbmWrite {a : Nat} {bs : List Nat} (h : SameBytes s t) : SameBytes (s.hbmWrite a bs) (t.hbmWrite a bs) := by
  have hends : t.heldEnds a bs.length = s.heldEnds a bs.length := by
    unfold State.heldEnds State.keepsBad
    rw [h.badLine]
  refine ⟨?_, h.store, ?_⟩
  · unfold State.hbmWrite
    dsimp only
    rw [hends, h.hbm]
  · unfold State.hbmWrite
    dsimp only
    rw [h.badLine]

end SameBytes

/-- What a core's load leaves: all but registers, cores, core stores and the notes of recoveries. -/
theorem State.loadCore_keeps {β : Type} (g : State → β)
    (hg : ∀ (s : State) r c m rc, g { s with regs := r, cores := c, store := m, recoveries := rc } = g s) (s : State) (img : List Nat) (rs : List Rec)
    (j core : Nat) : g (s.loadCore img rs j core) = g s := by
  have hset : ∀ (s : State) k hi lo v, g (s.setFld k hi lo v) = g s := fun s _ _ _ _ => hg s _ s.cores s.store s.recoveries
  have hregs : ∀ (s : State) l, g (s.setRegs l) = g s := fun s l => foldl_keeps g (fun s _ => hg s _ s.cores s.store s.recoveries) l s
  have hstore : ∀ (s : State) k a bs, g (s.storeWrite k a bs) = g s := fun s _ _ _ => hg s s.regs s.cores _ _
  have hreset : ∀ (s : State) m, g (s.resetBits m) = g s := fun s _ => hg s _ s.cores s.store s.recoveries
  have hcore : ∀ (s : State) k f, g (s.modCore k f) = g s := fun s _ _ => hg s s.regs _ s.store s.recoveries
  unfold State.loadCore
  dsimp only
  rw [hset, hset, hset, hset, hstore, hstore, hstore, hstore, foldl_keeps g (fun _ _ => hset _ _ _ _ _), hregs, foldl_keeps g (fun _ _ => hregs _ _), hreset,
    hcore]

/-- The bytes of a core store after its tables and constants have been loaded (R371). -/
def loadedStore (img : List Nat) (rs : List Rec) (j core : Nat) (m : List Host.Cell) : List Host.Cell :=
  let map := storeMapOf img (recBody rs 4 j) j
  memWrite (memWrite (memWrite (memWrite m (storeKey core map.stream.1) (sectBody img 3 j)) (storeKey core map.vector.1) (sectBody img 4 j))
    (storeKey core map.exp.1) (sectBody img 5 j)) (storeKey core map.const.1) (sectBody img 6 j)

theorem State.store_loadCore (s : State) (img : List Nat) (rs : List Rec) (j core : Nat) :
    (s.loadCore img rs j core).store = loadedStore img rs j core s.store := by
  have hset : ∀ (s : State) k hi lo v, (s.setFld k hi lo v).store = s.store := fun _ _ _ _ _ => rfl
  have hregs : ∀ (s : State) l, (s.setRegs l).store = s.store := fun s l =>
    foldl_keeps (f := fun (s : State) (p : Nat × Nat) => s.setReg p.1 (BitVec.ofNat 64 p.2)) State.store (fun _ _ => rfl) l s
  have hstore : ∀ (s : State) k a bs, (s.storeWrite k a bs).store = memWrite s.store (storeKey k a) bs := fun _ _ _ _ => rfl
  have hreset : ∀ (s : State) m, (s.resetBits m).store = s.store := fun _ _ => rfl
  have hcore : ∀ (s : State) k f, (s.modCore k f).store = s.store := fun _ _ _ => rfl
  unfold State.loadCore loadedStore
  dsimp only
  rw [hset, hset, hset, hset, hstore, hstore, hstore, hstore, foldl_keeps State.store (fun _ _ => hset _ _ _ _ _), hregs,
    foldl_keeps State.store (fun _ _ => hregs _ _), hreset, hcore]

theorem SameBytes.loadCore {s t : State} {img : List Nat} {rs : List Rec} {j core : Nat} (h : SameBytes s t) :
    SameBytes (s.loadCore img rs j core) (t.loadCore img rs j core) := by
  refine ⟨?_, ?_, ?_⟩
  · rw [State.loadCore_keeps State.hbm fun _ _ _ _ _ => rfl, State.loadCore_keeps State.hbm fun _ _ _ _ _ => rfl, h.hbm]
  · rw [State.store_loadCore, State.store_loadCore, h.store]
  · rw [State.loadCore_keeps State.badLine fun _ _ _ _ _ => rfl, State.loadCore_keeps State.badLine fun _ _ _ _ _ => rfl, h.badLine]

/-- The units of an image set up: registers and units (R413). -/
theorem State.loadBars_keeps {β : Type} (g : State → β) (hg : ∀ (s : State) r b, g { s with regs := r, bars := b } = g s) (s : State) (k : Nat)
    (rs : List Rec) : g (s.loadBars k rs) = g s := by
  have hreg : ∀ (s : State) k v, g (s.setReg k v) = g s := fun s _ _ => hg s _ s.bars
  unfold State.loadBars
  refine (foldl_keeps g (fun u r => ?_) _ _).trans (foldl_keeps g (fun u n => ?_) _ _)
  · exact (hg _ _ _).trans ((hreg _ _ _).trans (hreg _ _ _))
  · split
    · exact (hreg _ _ _).trans (hreg _ _ _)
    · rfl

/-- An image in place but for its routes, collectives, rendezvous and HBM sections (R371). -/
def State.imageCores (s : State) (k : Nat) (img : List Nat) : State :=
  (s.partCores k).foldl (fun s c => s.setFld rHaloSegment (4 + c) (4 + c) (if fieldAt (recBody (records img) 1 0) 0 1 = 0 then 0 else 1))
    (((((s.partCores k).zipIdx).foldl (fun s p => s.loadCore img (records img) p.2 p.1) s).loadBars k (records img)).setFld rHaloSegment 2 0
      (fieldAt (recBody (records img) 1 0) 0 1))

/-- What an image says of its partition's routes, collectives and rendezvous (R371). -/
def withImage (img : List Nat) (p : Part) : Part :=
  { p with
    startLead := fieldAt (recBody (records img) 1 0) 8 4
    routes := (List.range (fieldAt (recBody (records img) 8 0) 6 2)).foldl
      (fun (m : SMap (List Nat)) r => SMap.set m r (slice (recBody (records img) 8 0) (8 + 16 * r) 16)) []
    combine := (List.range 6).foldl (fun m q => m + fieldAt (recBody (records img) 8 0) q 1 % 2 * 2 ^ q) 0
    colls := ((records img).filter fun r => r.typ == 9).foldl (fun (m : SMap (List Nat)) r => SMap.set m r.inst r.body) []
    rvs := ((records img).filter fun r => r.typ == 10).foldl (fun (m : SMap (Option RvEntry)) r => SMap.set m r.inst (some (rvEntry r.body))) [] }

/-- One HBM section written (R371). -/
def State.writeSect (bases cores : List Nat) (s : State) (x : Sect) : State :=
  match cores[x.unit / 2]? with
  | some c => s.hbmWrite ((2 * c + x.unit % 2) * 2 ^ 36 + bases.getD x.unit 0) x.body
  | none => s

theorem State.applyImage_eq (s : State) (k : Nat) (bases img : List Nat) : s.applyImage k bases img =
    ((sections img).filter fun x => x.typ == 7).foldl (State.writeSect bases (s.partCores k)) ((s.imageCores k img).modPart k fun p => withImage img p) :=
  rfl

theorem State.writeSect_keeps {β : Type} (g : State → β)
    (hg : ∀ (s : State) m b rc w, g { s with hbm := m, badLine := b, recoveries := rc, heldWrites := w } = g s) (bases cores : List Nat) (s : State)
    (x : Sect) : g (s.writeSect bases cores x) = g s := by
  unfold State.writeSect
  split
  · exact hg s _ _ _ _
  · rfl

theorem SameBytes.imageCores {s t : State} {k : Nat} {img : List Nat} (h : SameBytes s t) (hcores : t.partCores k = s.partCores k) :
    SameBytes (s.imageCores k img) (t.imageCores k img) := by
  unfold State.imageCores
  rw [hcores]
  have hloaded : SameBytes (((s.partCores k).zipIdx).foldl (fun s p => s.loadCore img (records img) p.2 p.1) s)
      (((s.partCores k).zipIdx).foldl (fun s p => s.loadCore img (records img) p.2 p.1) t) :=
    .foldl (f := fun (s : State) (p : Nat × Nat) => s.loadCore img (records img) p.2 p.1) (fun _ _ _ h => h.loadCore) _ h
  refine .foldl (f := fun (s : State) c => s.setFld rHaloSegment (4 + c) (4 + c) (if fieldAt (recBody (records img) 1 0) 0 1 = 0 then 0 else 1))
    (fun _ _ _ h => h.setFld) _ (.setFld ?_)
  generalize ((s.partCores k).zipIdx).foldl (fun s p => s.loadCore img (records img) p.2 p.1) s = u at *
  generalize ((s.partCores k).zipIdx).foldl (fun s p => s.loadCore img (records img) p.2 p.1) t = v at *
  refine ⟨?_, ?_, ?_⟩
  · rw [State.loadBars_keeps State.hbm fun _ _ _ => rfl, State.loadBars_keeps State.hbm fun _ _ _ => rfl, hloaded.hbm]
  · rw [State.loadBars_keeps State.store fun _ _ _ => rfl, State.loadBars_keeps State.store fun _ _ _ => rfl, hloaded.store]
  · rw [State.loadBars_keeps State.badLine fun _ _ _ => rfl, State.loadBars_keeps State.badLine fun _ _ _ => rfl, hloaded.badLine]

theorem SameBytes.writeSect {s t : State} {bases cores : List Nat} {x : Sect} (h : SameBytes s t) :
    SameBytes (s.writeSect bases cores x) (t.writeSect bases cores x) := by
  unfold State.writeSect
  split
  · exact h.hbmWrite
  · exact h

theorem SameBytes.applyImage {s t : State} {k : Nat} {bases img : List Nat} (h : SameBytes s t) (hcores : t.partCores k = s.partCores k) :
    SameBytes (s.applyImage k bases img) (t.applyImage k bases img) := by
  rw [State.applyImage_eq, State.applyImage_eq, hcores]
  exact .foldl (f := State.writeSect bases (s.partCores k)) (fun _ _ _ h => h.writeSect) _ (h.imageCores hcores).modPart

/-- An image's cores in place: what they leave is all but registers, cores, units, core stores and the notes of recoveries. -/
theorem State.imageCores_keeps {β : Type} (g : State → β)
    (hg : ∀ (s : State) r c m rc b, g { s with regs := r, cores := c, store := m, recoveries := rc, bars := b } = g s) (s : State) (k : Nat)
    (img : List Nat) : g (s.imageCores k img) = g s := by
  have hset : ∀ (s : State) k hi lo v, g (s.setFld k hi lo v) = g s := fun s _ _ _ _ => hg s _ s.cores s.store s.recoveries s.bars
  unfold State.imageCores
  rw [foldl_keeps g (fun _ _ => hset _ _ _ _ _), hset, State.loadBars_keeps g fun s r b => hg s r s.cores s.store s.recoveries b]
  exact foldl_keeps g (fun _ _ => State.loadCore_keeps g (fun s r c m rc => hg s r c m rc s.bars) _ _ _ _ _) _ _

/-- The partition's record after its image has been written (R371). -/
theorem State.part_applyImage (s : State) (k : Nat) (bases img : List Nat) : (s.applyImage k bases img).part k = withImage img (s.part k) := by
  rw [State.applyImage_eq, foldl_keeps (fun v => v.part k) (State.writeSect_keeps (fun v => v.part k) (fun _ _ _ _ _ => rfl) bases _), State.part_modPart_same,
    State.imageCores_keeps (fun v => v.part k) fun _ _ _ _ _ _ => rfl]

/-- What writing an image leaves: all but registers, cores, units, memory, the notes of recoveries and the partitions. -/
theorem State.applyImage_keeps {β : Type} (g : State → β)
    (hg : ∀ (s : State) r c m rc b h l w p, g { s with
      regs := r, cores := c, store := m, recoveries := rc, bars := b, hbm := h, badLine := l, heldWrites := w, parts := p } = g s)
    (s : State) (k : Nat) (bases img : List Nat) : g (s.applyImage k bases img) = g s := by
  have hmod : ∀ (s : State) f, g (s.modPart k f) = g s := fun s _ => hg s s.regs s.cores s.store s.recoveries s.bars s.hbm s.badLine s.heldWrites _
  rw [State.applyImage_eq, foldl_keeps g (State.writeSect_keeps g (fun s m b rc w => hg s s.regs s.cores s.store rc s.bars m b w s.parts) bases _), hmod]
  exact State.imageCores_keeps g (fun s r c m rc b => hg s r c m rc b s.hbm s.badLine s.heldWrites s.parts) s k img

theorem loadsComplete_passes (s : State) (k i n : Nat) (b : Bool) (l : Loaded) (img : List Nat) (f : Fail) (hk : k < 4)
    (hload : (s.part k).loading = some (l, i, n))
    (hcheck : checkImage (s.loadEnv k l.bases l.ptable) l.len (s.hbmRead l.addr l.len) (s.signatureFail k (s.hbmRead l.addr l.len) b) = (img, f))
    (hpass : f = none) (hunits : s.unitsFree k (records (s.hbmRead l.addr l.len)) = none) :
    ∃ t : State, exec (.loadComplete k b) s = .next t ∧ (t.part k).loading = none ∧
      (t.part k).image = some (measured l (s.hbmRead l.addr l.len) img (s.loadEnv k l.bases l.ptable).params) ∧ t.pstate k = 1 ∧
      t.hbm = (s.applyImage k l.bases img).hbm ∧ t.store = (s.applyImage k l.bases img).store ∧
      (∀ x ∈ s.zen.tickets, x.1 = i ∧ x.2.1 = n → (SMap.get t.zen.done i).length = (SMap.get s.zen.done i).length + 1 ∧
        (SMap.get t.zen.done i).getLast?.map (fun y => (y.1, y.2.1, y.2.2.2)) = some (0, n, 2)) ∧
      t.mbuf = s.mbuf ∧ t.lstore = s.lstore := by
  have hexec := execLoadComplete_of_loading hload hcheck
  rw [hpass, hunits] at hexec
  dsimp only [Option.none_or] at hexec
  have hbytes : SameBytes (s.applyImage k l.bases img) ((s.modPart k fun p => { p with loading := none }).applyImage k l.bases img) :=
    .applyImage ⟨rfl, rfl, rfl⟩ rfl
  have hpart : ((s.modPart k fun p => { p with loading := none }).applyImage k l.bases img).part k = withImage img { s.part k with loading := none } := by
    rw [State.part_applyImage, State.part_modPart_same]
  have hmbuf : ((s.modPart k fun p => { p with loading := none }).applyImage k l.bases img).mbuf = s.mbuf :=
    State.applyImage_keeps State.mbuf (fun _ _ _ _ _ _ _ _ _ _ => rfl) _ k l.bases img
  have hlstore : ((s.modPart k fun p => { p with loading := none }).applyImage k l.bases img).lstore = s.lstore :=
    State.applyImage_keeps State.lstore (fun _ _ _ _ _ _ _ _ _ _ => rfl) _ k l.bases img
  have hzen : ((s.modPart k fun p => { p with loading := none }).applyImage k l.bases img).zen = s.zen :=
    State.applyImage_keeps State.zen (fun _ _ _ _ _ _ _ _ _ _ => rfl) _ k l.bases img
  generalize (s.modPart k fun p => { p with loading := none }).applyImage k l.bases img = u at *
  generalize measured l (s.hbmRead l.addr l.len) img (s.loadEnv k l.bases l.ptable).params = m at *
  have hpart' : ((u.setPstate k 1).modPart k fun p => { p with image := some m }).part k = { u.part k with image := some m } :=
    State.part_modPart_same _ k fun p => { p with image := some m }
  have hstate : ((u.setPstate k 1).modPart k fun p => { p with image := some m }).pstate k = 1 := State.pstate_setPstate u k (by omega)
  have hhbm : ((u.setPstate k 1).modPart k fun p => { p with image := some m }).hbm = u.hbm := rfl
  have hstore : ((u.setPstate k 1).modPart k fun p => { p with image := some m }).store = u.store := rfl
  have hmbuf' : ((u.setPstate k 1).modPart k fun p => { p with image := some m }).mbuf = u.mbuf := rfl
  have hlstore' : ((u.setPstate k 1).modPart k fun p => { p with image := some m }).lstore = u.lstore := rfl
  have hzen' : ((u.setPstate k 1).modPart k fun p => { p with image := some m }).zen = u.zen := rfl
  generalize (u.setPstate k 1).modPart k (fun p => { p with image := some m }) = v at *
  have hend : Leaves (· = rZenApproved) v (v.mbFinish i n 2 0) := .mbFinish .refl rfl
  have hfin : (v.mbFinish i n 2 0).part k = v.part k := congrArg (SMap.get · k) (QueueAndPartsKept.mbFinish v i n 2 0).parts
  have happ : rZenPart k ≠ rZenApproved := by
    simp only [rZenPart, rZenApproved]
    omega
  refine ⟨_, hexec, ?_, ?_, (hend.fld happ 59 57).trans hstate, ?_, ?_, ?_, ?_, ?_⟩
  · rw [hfin, hpart', hpart]
    rfl
  · rw [hfin, hpart']
  · rw [hend.hbm, hhbm, hbytes.hbm]
  · rw [hend.store, hstore, hbytes.store]
  · rw [← hzen, ← hzen']
    exact v.lastDone_mbFinish i n 2 0
  · rw [hend.mbuf, hmbuf', hmbuf]
  · rw [hend.lstore, hlstore', hlstore]

/-- Settles O36: a load that passes, one that fails, and none under way. -/
theorem loadsComplete : Obligations.LoadsComplete := by
  refine ⟨fun s k i n b l img f hk hload hcheck => ⟨loadsComplete_fails s k i n b l img f hk hload hcheck,
    loadsComplete_passes s k i n b l img f hk hload hcheck⟩, fun s k b hload => ?_⟩
  show execLoadComplete k b s = _
  unfold execLoadComplete
  rw [hload]

end Sys2Proof.Machine
end

section
/-! PROOF. What the supply and the temperature do (R548–R554). -/
namespace Sys2Proof.Machine

/-- The state with a measured voltage, before the register of the lowest one is looked at. -/
def State.measured (s : State) (v : Nat) : State :=
  { s with
    pwr := { s.pwr with mv := v }
    clk := { s.clk with squallMin := if s.inSquall then min s.clk.squallMin v else s.clk.squallMin } }

theorem State.supplySeen_eq (s : State) (v : Nat) :
    s.supplySeen v = if v < s.fld rPwrSupplyMin 15 0 then (s.measured v).setFld rPwrSupplyMin 15 0 v else s.measured v := rfl

/-- A measured voltage is shown, and kept as the lowest of the Squall (R548, R582). -/
theorem State.supplySeen_spec (s : State) (v : Nat) : Leaves (· ∈ [rPwrSupplyMin]) s (s.supplySeen v) ∧
    (s.supplySeen v).clk = { s.clk with squallMin := if s.inSquall then min s.clk.squallMin v else s.clk.squallMin } ∧
    (s.supplySeen v).pwr = { s.pwr with mv := v } ∧ (s.supplySeen v).evq = s.evq ∧ (s.supplySeen v).agenda = s.agenda := by
  have hmeasured : Leaves (· ∈ [rPwrSupplyMin]) s (s.measured v) := .upd .refl
  rw [s.supplySeen_eq v]
  by_cases hlow : v < s.fld rPwrSupplyMin 15 0
  · rw [if_pos hlow]
    exact ⟨.setFld hmeasured (by simp), rfl, rfl, rfl, rfl⟩
  · rw [if_neg hlow]
    exact ⟨hmeasured, rfl, rfl, rfl, rfl⟩

theorem State.status_supplySeen (s : State) (v hi lo : Nat) : (s.supplySeen v).fld rPwrStatus hi lo = s.fld rPwrStatus hi lo :=
  (s.supplySeen_spec v).1.fld (by decide) hi lo

theorem State.beat_supplySeen (s : State) (v : Nat) : (s.supplySeen v).beat = s.beat := by
  unfold State.beat
  rw [(s.supplySeen_spec v).1.reg _ (by decide)]

theorem State.inSquall_supplySeen (s : State) (v : Nat) : (s.supplySeen v).inSquall = s.inSquall := by
  unfold State.inSquall
  rw [s.status_supplySeen v]

/-- The ratios of supply and temperature: the greater one swallows, and both are shown (R347, R582). -/
theorem State.setRatios_spec (s : State) (supply thermal : Nat) : Leaves (· ∈ [rPwrStatus]) s (s.setRatios supply thermal) ∧
    (∃ g, (s.setRatios supply thermal).clk = { s.clk with supply := supply, thermal := thermal, ratio := max supply thermal, group := g }) ∧
    (s.setRatios supply thermal).pwr = s.pwr ∧ (s.setRatios supply thermal).evq = s.evq ∧ (s.setRatios supply thermal).agenda = s.agenda ∧
    (s.setRatios supply thermal).fld rPwrStatus 55 55 = s.fld rPwrStatus 55 55 :=
  ⟨.setFld (.setFld (.upd .refl) (by simp)) (by simp), ⟨_, rfl⟩, rfl, rfl, rfl,
    (State.fld_setFld_disjoint _ _ _ _ _ _ _ (by omega) (by omega) (by omega) (by omega)).trans
      (State.fld_setFld_disjoint _ _ _ _ _ _ _ (by omega) (by omega) (by omega) (by omega))⟩

/-- An event of the die, and what stays: clock, agenda and every register but those of events. -/
theorem State.eventDie_spec (s : State) (src code detail ext : Nat) (hroom : s.evq.length < 1024) :
    ∃ e : EventRec, (s.eventDie src code detail ext).evq = s.evq ++ [e] ∧ e.code = code ∧ e.ext = ext ∧
      Leaves (· ∈ eventRegs) s (s.eventDie src code detail ext) ∧ (s.eventDie src code detail ext).clk = s.clk ∧
      (s.eventDie src code detail ext).pwr = s.pwr ∧ (s.eventDie src code detail ext).agenda = s.agenda := by
  obtain ⟨e, hevq, hcode, -, hext⟩ := State.exists_evq_eventDie src code detail ext hroom
  exact ⟨e, hevq, hcode, hext, .raise .refl fun _ h => h, State.raise_keeps State.clk (fun _ _ _ _ _ => rfl) s _,
    State.raise_keeps State.pwr (fun _ _ _ _ _ => rfl) s _, State.raise_keeps State.agenda (fun _ _ _ _ _ => rfl) s _⟩

/-! Squall. -/

/-- The ratio and the cap of a Squall, where the state has them (R552). -/
def State.squalled (s : State) (v : Nat) : State :=
  let u := s.supplySeen v
  let w := if u.swallows then u.setRatios 4 u.clk.thermal else u
  { w with clk := { w.clk with cap := w.swallows || w.pwrState == 1, releasing := false } }

theorem State.squalled_spec (s : State) (v : Nat) : Leaves (· ∈ [rPwrStatus, rPwrSupplyMin]) s (s.squalled v) ∧
    (s.swallows = true → (s.squalled v).clk.supply = 4 ∧ (s.squalled v).clk.ratio = max 4 s.clk.thermal) ∧
    (s.squalled v).clk.cap = (s.swallows || s.pwrState == 1) ∧ (s.squalled v).clk.releasing = false ∧
    (s.squalled v).clk.squallMin = (if s.inSquall then min s.clk.squallMin v else s.clk.squallMin) ∧ (s.squalled v).pwr.mv = v ∧
    (s.squalled v).evq = s.evq ∧ (s.squalled v).agenda = s.agenda := by
  obtain ⟨hseen, hclk, hpwr, hevq, hagenda⟩ := s.supplySeen_spec v
  have hstate : (s.supplySeen v).pwrState = s.pwrState := s.status_supplySeen v 63 61
  have hswallows : (s.supplySeen v).swallows = s.swallows := by
    unfold State.swallows
    rw [hstate]
  have hseen' : Leaves (· ∈ [rPwrStatus, rPwrSupplyMin]) s (s.supplySeen v) := hseen.mono fun _ h => List.mem_cons_of_mem _ h
  unfold State.squalled
  dsimp only
  generalize s.supplySeen v = u at *
  rw [hswallows]
  cases hs : s.swallows with
  | true =>
    obtain ⟨hset, ⟨g, hg⟩, hp, hq, ha, -⟩ := u.setRatios_spec 4 u.clk.thermal
    have hkeep : (u.setRatios 4 u.clk.thermal).pwrState = u.pwrState :=
      (State.fld_setFld_disjoint _ _ _ _ _ _ _ (by omega) (by omega) (by omega) (by omega)).trans
        (State.fld_setFld_disjoint _ _ _ _ _ _ _ (by omega) (by omega) (by omega) (by omega))
    have hkeep' : (u.setRatios 4 u.clk.thermal).swallows = true := by
      unfold State.swallows
      rw [hkeep]
      exact hswallows.trans hs
    rw [if_pos rfl]
    generalize u.setRatios 4 u.clk.thermal = w at *
    have hall := hseen'.trans (hset.mono (Q := (· ∈ [rPwrStatus, rPwrSupplyMin])) fun r hr => List.mem_cons.mpr (.inl (List.mem_singleton.mp hr)))
    refine ⟨.upd hall, fun _ => ⟨by rw [hg], ?_⟩, by rw [hkeep', Bool.true_or, Bool.true_or], rfl, ?_, by rw [hp, hpwr], hq.trans hevq, ha.trans hagenda⟩
    · rw [hg, hclk]
    · rw [hg, hclk]
  | false =>
    rw [if_neg (by decide)]
    refine ⟨.upd hseen', fun h => absurd h (by decide), ?_, rfl, by rw [hclk], by rw [hpwr], hevq, hagenda⟩
    rw [hswallows, hs, hstate]

theorem execSquall_of_low {s : State} {v : Nat} (hlow : v < 42000) (hheld : s.pwr.held = false) : exec (.squall v) s = .next (if s.inSquall then s.squalled v
    else (((({ s.squalled v with clk := { (s.squalled v).clk with squallMin := v, squallBeats := 0 } } : State).setFld rPwrStatus 55 55 1).bump
      rPwrSquallCount 1).eventDie 20 0x0403 0 v)) := by
  show execSquall v s = _
  unfold execSquall
  rw [if_neg (by rw [hheld]; simp; omega)]
  cases s.inSquall <;> rfl

theorem supplyActs_squall (s : State) (v : Nat) (hlow : v < 42000) (hheld : s.pwr.held = false) (hfirst : s.inSquall = false)
    (hroom : s.evq.length < 1024) :
    ∃ (t : State) (e : EventRec), exec (.squall v) s = .next t ∧ (s.swallows = true → t.clk.supply = 4 ∧ t.clk.ratio = max 4 s.clk.thermal) ∧
      t.clk.cap = (s.swallows || s.pwrState == 1) ∧ t.clk.releasing = false ∧ t.clk.squallMin = v ∧ t.pwr.mv = v ∧
      t.inSquall = true ∧ t.fld rPwrSquallCount 47 0 = min (s.fld rPwrSquallCount 47 0 + 1) (2 ^ 48 - 1) ∧ t.evq = s.evq ++ [e] ∧
      e.code = 0x0403 ∧ e.ext = v ∧ t.agenda = s.agenda ∧ SameMem s t ∧
      SameRegsBut ([rPwrStatus, rPwrSupplyMin, rPwrSquallCount] ++ eventRegs) s t := by
  have hexec := execSquall_of_low hlow hheld
  rw [if_neg (by rw [hfirst]; decide)] at hexec
  obtain ⟨hleaves, hratio, hcap, hrel, -, hmv, hevq, hagenda⟩ := s.squalled_spec v
  have hcount : (s.squalled v).fld rPwrSquallCount 47 0 = s.fld rPwrSquallCount 47 0 := hleaves.fld (by decide) 47 0
  have hall : Leaves (· ∈ [rPwrStatus, rPwrSupplyMin, rPwrSquallCount] ++ eventRegs) s
      ((({ s.squalled v with clk := { (s.squalled v).clk with squallMin := v, squallBeats := 0 } } : State).setFld rPwrStatus 55 55 1).bump rPwrSquallCount 1) :=
    .bump (.setFld (.upd (hleaves.mono fun r hr => by
      simp only [List.mem_cons, List.not_mem_nil, or_false] at hr
      rcases hr with rfl | rfl <;> simp)) (by simp)) (by simp)
  have hset : ((({ s.squalled v with clk := { (s.squalled v).clk with squallMin := v, squallBeats := 0 } } : State).setFld rPwrStatus 55 55 1).bump
      rPwrSquallCount 1).fld rPwrStatus 55 55 = 1 := by
    rw [State.bump, State.fld_bumpF_ne _ _ _ _ _ _ (by decide)]
    exact State.fld_setFld_same _ _ 55 55 1 (by omega) (by omega)
  have hnew : ((({ s.squalled v with clk := { (s.squalled v).clk with squallMin := v, squallBeats := 0 } } : State).setFld rPwrStatus 55 55 1).bump
      rPwrSquallCount 1).fld rPwrSquallCount 47 0 = min (s.fld rPwrSquallCount 47 0 + 1) (2 ^ 48 - 1) := by
    rw [State.fld_bump_same, State.fld_setFld_ne _ _ _ _ _ _ (by decide), ← hcount]
    rfl
  have hclk' : ((({ s.squalled v with clk := { (s.squalled v).clk with squallMin := v, squallBeats := 0 } } : State).setFld rPwrStatus 55 55 1).bump
      rPwrSquallCount 1).clk = { (s.squalled v).clk with squallMin := v, squallBeats := 0 } := rfl
  have hpwr' : ((({ s.squalled v with clk := { (s.squalled v).clk with squallMin := v, squallBeats := 0 } } : State).setFld rPwrStatus 55 55 1).bump
      rPwrSquallCount 1).pwr = (s.squalled v).pwr := rfl
  have hevq' : ((({ s.squalled v with clk := { (s.squalled v).clk with squallMin := v, squallBeats := 0 } } : State).setFld rPwrStatus 55 55 1).bump
      rPwrSquallCount 1).evq = (s.squalled v).evq := rfl
  have hagenda' : ((({ s.squalled v with clk := { (s.squalled v).clk with squallMin := v, squallBeats := 0 } } : State).setFld rPwrStatus 55 55 1).bump
      rPwrSquallCount 1).agenda = (s.squalled v).agenda := rfl
  generalize (({ s.squalled v with clk := { (s.squalled v).clk with squallMin := v, squallBeats := 0 } } : State).setFld rPwrStatus 55 55 1).bump
    rPwrSquallCount 1 = u at *
  obtain ⟨e, hsent, hcode, hext, hdie, hdclk, hdpwr, hdag⟩ := u.eventDie_spec 20 0x0403 0 v (by rwa [hevq', hevq])
  have hfin := hall.trans (hdie.mono (Q := (· ∈ [rPwrStatus, rPwrSupplyMin, rPwrSquallCount] ++ eventRegs)) fun _ h => List.mem_append_right _ h)
  refine ⟨_, e, hexec, fun h => ?_, by rw [hdclk, hclk', hcap], by rw [hdclk, hclk', hrel], by rw [hdclk, hclk'], by rw [hdpwr, hpwr', hmv], ?_,
    (hdie.fld (by decide) 47 0).trans hnew, by rw [hsent, hevq', hevq], hcode, hext, by rw [hdag, hagenda', hagenda], hfin.sameMem, hfin.sameRegsBut⟩
  · rw [hdclk, hclk']
    exact hratio h
  · unfold State.inSquall
    rw [hdie.fld (by decide), hset]
    rfl

theorem supplyActs_again (s : State) (v : Nat) (hlow : v < 42000) (hheld : s.pwr.held = false) (hin : s.inSquall = true) :
    ∃ t : State, exec (.squall v) s = .next t ∧ (s.swallows = true → t.clk.supply = 4) ∧ t.clk.releasing = false ∧
      t.clk.squallMin = min s.clk.squallMin v ∧ t.evq = s.evq ∧ t.agenda = s.agenda ∧ SameMem s t ∧
      SameRegsBut [rPwrStatus, rPwrSupplyMin] s t := by
  have hexec := execSquall_of_low hlow hheld
  rw [if_pos hin] at hexec
  obtain ⟨hleaves, hratio, -, hrel, hmin, -, hevq, hagenda⟩ := s.squalled_spec v
  rw [if_pos hin] at hmin
  exact ⟨_, hexec, fun h => (hratio h).1, hrel, hmin, hevq, hagenda, hleaves.sameMem, hleaves.sameRegsBut⟩

/-- Squall ends: the report names the lowest voltage (R550). -/
theorem State.endSquall_spec (s : State) (hroom : s.evq.length < 1024) :
    ∃ e : EventRec, s.endSquall.evq = s.evq ++ [e] ∧ e.code = 0x0404 ∧ e.ext = s.clk.squallMin ∧ s.endSquall.inSquall = false ∧
      s.endSquall.clk = { s.clk with cap := false, releasing := false } ∧ Leaves (· ∈ rPwrStatus :: eventRegs) s s.endSquall := by
  obtain ⟨e, hsent, hcode, hext, hdie, hclk, -, -⟩ := (({ s with clk := { s.clk with cap := false, releasing := false } } : State).setFld rPwrStatus 55 55
    0).eventDie_spec 20 0x0404 (min s.clk.squallBeats 0xFFFFFF) s.clk.squallMin hroom
  refine ⟨e, hsent, hcode, hext, ?_, hclk, ?_⟩
  · have hoff : s.endSquall.fld rPwrStatus 55 55 = 0 :=
      (hdie.fld (by decide) 55 55).trans (State.fld_setFld_same _ _ 55 55 0 (by omega) (by omega))
    unfold State.inSquall
    rw [hoff]
    rfl
  · exact (Leaves.setFld (P := (· ∈ rPwrStatus :: eventRegs)) (.upd .refl) (by simp)).trans (hdie.mono fun _ h => List.mem_cons_of_mem _ h)

theorem execSquallEnd_of_rise {s : State} {v : Nat} (hrise : 43500 < v) (hin : s.inSquall = true) (hrel : s.clk.releasing = false) :
    exec (.squallEnd v) s = if s.clk.supply = 0 then .next (s.supplySeen v).endSquall
      else .next { s.supplySeen v with clk := { (s.supplySeen v).clk with releasing := true, nextSupply := s.beat + 17 } } := by
  obtain ⟨-, hclk, -⟩ := s.supplySeen_spec v
  have hrel' : (s.supplySeen v).clk.releasing = false := by rw [hclk, hrel]
  have hsupply : (s.supplySeen v).clk.supply = s.clk.supply := by rw [hclk]
  show execSquallEnd v s = _
  unfold execSquallEnd
  dsimp only
  rw [s.inSquall_supplySeen, hin, hrel', decide_eq_false (Nat.not_le.mpr hrise), if_neg (by decide), hsupply, s.beat_supplySeen]

theorem supplyActs_rise (s : State) (v : Nat) (hrise : 43500 < v) (hin : s.inSquall = true) (hrel : s.clk.releasing = false) :
    (s.clk.supply ≠ 0 →
      ∃ t : State, exec (.squallEnd v) s = .next t ∧ t.clk.releasing = true ∧ t.clk.nextSupply = s.beat + 17 ∧ t.clk.supply = s.clk.supply ∧
        t.agenda = s.agenda ∧ SameMem s t ∧ SameRegsBut [rPwrSupplyMin] s t) ∧
    (s.clk.supply = 0 → s.evq.length < 1024 →
      ∃ (t : State) (e : EventRec), exec (.squallEnd v) s = .next t ∧ t.inSquall = false ∧ t.clk.cap = false ∧ t.evq = s.evq ++ [e] ∧ e.code = 0x0404 ∧
        e.ext = min s.clk.squallMin v ∧ SameMem s t ∧ SameRegsBut ([rPwrStatus, rPwrSupplyMin] ++ eventRegs) s t) := by
  have hexec := execSquallEnd_of_rise hrise hin hrel
  obtain ⟨hseen, hclk, -, hevq, hagenda⟩ := s.supplySeen_spec v
  rw [if_pos hin] at hclk
  generalize s.supplySeen v = u at *
  refine ⟨fun hsup => ?_, fun hsup hroom => ?_⟩
  · rw [if_neg hsup] at hexec
    have hall : Leaves (· ∈ [rPwrSupplyMin]) s { u with clk := { u.clk with releasing := true, nextSupply := s.beat + 17 } } := .upd hseen
    exact ⟨_, hexec, rfl, rfl, by rw [hclk], hagenda, hall.sameMem, hall.sameRegsBut⟩
  · rw [if_pos hsup] at hexec
    obtain ⟨e, hsent, hcode, hext, hout, hend, hleaves⟩ := u.endSquall_spec (by rwa [hevq])
    have hall := (hseen.mono (Q := (· ∈ [rPwrStatus, rPwrSupplyMin] ++ eventRegs)) fun r hr => by rw [List.mem_singleton.mp hr]; simp).trans
      (hleaves.mono fun r hr => by
        rcases List.mem_cons.mp hr with rfl | hr
        · simp
        · exact List.mem_append_right _ hr)
    exact ⟨_, e, hexec, hout, by rw [hend], by rw [hsent, hevq], hcode, by rw [hext, hclk], hall.sameMem, hall.sameRegsBut⟩

/-! Steps. -/

/-- A step of the release (R550). -/
def State.released (s : State) : State :=
  { s.setRatios (s.clk.supply - 1) s.clk.thermal with
    clk := { (s.setRatios (s.clk.supply - 1) s.clk.thermal).clk with nextSupply := s.beat + 16 } }

theorem State.released_spec (s : State) : Leaves (· ∈ [rPwrStatus]) s s.released ∧
    (∃ g, s.released.clk = { s.clk with supply := s.clk.supply - 1, ratio := max (s.clk.supply - 1) s.clk.thermal, group := g, nextSupply := s.beat + 16 }) ∧
    s.released.evq = s.evq ∧ s.released.agenda = s.agenda := by
  obtain ⟨hleaves, ⟨g, hg⟩, -, hevq, hagenda, -⟩ := s.setRatios_spec (s.clk.supply - 1) s.clk.thermal
  unfold State.released
  generalize s.setRatios (s.clk.supply - 1) s.clk.thermal = u at *
  exact ⟨.upd hleaves, ⟨g, by rw [hg]⟩, hevq, hagenda⟩

theorem execSwallowRatioStep_of_release {s : State} (hrel : s.clk.releasing = true) (hdue : s.clk.nextSupply ≤ s.beat) (hsup : s.clk.supply ≠ 0) :
    exec (.swallowRatioStep false) s = .next (if s.clk.supply = 1 then s.released.endSquall else s.released) := by
  obtain ⟨-, ⟨g, hg⟩, -⟩ := s.released_spec
  have hleft : (s.released.clk.supply = 0) = (s.clk.supply = 1) := by
    rw [hg]
    exact propext (by dsimp only; omega)
  show execSwallowRatioStep false s = _
  unfold execSwallowRatioStep
  dsimp only
  rw [if_neg (by decide), hrel, decide_eq_false (Nat.not_lt.mpr hdue), if_neg (by simpa using hsup)]
  show Host.Outcome.next (if s.released.clk.supply = 0 then s.released.endSquall else s.released) = _
  simp only [hleft]

theorem supplyActs_release (s : State) (n : Nat) (hrel : s.clk.releasing = true) (hdue : s.clk.nextSupply ≤ s.beat) :
    (s.clk.supply = n + 2 → ∃ t : State, exec (.swallowRatioStep false) s = .next t ∧ t.clk.supply = n + 1 ∧
      t.clk.ratio = max (n + 1) s.clk.thermal ∧ t.clk.nextSupply = s.beat + 16 ∧ t.agenda = s.agenda ∧ SameMem s t ∧
      SameRegsBut [rPwrStatus] s t) ∧
    (s.clk.supply = 1 → s.evq.length < 1024 → ∃ (t : State) (e : EventRec), exec (.swallowRatioStep false) s = .next t ∧ t.clk.supply = 0 ∧
      t.clk.ratio = s.clk.thermal ∧ t.clk.releasing = false ∧ t.clk.cap = false ∧ t.inSquall = false ∧ t.evq = s.evq ++ [e] ∧
      e.code = 0x0404 ∧ e.ext = s.clk.squallMin ∧ SameMem s t ∧ SameRegsBut (rPwrStatus :: eventRegs) s t) := by
  obtain ⟨hleaves, ⟨g, hg⟩, hevq, hagenda⟩ := s.released_spec
  refine ⟨fun hsup => ?_, fun hsup hroom => ?_⟩
  · have hexec := execSwallowRatioStep_of_release hrel hdue (by omega)
    rw [if_neg (by omega)] at hexec
    have hone : s.clk.supply - 1 = n + 1 := by omega
    rw [hone] at hg
    exact ⟨_, hexec, by rw [hg], by rw [hg], by rw [hg], hagenda, hleaves.sameMem, hleaves.sameRegsBut⟩
  · have hexec := execSwallowRatioStep_of_release hrel hdue (by omega)
    rw [if_pos hsup] at hexec
    have hnone : s.clk.supply - 1 = 0 := by omega
    rw [hnone, Nat.zero_max] at hg
    generalize s.released = u at *
    obtain ⟨e, hsent, hcode, hext, hout, hend, hfin⟩ := u.endSquall_spec (by rwa [hevq])
    have hall := (hleaves.mono (Q := (· ∈ rPwrStatus :: eventRegs)) fun r hr => List.mem_cons.mpr (.inl (List.mem_singleton.mp hr))).trans hfin
    exact ⟨_, e, hexec, by rw [hend, hg], by rw [hend, hg], by rw [hend], by rw [hend], hout, by rw [hsent, hevq], hcode, by rw [hext, hg], hall.sameMem,
      hall.sameRegsBut⟩

/-- A step of the thermal ratio (R553). -/
def State.warmed (s : State) (r : Nat) : State :=
  { s.setRatios s.clk.supply r with clk := { (s.setRatios s.clk.supply r).clk with nextThermal := s.beat + 16 } }

theorem State.warmed_spec (s : State) (r : Nat) : Leaves (· ∈ [rPwrStatus]) s (s.warmed r) ∧ (s.warmed r).clk.thermal = r ∧
    (s.warmed r).clk.ratio = max s.clk.supply r ∧ (s.warmed r).clk.nextThermal = s.beat + 16 ∧ (s.warmed r).evq = s.evq := by
  obtain ⟨hleaves, ⟨g, hg⟩, -, hevq, -⟩ := s.setRatios_spec s.clk.supply r
  unfold State.warmed
  generalize s.setRatios s.clk.supply r = u at *
  exact ⟨.upd hleaves, by rw [hg], by rw [hg], rfl, hevq⟩

theorem execSwallowRatioStep_of_thermal {s : State} (hdue : s.clk.nextThermal ≤ s.beat) : exec (.swallowRatioStep true) s =
    if 950 ≤ s.pwr.tj ∧ s.clk.thermal < 6 then
      .next (if s.clk.thermal = 0 then (s.warmed 1).eventDie 20 0x0407 0 s.pwr.tj else s.warmed (s.clk.thermal + 1))
    else if s.pwr.tj < 930 ∧ 0 < s.clk.thermal then
      .next (if s.clk.thermal = 1 then (s.warmed 0).eventDie 20 0x0408 0 s.pwr.tj else s.warmed (s.clk.thermal - 1))
    else .next s := by
  show execSwallowRatioStep true s = _
  unfold execSwallowRatioStep
  dsimp only
  rw [if_pos rfl, if_neg (Nat.not_lt.mpr hdue)]
  rfl

/-- A thermal step that is reported (R553). -/
theorem State.warmed_reported (s : State) (r code : Nat) (hroom : s.evq.length < 1024) :
    ∃ e : EventRec, ((s.warmed r).eventDie 20 code 0 s.pwr.tj).evq = s.evq ++ [e] ∧ e.code = code ∧ e.ext = s.pwr.tj ∧
      ((s.warmed r).eventDie 20 code 0 s.pwr.tj).clk = (s.warmed r).clk ∧
      Leaves (· ∈ rPwrStatus :: eventRegs) s ((s.warmed r).eventDie 20 code 0 s.pwr.tj) := by
  obtain ⟨hleaves, -, -, -, hevq⟩ := s.warmed_spec r
  obtain ⟨e, hsent, hcode, hext, hdie, hclk, -, -⟩ := (s.warmed r).eventDie_spec 20 code 0 s.pwr.tj (by rwa [hevq])
  exact ⟨e, by rw [hsent, hevq], hcode, hext, hclk,
    (hleaves.mono fun r hr => List.mem_cons.mpr (.inl (List.mem_singleton.mp hr))).trans (hdie.mono fun _ h => List.mem_cons_of_mem _ h)⟩

theorem supplyActs_warms (s : State) (n : Nat) (hdue : s.clk.nextThermal ≤ s.beat) (hn : s.clk.thermal = n) :
    (950 ≤ s.pwr.tj → 0 < n → n < 6 → ∃ t : State, exec (.swallowRatioStep true) s = .next t ∧ t.clk.thermal = n + 1 ∧
      t.clk.ratio = max s.clk.supply (n + 1) ∧ t.clk.nextThermal = s.beat + 16 ∧ t.evq = s.evq ∧ SameMem s t ∧
      SameRegsBut [rPwrStatus] s t) ∧
    (950 ≤ s.pwr.tj → n = 0 → s.evq.length < 1024 → ∃ (t : State) (e : EventRec), exec (.swallowRatioStep true) s = .next t ∧ t.clk.thermal = 1 ∧
      t.clk.ratio = max s.clk.supply 1 ∧ t.clk.nextThermal = s.beat + 16 ∧ t.evq = s.evq ++ [e] ∧ e.code = 0x0407 ∧ e.ext = s.pwr.tj ∧
      SameMem s t ∧ SameRegsBut (rPwrStatus :: eventRegs) s t) ∧
    (s.pwr.tj < 930 → 1 < n → ∃ t : State, exec (.swallowRatioStep true) s = .next t ∧ t.clk.thermal = n - 1 ∧
      t.clk.ratio = max s.clk.supply (n - 1) ∧ t.evq = s.evq ∧ SameMem s t ∧ SameRegsBut [rPwrStatus] s t) ∧
    (s.pwr.tj < 930 → n = 1 → s.evq.length < 1024 → ∃ (t : State) (e : EventRec), exec (.swallowRatioStep true) s = .next t ∧ t.clk.thermal = 0 ∧
      t.clk.ratio = s.clk.supply ∧ t.evq = s.evq ++ [e] ∧ e.code = 0x0408 ∧ SameMem s t ∧ SameRegsBut (rPwrStatus :: eventRegs) s t) := by
  have hexec := execSwallowRatioStep_of_thermal hdue
  rw [hn] at hexec
  refine ⟨fun hot hlo hhi => ?_, fun hot h0 hroom => ?_, fun hcool hlo => ?_, fun hcool h1 hroom => ?_⟩
  · rw [if_pos ⟨hot, hhi⟩, if_neg (by omega)] at hexec
    obtain ⟨hleaves, hth, hra, hnext, hevq⟩ := s.warmed_spec (n + 1)
    exact ⟨_, hexec, hth, hra, hnext, hevq, hleaves.sameMem, hleaves.sameRegsBut⟩
  · rw [if_pos ⟨hot, by omega⟩, if_pos h0] at hexec
    obtain ⟨-, hth, hra, hnext, -⟩ := s.warmed_spec 1
    obtain ⟨e, hsent, hcode, hext, hclk, hleaves⟩ := s.warmed_reported 1 0x0407 hroom
    exact ⟨_, e, hexec, by rw [hclk, hth], by rw [hclk, hra], by rw [hclk, hnext], hsent, hcode, hext, hleaves.sameMem, hleaves.sameRegsBut⟩
  · rw [if_neg (by omega), if_pos ⟨hcool, by omega⟩, if_neg (by omega)] at hexec
    obtain ⟨hleaves, hth, hra, -, hevq⟩ := s.warmed_spec (n - 1)
    exact ⟨_, hexec, hth, hra, hevq, hleaves.sameMem, hleaves.sameRegsBut⟩
  · rw [if_neg (by omega), if_pos ⟨hcool, by omega⟩, if_pos h1] at hexec
    obtain ⟨-, hth, hra, -, -⟩ := s.warmed_spec 0
    obtain ⟨e, hsent, hcode, -, hclk, hleaves⟩ := s.warmed_reported 0 0x0408 hroom
    exact ⟨_, e, hexec, by rw [hclk, hth], by rw [hclk, hra, Nat.max_zero], hsent, hcode, hleaves.sameMem, hleaves.sameRegsBut⟩

/-! Reports. -/

/-- What decides whether a report of the supply is due is as before once the voltage has been seen (R548). -/
theorem State.onceASecond_supplySeen (s : State) (v : Nat) : (s.supplySeen v).onceASecond (s.supplySeen v).clk.lastLow = s.onceASecond s.clk.lastLow ∧
    (s.supplySeen v).onceASecond (s.supplySeen v).clk.lastHigh = s.onceASecond s.clk.lastHigh := by
  obtain ⟨-, hclk, -⟩ := s.supplySeen_spec v
  unfold State.onceASecond
  rw [hclk]
  exact ⟨rfl, rfl⟩

theorem execSupplyLow_eq (s : State) (v : Nat) : exec (.supplyLow v) s =
    if (s.onceASecond s.clk.lastLow && decide (42000 ≤ v) && decide (v < 44000)) = true then
      .next (({ s.supplySeen v with clk := { (s.supplySeen v).clk with lastLow := some (s.supplySeen v).clk.wall } } : State).eventDie 20 0x0401 0 v)
    else .next (s.supplySeen v) := by
  rw [← (s.onceASecond_supplySeen v).1]
  rfl

theorem execSupplyHigh_eq (s : State) (v : Nat) : exec (.supplyHigh v) s =
    if (s.onceASecond s.clk.lastHigh && decide (58000 < v) && decide (v ≤ 60000)) = true then
      .next (({ s.supplySeen v with clk := { (s.supplySeen v).clk with lastHigh := some (s.supplySeen v).clk.wall } } : State).eventDie 20 0x0402 0 v)
    else .next (s.supplySeen v) := by
  rw [← (s.onceASecond_supplySeen v).2]
  rfl

/-- A voltage reported, with a new clock record (R548). -/
theorem State.supply_reported (s : State) (v code : Nat) (c : Clk) (hroom : s.evq.length < 1024) :
    ∃ e : EventRec, (({ s.supplySeen v with clk := c } : State).eventDie 20 code 0 v).evq = s.evq ++ [e] ∧ e.code = code ∧ e.ext = v ∧
      (({ s.supplySeen v with clk := c } : State).eventDie 20 code 0 v).clk = c ∧
      (({ s.supplySeen v with clk := c } : State).eventDie 20 code 0 v).agenda = s.agenda ∧
      Leaves (· ∈ rPwrSupplyMin :: eventRegs) s (({ s.supplySeen v with clk := c } : State).eventDie 20 code 0 v) := by
  obtain ⟨hseen, -, -, hevq, hagenda⟩ := s.supplySeen_spec v
  have hevq' : ({ s.supplySeen v with clk := c } : State).evq = s.evq := hevq
  have hagenda' : ({ s.supplySeen v with clk := c } : State).agenda = s.agenda := hagenda
  have hclk' : ({ s.supplySeen v with clk := c } : State).clk = c := rfl
  have hleaves : Leaves (· ∈ [rPwrSupplyMin]) s { s.supplySeen v with clk := c } := .upd hseen
  generalize ({ s.supplySeen v with clk := c } : State) = u at *
  obtain ⟨e, hsent, hcode, hext, hdie, hclk, -, hag⟩ := u.eventDie_spec 20 code 0 v (by rwa [hevq'])
  exact ⟨e, by rw [hsent, hevq'], hcode, hext, by rw [hclk, hclk'], by rw [hag, hagenda'],
    (hleaves.mono fun r hr => List.mem_cons.mpr (.inl (List.mem_singleton.mp hr))).trans (hdie.mono fun _ h => List.mem_cons_of_mem _ h)⟩

theorem supplyActs_low (s : State) (v : Nat) (hlo : 42000 ≤ v) (hhi : v < 44000) (hdue : s.onceASecond s.clk.lastLow = true) (hroom : s.evq.length < 1024) :
    ∃ (t : State) (e : EventRec), exec (.supplyLow v) s = .next t ∧ t.clk.lastLow = some s.clk.wall ∧ t.evq = s.evq ++ [e] ∧ e.code = 0x0401 ∧ e.ext = v ∧
      t.agenda = s.agenda ∧ SameMem s t ∧ SameRegsBut (rPwrSupplyMin :: eventRegs) s t := by
  have hexec := execSupplyLow_eq s v
  rw [hdue, decide_eq_true hlo, decide_eq_true hhi, if_pos (show (true && true && true) = true from rfl)] at hexec
  obtain ⟨-, hclk, -⟩ := s.supplySeen_spec v
  obtain ⟨e, hsent, hcode, hext, hend, hagenda, hleaves⟩ :=
    s.supply_reported v 0x0401 { (s.supplySeen v).clk with lastLow := some (s.supplySeen v).clk.wall } hroom
  exact ⟨_, e, hexec, by rw [hend, hclk], hsent, hcode, hext, hagenda, hleaves.sameMem, hleaves.sameRegsBut⟩

theorem supplyActs_high (s : State) (v : Nat) (hlo : 58000 < v) (hhi : v ≤ 60000) (hdue : s.onceASecond s.clk.lastHigh = true)
    (hroom : s.evq.length < 1024) :
    ∃ (t : State) (e : EventRec), exec (.supplyHigh v) s = .next t ∧ t.clk.lastHigh = some s.clk.wall ∧ t.evq = s.evq ++ [e] ∧ e.code = 0x0402 ∧ e.ext = v ∧
      t.agenda = s.agenda ∧ SameMem s t ∧ SameRegsBut (rPwrSupplyMin :: eventRegs) s t := by
  have hexec := execSupplyHigh_eq s v
  rw [hdue, decide_eq_true hlo, decide_eq_true hhi, if_pos (show (true && true && true) = true from rfl)] at hexec
  obtain ⟨-, hclk, -⟩ := s.supplySeen_spec v
  obtain ⟨e, hsent, hcode, hext, hend, hagenda, hleaves⟩ :=
    s.supply_reported v 0x0402 { (s.supplySeen v).clk with lastHigh := some (s.supplySeen v).clk.wall } hroom
  exact ⟨_, e, hexec, by rw [hend, hclk], hsent, hcode, hext, hagenda, hleaves.sameMem, hleaves.sameRegsBut⟩

/-- Settles O37: Squall, its release, the thermal steps and the reports of the supply. -/
theorem supplyActs : Obligations.SupplyActs := by
  refine ⟨supplyActs_squall, supplyActs_again, fun s v h => if_pos (by simpa using h), supplyActs_rise, fun s v h => ?_, supplyActs_release, fun s h => ?_,
    supplyActs_warms, supplyActs_low, supplyActs_high, fun s v => ⟨fun h => ?_, fun h => ?_⟩⟩
  · obtain ⟨-, hclk, -⟩ := s.supplySeen_spec v
    have hrel : (s.supplySeen v).clk.releasing = s.clk.releasing := by rw [hclk]
    refine if_pos ?_
    rw [hrel]
    rcases h with h | h
    · rw [decide_eq_true h, Bool.or_true]
    · rw [h, Bool.or_true, Bool.true_or]
  · show execSwallowRatioStep false s = _
    unfold execSwallowRatioStep
    dsimp only
    rw [if_neg (by decide), if_pos]
    rcases h with h | h
    · rw [h]
      rfl
    · rw [decide_eq_true h, Bool.or_true, Bool.true_or]
  · rw [execSupplyLow_eq, if_neg]
    rcases h with h | h | h
    · rw [h]
      exact Bool.false_ne_true
    · rw [decide_eq_false (Nat.not_le.mpr h), Bool.and_false]
      exact Bool.false_ne_true
    · rw [decide_eq_false (Nat.not_lt.mpr h), Bool.and_false]
      exact Bool.false_ne_true
  · rw [execSupplyHigh_eq, if_neg]
    rcases h with h | h | h
    · rw [h]
      exact Bool.false_ne_true
    · rw [decide_eq_false (Nat.not_lt.mpr h), Bool.and_false]
      exact Bool.false_ne_true
    · rw [decide_eq_false (Nat.not_le.mpr h), Bool.and_false]
      exact Bool.false_ne_true

end Sys2Proof.Machine
end

section
/-! PROOF. Cold and warm resets (R555, R556, R560, R566, R648). -/
namespace Sys2Proof.Machine

/-! What a cold reset leaves. -/

/-- The module as a cold reset leaves it (R556): nothing in memory, nothing due, and every register but the cause at its reset value. -/
structure State.Cold (s t : State) (kind : Nat) : Prop where
  hbm : t.hbm = []
  store : t.store = []
  lstore : t.lstore = []
  mbuf : t.mbuf = []
  agenda : t.agenda = []
  pending : t.pending = s.pending
  cause : t.fld rPwrResetCause 63 56 = kind
  regs : ∀ r, r ≠ rPwrResetCause → t.reg r = resetWord r

/-- A cause of kind `kind` written alone (R582). -/
theorem getF_cause {kind : Nat} (h : kind < 256) : getF (BitVec.ofNat 64 (kind * 2 ^ 56)) 63 56 = kind := by
  unfold getF
  rw [BitVec.toNat_ofNat]
  omega

/-- The module as a cold reset leaves it, but for the cause. -/
def State.coldBare (s : State) (held : Bool) : State where
  pending := s.pending
  outbox := s.outbox
  nextId := s.nextId
  free := s.free
  zen := s.storeKept
  clk := { wall := s.clk.wall }
  pwr := { ao := s.pwr.ao, mv := s.pwr.mv, tj := s.pwr.tj, held := held, thermtripN := s.pwr.thermtripN || !held, cold := true,
           pwrgdAt := s.pwr.pwrgdAt, pwrgdLow := s.pwr.pwrgdLow, resetLow := s.pwr.resetLow }

theorem State.coldState_eq (s : State) (kind : Nat) (held : Bool) :
    s.coldState kind held = (s.coldBare held).setReg rPwrResetCause (BitVec.ofNat 64 (kind * 2 ^ 56)) := rfl

theorem State.setReg_cold (s : State) (held : Bool) {v : Word} {kind : Nat} (h : getF v 63 56 = kind) :
    s.Cold ((s.coldBare held).setReg rPwrResetCause v) kind where
  hbm := rfl
  store := rfl
  lstore := rfl
  mbuf := rfl
  agenda := rfl
  pending := rfl
  cause := by
    unfold State.fld
    rw [State.reg_setReg_same]
    exact h
  regs r hr := State.reg_setReg_ne _ _ hr

theorem State.coldState_cold (s : State) {kind : Nat} (held : Bool) (h : kind < 256) : s.Cold (s.coldState kind held) kind := by
  rw [State.coldState_eq]
  exact s.setReg_cold held (getF_cause h)

theorem State.pwr_coldState (s : State) (kind : Nat) (held : Bool) : (s.coldState kind held).pwr = (s.coldBare held).pwr := by
  rw [State.coldState_eq]
  rfl

theorem State.coldHold_cold (s : State) (code : Nat) {kind : Nat} (h : kind < 256) :
    (s.coldHold code kind).pwr.held = true ∧ s.Cold (s.coldHold code kind) kind := by
  unfold State.coldHold
  refine ⟨by rw [State.pwr_coldState]; rfl, ?_⟩
  obtain ⟨hhbm, hstore, hlstore, hmbuf, hagenda, hpending, hcause, hregs⟩ := ((s.aoAppend code).commitAo).coldState_cold true h
  exact ⟨hhbm, hstore, hlstore, hmbuf, hagenda, hpending, hcause, hregs⟩

theorem State.powerOn_cold (s : State) {kind : Nat} (h : kind < 256) : (s.powerOn kind).pwr.held = s.pwr.resetLow ∧
    (s.powerOn kind).pwr.awaitRise = s.pwr.resetLow ∧ s.Cold (s.powerOn kind) kind := by
  have hpwr := s.pwr_coldState kind false
  have hcold := s.coldState_cold false h
  unfold State.powerOn
  generalize s.coldState kind false = u at *
  obtain ⟨hhbm, hstore, hlstore, hmbuf, hagenda, hpending, hcause, hregs⟩ := hcold
  have hlow : u.pwr.resetLow = s.pwr.resetLow := by
    rw [hpwr]
    rfl
  exact ⟨hlow, hlow, hhbm, hstore, hlstore, hmbuf, hagenda, hpending, hcause, hregs⟩

theorem State.cause_lt (s : State) : s.fld rPwrResetCause 63 56 < 256 := State.fld_lt s rPwrResetCause 63 56

/-! What a reset of register bits leaves (R566). -/

/-- A word with the bits of a mask at their reset value. -/
def resetUnder (r : Nat) (mask : Nat) (v : Word) : Word := (v &&& ~~~(BitVec.ofNat 64 mask)) ||| (resetWord r &&& BitVec.ofNat 64 mask)

theorem resetUnder_resetWord (r mask : Nat) : resetUnder r mask (resetWord r) = resetWord r := by
  unfold resetUnder
  ext i hi
  simp only [BitVec.getElem_or, BitVec.getElem_and, BitVec.getElem_not]
  cases (resetWord r)[i] <;> cases (BitVec.ofNat 64 mask)[i] <;> rfl

theorem resetUnder_zero (r : Nat) (v : Word) : resetUnder r 0 v = v := by
  unfold resetUnder
  rw [show BitVec.ofNat 64 0 = (0 : Word) from rfl, show ~~~(0 : Word) = BitVec.allOnes 64 from rfl, BitVec.and_allOnes]
  simp

/-- One register of a list whose copies of it agree, after the reset of its bits (R566). -/
theorem regFind_resetUnder (mask : Nat → Nat) (r : Nat) (w : Word) {l : List (Nat × Word)} (hagree : ∀ e ∈ l, e.1 = r → e.2 = w) :
    regFind (l.filterMap fun e => if resetUnder e.1 (mask e.1) e.2 = resetWord e.1 then none else some (e.1, resetUnder e.1 (mask e.1) e.2)) r =
      if resetUnder r (mask r) w = resetWord r then none else (regFind l r).map fun _ => resetUnder r (mask r) w := by
  induction l with
  | nil => exact (ite_self _).symm
  | cons e l ih =>
    obtain ⟨hhead, htail⟩ := List.forall_mem_cons.mp hagree
    have hrest := ih htail
    obtain ⟨j, v⟩ := e
    rw [List.filterMap_cons]
    by_cases hj : j = r
    · subst hj
      obtain rfl : v = w := hhead rfl
      by_cases hv : resetUnder j (mask j) v = resetWord j
      · rw [if_pos hv] at hrest
        rw [if_pos hv, if_pos hv]
        exact hrest
      · rw [if_neg hv, if_neg hv, show regFind ((j, v) :: l) j = some v from if_pos rfl]
        exact if_pos rfl
    · rw [show regFind ((j, v) :: l) r = regFind l r from if_neg hj, ← hrest]
      by_cases hv : resetUnder j (mask j) v = resetWord j
      · rw [if_pos hv]
      · rw [if_neg hv]
        exact if_neg hj

/-- Every copy of a register in the list holds what the register reads as. The canonical list has one copy at most. -/
def State.Agrees (s : State) (r : Nat) : Prop := ∀ e ∈ s.regs, e.1 = r → e.2 = s.reg r

theorem State.agrees_of_regsOk {s : State} (hregs : s.RegsOk) (r : Nat) : s.Agrees r := by
  obtain ⟨hrise, -⟩ := hregs
  unfold State.Agrees State.reg
  generalize s.regs = l at hrise
  induction l with
  | nil => exact fun e he => absurd he List.not_mem_nil
  | cons x l ih =>
    obtain ⟨hhead, htail⟩ := List.pairwise_cons.mp hrise
    obtain ⟨j, v⟩ := x
    intro e he hr
    by_cases hx : j = r
    · rw [show regFind ((j, v) :: l) r = some v from if_pos hx]
      rcases List.mem_cons.mp he with rfl | hin
      · rfl
      · have hlt := hhead e hin
        dsimp only at hlt
        omega
    · rw [show regFind ((j, v) :: l) r = regFind l r from if_neg hx]
      rcases List.mem_cons.mp he with rfl | hin
      · exact absurd hr hx
      · exact ih htail e hin hr

theorem mem_put {α : Type} {m : SMap α} {k : Nat} {v : α} {e : Nat × α} (h : e ∈ SMap.put m k v) : e = (k, v) ∨ e ∈ m := by
  induction m with
  | nil => exact .inl (List.mem_singleton.mp h)
  | cons x m ih =>
    unfold SMap.put at h
    split at h
    · exact List.mem_cons.mp h
    · rcases List.mem_cons.mp h with rfl | h
      · exact .inr List.mem_cons_self
      · exact (ih h).imp_right (List.mem_cons_of_mem _)

theorem State.agrees_setReg {s : State} {r : Nat} (k : Nat) (v : Word) (h : r ≠ k → s.Agrees r) : (s.setReg k v).Agrees r := by
  intro e he hr
  have hcase : e = (k, v) ∨ e ∈ SMap.erase s.regs k := by
    by_cases hv : v = resetWord k
    · refine .inr ?_
      rw [show (s.setReg k v).regs = SMap.erase s.regs k from if_pos hv] at he
      exact he
    · rw [show (s.setReg k v).regs = SMap.put (SMap.erase s.regs k) k v from if_neg hv] at he
      exact mem_put he
  rcases hcase with rfl | hin
  · obtain rfl : k = r := hr
    rw [State.reg_setReg_same]
  · have hk : e.1 ≠ k := mem_erase_ne s.regs k e hin
    rw [State.reg_setReg_ne s v (by omega)]
    exact h (by omega) e (List.mem_filter.mp hin).1 hr

theorem State.reg_resetBits {s : State} {r : Nat} (h : s.Agrees r) (mask : Nat → Nat) : (s.resetBits mask).reg r = resetUnder r (mask r) (s.reg r) := by
  have hfind := regFind_resetUnder mask r (s.reg r) h
  have hreg : (s.resetBits mask).reg r = (if resetUnder r (mask r) (s.reg r) = resetWord r then none
      else (regFind s.regs r).map fun _ => resetUnder r (mask r) (s.reg r)).getD (resetWord r) := congrArg (Option.getD · (resetWord r)) hfind
  rw [hreg]
  by_cases hv : resetUnder r (mask r) (s.reg r) = resetWord r
  · rw [if_pos hv, Option.getD_none, hv]
  · rw [if_neg hv]
    cases hin : regFind s.regs r with
    | some w => rfl
    | none =>
      refine absurd ?_ hv
      rw [show s.reg r = resetWord r from congrArg (Option.getD · (resetWord r)) hin, resetUnder_resetWord]

theorem testBit_getF_resetUnder (r mask hi lo i : Nat) (v : Word) : (getF (resetUnder r mask v) hi lo).testBit i =
    if (getF (BitVec.ofNat 64 mask) hi lo).testBit i then (getF (resetWord r) hi lo).testBit i else (getF v hi lo).testBit i := by
  simp only [testBit_getF]
  unfold resetUnder
  by_cases hi64 : lo + i < 64
  · simp only [BitVec.getLsbD_or, BitVec.getLsbD_and, BitVec.getLsbD_not, hi64, decide_true, Bool.true_and]
    cases decide (i < hi + 1 - lo) <;> cases v.getLsbD (lo + i) <;> cases (resetWord r).getLsbD (lo + i) <;>
      cases (BitVec.ofNat 64 mask).getLsbD (lo + i) <;> rfl
  · have hout : ∀ w : Word, w.getLsbD (lo + i) = false := fun w => BitVec.getLsbD_of_ge w _ (Nat.not_lt.mp hi64)
    simp only [hout, Bool.and_false, Bool.false_eq_true, if_false]

/-- A field none of whose bits the mask names keeps its value. -/
theorem getF_resetUnder_kept {r mask hi lo : Nat} (v : Word) (h : getF (BitVec.ofNat 64 mask) hi lo = 0) :
    getF (resetUnder r mask v) hi lo = getF v hi lo := by
  refine Nat.eq_of_testBit_eq fun i => ?_
  rw [testBit_getF_resetUnder, h, Nat.zero_testBit, if_neg Bool.false_ne_true]

/-- A field all of whose bits the mask names is at its reset value. -/
theorem getF_resetUnder_cleared {r mask hi lo : Nat} (v : Word) (h : getF (BitVec.ofNat 64 mask) hi lo = 2 ^ (hi + 1 - lo) - 1) :
    getF (resetUnder r mask v) hi lo = getF (resetWord r) hi lo := by
  refine Nat.eq_of_testBit_eq fun i => ?_
  rw [testBit_getF_resetUnder, h, Nat.testBit_two_pow_sub_one]
  by_cases hin : i < hi + 1 - lo
  · rw [if_pos (decide_eq_true hin)]
  · rw [if_neg (by rw [decide_eq_false hin]; exact Bool.false_ne_true), testBit_getF, testBit_getF, decide_eq_false hin, Bool.false_and, Bool.false_and]

/-! The warm reset (R556, R566). -/

/-- A warm reset keeps the beat, and of a partition its cores, but not its state (R566). -/
theorem warmMask_beat : warmMask rClkBeat = 0 := by decide

theorem warmMask_part : ∀ k < 4, getF (BitVec.ofNat 64 (warmMask (rZenPart k))) 59 57 = 7 ∧ getF (BitVec.ofNat 64 (warmMask (rZenPart k))) 47 44 = 0 ∧
    getF (resetWord (rZenPart k)) 59 57 = 0 := by decide

/-- The module as a warm reset leaves it, but for the cause and the PSTAT pins. -/
def State.warmBare (s : State) : State where
  pending := s.pending
  outbox := s.outbox
  nextId := s.nextId
  free := s.free
  zen := { s.storeKept with dumpSeq := s.zen.dumpSeq }
  clk := { wall := s.clk.wall, counting := s.clk.counting, refLost := s.clk.refLost, epochHigh := s.clk.epochHigh }
  pwr := { ao := s.pwr.ao, mv := s.pwr.mv, tj := s.pwr.tj, cold := false, pwrgdAt := s.pwr.pwrgdAt, pwrgdLow := s.pwr.pwrgdLow, resetLow := s.pwr.resetLow }
  regs := (s.resetBits warmMask).regs
  hbm := s.hbm
  store := s.store
  lstore := s.lstore
  badLine := s.badLine
  dumps := s.dumps
  parts := (List.range 4).foldl (fun m k => SMap.set m k (if s.conf k then { clearAfter := true } else {})) []

theorem State.warmState_eq (s : State) : s.warmState = (s.warmBare.setReg rPwrResetCause (BitVec.ofNat 64 (5 * 2 ^ 56))).showPstat := rfl

theorem State.reg_warmState {s : State} (hregs : s.RegsOk) {r : Nat} (hr : r ≠ rPwrResetCause) :
    s.warmState.reg r = resetUnder r (warmMask r) (s.reg r) := by
  rw [← State.reg_resetBits (State.agrees_of_regsOk hregs r), s.warmState_eq, State.showPstat_keeps (State.reg · r) fun _ _ => rfl]
  exact State.reg_setReg_ne _ _ hr

theorem State.setReg_memories (s : State) (r : Nat) (v : Word) : (s.setReg r v).hbm = s.hbm ∧ (s.setReg r v).store = s.store ∧
    (s.setReg r v).lstore = s.lstore ∧ (s.setReg r v).pending = s.pending := ⟨rfl, rfl, rfl, rfl⟩

theorem State.warmState_kept (s : State) : s.warmState.hbm = s.hbm ∧ s.warmState.store = s.store ∧ s.warmState.lstore = s.lstore ∧
    s.warmState.pending = s.pending ∧ s.warmState.fld rPwrResetCause 63 56 = 5 := by
  obtain ⟨hhbm, hstore, hlstore, hpending⟩ := s.warmBare.setReg_memories rPwrResetCause (BitVec.ofNat 64 (5 * 2 ^ 56))
  rw [s.warmState_eq]
  refine ⟨hhbm, hstore, hlstore, hpending, ?_⟩
  rw [State.showPstat_keeps (State.fld · rPwrResetCause 63 56) fun _ _ => rfl]
  unfold State.fld
  rw [State.reg_setReg_same]
  exact getF_cause (by norm_num)

theorem State.part_warmState {s : State} (hregs : s.RegsOk) {k : Nat} (hk : k < 4) : s.warmState.pstate k = 0 ∧ s.warmState.partCores k = s.partCores k := by
  have hne : rZenPart k ≠ rPwrResetCause := by unfold rZenPart rPwrResetCause; omega
  obtain ⟨hstate, hcores, hzero⟩ := warmMask_part k hk
  unfold State.pstate State.partCores State.fld
  rw [State.reg_warmState hregs hne]
  exact ⟨(getF_resetUnder_cleared _ hstate).trans hzero, congrArg (maskList 4) (getF_resetUnder_kept _ hcores)⟩

/-! The commands. -/

theorem State.Cold.of_pending {s u t : State} {kind : Nat} (h : u.Cold t kind) (hpending : u.pending = s.pending) : s.Cold t kind :=
  { h with pending := h.pending.trans hpending }

theorem State.pending_supplySeen (s : State) (v : Nat) : (s.supplySeen v).pending = s.pending := by
  rw [s.supplySeen_eq v]
  split
  · rfl
  · rfl

theorem execPwrgd_rise {s : State} (hrun : (s.pwr.held && !s.pwr.awaitRise) = false) :
    exec (.pwrgd true) s = .next (s.powerOn (if s.pwr.awaitRise then s.fld rPwrResetCause 63 56 else 1)) :=
  if_neg (by rw [hrun]; exact Bool.false_ne_true)

theorem execPwrgd_held {s : State} (hheld : s.pwr.held = true) (hawait : s.pwr.awaitRise = false) : exec (.pwrgd true) s =
    if s.pwr.pwrgdLow ∧ s.pwr.pwrgdAt + 7000000 ≤ s.clk.wall then
      .next ((if s.pwr.thermtripN then s else s.out (.pin "THERMTRIP_N" 1)).powerOn (s.fld rPwrResetCause 63 56))
    else .next s :=
  if_pos (by rw [hheld, hawait]; rfl)

theorem moduleResets_rise (s : State) (hheld : s.pwr.held = false) : ∃ t : State, exec (.pwrgd true) s = .next t ∧ t.pwr.held = s.pwr.resetLow ∧
    t.pwr.awaitRise = s.pwr.resetLow ∧ s.Cold t (if s.pwr.awaitRise then s.fld rPwrResetCause 63 56 else 1) := by
  have hkind : (if s.pwr.awaitRise then s.fld rPwrResetCause 63 56 else 1) < 256 := by
    split
    · exact s.cause_lt
    · norm_num
  exact ⟨_, execPwrgd_rise (by rw [hheld]; rfl), s.powerOn_cold hkind⟩

theorem moduleResets_restart (s : State) (hheld : s.pwr.held = true) (hawait : s.pwr.awaitRise = false) (hlow : s.pwr.pwrgdLow = true)
    (hlong : s.pwr.pwrgdAt + 7000000 ≤ s.clk.wall) : ∃ t : State, exec (.pwrgd true) s = .next t ∧ t.pwr.held = s.pwr.resetLow ∧
      t.pwr.awaitRise = s.pwr.resetLow ∧ s.Cold t (s.fld rPwrResetCause 63 56) := by
  refine ⟨_, (execPwrgd_held hheld hawait).trans (if_pos ⟨hlow, hlong⟩), ?_⟩
  have hkind := s.cause_lt
  generalize s.fld rPwrResetCause 63 56 = kind at *
  split
  · exact s.powerOn_cold hkind
  · obtain ⟨hheld, hawait, hcold⟩ := (s.out (.pin "THERMTRIP_N" 1)).powerOn_cold hkind
    exact ⟨hheld, hawait, hcold.of_pending rfl⟩

theorem execResetN_edge {s : State} (hawait : s.pwr.awaitRise = false) (hin : s.pwr.held = true ∨ s.pwr.pwrgdLow = true) :
    exec .resetN s = .next { s with pwr := { s.pwr with resetLow := !s.pwr.resetLow } } :=
  (if_neg (by rw [hawait]; exact Bool.false_ne_true)).trans (if_pos ((Bool.or_eq_true _ _).mpr hin))

theorem execResetN_warm {s : State} (hheld : s.pwr.held = false) (hawait : s.pwr.awaitRise = false) (hlow : s.pwr.pwrgdLow = false) :
    exec .resetN s = .next s.warmState :=
  (if_neg (by rw [hawait]; exact Bool.false_ne_true)).trans (if_neg (by rw [hheld, hlow]; exact Bool.false_ne_true))

theorem moduleResets_warm (s : State) (hregs : s.RegsOk) (hheld : s.pwr.held = false) (hawait : s.pwr.awaitRise = false) (hlow : s.pwr.pwrgdLow = false) :
    ∃ t : State, exec .resetN s = .next t ∧ t.fld rPwrResetCause 63 56 = 5 ∧ t.hbm = s.hbm ∧ t.store = s.store ∧
      t.lstore = s.lstore ∧ t.reg rClkBeat = s.reg rClkBeat ∧ (∀ k, k < 4 → t.pstate k = 0 ∧ t.partCores k = s.partCores k) ∧
      t.pending = s.pending := by
  obtain ⟨hhbm, hstore, hlstore, hpending, hcause⟩ := s.warmState_kept
  refine ⟨_, execResetN_warm hheld hawait hlow, hcause, hhbm, hstore, hlstore, ?_, fun k hk => State.part_warmState hregs hk, hpending⟩
  rw [State.reg_warmState hregs (by decide), warmMask_beat]
  exact resetUnder_zero _ _

/-- Settles O38: cold resets, PWRGD, and RESET_N. -/
theorem moduleResets : Obligations.ModuleResets := by
  refine ⟨fun s v x hx => ?_, fun s => ⟨_, rfl, rfl, rfl, rfl, (Leaves.upd (P := (· ∈ [])) .refl).sameMem, (Leaves.upd .refl).sameRegsBut⟩, fun s hheld => ?_,
    fun s hheld hawait hlow hlong => ?_, fun s hheld hawait hshort => ?_, moduleResets_warm, fun s hin hawait => ?_, fun s hawait => ?_⟩
  · have hseen := s.pending_supplySeen v
    simp only [List.mem_cons, List.not_mem_nil, or_false] at hx
    have hall : ∃ t : State, exec x.1 s = .next t ∧ t.pwr.held = true ∧ s.Cold t x.2 := by
      rcases hx with rfl | rfl | rfl
      · obtain ⟨hheld, hcold⟩ := (s.supplySeen v).coldHold_cold 0x0405 (kind := 2) (by norm_num)
        exact ⟨_, rfl, hheld, hcold.of_pending hseen⟩
      · obtain ⟨hheld, hcold⟩ := (s.supplySeen v).coldHold_cold 0x0406 (kind := 3) (by norm_num)
        exact ⟨_, rfl, hheld, hcold.of_pending hseen⟩
      · obtain ⟨hheld, hcold⟩ := (({ s with pwr := { s.pwr with tj := v, thermtripN := false } } : State).out (.pin "THERMTRIP_N" 0)).coldHold_cold
          0x040A (kind := 4) (by norm_num)
        exact ⟨_, rfl, hheld, hcold.of_pending rfl⟩
    obtain ⟨t, hexec, hheld, hcold⟩ := hall
    exact ⟨t, hexec, hheld, hcold.cause, hcold.regs, hcold.hbm, hcold.store, hcold.lstore, hcold.mbuf, hcold.agenda, hcold.pending⟩
  · obtain ⟨t, hexec, hin, hawait, hcold⟩ := moduleResets_rise s hheld
    exact ⟨t, hexec, hin, hawait, hcold.cause, hcold.hbm, hcold.store, hcold.lstore, hcold.regs, hcold.pending⟩
  · obtain ⟨t, hexec, hin, hrise, hcold⟩ := moduleResets_restart s hheld hawait hlow hlong
    exact ⟨t, hexec, hin, hrise, hcold.cause, hcold.hbm, hcold.store, hcold.lstore, hcold.regs, hcold.pending⟩
  · refine (execPwrgd_held hheld hawait).trans (if_neg ?_)
    rintro ⟨hlow, hlong⟩
    rcases hshort with hhigh | hsoon
    · exact Bool.false_ne_true (hhigh.symm.trans hlow)
    · omega
  · exact ⟨_, execResetN_edge hawait hin, rfl, rfl, rfl, (Leaves.upd (P := (· ∈ [])) .refl).sameMem, (Leaves.upd .refl).sameRegsBut⟩
  · exact ⟨_, if_pos hawait, rfl, rfl, rfl, rfl, (Leaves.upd (P := (· ∈ [])) .refl).sameMem, (Leaves.upd .refl).sameRegsBut⟩

end Sys2Proof.Machine
end

section
/-! PROOF. Zenith's secure resets and boots (R517, R519, R556, R560). -/
namespace Sys2Proof.Machine

/-! What unloading and Clearing write. -/

/-- The registers that the unloading of the partition of lowest core k writes. -/
def unloadReg (k r : Nat) : Prop := r = rZenApproved ∨ (∃ j < 4, r = rSeqCtxStatus j) ∨ r = rZenPart k

/-- The registers that the start of its Clearing writes. -/
def clearingReg (k r : Nat) : Prop := unloadReg k r ∨ r ∈ maintRegs

theorem State.lt_of_mem_partCores {s : State} {k j : Nat} (h : j ∈ s.partCores k) : j < 4 := List.mem_range.mp (List.mem_filter.mp h).1

namespace Leaves
variable {P : Nat → Prop} {s t : State}

theorem setPstate {k n : Nat} (h : Leaves P s t) (hP : ∀ r, unloadReg k r → P r) : Leaves P s (t.setPstate k n) := h.setFld (hP _ (.inr (.inr rfl)))

theorem dropRun {k : Nat} (h : Leaves P s t) : Leaves P s (t.dropRun k) := .modPart (.upd h)

theorem toUnloaded {k : Nat} (h : Leaves P s t) (hP : ∀ r, unloadReg k r → P r) : Leaves P s (t.toUnloaded k) := by
  unfold State.toUnloaded
  dsimp only
  refine .setPstate (.foldl (fun u j hj hu => ?_) (.dropRun ?_)) hP
  · have hctx : P (rSeqCtxStatus j) := hP _ (.inr (.inl ⟨j, State.lt_of_mem_partCores hj, rfl⟩))
    exact .setFld (.setFld hu hctx) hctx
  · split
    · exact h.mbFinish (hP _ (.inl rfl))
    · exact h

theorem maintGrant {a n : Nat} (h : Leaves P s t) (hP : ∀ r ∈ maintRegs, P r) : Leaves P s (t.maintGrant a n) := h.next (.maintGrant t a n) hP

theorem beginClearing {k : Nat} {ts : List (Nat × Nat × Nat)} (h : Leaves P s t) (hP : ∀ r, clearingReg k r → P r) :
    Leaves P s (t.beginClearing k ts) := by
  have hgrant : Leaves P s (t.maintGrant 7 k) := h.maintGrant fun r hr => hP r (.inr hr)
  have hun : ∀ r, unloadReg k r → P r := fun r hr => hP r (.inl hr)
  exact .laterW (.showPstat (.modPart (.setPstate (.toUnloaded hgrant hun) hun)))

theorem dueClearing (h : Leaves P s t) (hP : ∀ k < 4, ∀ r, clearingReg k r → P r) : Leaves P s t.dueClearing :=
  .foldl (fun _ _ hk hu => .ite (hu.beginClearing (hP _ (List.mem_range.mp hk))) hu) h

theorem reportLost (h : Leaves P s t) (hP : ∀ r ∈ eventRegs, P r) : Leaves P s t.reportLost :=
  .foldl (fun _ _ _ hu => hu.raise hP) (.upd h)

theorem fault {j code instr ext detail source : Nat} {c : Option Nat} (h : Leaves (fun _ => True) s t) :
    Leaves (fun _ => True) s (t.fault j code c instr ext detail source) := h.next (.fault t j code c instr ext detail source) fun _ _ => trivial

theorem resetBits {mask : Nat → Nat} (h : Leaves (fun _ => True) s t) : Leaves (fun _ => True) s (t.resetBits mask) :=
  ⟨h.hbm, h.store, h.lstore, h.mbuf, fun _ hr => absurd trivial hr⟩

theorem ideLost {p : Nat} (h : Leaves (fun _ => True) s t) : Leaves (fun _ => True) s (t.ideLost p) :=
  .ite h (.foldl (fun _ _ _ hu => hu.fault) (.modHost (.setFld h trivial)))

theorem zeroiseSecrets (h : Leaves (fun _ => True) s t) : Leaves (fun _ => True) s t.zeroiseSecrets := by
  unfold State.zeroiseSecrets
  exact .foldl (fun _ _ _ hu => hu.awaitKeys trivial) (.upd (.setFld (.setFld (.setFld (.setFld (.foldl (fun _ _ _ hu => .modHost hu)
    (.foldl (fun _ _ _ hu => .modPart hu) (.ideLost (.ideLost h)))) trivial) trivial) trivial) trivial))

theorem showMaint (h : Leaves P s t) (hP : ∀ r ∈ maintRegs, P r) : Leaves P s t.showMaint := h.next (.showMaint t) hP

theorem zenReset {n : Nat} (h : Leaves (fun _ => True) s t) : Leaves (fun _ => True) s (t.zenReset n) := by
  unfold State.zenReset
  exact .showPstat (.setReg (.upd (.resetBits (.foldl (fun _ _ _ hu => .setFld hu trivial) (.zeroiseSecrets (.showMaint (.upd (.foldl
    (fun _ _ _ hu => .modPart (.setFld (.setFld hu trivial) trivial)) (.foldl (fun _ _ _ hu => .ite (.modPart hu) hu)
    (.foldl (fun _ _ _ hu => hu.fault) h)))) fun _ _ => trivial))))) trivial)

end Leaves

/-! The secure reset. -/

theorem State.alias_zeroiseSecrets (s : State) : s.zeroiseSecrets.zen.alias_ = none :=
  foldl_keeps (fun u => u.zen.alias_) (State.awaitKeys_keeps (fun u => u.zen.alias_) fun _ _ _ => rfl) _ _

/-- The agreed ABI of both host ports taken back (R612). -/
def State.abiDropped (s : State) : State := (List.range 2).foldl (fun s h => s.setFld (rGlbAbi + localStride * h) 7 0 0) s

theorem State.zen_abiDropped (s : State) : s.abiDropped.zen = s.zen := rfl

theorem State.abiDropped_spec (s : State) {h : Nat} (hh : h < 2) :
    s.abiDropped.fld (rGlbAbi + localStride * h) 7 0 = 0 ∧ s.abiDropped.Agrees (rGlbAbi + localStride * h) := by
  have heq : s.abiDropped = (s.setFld (rGlbAbi + localStride * 0) 7 0 0).setFld (rGlbAbi + localStride * 1) 7 0 0 := rfl
  rw [heq]
  obtain rfl | rfl : h = 0 ∨ h = 1 := by omega
  · refine ⟨?_, State.agrees_setReg _ _ fun _ => State.agrees_setReg _ _ fun hne => absurd rfl hne⟩
    rw [State.fld_setFld_ne _ _ _ _ _ _ (by decide), State.fld_setFld_same _ _ _ _ _ (by omega) (by omega)]
    rfl
  · refine ⟨?_, State.agrees_setReg _ _ fun hne => absurd rfl hne⟩
    rw [State.fld_setFld_same _ _ _ _ _ (by omega) (by omega)]
    rfl

/-- The bits that a secure reset returns to reset (R566). -/
def zenMask (a : Nat) : Nat :=
  if a % localStride = rZenBoot ∨ a % localStride = rZenApproved ∨ a % localStride = rDbgStatus then
    Nat.land (warmMask a) (if a % localStride = rDbgStatus then 2 ^ 63 else 2 ^ 64 - 1) else 0

theorem zenMask_abi : ∀ h < 2, zenMask (rGlbAbi + localStride * h) = 0 := by decide

/-- The end of a secure reset, from the state whose secrets are zeroised and whose ABI is taken back. -/
def State.zenRestart (s : State) (why : Nat) (lost : List Nat) : State :=
  let s := s.resetBits zenMask
  let s : State := { s with zen := { s.zen with
    booting := true, booted := false, error := false, unlocked := false, lostDumps := lost, done := [],
    tickets := s.zen.tickets.filter fun t => t.2.2 == 0x34 && why == 3 } }
  (s.setReg rPwrResetCause (BitVec.ofNat 64 (6 * 2 ^ 56 + why * 2 ^ 48))).showPstat

theorem State.zenReset_eq (s : State) (why : Nat) : ∃ (u : State) (lost : List Nat), s.zenReset why = u.zeroiseSecrets.abiDropped.zenRestart why lost :=
  ⟨_, _, rfl⟩

theorem getF_zenCause {why : Nat} (h : why < 256) : getF (BitVec.ofNat 64 (6 * 2 ^ 56 + why * 2 ^ 48)) 63 56 = 6 ∧
    getF (BitVec.ofNat 64 (6 * 2 ^ 56 + why * 2 ^ 48)) 55 48 = why := by
  unfold getF
  rw [BitVec.toNat_ofNat]
  omega

theorem State.zenRestart_spec (s : State) {why : Nat} (lost : List Nat) (hwhy : why < 256) : (s.zenRestart why lost).zen.booting = true ∧
    (s.zenRestart why lost).zen.booted = false ∧ (s.zenRestart why lost).zen.alias_ = s.zen.alias_ ∧
    (s.zenRestart why lost).fld rPwrResetCause 63 56 = 6 ∧ (s.zenRestart why lost).fld rPwrResetCause 55 48 = why ∧
    ∀ r, r ≠ rPwrResetCause → (s.zenRestart why lost).reg r = (s.resetBits zenMask).reg r := by
  obtain ⟨hkind, hcode⟩ := getF_zenCause hwhy
  unfold State.zenRestart
  dsimp only
  generalize BitVec.ofNat 64 (6 * 2 ^ 56 + why * 2 ^ 48) = v at *
  refine ⟨rfl, rfl, rfl, ?_, ?_, fun r hr => ?_⟩
  · rw [State.showPstat_keeps (State.fld · rPwrResetCause 63 56) fun _ _ => rfl, State.fld, State.reg_setReg_same]
    exact hkind
  · rw [State.showPstat_keeps (State.fld · rPwrResetCause 55 48) fun _ _ => rfl, State.fld, State.reg_setReg_same]
    exact hcode
  · rw [State.showPstat_keeps (State.reg · r) fun _ _ => rfl]
    exact State.reg_setReg_ne _ _ hr

theorem State.zenReset_spec (s : State) {why : Nat} (hwhy : why < 256) : (s.zenReset why).zen.booting = true ∧
    (s.zenReset why).zen.booted = false ∧ (s.zenReset why).zen.alias_ = none ∧
    (s.zenReset why).fld rPwrResetCause 63 56 = 6 ∧ (s.zenReset why).fld rPwrResetCause 55 48 = why ∧
    ∀ h < 2, (s.zenReset why).fld (rGlbAbi + localStride * h) 7 0 = 0 := by
  obtain ⟨u, lost, heq⟩ := s.zenReset_eq why
  rw [heq]
  obtain ⟨hbooting, hbooted, halias, hkind, hcode, hreg⟩ := u.zeroiseSecrets.abiDropped.zenRestart_spec lost hwhy
  refine ⟨hbooting, hbooted, ?_, hkind, hcode, fun h hh => ?_⟩
  · rw [halias, State.zen_abiDropped, State.alias_zeroiseSecrets]
  · obtain ⟨hzero, hagrees⟩ := u.zeroiseSecrets.abiDropped_spec hh
    have hne : rGlbAbi + localStride * h ≠ rPwrResetCause := by
      unfold rGlbAbi localStride rPwrResetCause
      omega
    unfold State.fld
    rw [hreg _ hne, State.reg_resetBits hagrees, zenMask_abi h hh, resetUnder_zero]
    exact hzero

/-- The state with Zenith's own state replaced. -/
def State.withZen (s : State) (z : Zen) : State := { s with zen := z }

@[simp] theorem State.fld_withZen (s : State) (z : Zen) (r hi lo : Nat) : (s.withZen z).fld r hi lo = s.fld r hi lo := rfl

/-! Overcast (R570, R571). -/

/-- What a module in Overcast has: no HBM, dark ports, and the test that failed. -/
structure State.Overcast (t : State) (test : Nat) : Prop where
  state : t.pwrState = 5
  failed : t.fld rPwrSelftest 62 62 = 1
  test : t.fld rPwrSelftest 55 48 = test
  hbm : t.hbm = []
  dark : ∀ p < 6, t.linkState p = 0

/-- Every partition unloaded and every port dark. -/
def State.emptied (s : State) : State :=
  (List.range 6).foldl (fun s p => s.goDark p) ((List.range 4).foldl (fun s k => if s.partValid k then s.toUnloaded k else s) s)

theorem State.linkState_goDark_ne (s : State) {p q : Nat} (h : p ≠ q) (hp : p < 6) : (s.goDark q).linkState p = s.linkState p := by
  obtain ⟨hleaves, -, -⟩ := s.goDark_spec q
  exact hleaves.fld (notMem_rLnkStatus_maintRegs (rLnkStatus_ne h) fun st hst => by simp only [rLnkStatus, rMemMaint, rMemPatrol]; omega) 63 61

theorem State.dark_foldl {l : List Nat} {p : Nat} (hp : p < 6) : ∀ s : State, p ∈ l ∨ s.linkState p = 0 →
    (l.foldl (fun s p => s.goDark p) s).linkState p = 0 := by
  induction l with
  | nil => exact fun s h => h.resolve_left List.not_mem_nil
  | cons q l ih =>
    intro s h
    rw [List.foldl_cons]
    apply ih
    by_cases hq : p = q
    · subst hq
      exact .inr (s.linkState_goDark p)
    · exact h.imp (fun hin => (List.mem_cons.mp hin).resolve_left hq) fun hdark => (s.linkState_goDark_ne hq hp).trans hdark

/-- The end of the way into Overcast, from the state whose partitions and ports are gone. -/
def State.overcastMarked (s : State) (test detail : Nat) : State :=
  let s := (((s.setFld rPwrSelftest 63 63 1).setFld rPwrSelftest 62 62 1).setFld rPwrSelftest 55 48 test).setFld rPwrSelftest 47 32 detail
  (s.setFld rZenApproved 7 0 test).setPwr 5

/-- The module without HBM, its firmware as it is. -/
def State.withoutHbm (s : State) : State := { s with hbm := [], badLine := [], heldWrites := [], zen := { s.zen with booted := true } }

theorem State.withoutHbm_spec (s : State) : s.withoutHbm.hbm = [] ∧ s.withoutHbm.regs = s.regs := ⟨rfl, rfl⟩

theorem State.toOvercast_eq (s : State) (test detail : Nat) : s.toOvercast test detail = s.emptied.withoutHbm.overcastMarked test detail := rfl

theorem State.overcastMarked_spec (s : State) (test detail : Nat) : (s.overcastMarked test detail).pwrState = 5 ∧
    (s.overcastMarked test detail).fld rPwrSelftest 62 62 = 1 ∧ (s.overcastMarked test detail).fld rPwrSelftest 55 48 = test % 256 ∧
    Leaves (· ∈ [rPwrSelftest, rZenApproved, rPwrStatus]) s (s.overcastMarked test detail) := by
  refine ⟨State.pwrState_setPwr _ 5, ?_, ?_, .showPstat (.setFld (.setFld (.setFld (.setFld (.setFld (.setFld .refl ?_) ?_) ?_) ?_) ?_) ?_)⟩
  · unfold State.overcastMarked
    rw [State.fld_setPwr_ne _ _ _ _ (by decide), State.fld_setFld_ne _ _ _ _ _ _ (by decide),
      State.fld_setFld_disjoint _ _ _ _ _ _ _ (by omega) (by omega) (by omega) (by omega),
      State.fld_setFld_disjoint _ _ _ _ _ _ _ (by omega) (by omega) (by omega) (by omega), State.fld_setFld_same _ _ _ _ _ (by omega) (by omega)]
    rfl
  · unfold State.overcastMarked
    rw [State.fld_setPwr_ne _ _ _ _ (by decide), State.fld_setFld_ne _ _ _ _ _ _ (by decide),
      State.fld_setFld_disjoint _ _ _ _ _ _ _ (by omega) (by omega) (by omega) (by omega), State.fld_setFld_same _ _ _ _ _ (by omega) (by omega)]
    rfl
  all_goals simp

theorem State.dark_emptied (s : State) {p : Nat} (hp : p < 6) : s.emptied.linkState p = 0 := by
  unfold State.emptied
  exact State.dark_foldl hp _ (.inl (List.mem_range.mpr hp))

theorem State.overcast_toOvercast (s : State) {test : Nat} (detail : Nat) (htest : test < 256) : (s.toOvercast test detail).Overcast test := by
  have hdark : ∀ p < 6, s.emptied.linkState p = 0 := fun p hp => s.dark_emptied hp
  rw [s.toOvercast_eq]
  generalize s.emptied = u at *
  obtain ⟨hnone, hregs⟩ := u.withoutHbm_spec
  have hbare : ∀ p, u.withoutHbm.linkState p = u.linkState p := fun p => State.linkState_congr (by rw [State.reg, State.reg, hregs])
  generalize u.withoutHbm = v at *
  obtain ⟨hstate, hfailed, hcode, hleaves⟩ := v.overcastMarked_spec test detail
  generalize v.overcastMarked test detail = w at *
  refine ⟨hstate, hfailed, hcode.trans (Nat.mod_eq_of_lt htest), hleaves.hbm.trans hnone, fun p hp => ?_⟩
  refine (State.linkState_congr (hleaves.reg _ ?_)).trans ((hbare p).trans (hdark p hp))
  simp only [List.mem_cons, List.not_mem_nil, or_false, rLnkStatus, rPwrSelftest, rZenApproved, rPwrStatus]
  omega

/-! A boot of the firmware. -/

/-- What Zenith's boot leaves in its state, and what runs after it keeps. -/
def State.bootView (s : State) : Bool × Bool × Bool × Option (List Nat) := (s.zen.booting, s.zen.booted, s.zen.error, s.zen.alias_)

theorem State.bootView_msix (s : State) (h v : Nat) : (s.msix h v).bootView = s.bootView := by
  unfold State.msix
  split
  · rfl
  · split
    · rfl
    · split <;> rfl

theorem State.bootView_mbFinish (s : State) (i n result detail : Nat) : (s.mbFinish i n result detail).bootView = s.bootView := by
  have hshow : ∀ (u : State) (c : Nat), (if result ≤ 2 then (u.setFld rZenApproved 55 48 c).setFld rZenApproved 62 62 1 else u).bootView = u.bootView :=
    fun u c => by split <;> rfl
  unfold State.mbFinish
  split
  · rfl
  · dsimp only
    split
    · rw [State.bootView_msix, hshow]
      rfl
    · exact hshow _ _

theorem State.bootView_toUnloaded (s : State) (k : Nat) : (s.toUnloaded k).bootView = s.bootView := by
  have hcores : ∀ (l : List Nat) (u : State),
      (l.foldl (fun s j => (s.setFld (rSeqCtxStatus j) 1 0 0).setFld (rSeqCtxStatus j) 15 8 0) u).bootView = u.bootView :=
    foldl_keeps State.bootView fun _ _ => rfl
  unfold State.toUnloaded
  dsimp only
  refine (hcores _ _).trans ?_
  split
  · exact s.bootView_mbFinish _ _ _ _
  · rfl

theorem State.bootView_beginClearing (s : State) (k : Nat) (ts : List (Nat × Nat × Nat)) : (s.beginClearing k ts).bootView = s.bootView :=
  ((s.maintGrant 7 k).bootView_toUnloaded k).trans (State.maintGrant_keeps State.bootView (fun _ _ _ => rfl) s 7 k)

theorem State.bootView_dueClearing (s : State) : s.dueClearing.bootView = s.bootView :=
  foldl_keeps State.bootView (fun u k => by split; exacts [u.bootView_beginClearing k [], rfl]) _ s

theorem State.bootView_reportLost (s : State) : s.reportLost.bootView = s.bootView :=
  foldl_keeps State.bootView (fun u _ => State.raise_keeps State.bootView (fun _ _ _ _ _ => rfl) u _) _ _

/-- The registers that show a boot (R517, R522). -/
def State.bootShown (s : State) (slot fw svn : Nat) : State :=
  let s := ((s.setFld rZenBoot 63 63 1).setFld rZenBoot 62 62 slot).setFld rZenBoot 61 61 slot
  let s := (s.setFld rZenBoot 31 0 fw).setFld rZenBoot 47 32 svn
  (s.setFld rZenApproved 63 63 1).setFld rZenApproved 61 61 0

theorem State.bootShown_spec (s : State) (slot fw svn : Nat) : (s.bootShown slot fw svn).fld rZenBoot 63 63 = 1 ∧
    Leaves (· ∈ [rZenBoot, rZenApproved]) s (s.bootShown slot fw svn) := by
  refine ⟨?_, .setFld (.setFld (.setFld (.setFld (.setFld (.setFld (.setFld .refl ?_) ?_) ?_) ?_) ?_) ?_) ?_⟩
  · unfold State.bootShown
    rw [State.fld_setFld_ne _ _ _ _ _ _ (by decide), State.fld_setFld_ne _ _ _ _ _ _ (by decide),
      State.fld_setFld_disjoint _ _ _ _ _ _ _ (by omega) (by omega) (by omega) (by omega),
      State.fld_setFld_disjoint _ _ _ _ _ _ _ (by omega) (by omega) (by omega) (by omega),
      State.fld_setFld_disjoint _ _ _ _ _ _ _ (by omega) (by omega) (by omega) (by omega),
      State.fld_setFld_disjoint _ _ _ _ _ _ _ (by omega) (by omega) (by omega) (by omega), State.fld_setFld_same _ _ _ _ _ (by omega) (by omega)]
    rfl
  all_goals simp

/-- A boot's registers and Zenith's state (R517, R518). -/
theorem State.zenBooted_eq (s : State) (slot fw : Nat) : ∃ u z, s.zenBooted slot fw = (State.bootShown u slot fw s.zen.fuseSvn).withZen z ∧
    Leaves (· ∈ [rZenBoot, rZenApproved]) s u ∧ z.booting = false ∧ z.booted = true ∧ z.error = false ∧ z.alias_ ≠ none :=
  ⟨{ s.drawKey.2 with zen := { s.drawKey.2.zen with fwSlot := slot } }, _, rfl, .upd (.upd .refl), rfl, rfl, rfl, Option.some_ne_none _⟩

theorem State.zenBooted_spec (s : State) (slot fw : Nat) : (s.zenBooted slot fw).zen.booting = false ∧ (s.zenBooted slot fw).zen.booted = true ∧
    (s.zenBooted slot fw).zen.error = false ∧ (s.zenBooted slot fw).zen.alias_ ≠ none ∧ (s.zenBooted slot fw).fld rZenBoot 63 63 = 1 ∧
    Leaves (· ∈ [rZenBoot, rZenApproved]) s (s.zenBooted slot fw) := by
  obtain ⟨u, z, heq, hstart, hbooting, hbooted, herror, halias⟩ := s.zenBooted_eq slot fw
  rw [heq]
  obtain ⟨hshown, hleaves⟩ := u.bootShown_spec slot fw s.zen.fuseSvn
  exact ⟨hbooting, hbooted, herror, halias, by rw [State.fld_withZen, hshown], .upd (hstart.trans hleaves)⟩

/-- A cross-rack port that awaits keys and is not quiet begins a handshake. -/
def State.rekeyLoud (s : State) (p : Nat) : State := if s.crossRack p && s.linkState p == 3 && !s.quiet p then s.laterW 0 (.keySetRollover p) else s

/-- The module after a boot of Zenith that passes. -/
def State.bootPassed (s : State) : State :=
  let s := (s.zenBooted s.zen.fwSlot s.zen.fwVersion).reportLost.dueClearing
  let s := (List.range 6).foldl (fun s p => s.rekeyLoud p) s
  s.zen.tickets.foldl (fun s t => s.mbFinish t.1 t.2.1 resOk 0) s

theorem execZenithBootDone_passed {s : State} (h : s.zen.booting = true) : exec (.zenithBootDone true) s = .next s.bootPassed :=
  if_neg (by rw [h]; exact Bool.false_ne_true)

theorem not_clearingReg_rZenBoot {k : Nat} (hk : k < 4) : ¬clearingReg k rZenBoot := by
  rintro ((h | ⟨j, hj, h⟩ | h) | h)
  · exact absurd h (by decide)
  · simp only [rZenBoot, rSeqCtxStatus] at h
    omega
  · simp only [rZenBoot, rZenPart] at h
    omega
  · exact absurd h (by decide)

theorem State.bootPassed_spec (s : State) : s.bootPassed.zen.booting = false ∧ s.bootPassed.zen.booted = true ∧ s.bootPassed.zen.error = false ∧
    s.bootPassed.zen.alias_ ≠ none ∧ s.bootPassed.fld rZenBoot 63 63 = 1 ∧ SameMem s s.bootPassed := by
  obtain ⟨hbooting, hbooted, herror, halias, hboot, hleaves⟩ := s.zenBooted_spec s.zen.fwSlot s.zen.fwVersion
  unfold State.bootPassed
  dsimp only
  generalize s.zenBooted s.zen.fwSlot s.zen.fwVersion = u at *
  have hclear : ∀ k < 4, ∀ r, clearingReg k r → r ≠ rZenBoot := fun k hk r hr he => not_clearingReg_rZenBoot hk (he ▸ hr)
  have hkeys : ∀ v : State, Leaves (· ≠ rZenBoot) u v → Leaves (· ≠ rZenBoot) u ((List.range 6).foldl (fun s p => s.rekeyLoud p) v) := fun v hv =>
    .foldl (fun _ _ _ hw => .ite hw.laterW hw) hv
  have hfinish : ∀ (l : List (Nat × Nat × Nat)) (v : State), Leaves (· ≠ rZenBoot) u v →
      Leaves (· ≠ rZenBoot) u (l.foldl (fun s t => s.mbFinish t.1 t.2.1 resOk 0) v) := fun l v hv =>
    .foldl (fun _ _ _ hw => hw.mbFinish (by decide)) hv
  have hall : Leaves (· ≠ rZenBoot) u u.reportLost.dueClearing :=
    .dueClearing (.reportLost .refl fun r hr he => absurd (he ▸ hr) (by decide)) hclear
  have hview : u.reportLost.dueClearing.bootView = u.bootView := (State.bootView_dueClearing _).trans (State.bootView_reportLost _)
  generalize u.reportLost.dueClearing = v at *
  have hview2 : ((List.range 6).foldl (fun s p => s.rekeyLoud p) v).bootView = v.bootView :=
    foldl_keeps State.bootView (fun w p => by unfold State.rekeyLoud; split <;> rfl) _ v
  have hall2 := hkeys v hall
  generalize (List.range 6).foldl (fun s p => s.rekeyLoud p) v = w at *
  have hview3 : (w.zen.tickets.foldl (fun s t => s.mbFinish t.1 t.2.1 resOk 0) w).bootView = w.bootView :=
    foldl_keeps State.bootView (fun x (t : Nat × Nat × Nat) => x.bootView_mbFinish t.1 t.2.1 resOk 0) _ w
  have hall3 := hfinish w.zen.tickets w hall2
  generalize w.zen.tickets.foldl (fun s t => s.mbFinish t.1 t.2.1 resOk 0) w = x at *
  have hsame : x.bootView = u.bootView := hview3.trans (hview2.trans hview)
  obtain ⟨h1, h2, h3, h4⟩ : x.zen.booting = u.zen.booting ∧ x.zen.booted = u.zen.booted ∧ x.zen.error = u.zen.error ∧ x.zen.alias_ = u.zen.alias_ := by
    simpa only [State.bootView, Prod.mk.injEq] using hsame
  exact ⟨h1.trans hbooting, h2.trans hbooted, h3.trans herror, by rwa [h4], (hall3.fld (fun h => h rfl) 63 63).trans hboot,
    ((hleaves.mono (Q := fun _ => True) fun _ _ => trivial).trans (hall3.mono fun _ _ => trivial)).sameMem⟩

/-- Zenith in its error state, after the reset that it triggers (R519). -/
def State.zenErred (s : State) : State :=
  ((s.setFld rZenApproved 61 61 1).setFld rZenApproved 63 63 0).withZen { s.zen with error := true }

theorem State.zenErred_spec (s : State) : s.zenErred.zen.error = true ∧ s.zenErred.zen.booting = s.zen.booting ∧
    s.zenErred.fld rZenApproved 61 61 = 1 ∧ s.zenErred.fld rZenApproved 63 63 = 0 ∧ Leaves (· = rZenApproved) s s.zenErred := by
  refine ⟨rfl, rfl, ?_, ?_, .upd (.setFld (.setFld .refl rfl) rfl)⟩
  · unfold State.zenErred
    rw [State.fld_withZen, State.fld_setFld_disjoint _ _ _ _ _ _ _ (by omega) (by omega) (by omega) (by omega),
      State.fld_setFld_same _ _ _ _ _ (by omega) (by omega)]
    rfl
  · unfold State.zenErred
    rw [State.fld_withZen, State.fld_setFld_same _ _ _ _ _ (by omega) (by omega)]
    rfl

theorem execZenithError_running {s : State} (h : s.pwrState ≠ 4) : exec .zenithError s = .next (s.zenReset 2).zenErred := if_neg h

theorem execZenithError_testing {s : State} (h : s.pwrState = 4) : exec .zenithError s = .next (s.toOvercast 1 0) := if_pos h

theorem zenithResets_error (s : State) (hstate : s.pwrState ≠ 4) : ∃ t : State, exec .zenithError s = .next t ∧ t.zen.error = true ∧
    t.zen.booting = true ∧ t.fld rPwrResetCause 55 48 = 2 ∧ t.fld rZenApproved 61 61 = 1 ∧ t.fld rZenApproved 63 63 = 0 ∧ SameMem s t := by
  obtain ⟨hbooting, -, -, -, hcode, -⟩ := s.zenReset_spec (why := 2) (by norm_num)
  have hmem : Leaves (fun _ => True) s (s.zenReset 2) := .zenReset .refl
  have hexec := execZenithError_running hstate
  generalize s.zenReset 2 = u at *
  obtain ⟨herror, hkept, happroved, hoff, hleaves⟩ := u.zenErred_spec
  exact ⟨_, hexec, herror, hkept.trans hbooting, (hleaves.fld (by decide) 55 48).trans hcode, happroved, hoff,
    (hmem.trans (hleaves.mono fun _ _ => trivial)).sameMem⟩

/-- Settles O40: Zenith's resets by the watchdog and the error state, Overcast, and its boots. -/
theorem zenithResets : Obligations.ZenithResets := by
  refine ⟨fun s => ?_, zenithResets_error, fun s hstate => ?_, fun s hboot => ⟨?_, ?_⟩, fun s b hidle => ?_⟩
  · obtain ⟨hbooting, hbooted, halias, hkind, hcode, habi⟩ := s.zenReset_spec (why := 1) (by norm_num)
    exact ⟨_, rfl, hbooting, hbooted, halias, hkind, hcode, habi 0 (by omega), habi 1 (by omega), (Leaves.zenReset .refl).sameMem⟩
  · obtain ⟨hover, -, htest, hhbm, hdark⟩ := s.overcast_toOvercast (test := 1) 0 (by norm_num)
    exact ⟨_, execZenithError_testing hstate, hover, htest, hhbm, hdark⟩
  · obtain ⟨hbooting, hbooted, herror, halias, hreg, hmem⟩ := s.bootPassed_spec
    exact ⟨_, execZenithBootDone_passed hboot, hbooting, hbooted, herror, halias, hreg, hmem⟩
  · exact ⟨s.laterW 0 .zenithError, if_neg (by rw [hboot]; exact Bool.false_ne_true), hboot, rfl, (Leaves.laterW (P := (· ∈ [])) .refl).sameMem,
      (Leaves.laterW (P := (· ∈ [])) .refl).sameRegsBut⟩
  · exact if_pos (by rw [hidle]; rfl)

end Sys2Proof.Machine
end

section
/-! PROOF. The self-test, the memory fill and the power states (R36, R500, R561–R564, R569–R573). -/
namespace Sys2Proof.Machine

/-! A self-test that finds nothing wrong. -/

/-- The state with the self-test's own results (R570, R582). -/
def State.testNoted (s : State) (r : SelfTestResult) : State :=
  let s := ((s.setFld rPwrSelftest 63 63 1).setFld rPwrSelftest 62 62 0).setFld rPwrSelftest 55 48 0
  let s := s.setFld rPwrSelftest 15 0 r.elapsed
  { s with pwr := { s.pwr with mv := r.mv }, zen := { s.zen with bypass := r.bypass, fuseSvn := r.fuseSvn } }

/-- The state after the tests, of which number `fail` is the first that failed, or none if 0. -/
def State.tested (s : State) (r : SelfTestResult) (fail : Nat) : State :=
  let s := if fail = 0 ∨ 2 < fail then s.zenBooted (if r.slotB then 1 else 0) r.fwVersion else s
  let s := if r.slotB ∧ fail ≠ 2 then s.eventDie 20 0x0501 0 0 else s
  let s := if fail = 0 ∨ 4 < fail then s.setReg rClkLock (BitVec.ofNat 64 (Nat.lor (r.locked % 2 ^ 25) 0xF03FFF))
    else s.setReg rClkLock (BitVec.ofNat 64 (r.locked % 2 ^ 25))
  if fail = 0 ∨ 5 < fail then s.setLayout r.bypass else s

/-- The start that follows (R498, R569). -/
def State.started (s : State) : State := ((if s.pwr.cold then s.commitAo else s).reinstate.setPh 1).setPwr 6

/-- What is due at the start: Clearing, the commands that waited, and the start itself. -/
def State.startDue (s : State) (ts : List (Nat × Nat × Nat)) (elapsed : Nat) : State :=
  let s := (s.reportLost.dueClearing).finishTickets ts resOk 0
  if s.pwr.cold then s.laterW (4 * 700000000 - 700000 * elapsed) .startTimeout else s.laterW 0 .startPhase

/-- The commands that a self-test ends (R573). -/
def State.retests (s : State) : List (Nat × Nat × Nat) := s.zen.tickets.filter fun t => t.2.2 == 0x41

theorem execSelfTest_passed {s : State} {r : SelfTestResult} (hstate : s.pwrState = 4) (hheld : s.pwr.held = false) (hpass : SelfTestResult_fails r = 0) :
    exec (.selfTest r) s = .next (((s.testNoted r).tested r 0).started.startDue s.retests r.elapsed) := by
  have hruns : ¬(s.pwrState ≠ 4 ∨ s.pwr.held = true) := by simp [hstate, hheld]
  have hexec : exec (.selfTest r) s = if s.pwrState ≠ 4 ∨ s.pwr.held then .next s else
      if SelfTestResult_fails r ≠ 0 then .next ((((s.testNoted r).tested r (SelfTestResult_fails r)).toOvercast (SelfTestResult_fails r)
        (if SelfTestResult_fails r = r.failed then r.detail else 0)).finishTickets s.retests 0x2A (SelfTestResult_fails r))
      else .next (((s.testNoted r).tested r (SelfTestResult_fails r)).started.startDue s.retests r.elapsed) := rfl
  rw [hexec, if_neg hruns, if_neg (not_not_intro hpass), hpass]

/-- What the tests write. -/
def testRegs : List Nat := [rZenBoot, rZenApproved, rClkLock, rHaloFuse, rHaloLayout] ++ eventRegs

theorem State.tested_spec (s : State) (r : SelfTestResult) : Leaves (· ∈ testRegs) s (s.tested r 0) ∧ (s.tested r 0).bootView.2.1 = true ∧
    (s.tested r 0).zen.remaps = s.zen.remaps ∧ (s.tested r 0).reg rHaloFuse = BitVec.ofNat 64 r.bypass := by
  obtain ⟨-, hbooted, -, -, -, hleaves⟩ := s.zenBooted_spec (if r.slotB then 1 else 0) r.fwVersion
  have hremaps : (s.zenBooted (if r.slotB then 1 else 0) r.fwVersion).zen.remaps = s.zen.remaps := rfl
  unfold State.tested
  dsimp only
  rw [if_pos (show 0 = 0 ∨ 2 < 0 from .inl rfl), if_pos (show 0 = 0 ∨ 4 < 0 from .inl rfl), if_pos (show 0 = 0 ∨ 5 < 0 from .inl rfl)]
  generalize s.zenBooted (if r.slotB then 1 else 0) r.fwVersion = u at *
  have hstart : Leaves (· ∈ testRegs) s u := hleaves.mono fun k hk => List.mem_append_left _ (by
    rcases List.mem_pair.mp hk with rfl | rfl <;> simp)
  have hsent : Leaves (· ∈ testRegs) s (if r.slotB = true ∧ 0 ≠ 2 then u.eventDie 20 0x0501 0 0 else u) :=
    .ite (.raise hstart fun k hk => List.mem_append_right _ hk) hstart
  have hzen : (if r.slotB = true ∧ 0 ≠ 2 then u.eventDie 20 0x0501 0 0 else u).zen = u.zen := by
    split
    · exact State.raise_keeps State.zen (fun _ _ _ _ _ => rfl) u _
    · rfl
  generalize (if r.slotB = true ∧ 0 ≠ 2 then u.eventDie 20 0x0501 0 0 else u) = v at *
  refine ⟨.setReg (.setReg (.setReg hsent (by decide)) (by decide)) (by decide), ?_, ?_, ?_⟩
  · exact (congrArg Zen.booted hzen).trans hbooted
  · exact (congrArg Zen.remaps hzen).trans hremaps
  · exact (State.reg_setReg_ne _ _ (by decide)).trans (State.reg_setReg_same _ _ _)

theorem State.startPh_setPwr (s : State) (n : Nat) : (s.setPwr n).startPh = s.startPh := by
  unfold State.startPh State.setPwr
  rw [State.showPstat_keeps (State.fld · rPwrStatus 60 57) fun _ _ => rfl,
    State.fld_setFld_disjoint _ _ _ _ _ _ _ (by omega) (by omega) (by omega) (by omega)]

theorem State.startPh_setPh (s : State) {n : Nat} (h : n < 16) : (s.setPh n).startPh = n := by
  unfold State.startPh State.setPh
  rw [State.fld_setFld_same _ _ _ _ _ (by omega) (by omega)]
  exact Nat.mod_eq_of_lt h

/-- The registers that the recorded remaps fill, and the phase. -/
def startReg (r : Nat) : Prop := (∃ st < 8, r = rMemStatus st ∨ ∃ i < 16, r = rMemRemap st i) ∨ r = rPwrStatus

/-- A remap's lines in their registers (R498). -/
def State.remapsMarked (s : State) (st : Nat) (l : List (Nat × Nat)) : State :=
  l.foldl (fun s x => s.setReg (rMemRemap st x.2) (BitVec.ofNat 64 (2 ^ 63 + x.1))) s

theorem State.bootView_remapsMarked (s : State) (st : Nat) (l : List (Nat × Nat)) : (s.remapsMarked st l).bootView = s.bootView :=
  foldl_keeps (f := fun (s : State) (x : Nat × Nat) => s.setReg (rMemRemap st x.2) (BitVec.ofNat 64 (2 ^ 63 + x.1))) State.bootView (fun _ _ => rfl) l s

theorem State.reinstate_eq (s : State) : s.reinstate =
    s.zen.remaps.foldl (fun s e => (s.remapsMarked e.1 e.2.zipIdx).setFld (rMemStatus e.1) 4 0 e.2.length) s := rfl

theorem State.bootView_reinstate (s : State) : s.reinstate.bootView = s.bootView := by
  rw [s.reinstate_eq]
  exact foldl_keeps (f := fun (s : State) (e : Nat × List Nat) => (s.remapsMarked e.1 e.2.zipIdx).setFld (rMemStatus e.1) 4 0 e.2.length) State.bootView
    (fun u e => u.bootView_remapsMarked e.1 e.2.zipIdx) _ s

theorem State.started_spec (s : State) (hremaps : ∀ e ∈ s.zen.remaps, e.1 < 8 ∧ e.2.length ≤ 16) : Leaves startReg s s.started ∧
    s.started.pwrState = 6 ∧ s.started.startPh = 1 ∧ s.started.bootView = s.bootView := by
  have hback : ∀ u : State, u.zen.remaps = s.zen.remaps → Leaves startReg s u → Leaves startReg s u.reinstate := fun u hzen hu => by
    rw [u.reinstate_eq, hzen]
    refine .foldl (fun v e he hv => .setFld (.foldl (fun w x hx hw => .setReg hw ?_) hv) ?_) hu
    · obtain ⟨hst, hlen⟩ := hremaps e he
      have hlt := List.snd_lt_of_mem_zipIdx hx
      exact .inl ⟨e.1, hst, .inr ⟨x.2, by omega, rfl⟩⟩
    · exact .inl ⟨e.1, (hremaps e he).1, .inl rfl⟩
  have hcold : Leaves startReg s (if s.pwr.cold then s.commitAo else s) ∧ (if s.pwr.cold then s.commitAo else s).zen.remaps = s.zen.remaps ∧
      (if s.pwr.cold then s.commitAo else s).bootView = s.bootView := by
    split
    · exact ⟨.upd .refl, rfl, rfl⟩
    · exact ⟨.refl, rfl, rfl⟩
  obtain ⟨hleaves, hzen, hkept⟩ := hcold
  unfold State.started
  have hre := hback _ hzen hleaves
  have hview' := (if s.pwr.cold then s.commitAo else s).bootView_reinstate
  generalize (if s.pwr.cold then s.commitAo else s).reinstate = u at *
  refine ⟨.showPstat (.setFld (.setFld hre (.inr rfl)) (.inr rfl)), State.pwrState_setPwr _ 6, ?_, hview'.trans hkept⟩
  exact (u.setPh 1).startPh_setPwr 6 |>.trans (u.startPh_setPh (by omega))

/-- The registers that what is due at a start writes. -/
def dueReg (r : Nat) : Prop := (∃ k < 4, clearingReg k r) ∨ r ∈ eventRegs

theorem State.bootView_finishTickets (s : State) (ts : List (Nat × Nat × Nat)) (result detail : Nat) :
    (s.finishTickets ts result detail).bootView = s.bootView := by
  unfold State.finishTickets
  refine foldl_keeps State.bootView (fun v t => ?_) ts s
  split
  · rfl
  · exact v.bootView_mbFinish _ _ _ _

theorem State.startDue_spec (s : State) (ts : List (Nat × Nat × Nat)) (elapsed : Nat) : Leaves dueReg s (s.startDue ts elapsed) ∧
    (s.startDue ts elapsed).bootView = s.bootView := by
  have hdue : Leaves dueReg s s.reportLost.dueClearing := .dueClearing (.reportLost .refl fun _ h => .inr h) fun k hk _ h => .inl ⟨k, hk, h⟩
  have hview : s.reportLost.dueClearing.bootView = s.bootView := (State.bootView_dueClearing _).trans (State.bootView_reportLost _)
  unfold State.startDue
  dsimp only
  generalize s.reportLost.dueClearing = u at *
  have hend : Leaves dueReg s (u.finishTickets ts resOk 0) := hdue.next (.finishTickets u ts resOk 0) fun r hr => .inl ⟨0, by omega, .inl (.inl hr)⟩
  have hkept := (u.bootView_finishTickets ts resOk 0).trans hview
  generalize u.finishTickets ts resOk 0 = v at *
  split
  · exact ⟨.laterW hend, hkept⟩
  · exact ⟨.laterW hend, hkept⟩

theorem State.testNoted_spec (s : State) (r : SelfTestResult) : (s.testNoted r).fld rPwrSelftest 63 63 = 1 ∧ (s.testNoted r).fld rPwrSelftest 62 62 = 0 ∧
    (s.testNoted r).zen.remaps = s.zen.remaps ∧ Leaves (fun _ => True) s (s.testNoted r) := by
  have hfld : ∀ hi lo, (s.testNoted r).fld rPwrSelftest hi lo = ((((s.setFld rPwrSelftest 63 63 1).setFld rPwrSelftest 62 62 0).setFld rPwrSelftest 55 48
    0).setFld rPwrSelftest 15 0 r.elapsed).fld rPwrSelftest hi lo := fun _ _ => rfl
  refine ⟨?_, ?_, rfl, .upd (.setFld (.setFld (.setFld (.setFld .refl trivial) trivial) trivial) trivial)⟩
  · rw [hfld, State.fld_setFld_disjoint _ _ _ _ _ _ _ (by omega) (by omega) (by omega) (by omega),
      State.fld_setFld_disjoint _ _ _ _ _ _ _ (by omega) (by omega) (by omega) (by omega),
      State.fld_setFld_disjoint _ _ _ _ _ _ _ (by omega) (by omega) (by omega) (by omega), State.fld_setFld_same _ _ _ _ _ (by omega) (by omega)]
    rfl
  · rw [hfld, State.fld_setFld_disjoint _ _ _ _ _ _ _ (by omega) (by omega) (by omega) (by omega),
      State.fld_setFld_disjoint _ _ _ _ _ _ _ (by omega) (by omega) (by omega) (by omega), State.fld_setFld_same _ _ _ _ _ (by omega) (by omega)]
    rfl

theorem not_startReg_of {r : Nat} (h : r = rHaloFuse ∨ r = rPwrSelftest) : ¬startReg r := by
  rintro (⟨st, hst, hr | ⟨i, hi, hr⟩⟩ | hr) <;> simp only [rHaloFuse, rPwrSelftest, rMemStatus, rMemRemap, rPwrStatus] at h hr <;> omega

theorem not_dueReg_of {r : Nat} (h : r = rHaloFuse ∨ r = rPwrSelftest ∨ r = rPwrStatus) : ¬dueReg r := by
  rintro (⟨k, hk, (hr | ⟨j, hj, hr⟩ | hr) | hr⟩ | hr)
  · rcases h with rfl | rfl | rfl <;> exact absurd hr (by decide)
  · rcases h with rfl | rfl | rfl <;> simp only [rHaloFuse, rPwrSelftest, rPwrStatus, rSeqCtxStatus] at hr <;> omega
  · rcases h with rfl | rfl | rfl <;> simp only [rHaloFuse, rPwrSelftest, rPwrStatus, rZenPart] at hr <;> omega
  · rcases h with rfl | rfl | rfl <;> exact absurd hr (by decide)
  · rcases h with rfl | rfl | rfl <;> exact absurd hr (by decide)

theorem startTests_passed (s : State) (r : SelfTestResult) (hstate : s.pwrState = 4) (hheld : s.pwr.held = false) (hpass : SelfTestResult_fails r = 0)
    (hremaps : ∀ e ∈ s.zen.remaps, e.1 < 8 ∧ e.2.length ≤ 16) :
    ∃ t : State, exec (.selfTest r) s = .next t ∧ t.pwrState = 6 ∧ t.startPh = 1 ∧ t.reg rHaloFuse = BitVec.ofNat 64 r.bypass ∧
      t.zen.booted = true ∧ t.fld rPwrSelftest 63 63 = 1 ∧ t.fld rPwrSelftest 62 62 = 0 ∧ SameMem s t := by
  have hexec := execSelfTest_passed hstate hheld hpass
  obtain ⟨hdone, hgood, hzen, hnoted⟩ := s.testNoted_spec r
  generalize s.testNoted r = u at *
  obtain ⟨htested, hbooted, hkept, hfuse⟩ := u.tested_spec r
  generalize u.tested r 0 = v at *
  obtain ⟨hstarted, hpwr, hph, hview⟩ := v.started_spec (by rwa [hkept, hzen])
  generalize v.started = w at *
  obtain ⟨hdue, hlast⟩ := w.startDue_spec s.retests r.elapsed
  generalize w.startDue s.retests r.elapsed = t at *
  have htest : ∀ hi lo, t.fld rPwrSelftest hi lo = u.fld rPwrSelftest hi lo := fun hi lo =>
    (hdue.fld (not_dueReg_of (.inr (.inl rfl))) hi lo).trans ((hstarted.fld (not_startReg_of (.inr rfl)) hi lo).trans (htested.fld (by decide) hi lo))
  refine ⟨t, hexec, (hdue.fld (not_dueReg_of (.inr (.inr rfl))) 63 61).trans hpwr, (hdue.fld (not_dueReg_of (.inr (.inr rfl))) 60 57).trans hph,
    (hdue.reg _ (not_dueReg_of (.inl rfl))).trans ((hstarted.reg _ (not_startReg_of (.inl rfl))).trans hfuse), ?_, (htest 63 63).trans hdone,
    (htest 62 62).trans hgood, (((hnoted.trans (htested.mono fun _ _ => trivial)).trans (hstarted.mono fun _ _ => trivial)).trans
      (hdue.mono fun _ _ => trivial)).sameMem⟩
  exact (congrArg (fun x => x.2.1) (hlast.trans hview)).trans hbooted

theorem startTests_failed (s : State) (r : SelfTestResult) (hstate : s.pwrState = 4) (hheld : s.pwr.held = false) (hfail : SelfTestResult_fails r ≠ 0)
    (hlt : SelfTestResult_fails r < 256) : ∃ t : State, exec (.selfTest r) s = .next t ∧ t.pwrState = 5 ∧ t.fld rPwrSelftest 62 62 = 1 ∧
      t.fld rPwrSelftest 55 48 = SelfTestResult_fails r ∧ t.hbm = [] := by
  obtain ⟨u, detail, t, hexec, hrep⟩ := execSelfTest_fails hstate hheld hfail
  obtain ⟨hover, hfailed, htest, hhbm, -⟩ := u.overcast_toOvercast detail hlt
  generalize u.toOvercast (SelfTestResult_fails r) detail = w at *
  exact ⟨t, hexec, (hrep.fld (by decide) 63 61).trans hover, (hrep.fld (by decide) 62 62).trans hfailed, (hrep.fld (by decide) 55 48).trans htest,
    hrep.hbm.trans hhbm⟩

/-! The memory fill (R500, R576). -/

/-- FILLED shown for every stack. -/
def State.filled (s : State) : State := (List.range 8).foldl (fun s st => s.setFld (rMemStatus st) 63 63 1) s

theorem State.filled_spec (s : State) : (∀ n < 8, s.filled.fld (rMemStatus n) 63 63 = 1) ∧ Leaves (· ∈ (List.range 8).map rMemStatus) s s.filled := by
  refine ⟨fun n hn => ?_, .foldl (fun _ st hst h => .setFld h (List.mem_map_of_mem hst)) .refl⟩
  unfold State.filled
  refine foldl_once (f := fun (s : State) (st : Nat) => s.setFld (rMemStatus st) 63 63 1) (fun t => t.fld (rMemStatus n) 63 63) (fun _ => 1) (fun _ => True)
    (fun t _ => State.fld_setFld_same t _ 63 63 1 (by omega) (by omega)) (fun t st hne => State.fld_setFld_ne t _ _ _ _ _ ?_) (fun _ _ _ => trivial)
    List.nodup_range (List.mem_range.mpr hn) trivial
  simp only [rMemStatus]
  omega

theorem State.filled_keeps {β : Type} (g : State → β) (hg : ∀ (s : State) r, g { s with regs := r } = g s) (s : State) : g s.filled = g s := by
  unfold State.filled
  exact foldl_keeps (f := fun (s : State) (st : Nat) => s.setFld (rMemStatus st) 63 63 1) g (fun u _ => hg u _) _ s

/-- Every memory but the mailbox's emptied. -/
def State.zeroed (s : State) : State := { s with hbm := [], store := [], lstore := [], badLine := [], heldWrites := [] }

theorem State.zeroed_keeps (s : State) : (∀ r, s.zeroed.reg r = s.reg r) ∧ s.zeroed.agenda = s.agenda ∧ s.zeroed.clk = s.clk := ⟨fun _ => rfl, rfl, rfl⟩

theorem execMemoryFillDone_due {s : State} (hstate : s.pwrState = 6) (hph : s.startPh = 1) (hcold : s.pwr.cold = true) :
    exec .memoryFillDone s = .next ((s.zeroed.filled.setPh 2).laterW 0 .startPhase) := if_neg (by simp [hstate, hph, hcold])

/-- Phase 2 shown, and the start looked at (R576). -/
theorem State.toPhase2_spec (u : State) : Leaves (· = rPwrStatus) u ((u.setPh 2).laterW 0 .startPhase) ∧ ((u.setPh 2).laterW 0 .startPhase).startPh = 2 ∧
    ((u.setPh 2).laterW 0 .startPhase).agenda = u.agenda ++ [({ dom := none, at_ := u.clk.wall, act := .cmd .startPhase } : Due)] ∧
    ((u.setPh 2).laterW 0 .startPhase).badLine = u.badLine := by
  refine ⟨.laterW (.setFld .refl rfl), ?_, rfl, rfl⟩
  rw [State.startPh, State.fld_laterW]
  exact u.startPh_setPh (by omega)

theorem startTests_fill (s : State) (hstate : s.pwrState = 6) (hph : s.startPh = 1) (hcold : s.pwr.cold = true) :
    ∃ t : State, exec .memoryFillDone s = .next t ∧ (∀ a, memGet t.hbm a = 0 ∧ memGet t.store a = 0 ∧ memGet t.lstore a = 0) ∧ t.startPh = 2 ∧
      (∀ n, n < 8 → t.fld (rMemStatus n) 63 63 = 1) ∧ t.badLine = [] ∧
      t.agenda = s.agenda ++ [({ dom := none, at_ := s.clk.wall, act := .cmd .startPhase } : Due)] ∧
      SameRegsBut (rPwrStatus :: (List.range 8).map rMemStatus) s t := by
  have hexec := execMemoryFillDone_due hstate hph hcold
  obtain ⟨hset, hleaves⟩ := s.zeroed.filled_spec
  obtain ⟨hregs, hold, hclock⟩ := s.zeroed_keeps
  have hbad : s.zeroed.filled.badLine = [] := State.filled_keeps State.badLine (fun _ _ => rfl) _
  have hagenda : s.zeroed.filled.agenda = s.agenda := (State.filled_keeps State.agenda (fun _ _ => rfl) _).trans hold
  have hclk : s.zeroed.filled.clk = s.clk := (State.filled_keeps State.clk (fun _ _ => rfl) _).trans hclock
  have hzero : s.zeroed.hbm = [] ∧ s.zeroed.store = [] ∧ s.zeroed.lstore = [] := ⟨rfl, rfl, rfl⟩
  generalize s.zeroed.filled = u at *
  obtain ⟨hhbm, hstore, hlstore⟩ := hzero
  obtain ⟨hph2, hphase, hdue, hlines⟩ := u.toPhase2_spec
  generalize (u.setPh 2).laterW 0 .startPhase = t at *
  refine ⟨t, hexec, fun a => ⟨?_, ?_, ?_⟩, hphase, fun n hn => (hph2.fld ?_ 63 63).trans (hset n hn), hlines.trans hbad, ?_, fun r hr => ?_⟩
  · rw [hph2.hbm, hleaves.hbm, hhbm]
    rfl
  · rw [hph2.store, hleaves.store, hstore]
    rfl
  · rw [hph2.lstore, hleaves.lstore, hlstore]
    rfl
  · simp only [rMemStatus, rPwrStatus]
    omega
  · rw [hdue, hagenda, hclk]
  · obtain ⟨hne, hnot⟩ := not_or.mp (mt List.mem_cons.mpr hr)
    exact (hph2.reg r hne).trans ((hleaves.reg r hnot).trans (hregs r))

/-! Idle and Doze, and the return to Active (R561, R562). -/

theorem Leaves.setPwr {P : Nat → Prop} {s t : State} {n : Nat} (h : Leaves P s t) (hP : P rPwrStatus) : Leaves P s (t.setPwr n) := .showPstat (.setFld h hP)

theorem Leaves.setRatios {P : Nat → Prop} {s t : State} {a b : Nat} (h : Leaves P s t) (hP : P rPwrStatus) : Leaves P s (t.setRatios a b) :=
  .setFld (.setFld (.upd h) hP) hP

theorem Leaves.restSquall {s t : State} {x : Nat} (h : Leaves (fun _ => True) s t) : Leaves (fun _ => True) s (t.restSquall x) :=
  .ite h (.ite (.raise (.setFld (.upd (.setRatios h trivial)) trivial) fun _ _ => trivial) (.upd (.setRatios h trivial)))

theorem Leaves.pausePatrol {P : Nat → Prop} {s t : State} {b : Bool} (h : Leaves P s t) (hP : ∀ r ∈ maintRegs, P r) : Leaves P s (t.pausePatrol b) :=
  .showMaint (.upd (.upd h)) hP

/-- The state whose change of power state has come due, its command ended. -/
def State.changed (s : State) (w : Nat) : State :=
  ({ s with pwr := { s.pwr with changing := none } } : State).mbFinish (w / 256) (w % 256) resOk 0

/-- The return to Active: patrol goes on, and Squall swallows again. -/
def State.wakened (s : State) : State :=
  let s := s.pausePatrol false
  if s.inSquall && !s.clk.releasing then ({ s with clk := { s.clk with cap := true } } : State).setRatios 4 s.clk.thermal else s

/-- The return from Night: the SRAM is zeroed, the ports train, and phase 2 comes again (R564). -/
def State.dawned (s : State) : State :=
  let s := s.setFld rClkLock 13 0 0x3FFF
  let s : State := { s with store := [], lstore := [], pwr := { s.pwr with phase3 := true, phase5 := false, cold := false } }
  let s := (List.range 6).foldl (fun s p => if s.connected p ∧ s.fld (rLnkCtrl p) 0 0 = 1 then s.trainFrom p 2 else s) s
  ((((s.setPh 2).setFld rPwrStatus 56 56 0).setPwr 6).laterW 0 .startPhase)

theorem execPowerStateEntered_eq {s : State} {x w : Nat} (h : s.pwr.changing = some (x, w)) : exec .powerStateEntered s =
    if x = 3 then .next ((((s.changed w).restSquall 3).enterNight).setPwr 3)
    else if x ≠ 0 then .next (((s.changed w).restSquall x).setPwr x)
    else if s.pwrState ≠ 3 then .next ((s.changed w).wakened.setPwr 0)
    else .next (s.changed w).wakened.dawned := by
  show execPowerStateEntered s = _
  unfold execPowerStateEntered
  rw [h]
  rfl

theorem State.mbFinish_keeps {β : Type} (g : State → β) (hg : ∀ (s : State) r z h o, g { s with regs := r, zen := z, hosts := h, outbox := o } = g s)
    (s : State) (i n result detail : Nat) : g (s.mbFinish i n result detail) = g s := by
  have hmsix : ∀ (u : State) (v : Nat), g (u.msix i v) = g u := fun u v => by
    unfold State.msix
    split
    · rfl
    · split
      · exact hg u u.regs u.zen _ u.outbox
      · split
        · exact hg u u.regs u.zen _ u.outbox
        · exact hg u u.regs u.zen u.hosts _
  have hshow : ∀ (u : State) (c : Nat), g (if result ≤ 2 then (u.setFld rZenApproved 55 48 c).setFld rZenApproved 62 62 1 else u) = g u := fun u c => by
    split
    · exact hg u _ u.zen u.hosts u.outbox
    · rfl
  unfold State.mbFinish
  split
  · rfl
  · dsimp only
    split
    · exact (hmsix _ 0).trans ((hshow _ _).trans (hg s s.regs _ s.hosts s.outbox))
    · exact (hg _ _ _ _ _).trans ((hshow _ _).trans (hg s s.regs _ s.hosts s.outbox))

theorem State.map_mbFinish (s : State) (i n result detail : Nat) : (s.mbFinish i n result detail).zen.map = s.zen.map := by
  have hmsix : ∀ (u : State) (v : Nat), (u.msix i v).zen.map = u.zen.map := fun u v => by
    unfold State.msix
    split
    · rfl
    · split
      · rfl
      · split <;> rfl
  have hshow : ∀ (u : State) (c : Nat), (if result ≤ 2 then (u.setFld rZenApproved 55 48 c).setFld rZenApproved 62 62 1 else u).zen.map = u.zen.map :=
    fun u c => by split <;> rfl
  unfold State.mbFinish
  split
  · rfl
  · dsimp only
    split
    · exact (hmsix _ 0).trans (hshow _ _)
    · exact hshow _ _

theorem State.changed_spec (s : State) (w : Nat) : (s.changed w).pwr = { s.pwr with changing := none } ∧ (s.changed w).zen.map = s.zen.map ∧
    Leaves (· = rZenApproved) s (s.changed w) :=
  ⟨State.mbFinish_keeps State.pwr (fun _ _ _ _ _ => rfl) _ _ _ _ _, State.map_mbFinish _ _ _ _ _, .mbFinish (.upd .refl) rfl⟩

theorem State.pwr_restSquall (s : State) (x : Nat) : (s.restSquall x).pwr = s.pwr := by
  obtain ⟨-, -, hpwr, -⟩ := s.setRatios_spec 0 s.clk.thermal
  unfold State.restSquall
  split
  · rfl
  · dsimp only
    generalize s.setRatios 0 s.clk.thermal = u at *
    split
    · exact (State.raise_keeps State.pwr (fun _ _ _ _ _ => rfl) _ _).trans hpwr
    · exact hpwr

theorem startTests_rest (s : State) {x w : Nat} (hdue : s.pwr.changing = some (x, w)) (hx : x = 1 ∨ x = 2) :
    ∃ t : State, exec .powerStateEntered s = .next t ∧ t.pwrState = x ∧ t.pwr.changing = none ∧ SameMem s t := by
  have hexec := execPowerStateEntered_eq hdue
  rw [if_neg (by omega), if_pos (by omega)] at hexec
  obtain ⟨hpwr, -, hchanged⟩ := s.changed_spec w
  refine ⟨_, hexec, ?_, ?_, (Leaves.setPwr (.restSquall (hchanged.mono fun _ _ => trivial)) trivial).sameMem⟩
  · rw [State.pwrState_setPwr]
    omega
  · exact (congrArg Pwr.changing ((s.changed w).pwr_restSquall x)).trans (by rw [hpwr])

theorem State.zen_setRatios (s : State) (a b : Nat) : (s.setRatios a b).zen = s.zen := rfl

theorem State.wakened_spec (s : State) : s.wakened.pwr = { s.pwr with pausedPatrol := false } ∧ s.wakened.zen = s.zen ∧
    Leaves (fun r => r ∈ maintRegs ∨ r = rPwrStatus) s s.wakened := by
  have hpwr : (s.pausePatrol false).pwr = { s.pwr with pausedPatrol := false } := State.showMaint_keeps State.pwr (fun _ _ => rfl) _
  have hzen : (s.pausePatrol false).zen = s.zen := State.showMaint_keeps State.zen (fun _ _ => rfl) _
  have hleaves : Leaves (fun r => r ∈ maintRegs ∨ r = rPwrStatus) s (s.pausePatrol false) := .pausePatrol .refl fun _ h => .inl h
  unfold State.wakened
  dsimp only
  generalize s.pausePatrol false = u at *
  split
  · obtain ⟨-, -, hset, -⟩ := State.setRatios_spec { u with clk := { u.clk with cap := true } } 4 u.clk.thermal
    exact ⟨hset.trans hpwr, (State.zen_setRatios _ _ _).trans hzen, .setRatios (.upd hleaves) (.inr rfl)⟩
  · exact ⟨hpwr, hzen, hleaves⟩

theorem startTests_wake (s : State) {x w : Nat} (hdue : s.pwr.changing = some (x, w)) (hx : x = 0) (hstate : s.pwrState ≠ 3) :
    ∃ t : State, exec .powerStateEntered s = .next t ∧ t.pwrState = 0 ∧ t.pwr.pausedPatrol = false ∧ t.pwr.changing = none ∧ SameMem s t := by
  have hexec := execPowerStateEntered_eq hdue
  rw [if_neg (by omega), if_neg (not_not_intro hx), if_pos hstate] at hexec
  obtain ⟨hpwr, -, hchanged⟩ := s.changed_spec w
  obtain ⟨hpaused, -, hwake⟩ := (s.changed w).wakened_spec
  refine ⟨_, hexec, State.pwrState_setPwr _ 0, ?_, ?_,
    (Leaves.setPwr ((hchanged.mono fun _ _ => trivial).trans (hwake.mono (Q := fun _ => True) fun _ _ => trivial)) trivial).sameMem⟩
  · exact congrArg Pwr.pausedPatrol hpaused
  · exact (congrArg Pwr.changing hpaused).trans (congrArg Pwr.changing hpwr)

/-! Night (R562–R564). -/

/-- A port dark, and its register's copies agreeing. -/
def State.darkAt (s : State) (p : Nat) : Prop := s.linkState p = 0 ∧ s.Agrees (rLnkStatus p)

theorem State.agrees_showMaint {s : State} {r : Nat} (h : s.Agrees r) : s.showMaint.Agrees r :=
  List.foldlRecOn (motive := fun t : State => t.Agrees r) _ _ h fun _ ht _ _ =>
    State.agrees_setReg _ _ fun _ => State.agrees_setReg _ _ fun _ => State.agrees_setReg _ _ fun _ => ht

/-- A port gone dark for Night. -/
def State.nightPort (s : State) (p : Nat) : State := (s.goDark p).setFld (rLnkStatus p) 55 32 0

theorem Leaves.goDark {P : Nat → Prop} {s t : State} {p : Nat} (h : Leaves P s t) (hP : ∀ r ∈ rLnkStatus p :: maintRegs, P r) : Leaves P s (t.goDark p) :=
  h.next (.goDark t p) hP

theorem State.agrees_goDark {s : State} {p r : Nat} (h : r ≠ rLnkStatus p → s.Agrees r) : (s.goDark p).Agrees r := by
  unfold State.goDark State.maintEnd
  exact State.agrees_showMaint (State.agrees_setReg _ _ h)

theorem State.darkAt_nightPort (s : State) (p : Nat) : (s.nightPort p).darkAt p := by
  refine ⟨?_, State.agrees_setReg _ _ fun h => absurd rfl h⟩
  unfold State.nightPort State.linkState
  rw [State.fld_setFld_disjoint _ _ _ _ _ _ _ (by omega) (by omega) (by omega) (by omega)]
  exact s.linkState_goDark p

theorem State.darkAt_nightPort_ne {s : State} {p q : Nat} (hp : p < 6) (hne : p ≠ q) (h : s.darkAt p) : (s.nightPort q).darkAt p := by
  obtain ⟨hdark, hagrees⟩ := h
  refine ⟨?_, State.agrees_setReg _ _ fun _ => State.agrees_goDark fun _ => hagrees⟩
  unfold State.nightPort State.linkState
  rw [State.fld_setFld_ne _ _ _ _ _ _ (rLnkStatus_ne hne)]
  exact (s.linkState_goDark_ne hne hp).trans hdark

theorem State.darkAt_foldl {l : List Nat} {p : Nat} (hp : p < 6) : ∀ s : State, p ∈ l ∨ s.darkAt p → (l.foldl State.nightPort s).darkAt p := by
  induction l with
  | nil => exact fun s h => h.resolve_left List.not_mem_nil
  | cons q l ih =>
    intro s h
    rw [List.foldl_cons]
    apply ih
    by_cases hq : p = q
    · subst hq
      exact .inr (s.darkAt_nightPort p)
    · exact h.imp (fun hin => (List.mem_cons.mp hin).resolve_left hq) (State.darkAt_nightPort_ne hp hq)

theorem getF_resetUnder_zero {r mask hi lo : Nat} {v : Word} (hv : getF v hi lo = 0) (hr : getF (resetWord r) hi lo = 0) :
    getF (resetUnder r mask v) hi lo = 0 := by
  refine Nat.eq_of_testBit_eq fun i => ?_
  rw [testBit_getF_resetUnder, hv, hr, ite_self]

/-- The ports dark, and the registers returned to reset, before what is off is cleared. -/
def State.nightRegs (s : State) : State :=
  ((((((List.range 6).foldl State.nightPort s).resetBits nightMask).setFld rPwrStatus 60 57 0).setFld rPwrStatus 56 56 0).setFld rClkLock 19 0 0)

/-- The clocks of what is off stopped. -/
def State.switchedOff (s : State) : State := { s with cores := [], arrays := [], bars := [], slots := [] }

theorem State.switchedOff_spec (s : State) {P : Nat → Prop} : (s.switchedOff.setPwr 3).cores = [] ∧ (s.switchedOff.setPwr 3).arrays = [] ∧
    Leaves P s s.switchedOff := ⟨rfl, rfl, .upd .refl⟩

theorem State.enterNight_eq (s : State) : s.enterNight = s.nightRegs.switchedOff := rfl

theorem resetWord_rLnkStatus : ∀ p < 6, getF (resetWord (rLnkStatus p)) 63 61 = 0 := by decide

theorem State.dark_resetBits {u : State} {p : Nat} (hp : p < 6) (h : u.darkAt p) (mask : Nat → Nat) : (u.resetBits mask).linkState p = 0 := by
  obtain ⟨hdark, hagrees⟩ := h
  unfold State.linkState State.fld at *
  rw [State.reg_resetBits hagrees]
  exact getF_resetUnder_zero hdark (resetWord_rLnkStatus p hp)

theorem State.dark_nightRegs (s : State) {p : Nat} (hp : p < 6) : s.nightRegs.linkState p = 0 := by
  have hdark := State.dark_resetBits hp (State.darkAt_foldl hp s (.inl (List.mem_range.mpr hp))) nightMask
  unfold State.nightRegs
  generalize ((List.range 6).foldl State.nightPort s).resetBits nightMask = u at *
  have hleaves : Leaves (· ∈ [rPwrStatus, rClkLock]) u (((u.setFld rPwrStatus 60 57 0).setFld rPwrStatus 56 56 0).setFld rClkLock 19 0 0) :=
    .setFld (.setFld (.setFld .refl (by simp)) (by simp)) (by simp)
  refine (State.linkState_congr (hleaves.reg _ ?_)).trans hdark
  simp only [List.mem_cons, List.not_mem_nil, or_false, rLnkStatus, rPwrStatus, rClkLock]
  omega

theorem Leaves.nightRegs {s t : State} (h : Leaves (fun _ => True) s t) : Leaves (fun _ => True) s t.nightRegs :=
  .setFld (.setFld (.setFld (.resetBits (.foldl (fun _ _ _ hu => .setFld (hu.goDark fun _ _ => trivial) trivial) h)) trivial) trivial) trivial

theorem startTests_night (s : State) {x w : Nat} (hdue : s.pwr.changing = some (x, w)) (hx : x = 3) :
    ∃ t : State, exec .powerStateEntered s = .next t ∧ t.pwrState = 3 ∧ t.cores = [] ∧ t.arrays = [] ∧ (∀ p, p < 6 → t.linkState p = 0) ∧
      SameMem s t := by
  have hexec := execPowerStateEntered_eq hdue
  rw [if_pos hx] at hexec
  obtain ⟨-, -, hchanged⟩ := s.changed_spec w
  have hrest : Leaves (fun _ => True) s ((s.changed w).restSquall 3) := .restSquall (hchanged.mono fun _ _ => trivial)
  generalize (s.changed w).restSquall 3 = u at *
  have hdark := fun p (hp : p < 6) => u.dark_nightRegs hp
  have hnight := hrest.nightRegs
  rw [u.enterNight_eq] at hexec
  generalize u.nightRegs = v at *
  obtain ⟨hcores, harrays, hoff⟩ := v.switchedOff_spec (P := (· = rPwrStatus))
  have hset : Leaves (· = rPwrStatus) v (v.switchedOff.setPwr 3) := hoff.setPwr rfl
  have hstate := v.switchedOff.pwrState_setPwr 3
  generalize v.switchedOff.setPwr 3 = t at *
  refine ⟨t, hexec, hstate, hcores, harrays, fun p hp => (State.linkState_congr (hset.reg _ ?_)).trans (hdark p hp),
    (hnight.trans (hset.mono fun _ _ => trivial)).sameMem⟩
  simp only [rLnkStatus, rPwrStatus]
  omega

/-! The return from Night (R564). -/

theorem State.connected_congr_map {s t : State} (h : t.zen.map = s.zen.map) (p : Nat) : t.connected p = s.connected p := by
  unfold State.connected State.dims State.mapMask State.ownPlace State.mapSize
  rw [h]

/-- A connected port that may come up trains from step 2. -/
def State.retrainPort (s : State) (p : Nat) : State := if s.connected p ∧ s.fld (rLnkCtrl p) 0 0 = 1 then s.trainFrom p 2 else s

/-- The SRAM zeroed, and the clocks locked. -/
def State.dawning (s : State) : State :=
  { s.setFld rClkLock 13 0 0x3FFF with store := [], lstore := [], pwr := { s.pwr with phase3 := true, phase5 := false, cold := false } }

theorem State.dawned_eq (s : State) : s.dawned =
    (((((List.range 6).foldl State.retrainPort s.dawning).setPh 2).setFld rPwrStatus 56 56 0).setPwr 6).laterW 0 .startPhase := rfl

theorem State.retrainPort_keeps {β : Type} (g : State → β) (hg : ∀ (s : State) r p, g { s with regs := r, ports := p } = g s) (s : State) (p : Nat) :
    g (s.retrainPort p) = g s := by
  unfold State.retrainPort
  split
  · exact hg s _ _
  · rfl

theorem Leaves.retrainPort {P : Nat → Prop} {s t : State} {p : Nat} (h : Leaves P s t) (hp : P (rLnkStatus p)) : Leaves P s (t.retrainPort p) :=
  .ite (h.trainFrom hp) h

theorem State.linkState_foldl_retrainPort {s : State} {p : Nat} (hp : p < 6) (hcon : s.connected p = true) (hen : s.fld (rLnkCtrl p) 0 0 = 1) :
    ((List.range 6).foldl State.retrainPort s).linkState p = 1 := by
  have hctrl : ∀ q, rLnkCtrl p ≠ rLnkStatus q := fun q => by simp only [rLnkCtrl, rLnkStatus]; omega
  refine foldl_once (f := State.retrainPort) (fun t => t.linkState p) (fun _ => 1) (fun t => t.zen.map = s.zen.map ∧ t.fld (rLnkCtrl p) 0 0 = 1)
    (fun t ht => ?_) (fun t q hq => ?_) (fun t q ht => ?_) List.nodup_range (List.mem_range.mpr hp) ⟨rfl, hen⟩
  · obtain ⟨hmap, hset⟩ := ht
    unfold State.retrainPort
    rw [if_pos ⟨(State.connected_congr_map hmap p).trans hcon, hset⟩]
    exact t.linkState_trainFrom p 2
  · exact Leaves.fld (P := (· = rLnkStatus q)) (.retrainPort .refl rfl) (rLnkStatus_ne hq.symm) 63 61
  · obtain ⟨hmap, hset⟩ := ht
    exact ⟨(t.retrainPort_keeps (fun u => u.zen.map) (fun _ _ _ => rfl) q).trans hmap,
      (Leaves.fld (P := (· = rLnkStatus q)) (.retrainPort .refl rfl) (hctrl q) 0 0).trans hset⟩

/-- The phase and the state shown at the return from Night. -/
theorem State.phase2_spec (u : State) : ∃ t : State, (((u.setPh 2).setFld rPwrStatus 56 56 0).setPwr 6).laterW 0 .startPhase = t ∧ t.pwrState = 6 ∧
    t.startPh = 2 ∧ t.fld rPwrStatus 56 56 = 0 ∧ t.pwr = u.pwr ∧ Leaves (· = rPwrStatus) u t ∧
    t.agenda = u.agenda ++ [({ dom := none, at_ := u.clk.wall, act := .cmd .startPhase } : Due)] := by
  have hph : ((u.setPh 2).setFld rPwrStatus 56 56 0).startPh = 2 := by
    unfold State.startPh
    rw [State.fld_setFld_disjoint _ _ _ _ _ _ _ (by omega) (by omega) (by omega) (by omega)]
    exact u.startPh_setPh (by omega)
  have hzero : ((u.setPh 2).setFld rPwrStatus 56 56 0).fld rPwrStatus 56 56 = 0 := State.fld_setFld_same _ _ _ _ _ (by omega) (by omega)
  have hleaves : Leaves (· = rPwrStatus) u ((u.setPh 2).setFld rPwrStatus 56 56 0) := .setFld (.setFld .refl rfl) rfl
  have hkeep : ((u.setPh 2).setFld rPwrStatus 56 56 0).pwr = u.pwr ∧ ((u.setPh 2).setFld rPwrStatus 56 56 0).agenda = u.agenda ∧
      ((u.setPh 2).setFld rPwrStatus 56 56 0).clk = u.clk := ⟨rfl, rfl, rfl⟩
  generalize (u.setPh 2).setFld rPwrStatus 56 56 0 = v at *
  obtain ⟨hpwr, hagenda, hclk⟩ := hkeep
  have hshown : (v.setPwr 6).fld rPwrStatus 56 56 = 0 := by
    unfold State.setPwr
    rw [State.showPstat_keeps (State.fld · rPwrStatus 56 56) fun _ _ => rfl,
      State.fld_setFld_disjoint _ _ _ _ _ _ _ (by omega) (by omega) (by omega) (by omega)]
    exact hzero
  have hkeep : (v.setPwr 6).pwr = v.pwr ∧ (v.setPwr 6).agenda = v.agenda ∧ (v.setPwr 6).clk = v.clk := ⟨rfl, rfl, rfl⟩
  have hstate := v.pwrState_setPwr 6
  have hphase := (v.startPh_setPwr 6).trans hph
  have hend : Leaves (· = rPwrStatus) u (v.setPwr 6) := hleaves.setPwr rfl
  generalize v.setPwr 6 = w at *
  obtain ⟨hpwr', hagenda', hclk'⟩ := hkeep
  have hlater : (w.laterW 0 .startPhase).agenda = w.agenda ++ [({ dom := none, at_ := w.clk.wall, act := .cmd .startPhase } : Due)] := rfl
  refine ⟨_, rfl, ?_, ?_, ?_, hpwr'.trans hpwr, hend.laterW, by rw [hlater, hagenda', hagenda, hclk', hclk]⟩
  · rw [State.pwrState, State.fld_laterW]
    exact hstate
  · rw [State.startPh, State.fld_laterW]
    exact hphase
  · rw [State.fld_laterW]
    exact hshown

theorem State.wall_changed (s : State) (w : Nat) : (s.changed w).clk.wall = s.clk.wall :=
  State.mbFinish_keeps (fun u => u.clk.wall) (fun _ _ _ _ _ => rfl) _ _ _ _ _

theorem State.wall_setRatios (s : State) (a b : Nat) : (s.setRatios a b).clk.wall = s.clk.wall := rfl

theorem State.wall_wakened (s : State) : s.wakened.clk.wall = s.clk.wall := by
  have hclk : (s.pausePatrol false).clk = s.clk := State.showMaint_keeps State.clk (fun _ _ => rfl) _
  unfold State.wakened
  dsimp only
  generalize s.pausePatrol false = u at *
  split
  · rw [State.wall_setRatios, hclk]
  · rw [hclk]

theorem State.dawning_spec (s : State) : s.dawning.store = [] ∧ s.dawning.lstore = [] ∧ s.dawning.hbm = s.hbm ∧ s.dawning.pwr.phase5 = false ∧
    s.dawning.pwr.changing = s.pwr.changing ∧ s.dawning.zen.map = s.zen.map ∧ s.dawning.clk.wall = s.clk.wall ∧
    ∀ {r : Nat}, r ≠ rClkLock → ∀ hi lo, s.dawning.fld r hi lo = s.fld r hi lo :=
  ⟨rfl, rfl, rfl, rfl, rfl, rfl, rfl, fun hne hi lo => State.fld_setFld_ne s 13 0 0x3FFF hi lo hne⟩

theorem rLnkCtrl_apart {p : Nat} (hp : p < 6) : rLnkCtrl p ≠ rZenApproved ∧ rLnkCtrl p ∉ maintRegs ∧ rLnkCtrl p ≠ rPwrStatus ∧ rLnkCtrl p ≠ rClkLock := by
  have hall : ∀ p < 6, rLnkCtrl p ≠ rZenApproved ∧ rLnkCtrl p ∉ maintRegs ∧ rLnkCtrl p ≠ rPwrStatus ∧ rLnkCtrl p ≠ rClkLock := by decide
  exact hall p hp

theorem startTests_dawn (s : State) {x w : Nat} (hdue : s.pwr.changing = some (x, w)) (hx : x = 0) (hstate : s.pwrState = 3) :
    ∃ t : State, exec .powerStateEntered s = .next t ∧ t.pwrState = 6 ∧ t.startPh = 2 ∧ t.fld rPwrStatus 56 56 = 0 ∧ t.pwr.phase5 = false ∧
      t.store = [] ∧ t.lstore = [] ∧ t.hbm = s.hbm ∧ t.pwr.changing = none ∧
      (∀ p, p < 6 → s.connected p = true → s.fld (rLnkCtrl p) 0 0 = 1 → t.linkState p = 1) ∧
      t.agenda.getLast? = some ({ dom := none, at_ := s.clk.wall, act := .cmd .startPhase } : Due) := by
  have hexec := execPowerStateEntered_eq hdue
  rw [if_neg (by omega), if_neg (not_not_intro hx), if_neg (not_not_intro hstate)] at hexec
  obtain ⟨hpwr, hmap, hchanged⟩ := s.changed_spec w
  have hwall := s.wall_changed w
  generalize s.changed w = u at *
  obtain ⟨hpaused, hzen, hwake⟩ := u.wakened_spec
  have hwall' := u.wall_wakened
  generalize u.wakened = v at *
  obtain ⟨hstore, hlstore, hhbm, hphase5, hchanging, hmap', hwall'', hdawning⟩ := v.dawning_spec
  rw [v.dawned_eq] at hexec
  have hlink : ∀ p < 6, s.connected p = true → s.fld (rLnkCtrl p) 0 0 = 1 → ((List.range 6).foldl State.retrainPort v.dawning).linkState p = 1 :=
    fun p hp hcon hen => by
      refine State.linkState_foldl_retrainPort hp ?_ ?_
      · rw [State.connected_congr_map (s := s) (by rw [hmap', hzen, hmap])]
        exact hcon
      · obtain ⟨happroved, hmaint, hstatus, hlock⟩ := rLnkCtrl_apart hp
        rw [hdawning hlock, hwake.fld (fun h => h.elim hmaint hstatus), hchanged.fld happroved]
        exact hen
  generalize v.dawning = d at *
  have htrain : Leaves (fun _ => True) d ((List.range 6).foldl State.retrainPort d) := .foldl (fun _ _ _ h => h.retrainPort trivial) .refl
  have hpwr2 : ((List.range 6).foldl State.retrainPort d).pwr = d.pwr := foldl_keeps State.pwr (State.retrainPort_keeps State.pwr fun _ _ _ => rfl) _ d
  have hclk2 : ((List.range 6).foldl State.retrainPort d).clk = d.clk := foldl_keeps State.clk (State.retrainPort_keeps State.clk fun _ _ _ => rfl) _ d
  generalize (List.range 6).foldl State.retrainPort d = e at *
  obtain ⟨t, heq, hsix, hph, hready, hpwr3, hleaves, hagenda⟩ := e.phase2_spec
  rw [heq] at hexec
  refine ⟨t, hexec, hsix, hph, hready, ?_, ?_, ?_, ?_, ?_, fun p hp hcon hen => ?_, ?_⟩
  · rw [hpwr3, hpwr2, hphase5]
  · rw [hleaves.store, htrain.store, hstore]
  · rw [hleaves.lstore, htrain.lstore, hlstore]
  · rw [hleaves.hbm, htrain.hbm, hhbm, hwake.hbm, hchanged.hbm]
  · rw [hpwr3, hpwr2, hchanging, hpaused, hpwr]
  · have hne : rLnkStatus p ≠ rPwrStatus := by
      simp only [rLnkStatus, rPwrStatus]
      omega
    exact (hleaves.fld hne 63 61).trans (hlink p hp hcon hen)
  · rw [hagenda, List.getLast?_concat, hclk2, hwall'', hwall', hwall]

/-- Settles O41: the self-test, the memory fill, and the power states entered. -/
theorem startTests : Obligations.StartTests := by
  refine ⟨fun s r hstate hheld => ⟨startTests_passed s r hstate hheld, startTests_failed s r hstate hheld⟩, startTests_fill,
    fun s x w hdue => ⟨startTests_rest s hdue, startTests_night s hdue, fun hx hstate _ => startTests_wake s hdue hx hstate,
      fun hx hstate _ => startTests_dawn s hdue hx hstate⟩, fun s => ⟨fun h => ?_, fun h => if_pos ?_, fun r h => if_pos h⟩⟩
  · show execPowerStateEntered s = _
    unfold execPowerStateEntered
    rw [h]
  · rcases h with h | h | h
    · exact .inl h
    · exact .inr (.inl h)
    · exact .inr (.inr (by rw [h]; rfl))

end Sys2Proof.Machine
end

section
/-! PROOF. The mailbox: its gates, what an answer leaves, and the commands that answer at once (R520, R606–R608, R611). -/
namespace Sys2Proof.Machine

/-! What an answer leaves (R606). -/

/-- The result shown in the registers of a mailbox. -/
def State.resultShown (s : State) (i result detail ticket len : Nat) : State :=
  let s := s.setReg (rZenMbDetail + mbOfs i) (BitVec.ofNat 64 detail)
  let s := s.setFld (rZenMbStatus + mbOfs i) 63 62 1
  let s := s.setFld (rZenMbStatus + mbOfs i) 47 40 ticket
  let s := s.setFld (rZenMbStatus + mbOfs i) 31 16 len
  let s := s.setFld (rZenMbStatus + mbOfs i) 15 0 result
  s.setFld (rZenMbCmd + mbOfs i) 63 63 0

/-- The command shown as an approved one (R522). -/
def State.approvedShown (s : State) (code result ticket : Nat) : State :=
  if ticket = 0 ∧ result ≤ 2 then (s.setFld rZenApproved 55 48 code).setFld rZenApproved 62 62 (if code = 0x33 then 0 else 1) else s

/-- The host told of a result, by vector 0 or in a message (R606, R614). -/
def State.resultTold (s : State) (i : Nat) (m : List Nat) : State := if i < 2 then s.msix i 0 else s.out (.smbus m)

theorem State.mbResult_eq (s : State) (i code result detail ticket : Nat) (resp : List Nat) : s.mbResult i code result detail ticket resp =
    ((({ s with mbuf := memWrite s.mbuf (i * 2 ^ 16 + 2 ^ 15) resp } : State).resultShown i result detail ticket resp.length).approvedShown code result
      ticket).resultTold i (leBytes 2 result ++ leBytes 8 detail ++ resp) := rfl

theorem State.approvedShown_keeps {β : Type} (g : State → β) (hg : ∀ (s : State) r, g { s with regs := r } = g s) (s : State) (code result ticket : Nat) :
    g (s.approvedShown code result ticket) = g s := by
  unfold State.approvedShown
  split
  · exact hg s _
  · rfl

theorem State.resultTold_keeps {β : Type} (g : State → β) (hg : ∀ (s : State) h o, g { s with hosts := h, outbox := o } = g s) (s : State) (i : Nat)
    (m : List Nat) : g (s.resultTold i m) = g s := by
  unfold State.resultTold
  split
  · unfold State.msix
    split
    · rfl
    · split
      · exact hg s _ s.outbox
      · split
        · exact hg s _ s.outbox
        · exact hg s s.hosts _
  · exact hg s s.hosts _

/-- An answer keeps everything but registers, the response, and what the host is told. -/
theorem State.mbResult_keeps {β : Type} (g : State → β) (hg : ∀ (s : State) r m h o, g { s with regs := r, mbuf := m, hosts := h, outbox := o } = g s)
    (s : State) (i code result detail ticket : Nat) (resp : List Nat) : g (s.mbResult i code result detail ticket resp) = g s := by
  rw [State.mbResult_eq, State.resultTold_keeps g fun u h o => hg u u.regs u.mbuf h o,
    State.approvedShown_keeps g fun u r => hg u r u.mbuf u.hosts u.outbox]
  exact hg s _ _ s.hosts s.outbox

theorem State.resultShown_spec (s : State) (i detail ticket len : Nat) {result : Nat} (h : result < 65536) :
    (s.resultShown i result detail ticket len).answered i result ∧
    (s.resultShown i result detail ticket len).reg (rZenMbDetail + mbOfs i) = BitVec.ofNat 64 detail := by
  have hcmd : rZenMbStatus + mbOfs i ≠ rZenMbCmd + mbOfs i := by simp only [rZenMbStatus, rZenMbCmd]; omega
  have hdet : rZenMbDetail + mbOfs i ≠ rZenMbCmd + mbOfs i := by simp only [rZenMbDetail, rZenMbCmd]; omega
  have hst : rZenMbDetail + mbOfs i ≠ rZenMbStatus + mbOfs i := by simp only [rZenMbDetail, rZenMbStatus]; omega
  unfold State.resultShown
  refine ⟨⟨?_, ?_, State.fld_setFld_same _ _ _ _ _ (by omega) (by omega)⟩, ?_⟩
  · rw [State.fld_setFld_ne _ _ _ _ _ _ hcmd, State.fld_setFld_same _ _ _ _ _ (by omega) (by omega)]
    exact Nat.mod_eq_of_lt h
  · rw [State.fld_setFld_ne _ _ _ _ _ _ hcmd, State.fld_setFld_disjoint _ _ _ _ _ _ _ (by omega) (by omega) (by omega) (by omega),
      State.fld_setFld_disjoint _ _ _ _ _ _ _ (by omega) (by omega) (by omega) (by omega),
      State.fld_setFld_disjoint _ _ _ _ _ _ _ (by omega) (by omega) (by omega) (by omega), State.fld_setFld_same _ _ _ _ _ (by omega) (by omega)]
    rfl
  · rw [State.reg_setFld_ne _ _ _ _ hdet, State.reg_setFld_ne _ _ _ _ hst, State.reg_setFld_ne _ _ _ _ hst, State.reg_setFld_ne _ _ _ _ hst,
      State.reg_setFld_ne _ _ _ _ hst, State.reg_setReg_same]

theorem State.answered_congr {s t : State} {i result : Nat} (h : s.answered i result) (hst : t.reg (rZenMbStatus + mbOfs i) = s.reg (rZenMbStatus + mbOfs i))
    (hcmd : t.reg (rZenMbCmd + mbOfs i) = s.reg (rZenMbCmd + mbOfs i)) : t.answered i result := by
  simpa only [State.answered, State.fld, hst, hcmd] using h

theorem State.answered_mbResult (s : State) (i code detail ticket : Nat) (resp : List Nat) {result : Nat} (h : result < 65536) :
    (s.mbResult i code result detail ticket resp).answered i result ∧
    (s.mbResult i code result detail ticket resp).reg (rZenMbDetail + mbOfs i) = BitVec.ofNat 64 detail := by
  obtain ⟨hanswered, hdetail⟩ := State.resultShown_spec { s with mbuf := memWrite s.mbuf (i * 2 ^ 16 + 2 ^ 15) resp } i detail ticket resp.length h
  rw [State.mbResult_eq]
  generalize State.resultShown { s with mbuf := memWrite s.mbuf (i * 2 ^ 16 + 2 ^ 15) resp } i result detail ticket resp.length = u at *
  have htold : ∀ r, ((u.approvedShown code result ticket).resultTold i (leBytes 2 result ++ leBytes 8 detail ++ resp)).reg r =
      (u.approvedShown code result ticket).reg r := fun r => State.resultTold_keeps (State.reg · r) (fun _ _ _ => rfl) _ _ _
  have hshown : Leaves (· = rZenApproved) u (u.approvedShown code result ticket) := .ite (.setFld (.setFld .refl rfl) rfl) .refl
  have happroved : ∀ a, rZenMbCmd ≤ a → a ≤ rZenMbDetail → a + mbOfs i ≠ rZenApproved := fun a hlo hhi => by
    simp only [rZenMbCmd, rZenMbDetail, rZenApproved, mbOfs, localStride] at *
    omega
  generalize u.approvedShown code result ticket = v at *
  refine ⟨State.answered_congr hanswered ?_ ?_, ?_⟩
  · exact (htold _).trans (hshown.reg _ (happroved _ (by decide) (by decide)))
  · exact (htold _).trans (hshown.reg _ (happroved _ (by decide) (by decide)))
  · exact ((htold _).trans (hshown.reg _ (happroved _ (by decide) (by decide)))).trans hdetail

theorem mem_mailboxRegs {i a : Nat} (h : a = rZenMbDetail + mbOfs i ∨ a = rZenMbStatus + mbOfs i ∨ a = rZenMbCmd + mbOfs i ∨ a = rZenApproved) :
    a ∈ mailboxRegs i := by simpa [mailboxRegs] using h

theorem Leaves.resultTold {P : Nat → Prop} {s t : State} {i : Nat} {m : List Nat} (h : Leaves P s t) : Leaves P s (t.resultTold i m) :=
  .ite (h.next (.msix t i 0) fun _ hr => hr) h.out

theorem Leaves.shown {P : Nat → Prop} {s t : State} {i code result detail ticket len : Nat} {m : List Nat} (h : Leaves P s t)
    (hP : ∀ r ∈ mailboxRegs i, P r) :
    Leaves P s (((t.resultShown i result detail ticket len).approvedShown code result ticket).resultTold i m) := by
  have hd := hP _ (mem_mailboxRegs (i := i) (.inl rfl))
  have hs := hP _ (mem_mailboxRegs (i := i) (.inr (.inl rfl)))
  have hc := hP _ (mem_mailboxRegs (i := i) (.inr (.inr (.inl rfl))))
  have ha := hP _ (mem_mailboxRegs (i := i) (.inr (.inr (.inr rfl))))
  have hshown : Leaves P s (t.resultShown i result detail ticket len) :=
    .setFld (.setFld (.setFld (.setFld (.setFld (.setReg h hd) hs) hs) hs) hs) hc
  exact .resultTold (.ite (.setFld (.setFld hshown ha) ha) hshown)

/-- An answer without a response leaves memory as it was, and writes the mailbox's registers alone. -/
theorem Leaves.mbResult {P : Nat → Prop} {s t : State} {i code result detail ticket : Nat} (h : Leaves P s t) (hP : ∀ r ∈ mailboxRegs i, P r) :
    Leaves P s (t.mbResult i code result detail ticket []) := h.shown hP

theorem Leaves.mbAnswer {P : Nat → Prop} {s t : State} {i code result : Nat} (h : Leaves P s t) (hP : ∀ r ∈ mailboxRegs i, P r) :
    Leaves P s (t.mbAnswer i code result) := h.mbResult hP

/-- An answer with a response writes that, and the mailbox's registers alone. -/
theorem State.mbReply_spec (s : State) (i code : Nat) {result : Nat} (resp : List Nat) (h : result < 65536) :
    (s.mbReply i code result resp).answered i result ∧ (s.mbReply i code result resp).mbuf = memWrite s.mbuf (i * 2 ^ 16 + 2 ^ 15) resp ∧
    (s.mbReply i code result resp).hbm = s.hbm ∧ (s.mbReply i code result resp).store = s.store ∧ (s.mbReply i code result resp).lstore = s.lstore ∧
    SameRegsBut (mailboxRegs i) s (s.mbReply i code result resp) := by
  obtain ⟨hanswered, -⟩ := s.answered_mbResult i code 0 0 resp h
  have hleaves : Leaves (· ∈ mailboxRegs i) { s with mbuf := memWrite s.mbuf (i * 2 ^ 16 + 2 ^ 15) resp } (s.mbResult i code result 0 0 resp) :=
    Leaves.shown (i := i) .refl fun _ hr => hr
  exact ⟨hanswered, hleaves.mbuf, hleaves.hbm, hleaves.store, hleaves.lstore, hleaves.reg⟩

theorem State.mbAnswer_spec (s : State) (i code : Nat) {result : Nat} (h : result < 65536) : (s.mbAnswer i code result).answered i result ∧
    Leaves (· ∈ mailboxRegs i) s (s.mbAnswer i code result) :=
  ⟨(s.answered_mbResult i code 0 0 [] h).1, .mbAnswer .refl fun _ hr => hr⟩

theorem State.mbAnswer_keeps {β : Type} (g : State → β) (hg : ∀ (s : State) r m h o, g { s with regs := r, mbuf := m, hosts := h, outbox := o } = g s)
    (s : State) (i code result : Nat) : g (s.mbAnswer i code result) = g s := s.mbResult_keeps g hg i code result 0 0 []

/-! The gates (R520, R556, R573, R607, R612). -/

/-- The state once a command of the interface has passed: its time is kept (R520). -/
def State.heard (s : State) (i : Nat) : State := { s with zen := { s.zen with lastCmd := SMap.set s.zen.lastCmd i s.clk.wall } }

theorem Leaves.heard {P : Nat → Prop} {s t : State} {i : Nat} (h : Leaves P s t) : Leaves P s (t.heard i) := .upd h

theorem State.mailbox_held {s : State} (i code role : Nat) (f : State → State) (h : s.pwr.held = true) : s.mailbox i code role f = .next s := if_pos (.inl h)

theorem State.mailbox_asleep {s : State} {i : Nat} (code role : Nat) (f : State → State) (hheld : s.pwr.held = false) (hi : i ≤ 2)
    (h : s.zen.booted = false ∨ s.zen.booting = true) : s.mailbox i code role f = .next (s.mbAnswer i code 3) :=
  (if_neg (by simp [hheld, hi])).trans (if_pos (by simpa using h))

theorem State.mailbox_awake {s : State} {i : Nat} (code role : Nat) (f : State → State) (h : s.mailboxAwake i) : s.mailbox i code role f =
    if s.pwrState = 5 then .next (if [1, 0x40, 0x41, 0x30, 0x32].contains code then f (s.heard i) else (s.heard i).mbAnswer i code 4)
    else if i < 2 ∧ s.fld (rGlbAbi + localStride * i) 7 0 = 0 ∧ !([1, 2, 0x40].contains code) then .next ((s.heard i).mbAnswer i code 8)
    else if s.roleOf i < role then .next ((s.heard i).mbAnswer i code 7)
    else .next (f (s.heard i)) := by
  obtain ⟨hheld, hi, hbooted, hbooting⟩ := h
  exact (if_neg (by simp [hheld, hi])).trans (if_neg (by simp [hbooted, hbooting]))

theorem State.mailbox_open {s : State} {i code role : Nat} (f : State → State) (h : s.mailboxOpen i role) :
    s.mailbox i code role f = .next (f (s.heard i)) := by
  obtain ⟨⟨hheld, hi, hbooted, hbooting, hlive⟩, habi, hrole⟩ := h
  rw [State.mailbox_awake code role f ⟨hheld, hi, hbooted, hbooting⟩, if_neg hlive, if_neg fun hno => habi hno.1 hno.2.1, if_neg (by omega)]

/-- STATUS, ABI_OPEN and AO_RECORD need no agreed ABI and no role (R611). -/
theorem State.mailbox_free {s : State} {i code : Nat} (f : State → State) (h : s.mailboxAwake i) (hcode : [1, 2, 0x40].contains code = true)
    (hlive : s.pwrState ≠ 5 ∨ [1, 0x40, 0x41, 0x30, 0x32].contains code = true) : s.mailbox i code 0 f = .next (f (s.heard i)) := by
  rw [State.mailbox_awake code 0 f h, hcode]
  by_cases hover : s.pwrState = 5
  · rw [if_pos hover, if_pos (hlive.resolve_left (not_not_intro hover))]
  · rw [if_neg hover, if_neg (fun hno => Bool.false_ne_true hno.2.2), if_neg (Nat.not_lt_zero _)]

/-! The commands that answer at once. -/

/-- STATUS behind the gates (R608). -/
def State.statusAsked (i : Nat) (s : State) : State := s.mbReply i 1 resOk
  (leBytes 8 (s.reg rPwrStatus).toNat ++ leBytes 8 (s.reg rZenBoot).toNat ++ leBytes 8 (s.reg rPwrSelftest).toNat ++ s.nonceBytes)

/-- AO_RECORD behind the gates (R567). -/
def State.aoAsked (i : Nat) (s : State) : State := s.mbReply i 0x40 resOk
  (s.pwr.ao.flatMap fun e => leBytes 8 e.code ++ leBytes 8 e.beat ++ leBytes 8 e.mv ++ leBytes 8 e.tj)

theorem mailboxAnswers_status (s : State) (i : Nat) (h : s.mailboxAwake i) : ∃ t : State, exec (.status i) s = .next t ∧ t.answered i 0 ∧
    t.mbuf = memWrite s.mbuf (i * 2 ^ 16 + 2 ^ 15) (leBytes 8 (s.reg rPwrStatus).toNat ++ leBytes 8 (s.reg rZenBoot).toNat ++
      leBytes 8 (s.reg rPwrSelftest).toNat ++ s.nonceBytes) ∧
    t.hbm = s.hbm ∧ t.store = s.store ∧ t.lstore = s.lstore ∧ SameRegsBut (mailboxRegs i) s t :=
  ⟨_, State.mailbox_free (code := 1) (State.statusAsked i) h rfl (.inr rfl), (s.heard i).mbReply_spec i 1 _ (by decide)⟩

theorem mailboxAnswers_ao (s : State) (i : Nat) (h : s.mailboxAwake i) : ∃ t : State, exec (.aoRecord i) s = .next t ∧ t.answered i 0 ∧
    t.mbuf = memWrite s.mbuf (i * 2 ^ 16 + 2 ^ 15)
      (s.pwr.ao.flatMap fun e => leBytes 8 e.code ++ leBytes 8 e.beat ++ leBytes 8 e.mv ++ leBytes 8 e.tj) ∧
    t.hbm = s.hbm ∧ t.store = s.store ∧ t.lstore = s.lstore ∧ SameRegsBut (mailboxRegs i) s t :=
  ⟨_, State.mailbox_free (code := 0x40) (State.aoAsked i) h rfl (.inr rfl), (s.heard i).mbReply_spec i 0x40 _ (by decide)⟩

/-- What ABI_OPEN does behind the gates (R611). -/
def State.abiAsked (s : State) (i v : Nat) : State :=
  if 2 ≤ i then s.mbAnswer i 2 6
  else if s.fld (rGlbAbi + localStride * i) 23 16 = v ∧ s.fld (rGlbAbi + localStride * i) 47 40 ≤ v ∧ v ≤ s.fld (rGlbAbi + localStride * i) 39 32 then
    (s.setFld (rGlbAbi + localStride * i) 7 0 v).mbAnswer i 2 resOk
  else s.mbAnswer i 2 9

theorem execAbiOpen_awake {s : State} {i : Nat} (v : Nat) (h : s.mailboxLives i) : exec (.abiOpen i v) s = .next ((s.heard i).abiAsked i v) := by
  obtain ⟨hheld, hi, hbooted, hbooting, hlive⟩ := h
  exact State.mailbox_free (code := 2) (fun u => u.abiAsked i v) ⟨hheld, hi, hbooted, hbooting⟩ rfl (.inl hlive)

theorem mailboxAnswers_refused (s : State) {i : Nat} (v result : Nat) (h : s.mailboxLives i) (hlt : result < 65536)
    (hasked : (s.heard i).abiAsked i v = (s.heard i).mbAnswer i 2 result) :
    ∃ t : State, exec (.abiOpen i v) s = .next t ∧ t.answered i result ∧ SameMem s t ∧ SameRegsBut (mailboxRegs i) s t := by
  obtain ⟨hanswered, hleaves⟩ := (s.heard i).mbAnswer_spec i 2 hlt
  have hall : Leaves (· ∈ mailboxRegs i) s ((s.heard i).mbAnswer i 2 result) := (Leaves.heard .refl).trans hleaves
  exact ⟨_, (execAbiOpen_awake v h).trans (congrArg _ hasked), hanswered, hall.sameMem, hall.sameRegsBut⟩

theorem rGlbAbi_notMem_mailboxRegs (i : Nat) : rGlbAbi + localStride * i ∉ mailboxRegs i := by
  simp only [mailboxRegs, List.mem_cons, List.not_mem_nil, or_false, rGlbAbi, rZenMbDetail, rZenMbStatus, rZenMbCmd, rZenApproved, mbOfs, localStride]
  omega

theorem mailboxAnswers_agreed (s : State) (i v : Nat) (h : s.mailboxLives i) (hi : i < 2) (hv : v = s.fld (rGlbAbi + localStride * i) 23 16)
    (hlo : s.fld (rGlbAbi + localStride * i) 47 40 ≤ v) (hhi : v ≤ s.fld (rGlbAbi + localStride * i) 39 32) :
    ∃ t : State, exec (.abiOpen i v) s = .next t ∧ t.answered i 0 ∧ t.fld (rGlbAbi + localStride * i) 7 0 = v ∧ SameMem s t ∧
      SameRegsBut ((rGlbAbi + localStride * i) :: mailboxRegs i) s t := by
  have hfld : ∀ hi lo, (s.heard i).fld (rGlbAbi + localStride * i) hi lo = s.fld (rGlbAbi + localStride * i) hi lo := fun _ _ => rfl
  have hlt : v < 256 := by
    rw [hv]
    exact State.fld_lt s _ 23 16
  have hasked : (s.heard i).abiAsked i v = ((s.heard i).setFld (rGlbAbi + localStride * i) 7 0 v).mbAnswer i 2 resOk := by
    unfold State.abiAsked
    rw [if_neg (by omega), hfld, hfld, hfld, if_pos ⟨hv.symm, hlo, hhi⟩]
  have hexec := (execAbiOpen_awake v h).trans (congrArg _ hasked)
  have hset : Leaves (· ∈ (rGlbAbi + localStride * i) :: mailboxRegs i) s ((s.heard i).setFld (rGlbAbi + localStride * i) 7 0 v) :=
    .setFld (.heard .refl) List.mem_cons_self
  have hval : ((s.heard i).setFld (rGlbAbi + localStride * i) 7 0 v).fld (rGlbAbi + localStride * i) 7 0 = v :=
    (State.fld_setFld_same _ _ _ _ _ (by omega) (by omega)).trans (Nat.mod_eq_of_lt hlt)
  generalize (s.heard i).setFld (rGlbAbi + localStride * i) 7 0 v = u at *
  obtain ⟨hanswered, hleaves⟩ := u.mbAnswer_spec i 2 (result := 0) (by norm_num)
  have hall := hset.trans (hleaves.mono fun r hr => List.mem_cons_of_mem _ hr)
  exact ⟨_, hexec, hanswered, (hleaves.fld (rGlbAbi_notMem_mailboxRegs i) 7 0).trans hval, hall.sameMem, hall.sameRegsBut⟩

/-! ZEN_MB_DONE (R607). -/

/-- The state with the oldest entry of an interface's queue taken away. -/
def State.doneTaken (s : State) (i : Nat) : State :=
  { s with zen := { s.zen with done := SMap.mod s.zen.done i fun (l : List (Nat × Nat × Nat × Nat)) => l.tail } }

theorem execMailboxDoneRead_spec (s : State) (i : Nat) : ∃ t : State, exec (.mailboxDoneRead i) s = .next t ∧
    SMap.get t.zen.done i = (SMap.get s.zen.done i).tail ∧
    t.outbox = s.outbox ++ [if i < 2 then .readData i (leBytes 8 (s.doneWord i)) else .smbus (leBytes 8 (s.doneWord i))] ∧ SameMem s t ∧
    SameRegsBut [] s t := by
  have hdone : SMap.get (s.doneTaken i).zen.done i = (SMap.get s.zen.done i).tail :=
    SMap.get_mod_same s.zen.done i fun (l : List (Nat × Nat × Nat × Nat)) => l.tail
  have hframe : ∀ o : Output, Leaves (· ∈ []) s ((s.doneTaken i).out o) := fun o => .out (.upd .refl)
  by_cases hi : i < 2
  · rw [if_pos hi]
    exact ⟨(s.doneTaken i).out (.readData i (leBytes 8 (s.doneWord i))), congrArg _ (if_pos hi), hdone, rfl, (hframe _).sameMem, (hframe _).sameRegsBut⟩
  · rw [if_neg hi]
    exact ⟨(s.doneTaken i).out (.smbus (leBytes 8 (s.doneWord i))), congrArg _ (if_neg hi), hdone, rfl, (hframe _).sameMem, (hframe _).sameRegsBut⟩

/-- Settles O43: STATUS, AO_RECORD, ABI_OPEN, and reads of ZEN_MB_DONE. -/
theorem mailboxAnswers : Obligations.MailboxAnswers := by
  refine ⟨fun s i h => ⟨mailboxAnswers_status s i h, mailboxAnswers_ao s i h⟩, fun s i v h => ⟨mailboxAnswers_agreed s i v h, fun hi hbad => ?_,
    fun hi => ?_⟩, fun s i d n c r l hdone => ?_, fun s i hi hdone => ?_⟩
  · refine mailboxAnswers_refused s v 9 h (by norm_num) ((if_neg (by omega)).trans (if_neg ?_))
    rintro ⟨hv, hlo, hhi⟩
    rcases hbad with hne | hlow | hhigh
    · exact hne hv.symm
    · exact absurd hlo (Nat.not_le.mpr hlow)
    · exact absurd hhi (Nat.not_le.mpr hhigh)
  · exact mailboxAnswers_refused s v 6 h (by norm_num) (if_pos (by omega))
  · obtain ⟨t, hexec, htail, hout, hmem, hregs⟩ := execMailboxDoneRead_spec s i
    have hword : s.doneWord i = d % 2 ^ 32 * 2 ^ 32 + n * 2 ^ 24 + c * 2 ^ 16 + r := by
      unfold State.doneWord
      rw [hdone]
    rw [hdone] at htail
    rw [hword] at hout
    exact ⟨t, hexec, htail, hout, hmem, hregs⟩
  · obtain ⟨t, hexec, htail, hout, hmem, hregs⟩ := execMailboxDoneRead_spec s i
    have hword : s.doneWord i = 0 := by
      unfold State.doneWord
      rw [hdone]
    rw [hdone] at htail
    rw [hword, if_pos hi] at hout
    exact ⟨t, hexec, htail, hout, hmem, hregs⟩

end Sys2Proof.Machine
end

section
/-! PROOF. The gates of the mailbox, and the roles (R520, R607, R608). -/
namespace Sys2Proof.Machine

/-! The gates. -/

/-- A command of the OFFICER that no interface may give without an agreed ABI. -/
structure OfficerCommand (c : Instr) (i code : Nat) : Prop where
  runs : ∃ f : State → State, ∀ s, exec c s = s.mailbox i code 2 f
  needsAbi : [1, 2, 0x40].contains code = false

theorem officerCommand_gates {c : Instr} {i code : Nat} (hc : OfficerCommand c i code) (s : State) :
    (s.pwr.held = true → exec c s = .next s) ∧
    (s.pwr.held = false → i ≤ 2 → (s.zen.booted = false ∨ s.zen.booting = true) →
      ∃ t : State, exec c s = .next t ∧ t.answered i 3 ∧ t.zen = s.zen ∧ SameMem s t ∧ SameRegsBut (mailboxRegs i) s t) ∧
    (s.mailboxLives i → i < 2 → s.fld (rGlbAbi + localStride * i) 7 0 = 0 →
      ∃ t : State, exec c s = .next t ∧ t.answered i 8 ∧ SameMem s t ∧ SameRegsBut (mailboxRegs i) s t) ∧
    (s.mailboxOpen i 0 → s.roleOf i < 2 →
      ∃ t : State, exec c s = .next t ∧ t.answered i 7 ∧ t.zen.officer = s.zen.officer ∧ t.zen.users = s.zen.users ∧ SameMem s t ∧
        SameRegsBut (mailboxRegs i) s t) := by
  obtain ⟨⟨f, hexec⟩, habi⟩ := hc
  refine ⟨fun hheld => (hexec s).trans (State.mailbox_held i code 2 f hheld), fun hheld hi hboot => ?_, fun hlives hi hzero => ?_, fun hopen hrole => ?_⟩
  · obtain ⟨hanswered, hleaves⟩ := s.mbAnswer_spec i code (result := 3) (by norm_num)
    exact ⟨_, (hexec s).trans (State.mailbox_asleep code 2 f hheld hi hboot), hanswered, s.mbAnswer_keeps State.zen (fun _ _ _ _ _ => rfl) i code 3,
      hleaves.sameMem, hleaves.sameRegsBut⟩
  · obtain ⟨hheld, hle, hbooted, hbooting, hlive⟩ := hlives
    obtain ⟨hanswered, hleaves⟩ := (s.heard i).mbAnswer_spec i code (result := 8) (by norm_num)
    have hall : Leaves (· ∈ mailboxRegs i) s ((s.heard i).mbAnswer i code 8) := (Leaves.heard .refl).trans hleaves
    refine ⟨_, (hexec s).trans ((State.mailbox_awake code 2 f ⟨hheld, hle, hbooted, hbooting⟩).trans ((if_neg hlive).trans (if_pos ⟨hi, hzero, ?_⟩))),
      hanswered, hall.sameMem, hall.sameRegsBut⟩
    rw [habi]
    rfl
  · obtain ⟨⟨hheld, hle, hbooted, hbooting, hlive⟩, hagreed, -⟩ := hopen
    obtain ⟨hanswered, hleaves⟩ := (s.heard i).mbAnswer_spec i code (result := 7) (by norm_num)
    have hall : Leaves (· ∈ mailboxRegs i) s ((s.heard i).mbAnswer i code 7) := (Leaves.heard .refl).trans hleaves
    exact ⟨_, (hexec s).trans ((State.mailbox_awake code 2 f ⟨hheld, hle, hbooted, hbooting⟩).trans ((if_neg hlive).trans
      ((if_neg fun hno => hagreed hno.1 hno.2.1).trans (if_pos hrole)))), hanswered,
      (s.heard i).mbAnswer_keeps (fun u => u.zen.officer) (fun _ _ _ _ _ => rfl) i code 7,
      (s.heard i).mbAnswer_keeps (fun u => u.zen.users) (fun _ _ _ _ _ => rfl) i code 7, hall.sameMem, hall.sameRegsBut⟩

/-- Overcast refuses every command that is not one of its own (R573). -/
theorem officerCommand_overcast {c : Instr} {i code : Nat} (hc : OfficerCommand c i code) (hcode : [1, 0x40, 0x41, 0x30, 0x32].contains code = false)
    (s : State) (hawake : s.mailboxAwake i) (hover : s.pwrState = 5) :
    ∃ t : State, exec c s = .next t ∧ t.answered i 4 ∧ t.zen.officer = s.zen.officer ∧ t.zen.fuseSvn = s.zen.fuseSvn ∧ SameMem s t ∧
      SameRegsBut (mailboxRegs i) s t := by
  obtain ⟨⟨f, hexec⟩, -⟩ := hc
  obtain ⟨hanswered, hleaves⟩ := (s.heard i).mbAnswer_spec i code (result := 4) (by norm_num)
  have hall : Leaves (· ∈ mailboxRegs i) s ((s.heard i).mbAnswer i code 4) := (Leaves.heard .refl).trans hleaves
  have hrun : exec c s = .next ((s.heard i).mbAnswer i code 4) := by
    rw [hexec s, State.mailbox_awake code 2 f hawake, if_pos hover, hcode]
    rfl
  exact ⟨_, hrun, hanswered, (s.heard i).mbAnswer_keeps (fun u => u.zen.officer) (fun _ _ _ _ _ => rfl) i code 4,
    (s.heard i).mbAnswer_keeps (fun u => u.zen.fuseSvn) (fun _ _ _ _ _ => rfl) i code 4, hall.sameMem, hall.sameRegsBut⟩

/-- A long-running command accepted with a ticket goes on; one that finds 8 outstanding does not (R607). -/
def State.accepted (s : State) (i code : Nat) (f : State → Nat → State) : State :=
  match s.mbAccept i code with
  | (s, none) => s
  | (s, some t) => f s t

/-- SVN_COMMIT behind the gates (R517). -/
def State.svnAsked (i n : Nat) (s : State) : State :=
  if n < s.zen.fuseSvn ∨ 2 ^ 16 ≤ n then s.mbAnswer i 0x31 6 else ({ s with zen := { s.zen with fuseSvn := n } } : State).mbAnswer i 0x31 resOk

/-- A port that failed its keys may try again with a new map (R540). -/
def State.retryKeys (s : State) (p : Nat) : State :=
  if !(s.port p).authFailed then s
  else
    let s := s.modPort p fun q => { q with authFailed := false }
    if s.linkState p = 3 then s.laterW 0 (.keySetRollover p) else s

/-- FABRIC_MAP behind the gates (R574). -/
def State.mapAsked (i : Nat) (m : List Nat) (s : State) : State :=
  if !mapOk m then s.mbAnswer i 0x22 0x29
  else s.accepted i 0x22 fun s t =>
    ((List.range 6).foldl State.retryKeys { s with zen := { s.zen with mapStore := m } }).mbFinish i t resOk 0

/-- ZENITH_RESET behind the gates (R556). -/
def State.zenResetAsked (i : Nat) (s : State) : State := s.accepted i 0x34 fun s _ => s.zenReset 3

/-- What ZEROIZE does once it is accepted (R521). -/
def State.zeroized (i : Nat) (s : State) (t : Nat) : State :=
  let ks := (List.range 4).filter fun k => s.partValid k
  let s := (s.eventDie 20 0x0505 0 0).zeroiseSecrets.newNonce
  if s.pwrState = 5 then s.mbFinish i t resOk 0
  else
    let s := ks.foldl (fun s k => s.zeroPart k (i, t, 0x32)) s
    let s := (List.range 6).foldl (fun s p => s.rekeyLoud p) s
    let s : State := { s with zen := { s.zen with alias_ := some s.aliasSeed } }
    if ks.isEmpty then s.mbFinish i t resOk 0 else s

/-- ZEROIZE behind the gates (R521, R573). -/
def State.zeroizeAsked (i : Nat) (officer : Bool) (s : State) : State :=
  if s.pwrState = 5 ∧ s.fld rPwrSelftest 55 48 = 1 then s.mbAnswer i 0x32 4
  else if s.pwrState = 5 ∧ !officer then s.mbAnswer i 0x32 7
  else s.accepted i 0x32 (State.zeroized i)

/-- The hash that a key stores, none for a key of zeros. -/
def keyHash (key : List Nat) : Option (List Nat) := if key.all (· == 0) then none else some (Config.sha3 key)

/-- ROLE_KEY_SET behind the gates. -/
def State.roleKeyAsked (i role slot : Nat) (key : List Nat) (s : State) : State :=
  if role = 1 ∧ slot < 8 then ({ s with zen := { s.zen with users := SMap.set s.zen.users slot (keyHash key) } } : State).mbAnswer i 6 resOk
  else if role = 2 ∧ slot = 0 then ({ s with zen := { s.zen with officer := keyHash key } } : State).mbAnswer i 6 resOk
  else s.mbAnswer i 6 6

theorem svnCommit_officer (i n : Nat) : OfficerCommand (.svnCommit i n) i 0x31 := ⟨⟨State.svnAsked i n, fun _ => rfl⟩, rfl⟩
theorem roleKeySet_officer (i r n : Nat) (key : List Nat) : OfficerCommand (.roleKeySet i r n key) i 6 := ⟨⟨State.roleKeyAsked i r n key, fun _ => rfl⟩, rfl⟩
theorem fabricMap_officer (i : Nat) (m : List Nat) : OfficerCommand (.fabricMap i m) i 0x22 := ⟨⟨State.mapAsked i m, fun _ => rfl⟩, rfl⟩
theorem zenithReset_officer (i : Nat) : OfficerCommand (.zenithReset i) i 0x34 := ⟨⟨State.zenResetAsked i, fun _ => rfl⟩, rfl⟩
theorem zeroize_officer (i : Nat) (b : Bool) : OfficerCommand (.zeroize i b) i 0x32 := ⟨⟨State.zeroizeAsked i b, fun _ => rfl⟩, rfl⟩

theorem mailboxRoles_gates (s : State) (i n : Nat) (key : List Nat) :
    ∀ c ∈ [(.svnCommit i n : Instr), .roleKeySet i 1 n key, .fabricMap i key, .zenithReset i, .zeroize i false],
    (s.pwr.held = true → exec c s = .next s) ∧
    (s.pwr.held = false → i ≤ 2 → (s.zen.booted = false ∨ s.zen.booting = true) →
      ∃ t : State, exec c s = .next t ∧ t.answered i 3 ∧ t.zen = s.zen ∧ SameMem s t ∧ SameRegsBut (mailboxRegs i) s t) ∧
    (s.mailboxAwake i → s.pwrState = 5 → c ≠ .zeroize i false →
      ∃ t : State, exec c s = .next t ∧ t.answered i 4 ∧ t.zen.officer = s.zen.officer ∧ t.zen.fuseSvn = s.zen.fuseSvn ∧ SameMem s t ∧
        SameRegsBut (mailboxRegs i) s t) ∧
    (s.mailboxLives i → i < 2 → s.fld (rGlbAbi + localStride * i) 7 0 = 0 →
      ∃ t : State, exec c s = .next t ∧ t.answered i 8 ∧ SameMem s t ∧ SameRegsBut (mailboxRegs i) s t) ∧
    (s.mailboxOpen i 0 → s.roleOf i < 2 →
      ∃ t : State, exec c s = .next t ∧ t.answered i 7 ∧ t.zen.officer = s.zen.officer ∧ t.zen.users = s.zen.users ∧ SameMem s t ∧
        SameRegsBut (mailboxRegs i) s t) := by
  intro c hc
  have hall : ∃ code, OfficerCommand c i code ∧ (c ≠ .zeroize i false → [1, 0x40, 0x41, 0x30, 0x32].contains code = false) := by
    simp only [List.mem_cons, List.not_mem_nil, or_false] at hc
    rcases hc with rfl | rfl | rfl | rfl | rfl
    · exact ⟨_, svnCommit_officer i n, fun _ => rfl⟩
    · exact ⟨_, roleKeySet_officer i 1 n key, fun _ => rfl⟩
    · exact ⟨_, fabricMap_officer i key, fun _ => rfl⟩
    · exact ⟨_, zenithReset_officer i, fun _ => rfl⟩
    · exact ⟨_, zeroize_officer i false, fun hne => absurd rfl hne⟩
  obtain ⟨code, hofficer, hcode⟩ := hall
  obtain ⟨hheld, hasleep, habi, hrole⟩ := officerCommand_gates hofficer s
  exact ⟨hheld, hasleep, fun hawake hover hne => officerCommand_overcast hofficer (hcode hne) s hawake hover, habi, hrole⟩

/-! The roles (R520). -/

theorem rZenRole_notMem_mailboxRegs (i : Nat) : rZenRole ∉ mailboxRegs i := by
  simp only [mailboxRegs, List.mem_cons, List.not_mem_nil, or_false, rZenRole, rZenMbDetail, rZenMbStatus, rZenMbCmd, rZenApproved, mbOfs, localStride]
  omega

theorem State.roleOf_setRole (s : State) {i r : Nat} (hi : i ≤ 2) (hr : r < 4) : (s.setRole i r).roleOf i = r := by
  unfold State.setRole State.roleOf
  rw [State.fld_setFld_same _ _ _ _ _ (by omega) (by omega), show 2 * i + 1 + 1 - 2 * i = 2 by omega]
  exact Nat.mod_eq_of_lt hr

theorem State.roleOf_mbAnswer (s : State) (i j code : Nat) {result : Nat} (h : result < 65536) : (s.mbAnswer i code result).roleOf j = s.roleOf j :=
  (s.mbAnswer_spec i code h).2.fld (rZenRole_notMem_mailboxRegs i) _ _

/-- A served command that ends in an answer: what the state before the answer was, but for the mailbox's registers. -/
theorem answered_of_served {c : Instr} {s u : State} {i code result : Nat} {l : List Nat} (hexec : exec c s = .next (u.mbAnswer i code result))
    (h : result < 65536) (hu : Leaves (· ∈ l ++ mailboxRegs i) s u) : ∃ t : State, exec c s = .next t ∧ t.answered i result ∧ t.zen = u.zen ∧
      t.agenda = u.agenda ∧ t.parts = u.parts ∧ (∀ j, t.roleOf j = u.roleOf j) ∧ SameMem s t ∧ SameRegsBut (l ++ mailboxRegs i) s t := by
  obtain ⟨hanswered, hleaves⟩ := u.mbAnswer_spec i code h
  have hall := hu.trans (hleaves.mono fun r hr => List.mem_append_right l hr)
  exact ⟨_, hexec, hanswered, u.mbAnswer_keeps State.zen (fun _ _ _ _ _ => rfl) i code result,
    u.mbAnswer_keeps State.agenda (fun _ _ _ _ _ => rfl) i code result, u.mbAnswer_keeps State.parts (fun _ _ _ _ _ => rfl) i code result,
    fun j => u.roleOf_mbAnswer i j code h, hall.sameMem, hall.sameRegsBut⟩

/-- Is the key one whose hash is stored for the role (R520)? -/
def State.roleKnown (s : State) (role : Nat) (key : List Nat) : Bool :=
  if role = 2 then s.zen.officer == some (Config.sha3 key) else role == 1 && (s.zen.users.any fun e => e.2 == some (Config.sha3 key))

/-- LOGIN behind the gates (R520). -/
def State.loginAsked (i role : Nat) (key : List Nat) (sigOk : Bool) (s : State) : State :=
  if sigOk && s.roleKnown role key then ((s.newNonce.setRole i role).laterW (600 * 700000000) (.roleTimeout i)).mbAnswer i 3 resOk
  else s.newNonce.mbAnswer i 3 6

theorem execLogin_open {s : State} {i : Nat} (role : Nat) (key : List Nat) (sigOk : Bool) (h : s.mailboxOpen i 0) :
    exec (.login i role key sigOk) s = .next ((s.heard i).loginAsked i role key sigOk) :=
  State.mailbox_open (code := 3) (State.loginAsked i role key sigOk) h

theorem mailboxRoles_login (s : State) (i r : Nat) (key : List Nat) (h : s.mailboxOpen i 0)
    (hknown : (r = 2 ∧ s.zen.officer = some (Config.sha3 key)) ∨ (r = 1 ∧ ∃ n, (n, some (Config.sha3 key)) ∈ s.zen.users)) :
    ∃ t : State, exec (.login i r key true) s = .next t ∧ t.answered i 0 ∧ t.roleOf i = r ∧
      t.agenda = s.agenda ++ [({ dom := none, at_ := s.clk.wall + 600 * 700000000, act := .cmd (.roleTimeout i) } : Due)] ∧ SameMem s t ∧
      SameRegsBut (rZenRole :: mailboxRegs i) s t := by
  have hi : i ≤ 2 := h.1.2.1
  have hexec := execLogin_open r key true h
  have hyes : (s.heard i).roleKnown r key = true := by
    unfold State.roleKnown
    rcases hknown with ⟨rfl, hoff⟩ | ⟨rfl, n, hin⟩
    · rw [if_pos rfl]
      exact beq_iff_eq.mpr hoff
    · rw [if_neg (by decide), beq_self_eq_true, Bool.true_and, List.any_eq_true]
      exact ⟨_, hin, beq_self_eq_true _⟩
  have hr : r < 4 := by omega
  rw [State.loginAsked, hyes, if_pos (show (true && true) = true from rfl)] at hexec
  have hrole : (((s.heard i).newNonce.setRole i r).laterW (600 * 700000000) (.roleTimeout i)).roleOf i = r := by
    rw [State.roleOf, State.fld_laterW]
    exact State.roleOf_setRole _ hi hr
  obtain ⟨t, hrun, hanswered, -, hagenda, -, hroles, hmem, hregs⟩ := answered_of_served (l := [rZenRole]) hexec (by decide)
    (.laterW (.setFld (.upd (.upd (.heard .refl))) (by simp)))
  exact ⟨t, hrun, hanswered, (hroles i).trans hrole, hagenda, hmem, hregs⟩

theorem mailboxRoles_unknown (s : State) (i r : Nat) (key : List Nat) (b : Bool) (h : s.mailboxOpen i 0) (hno : (b && s.roleKnown r key) = false) :
    ∃ t : State, exec (.login i r key b) s = .next t ∧ t.answered i 6 ∧ t.agenda = s.agenda ∧ SameMem s t ∧ SameRegsBut (mailboxRegs i) s t := by
  have hexec := execLogin_open r key b h
  have hsame : (s.heard i).roleKnown r key = s.roleKnown r key := rfl
  rw [State.loginAsked, hsame, hno, if_neg Bool.false_ne_true] at hexec
  obtain ⟨t, hrun, hanswered, -, hagenda, -, -, hmem, hregs⟩ := answered_of_served (l := []) hexec (by decide) (.upd (.upd (.heard .refl)))
  exact ⟨t, hrun, hanswered, hagenda, hmem, hregs⟩

theorem mailboxRoles_logout (s : State) (i : Nat) (h : s.mailboxOpen i 0) : ∃ t : State, exec (.logout i) s = .next t ∧ t.answered i 0 ∧
    t.roleOf i = 0 ∧ SameMem s t ∧ SameRegsBut (rZenRole :: mailboxRegs i) s t := by
  have hexec : exec (.logout i) s = .next (((s.heard i).setRole i 0).mbAnswer i 4 resOk) :=
    State.mailbox_open (code := 4) (fun u => (u.setRole i 0).mbAnswer i 4 resOk) h
  obtain ⟨t, hrun, hanswered, -, -, -, hroles, hmem, hregs⟩ := answered_of_served (l := [rZenRole]) hexec (by decide) (.setFld (.heard .refl) (by simp))
  exact ⟨t, hrun, hanswered, (hroles i).trans (State.roleOf_setRole _ h.1.2.1 (by norm_num)), hmem, hregs⟩

/-! Ownership and the keys of the roles (R520, R608). -/

/-- TAKE_OWNERSHIP behind the gates. -/
def State.ownershipAsked (i : Nat) (key : List Nat) (s : State) : State :=
  if s.zen.officer.isSome then s.mbAnswer i 5 11
  else if key.all (· == 0) then s.mbAnswer i 5 6
  else ({ s with zen := { s.zen with officer := some (Config.sha3 key) } } : State).mbAnswer i 5 resOk

theorem execTakeOwnership_open {s : State} {i : Nat} (key : List Nat) (h : s.mailboxOpen i 0) :
    exec (.takeOwnership i key) s = .next ((s.heard i).ownershipAsked i key) := State.mailbox_open (code := 5) (State.ownershipAsked i key) h

theorem execRoleKeySet_open {s : State} {i : Nat} (role slot : Nat) (key : List Nat) (h : s.mailboxOpen i 2) :
    exec (.roleKeySet i role slot key) s = .next ((s.heard i).roleKeyAsked i role slot key) :=
  State.mailbox_open (code := 6) (State.roleKeyAsked i role slot key) h

theorem mailboxRoles_owned (s : State) (i : Nat) (key : List Nat) (h : s.mailboxOpen i 0) (hnone : s.zen.officer = none) (hkey : key.all (· == 0) = false) :
    ∃ t : State, exec (.takeOwnership i key) s = .next t ∧ t.answered i 0 ∧ t.zen.officer = some (Config.sha3 key) ∧ t.zen.users = s.zen.users ∧
      SameMem s t ∧ SameRegsBut (mailboxRegs i) s t := by
  have hexec := execTakeOwnership_open key h
  have hfree : (s.heard i).zen.officer.isSome = false := by rw [show (s.heard i).zen.officer = s.zen.officer from rfl, hnone]; rfl
  rw [State.ownershipAsked, hfree, if_neg Bool.false_ne_true, hkey, if_neg Bool.false_ne_true] at hexec
  obtain ⟨t, hrun, hanswered, hzen, -, -, -, hmem, hregs⟩ := answered_of_served (l := []) hexec (by decide) (.upd (.heard .refl))
  exact ⟨t, hrun, hanswered, by rw [hzen], by rw [hzen]; rfl, hmem, hregs⟩

theorem mailboxRoles_disowned (s : State) (i : Nat) (key : List Nat) {result : Nat} (h : s.mailboxOpen i 0) (hlt : result < 65536)
    (hasked : (s.heard i).ownershipAsked i key = (s.heard i).mbAnswer i 5 result) : ∃ t : State, exec (.takeOwnership i key) s = .next t ∧
      t.answered i result ∧ t.zen.officer = s.zen.officer ∧ SameMem s t ∧ SameRegsBut (mailboxRegs i) s t := by
  obtain ⟨t, hrun, hanswered, hzen, -, -, -, hmem, hregs⟩ :=
    answered_of_served (l := []) ((execTakeOwnership_open key h).trans (congrArg _ hasked)) hlt (.heard .refl)
  exact ⟨t, hrun, hanswered, by rw [hzen]; rfl, hmem, hregs⟩

theorem mailboxRoles_userKey (s : State) (i slot : Nat) (key : List Nat) (h : s.mailboxOpen i 2) (hslot : slot < 8) :
    ∃ t : State, exec (.roleKeySet i 1 slot key) s = .next t ∧ t.answered i 0 ∧
      SMap.get t.zen.users slot = (if key.all (· == 0) then none else some (Config.sha3 key)) ∧
      (∀ n, n ≠ slot → SMap.get t.zen.users n = SMap.get s.zen.users n) ∧ t.zen.officer = s.zen.officer ∧ SameMem s t ∧
      SameRegsBut (mailboxRegs i) s t := by
  have hexec := execRoleKeySet_open 1 slot key h
  rw [State.roleKeyAsked, if_pos ⟨rfl, hslot⟩] at hexec
  obtain ⟨t, hrun, hanswered, hzen, -, -, -, hmem, hregs⟩ := answered_of_served (l := []) hexec (by decide) (.upd (.heard .refl))
  refine ⟨t, hrun, hanswered, ?_, fun n hn => ?_, by rw [hzen]; rfl, hmem, hregs⟩
  · rw [hzen]
    exact SMap.get_set_same _ _ _
  · rw [hzen]
    exact SMap.get_set_ne _ _ hn

theorem mailboxRoles_officerKey (s : State) (i : Nat) (key : List Nat) (h : s.mailboxOpen i 2) :
    ∃ t : State, exec (.roleKeySet i 2 0 key) s = .next t ∧ t.answered i 0 ∧
      t.zen.officer = (if key.all (· == 0) then none else some (Config.sha3 key)) ∧ t.zen.users = s.zen.users ∧ SameMem s t ∧
      SameRegsBut (mailboxRegs i) s t := by
  have hexec := execRoleKeySet_open 2 0 key h
  rw [State.roleKeyAsked, if_neg (by decide), if_pos ⟨rfl, rfl⟩] at hexec
  obtain ⟨t, hrun, hanswered, hzen, -, -, -, hmem, hregs⟩ := answered_of_served (l := []) hexec (by decide) (.upd (.heard .refl))
  exact ⟨t, hrun, hanswered, by rw [hzen]; rfl, by rw [hzen]; rfl, hmem, hregs⟩

theorem mailboxRoles_noSlot (s : State) (i slot : Nat) (key : List Nat) (h : s.mailboxOpen i 2) (hslot : 8 ≤ slot) : ∀ r ∈ [1, 2],
    ∃ t : State, exec (.roleKeySet i r slot key) s = .next t ∧ t.answered i 6 ∧ t.zen.officer = s.zen.officer ∧
      t.zen.users = s.zen.users ∧ SameMem s t ∧ SameRegsBut (mailboxRegs i) s t := by
  intro r _
  have hexec := execRoleKeySet_open r slot key h
  rw [State.roleKeyAsked, if_neg (by omega), if_neg (by omega)] at hexec
  obtain ⟨t, hrun, hanswered, hzen, -, -, -, hmem, hregs⟩ := answered_of_served (l := []) hexec (by decide) (.heard .refl)
  exact ⟨t, hrun, hanswered, by rw [hzen]; rfl, by rw [hzen]; rfl, hmem, hregs⟩

/-! The end of a role (R520). -/

theorem execRoleTimeout_held {s : State} {i : Nat} (hi : i ≤ 2) (h : s.roleOf i ≠ 0) : exec (.roleTimeout i) s =
    .next (if SMap.get s.zen.lastCmd i + 420000000000 ≤ s.clk.wall + 1 then s.setRole i 0
      else s.laterW (SMap.get s.zen.lastCmd i + 420000000000 - s.clk.wall) (.roleTimeout i)) := if_neg (by omega)

theorem State.agenda_laterW (s : State) (d : Nat) (i : Instr) :
    (s.laterW d i).agenda = s.agenda ++ [({ dom := none, at_ := s.clk.wall + d, act := .cmd i } : Due)] := rfl

/-- Settles O44: the gates of the mailbox, the roles, and their keys. -/
theorem mailboxRoles : Obligations.MailboxRoles := by
  refine ⟨mailboxRoles_gates, fun s i r key h => ⟨mailboxRoles_login s i r key h, fun hno => mailboxRoles_unknown s i r key true h ?_,
    mailboxRoles_unknown s i r key false h rfl, mailboxRoles_logout s i h, mailboxRoles_owned s i key h, fun hnone hkey => ?_, fun hsome => ?_⟩,
    mailboxRoles_userKey, fun s i slot key h => ⟨mailboxRoles_officerKey s i key h, mailboxRoles_noSlot s i slot key h⟩,
    fun s i hrole => if_pos (.inr hrole), fun s i hi hrole => ⟨fun hdue => ?_, fun hdue => ?_⟩⟩
  · refine (Bool.true_and _).trans (Bool.eq_false_iff.mpr fun hyes => hno ?_)
    unfold State.roleKnown at hyes
    by_cases hr : r = 2
    · rw [if_pos hr] at hyes
      exact .inl ⟨hr, beq_iff_eq.mp hyes⟩
    · rw [if_neg hr] at hyes
      obtain ⟨hone, hin⟩ := (Bool.and_eq_true _ _).mp hyes
      exact .inr ⟨beq_iff_eq.mp hone, hin⟩
  · have hfree : (s.heard i).zen.officer.isSome = false := by rw [show (s.heard i).zen.officer = s.zen.officer from rfl, hnone]; rfl
    obtain ⟨t, hrun, hanswered, hkept, hmem, hregs⟩ := mailboxRoles_disowned s i key (result := 6) h (by norm_num)
      ((if_neg (by rw [hfree]; exact Bool.false_ne_true)).trans (if_pos hkey))
    exact ⟨t, hrun, hanswered, hkept.trans hnone, hmem, hregs⟩
  · exact mailboxRoles_disowned s i key (result := 11) h (by norm_num) (if_pos (Option.isSome_iff_ne_none.mpr hsome))
  · have hframe : Leaves (· ∈ [rZenRole]) s (s.setRole i 0) := .setFld .refl (by simp)
    exact ⟨_, (execRoleTimeout_held hi hrole).trans (congrArg _ (if_pos hdue)), State.roleOf_setRole s hi (by norm_num), rfl, hframe.sameMem,
      hframe.sameRegsBut⟩
  · have hframe : Leaves (· ∈ []) s (s.laterW (SMap.get s.zen.lastCmd i + 420000000000 - s.clk.wall) (.roleTimeout i)) := .laterW .refl
    refine ⟨_, (execRoleTimeout_held hi hrole).trans (congrArg _ (if_neg (Nat.not_le.mpr hdue))), ?_, ?_, hframe.sameMem, hframe.sameRegsBut⟩
    · rw [State.roleOf, State.fld_laterW]
      rfl
    · rw [State.agenda_laterW, show s.clk.wall + (SMap.get s.zen.lastCmd i + 420000000000 - s.clk.wall) = SMap.get s.zen.lastCmd i + 420000000000 by omega]

end Sys2Proof.Machine
end

section
/-! PROOF. Tickets, and the commands of the module: power states, the fabric map and firmware (R517, R561, R574, R607, R610). -/
namespace Sys2Proof.Machine

/-! Tickets (R607). -/

/-- A command accepted with the next ticket. -/
def State.ticketed (s : State) (i code : Nat) : State :=
  ({ s with zen := { s.zen with tickets := s.zen.tickets ++ [(i, s.zen.nextTicket, code)], nextTicket := ticketAfter s.zen.nextTicket } } : State).mbResult
    i code resAccepted 0 s.zen.nextTicket []

theorem State.accepted_room {s : State} {i : Nat} (code : Nat) (f : State → Nat → State) (h : s.ticketRoom i) :
    s.accepted i code f = f (s.ticketed i code) s.zen.nextTicket := by
  obtain ⟨hroom, -⟩ := h
  have hmb : s.mbAccept i code = (s.ticketed i code, some s.zen.nextTicket) := if_neg (Nat.not_le.mpr hroom)
  unfold State.accepted
  rw [hmb]

theorem State.ticketed_spec (s : State) (i code : Nat) : (s.ticketed i code).answered i 1 ∧
    (s.ticketed i code).zen = { s.zen with tickets := s.zen.tickets ++ [(i, s.zen.nextTicket, code)], nextTicket := ticketAfter s.zen.nextTicket } ∧
    Leaves (· ∈ mailboxRegs i) s (s.ticketed i code) :=
  ⟨(State.answered_mbResult _ i code 0 _ [] (by decide)).1, State.mbResult_keeps State.zen (fun _ _ _ _ _ => rfl) _ i code resAccepted 0 _ [],
    .mbResult (.upd .refl) fun _ hr => hr⟩

theorem State.ticketed_keeps {β : Type} (g : State → β)
    (hg : ∀ (s : State) r z m h o, g { s with regs := r, zen := z, mbuf := m, hosts := h, outbox := o } = g s) (s : State) (i code : Nat) :
    g (s.ticketed i code) = g s :=
  (State.mbResult_keeps g (fun s r m h o => hg s r s.zen m h o) _ i code resAccepted 0 _ []).trans (hg s s.regs _ s.mbuf s.hosts s.outbox)

/-- Zenith's state after the end of a long-running command: its ticket gone, its entry in the queue (R607). -/
def ticketEnded (z : Zen) (i n detail code result : Nat) : Zen :=
  { z with
    tickets := z.tickets.filter (fun x => !(x.1 == i && x.2.1 == n))
    done := SMap.mod z.done i fun (l : List (Nat × Nat × Nat × Nat)) => l ++ [(detail, n, code, result)] }

theorem done_ticketEnded (z : Zen) (i n detail code result : Nat) :
    SMap.get (ticketEnded z i n detail code result).done i = SMap.get z.done i ++ [(detail, n, code, result)] :=
  SMap.get_mod_same z.done i fun (l : List (Nat × Nat × Nat × Nat)) => l ++ [(detail, n, code, result)]

theorem State.zen_mbFinish {s : State} {i n result : Nat} {x : Nat × Nat × Nat} (detail : Nat)
    (h : s.zen.tickets.find? (fun t => t.1 == i && t.2.1 == n) = some x) :
    (s.mbFinish i n result detail).zen = ticketEnded s.zen i n detail x.2.2 result := by
  unfold State.mbFinish
  rw [h]
  refine (State.resultTold_keeps State.zen (fun _ _ _ => rfl) _ i _).trans ?_
  split <;> rfl

/-- A ticket opened and closed at once leaves the outstanding ones as they were, and its entry in ZEN_MB_DONE (R607). -/
theorem ticketDone_mbFinish {s u : State} {i code : Nat} (hroom : s.ticketRoom i) (hzen : u.zen.tickets = s.zen.tickets ++ [(i, s.zen.nextTicket, code)] ∧
    u.zen.done = s.zen.done) (hanswered : u.answered i 1) : ticketDone s (u.mbFinish i s.zen.nextTicket resOk 0) i code := by
  obtain ⟨-, hnew⟩ := hroom
  obtain ⟨htickets, hdone⟩ := hzen
  have hother : ∀ x ∈ s.zen.tickets, (x.1 == i && x.2.1 == s.zen.nextTicket) = false := fun x hx => by
    by_cases hi : x.1 = i
    · rw [beq_eq_false_iff_ne.mpr (hnew x hx hi), Bool.and_false]
    · rw [beq_eq_false_iff_ne.mpr hi, Bool.false_and]
  have hown : (i == i && s.zen.nextTicket == s.zen.nextTicket) = true := by rw [beq_self_eq_true, beq_self_eq_true]; rfl
  have hfind : u.zen.tickets.find? (fun t => t.1 == i && t.2.1 == s.zen.nextTicket) = some (i, s.zen.nextTicket, code) := by
    rw [htickets, List.find?_append, List.find?_eq_none.mpr fun x hx => by rw [hother x hx]; exact Bool.false_ne_true, Option.none_or]
    exact List.find?_cons_of_pos (p := fun t : Nat × Nat × Nat => t.1 == i && t.2.1 == s.zen.nextTicket) hown
  have hend := State.zen_mbFinish (result := resOk) 0 hfind
  have hleaves : Leaves (· = rZenApproved) u (u.mbFinish i s.zen.nextTicket resOk 0) := .mbFinish .refl rfl
  refine ⟨State.answered_congr hanswered (hleaves.reg _ ?_) (hleaves.reg _ ?_), ?_, ?_⟩
  · simp only [rZenMbStatus, rZenApproved, mbOfs, localStride]
    omega
  · simp only [rZenMbCmd, rZenApproved, mbOfs, localStride]
    omega
  · rw [hend, ticketEnded, htickets, List.filter_append, List.filter_eq_self.mpr fun x hx => by rw [hother x hx]; rfl,
      List.filter_cons_of_neg (by rw [hown]; exact Bool.false_ne_true), List.filter_nil, List.append_nil]
  · rw [hend, done_ticketEnded, hdone]
    rfl

/-- The rest of Zenith's state stays when a ticket is closed. -/
theorem State.mbFinish_zen_keeps {β : Type} (g : Zen → β) (hg : ∀ (z : Zen) t d, g { z with tickets := t, done := d } = g z) (s : State)
    (i n result detail : Nat) : g (s.mbFinish i n result detail).zen = g s.zen := by
  cases h : s.zen.tickets.find? (fun t => t.1 == i && t.2.1 == n) with
  | none =>
    unfold State.mbFinish
    rw [h]
  | some x =>
    rw [State.zen_mbFinish detail h]
    exact hg s.zen _ _

/-! POWER_STATE (R546, R561). -/

/-- The change of power state asked for. -/
def State.powerAsked (n i : Nat) (s : State) (t : Nat) : State :=
  let s := s.pausePatrol true
  { s with pwr := { s.pwr with changing := some (n, i * 256 + t) } }

/-- POWER_STATE behind the gates. -/
def State.powerStateAsked (i n : Nat) (s : State) : State :=
  let loaded := (List.range 4).filter fun k => s.partValid k && (s.pstate k == 1 || s.pstate k == 2 || s.pstate k == 5)
  let busy := (List.range 4).any fun k => s.partValid k && (s.stepping k || s.pstate k == 3 || s.pstate k == 4)
  if s.roleOf i = 1 ∧ !(decide (i < 2) && loaded.all fun k => s.owner k == i) then s.mbAnswer i 0x21 7
  else if 3 < n then s.mbAnswer i 0x21 6
  else if 4 ≤ s.pwrState ∨ s.pwr.changing.isSome then s.mbAnswer i 0x21 3
  else if busy ∨ (n = 3 ∧ (!loaded.isEmpty ∨ (List.range 4).any fun k => (s.part k).loading.isSome)) then s.mbAnswer i 0x21 0x21
  else match s.maint.find? (fun m => m.act == 3 || m.act == 4 || m.act == 6) with
    | some m => s.mbResult i 0x21 0x27 m.act 0 []
    | none => s.accepted i 0x21 (State.powerAsked n i)

theorem execPowerState_open {s : State} {i : Nat} (n : Nat) (h : s.mailboxOpen i 1) :
    exec (.powerState i n) s = .next ((s.heard i).powerStateAsked i n) := State.mailbox_open (code := 0x21) (State.powerStateAsked i n) h

/-- A module at rest takes a change of power state. -/
theorem State.powerStateAsked_rest {s : State} {i n : Nat} (hrole : s.roleOf i ≠ 1) (hn : n ≤ 3) (hstate : s.pwrState < 4) (hidle : s.pwr.changing = none)
    (hmaint : s.maint = []) (hrest : ∀ k, k < 4 → s.stepping k = false ∧ s.pstate k ≠ 3 ∧ s.pstate k ≠ 4)
    (hnight : n = 3 → ∀ k, k < 4 → s.pstate k = 0 ∧ (s.part k).loading = none) :
    s.powerStateAsked i n = s.accepted i 0x21 (State.powerAsked n i) := by
  have hbusy : ((List.range 4).any fun k => s.partValid k && (s.stepping k || s.pstate k == 3 || s.pstate k == 4)) = false := by
    refine List.any_eq_false.mpr fun k hk => ?_
    obtain ⟨hstep, h3, h4⟩ := hrest k (List.mem_range.mp hk)
    rw [hstep, beq_eq_false_iff_ne.mpr h3, beq_eq_false_iff_ne.mpr h4, Bool.or_false, Bool.or_false, Bool.and_false]
    exact Bool.false_ne_true
  have hquiet : ¬(n = 3 ∧ (!((List.range 4).filter fun k => s.partValid k && (s.pstate k == 1 || s.pstate k == 2 || s.pstate k == 5)).isEmpty ∨
      (List.range 4).any fun k => (s.part k).loading.isSome)) := by
    rintro ⟨h3, hload⟩
    rcases hload with hload | hload
    · refine absurd hload ?_
      rw [List.filter_eq_nil_iff.mpr fun k hk => by
        rw [(hnight h3 k (List.mem_range.mp hk)).1]
        simp]
      exact Bool.false_ne_true
    · obtain ⟨k, hk, hsome⟩ := List.any_eq_true.mp hload
      rw [(hnight h3 k (List.mem_range.mp hk)).2] at hsome
      exact Bool.false_ne_true hsome
  unfold State.powerStateAsked
  dsimp only
  rw [if_neg (fun h => hrole h.1), if_neg (by omega), if_neg (by rw [hidle]; simp; omega), if_neg (fun h => ?_), hmaint]
  · rfl
  · rcases h with h | h
    · exact Bool.false_ne_true (hbusy.symm.trans h)
    · exact hquiet h

theorem State.powerAsked_spec (s : State) (n i t : Nat) : (s.powerAsked n i t).pwr.changing = some (n, i * 256 + t) ∧
    (s.powerAsked n i t).pwr.pausedPatrol = true ∧ (s.powerAsked n i t).zen = s.zen ∧ Leaves (· ∈ maintRegs) s (s.powerAsked n i t) := by
  have hpwr : (s.pausePatrol true).pwr = { s.pwr with pausedPatrol := true } := State.showMaint_keeps State.pwr (fun _ _ => rfl) _
  have hzen : (s.pausePatrol true).zen = s.zen := State.showMaint_keeps State.zen (fun _ _ => rfl) _
  have hleaves : Leaves (· ∈ maintRegs) s (s.pausePatrol true) := .pausePatrol .refl fun _ h => h
  unfold State.powerAsked
  generalize s.pausePatrol true = u at *
  exact ⟨rfl, congrArg Pwr.pausedPatrol hpwr, hzen, .upd hleaves⟩

theorem mailboxRegs_notMem_maintRegs {i : Nat} (hi : i ≤ 2) : ∀ r ∈ mailboxRegs i, r ∉ maintRegs := by
  obtain rfl | rfl | rfl : i = 0 ∨ i = 1 ∨ i = 2 := by omega
  all_goals decide

theorem State.answered_of_leaves {P : Nat → Prop} {s t : State} {i result : Nat} (h : s.answered i result) (hleaves : Leaves P s t)
    (hP : ∀ r ∈ mailboxRegs i, ¬P r) : t.answered i result :=
  State.answered_congr h (hleaves.reg _ (hP _ (mem_mailboxRegs (.inr (.inl rfl))))) (hleaves.reg _ (hP _ (mem_mailboxRegs (.inr (.inr (.inl rfl))))))

theorem moduleManaged_power (s : State) (i n : Nat) (h : s.mailboxOpen i 2) (hn : n ≤ 3) (hstate : s.pwrState < 4) (hidle : s.pwr.changing = none)
    (hmaint : s.maint = []) (hroom : s.ticketRoom i) (hrest : ∀ k, k < 4 → s.stepping k = false ∧ s.pstate k ≠ 3 ∧ s.pstate k ≠ 4)
    (hnight : n = 3 → ∀ k, k < 4 → s.pstate k = 0 ∧ (s.part k).loading = none) :
    ∃ t : State, exec (.powerState i n) s = .next t ∧ ticketOpened s t i 0x21 ∧ t.pwr.changing = some (n, i * 256 + s.zen.nextTicket) ∧
      t.pwr.pausedPatrol = true ∧ t.pwrState = s.pwrState ∧ SameMem s t ∧ SameRegsBut (maintRegs ++ mailboxRegs i) s t := by
  obtain ⟨hlives, habi, hrole⟩ := h
  have hi : i ≤ 2 := hlives.2.1
  have hexec := execPowerState_open n (s := s) (i := i) ⟨hlives, habi, by omega⟩
  rw [State.powerStateAsked_rest (s := s.heard i) (show s.roleOf i ≠ 1 by omega) hn hstate hidle hmaint hrest hnight,
    State.accepted_room (s := s.heard i) _ _ hroom, show (s.heard i).zen.nextTicket = s.zen.nextTicket from rfl] at hexec
  obtain ⟨hanswered, hzen, hleaves⟩ := (s.heard i).ticketed_spec i 0x21
  obtain ⟨hchanging, hpaused, hzen', hpatrol⟩ := ((s.heard i).ticketed i 0x21).powerAsked_spec n i s.zen.nextTicket
  have hall : Leaves (· ∈ maintRegs ++ mailboxRegs i) s (((s.heard i).ticketed i 0x21).powerAsked n i s.zen.nextTicket) :=
    ((Leaves.heard .refl).trans (hleaves.mono fun r hr => List.mem_append_right _ hr)).trans (hpatrol.mono fun r hr => List.mem_append_left _ hr)
  have hpwr : rPwrStatus ∉ maintRegs ++ mailboxRegs i := by
    refine List.not_mem_append (by decide) ?_
    obtain rfl | rfl | rfl : i = 0 ∨ i = 1 ∨ i = 2 := by omega
    all_goals decide
  refine ⟨_, hexec, ⟨State.answered_of_leaves hanswered hpatrol (mailboxRegs_notMem_maintRegs hi), ?_⟩, hchanging, hpaused, hall.fld hpwr 63 61,
    hall.sameMem, hall.sameRegsBut⟩
  rw [hzen', hzen]
  rfl

/-! FABRIC_MAP (R540, R574). -/

theorem execFabricMap_open {s : State} {i : Nat} (m : List Nat) (h : s.mailboxOpen i 2) :
    exec (.fabricMap i m) s = .next ((s.heard i).mapAsked i m) := State.mailbox_open (code := 0x22) (State.mapAsked i m) h

theorem State.retryKeys_keeps {β : Type} (g : State → β) (hg : ∀ (s : State) p a, g { s with ports := p, agenda := a } = g s) (s : State) (p : Nat) :
    g (s.retryKeys p) = g s := by
  unfold State.retryKeys
  split
  · rfl
  · dsimp only
    split
    · exact hg s _ _
    · exact hg s _ s.agenda

theorem Leaves.retryKeys {P : Nat → Prop} {s t : State} {p : Nat} (h : Leaves P s t) : Leaves P s (t.retryKeys p) := .ite h (.ite h.modPort.laterW h.modPort)

/-- A new map kept for the next start. -/
def State.mapStored (s : State) (m : List Nat) : State := (List.range 6).foldl State.retryKeys { s with zen := { s.zen with mapStore := m } }

theorem State.mapStored_spec (s : State) (m : List Nat) : (s.mapStored m).zen = { s.zen with mapStore := m } ∧ ∀ {P : Nat → Prop}, Leaves P s (s.mapStored m) :=
  ⟨foldl_keeps State.zen (State.retryKeys_keeps State.zen fun _ _ _ => rfl) _ _, .foldl (fun _ _ _ h => h.retryKeys) (.upd .refl)⟩

theorem moduleManaged_map (s : State) (i : Nat) (m : List Nat) (h : s.mailboxOpen i 2) (hmap : mapOk m = true) (hroom : s.ticketRoom i) :
    ∃ t : State, exec (.fabricMap i m) s = .next t ∧ ticketDone s t i 0x22 ∧ t.zen.mapStore = m ∧ t.zen.map = s.zen.map ∧ SameMem s t ∧
      SameRegsBut (mailboxRegs i) s t := by
  have hexec : exec (.fabricMap i m) s = .next ((((s.heard i).ticketed i 0x22).mapStored m).mbFinish i s.zen.nextTicket resOk 0) := by
    rw [execFabricMap_open m h, State.mapAsked, hmap, if_neg (by decide), State.accepted_room (s := s.heard i) _ _ hroom]
    rfl
  obtain ⟨hanswered, hzen, hleaves⟩ := (s.heard i).ticketed_spec i 0x22
  have hstart : Leaves (· ∈ mailboxRegs i) s ((s.heard i).ticketed i 0x22) := (Leaves.heard .refl).trans hleaves
  generalize (s.heard i).ticketed i 0x22 = u at *
  obtain ⟨hstored, hsame⟩ := u.mapStored_spec m
  have hanswered' : (u.mapStored m).answered i 1 := State.answered_of_leaves hanswered (hsame (P := fun _ => False)) fun _ _ => id
  have hall : Leaves (· ∈ mailboxRegs i) s ((u.mapStored m).mbFinish i s.zen.nextTicket resOk 0) :=
    .mbFinish (hstart.trans hsame) (mem_mailboxRegs (.inr (.inr (.inr rfl))))
  generalize u.mapStored m = v at *
  refine ⟨_, hexec, ticketDone_mbFinish hroom ⟨?_, ?_⟩ hanswered', ?_, ?_, hall.sameMem, hall.sameRegsBut⟩
  · rw [hstored, hzen]
    rfl
  · rw [hstored, hzen]
    rfl
  · rw [State.mbFinish_zen_keeps Zen.mapStore fun _ _ _ => rfl, hstored]
  · rw [State.mbFinish_zen_keeps Zen.map fun _ _ _ => rfl, hstored, hzen]
    rfl

theorem moduleManaged_badMap (s : State) (i : Nat) (m : List Nat) (h : s.mailboxOpen i 2) (hmap : mapOk m = false) :
    ∃ t : State, exec (.fabricMap i m) s = .next t ∧ t.answered i 0x29 ∧ t.zen.mapStore = s.zen.mapStore ∧ SameMem s t ∧
      SameRegsBut (mailboxRegs i) s t := by
  have hexec : exec (.fabricMap i m) s = .next ((s.heard i).mbAnswer i 0x22 0x29) := by
    rw [execFabricMap_open m h, State.mapAsked, hmap, if_pos (by decide)]
  obtain ⟨t, hrun, hanswered, hzen, -, -, -, hmem, hregs⟩ := answered_of_served (l := []) hexec (by norm_num) (.heard .refl)
  exact ⟨t, hrun, hanswered, by rw [hzen]; rfl, hmem, hregs⟩

/-! FW_UPDATE (R608, R610). -/

/-- A firmware slot written. -/
def State.slotWritten (slot : Nat) (m : List Nat) (s : State) : State :=
  if slot = 0 then ({ s with zen := { s.zen with slotA := m } } : State) else { s with zen := { s.zen with slotB := m } }

/-- FW_UPDATE behind the gates. -/
def State.fwAsked (i slot : Nat) (m : List Nat) (officer : Bool) (s : State) : State :=
  if s.pwrState = 5 ∧ s.fld rPwrSelftest 55 48 = 1 then s.mbAnswer i 0x30 4
  else if s.pwrState = 5 ∧ !officer then s.mbAnswer i 0x30 7
  else if 1 < slot then s.mbAnswer i 0x30 6
  else s.accepted i 0x30 fun s t => (s.slotWritten slot m).mbFinish i t resOk 0

theorem execFwUpdate_open {s : State} {i : Nat} (slot : Nat) (m : List Nat) (b : Bool) (h : s.mailboxOpen i 2) :
    exec (.fwUpdate i slot m b) s = .next ((s.heard i).fwAsked i slot m b) := State.mailbox_open (code := 0x30) (State.fwAsked i slot m b) h

theorem State.fwAsked_running {s : State} (i slot : Nat) (m : List Nat) (b : Bool) (h : s.pwrState ≠ 5) : s.fwAsked i slot m b =
    if 1 < slot then s.mbAnswer i 0x30 6 else s.accepted i 0x30 fun s t => (s.slotWritten slot m).mbFinish i t resOk 0 :=
  (if_neg fun hno => h hno.1).trans (if_neg fun hno => h hno.1)

theorem moduleManaged_fw (s : State) (i slot : Nat) (m : List Nat) (b : Bool) (h : s.mailboxOpen i 2) (hroom : s.ticketRoom i) (hslot : slot ≤ 1) :
    ∃ t : State, exec (.fwUpdate i slot m b) s = .next t ∧ ticketDone s t i 0x30 ∧ t.zen.slotA = (if slot = 0 then m else s.zen.slotA) ∧
      t.zen.slotB = (if slot = 0 then s.zen.slotB else m) ∧ SameMem s t ∧ SameRegsBut (mailboxRegs i) s t := by
  have hlive : (s.heard i).pwrState ≠ 5 := h.1.2.2.2.2
  have hexec : exec (.fwUpdate i slot m b) s = .next ((((s.heard i).ticketed i 0x30).slotWritten slot m).mbFinish i s.zen.nextTicket resOk 0) := by
    rw [execFwUpdate_open slot m b h, State.fwAsked_running i slot m b hlive, if_neg (by omega), State.accepted_room (s := s.heard i) _ _ hroom]
    rfl
  obtain ⟨hanswered, hzen, hleaves⟩ := (s.heard i).ticketed_spec i 0x30
  have hstart : Leaves (· ∈ mailboxRegs i) s ((s.heard i).ticketed i 0x30) := (Leaves.heard .refl).trans hleaves
  generalize (s.heard i).ticketed i 0x30 = u at *
  have hsame : Leaves (fun _ => False) u (u.slotWritten slot m) := .ite (.upd .refl) (.upd .refl)
  have hwritten : (u.slotWritten slot m).zen.tickets = u.zen.tickets ∧ (u.slotWritten slot m).zen.done = u.zen.done ∧
      (u.slotWritten slot m).zen.slotA = (if slot = 0 then m else u.zen.slotA) ∧ (u.slotWritten slot m).zen.slotB = (if slot = 0 then u.zen.slotB else m) := by
    unfold State.slotWritten
    split <;> exact ⟨rfl, rfl, rfl, rfl⟩
  have hanswered' : (u.slotWritten slot m).answered i 1 := State.answered_congr hanswered (hsame.reg _ id) (hsame.reg _ id)
  have hall : Leaves (· ∈ mailboxRegs i) s ((u.slotWritten slot m).mbFinish i s.zen.nextTicket resOk 0) :=
    .mbFinish (hstart.trans (hsame.mono fun _ hr => hr.elim)) (mem_mailboxRegs (.inr (.inr (.inr rfl))))
  generalize u.slotWritten slot m = v at *
  obtain ⟨htickets, hdone, hA, hB⟩ := hwritten
  refine ⟨_, hexec, ticketDone_mbFinish hroom ⟨?_, ?_⟩ hanswered', ?_, ?_, hall.sameMem, hall.sameRegsBut⟩
  · rw [htickets, hzen]
    rfl
  · rw [hdone, hzen]
    rfl
  · rw [State.mbFinish_zen_keeps Zen.slotA fun _ _ _ => rfl, hA, hzen]
    rfl
  · rw [State.mbFinish_zen_keeps Zen.slotB fun _ _ _ => rfl, hB, hzen]
    rfl

theorem moduleManaged_noSlot (s : State) (i : Nat) (m : List Nat) (b : Bool) (h : s.mailboxOpen i 2) :
    ∃ t : State, exec (.fwUpdate i 2 m b) s = .next t ∧ t.answered i 6 ∧ t.zen.slotA = s.zen.slotA ∧ t.zen.slotB = s.zen.slotB ∧ SameMem s t ∧
      SameRegsBut (mailboxRegs i) s t := by
  have hlive : (s.heard i).pwrState ≠ 5 := h.1.2.2.2.2
  have hexec : exec (.fwUpdate i 2 m b) s = .next ((s.heard i).mbAnswer i 0x30 6) := by
    rw [execFwUpdate_open 2 m b h, State.fwAsked_running i 2 m b hlive, if_pos (by decide)]
  obtain ⟨t, hrun, hanswered, hzen, -, -, -, hmem, hregs⟩ := answered_of_served (l := []) hexec (by norm_num) (.heard .refl)
  exact ⟨t, hrun, hanswered, by rw [hzen]; rfl, by rw [hzen]; rfl, hmem, hregs⟩

/-! SVN_COMMIT (R517). -/

theorem execSvnCommit_open {s : State} {i : Nat} (n : Nat) (h : s.mailboxOpen i 2) :
    exec (.svnCommit i n) s = .next ((s.heard i).svnAsked i n) := State.mailbox_open (code := 0x31) (State.svnAsked i n) h

theorem moduleManaged_svn (s : State) (i n : Nat) (h : s.mailboxOpen i 2) (hlo : s.zen.fuseSvn ≤ n) (hhi : n < 2 ^ 16) :
    ∃ t : State, exec (.svnCommit i n) s = .next t ∧ t.answered i 0 ∧ t.zen.fuseSvn = n ∧ SameMem s t ∧ SameRegsBut (mailboxRegs i) s t := by
  have hexec := execSvnCommit_open n h
  rw [State.svnAsked, if_neg (show ¬(n < (s.heard i).zen.fuseSvn ∨ 2 ^ 16 ≤ n) from not_or.mpr ⟨Nat.not_lt.mpr hlo, Nat.not_le.mpr hhi⟩)] at hexec
  obtain ⟨t, hrun, hanswered, hzen, -, -, -, hmem, hregs⟩ := answered_of_served (l := []) hexec (by decide) (.upd (.heard .refl))
  exact ⟨t, hrun, hanswered, by rw [hzen], hmem, hregs⟩

theorem moduleManaged_oldSvn (s : State) (i n : Nat) (h : s.mailboxOpen i 2) (hbad : n < s.zen.fuseSvn ∨ 2 ^ 16 ≤ n) :
    ∃ t : State, exec (.svnCommit i n) s = .next t ∧ t.answered i 6 ∧ t.zen.fuseSvn = s.zen.fuseSvn ∧ SameMem s t ∧ SameRegsBut (mailboxRegs i) s t := by
  have hexec := execSvnCommit_open n h
  rw [State.svnAsked, if_pos (show n < (s.heard i).zen.fuseSvn ∨ 2 ^ 16 ≤ n from hbad)] at hexec
  obtain ⟨t, hrun, hanswered, hzen, -, -, -, hmem, hregs⟩ := answered_of_served (l := []) hexec (by norm_num) (.heard .refl)
  exact ⟨t, hrun, hanswered, by rw [hzen]; rfl, hmem, hregs⟩

/-- Settles O48: POWER_STATE, FABRIC_MAP, FW_UPDATE, and SVN_COMMIT. -/
theorem moduleManaged : Obligations.ModuleManaged :=
  ⟨moduleManaged_power, fun s i m h => ⟨moduleManaged_badMap s i m h, moduleManaged_map s i m h⟩,
    fun s i b m h hroom => ⟨moduleManaged_fw s i 0 m b h hroom (by omega), by
      obtain ⟨t, hexec, hdone, hA, hB, hmem, hregs⟩ := moduleManaged_fw s i 1 m b h hroom (by omega)
      exact ⟨t, hexec, hdone, hB, hA, hmem, hregs⟩, moduleManaged_noSlot s i m b h⟩,
    fun s i n h => ⟨moduleManaged_svn s i n h, moduleManaged_oldSvn s i n h⟩⟩

end Sys2Proof.Machine
end

section
/-! PROOF. ZEROIZE, DEBUG_UNLOCK, ZENITH_RESET and RETEST (R521, R522, R542, R556, R573, R637). -/
namespace Sys2Proof.Machine

/-! What keeps the secrets as they are, and the queue of events. -/

/-- What is left of a partition whose run is dropped (R556). -/
def droppedPart (p : Part) : Part where
  keys := p.keys
  granules := p.granules
  sweepAt := p.sweepAt
  locked := p.locked
  lockAt := p.lockAt
  signers := p.signers
  exportSeq := p.exportSeq
  resultKey := p.resultKey
  tickets := p.tickets
  clearStep := p.clearStep
  clearCode := p.clearCode
  pstatFlip := p.pstatFlip
  clearAfter := p.clearAfter
  dumpState := p.dumpState
  dumpHdr := p.dumpHdr
  dumpBody := p.dumpBody
  trigger := p.trigger

theorem State.dropRun_spec (s : State) (k : Nat) : (s.dropRun k).parts = (s.modPart k droppedPart).parts ∧ (s.dropRun k).hosts = s.hosts ∧
    (s.dropRun k).evq = s.evq := ⟨rfl, rfl, rfl⟩

/-- The keys of partitions and sessions, and the queue of events, are as before. -/
structure SecretsKept (s t : State) : Prop where
  part : ∀ k, (t.part k).keys = (s.part k).keys ∧ (t.part k).resultKey = (s.part k).resultKey
  host : ∀ h, (t.host h).session = (s.host h).session ∧ (t.host h).ideKeys = (s.host h).ideKeys
  evq : t.evq = s.evq

namespace SecretsKept
variable {s t u : State}

theorem trans (h : SecretsKept s t) (g : SecretsKept t u) : SecretsKept s u :=
  ⟨fun k => ⟨(g.part k).1.trans (h.part k).1, (g.part k).2.trans (h.part k).2⟩, fun k => ⟨(g.host k).1.trans (h.host k).1, (g.host k).2.trans (h.host k).2⟩,
    g.evq.trans h.evq⟩

theorem of_eq (hparts : t.parts = s.parts) (hhosts : t.hosts = s.hosts) (hevq : t.evq = s.evq) : SecretsKept s t :=
  ⟨fun k => by rw [State.part, State.part, hparts]; exact ⟨rfl, rfl⟩, fun h => by rw [State.host, State.host, hhosts]; exact ⟨rfl, rfl⟩, hevq⟩

theorem refl (s : State) : SecretsKept s s := of_eq rfl rfl rfl

theorem setFld {k hi lo v : Nat} : SecretsKept s (s.setFld k hi lo v) := of_eq rfl rfl rfl

theorem modPart {k : Nat} {f : Part → Part} (hf : ∀ p, (f p).keys = p.keys ∧ (f p).resultKey = p.resultKey) : SecretsKept s (s.modPart k f) := by
  refine ⟨fun j => ?_, fun _ => ⟨rfl, rfl⟩, rfl⟩
  by_cases hj : j = k
  · subst hj
    rw [State.part_modPart_same]
    exact hf _
  · rw [State.part_modPart_ne s f hj]
    exact ⟨rfl, rfl⟩

theorem modHost {h : Nat} {f : HostPort → HostPort} (hf : ∀ x, (f x).session = x.session ∧ (f x).ideKeys = x.ideKeys) : SecretsKept s (s.modHost h f) := by
  refine ⟨fun _ => ⟨rfl, rfl⟩, fun j => ?_, rfl⟩
  by_cases hj : j = h
  · subst hj
    rw [State.host_modHost_same]
    exact hf _
  · rw [State.host_modHost_ne s f hj]
    exact ⟨rfl, rfl⟩

theorem msix {h v : Nat} : SecretsKept s (s.msix h v) := by
  unfold State.msix
  split
  · exact refl s
  · split
    · exact modHost fun _ => ⟨rfl, rfl⟩
    · split
      · exact modHost fun _ => ⟨rfl, rfl⟩
      · exact of_eq rfl rfl rfl

theorem resultTold {i : Nat} {m : List Nat} : SecretsKept s (s.resultTold i m) := by
  unfold State.resultTold
  split
  · exact msix
  · exact of_eq rfl rfl rfl

theorem mbFinish {i n result detail : Nat} : SecretsKept s (s.mbFinish i n result detail) := by
  unfold State.mbFinish
  split
  · exact refl s
  · refine trans ?_ (resultTold (i := i))
    split
    · exact of_eq rfl rfl rfl
    · exact of_eq rfl rfl rfl

theorem foldl {α : Type} {f : State → α → State} (hf : ∀ t a, SecretsKept t (f t a)) (l : List α) : ∀ s, SecretsKept s (l.foldl f s) := by
  induction l with
  | nil => exact refl
  | cons a l ih => exact fun s => (hf s a).trans (ih _)

theorem finishTickets {ts : List (Nat × Nat × Nat)} {result detail : Nat} : SecretsKept s (s.finishTickets ts result detail) :=
  foldl (fun t x => by
    split
    · exact refl t
    · exact mbFinish) ts s

theorem dropRun {k : Nat} : SecretsKept s (s.dropRun k) := by
  obtain ⟨hparts, hhosts, hevq⟩ := s.dropRun_spec k
  exact trans (modPart (k := k) (f := droppedPart) fun _ => ⟨rfl, rfl⟩) (of_eq hparts hhosts hevq)

theorem toUnloaded {k : Nat} : SecretsKept s (s.toUnloaded k) := by
  unfold State.toUnloaded
  dsimp only
  refine trans (trans (trans ?_ dropRun) (foldl (fun t j => setFld.trans setFld) _ _)) setFld
  split
  · exact mbFinish
  · exact refl s

theorem maintEnd {a n : Nat} : SecretsKept s (s.maintEnd a n) := of_eq (State.maintEnd_keeps State.parts (fun _ _ _ => rfl) s a n)
  (State.maintEnd_keeps State.hosts (fun _ _ _ => rfl) s a n) (State.maintEnd_keeps State.evq (fun _ _ _ => rfl) s a n)

theorem maintGrant {a n : Nat} : SecretsKept s (s.maintGrant a n) := of_eq (State.maintGrant_keeps State.parts (fun _ _ _ => rfl) s a n)
  (State.maintGrant_keeps State.hosts (fun _ _ _ => rfl) s a n) (State.maintGrant_keeps State.evq (fun _ _ _ => rfl) s a n)

theorem maintRefuse {a n c : Nat} : SecretsKept s (s.maintRefuse a n c) := foldl (fun _ _ => setFld.trans setFld) _ s

theorem beginClearing {k : Nat} {ts : List (Nat × Nat × Nat)} : SecretsKept s (s.beginClearing k ts) := by
  unfold State.beginClearing
  dsimp only
  have hstart : SecretsKept s (((s.maintGrant 7 k).toUnloaded k).setPstate k 3) := trans (maintGrant.trans toUnloaded) setFld
  generalize ((s.maintGrant 7 k).toUnloaded k).setPstate k 3 = u at *
  refine trans (hstart.trans (modPart (k := k) (f := fun p => { p with
    clearStep := 1, clearCode := 0, pstatFlip := false, clearAfter := false, tickets := p.tickets ++ ts }) ?_)) (of_eq rfl rfl rfl)
  exact fun _ => ⟨rfl, rfl⟩

theorem clearOrWait {k : Nat} {ts : List (Nat × Nat × Nat)} : SecretsKept s (s.clearOrWait k ts) := by
  unfold State.clearOrWait
  split
  · exact maintRefuse.trans (modPart fun _ => ⟨rfl, rfl⟩)
  · exact beginClearing

theorem awaitKeys {p : Nat} : SecretsKept s (s.awaitKeys p) := of_eq (State.awaitKeys_keeps State.parts (fun _ _ _ => rfl) s p)
  (State.awaitKeys_keeps State.hosts (fun _ _ _ => rfl) s p) (State.awaitKeys_keeps State.evq (fun _ _ _ => rfl) s p)

end SecretsKept

/-! The secrets zeroised (R521). -/

/-- The registers that a fault writes. -/
def stopReg (r : Nat) : Prop := (∃ j, r = rSeqCtxStatus j) ∨ (∃ j, r = rSeqFaultCycle j) ∨ r ∈ eventRegs

namespace Leaves
variable {P : Nat → Prop} {s t : State}

theorem stopPartition {k code : Nat} {g : List Nat} (h : Leaves P s t) : Leaves P s (t.stopPartition k code g) := .ite h h.modPart

theorem stopContext {j c code : Nat} {g : List Nat} (h : Leaves P s t) (hP : ∀ r, stopReg r → P r) : Leaves P s (t.stopContext j c code g) :=
  .ite (.stopPartition (.setFld h.modCtx (hP _ (.inl ⟨j, rfl⟩)))) (.setFld h.modCtx (hP _ (.inl ⟨j, rfl⟩)))

theorem captureFault {j code instr : Nat} {c : Option Nat} (h : Leaves P s t) (hP : ∀ r, stopReg r → P r) : Leaves P s (t.captureFault j code c instr) := by
  unfold State.captureFault
  dsimp only
  generalize (if c.isSome = true then j else t.lowest j) = j'
  have hctx : P (rSeqCtxStatus j') := hP _ (.inl ⟨j', rfl⟩)
  exact .ite h (.setReg (.setFld (.setFld (.setFld (.setFld (.setFld h hctx) hctx) hctx) hctx) hctx) (hP _ (.inr (.inl ⟨j', rfl⟩))))

theorem faultAt {j code instr ext detail source : Nat} {c : Option Nat} (h : Leaves P s t) (hP : ∀ r, stopReg r → P r) :
    Leaves P s (t.fault j code c instr ext detail source) := by
  unfold State.fault
  dsimp only
  generalize ({ code := code, sev := severityOf code true, source := source, part := t.lowest j, ctx := c.getD 0xFF, detail := detail, ext := ext } :
    EventRec) = e
  generalize t.entryAs e _ = trig
  have hraise : Leaves P s (t.raise e) := h.raise fun r hr => hP r (.inr (.inr hr))
  generalize t.raise e = u at *
  have hfirst : Leaves P s ((u.modPart (t.lowest j) fun p => { p with first := p.first.or (some (code, trig)) }).captureFault j code c instr) :=
    .captureFault hraise.modPart hP
  refine .ite hraise ?_
  cases c with
  | none => exact hfirst.stopPartition
  | some c => exact .ite (hfirst.stopContext hP) hfirst.stopPartition

end Leaves

/-- The events so far stay at the front of the queue. -/
def EvqGrows (s t : State) : Prop := ∃ l, t.evq = s.evq ++ l

namespace EvqGrows
variable {s t u : State}

theorem of_eq (h : t.evq = s.evq) : EvqGrows s t := ⟨[], by rw [h, List.append_nil]⟩

theorem trans (h : EvqGrows s t) (g : EvqGrows t u) : EvqGrows s u := by
  obtain ⟨l, hl⟩ := h
  obtain ⟨m, hm⟩ := g
  exact ⟨l ++ m, by rw [hm, hl, List.append_assoc]⟩

theorem foldl {α : Type} {f : State → α → State} (hf : ∀ t a, EvqGrows t (f t a)) (l : List α) : ∀ s, EvqGrows s (l.foldl f s) := by
  induction l with
  | nil => exact fun s => of_eq rfl
  | cons a l ih => exact fun s => (hf s a).trans (ih _)

theorem raise (s : State) (e : EventRec) : EvqGrows s (s.raise e) := by
  by_cases h : s.evq.length < 1024
  · exact ⟨[e], State.evq_raise e h⟩
  · have htrace : (s.traceRec 0 e.source (eventWord e)).evq = s.evq := State.traceRec_keeps State.evq (fun _ _ _ => rfl) s _ _ _
    refine of_eq ?_
    unfold State.raise
    generalize s.traceRec 0 e.source (eventWord e) = u at *
    dsimp only
    rw [if_neg (by rwa [htrace])]
    exact htrace

theorem fault (s : State) (j code instr ext detail source : Nat) (c : Option Nat) : EvqGrows s (s.fault j code c instr ext detail source) := by
  have hstop : ∀ (t : State) (k : Nat) (g : List Nat), (t.stopPartition k code g).evq = t.evq := fun t k g => by
    unfold State.stopPartition
    split <;> rfl
  have hctx : ∀ (t : State) (c' : Nat) (g : List Nat), (t.stopContext j c' code g).evq = t.evq := fun t c' g => by
    unfold State.stopContext
    dsimp only
    split
    · exact hstop _ _ _
    · rfl
  have hcapture : ∀ t : State, (t.captureFault j code c instr).evq = t.evq := fun t => by
    unfold State.captureFault
    dsimp only
    generalize (if c.isSome = true then j else t.lowest j) = j'
    split <;> rfl
  unfold State.fault
  dsimp only
  generalize ({ code := code, sev := severityOf code true, source := source, part := s.lowest j, ctx := c.getD 0xFF, detail := detail, ext := ext } :
    EventRec) = e
  generalize s.entryAs e _ = trig
  refine (raise s e).trans (of_eq ?_)
  generalize s.raise e = u
  split
  · rfl
  · have hfirst := hcapture (u.modPart (s.lowest j) fun p => { p with first := p.first.or (some (code, trig)) })
    generalize (u.modPart (s.lowest j) fun p => { p with first := p.first.or (some (code, trig)) }).captureFault j code c instr = v at *
    split
    · split
      · exact (hctx _ _ _).trans hfirst
      · exact (hstop _ _ _).trans hfirst
    · exact (hstop _ _ _).trans hfirst

theorem ideLost (s : State) (h : Nat) : EvqGrows s (s.ideLost h) := by
  unfold State.ideLost
  split
  · exact of_eq rfl
  · exact (of_eq rfl).trans (foldl (fun t k => fault t k 0x12 0 h 0 k none) _ _)

end EvqGrows

/-- Every partition without its keys. -/
def State.keysGone (s : State) : State := (List.range 4).foldl (fun s k => s.modPart k fun p => { p with keys := [], resultKey := none }) s

/-- Every host port without its session and its stream's keys. -/
def State.sessionsGone (s : State) : State :=
  (List.range 2).foldl (fun s h => s.modHost h fun x => { x with spdm := 0, session := none, ideKeys := none }) s

/-- No role held, and no stream Secure. -/
def State.rolesGone (s : State) : State :=
  let s := (((s.setFld rZenRole 9 8 0).setFld rZenRole 5 4 0).setFld rZenRole 3 2 0).setFld rZenRole 1 0 0
  { s with zen := { s.zen with alias_ := none, nonce := 0, lastCmd := [] } }

theorem State.zeroiseSecrets_eq (s : State) : s.zeroiseSecrets =
    (List.range 6).foldl (fun s p => s.awaitKeys p) ((s.ideLost 0).ideLost 1).keysGone.sessionsGone.rolesGone := rfl

theorem State.evq_keysGone (s : State) : s.keysGone.evq = s.evq :=
  foldl_keeps (f := fun (s : State) (k : Nat) => s.modPart k fun p => { p with keys := [], resultKey := none }) State.evq (fun _ _ => rfl) _ s

theorem State.evq_sessionsGone (s : State) : s.sessionsGone.evq = s.evq :=
  foldl_keeps (f := fun (s : State) (h : Nat) => s.modHost h fun x => { x with spdm := 0, session := none, ideKeys := none }) State.evq (fun _ _ => rfl) _ s

theorem State.keysGone_spec (s : State) {k : Nat} (hk : k < 4) : (s.keysGone.part k).keys = [] ∧ (s.keysGone.part k).resultKey = none := by
  have hpair : ((s.keysGone.part k).keys, (s.keysGone.part k).resultKey) = ([], none) := by
    unfold State.keysGone
    refine foldl_once (f := fun (s : State) (k : Nat) => s.modPart k fun p => { p with keys := [], resultKey := none })
      (fun t => ((t.part k).keys, (t.part k).resultKey)) (fun _ => ([], none)) (fun _ => True) (fun t _ => ?_) (fun t j hj => ?_) (fun _ _ _ => trivial)
      List.nodup_range (List.mem_range.mpr hk) trivial
    · rw [State.part_modPart_same]
    · rw [State.part_modPart_ne _ _ hj.symm]
  exact Prod.mk.inj hpair

theorem State.sessionsGone_spec (s : State) {h : Nat} (hh : h < 2) : (s.sessionsGone.host h).session = none ∧ (s.sessionsGone.host h).ideKeys = none := by
  have hpair : ((s.sessionsGone.host h).session, (s.sessionsGone.host h).ideKeys) = (none, none) := by
    unfold State.sessionsGone
    refine foldl_once (f := fun (s : State) (h : Nat) => s.modHost h fun x => { x with spdm := 0, session := none, ideKeys := none })
      (fun t => ((t.host h).session, (t.host h).ideKeys)) (fun _ => (none, none)) (fun _ => True) (fun t _ => ?_) (fun t j hj => ?_) (fun _ _ _ => trivial)
      List.nodup_range (List.mem_range.mpr hh) trivial
    · rw [State.host_modHost_same]
    · rw [State.host_modHost_ne _ _ hj.symm]
  exact Prod.mk.inj hpair

theorem State.roleOf_rolesGone (s : State) {j : Nat} (hj : j ≤ 2) : s.rolesGone.roleOf j = 0 := by
  have hbare : s.rolesGone.roleOf j = ((((s.setFld rZenRole 9 8 0).setFld rZenRole 5 4 0).setFld rZenRole 3 2 0).setFld rZenRole 1 0 0).roleOf j := rfl
  rw [hbare]
  unfold State.roleOf
  obtain rfl | rfl | rfl : j = 0 ∨ j = 1 ∨ j = 2 := by omega
  · rw [State.fld_setFld_same _ _ _ _ _ (by omega) (by omega)]
    rfl
  · rw [State.fld_setFld_disjoint _ _ _ _ _ _ _ (by omega) (by omega) (by omega) (by omega), State.fld_setFld_same _ _ _ _ _ (by omega) (by omega)]
    rfl
  · rw [State.fld_setFld_disjoint _ _ _ _ _ _ _ (by omega) (by omega) (by omega) (by omega),
      State.fld_setFld_disjoint _ _ _ _ _ _ _ (by omega) (by omega) (by omega) (by omega), State.fld_setFld_same _ _ _ _ _ (by omega) (by omega)]
    rfl

/-- The registers that the end of the secrets writes. -/
def secretReg (r : Nat) : Prop := stopReg r ∨ r = rZenRole ∨ ∃ p < 6, r = rLnkStatus p

/-- No key, no role, no session, and no result key (R521). -/
structure State.Zeroised (s t : State) : Prop where
  part : ∀ k < 4, (t.part k).keys = [] ∧ (t.part k).resultKey = none
  host : ∀ h < 2, (t.host h).session = none ∧ (t.host h).ideKeys = none
  role : ∀ j ≤ 2, t.roleOf j = 0
  evq : EvqGrows s t
  leaves : Leaves secretReg s t

theorem State.zeroised_zeroiseSecrets (s : State) : s.Zeroised s.zeroiseSecrets := by
  have hlost : ∀ (t : State) (h : Nat), Leaves secretReg s t → Leaves secretReg s (t.ideLost h) := fun t h ht =>
    .ite ht (.foldl (fun _ _ _ hu => hu.faultAt fun r hr => .inl hr) (.modHost (.setFld ht (.inr (.inl rfl)))))
  have hleaves := hlost _ 1 (hlost _ 0 .refl)
  have hevq : EvqGrows s ((s.ideLost 0).ideLost 1) := (EvqGrows.ideLost s 0).trans (.ideLost _ 1)
  rw [s.zeroiseSecrets_eq]
  generalize (s.ideLost 0).ideLost 1 = a at *
  have hkeys := fun k (hk : k < 4) => a.keysGone_spec hk
  have hleaves : Leaves secretReg s a.keysGone := .foldl (fun _ _ _ hu => hu.modPart) hleaves
  have hevq : EvqGrows s a.keysGone := hevq.trans (.of_eq a.evq_keysGone)
  generalize a.keysGone = b at *
  have hparts : b.sessionsGone.parts = b.parts :=
    foldl_keeps (f := fun (s : State) (h : Nat) => s.modHost h fun x => { x with spdm := 0, session := none, ideKeys := none }) State.parts (fun _ _ => rfl) _ b
  have hhosts := fun h (hh : h < 2) => b.sessionsGone_spec hh
  have hleaves : Leaves secretReg s b.sessionsGone := .foldl (fun _ _ _ hu => hu.modHost) hleaves
  have hevq : EvqGrows s b.sessionsGone := hevq.trans (.of_eq b.evq_sessionsGone)
  generalize b.sessionsGone = c at *
  have hroles := fun j (hj : j ≤ 2) => c.roleOf_rolesGone hj
  have hkept : c.rolesGone.parts = c.parts ∧ c.rolesGone.hosts = c.hosts ∧ c.rolesGone.evq = c.evq := ⟨rfl, rfl, rfl⟩
  have hrole : secretReg rZenRole := .inr (.inl rfl)
  have hleaves : Leaves secretReg s c.rolesGone := .upd (.setFld (.setFld (.setFld (.setFld hleaves hrole) hrole) hrole) hrole)
  generalize c.rolesGone = d at *
  obtain ⟨hparts', hhosts', hevq'⟩ := hkept
  have hsecrets : SecretsKept d ((List.range 6).foldl (fun s p => s.awaitKeys p) d) := .foldl (fun _ _ => .awaitKeys) _ d
  have hports : Leaves (fun r => ∃ p < 6, r = rLnkStatus p) d ((List.range 6).foldl (fun s p => s.awaitKeys p) d) :=
    .foldl (fun _ p hp hu => hu.awaitKeys ⟨p, List.mem_range.mp hp, rfl⟩) .refl
  generalize (List.range 6).foldl (fun s p => s.awaitKeys p) d = t at *
  have hpart : ∀ k, d.part k = b.part k := fun k => by rw [State.part, State.part, hparts', hparts]
  refine ⟨fun k hk => ?_, fun h hh => ?_, fun j hj => ?_, hevq.trans (.of_eq (hsecrets.evq.trans hevq')), hleaves.trans (hports.mono fun r hr => .inr (.inr hr))⟩
  · rw [(hsecrets.part k).1, (hsecrets.part k).2, hpart]
    exact hkeys k hk
  · rw [(hsecrets.host h).1, (hsecrets.host h).2, State.host, hhosts']
    exact hhosts h hh
  · refine (hports.fld ?_ _ _).trans (hroles j hj)
    rintro ⟨p, hp, h⟩
    simp only [rZenRole, rLnkStatus] at h
    omega

/-! A partition that ZEROIZE stops (R521, R542). -/

theorem State.lt_of_mem_maintStacks {s : State} {a k n : Nat} (ha : 5 < a) (h : n ∈ s.maintStacks a k) : n < 8 := by
  unfold State.maintStacks at h
  rw [if_neg (by omega), if_neg (by omega)] at h
  obtain ⟨j, hj, hn⟩ := List.mem_flatMap.mp h
  have hlt := State.lt_of_mem_partCores hj
  rcases List.mem_pair.mp hn with rfl | rfl <;> omega

theorem rMemMaint_mem_maintRegs {n : Nat} (h : n < 8) : rMemMaint n ∈ maintRegs := List.mem_flatMap.mpr ⟨n, List.mem_range.mpr h, by simp⟩

namespace Leaves
variable {P : Nat → Prop} {s t : State}

theorem maintRefuse {a k c : Nat} (h : Leaves P s t) (ha : 5 < a) (hP : ∀ r ∈ maintRegs, P r) : Leaves P s (t.maintRefuse a k c) :=
  .foldl (fun u n hn hu => by
    have hreg : P (rMemMaint n) := hP _ (rMemMaint_mem_maintRegs (State.lt_of_mem_maintStacks ha hn))
    exact .setFld (.setFld hu hreg) hreg) h

theorem clearOrWait {k : Nat} {ts : List (Nat × Nat × Nat)} (h : Leaves P s t) (hP : ∀ r, clearingReg k r → P r) : Leaves P s (t.clearOrWait k ts) := by
  unfold State.clearOrWait
  split
  · exact .modPart (h.maintRefuse (by omega) fun r hr => hP r (.inr hr))
  · exact h.beginClearing hP

theorem maintEnd {a n : Nat} (h : Leaves P s t) (hP : ∀ r ∈ maintRegs, P r) : Leaves P s (t.maintEnd a n) := h.next (.maintEnd t a n) hP

theorem finishTickets {ts : List (Nat × Nat × Nat)} {result detail : Nat} (h : Leaves P s t) (hP : P rZenApproved) :
    Leaves P s (t.finishTickets ts result detail) := h.next (.finishTickets t ts result detail) fun _ hr => hr ▸ hP

end Leaves

/-- A re-key sweep of the partition aborted. -/
def State.sweepStopped (s : State) (k : Nat) : State :=
  if s.fld (rZenXts k) 63 63 = 1 then
    (((s.setFld (rZenXts k) 63 63 0).setFld (rZenXts k) 17 0 0).maintEnd 6 k).modPart k fun p =>
      { p with sweepAt := [], lockAt := [], locked := [], tickets := p.tickets.filter fun x => x.2.2 != 0x16 }
  else s

/-- Clearing begun, or begun again. -/
def State.clearAnew (s : State) (k : Nat) (t : Nat × Nat × Nat) : State :=
  if s.pstate k = 3 then s.modPart k fun p => { p with tickets := p.tickets ++ [t], clearStep := 1 } else (s.toUnloaded k).clearOrWait k [t]

theorem State.zeroPart_eq (s : State) (k : Nat) (t : Nat × Nat × Nat) : s.zeroPart k t =
    ((s.sweepStopped k).finishTickets ((s.part k).tickets.filter fun x => x.2.2 == 0x16) 0x33 0).clearAnew k t := rfl

/-- The registers that ZEROIZE writes for a partition. -/
def zeroReg (k r : Nat) : Prop := clearingReg k r ∨ r = rZenXts k

theorem Leaves.zeroPart {P : Nat → Prop} {s t : State} {k : Nat} {x : Nat × Nat × Nat} (h : Leaves P s t) (hP : ∀ r, zeroReg k r → P r) :
    Leaves P s (t.zeroPart k x) := by
  have hclear : ∀ r, clearingReg k r → P r := fun r hr => hP r (.inl hr)
  have hxts : P (rZenXts k) := hP _ (.inr rfl)
  have hstop : Leaves P s (t.sweepStopped k) := .ite (.modPart (.maintEnd (.setFld (.setFld h hxts) hxts) fun r hr => hclear r (.inr hr))) h
  rw [State.zeroPart_eq]
  generalize t.sweepStopped k = u at *
  have hend : Leaves P s (u.finishTickets ((t.part k).tickets.filter fun x => x.2.2 == 0x16) 0x33 0) := hstop.finishTickets (hclear _ (.inl (.inl rfl)))
  exact .ite hend.modPart (.clearOrWait (.toUnloaded hend fun r hr => hclear r (.inl hr)) hclear)

theorem SecretsKept.zeroPart {s : State} {k : Nat} {x : Nat × Nat × Nat} : SecretsKept s (s.zeroPart k x) := by
  have hstop : SecretsKept s (s.sweepStopped k) := by
    unfold State.sweepStopped
    split
    · refine ((SecretsKept.setFld.trans .setFld).trans .maintEnd).trans (.modPart (k := k) (f := fun p => { p with
        sweepAt := [], lockAt := [], locked := [], tickets := p.tickets.filter fun x => x.2.2 != 0x16 }) ?_)
      exact fun _ => ⟨rfl, rfl⟩
    · exact .refl s
  rw [State.zeroPart_eq]
  generalize s.sweepStopped k = u at *
  have hend : SecretsKept s (u.finishTickets ((s.part k).tickets.filter fun x => x.2.2 == 0x16) 0x33 0) := hstop.trans .finishTickets
  generalize u.finishTickets ((s.part k).tickets.filter fun x => x.2.2 == 0x16) 0x33 0 = v at *
  unfold State.clearAnew
  split
  · refine hend.trans (.modPart (k := k) (f := fun p => { p with tickets := p.tickets ++ [x], clearStep := 1 }) ?_)
    exact fun _ => ⟨rfl, rfl⟩
  · exact (hend.trans .toUnloaded).trans .clearOrWait

/-- Clearing runs on the partition, or is due on it (R542). -/
def State.clears (s : State) (k : Nat) : Prop := s.pstate k = 3 ∨ (s.part k).clearAfter = true

theorem State.pstate_beginClearing (s : State) (k : Nat) (ts : List (Nat × Nat × Nat)) : (s.beginClearing k ts).pstate k = 3 := by
  have hset : ((((s.maintGrant 7 k).toUnloaded k).setPstate k 3).modPart k fun p => { p with
      clearStep := 1, clearCode := 0, pstatFlip := false, clearAfter := false, tickets := p.tickets ++ ts }).pstate k = 3 :=
    State.pstate_setPstate ((s.maintGrant 7 k).toUnloaded k) k (by omega)
  unfold State.beginClearing
  dsimp only
  generalize (((s.maintGrant 7 k).toUnloaded k).setPstate k 3).modPart k _ = u at *
  rw [State.pstate, State.fld_laterW, State.showPstat_keeps (State.fld · (rZenPart k) 59 57) fun _ _ => rfl]
  exact hset

theorem State.clears_zeroPart (s : State) (k : Nat) (x : Nat × Nat × Nat) : (s.zeroPart k x).clears k := by
  rw [State.zeroPart_eq]
  generalize (s.sweepStopped k).finishTickets ((s.part k).tickets.filter fun x => x.2.2 == 0x16) 0x33 0 = u
  unfold State.clearAnew
  split
  · exact .inl ‹_›
  · unfold State.clearOrWait
    split
    · refine .inr ?_
      rw [State.part_modPart_same]
    · exact .inl (State.pstate_beginClearing _ k _)

/-- What is done for one partition leaves the others' records. -/
theorem State.part_toUnloaded_ne (s : State) {k j : Nat} (h : j ≠ k) : (s.toUnloaded k).part j = s.part j := by
  have hcores : ∀ (l : List Nat) (u : State),
      (l.foldl (fun s j => (s.setFld (rSeqCtxStatus j) 1 0 0).setFld (rSeqCtxStatus j) 15 8 0) u).part j = u.part j :=
    foldl_keeps (f := fun (s : State) (j : Nat) => (s.setFld (rSeqCtxStatus j) 1 0 0).setFld (rSeqCtxStatus j) 15 8 0) (State.part · j) fun _ _ => rfl
  unfold State.toUnloaded
  dsimp only
  rw [State.setPstate, State.part_setFld, hcores]
  have hdrop : ∀ u : State, (u.dropRun k).part j = u.part j := fun u => by
    rw [State.part, (u.dropRun_spec k).1]
    exact State.part_modPart_ne u _ h
  rw [hdrop]
  split
  · exact State.mbFinish_keeps (State.part · j) (fun _ _ _ _ _ => rfl) _ _ _ _ _
  · rfl

theorem State.part_maintRefuse (s : State) (a k c j : Nat) : (s.maintRefuse a k c).part j = s.part j :=
  foldl_keeps (f := fun (s : State) (st : Nat) => (s.setFld (rMemMaint st) 19 16 a).setFld (rMemMaint st) 23 20 c) (State.part · j) (fun _ _ => rfl) _ s

theorem State.part_clearOrWait_ne (s : State) {k j : Nat} (ts : List (Nat × Nat × Nat)) (h : j ≠ k) : (s.clearOrWait k ts).part j = s.part j := by
  unfold State.clearOrWait
  split
  · rw [State.part_modPart_ne _ _ h]
    exact State.part_maintRefuse s _ _ _ j
  · unfold State.beginClearing
    dsimp only
    rw [State.part_laterW, State.showPstat_keeps (State.part · j) fun _ _ => rfl, State.part_modPart_ne _ _ h, State.setPstate, State.part_setFld,
      State.part_toUnloaded_ne _ h]
    exact State.maintGrant_keeps (State.part · j) (fun _ _ _ => rfl) s 7 k

theorem State.part_zeroPart_ne (s : State) {k j : Nat} (x : Nat × Nat × Nat) (h : j ≠ k) : (s.zeroPart k x).part j = s.part j := by
  have hstop : (s.sweepStopped k).part j = s.part j := by
    unfold State.sweepStopped
    split
    · rw [State.part_modPart_ne _ _ h]
      exact State.maintEnd_keeps (State.part · j) (fun _ _ _ => rfl) _ 6 k
    · rfl
  rw [State.zeroPart_eq]
  generalize s.sweepStopped k = u at *
  have hend : (u.finishTickets ((s.part k).tickets.filter fun x => x.2.2 == 0x16) 0x33 0).part j = u.part j := by
    unfold State.finishTickets
    refine foldl_keeps (State.part · j) (fun v t => ?_) _ u
    split
    · rfl
    · exact State.mbFinish_keeps (State.part · j) (fun _ _ _ _ _ => rfl) _ _ _ _ _
  generalize u.finishTickets ((s.part k).tickets.filter fun x => x.2.2 == 0x16) 0x33 0 = v at *
  refine Eq.trans ?_ (hend.trans hstop)
  unfold State.clearAnew
  split
  · rw [State.part_modPart_ne _ _ h]
  · rw [State.part_clearOrWait_ne _ _ h, State.part_toUnloaded_ne _ h]

theorem not_zeroReg_rZenPart {j k : Nat} (hj : j < 4) (hk : k < 4) (hne : j ≠ k) : ¬zeroReg k (rZenPart j) := by
  rintro (((h | ⟨i, hi, h⟩ | h) | h) | h)
  · simp only [rZenPart, rZenApproved] at h
    omega
  · simp only [rZenPart, rSeqCtxStatus] at h
    omega
  · simp only [rZenPart] at h
    omega
  · exact rZenPart_notMem_maintRegs hj h
  · simp only [rZenPart, rZenXts] at h
    omega

theorem State.clears_zeroPart_ne {s : State} {j k : Nat} (x : Nat × Nat × Nat) (hj : j < 4) (hk : k < 4) (hne : j ≠ k) (h : s.clears j) :
    (s.zeroPart k x).clears j := by
  have hleaves : Leaves (zeroReg k) s (s.zeroPart k x) := .zeroPart .refl fun _ hr => hr
  unfold State.clears State.pstate at *
  rw [hleaves.fld (not_zeroReg_rZenPart hj hk hne), State.part_zeroPart_ne s x hne]
  exact h

theorem State.clears_foldl {l : List Nat} (x : Nat × Nat × Nat) (hl : ∀ k ∈ l, k < 4) {j : Nat} (hj : j < 4) :
    ∀ s : State, j ∈ l ∨ s.clears j → (l.foldl (fun s k => s.zeroPart k x) s).clears j := by
  induction l with
  | nil => exact fun s h => h.resolve_left List.not_mem_nil
  | cons k l ih =>
    intro s h
    obtain ⟨hk, hrest⟩ := List.forall_mem_cons.mp hl
    rw [List.foldl_cons]
    apply ih hrest
    by_cases hjk : j = k
    · subst hjk
      exact .inr (s.clears_zeroPart j x)
    · exact h.imp (fun hin => (List.mem_cons.mp hin).resolve_left hjk) (State.clears_zeroPart_ne x hj hk hjk)

/-! ZEROIZE (R521, R542). -/

/-- The cross-rack ports that are up begin their next handshake (R521). -/
def State.rekeyed (s : State) : State := (List.range 6).foldl (fun s p => s.rekeyLoud p) s

theorem State.rekeyed_keeps {β : Type} (g : State → β) (hg : ∀ (s : State) a, g { s with agenda := a } = g s) (s : State) : g s.rekeyed = g s := by
  refine foldl_keeps g (fun u p => ?_) _ s
  unfold State.rekeyLoud
  split
  · exact hg _ _
  · rfl

/-- Zenith with a new key to sign with. -/
def State.aliased (s : State) : State := { s with zen := { s.zen with alias_ := some s.aliasSeed } }

/-- Every secret gone, and a new nonce drawn. -/
def State.secretsDropped (s : State) : State := (s.eventDie 20 0x0505 0 0).zeroiseSecrets.newNonce

/-- The partitions that ZEROIZE clears. -/
def State.zeroParts (s : State) (ks : List Nat) (x : Nat × Nat × Nat) : State := ks.foldl (fun s k => s.zeroPart k x) s

theorem State.zeroized_eq (s : State) (i n : Nat) : s.zeroized i n =
    if s.secretsDropped.pwrState = 5 then s.secretsDropped.mbFinish i n resOk 0
    else if ((List.range 4).filter fun k => s.partValid k).isEmpty then
      (s.secretsDropped.zeroParts ((List.range 4).filter fun k => s.partValid k) (i, n, 0x32)).rekeyed.aliased.mbFinish i n resOk 0
    else (s.secretsDropped.zeroParts ((List.range 4).filter fun k => s.partValid k) (i, n, 0x32)).rekeyed.aliased := rfl

/-- The registers that the secrets, their partitions' Clearing and its tickets write. -/
def zeroizeReg (r : Nat) : Prop := r ∈ eventRegs ∨ secretReg r ∨ ∃ k < 4, zeroReg k r

theorem State.secretsDropped_spec (s : State) (hroom : s.evq.length < 1024) : (∃ (e : EventRec) (l : List EventRec),
    s.secretsDropped.evq = s.evq ++ e :: l ∧ e.code = 0x0505) ∧ (∀ k < 4, (s.secretsDropped.part k).keys = [] ∧ (s.secretsDropped.part k).resultKey = none) ∧
    (∀ h < 2, (s.secretsDropped.host h).session = none ∧ (s.secretsDropped.host h).ideKeys = none) ∧ (∀ j ≤ 2, s.secretsDropped.roleOf j = 0) ∧
    Leaves zeroizeReg s s.secretsDropped := by
  obtain ⟨e, hevq, hcode, -, hleaves, -⟩ := s.eventDie_spec 20 0x0505 0 0 hroom
  unfold State.secretsDropped
  generalize s.eventDie 20 0x0505 0 0 = u at *
  obtain ⟨hpart, hhost, hrole, ⟨l, hl⟩, hsecret⟩ := u.zeroised_zeroiseSecrets
  generalize u.zeroiseSecrets = v at *
  have hall : Leaves zeroizeReg s v := (hleaves.mono fun r hr => .inl hr).trans (hsecret.mono fun r hr => .inr (.inl hr))
  refine ⟨⟨e, l, ?_, hcode⟩, hpart, hhost, hrole, .upd (.upd hall)⟩
  rw [show v.newNonce.evq = v.evq from rfl, hl, hevq, List.append_assoc]
  rfl

theorem not_zeroReg_rZenRole {k : Nat} (hk : k < 4) : ¬zeroReg k rZenRole := by
  rintro (((h | ⟨i, hi, h⟩ | h) | h) | h)
  · simp only [rZenRole, rZenApproved] at h
    omega
  · simp only [rZenRole, rSeqCtxStatus] at h
    omega
  · simp only [rZenRole, rZenPart] at h
    omega
  · exact absurd h (by decide)
  · simp only [rZenRole, rZenXts] at h
    omega

theorem not_zeroizeReg_mailbox {i : Nat} (hi : i ≤ 2) : ¬zeroizeReg (rZenMbStatus + mbOfs i) ∧ ¬zeroizeReg (rZenMbCmd + mbOfs i) := by
  have hne : ∀ r, (r = rZenMbStatus + mbOfs i ∨ r = rZenMbCmd + mbOfs i) → r ∉ eventRegs ∧ r ∉ maintRegs := by
    rintro r (rfl | rfl) <;> obtain rfl | rfl | rfl : i = 0 ∨ i = 1 ∨ i = 2 := by omega
    all_goals decide
  have hbad : ∀ r, (r = rZenMbStatus + mbOfs i ∨ r = rZenMbCmd + mbOfs i) → ¬zeroizeReg r := by
    intro r hr
    obtain ⟨hevent, hmaint⟩ := hne r hr
    unfold rZenMbStatus rZenMbCmd mbOfs localStride at hr
    rintro (h | ((⟨j, rfl⟩ | ⟨j, rfl⟩ | h) | rfl | ⟨p, hp, rfl⟩) | ⟨k, hk, ((rfl | ⟨j, hj, rfl⟩ | rfl) | h) | rfl⟩)
    · exact hevent h
    · unfold rSeqCtxStatus at hr
      omega
    · unfold rSeqFaultCycle at hr
      omega
    · exact hevent h
    · unfold rZenRole at hr
      omega
    · unfold rLnkStatus at hr
      omega
    · unfold rZenApproved at hr
      omega
    · unfold rSeqCtxStatus at hr
      omega
    · unfold rZenPart at hr
      omega
    · exact hmaint h
    · unfold rZenXts at hr
      omega
  exact ⟨hbad _ (.inl rfl), hbad _ (.inr rfl)⟩

theorem not_zeroizeReg_rPwrStatus : ¬zeroizeReg rPwrStatus := by
  rintro (h | ((⟨j, h⟩ | ⟨j, h⟩ | h) | h | ⟨p, hp, h⟩) | ⟨k, hk, ((h | ⟨j, hj, h⟩ | h) | h) | h⟩)
  · exact absurd h (by decide)
  · unfold rPwrStatus rSeqCtxStatus at h
    omega
  · unfold rPwrStatus rSeqFaultCycle at h
    omega
  · exact absurd h (by decide)
  · exact absurd h (by decide)
  · unfold rPwrStatus rLnkStatus at h
    omega
  · exact absurd h (by decide)
  · unfold rPwrStatus rSeqCtxStatus at h
    omega
  · unfold rPwrStatus rZenPart at h
    omega
  · exact absurd h (by decide)
  · unfold rPwrStatus rZenXts at h
    omega

theorem State.zeroParts_spec (s : State) {ks : List Nat} (x : Nat × Nat × Nat) (hks : ∀ k ∈ ks, k < 4) : SecretsKept s (s.zeroParts ks x) ∧
    Leaves (fun r => ∃ k < 4, zeroReg k r) s (s.zeroParts ks x) ∧ ∀ k ∈ ks, (s.zeroParts ks x).clears k :=
  ⟨.foldl (fun _ _ => .zeroPart) ks s, .foldl (fun _ k hk hu => .zeroPart hu fun _ hr => ⟨k, hks k hk, hr⟩) .refl,
    fun k hk => State.clears_foldl x hks (hks k hk) s (.inl hk)⟩

theorem State.zeroized_spec (s : State) (i n : Nat) (hlive : s.pwrState ≠ 5) (hroom : s.evq.length < 1024) :
    (∃ (e : EventRec) (l : List EventRec), (s.zeroized i n).evq = s.evq ++ e :: l ∧ e.code = 0x0505) ∧
    (∀ k < 4, ((s.zeroized i n).part k).keys = [] ∧ ((s.zeroized i n).part k).resultKey = none) ∧
    (∀ h < 2, ((s.zeroized i n).host h).session = none ∧ ((s.zeroized i n).host h).ideKeys = none) ∧ (∀ j ≤ 2, (s.zeroized i n).roleOf j = 0) ∧
    (∀ k < 4, s.partValid k = true → (s.zeroized i n).clears k) ∧ Leaves zeroizeReg s (s.zeroized i n) := by
  obtain ⟨⟨e, l, hevq, hcode⟩, hpart, hhost, hrole, hdropped⟩ := s.secretsDropped_spec hroom
  have hpwr : s.secretsDropped.pwrState ≠ 5 := by
    rw [State.pwrState, hdropped.fld not_zeroizeReg_rPwrStatus]
    exact hlive
  rw [State.zeroized_eq, if_neg hpwr]
  have hks : ∀ k ∈ (List.range 4).filter fun k => s.partValid k, k < 4 := fun k hk => List.mem_range.mp (List.mem_filter.mp hk).1
  have hmem : ∀ k < 4, s.partValid k = true → k ∈ (List.range 4).filter fun k => s.partValid k := fun k hk hv =>
    List.mem_filter.mpr ⟨List.mem_range.mpr hk, hv⟩
  generalize (List.range 4).filter (fun k => s.partValid k) = ks at *
  generalize s.secretsDropped = u at *
  obtain ⟨hkept, hleaves, hclears⟩ := u.zeroParts_spec (i, n, 0x32) hks
  generalize u.zeroParts ks (i, n, 0x32) = v at *
  have hregs : v.rekeyed.aliased.reg = v.reg := v.rekeyed_keeps State.reg fun _ _ => rfl
  have hparts : v.rekeyed.aliased.parts = v.parts := v.rekeyed_keeps State.parts fun _ _ => rfl
  have hkept : SecretsKept u v.rekeyed.aliased := hkept.trans (.of_eq hparts (v.rekeyed_keeps State.hosts fun _ _ => rfl)
    (v.rekeyed_keeps State.evq fun _ _ => rfl))
  have hleaves : Leaves (fun r => ∃ k < 4, zeroReg k r) u v.rekeyed.aliased := hleaves.trans ⟨v.rekeyed_keeps State.hbm fun _ _ => rfl,
    v.rekeyed_keeps State.store fun _ _ => rfl, v.rekeyed_keeps State.lstore fun _ _ => rfl, v.rekeyed_keeps State.mbuf fun _ _ => rfl,
    fun r _ => congrFun hregs r⟩
  have hclears : ∀ k ∈ ks, v.rekeyed.aliased.clears k := fun k hk => by
    unfold State.clears State.pstate State.part State.fld at *
    rw [hregs, hparts]
    exact hclears k hk
  generalize v.rekeyed.aliased = w at *
  have hend : ∃ t : State, (if ks.isEmpty then w.mbFinish i n resOk 0 else w) = t ∧ SecretsKept u t ∧ Leaves (fun r => ∃ k < 4, zeroReg k r) u t ∧
      ∀ k ∈ ks, t.clears k := by
    by_cases hempty : ks.isEmpty = true
    · rw [if_pos hempty, List.isEmpty_iff.mp hempty]
      exact ⟨_, rfl, hkept.trans .mbFinish, hleaves.mbFinish ⟨0, by omega, .inl (.inl (.inl rfl))⟩, fun _ hk => absurd hk List.not_mem_nil⟩
    · exact ⟨_, if_neg hempty, hkept, hleaves, hclears⟩
  obtain ⟨t, ht, hkept, hleaves, hclears⟩ := hend
  rw [ht]
  refine ⟨⟨e, l, hkept.evq.trans hevq, hcode⟩, fun k hk => ?_, fun h hh => ?_, fun j hj => ?_, fun k hk hv => hclears k (hmem k hk hv),
    hdropped.trans (hleaves.mono fun r hr => .inr (.inr hr))⟩
  · rw [(hkept.part k).1, (hkept.part k).2]
    exact hpart k hk
  · rw [(hkept.host h).1, (hkept.host h).2]
    exact hhost h hh
  · rw [← hrole j hj]
    unfold State.roleOf State.fld
    rw [hleaves.reg rZenRole fun ⟨k, hk, hr⟩ => not_zeroReg_rZenRole hk hr]

theorem secretsManaged_zeroize (s : State) (i : Nat) (b : Bool) (h : s.mailboxOpen i 2) (hroom : s.ticketRoom i) (hevents : s.evq.length < 1024) :
    ∃ (t : State) (e : EventRec) (l : List EventRec), exec (.zeroize i b) s = .next t ∧ t.answered i 1 ∧ t.evq = s.evq ++ e :: l ∧ e.code = 0x0505 ∧
      (∀ k, k < 4 → (t.part k).keys = [] ∧ (t.part k).resultKey = none) ∧ (∀ j, j ≤ 2 → t.roleOf j = 0) ∧
      (∀ h, h < 2 → (t.host h).session = none ∧ (t.host h).ideKeys = none) ∧
      (∀ k, k < 4 → s.partValid k = true → t.pstate k = 3 ∨ (t.part k).clearAfter = true) ∧ SameMem s t := by
  obtain ⟨⟨hheld, hi, hbooted, hbooting, hlive⟩, habi, hrole⟩ := id h
  have hexec : exec (.zeroize i b) s = .next ((s.heard i).zeroizeAsked i b) := State.mailbox_open (code := 0x32) (State.zeroizeAsked i b) h
  have hover : ∀ p : Prop, ¬((s.heard i).pwrState = 5 ∧ p) := fun p hp => hlive hp.1
  rw [State.zeroizeAsked, if_neg (hover _), if_neg (hover _), State.accepted_room (s := s.heard i) _ _ hroom] at hexec
  obtain ⟨hanswered, -, hleaves⟩ := (s.heard i).ticketed_spec i 0x32
  have hevq : ((s.heard i).ticketed i 0x32).evq = s.evq := State.ticketed_keeps State.evq (fun _ _ _ _ _ _ => rfl) (s.heard i) i 0x32
  have hleaves := (Leaves.heard (P := (· ∈ mailboxRegs i)) (s := s) (i := i) .refl).trans hleaves
  generalize (s.heard i).ticketed i 0x32 = u at *
  have hpwr : u.pwrState = s.pwrState := hleaves.fld (fun hr => by
    revert hr
    obtain rfl | rfl | rfl : i = 0 ∨ i = 1 ∨ i = 2 := by omega
    all_goals decide) 63 61
  have hvalid : ∀ k < 4, u.partValid k = s.partValid k := fun k hk => by
    unfold State.partValid
    rw [hleaves.fld fun hr => ?_]
    revert hr
    obtain rfl | rfl | rfl : i = 0 ∨ i = 1 ∨ i = 2 := by omega
    all_goals obtain rfl | rfl | rfl | rfl : k = 0 ∨ k = 1 ∨ k = 2 ∨ k = 3 := by omega
    all_goals decide
  obtain ⟨⟨e, l, hev, hcode⟩, hpart, hhost, hroles, hclears, hzero⟩ := u.zeroized_spec i s.zen.nextTicket (by rwa [hpwr]) (by rwa [hevq])
  refine ⟨_, e, l, hexec, State.answered_congr hanswered (hzero.reg _ (not_zeroizeReg_mailbox hi).1) (hzero.reg _ (not_zeroizeReg_mailbox hi).2),
    hevq ▸ hev, hcode, hpart, hroles, hhost, fun k hk hv => hclears k hk ((hvalid k hk).trans hv), ?_⟩
  exact ((hleaves.mono (Q := fun _ => True) fun _ _ => trivial).trans (hzero.mono fun _ _ => trivial)).sameMem

/-! DEBUG_UNLOCK (R522, R637). -/

/-- DEBUG_UNLOCK behind the gates. -/
def State.unlockAsked (i : Nat) (key : List Nat) (sigOk : Bool) (s : State) : State :=
  if !(sigOk && Config.sha3 key == Config.debugKeyHash) then s.mbAnswer i 0x33 6
  else if s.anyConf then s.mbAnswer i 0x33 0x21
  else ((({ s with zen := { s.zen with unlocked := true } } : State).setFld rDbgStatus 63 63 1).eventDie 20 0x050B 0 0).mbAnswer i 0x33 resOk

theorem State.fld_raise_unlocked (s : State) (e : EventRec) (hroom : s.evq.length < 1024) :
    (s.raise e).fld rDbgStatus 63 63 = s.fld rDbgStatus 63 63 := by
  have hevq : (s.traceRec 0 e.source (eventWord e)).evq = s.evq := State.traceRec_keeps State.evq (fun _ _ _ => rfl) s _ _ _
  have htrace : (s.traceRec 0 e.source (eventWord e)).fld rDbgStatus 63 63 = s.fld rDbgStatus 63 63 := by
    unfold State.traceRec
    dsimp only
    generalize (leBytes 4 _ ++ leBytes 2 _ ++ _ ++ _) = r
    split
    · rfl
    · split
      · exact State.fld_setFld_disjoint _ _ _ _ _ _ _ (by omega) (by omega) (by omega) (by omega)
      · exact State.fld_setFld_disjoint _ _ _ _ _ _ _ (by omega) (by omega) (by omega) (by omega)
  unfold State.raise
  generalize s.traceRec 0 e.source (eventWord e) = u at *
  dsimp only
  rw [if_pos (by rwa [hevq])]
  exact htrace

theorem secretsManaged_unlock (s : State) (i : Nat) (key : List Nat) (b : Bool) (h : s.mailboxOpen i 2) (hconf : s.anyConf = false)
    (hroom : s.evq.length < 1024) : ∃ t : State, exec (.debugUnlock i key b) s = .next t ∧
      (b = true ∧ Config.sha3 key = Config.debugKeyHash → t.answered i 0 ∧ t.zen.unlocked = true ∧ t.fld rDbgStatus 63 63 = 1 ∧
        ∃ e, t.evq = s.evq ++ [e] ∧ e.code = 0x050B) ∧
      (¬(b = true ∧ Config.sha3 key = Config.debugKeyHash) → t.answered i 6 ∧ t.zen.unlocked = s.zen.unlocked ∧
        t.reg rDbgStatus = s.reg rDbgStatus ∧ t.evq = s.evq) ∧ SameMem s t ∧ SameRegsBut (mailboxRegs i ++ eventRegs) s t := by
  obtain ⟨⟨hheld, hi, hbooted, hbooting, hlive⟩, habi, hrole⟩ := id h
  have hexec : exec (.debugUnlock i key b) s = .next ((s.heard i).unlockAsked i key b) := State.mailbox_open (code := 0x33) (State.unlockAsked i key b) h
  have hstatus : rDbgStatus ∉ mailboxRegs i := by
    obtain rfl | rfl | rfl : i = 0 ∨ i = 1 ∨ i = 2 := by omega
    all_goals decide
  by_cases hkey : b = true ∧ Config.sha3 key = Config.debugKeyHash
  · have htest : (!(b && Config.sha3 key == Config.debugKeyHash)) = false := by simp [hkey.1, hkey.2]
    have hopen : (s.heard i).anyConf = false := hconf
    rw [State.unlockAsked, htest, hopen, if_neg Bool.false_ne_true, if_neg Bool.false_ne_true] at hexec
    have hbare : ∃ u : State, (({ s.heard i with zen := { (s.heard i).zen with unlocked := true } } : State).setFld rDbgStatus 63 63 1) = u ∧
        u.zen.unlocked = true ∧ u.fld rDbgStatus 63 63 = 1 ∧ u.evq = s.evq ∧ Leaves (· ∈ mailboxRegs i ++ eventRegs) s u :=
      ⟨_, rfl, rfl, State.fld_setFld_same _ _ _ _ _ (by omega) (by omega), rfl, .setFld (.upd (.heard .refl)) (by simp [eventRegs])⟩
    obtain ⟨u, hu, hunlocked, hfld, hevq, hleaves⟩ := hbare
    rw [hu] at hexec
    obtain ⟨e, hev, hcode, -, hraise, -⟩ := u.eventDie_spec 20 0x050B 0 0 (hevq ▸ hroom)
    have hzen : (u.eventDie 20 0x050B 0 0).zen = u.zen := State.raise_keeps State.zen (fun _ _ _ _ _ => rfl) u _
    have hfld' : (u.eventDie 20 0x050B 0 0).fld rDbgStatus 63 63 = u.fld rDbgStatus 63 63 := u.fld_raise_unlocked _ (hevq ▸ hroom)
    generalize u.eventDie 20 0x050B 0 0 = v at *
    obtain ⟨hanswered, hans⟩ := v.mbAnswer_spec i 0x33 (result := resOk) (by decide)
    have hall := (hleaves.trans (hraise.mono fun r hr => List.mem_append_right _ hr)).trans (hans.mono fun r hr => List.mem_append_left _ hr)
    refine ⟨_, hexec, fun _ => ⟨hanswered, ?_, ?_, e, ?_, hcode⟩, fun hno => absurd hkey hno, hall.sameMem, hall.sameRegsBut⟩
    · rw [v.mbAnswer_keeps (·.zen.unlocked) fun _ _ _ _ _ => rfl, hzen, hunlocked]
    · rw [hans.fld hstatus, hfld', hfld]
    · rw [v.mbAnswer_keeps State.evq fun _ _ _ _ _ => rfl, hev, hevq]
  · have htest : (!(b && Config.sha3 key == Config.debugKeyHash)) = true := by
      rw [Bool.not_eq_true', Bool.and_eq_false_imp, beq_eq_false_iff_ne]
      exact fun hb he => hkey ⟨hb, he⟩
    rw [State.unlockAsked, htest, if_pos rfl] at hexec
    obtain ⟨hanswered, hans⟩ := (s.heard i).mbAnswer_spec i 0x33 (result := 6) (by decide)
    have hall := (Leaves.heard (P := (· ∈ mailboxRegs i)) (s := s) (i := i) .refl).trans hans
    exact ⟨_, hexec, fun hyes => absurd hyes hkey, fun _ => ⟨hanswered, (s.heard i).mbAnswer_keeps (·.zen.unlocked) (fun _ _ _ _ _ => rfl) _ _ _,
      hall.reg _ hstatus, (s.heard i).mbAnswer_keeps State.evq (fun _ _ _ _ _ => rfl) _ _ _⟩, hall.sameMem,
      (hall.mono fun r hr => List.mem_append_left _ hr).sameRegsBut⟩

/-! ZENITH_RESET and RETEST (R556, R573). -/

theorem secretsManaged_reset (s : State) (i : Nat) (h : s.mailboxOpen i 2) (hroom : s.ticketRoom i) :
    ∃ t : State, exec (.zenithReset i) s = .next t ∧ t.zen.booting = true ∧ t.zen.booted = false ∧ t.zen.alias_ = none ∧
      t.fld rPwrResetCause 63 56 = 6 ∧ t.fld rPwrResetCause 55 48 = 3 ∧ SameMem s t := by
  have hexec : exec (.zenithReset i) s = .next ((s.heard i).zenResetAsked i) := State.mailbox_open (code := 0x34) (State.zenResetAsked i) h
  rw [State.zenResetAsked, State.accepted_room (s := s.heard i) _ _ hroom] at hexec
  obtain ⟨-, -, hleaves⟩ := (s.heard i).ticketed_spec i 0x34
  generalize (s.heard i).ticketed i 0x34 = u at *
  obtain ⟨hbooting, hbooted, halias, hkind, hcode, -⟩ := u.zenReset_spec (why := 3) (by omega)
  have hall : Leaves (fun _ => True) s (u.zenReset 3) := .zenReset ((Leaves.heard .refl).trans (hleaves.mono fun _ _ => trivial))
  exact ⟨_, hexec, hbooting, hbooted, halias, hkind, hcode, hall.sameMem⟩

/-- RETEST behind the gates. -/
def State.retestAsked (i : Nat) (s : State) : State :=
  if s.pwrState ≠ 5 then s.mbAnswer i 0x41 0x2A
  else s.accepted i 0x41 fun s _ => ({ s with pwr := { s.pwr with cold := true } } : State).setPwr 4

theorem secretsManaged_retest (s : State) (i : Nat) (hheld : s.pwr.held = false) (hi : i ≤ 2) (hbooted : s.zen.booted = true)
    (hbooting : s.zen.booting = false) (hover : s.pwrState = 5) (hroom : s.ticketRoom i) :
    ∃ t : State, exec (.retest i) s = .next t ∧ ticketOpened s t i 0x41 ∧ t.pwrState = 4 ∧ t.pwr.cold = true ∧ SameMem s t ∧
      SameRegsBut (rPwrStatus :: mailboxRegs i) s t := by
  have hexec : exec (.retest i) s = .next ((s.heard i).retestAsked i) :=
    (State.mailbox_awake 0x41 0 (State.retestAsked i) ⟨hheld, hi, hbooted, hbooting⟩).trans (if_pos hover)
  have hover' : (s.heard i).pwrState = 5 := hover
  rw [State.retestAsked, if_neg (not_not_intro hover'), State.accepted_room (s := s.heard i) _ _ hroom] at hexec
  obtain ⟨hanswered, hzen, hleaves⟩ := (s.heard i).ticketed_spec i 0x41
  have hleaves := (Leaves.heard (P := (· ∈ mailboxRegs i)) (s := s) (i := i) .refl).trans hleaves
  generalize (s.heard i).ticketed i 0x41 = u at *
  have hbare : ∃ v : State, ({ u with pwr := { u.pwr with cold := true } } : State) = v ∧ v.pwr.cold = true ∧ v.zen = u.zen ∧
      Leaves (fun _ => False) u v := ⟨_, rfl, rfl, rfl, .upd .refl⟩
  obtain ⟨v, hv, hcold, hvzen, hsame⟩ := hbare
  rw [hv] at hexec
  have hset : Leaves (· = rPwrStatus) v (v.setPwr 4) := Leaves.setPwr .refl rfl
  have hall : Leaves (· ∈ rPwrStatus :: mailboxRegs i) s (v.setPwr 4) := ((hleaves.mono fun r hr => List.mem_cons_of_mem _ hr).trans
    (hsame.mono fun _ hr => hr.elim)).trans (hset.mono fun r hr => hr ▸ List.mem_cons_self)
  have hne : ∀ r ∈ mailboxRegs i, ¬r = rPwrStatus := by
    obtain rfl | rfl | rfl : i = 0 ∨ i = 1 ∨ i = 2 := by omega
    all_goals decide
  have hzen' : (v.setPwr 4).zen = v.zen := State.showPstat_keeps State.zen (fun _ _ => rfl) _
  have hcold' : (v.setPwr 4).pwr.cold = v.pwr.cold := State.showPstat_keeps (·.pwr.cold) (fun _ _ => rfl) _
  refine ⟨_, hexec, ⟨(State.answered_of_leaves (State.answered_of_leaves hanswered hsame fun _ _ => id) hset hne), ?_⟩, v.pwrState_setPwr 4,
    hcold'.trans hcold, hall.sameMem, hall.sameRegsBut⟩
  rw [hzen', hvzen, hzen]
  rfl

/-- Settles O49: ZEROIZE, DEBUG_UNLOCK, ZENITH_RESET, and RETEST. -/
theorem secretsManaged : Obligations.SecretsManaged :=
  ⟨secretsManaged_zeroize, secretsManaged_unlock, secretsManaged_reset, secretsManaged_retest⟩

end Sys2Proof.Machine
end

section
/-! PROOF. LOAD, UNLOAD, RECOVERY_TABLE and SIGNER_SET (R371, R372, R484, R528, R529, R601). -/
namespace Sys2Proof.Machine

/-! A command for a partition of its own (R529). -/

theorem State.mailbox_part {s : State} {i k code : Nat} (f : State → State) (h : s.mailboxPart i k) :
    s.mailbox i code 1 (fun s => s.onPart i code k f) = .next (f (s.heard i)) := by
  obtain ⟨hopen, hk, hvalid, howner⟩ := h
  rw [State.mailbox_open (fun s => s.onPart i code k f) hopen]
  refine congrArg Host.Outcome.next ((if_neg ?_).trans (if_neg ?_))
  · rintro (hbig | hno)
    · omega
    · rw [show (s.heard i).partValid k = s.partValid k from rfl, hvalid] at hno
      exact absurd hno (by decide)
  · exact fun hno => hno.2 (howner hno.1)

theorem State.mailboxPart.le {s : State} {i k : Nat} (h : s.mailboxPart i k) : i ≤ 2 := h.1.1.2.1

/-- A partition's status word and its cores' contexts are none of the mailbox's registers. -/
theorem rZenPart_notMem_mailboxRegs {i k : Nat} (hk : k < 4) : rZenPart k ∉ mailboxRegs i := by
  simp only [mailboxRegs, List.mem_cons, List.not_mem_nil, or_false, rZenPart, rZenMbDetail, rZenMbStatus, rZenMbCmd, rZenApproved, mbOfs, localStride]
  omega

theorem rSeqCtxStatus_notMem_mailboxRegs {i j : Nat} : rSeqCtxStatus j ∉ mailboxRegs i := by
  simp only [mailboxRegs, List.mem_cons, List.not_mem_nil, or_false, rSeqCtxStatus, rZenMbDetail, rZenMbStatus, rZenMbCmd, rZenApproved, mbOfs,
    localStride]
  omega

theorem mailboxRegs_notMem_ctxRegs {i : Nat} {r : Nat} (hr : r ∈ mailboxRegs i) : r ∉ ctxRegs := fun hctx => by
  obtain ⟨j, -, rfl⟩ := List.mem_map.mp hctx
  exact rSeqCtxStatus_notMem_mailboxRegs hr

theorem rSeqCtxStatus_mem_ctxRegs {j : Nat} (hj : j < 4) : rSeqCtxStatus j ∈ ctxRegs := List.mem_map.mpr ⟨j, List.mem_range.mpr hj, rfl⟩

theorem rSeqCtxStatus_ne_rZenPart {k : Nat} (hk : k < 4) (j : Nat) : rSeqCtxStatus j ≠ rZenPart k := by
  unfold rSeqCtxStatus rZenPart
  omega

theorem State.nodup_partCores (s : State) (k : Nat) : (s.partCores k).Nodup := nodup_maskList _ _

/-! LOAD (R371, R529). -/

/-- A partition's image being checked, its cores loading. -/
def State.loadBegun (s : State) (k : Nat) (x : Loaded × Nat × Nat) : State :=
  ((s.modPart k fun p => { p with loading := some x }).partCores k).foldl (fun s j => s.setFld (rSeqCtxStatus j) 1 0 1)
    (s.modPart k fun p => { p with loading := some x })

/-- LOAD for a partition of the interface's own. -/
def State.loadAsked (i k addr len : Nat) (bases : List Nat) (ptable : Nat) (s : State) : State :=
  if s.pstate k ≠ 0 ∨ (s.part k).loading.isSome ∨ (s.part k).clearAfter ∨ s.fld rPwrStatus 56 56 = 0 then s.mbAnswer i 0x10 0x20
  else if s.conf k && (!s.ideSecure (s.owner k) || (s.part k).signers.isEmpty) then s.mbAnswer i 0x10 0x23
  else if addr % 4096 ≠ 0 ∨ !s.inBounds k addr len ∨ (ptable ≠ 0 ∧ !s.inBounds k ptable 8) then s.mbAnswer i 0x10 6
  else s.accepted i 0x10 fun s t => s.loadBegun k ({ addr := addr, len := len, bases := bases, ptable := ptable }, i, t)

theorem execLoad_mine {s : State} {i k : Nat} (addr len p : Nat) (b : List Nat) (h : s.mailboxPart i k) :
    exec (.load i k addr len b p) s = .next ((s.heard i).loadAsked i k addr len b p) :=
  State.mailbox_part (code := 0x10) (State.loadAsked i k addr len b p) h

theorem State.loadBegun_spec (s : State) (k : Nat) (x : Loaded × Nat × Nat) : ((s.loadBegun k x).part k).loading = some x ∧
    (∀ j ∈ s.partCores k, (s.loadBegun k x).fld (rSeqCtxStatus j) 1 0 = 1) ∧ (s.loadBegun k x).zen = s.zen ∧
    Leaves (· ∈ ctxRegs) s (s.loadBegun k x) := by
  unfold State.loadBegun
  have hcores : (s.modPart k fun p => { p with loading := some x }).partCores k = s.partCores k := rfl
  have hpart : ((s.modPart k fun p => { p with loading := some x }).part k).loading = some x := by rw [State.part_modPart_same]
  have hleaves : Leaves (· ∈ ctxRegs) s (s.modPart k fun p => { p with loading := some x }) := .modPart .refl
  have hzen : (s.modPart k fun p => { p with loading := some x }).zen = s.zen := rfl
  rw [hcores]
  generalize (s.modPart k fun p => { p with loading := some x }) = u at *
  refine ⟨?_, fun j hj => ?_, ?_, .foldl (fun _ _ hj hu => .setFld hu (rSeqCtxStatus_mem_ctxRegs (State.lt_of_mem_partCores hj))) hleaves⟩
  · exact (foldl_keeps (f := fun (s : State) (j : Nat) => s.setFld (rSeqCtxStatus j) 1 0 1) (fun t => (t.part k).loading) (fun _ _ => rfl) _ u).trans hpart
  · exact foldl_once (f := fun (s : State) (j : Nat) => s.setFld (rSeqCtxStatus j) 1 0 1) (fun t => t.fld (rSeqCtxStatus j) 1 0) (fun _ => 1)
      (fun _ => True) (fun t _ => State.fld_setFld_same _ _ _ _ _ (by omega) (by omega))
      (fun t l hl => State.fld_setFld_ne _ _ _ _ _ _ (rSeqCtxStatus_ne hl.symm)) (fun _ _ _ => trivial) (s.nodup_partCores k) hj trivial
  · exact (foldl_keeps (f := fun (s : State) (j : Nat) => s.setFld (rSeqCtxStatus j) 1 0 1) State.zen (fun _ _ => rfl) _ u).trans hzen

theorem imagesManaged_load (s : State) (i k addr len p : Nat) (b : List Nat) (h : s.mailboxPart i k) (hstate : s.pstate k = 0)
    (hloading : (s.part k).loading = none) (hafter : (s.part k).clearAfter = false) (hready : s.fld rPwrStatus 56 56 = 1)
    (hconf : s.conf k = false ∨ (s.ideSecure (s.owner k) = true ∧ (s.part k).signers ≠ [])) (haddr : addr % 4096 = 0)
    (hbounds : s.inBounds k addr len = true) (htable : p = 0 ∨ s.inBounds k p 8 = true) (hroom : s.ticketRoom i) :
    ∃ t : State, exec (.load i k addr len b p) s = .next t ∧ ticketOpened s t i 0x10 ∧
      (t.part k).loading = some ({ addr := addr, len := len, bases := b, ptable := p }, i, s.zen.nextTicket) ∧ t.pstate k = 0 ∧
      (∀ j ∈ s.partCores k, t.fld (rSeqCtxStatus j) 1 0 = 1) ∧ SameMem s t ∧ SameRegsBut (ctxRegs ++ mailboxRegs i) s t := by
  have hk : k < 4 := h.2.1
  have hexec := execLoad_mine addr len p b h
  have hloads : ¬((s.heard i).pstate k ≠ 0 ∨ ((s.heard i).part k).loading.isSome ∨ ((s.heard i).part k).clearAfter ∨
      (s.heard i).fld rPwrStatus 56 56 = 0) := by
    rintro (hno | hno | hno | hno)
    · exact hno hstate
    · rw [show ((s.heard i).part k).loading = none from hloading] at hno
      exact Bool.false_ne_true hno
    · rw [show ((s.heard i).part k).clearAfter = false from hafter] at hno
      exact Bool.false_ne_true hno
    · exact absurd (hready.symm.trans hno) (by decide)
  have hsecure : ((s.heard i).conf k && (!(s.heard i).ideSecure ((s.heard i).owner k) || ((s.heard i).part k).signers.isEmpty)) = false := by
    rcases hconf with hplain | ⟨hide, hsigners⟩
    · rw [show (s.heard i).conf k = false from hplain, Bool.false_and]
    · rw [show (s.heard i).ideSecure ((s.heard i).owner k) = true from hide,
        show ((s.heard i).part k).signers.isEmpty = false from List.isEmpty_eq_false_iff.mpr hsigners]
      exact Bool.and_false _
  have hplace : ¬(addr % 4096 ≠ 0 ∨ !(s.heard i).inBounds k addr len ∨ (p ≠ 0 ∧ !(s.heard i).inBounds k p 8)) := by
    have hinside : (s.heard i).inBounds k addr len = true := hbounds
    rintro (hno | hno | ⟨hp, hno⟩)
    · exact hno haddr
    · rw [hinside] at hno
      exact absurd hno (by decide)
    · rw [show (s.heard i).inBounds k p 8 = true from htable.resolve_left hp] at hno
      exact absurd hno (by decide)
  rw [State.loadAsked, if_neg hloads, hsecure, if_neg Bool.false_ne_true, if_neg hplace, State.accepted_room (s := s.heard i) _ _ hroom] at hexec
  obtain ⟨hanswered, hzen, hleaves⟩ := (s.heard i).ticketed_spec i 0x10
  have hleaves := (Leaves.heard (P := (· ∈ mailboxRegs i)) (s := s) (i := i) .refl).trans hleaves
  generalize (s.heard i).ticketed i 0x10 = u at *
  have hcores : u.partCores k = s.partCores k := congrArg (maskList 4) (hleaves.fld (rZenPart_notMem_mailboxRegs hk) 47 44)
  have hpstate : u.pstate k = s.pstate k := hleaves.fld (rZenPart_notMem_mailboxRegs hk) 59 57
  obtain ⟨hload, hctx, hzen', hbegun⟩ := u.loadBegun_spec k ({ addr := addr, len := len, bases := b, ptable := p }, i, s.zen.nextTicket)
  have hmem : rZenPart k ∉ ctxRegs := fun hin => by
    obtain ⟨j, -, hj⟩ := List.mem_map.mp hin
    exact rSeqCtxStatus_ne_rZenPart hk j hj
  have hall := (hleaves.mono fun r hr => List.mem_append_right ctxRegs hr).trans (hbegun.mono fun r hr => List.mem_append_left (mailboxRegs i) hr)
  refine ⟨_, hexec, ⟨State.answered_of_leaves hanswered hbegun fun r hr => mailboxRegs_notMem_ctxRegs hr, ?_⟩, hload, ?_, ?_, hall.sameMem,
    hall.sameRegsBut⟩
  · exact congrArg Zen.tickets (hzen'.trans hzen)
  · exact ((hbegun.fld hmem 59 57).trans hpstate).trans hstate
  · exact hcores ▸ hctx

theorem imagesManaged_noLoad (s : State) (i k addr len p : Nat) (b : List Nat) (h : s.mailboxPart i k)
    (hno : s.pstate k ≠ 0 ∨ (s.part k).loading ≠ none ∨ (s.part k).clearAfter = true ∨ s.fld rPwrStatus 56 56 = 0) :
    ∃ t : State, exec (.load i k addr len b p) s = .next t ∧ t.answered i 0x20 ∧ t.parts = s.parts ∧ SameMem s t ∧ SameRegsBut (mailboxRegs i) s t := by
  have hexec := execLoad_mine addr len p b h
  have hrefused : (s.heard i).pstate k ≠ 0 ∨ ((s.heard i).part k).loading.isSome ∨ ((s.heard i).part k).clearAfter ∨
      (s.heard i).fld rPwrStatus 56 56 = 0 := hno.imp id fun hno => hno.imp Option.isSome_iff_ne_none.mpr id
  rw [State.loadAsked, if_pos hrefused] at hexec
  obtain ⟨t, hrun, hanswered, -, -, hparts, -, hmem, hregs⟩ := answered_of_served (l := []) hexec (by norm_num) (.heard .refl)
  exact ⟨t, hrun, hanswered, hparts, hmem, hregs⟩

/-! UNLOAD (R372, R529, R542, R601). -/

/-- UNLOAD for a partition of the interface's own. -/
def State.unloadAsked (i k : Nat) (s : State) : State :=
  if s.stepping k ∨ s.pstate k = 3 ∨ s.pstate k = 4 then s.mbAnswer i 0x11 0x20
  else if (s.part k).dumpState = 1 then s.modPart k fun p => { p with resetWait := true, waitAns := p.waitAns ++ [(i, 0x11)] }
  else if s.pstate k = 0 ∧ (s.part k).loading.isNone then s.mbAnswer i 0x11 resOk
  else if !s.conf k then (s.unloadPlain k).mbAnswer i 0x11 resOk
  else match s.maintConflict 7 k with
    | some c => (s.maintRefuse 7 k c).mbResult i 0x11 0x27 c 0 []
    | none => ((s.cancelQueue k).beginClearing k []).mbAnswer i 0x11 resOk

theorem execUnload_mine {s : State} {i k : Nat} (h : s.mailboxPart i k) : exec (.unload i k) s = .next ((s.heard i).unloadAsked i k) :=
  State.mailbox_part (code := 0x11) (State.unloadAsked i k) h

theorem imagesManaged_busy (s : State) (i k : Nat) (h : s.mailboxPart i k) (hbusy : s.stepping k = true ∨ s.pstate k = 3 ∨ s.pstate k = 4) :
    ∃ t : State, exec (.unload i k) s = .next t ∧ t.answered i 0x20 ∧ t.parts = s.parts ∧ SameMem s t ∧ SameRegsBut (mailboxRegs i) s t := by
  have hexec := execUnload_mine h
  rw [State.unloadAsked, if_pos (show (s.heard i).stepping k = true ∨ (s.heard i).pstate k = 3 ∨ (s.heard i).pstate k = 4 from hbusy)] at hexec
  obtain ⟨t, hrun, hanswered, -, -, hparts, -, hmem, hregs⟩ := answered_of_served (l := []) hexec (by norm_num) (.heard .refl)
  exact ⟨t, hrun, hanswered, hparts, hmem, hregs⟩

/-- UNLOAD of a partition that takes it. -/
theorem State.unloadAsked_free {s : State} {i k : Nat} (hstep : s.stepping k = false) (h3 : s.pstate k ≠ 3) (h4 : s.pstate k ≠ 4)
    (hdump : (s.part k).dumpState ≠ 1) : s.unloadAsked i k = if s.pstate k = 0 ∧ (s.part k).loading.isNone then s.mbAnswer i 0x11 resOk
      else if !s.conf k then (s.unloadPlain k).mbAnswer i 0x11 resOk
      else match s.maintConflict 7 k with
        | some c => (s.maintRefuse 7 k c).mbResult i 0x11 0x27 c 0 []
        | none => ((s.cancelQueue k).beginClearing k []).mbAnswer i 0x11 resOk :=
  (if_neg (by rw [hstep]; rintro (hno | hno | hno) <;> contradiction)).trans (if_neg hdump)

theorem imagesManaged_nothing (s : State) (i k : Nat) (h : s.mailboxPart i k) (hstep : s.stepping k = false) (hstate : s.pstate k = 0)
    (hdump : (s.part k).dumpState ≠ 1) (hloading : (s.part k).loading = none) :
    ∃ t : State, exec (.unload i k) s = .next t ∧ t.answered i 0 ∧ t.parts = s.parts ∧ SameMem s t ∧ SameRegsBut (mailboxRegs i) s t := by
  have hexec := execUnload_mine h
  have hidle : (s.heard i).pstate k = 0 ∧ ((s.heard i).part k).loading.isNone := ⟨hstate, Option.isNone_iff_eq_none.mpr hloading⟩
  rw [State.unloadAsked_free (s := s.heard i) hstep (hidle.1 ▸ by decide) (hidle.1 ▸ by decide) hdump, if_pos hidle] at hexec
  obtain ⟨t, hrun, hanswered, -, -, hparts, -, hmem, hregs⟩ := answered_of_served (l := []) hexec (by decide) (.heard .refl)
  exact ⟨t, hrun, hanswered, hparts, hmem, hregs⟩

/-- A completion record leaves the step queue, the load under way and what a partition runs. -/
theorem State.writeRecord_keeps {β : Type} (g : State → β) (hg : ∀ (s : State) r h o, g { s with regs := r, hosts := h, outbox := o } = g s) (s : State)
    (k : Nat) (r : List Nat) (vector : Bool) : g (s.writeRecord k r vector) = g s := by
  have hmsix : ∀ (u : State) (h v : Nat), g (u.msix h v) = g u := fun u h v => by
    unfold State.msix
    split
    · rfl
    · split
      · exact hg u u.regs _ u.outbox
      · split
        · exact hg u u.regs _ u.outbox
        · exact hg u u.regs u.hosts _
  have hput : ∀ (o : Output) (v : Nat), g ((s.out o).setFld (rHifCqStatus k) 63 32 v) = g s := fun o v => hg s _ s.hosts _
  unfold State.writeRecord
  dsimp only
  split
  · exact (hmsix _ _ _).trans (hput _ _)
  · exact hput _ _

theorem State.putRecord_spec (s : State) (k status seqno step token count : Nat) (v : Bool) :
    ((s.putRecord k 4 status seqno step token count v).part k).queue = (s.part k).queue ∧
    ((s.putRecord k 4 status seqno step token count v).part k).loading = (s.part k).loading := by
  have hwrite : ∀ r, (s.writeRecord k r v).part k = s.part k := fun r => s.writeRecord_keeps (State.part · k) (fun _ _ _ _ => rfl) k r v
  have hevent : ((s.setFld (rHifCqStatus k) 23 23 1).eventCore k 0x0507 0 0).part k = s.part k := State.raise_keeps (State.part · k) (fun _ _ _ _ _ => rfl) _ _
  unfold State.putRecord
  dsimp only
  generalize recordBytes 4 status seqno step token count s.beat = r
  split
  · rw [hwrite]
    exact ⟨rfl, rfl⟩
  · split
    · rw [State.part_setFld, State.part_modPart_same]
      exact ⟨rfl, rfl⟩
    · rw [if_neg (show ¬(4 : Nat) = 6 by decide)]
      split
      · exact ⟨rfl, rfl⟩
      · rw [hevent]
        exact ⟨rfl, rfl⟩

theorem Leaves.putRecord {P : Nat → Prop} {s t : State} {k kind status seqno step token count : Nat} {v : Bool} (h : Leaves P s t)
    (hP : ∀ r, r = rHifCqStatus k ∨ r ∈ eventRegs → P r) : Leaves P s (t.putRecord k kind status seqno step token count v) :=
  h.next (.putRecord t k kind status seqno step token count v) hP

/-- The registers that the cancelling of a step queue writes. -/
def cancelReg (k r : Nat) : Prop := r = rHifCrStatus k ∨ r = rHifCqStatus k ∨ r ∈ eventRegs

theorem Leaves.recordOf {P : Nat → Prop} {s t : State} {k kind status : Nat} {e : RingEntry} {step : Option Nat} {v : Bool} (h : Leaves P s t)
    (hP : ∀ r, cancelReg k r → P r) : Leaves P s (t.recordOf k kind status e step v) := by
  unfold State.recordOf
  cases step with
  | some n => exact .putRecord (h.draw (w := 32)) fun r hr => hP r (.inr hr)
  | none => exact .putRecord (Leaves.draw (w := 64) (h.draw (w := 32))) fun r hr => hP r (.inr hr)

theorem Leaves.serveQueue {P : Nat → Prop} {s : State} {k : Nat} (hP : ∀ r, cancelReg k r → P r) (n : Nat) :
    ∀ t, Leaves P s t → Leaves P s (State.serveQueue k n t) := by
  have hcr : P (rHifCrStatus k) := hP _ (.inl rfl)
  induction n with
  | zero => exact fun _ h => h
  | succ n ih =>
    intro t h
    unfold State.serveQueue
    split
    · exact h
    · exact .ite (.ite (ih _ (.recordOf (h.setQueue hcr) hP)) (.ite (ih _ (.recordOf (h.setQueue hcr) hP)) h))
        (.ite h (ih _ (.ite (.recordOf (h.setQueue hcr) hP) (h.setQueue hcr))))

theorem Leaves.cancelQueue {P : Nat → Prop} {s t : State} {k : Nat} (h : Leaves P s t) (hP : ∀ r, cancelReg k r → P r) : Leaves P s (t.cancelQueue k) :=
  .serveQueue hP 17 _ ((h.setQueue (hP _ (.inl rfl))).putRecord fun r hr => hP r (.inr hr))

/-- A step queue without entries stays so, and the load under way as well. -/
theorem State.cancelQueue_empty {s : State} {k : Nat} (h : (s.part k).queue = []) : ((s.cancelQueue k).part k).loading = (s.part k).loading := by
  unfold State.cancelQueue
  rw [h]
  obtain ⟨hqueue, hloading⟩ := (s.setQueue k (cancelled [])).putRecord_spec k 0x33 ((([] : List QEntry).head?.getD {}).entry.seqno) (firstUnstarted [])
    ((([] : List QEntry).head?.getD {}).entry.token) (unstarted []) true
  dsimp only
  rw [State.serveQueue_of_nil, hloading]
  · rw [State.part_setQueue]
  · rw [hqueue, State.part_setQueue]
    rfl

/-- What a partition's unloading leaves: no image, no load, cores as after reset (R372). -/
theorem State.dropRun_cores (s : State) (k : Nat) : (s.dropRun k).cores = s.cores.filter fun e => !(s.partCores k).contains e.1 := rfl

theorem SMap.get_filter_of_not {α : Type} [Inhabited α] (m : SMap α) (p : Nat → Bool) (j : Nat) (h : p j = false) :
    SMap.get (m.filter fun e => p e.1) j = default := by
  induction m with
  | nil => rfl
  | cons e r ih =>
    by_cases he : p e.1 = true
    · have hne : e.1 ≠ j := fun heq => by rw [heq, h] at he; exact Bool.false_ne_true he
      rw [List.filter_cons_of_pos (p := fun e : Nat × α => p e.1) he]
      exact (if_neg hne).trans ih
    · rw [List.filter_cons_of_neg (p := fun e : Nat × α => p e.1) he, ih]

/-- The contexts of a partition's cores unloaded. -/
def State.ctxCleared (s : State) (l : List Nat) : State :=
  l.foldl (fun s j => (s.setFld (rSeqCtxStatus j) 1 0 0).setFld (rSeqCtxStatus j) 15 8 0) s

theorem State.toUnloaded_idle {s : State} {k : Nat} (h : (s.part k).loading = none) :
    s.toUnloaded k = (((s.dropRun k).ctxCleared (s.partCores k)).setPstate k 0) := by
  unfold State.toUnloaded
  rw [h]
  rfl

theorem State.ctxCleared_spec (s : State) {l : List Nat} (hl : l.Nodup) : (s.ctxCleared l).parts = s.parts ∧ (s.ctxCleared l).cores = s.cores ∧
    ∀ j ∈ l, (s.ctxCleared l).fld (rSeqCtxStatus j) 1 0 = 0 := by
  unfold State.ctxCleared
  refine ⟨foldl_keeps (f := fun (s : State) (j : Nat) => (s.setFld (rSeqCtxStatus j) 1 0 0).setFld (rSeqCtxStatus j) 15 8 0) State.parts (fun _ _ => rfl) _ s,
    foldl_keeps (f := fun (s : State) (j : Nat) => (s.setFld (rSeqCtxStatus j) 1 0 0).setFld (rSeqCtxStatus j) 15 8 0) State.cores (fun _ _ => rfl) _ s,
    fun j hj => ?_⟩
  refine foldl_once (f := fun (s : State) (j : Nat) => (s.setFld (rSeqCtxStatus j) 1 0 0).setFld (rSeqCtxStatus j) 15 8 0)
    (fun t => t.fld (rSeqCtxStatus j) 1 0) (fun _ => 0) (fun _ => True) (fun t _ => ?_) (fun t n hn => ?_) (fun _ _ _ => trivial) hl hj trivial
  · rw [State.fld_setFld_disjoint _ _ _ _ _ _ _ (by omega) (by omega) (by omega) (by omega), State.fld_setFld_same _ _ _ _ _ (by omega) (by omega)]
    rfl
  · rw [State.fld_setFld_ne _ _ _ _ _ _ (rSeqCtxStatus_ne hn.symm), State.fld_setFld_ne _ _ _ _ _ _ (rSeqCtxStatus_ne hn.symm)]

theorem State.toUnloaded_spec {s : State} {k : Nat} (hk : k < 4) (h : (s.part k).loading = none) : (s.toUnloaded k).pstate k = 0 ∧
    ((s.toUnloaded k).part k).image = none ∧ ∀ j ∈ s.partCores k, (s.toUnloaded k).core j = {} ∧ (s.toUnloaded k).fld (rSeqCtxStatus j) 1 0 = 0 := by
  rw [State.toUnloaded_idle h]
  obtain ⟨hparts, hcores, hctx⟩ := (s.dropRun k).ctxCleared_spec (s.nodup_partCores k)
  refine ⟨State.pstate_setPstate _ k (by omega), ?_, fun j hj => ⟨?_, ?_⟩⟩
  · rw [State.setPstate, State.part_setFld, State.part, hparts, (s.dropRun_spec k).1, ← State.part, State.part_modPart_same]
    rfl
  · have hin : (!(s.partCores k).contains j) = false := by simp [hj]
    rw [State.setPstate, State.core_setFld, State.core, hcores, State.dropRun_cores]
    exact SMap.get_filter_of_not _ (fun x => !(s.partCores k).contains x) j hin
  · rw [State.setPstate, State.fld_setFld_ne _ _ _ _ _ _ (rSeqCtxStatus_ne_rZenPart hk j)]
    exact hctx j hj

/-- A partition that is not confidential unloaded (R372, R601). -/
theorem State.unloadPlain_spec {s : State} {k : Nat} (hk : k < 4) (hqueue : (s.part k).queue = []) (hloading : (s.part k).loading = none) :
    (s.unloadPlain k).pstate k = 0 ∧ ((s.unloadPlain k).part k).image = none ∧
    (∀ j ∈ s.partCores k, (s.unloadPlain k).core j = {} ∧ (s.unloadPlain k).fld (rSeqCtxStatus j) 1 0 = 0) ∧
    Leaves (fun r => cancelReg k r ∨ unloadReg k r) s (s.unloadPlain k) := by
  have hcancel : Leaves (cancelReg k) s (s.cancelQueue k) := .cancelQueue .refl fun _ h => h
  have hload := (State.cancelQueue_empty hqueue).trans hloading
  unfold State.unloadPlain
  dsimp only
  generalize s.cancelQueue k = u at *
  have hzen : ¬cancelReg k (rZenPart k) := by
    rintro (hr | hr | hr)
    · exact rZenPart_ne_rHifCrStatus hk k hr
    · unfold rZenPart rHifCqStatus at hr
      omega
    · exact rZenPart_notMem_eventRegs hk hr
  have hcores : u.partCores k = s.partCores k := congrArg (maskList 4) (hcancel.fld hzen 47 44)
  obtain ⟨hstate, himage, hcore⟩ := State.toUnloaded_spec hk hload
  have hleaves : Leaves (unloadReg k) u (u.toUnloaded k) := .toUnloaded .refl fun _ h => h
  rw [hcores] at hcore
  generalize u.toUnloaded k = v at *
  refine ⟨hstate, ?_, hcore, .modPart ((hcancel.mono fun _ h => .inl h).trans (hleaves.mono fun _ h => .inr h))⟩
  rw [State.part_modPart_same]
  exact himage

theorem imagesManaged_plain (s : State) (i k : Nat) (h : s.mailboxPart i k) (hstep : s.stepping k = false) (hstate : s.pstate k = 1)
    (hdump : (s.part k).dumpState ≠ 1) (hloading : (s.part k).loading = none) (hqueue : (s.part k).queue = []) (hconf : s.conf k = false) :
    ∃ t : State, exec (.unload i k) s = .next t ∧ t.answered i 0 ∧ t.pstate k = 0 ∧ (t.part k).image = none ∧
      (∀ j ∈ s.partCores k, t.core j = {} ∧ t.fld (rSeqCtxStatus j) 1 0 = 0) ∧ SameMem s t ∧
      SameRegsBut ([rHifCrStatus k, rHifCqStatus k, rZenPart k] ++ (ctxRegs ++ (mailboxRegs i ++ eventRegs))) s t := by
  have hk : k < 4 := h.2.1
  have hexec := execUnload_mine h
  have hstate' : (s.heard i).pstate k = 1 := hstate
  have hconf' : (!(s.heard i).conf k) = true := by rw [show (s.heard i).conf k = false from hconf]; rfl
  rw [State.unloadAsked_free (s := s.heard i) hstep (hstate' ▸ by decide) (hstate' ▸ by decide) hdump,
    if_neg (fun hno => absurd (hstate'.symm.trans hno.1) (by decide)), if_pos hconf'] at hexec
  obtain ⟨hun, himage, hcores, hleaves⟩ := State.unloadPlain_spec (s := s.heard i) hk hqueue hloading
  have hleaves := (Leaves.heard (P := fun r => cancelReg k r ∨ unloadReg k r) (s := s) (i := i) .refl).trans hleaves
  generalize (s.heard i).unloadPlain k = u at *
  obtain ⟨hanswered, hans⟩ := u.mbAnswer_spec i 0x11 (result := resOk) (by decide)
  have hparts := u.mbAnswer_keeps State.parts (fun _ _ _ _ _ => rfl) i 0x11 resOk
  have hcs := u.mbAnswer_keeps State.cores (fun _ _ _ _ _ => rfl) i 0x11 resOk
  have hall : Leaves (· ∈ [rHifCrStatus k, rHifCqStatus k, rZenPart k] ++ (ctxRegs ++ (mailboxRegs i ++ eventRegs))) s (u.mbAnswer i 0x11 resOk) := by
    refine (hleaves.mono fun r hr => ?_).trans (hans.mono fun r hr => by simp [hr])
    simp only [List.mem_append]
    rcases hr with (rfl | rfl | hr) | (rfl | ⟨j, hj, rfl⟩ | rfl)
    · exact .inl (by simp)
    · exact .inl (by simp)
    · exact .inr (.inr (.inr hr))
    · exact .inr (.inr (.inl (mem_mailboxRegs (.inr (.inr (.inr rfl))))))
    · exact .inr (.inl (rSeqCtxStatus_mem_ctxRegs hj))
    · exact .inl (by simp)
  refine ⟨_, hexec, hanswered, (hans.fld (rZenPart_notMem_mailboxRegs hk) 59 57).trans hun, ?_, fun j hj => ⟨?_, ?_⟩, hall.sameMem, hall.sameRegsBut⟩
  · rw [State.part, hparts]
    exact himage
  · rw [State.core, hcs]
    exact (hcores j hj).1
  · rw [hans.fld rSeqCtxStatus_notMem_mailboxRegs]
    exact (hcores j hj).2

/-- A partition whose Clearing begins has no image, and is in its first step (R542). -/
theorem State.part_beginClearing (s : State) (k : Nat) (ts : List (Nat × Nat × Nat)) :
    ((s.beginClearing k ts).part k).clearStep = 1 ∧ ((s.beginClearing k ts).part k).image = none := by
  have hdropped : ∀ v : State, ((v.dropRun k).part k).image = none := fun v => by
    rw [State.part, (v.dropRun_spec k).1, ← State.part, State.part_modPart_same]
    rfl
  have himage : ∀ u : State, ((u.toUnloaded k).part k).image = none := fun u => by
    unfold State.toUnloaded
    dsimp only
    rw [State.setPstate, State.part_setFld, foldl_keeps
      (f := fun (s : State) (j : Nat) => (s.setFld (rSeqCtxStatus j) 1 0 0).setFld (rSeqCtxStatus j) 15 8 0) (State.part · k) (fun _ _ => rfl)]
    exact hdropped _
  unfold State.beginClearing
  dsimp only
  have h := himage (s.maintGrant 7 k)
  generalize (s.maintGrant 7 k).toUnloaded k = u at *
  rw [State.part_laterW, State.showPstat_keeps (State.part · k) fun _ _ => rfl, State.part_modPart_same]
  exact ⟨rfl, h⟩

theorem imagesManaged_confidential (s : State) (i k : Nat) (h : s.mailboxPart i k) (hstep : s.stepping k = false) (hstate : s.pstate k = 1)
    (hdump : (s.part k).dumpState ≠ 1) (hconf : s.conf k = true) (hmaint : s.maintConflict 7 k = none) :
    ∃ t : State, exec (.unload i k) s = .next t ∧ t.answered i 0 ∧ t.pstate k = 3 ∧ (t.part k).clearStep = 1 ∧ (t.part k).image = none ∧
      SameMem s t := by
  have hk : k < 4 := h.2.1
  have hexec := execUnload_mine h
  have hstate' : (s.heard i).pstate k = 1 := hstate
  have hconf' : (!(s.heard i).conf k) = false := by rw [show (s.heard i).conf k = true from hconf]; rfl
  have hmaint' : (s.heard i).maintConflict 7 k = none := hmaint
  rw [State.unloadAsked_free (s := s.heard i) hstep (hstate' ▸ by decide) (hstate' ▸ by decide) hdump,
    if_neg (fun hno => absurd (hstate'.symm.trans hno.1) (by decide)), hconf', if_neg Bool.false_ne_true, hmaint'] at hexec
  dsimp only at hexec
  have hcancel : Leaves (fun _ => True) s ((s.heard i).cancelQueue k) := .cancelQueue (.heard .refl) fun _ _ => trivial
  generalize (s.heard i).cancelQueue k = u at *
  have hclear := u.pstate_beginClearing k []
  obtain ⟨hstep1, himage⟩ := u.part_beginClearing k []
  have hleaves : Leaves (fun _ => True) s (u.beginClearing k []) := hcancel.beginClearing fun _ _ => trivial
  generalize u.beginClearing k [] = v at *
  obtain ⟨hanswered, hans⟩ := v.mbAnswer_spec i 0x11 (result := resOk) (by decide)
  have hparts : (v.mbAnswer i 0x11 resOk).part k = v.part k := v.mbAnswer_keeps (State.part · k) (fun _ _ _ _ _ => rfl) i 0x11 resOk
  exact ⟨_, hexec, hanswered, (hans.fld (rZenPart_notMem_mailboxRegs hk) 59 57).trans hclear, hparts ▸ hstep1, hparts ▸ himage,
    (hleaves.trans (hans.mono fun _ _ => trivial)).sameMem⟩

/-! RECOVERY_TABLE (R484). -/

/-- A write of whole lines has no end held (R480). -/
theorem State.heldEnds_lines (s : State) (l : Nat) {n : Nat} (hn : 0 < n) : s.heldEnds (l * 256) (n * 256) = (0, 0) := by
  have hlo : ceilDiv (l * 256) 256 = l := by
    unfold ceilDiv
    omega
  have hhi : (l * 256 + n * 256) / 256 = l + n := by omega
  have hfirst : l * 256 / 256 = l := Nat.mul_div_cancel l (by omega)
  have hlast : ¬(l + n) * 256 < l * 256 + n * 256 := by omega
  simp [State.heldEnds, hlo, hhi, hfirst, hlast, s.keepsBad_of_covered (Nat.le_refl l) (show l < l + n by omega)]

/-- RECOVERY_TABLE for a core of a partition of the interface's own. -/
def State.tableAsked (i core addr n : Nat) (s : State) : State :=
  if s.pstate (s.lowest core) = 3 ∨ s.pstate (s.lowest core) = 4 then s.mbAnswer i 0x12 0x21
  else if 512 < n ∨ !s.inBounds (s.lowest core) addr (32 * n) then s.mbAnswer i 0x12 6
  else if !((chunksOf 32 (s.hbmRead addr (32 * n)).length (s.hbmRead addr (32 * n))).all fun e => s.recoveryOk core e) then s.mbAnswer i 0x12 0x26
  else (s.hbmWrite (recoveryBase core)
    (s.hbmRead addr (32 * n) ++ List.replicate (16384 - (s.hbmRead addr (32 * n)).length) 0)).mbAnswer i 0x12 resOk

theorem execRecoveryTable_mine {s : State} {i k core : Nat} (addr : Nat) {n : Nat} (h : s.mailboxPart i k) (hcore : core < 4) (hpart : s.partOf core = some k)
    (h3 : s.pstate k ≠ 3) (h4 : s.pstate k ≠ 4) (hn : n ≤ 512) (hbounds : s.inBounds k addr (32 * n) = true) :
    exec (.recoveryTable i core addr n) s = .next (
      if !((chunksOf 32 (s.hbmRead addr (32 * n)).length (s.hbmRead addr (32 * n))).all fun e => s.recoveryOk core e) then
        (s.heard i).mbAnswer i 0x12 0x26
      else ((s.heard i).hbmWrite (recoveryBase core)
        (s.hbmRead addr (32 * n) ++ List.replicate (16384 - (s.hbmRead addr (32 * n)).length) 0)).mbAnswer i 0x12 resOk) := by
  have hlow : (s.heard i).lowest core = k := by
    show (s.partOf core).getD core = k
    rw [hpart]
    rfl
  have hwhich : (if core < 4 then ((s.heard i).partOf core).getD 4 else 4) = k := by
    rw [if_pos hcore, show (s.heard i).partOf core = s.partOf core from rfl, hpart]
    rfl
  have hexec : exec (.recoveryTable i core addr n) s = .next ((s.heard i).tableAsked i core addr n) := by
    refine (State.mailbox_open (code := 0x12)
      (fun s : State => s.onPart i 0x12 (if core < 4 then (s.partOf core).getD 4 else 4) (State.tableAsked i core addr n)) h.1).trans ?_
    rw [hwhich]
    exact (State.mailbox_open (code := 0x12) (fun s : State => s.onPart i 0x12 k (State.tableAsked i core addr n)) h.1).symm.trans
      (State.mailbox_part (State.tableAsked i core addr n) h)
  have hlive : ¬((s.heard i).pstate k = 3 ∨ (s.heard i).pstate k = 4) := not_or.mpr ⟨h3, h4⟩
  have hfits : ¬(512 < n ∨ !(s.heard i).inBounds k addr (32 * n)) := by
    rw [show (s.heard i).inBounds k addr (32 * n) = true from hbounds]
    rintro (hno | hno)
    · omega
    · exact absurd hno (by decide)
  rw [hexec, State.tableAsked, hlow, if_neg hlive, if_neg hfits]
  rfl

theorem imagesManaged_table (s : State) (i k core addr n : Nat) (h : s.mailboxPart i k) (hcore : core < 4) (hpart : s.partOf core = some k)
    (h3 : s.pstate k ≠ 3) (h4 : s.pstate k ≠ 4) (hn : n ≤ 512) (hbounds : s.inBounds k addr (32 * n) = true)
    (hok : (chunksOf 32 (s.hbmRead addr (32 * n)).length (s.hbmRead addr (32 * n))).all (fun e => s.recoveryOk core e) = true) :
    ∃ t : State, exec (.recoveryTable i core addr n) s = .next t ∧ t.answered i 0 ∧
      t.hbm = memWrite s.hbm (recoveryBase core) (s.hbmRead addr (32 * n) ++ List.replicate (16384 - (s.hbmRead addr (32 * n)).length) 0) ∧
      t.store = s.store ∧ t.lstore = s.lstore ∧ t.mbuf = s.mbuf ∧ SameRegsBut (mailboxRegs i) s t := by
  have hexec := execRecoveryTable_mine addr h hcore hpart h3 h4 hn hbounds
  rw [hok, if_neg (by decide)] at hexec
  have hlen : (s.hbmRead addr (32 * n) ++ List.replicate (16384 - (s.hbmRead addr (32 * n)).length) 0).length = 64 * 256 := by
    have hread : (s.hbmRead addr (32 * n)).length = 32 * n := length_memRead ..
    rw [List.length_append, List.length_replicate, hread]
    omega
  generalize s.hbmRead addr (32 * n) ++ List.replicate (16384 - (s.hbmRead addr (32 * n)).length) 0 = bs at *
  have hbase : recoveryBase core = (recoveryBase core / 256) * 256 := by
    unfold recoveryBase
    omega
  have hbytes : ((s.heard i).hbmWrite (recoveryBase core) bs).hbm = memWrite s.hbm (recoveryBase core) bs :=
    State.hbm_hbmWrite (by rw [hlen, hbase]; exact State.heldEnds_lines _ _ (by omega))
  have hkept : ((s.heard i).hbmWrite (recoveryBase core) bs).store = s.store ∧ ((s.heard i).hbmWrite (recoveryBase core) bs).lstore = s.lstore ∧
    ((s.heard i).hbmWrite (recoveryBase core) bs).mbuf = s.mbuf ∧ ((s.heard i).hbmWrite (recoveryBase core) bs).reg = s.reg := ⟨rfl, rfl, rfl, rfl⟩
  generalize (s.heard i).hbmWrite (recoveryBase core) bs = u at *
  obtain ⟨hanswered, hans⟩ := u.mbAnswer_spec i 0x12 (result := resOk) (by decide)
  obtain ⟨hstore, hlstore, hmbuf, hreg⟩ := hkept
  exact ⟨_, hexec, hanswered, hans.hbm.trans hbytes, hans.store.trans hstore, hans.lstore.trans hlstore, hans.mbuf.trans hmbuf,
    fun r hr => (hans.reg r hr).trans (congrFun hreg r)⟩

theorem imagesManaged_badTable (s : State) (i k core addr n : Nat) (h : s.mailboxPart i k) (hcore : core < 4) (hpart : s.partOf core = some k)
    (h3 : s.pstate k ≠ 3) (h4 : s.pstate k ≠ 4) (hn : n ≤ 512) (hbounds : s.inBounds k addr (32 * n) = true)
    (hbad : (chunksOf 32 (s.hbmRead addr (32 * n)).length (s.hbmRead addr (32 * n))).all (fun e => s.recoveryOk core e) = false) :
    ∃ t : State, exec (.recoveryTable i core addr n) s = .next t ∧ t.answered i 0x26 ∧ SameMem s t ∧ SameRegsBut (mailboxRegs i) s t := by
  have hexec := execRecoveryTable_mine addr h hcore hpart h3 h4 hn hbounds
  rw [hbad, if_pos (show (!false) = true from rfl)] at hexec
  obtain ⟨t, hrun, hanswered, -, -, -, -, hmem, hregs⟩ := answered_of_served (l := []) hexec (by norm_num) (.heard .refl)
  exact ⟨t, hrun, hanswered, hmem, hregs⟩

/-! SIGNER_SET (R528). -/

/-- SIGNER_SET for a partition of the interface's own. -/
def State.signersAsked (i k : Nat) (keys : List (List Nat)) (s : State) : State :=
  if 4 < keys.length ∨ !(keys.all fun h => h.length == 64) then s.mbAnswer i 0x13 6
  else (s.modPart k fun p => { p with signers := keys.filter fun h => !(h.all (· == 0)) }).mbAnswer i 0x13 resOk

theorem execSignerSet_mine {s : State} {i k : Nat} (keys : List (List Nat)) (h : s.mailboxPart i k) :
    exec (.signerSet i k keys) s = .next ((s.heard i).signersAsked i k keys) := State.mailbox_part (code := 0x13) (State.signersAsked i k keys) h

theorem imagesManaged_signers (s : State) (i k : Nat) (keys : List (List Nat)) (h : s.mailboxPart i k) (hlen : keys.length ≤ 4)
    (hall : keys.all (fun h => h.length == 64) = true) :
    ∃ t : State, exec (.signerSet i k keys) s = .next t ∧ t.answered i 0 ∧ (t.part k).signers = keys.filter (fun h => !(h.all (· == 0))) ∧
      SameMem s t ∧ SameRegsBut (mailboxRegs i) s t := by
  have hexec := execSignerSet_mine keys h
  have hno : ¬(4 < keys.length ∨ (!true) = true) := by
    rw [Bool.not_true, or_iff_left Bool.false_ne_true]
    omega
  rw [State.signersAsked, hall, if_neg hno] at hexec
  obtain ⟨t, hrun, hanswered, -, -, hparts, -, hmem, hregs⟩ := answered_of_served (l := []) hexec (by decide) (.modPart (.heard .refl))
  refine ⟨t, hrun, hanswered, ?_, hmem, hregs⟩
  rw [State.part, hparts, ← State.part, State.part_modPart_same]

theorem imagesManaged_badSigners (s : State) (i k : Nat) (keys : List (List Nat)) (h : s.mailboxPart i k)
    (hbad : 4 < keys.length ∨ keys.all (fun h => h.length == 64) = false) :
    ∃ t : State, exec (.signerSet i k keys) s = .next t ∧ t.answered i 6 ∧ t.parts = s.parts ∧ SameMem s t ∧ SameRegsBut (mailboxRegs i) s t := by
  have hexec := execSignerSet_mine keys h
  rw [State.signersAsked, if_pos (hbad.imp id fun hno => by rw [hno]; rfl)] at hexec
  obtain ⟨t, hrun, hanswered, -, -, hparts, -, hmem, hregs⟩ := answered_of_served (l := []) hexec (by decide) (.heard .refl)
  exact ⟨t, hrun, hanswered, hparts, hmem, hregs⟩

/-- Settles O45: LOAD, UNLOAD, RECOVERY_TABLE, and SIGNER_SET. -/
theorem imagesManaged : Obligations.ImagesManaged :=
  ⟨fun s i k addr len p b h => ⟨imagesManaged_load s i k addr len p b h, imagesManaged_noLoad s i k addr len p b h⟩,
    fun s i k h => ⟨imagesManaged_busy s i k h, imagesManaged_nothing s i k h, imagesManaged_plain s i k h, imagesManaged_confidential s i k h⟩,
    fun s i k core addr n h hcore hpart h3 h4 hn hbounds =>
      ⟨imagesManaged_table s i k core addr n h hcore hpart h3 h4 hn hbounds, imagesManaged_badTable s i k core addr n h hcore hpart h3 h4 hn hbounds⟩,
    fun s i k keys h => ⟨imagesManaged_signers s i k keys h, imagesManaged_badSigners s i k keys h⟩⟩

end Sys2Proof.Machine
end

section
/-! PROOF. EXPORT and the exports' engine (R483, R538). -/
namespace Sys2Proof.Machine

/-! What an answer tells an interface. -/

/-- At most one message went out, and the exports that wait are as before. -/
structure Told (s t : State) : Prop where
  exports : ∀ h, (t.host h).exports = (s.host h).exports
  outbox : ∃ m : List Output, m.length ≤ 1 ∧ t.outbox = s.outbox ++ m

namespace Told
variable {s t : State}

theorem of_eq (hhosts : t.hosts = s.hosts) (hout : t.outbox = s.outbox) : Told s t :=
  ⟨fun h => by rw [State.host, State.host, hhosts], [], Nat.zero_le 1, by rw [hout, List.append_nil]⟩

theorem out (s : State) (o : Output) : Told s (s.out o) := ⟨fun _ => rfl, [o], Nat.le_refl 1, rfl⟩

theorem modHost (s : State) (h : Nat) {f : HostPort → HostPort} (hf : ∀ x, (f x).exports = x.exports) : Told s (s.modHost h f) := by
  refine ⟨fun j => ?_, [], Nat.zero_le 1, (List.append_nil _).symm⟩
  by_cases hj : j = h
  · subst hj
    rw [State.host_modHost_same]
    exact hf _
  · rw [State.host_modHost_ne s f hj]

theorem msix (s : State) (h v : Nat) : Told s (s.msix h v) := by
  unfold State.msix
  split
  · exact of_eq rfl rfl
  · split
    · exact modHost s h fun _ => rfl
    · split
      · exact modHost s h fun _ => rfl
      · exact out s _

theorem resultTold (s : State) (i : Nat) (m : List Nat) : Told s (s.resultTold i m) := by
  unfold State.resultTold
  split
  · exact msix s i 0
  · exact out s _

theorem after {u : State} (hhosts : t.hosts = s.hosts) (hout : t.outbox = s.outbox) (h : Told t u) : Told s u :=
  ⟨fun j => (h.exports j).trans (by rw [State.host, State.host, hhosts]), h.outbox.imp fun _ hm => ⟨hm.1, hm.2.trans (by rw [hout])⟩⟩

theorem mbFinish (s : State) (i n result detail : Nat) : Told s (s.mbFinish i n result detail) := by
  unfold State.mbFinish
  split
  · exact of_eq rfl rfl
  · refine after ?_ ?_ (resultTold _ i _)
    · split <;> rfl
    · split <;> rfl

theorem mbResult (s : State) (i code result detail ticket : Nat) (resp : List Nat) : Told s (s.mbResult i code result detail ticket resp) := by
  rw [State.mbResult_eq]
  refine after ?_ ?_ (resultTold _ i _)
  · rw [State.approvedShown_keeps State.hosts fun _ _ => rfl]
    rfl
  · rw [State.approvedShown_keeps State.outbox fun _ _ => rfl]
    rfl

end Told

/-! EXPORT (R538). -/

/-- A range to be sent joins its port's engine. -/
def State.exportQueued (s : State) (j : ExportJob) : State := s.modHost (s.owner j.part) fun x => { x with exports := x.exports ++ [j] }

/-- EXPORT for a partition of the interface's own. -/
def State.exportAsked (i k addr len data rec_ : Nat) (s : State) : State :=
  if s.pstate k = 3 ∨ s.pstate k = 4 then s.mbAnswer i 0x14 0x21
  else if addr % 256 ≠ 0 ∨ len % 256 ≠ 0 ∨ len = 0 ∨ 2 ^ 32 < len then s.mbAnswer i 0x14 6
  else if !s.inBounds k addr len then s.mbAnswer i 0x14 0x25
  else if s.conf k && (!s.ideSecure (s.owner k) || (s.resultKeyOf k).isNone) then s.mbAnswer i 0x14 0x23
  else s.accepted i 0x14 fun s t => s.exportQueued
    { iface := i, ticket := t, part := k, addr := addr, len := len, data := data, rec_ := rec_, step := (s.part k).stepNo }

theorem execExport_mine {s : State} {i k : Nat} (addr len data r : Nat) (h : s.mailboxPart i k) :
    exec (.export_ i k addr len data r) s = .next ((s.heard i).exportAsked i k addr len data r) :=
  State.mailbox_part (code := 0x14) (State.exportAsked i k addr len data r) h

theorem State.exportAsked_live {s : State} {i k : Nat} (addr len data r : Nat) (h3 : s.pstate k ≠ 3) (h4 : s.pstate k ≠ 4) :
    s.exportAsked i k addr len data r = if addr % 256 ≠ 0 ∨ len % 256 ≠ 0 ∨ len = 0 ∨ 2 ^ 32 < len then s.mbAnswer i 0x14 6
      else if !s.inBounds k addr len then s.mbAnswer i 0x14 0x25
      else if s.conf k && (!s.ideSecure (s.owner k) || (s.resultKeyOf k).isNone) then s.mbAnswer i 0x14 0x23
      else s.accepted i 0x14 fun s t => s.exportQueued
        { iface := i, ticket := t, part := k, addr := addr, len := len, data := data, rec_ := r, step := (s.part k).stepNo } :=
  if_neg (not_or.mpr ⟨h3, h4⟩)

theorem exportsRun_accepted (s : State) (i k addr len data r : Nat) (h : s.mailboxPart i k) (h3 : s.pstate k ≠ 3) (h4 : s.pstate k ≠ 4)
    (haddr : addr % 256 = 0) (hlines : len % 256 = 0) (hsome : len ≠ 0) (hlen : len ≤ 2 ^ 32) (hbounds : s.inBounds k addr len = true)
    (hconf : s.conf k = false ∨ (s.ideSecure (s.owner k) = true ∧ s.resultKeyOf k ≠ none)) (hroom : s.ticketRoom i) :
    ∃ t : State, exec (.export_ i k addr len data r) s = .next t ∧ ticketOpened s t i 0x14 ∧
      (t.host (s.owner k)).exports = (s.host (s.owner k)).exports ++
        [{ iface := i, ticket := s.zen.nextTicket, part := k, addr := addr, len := len, data := data, rec_ := r, step := (s.part k).stepNo }] ∧
      SameMem s t ∧ SameRegsBut (mailboxRegs i) s t := by
  have hk : k < 4 := h.2.1
  have hexec := execExport_mine addr len data r h
  have hwhole : ¬(addr % 256 ≠ 0 ∨ len % 256 ≠ 0 ∨ len = 0 ∨ 2 ^ 32 < len) := by
    rintro (hno | hno | hno | hno)
    · exact hno haddr
    · exact hno hlines
    · exact hsome hno
    · exact absurd hno (Nat.not_lt.mpr hlen)
  have hsecure : ((s.heard i).conf k && (!(s.heard i).ideSecure ((s.heard i).owner k) || ((s.heard i).resultKeyOf k).isNone)) = false := by
    rcases hconf with hplain | ⟨hide, hkey⟩
    · rw [show (s.heard i).conf k = false from hplain, Bool.false_and]
    · rw [show (s.heard i).ideSecure ((s.heard i).owner k) = true from hide,
        show ((s.heard i).resultKeyOf k).isNone = false from Option.isNone_eq_false_iff.mpr (Option.isSome_iff_ne_none.mpr hkey)]
      exact Bool.and_false _
  rw [State.exportAsked_live (s := s.heard i) addr len data r h3 h4, if_neg hwhole,
    if_neg (by rw [show (s.heard i).inBounds k addr len = true from hbounds]; decide), hsecure, if_neg Bool.false_ne_true,
    State.accepted_room (s := s.heard i) _ _ hroom] at hexec
  obtain ⟨hanswered, hzen, hleaves⟩ := (s.heard i).ticketed_spec i 0x14
  have hleaves := (Leaves.heard (P := (· ∈ mailboxRegs i)) (s := s) (i := i) .refl).trans hleaves
  have htold : ∀ g, (((s.heard i).ticketed i 0x14).host g).exports = (s.host g).exports := (Told.mbResult _ i 0x14 resAccepted 0 _ []).exports
  have hpart : ((s.heard i).ticketed i 0x14).part k = s.part k := State.ticketed_keeps (State.part · k) (fun _ _ _ _ _ _ => rfl) (s.heard i) i 0x14
  generalize (s.heard i).ticketed i 0x14 = u at *
  have howner : u.owner k = s.owner k := hleaves.fld (rZenPart_notMem_mailboxRegs hk) 61 61
  have hqueued : ∀ j : ExportJob, Leaves (fun _ => False) u (u.exportQueued j) ∧ (u.exportQueued j).zen = u.zen ∧
      ((u.exportQueued j).host (u.owner j.part)).exports = (u.host (u.owner j.part)).exports ++ [j] := fun j =>
    ⟨.modHost .refl, rfl, by rw [State.exportQueued, State.host_modHost_same]⟩
  obtain ⟨hsame, hzen', hexports⟩ := hqueued
    { iface := i, ticket := s.zen.nextTicket, part := k, addr := addr, len := len, data := data, rec_ := r, step := (u.part k).stepNo }
  dsimp only at hexports
  rw [howner, htold, hpart] at hexports
  have hall : Leaves (· ∈ mailboxRegs i) s _ := hleaves.trans (hsame.mono fun _ hr => hr.elim)
  refine ⟨_, hexec, ⟨State.answered_of_leaves hanswered hsame fun _ _ => id, ?_⟩, ?_, hall.sameMem, hall.sameRegsBut⟩
  · exact (congrArg Zen.tickets hzen').trans (congrArg Zen.tickets hzen)
  · rw [hpart]
    exact hexports

theorem exportsRun_refused (s : State) (i k addr len data r : Nat) (h : s.mailboxPart i k) (h3 : s.pstate k ≠ 3) (h4 : s.pstate k ≠ 4)
    (hbad : addr % 256 ≠ 0 ∨ len % 256 ≠ 0 ∨ len = 0 ∨ 2 ^ 32 < len) :
    ∃ t : State, exec (.export_ i k addr len data r) s = .next t ∧ t.answered i 6 ∧ (∀ h, h < 2 → (t.host h).exports = (s.host h).exports) ∧ SameMem s t ∧
      SameRegsBut (mailboxRegs i) s t := by
  have hexec := execExport_mine addr len data r h
  rw [State.exportAsked_live (s := s.heard i) addr len data r h3 h4, if_pos hbad] at hexec
  obtain ⟨hanswered, hleaves⟩ := (s.heard i).mbAnswer_spec i 0x14 (result := 6) (by decide)
  have hleaves := (Leaves.heard (P := (· ∈ mailboxRegs i)) (s := s) (i := i) .refl).trans hleaves
  exact ⟨_, hexec, hanswered, fun g _ => (Told.mbResult (s.heard i) i 0x14 6 0 0 []).exports g, hleaves.sameMem, hleaves.sameRegsBut⟩

/-! The oldest range that a port sends. -/

/-- A range's data and its record sent, and the next one's turn. -/
def State.exported (s : State) (h : Nat) (j : ExportJob) (l : List ExportJob) : State :=
  (((s.modHost h fun x => { x with exports := l }).out (.hostWrite h j.data (s.hbmRead j.addr j.len))).out
    (.hostWrite h j.rec_ (s.exportRecord j (s.hbmRead j.addr j.len)))).modPart j.part fun p => { p with exportSeq := p.exportSeq + 1 }

theorem execExportDone_good {s : State} {h : Nat} {j : ExportJob} {l : List ExportJob} (hexports : (s.host h).exports = j :: l)
    (hplace : s.samePlace 0 0 0 j.addr j.len = none) (hgood : s.hbmBad j.addr j.len = false) :
    exec (.exportDone h) s = .next ((s.exported h j l).mbFinish j.iface j.ticket resOk 0) := by
  show execExportDone h s = _
  unfold execExportDone
  rw [hexports]
  dsimp only
  rw [hplace, hgood]
  rfl

theorem execExportDone_failing {s : State} {h : Nat} {j : ExportJob} {l : List ExportJob} (hexports : (s.host h).exports = j :: l)
    (hplace : s.samePlace 0 0 0 j.addr j.len = none) (hbad : s.hbmBad j.addr j.len = true) (htried : j.tried = false) :
    exec (.exportDone h) s = .next ((s.modHost h fun x => { x with exports := { j with tried := true } :: l }).beginRecovery
      (s.badAddr j.addr j.len / 2 ^ 36 / 2) 0 0 (s.badAddr j.addr j.len) 256 0 none false none none) := by
  show execExportDone h s = _
  unfold execExportDone
  rw [hexports]
  dsimp only
  rw [hplace, hbad, htried]
  rfl

theorem execExportDone_lost {s : State} {h : Nat} {j : ExportJob} {l : List ExportJob} (hexports : (s.host h).exports = j :: l)
    (hplace : s.samePlace 0 0 0 j.addr j.len = none) (hbad : s.hbmBad j.addr j.len = true) (htried : j.tried = true) :
    exec (.exportDone h) s = .next ((s.modHost h fun x => { x with exports := l }).mbFinish j.iface j.ticket 0x2A (s.badAddr j.addr j.len % 2 ^ 32)) := by
  show execExportDone h s = _
  unfold execExportDone
  rw [hexports]
  dsimp only
  rw [hplace, hbad, htried]
  rfl

theorem take_exportRecord (s : State) (j : ExportJob) (b : List Nat) : (s.exportRecord j b).take 8 = leBytes 8 ((s.part j.part).exportSeq + 1) := by
  unfold State.exportRecord
  simp only [List.append_assoc]
  exact List.take_left' (length_leBytes ..)

theorem length_exportRecord {s : State} {j : ExportJob} (b : List Nat) (h : s.conf j.part = false) : (s.exportRecord j b).length = 64 := by
  unfold State.exportRecord
  rw [h]
  simp

theorem exportsRun_done (s : State) (h : Nat) (j : ExportJob) (l : List ExportJob) (hexports : (s.host h).exports = j :: l)
    (hplace : s.samePlace 0 0 0 j.addr j.len = none) (hgood : s.hbmBad j.addr j.len = false) :
    ∃ (t : State) (m : List Output), exec (.exportDone h) s = .next t ∧ (t.host h).exports = l ∧ (t.part j.part).exportSeq = (s.part j.part).exportSeq + 1 ∧
      t.outbox = s.outbox ++ [Output.hostWrite h j.data (s.hbmRead j.addr j.len),
        .hostWrite h j.rec_ (s.exportRecord j (s.hbmRead j.addr j.len))] ++ m ∧
      (s.exportRecord j (s.hbmRead j.addr j.len)).take 8 = leBytes 8 ((s.part j.part).exportSeq + 1) ∧
      (s.conf j.part = false → (s.exportRecord j (s.hbmRead j.addr j.len)).length = 64) ∧ SameMem s t ∧
      SameRegsBut [rZenApproved] s t := by
  have hexec := execExportDone_good hexports hplace hgood
  have hleft : ((s.exported h j l).host h).exports = l := by
    rw [State.exported, State.host_modPart, State.host_out, State.host_out, State.host_modHost_same]
  have hseq : ((s.exported h j l).part j.part).exportSeq = (s.part j.part).exportSeq + 1 := by
    rw [State.exported, State.part_modPart_same]
    rfl
  have hout : (s.exported h j l).outbox = s.outbox ++ [Output.hostWrite h j.data (s.hbmRead j.addr j.len),
      .hostWrite h j.rec_ (s.exportRecord j (s.hbmRead j.addr j.len))] := List.append_assoc ..
  have hleaves : Leaves (· ∈ [rZenApproved]) s (s.exported h j l) := .modPart (.out (.out (.modHost .refl)))
  generalize s.exported h j l = u at *
  obtain ⟨htold, m, -, hm⟩ := Told.mbFinish u j.iface j.ticket resOk 0
  have hparts : (u.mbFinish j.iface j.ticket resOk 0).part j.part = u.part j.part :=
    State.mbFinish_keeps (State.part · j.part) (fun _ _ _ _ _ => rfl) _ _ _ _ _
  have hall := hleaves.mbFinish (i := j.iface) (n := j.ticket) (result := resOk) (detail := 0) (List.mem_singleton.mpr rfl)
  exact ⟨_, m, hexec, (htold h).trans hleft, hparts ▸ hseq, hm.trans (by rw [hout]), take_exportRecord s j _, length_exportRecord _, hall.sameMem,
    hall.sameRegsBut⟩

theorem exportsRun_recovered (s : State) (h : Nat) (j : ExportJob) (l : List ExportJob) (hexports : (s.host h).exports = j :: l)
    (hplace : s.samePlace 0 0 0 j.addr j.len = none) (hbad : s.hbmBad j.addr j.len = true) (htried : j.tried = false) (hnone : s.recoveries = []) :
    ∃ (t : State) (r : Recovery), exec (.exportDone h) s = .next t ∧ t.recoveries = [r] ∧ r.space = 0 ∧ r.addr = s.badAddr j.addr j.len ∧
      (t.host h).exports = { j with tried := true } :: l ∧ t.outbox = s.outbox ∧ SameMem s t := by
  have hexec := execExportDone_failing hexports hplace hbad htried
  have hleft : ((s.modHost h fun x => { x with exports := { j with tried := true } :: l }).host h).exports = { j with tried := true } :: l := by
    rw [State.host_modHost_same]
  have hkept : (s.modHost h fun x => { x with exports := { j with tried := true } :: l }).recoveries = [] ∧
    (s.modHost h fun x => { x with exports := { j with tried := true } :: l }).outbox = s.outbox := ⟨hnone, rfl⟩
  have hleaves : Leaves (fun _ => True) s (s.modHost h fun x => { x with exports := { j with tried := true } :: l }) := .modHost .refl
  generalize (s.modHost h fun x => { x with exports := { j with tried := true } :: l }) = u at *
  obtain ⟨hnone', hout⟩ := hkept
  rw [State.beginRecovery_alone _ _ _ _ hnone'] at hexec
  have hall : Leaves (fun _ => True) s ({ ((u.bump (rMemCrcFail (s.badAddr j.addr j.len / 2 ^ 36)) 1).fresh.2.laterW 140 (.retryLands u.nextId true)) with
      recoveries := [u.newRecovery (s.badAddr j.addr j.len / 2 ^ 36 / 2) (s.badAddr j.addr j.len) 256 false] } : State) :=
    .upd (.laterW (.fresh (.bump hleaves trivial)))
  exact ⟨_, _, hexec, rfl, rfl, rfl, hleft, hout, hall.sameMem⟩

/-- The ticket that ends is no longer outstanding (R607). -/
theorem State.tickets_mbFinish (s : State) (i n result detail : Nat) : ∀ x ∈ (s.mbFinish i n result detail).zen.tickets, ¬(x.1 = i ∧ x.2.1 = n) := by
  intro x hx ⟨hi, hn⟩
  have hmine : (x.1 == i && x.2.1 == n) = true := by simp [hi, hn]
  cases hfind : s.zen.tickets.find? (fun t => t.1 == i && t.2.1 == n) with
  | none =>
    have hsame : s.mbFinish i n result detail = s := by
      unfold State.mbFinish
      rw [hfind]
    rw [hsame] at hx
    exact List.find?_eq_none.mp hfind x hx hmine
  | some y =>
    rw [State.zen_mbFinish detail hfind, ticketEnded] at hx
    have := (List.mem_filter.mp hx).2
    rw [hmine] at this
    exact absurd this (by decide)

theorem exportsRun_lost (s : State) (h : Nat) (j : ExportJob) (l : List ExportJob) (hexports : (s.host h).exports = j :: l)
    (hplace : s.samePlace 0 0 0 j.addr j.len = none) (hbad : s.hbmBad j.addr j.len = true) (htried : j.tried = true) :
    ∃ (t : State) (m : List Output), exec (.exportDone h) s = .next t ∧ (t.host h).exports = l ∧ t.outbox = s.outbox ++ m ∧ m.length ≤ 1 ∧
      (∀ x ∈ t.zen.tickets, ¬(x.1 = j.iface ∧ x.2.1 = j.ticket)) ∧ SameMem s t ∧ SameRegsBut [rZenApproved] s t := by
  have hexec := execExportDone_lost hexports hplace hbad htried
  have hleft : ((s.modHost h fun x => { x with exports := l }).host h).exports = l := by rw [State.host_modHost_same]
  have hout : (s.modHost h fun x => { x with exports := l }).outbox = s.outbox := rfl
  have hleaves : Leaves (· ∈ [rZenApproved]) s (s.modHost h fun x => { x with exports := l }) := .modHost .refl
  generalize (s.modHost h fun x => { x with exports := l }) = u at *
  obtain ⟨htold, m, hlen, hm⟩ := Told.mbFinish u j.iface j.ticket 0x2A (s.badAddr j.addr j.len % 2 ^ 32)
  have hall := hleaves.mbFinish (i := j.iface) (n := j.ticket) (result := 0x2A) (detail := s.badAddr j.addr j.len % 2 ^ 32) (List.mem_singleton.mpr rfl)
  exact ⟨_, m, hexec, (htold h).trans hleft, hm.trans (by rw [hout]), hlen, u.tickets_mbFinish _ _ _ _, hall.sameMem, hall.sameRegsBut⟩

theorem exportsRun_idle (s : State) (h : Nat) (hnone : (s.host h).exports = []) : exec (.exportDone h) s = .next s := by
  show execExportDone h s = _
  unfold execExportDone
  rw [hnone]

/-- Settles O46: EXPORT, and what the engine of a port does for its oldest one. -/
theorem exportsRun : Obligations.ExportsRun :=
  ⟨fun s i k addr len data r h h3 h4 => ⟨exportsRun_accepted s i k addr len data r h h3 h4, exportsRun_refused s i k addr len data r h h3 h4⟩,
    fun s h j l hexports hplace => ⟨exportsRun_done s h j l hexports hplace, exportsRun_recovered s h j l hexports hplace,
      exportsRun_lost s h j l hexports hplace⟩, exportsRun_idle⟩

end Sys2Proof.Machine
end

section
/-! PROOF. CLEAR, REKEY, PARTITION_RESET and PARTITION_CONFIG (R507, R512–R514, R532, R542–R546, R556). -/
namespace Sys2Proof.Machine

/-! CLEAR (R542, R546). -/

/-- CLEAR for a partition of the interface's own. -/
def State.clearAsked (i k : Nat) (s : State) : State :=
  match s.maintConflict 7 k with
  | some c => (s.maintRefuse 7 k c).mbResult i 0x15 0x27 c 0 []
  | none => s.accepted i 0x15 fun s t => s.beginClearing k [(i, t, 0x15)]

theorem execClear_mine {s : State} {i k : Nat} (h : s.mailboxPart i k) : exec (.clear i k) s = .next ((s.heard i).clearAsked i k) :=
  State.mailbox_part (code := 0x15) (State.clearAsked i k) h

/-- What the unloading of a partition without a load under way keeps. -/
theorem State.toUnloaded_kept {s : State} {k : Nat} (h : (s.part k).loading = none) : (s.toUnloaded k).zen = s.zen ∧ (s.toUnloaded k).maint = s.maint ∧
    (s.toUnloaded k).clk = s.clk ∧ (s.toUnloaded k).part k = droppedPart (s.part k) := by
  rw [State.toUnloaded_idle h]
  have hctx : ∀ {β : Type} (g : State → β) (hg : ∀ (u : State) k hi lo v, g (u.setFld k hi lo v) = g u),
      g (((s.dropRun k).ctxCleared (s.partCores k)).setPstate k 0) = g (s.dropRun k) := fun g hg =>
    (hg _ _ _ _ _).trans (foldl_keeps (f := fun (s : State) (j : Nat) => (s.setFld (rSeqCtxStatus j) 1 0 0).setFld (rSeqCtxStatus j) 15 8 0) g
      (fun _ _ => (hg _ _ _ _ _).trans (hg _ _ _ _ _)) _ _)
  refine ⟨hctx State.zen fun _ _ _ _ _ => rfl, hctx State.maint fun _ _ _ _ _ => rfl, hctx State.clk fun _ _ _ _ _ => rfl,
    (hctx (State.part · k) fun _ _ _ _ _ => rfl).trans ?_⟩
  rw [State.part, (s.dropRun_spec k).1, ← State.part, State.part_modPart_same]

/-- Clearing begun on a partition without a load under way. -/
theorem State.beginClearing_idle {s : State} {k : Nat} (ts : List (Nat × Nat × Nat)) (h : (s.part k).loading = none) :
    (s.beginClearing k ts).zen = s.zen ∧ ((s.beginClearing k ts).part k).tickets = (s.part k).tickets ++ ts ∧
    { act := 7, scope := k } ∈ (s.beginClearing k ts).maint ∧
    ∃ l, (s.beginClearing k ts).agenda = l ++ [({ dom := none, at_ := s.clk.wall + 350000, act := .cmd (.pstatToggle k) } : Due)] := by
  obtain ⟨hmaint, -, hclk⟩ := s.maintGrant_spec 7 k
  have hzen : (s.maintGrant 7 k).zen = s.zen := State.maintGrant_keeps State.zen (fun _ _ _ => rfl) s 7 k
  have hpart : (s.maintGrant 7 k).part k = s.part k := State.maintGrant_keeps (State.part · k) (fun _ _ _ => rfl) s 7 k
  unfold State.beginClearing
  dsimp only
  generalize s.maintGrant 7 k = u at *
  obtain ⟨hzen', hmaint', hclk', hpart'⟩ := State.toUnloaded_kept (s := u) (k := k) (by rw [hpart]; exact h)
  generalize u.toUnloaded k = v at *
  have hbare : ∃ w : State, ((v.setPstate k 3).modPart k fun p => { p with
      clearStep := 1, clearCode := 0, pstatFlip := false, clearAfter := false, tickets := p.tickets ++ ts }) = w ∧ w.zen = v.zen ∧ w.maint = v.maint ∧
      w.clk = v.clk ∧ (w.part k).tickets = (v.part k).tickets ++ ts :=
    ⟨_, rfl, rfl, rfl, rfl, by rw [State.part_modPart_same, State.setPstate, State.part_setFld]⟩
  obtain ⟨w, hw, hwzen, hwmaint, hwclk, hwtickets⟩ := hbare
  rw [hw]
  have hshow : ∀ {β : Type} (g : State → β), (∀ (u : State) p, g { u with pstat := p } = g u) → g w.showPstat = g w := fun g hg =>
    State.showPstat_keeps g hg w
  refine ⟨?_, ?_, ?_, w.showPstat.agenda, ?_⟩
  · rw [State.laterW_zen, hshow State.zen fun _ _ => rfl, hwzen, hzen', hzen]
  · rw [State.part_laterW, hshow (State.part · k) fun _ _ => rfl, hwtickets, hpart', hpart]
    rfl
  · rw [State.laterW_maint, hshow State.maint fun _ _ => rfl, hwmaint, hmaint']
    exact hmaint
  · rw [State.agenda_laterW, hshow State.clk fun _ _ => rfl, hwclk, hclk', hclk]

theorem not_clearingReg_mailbox {i k : Nat} (hi : i ≤ 2) (hk : k < 4) :
    ¬clearingReg k (rZenMbStatus + mbOfs i) ∧ ¬clearingReg k (rZenMbCmd + mbOfs i) := by
  obtain ⟨hst, hcmd⟩ := not_zeroizeReg_mailbox hi
  exact ⟨fun h => hst (.inr (.inr ⟨k, hk, .inl h⟩)), fun h => hcmd (.inr (.inr ⟨k, hk, .inl h⟩))⟩

theorem partitionsManaged_clear (s : State) (i k : Nat) (h : s.mailboxPart i k) (hmaint : s.maintConflict 7 k = none) (hroom : s.ticketRoom i)
    (hloading : (s.part k).loading = none) :
    ∃ (t : State) (l : List Due), exec (.clear i k) s = .next t ∧ ticketOpened s t i 0x15 ∧ t.pstate k = 3 ∧ (t.part k).clearStep = 1 ∧
      (t.part k).tickets = (s.part k).tickets ++ [(i, s.zen.nextTicket, 0x15)] ∧ { act := 7, scope := k } ∈ t.maint ∧
      t.agenda = l ++ [({ dom := none, at_ := s.clk.wall + 350000, act := .cmd (.pstatToggle k) } : Due)] ∧ SameMem s t ∧
      SameRegsBut (rZenPart k :: (ctxRegs ++ (maintRegs ++ mailboxRegs i))) s t := by
  have hk : k < 4 := h.2.1
  have hexec := execClear_mine h
  rw [State.clearAsked, show (s.heard i).maintConflict 7 k = none from hmaint] at hexec
  dsimp only at hexec
  rw [State.accepted_room (s := s.heard i) _ _ hroom] at hexec
  obtain ⟨hanswered, hzen, hleaves⟩ := (s.heard i).ticketed_spec i 0x15
  have hleaves := (Leaves.heard (P := (· ∈ mailboxRegs i)) (s := s) (i := i) .refl).trans hleaves
  have hpart : ((s.heard i).ticketed i 0x15).part k = s.part k := State.ticketed_keeps (State.part · k) (fun _ _ _ _ _ _ => rfl) (s.heard i) i 0x15
  have hclk : ((s.heard i).ticketed i 0x15).clk = s.clk := State.ticketed_keeps State.clk (fun _ _ _ _ _ _ => rfl) (s.heard i) i 0x15
  generalize (s.heard i).ticketed i 0x15 = u at *
  obtain ⟨hzen', htickets, hin, l, hagenda⟩ := State.beginClearing_idle (s := u) (k := k) [(i, s.zen.nextTicket, 0x15)] (by rw [hpart]; exact hloading)
  have hstate := u.pstate_beginClearing k [(i, s.zen.nextTicket, 0x15)]
  obtain ⟨hstep, -⟩ := u.part_beginClearing k [(i, s.zen.nextTicket, 0x15)]
  have hclear : Leaves (clearingReg k) u (u.beginClearing k [(i, s.zen.nextTicket, 0x15)]) := .beginClearing .refl fun _ h => h
  rw [hpart] at htickets
  rw [hclk] at hagenda
  have hall : Leaves (· ∈ rZenPart k :: (ctxRegs ++ (maintRegs ++ mailboxRegs i))) s (u.beginClearing k [(i, s.zen.nextTicket, 0x15)]) := by
    refine (hleaves.mono fun r hr => by simp [hr]).trans (hclear.mono fun r hr => ?_)
    simp only [List.mem_cons, List.mem_append]
    rcases hr with (rfl | ⟨j, hj, rfl⟩ | rfl) | hr
    · exact .inr (.inr (.inr (mem_mailboxRegs (.inr (.inr (.inr rfl))))))
    · exact .inr (.inl (rSeqCtxStatus_mem_ctxRegs hj))
    · exact .inl rfl
    · exact .inr (.inr (.inl hr))
  refine ⟨_, l, hexec, ⟨State.answered_congr hanswered (hclear.reg _ (not_clearingReg_mailbox h.le hk).1) (hclear.reg _ (not_clearingReg_mailbox h.le hk).2),
    congrArg Zen.tickets (hzen'.trans hzen)⟩, hstate, hstep, htickets, hin, hagenda, hall.sameMem, hall.sameRegsBut⟩

theorem partitionsManaged_noClear (s : State) (i k c : Nat) (h : s.mailboxPart i k) (hmaint : s.maintConflict 7 k = some c) :
    ∃ t : State, exec (.clear i k) s = .next t ∧ t.answered i 0x27 ∧ t.parts = s.parts ∧ t.reg (rZenMbDetail + mbOfs i) = BitVec.ofNat 64 c ∧
      SameMem s t ∧ SameRegsBut (maintRegs ++ mailboxRegs i) s t := by
  have hexec := execClear_mine h
  rw [State.clearAsked, show (s.heard i).maintConflict 7 k = some c from hmaint] at hexec
  dsimp only at hexec
  have hleaves : Leaves (· ∈ maintRegs ++ mailboxRegs i) s ((s.heard i).maintRefuse 7 k c) :=
    .maintRefuse (.heard .refl) (by omega) fun _ hr => List.mem_append_left _ hr
  have hparts : ((s.heard i).maintRefuse 7 k c).parts = s.parts :=
    foldl_keeps (f := fun (s : State) (st : Nat) => (s.setFld (rMemMaint st) 19 16 7).setFld (rMemMaint st) 23 20 c) State.parts (fun _ _ => rfl) _ _
  generalize (s.heard i).maintRefuse 7 k c = u at *
  obtain ⟨hanswered, hdetail⟩ := u.answered_mbResult i 0x15 c 0 [] (result := 0x27) (by decide)
  have hall : Leaves (· ∈ maintRegs ++ mailboxRegs i) s (u.mbResult i 0x15 0x27 c 0 []) := .mbResult hleaves fun _ hr => List.mem_append_right _ hr
  exact ⟨_, hexec, hanswered, (u.mbResult_keeps State.parts (fun _ _ _ _ _ => rfl) _ _ _ _ _ _).trans hparts, hdetail, hall.sameMem, hall.sameRegsBut⟩

/-! REKEY (R532, R546). -/

/-- REKEY for a partition of the interface's own. -/
def State.rekeyAsked (i k : Nat) (s : State) : State :=
  if s.pstate k = 3 ∨ s.pstate k = 4 ∨ (s.part k).clearAfter ∨ s.fld (rZenXts k) 63 63 = 1 then s.mbAnswer i 0x16 0x24
  else if !s.conf k then s.mbAnswer i 0x16 6
  else match s.maintConflict 6 k with
    | some c => (s.maintRefuse 6 k c).mbResult i 0x16 0x27 c 0 []
    | none => s.accepted i 0x16 fun s t => s.beginSweep k [(i, t, 0x16)]

theorem execRekey_mine {s : State} {i k : Nat} (h : s.mailboxPart i k) : exec (.rekey i k) s = .next ((s.heard i).rekeyAsked i k) :=
  State.mailbox_part (code := 0x16) (State.rekeyAsked i k) h

theorem partitionsManaged_noRekey (s : State) (i k : Nat) (h : s.mailboxPart i k)
    (hno : s.pstate k = 3 ∨ s.pstate k = 4 ∨ (s.part k).clearAfter = true ∨ s.fld (rZenXts k) 63 63 = 1) :
    ∃ t : State, exec (.rekey i k) s = .next t ∧ t.answered i 0x24 ∧ t.parts = s.parts ∧ SameMem s t ∧ SameRegsBut (mailboxRegs i) s t := by
  have hexec := execRekey_mine h
  rw [State.rekeyAsked, if_pos (show (s.heard i).pstate k = 3 ∨ (s.heard i).pstate k = 4 ∨ ((s.heard i).part k).clearAfter = true ∨
    (s.heard i).fld (rZenXts k) 63 63 = 1 from hno)] at hexec
  obtain ⟨t, hrun, hanswered, -, -, hparts, -, hmem, hregs⟩ := answered_of_served (l := []) hexec (by norm_num) (.heard .refl)
  exact ⟨t, hrun, hanswered, hparts, hmem, hregs⟩

/-- The sweep's record and its counters set. -/
def State.sweepSet (s : State) (k new n key : Nat) (ts : List (Nat × Nat × Nat)) : State :=
  (((s.setFld (rZenXts k) 63 63 1).setFld (rZenXts k) 62 62 new).setFld (rZenXts k) 17 0 n).modPart k fun p =>
    { p with keys := SMap.set p.keys new (some key), sweepAt := [], lockAt := [], locked := [], tickets := p.tickets ++ ts }

/-- The stacks' first locks asked for. -/
def State.locksAsked (s : State) (l : List Nat) : State := l.foldl (fun s st => s.laterW 0 (.rekeyGranuleLock st)) s

theorem State.beginSweep_eq (s : State) (k : Nat) (ts : List (Nat × Nat × Nat)) : s.beginSweep k ts =
    ((s.drawKey.2.maintGrant 6 k).sweepSet k (1 - (s.drawKey.2.maintGrant 6 k).fld (rZenXts k) 62 62)
      (((s.drawKey.2.maintGrant 6 k).partStacks k).length * granulesPerStack) s.drawKey.1 ts).locksAsked
        (((s.drawKey.2.maintGrant 6 k).sweepSet k (1 - (s.drawKey.2.maintGrant 6 k).fld (rZenXts k) 62 62)
          (((s.drawKey.2.maintGrant 6 k).partStacks k).length * granulesPerStack) s.drawKey.1 ts).partStacks k) := rfl

theorem State.locksAsked_spec (l : List Nat) : ∀ s : State, (s.locksAsked l).agenda =
    s.agenda ++ l.map (fun n => ({ dom := none, at_ := s.clk.wall, act := .cmd (.rekeyGranuleLock n) } : Due)) := by
  induction l with
  | nil => exact fun s => (List.append_nil _).symm
  | cons n l ih =>
    intro s
    rw [State.locksAsked, List.foldl_cons, ← State.locksAsked, ih, State.agenda_laterW, List.map_cons, List.append_assoc]
    rfl

theorem State.locksAsked_keeps {β : Type} (g : State → β) (hg : ∀ (s : State) a, g { s with agenda := a } = g s) (s : State) (l : List Nat) :
    g (s.locksAsked l) = g s := foldl_keeps (f := fun (s : State) (st : Nat) => s.laterW 0 (.rekeyGranuleLock st)) g (fun _ _ => hg _ _) l s

theorem State.sweepSet_spec (s : State) (k : Nat) {new n : Nat} (key : Nat) (ts : List (Nat × Nat × Nat)) (hnew : new < 2) (hn : n < 2 ^ 18) :
    (s.sweepSet k new n key ts).fld (rZenXts k) 63 63 = 1 ∧ (s.sweepSet k new n key ts).fld (rZenXts k) 62 62 = new ∧
    (s.sweepSet k new n key ts).fld (rZenXts k) 17 0 = n ∧ SMap.get ((s.sweepSet k new n key ts).part k).keys new = some key ∧
    (s.sweepSet k new n key ts).agenda = s.agenda ∧ (s.sweepSet k new n key ts).clk = s.clk ∧ (s.sweepSet k new n key ts).zen = s.zen ∧
    Leaves (· = rZenXts k) s (s.sweepSet k new n key ts) := by
  unfold State.sweepSet
  refine ⟨?_, ?_, ?_, ?_, rfl, rfl, rfl, .modPart (.setFld (.setFld (.setFld .refl rfl) rfl) rfl)⟩
  · rw [State.fld_modPart, State.fld_setFld_disjoint _ _ _ _ _ _ _ (by omega) (by omega) (by omega) (by omega),
      State.fld_setFld_disjoint _ _ _ _ _ _ _ (by omega) (by omega) (by omega) (by omega), State.fld_setFld_same _ _ _ _ _ (by omega) (by omega)]
    rfl
  · rw [State.fld_modPart, State.fld_setFld_disjoint _ _ _ _ _ _ _ (by omega) (by omega) (by omega) (by omega),
      State.fld_setFld_same _ _ _ _ _ (by omega) (by omega), show new % 2 ^ (62 + 1 - 62) = new from Nat.mod_eq_of_lt hnew]
  · rw [State.fld_modPart, State.fld_setFld_same _ _ _ _ _ (by omega) (by omega), show n % 2 ^ (17 + 1 - 0) = n from Nat.mod_eq_of_lt hn]
  · rw [State.part_modPart_same]
    dsimp only
    exact SMap.get_set_same _ _ _

theorem length_partStacks (s : State) (k : Nat) : (s.partStacks k).length = 2 * (s.partCores k).length := by
  unfold State.partStacks
  induction s.partCores k with
  | nil => rfl
  | cons j l ih =>
    rw [List.flatMap_cons, List.length_append, ih, List.length_cons]
    exact (Nat.add_comm _ _).trans (Nat.mul_succ 2 l.length).symm

theorem length_partCores_le (s : State) (k : Nat) : (s.partCores k).length ≤ 4 := List.length_filter_le (fun i => bitAt _ i) (List.range 4)

theorem rZenXts_notMem {i k : Nat} (hi : i ≤ 2) (hk : k < 4) : rZenXts k ∉ maintRegs ∧ rZenXts k ∉ mailboxRegs i := by
  obtain rfl | rfl | rfl : i = 0 ∨ i = 1 ∨ i = 2 := by omega
  all_goals obtain rfl | rfl | rfl | rfl : k = 0 ∨ k = 1 ∨ k = 2 ∨ k = 3 := by omega
  all_goals decide

theorem partitionsManaged_rekey (s : State) (i k : Nat) (h : s.mailboxPart i k) (h3 : s.pstate k ≠ 3) (h4 : s.pstate k ≠ 4)
    (hafter : (s.part k).clearAfter = false) (hsweep : s.fld (rZenXts k) 63 63 = 0) (hconf : s.conf k = true) (hmaint : s.maintConflict 6 k = none)
    (hroom : s.ticketRoom i) :
    ∃ t : State, exec (.rekey i k) s = .next t ∧ ticketOpened s t i 0x16 ∧ t.fld (rZenXts k) 63 63 = 1 ∧
      t.fld (rZenXts k) 62 62 = 1 - s.fld (rZenXts k) 62 62 ∧ t.fld (rZenXts k) 17 0 = 2 * (s.partCores k).length * 32192 ∧
      SMap.get (t.part k).keys (1 - s.fld (rZenXts k) 62 62) = some s.zen.drbg ∧
      t.agenda = s.agenda ++ (s.partStacks k).map (fun n => ({ dom := none, at_ := s.clk.wall, act := .cmd (.rekeyGranuleLock n) } : Due)) ∧
      SameMem s t ∧ SameRegsBut (rZenXts k :: (maintRegs ++ mailboxRegs i)) s t := by
  have hk : k < 4 := h.2.1
  obtain ⟨hxm, hxb⟩ := rZenXts_notMem h.le hk
  have hexec := execRekey_mine h
  have hlive : ¬((s.heard i).pstate k = 3 ∨ (s.heard i).pstate k = 4 ∨ ((s.heard i).part k).clearAfter = true ∨ (s.heard i).fld (rZenXts k) 63 63 = 1) := by
    rintro (hno | hno | hno | hno)
    · exact h3 hno
    · exact h4 hno
    · exact Bool.false_ne_true (hafter.symm.trans hno)
    · exact absurd (hsweep.symm.trans hno) (by decide)
  rw [State.rekeyAsked, if_neg hlive, if_neg (by rw [show (s.heard i).conf k = true from hconf]; decide),
    show (s.heard i).maintConflict 6 k = none from hmaint] at hexec
  dsimp only at hexec
  rw [State.accepted_room (s := s.heard i) _ _ hroom, show (s.heard i).zen.nextTicket = s.zen.nextTicket from rfl] at hexec
  obtain ⟨hanswered, hzen, hleaves⟩ := (s.heard i).ticketed_spec i 0x16
  have hleaves := (Leaves.heard (P := (· ∈ mailboxRegs i)) (s := s) (i := i) .refl).trans hleaves
  have hclk : ((s.heard i).ticketed i 0x16).clk = s.clk := State.ticketed_keeps State.clk (fun _ _ _ _ _ _ => rfl) (s.heard i) i 0x16
  have hagenda : ((s.heard i).ticketed i 0x16).agenda = s.agenda := State.ticketed_keeps State.agenda (fun _ _ _ _ _ _ => rfl) (s.heard i) i 0x16
  generalize (s.heard i).ticketed i 0x16 = u at *
  rw [u.beginSweep_eq] at hexec
  have hdraw : u.drawKey.1 = s.zen.drbg ∧ u.drawKey.2.zen.tickets = s.zen.tickets ++ [(i, s.zen.nextTicket, 0x16)] := by
    rw [State.drawKey, hzen]
    exact ⟨rfl, rfl⟩
  have hgrant : Leaves (· ∈ maintRegs) u (u.drawKey.2.maintGrant 6 k) := .maintGrant (.upd .refl) fun _ hr => hr
  have hgzen : (u.drawKey.2.maintGrant 6 k).zen = u.drawKey.2.zen := State.maintGrant_keeps State.zen (fun _ _ _ => rfl) _ 6 k
  have hgclk : (u.drawKey.2.maintGrant 6 k).clk = u.clk := State.maintGrant_keeps State.clk (fun _ _ _ => rfl) _ 6 k
  have hgagenda : (u.drawKey.2.maintGrant 6 k).agenda = u.agenda := State.maintGrant_keeps State.agenda (fun _ _ _ => rfl) _ 6 k
  obtain ⟨hkey, htickets⟩ := hdraw
  rw [hkey] at hexec
  generalize u.drawKey.2.maintGrant 6 k = v at *
  have hcores : v.partCores k = s.partCores k := congrArg (maskList 4) ((hgrant.fld (rZenPart_notMem_maintRegs hk) 47 44).trans
    (hleaves.fld (rZenPart_notMem_mailboxRegs hk) 47 44))
  have hcur : v.fld (rZenXts k) 62 62 = s.fld (rZenXts k) 62 62 := (hgrant.fld hxm 62 62).trans (hleaves.fld hxb 62 62)
  have hcount : (v.partStacks k).length * granulesPerStack = 2 * (s.partCores k).length * 32192 := by
    rw [length_partStacks, hcores]
    rfl
  rw [hcur, hcount] at hexec
  have hlen := length_partCores_le s k
  obtain ⟨hon, hnew, hn, hkeys, hsagenda, hsclk, hszen, hset⟩ := v.sweepSet_spec k (new := 1 - s.fld (rZenXts k) 62 62)
    (n := 2 * (s.partCores k).length * 32192) s.zen.drbg [(i, s.zen.nextTicket, 0x16)] (by omega) (by omega)
  generalize v.sweepSet k (1 - s.fld (rZenXts k) 62 62) (2 * (s.partCores k).length * 32192) s.zen.drbg [(i, s.zen.nextTicket, 0x16)] = w at *
  have hstacks : w.partStacks k = s.partStacks k := by
    unfold State.partStacks
    rw [show w.partCores k = s.partCores k from (congrArg (maskList 4) (hset.fld (fun he => by unfold rZenPart rZenXts at he; omega) 47 44)).trans hcores]
  rw [hstacks] at hexec
  have hlocks := w.locksAsked_spec (s.partStacks k)
  have hreg : (w.locksAsked (s.partStacks k)).reg = w.reg := w.locksAsked_keeps State.reg (fun _ _ => rfl) _
  have hpart : (w.locksAsked (s.partStacks k)).part k = w.part k := w.locksAsked_keeps (State.part · k) (fun _ _ => rfl) _
  have hlzen : (w.locksAsked (s.partStacks k)).zen = w.zen := w.locksAsked_keeps State.zen (fun _ _ => rfl) _
  have hasked : Leaves (fun _ => False) w (w.locksAsked (s.partStacks k)) := .foldl (fun _ _ _ hu => hu.laterW) .refl
  generalize w.locksAsked (s.partStacks k) = t at *
  have hafterTicket : Leaves (fun r => r = rZenXts k ∨ r ∈ maintRegs) u t := ((hgrant.mono fun _ hr => .inr hr).trans (hset.mono fun _ hr => .inl hr)).trans
    (hasked.mono fun _ hr => hr.elim)
  have hall : Leaves (· ∈ rZenXts k :: (maintRegs ++ mailboxRegs i)) s t := (hleaves.mono fun r hr => by simp [hr]).trans
    (hafterTicket.mono fun r hr => by simpa [or_assoc] using hr.imp id fun hr => .inl hr)
  refine ⟨t, hexec, ⟨State.answered_of_leaves hanswered hafterTicket fun r hr => ?_, ?_⟩, (hasked.fld id _ _).trans hon, (hasked.fld id _ _).trans hnew,
    (hasked.fld id _ _).trans hn, hpart ▸ hkeys, ?_, hall.sameMem, hall.sameRegsBut⟩
  · rintro (rfl | hm)
    · exact hxb hr
    · exact mailboxRegs_notMem_maintRegs h.le r hr hm
  · rw [hlzen, hszen, hgzen, htickets]
  · rw [hlocks, hsagenda, hgagenda, hagenda, hsclk, hgclk, hclk]

/-! PARTITION_RESET (R556, R557). -/

/-- PARTITION_RESET for a partition of the interface's own. -/
def State.resetAsked (i k : Nat) (s : State) : State :=
  if ((s.resetPart k).part k).resetWait then (s.resetPart k).modPart k fun p => { p with waitAns := p.waitAns ++ [(i, 0x17)] }
  else (s.resetPart k).mbAnswer i 0x17 resOk

theorem execPartitionReset_mine {s : State} {i k : Nat} (h : s.mailboxPart i k) :
    exec (.partitionReset i k) s = .next ((s.heard i).resetAsked i k) := State.mailbox_part (code := 0x17) (State.resetAsked i k) h

/-- The bits that the reset of a partition returns to reset. -/
def State.partMask (s : State) (k a : Nat) : Nat :=
  if s.partReg k a then Nat.land (classMask false a)
    (2 ^ 64 - 1 - (if 0x800000 ≤ a ∧ a < 0xC00000 ∧ (a - 0x800000) % 0x80000 = 0 then 2 ^ 61 + 2 ^ 63 else 0)) else 0

theorem State.resetPart_idle {s : State} {k : Nat} (h3 : s.pstate k ≠ 3) (h4 : s.pstate k ≠ 4) (hdump : (s.part k).dumpState ≠ 1) (hreads : s.reads = []) :
    s.resetPart k = if ((s.resetBits (s.partMask k)).toUnloaded k).conf k = true ∧ (s.resetBits (s.partMask k)).pstate k ≠ 0 then
      ((s.resetBits (s.partMask k)).toUnloaded k).clearOrWait k [] else ((s.resetBits (s.partMask k)).toUnloaded k).showPstat := by
  have hno : (s.reads.filter fun r => (s.partCores k).contains r.core) = [] := by rw [hreads]; rfl
  refine ((if_neg (not_or.mpr ⟨h3, h4⟩)).trans (if_neg hdump)).trans ?_
  dsimp only
  rw [hno]
  rfl

theorem State.reg_toUnloaded {s : State} {k r : Nat} (h : (s.part k).loading = none) (hctx : ∀ j ∈ s.partCores k, r ≠ rSeqCtxStatus j)
    (hpart : r ≠ rZenPart k) : (s.toUnloaded k).reg r = s.reg r := by
  rw [State.toUnloaded_idle h, State.setPstate, State.reg_setFld_ne _ _ _ _ hpart]
  have hleaves : Leaves (fun x => ∃ j ∈ s.partCores k, x = rSeqCtxStatus j) s ((s.dropRun k).ctxCleared (s.partCores k)) :=
    .foldl (fun _ j hj hu => .setFld (.setFld hu ⟨j, hj, rfl⟩) ⟨j, hj, rfl⟩) (.dropRun .refl)
  exact hleaves.reg r fun ⟨j, hj, he⟩ => hctx j hj he

theorem State.partReg_ctx {s : State} {k j : Nat} (hj : j ∈ s.partCores k) : s.partReg k (rSeqCtxStatus j) = true := by
  have hlt := State.lt_of_mem_partCores hj
  have hcore : (rSeqCtxStatus j - 0x200000) / 0x100000 = j := by
    unfold rSeqCtxStatus
    omega
  have hrange : 0x200000 ≤ rSeqCtxStatus j ∧ rSeqCtxStatus j < 0x600000 := by
    unfold rSeqCtxStatus
    omega
  unfold State.partReg
  rw [if_pos hrange, hcore, List.contains_iff_mem]
  exact hj

theorem State.partReg_rZenPart (s : State) {k : Nat} (hk : k < 4) : s.partReg k (rZenPart k) = false := by
  unfold State.partReg rZenPart
  rw [if_neg (by omega), if_neg (by omega), if_neg (by omega), if_neg (by omega)]

theorem State.fld_toUnloaded_rZenPart {s : State} {k : Nat} (hk : k < 4) (h : (s.part k).loading = none) {hi lo : Nat} (hhi : hi < 64)
    (hne : 59 < lo ∨ hi < 57) : (s.toUnloaded k).fld (rZenPart k) hi lo = s.fld (rZenPart k) hi lo := by
  rw [State.toUnloaded_idle h, State.setPstate, State.fld_setFld_disjoint _ _ _ _ _ _ _ (by omega) (by omega) hhi (by omega)]
  have hleaves : Leaves (fun x => ∃ j ∈ s.partCores k, x = rSeqCtxStatus j) s ((s.dropRun k).ctxCleared (s.partCores k)) :=
    .foldl (fun _ j hj hu => .setFld (.setFld hu ⟨j, hj, rfl⟩) ⟨j, hj, rfl⟩) (.dropRun .refl)
  exact hleaves.fld (fun ⟨j, _, he⟩ => rSeqCtxStatus_ne_rZenPart hk j he.symm) hi lo

theorem partitionsManaged_reset (s : State) (i k : Nat) (hok : s.RegsOk) (h : s.mailboxPart i k) (h3 : s.pstate k ≠ 3) (h4 : s.pstate k ≠ 4)
    (hdump : (s.part k).dumpState ≠ 1) (hloading : (s.part k).loading = none) (hreads : s.reads = []) (hconf : s.conf k = false) :
    ∃ t : State, exec (.partitionReset i k) s = .next t ∧ t.answered i 0 ∧ t.pstate k = 0 ∧ (t.part k).image = none ∧ SameMem s t ∧
      ∀ r, s.partReg k r = false → r ∉ rZenPart k :: mailboxRegs i → t.reg r = s.reg r := by
  have hk : k < 4 := h.2.1
  have hexec := execPartitionReset_mine h
  have hreset := State.resetPart_idle (s := s.heard i) (k := k) h3 h4 hdump hreads
  have hbits : ∀ r, s.partReg k r = false → ((s.heard i).resetBits ((s.heard i).partMask k)).reg r = s.reg r := fun r hr => by
    have hmask : (s.heard i).partMask k r = 0 := if_neg (by rw [show (s.heard i).partReg k r = s.partReg k r from rfl, hr]; exact Bool.false_ne_true)
    rw [State.reg_resetBits (s := s.heard i) (State.agrees_of_regsOk (s := s) hok r), hmask, resetUnder_zero]
    rfl
  have hrest : ((s.heard i).resetBits ((s.heard i).partMask k)).part k = s.part k := rfl
  have hleaves : Leaves (fun _ => True) s ((s.heard i).resetBits ((s.heard i).partMask k)) := .resetBits (.heard .refl)
  generalize (s.heard i).resetBits ((s.heard i).partMask k) = u at *
  have hzen : u.reg (rZenPart k) = s.reg (rZenPart k) := hbits _ (s.partReg_rZenPart hk)
  have hfld : ∀ hi lo, u.fld (rZenPart k) hi lo = s.fld (rZenPart k) hi lo := fun hi lo => by rw [State.fld, hzen]; rfl
  have hcores : u.partCores k = s.partCores k := congrArg (maskList 4) (hfld 47 44)
  have hload : (u.part k).loading = none := by rw [hrest]; exact hloading
  have hconf' : (u.toUnloaded k).conf k = false := by
    rw [← hconf]
    unfold State.conf State.partValid
    rw [State.fld_toUnloaded_rZenPart hk hload (by omega) (by omega), State.fld_toUnloaded_rZenPart hk hload (by omega) (by omega), hfld, hfld]
  rw [if_neg (by rw [hconf']; exact fun hno => Bool.false_ne_true hno.1)] at hreset
  obtain ⟨hstate, himage, -⟩ := State.toUnloaded_spec hk hload
  obtain ⟨-, -, -, hpart⟩ := State.toUnloaded_kept hload
  have hun : Leaves (fun _ => True) s (u.toUnloaded k) := .toUnloaded hleaves fun _ _ => trivial
  have hregs : ∀ r, s.partReg k r = false → r ≠ rZenPart k → (u.toUnloaded k).reg r = s.reg r := fun r hr hne => by
    refine (State.reg_toUnloaded hload (fun j hj he => ?_) hne).trans (hbits r hr)
    rw [he, State.partReg_ctx (hcores ▸ hj)] at hr
    exact Bool.false_ne_true hr.symm
  generalize u.toUnloaded k = v at *
  have hshow : v.showPstat.part k = v.part k ∧ v.showPstat.reg = v.reg := ⟨rfl, rfl⟩
  have hshown : Leaves (fun _ => True) s v.showPstat := .showPstat hun
  obtain ⟨hspart, hsreg⟩ := hshow
  rw [State.resetAsked, hreset, if_neg (by rw [hspart, hpart]; exact Bool.false_ne_true)] at hexec
  have hsstate : v.showPstat.pstate k = 0 := by rw [State.pstate, State.fld, hsreg]; exact hstate
  generalize v.showPstat = w at *
  obtain ⟨hanswered, hans⟩ := w.mbAnswer_spec i 0x17 (result := resOk) (by decide)
  have hkept : (w.mbAnswer i 0x17 resOk).part k = w.part k := w.mbAnswer_keeps (State.part · k) (fun _ _ _ _ _ => rfl) i 0x17 resOk
  refine ⟨_, hexec, hanswered, (hans.fld (rZenPart_notMem_mailboxRegs hk) 59 57).trans hsstate, ?_, (hshown.trans (hans.mono fun _ _ => trivial)).sameMem,
    fun r hr hne => ?_⟩
  · rw [hkept, hspart]
    exact himage
  · obtain ⟨hnp, hnm⟩ := not_or.mp (mt List.mem_cons.mpr hne)
    rw [hans.reg r hnm, hsreg]
    exact hregs r hr hnp

end Sys2Proof.Machine
end

section
/-! PROOF. PARTITION_CONFIG (R512–R514, R546). -/
namespace Sys2Proof.Machine

/-! The words of a configuration (R512, R547). -/

/-- The ZEN_PART word of a partition that a shape may have. -/
def configWord (p : Option (Nat × Nat)) (c : PartCfg) : Nat := match p with | some p => partWord p c | none => 0

/-- The four ZEN_PART words of a configuration. -/
def configWords (shape : Nat) (ps : List PartCfg) : List Nat :=
  (List.range 4).map fun k => configWord ((shapeParts shape).find? fun p => p.1 == k) (ps.getD k {})

theorem getD_configWords (shape : Nat) (ps : List PartCfg) {k : Nat} (hk : k < 4) :
    (configWords shape ps).getD k 0 = configWord ((shapeParts shape).find? fun p => p.1 == k) (ps.getD k {}) := by
  rw [configWords, List.getD_eq_getElem?_getD, List.getElem?_map, List.getElem?_range hk, Option.map_some, Option.getD_some]

/-- The lowest cores whose partition the words change. -/
def State.changedBy (s : State) (ws : List Nat) : List Nat :=
  (List.range 4).filter fun k => partKey (s.reg (rZenPart k)).toNat != partKey (ws.getD k 0)

/-- Those of them that the shape has. -/
def newOf (shape : Nat) (changed : List Nat) : List Nat := changed.filter fun k => (shapeParts shape).any fun p => p.1 == k

theorem shapeParts_lt {shape : Nat} (hshape : shape ≤ 3) : ∀ p ∈ shapeParts shape, p.1 < 4 ∧ p.2 < 16 := by
  obtain rfl | rfl | rfl | rfl : shape = 0 ∨ shape = 1 ∨ shape = 2 ∨ shape = 3 := by omega
  all_goals decide

theorem find_shapeParts {shape : Nat} (hshape : shape ≤ 3) : ∀ p ∈ shapeParts shape, (shapeParts shape).find? (fun q => q.1 == p.1) = some p := by
  obtain rfl | rfl | rfl | rfl : shape = 0 ∨ shape = 1 ∨ shape = 2 ∨ shape = 3 := by omega
  all_goals decide

theorem getD_configWords_of_mem {shape : Nat} (hshape : shape ≤ 3) (ps : List PartCfg) {p : Nat × Nat} (hp : p ∈ shapeParts shape) :
    (configWords shape ps).getD p.1 0 = partWord p (ps.getD p.1 {}) := by
  rw [getD_configWords shape ps (shapeParts_lt hshape p hp).1, find_shapeParts hshape p hp, configWord]

theorem getD_configWords_of_notMem {shape k : Nat} (hk : k < 4) (ps : List PartCfg) (h : k ∉ (shapeParts shape).map (·.1)) :
    (configWords shape ps).getD k 0 = 0 := by
  have hnone : (shapeParts shape).find? (fun p => p.1 == k) = none :=
    List.find?_eq_none.mpr fun p hp he => h (List.mem_map.mpr ⟨p, hp, by simpa using he⟩)
  rw [getD_configWords shape ps hk, hnone, configWord]

/-- What ZEN_PART says of a partition, its state apart (R547). -/
structure PartShown (w : Word) (p : Nat × Nat) (c : PartCfg) : Prop where
  valid : getF w 63 63 = 1
  conf : getF w 62 62 = if c.confidential then 1 else 0
  owner : getF w 61 61 = c.owner
  links : getF w 53 48 = c.links
  cores : getF w 47 44 = p.2

theorem partWord_lt {p : Nat × Nat} {c : PartCfg} (hp : p.2 < 16) : partWord p c < 2 ^ 64 := by
  unfold partWord
  have h1 : (if c.confidential then 2 ^ 62 else 0 : Nat) ≤ 2 ^ 62 := by split <;> omega
  have h2 : (if c.flrReset then 2 ^ 60 else 0 : Nat) ≤ 2 ^ 60 := by split <;> omega
  omega

theorem partShown_partWord {p : Nat × Nat} {c : PartCfg} (hp : p.2 < 16) (howner : c.owner ≤ 1) (hlinks : c.links < 64) :
    PartShown (BitVec.ofNat 64 (partWord p c)) p c := by
  have hbits : ∀ hi lo, getF (BitVec.ofNat 64 (partWord p c)) hi lo = partWord p c / 2 ^ lo % 2 ^ (hi + 1 - lo) := fun hi lo => by
    rw [getF, BitVec.toNat_ofNat, Nat.mod_eq_of_lt (partWord_lt hp)]
  have hsum : ∃ a b, a ≤ 1 ∧ b ≤ 1 ∧ a = (if c.confidential then 1 else 0) ∧
      partWord p c = 2 ^ 63 + a * 2 ^ 62 + c.owner * 2 ^ 61 + b * 2 ^ 60 + c.links * 2 ^ 48 + p.2 * 2 ^ 44 := by
    refine ⟨if c.confidential then 1 else 0, if c.flrReset then 1 else 0, by split <;> omega, by split <;> omega, rfl, ?_⟩
    unfold partWord
    rw [Nat.mod_eq_of_lt (show c.owner < 2 by omega), Nat.mod_eq_of_lt hlinks]
    cases c.confidential <;> cases c.flrReset <;> simp
  obtain ⟨a, b, ha, hb, hconf, hsum⟩ := hsum
  constructor
  all_goals rw [hbits, hsum]
  · omega
  · rw [← hconf]
    omega
  · omega
  · omega
  · omega

/-- Cores, owner and confidential flag go by the fields of ZEN_PART. -/
theorem partKey_toNat (w : Word) : partKey w.toNat = if getF w 63 63 = 0 then (0, 0, 0) else (getF w 47 44, getF w 61 61, getF w 62 62) := by
  have hlt : w.toNat < 2 ^ 64 := w.isLt
  have hvalid : getF w 63 63 = w.toNat / 2 ^ 63 := by
    unfold getF
    omega
  rw [hvalid]
  rfl

theorem partKey_congr {v w : Word} {p : Nat × Nat} {c : PartCfg} (hv : PartShown v p c) (hw : PartShown w p c) : partKey v.toNat = partKey w.toNat := by
  rw [partKey_toNat, partKey_toNat, hv.valid, hw.valid, hv.cores, hw.cores, hv.owner, hw.owner, hv.conf, hw.conf]

/-! The registers that a configuration writes. -/

/-- The registers that PARTITION_CONFIG writes, those of its answer apart. -/
inductive ConfigReg : Nat → Prop
  | layout : ConfigReg rZenLayout
  | trace : ConfigReg rDbgTraceCtrl
  | status : ConfigReg rDbgStatus
  | part {k : Nat} (h : k < 4) : ConfigReg (rZenPart k)
  | port {h : Nat} (hh : h < 2) : ConfigReg (rGlbPort + localStride * h)
  | stack {n : Nat} (h : n < 8) : ConfigReg (rMemStatus n)
  | link {p : Nat} (h : p < 6) : ConfigReg (rLnkStatus p)
  | ctx {j : Nat} (h : j < 4) : ConfigReg (rSeqCtxStatus j)
  | maint {r : Nat} (h : r ∈ maintRegs) : ConfigReg r
  | approved : ConfigReg rZenApproved

theorem clearingReg.config {k r : Nat} (hk : k < 4) (h : clearingReg k r) : ConfigReg r := by
  rcases h with (rfl | ⟨j, hj, rfl⟩ | rfl) | h
  · exact .approved
  · exact .ctx hj
  · exact .part hk
  · exact .maint h

theorem ConfigReg.not_mailbox {i r : Nat} (hi : i ≤ 2) (hr : r = rZenMbStatus + mbOfs i ∨ r = rZenMbCmd + mbOfs i) : ¬ConfigReg r := by
  have hmaint : r ∉ maintRegs := mailboxRegs_notMem_maintRegs hi r (mem_mailboxRegs (by
    rcases hr with rfl | rfl
    · exact .inr (.inl rfl)
    · exact .inr (.inr (.inl rfl))))
  unfold rZenMbStatus rZenMbCmd mbOfs localStride at hr
  intro h
  cases h with
  | maint h => exact hmaint h
  | layout => unfold rZenLayout at hr; omega
  | trace => unfold rDbgTraceCtrl at hr; omega
  | status => unfold rDbgStatus at hr; omega
  | part h => unfold rZenPart at hr; omega
  | port h => unfold rGlbPort localStride at hr; omega
  | stack h => unfold rMemStatus at hr; omega
  | link h => unfold rLnkStatus at hr; omega
  | ctx h => unfold rSeqCtxStatus at hr; omega
  | approved => unfold rZenApproved at hr; omega

theorem ConfigReg.mem {i r : Nat} (h : ConfigReg r) : r ∈ [rZenLayout, rDbgTraceCtrl, rDbgStatus] ++ ((List.range 4).map rZenPart ++
    ((List.range 2).map (fun h => rGlbPort + localStride * h) ++ ((List.range 8).map rMemStatus ++ ((List.range 6).map rLnkStatus ++
    (ctxRegs ++ (maintRegs ++ mailboxRegs i)))))) := by
  simp only [List.mem_append]
  cases h with
  | layout => exact .inl (by simp)
  | trace => exact .inl (by simp)
  | status => exact .inl (by simp)
  | part h => exact .inr (.inl (List.mem_map_of_mem (List.mem_range.mpr h)))
  | port h => exact .inr (.inr (.inl (List.mem_map.mpr ⟨_, List.mem_range.mpr h, rfl⟩)))
  | stack h => exact .inr (.inr (.inr (.inl (List.mem_map_of_mem (List.mem_range.mpr h)))))
  | link h => exact .inr (.inr (.inr (.inr (.inl (List.mem_map_of_mem (List.mem_range.mpr h))))))
  | ctx h => exact .inr (.inr (.inr (.inr (.inr (.inl (rSeqCtxStatus_mem_ctxRegs h))))))
  | maint h => exact .inr (.inr (.inr (.inr (.inr (.inr (.inl h))))))
  | approved => exact .inr (.inr (.inr (.inr (.inr (.inr (.inr (mem_mailboxRegs (.inr (.inr (.inr rfl)))))))))) 

/-! The new configuration in place of the old (R514). -/

/-- The partitions that change dropped. -/
def State.partsDropped (s : State) (changed : List Nat) : State := changed.foldl (fun s k => if s.partValid k then s.dropPart k else s) s

/-- A ZEN_PART word of the new configuration. -/
def State.wordSet (s : State) (ws changed : List Nat) (k : Nat) : State :=
  (s.setReg (rZenPart k) (BitVec.ofNat 64 (ws.getD k 0))).setFld (rZenPart k) 59 57 (if changed.contains k then 0 else s.pstate k)

/-- What follows the partitions shown, and trace capture ended where one is confidential. -/
def State.ownersShown (s : State) : State := (if s.showOwners.anyConf then s.showOwners.stopTrace else s.showOwners).showPstat

theorem State.configure_eq (s : State) (shape : Nat) (ws changed : List Nat) : s.configure shape ws changed =
    ((List.range 4).foldl (fun s k => s.wordSet ws changed k) ((s.partsDropped changed).setFld rZenLayout 2 0 shape)).ownersShown := rfl

theorem Leaves.dropPart {P : Nat → Prop} {s t : State} {k : Nat} (h : Leaves P s t) (hP : ∀ r, unloadReg k r → P r) : Leaves P s (t.dropPart k) :=
  .upd (h.toUnloaded hP)

/-- What follows the partitions is no ZEN_PART word, and no layout. -/
inductive OwnerReg : Nat → Prop
  | trace : OwnerReg rDbgTraceCtrl
  | status : OwnerReg rDbgStatus
  | port {h : Nat} (hh : h < 2) : OwnerReg (rGlbPort + localStride * h)
  | stack {n : Nat} (h : n < 8) : OwnerReg (rMemStatus n)
  | link {p : Nat} (h : p < 6) : OwnerReg (rLnkStatus p)

theorem OwnerReg.config {r : Nat} (h : OwnerReg r) : ConfigReg r := by
  cases h with
  | trace => exact .trace
  | status => exact .status
  | port h => exact .port h
  | stack h => exact .stack h
  | link h => exact .link h

theorem OwnerReg.not_zen {r : Nat} (h : (∃ k < 4, r = rZenPart k) ∨ r = rZenLayout) : ¬OwnerReg r := by
  intro ho
  unfold rZenPart rZenLayout at h
  cases ho with
  | trace => unfold rDbgTraceCtrl at h; omega
  | status => unfold rDbgStatus at h; omega
  | port hh => unfold rGlbPort localStride at h; omega
  | stack hn => unfold rMemStatus at h; omega
  | link hp => unfold rLnkStatus at h; omega

theorem Leaves.showOwner {P : Nat → Prop} {s t : State} {p : Nat} (h : Leaves P s t) (hP : P (rLnkStatus p)) : Leaves P s (t.showOwner p) := by
  unfold State.showOwner
  split
  · exact .setFld (.setFld h hP) hP
  · exact .setFld (.setFld h hP) hP

theorem State.leaves_ownersShown (s : State) : Leaves OwnerReg s s.ownersShown := by
  have hshow : Leaves OwnerReg s s.showOwners := .setFld (.foldl (fun _ _ hp hu => hu.showOwner (.link (List.mem_range.mp hp)))
    (.foldl (fun _ _ hn hu => .setFld hu (.stack (List.mem_range.mp hn))) (.foldl (fun _ _ hh hu => .setFld hu (.port (List.mem_range.mp hh))) .refl)))
    .status
  exact .showPstat (.ite (.upd (.setFld (.setFld hshow .trace) .status)) hshow)

theorem State.showOwners_keeps {β : Type} (g : State → β) (hg : ∀ (s : State) r, g { s with regs := r } = g s) (s : State) : g s.showOwners = g s := by
  have howner : ∀ (u : State) (p : Nat), g (u.showOwner p) = g u := fun u p => by
    unfold State.showOwner
    split
    · exact (hg _ _).trans (hg _ _)
    · exact (hg _ _).trans (hg _ _)
  unfold State.showOwners
  dsimp only
  refine (hg _ _).trans ((foldl_keeps g howner _ _).trans ((foldl_keeps g (fun _ _ => hg _ _) _ _).trans (foldl_keeps g (fun _ _ => hg _ _) _ _)))

theorem State.ownersShown_keeps {β : Type} (g : State → β) (hg : ∀ (s : State) r t p, g { s with regs := r, trace := t, pstat := p } = g s) (s : State) :
    g s.ownersShown = g s := by
  have hshow : g s.showOwners = g s := s.showOwners_keeps g fun u r => hg u r u.trace u.pstat
  unfold State.ownersShown
  split
  · exact (hg _ s.showOwners.stopTrace.regs s.showOwners.stopTrace.trace _).trans ((hg s.showOwners _ {} s.showOwners.pstat).trans hshow)
  · exact (hg _ s.showOwners.regs s.showOwners.trace _).trans hshow

/-- The ZEN_PART words set, each by its own. -/
theorem State.reg_wordsSet (s : State) (ws changed : List Nat) {k : Nat} (hk : k < 4) :
    ((List.range 4).foldl (fun s k => s.wordSet ws changed k) s).reg (rZenPart k) =
      setF (BitVec.ofNat 64 (ws.getD k 0)) 59 57 (if changed.contains k then 0 else getF (s.reg (rZenPart k)) 59 57) := by
  refine foldl_once (f := fun (s : State) (k : Nat) => s.wordSet ws changed k) (fun t => t.reg (rZenPart k))
    (fun w => setF (BitVec.ofNat 64 (ws.getD k 0)) 59 57 (if changed.contains k then 0 else getF w 59 57)) (fun _ => True) (fun t _ => ?_)
    (fun t j hj => ?_) (fun _ _ _ => trivial) List.nodup_range (List.mem_range.mpr hk) trivial
  · rw [State.wordSet, State.setFld, State.reg_setReg_same, State.reg_setReg_same]
    rfl
  · have hne : rZenPart k ≠ rZenPart j := by
      unfold rZenPart
      omega
    rw [State.wordSet, State.reg_setFld_ne _ _ _ _ hne, State.reg_setReg_ne _ _ hne]

/-! What an unloading and a Clearing leave of ZEN_PART. -/

/-- An unloading writes its partition's state last. -/
theorem State.exists_toUnloaded (s : State) (k : Nat) : ∃ u : State, s.toUnloaded k = u.setPstate k 0 ∧ u.maint = s.maint ∧
    Leaves (fun r => r = rZenApproved ∨ ∃ j < 4, r = rSeqCtxStatus j) s u := by
  have hdrop : ∀ u : State, (u.dropRun k).maint = u.maint := fun _ => rfl
  have hctx : ∀ u : State, ((u.partCores k).foldl (fun s j => (s.setFld (rSeqCtxStatus j) 1 0 0).setFld (rSeqCtxStatus j) 15 8 0) u).maint = u.maint := fun u =>
    foldl_keeps (f := fun (s : State) (j : Nat) => (s.setFld (rSeqCtxStatus j) 1 0 0).setFld (rSeqCtxStatus j) 15 8 0) State.maint (fun _ _ => rfl) _ u
  have hcores : ∀ u : State, Leaves (fun r => r = rZenApproved ∨ ∃ j < 4, r = rSeqCtxStatus j) s u → Leaves (fun r => r = rZenApproved ∨ ∃ j < 4,
      r = rSeqCtxStatus j) s ((u.partCores k).foldl (fun s j => (s.setFld (rSeqCtxStatus j) 1 0 0).setFld (rSeqCtxStatus j) 15 8 0) u) := fun u hu =>
    .foldl (fun _ j hj hw => .setFld (.setFld hw (.inr ⟨j, State.lt_of_mem_partCores hj, rfl⟩)) (.inr ⟨j, State.lt_of_mem_partCores hj, rfl⟩)) hu
  unfold State.toUnloaded
  dsimp only
  refine ⟨_, rfl, (hctx _).trans ((hdrop _).trans ?_), hcores _ (.dropRun ?_)⟩
  · split
    · exact State.mbFinish_keeps State.maint (fun _ _ _ _ _ => rfl) _ _ _ _ _
    · rfl
  · split
    · exact Leaves.refl.mbFinish (.inl rfl)
    · exact .refl

/-- The fields of ZEN_PART but the partition's state. -/
def OtherField (hi lo : Nat) : Prop := lo ≤ hi ∧ hi < 64 ∧ (59 < lo ∨ hi < 57)

theorem State.fld_setPstate_other (s : State) (j n k : Nat) {hi lo : Nat} (h : OtherField hi lo) :
    (s.setPstate j n).fld (rZenPart k) hi lo = s.fld (rZenPart k) hi lo := by
  obtain ⟨hle, hhi, hne⟩ := h
  by_cases hjk : k = j
  · subst hjk
    exact State.fld_setFld_disjoint _ _ _ _ _ _ _ (by omega) (by omega) hhi (by omega)
  · refine State.fld_setFld_ne _ _ _ _ _ _ fun he => hjk ?_
    unfold rZenPart at he
    omega

theorem State.fld_toUnloaded_other (s : State) (j : Nat) {k hi lo : Nat} (hk : k < 4) (h : OtherField hi lo) :
    (s.toUnloaded j).fld (rZenPart k) hi lo = s.fld (rZenPart k) hi lo := by
  obtain ⟨u, heq, -, hleaves⟩ := s.exists_toUnloaded j
  rw [heq, State.fld_setPstate_other u j 0 k h]
  refine hleaves.fld ?_ hi lo
  rintro (he | ⟨i, -, he⟩)
  · unfold rZenPart rZenApproved at he
    omega
  · exact rSeqCtxStatus_ne_rZenPart hk i he.symm

theorem State.fld_beginClearing_other (s : State) (j : Nat) (ts : List (Nat × Nat × Nat)) {k hi lo : Nat} (hk : k < 4) (h : OtherField hi lo) :
    (s.beginClearing j ts).fld (rZenPart k) hi lo = s.fld (rZenPart k) hi lo := by
  have hgrant : Leaves (· ∈ maintRegs) s (s.maintGrant 7 j) := .maintGrant .refl fun _ hr => hr
  unfold State.beginClearing
  dsimp only
  rw [State.fld_laterW, State.showPstat_keeps (State.fld · (rZenPart k) hi lo) fun _ _ => rfl, State.fld_modPart, State.fld_setPstate_other _ j 3 k h,
    State.fld_toUnloaded_other _ j hk h]
  exact hgrant.fld (rZenPart_notMem_maintRegs hk) hi lo

/-! The configuration. -/

theorem State.maint_configure (s : State) (shape : Nat) (ws changed : List Nat) : (s.configure shape ws changed).maint = s.maint := by
  have hdrop : (s.partsDropped changed).maint = s.maint :=
    foldl_keeps (f := fun (s : State) (k : Nat) => if s.partValid k then s.dropPart k else s) State.maint (fun u k => by
      split
      · obtain ⟨v, heq, hmaint, -⟩ := u.exists_toUnloaded k
        unfold State.dropPart
        rw [heq]
        exact hmaint
      · rfl) _ s
  rw [State.configure_eq, State.ownersShown_keeps State.maint fun _ _ _ _ => rfl,
    foldl_keeps (f := fun (s : State) (k : Nat) => s.wordSet ws changed k) State.maint fun _ _ => rfl]
  exact hdrop

theorem State.stepping_dropPart {s : State} {j : Nat} (k : Nat) (h : s.stepping j = false) : (s.dropPart k).stepping j = false := by
  have hpart : (s.dropPart k).part j = if j = k then default else (s.toUnloaded k).part j := SMap.get_erase _ _ _
  unfold State.stepping
  rw [hpart]
  by_cases hjk : j = k
  · rw [if_pos hjk]
    rfl
  · rw [if_neg hjk, State.part_toUnloaded_ne s hjk]
    exact h

theorem State.stepping_configure {s : State} (shape : Nat) (ws changed : List Nat) {j : Nat} (h : s.stepping j = false) :
    (s.configure shape ws changed).stepping j = false := by
  have hdrop : ∀ (l : List Nat) (u : State), u.stepping j = false → (u.partsDropped l).stepping j = false := by
    intro l
    induction l with
    | nil => exact fun _ hu => hu
    | cons k l ih =>
      intro u hu
      rw [State.partsDropped, List.foldl_cons]
      refine ih _ ?_
      split
      · exact State.stepping_dropPart k hu
      · exact hu
  have hparts : (s.configure shape ws changed).parts = (s.partsDropped changed).parts := by
    rw [State.configure_eq, State.ownersShown_keeps State.parts fun _ _ _ _ => rfl,
      foldl_keeps (f := fun (s : State) (k : Nat) => s.wordSet ws changed k) State.parts fun _ _ => rfl]
    rfl
  have hd := hdrop changed s h
  unfold State.stepping State.part at *
  rw [hparts]
  exact hd

/-- No activity and no step stands in the way of a Clearing after a configuration (R546). -/
theorem State.maintConflict_configure {s : State} (shape : Nat) (ws changed : List Nat) {j : Nat} (hmaint : s.maint = []) (h : s.stepping j = false) :
    (s.configure shape ws changed).maintConflict 7 j = none := by
  have hstep := State.stepping_configure shape ws changed h
  have hnone := (s.maint_configure shape ws changed).trans hmaint
  generalize s.configure shape ws changed = u at *
  unfold State.maintConflict
  rw [hnone]
  show (if (u.stepping j && maintRule 7 8 == 0) = true then some 0 else none) = none
  rw [hstep]
  rfl

/-- The configuration leaves memory and sets the words (R514). -/
theorem State.configure_spec {s : State} {shape : Nat} (hshape : shape < 8) (ws : List Nat) {changed : List Nat} (hchanged : ∀ k ∈ changed, k < 4) :
    (s.configure shape ws changed).fld rZenLayout 2 0 = shape ∧ Leaves ConfigReg s (s.configure shape ws changed) ∧
    ∀ k < 4, ∃ x, (s.configure shape ws changed).reg (rZenPart k) = setF (BitVec.ofNat 64 (ws.getD k 0)) 59 57 x ∧ (s.pstate k = 0 → x = 0) := by
  have hdrop : Leaves (fun r => ∃ k ∈ changed, unloadReg k r) s (s.partsDropped changed) :=
    .foldl (fun _ k hk hu => .ite (hu.dropPart fun _ hr => ⟨k, hk, hr⟩) hu) .refl
  have hwords : ∀ u : State, Leaves (fun r => ∃ k < 4, r = rZenPart k) u ((List.range 4).foldl (fun s k => s.wordSet ws changed k) u) := fun u =>
    .foldl (fun _ k hk hu => .setFld (.setReg hu ⟨k, List.mem_range.mp hk, rfl⟩) ⟨k, List.mem_range.mp hk, rfl⟩) .refl
  have hlayout : ((s.partsDropped changed).setFld rZenLayout 2 0 shape).fld rZenLayout 2 0 = shape := by
    rw [State.fld_setFld_same _ _ _ _ _ (by omega) (by omega)]
    exact Nat.mod_eq_of_lt hshape
  have hset : Leaves ConfigReg s ((s.partsDropped changed).setFld rZenLayout 2 0 shape) :=
    .setFld (hdrop.mono fun r ⟨k, hk, hr⟩ => clearingReg.config (hchanged k hk) (.inl hr)) .layout
  have hold : ∀ k < 4, k ∉ changed → ((s.partsDropped changed).setFld rZenLayout 2 0 shape).reg (rZenPart k) = s.reg (rZenPart k) := fun k hk hno => by
    rw [State.reg_setFld_ne _ _ _ _ (by unfold rZenPart rZenLayout; omega)]
    refine hdrop.reg _ ?_
    rintro ⟨j, hj, he | ⟨i, hi, he⟩ | he⟩
    · unfold rZenPart rZenApproved at he
      omega
    · exact rSeqCtxStatus_ne_rZenPart hk i he.symm
    · unfold rZenPart at he
      exact hno ((show k = j by omega) ▸ hj)
  rw [State.configure_eq]
  generalize (s.partsDropped changed).setFld rZenLayout 2 0 shape = u at *
  have hreg := fun k (hk : k < 4) => u.reg_wordsSet ws changed hk
  have hw := hwords u
  generalize (List.range 4).foldl (fun s k => s.wordSet ws changed k) u = v at *
  have howners := v.leaves_ownersShown
  generalize v.ownersShown = t at *
  refine ⟨?_, (hset.trans (hw.mono fun r ⟨k, hk, hr⟩ => hr ▸ .part hk)).trans (howners.mono fun _ hr => hr.config), fun k hk => ?_⟩
  · rw [howners.fld (OwnerReg.not_zen (.inr rfl)), hw.fld ?_, hlayout]
    rintro ⟨k, hk, he⟩
    unfold rZenLayout rZenPart at he
    omega
  · refine ⟨_, (howners.reg _ (OwnerReg.not_zen (.inl ⟨k, hk, rfl⟩))).trans (hreg k hk), fun hz => ?_⟩
    by_cases hc : k ∈ changed
    · rw [if_pos (List.contains_iff_mem.mpr hc)]
    · rw [if_neg (mt List.contains_iff_mem.mp hc), hold k hk hc]
      exact hz

theorem PartShown.setF {w : Word} {p : Nat × Nat} {c : PartCfg} (h : PartShown w p c) (x : Nat) : PartShown (setF w 59 57 x) p c := by
  constructor
  · rw [getF_setF_disjoint _ _ _ _ _ _ (by omega) (by omega) (by omega) (by omega), h.valid]
  · rw [getF_setF_disjoint _ _ _ _ _ _ (by omega) (by omega) (by omega) (by omega), h.conf]
  · rw [getF_setF_disjoint _ _ _ _ _ _ (by omega) (by omega) (by omega) (by omega), h.owner]
  · rw [getF_setF_disjoint _ _ _ _ _ _ (by omega) (by omega) (by omega) (by omega), h.links]
  · rw [getF_setF_disjoint _ _ _ _ _ _ (by omega) (by omega) (by omega) (by omega), h.cores]

theorem PartShown.congr {v w : Word} {p : Nat × Nat} {c : PartCfg} (h : PartShown w p c) (heq : ∀ hi lo, OtherField hi lo → getF v hi lo = getF w hi lo) :
    PartShown v p c :=
  ⟨(heq _ _ ⟨by omega, by omega, by omega⟩).trans h.valid, (heq _ _ ⟨by omega, by omega, by omega⟩).trans h.conf,
    (heq _ _ ⟨by omega, by omega, by omega⟩).trans h.owner, (heq _ _ ⟨by omega, by omega, by omega⟩).trans h.links,
    (heq _ _ ⟨by omega, by omega, by omega⟩).trans h.cores⟩

/-- What ZEN_PART shows, read by the accessors. -/
theorem PartShown.read {s : State} {p : Nat × Nat} {c : PartCfg} (h : PartShown (s.reg (rZenPart p.1)) p c) : s.partValid p.1 = true ∧
    s.partCores p.1 = maskList 4 p.2 ∧ s.owner p.1 = c.owner ∧ s.conf p.1 = c.confidential ∧ s.fld (rZenPart p.1) 53 48 = c.links := by
  have hvalid : s.partValid p.1 = true := beq_iff_eq.mpr h.valid
  refine ⟨hvalid, congrArg (maskList 4) h.cores, h.owner, ?_, h.links⟩
  have hconf : s.fld (rZenPart p.1) 62 62 = if c.confidential then 1 else 0 := h.conf
  unfold State.conf
  rw [hvalid, hconf]
  cases c.confidential <;> rfl

/-! PARTITION_CONFIG (R512–R514, R529, R542, R546). -/

/-- The changed partitions that the shape has begin Clearing. -/
def State.clearsBegun (s : State) (new : List Nat) (x : Nat × Nat × Nat) : State := new.foldl (fun s k => s.beginClearing k [x]) s

/-- What PARTITION_CONFIG does once it is accepted. -/
def State.reconfigured (s : State) (i shape : Nat) (ws changed : List Nat) (t : Nat) : State :=
  if (newOf shape changed).isEmpty then ((s.configure shape ws changed).clearsBegun (newOf shape changed) (i, t, 0x20)).mbFinish i t resOk 0
  else (s.configure shape ws changed).clearsBegun (newOf shape changed) (i, t, 0x20)

/-- Two partitions share a link. -/
def linksClash (shape : Nat) (ps : List PartCfg) : Bool :=
  (shapeParts shape).any fun p => (shapeParts shape).any fun q => decide (p.1 < q.1) && Nat.land (ps.getD p.1 {}).links (ps.getD q.1 {}).links != 0

/-- An owner that is no port, or a link that is none. -/
def cfgBad (shape : Nat) (ps : List PartCfg) : Bool :=
  (shapeParts shape).any fun p => decide (1 < (ps.getD p.1 {}).owner) || decide (64 ≤ (ps.getD p.1 {}).links)

/-- PARTITION_CONFIG behind the gates. -/
def State.configAsked (i shape : Nat) (ps : List PartCfg) (s : State) : State :=
  if 3 < shape ∨ linksClash shape ps ∨ cfgBad shape ps ∨ (s.zen.unlocked ∧ (shapeParts shape).any fun p => (ps.getD p.1 {}).confidential) then
    s.mbAnswer i 0x20 0x22
  else if (s.changedBy (configWords shape ps)).any fun k => s.partValid k && (s.pstate k != 0 || (s.part k).loading.isSome || (s.part k).clearAfter) then
    s.mbAnswer i 0x20 0x21
  else
    match (newOf shape (s.changedBy (configWords shape ps))).findSome?
      (fun k => (s.configure shape (configWords shape ps) (s.changedBy (configWords shape ps))).maintConflict 7 k) with
    | some c => s.mbResult i 0x20 0x27 c 0 []
    | none => s.accepted i 0x20 fun u t => u.reconfigured i shape (configWords shape ps) (s.changedBy (configWords shape ps)) t

theorem execPartitionConfig_open {s : State} {i : Nat} (shape : Nat) (ps : List PartCfg) (h : s.mailboxOpen i 2) :
    exec (.partitionConfig i shape ps) s = .next ((s.heard i).configAsked i shape ps) :=
  State.mailbox_open (code := 0x20) (State.configAsked i shape ps) h

theorem State.lt_of_mem_changedBy {s : State} {ws : List Nat} {k : Nat} (h : k ∈ s.changedBy ws) : k < 4 := List.mem_range.mp (List.mem_filter.mp h).1

theorem State.configAsked_free {s : State} {i shape : Nat} {ps : List PartCfg} (hshape : shape ≤ 3)
    (hcfg : ∀ p ∈ shapeParts shape, (ps.getD p.1 {}).owner ≤ 1 ∧ (ps.getD p.1 {}).links < 64)
    (hlinks : ∀ p ∈ shapeParts shape, ∀ q ∈ shapeParts shape, p.1 < q.1 → Nat.land (ps.getD p.1 {}).links (ps.getD q.1 {}).links = 0)
    (hlocked : s.zen.unlocked = false) (hmaint : s.maint = [])
    (hidle : ∀ k, k < 4 → s.pstate k = 0 ∧ (s.part k).loading = none ∧ (s.part k).clearAfter = false ∧ s.stepping k = false) :
    s.configAsked i shape ps = s.accepted i 0x20 fun u t => u.reconfigured i shape (configWords shape ps) (s.changedBy (configWords shape ps)) t := by
  have hclash : linksClash shape ps = false := List.any_eq_false.mpr fun p hp => Bool.eq_false_iff.mp (List.any_eq_false.mpr fun q hq => by
    by_cases hpq : p.1 < q.1
    · rw [hlinks p hp q hq hpq, bne_self_eq_false, Bool.and_false]
      exact Bool.false_ne_true
    · simp [hpq])
  have hbad : cfgBad shape ps = false := List.any_eq_false.mpr fun p hp => by
    obtain ⟨howner, hlink⟩ := hcfg p hp
    simp only [Bool.or_eq_true, decide_eq_true_eq]
    omega
  have hnext : (s.changedBy (configWords shape ps)).any (fun k => s.partValid k && (s.pstate k != 0 || (s.part k).loading.isSome || (s.part k).clearAfter)) =
      false := List.any_eq_false.mpr fun k hk => by
    obtain ⟨hstate, hload, hafter, -⟩ := hidle k (State.lt_of_mem_changedBy hk)
    rw [hstate, hload, hafter]
    simp
  have hfree : (newOf shape (s.changedBy (configWords shape ps))).findSome?
      (fun k => (s.configure shape (configWords shape ps) (s.changedBy (configWords shape ps))).maintConflict 7 k) = none :=
    List.findSome?_eq_none_iff.mpr fun k hk =>
      State.maintConflict_configure _ _ _ hmaint (hidle k (State.lt_of_mem_changedBy (List.mem_filter.mp hk).1)).2.2.2
  unfold State.configAsked
  rw [hclash, hbad, hlocked, if_neg (by simp; omega), hnext, if_neg Bool.false_ne_true, hfree]

theorem State.clearsBegun_spec (s : State) {new : List Nat} (x : Nat × Nat × Nat) (hnodup : new.Nodup) (hnew : ∀ k ∈ new, k < 4) :
    (∀ k ∈ new, (s.clearsBegun new x).pstate k = 3) ∧ Leaves (fun r => ∃ k ∈ new, clearingReg k r) s (s.clearsBegun new x) ∧
    ∀ k < 4, ∀ hi lo, OtherField hi lo → (s.clearsBegun new x).fld (rZenPart k) hi lo = s.fld (rZenPart k) hi lo := by
  refine ⟨fun k hk => ?_, .foldl (fun _ k hk hu => hu.beginClearing fun _ hr => ⟨k, hk, hr⟩) .refl, fun k hk hi lo hother => ?_⟩
  · refine foldl_once (f := fun (s : State) (k : Nat) => s.beginClearing k [x]) (fun t => t.pstate k) (fun _ => 3) (fun _ => True)
      (fun t _ => t.pstate_beginClearing k [x]) (fun t j hj => ?_) (fun _ _ _ => trivial) hnodup hk trivial
    have hleaves : Leaves (clearingReg j) t (t.beginClearing j [x]) := .beginClearing .refl fun _ hr => hr
    refine hleaves.fld ?_ 59 57
    rintro ((he | ⟨n, -, he⟩ | he) | he)
    · have := hnew k hk
      unfold rZenPart rZenApproved at he
      omega
    · exact rSeqCtxStatus_ne_rZenPart (hnew k hk) n he.symm
    · unfold rZenPart at he
      omega
    · exact rZenPart_notMem_maintRegs (hnew k hk) he
  · exact foldl_keeps (f := fun (s : State) (j : Nat) => s.beginClearing j [x]) (fun t => t.fld (rZenPart k) hi lo)
      (fun t j => t.fld_beginClearing_other j [x] hk hother) new s

theorem State.nodup_newOf (s : State) (shape : Nat) (ws : List Nat) : (newOf shape (s.changedBy ws)).Nodup := (List.nodup_range.filter _).filter _

/-- The partitions as PARTITION_CONFIG leaves them. -/
theorem State.reconfigured_spec {s u : State} {i shape n : Nat} {ps : List PartCfg} (hshape : shape ≤ 3)
    (hcfg : ∀ p ∈ shapeParts shape, (ps.getD p.1 {}).owner ≤ 1 ∧ (ps.getD p.1 {}).links < 64) (hidle : ∀ k, k < 4 → u.pstate k = 0) :
    (u.reconfigured i shape (configWords shape ps) (s.changedBy (configWords shape ps)) n).fld rZenLayout 2 0 = shape ∧
    Leaves ConfigReg u (u.reconfigured i shape (configWords shape ps) (s.changedBy (configWords shape ps)) n) ∧
    (∀ p ∈ shapeParts shape, PartShown ((u.reconfigured i shape (configWords shape ps) (s.changedBy (configWords shape ps)) n).reg (rZenPart p.1)) p
      (ps.getD p.1 {}) ∧ (p.1 ∈ s.changedBy (configWords shape ps) →
        (u.reconfigured i shape (configWords shape ps) (s.changedBy (configWords shape ps)) n).pstate p.1 = 3)) ∧
    ∀ k, k < 4 → k ∉ (shapeParts shape).map (·.1) →
      (u.reconfigured i shape (configWords shape ps) (s.changedBy (configWords shape ps)) n).reg (rZenPart k) = 0#64 := by
  have hnodup := s.nodup_newOf shape (configWords shape ps)
  have hchanged : ∀ k ∈ s.changedBy (configWords shape ps), k < 4 := fun _ hk => State.lt_of_mem_changedBy hk
  have hnew : ∀ k, k ∈ newOf shape (s.changedBy (configWords shape ps)) ↔
      k ∈ s.changedBy (configWords shape ps) ∧ k ∈ (shapeParts shape).map (·.1) := fun k => by
    rw [newOf, List.mem_filter]
    simp
  have hin := fun p (hp : p ∈ shapeParts shape) => getD_configWords_of_mem hshape ps hp
  have hout := fun k (hk : k < 4) hno => getD_configWords_of_notMem (shape := shape) hk ps hno
  unfold State.reconfigured
  generalize s.changedBy (configWords shape ps) = changed at *
  generalize newOf shape changed = new at *
  have hlt : ∀ k ∈ new, k < 4 := fun k hk => hchanged k ((hnew k).mp hk).1
  obtain ⟨hlayout, hconf, hwords⟩ := State.configure_spec (s := u) (shape := shape) (by omega) (configWords shape ps) hchanged
  generalize configWords shape ps = ws at *
  generalize u.configure shape ws changed = v at *
  obtain ⟨hstate, hleaves, hother⟩ := v.clearsBegun_spec (i, n, 0x20) hnodup hlt
  have hkeep : ∀ k < 4, k ∉ new → (v.clearsBegun new (i, n, 0x20)).reg (rZenPart k) = v.reg (rZenPart k) := fun k hk hno => by
    refine hleaves.reg _ ?_
    rintro ⟨j, hj, (he | ⟨l, -, he⟩ | he) | he⟩
    · unfold rZenPart rZenApproved at he
      omega
    · exact rSeqCtxStatus_ne_rZenPart hk l he.symm
    · unfold rZenPart at he
      exact hno ((show k = j by omega) ▸ hj)
    · exact rZenPart_notMem_maintRegs hk he
  have hlayout' : ¬∃ k ∈ new, clearingReg k rZenLayout := by
    rintro ⟨j, hj, (he | ⟨l, hl, he⟩ | he) | he⟩
    · exact absurd he (by decide)
    · unfold rZenLayout rSeqCtxStatus at he
      omega
    · unfold rZenLayout rZenPart at he
      omega
    · exact absurd he (by decide)
  have hclearing := hleaves.fld hlayout' 2 0
  have hleaves := hconf.trans (hleaves.mono fun r ⟨k, hk, hr⟩ => hr.config (hlt k hk))
  generalize v.clearsBegun new (i, n, 0x20) = w at *
  have hend : ∃ t : State, (if new.isEmpty then w.mbFinish i n resOk 0 else w) = t ∧ Leaves (· = rZenApproved) w t := by
    by_cases hempty : new.isEmpty = true
    · exact ⟨_, if_pos hempty, .mbFinish .refl rfl⟩
    · exact ⟨_, if_neg hempty, .refl⟩
  obtain ⟨t, ht, hlast⟩ := hend
  rw [ht]
  have hzen : ∀ k < 4, t.reg (rZenPart k) = w.reg (rZenPart k) := fun k hk => hlast.reg _ (by unfold rZenPart rZenApproved; omega)
  refine ⟨?_, hleaves.trans (hlast.mono fun _ hr => hr ▸ .approved), fun p hp => ⟨?_, fun hc => ?_⟩, fun k hk hno => ?_⟩
  · rw [hlast.fld (by decide), hclearing, hlayout]
  · have hp4 := shapeParts_lt hshape p hp
    obtain ⟨x, hx, -⟩ := hwords p.1 hp4.1
    rw [hzen p.1 hp4.1]
    refine ((partShown_partWord hp4.2 (hcfg p hp).1 (hcfg p hp).2).setF x).congr fun hi lo hf => ?_
    rw [← hin p hp, ← hx]
    exact hother p.1 hp4.1 hi lo hf
  · have hp4 := shapeParts_lt hshape p hp
    rw [State.pstate, State.fld, hzen p.1 hp4.1]
    exact hstate p.1 ((hnew p.1).mpr ⟨hc, List.mem_map_of_mem hp⟩)
  · obtain ⟨x, hx, hzero⟩ := hwords k hk
    rw [hzen k hk, hkeep k hk fun hin => hno ((hnew k).mp hin).2, hx, hout k hk hno, hzero (hidle k hk)]
    rfl

theorem partitionsManaged_config (s : State) (i shape : Nat) (ps : List PartCfg) (h : s.mailboxOpen i 2) (hshape : shape ≤ 3)
    (hcfg : ∀ p ∈ shapeParts shape, (ps.getD p.1 {}).owner ≤ 1 ∧ (ps.getD p.1 {}).links < 64)
    (hlinks : ∀ p ∈ shapeParts shape, ∀ q ∈ shapeParts shape, p.1 < q.1 → Nat.land (ps.getD p.1 {}).links (ps.getD q.1 {}).links = 0)
    (hlocked : s.zen.unlocked = false) (hmaint : s.maint = []) (hroom : s.ticketRoom i)
    (hidle : ∀ k, k < 4 → s.pstate k = 0 ∧ (s.part k).loading = none ∧ (s.part k).clearAfter = false ∧ s.stepping k = false) :
    ∃ t : State, exec (.partitionConfig i shape ps) s = .next t ∧ t.answered i 1 ∧ t.fld rZenLayout 2 0 = shape ∧
      (∀ p ∈ shapeParts shape, t.partValid p.1 = true ∧ t.partCores p.1 = maskList 4 p.2 ∧ t.owner p.1 = (ps.getD p.1 {}).owner ∧
        t.conf p.1 = (ps.getD p.1 {}).confidential ∧ t.fld (rZenPart p.1) 53 48 = (ps.getD p.1 {}).links ∧
        (partKey (s.reg (rZenPart p.1)).toNat ≠ partKey (t.reg (rZenPart p.1)).toNat → t.pstate p.1 = 3)) ∧
      (∀ k, k < 4 → k ∉ (shapeParts shape).map (·.1) → t.reg (rZenPart k) = 0#64) ∧ SameMem s t ∧
      SameRegsBut ([rZenLayout, rDbgTraceCtrl, rDbgStatus] ++ ((List.range 4).map rZenPart ++ ((List.range 2).map (fun h => rGlbPort + localStride * h) ++
        ((List.range 8).map rMemStatus ++ ((List.range 6).map rLnkStatus ++ (ctxRegs ++ (maintRegs ++ mailboxRegs i))))))) s t := by
  have hi : i ≤ 2 := h.1.2.1
  have hexec := execPartitionConfig_open shape ps h
  rw [State.configAsked_free (s := s.heard i) hshape hcfg hlinks hlocked hmaint hidle, State.accepted_room (s := s.heard i) _ _ hroom] at hexec
  obtain ⟨hanswered, -, hleaves⟩ := (s.heard i).ticketed_spec i 0x20
  have hleaves := (Leaves.heard (P := (· ∈ mailboxRegs i)) (s := s) (i := i) .refl).trans hleaves
  generalize (s.heard i).ticketed i 0x20 = u at *
  have hstate : ∀ k, k < 4 → u.pstate k = 0 := fun k hk => (hleaves.fld (rZenPart_notMem_mailboxRegs hk) 59 57).trans (hidle k hk).1
  obtain ⟨hlayout, hconfig, hparts, hgone⟩ := State.reconfigured_spec (s := s.heard i) (u := u) (i := i) (n := (s.heard i).zen.nextTicket) hshape hcfg hstate
  generalize u.reconfigured i shape (configWords shape ps) ((s.heard i).changedBy (configWords shape ps)) (s.heard i).zen.nextTicket = t at *
  have hall := (hleaves.mono fun r hr => by simp only [List.mem_append, hr, or_true]).trans (hconfig.mono fun r hr => hr.mem (i := i))
  refine ⟨t, hexec, State.answered_congr hanswered (hconfig.reg _ (ConfigReg.not_mailbox hi (.inl rfl))) (hconfig.reg _
    (ConfigReg.not_mailbox hi (.inr rfl))), hlayout, fun p hp => ?_, hgone, hall.sameMem, hall.sameRegsBut⟩
  obtain ⟨hshown, hclears⟩ := hparts p hp
  obtain ⟨hvalid, hcores, howner, hconf, hlink⟩ := hshown.read
  refine ⟨hvalid, hcores, howner, hconf, hlink, fun hne => hclears ?_⟩
  have hp4 := shapeParts_lt hshape p hp
  have hword := partShown_partWord (p := p) hp4.2 (hcfg p hp).1 (hcfg p hp).2
  refine List.mem_filter.mpr ⟨List.mem_range.mpr hp4.1, bne_iff_ne.mpr fun heq => hne ?_⟩
  rw [partKey_congr hshown hword, BitVec.toNat_ofNat, Nat.mod_eq_of_lt (partWord_lt hp4.2), ← getD_configWords_of_mem hshape ps hp]
  exact heq

/-- Settles O47: CLEAR, REKEY, PARTITION_RESET, and PARTITION_CONFIG. -/
theorem partitionsManaged : Obligations.PartitionsManaged :=
  ⟨partitionsManaged_clear, partitionsManaged_noClear, partitionsManaged_noRekey, partitionsManaged_rekey,
    fun s i k hok h h3 h4 hdump _ hloading hreads hconf => partitionsManaged_reset s i k hok h h3 h4 hdump hloading hreads hconf,
    partitionsManaged_config⟩

end Sys2Proof.Machine
end

section
/-! PROOF. SPDM requests, the session and the IDE stream (R518, R523–R527, R538). -/
namespace Sys2Proof.Machine

/-! Responses (R523, R604). -/

/-- A vector of a port changes its host record and the messages alone. -/
theorem State.msix_keeps {β : Type} (g : State → β) (hg : ∀ (s : State) h o, g { s with hosts := h, outbox := o } = g s) (s : State) (h v : Nat) :
    g (s.msix h v) = g s := by
  unfold State.msix
  split
  · rfl
  · split
    · exact hg s _ s.outbox
    · split
      · exact hg s _ s.outbox
      · exact hg s s.hosts _

/-- Of a port's record a vector changes no more than what it holds back. -/
theorem State.host_msix {β : Type} (g : HostPort → β) (hg : ∀ x l p, g { x with heldMsix := l, pba := p } = g x) (s : State) (h v j : Nat) :
    g ((s.msix h v).host j) = g (s.host j) := by
  have hmod : ∀ f : HostPort → HostPort, (∀ x, g (f x) = g x) → g ((s.modHost h f).host j) = g (s.host j) := fun f hf => by
    by_cases hj : j = h
    · subst hj
      rw [State.host_modHost_same]
      exact hf _
    · rw [State.host_modHost_ne s f hj]
  unfold State.msix
  split
  · rfl
  · split
    · exact hmod _ fun x => hg x _ x.pba
    · split
      · exact hmod _ fun x => hg x x.heldMsix _
      · rfl

theorem State.doe_keeps {β : Type} (g : State → β) (hg : ∀ (s : State) h o, g { s with hosts := h, outbox := o } = g s) (s : State) (h code : Nat)
    (content : List Nat) : g (s.doe h code content) = g s := (State.msix_keeps g hg _ h 6).trans (hg s s.hosts _)

theorem State.host_doe {β : Type} (g : HostPort → β) (hg : ∀ x l p, g { x with heldMsix := l, pba := p } = g x) (s : State) (h code j : Nat)
    (content : List Nat) : g ((s.doe h code content).host j) = g (s.host j) := State.host_msix g hg _ h 6 j

/-- A response goes out after what differs only in a port's record and in Zenith's. -/
theorem doeSent_doe {l : List Nat} {s u : State} (h code : Nat) (content : List Nat) (hleaves : Leaves (· ∈ l) s u) (hout : u.outbox = s.outbox) :
    doeSent l s (u.doe h code content) h code content := by
  obtain ⟨-, m, -, hm⟩ := Told.msix (u.out (.doe h code (Config.spdmBody code content))) h 6
  have hall : Leaves (· ∈ l) s (u.doe h code content) := (hleaves.out (o := .doe h code (Config.spdmBody code content))).next (.msix _ h 6) fun _ hr => hr
  refine ⟨⟨m, hm.trans ?_⟩, hall.sameMem, hall.sameRegsBut⟩
  rw [show (u.out (.doe h code (Config.spdmBody code content))).outbox = u.outbox ++ [.doe h code (Config.spdmBody code content)] from rfl, hout,
    List.append_assoc]
  rfl

/-- A request that Zenith can serve is served (R519, R523). -/
theorem State.spdm_attests {s : State} {h need : Nat} (f : State → State) (ha : s.attests h need) : s.spdm h need f = .next (f s) := by
  obtain ⟨hheld, hh, hbooted, hbooting, halias, hneed⟩ := ha
  refine (if_neg ?_).trans (if_neg ?_)
  · rw [hheld, or_iff_right Bool.false_ne_true]
    omega
  · rw [hbooted, hbooting, Option.isNone_eq_false_iff.mpr (Option.isSome_iff_ne_none.mpr halias)]
    rintro (hno | hno | hno | hno)
    · exact absurd hno (by decide)
    · exact absurd hno (by decide)
    · exact absurd hno (by decide)
    · omega

/-- A request that the connection's state does not allow is answered with ERROR (R523). -/
theorem State.spdm_early {s : State} {h need : Nat} (f : State → State) (ha : s.attests h 0) (hearly : (s.host h).spdm < need) :
    s.spdm h need f = .next (s.doeError h) := by
  obtain ⟨hheld, hh, -, -, -, -⟩ := ha
  refine (if_neg ?_).trans (if_pos (.inr (.inr (.inr hearly))))
  rw [hheld, or_iff_right Bool.false_ne_true]
  omega

theorem State.spdm_spdmAt (s : State) (h n : Nat) : ((s.spdmAt h n).host h).spdm = max (s.host h).spdm n := by
  rw [State.spdmAt, State.host_modHost_same]

/-- A request that advances the connection and is answered. -/
theorem attestation_advanced {s : State} {c : Instr} {h need n code : Nat} {content : List Nat} (ha : s.attests h need)
    (hc : exec c s = s.spdm h need fun s => (s.spdmAt h n).doe h code content) :
    ∃ t : State, exec c s = .next t ∧ (t.host h).spdm = max (s.host h).spdm n ∧ (t.host h).session = (s.host h).session ∧ doeSent [] s t h code content := by
  refine ⟨_, hc.trans (State.spdm_attests (fun s => (s.spdmAt h n).doe h code content) ha),
    (State.host_doe HostPort.spdm (fun _ _ _ => rfl) _ h code h content).trans (s.spdm_spdmAt h n),
    (State.host_doe HostPort.session (fun _ _ _ => rfl) _ h code h content).trans ?_, doeSent_doe h code content (.modHost .refl) rfl⟩
  rw [State.spdmAt, State.host_modHost_same]

/-- A request that is answered and leaves the connection as it was. -/
theorem attestation_answered {s : State} {c : Instr} {h need code : Nat} {content : List Nat} (ha : s.attests h need) {f : State → State}
    (hc : exec c s = s.spdm h need f) (hf : f s = s.doe h code content) :
    ∃ t : State, exec c s = .next t ∧ (t.host h).spdm = (s.host h).spdm ∧ doeSent [] s t h code content :=
  ⟨_, hc.trans ((State.spdm_attests f ha).trans (congrArg Host.Outcome.next hf)), State.host_doe HostPort.spdm (fun _ _ _ => rfl) _ h code h content,
    doeSent_doe h code content .refl rfl⟩

/-! The requests without a session (R523, R524). -/

/-- What GET_MEASUREMENTS reports of an index. -/
def State.reported (s : State) (index : Nat) : Option (List Nat) :=
  if index = 0 then some (leBytes 1 s.measureIndices.length)
  else if index = 255 then some (s.measureIndices.flatMap fun i => leBytes 1 i ++ (s.measurement i).getD [])
  else (s.measurement index).map fun m => leBytes 1 index ++ m

/-- GET_MEASUREMENTS in a connection that Zenith serves. -/
def State.measurementsSent (s : State) (h index : Nat) : State :=
  match s.reported index with
  | none => s.doeError h
  | some b => s.doe h 0x60 (b ++ s.aliasSign b)

theorem attestation_measured {s : State} {h x : Nat} {b : List Nat} (ha : s.attests h 0) (hb : s.reported x = some b) :
    ∃ t : State, exec (.getMeasurements h x) s = .next t ∧ doeSent [] s t h 0x60 (b ++ s.aliasSign b) := by
  have hf : s.measurementsSent h x = s.doe h 0x60 (b ++ s.aliasSign b) := by
    unfold State.measurementsSent
    rw [hb]
  obtain ⟨t, hexec, -, hsent⟩ := attestation_answered (c := .getMeasurements h x) ha (f := fun s => s.measurementsSent h x) rfl hf
  exact ⟨t, hexec, hsent⟩

theorem attestation_unmeasured {s : State} {h x : Nat} (ha : s.attests h 0) (hb : s.reported x = none) :
    ∃ t : State, exec (.getMeasurements h x) s = .next t ∧ doeSent [] s t h 0x7F [] := by
  have hf : s.measurementsSent h x = s.doe h 0x7F [] := by
    unfold State.measurementsSent
    rw [hb]
    rfl
  obtain ⟨t, hexec, -, hsent⟩ := attestation_answered (c := .getMeasurements h x) ha (f := fun s => s.measurementsSent h x) rfl hf
  exact ⟨t, hexec, hsent⟩

/-- NEGOTIATE_ALGORITHMS in a connection that Zenith serves. -/
def State.negotiated (s : State) (h : Nat) (offered : List Nat) : State :=
  if (offered.filter fun n => decide (1 ≤ n) && decide (n ≤ 4)).isEmpty then s.doeError h
  else (s.spdmAt h 3).doe h 0x63 (offered.filter fun n => decide (1 ≤ n) && decide (n ≤ 4))

theorem attestation_agreed {s : State} {h : Nat} {l : List Nat} (ha : s.attests h 0)
    (hl : l.filter (fun n => decide (1 ≤ n) && decide (n ≤ 4)) ≠ []) :
    ∃ t : State, exec (.negotiateAlgorithms h l) s = .next t ∧ (t.host h).spdm = max (s.host h).spdm 3 ∧
      doeSent [] s t h 0x63 (l.filter fun n => decide (1 ≤ n) && decide (n ≤ 4)) := by
  have hf : s.negotiated h l = (s.spdmAt h 3).doe h 0x63 (l.filter fun n => decide (1 ≤ n) && decide (n ≤ 4)) :=
    if_neg (by rwa [List.isEmpty_iff])
  refine ⟨_, (State.spdm_attests (fun s => s.negotiated h l) ha).trans (congrArg Host.Outcome.next hf),
    (State.host_doe HostPort.spdm (fun _ _ _ => rfl) _ h 0x63 h _).trans (s.spdm_spdmAt h 3), doeSent_doe h 0x63 _ (.modHost .refl) rfl⟩

theorem attestation_disagreed {s : State} {h : Nat} {l : List Nat} (ha : s.attests h 0)
    (hl : l.filter (fun n => decide (1 ≤ n) && decide (n ≤ 4)) = []) :
    ∃ t : State, exec (.negotiateAlgorithms h l) s = .next t ∧ (t.host h).spdm = (s.host h).spdm ∧ doeSent [] s t h 0x7F [] :=
  attestation_answered (c := .negotiateAlgorithms h l) ha (f := fun s => s.negotiated h l) rfl (if_pos (List.isEmpty_iff.mpr hl))

theorem attestation_challenge {s : State} {h : Nat} (nonce : List Nat) (ha : s.attests h 0) :
    ∃ t : State, exec (.challenge h nonce) s = .next t ∧ t.zen.drbg = s.zen.drbg + 1 ∧
      doeSent [] s t h 0x03 (Config.sha3 s.chain ++ (Config.drbg s.zen.drbg).take 32 ++
        s.aliasSign (nonce ++ (Config.sha3 s.chain ++ (Config.drbg s.zen.drbg).take 32))) := by
  refine ⟨_, State.spdm_attests (need := 0) (fun s => s.drawKey.2.doe h 0x03 (Config.sha3 s.chain ++ (Config.drbg s.zen.drbg).take 32 ++
    s.aliasSign (nonce ++ (Config.sha3 s.chain ++ (Config.drbg s.zen.drbg).take 32)))) ha, ?_, doeSent_doe h 0x03 _ (.upd .refl) rfl⟩
  exact State.doe_keeps (·.zen.drbg) (fun _ _ _ => rfl) _ h 0x03 _

theorem attestation_requests (s : State) (h : Nat) (ha : s.attests h 0) :
    (∃ t : State, exec (.getVersion h) s = .next t ∧ (t.host h).spdm = max (s.host h).spdm 1 ∧ doeSent [] s t h 0x04 [0x12, 0x13]) ∧
    (∃ t : State, exec (.getCapabilities h) s = .next t ∧ (t.host h).spdm = max (s.host h).spdm 2 ∧ doeSent [] s t h 0x61 []) ∧
    (∀ x a n : Nat, x ≠ 0 → ∃ t : State, exec (.getCertificate h x a n) s = .next t ∧ doeSent [] s t h 0x7F []) ∧
    (∃ t : State, exec (.getDigests h) s = .next t ∧ doeSent [] s t h 0x01 (Config.sha3 s.chain)) ∧
    (∀ a n : Nat, ∃ t : State, exec (.getCertificate h 0 a n) s = .next t ∧ doeSent [] s t h 0x02 (slice s.chain a n)) := by
  refine ⟨?_, ?_, fun x a n hx => ?_, ?_, fun a n => ?_⟩
  · obtain ⟨t, hexec, hspdm, -, hsent⟩ := attestation_advanced (c := .getVersion h) ha rfl
    exact ⟨t, hexec, hspdm, hsent⟩
  · obtain ⟨t, hexec, hspdm, -, hsent⟩ := attestation_advanced (c := .getCapabilities h) ha rfl
    exact ⟨t, hexec, hspdm, hsent⟩
  · obtain ⟨t, hexec, -, hsent⟩ := attestation_answered (c := .getCertificate h x a n) (code := 0x7F) (content := []) ha
      (f := fun s => if x ≠ 0 then s.doeError h else s.doe h 0x02 (slice s.chain a n)) rfl (if_pos hx)
    exact ⟨t, hexec, hsent⟩
  · obtain ⟨t, hexec, -, hsent⟩ := attestation_answered (c := .getDigests h) ha (f := fun s => s.doe h 0x01 (Config.sha3 s.chain)) rfl rfl
    exact ⟨t, hexec, hsent⟩
  · obtain ⟨t, hexec, -, hsent⟩ := attestation_answered (c := .getCertificate h 0 a n) ha
      (f := fun s => if 0 ≠ 0 then s.doeError h else s.doe h 0x02 (slice s.chain a n)) rfl (if_neg (not_not_intro rfl))
    exact ⟨t, hexec, hsent⟩

/-! KEY_EXCHANGE (R525, R538). -/

/-- A new session of the port. -/
def State.sessionBegun (s : State) (h : Nat) (secret : List Nat) : State :=
  s.modHost h fun x => { x with spdm := 4, session := some secret, keyGen := 0, ideKeys := none }

/-- The result-tag keys of the port's partitions made anew, and their exports numbered from the start. -/
def State.tagKeysMade (s : State) (h : Nat) (secret : List Nat) : State :=
  (s.ownedParts h).foldl (fun s k =>
    s.modPart k fun p => { p with resultKey := if s.conf k then some (tagKey secret k) else none, exportSeq := 0 }) s

theorem State.tagKeysMade_keeps {β : Type} (g : State → β) (hg : ∀ (s : State) p, g { s with parts := p } = g s) (s : State) (h : Nat)
    (secret : List Nat) : g (s.tagKeysMade h secret) = g s :=
  foldl_keeps (f := fun (s : State) (k : Nat) =>
    s.modPart k fun p => { p with resultKey := if s.conf k then some (tagKey secret k) else none, exportSeq := 0 }) g (fun _ _ => hg _ _) _ s

theorem State.tagKeysMade_spec (s : State) {h k : Nat} (secret : List Nat) (hk : k < 4) (hvalid : s.partValid k = true) (howner : s.owner k = h) :
    ((s.tagKeysMade h secret).part k).exportSeq = 0 ∧
    ((s.tagKeysMade h secret).part k).resultKey = if s.conf k then some (tagKey secret k) else none := by
  have hin : k ∈ s.ownedParts h := List.mem_filter.mpr ⟨List.mem_range.mpr hk, by rw [hvalid, howner, beq_self_eq_true]; rfl⟩
  have hpair := foldl_once (f := fun (s : State) (k : Nat) =>
      s.modPart k fun p => { p with resultKey := if s.conf k then some (tagKey secret k) else none, exportSeq := 0 })
    (fun t => ((t.part k).exportSeq, (t.part k).resultKey)) (fun _ => (0, if s.conf k then some (tagKey secret k) else none))
    (fun t => t.conf k = s.conf k) (fun t ht => by rw [State.part_modPart_same, ht]) (fun t j hj => by rw [State.part_modPart_ne _ _ hj.symm])
    (fun _ _ ht => ht) (show (s.ownedParts h).Nodup from List.nodup_range.filter _) hin (s := s) rfl
  exact Prod.mk.inj hpair

/-- KEY_EXCHANGE, with the port's stream not Secure. -/
def State.keysExchanged (s : State) (h : Nat) (ek : List Nat) : State :=
  let e := Config.encaps ek s.zen.drbg
  let u := (s.drawKey.2.sessionBegun h e.2).tagKeysMade h e.2
  u.doe h 0x64 (e.1 ++ u.aliasSign (ek ++ e.1))

theorem attestation_keyExchange (s : State) (h : Nat) (ek : List Nat) (ha : s.attests h 3) (hide : s.fld rZenRole (8 + h) (8 + h) = 0) :
    ∃ t : State, exec (.keyExchange h ek) s = .next t ∧ (t.host h).spdm = 4 ∧ (t.host h).session = some (Config.encaps ek s.zen.drbg).2 ∧
      (t.host h).keyGen = 0 ∧ (t.host h).ideKeys = none ∧ t.zen.drbg = s.zen.drbg + 1 ∧
      (∀ k, k < 4 → s.partValid k = true → s.owner k = h → (t.part k).exportSeq = 0 ∧
        (t.part k).resultKey = (if s.conf k then some (tagKey (Config.encaps ek s.zen.drbg).2 k) else none)) ∧
      doeSent [] s t h 0x64 ((Config.encaps ek s.zen.drbg).1 ++ s.aliasSign (ek ++ (Config.encaps ek s.zen.drbg).1)) := by
  have hlost : s.ideLost h = s := if_pos hide
  have hexec : exec (.keyExchange h ek) s = .next ((s.ideLost h).keysExchanged h ek) :=
    State.spdm_attests (need := 3) (fun s => (s.ideLost h).keysExchanged h ek) ha
  rw [hlost] at hexec
  unfold State.keysExchanged at hexec
  dsimp only at hexec
  generalize Config.encaps ek s.zen.drbg = e at *
  have hbare : ∃ u : State, s.drawKey.2.sessionBegun h e.2 = u ∧ u.zen = { s.zen with drbg := s.zen.drbg + 1 } ∧ u.outbox = s.outbox ∧
      (∀ k, u.partValid k = s.partValid k ∧ u.owner k = s.owner k ∧ u.conf k = s.conf k) ∧ Leaves (· ∈ ([] : List Nat)) s u ∧
      (u.host h).spdm = 4 ∧ (u.host h).session = some e.2 ∧ (u.host h).keyGen = 0 ∧ (u.host h).ideKeys = none := by
    refine ⟨_, rfl, rfl, rfl, fun _ => ⟨rfl, rfl, rfl⟩, .modHost (.upd .refl), ?_⟩
    rw [State.sessionBegun, State.host_modHost_same]
    exact ⟨rfl, rfl, rfl, rfl⟩
  obtain ⟨u, hu, hzen, hout, hparts, hleaves, hspdm, hsession, hgen, hkeys⟩ := hbare
  rw [hu] at hexec
  have htags := fun k (hk : k < 4) hv ho => u.tagKeysMade_spec (h := h) e.2 hk ((hparts k).1.trans hv) ((hparts k).2.1.trans ho)
  have hkept : ∀ {β : Type} (g : State → β), (∀ (s : State) p, g { s with parts := p } = g s) → g (u.tagKeysMade h e.2) = g u := fun g hg =>
    u.tagKeysMade_keeps g hg h e.2
  have hleaves : Leaves (· ∈ ([] : List Nat)) s (u.tagKeysMade h e.2) := .foldl (fun _ _ _ hw => hw.modPart) hleaves
  have hzen' := hkept State.zen fun _ _ => rfl
  have hout' := hkept State.outbox fun _ _ => rfl
  have hhost := hkept (State.host · h) fun _ _ => rfl
  generalize u.tagKeysMade h e.2 = v at *
  have hsign : v.aliasSign (ek ++ e.1) = s.aliasSign (ek ++ e.1) := by
    unfold State.aliasSign
    rw [hzen', hzen]
  rw [hsign] at hexec
  have hport : ∀ {β : Type} (g : HostPort → β), (∀ x l p, g { x with heldMsix := l, pba := p } = g x) → ∀ content,
      g ((v.doe h 0x64 content).host h) = g (u.host h) := fun g hg content => (State.host_doe g hg v h 0x64 h content).trans (congrArg g hhost)
  refine ⟨_, hexec, (hport HostPort.spdm (fun _ _ _ => rfl) _).trans hspdm, (hport HostPort.session (fun _ _ _ => rfl) _).trans hsession,
    (hport HostPort.keyGen (fun _ _ _ => rfl) _).trans hgen, (hport HostPort.ideKeys (fun _ _ _ => rfl) _).trans hkeys, ?_, fun k hk hv ho => ?_,
    doeSent_doe h 0x64 _ hleaves (hout'.trans hout)⟩
  · rw [State.doe_keeps State.zen fun _ _ _ => rfl, hzen', hzen]
  · rw [State.doe_keeps (State.part · k) fun _ _ _ => rfl, ← (hparts k).2.2]
    exact htags k hk hv ho

/-! The session and the stream (R523, R526, R527). -/

theorem attestation_keyUpdate (s : State) (h : Nat) (ha : s.attests h 5) :
    ∃ t : State, exec (.keyUpdate h) s = .next t ∧ (t.host h).keyGen = (s.host h).keyGen + 1 ∧ doeSent [] s t h 0x69 [] := by
  refine ⟨_, State.spdm_attests (need := 5) (fun s => (s.modHost h fun x => { x with keyGen := x.keyGen + 1 }).doe h 0x69 []) ha,
    (State.host_doe HostPort.keyGen (fun _ _ _ => rfl) _ h 0x69 h []).trans ?_, doeSent_doe h 0x69 [] (.modHost .refl) rfl⟩
  rw [State.host_modHost_same]

theorem attestation_endSession (s : State) (h : Nat) (ha : s.attests h 5) :
    ∃ t : State, exec (.endSession h) s = .next t ∧ (t.host h).session = none ∧ (t.host h).spdm = 3 ∧ doeSent [] s t h 0x6C [] := by
  refine ⟨_, State.spdm_attests (need := 5) (fun s => (s.modHost h fun x => { x with spdm := 3, session := none }).doe h 0x6C []) ha,
    (State.host_doe HostPort.session (fun _ _ _ => rfl) _ h 0x6C h []).trans ?_, (State.host_doe HostPort.spdm (fun _ _ _ => rfl) _ h 0x6C h []).trans ?_,
    doeSent_doe h 0x6C [] (.modHost .refl) rfl⟩
  · rw [State.host_modHost_same]
  · rw [State.host_modHost_same]

/-- IDE_KM in a session (R526). -/
def State.ideKmAsked (s : State) (h op : Nat) : State :=
  if op = 0 then s.doe h 1 []
  else if op = 2 then (s.drawKey.2.modHost h fun x => { x with ideKeys := some s.zen.drbg }).doe h 3 []
  else if op = 4 ∧ (s.host h).ideKeys.isSome then ((s.setFld rZenRole (8 + h) (8 + h) 1).modHost h fun x => { x with ideLeft := false }).doe h 6 []
  else if op = 5 then (s.ideLost h).doe h 6 []
  else s.doeError h

theorem execIdeKm_served {s : State} {h : Nat} (op : Nat) (ha : s.attests h 5) : exec (.ideKm h op) s = .next (s.ideKmAsked h op) :=
  State.spdm_attests (need := 5) (fun s => s.ideKmAsked h op) ha

/-- A request that needs a session has none here (R523). -/
theorem attestation_early (s : State) (h : Nat) (ha : s.attests h 0) (hnone : (s.host h).spdm = 0) :
    ∀ c ∈ [(.keyExchange h [] : Instr), .finish h, .keyUpdate h, .endSession h, .ideKm h 0],
    ∃ t : State, exec c s = .next t ∧ (t.host h).spdm = 0 ∧ (t.host h).session = (s.host h).session ∧ doeSent [] s t h 0x7F [] := by
  intro c hc
  have hexec : exec c s = .next (s.doeError h) := by
    simp only [List.mem_cons, List.not_mem_nil, or_false] at hc
    rcases hc with rfl | rfl | rfl | rfl | rfl
    · exact State.spdm_early (need := 3) (fun s => (s.ideLost h).keysExchanged h []) ha (by omega)
    · exact State.spdm_early (need := 4) (fun s => (s.spdmAt h 5).doe h 0x65 []) ha (by omega)
    · exact State.spdm_early (need := 5) (fun s => (s.modHost h fun x => { x with keyGen := x.keyGen + 1 }).doe h 0x69 []) ha (by omega)
    · exact State.spdm_early (need := 5) (fun s => (s.modHost h fun x => { x with spdm := 3, session := none }).doe h 0x6C []) ha (by omega)
    · exact State.spdm_early (need := 5) (fun s => s.ideKmAsked h 0) ha (by omega)
  exact ⟨_, hexec, (State.host_doe HostPort.spdm (fun _ _ _ => rfl) s h 0x7F h []).trans hnone,
    State.host_doe HostPort.session (fun _ _ _ => rfl) s h 0x7F h [], doeSent_doe h 0x7F [] .refl rfl⟩

theorem attestation_query (s : State) (h : Nat) (ha : s.attests h 5) : ∃ t : State, exec (.ideKm h 0) s = .next t ∧ doeSent [] s t h 1 [] :=
  ⟨_, (execIdeKm_served 0 ha).trans (congrArg Host.Outcome.next (if_pos rfl)), doeSent_doe h 1 [] .refl rfl⟩

theorem attestation_keyProg (s : State) (h : Nat) (ha : s.attests h 5) :
    ∃ t : State, exec (.ideKm h 2) s = .next t ∧ (t.host h).ideKeys = some s.zen.drbg ∧ doeSent [] s t h 3 [] := by
  have hasked : s.ideKmAsked h 2 = (s.drawKey.2.modHost h fun x => { x with ideKeys := some s.zen.drbg }).doe h 3 [] :=
    (if_neg (by decide)).trans (if_pos rfl)
  refine ⟨_, (execIdeKm_served 2 ha).trans (congrArg Host.Outcome.next hasked),
    (State.host_doe HostPort.ideKeys (fun _ _ _ => rfl) _ h 3 h []).trans ?_, doeSent_doe h 3 [] (.modHost (.upd .refl)) rfl⟩
  rw [State.host_modHost_same]

theorem attestation_go (s : State) (h : Nat) (ha : s.attests h 5) (hkeys : (s.host h).ideKeys ≠ none) :
    ∃ t : State, exec (.ideKm h 4) s = .next t ∧ t.ideSecure h = true ∧ (t.host h).ideLeft = false ∧ doeSent [rZenRole] s t h 6 [] := by
  have hh : h < 2 := ha.2.1
  have hasked : s.ideKmAsked h 4 = ((s.setFld rZenRole (8 + h) (8 + h) 1).modHost h fun x => { x with ideLeft := false }).doe h 6 [] :=
    (if_neg (by decide)).trans ((if_neg (by decide)).trans (if_pos ⟨rfl, Option.isSome_iff_ne_none.mpr hkeys⟩))
  have hset : (s.setFld rZenRole (8 + h) (8 + h) 1).fld rZenRole (8 + h) (8 + h) = 1 := by
    rw [State.fld_setFld_same _ _ _ _ _ (by omega) (by omega), Nat.add_sub_cancel_left]
    rfl
  refine ⟨_, (execIdeKm_served 4 ha).trans (congrArg Host.Outcome.next hasked), ?_,
    (State.host_doe HostPort.ideLeft (fun _ _ _ => rfl) _ h 6 h []).trans ?_, doeSent_doe h 6 [] (.modHost (.setFld .refl (by simp))) rfl⟩
  · unfold State.ideSecure
    rw [State.doe_keeps (State.fld · rZenRole (8 + h) (8 + h)) fun _ _ _ => rfl, State.fld_modHost, hset]
    rfl
  · rw [State.host_modHost_same]

theorem attestation_noKeys (s : State) (h : Nat) (ha : s.attests h 5) (hkeys : (s.host h).ideKeys = none) :
    ∃ t : State, exec (.ideKm h 4) s = .next t ∧ doeSent [] s t h 0x7F [] := by
  have hasked : s.ideKmAsked h 4 = s.doe h 0x7F [] := (if_neg (by decide)).trans ((if_neg (by decide)).trans ((if_neg (by
    rw [hkeys]
    exact fun hno => Bool.false_ne_true hno.2)).trans (if_neg (by decide))))
  exact ⟨_, (execIdeKm_served 4 ha).trans (congrArg Host.Outcome.next hasked), doeSent_doe h 0x7F [] .refl rfl⟩

theorem attestation_stop (s : State) (h : Nat) (ha : s.attests h 5) (hplain : ∀ k, k < 4 → s.conf k = true → s.owner k ≠ h)
    (hsecure : s.ideSecure h = true) :
    ∃ t : State, exec (.ideKm h 5) s = .next t ∧ t.ideSecure h = false ∧ (t.host h).ideKeys = none ∧ doeSent [rZenRole] s t h 6 [] := by
  have hh : h < 2 := ha.2.1
  have hasked : s.ideKmAsked h 5 = (s.ideLost h).doe h 6 [] :=
    (if_neg (by decide)).trans ((if_neg (by decide)).trans ((if_neg fun hno => absurd hno.1 (by decide)).trans (if_pos rfl)))
  have hne : s.fld rZenRole (8 + h) (8 + h) ≠ 0 := by
    rw [show s.fld rZenRole (8 + h) (8 + h) = 1 from beq_iff_eq.mp hsecure]
    decide
  have hkept : ∀ k < 4, ∀ hi lo, ((s.setFld rZenRole (8 + h) (8 + h) 0).modHost h fun x => { x with ideKeys := none, ideLeft := true }).fld (rZenPart k) hi lo =
      s.fld (rZenPart k) hi lo := fun k hk hi lo => by
    rw [State.fld_modHost, State.fld_setFld_ne _ _ _ _ _ _ (by unfold rZenPart rZenRole; omega)]
  have hlost : s.ideLost h = (s.setFld rZenRole (8 + h) (8 + h) 0).modHost h fun x => { x with ideKeys := none, ideLeft := true } := by
    refine (if_neg hne).trans ?_
    dsimp only
    generalize ((s.setFld rZenRole (8 + h) (8 + h) 0).modHost h fun x => { x with ideKeys := none, ideLeft := true }) = u at *
    have hnone : ((List.range 4).filter fun k => u.conf k && u.owner k == h) = [] := List.filter_eq_nil_iff.mpr fun k hk hno => by
      have hk := List.mem_range.mp hk
      obtain ⟨hconf, howner⟩ := Bool.and_eq_true_iff.mp hno
      have hconf' : u.conf k = s.conf k := by unfold State.conf State.partValid; rw [hkept k hk, hkept k hk]
      have howner' : u.owner k = s.owner k := hkept k hk 61 61
      exact hplain k hk (hconf' ▸ hconf) (howner' ▸ beq_iff_eq.mp howner)
    rw [hnone]
    rfl
  have hset : (s.setFld rZenRole (8 + h) (8 + h) 0).fld rZenRole (8 + h) (8 + h) = 0 := by
    rw [State.fld_setFld_same _ _ _ _ _ (by omega) (by omega), Nat.zero_mod]
  rw [hlost] at hasked
  refine ⟨_, (execIdeKm_served 5 ha).trans (congrArg Host.Outcome.next hasked), ?_,
    (State.host_doe HostPort.ideKeys (fun _ _ _ => rfl) _ h 6 h []).trans ?_, doeSent_doe h 6 [] (.modHost (.setFld .refl (by simp))) rfl⟩
  · unfold State.ideSecure
    rw [State.doe_keeps (State.fld · rZenRole (8 + h) (8 + h)) fun _ _ _ => rfl, State.fld_modHost, hset]
    rfl
  · rw [State.host_modHost_same]

/-- Settles O50: what each SPDM request is answered with, and what the session, the keys and the stream become. -/
theorem attestation : Obligations.Attestation := by
  refine ⟨⟨fun s h ha => ?_, attestation_early⟩, attestation_keyExchange, fun s h ha => ?_, fun s h ha => ⟨attestation_keyUpdate s h ha,
    attestation_endSession s h ha, attestation_query s h ha, attestation_keyProg s h ha, attestation_go s h ha, attestation_noKeys s h ha,
    attestation_stop s h ha⟩⟩
  · obtain ⟨hversion, hcaps, hslot, hdigests, hchain⟩ := attestation_requests s h ha
    refine ⟨hversion, hcaps, fun l => attestation_agreed ha, fun l => attestation_disagreed ha, hslot, attestation_measured ha (if_pos rfl),
      attestation_measured ha ((if_neg (by decide)).trans (if_pos rfl)), hdigests, hchain, fun nonce => attestation_challenge nonce ha,
      fun x m h0 h255 hm => attestation_measured ha ?_, fun x h0 h255 hm => attestation_unmeasured ha ?_⟩
    · exact (if_neg h0).trans ((if_neg h255).trans (by rw [hm]; rfl))
    · exact (if_neg h0).trans ((if_neg h255).trans (by rw [hm]; rfl))
  · obtain ⟨t, hexec, hspdm, hsession, hsent⟩ := attestation_advanced (c := .finish h) ha rfl
    exact ⟨t, hexec, hspdm, hsession, hsent⟩

end Sys2Proof.Machine
end

section
/-! PROOF. The TAP and the SMBus interface (R529, R572, R606, R613–R615, R633, R636). -/
namespace Sys2Proof.Machine

/-! The TAP (R529, R636). -/

theorem execIdcode_spec (s : State) : ∃ t : State, exec .idcode s = .next t ∧ t.tap.ir = 0 ∧
    t.outbox = s.outbox ++ [Output.tdo [0x3F, 0x60, 0x61, 0xC9]] ∧ SameMem s t ∧ SameRegsBut [] s t := by
  have hleaves : Leaves (· ∈ ([] : List Nat)) s ((s.tapIr 0).out (.tdo [0x3F, 0x60, 0x61, 0xC9])) := .out (.upd .refl)
  have hcode : leBytes 4 tapIdcode = [0x3F, 0x60, 0x61, 0xC9] := by decide
  exact ⟨_, congrArg (fun b => Host.Outcome.next ((s.tapIr 0).out (.tdo b))) hcode, rfl, rfl, hleaves.sameMem, hleaves.sameRegsBut⟩

/-- BYPASS selected: its one zero comes out. -/
theorem bypassed_spec (s : State) : ((s.tapIr 1).out (.tdo [0])).tap.ir = 1 ∧ ((s.tapIr 1).out (.tdo [0])).tap.boundary = s.tap.boundary ∧
    ((s.tapIr 1).out (.tdo [0])).outbox = s.outbox ++ [Output.tdo [0]] ∧ SameMem s ((s.tapIr 1).out (.tdo [0])) ∧
    SameRegsBut [] s ((s.tapIr 1).out (.tdo [0])) := by
  have hleaves : Leaves (· ∈ ([] : List Nat)) s ((s.tapIr 1).out (.tdo [0])) := .out (.upd .refl)
  exact ⟨rfl, rfl, rfl, hleaves.sameMem, hleaves.sameRegsBut⟩

theorem sideBands_always (s : State) : (∃ t : State, exec .idcode s = .next t ∧ t.tap.ir = 0 ∧
      t.outbox = s.outbox ++ [Output.tdo [0x3F, 0x60, 0x61, 0xC9]] ∧ SameMem s t ∧ SameRegsBut [] s t) ∧
    ∃ t : State, exec .bypass s = .next t ∧ t.tap.ir = 1 ∧ t.outbox = s.outbox ++ [Output.tdo [0]] ∧ SameMem s t ∧ SameRegsBut [] s t := by
  obtain ⟨hir, -, hout, hmem, hregs⟩ := bypassed_spec s
  exact ⟨execIdcode_spec s, _, rfl, hir, hout, hmem, hregs⟩

/-- Free bytes drawn for pins: as many as asked for, and each its own draw. -/
theorem State.drawBytes_spec (n : Nat) : ∀ s : State, (State.drawBytes n s).1.length = n ∧ (State.drawBytes n s).2.free = s.free + n ∧
    (State.drawBytes n s).2.outbox = s.outbox ∧ Leaves (· ∈ ([] : List Nat)) s (State.drawBytes n s).2 ∧ (State.drawBytes n s).2.tap = s.tap := by
  induction n with
  | zero => exact fun s => ⟨rfl, rfl, rfl, .refl, rfl⟩
  | succ n ih =>
    intro s
    obtain ⟨hlen, hfree, hout, hleaves, htap⟩ := ih (s.draw 8).2
    exact ⟨congrArg Nat.succ hlen, hfree.trans ((Nat.add_assoc _ _ _).trans (congrArg (s.free + ·) (Nat.add_comm 1 n))), hout,
      (Leaves.draw (w := 8) .refl).trans hleaves, htap⟩

/-- The boundary register loaded. -/
def State.boundarySet (s : State) (data : List Nat) : State := { s with tap := { s.tap with boundary := data } }

theorem execSamplePreload_open {s : State} (b : List Nat) (h : s.tapOpen = true) : exec (.samplePreload b) s =
    .next (((State.drawBytes b.length (s.tapIr 2)).2.boundarySet b).out (.tdo (State.drawBytes b.length (s.tapIr 2)).1)) :=
  if_neg (by rw [h]; exact Bool.false_ne_true)

theorem execExtest_open {s : State} (b : List Nat) (h : s.tapOpen = true) : exec (.extest b) s =
    .next ((((State.drawBytes b.length (s.tapIr 3)).2.boundarySet b).out (.pin "BOUNDARY" (leNat b))).out
      (.tdo (State.drawBytes b.length (s.tapIr 3)).1)) :=
  if_neg (by rw [h]; exact Bool.false_ne_true)

theorem sideBands_boundary (s : State) (b : List Nat) (h : s.tapOpen = true) :
    (∃ (t : State) (o : List Nat), exec (.samplePreload b) s = .next t ∧ t.tap.ir = 2 ∧ t.tap.boundary = b ∧ o.length = b.length ∧
      t.outbox = s.outbox ++ [Output.tdo o] ∧ t.free = s.free + b.length ∧ SameMem s t ∧ SameRegsBut [] s t) ∧
    ∃ (t : State) (o : List Nat), exec (.extest b) s = .next t ∧ t.tap.ir = 3 ∧ t.tap.boundary = b ∧ o.length = b.length ∧
      t.outbox = s.outbox ++ [Output.pin "BOUNDARY" (leNat b), .tdo o] ∧ SameMem s t ∧ SameRegsBut [] s t := by
  have hsample := execSamplePreload_open b h
  have htest := execExtest_open b h
  obtain ⟨hlen, hfree, hout, hleaves, htap⟩ := State.drawBytes_spec b.length (s.tapIr 2)
  obtain ⟨hlen', -, hout', hleaves', htap'⟩ := State.drawBytes_spec b.length (s.tapIr 3)
  generalize State.drawBytes b.length (s.tapIr 2) = r at *
  generalize State.drawBytes b.length (s.tapIr 3) = q at *
  have hr : Leaves (· ∈ ([] : List Nat)) s ((r.2.boundarySet b).out (.tdo r.1)) := ((Leaves.upd (s := s) .refl).trans hleaves).trans (.out (.upd .refl))
  have hq : Leaves (· ∈ ([] : List Nat)) s (((q.2.boundarySet b).out (.pin "BOUNDARY" (leNat b))).out (.tdo q.1)) :=
    ((Leaves.upd (s := s) .refl).trans hleaves').trans (.out (.out (.upd .refl)))
  refine ⟨⟨_, r.1, hsample, congrArg Tap.ir htap, rfl, hlen, congrArg (· ++ [Output.tdo r.1]) hout, hfree, hr.sameMem, hr.sameRegsBut⟩,
    _, q.1, htest, congrArg Tap.ir htap', rfl, hlen', ?_, hq.sameMem, hq.sameRegsBut⟩
  refine (List.append_assoc _ _ _).trans ?_
  exact congrArg (· ++ [Output.pin "BOUNDARY" (leNat b), .tdo q.1]) hout'

/-- DBG_ACCESS with the debug unlock standing. -/
def State.dbgAccessed (s : State) (write : Bool) (off size : Nat) (v : Word) : Out :=
  if write then .next (s.writeReg 0 off size v)
  else match s.readReg 0 off size with
    | (some b, s) => .next (s.out (.tdo b))
    | (none, s) => .next s

theorem execDbgAccess_open {s : State} (w : Bool) (n z : Nat) (v : Word) (h : s.tapOpen = true) :
    exec (.dbgAccess w n z v) s = (s.tapIr 4).dbgAccessed w n z v := if_neg (by rw [h]; exact Bool.false_ne_true)

theorem sideBands_silent (s : State) (n w : Nat) (v : Word) (h : s.tapOpen = true) (hread : (s.tapIr 4).readReg 0 n w = (none, s.tapIr 4)) :
    exec (.dbgAccess false n w v) s = .next (s.tapIr 4) := by
  rw [execDbgAccess_open false n w v h, State.dbgAccessed, if_neg Bool.false_ne_true, hread]

theorem sideBands_read (s : State) (n w : Nat) (v : Word) (b : List Nat) (u : State) (h : s.tapOpen = true)
    (hread : (s.tapIr 4).readReg 0 n w = (some b, u)) : exec (.dbgAccess false n w v) s = .next (u.out (.tdo b)) := by
  rw [execDbgAccess_open false n w v h, State.dbgAccessed, if_neg Bool.false_ne_true, hread]

theorem sideBands_write (s : State) (n w : Nat) (v : Word) (h : s.tapOpen = true) :
    exec (.dbgAccess true n w v) s = .next ((s.tapIr 4).writeReg 0 n w v) :=
  (execDbgAccess_open true n w v h).trans (if_pos rfl)

theorem sideBands_locked (s : State) (b : List Nat) (w : Bool) (n z : Nat) (v : Word) (h : s.tapOpen = false) :
    ∀ c ∈ [(.samplePreload b : Instr), .extest b, .dbgAccess w n z v],
    ∃ t : State, exec c s = .next t ∧ t.tap.ir = 1 ∧ t.tap.boundary = s.tap.boundary ∧ t.outbox = s.outbox ++ [Output.tdo [0]] ∧ SameMem s t ∧
      SameRegsBut [] s t := by
  intro c hc
  have hlocked : (!s.tapOpen) = true := by rw [h]; rfl
  have hexec : exec c s = .next ((s.tapIr 1).out (.tdo [0])) := by
    simp only [List.mem_cons, List.not_mem_nil, or_false] at hc
    rcases hc with rfl | rfl | rfl
    · exact if_pos hlocked
    · exact if_pos hlocked
    · exact if_pos hlocked
  exact ⟨_, hexec, bypassed_spec s⟩

/-! The SMBus interface (R606, R613–R615, R633). -/

/-- A response goes out after what differs in no memory and no register. -/
theorem smbusSent_smbus {s u : State} (b : List Nat) (hheld : u.pwr.held = false) (hleaves : Leaves (· ∈ ([] : List Nat)) s u)
    (hout : u.outbox = s.outbox) : smbusSent s (u.smbus b) b := by
  have hsent : u.smbus b = u.out (.smbus b) := if_neg (by rw [hheld]; exact Bool.false_ne_true)
  have hall := hleaves.out (o := .smbus b)
  rw [hsent]
  exact ⟨congrArg (· ++ [Output.smbus b]) hout, hall.sameMem, hall.sameRegsBut⟩

theorem State.smbus_keeps {β : Type} (g : State → β) (hg : ∀ (s : State) o, g { s with outbox := o } = g s) (s : State) (b : List Nat) :
    g (s.smbus b) = g s := by
  unfold State.smbus
  split
  · rfl
  · exact hg s _

theorem sideBands_endpoint (s : State) (hheld : s.pwr.held = false) :
    (∀ n : Nat, 0 < n → n < 255 → ∃ t : State, exec (.setEndpointId n) s = .next t ∧ t.eid = n ∧
      smbusSent s t (0x01 :: 0x00 :: n :: Config.mctpBody 1)) ∧
    (∀ n : Nat, n = 0 ∨ 255 ≤ n → ∃ t : State, exec (.setEndpointId n) s = .next t ∧ t.eid = s.eid ∧
      smbusSent s t (0x01 :: 0x02 :: Config.mctpBody 1)) := by
  have hlive : ¬s.pwr.held = true := by rw [hheld]; exact Bool.false_ne_true
  have heid : ∀ (u : State) b, (u.smbus b).eid = u.eid := State.smbus_keeps State.eid fun _ _ => rfl
  refine ⟨fun n h0 h255 => ⟨_, (if_neg hlive).trans (if_neg (by omega)), heid _ _, smbusSent_smbus _ hheld (.upd .refl) rfl⟩,
    fun n hn => ⟨_, (if_neg hlive).trans (if_pos hn), heid _ _, smbusSent_smbus _ hheld .refl rfl⟩⟩

/-- What a sensor read answers. -/
def State.sensorTold (s : State) (id : Nat) : State :=
  match s.sensor id with
  | some v => s.smbus ([0x02, 0x00] ++ leBytes 8 v ++ Config.mctpBody 0x211)
  | none => s.smbus [0x02, 0x80]

theorem execPldmSensorRead_eq (s : State) (n : Nat) : exec (.pldmSensorRead n) s = .next (s.sensorTold n) := rfl

theorem sideBands_sensor (s : State) (hheld : s.pwr.held = false) :
    (∀ n v : Nat, s.sensor n = some v → ∃ t : State, exec (.pldmSensorRead n) s = .next t ∧
      smbusSent s t ([0x02, 0x00] ++ leBytes 8 v ++ Config.mctpBody 0x211)) ∧
    (∀ n : Nat, s.sensor n = none → ∃ t : State, exec (.pldmSensorRead n) s = .next t ∧ smbusSent s t [0x02, 0x80]) := by
  refine ⟨fun n v hv => ?_, fun n hn => ?_⟩
  · have htold : s.sensorTold n = s.smbus ([0x02, 0x00] ++ leBytes 8 v ++ Config.mctpBody 0x211) := by rw [State.sensorTold, hv]
    exact ⟨_, (execPldmSensorRead_eq s n).trans (congrArg Host.Outcome.next htold), smbusSent_smbus _ hheld .refl rfl⟩
  · have htold : s.sensorTold n = s.smbus [0x02, 0x80] := by rw [State.sensorTold, hn]
    exact ⟨_, (execPldmSensorRead_eq s n).trans (congrArg Host.Outcome.next htold), smbusSent_smbus _ hheld .refl rfl⟩

/-- The firmware slot that does not run written. -/
def State.idleSlotWritten (s : State) (m : List Nat) : State :=
  { s with zen := if s.zen.fwSlot = 0 then { s.zen with slotB := m } else { s.zen with slotA := m } }

theorem sideBands_noFirmware (s : State) (m : List Nat) (hheld : s.pwr.held = false)
    (hno : s.roleOf 2 < 2 ∨ s.zen.booted = false ∨ s.zen.booting = true) :
    ∃ t : State, exec (.pldmFirmwareUpdate m) s = .next t ∧ t.zen = s.zen ∧ smbusSent s t [0x05, 0x01] := by
  have hlive : ¬s.pwr.held = true := by rw [hheld]; exact Bool.false_ne_true
  have hexec : exec (.pldmFirmwareUpdate m) s = .next (s.smbus [0x05, 0x01]) :=
    (if_neg hlive).trans (if_pos (hno.imp_right fun h => h.imp_left fun hb => by rw [hb]; rfl))
  exact ⟨_, hexec, State.smbus_keeps State.zen (fun _ _ => rfl) s _, smbusSent_smbus _ hheld .refl rfl⟩

theorem sideBands_firmware (s : State) (m : List Nat) (hheld : s.pwr.held = false) (hrole : 2 ≤ s.roleOf 2) (hbooted : s.zen.booted = true)
    (hbooting : s.zen.booting = false) :
    ∃ t : State, exec (.pldmFirmwareUpdate m) s = .next t ∧ (if s.zen.fwSlot = 0 then t.zen.slotB else t.zen.slotA) = m ∧
      (if s.zen.fwSlot = 0 then t.zen.slotA = s.zen.slotA else t.zen.slotB = s.zen.slotB) ∧ smbusSent s t [0x05, 0x00] := by
  have hlive : ¬s.pwr.held = true := by rw [hheld]; exact Bool.false_ne_true
  have hserved : ¬(s.roleOf 2 < 2 ∨ (!s.zen.booted) = true ∨ s.zen.booting = true) := by
    rw [hbooted, hbooting]
    rintro (hno | hno | hno)
    · omega
    · exact absurd hno (by decide)
    · exact absurd hno (by decide)
  have hexec : exec (.pldmFirmwareUpdate m) s = .next ((s.idleSlotWritten m).smbus [0x05, 0x00]) := (if_neg hlive).trans (if_neg hserved)
  have hzen : ((s.idleSlotWritten m).smbus [0x05, 0x00]).zen = (s.idleSlotWritten m).zen :=
    State.smbus_keeps State.zen (fun _ _ => rfl) _ _
  refine ⟨_, hexec, ?_, ?_, smbusSent_smbus _ hheld (.upd .refl) rfl⟩
  · rw [hzen, State.idleSlotWritten]
    by_cases hslot : s.zen.fwSlot = 0
    · rw [if_pos hslot, if_pos hslot]
    · rw [if_neg hslot, if_neg hslot]
  · rw [hzen, State.idleSlotWritten]
    by_cases hslot : s.zen.fwSlot = 0
    · rw [if_pos hslot, if_pos hslot]
    · rw [if_neg hslot, if_neg hslot]

theorem sideBands_smbus (s : State) (hheld : s.pwr.held = false) :
    (∃ t : State, exec .getEndpointId s = .next t ∧ smbusSent s t (0x02 :: 0x00 :: s.eid :: Config.mctpBody 2)) ∧
    (∃ t : State, exec .getMctpVersionSupport s = .next t ∧ smbusSent s t (0x04 :: 0x00 :: Config.mctpBody 4)) ∧
    (∃ t : State, exec .getMessageTypeSupport s = .next t ∧ smbusSent s t ([0x05, 0x00, 0x02, 0x01, 0x7E] ++ Config.mctpBody 5)) ∧
    (∃ t : State, exec .getVendorDefinedMessageSupport s = .next t ∧ smbusSent s t ([0x06, 0x00, 0xFF, 0x00, 0x1F, 0x6E] ++ Config.mctpBody 6)) ∧
    (∀ c : Nat, ∃ t : State, exec (.pldmBase c) s = .next t ∧ smbusSent s t (0x00 :: c :: Config.mctpBody (0x100 + c))) :=
  ⟨⟨_, rfl, smbusSent_smbus _ hheld .refl rfl⟩, ⟨_, rfl, smbusSent_smbus _ hheld .refl rfl⟩, ⟨_, rfl, smbusSent_smbus _ hheld .refl rfl⟩,
    ⟨_, rfl, smbusSent_smbus _ hheld .refl rfl⟩, fun _ => ⟨_, rfl, smbusSent_smbus _ hheld .refl rfl⟩⟩

/-! Mailbox commands over the SMBus (R606, R614). -/

/-- The argument left in the interface's buffer. -/
def State.argumentLeft (s : State) (b : List Nat) : State := { s with mbuf := memWrite s.mbuf (2 * 2 ^ 16) b }

theorem execVendorDefinedMailbox_free {s : State} (c : Nat) (b : List Nat) (hheld : s.pwr.held = false)
    (hfree : s.fld (rZenMbStatus + mbOfs 2) 63 63 = 0) :
    exec (.vendorDefinedMailbox c b) s = .next ((s.argumentLeft (b.take 16384)).issue 2 c b.length) := by
  have hlive : ¬s.pwr.held = true := by rw [hheld]; exact Bool.false_ne_true
  have hleft : (if s.fld (rZenMbStatus + mbOfs 2) 63 63 = 1 then s else s.argumentLeft (b.take 16384)) = s.argumentLeft (b.take 16384) :=
    if_neg (by rw [hfree]; decide)
  exact (if_neg hlive).trans (congrArg (fun u : State => Host.Outcome.next (u.issue 2 c b.length)) hleft)

theorem sideBands_mailbox (s : State) (c : Nat) (b : List Nat) (hheld : s.pwr.held = false) (hlen : b.length ≤ 16384)
    (hfree : s.fld (rZenMbStatus + mbOfs 2) 63 63 = 0) :
    exec (.vendorDefinedMailbox c b) s = .next ((s.argumentLeft b).issue 2 c b.length) := by
  rw [execVendorDefinedMailbox_free c b hheld hfree, List.take_of_length_le hlen]

theorem sideBands_held (s : State) (n : Nat) (b : List Nat) (hheld : s.pwr.held = true) :
    ∀ c ∈ [(.setEndpointId n : Instr), .getEndpointId, .getMctpVersionSupport, .getMessageTypeSupport, .getVendorDefinedMessageSupport,
      .pldmBase n, .pldmSensorRead n, .pldmFirmwareUpdate b, .vendorDefinedMailbox n b], exec c s = .next s := by
  have hquiet : ∀ m, s.smbus m = s := fun m => if_pos hheld
  have hsensor : s.sensorTold n = s := by
    unfold State.sensorTold
    split
    · exact hquiet _
    · exact hquiet _
  intro c hc
  simp only [List.mem_cons, List.not_mem_nil, or_false] at hc
  rcases hc with rfl | rfl | rfl | rfl | rfl | rfl | rfl | rfl | rfl
  · exact if_pos hheld
  · exact congrArg Host.Outcome.next (hquiet _)
  · exact congrArg Host.Outcome.next (hquiet _)
  · exact congrArg Host.Outcome.next (hquiet _)
  · exact congrArg Host.Outcome.next (hquiet _)
  · exact congrArg Host.Outcome.next (hquiet _)
  · exact (execPldmSensorRead_eq s n).trans (congrArg Host.Outcome.next hsensor)
  · exact if_pos hheld
  · exact if_pos hheld

/-- A command shown as held. -/
def State.issued (s : State) (i code len : Nat) : State :=
  (s.setReg (rZenMbCmd + mbOfs i) (BitVec.ofNat 64 (2 ^ 63 + len % 2 ^ 16 * 2 ^ 16 + code % 256))).setFld (rZenMbStatus + mbOfs i) 63 63 1

/-- STATUS takes no argument, and is issued with whole words. -/
theorem State.issue_status {s : State} {i len : Nat} (hfree : s.fld (rZenMbStatus + mbOfs i) 63 63 = 0) (hlen : len = 8 ∨ len = 0) :
    s.issue i 1 len = (s.issued i 1 len).laterW 0 (.status i) := by
  have hbusy : ¬s.fld (rZenMbStatus + mbOfs i) 63 63 = 1 := by rw [hfree]; decide
  have hfits : ¬(len % 8 ≠ 0 ∨ 16384 < len ∨ len < 0) := by omega
  exact (if_neg hbusy).trans (if_neg hfits)

theorem State.issued_spec (s : State) (i code : Nat) {len : Nat} (hcode : code < 256) : (s.issued i code len).fld (rZenMbStatus + mbOfs i) 63 63 = 1 ∧
    (s.issued i code len).fld (rZenMbCmd + mbOfs i) 7 0 = code ∧ (s.issued i code len).agenda = s.agenda ∧ (s.issued i code len).clk = s.clk ∧
    Leaves (· ∈ [rZenMbStatus + mbOfs i, rZenMbCmd + mbOfs i]) s (s.issued i code len) := by
  have hne : rZenMbCmd + mbOfs i ≠ rZenMbStatus + mbOfs i := by
    unfold rZenMbCmd rZenMbStatus
    omega
  refine ⟨?_, ?_, rfl, rfl, .setFld (.setReg .refl (by simp)) (by simp)⟩
  · rw [State.issued, State.fld_setFld_same _ _ _ _ _ (by omega) (by omega)]
    rfl
  · rw [State.issued, State.fld_setFld_ne _ _ _ _ _ _ hne, State.fld, State.reg_setReg_same, getF, BitVec.toNat_ofNat]
    omega

theorem sideBands_status (s : State) (b : List Nat) (hheld : s.pwr.held = false) (hfree : s.fld (rZenMbStatus + mbOfs 2) 63 63 = 0) :
    ∃ t : State, exec (.vendorDefinedMailbox 0x01 b) s = .next t ∧ (b.length = 8 ∨ b = [] →
      t.agenda = s.agenda ++ [({ dom := none, at_ := s.clk.wall, act := .cmd (.status 2) } : Due)] ∧
      t.fld (rZenMbStatus + mbOfs 2) 63 63 = 1 ∧ t.fld (rZenMbCmd + mbOfs 2) 7 0 = 1 ∧ t.hbm = s.hbm ∧ t.store = s.store ∧
      t.mbuf = memWrite s.mbuf (2 * 2 ^ 16) b ∧
      t.lstore = s.lstore ∧ SameRegsBut [rZenMbStatus + mbOfs 2, rZenMbCmd + mbOfs 2] s t) := by
  refine ⟨_, execVendorDefinedMailbox_free 1 b hheld hfree, fun hb => ?_⟩
  have hlen : b.length = 8 ∨ b.length = 0 := hb.imp_right List.length_eq_zero_iff.mpr
  have hkept : (s.argumentLeft b).hbm = s.hbm ∧ (s.argumentLeft b).store = s.store ∧ (s.argumentLeft b).lstore = s.lstore ∧
    (s.argumentLeft b).mbuf = memWrite s.mbuf (2 * 2 ^ 16) b ∧ (s.argumentLeft b).agenda = s.agenda ∧ (s.argumentLeft b).clk = s.clk ∧
    (s.argumentLeft b).reg = s.reg := ⟨rfl, rfl, rfl, rfl, rfl, rfl, rfl⟩
  rw [List.take_of_length_le (by omega), State.issue_status (s := s.argumentLeft b) hfree hlen]
  generalize s.argumentLeft b = u at *
  obtain ⟨hhbm, hstore, hlstore, hmbuf, hagenda, hclk, hreg⟩ := hkept
  obtain ⟨hst, hcmd, hiagenda, hiclk, hissued⟩ := u.issued_spec 2 1 (len := b.length) (by decide)
  generalize u.issued 2 1 b.length = v at *
  have hall : Leaves (· ∈ [rZenMbStatus + mbOfs 2, rZenMbCmd + mbOfs 2]) u (v.laterW 0 (.status 2)) := hissued.laterW
  refine ⟨?_, hst, hcmd, hall.hbm.trans hhbm, hall.store.trans hstore, hall.mbuf.trans hmbuf, hall.lstore.trans hlstore,
    fun r hr => (hall.reg r hr).trans (congrFun hreg r)⟩
  rw [State.agenda_laterW, hiagenda, hagenda, hiclk, hclk, Nat.add_zero]

/-- Settles O51: the TAP, open and locked, and what the SMBus interface answers. -/
theorem sideBands : Obligations.SideBands :=
  ⟨⟨sideBands_always, sideBands_boundary, sideBands_silent, sideBands_write, sideBands_read, sideBands_locked⟩,
    fun s hheld => by
      obtain ⟨htakes, hrefuses⟩ := sideBands_endpoint s hheld
      obtain ⟨heid, hversion, htypes, hvendor, hbase⟩ := sideBands_smbus s hheld
      obtain ⟨hknown, hunknown⟩ := sideBands_sensor s hheld
      exact ⟨htakes, hrefuses, heid, hversion, htypes, hvendor, hbase, hknown, hunknown, fun m => sideBands_noFirmware s m hheld,
        fun m => sideBands_firmware s m hheld⟩,
    sideBands_mailbox, sideBands_held, sideBands_status⟩

end Sys2Proof.Machine
end

section
/-! PROOF. Register writes that a port may not make (R515, R527, R544, R556, R572, R586, R589). -/
namespace Sys2Proof.Machine

/-! What becomes of a write at the gate. -/

theorem execRegisterWrite_silent {s : State} {h a size : Nat} (v : Word) (hgate : s.gate h a size true = .silent) :
    exec (.registerWrite h a size v) s = .next s := by
  show Host.Outcome.next (s.writeReg h a size v) = _
  rw [State.writeReg, State.gated, hgate]

theorem execRegisterWrite_ones {s u : State} {h a size : Nat} (v : Word) (hgate : s.gate h a size true = .ones u) :
    exec (.registerWrite h a size v) s = .next u := by
  show Host.Outcome.next (s.writeReg h a size v) = _
  rw [State.writeReg, State.gated, hgate]

/-- The gate of a module that runs, outside Overcast, with a function that does not sleep. -/
theorem State.gate_awake {s : State} {h : Nat} (a size : Nat) (write : Bool) (hheld : s.pwr.held = false) (hd3 : (s.host h).d3 = false)
    (hlive : s.pwrState ≠ 5) : s.gate h a size write =
      if !sizeFits a size then .ones (s.bump (rHifBadAccess + localStride * h) 1)
      else if 0x200000 ≤ a ∧ a < 0x600000 then s.partGate h write (s.partOf ((a - 0x200000) / 0x100000))
      else if 0x800000 ≤ a ∧ a < 0xC00000 then s.partGate h write (s.partOf ((a - 0x800000) / 0x80000 / 2))
      else if 0x1000000 ≤ a ∧ a < 0x1080000 then s.partGate h write (s.stackPart ((a - 0x1000000) / 0x10000))
      else if 0xC00000 ≤ a ∧ a < 0xF00000 then
        match s.portPart ((a - 0xC00000) / 0x80000) with
        | none => .served
        | some k => s.partGate h write (some k)
      else .served :=
  (if_neg (by rw [hheld, hd3]; exact fun hno => hno.elim Bool.false_ne_true Bool.false_ne_true)).trans ((if_neg fun hno => hlive hno.1).trans rfl)

/-- The gate of a core's register. -/
theorem State.gate_core {s : State} {h a : Nat} (write : Bool) (hheld : s.pwr.held = false) (hd3 : (s.host h).d3 = false) (hlive : s.pwrState ≠ 5)
    (halign : a % 8 = 0) (hlow : 0x200000 ≤ a) (hhigh : a < 0x600000) :
    s.gate h a 8 write = s.partGate h write (s.partOf ((a - 0x200000) / 0x100000)) := by
  have hfits : sizeFits a 8 = true := by simp [sizeFits, halign]
  rw [State.gate_awake a 8 write hheld hd3 hlive, hfits, if_neg (by decide), if_pos ⟨hlow, hhigh⟩]

/-- A place that is no partition's, or another port's, or whose stream has left the Secure state, is foreign (R515, R527). -/
theorem State.partGate_foreign {s : State} {h : Nat} {p : Option Nat} (write : Bool)
    (hp : p.all (fun k => s.owner k != h || (s.conf k && (s.host h).ideLeft)) = true) : s.partGate h write p = .ones (s.bump (rZenForeign h) 1) := by
  cases p with
  | none => rfl
  | some k => exact if_pos (by simpa using hp)

/-- A partition in Clearing or quarantined takes no write, which is counted (R544, R545). -/
theorem State.partGate_clearing {s : State} {h k : Nat} (howner : s.owner k = h) (hconf : s.conf k = false) (hstate : s.pstate k = 3 ∨ s.pstate k = 4) :
    s.partGate h true (some k) = .ones (s.bump (rZenClearRefused h) 1) :=
  (if_neg (by rw [howner, hconf]; simp)).trans (if_pos hstate)

/-- What a counted refusal leaves. -/
theorem refused_spec (s : State) (r : Nat) : (s.bump r 1).fld r 47 0 = min (s.fld r 47 0 + 1) (2 ^ 48 - 1) ∧ SameMem s (s.bump r 1) ∧
    SameRegsBut [r] s (s.bump r 1) := by
  have hleaves : Leaves (· ∈ [r]) s (s.bump r 1) := .bump .refl (List.mem_singleton_self r)
  exact ⟨State.fld_bump_same s r 1, hleaves.sameMem, hleaves.sameRegsBut⟩

theorem writesRefused_asleep (s : State) (h a size : Nat) (v : Word) (hno : s.pwr.held = true ∨ (s.host h).d3 = true) :
    exec (.registerWrite h a size v) s = .next s := execRegisterWrite_silent v (if_pos hno)

theorem writesRefused_overcast (s : State) (h a size : Nat) (v : Word) (hover : s.pwrState = 5) (ha : overcastOpen a = false) :
    exec (.registerWrite h a size v) s = .next s := by
  by_cases hno : s.pwr.held = true ∨ (s.host h).d3 = true
  · exact writesRefused_asleep s h a size v hno
  · exact execRegisterWrite_ones v ((if_neg hno).trans (if_pos ⟨hover, by rw [ha]; rfl⟩))

theorem writesRefused_size (s : State) (h a size : Nat) (v : Word) (hheld : s.pwr.held = false) (hd3 : (s.host h).d3 = false) (hlive : s.pwrState ≠ 5)
    (hsize : size ≠ 8) (ha : a < 0xF0000) : ∃ t : State, exec (.registerWrite h a size v) s = .next t ∧
      t.fld (rHifBadAccess + localStride * h) 47 0 = min (s.fld (rHifBadAccess + localStride * h) 47 0 + 1) (2 ^ 48 - 1) ∧ SameMem s t ∧
      SameRegsBut [rHifBadAccess + localStride * h] s t := by
  have hmsix : ¬0xF0000 ≤ a := by omega
  have hwindow : ¬0x2000000 ≤ a := by omega
  have hfits : sizeFits a size = false := by simp [sizeFits, hsize, hmsix, hwindow]
  have hgate : s.gate h a size true = .ones (s.bump (rHifBadAccess + localStride * h) 1) := by
    rw [State.gate_awake a size true hheld hd3 hlive, hfits]
    exact if_pos rfl
  exact ⟨_, execRegisterWrite_ones v hgate, refused_spec s _⟩

theorem writesRefused_foreign (s : State) (h a : Nat) (v : Word) (hheld : s.pwr.held = false) (hd3 : (s.host h).d3 = false) (hlive : s.pwrState ≠ 5)
    (halign : a % 8 = 0) (hlow : 0x200000 ≤ a) (hhigh : a < 0x600000)
    (hforeign : (s.partOf ((a - 0x200000) / 0x100000)).all (fun k => s.owner k != h || (s.conf k && (s.host h).ideLeft)) = true) :
    ∃ t : State, exec (.registerWrite h a 8 v) s = .next t ∧
      t.fld (rZenForeign h) 47 0 = min (s.fld (rZenForeign h) 47 0 + 1) (2 ^ 48 - 1) ∧ SameMem s t ∧ SameRegsBut [rZenForeign h] s t :=
  ⟨_, execRegisterWrite_ones v ((State.gate_core true hheld hd3 hlive halign hlow hhigh).trans (State.partGate_foreign true hforeign)), refused_spec s _⟩

theorem writesRefused_clearing (s : State) (h a : Nat) (v : Word) (hheld : s.pwr.held = false) (hd3 : (s.host h).d3 = false) (hlive : s.pwrState ≠ 5)
    (halign : a % 8 = 0) (hlow : 0x200000 ≤ a) (hhigh : a < 0x600000) (k : Nat) (hpart : s.partOf ((a - 0x200000) / 0x100000) = some k)
    (howner : s.owner k = h) (hconf : s.conf k = false) (hstate : s.pstate k = 3 ∨ s.pstate k = 4) :
    ∃ t : State, exec (.registerWrite h a 8 v) s = .next t ∧
      t.fld (rZenClearRefused h) 47 0 = min (s.fld (rZenClearRefused h) 47 0 + 1) (2 ^ 48 - 1) ∧ SameMem s t ∧ SameRegsBut [rZenClearRefused h] s t := by
  have hgate := State.gate_core (h := h) true hheld hd3 hlive halign hlow hhigh
  rw [hpart, State.partGate_clearing howner hconf hstate] at hgate
  exact ⟨_, execRegisterWrite_ones v hgate, refused_spec s _⟩

/-- Settles O52: what the gate of BAR0 refuses, and what it counts. -/
theorem writesRefused : Obligations.WritesRefused :=
  fun s h a size v _ => ⟨writesRefused_asleep s h a size v, writesRefused_overcast s h a size v, fun hheld hd3 hlive =>
    ⟨writesRefused_size s h a size v hheld hd3 hlive, fun hsize halign hlow hhigh => by
      subst hsize
      exact ⟨writesRefused_foreign s h a v hheld hd3 hlive halign hlow hhigh, writesRefused_clearing s h a v hheld hd3 hlive halign hlow hhigh⟩⟩⟩

end Sys2Proof.Machine
end

section
/-! PROOF. Device memory through BAR2 (R480, R483, R505, R515, R530, R534, R544, R545, R572, R586, R591–R593). -/
namespace Sys2Proof.Machine

/-! Reads. -/

/-- The port answered with all ones. -/
def State.onesRead (s : State) (h len : Nat) : State := s.out (.readData h (List.replicate len 255))

/-- BAR2_READ of a place that the port may read. -/
def State.plainRead (s : State) (h off len : Nat) : State :=
  let n := min len (0xFB8000000 - s.bar2Addr h off % 2 ^ 36)
  if s.stackHeld (s.bar2Addr h off) then s.laterW 1 (.bar2Read h off len false)
  else if s.hbmBad (s.bar2Addr h off) n then
    s.beginRecovery (s.bar2Addr h off / 2 ^ 36 / 2) 0 0 (s.badAddr (s.bar2Addr h off) n) 256 0 none false (some h) none none (some (off, len))
  else s.out (.readData h (s.hbmRead (s.bar2Addr h off) n ++ List.replicate (len - n) 255))

section
variable {s : State} {h off len : Nat} (hheld : s.pwr.held = false) (hd3 : (s.host h).d3 = false) (hlen : len ≠ 0)
include hheld hd3 hlen

theorem execBar2Read_overcast (hover : s.pwrState = 5) : exec (.bar2Read h off len false) s = .next (s.onesRead h len) :=
  (if_neg (by rw [hheld, hd3]; simp [hlen])).trans (if_pos hover)

variable (hlive : s.pwrState ≠ 5)
include hlive

theorem execBar2Read_plain (hclass : s.bar2Class h (s.bar2Addr h off) = .plain) :
    exec (.bar2Read h off len false) s = .next (s.plainRead h off len) := by
  refine ((if_neg (by rw [hheld, hd3]; simp [hlen])).trans (if_neg hlive)).trans ?_
  rw [hclass]
  unfold State.plainRead
  dsimp only
  rw [Bool.false_or]
  by_cases hstack : s.stackHeld (s.bar2Addr h off) = true
  · rw [if_pos hstack, if_pos hstack]
  · rw [if_neg hstack, if_neg hstack]
    split <;> rfl

theorem execBar2Read_foreign (hclass : s.bar2Class h (s.bar2Addr h off) = .foreign) :
    exec (.bar2Read h off len false) s = .next ((s.bump (rZenForeign h) 1).onesRead h len) := by
  refine ((if_neg (by rw [hheld, hd3]; simp [hlen])).trans (if_neg hlive)).trans ?_
  rw [hclass]
  rfl

theorem execBar2Read_ones (hplain : s.bar2Class h (s.bar2Addr h off) ≠ .plain) (hforeign : s.bar2Class h (s.bar2Addr h off) ≠ .foreign) :
    exec (.bar2Read h off len false) s = .next (s.onesRead h len) := by
  refine ((if_neg (by rw [hheld, hd3]; simp [hlen])).trans (if_neg hlive)).trans ?_
  cases hclass : s.bar2Class h (s.bar2Addr h off) with
  | plain => exact absurd hclass hplain
  | foreign => exact absurd hclass hforeign
  | conf => rfl
  | clearing => rfl
  | reserved => rfl

end

/-- A read within usable memory is read whole. -/
theorem State.plainRead_good {s : State} {h off len : Nat} (hstack : s.stackHeld (s.bar2Addr h off) = false)
    (hfits : s.bar2Addr h off % 2 ^ 36 + len ≤ 0xFB8000000) (hgood : s.hbmBad (s.bar2Addr h off) len = false) :
    s.plainRead h off len = s.out (.readData h (s.hbmRead (s.bar2Addr h off) len)) := by
  have hmin : min len (0xFB8000000 - s.bar2Addr h off % 2 ^ 36) = len := by omega
  unfold State.plainRead
  dsimp only
  rw [hmin, hstack, hgood, if_neg Bool.false_ne_true, if_neg Bool.false_ne_true, Nat.sub_self, List.replicate_zero, List.append_nil]

theorem State.plainRead_bad {s : State} {h off len : Nat} (hstack : s.stackHeld (s.bar2Addr h off) = false)
    (hfits : s.bar2Addr h off % 2 ^ 36 + len ≤ 0xFB8000000) (hbad : s.hbmBad (s.bar2Addr h off) len = true) :
    s.plainRead h off len = s.beginRecovery (s.bar2Addr h off / 2 ^ 36 / 2) 0 0 (s.badAddr (s.bar2Addr h off) len) 256 0 none false (some h) none none
      (some (off, len)) := by
  have hmin : min len (0xFB8000000 - s.bar2Addr h off % 2 ^ 36) = len := by omega
  unfold State.plainRead
  dsimp only
  rw [hmin, hstack, hbad, if_neg Bool.false_ne_true, if_pos rfl]

/-- The recovery that a port's read begins. -/
def State.readRecovery (s : State) (core a h : Nat) (r : Nat × Nat) : Recovery :=
  { id := s.nextId, core := core, addr := a, len := 256, host := some h, read := some r }

/-- Where none is under way, a failing line that a port reads begins a recovery (R483). -/
theorem State.beginRecovery_read {s : State} (core a h : Nat) (r : Nat × Nat) (hnone : s.recoveries = []) :
    s.beginRecovery core 0 0 a 256 0 none false (some h) none none (some r) =
      { ((s.bump (rMemCrcFail (a / 2 ^ 36)) 1).fresh.2.laterW 140 (.retryLands s.nextId true)) with recoveries := [s.readRecovery core a h r] } := by
  have hplace : s.samePlace core 0 0 a 256 = none := by
    unfold State.samePlace
    rw [hnone]
    rfl
  have hcount : s.countCheck core 0 a 0 = s.bump (rMemCrcFail (a / 2 ^ 36)) 1 := rfl
  have hhard : (s.bump (rMemCrcFail (a / 2 ^ 36)) 1).sramHard core 0 0 a 256 0 = s.bump (rMemCrcFail (a / 2 ^ 36)) 1 := if_neg (by simp)
  have hrec : (((s.bump (rMemCrcFail (a / 2 ^ 36)) 1).fresh.2).laterW 140 (.retryLands s.nextId true)).recoveries = [] := hnone
  have hlist : (((s.bump (rMemCrcFail (a / 2 ^ 36)) 1).fresh.2).laterW 140 (.retryLands s.nextId true)).recoveries ++ [s.readRecovery core a h r] =
      [s.readRecovery core a h r] := by rw [hrec, List.nil_append]
  unfold State.beginRecovery
  dsimp only
  rw [hplace, hcount]
  dsimp only
  rw [hhard, ← hlist]
  rfl

/-- What an answer of all ones leaves. -/
theorem onesRead_spec (s : State) (h len : Nat) : (s.onesRead h len).outbox = s.outbox ++ [Output.readData h (List.replicate len 255)] ∧
    SameMem s (s.onesRead h len) ∧ SameRegsBut [] s (s.onesRead h len) := by
  have hleaves : Leaves (· ∈ ([] : List Nat)) s (s.onesRead h len) := .out .refl
  exact ⟨rfl, hleaves.sameMem, hleaves.sameRegsBut⟩

/-! Writes. -/

/-- BAR2_WRITE of a place that the port may write. -/
def State.windowWritten (s : State) (h off : Nat) (b : List Nat) : State :=
  let n := min b.length (0xFB8000000 - s.bar2Addr h off % 2 ^ 36)
  if s.stackHeld (s.bar2Addr h off) then s.laterW 1 (.bar2Write h off b)
  else match s.partBad (s.bar2Addr h off) n with
    | some l => s.beginRecovery (s.bar2Addr h off / 2 ^ 36 / 2) 0 0 l 256 0 none false (some h) (some (off, b))
    | none =>
      let u := s.hbmWrite (s.bar2Addr h off) (b.take n)
      if n < b.length then u.bump (rHifBar2Refused + localStride * h) 1 else u

section
variable {s : State} {h off : Nat} {b : List Nat} (hheld : s.pwr.held = false) (hd3 : (s.host h).d3 = false) (hlive : s.pwrState ≠ 5) (hb : b ≠ [])
include hheld hd3 hlive hb

theorem execBar2Write_served (hclass : s.bar2Class h (s.bar2Addr h off) = .plain ∨ (s.bar2Class h (s.bar2Addr h off) = .conf ∧ s.ideSecure h = true)) :
    exec (.bar2Write h off b) s = .next (s.windowWritten h off b) := by
  refine (if_neg (by rw [hheld, hd3]; simp [hlive, hb])).trans ?_
  have hrest : ∀ n, (if s.stackHeld (s.bar2Addr h off) = true then Host.Outcome.next (s.laterW 1 (.bar2Write h off b)) else
      match s.partBad (s.bar2Addr h off) n with
      | some l => .next (s.beginRecovery (s.bar2Addr h off / 2 ^ 36 / 2) 0 0 l 256 0 none false (some h) (some (off, b)))
      | none => .next (if n < b.length then (s.hbmWrite (s.bar2Addr h off) (b.take n)).bump (rHifBar2Refused + localStride * h) 1
          else s.hbmWrite (s.bar2Addr h off) (b.take n)) : Out) =
      .next (if s.stackHeld (s.bar2Addr h off) = true then s.laterW 1 (.bar2Write h off b) else
        match s.partBad (s.bar2Addr h off) n with
        | some l => s.beginRecovery (s.bar2Addr h off / 2 ^ 36 / 2) 0 0 l 256 0 none false (some h) (some (off, b))
        | none => if n < b.length then (s.hbmWrite (s.bar2Addr h off) (b.take n)).bump (rHifBar2Refused + localStride * h) 1
            else s.hbmWrite (s.bar2Addr h off) (b.take n)) := fun n => by
    by_cases hstack : s.stackHeld (s.bar2Addr h off) = true
    · exact (if_pos hstack).trans (congrArg Host.Outcome.next (if_pos hstack).symm)
    · refine (if_neg hstack).trans (Eq.trans ?_ (congrArg Host.Outcome.next (if_neg hstack).symm))
      cases s.partBad (s.bar2Addr h off) n <;> rfl
  rcases hclass with hc | ⟨hc, hide⟩
  · rw [hc]
    exact (if_neg (by rintro ⟨hno, -⟩; exact Bar2.noConfusion hno)).trans (hrest _)
  · rw [hc]
    exact (if_neg (by rw [hide]; simp)).trans (hrest _)

theorem execBar2Write_insecure (hclass : s.bar2Class h (s.bar2Addr h off) = .conf) (hide : s.ideSecure h = false) :
    exec (.bar2Write h off b) s = .next (s.bump (rZenForeign h) 1) := by
  refine (if_neg (by rw [hheld, hd3]; simp [hlive, hb])).trans ?_
  rw [hclass]
  exact if_pos ⟨rfl, by rw [hide]; rfl⟩

theorem execBar2Write_refused : (s.bar2Class h (s.bar2Addr h off) = .foreign → exec (.bar2Write h off b) s = .next (s.bump (rZenForeign h) 1)) ∧
    (s.bar2Class h (s.bar2Addr h off) = .clearing → exec (.bar2Write h off b) s = .next (s.bump (rZenClearRefused h) 1)) ∧
    (s.bar2Class h (s.bar2Addr h off) = .reserved → exec (.bar2Write h off b) s = .next (s.bump (rHifBar2Refused + localStride * h) 1)) := by
  have hgo : ¬(s.pwr.held = true ∨ (s.host h).d3 = true ∨ s.pwrState = 5 ∨ b = []) := by rw [hheld, hd3]; simp [hlive, hb]
  refine ⟨fun hclass => (if_neg hgo).trans ?_, fun hclass => (if_neg hgo).trans ?_, fun hclass => (if_neg hgo).trans ?_⟩
  · rw [hclass]
  · rw [hclass]
  · rw [hclass]

end

/-- A write that covers no failing line in part has no end held (R480). -/
theorem State.heldEnds_of_partBad {s : State} {a n : Nat} (hn : 0 < n) (hnone : s.partBad a n = none) : s.heldEnds a n = (0, 0) := by
  have hcovered : ∀ p ∈ s.badLine, p.1 * 256 < a + n → a < p.1 * 256 + 256 → a ≤ p.1 * 256 ∧ p.1 * 256 + 256 ≤ a + n := fun p hp h1 h2 => by
    have hfalse := List.find?_eq_none.mp (Option.map_eq_none_iff.mp hnone) p hp
    simpa [h1, h2] using hfalse
  have hkeeps : ∀ line, line * 256 < a + n → a < line * 256 + 256 → s.keepsBad (ceilDiv a 256) ((a + n) / 256) line = false := fun line h1 h2 => by
    by_cases hbad : s.badLine.any (fun p => p.1 == line) = true
    · obtain ⟨p, hp, hline⟩ := List.any_eq_true.mp hbad
      obtain rfl := beq_iff_eq.mp hline
      obtain ⟨hlow, hhigh⟩ := hcovered p hp h1 h2
      exact s.keepsBad_of_covered (by unfold ceilDiv; omega) (by omega)
    · unfold State.keepsBad
      rw [Bool.eq_false_iff.mpr hbad, Bool.false_and]
  have hfirst : s.keepsBad (ceilDiv a 256) ((a + n) / 256) (a / 256) = false := hkeeps _ (by omega) (by omega)
  unfold State.heldEnds
  dsimp only
  rw [hfirst, if_neg Bool.false_ne_true]
  by_cases hlast : (a + n) / 256 * 256 < a + n
  · rw [hkeeps _ hlast (by omega)]
    simp
  · rw [if_neg fun hno => hlast hno.2.1]

/-- A write within usable memory that nothing stands in the way of is written whole. -/
theorem State.windowWritten_good {s : State} {h off : Nat} {b : List Nat} (hstack : s.stackHeld (s.bar2Addr h off) = false)
    (hfits : s.bar2Addr h off % 2 ^ 36 + b.length ≤ 0xFB8000000) (hgood : s.partBad (s.bar2Addr h off) b.length = none) :
    s.windowWritten h off b = s.hbmWrite (s.bar2Addr h off) b := by
  have hmin : min b.length (0xFB8000000 - s.bar2Addr h off % 2 ^ 36) = b.length := by omega
  unfold State.windowWritten
  dsimp only
  rw [hmin, hstack, if_neg Bool.false_ne_true, hgood]
  dsimp only
  rw [List.take_length, if_neg (Nat.lt_irrefl _)]

/-! What a port meets (R591–R593). -/

section
variable {s : State} {h off : Nat} {b : List Nat} (hheld : s.pwr.held = false) (hd3 : (s.host h).d3 = false) (hlive : s.pwrState ≠ 5) (hb : b ≠ [])
include hheld hd3 hlive hb

theorem deviceMemoryAccessed_read (hclass : s.bar2Class h (s.bar2Addr h off) = .plain) (hstack : s.stackHeld (s.bar2Addr h off) = false)
    (hfits : s.bar2Addr h off % 2 ^ 36 + b.length ≤ 0xFB8000000) (hgood : s.hbmBad (s.bar2Addr h off) b.length = false) :
    ∃ t : State, exec (.bar2Read h off b.length false) s = .next t ∧
      t.outbox = s.outbox ++ [Output.readData h (s.hbmRead (s.bar2Addr h off) b.length)] ∧ t.agenda = s.agenda ∧ SameMem s t ∧ SameRegsBut [] s t := by
  have hexec := execBar2Read_plain (off := off) hheld hd3 (mt List.length_eq_zero_iff.mp hb) hlive hclass
  rw [State.plainRead_good hstack hfits hgood] at hexec
  have hleaves : Leaves (· ∈ ([] : List Nat)) s (s.out (.readData h (s.hbmRead (s.bar2Addr h off) b.length))) := .out .refl
  exact ⟨_, hexec, rfl, rfl, hleaves.sameMem, hleaves.sameRegsBut⟩

theorem deviceMemoryAccessed_recovery (hclass : s.bar2Class h (s.bar2Addr h off) = .plain) (hstack : s.stackHeld (s.bar2Addr h off) = false)
    (hfits : s.bar2Addr h off % 2 ^ 36 + b.length ≤ 0xFB8000000) (hbad : s.hbmBad (s.bar2Addr h off) b.length = true) (hnone : s.recoveries = []) :
    ∃ (t : State) (r : Recovery), exec (.bar2Read h off b.length false) s = .next t ∧ t.recoveries = [r] ∧ r.space = 0 ∧ r.host = some h ∧
      r.addr = s.badAddr (s.bar2Addr h off) b.length ∧ t.outbox = s.outbox ∧ SameMem s t := by
  have hexec := execBar2Read_plain (off := off) hheld hd3 (mt List.length_eq_zero_iff.mp hb) hlive hclass
  rw [State.plainRead_bad hstack hfits hbad, State.beginRecovery_read _ _ h (off, b.length) hnone] at hexec
  generalize s.badAddr (s.bar2Addr h off) b.length = a at *
  generalize s.bar2Addr h off / 2 ^ 36 / 2 = core at *
  have hleaves : Leaves (fun _ => True) s { ((s.bump (rMemCrcFail (a / 2 ^ 36)) 1).fresh.2.laterW 140 (.retryLands s.nextId true)) with
      recoveries := [s.readRecovery core a h (off, b.length)] } := .upd (.laterW (.fresh (.bump .refl trivial)))
  exact ⟨_, _, hexec, rfl, rfl, rfl, rfl, rfl, hleaves.sameMem⟩

theorem deviceMemoryAccessed_write
    (hclass : s.bar2Class h (s.bar2Addr h off) = .plain ∨ (s.bar2Class h (s.bar2Addr h off) = .conf ∧ s.ideSecure h = true))
    (hstack : s.stackHeld (s.bar2Addr h off) = false) (hfits : s.bar2Addr h off % 2 ^ 36 + b.length ≤ 0xFB8000000)
    (hgood : s.partBad (s.bar2Addr h off) b.length = none) :
    ∃ t : State, exec (.bar2Write h off b) s = .next t ∧ t.hbm = memWrite s.hbm (s.bar2Addr h off) b ∧
      (∀ a, a < s.bar2Addr h off ∨ s.bar2Addr h off + b.length ≤ a → memGet t.hbm a = memGet s.hbm a) ∧ t.store = s.store ∧
      t.lstore = s.lstore ∧ t.mbuf = s.mbuf ∧ t.outbox = s.outbox ∧ t.agenda = s.agenda ∧ SameRegsBut [] s t := by
  have hexec := execBar2Write_served hheld hd3 hlive hb hclass
  rw [State.windowWritten_good hstack hfits hgood] at hexec
  have hbytes := State.hbm_hbmWrite (bs := b) (State.heldEnds_of_partBad (List.length_pos_iff.mpr hb) hgood)
  refine ⟨_, hexec, hbytes, fun a ha => ?_, rfl, rfl, rfl, rfl, rfl, fun _ _ => rfl⟩
  rw [hbytes, memGet_memWrite, if_neg (by omega)]

theorem deviceMemoryAccessed_wait (hclass : s.bar2Class h (s.bar2Addr h off) = .plain) (hstack : s.stackHeld (s.bar2Addr h off) = true) :
    (∃ t : State, exec (.bar2Read h off b.length false) s = .next t ∧
      t.agenda = s.agenda ++ [({ dom := none, at_ := s.clk.wall + 1, act := .cmd (.bar2Read h off b.length false) } : Due)] ∧
      t.outbox = s.outbox ∧ SameMem s t ∧ SameRegsBut [] s t) ∧
    ∃ t : State, exec (.bar2Write h off b) s = .next t ∧
      t.agenda = s.agenda ++ [({ dom := none, at_ := s.clk.wall + 1, act := .cmd (.bar2Write h off b) } : Due)] ∧ SameMem s t ∧ SameRegsBut [] s t := by
  have hread := execBar2Read_plain (off := off) hheld hd3 (mt List.length_eq_zero_iff.mp hb) hlive hclass
  have hwrite := execBar2Write_served hheld hd3 hlive hb (.inl hclass)
  have hlater : ∀ i : Instr, Leaves (· ∈ ([] : List Nat)) s (s.laterW 1 i) := fun _ => .laterW .refl
  exact ⟨⟨_, hread.trans (congrArg Host.Outcome.next (if_pos hstack)), rfl, rfl, (hlater _).sameMem, (hlater _).sameRegsBut⟩,
    _, hwrite.trans (congrArg Host.Outcome.next (if_pos hstack)), rfl, (hlater _).sameMem, (hlater _).sameRegsBut⟩

theorem deviceMemoryAccessed_ones (hplain : s.bar2Class h (s.bar2Addr h off) ≠ .plain) (hforeign : s.bar2Class h (s.bar2Addr h off) ≠ .foreign) :
    ∃ t : State, exec (.bar2Read h off b.length false) s = .next t ∧ t.outbox = s.outbox ++ [Output.readData h (List.replicate b.length 255)] ∧
      SameMem s t ∧ SameRegsBut [] s t :=
  ⟨_, execBar2Read_ones hheld hd3 (mt List.length_eq_zero_iff.mp hb) hlive hplain hforeign, onesRead_spec s h b.length⟩

theorem deviceMemoryAccessed_foreign (hclass : s.bar2Class h (s.bar2Addr h off) = .foreign) :
    (∃ t : State, exec (.bar2Read h off b.length false) s = .next t ∧
      t.fld (rZenForeign h) 47 0 = min (s.fld (rZenForeign h) 47 0 + 1) (2 ^ 48 - 1) ∧
      t.outbox = s.outbox ++ [Output.readData h (List.replicate b.length 255)] ∧ SameMem s t ∧ SameRegsBut [rZenForeign h] s t) ∧
    ∃ t : State, exec (.bar2Write h off b) s = .next t ∧
      t.fld (rZenForeign h) 47 0 = min (s.fld (rZenForeign h) 47 0 + 1) (2 ^ 48 - 1) ∧ t.outbox = s.outbox ∧ SameMem s t ∧
      SameRegsBut [rZenForeign h] s t := by
  obtain ⟨hcount, hmem, hregs⟩ := refused_spec s (rZenForeign h)
  have hleaves : Leaves (· ∈ [rZenForeign h]) s ((s.bump (rZenForeign h) 1).onesRead h b.length) := .out (.bump .refl (List.mem_singleton_self _))
  exact ⟨⟨_, execBar2Read_foreign hheld hd3 (mt List.length_eq_zero_iff.mp hb) hlive hclass, hcount, rfl, hleaves.sameMem, hleaves.sameRegsBut⟩,
    _, (execBar2Write_refused hheld hd3 hlive hb).1 hclass, hcount, rfl, hmem, hregs⟩

end

theorem deviceMemoryAccessed_asleep (s : State) (h off n : Nat) (b : List Nat) (hno : s.pwr.held = true ∨ (s.host h).d3 = true) :
    exec (.bar2Read h off n false) s = .next s ∧ exec (.bar2Write h off b) s = .next s :=
  ⟨if_pos (hno.imp_right .inl), if_pos (hno.imp_right .inl)⟩

theorem deviceMemoryAccessed_overcast (s : State) (h off n : Nat) (b : List Nat) (hheld : s.pwr.held = false) (hd3 : (s.host h).d3 = false)
    (hover : s.pwrState = 5) (hn : n ≠ 0) :
    exec (.bar2Read h off n false) s = .next (s.out (.readData h (List.replicate n 255))) ∧ exec (.bar2Write h off b) s = .next s :=
  ⟨execBar2Read_overcast hheld hd3 hn hover, if_pos (.inr (.inr (.inl hover)))⟩

/-- Settles O56: what a port reads and writes through BAR2, and what it is refused. -/
theorem deviceMemoryAccessed : Obligations.DeviceMemoryAccessed := by
  refine ⟨fun s h off b _ hheld hd3 hlive hb => ⟨fun hclass hstack hfits => ⟨deviceMemoryAccessed_read hheld hd3 hlive hb hclass hstack hfits,
    deviceMemoryAccessed_recovery hheld hd3 hlive hb hclass hstack hfits⟩, deviceMemoryAccessed_write hheld hd3 hlive hb,
    deviceMemoryAccessed_wait hheld hd3 hlive hb, fun hclass => ⟨?_, fun hide => ⟨_, execBar2Write_insecure hheld hd3 hlive hb hclass hide,
    refused_spec s _⟩⟩, deviceMemoryAccessed_foreign hheld hd3 hlive hb, fun hclass => ?_,
    fun hclass => ⟨_, (execBar2Write_refused hheld hd3 hlive hb).2.1 hclass, refused_spec s _⟩,
    fun hclass => ⟨_, (execBar2Write_refused hheld hd3 hlive hb).2.2 hclass, refused_spec s _⟩⟩,
    fun s h off n b => ⟨deviceMemoryAccessed_asleep s h off n b, deviceMemoryAccessed_overcast s h off n b⟩⟩
  · exact deviceMemoryAccessed_ones hheld hd3 hlive hb (by rw [hclass]; exact Bar2.noConfusion) (by rw [hclass]; exact Bar2.noConfusion)
  · refine deviceMemoryAccessed_ones hheld hd3 hlive hb (fun hno => ?_) fun hno => ?_
    · rcases hclass with hc | hc <;> exact Bar2.noConfusion (hc.symm.trans hno)
    · rcases hclass with hc | hc <;> exact Bar2.noConfusion (hc.symm.trans hno)

end Sys2Proof.Machine
end

section
/-! PROOF. Register writes that a port may make (R17, R196, R233, R257, R268, R271, R471, R472, R506, R529, R590, R594, R628, R632, R635). -/
namespace Sys2Proof.Machine

/-! What is written, and where. -/

/-- A field of one bit is that bit. -/
theorem getF_bit (w : Word) (i : Nat) : getF w i i = (w.getLsbD i).toNat := by
  refine Nat.eq_of_testBit_eq fun j => ?_
  rw [testBit_getF, Nat.testBit_bool_toNat, Nat.add_sub_cancel_left]
  cases j with
  | zero => simp
  | succ j => simp

/-- A field written with the value that it has leaves the word. -/
theorem setF_getF (w : Word) {hi lo : Nat} (hi64 : hi < 64) (hlo : lo ≤ hi) : setF w hi lo (getF w hi lo) = w := by
  refine BitVec.eq_of_getLsbD_eq fun i hbits => ?_
  rw [getLsbD_setF w hi lo _ i hi64 hlo hbits]
  split
  · next hin =>
    obtain ⟨hlow, hhigh⟩ := hin
    rw [testBit_getF, decide_eq_true (show i - lo < hi + 1 - lo by omega), Bool.true_and, Nat.add_sub_cancel' hlow]
  · rfl

/-- A W1C bit written 1 is 0 (R17). -/
theorem State.fld_writePlain_cleared {s : State} {key i : Nat} {r : RegRow} {v : Word} (hcap : s.captured key = false) (hset : getF v i i = 1)
    (hw1c : getF (BitVec.ofNat 64 r.w1c) i i = 1) : (s.writePlain key r v).fld key i i = 0 := by
  have hbit : v.getLsbD i = true := by rw [getF_bit] at hset; exact Bool.toNat_eq_one.mp hset
  have hclear : (BitVec.ofNat 64 r.w1c).getLsbD i = true := by rw [getF_bit] at hw1c; exact Bool.toNat_eq_one.mp hw1c
  simp only [State.writePlain, State.fld, State.reg_setReg_same, hcap, Bool.false_eq_true, if_false]
  rw [getF_bit, BitVec.getLsbD_and, BitVec.getLsbD_not, BitVec.getLsbD_and, hbit, hclear]
  simp

/-- A plain write outside a capture (R17, R628). -/
theorem State.reg_writePlain {s : State} {key : Nat} (hcap : s.captured key = false) (r : RegRow) (v : Word) : (s.writePlain key r v).reg key =
    (((s.reg key &&& ~~~(BitVec.ofNat 64 r.rw)) ||| (v &&& BitVec.ofNat 64 r.rw)) &&& ~~~(v &&& BitVec.ofNat 64 r.w1c)) := by
  simp only [State.writePlain, State.reg_setReg_same, hcap, Bool.false_eq_true, if_false]

/-- A register's own place in its block is that of the key under which it is kept (R588). -/
theorem State.regKey_mod (s : State) (h a : Nat) : s.regKey h a % 0x100000 = a % 0x100000 := by
  unfold State.regKey localStride
  split
  · omega
  · split <;> omega

/-- A served write is of a register at a multiple of 8 (R589). -/
theorem gate_aligned {s : State} {h a : Nat} (hgate : s.gate h a 8 true = .served) (hlow : 0x200000 ≤ a) (hhigh : a < 0x600000) : a % 8 = 0 := by
  by_contra hno
  have hsize : sizeFits a 8 = false := by
    have hmem : ¬(0x2000000 ≤ a) := by omega
    simp [sizeFits, hno, hmem]
  unfold State.gate at hgate
  rw [hsize] at hgate
  split at hgate
  · exact Gate.noConfusion hgate
  · split at hgate <;> exact Gate.noConfusion hgate

/-! Registers of a core. -/

section
variable {s : State} {h a : Nat} {r : RegRow} {v : Word}

theorem State.writeCore_dropped (hno : s.deaf a = true ∨ s.ringCopy a = true) : s.writeCore h a r v = s := if_pos hno.symm

section
variable (hdeaf : s.deaf a = false) (hcopy : s.ringCopy a = false)
include hdeaf hcopy

theorem State.writeCore_enabled (hplace : a % 0x100000 = 0x3008 ∨ a % 0x100000 = 0x3010)
    (hon : s.fld (rHifCrCtrl ((a - 0x200000) / 0x100000)) 63 63 = 1) : s.writeCore h a r v = s := by
  unfold State.writeCore
  dsimp only
  rw [if_neg (by simp [hdeaf, hcopy]), if_neg (by omega), if_neg (by omega), if_pos hplace, if_pos hon]

theorem State.writeCore_tqHigh (hplace : a % 0x100000 = 0xA010) :
    s.writeCore h a r v = s.writeTqHigh ((a - 0x200000) / 0x100000) (s.regKey h a) r v := by
  unfold State.writeCore
  simp only [hdeaf, hcopy, hplace, Bool.false_eq_true, or_self, if_false]
  simp (disch := omega) only [if_neg, if_true]

theorem State.writeCore_capture (hplace : a % 0x100000 = 0x8008) : s.writeCore h a r v = s.writeCapture (s.regKey h a) r v := by
  unfold State.writeCore
  simp only [hdeaf, hcopy, hplace, Bool.false_eq_true, or_self, if_false]
  simp (disch := omega) only [if_neg, if_true]

theorem State.writeCore_freeze (hplace : a % 0x100000 = 0x8048) : s.writeCore h a r v = s.writeFreeze ((a - 0x200000) / 0x100000) v := by
  unfold State.writeCore
  simp only [hdeaf, hcopy, hplace, Bool.false_eq_true, or_self, if_false]
  simp (disch := omega) only [if_neg, if_true]

theorem State.writeCore_slotBase (hlow : 0xC000 ≤ a % 0x100000) (hhigh : a % 0x100000 < 0xC400) : s.writeCore h a r v =
    s.writeSlotBase ((a - 0x200000) / 0x100000) (a % 0x100000 % 0x200 / 8) (decide (0xC200 ≤ a % 0x100000)) v := by
  unfold State.writeCore
  dsimp only
  rw [if_neg (by simp [hdeaf, hcopy]), if_neg (by omega), if_neg (by omega), if_neg (by omega), if_neg (by omega), if_pos ⟨hlow, hhigh⟩]

theorem State.writeCore_slotArm (hlow : 0xC400 ≤ a % 0x100000) (hhigh : a % 0x100000 < 0xC600) : s.writeCore h a r v =
    (s.noteArm ((a - 0x200000) / 0x100000) (a % 0x100000 % 0x200 / 8)).writePlain (s.regKey h a) r v := by
  unfold State.writeCore
  dsimp only
  rw [if_neg (by simp [hdeaf, hcopy]), if_neg (by omega), if_neg (by omega), if_neg (by omega), if_neg (by omega), if_neg (by omega),
    if_pos ⟨hlow, hhigh⟩]

theorem State.writeCore_plain (hring : ¬(0x3000 ≤ a % 0x100000 ∧ a % 0x100000 < 0x3040)) (hslot : ¬(0xC000 ≤ a % 0x100000 ∧ a % 0x100000 < 0xC600))
    (hsch : ¬(0x9000 ≤ a % 0x100000 ∧ a % 0x100000 < 0x9400)) (hthin : ¬(0xB100 ≤ a % 0x100000 ∧ a % 0x100000 < 0xB900))
    (hother : a % 0x100000 ∉ [0x8048, 0xA010, 0x8008, 0x7018]) : s.writeCore h a r v = s.writePlain (s.regKey h a) r v := by
  simp only [List.mem_cons, List.not_mem_nil, or_false, not_or] at hother
  obtain ⟨hfreeze, htq, hfault, htiming⟩ := hother
  unfold State.writeCore
  dsimp only
  rw [if_neg (by simp [hdeaf, hcopy]), if_neg (by omega), if_neg (by omega), if_neg (by omega), if_neg (by omega), if_neg (by omega),
    if_neg (by omega), if_neg hfreeze, if_neg htq, if_neg (by omega), if_neg hfault, if_neg htiming, if_neg hthin]

end

/-- No register outside the rings' is a copy of a ring register (R594). -/
theorem State.ringCopy_of_place (s : State) {a : Nat} (hplace : ¬(0x3000 ≤ a % 0x100000 ∧ a % 0x100000 < 0x3040)) : s.ringCopy a = false := by
  unfold State.ringCopy
  by_cases hlow : 0x3000 ≤ a % 0x100000
  · have hhigh : ¬(a % 0x100000 < 0x3040) := fun hlt => hplace ⟨hlow, hlt⟩
    simp [hhigh]
  · simp [hlow]

/-- The cleared high-water mark starts from the level that stands (R233). -/
theorem State.writeTqHigh_spec (s : State) (k : Nat) {key : Nat} (r : RegRow) (v : Word) (hkey : key ≠ rVecStatus k) :
    s.fld (rVecStatus k) 22 16 ≤ (s.writeTqHigh k key r v).fld key 6 0 ∧ Leaves (· ∈ [key]) s (s.writeTqHigh k key r v) := by
  have hmem : key ∈ [key] := List.mem_singleton_self _
  have hleaves : Leaves (· ∈ [key]) s (s.writePlain key r v) := .setReg .refl hmem
  have hlevel : (s.writePlain key r v).fld (rVecStatus k) 22 16 = s.fld (rVecStatus k) 22 16 :=
    hleaves.fld (fun hno => hkey (List.mem_singleton.mp hno).symm) 22 16
  refine ⟨?_, hleaves.setFld hmem⟩
  unfold State.writeTqHigh
  dsimp only
  rw [State.fld_setFld_same _ _ _ _ _ (by omega) (by omega), hlevel]
  have hhigh : (s.writePlain key r v).fld key 6 0 < 2 ^ 7 := getF_lt _ 6 0
  have hnow : s.fld (rVecStatus k) 22 16 < 2 ^ 7 := getF_lt _ 22 16
  omega

/-- A write in a core's block leaves what is captured of the block (R628). -/
theorem State.captured_writePlain (s : State) {key : Nat} (r : RegRow) (v : Word) (hlow : 0x200000 ≤ key) (hhigh : key < 0x600000) :
    (s.writePlain key r v).captured key = s.captured key := by
  have hcores : ∀ k ∈ List.range 4, (s.writePlain key r v).partCores k = s.partCores k := fun k hk => by
    have hk4 := List.mem_range.mp hk
    unfold State.partCores
    rw [(Reports.writePlain s key r v).fld (by unfold rZenPart; omega)]
  have hpart : ∀ k ∈ List.range 4, (s.writePlain key r v).partReg k key = s.partReg k key := fun k hk => by
    unfold State.partReg
    rw [if_pos ⟨hlow, hhigh⟩, if_pos ⟨hlow, hhigh⟩, hcores k hk]
  refine Bool.eq_iff_iff.mpr ?_
  unfold State.captured
  rw [List.any_eq_true, List.any_eq_true]
  exact exists_congr fun k => and_congr_right fun hk => by rw [hpart k hk]; exact Iff.rfl

/-- A captured fault that is cleared goes with its count (R17). -/
theorem State.writeCapture_spec {s : State} {key : Nat} {r : RegRow} {v : Word} (hlow : 0x200000 ≤ key) (hhigh : key < 0x600000) (hcap : s.captured key = false) (hset : getF v 63 63 = 1)
    (hw1c : getF (BitVec.ofNat 64 r.w1c) 63 63 = 1) : (s.writeCapture key r v).fld key 63 63 = 0 ∧ (s.writeCapture key r v).fld key 47 32 = 0 ∧
      Leaves (· ∈ [key]) s (s.writeCapture key r v) := by
  have hmem : key ∈ [key] := List.mem_singleton_self _
  have hcleared := State.fld_writePlain_cleared hcap hset hw1c
  have hcap' : (s.writePlain key r v).captured key = false := (State.captured_writePlain s r v hlow hhigh).trans hcap
  have hleaves : Leaves (· ∈ [key]) s (s.writePlain key r v) := .setReg .refl hmem
  unfold State.writeCapture
  dsimp only
  rw [hset, hcap', if_pos ⟨rfl, rfl⟩]
  refine ⟨?_, State.fld_setFld_same _ _ _ _ _ (by omega) (by omega), hleaves.setFld hmem⟩
  rw [State.fld_setFld_disjoint _ _ _ _ _ _ _ (by omega) (by omega) (by omega) (by omega), hcleared]

/-- VALID of a captured update fault is a W1C bit of a register that the ports share (R257). -/
theorem updFault_row {a : Nat} {r : RegRow} (hrow : rowOf a = some r) (hlow : 0x200000 ≤ a) (hhigh : a < 0x600000) (hplace : a % 0x100000 = 0x8008) :
    getF (BitVec.ofNat 64 r.w1c) 63 63 = 1 ∧ r.isLocal = false := by
  have hall : ∀ k < 4, (rowOf (0x208008 + 0x100000 * k)).all (fun r => getF (BitVec.ofNat 64 r.w1c) 63 63 == 1 && !r.isLocal) = true := by
    decide +kernel
  have ha : a = 0x208008 + 0x100000 * ((a - 0x200000) / 0x100000) := by omega
  have hk := hall ((a - 0x200000) / 0x100000) (by omega)
  rw [← ha, hrow] at hk
  obtain ⟨hbit, hshared⟩ := Bool.and_eq_true_iff.mp hk
  exact ⟨eq_of_beq hbit, Bool.not_eq_true' _ ▸ hshared⟩

end

theorem registersWritten_core (s : State) (h a : Nat) (v : Word) (r : RegRow) (hgate : s.gate h a 8 true = .served) (hrow : rowOf a = some r)
    (hlow : 0x200000 ≤ a) (hhigh : a < 0x600000) :
    (s.deaf a = true ∨ s.ringCopy a = true → exec (.registerWrite h a 8 v) s = .next s) ∧
    (s.deaf a = false → s.ringCopy a = false →
      (a % 0x100000 = 0x3008 ∨ a % 0x100000 = 0x3010) → s.fld (rHifCrCtrl ((a - 0x200000) / 0x100000)) 63 63 = 1 →
      exec (.registerWrite h a 8 v) s = .next s) ∧
    (s.deaf a = false → s.captured (s.regKey h a) = false → a % 0x100000 = 0xA010 → ∃ t : State, exec (.registerWrite h a 8 v) s = .next t ∧
      s.fld (rVecStatus ((a - 0x200000) / 0x100000)) 22 16 ≤ t.fld (s.regKey h a) 6 0 ∧ SameMem s t ∧ SameRegsBut [s.regKey h a] s t) ∧
    (s.deaf a = false → s.captured (s.regKey h a) = false → a % 0x100000 = 0x8008 → getF v 63 63 = 1 → ∃ t : State, exec (.registerWrite h a 8 v) s = .next t ∧
      t.fld (s.regKey h a) 63 63 = 0 ∧ t.fld (s.regKey h a) 47 32 = 0 ∧ SameMem s t ∧ SameRegsBut [s.regKey h a] s t) ∧
    (s.deaf a = false → s.captured (s.regKey h a) = false → ¬(0x3000 ≤ a % 0x100000 ∧ a % 0x100000 < 0x3040) →
      ¬(0xC000 ≤ a % 0x100000 ∧ a % 0x100000 < 0xC600) →
      ¬(0x9000 ≤ a % 0x100000 ∧ a % 0x100000 < 0x9400) → ¬(0xB100 ≤ a % 0x100000 ∧ a % 0x100000 < 0xB900) →
      a % 0x100000 ∉ [0x8048, 0xA010, 0x8008, 0x7018] → ∃ t : State, exec (.registerWrite h a 8 v) s = .next t ∧
      t.reg (s.regKey h a) = (((s.reg (s.regKey h a) &&& ~~~(BitVec.ofNat 64 r.rw)) ||| (v &&& BitVec.ofNat 64 r.rw)) &&&
        ~~~(v &&& BitVec.ofNat 64 r.w1c)) ∧ SameMem s t ∧ SameRegsBut [s.regKey h a] s t) := by
  have hexec : exec (.registerWrite h a 8 v) s = .next (s.writeCore h a r v) :=
    congrArg Host.Outcome.next (State.writeReg_of_rowOf_core v hgate hrow hlow hhigh)
  refine ⟨fun hno => ?_, fun hdeaf hcopy hplace hon => ?_, fun hdeaf _ hplace => ?_, fun hdeaf hcap hplace hset => ?_,
    fun hdeaf hcap hring hslot hsch hthin hother => ?_⟩
  · rw [hexec, State.writeCore_dropped hno]
  · rw [hexec, State.writeCore_enabled hdeaf hcopy hplace hon]
  · have hkey : s.regKey h a ≠ rVecStatus ((a - 0x200000) / 0x100000) := by
      have hmod := s.regKey_mod h a
      unfold rVecStatus
      omega
    obtain ⟨hmax, hleaves⟩ := s.writeTqHigh_spec ((a - 0x200000) / 0x100000) r v hkey
    rw [hexec, State.writeCore_tqHigh hdeaf (s.ringCopy_of_place (by omega)) hplace]
    exact ⟨_, rfl, hmax, hleaves.sameMem, hleaves.sameRegsBut⟩
  · obtain ⟨hw1c, hshared⟩ := updFault_row hrow hlow hhigh hplace
    have hkey : s.regKey h a = a := by
      have hmsix : ¬(a < 0xF0100) := by omega
      simp [State.regKey, isLocal, hrow, hshared, hmsix, hplace]
    rw [hkey] at hcap ⊢
    obtain ⟨hvalid, hcount, hleaves⟩ := State.writeCapture_spec hlow hhigh hcap hset hw1c
    rw [hexec, State.writeCore_capture hdeaf (s.ringCopy_of_place (by omega)) hplace, hkey]
    exact ⟨_, rfl, hvalid, hcount, hleaves.sameMem, hleaves.sameRegsBut⟩
  · have hleaves : Leaves (· ∈ [s.regKey h a]) s (s.writePlain (s.regKey h a) r v) := .setReg .refl (List.mem_singleton_self _)
    rw [hexec, State.writeCore_plain hdeaf (s.ringCopy_of_place hring) hring hslot hsch hthin hother]
    exact ⟨_, rfl, State.reg_writePlain hcap r v, hleaves.sameMem, hleaves.sameRegsBut⟩

/-! Persistent slots (R196). -/

/-- A register that a row of the table covers has that row, where no row before it comes near. -/
theorem rowOf_of_place {i lo hi a : Nat} {r : RegRow} (hdrop : regTable.drop i = r :: regTable.drop (i + 1))
    (hbefore : ∀ q ∈ regTable.take i, q.apartInCore lo hi = true) (hhas : r.has a = true) (hlow : lo ≤ a % 0x100000) (hhigh : a % 0x100000 < hi) :
    rowOf a = some r := by
  have hnone : (regTable.take i).find? (fun q => q.has a) = none :=
    List.find?_eq_none.mpr fun q hq => by simp [RegRow.has_of_apartInCore (hbefore q hq) hlow hhigh]
  rw [rowOf, ← List.take_append_drop i regTable, List.find?_append, hnone, Option.none_or, hdrop]
  exact List.find?_cons_of_pos hhas

/-- The rows of STR_PS_SRC, STR_PS_DST and STR_PS_ARM in the register table. -/
def slotSrcRow : RegRow := ⟨"STR_PS_SRC", 0x20C000, 0x100000, 4, 8, 64, 0, 1, false, 0xFFFFFFFFFF, 0x0, 0x0, 0xFFFFFFFFFFFFFFFF, 0x0, 0x0⟩
def slotDstRow : RegRow := ⟨"STR_PS_DST", 0x20C200, 0x100000, 4, 8, 64, 0, 1, false, 0xFFFFFFFFFF, 0x0, 0x0, 0xFFFFFFFFFFFFFFFF, 0x0, 0x0⟩
def slotArmRow : RegRow :=
  ⟨"STR_PS_ARM", 0x20C400, 0x100000, 4, 8, 64, 0, 1, false, 0x80FFFFFFFFFFFFFF, 0x6000000000000000, 0x0, 0x9FFFFFFFFFFFFFFF, 0x6000000000000000, 0x0⟩

theorem regTable_slotSrcRow : regTable.drop 5 = slotSrcRow :: regTable.drop 6 ∧ ∀ q ∈ regTable.take 5, q.apartInCore 0xC000 0xC200 = true := by
  decide +kernel
theorem regTable_slotDstRow : regTable.drop 6 = slotDstRow :: regTable.drop 7 ∧ ∀ q ∈ regTable.take 6, q.apartInCore 0xC200 0xC400 = true := by
  decide +kernel
theorem regTable_slotArmRow : regTable.drop 7 = slotArmRow :: regTable.drop 8 ∧ ∀ q ∈ regTable.take 7, q.apartInCore 0xC400 0xC600 = true := by
  decide +kernel

/-- A row of 64 registers in each of the four cores covers each of them. -/
theorem RegRow.has_slot {r : RegRow} {k n : Nat} (hk : k < 4) (hn : n < 64) (hblocks : r.bStride = 0x100000 ∧ r.bCount = 4)
    (hslots : r.stride1 = 8 ∧ r.count1 = 64 ∧ r.count2 = 1) : r.has (r.base + 0x100000 * k + 8 * n) = true := by
  obtain ⟨hstride, hcount⟩ := hblocks
  obtain ⟨hstep, hcopies, hone⟩ := hslots
  have hplace : r.base + 0x100000 * k + 8 * n - (r.base + k * 0x100000) = 8 * n := by omega
  have hfirst : r.base + k * 0x100000 ≤ r.base + 0x100000 * k + 8 * n := by omega
  simp only [RegRow.has, List.any_eq_true, List.mem_range, hstride, hcount, hstep, hcopies, hone]
  exact ⟨k, hk, 0, by omega, by simp [hplace, hfirst, hn]⟩

section
variable {k n : Nat} (hk : k < 4) (hn : n < 64)
include hk hn

theorem rowOf_rStrPsSrc : rowOf (rStrPsSrc k n) = some slotSrcRow :=
  rowOf_of_place regTable_slotSrcRow.1 regTable_slotSrcRow.2 (RegRow.has_slot (r := slotSrcRow) hk hn ⟨rfl, rfl⟩ ⟨rfl, rfl, rfl⟩)
    (by unfold rStrPsSrc; omega) (by unfold rStrPsSrc; omega)

theorem rowOf_rStrPsDst : rowOf (rStrPsDst k n) = some slotDstRow :=
  rowOf_of_place regTable_slotDstRow.1 regTable_slotDstRow.2 (RegRow.has_slot (r := slotDstRow) hk hn ⟨rfl, rfl⟩ ⟨rfl, rfl, rfl⟩)
    (by unfold rStrPsDst; omega) (by unfold rStrPsDst; omega)

theorem rowOf_rStrPsArm : rowOf (rStrPsArm k n) = some slotArmRow :=
  rowOf_of_place regTable_slotArmRow.1 regTable_slotArmRow.2 (RegRow.has_slot (r := slotArmRow) hk hn ⟨rfl, rfl⟩ ⟨rfl, rfl, rfl⟩)
    (by unfold rStrPsArm; omega) (by unfold rStrPsArm; omega)

end

/-- No slot register is one that a confidential partition hides from writes (R315). -/
theorem State.deaf_of_slot (s : State) {a : Nat} (hlow : 0x200000 ≤ a) (hhigh : a < 0x600000) (hslot : 0xC000 ≤ a % 0x100000)
    (hend : a % 0x100000 < 0xC600) : s.deaf a = false := by
  have hstr : ¬(0xF000 ≤ a % 0x100000) := by omega
  have hvec : ¬(a % 0x100000 < 0xA038) := by omega
  simp [State.deaf, hlow, hhigh, hstr, hvec]

theorem State.regKey_rStrPsArm (s : State) (h : Nat) {k n : Nat} (hk : k < 4) (hn : n < 64) : s.regKey h (rStrPsArm k n) = rStrPsArm k n := by
  have hlow : ¬(rStrPsArm k n < 0xF0100) := by unfold rStrPsArm; omega
  have htiming : ¬(rStrPsArm k n % 0x100000 < 0x7200) := by unfold rStrPsArm; omega
  have hlocal : slotArmRow.isLocal = false := rfl
  simp [State.regKey, isLocal, rowOf_rStrPsArm hk hn, hlocal, hlow, htiming]

theorem registersWritten_arm (s : State) (h k n : Nat) (v : Word) (hk : k < 4) (hn : n < 64) (hgate : s.gate h (rStrPsArm k n) 8 true = .served)
    (hcap : s.captured (rStrPsArm k n) = false) : ∃ t : State, exec (.persistentSlotArm h k n v) s = .next t ∧
      t.reg (rStrPsArm k n) = (((s.reg (rStrPsArm k n) &&& 0x7F00000000000000#64) ||| (v &&& 0x80FFFFFFFFFFFFFF#64)) &&&
        ~~~(v &&& 0x6000000000000000#64)) ∧ SameMem s t ∧ SameRegsBut [rStrPsArm k n] s t := by
  have hlow : 0x200000 ≤ rStrPsArm k n := by unfold rStrPsArm; omega
  have hhigh : rStrPsArm k n < 0x600000 := by unfold rStrPsArm; omega
  have hfirst : 0xC400 ≤ rStrPsArm k n % 0x100000 := by unfold rStrPsArm; omega
  have hlast : rStrPsArm k n % 0x100000 < 0xC600 := by unfold rStrPsArm; omega
  have hexec : exec (.persistentSlotArm h k n v) s = .next (s.writeCore h (rStrPsArm k n) slotArmRow v) :=
    congrArg Host.Outcome.next (State.writeReg_of_rowOf_core v hgate (rowOf_rStrPsArm hk hn) hlow hhigh)
  rw [State.writeCore_slotArm (s.deaf_of_slot hlow hhigh (by omega) hlast) (s.ringCopy_of_place (by omega)) hfirst hlast,
    s.regKey_rStrPsArm h hk hn] at hexec
  have hleaves : Leaves (· ∈ [rStrPsArm k n]) s
      ((s.noteArm ((rStrPsArm k n - 0x200000) / 0x100000) (rStrPsArm k n % 0x100000 % 0x200 / 8)).writePlain (rStrPsArm k n) slotArmRow v) :=
    .setReg (.modCore .refl) (List.mem_singleton_self _)
  exact ⟨_, hexec, State.reg_writePlain hcap slotArmRow v, hleaves.sameMem, hleaves.sameRegsBut⟩

/-- A write of a slot's base comes to the slot (R196). -/
theorem execPersistentBaseWrite_eq {s : State} {h k n : Nat} (v : Word) (d : Bool) (hk : k < 4) (hn : n < 64)
    (hgate : s.gate h (if d then rStrPsDst k n else rStrPsSrc k n) 8 true = .served) :
    exec (.persistentBaseWrite h k n d v) s = .next (s.writeSlotBase k n d v) := by
  have hrow : ∃ r, rowOf (if d then rStrPsDst k n else rStrPsSrc k n) = some r := by
    cases d
    · exact ⟨_, rowOf_rStrPsSrc hk hn⟩
    · exact ⟨_, rowOf_rStrPsDst hk hn⟩
  have hplace : (if d then rStrPsDst k n else rStrPsSrc k n) = 0x200000 + 0x100000 * k + (if d then 0xC200 else 0xC000) + 8 * n := by
    cases d
    · simp only [rStrPsSrc, Bool.false_eq_true, if_false]; omega
    · simp only [rStrPsDst, if_true]; omega
  obtain ⟨r, hrow⟩ := hrow
  refine congrArg Host.Outcome.next ?_
  generalize (if d then rStrPsDst k n else rStrPsSrc k n) = a at *
  have hoff : (if d = true then 0xC200 else 0xC000) = 0xC000 + 0x200 * d.toNat := by cases d <;> rfl
  have hd : d.toNat ≤ 1 := Bool.toNat_le d
  have hmod : a % 0x100000 = 0xC000 + 0x200 * d.toNat + 8 * n := by omega
  have hcore : (a - 0x200000) / 0x100000 = k := by omega
  have hslot : (0xC000 + 0x200 * d.toNat + 8 * n) % 0x200 / 8 = n := by omega
  have hside : decide (0xC200 ≤ 0xC000 + 0x200 * d.toNat + 8 * n) = d := by
    cases d
    · exact decide_eq_false (by simp only [Bool.toNat_false]; omega)
    · exact decide_eq_true (by simp only [Bool.toNat_true]; omega)
  rw [State.writeReg_of_rowOf_core v hgate hrow (by omega) (by omega),
    State.writeCore_slotBase (s.deaf_of_slot (by omega) (by omega) (by omega) (by omega)) (s.ringCopy_of_place (by omega)) (by omega) (by omega),
    hmod, hcore, hslot, hside]

theorem registersWritten_base (s : State) (h k n : Nat) (v : Word) (d : Bool) (hk : k < 4) (hn : n < 64)
    (hgate : s.gate h (if d then rStrPsDst k n else rStrPsSrc k n) 8 true = .served) :
    (s.fld (rStrPsArm k n) 63 63 = 1 → ∃ t : State, exec (.persistentBaseWrite h k n d v) s = .next t ∧ t.fld (rStrPsArm k n) 61 61 = 1 ∧
      SameMem s t ∧ SameRegsBut [rStrPsArm k n] s t) ∧
    (s.fld (rStrPsArm k n) 63 63 = 0 → ∃ t : State, exec (.persistentBaseWrite h k n d v) s = .next t ∧
      t.reg (if d then rStrPsDst k n else rStrPsSrc k n) = v &&& 0xFFFFFFFFFF#64 ∧ SameMem s t ∧
      SameRegsBut [if d then rStrPsDst k n else rStrPsSrc k n] s t) := by
  have hexec := execPersistentBaseWrite_eq v d hk hn hgate
  refine ⟨fun harmed => ?_, fun hidle => ?_⟩
  · have hleaves : Leaves (· ∈ [rStrPsArm k n]) s (s.setFld (rStrPsArm k n) 61 61 1) := .setFld .refl (List.mem_singleton_self _)
    exact ⟨_, hexec.trans (congrArg Host.Outcome.next (if_pos harmed)), State.fld_setFld_same _ _ _ _ _ (by omega) (by omega), hleaves.sameMem,
      hleaves.sameRegsBut⟩
  · have hleaves : Leaves (· ∈ [if d then rStrPsDst k n else rStrPsSrc k n]) s
        (s.setReg (if d then rStrPsDst k n else rStrPsSrc k n) (v &&& 0xFFFFFFFFFF#64)) := .setReg .refl (List.mem_singleton_self _)
    exact ⟨_, hexec.trans (congrArg Host.Outcome.next (if_neg (by rw [hidle]; decide))), State.reg_setReg_same _ _ _, hleaves.sameMem,
      hleaves.sameRegsBut⟩

/-! The freeze words and the schedule parameters (R257, R268). -/

theorem registersWritten_freeze (s : State) (h k : Nat) (v : Word) (hk : k < 4) (hgate : s.gate h (rUpdFreezeData k) 8 true = .served)
    (hpend : ∀ e ∈ (s.core k).freezePend, e.1 = (s.freezePlace k).1 → e.2.2 = true) (hends : s.heldEnds (s.freezePlace k).2 8 = (0, 0)) :
    ∃ t : State, exec (.freezeWrite h k v) s = .next t ∧ t.hbm = memWrite s.hbm (s.freezePlace k).2 (leBytes 8 v.toNat) ∧
      (t.core k).freezePend = (s.core k).freezePend ++ [((s.freezePlace k).1, BitVec.ofNat 64 (leNat (s.hbmRead (s.freezePlace k).2 8)), false)] ∧
      t.store = s.store ∧ t.lstore = s.lstore ∧ t.mbuf = s.mbuf ∧ SameRegsBut [] s t := by
  have hrows : ∀ k < 4, (rowOf (rUpdFreezeData k)).isSome = true := by decide +kernel
  obtain ⟨r, hrow⟩ := Option.isSome_iff_exists.mp (hrows k hk)
  have hmod : rUpdFreezeData k % 0x100000 = 0x8048 := by unfold rUpdFreezeData; omega
  have hcore : (rUpdFreezeData k - 0x200000) / 0x100000 = k := by unfold rUpdFreezeData; omega
  have hlow : 0x200000 ≤ rUpdFreezeData k := by unfold rUpdFreezeData; omega
  have hhigh : rUpdFreezeData k < 0x600000 := by unfold rUpdFreezeData; omega
  have hdeaf : s.deaf (rUpdFreezeData k) = false := by simp [State.deaf, hlow, hhigh, hmod]
  have hexec : exec (.freezeWrite h k v) s = .next (s.writeFreeze k v) := by
    refine congrArg Host.Outcome.next ((State.writeReg_of_rowOf_core v hgate hrow hlow hhigh).trans ?_)
    rw [State.writeCore_freeze hdeaf (s.ringCopy_of_place (by omega)) hmod, hcore]
  have hnone : (s.core k).freezePend.any (fun e => e.1 == (s.freezePlace k).1 && !e.2.2) = false :=
    List.any_eq_false.mpr fun e he => by
      by_cases hplace : e.1 = (s.freezePlace k).1
      · simp [hpend e he hplace]
      · simp [hplace]
  have hbytes : (s.writeFreeze k v).hbm = memWrite s.hbm (s.freezePlace k).2 (leBytes 8 v.toNat) :=
    State.hbm_hbmWrite (by rw [length_leBytes]; exact hends)
  have hkept : (s.writeFreeze k v).core k = { s.core k with
      freezePend := (s.core k).freezePend ++ [((s.freezePlace k).1, BitVec.ofNat 64 (leNat (s.hbmRead (s.freezePlace k).2 8)), false)] } := by
    unfold State.writeFreeze
    dsimp only
    rw [State.core_hbmWrite, State.core_modCore_same, hnone, if_neg Bool.false_ne_true]
  exact ⟨_, hexec, hbytes, by rw [hkept], rfl, rfl, rfl, fun _ _ => rfl⟩

/-- No schedule parameter is kept once for each port (R588). -/
theorem isLocal_rSchCtrl {k n o : Nat} {r : RegRow} (hk : k < 4) (hn : n < 4) (ho : o < 0x80) (haligned : o % 8 = 0)
    (hrow : rowOf (rSchCtrl k n + o) = some r) : r.isLocal = false := by
  have hall : ∀ k < 4, ∀ n < 4, ∀ m < 16, (rowOf (rSchCtrl k n + 8 * m)).all (fun r => !r.isLocal) = true := by decide +kernel
  have hm := hall k hk n hn (o / 8) (by omega)
  rw [show 8 * (o / 8) = o by omega, hrow] at hm
  simpa using hm

theorem registersWritten_schedule (s : State) (h k n o : Nat) (v : Word) (r : RegRow) (hk : k < 4) (hn : n < 4) (ho : o < 0x80)
    (hgate : s.gate h (rSchCtrl k n + o) 8 true = .served) (hrow : rowOf (rSchCtrl k n + o) = some r) :
    ∃ t : State, exec (.scheduleParameterWrite h k n o v) s = .next t ∧
      (0 < o → SMap.get (t.core k).schStaged (rSchCtrl k n + o) = some (v &&& BitVec.ofNat 64 r.rw)) ∧ SameMem s t ∧ SameRegsBut [] s t := by
  obtain ⟨hlow, hhigh⟩ := rSchCtrl_add_bounds hk hn ho
  have haligned : o % 8 = 0 := by
    have hboth := gate_aligned hgate hlow hhigh
    unfold rSchCtrl at hboth
    omega
  have hexec : exec (.scheduleParameterWrite h k n o v) s = .next (s.stageSch k (rSchCtrl k n + o) r v) := by
    show Host.Outcome.next (s.writeReg h (rSchCtrl k n + o % 0x80) 8 v) = _
    rw [Nat.mod_eq_of_lt ho, State.writeReg_rSchCtrl hk hn ho hgate hrow (isLocal_rSchCtrl hk hn ho haligned hrow)]
  have hleaves : Leaves (· ∈ ([] : List Nat)) s (s.stageSch k (rSchCtrl k n + o) r v) := .modCore .refl
  refine ⟨_, hexec, fun hpos => ?_, hleaves.sameMem, hleaves.sameRegsBut⟩
  have hoffset : ¬((rSchCtrl k n + o) % 0x100 = 0) := by unfold rSchCtrl; omega
  unfold State.stageSch
  rw [State.core_modCore_same]
  dsimp only
  rw [SMap.get_set_same, if_neg hoffset]

/-! The registers of a port. -/

/-- A served write goes on to the register (R586). -/
theorem State.gated_served {s : State} {h a size : Nat} {f : State → State} (hgate : s.gate h a size true = .served) : s.gated h a size f = f s := by
  rw [State.gated, hgate]

theorem registersWritten_bar2Base (s : State) (h : Nat) (v : Word) (hgate : s.gate h rHifBar2Base 8 true = .served) :
    ∃ t : State, exec (.bar2BaseWrite h v) s = .next t ∧
      t.reg (rHifBar2Base + localStride * h) = (if v.toNat / 8 * 8 % 2 ^ (s.host h).window = 0 then BitVec.ofNat 64 (v.toNat / 8 * 8) else 0#64) ∧
      SameMem s t ∧ SameRegsBut [rHifBar2Base + localStride * h] s t := by
  have hrows : (rowOf rHifBar2Base).isSome = true := by decide +kernel
  obtain ⟨r, hrow⟩ := Option.isSome_iff_exists.mp hrows
  have hexec : exec (.bar2BaseWrite h v) s = .next (s.writeBar2Base h v) := by
    refine congrArg Host.Outcome.next ((State.gated_served hgate).trans ?_)
    unfold State.writeServed
    rw [hrow]
    exact ((if_neg (by decide)).trans (if_neg (by decide))).trans ((if_neg (by decide)).trans (if_pos rfl))
  have hleaves : Leaves (· ∈ [rHifBar2Base + localStride * h]) s (s.writeBar2Base h v) := .setReg .refl (List.mem_singleton_self _)
  refine ⟨_, hexec, (State.reg_setReg_same ..).trans ?_, hleaves.sameMem, hleaves.sameRegsBut⟩
  split <;> rfl

theorem State.askLinkReset_refused {s : State} {p c : Nat} (hc : s.maintConflict 5 p = some c) : s.askLinkReset p = s.maintRefuse 5 p c := by
  unfold State.askLinkReset
  rw [hc]

/-- A link reset that nothing refuses is granted, and follows at once (R506). -/
theorem State.askLinkReset_granted {s : State} {p : Nat} (hfree : s.maintConflict 5 p = none) : { act := 5, scope := p } ∈ (s.askLinkReset p).maint ∧
    (s.askLinkReset p).agenda = s.agenda ++ [({ dom := none, at_ := s.clk.wall, act := .cmd (.linkReset p) } : Due)] ∧
    Leaves (· ∈ maintRegs) s (s.askLinkReset p) := by
  have hask : s.askLinkReset p = (s.maintGrant 5 p).laterW 0 (.linkReset p) := by
    unfold State.askLinkReset
    rw [hfree]
  have hleaves : Leaves (· ∈ maintRegs) s (s.maintGrant 5 p) := Leaves.refl.next (.maintGrant s 5 p) fun _ h => h
  obtain ⟨hmaint, hagenda, hclk⟩ := s.maintGrant_spec 5 p
  rw [hask, State.maint_laterW, State.agenda_laterW, hagenda, hclk]
  exact ⟨hmaint, rfl, hleaves.laterW⟩

theorem registersWritten_linkReset (s : State) (h p : Nat) (hgate : s.gate h (rLnkCtrl p) 8 true = .served) :
    (∀ c, s.maintConflict 5 p = some c → exec (.linkResetRequest h p) s = .next (s.maintRefuse 5 p c)) ∧
    (s.maintConflict 5 p = none →
      ∃ t : State, exec (.linkResetRequest h p) s = .next t ∧ { act := 5, scope := p } ∈ t.maint ∧
        t.agenda = s.agenda ++ [({ dom := none, at_ := s.clk.wall, act := .cmd (.linkReset p) } : Due)] ∧ SameMem s t ∧ SameRegsBut maintRegs s t) := by
  have hexec : exec (.linkResetRequest h p) s = .next (s.askLinkReset p) := congrArg Host.Outcome.next (State.gated_served hgate)
  refine ⟨fun c hc => by rw [hexec, State.askLinkReset_refused hc], fun hfree => ?_⟩
  obtain ⟨hmaint, hagenda, hleaves⟩ := State.askLinkReset_granted hfree
  exact ⟨_, hexec, hmaint, hagenda, hleaves.sameMem, hleaves.sameRegsBut⟩

theorem rLnkCtrl_notMem_dark {p : Nat} : rLnkCtrl p ∉ rLnkStatus p :: maintRegs := by
  refine notMem_rLnkStatus_maintRegs ?_ fun st hst => ?_
  · simp only [rLnkCtrl, rLnkStatus]; omega
  · simp only [rLnkCtrl, rMemMaint, rMemPatrol]; omega

section
variable (s : State) (h p : Nat) (v : Word) (hgate : s.gate h (rLnkCtrl p) 8 true = .served)
include hgate

theorem registersWritten_linkDark (hoff : getF v 0 0 = 0) :
    ∃ t : State, exec (.linkEnable h p v) s = .next t ∧ t.fld (rLnkCtrl p) 0 0 = 0 ∧ t.linkState p = 0 ∧ (t.port p).tx = [] ∧
      SameMem s t ∧ SameRegsBut (rLnkCtrl p :: rLnkStatus p :: maintRegs) s t := by
  have hexec : exec (.linkEnable h p v) s = .next ((s.setFld (rLnkCtrl p) 0 0 0).goDark p) := by
    refine congrArg Host.Outcome.next ((State.gated_served hgate).trans ?_)
    unfold State.writeLinkEnable
    rw [hoff]
    exact if_pos rfl
  obtain ⟨hdark, hport, -⟩ := (s.setFld (rLnkCtrl p) 0 0 0).goDark_spec p
  have hset : (s.setFld (rLnkCtrl p) 0 0 0).fld (rLnkCtrl p) 0 0 = 0 := State.fld_setFld_same _ _ _ _ _ (by omega) (by omega)
  have hfirst : Leaves (· ∈ rLnkCtrl p :: rLnkStatus p :: maintRegs) s (s.setFld (rLnkCtrl p) 0 0 0) := .setFld .refl (by simp)
  have hleaves := hfirst.trans (hdark.mono fun _ hx => List.mem_cons_of_mem _ hx)
  exact ⟨_, hexec, (hdark.fld rLnkCtrl_notMem_dark 0 0).trans hset, State.linkState_goDark _ p, by rw [hport], hleaves.sameMem,
    hleaves.sameRegsBut⟩

theorem registersWritten_linkTrains (hp : p < 6) (hon : getF v 0 0 = 1) (hwas : s.fld (rLnkCtrl p) 0 0 = 0) (hdark : s.linkState p = 0)
    (hcon : s.connected p = true) (hstart : s.startPh ≠ 0) (hpwr : s.pwrState < 3 ∨ s.pwrState = 6) :
    ∃ t : State, exec (.linkEnable h p v) s = .next t ∧ t.fld (rLnkCtrl p) 0 0 = 1 ∧ t.linkState p = 1 ∧ (t.port p).trainStep = 1 ∧ SameMem s t ∧
      SameRegsBut [rLnkCtrl p, rLnkStatus p] s t := by
  have hset : (s.setFld (rLnkCtrl p) 0 0 1).fld (rLnkCtrl p) 0 0 = 1 := State.fld_setFld_same _ _ _ _ _ (by omega) (by omega)
  have hfirst : Leaves (· = rLnkCtrl p) s (s.setFld (rLnkCtrl p) 0 0 1) := .setFld .refl rfl
  have hne : rLnkCtrl p ≠ rLnkStatus p := by simp only [rLnkCtrl, rLnkStatus]; omega
  have hstate : (s.setFld (rLnkCtrl p) 0 0 1).linkState p = 0 := (hfirst.fld hne.symm 63 61).trans hdark
  have hpwr' : (s.setFld (rLnkCtrl p) 0 0 1).pwrState = s.pwrState :=
    hfirst.fld (by simp only [rLnkCtrl, rPwrStatus]; omega) 63 61
  have hcon' : (s.setFld (rLnkCtrl p) 0 0 1).connected p = true := (State.connected_congr rfl p).trans hcon
  have hstart' : (s.setFld (rLnkCtrl p) 0 0 1).startPh = s.startPh :=
    hfirst.fld (by simp only [rLnkCtrl, rPwrStatus]; omega) 60 57
  have hexec : exec (.linkEnable h p v) s = .next ((s.setFld (rLnkCtrl p) 0 0 1).trainFrom p 1) := by
    refine congrArg Host.Outcome.next ((State.gated_served hgate).trans ?_)
    unfold State.writeLinkEnable
    rw [hon]
    exact (if_neg (by decide)).trans (if_pos ⟨hwas, hstate, hcon', hstart' ▸ hstart, by rw [hpwr']; omega⟩)
  have htrain : Leaves (· = rLnkStatus p) (s.setFld (rLnkCtrl p) 0 0 1) ((s.setFld (rLnkCtrl p) 0 0 1).trainFrom p 1) := .trainFrom .refl rfl
  have hleaves : Leaves (· ∈ [rLnkCtrl p, rLnkStatus p]) s ((s.setFld (rLnkCtrl p) 0 0 1).trainFrom p 1) :=
    (hfirst.mono fun x hx => by simp [hx]).trans (htrain.mono fun x hx => by simp [hx])
  exact ⟨_, hexec, (htrain.fld hne 0 0).trans hset, State.linkState_trainFrom _ p 1, State.trainStep_trainFrom _ p 1, hleaves.sameMem,
    hleaves.sameRegsBut⟩

theorem registersWritten_linkStays (hon : getF v 0 0 = 1) (hwas : s.fld (rLnkCtrl p) 0 0 = 1) :
    ∃ t : State, exec (.linkEnable h p v) s = .next t ∧ t.ports = s.ports ∧ SameMem s t ∧ SameRegsBut [] s t := by
  have hexec : exec (.linkEnable h p v) s = .next (s.setFld (rLnkCtrl p) 0 0 1) := by
    refine congrArg Host.Outcome.next ((State.gated_served hgate).trans ?_)
    unfold State.writeLinkEnable
    rw [hon]
    exact (if_neg (by decide)).trans (if_neg fun hno => absurd (hwas.symm.trans hno.1) (by decide))
  have hleaves : Leaves (· ∈ [rLnkCtrl p]) s (s.setFld (rLnkCtrl p) 0 0 1) := .setFld .refl (List.mem_singleton_self _)
  refine ⟨_, hexec, rfl, hleaves.sameMem, fun x _ => ?_⟩
  by_cases hx : x = rLnkCtrl p
  · have hsame : setF (s.reg (rLnkCtrl p)) 0 0 (getF (s.reg (rLnkCtrl p)) 0 0) = s.reg (rLnkCtrl p) := setF_getF _ (by omega) (by omega)
    rw [show getF (s.reg (rLnkCtrl p)) 0 0 = 1 from hwas] at hsame
    rw [hx]
    exact (State.reg_setReg_same ..).trans hsame
  · exact State.reg_setFld_ne s 0 0 1 hx

end

/-! Dumps and traces (R632, R635). -/

/-- A served write of a debug register comes to its rule (R588). -/
theorem writeReg_dbg {s : State} {h a : Nat} {r : RegRow} (v : Word) (hgate : s.gate h a 8 true = .served) (hrow : rowOf a = some r)
    (hlow : 0x1800000 ≤ a) (hhigh : a < 0x1800048) : s.writeReg h a 8 v = s.writeDbg h a r v := by
  have hbase : a ≠ rHifBar2Base := by unfold rHifBar2Base; omega
  have hcmd : a ≠ rZenMbCmd := by unfold rZenMbCmd; omega
  refine (State.gated_served hgate).trans ?_
  unfold State.writeServed
  rw [hrow, if_neg (by omega), if_neg (by omega)]
  exact ((if_neg (by omega)).trans (if_neg hbase)).trans ((if_neg hcmd).trans (if_pos ⟨hlow, hhigh⟩))

theorem execDumpRelease_eq {s : State} {h : Nat} (v : Word) (hgate : s.gate h rDbgDumpSel 8 true = .served) :
    exec (.dumpRelease h v) s = .next (s.writeDumpSel h v) := by
  have hrows : (rowOf rDbgDumpSel).isSome = true := by decide +kernel
  obtain ⟨r, hrow⟩ := Option.isSome_iff_exists.mp hrows
  refine congrArg Host.Outcome.next ((writeReg_dbg v hgate hrow (by decide) (by decide)).trans ?_)
  have hring : ¬(rDbgDumpSel = rDbgEvqBase ∨ rDbgDumpSel = rDbgEvqConsAddr) := by decide
  have hctrl : rDbgDumpSel ≠ rDbgEvqCtrl := by decide
  unfold State.writeDbg
  rw [if_neg hring, if_neg hctrl, if_pos rfl]

theorem execTraceEnable_eq {s : State} {h : Nat} (v : Word) (hgate : s.gate h rDbgTraceCtrl 8 true = .served) :
    exec (.traceEnable h v) s = .next (s.writeTraceCtrl v) := by
  have hrows : (rowOf rDbgTraceCtrl).isSome = true := by decide +kernel
  obtain ⟨r, hrow⟩ := Option.isSome_iff_exists.mp hrows
  refine congrArg Host.Outcome.next ((writeReg_dbg v hgate hrow (by decide) (by decide)).trans ?_)
  have hring : ¬(rDbgTraceCtrl = rDbgEvqBase ∨ rDbgTraceCtrl = rDbgEvqConsAddr) := by decide
  have hctrl : rDbgTraceCtrl ≠ rDbgEvqCtrl := by decide
  have hsel : rDbgTraceCtrl ≠ rDbgDumpSel := by decide
  have hstatus : rDbgTraceCtrl ≠ rDbgDumpStatus := by decide
  unfold State.writeDbg
  rw [if_neg hring, if_neg hctrl, if_neg hsel, if_neg hstatus, if_pos rfl]

/-- A dump slot selected (R638). -/
def State.dumpSelected (s : State) (h : Nat) (v : Word) : State := s.setFld (rDbgDumpSel + localStride * h) 3 0 (getF v 3 0)

theorem State.dumpSelected_spec (s : State) (h : Nat) (v : Word) : (s.dumpSelected h v).dumpSel h = getF v 3 0 ∧
    Leaves (· ∈ [rDbgDumpSel + localStride * h]) s (s.dumpSelected h v) := by
  refine ⟨(State.fld_setFld_same _ _ _ _ _ (by omega) (by omega)).trans (Nat.mod_eq_of_lt (getF_lt v 3 0)), .setFld .refl (List.mem_singleton_self _)⟩

theorem registersWritten_release (s : State) (h : Nat) (v : Word) (hgate : s.gate h rDbgDumpSel 8 true = .served) (hset : getF v 63 63 = 1)
    (hvalid : (SMap.get s.dumps (getF v 3 0)).valid = true) (howner : (SMap.get s.dumps (getF v 3 0)).owner = h) :
    ∃ t : State, exec (.dumpRelease h v) s = .next t ∧ (SMap.get t.dumps (getF v 3 0)).valid = false ∧
      (∀ n, n ≠ getF v 3 0 → SMap.get t.dumps n = SMap.get s.dumps n) ∧ t.fld (rDbgDumpSel + localStride * h) 3 0 = getF v 3 0 ∧
      SameMem s t ∧ SameRegsBut [rDbgDumpSel + localStride * h] s t := by
  obtain ⟨hsel, hleaves⟩ := s.dumpSelected_spec h v
  have hexec : exec (.dumpRelease h v) s = .next { s.dumpSelected h v with dumps := SMap.set s.dumps (getF v 3 0) {} } := by
    rw [execDumpRelease_eq v hgate]
    show Host.Outcome.next (if getF v 63 63 = 1 ∧ (SMap.get s.dumps ((s.dumpSelected h v).dumpSel h)).valid = true ∧
        (SMap.get s.dumps ((s.dumpSelected h v).dumpSel h)).owner = h then
      { s.dumpSelected h v with dumps := SMap.set s.dumps ((s.dumpSelected h v).dumpSel h) {} } else s.dumpSelected h v) = _
    rw [hsel, if_pos ⟨hset, hvalid, howner⟩]
  have hall : Leaves (· ∈ [rDbgDumpSel + localStride * h]) s { s.dumpSelected h v with dumps := SMap.set s.dumps (getF v 3 0) {} } := .upd hleaves
  refine ⟨_, hexec, ?_, fun n hn => ?_, hsel, hall.sameMem, hall.sameRegsBut⟩
  · rw [SMap.get_set_same]
  · exact SMap.get_set_ne s.dumps ({} : DumpSlot) hn

theorem registersWritten_selects (s : State) (h : Nat) (v : Word) (hgate : s.gate h rDbgDumpSel 8 true = .served)
    (hno : getF v 63 63 = 0 ∨ (SMap.get s.dumps (getF v 3 0)).owner ≠ h) :
    ∃ t : State, exec (.dumpRelease h v) s = .next t ∧ t.dumps = s.dumps ∧ t.fld (rDbgDumpSel + localStride * h) 3 0 = getF v 3 0 ∧
      SameMem s t ∧ SameRegsBut [rDbgDumpSel + localStride * h] s t := by
  obtain ⟨hsel, hleaves⟩ := s.dumpSelected_spec h v
  have hexec : exec (.dumpRelease h v) s = .next (s.dumpSelected h v) := by
    rw [execDumpRelease_eq v hgate]
    show Host.Outcome.next (if getF v 63 63 = 1 ∧ (SMap.get s.dumps ((s.dumpSelected h v).dumpSel h)).valid = true ∧
        (SMap.get s.dumps ((s.dumpSelected h v).dumpSel h)).owner = h then
      { s.dumpSelected h v with dumps := SMap.set s.dumps ((s.dumpSelected h v).dumpSel h) {} } else s.dumpSelected h v) = _
    rw [hsel, if_neg]
    rintro ⟨hset, -, howner⟩
    exact hno.elim (fun hclear => absurd (hclear.symm.trans hset) (by decide)) fun hother => hother howner
  exact ⟨_, hexec, rfl, hsel, hleaves.sameMem, hleaves.sameRegsBut⟩

/-- Trace capture written where nothing is against it (R635). -/
theorem registersWritten_traces {s : State} {h : Nat} {v : Word} (hgate : s.gate h rDbgTraceCtrl 8 true = .served)
    (hfree : getF v 63 63 = 0 ∨ s.anyConf = false) : ∃ t : State, exec (.traceEnable h v) s = .next t ∧
      t.fld rDbgTraceCtrl 63 63 = getF v 63 63 ∧ t.reg rDbgTraceCtrl = v &&& 0xC0000000000000C7#64 ∧ SameMem s t ∧
      SameRegsBut [rDbgTraceCtrl] s t := by
  have hgo : ¬(getF v 63 63 = 1 ∧ s.anyConf = true) := by
    rintro ⟨hset, hconf⟩
    rcases hfree with hclear | hopen
    · exact absurd (hclear.symm.trans hset) (by decide)
    · exact absurd (hopen.symm.trans hconf) (by decide)
  have hexec : exec (.traceEnable h v) s = .next (s.setReg rDbgTraceCtrl (v &&& 0xC0000000000000C7#64)) := by
    rw [execTraceEnable_eq v hgate]
    exact congrArg Host.Outcome.next (if_neg hgo)
  have hword : (s.setReg rDbgTraceCtrl (v &&& 0xC0000000000000C7#64)).reg rDbgTraceCtrl = v &&& 0xC0000000000000C7#64 := State.reg_setReg_same ..
  have hleaves : Leaves (· ∈ [rDbgTraceCtrl]) s (s.setReg rDbgTraceCtrl (v &&& 0xC0000000000000C7#64)) := .setReg .refl (List.mem_singleton_self _)
  refine ⟨_, hexec, ?_, hword, hleaves.sameMem, hleaves.sameRegsBut⟩
  rw [State.fld, hword]
  exact getF_and_of_full _ _ _ _ (by decide)

theorem registersWritten_traceRefused (s : State) (h : Nat) (v : Word) (hgate : s.gate h rDbgTraceCtrl 8 true = .served) (hset : getF v 63 63 = 1)
    (hconf : s.anyConf = true) : exec (.traceEnable h v) s = .next s :=
  (execTraceEnable_eq v hgate).trans (congrArg Host.Outcome.next (if_pos ⟨hset, hconf⟩))

/-- Settles O53: the writes of a core's registers, then those of a port's own and of the module's. -/
theorem registersWritten : Obligations.RegistersWritten := by
  refine ⟨⟨registersWritten_core, fun s h k n v hk hn => ⟨registersWritten_arm s h k n v hk hn, fun d => registersWritten_base s h k n v d hk hn⟩,
    registersWritten_freeze, registersWritten_schedule, registersWritten_bar2Base⟩,
    fun s h p _ => registersWritten_linkReset s h p, fun s h p v hp hgate => ⟨registersWritten_linkDark s h p v hgate,
      registersWritten_linkTrains s h p v hgate hp, registersWritten_linkStays s h p v hgate⟩, registersWritten_release, registersWritten_selects,
    fun s h v hgate hclear => ?_, fun s h v hgate hset => ⟨registersWritten_traceRefused s h v hgate hset, fun hopen => ?_⟩⟩
  · obtain ⟨t, hexec, hbit, hrest⟩ := registersWritten_traces hgate (.inl hclear)
    exact ⟨t, hexec, hbit.trans hclear, hrest⟩
  · obtain ⟨t, hexec, hbit, hrest⟩ := registersWritten_traces hgate (.inr hopen)
    exact ⟨t, hexec, hbit.trans hset, hrest⟩

end Sys2Proof.Machine
end
